-- ==== Sys2Proof/Word.lean ====
section
/-! DEFINITION. Word and address types, the three channels, and the operand types that the commands of
Sys2Proof.Instr and the program words of a bank carry. Nothing here computes an effect. -/

namespace Sys2Proof

/-- A 32-bit image, register or program word. -/
abbrev Word := BitVec 32
/-- One byte. -/
abbrev Byte := BitVec 8
/-- A 64-bit quantity: identities, signatures, times in ns, lease epochs. -/
abbrev Word64 := BitVec 64
/-- Bit address of the bit image (form B, Table 4-2). -/
abbrev BitAddr := BitVec 18
/-- Word address of the word image (form W, Table 4-2). -/
abbrev WordAddr := BitVec 14

/-- A sparse map over natural keys: keys strictly rising, no entry equal to the default of its key. -/
abbrev FMap (β : Type) := List (Nat × β)

/-- The channels CH-A, CH-B and CH-C (Table 0-2). -/
inductive Ch where
  | chA | chB | chC
  deriving DecidableEq, Repr

/-- One value per channel. -/
structure Per3 (α : Type) where
  a : α
  b : α
  c : α
  deriving DecidableEq, Repr

/-- A value that carries a poison flag (R104, R130). -/
structure Psn (α : Type) where
  v : α
  p : Bool
  deriving DecidableEq, Repr

/-- Operand of the bit logic instructions: form B or form K (Table 4-3). -/
inductive BitOp where
  | bit (a : BitAddr)
  | k (x : Bool)
  deriving DecidableEq, Repr

/-- Operand of arithmetic and compares: W, S24, W unsigned or Z24 (Table 4-3); `uns` is a `.U` form. -/
inductive ArOp where
  | w (uns : Bool) (a : WordAddr)
  | imm (uns : Bool) (x : BitVec 24)
  deriving DecidableEq, Repr

/-- Operand of the word logic instructions: W, S24 (`.I`) or Z24 (`.IU`). -/
inductive LogOp where
  | w (a : WordAddr)
  | i (x : BitVec 24)
  | iu (x : BitVec 24)
  deriving DecidableEq, Repr

/-- Operand of the shifts: W or C5. -/
inductive ShOp where
  | w (a : WordAddr)
  | c (n : BitVec 5)
  deriving DecidableEq, Repr

/-- Operand of `LIMIT`: WP or P12, signed or unsigned. -/
inductive LimOp where
  | wp (uns : Bool) (a : WordAddr)
  | p (uns : Bool) (lo hi : BitVec 12)
  deriving DecidableEq, Repr

/-- Timer variants: none, `.E`, `.R` (R120). -/
inductive TVar where
  | plain | e | r
  deriving DecidableEq, Repr

/-- Counter variants: none, `.V`, `.R` (R122). -/
inductive CVar where
  | plain | v | r
  deriving DecidableEq, Repr

/-- A decoded word of a bank's stream: the 51 instructions of Table 4-3 with their operand forms. -/
inductive LInstr where
  | nop | phase | endp
  | assert (a : BitVec 10)
  | ld (x : BitOp) | ldn (x : BitOp) | and (x : BitOp) | andn (x : BitOp)
  | or (x : BitOp) | orn (x : BitOp) | xor (x : BitOp)
  | redge (m : BitAddr) | fedge (m : BitAddr)
  | bpush | bor | band
  | zon (neg : Bool) | zoff
  | out (b : BitAddr) | outn (b : BitAddr) | set (b : BitAddr) | rst (b : BitAddr)
  | stw (w : WordAddr)
  | ldw (w : WordAddr) | ldwi (uns : Bool) (x : BitVec 24) | ldwh (h : BitVec 16)
  | ldx (t : BitVec 8)
  | add (x : ArOp) | sub (x : ArOp) | mul (x : ArOp) | min (x : ArOp) | max (x : ArOp)
  | andw (x : LogOp) | orw (x : LogOp) | xorw (x : LogOp)
  | shl (x : ShOp) | shr (x : ShOp) | asr (x : ShOp)
  | limit (x : LimOp)
  | ceq (x : ArOp) | cne (x : ArOp) | clt (x : ArOp) | cle (x : ArOp) | cgt (x : ArOp) | cge (x : ArOp)
  | ton (k : TVar) (t : BitVec 12) | tof (k : TVar) (t : BitVec 12) | tp (k : TVar) (t : BitVec 12)
  | ctu (k : CVar) (t : BitVec 12) | ctd (k : CVar) (t : BitVec 12)
  | cres (preset : Bool) (t : BitVec 12)
  deriving DecidableEq, Repr

/-- A command record on its way to the module: the words `CMD_REC[0]` to `CMD_REC[3]` less the code (R402),
with the submitter. -/
inductive CmdPort where
  | host | service
  deriving DecidableEq, Repr

/-- The two moments of a command of the lane: its submission (R402 to R405) and its effect at the Tc of R50.
`arrive` carries the sequence number and the poison mark of word 0's write, the chainage in ns and whether any
of the record's words arrived poisoned. -/
inductive CmdForm where
  | arrive (seq : BitVec 16) (chainageNs : Nat) (poisoned : Bool)
  | apply (seq : BitVec 16)
  deriving DecidableEq, Repr

/-- A command record without its code: form, submitting port and the words 1 to 3. -/
structure CmdRec where
  form : CmdForm
  port : CmdPort
  w1 : Word
  w2 : Word
  w3 : Word
  deriving DecidableEq, Repr

/-- A signature record as received (R173): the spec names its contents and no byte layout; `crcOk` says whether
its CRC-32C over the record held. -/
structure SigRec where
  k16 : BitVec 16
  sender : Ch
  travEnd : Bool
  acc : Word64
  raised : List (BitVec 10)
  ovr : Bool
  psn : Bool
  crcOk : Bool
  deriving DecidableEq, Repr

/-- A LEASE frame as received (Table 12-3): `src` is the sending node of its header, `node` the node that byte 23 names,
`last` bytes 24 to 31; `crcOk` says whether checks 1 to 3 of its safety trailer hold. -/
structure LeaseMsg where
  kind : Nat
  pair : Nat
  src : Nat
  node : Nat
  epoch : Nat
  cycle : Nat
  kSnap : Nat
  flags : Nat
  last : Nat
  connId : Nat
  seq : Nat
  crcOk : Bool
  deriving DecidableEq, Repr

/-- What is measured at the end of an off-pulse (R250), in mV: across the opened switch, and of the field supply group. -/
structure PulseVolts where
  mV : Nat
  groupMv : Nat
  deriving DecidableEq, Repr

/-- What the DLK senses (R275): currents of inputs in uA (0 to 9 SI1 to SI10, 10 and 11 SI23 and SI24), how long their threshold
stages have held their outputs, and the time since the change that the DLK took last. -/
structure DlkSense where
  uA : FMap Nat
  heldNs : Nat
  sinceNs : Nat
  deriving DecidableEq, Repr

/-- The host-port reset kinds of R416. -/
inductive HostResetKind where
  | hotReset | linkDown | flr | perst
  deriving DecidableEq, Repr

/-- Access codes of register fields (Table 0-6). -/
inductive Acc where
  | ro | rw | wo | w1c | w1s | rwl | rc
  deriving DecidableEq, Repr

/-- Reset letters (Table 0-5). -/
inductive RLetter where
  | k | p | m | w | c | h
  deriving DecidableEq, Repr

/-- One register field: offset in BAR 0, least significant bit, width, access code, reset value, reach. -/
structure Fld where
  off : Nat
  lsb : Nat
  width : Nat
  acc : Acc
  rst : Nat
  reach : List RLetter
  deriving DecidableEq, Repr

/-- A register family: base offset, two strides with their counts, and the fields of its first member. -/
structure RegRow where
  name : String
  base : Nat
  stride : Nat
  count : Nat
  stride2 : Nat
  count2 : Nat
  flds : List Fld
  deriving DecidableEq, Repr

/-- What the schedule section gives one schedule entry beside its eight words (R300, R303, R310): destination address,
connection ID of its safety code, and the nodes permitted where `OWNER` is 0. -/
structure NetEnt where
  dst : BitVec 48
  connId : Nat
  nodes : List Nat
  deriving DecidableEq, Repr

/-- Age limit, misses before substitution and substitute values by image word of a station or a connection. -/
structure NetPeer where
  a : Nat
  s : Nat
  subst : FMap Word
  deriving DecidableEq, Repr

/-- The schedule and network configuration beside the entries (R319, R335, R344, R357, R361). Ports are masks; `slow`
marks consist ports operated at 100BASE-TX; keys of `peers` are stations s and connections 128 + c. -/
structure NetCfg where
  etherType : Nat
  pi : Nat
  g : Nat
  tbcCode : Nat
  mCode : Nat
  freeFwd : Nat
  connected : Nat
  slow : Nat
  linkNs : FMap Nat
  holdPpb : Nat
  masters0 : List Nat
  masters1 : List Nat
  launches : List (Nat × Nat)
  asPorts : Nat
  asSyncLog : Nat
  asPrio : Nat
  ents : List (Nat × NetEnt)
  peers : List (Nat × NetPeer)
  deriving DecidableEq, Repr

/-- The network configuration before any schedule is loaded: the reset values of the registers that report it. -/
def NetCfg.none : NetCfg :=
  { etherType := 0x88B6, pi := 100, g := 200, tbcCode := 2, mCode := 0, freeFwd := 0, connected := 0, slow := 0, linkNs := [],
    holdPpb := 2000, masters0 := [], masters1 := [], launches := [], asPorts := 0, asSyncLog := 3, asPrio := 246, ents := [],
    peers := [] }

/-- A symbol of a bank (Table 5-1). -/
structure Sym where
  id : Word
  word : Bool
  addr : Nat
  deriving DecidableEq, Repr

/-- An initial value of a bank (Table 5-1). -/
structure InitVal where
  word : Bool
  addr : Nat
  value : Word
  deriving DecidableEq, Repr

/-- A read-only table of a bank (R96). -/
structure TableDesc where
  num : Nat
  len : Nat
  dflt : Word
  entries : List Word
  deriving DecidableEq, Repr

/-- Effect of a declared assertion (R124). -/
inductive AssertEff where
  | safe
  | event (sev : Nat)
  deriving DecidableEq, Repr

/-- One migration operation (R156, Table 5-4). -/
structure MigOp where
  op : Nat
  dst : Nat
  src : Word
  deriving DecidableEq, Repr

/-- A logic bank section (Table 5-1) with its identity (R132). -/
structure Bank where
  id : Word64
  tbc : Nat
  phases : Nat
  lanesUsed : Nat
  warm : Bool
  layoutId : Word
  streams : FMap (List Word)
  symbols : List Sym
  inits : List InitVal
  tPresets : List (Nat × Nat)
  cPresets : List (Nat × Word)
  tables : List TableDesc
  asserts : List (Nat × AssertEff)
  migrFrom : Word64
  migr : List MigOp
  deriving DecidableEq, Repr

/-- Gateway messages or routes by word (R423, R426) with the ports configured and their options, as masks (Table 14-1,
R421, R422). Message words have key m × 2 + w, route words r × 4 + w. -/
structure GwyTab where
  msgs : FMap Word
  routes : FMap Word
  enabled : Nat
  nmt : Nat
  crc16 : Nat
  deriving DecidableEq, Repr

/-- The empty gateway bank. -/
def GwyTab.empty : GwyTab := { msgs := [], routes := [], enabled := 0, nmt := 0, crc16 := 0 }

/-- A credential of the security policy (R500): SHA-384 of its key, its roles (Table 17-7) and its ports. -/
structure Cred where
  digest : List Byte
  roles : Nat
  host : Bool
  service : Bool
  deriving DecidableEq, Repr

/-- The security policy section: idle time in s and credentials. -/
structure Policy where
  idle : Nat
  creds : List Cred
  deriving DecidableEq, Repr

/-- No credential; the default idle time. -/
def Policy.empty : Policy := { idle := 900, creds := [] }

end Sys2Proof
end

