-- ==== Sys2Proof/Config.lean ====
section
/-! DEFINITION. What one build or one installation of the module fixes and what the spec leaves open: constants
without a body, so that nothing proved here depends on their values. A step applies the per-use ones to the
counter `State.free`. The functions of a standard that the spec names, and the contents of a container section whose
byte layout the spec does not give, are constants of the same kind. -/

namespace Sys2Proof.Config

/-- A value that the spec leaves open, one for each number of the plain counter `State.free`. -/
opaque freeValue : Nat → Nat

/-- A truth value that the spec leaves open, in the same form. -/
opaque freeBool : Nat → Bool

/-- How long after its Tc a block reported the n-th record (R460), in ns: the instant inside a cycle is open. -/
opaque reportLag : Nat → Nat

/-- `HW_MAJOR` of `MOD_VERSION`, a constant of the build (R6). -/
opaque hwMajor : BitVec 8
/-- `HW_MINOR` of `MOD_VERSION`. -/
opaque hwMinor : BitVec 8
/-- `ASSY_LEVEL` of `MOD_VERSION`. -/
opaque assyLevel : BitVec 8

/-- SHA-384 of a byte string, as the standard defines it (48 bytes). -/
opaque sha384 : List Byte → List Byte

/-- RSASSA-PSS with SHA-384 verifies: modulus, exponent, message, signature (Table 17-4, R501). -/
opaque pssVerify : List Byte → List Byte → List Byte → List Byte → Bool
/-- SLH-DSA-SHA2-192s verifies: public key, message, signature. -/
opaque slhVerify : List Byte → List Byte → List Byte → Bool
/-- AES-256-GCM under a sealed fleet key: key as sealed, IV, additional data, stored section; none where the tag fails. -/
opaque gcmOpen : List Byte → List Byte → List Byte → List Byte → Option (List Byte)
/-- A fleet key decrypted with the transport key and sealed with the module-unique key (R485); none where it fails. -/
opaque sealKey : List Byte → Option (List Byte)
/-- The 32-byte challenge of each number (R501). -/
opaque challenge : Nat → List Byte
/-- The transport key's certificate (R486). -/
opaque cert : List Byte
/-- The Halastor signature block of a firmware section verifies (R481). -/
opaque fwSigOk : List Byte → Bool
/-- Version of the firmware in a firmware section. -/
opaque fwVersion : List Byte → Nat
/-- Layout version of a section type that the firmware of a version uses (R476, R490). -/
opaque secVersion : Nat → Nat → Nat

/-- The security policy in force while no container's policy is (BOOT, and HOLD under R487 to R489). -/
opaque holdPolicy : Option Policy

/-- Contents of sections, by their plaintext, after migration from the layout version given (R490). -/
opaque parseBank : List Byte → Option Bank
opaque parseSched : Nat → List Byte → List Byte → Option (FMap Word × NetCfg × Nat)
opaque parseGwy : Nat → List Byte → Option GwyTab
/-- Register fields by key, and the severity plus 1 of each program event bit (R461). -/
opaque parseSio : Nat → List Byte → Option (FMap Nat × FMap Nat)
opaque parseLoop : Nat → List Byte → Option (FMap Nat)
/-- Register fields by key, and the lease length of the pair of each arbiter slot. -/
opaque parseTwin : Nat → List Byte → Option (FMap Nat × FMap Nat)
opaque parsePolicy : Nat → List Byte → Option Policy

/-- Rows of a channel's SRAM that its fuse map replaces, recorded at factory test (R222). -/
opaque fuseMap : Nat → List Nat
/-- What a channel's link buffers and controller memory hold, by channel and codeword address (R207). -/
opaque ccuData : Nat → Nat → BitVec 64

/-- Where each threshold of a sense stage lies inside the 0.1 mA that R233 leaves it, in µA above the lower end;
keyed by channel × 24 + input. -/
opaque thrBroken : Nat → Nat
opaque thrOpenLow : Nat → Nat
opaque thrOpenHigh : Nat → Nat
opaque thrClosed : Nat → Nat

end Sys2Proof.Config
end

