-- ==== Sys2Proof/Machine/Regs.lean ====
section
/-! DEFINITION. The BAR 0 register map: every named field of every register map of spec/ (offset, bits, access
code, reset value and reach), and one row per register family for the lookup of an offset (R529, R530). A field
whose reset column reads "from OTP", "from slots" or "random" has reset 0 here and is computed where it is read. -/

namespace Sys2Proof.Machine

def Reg.MOD_IDENT_FAMILY : Fld := ⟨0x00000000, 16, 16, .ro, 28944, [.p, .m]⟩
def Reg.MOD_IDENT_MEMBER : Fld := ⟨0x00000000, 0, 16, .ro, 12438, [.p, .m]⟩
def Reg.MOD_VERSION_HW_MAJOR : Fld := ⟨0x00000004, 24, 8, .ro, Config.hwMajor.toNat, [.p, .m]⟩
def Reg.MOD_VERSION_HW_MINOR : Fld := ⟨0x00000004, 16, 8, .ro, Config.hwMinor.toNat, [.p, .m]⟩
def Reg.MOD_VERSION_ASSY_LEVEL : Fld := ⟨0x00000004, 8, 8, .ro, Config.assyLevel.toNat, [.p, .m]⟩
def Reg.MOD_VERSION_IDENT_LAYOUT : Fld := ⟨0x00000004, 0, 8, .ro, 1, [.p, .m]⟩
def Reg.MOD_PARAM0_PROG_KI : Fld := ⟨0x00000010, 16, 16, .ro, 64, [.p, .m]⟩
def Reg.MOD_PARAM0_PHASES : Fld := ⟨0x00000010, 9, 7, .ro, 64, [.p, .m]⟩
def Reg.MOD_PARAM0_LANES : Fld := ⟨0x00000010, 4, 5, .ro, 16, [.p, .m]⟩
def Reg.MOD_PARAM0_CHANNELS : Fld := ⟨0x00000010, 0, 4, .ro, 3, [.p, .m]⟩
def Reg.MOD_PARAM1_WORD_IMAGE_KI : Fld := ⟨0x00000014, 16, 16, .ro, 16, [.p, .m]⟩
def Reg.MOD_PARAM1_BIT_IMAGE_KI : Fld := ⟨0x00000014, 0, 16, .ro, 256, [.p, .m]⟩
def Reg.MOD_PARAM2_COUNTERS : Fld := ⟨0x00000018, 16, 16, .ro, 4096, [.p, .m]⟩
def Reg.MOD_PARAM2_TIMERS : Fld := ⟨0x00000018, 0, 16, .ro, 4096, [.p, .m]⟩
def Reg.MOD_PARAM3_TABLE_WORDS : Fld := ⟨0x0000001C, 16, 16, .ro, 4096, [.p, .m]⟩
def Reg.MOD_PARAM3_TABLES : Fld := ⟨0x0000001C, 0, 16, .ro, 256, [.p, .m]⟩
def Reg.MOD_PARAM4_SCHED_ENTRIES : Fld := ⟨0x00000020, 16, 16, .ro, 2048, [.p, .m]⟩
def Reg.MOD_PARAM4_STATIONS : Fld := ⟨0x00000020, 8, 8, .ro, 128, [.p, .m]⟩
def Reg.MOD_PARAM4_ETH_PORTS : Fld := ⟨0x00000020, 0, 8, .ro, 14, [.p, .m]⟩
def Reg.MOD_PARAM5_LOOPS : Fld := ⟨0x00000024, 28, 4, .ro, 4, [.p, .m]⟩
def Reg.MOD_PARAM5_EIA485 : Fld := ⟨0x00000024, 24, 4, .ro, 2, [.p, .m]⟩
def Reg.MOD_PARAM5_MVB : Fld := ⟨0x00000024, 20, 4, .ro, 2, [.p, .m]⟩
def Reg.MOD_PARAM5_CAN : Fld := ⟨0x00000024, 16, 4, .ro, 4, [.p, .m]⟩
def Reg.MOD_PARAM5_ROUTES : Fld := ⟨0x00000024, 0, 16, .ro, 4096, [.p, .m]⟩
def Reg.MOD_PARAM6_FORCES : Fld := ⟨0x00000028, 16, 16, .ro, 256, [.p, .m]⟩
def Reg.MOD_PARAM6_SO : Fld := ⟨0x00000028, 8, 8, .ro, 12, [.p, .m]⟩
def Reg.MOD_PARAM6_SI : Fld := ⟨0x00000028, 0, 8, .ro, 24, [.p, .m]⟩
def Reg.MOD_STATUS_ACK_READY : Fld := ⟨0x00000040, 24, 1, .ro, 0, [.p, .m]⟩
def Reg.MOD_STATUS_SESSION : Fld := ⟨0x00000040, 23, 1, .ro, 0, [.p, .m]⟩
def Reg.MOD_STATUS_ZERO_SPEED : Fld := ⟨0x00000040, 22, 1, .ro, 0, [.p, .m]⟩
def Reg.MOD_STATUS_KEY : Fld := ⟨0x00000040, 21, 1, .ro, 0, [.p, .m]⟩
def Reg.MOD_STATUS_OUT_PERMIT : Fld := ⟨0x00000040, 20, 1, .ro, 0, [.p, .m]⟩
def Reg.MOD_STATUS_CFG_VALID : Fld := ⟨0x00000040, 19, 1, .ro, 0, [.p, .m]⟩
def Reg.MOD_STATUS_TIME_VALID : Fld := ⟨0x00000040, 18, 1, .ro, 0, [.p, .m]⟩
def Reg.MOD_STATUS_RETIRED : Fld := ⟨0x00000040, 15, 3, .ro, 0, [.p, .m]⟩
def Reg.MOD_STATUS_IN_VOTE : Fld := ⟨0x00000040, 12, 3, .ro, 0, [.p, .m]⟩
def Reg.MOD_STATUS_VOTE_DEG : Fld := ⟨0x00000040, 10, 2, .ro, 0, [.p, .m]⟩
def Reg.MOD_STATUS_ROLE : Fld := ⟨0x00000040, 8, 2, .ro, 1, [.p, .m]⟩
def Reg.MOD_STATUS_DEBUG : Fld := ⟨0x00000040, 4, 1, .ro, 0, [.p, .m]⟩
def Reg.MOD_STATUS_MODE : Fld := ⟨0x00000040, 0, 4, .ro, 1, [.p, .m]⟩
def Reg.MOD_CAUSE_SEQ : Fld := ⟨0x00000044, 24, 8, .ro, 0, [.p, .m]⟩
def Reg.MOD_CAUSE_CHANNELS : Fld := ⟨0x00000044, 16, 3, .ro, 0, [.p, .m]⟩
def Reg.MOD_CAUSE_TO : Fld := ⟨0x00000044, 12, 4, .ro, 1, [.p, .m]⟩
def Reg.MOD_CAUSE_FROM : Fld := ⟨0x00000044, 8, 4, .ro, 0, [.p, .m]⟩
def Reg.MOD_CAUSE_CAUSE : Fld := ⟨0x00000044, 0, 8, .ro, 1, [.p, .m]⟩
def Reg.MOD_CH_STATE_EXCL_COUNT (n : Nat) : Fld := ⟨0x00000050 + n * 0x4, 16, 16, .ro, 0, [.p, .m]⟩
def Reg.MOD_CH_STATE_LAST_CAUSE (n : Nat) : Fld := ⟨0x00000050 + n * 0x4, 8, 8, .ro, 0, [.p, .m]⟩
def Reg.MOD_CH_STATE_PLUG_COPY (n : Nat) : Fld := ⟨0x00000050 + n * 0x4, 6, 1, .ro, 0, [.p, .m, .c]⟩
def Reg.MOD_CH_STATE_RESYNC_FAILS (n : Nat) : Fld := ⟨0x00000050 + n * 0x4, 4, 2, .ro, 0, [.p, .m, .c]⟩
def Reg.MOD_CH_STATE_STATE (n : Nat) : Fld := ⟨0x00000050 + n * 0x4, 0, 3, .ro, 0, [.p, .m, .c]⟩
def Reg.MOD_DOMAIN_LOSS : Fld := ⟨0x00000060, 16, 8, .w1c, 0, [.p, .m]⟩
def Reg.MOD_DOMAIN_CLAMP : Fld := ⟨0x00000060, 8, 8, .ro, 0, [.p, .m]⟩
def Reg.MOD_DOMAIN_PGOOD : Fld := ⟨0x00000060, 0, 8, .ro, 0, [.p, .m]⟩
def Reg.TMU_CYC_CFG_EPOCH : Fld := ⟨0x00800100, 8, 8, .ro, 0, [.p, .m]⟩
def Reg.TMU_CYC_CFG_M_CODE : Fld := ⟨0x00800100, 4, 3, .ro, 0, [.p, .m]⟩
def Reg.TMU_CYC_CFG_TBC_CODE : Fld := ⟨0x00800100, 0, 4, .ro, 2, [.p, .m]⟩
def Reg.TMU_CYC_INDEX_CYCLE : Fld := ⟨0x00800104, 6, 26, .ro, 0, [.p, .m]⟩
def Reg.TMU_CYC_INDEX_MX_INDEX : Fld := ⟨0x00800104, 0, 6, .ro, 0, [.p, .m]⟩
def Reg.TMU_CYC_WINDOW_WINDOW_CLK : Fld := ⟨0x00800108, 0, 26, .ro, 372000, [.p, .m]⟩
def Reg.TMU_CYC_WCET_RUN_CLK : Fld := ⟨0x0080010C, 0, 26, .ro, 0, [.p, .m]⟩
def Reg.TMU_CYC_WCET_UC_UC_CLK : Fld := ⟨0x00800110, 0, 26, .ro, 0, [.p, .m]⟩
def Reg.TMU_CYC_OVR_FLAG : Fld := ⟨0x00800114, 24, 3, .w1c, 0, [.p, .m]⟩
def Reg.TMU_CYC_OVR_COUNT_C : Fld := ⟨0x00800114, 16, 8, .ro, 0, [.p, .m]⟩
def Reg.TMU_CYC_OVR_COUNT_B : Fld := ⟨0x00800114, 8, 8, .ro, 0, [.p, .m]⟩
def Reg.TMU_CYC_OVR_COUNT_A : Fld := ⟨0x00800114, 0, 8, .ro, 0, [.p, .m]⟩
def Reg.TMU_CYC_XCHG_LINK_FLT : Fld := ⟨0x00800118, 24, 3, .w1c, 0, [.p, .m]⟩
def Reg.TMU_CYC_XCHG_MISS_CA : Fld := ⟨0x00800118, 16, 8, .ro, 0, [.p, .m]⟩
def Reg.TMU_CYC_XCHG_MISS_BC : Fld := ⟨0x00800118, 8, 8, .ro, 0, [.p, .m]⟩
def Reg.TMU_CYC_XCHG_MISS_AB : Fld := ⟨0x00800118, 0, 8, .ro, 0, [.p, .m]⟩
def Reg.TMU_CYC_ISTG_EXCL (n : Nat) : Fld := ⟨0x00800120 + n * 0x4, 0, 24, .ro, 0, [.p, .m, .c]⟩
def Reg.LEN_CAPS_CLK_MHZ (n : Nat) : Fld := ⟨0x00300000 + n * 0x100000, 16, 16, .ro, 400, [.p, .m]⟩
def Reg.LEN_CAPS_TBL_STORE_KI (n : Nat) : Fld := ⟨0x00300000 + n * 0x100000, 0, 16, .ro, 128, [.p, .m]⟩
def Reg.LEN_STATUS_PHASE (n : Nat) : Fld := ⟨0x00300004 + n * 0x100000, 8, 6, .ro, 0, [.p, .m, .c]⟩
def Reg.LEN_STATUS_UC_STATE (n : Nat) : Fld := ⟨0x00300004 + n * 0x100000, 4, 3, .ro, 0, [.p, .m, .c]⟩
def Reg.LEN_STATUS_BANK_RUN (n : Nat) : Fld := ⟨0x00300004 + n * 0x100000, 3, 1, .ro, 0, [.p, .m, .c]⟩
def Reg.LEN_STATUS_RUN (n : Nat) : Fld := ⟨0x00300004 + n * 0x100000, 0, 3, .ro, 0, [.p, .m, .c]⟩
def Reg.LEN_LANE_STAT_RNG (n : Nat) : Fld := ⟨0x00300008 + n * 0x100000, 16, 16, .ro, 0, [.p, .m, .w, .c]⟩
def Reg.LEN_LANE_STAT_OVF (n : Nat) : Fld := ⟨0x00300008 + n * 0x100000, 0, 16, .ro, 0, [.p, .m, .w, .c]⟩
def Reg.LEN_LANE_STICKY_RNG (n : Nat) : Fld := ⟨0x0030000C + n * 0x100000, 16, 16, .w1c, 0, [.p, .m, .w, .c]⟩
def Reg.LEN_LANE_STICKY_OVF (n : Nat) : Fld := ⟨0x0030000C + n * 0x100000, 0, 16, .w1c, 0, [.p, .m, .w, .c]⟩
def Reg.LEN_PSN_COUNT (n : Nat) : Fld := ⟨0x00300010 + n * 0x100000, 24, 8, .ro, 0, [.p, .m]⟩
def Reg.LEN_PSN_LANES (n : Nat) : Fld := ⟨0x00300010 + n * 0x100000, 0, 16, .ro, 0, [.p, .m, .c]⟩
def Reg.LEN_BANK_RUN_LO_ID_LO (n : Nat) : Fld := ⟨0x00300014 + n * 0x100000, 0, 32, .ro, 0, [.p, .m, .c]⟩
def Reg.LEN_BANK_RUN_HI_ID_HI (n : Nat) : Fld := ⟨0x00300018 + n * 0x100000, 0, 32, .ro, 0, [.p, .m, .c]⟩
def Reg.LEN_BANK_UC_LO_ID_LO (n : Nat) : Fld := ⟨0x0030001C + n * 0x100000, 0, 32, .ro, 0, [.p, .m, .c]⟩
def Reg.LEN_BANK_UC_HI_ID_HI (n : Nat) : Fld := ⟨0x00300020 + n * 0x100000, 0, 32, .ro, 0, [.p, .m, .c]⟩
def Reg.LEN_PROG_TABLES (n : Nat) : Fld := ⟨0x00300024 + n * 0x100000, 12, 9, .ro, 0, [.p, .m, .c]⟩
def Reg.LEN_PROG_LANES_USED (n : Nat) : Fld := ⟨0x00300024 + n * 0x100000, 7, 5, .ro, 0, [.p, .m, .c]⟩
def Reg.LEN_PROG_PHASE_COUNT (n : Nat) : Fld := ⟨0x00300024 + n * 0x100000, 0, 7, .ro, 0, [.p, .m, .c]⟩
def Reg.LEN_BARRIER_BAR_CLK (n : Nat) : Fld := ⟨0x00300028 + n * 0x100000, 0, 26, .ro, 0, [.p, .m, .c]⟩
def Reg.LEN_END_CLK_END_CLK (n : Nat) : Fld := ⟨0x0030002C + n * 0x100000, 0, 26, .ro, 0, [.p, .m, .c]⟩
def Reg.LEN_LOAD_STAT_INDEX (n : Nat) : Fld := ⟨0x00300030 + n * 0x100000, 16, 16, .ro, 0, [.p, .m, .c]⟩
def Reg.LEN_LOAD_STAT_PHASE (n : Nat) : Fld := ⟨0x00300030 + n * 0x100000, 9, 6, .ro, 0, [.p, .m, .c]⟩
def Reg.LEN_LOAD_STAT_LANE (n : Nat) : Fld := ⟨0x00300030 + n * 0x100000, 5, 4, .ro, 0, [.p, .m, .c]⟩
def Reg.LEN_LOAD_STAT_REASON (n : Nat) : Fld := ⟨0x00300030 + n * 0x100000, 0, 5, .ro, 0, [.p, .m, .c]⟩
def Reg.LEN_LOAD_ADDR_SPACE (n : Nat) : Fld := ⟨0x00300034 + n * 0x100000, 18, 2, .ro, 3, [.p, .m, .c]⟩
def Reg.LEN_LOAD_ADDR_ADDR (n : Nat) : Fld := ⟨0x00300034 + n * 0x100000, 0, 18, .ro, 0, [.p, .m, .c]⟩
def Reg.CMD_PRG_STATE_UC_AGREE : Fld := ⟨0x00200400, 8, 3, .ro, 0, [.p, .m]⟩
def Reg.CMD_PRG_STATE_SWITCH_BACK : Fld := ⟨0x00200400, 6, 1, .ro, 0, [.p, .m]⟩
def Reg.CMD_PRG_STATE_START_COPY : Fld := ⟨0x00200400, 5, 1, .ro, 0, [.p, .m]⟩
def Reg.CMD_PRG_STATE_LOAD_COPY : Fld := ⟨0x00200400, 4, 1, .ro, 0, [.p, .m]⟩
def Reg.CMD_PRG_STATE_COMMIT_PENDING : Fld := ⟨0x00200400, 3, 1, .ro, 0, [.p, .m, .w]⟩
def Reg.CMD_PRG_STATE_UC_STATE : Fld := ⟨0x00200400, 0, 3, .ro, 0, [.p, .m]⟩
def Reg.CMD_PRG_TARGET_LO_T_LO : Fld := ⟨0x00200404, 0, 32, .ro, 0, [.p, .m, .w]⟩
def Reg.CMD_PRG_TARGET_HI_T_HI : Fld := ⟨0x00200408, 0, 32, .ro, 0, [.p, .m, .w]⟩
def Reg.CMD_PRG_COMMIT_SEQ : Fld := ⟨0x0020040C, 24, 8, .ro, 0, [.p, .m]⟩
def Reg.CMD_PRG_COMMIT_REMOVED : Fld := ⟨0x0020040C, 12, 9, .ro, 0, [.p, .m]⟩
def Reg.CMD_PRG_COMMIT_KEPT : Fld := ⟨0x0020040C, 3, 9, .ro, 0, [.p, .m]⟩
def Reg.CMD_PRG_COMMIT_RESULT : Fld := ⟨0x0020040C, 0, 3, .ro, 0, [.p, .m]⟩
def Reg.CMD_PRG_MIGR_SKIPPED : Fld := ⟨0x00200410, 23, 1, .ro, 0, [.p, .m]⟩
def Reg.CMD_PRG_MIGR_COST_CLK : Fld := ⟨0x00200410, 11, 12, .ro, 0, [.p, .m]⟩
def Reg.CMD_PRG_MIGR_OPS : Fld := ⟨0x00200410, 0, 11, .ro, 0, [.p, .m]⟩
def Reg.CMD_RET_STATUS_NOMAJ : Fld := ⟨0x00200414, 16, 16, .ro, 0, [.p, .m]⟩
def Reg.CMD_RET_STATUS_SAVE_TIME : Fld := ⟨0x00200414, 6, 10, .ro, 0, [.p, .m]⟩
def Reg.CMD_RET_STATUS_DISCARDED : Fld := ⟨0x00200414, 4, 1, .ro, 0, [.p, .m]⟩
def Reg.CMD_RET_STATUS_LAST_WARM : Fld := ⟨0x00200414, 3, 1, .ro, 0, [.p, .m]⟩
def Reg.CMD_RET_STATUS_COLD_REASON : Fld := ⟨0x00200414, 0, 3, .ro, 0, [.p, .m]⟩
def Reg.CMD_FORCE_COUNT_SAFETY : Fld := ⟨0x00200418, 16, 9, .ro, 0, [.p, .m, .w]⟩
def Reg.CMD_FORCE_COUNT_COUNT : Fld := ⟨0x00200418, 0, 9, .ro, 0, [.p, .m, .w]⟩
def Reg.CMD_FORCE_SYM_SYMBOL (n : Nat) : Fld := ⟨0x00201000 + n * 0x10, 0, 32, .ro, 0, [.p, .m, .w]⟩
def Reg.CMD_FORCE_LOC_VALID (n : Nat) : Fld := ⟨0x00201004 + n * 0x10, 31, 1, .ro, 0, [.p, .m, .w]⟩
def Reg.CMD_FORCE_LOC_SAFETY_LOC (n : Nat) : Fld := ⟨0x00201004 + n * 0x10, 30, 1, .ro, 0, [.p, .m, .w]⟩
def Reg.CMD_FORCE_LOC_SPACE (n : Nat) : Fld := ⟨0x00201004 + n * 0x10, 28, 2, .ro, 0, [.p, .m, .w]⟩
def Reg.CMD_FORCE_LOC_ADDR (n : Nat) : Fld := ⟨0x00201004 + n * 0x10, 0, 18, .ro, 0, [.p, .m, .w]⟩
def Reg.CMD_FORCE_VAL_VALUE (n : Nat) : Fld := ⟨0x00201008 + n * 0x10, 0, 32, .ro, 0, [.p, .m, .w]⟩
def Reg.VOT_CFG_PROOF_DAYS : Fld := ⟨0x00600000, 16, 16, .ro, 365, [.p, .m]⟩
def Reg.VOT_CFG_TRAVERSE : Fld := ⟨0x00600000, 0, 4, .ro, 1, [.p, .m]⟩
def Reg.VOT_SIG_STATUS_SEQ : Fld := ⟨0x00600004, 24, 8, .ro, 0, [.p, .m]⟩
def Reg.VOT_SIG_STATUS_ABSENT : Fld := ⟨0x00600004, 20, 3, .ro, 0, [.p, .m]⟩
def Reg.VOT_SIG_STATUS_IN_CMP : Fld := ⟨0x00600004, 17, 3, .ro, 0, [.p, .m]⟩
def Reg.VOT_SIG_STATUS_EXCL : Fld := ⟨0x00600004, 14, 3, .ro, 0, [.p, .m]⟩
def Reg.VOT_SIG_STATUS_DECISION : Fld := ⟨0x00600004, 11, 3, .ro, 0, [.p, .m]⟩
def Reg.VOT_SIG_STATUS_VERD_C : Fld := ⟨0x00600004, 6, 3, .ro, 6, [.p, .m]⟩
def Reg.VOT_SIG_STATUS_VERD_B : Fld := ⟨0x00600004, 3, 3, .ro, 6, [.p, .m]⟩
def Reg.VOT_SIG_STATUS_VERD_A : Fld := ⟨0x00600004, 0, 3, .ro, 6, [.p, .m]⟩
def Reg.VOT_SIG_CYCLE_CYCLE : Fld := ⟨0x00600008, 0, 32, .ro, 0, [.p, .m]⟩
def Reg.VOT_SIG_LO_SIG_LO (n : Nat) : Fld := ⟨0x00600010 + n * 0x8, 0, 32, .ro, 0, [.p, .m]⟩
def Reg.VOT_SIG_HI_SIG_HI (n : Nat) : Fld := ⟨0x00600014 + n * 0x8, 0, 32, .ro, 0, [.p, .m]⟩
def Reg.VOT_ODD_COUNT_SAFE_COUNT : Fld := ⟨0x00600030, 24, 8, .ro, 0, [.p, .m]⟩
def Reg.VOT_ODD_COUNT_ODD_C : Fld := ⟨0x00600030, 16, 8, .ro, 0, [.p, .m]⟩
def Reg.VOT_ODD_COUNT_ODD_B : Fld := ⟨0x00600030, 8, 8, .ro, 0, [.p, .m]⟩
def Reg.VOT_ODD_COUNT_ODD_A : Fld := ⟨0x00600030, 0, 8, .ro, 0, [.p, .m]⟩
def Reg.VOT_OUT_DIFF_FLAG : Fld := ⟨0x00600034, 24, 3, .w1c, 0, [.p, .m]⟩
def Reg.VOT_OUT_DIFF_DIFF_C : Fld := ⟨0x00600034, 16, 8, .ro, 0, [.p, .m]⟩
def Reg.VOT_OUT_DIFF_DIFF_B : Fld := ⟨0x00600034, 8, 8, .ro, 0, [.p, .m]⟩
def Reg.VOT_OUT_DIFF_DIFF_A : Fld := ⟨0x00600034, 0, 8, .ro, 0, [.p, .m]⟩
def Reg.VOT_RESYNC_ATTEMPTS : Fld := ⟨0x00600040, 24, 8, .ro, 0, [.p, .m]⟩
def Reg.VOT_RESYNC_ELAPSED : Fld := ⟨0x00600040, 16, 8, .ro, 0, [.p, .m]⟩
def Reg.VOT_RESYNC_CHASED : Fld := ⟨0x00600040, 8, 8, .ro, 0, [.p, .m]⟩
def Reg.VOT_RESYNC_COPIES : Fld := ⟨0x00600040, 5, 2, .ro, 0, [.p, .m]⟩
def Reg.VOT_RESYNC_CHANNEL : Fld := ⟨0x00600040, 3, 2, .ro, 3, [.p, .m]⟩
def Reg.VOT_RESYNC_STAGE : Fld := ⟨0x00600040, 0, 3, .ro, 0, [.p, .m]⟩
def Reg.VOT_RESYNC_FAIL_COUNT : Fld := ⟨0x00600044, 16, 16, .ro, 0, [.p, .m]⟩
def Reg.VOT_RESYNC_FAIL_CHANNEL : Fld := ⟨0x00600044, 8, 2, .ro, 3, [.p, .m]⟩
def Reg.VOT_RESYNC_FAIL_REASON : Fld := ⟨0x00600044, 0, 4, .ro, 0, [.p, .m]⟩
def Reg.VOT_XFER_TIME_XFER : Fld := ⟨0x00600048, 0, 16, .ro, 0, [.p, .m]⟩
def Reg.VOT_PLUMB_SEQ : Fld := ⟨0x00600050, 24, 8, .ro, 0, [.p, .m]⟩
def Reg.VOT_PLUMB_TESTED : Fld := ⟨0x00600050, 16, 3, .ro, 0, [.p, .m]⟩
def Reg.VOT_PLUMB_CELL_OK : Fld := ⟨0x00600050, 8, 3, .ro, 0, [.p, .m]⟩
def Reg.VOT_PLUMB_CMP_OK : Fld := ⟨0x00600050, 0, 3, .ro, 0, [.p, .m]⟩
def Reg.VOT_PROOF_AGE_HOURS (n : Nat) : Fld := ⟨0x00600060 + n * 0x4, 0, 24, .ro, 16777215, [.p, .m]⟩
def Reg.VOT_PROOF_WARN_WARN : Fld := ⟨0x0060006C, 0, 3, .w1c, 0, [.p, .m]⟩
def Reg.VOT_DBG_STEPS : Fld := ⟨0x00600070, 16, 16, .ro, 0, [.p, .m, .w]⟩
def Reg.VOT_DBG_PHASE : Fld := ⟨0x00600070, 8, 6, .ro, 0, [.p, .m, .w]⟩
def Reg.VOT_DBG_STATE : Fld := ⟨0x00600070, 0, 3, .ro, 0, [.p, .m, .w]⟩
def Reg.VOT_DBG_CYCLE_CYCLE : Fld := ⟨0x00600074, 0, 32, .ro, 0, [.p, .m, .w]⟩
def Reg.MIU_CFG_SCRUB_S (n : Nat) : Fld := ⟨0x00301000 + n * 0x100000, 16, 12, .ro, 60, [.p, .m]⟩
def Reg.MIU_CFG_BCH_T (n : Nat) : Fld := ⟨0x00301000 + n * 0x100000, 0, 6, .ro, 40, [.p, .m, .c]⟩
def Reg.MIU_SCRUB_PASSES (n : Nat) : Fld := ⟨0x00301004 + n * 0x100000, 17, 15, .ro, 0, [.p, .m, .c]⟩
def Reg.MIU_SCRUB_PACE (n : Nat) : Fld := ⟨0x00301004 + n * 0x100000, 0, 17, .ro, 0, [.p, .m, .c]⟩
def Reg.MIU_SCRUB_POS_NEXT (n : Nat) : Fld := ⟨0x00301008 + n * 0x100000, 0, 21, .ro, 0, [.p, .m, .c]⟩
def Reg.MIU_CE_CE_ACCESS (n : Nat) : Fld := ⟨0x0030100C + n * 0x100000, 16, 16, .ro, 0, [.p, .m]⟩
def Reg.MIU_CE_CE_SCRUB (n : Nat) : Fld := ⟨0x0030100C + n * 0x100000, 0, 16, .ro, 0, [.p, .m]⟩
def Reg.MIU_UE_UE_COUNT (n : Nat) : Fld := ⟨0x00301010 + n * 0x100000, 16, 16, .ro, 0, [.p, .m]⟩
def Reg.MIU_UE_HOST_EP (n : Nat) : Fld := ⟨0x00301010 + n * 0x100000, 8, 8, .ro, 0, [.p, .m]⟩
def Reg.MIU_UE_QUEUE_OVF (n : Nat) : Fld := ⟨0x00301010 + n * 0x100000, 0, 8, .ro, 0, [.p, .m]⟩
def Reg.MIU_EVENT_PLUG_UE (n : Nat) : Fld := ⟨0x00301014 + n * 0x100000, 6, 1, .w1c, 0, [.p, .m]⟩
def Reg.MIU_EVENT_PLUG_MARGIN (n : Nat) : Fld := ⟨0x00301014 + n * 0x100000, 5, 1, .w1c, 0, [.p, .m]⟩
def Reg.MIU_EVENT_WEAK_ROW (n : Nat) : Fld := ⟨0x00301014 + n * 0x100000, 4, 1, .w1c, 0, [.p, .m]⟩
def Reg.MIU_EVENT_CCU_PSN (n : Nat) : Fld := ⟨0x00301014 + n * 0x100000, 3, 1, .w1c, 0, [.p, .m]⟩
def Reg.MIU_EVENT_LEN_PSN (n : Nat) : Fld := ⟨0x00301014 + n * 0x100000, 2, 1, .w1c, 0, [.p, .m]⟩
def Reg.MIU_EVENT_UE (n : Nat) : Fld := ⟨0x00301014 + n * 0x100000, 1, 1, .w1c, 0, [.p, .m]⟩
def Reg.MIU_EVENT_CE (n : Nat) : Fld := ⟨0x00301014 + n * 0x100000, 0, 1, .w1c, 0, [.p, .m]⟩
def Reg.MIU_ERR_ADDR_KIND (n : Nat) : Fld := ⟨0x00301018 + n * 0x100000, 29, 3, .ro, 0, [.p, .m]⟩
def Reg.MIU_ERR_ADDR_REGION (n : Nat) : Fld := ⟨0x00301018 + n * 0x100000, 24, 3, .ro, 0, [.p, .m]⟩
def Reg.MIU_ERR_ADDR_CWADDR (n : Nat) : Fld := ⟨0x00301018 + n * 0x100000, 0, 21, .ro, 0, [.p, .m]⟩
def Reg.MIU_ERR_SYND_SYND (n : Nat) : Fld := ⟨0x0030101C + n * 0x100000, 8, 8, .ro, 0, [.p, .m]⟩
def Reg.MIU_ERR_SYND_BIT (n : Nat) : Fld := ⟨0x0030101C + n * 0x100000, 0, 8, .ro, 255, [.p, .m]⟩
def Reg.MIU_SPARE_MAP_OK (n : Nat) : Fld := ⟨0x00301020 + n * 0x100000, 31, 1, .ro, 0, [.p, .m, .c]⟩
def Reg.MIU_SPARE_USED (n : Nat) : Fld := ⟨0x00301020 + n * 0x100000, 16, 9, .ro, 0, [.p, .m, .c]⟩
def Reg.MIU_SPARE_WEAK (n : Nat) : Fld := ⟨0x00301020 + n * 0x100000, 0, 8, .ro, 0, [.p, .m]⟩
def Reg.MIU_FLIP_MASK_LO_MASK_LO (n : Nat) : Fld := ⟨0x00301024 + n * 0x100000, 0, 32, .rw, 0, [.p, .m, .c]⟩
def Reg.MIU_FLIP_MASK_HI_MASK_HI (n : Nat) : Fld := ⟨0x00301028 + n * 0x100000, 0, 32, .rw, 0, [.p, .m, .c]⟩
def Reg.MIU_FLIP_CTL_ARM (n : Nat) : Fld := ⟨0x0030102C + n * 0x100000, 31, 1, .rw, 0, [.p, .m, .c]⟩
def Reg.MIU_FLIP_CTL_FIRED (n : Nat) : Fld := ⟨0x0030102C + n * 0x100000, 30, 1, .w1c, 0, [.p, .m, .c]⟩
def Reg.MIU_FLIP_CTL_CANCELLED (n : Nat) : Fld := ⟨0x0030102C + n * 0x100000, 29, 1, .w1c, 0, [.p, .m, .c]⟩
def Reg.MIU_FLIP_CTL_TARGET (n : Nat) : Fld := ⟨0x0030102C + n * 0x100000, 24, 3, .rw, 0, [.p, .m, .c]⟩
def Reg.MIU_FLIP_CTL_CHK (n : Nat) : Fld := ⟨0x0030102C + n * 0x100000, 16, 8, .rw, 0, [.p, .m, .c]⟩
def Reg.MIU_FLIP_CTL_ADDR_EN (n : Nat) : Fld := ⟨0x0030102C + n * 0x100000, 0, 1, .rw, 0, [.p, .m, .c]⟩
def Reg.MIU_FLIP_ADDR_CWADDR (n : Nat) : Fld := ⟨0x00301030 + n * 0x100000, 0, 21, .rw, 0, [.p, .m, .c]⟩
def Reg.MIU_PLUG_ECC_UE_PAGES (n : Nat) : Fld := ⟨0x00301034 + n * 0x100000, 24, 8, .ro, 0, [.p, .m]⟩
def Reg.MIU_PLUG_ECC_CE_PAGES (n : Nat) : Fld := ⟨0x00301034 + n * 0x100000, 8, 16, .ro, 0, [.p, .m]⟩
def Reg.MIU_PLUG_ECC_MAX_BITS (n : Nat) : Fld := ⟨0x00301034 + n * 0x100000, 0, 6, .ro, 0, [.p, .m]⟩
def Reg.MIU_PLUG_UE_LOC_COPY (n : Nat) : Fld := ⟨0x00301038 + n * 0x100000, 31, 1, .ro, 0, [.p, .m]⟩
def Reg.MIU_PLUG_UE_LOC_SECTION (n : Nat) : Fld := ⟨0x00301038 + n * 0x100000, 20, 4, .ro, 0, [.p, .m]⟩
def Reg.MIU_PLUG_UE_LOC_PAGE (n : Nat) : Fld := ⟨0x00301038 + n * 0x100000, 0, 15, .ro, 0, [.p, .m]⟩
def Reg.SIO_GROUP_VOLT (g : Nat) : Fld := ⟨0x00900000 + g * 0x4, 16, 16, .ro, 0, [.p, .m]⟩
def Reg.SIO_GROUP_STATE (g : Nat) : Fld := ⟨0x00900000 + g * 0x4, 4, 3, .ro, 0, [.p, .m]⟩
def Reg.SIO_GROUP_UN (g : Nat) : Fld := ⟨0x00900000 + g * 0x4, 0, 2, .ro, 0, [.p, .m]⟩
def Reg.SIO_TP_HIZ : Fld := ⟨0x00900008, 4, 4, .ro, 15, [.p, .m]⟩
def Reg.SIO_TP_OVL : Fld := ⟨0x00900008, 0, 4, .ro, 0, [.p, .m]⟩
def Reg.SIO_IN_CFG_FILTER (i : Nat) : Fld := ⟨0x00900100 + i * 0x4, 16, 9, .ro, 1, [.p, .m]⟩
def Reg.SIO_IN_CFG_TP (i : Nat) : Fld := ⟨0x00900100 + i * 0x4, 4, 3, .ro, 0, [.p, .m]⟩
def Reg.SIO_IN_CFG_USE (i : Nat) : Fld := ⟨0x00900100 + i * 0x4, 0, 2, .ro, 0, [.p, .m]⟩
def Reg.SIO_IN_STAT_VALUE (i : Nat) : Fld := ⟨0x00900200 + i * 0x4, 16, 1, .ro, 0, [.p, .m]⟩
def Reg.SIO_IN_STAT_DIAG (i : Nat) : Fld := ⟨0x00900200 + i * 0x4, 0, 16, .ro, 0, [.p, .m]⟩
def Reg.SIO_PAIR_CFG_DECLARED (p : Nat) : Fld := ⟨0x00900300 + p * 0x4, 31, 1, .ro, 0, [.p, .m]⟩
def Reg.SIO_PAIR_CFG_D (p : Nat) : Fld := ⟨0x00900300 + p * 0x4, 0, 16, .ro, 1, [.p, .m]⟩
def Reg.SIO_PAIR_STAT_LATCHED : Fld := ⟨0x00900340, 16, 12, .ro, 0, [.p, .m]⟩
def Reg.SIO_PAIR_STAT_VALUE : Fld := ⟨0x00900340, 0, 12, .ro, 0, [.p, .m]⟩
def Reg.SIO_OUT_CFG_ENABLED (o : Nat) : Fld := ⟨0x00900400 + o * 0x4, 31, 1, .ro, 0, [.p, .m]⟩
def Reg.SIO_OUT_CFG_PARALLEL (o : Nat) : Fld := ⟨0x00900400 + o * 0x4, 30, 1, .ro, 0, [.p, .m]⟩
def Reg.SIO_OUT_CFG_TIMED (o : Nat) : Fld := ⟨0x00900400 + o * 0x4, 29, 1, .ro, 0, [.p, .m]⟩
def Reg.SIO_OUT_CFG_AUTO_RESUME (o : Nat) : Fld := ⟨0x00900400 + o * 0x4, 28, 1, .ro, 0, [.p, .m]⟩
def Reg.SIO_OUT_CFG_PERIOD (o : Nat) : Fld := ⟨0x00900400 + o * 0x4, 24, 3, .ro, 0, [.p, .m]⟩
def Reg.SIO_OUT_CFG_PULSE (o : Nat) : Fld := ⟨0x00900400 + o * 0x4, 16, 8, .ro, 10, [.p, .m]⟩
def Reg.SIO_OUT_CFG_TIMED_WORD (o : Nat) : Fld := ⟨0x00900400 + o * 0x4, 0, 14, .ro, 0, [.p, .m]⟩
def Reg.SIO_OUT_STAT_LATCH (o : Nat) : Fld := ⟨0x00900500 + o * 0x4, 28, 4, .ro, 0, [.p, .m]⟩
def Reg.SIO_OUT_STAT_HS (o : Nat) : Fld := ⟨0x00900500 + o * 0x4, 27, 1, .ro, 0, [.p, .m]⟩
def Reg.SIO_OUT_STAT_LS (o : Nat) : Fld := ⟨0x00900500 + o * 0x4, 26, 1, .ro, 0, [.p, .m]⟩
def Reg.SIO_OUT_STAT_ENERGISED (o : Nat) : Fld := ⟨0x00900500 + o * 0x4, 25, 1, .ro, 0, [.p, .m]⟩
def Reg.SIO_OUT_STAT_HOLD (o : Nat) : Fld := ⟨0x00900500 + o * 0x4, 24, 1, .ro, 0, [.p, .m]⟩
def Reg.SIO_OUT_STAT_PEND (o : Nat) : Fld := ⟨0x00900500 + o * 0x4, 23, 1, .ro, 0, [.p, .m]⟩
def Reg.SIO_OUT_STAT_OPEN_LOAD (o : Nat) : Fld := ⟨0x00900500 + o * 0x4, 22, 1, .ro, 0, [.p, .m]⟩
def Reg.SIO_OUT_STAT_IMBAL (o : Nat) : Fld := ⟨0x00900500 + o * 0x4, 21, 1, .ro, 0, [.p, .m]⟩
def Reg.SIO_OUT_STAT_CHECK (o : Nat) : Fld := ⟨0x00900500 + o * 0x4, 20, 1, .ro, 0, [.p, .m]⟩
def Reg.SIO_OUT_STAT_CURRENT (o : Nat) : Fld := ⟨0x00900500 + o * 0x4, 0, 16, .ro, 0, [.p, .m]⟩
def Reg.SIO_OUT_COUNT_LATCHES (o : Nat) : Fld := ⟨0x00900600 + o * 0x4, 24, 8, .ro, 0, [.p, .m]⟩
def Reg.SIO_OUT_COUNT_ABORTS (o : Nat) : Fld := ⟨0x00900600 + o * 0x4, 16, 8, .ro, 0, [.p, .m]⟩
def Reg.SIO_OUT_COUNT_FAILS (o : Nat) : Fld := ⟨0x00900600 + o * 0x4, 0, 16, .ro, 0, [.p, .m]⟩
def Reg.SIO_TIMED_LATE_FLAG : Fld := ⟨0x00900680, 16, 12, .w1c, 0, [.p, .m]⟩
def Reg.SIO_TIMED_LATE_COUNT : Fld := ⟨0x00900680, 0, 16, .ro, 0, [.p, .m]⟩
def Reg.SIO_ACK_SEQ : Fld := ⟨0x00900700, 24, 8, .ro, 0, [.p, .m]⟩
def Reg.SIO_ACK_LAST : Fld := ⟨0x00900700, 16, 3, .ro, 0, [.p, .m]⟩
def Reg.SIO_ACK_CLEARED : Fld := ⟨0x00900700, 0, 12, .ro, 0, [.p, .m]⟩
def Reg.SIO_SWITCH_DIGEST0 : Fld := ⟨0x00900710, 24, 8, .ro, 0, [.p, .m]⟩
def Reg.SIO_SWITCH_MISMATCH : Fld := ⟨0x00900710, 23, 1, .ro, 0, [.p, .m]⟩
def Reg.SIO_SWITCH_CHANGED : Fld := ⟨0x00900710, 22, 1, .w1c, 0, [.p, .m]⟩
def Reg.SIO_SWITCH_SW_D : Fld := ⟨0x00900710, 14, 8, .ro, 0, [.p, .m]⟩
def Reg.SIO_SWITCH_SW_S : Fld := ⟨0x00900710, 6, 8, .ro, 0, [.p, .m]⟩
def Reg.SIO_SWITCH_SW_N : Fld := ⟨0x00900710, 0, 6, .ro, 0, [.p, .m]⟩
def Reg.DLK_STATUS_FAULT_CODE : Fld := ⟨0x00A00000, 28, 4, .ro, 0, [.p, .m]⟩
def Reg.DLK_STATUS_LOCK_CAUSE : Fld := ⟨0x00A00000, 26, 2, .ro, 0, [.p, .m]⟩
def Reg.DLK_STATUS_TESTING : Fld := ⟨0x00A00000, 19, 1, .ro, 0, [.p, .m]⟩
def Reg.DLK_STATUS_FALLBACK : Fld := ⟨0x00A00000, 18, 1, .ro, 0, [.p, .m]⟩
def Reg.DLK_STATUS_FAULT : Fld := ⟨0x00A00000, 17, 1, .ro, 0, [.p, .m]⟩
def Reg.DLK_STATUS_LOCKOUT : Fld := ⟨0x00A00000, 16, 1, .ro, 0, [.p, .m]⟩
def Reg.DLK_STATUS_HEALTHY : Fld := ⟨0x00A00000, 15, 1, .ro, 0, [.p, .m]⟩
def Reg.DLK_STATUS_OUT : Fld := ⟨0x00A00000, 8, 4, .ro, 0, [.p, .m]⟩
def Reg.DLK_STATUS_PAIRS : Fld := ⟨0x00A00000, 0, 5, .ro, 0, [.p, .m]⟩
def Reg.DLK_CFG_MATCH : Fld := ⟨0x00A00004, 16, 1, .ro, 0, [.p, .m]⟩
def Reg.DLK_CFG_SW_D_EXP : Fld := ⟨0x00A00004, 8, 8, .ro, 0, [.p, .m]⟩
def Reg.DLK_CFG_SW_D : Fld := ⟨0x00A00004, 0, 8, .ro, 0, [.p, .m]⟩
def Reg.DLK_PAIR_ACK_LATCHED : Fld := ⟨0x00A00008, 26, 1, .ro, 0, [.p, .m]⟩
def Reg.DLK_PAIR_LATCHED : Fld := ⟨0x00A00008, 21, 5, .ro, 0, [.p, .m]⟩
def Reg.DLK_PAIR_DISAGREE : Fld := ⟨0x00A00008, 16, 5, .ro, 0, [.p, .m]⟩
def Reg.DLK_PAIR_ACK_IN : Fld := ⟨0x00A00008, 10, 2, .ro, 0, [.p, .m]⟩
def Reg.DLK_PAIR_INPUTS : Fld := ⟨0x00A00008, 0, 10, .ro, 0, [.p, .m]⟩
def Reg.DLK_EVENT_FB_DIFF : Fld := ⟨0x00A0000C, 5, 1, .w1c, 0, [.p, .m]⟩
def Reg.DLK_EVENT_ACK_IGNORED : Fld := ⟨0x00A0000C, 4, 1, .w1c, 0, [.p, .m]⟩
def Reg.DLK_EVENT_OFF_TIME_BLOCK : Fld := ⟨0x00A0000C, 3, 1, .w1c, 0, [.p, .m]⟩
def Reg.DLK_EVENT_FAULT_SET : Fld := ⟨0x00A0000C, 2, 1, .w1c, 0, [.p, .m]⟩
def Reg.DLK_EVENT_LOCKOUT_CLEARED : Fld := ⟨0x00A0000C, 1, 1, .w1c, 0, [.p, .m]⟩
def Reg.DLK_EVENT_LOCKOUT_SET : Fld := ⟨0x00A0000C, 0, 1, .w1c, 0, [.p, .m]⟩
def Reg.DLK_RELEASES_RIGHT : Fld := ⟨0x00A00010, 16, 16, .ro, 0, [.p, .m]⟩
def Reg.DLK_RELEASES_LEFT : Fld := ⟨0x00A00010, 0, 16, .ro, 0, [.p, .m]⟩
def Reg.DLK_FB_DIFF_COUNT : Fld := ⟨0x00A00014, 24, 8, .ro, 0, [.p, .m]⟩
def Reg.DLK_FB_CH_SECOND : Fld := ⟨0x00A00014, 18, 2, .ro, 3, [.p, .m]⟩
def Reg.DLK_FB_CH_FIRST : Fld := ⟨0x00A00014, 16, 2, .ro, 3, [.p, .m]⟩
def Reg.DLK_FB_DIFF : Fld := ⟨0x00A00014, 8, 4, .ro, 0, [.p, .m]⟩
def Reg.DLK_FB_PERMIT : Fld := ⟨0x00A00014, 0, 4, .ro, 0, [.p, .m]⟩
def Reg.DLK_TEST_CHK_PASSES : Fld := ⟨0x00A00018, 16, 16, .ro, 0, [.p, .m]⟩
def Reg.DLK_TEST_STARTUP : Fld := ⟨0x00A00018, 8, 2, .ro, 0, [.p, .m]⟩
def Reg.DLK_TEST_FAILED_VECTOR : Fld := ⟨0x00A00018, 0, 8, .ro, 255, [.p, .m]⟩
def Reg.PTN_CFG_ETHERTYPE : Fld := ⟨0x00700000, 16, 16, .ro, 34998, [.p, .m]⟩
def Reg.PTN_CFG_NODE : Fld := ⟨0x00700000, 8, 6, .ro, 0, [.p, .m]⟩
def Reg.PTN_CFG_STATIONS : Fld := ⟨0x00700000, 0, 8, .ro, 0, [.p, .m]⟩
def Reg.PTN_STATUS_NEXT_LOADED : Fld := ⟨0x00700004, 18, 1, .ro, 0, [.p, .m]⟩
def Reg.PTN_STATUS_LISTEN_ONLY : Fld := ⟨0x00700004, 17, 1, .ro, 0, [.p, .m]⟩
def Reg.PTN_STATUS_EDGE_LOADED : Fld := ⟨0x00700004, 16, 1, .ro, 0, [.p, .m]⟩
def Reg.PTN_STATUS_ENTRIES : Fld := ⟨0x00700004, 0, 12, .ro, 0, [.p, .m]⟩
def Reg.PTN_GUARD_PI : Fld := ⟨0x00700008, 16, 16, .ro, 100, [.p, .m]⟩
def Reg.PTN_GUARD_G : Fld := ⟨0x00700008, 0, 16, .ro, 200, [.p, .m]⟩
def Reg.PTN_BYPASS_RETRIES : Fld := ⟨0x0070000C, 24, 8, .ro, 0, [.p, .m]⟩
def Reg.PTN_BYPASS_RELAY_B : Fld := ⟨0x0070000C, 9, 1, .ro, 1, [.p, .m]⟩
def Reg.PTN_BYPASS_RELAY_A : Fld := ⟨0x0070000C, 8, 1, .ro, 1, [.p, .m]⟩
def Reg.PTN_BYPASS_STAGE : Fld := ⟨0x0070000C, 0, 3, .ro, 3, [.p, .m]⟩
def Reg.PTN_HOLDUP_NO_STAGE : Fld := ⟨0x00700010, 18, 1, .ro, 0, [.p]⟩
def Reg.PTN_HOLDUP_LOW : Fld := ⟨0x00700010, 17, 1, .ro, 0, [.p]⟩
def Reg.PTN_HOLDUP_DONE : Fld := ⟨0x00700010, 16, 1, .ro, 0, [.p]⟩
def Reg.PTN_HOLDUP_ENERGY : Fld := ⟨0x00700010, 0, 16, .ro, 0, [.p]⟩
def Reg.PTN_VOTE_EMPTY : Fld := ⟨0x00700014, 16, 16, .ro, 0, [.p, .m]⟩
def Reg.PTN_VOTE_UNFIT : Fld := ⟨0x00700014, 0, 16, .ro, 0, [.p, .m]⟩
def Reg.PTN_LINE_DUP : Fld := ⟨0x00700018, 24, 8, .ro, 0, [.p, .m]⟩
def Reg.PTN_LINE_ONLY_B : Fld := ⟨0x00700018, 12, 12, .ro, 0, [.p, .m]⟩
def Reg.PTN_LINE_ONLY_A : Fld := ⟨0x00700018, 0, 12, .ro, 0, [.p, .m]⟩
def Reg.PTN_FREE_DROPPED : Fld := ⟨0x0070001C, 16, 16, .ro, 0, [.p, .m]⟩
def Reg.PTN_FREE_LEARNED : Fld := ⟨0x0070001C, 0, 13, .ro, 0, [.p, .m]⟩
def Reg.PTN_PORT_LINK (p : Nat) : Fld := ⟨0x00700100 + p * 0x4, 31, 1, .ro, 0, [.p, .m]⟩
def Reg.PTN_PORT_SPEED (p : Nat) : Fld := ⟨0x00700100 + p * 0x4, 29, 2, .ro, 0, [.p, .m]⟩
def Reg.PTN_PORT_BYPASSED (p : Nat) : Fld := ⟨0x00700100 + p * 0x4, 28, 1, .ro, if p < 4 then 1 else 0, [.p, .m]⟩
def Reg.PTN_PORT_FREE_FWD (p : Nat) : Fld := ⟨0x00700100 + p * 0x4, 27, 1, .ro, 0, [.p, .m]⟩
def Reg.PTN_PORT_CONNECTED (p : Nat) : Fld := ⟨0x00700100 + p * 0x4, 26, 1, .ro, 0, [.p, .m]⟩
def Reg.PTN_PORT_RX_BAD (p : Nat) : Fld := ⟨0x00700100 + p * 0x4, 16, 8, .ro, 0, [.p, .m]⟩
def Reg.PTN_PORT_RX_ERR (p : Nat) : Fld := ⟨0x00700100 + p * 0x4, 0, 16, .ro, 0, [.p, .m]⟩
def Reg.PTN_POLICE_DROPS (p : Nat) : Fld := ⟨0x00700140 + p * 0x4, 16, 16, .ro, 0, [.p, .m]⟩
def Reg.PTN_POLICE_ISOLATED (p : Nat) : Fld := ⟨0x00700140 + p * 0x4, 0, 7, .ro, 0, [.p, .m]⟩
def Reg.PTN_ISO_LO_SRC_LO (p : Nat) : Fld := ⟨0x00700180 + p * 0x8, 0, 32, .ro, 0, [.p, .m]⟩
def Reg.PTN_ISO_HI_SRC_HI (p : Nat) : Fld := ⟨0x00700184 + p * 0x8, 0, 32, .ro, 0, [.p, .m]⟩
def Reg.PTN_STN_CONFIGURED (s : Nat) : Fld := ⟨0x00701000 + s * 0x4, 31, 1, .ro, 0, [.p, .m]⟩
def Reg.PTN_STN_STALE (s : Nat) : Fld := ⟨0x00701000 + s * 0x4, 30, 1, .ro, 0, [.p, .m]⟩
def Reg.PTN_STN_SUBST (s : Nat) : Fld := ⟨0x00701000 + s * 0x4, 29, 1, .ro, 0, [.p, .m]⟩
def Reg.PTN_STN_RETURN (s : Nat) : Fld := ⟨0x00701000 + s * 0x4, 27, 2, .ro, 0, [.p, .m]⟩
def Reg.PTN_STN_LAST_REJECT (s : Nat) : Fld := ⟨0x00701000 + s * 0x4, 24, 3, .ro, 0, [.p, .m]⟩
def Reg.PTN_STN_A (s : Nat) : Fld := ⟨0x00701000 + s * 0x4, 19, 5, .ro, 1, [.p, .m]⟩
def Reg.PTN_STN_S (s : Nat) : Fld := ⟨0x00701000 + s * 0x4, 14, 5, .ro, 1, [.p, .m]⟩
def Reg.PTN_STN_MISS (s : Nat) : Fld := ⟨0x00701000 + s * 0x4, 0, 8, .ro, 0, [.p, .m]⟩
def Reg.PTN_CONN_CONFIGURED (c : Nat) : Fld := ⟨0x00701200 + c * 0x4, 31, 1, .ro, 0, [.p, .m]⟩
def Reg.PTN_CONN_FRESH (c : Nat) : Fld := ⟨0x00701200 + c * 0x4, 30, 1, .ro, 0, [.p, .m]⟩
def Reg.PTN_CONN_SUBST (c : Nat) : Fld := ⟨0x00701200 + c * 0x4, 29, 1, .ro, 0, [.p, .m]⟩
def Reg.PTN_CONN_RETURN (c : Nat) : Fld := ⟨0x00701200 + c * 0x4, 27, 2, .ro, 0, [.p, .m]⟩
def Reg.PTN_CONN_LAST_REJECT (c : Nat) : Fld := ⟨0x00701200 + c * 0x4, 24, 3, .ro, 0, [.p, .m]⟩
def Reg.PTN_CONN_A (c : Nat) : Fld := ⟨0x00701200 + c * 0x4, 19, 5, .ro, 2, [.p, .m]⟩
def Reg.PTN_CONN_S (c : Nat) : Fld := ⟨0x00701200 + c * 0x4, 14, 5, .ro, 1, [.p, .m]⟩
def Reg.PTN_CONN_MISS (c : Nat) : Fld := ⟨0x00701200 + c * 0x4, 0, 8, .ro, 0, [.p, .m]⟩
def Reg.PTN_SCHED_ENTRY (e : Nat) (w : Nat) : Fld := ⟨0x00780000 + e * 0x20 + w * 0x4, 0, 32, .ro, 0, [.p, .m]⟩
def Reg.PTN_SCHED_NEXT_ENTRY (e : Nat) (w : Nat) : Fld := ⟨0x007C0000 + e * 0x20 + w * 0x4, 0, 32, .ro, 0, [.p, .m]⟩
def Reg.TMU_STATUS_MASTER : Fld := ⟨0x00800000, 16, 6, .ro, 0, [.p, .m]⟩
def Reg.TMU_STATUS_DOM1_ALIVE : Fld := ⟨0x00800000, 11, 1, .ro, 0, [.p, .m]⟩
def Reg.TMU_STATUS_DOM0_ALIVE : Fld := ⟨0x00800000, 10, 1, .ro, 0, [.p, .m]⟩
def Reg.TMU_STATUS_DOMAIN : Fld := ⟨0x00800000, 9, 1, .ro, 0, [.p, .m]⟩
def Reg.TMU_STATUS_VALID : Fld := ⟨0x00800000, 8, 1, .ro, 0, [.p, .m]⟩
def Reg.TMU_STATUS_ROLE : Fld := ⟨0x00800000, 0, 3, .ro, 5, [.p, .m]⟩
def Reg.TMU_NOW_NS : Fld := ⟨0x00800004, 0, 32, .ro, 0, [.p, .m]⟩
def Reg.TMU_TC_TC_NS : Fld := ⟨0x00800008, 0, 32, .ro, 0, [.p, .m]⟩
def Reg.TMU_OFFSET_THETA : Fld := ⟨0x0080000C, 0, 32, .ro, 0, [.p, .m]⟩
def Reg.TMU_UNCERT_U : Fld := ⟨0x00800010, 0, 24, .ro, 16777215, [.p, .m]⟩
def Reg.TMU_DOMAIN_ACCEPTED (d : Nat) : Fld := ⟨0x00800020 + d * 0x4, 16, 16, .ro, 0, [.p, .m]⟩
def Reg.TMU_DOMAIN_RANK (d : Nat) : Fld := ⟨0x00800020 + d * 0x4, 14, 2, .ro, 0, [.p, .m]⟩
def Reg.TMU_DOMAIN_MASTER (d : Nat) : Fld := ⟨0x00800020 + d * 0x4, 8, 6, .ro, 0, [.p, .m]⟩
def Reg.TMU_DOMAIN_MISSED (d : Nat) : Fld := ⟨0x00800020 + d * 0x4, 0, 8, .ro, 0, [.p, .m]⟩
def Reg.TMU_CFG_HOLD_PPB : Fld := ⟨0x00800030, 16, 16, .ro, 2000, [.p, .m]⟩
def Reg.TMU_CFG_COLD_PRIO : Fld := ⟨0x00800030, 8, 3, .ro, 0, [.p, .m]⟩
def Reg.TMU_CFG_ELIGIBLE : Fld := ⟨0x00800030, 7, 1, .ro, 0, [.p, .m]⟩
def Reg.TMU_CFG_EL_DOMAIN : Fld := ⟨0x00800030, 6, 1, .ro, 0, [.p, .m]⟩
def Reg.TMU_CFG_RANK : Fld := ⟨0x00800030, 4, 2, .ro, 0, [.p, .m]⟩
def Reg.TMU_COLD_BACKOFFS : Fld := ⟨0x00800034, 24, 8, .ro, 0, [.p, .m]⟩
def Reg.TMU_COLD_LAST_PERIODS : Fld := ⟨0x00800034, 16, 5, .ro, 0, [.p, .m]⟩
def Reg.TMU_COLD_CONFLICT : Fld := ⟨0x00800034, 0, 1, .w1c, 0, [.p, .m]⟩
def Reg.TMU_REJECT_OUTLIER : Fld := ⟨0x00800038, 16, 16, .ro, 0, [.p, .m]⟩
def Reg.TMU_REJECT_MISMATCH : Fld := ⟨0x00800038, 0, 16, .ro, 0, [.p, .m]⟩
def Reg.TMU_PORT_ADJ_TX_ADJ (p : Nat) : Fld := ⟨0x00800200 + p * 0x8, 16, 11, .rwl, 0, [.p, .m]⟩
def Reg.TMU_PORT_ADJ_RX_ADJ (p : Nat) : Fld := ⟨0x00800200 + p * 0x8, 0, 11, .rwl, 0, [.p, .m]⟩
def Reg.TMU_PORT_DELAY_LINK_NS (p : Nat) : Fld := ⟨0x00800204 + p * 0x8, 0, 16, .ro, 0, [.p, .m]⟩
def Reg.TMU_LAUNCH_ENABLED (l : Nat) : Fld := ⟨0x00800300 + l * 0x8, 31, 1, .ro, 0, [.p, .m]⟩
def Reg.TMU_LAUNCH_TARGET_WORD (l : Nat) : Fld := ⟨0x00800300 + l * 0x8, 14, 14, .ro, 0, [.p, .m]⟩
def Reg.TMU_LAUNCH_ENTRY (l : Nat) : Fld := ⟨0x00800300 + l * 0x8, 0, 11, .ro, 0, [.p, .m]⟩
def Reg.TMU_LAUNCH_STAT_LATE (l : Nat) : Fld := ⟨0x00800304 + l * 0x8, 16, 16, .ro, 0, [.p, .m]⟩
def Reg.TMU_LAUNCH_STAT_REFUSED (l : Nat) : Fld := ⟨0x00800304 + l * 0x8, 8, 8, .ro, 0, [.p, .m]⟩
def Reg.TMU_LAUNCH_STAT_RESULT (l : Nat) : Fld := ⟨0x00800304 + l * 0x8, 0, 3, .ro, 0, [.p, .m]⟩
def Reg.TMU_AS_PRIORITY1 : Fld := ⟨0x00800380, 24, 8, .ro, 246, [.p, .m]⟩
def Reg.TMU_AS_SYNC_LOG : Fld := ⟨0x00800380, 16, 3, .ro, 3, [.p, .m]⟩
def Reg.TMU_AS_PORTS : Fld := ⟨0x00800380, 0, 10, .ro, 0, [.p, .m]⟩
def Reg.TWN_CFG_PAIR_ADDR : Fld := ⟨0x00E00000, 24, 6, .ro, 0, [.p, .m]⟩
def Reg.TWN_CFG_PARTNER : Fld := ⟨0x00E00000, 18, 6, .ro, 0, [.p, .m]⟩
def Reg.TWN_CFG_QUORUM : Fld := ⟨0x00E00000, 16, 2, .ro, 0, [.p, .m]⟩
def Reg.TWN_CFG_POS : Fld := ⟨0x00E00000, 15, 1, .ro, 0, [.p, .m]⟩
def Reg.TWN_CFG_PAIR_ID : Fld := ⟨0x00E00000, 8, 5, .ro, 0, [.p, .m]⟩
def Reg.TWN_CFG_LZ : Fld := ⟨0x00E00000, 0, 8, .ro, 0, [.p, .m]⟩
def Reg.TWN_ARB_NODES_ARB2 : Fld := ⟨0x00E00004, 12, 6, .ro, 0, [.p, .m]⟩
def Reg.TWN_ARB_NODES_ARB1 : Fld := ⟨0x00E00004, 6, 6, .ro, 0, [.p, .m]⟩
def Reg.TWN_ARB_NODES_ARB0 : Fld := ⟨0x00E00004, 0, 6, .ro, 0, [.p, .m]⟩
def Reg.TWN_STATUS_LEASE_LEFT : Fld := ⟨0x00E00008, 24, 8, .ro, 0, [.p, .m]⟩
def Reg.TWN_STATUS_LINK_UP : Fld := ⟨0x00E00008, 15, 1, .ro, 0, [.p, .m]⟩
def Reg.TWN_STATUS_CURRENT : Fld := ⟨0x00E00008, 14, 1, .ro, 0, [.p, .m]⟩
def Reg.TWN_STATUS_FREE_RUN : Fld := ⟨0x00E00008, 13, 1, .ro, 0, [.p, .m]⟩
def Reg.TWN_STATUS_ADOPTING : Fld := ⟨0x00E00008, 12, 1, .ro, 0, [.p, .m]⟩
def Reg.TWN_STATUS_PARTNER_CURRENT : Fld := ⟨0x00E00008, 11, 1, .ro, 0, [.p, .m]⟩
def Reg.TWN_STATUS_ACKS : Fld := ⟨0x00E00008, 8, 3, .ro, 0, [.p, .m]⟩
def Reg.TWN_STATUS_ROLE : Fld := ⟨0x00E00008, 0, 2, .ro, 1, [.p, .m]⟩
def Reg.TWN_EPOCH_EPOCH : Fld := ⟨0x00E0000C, 0, 32, .ro, 0, [.p, .m]⟩
def Reg.TWN_SNAP_HELD_CYCLE : Fld := ⟨0x00E00010, 0, 32, .ro, 0, [.p, .m]⟩
def Reg.TWN_SNAP_COUNT_COMPLETE : Fld := ⟨0x00E00014, 16, 16, .ro, 0, [.p, .m]⟩
def Reg.TWN_SNAP_COUNT_DISCARDED : Fld := ⟨0x00E00014, 8, 8, .ro, 0, [.p, .m]⟩
def Reg.TWN_SNAP_COUNT_ABORTED : Fld := ⟨0x00E00014, 0, 8, .ro, 0, [.p, .m]⟩
def Reg.TWN_CMP_SIG_DIFF : Fld := ⟨0x00E00018, 24, 8, .ro, 0, [.p, .m]⟩
def Reg.TWN_CMP_STATE_DIFF : Fld := ⟨0x00E00018, 16, 8, .ro, 0, [.p, .m]⟩
def Reg.TWN_CMP_ADOPTED : Fld := ⟨0x00E00018, 8, 8, .ro, 0, [.p, .m]⟩
def Reg.TWN_CMP_ADOPT_FAIL : Fld := ⟨0x00E00018, 0, 8, .ro, 0, [.p, .m]⟩
def Reg.TWN_IN_DIFF_INPUTS : Fld := ⟨0x00E0001C, 0, 24, .w1c, 0, [.p, .m]⟩
def Reg.TWN_HANDOVER_SEQ : Fld := ⟨0x00E00020, 24, 8, .ro, 0, [.p, .m]⟩
def Reg.TWN_HANDOVER_RESULT : Fld := ⟨0x00E00020, 0, 3, .ro, 0, [.p, .m]⟩
def Reg.TWN_HO_TARGET_LO_T_LO : Fld := ⟨0x00E00024, 0, 32, .ro, 0, [.p, .m]⟩
def Reg.TWN_HO_TARGET_HI_T_HI : Fld := ⟨0x00E00028, 0, 32, .ro, 0, [.p, .m]⟩
def Reg.TWN_LINK_BLOCK_ERR : Fld := ⟨0x00E0002C, 16, 16, .ro, 0, [.p, .m]⟩
def Reg.TWN_LINK_REC_LATE : Fld := ⟨0x00E0002C, 8, 8, .ro, 0, [.p, .m]⟩
def Reg.TWN_TAKEOVER_ORPHANED : Fld := ⟨0x00E00030, 24, 8, .ro, 0, [.p, .m]⟩
def Reg.TWN_TAKEOVER_TAKEOVERS : Fld := ⟨0x00E00030, 16, 8, .ro, 0, [.p, .m]⟩
def Reg.TWN_TAKEOVER_GAP_CYC : Fld := ⟨0x00E00030, 0, 16, .ro, 0, [.p, .m]⟩
def Reg.TWN_ARB_STATE_SERVING (p : Nat) : Fld := ⟨0x00E00100 + p * 0x10, 31, 1, .ro, 0, [.p, .m]⟩
def Reg.TWN_ARB_STATE_STATE (p : Nat) : Fld := ⟨0x00E00100 + p * 0x10, 29, 2, .ro, 0, [.p, .m]⟩
def Reg.TWN_ARB_STATE_PAIR_ID (p : Nat) : Fld := ⟨0x00E00100 + p * 0x10, 24, 5, .ro, 0, [.p, .m]⟩
def Reg.TWN_ARB_STATE_HOLDER (p : Nat) : Fld := ⟨0x00E00100 + p * 0x10, 18, 6, .ro, 0, [.p, .m]⟩
def Reg.TWN_ARB_STATE_LAST_REQ (p : Nat) : Fld := ⟨0x00E00100 + p * 0x10, 12, 6, .ro, 0, [.p, .m]⟩
def Reg.TWN_ARB_EPOCH_EPOCH (p : Nat) : Fld := ⟨0x00E00104 + p * 0x10, 0, 32, .ro, 0, [.p, .m]⟩
def Reg.TWN_ARB_RENEW_CYCLE (p : Nat) : Fld := ⟨0x00E00108 + p * 0x10, 0, 32, .ro, 0, [.p, .m]⟩
def Reg.TWN_ARB_COUNT_GRANTS (p : Nat) : Fld := ⟨0x00E0010C + p * 0x10, 16, 16, .ro, 0, [.p, .m]⟩
def Reg.TWN_ARB_COUNT_REFUSED (p : Nat) : Fld := ⟨0x00E0010C + p * 0x10, 0, 16, .ro, 0, [.p, .m]⟩
def Reg.HBR_LINK_SPEED : Fld := ⟨0x00100000, 6, 2, .ro, 0, [.p, .m, .h]⟩
def Reg.HBR_LINK_WIDTH : Fld := ⟨0x00100000, 4, 2, .ro, 0, [.p, .m, .h]⟩
def Reg.HBR_LINK_STATE : Fld := ⟨0x00100000, 0, 2, .ro, 0, [.p, .m, .h]⟩
def Reg.HBR_CTL_HRESET : Fld := ⟨0x00100004, 0, 1, .wo, 0, [.p, .m, .h]⟩
def Reg.HBR_ACC_ERR_KIND : Fld := ⟨0x00100008, 30, 2, .ro, 0, [.p, .m, .h]⟩
def Reg.HBR_ACC_ERR_POISON : Fld := ⟨0x00100008, 29, 1, .ro, 0, [.p, .m, .h]⟩
def Reg.HBR_ACC_ERR_COUNT : Fld := ⟨0x00100008, 0, 16, .ro, 0, [.p, .m, .h]⟩
def Reg.HBR_ACC_ADDR_OFFSET : Fld := ⟨0x0010000C, 0, 32, .ro, 0, [.p, .m, .h]⟩
def Reg.HBR_INT_STATUS_INT : Fld := ⟨0x00100010, 0, 6, .w1c, 0, [.p, .m, .h]⟩
def Reg.HBR_INT_ENABLE_EN : Fld := ⟨0x00100014, 0, 6, .rw, 0, [.p, .m, .h]⟩
def Reg.HBR_INT_LEGACY_INT : Fld := ⟨0x00100018, 0, 6, .rc, 0, [.p, .m, .h]⟩
def Reg.HBR_DMA_BASE_LO_BASE_LO : Fld := ⟨0x00100020, 17, 15, .rw, 0, [.p, .m, .h]⟩
def Reg.HBR_DMA_BASE_HI_BASE_HI : Fld := ⟨0x00100024, 0, 32, .rw, 0, [.p, .m, .h]⟩
def Reg.HBR_DMA_CTL_ENABLE : Fld := ⟨0x00100028, 31, 1, .rw, 0, [.p, .m, .h]⟩
def Reg.HBR_DMA_CTL_SLOTS : Fld := ⟨0x00100028, 8, 6, .rw, 0, [.p, .m, .h]⟩
def Reg.HBR_DMA_CTL_RATE : Fld := ⟨0x00100028, 5, 3, .rw, 0, [.p, .m, .h]⟩
def Reg.HBR_DMA_CTL_VIEW : Fld := ⟨0x00100028, 0, 2, .rw, 0, [.p, .m, .h]⟩
def Reg.HBR_DMA_STAT_LATE : Fld := ⟨0x0010002C, 16, 16, .ro, 0, [.p, .m, .h]⟩
def Reg.HBR_DMA_STAT_PUSHED : Fld := ⟨0x0010002C, 0, 16, .ro, 0, [.p, .m, .h]⟩
def Reg.CMD_REC_WORD (i : Nat) : Fld := ⟨0x00200000 + i * 0x4, 0, 32, .wo, 0, [.p, .m, .h]⟩
def Reg.CMD_NEXT_SEQ_NEXT : Fld := ⟨0x00200010, 0, 16, .ro, 0, [.p, .m]⟩
def Reg.CMD_LANE_FIFO_LOST : Fld := ⟨0x00200014, 24, 8, .ro, 0, [.p, .m]⟩
def Reg.CMD_LANE_SEQ_ERR : Fld := ⟨0x00200014, 16, 8, .ro, 0, [.p, .m]⟩
def Reg.CMD_LANE_WAITING : Fld := ⟨0x00200014, 0, 9, .ro, 0, [.p, .m]⟩
def Reg.CMD_RES_HEAD0_WORD0 : Fld := ⟨0x00200018, 0, 32, .ro, 0, [.p, .m]⟩
def Reg.CMD_RES_HEAD1_WORD1 : Fld := ⟨0x0020001C, 0, 32, .ro, 0, [.p, .m]⟩
def Reg.CMD_RES_COMMIT_COMMIT : Fld := ⟨0x00200020, 0, 1, .wo, 0, [.p, .m]⟩
def Reg.CMD_RES_LEGACY_WORD0 : Fld := ⟨0x00200024, 0, 32, .rc, 0, [.p, .m]⟩
def Reg.CMD_RESULT0_WORD0 (i : Nat) : Fld := ⟨0x00200100 + i * 0x8, 0, 32, .ro, 0, [.p, .m]⟩
def Reg.CMD_RESULT1_WORD1 (i : Nat) : Fld := ⟨0x00200104 + i * 0x8, 0, 32, .ro, 0, [.p, .m]⟩
def Reg.GWY_CFG_BANK : Fld := ⟨0x00C00000, 31, 1, .ro, 0, [.p, .m]⟩
def Reg.GWY_CFG_NEXT_STATE : Fld := ⟨0x00C00000, 29, 2, .ro, 0, [.p, .m]⟩
def Reg.GWY_CFG_SWAP_PENDING : Fld := ⟨0x00C00000, 28, 1, .ro, 0, [.p, .m]⟩
def Reg.GWY_CFG_MESSAGES : Fld := ⟨0x00C00000, 16, 10, .ro, 0, [.p, .m]⟩
def Reg.GWY_CFG_ROUTES : Fld := ⟨0x00C00000, 0, 13, .ro, 0, [.p, .m]⟩
def Reg.GWY_LOAD_STAT_TABLE : Fld := ⟨0x00C00004, 31, 1, .ro, 0, [.p, .m]⟩
def Reg.GWY_LOAD_STAT_ENTRY : Fld := ⟨0x00C00004, 16, 12, .ro, 0, [.p, .m]⟩
def Reg.GWY_LOAD_STAT_REASON : Fld := ⟨0x00C00004, 0, 4, .ro, 0, [.p, .m]⟩
def Reg.GWY_COUNT_SAT : Fld := ⟨0x00C00008, 16, 16, .ro, 0, [.p, .m]⟩
def Reg.GWY_COUNT_STALE_EV : Fld := ⟨0x00C00008, 8, 8, .ro, 0, [.p, .m]⟩
def Reg.GWY_COUNT_LEN_ERR : Fld := ⟨0x00C00008, 0, 8, .ro, 0, [.p, .m]⟩
def Reg.GWY_PORT_ENABLED (p : Nat) : Fld := ⟨0x00C00100 + p * 0x4, 31, 1, .ro, 0, [.p, .m]⟩
def Reg.GWY_PORT_NMT (p : Nat) : Fld := ⟨0x00C00100 + p * 0x4, 30, 1, .ro, 0, [.p, .m]⟩
def Reg.GWY_PORT_CRC16 (p : Nat) : Fld := ⟨0x00C00100 + p * 0x4, 29, 1, .ro, 0, [.p, .m]⟩
def Reg.GWY_PORT_STATE (p : Nat) : Fld := ⟨0x00C00100 + p * 0x4, 27, 2, .ro, 0, [.p, .m]⟩
def Reg.GWY_PORT_BUSOFF (p : Nat) : Fld := ⟨0x00C00100 + p * 0x4, 16, 8, .ro, 0, [.p, .m]⟩
def Reg.GWY_PORT_CRC_ERR (p : Nat) : Fld := ⟨0x00C00100 + p * 0x4, 0, 16, .ro, 0, [.p, .m]⟩
def Reg.GWY_SDO_SEQ (p : Nat) : Fld := ⟨0x00C00140 + p * 0x8, 24, 8, .ro, 0, [.p, .m]⟩
def Reg.GWY_SDO_STATE (p : Nat) : Fld := ⟨0x00C00140 + p * 0x8, 16, 3, .ro, 0, [.p, .m]⟩
def Reg.GWY_SDO_NODE (p : Nat) : Fld := ⟨0x00C00140 + p * 0x8, 0, 7, .ro, 0, [.p, .m]⟩
def Reg.GWY_SDO_DATA_DATA (p : Nat) : Fld := ⟨0x00C00144 + p * 0x8, 0, 32, .ro, 0, [.p, .m]⟩
def Reg.GWY_HTX_ID_IDENT (j : Nat) : Fld := ⟨0x00C02000 + j * 0x80, 0, 32, .rw, 0, [.p, .m]⟩
def Reg.GWY_HTX_CTL_SEND (j : Nat) : Fld := ⟨0x00C02004 + j * 0x80, 31, 1, .w1s, 0, [.p, .m]⟩
def Reg.GWY_HTX_CTL_DROPPED (j : Nat) : Fld := ⟨0x00C02004 + j * 0x80, 30, 1, .w1c, 0, [.p, .m]⟩
def Reg.GWY_HTX_CTL_PORT (j : Nat) : Fld := ⟨0x00C02004 + j * 0x80, 24, 4, .rw, 0, [.p, .m]⟩
def Reg.GWY_HTX_CTL_LENGTH (j : Nat) : Fld := ⟨0x00C02004 + j * 0x80, 0, 7, .rw, 0, [.p, .m]⟩
def Reg.GWY_HTX_DATA_DATA (j : Nat) (i : Nat) : Fld := ⟨0x00C02008 + j * 0x80 + i * 0x4, 0, 32, .rw, 0, [.p, .m]⟩
def Reg.GWY_MSG_ENTRY (m : Nat) (w : Nat) : Fld := ⟨0x00C60000 + m * 0x8 + w * 0x4, 0, 32, .ro, 0, [.p, .m]⟩
def Reg.GWY_MSG_NEXT_ENTRY (m : Nat) (w : Nat) : Fld := ⟨0x00C62000 + m * 0x8 + w * 0x4, 0, 32, .ro, 0, [.p, .m]⟩
def Reg.GWY_ROUTE_ENTRY (r : Nat) (w : Nat) : Fld := ⟨0x00C80000 + r * 0x10 + w * 0x4, 0, 32, .ro, 0, [.p, .m]⟩
def Reg.GWY_ROUTE_NEXT_ENTRY (r : Nat) (w : Nat) : Fld := ⟨0x00C90000 + r * 0x10 + w * 0x4, 0, 32, .ro, 0, [.p, .m]⟩
def Reg.ALP_CFG_STALE_CYC (n : Nat) : Fld := ⟨0x00B00000 + n * 0x20, 24, 8, .ro, 1, [.p, .m]⟩
def Reg.ALP_CFG_HART_DEV (n : Nat) : Fld := ⟨0x00B00000 + n * 0x20, 20, 4, .ro, 0, [.p, .m]⟩
def Reg.ALP_CFG_COMP_FAULT (n : Nat) : Fld := ⟨0x00B00000 + n * 0x20, 11, 1, .ro, 0, [.p, .m]⟩
def Reg.ALP_CFG_HART (n : Nat) : Fld := ⟨0x00B00000 + n * 0x20, 10, 1, .ro, 0, [.p, .m]⟩
def Reg.ALP_CFG_FAIL (n : Nat) : Fld := ⟨0x00B00000 + n * 0x20, 8, 2, .ro, 0, [.p, .m]⟩
def Reg.ALP_CFG_FILTER (n : Nat) : Fld := ⟨0x00B00000 + n * 0x20, 4, 2, .ro, 0, [.p, .m]⟩
def Reg.ALP_CFG_MULTIDROP (n : Nat) : Fld := ⟨0x00B00000 + n * 0x20, 3, 1, .ro, 0, [.p, .m]⟩
def Reg.ALP_CFG_MODE (n : Nat) : Fld := ⟨0x00B00000 + n * 0x20, 0, 3, .ro, 0, [.p, .m]⟩
def Reg.ALP_STAT_HEADROOM (n : Nat) : Fld := ⟨0x00B00004 + n * 0x20, 25, 7, .ro, 0, [.p, .m]⟩
def Reg.ALP_STAT_FAILSAFE (n : Nat) : Fld := ⟨0x00B00004 + n * 0x20, 24, 1, .ro, 0, [.p, .m]⟩
def Reg.ALP_STAT_CAL (n : Nat) : Fld := ⟨0x00B00004 + n * 0x20, 23, 1, .ro, 0, [.p, .m]⟩
def Reg.ALP_STAT_FAULT (n : Nat) : Fld := ⟨0x00B00004 + n * 0x20, 22, 1, .ro, 0, [.p, .m]⟩
def Reg.ALP_STAT_COMPLIANCE (n : Nat) : Fld := ⟨0x00B00004 + n * 0x20, 21, 1, .ro, 0, [.p, .m]⟩
def Reg.ALP_STAT_OPEN (n : Nat) : Fld := ⟨0x00B00004 + n * 0x20, 20, 1, .ro, 0, [.p, .m]⟩
def Reg.ALP_STAT_LIMIT (n : Nat) : Fld := ⟨0x00B00004 + n * 0x20, 19, 1, .ro, 0, [.p, .m]⟩
def Reg.ALP_STAT_CLASS (n : Nat) : Fld := ⟨0x00B00004 + n * 0x20, 16, 3, .ro, 7, [.p, .m]⟩
def Reg.ALP_STAT_CURRENT (n : Nat) : Fld := ⟨0x00B00004 + n * 0x20, 0, 16, .ro, 0, [.p, .m]⟩
def Reg.ALP_EVENT_CLAMPED (n : Nat) : Fld := ⟨0x00B00008 + n * 0x20, 16, 16, .ro, 0, [.p, .m]⟩
def Reg.ALP_EVENT_STALE (n : Nat) : Fld := ⟨0x00B00008 + n * 0x20, 5, 1, .w1c, 0, [.p, .m]⟩
def Reg.ALP_EVENT_CAL_ABORT (n : Nat) : Fld := ⟨0x00B00008 + n * 0x20, 4, 1, .w1c, 0, [.p, .m]⟩
def Reg.ALP_EVENT_CAL_DONE (n : Nat) : Fld := ⟨0x00B00008 + n * 0x20, 3, 1, .w1c, 0, [.p, .m]⟩
def Reg.ALP_EVENT_FAILURE (n : Nat) : Fld := ⟨0x00B00008 + n * 0x20, 2, 1, .w1c, 0, [.p, .m]⟩
def Reg.ALP_EVENT_COMP_SET (n : Nat) : Fld := ⟨0x00B00008 + n * 0x20, 1, 1, .w1c, 0, [.p, .m]⟩
def Reg.ALP_EVENT_OPEN_SET (n : Nat) : Fld := ⟨0x00B00008 + n * 0x20, 0, 1, .w1c, 0, [.p, .m]⟩
def Reg.ALP_CAL_SOURCE (n : Nat) : Fld := ⟨0x00B0000C + n * 0x20, 4, 1, .ro, 0, [.p, .m]⟩
def Reg.ALP_CAL_HIGH (n : Nat) : Fld := ⟨0x00B0000C + n * 0x20, 3, 1, .ro, 0, [.p, .m]⟩
def Reg.ALP_CAL_LOW (n : Nat) : Fld := ⟨0x00B0000C + n * 0x20, 2, 1, .ro, 0, [.p, .m]⟩
def Reg.ALP_CAL_MEASURING (n : Nat) : Fld := ⟨0x00B0000C + n * 0x20, 1, 1, .ro, 0, [.p, .m]⟩
def Reg.ALP_CAL_ACTIVE (n : Nat) : Fld := ⟨0x00B0000C + n * 0x20, 0, 1, .ro, 0, [.p, .m]⟩
def Reg.ALP_HART_LIVE (n : Nat) : Fld := ⟨0x00B00010 + n * 0x20, 16, 16, .ro, 0, [.p, .m]⟩
def Reg.ALP_HART_ERR (n : Nat) : Fld := ⟨0x00B00010 + n * 0x20, 8, 8, .ro, 0, [.p, .m]⟩
def Reg.ALP_HART_TRANS (n : Nat) : Fld := ⟨0x00B00010 + n * 0x20, 0, 8, .ro, 0, [.p, .m]⟩
def Reg.ALP_TRIM_GAIN_PPM (n : Nat) : Fld := ⟨0x00B00014 + n * 0x20, 16, 16, .ro, 0, [.p, .m]⟩
def Reg.ALP_TRIM_OFFSET (n : Nat) : Fld := ⟨0x00B00014 + n * 0x20, 0, 12, .ro, 0, [.p, .m]⟩
def Reg.ALP_HREQ_CTL_GO (n : Nat) : Fld := ⟨0x00B00100 + n * 0x100, 31, 1, .w1s, 0, [.p, .m]⟩
def Reg.ALP_HREQ_CTL_DROPPED (n : Nat) : Fld := ⟨0x00B00100 + n * 0x100, 30, 1, .w1c, 0, [.p, .m]⟩
def Reg.ALP_HREQ_CTL_LEN (n : Nat) : Fld := ⟨0x00B00100 + n * 0x100, 16, 8, .rw, 0, [.p, .m]⟩
def Reg.ALP_HREQ_CTL_CMD (n : Nat) : Fld := ⟨0x00B00100 + n * 0x100, 8, 8, .rw, 0, [.p, .m]⟩
def Reg.ALP_HREQ_CTL_ADDR (n : Nat) : Fld := ⟨0x00B00100 + n * 0x100, 0, 4, .rw, 0, [.p, .m]⟩
def Reg.ALP_HREQ_DATA_DATA (n : Nat) (i : Nat) : Fld := ⟨0x00B00104 + n * 0x100 + i * 0x4, 0, 32, .rw, 0, [.p, .m]⟩
def Reg.ALP_HRSP_STAT_RESP (n : Nat) : Fld := ⟨0x00B00180 + n * 0x100, 16, 16, .ro, 0, [.p, .m]⟩
def Reg.ALP_HRSP_STAT_LEN (n : Nat) : Fld := ⟨0x00B00180 + n * 0x100, 8, 8, .ro, 0, [.p, .m]⟩
def Reg.ALP_HRSP_STAT_STATE (n : Nat) : Fld := ⟨0x00B00180 + n * 0x100, 0, 3, .ro, 0, [.p, .m]⟩
def Reg.ALP_HRSP_DATA_DATA (n : Nat) (i : Nat) : Fld := ⟨0x00B00184 + n * 0x100 + i * 0x4, 0, 32, .ro, 0, [.p, .m]⟩
def Reg.REC_CFG_IRQ_SEV : Fld := ⟨0x00D00000, 0, 3, .rw, 5, [.p, .m]⟩
def Reg.REC_STATUS_INDEX_DONE : Fld := ⟨0x00D00004, 31, 1, .ro, 0, [.p, .m]⟩
def Reg.REC_STATUS_FULL : Fld := ⟨0x00D00004, 30, 1, .ro, 0, [.p, .m]⟩
def Reg.REC_STATUS_COUNT : Fld := ⟨0x00D00004, 0, 20, .ro, 0, [.p, .m]⟩
def Reg.REC_NEXT_SEQ_LO_NEXT_LO : Fld := ⟨0x00D00008, 0, 32, .ro, 0, [.p, .m]⟩
def Reg.REC_NEXT_SEQ_HI_NEXT_HI : Fld := ⟨0x00D0000C, 0, 32, .ro, 0, [.p, .m]⟩
def Reg.REC_FLOOR_LO_FLOOR_LO : Fld := ⟨0x00D00010, 0, 32, .ro, 0, [.p, .m]⟩
def Reg.REC_FLOOR_HI_FLOOR_HI : Fld := ⟨0x00D00014, 0, 32, .ro, 0, [.p, .m]⟩
def Reg.REC_HEAD_VALID : Fld := ⟨0x00D00018, 31, 1, .ro, 0, [.p, .m]⟩
def Reg.REC_HEAD_SLOT : Fld := ⟨0x00D00018, 0, 19, .ro, 0, [.p, .m]⟩
def Reg.REC_ERR_Q_OVF : Fld := ⟨0x00D0001C, 16, 16, .ro, 0, [.p, .m]⟩
def Reg.REC_ERR_CRC_BAD : Fld := ⟨0x00D0001C, 8, 8, .ro, 0, [.p, .m]⟩
def Reg.REC_ERR_UE : Fld := ⟨0x00D0001C, 0, 8, .ro, 0, [.p, .m]⟩
def Reg.REC_SEEK_LO_S_LO : Fld := ⟨0x00D00020, 0, 32, .rw, 0, [.p, .m]⟩
def Reg.REC_SEEK_HI_S_HI : Fld := ⟨0x00D00024, 0, 32, .rw, 0, [.p, .m]⟩
def Reg.REC_SEEK_RES_FOUND : Fld := ⟨0x00D00028, 31, 1, .ro, 0, [.p, .m]⟩
def Reg.REC_SEEK_RES_SLOT : Fld := ⟨0x00D00028, 0, 19, .ro, 0, [.p, .m]⟩
def Reg.REC_QUEUE_HIGH : Fld := ⟨0x00D0002C, 16, 12, .ro, 0, [.p, .m]⟩
def Reg.REC_QUEUE_FILL : Fld := ⟨0x00D0002C, 0, 12, .ro, 0, [.p, .m]⟩
def Reg.REC_SEV_COUNT_COUNT (s : Nat) : Fld := ⟨0x00D00040 + s * 0x4, 0, 20, .ro, 0, [.p, .m]⟩
def Reg.REC_DROP_DROPS (s : Nat) : Fld := ⟨0x00D00060 + s * 0x4, 0, 32, .ro, 0, [.p, .m]⟩
def Reg.REC_MARK_DATA_DATA (i : Nat) : Fld := ⟨0x00D00080 + i * 0x4, 0, 32, .rw, 0, [.p, .m]⟩
def Reg.REC_MARK_CTL_WRITE : Fld := ⟨0x00D00098, 31, 1, .w1s, 0, [.p, .m]⟩
def Reg.REC_MARK_CTL_DROPPED : Fld := ⟨0x00D00098, 30, 1, .w1c, 0, [.p, .m]⟩
def Reg.REC_MARK_CTL_TAG : Fld := ⟨0x00D00098, 8, 8, .rw, 0, [.p, .m]⟩
def Reg.REC_MARK_CTL_SEV : Fld := ⟨0x00D00098, 0, 2, .rw, 0, [.p, .m]⟩
def Reg.SEC_STATUS_FW_MIXED : Fld := ⟨0x00F00000, 31, 1, .ro, 0, [.p, .m]⟩
def Reg.SEC_STATUS_FIRST_MIGR : Fld := ⟨0x00F00000, 30, 1, .w1c, 0, [.p, .m]⟩
def Reg.SEC_STATUS_MIGRATED : Fld := ⟨0x00F00000, 16, 7, .ro, 0, [.p, .m]⟩
def Reg.SEC_KEYS_ROLLBACK : Fld := ⟨0x00F00004, 24, 7, .ro, 0, [.p, .m]⟩
def Reg.SEC_KEYS_FLEET : Fld := ⟨0x00F00004, 20, 2, .ro, 0, [.p, .m]⟩
def Reg.SEC_KEYS_ROOT_REVOKED : Fld := ⟨0x00F00004, 8, 3, .ro, 0, [.p, .m]⟩
def Reg.SEC_KEYS_ROOT_SET : Fld := ⟨0x00F00004, 0, 3, .ro, 0, [.p, .m]⟩
def Reg.SEC_COPY_VALID (c : Nat) : Fld := ⟨0x00F00010 + c * 0x8, 24, 3, .ro, 0, [.p, .m]⟩
def Reg.SEC_COPY_SEC_VER (c : Nat) : Fld := ⟨0x00F00010 + c * 0x8, 16, 8, .ro, 0, [.p, .m]⟩
def Reg.SEC_COPY_SECTIONS (c : Nat) : Fld := ⟨0x00F00010 + c * 0x8, 4, 4, .ro, 0, [.p, .m]⟩
def Reg.SEC_COPY_HOLDS_RUN (c : Nat) : Fld := ⟨0x00F00010 + c * 0x8, 3, 1, .ro, 0, [.p, .m]⟩
def Reg.SEC_COPY_HOLDS_UC (c : Nat) : Fld := ⟨0x00F00010 + c * 0x8, 2, 1, .ro, 0, [.p, .m]⟩
def Reg.SEC_COPY_ID_IMAGE_ID (c : Nat) : Fld := ⟨0x00F00014 + c * 0x8, 0, 32, .ro, 0, [.p, .m]⟩
def Reg.SEC_STORE_STATE : Fld := ⟨0x00F00020, 29, 3, .ro, 0, [.p, .m]⟩
def Reg.SEC_STORE_COPY : Fld := ⟨0x00F00020, 28, 1, .ro, 0, [.p, .m]⟩
def Reg.SEC_STORE_CH_OK : Fld := ⟨0x00F00020, 25, 3, .ro, 0, [.p, .m]⟩
def Reg.SEC_STORE_REASON : Fld := ⟨0x00F00020, 20, 4, .ro, 0, [.p, .m]⟩
def Reg.SEC_STORE_PAGES : Fld := ⟨0x00F00020, 0, 15, .ro, 0, [.p, .m]⟩
def Reg.SEC_CH_REASON (n : Nat) : Fld := ⟨0x00F00030 + n * 0x4, 28, 4, .ro, 0, [.p, .m, .c]⟩
def Reg.SEC_CH_SECTION (n : Nat) : Fld := ⟨0x00F00030 + n * 0x4, 24, 4, .ro, 0, [.p, .m, .c]⟩
def Reg.SEC_CH_CHECK_COPY (n : Nat) : Fld := ⟨0x00F00030 + n * 0x4, 23, 1, .ro, 0, [.p, .m, .c]⟩
def Reg.SEC_CH_FW_COPY (n : Nat) : Fld := ⟨0x00F00030 + n * 0x4, 22, 1, .ro, 0, [.p, .m, .c]⟩
def Reg.SEC_CH_FW_VERSION (n : Nat) : Fld := ⟨0x00F00030 + n * 0x4, 0, 16, .ro, 0, [.p, .m, .c]⟩
def Reg.SEC_EPOCH_STATE : Fld := ⟨0x00F00040, 29, 3, .ro, 0, [.p, .m]⟩
def Reg.SEC_EPOCH_REASON : Fld := ⟨0x00F00040, 20, 4, .ro, 0, [.p, .m]⟩
def Reg.SEC_EPOCH_NEXT_EPOCH : Fld := ⟨0x00F00040, 0, 16, .ro, 0, [.p, .m]⟩
def Reg.SEC_EPOCH_TGT_LO_T_LO : Fld := ⟨0x00F00044, 0, 32, .ro, 0, [.p, .m]⟩
def Reg.SEC_EPOCH_TGT_HI_T_HI : Fld := ⟨0x00F00048, 0, 32, .ro, 0, [.p, .m]⟩
def Reg.SEC_SES_ADDR_LO_ADDR_LO : Fld := ⟨0x00F00100, 0, 32, .rw, 0, [.p, .m, .h]⟩
def Reg.SEC_SES_ADDR_HI_ADDR_HI : Fld := ⟨0x00F00104, 0, 32, .rw, 0, [.p, .m, .h]⟩
def Reg.SEC_SES_CTL_CLOSE : Fld := ⟨0x00F00108, 1, 1, .wo, 0, [.p, .m, .h]⟩
def Reg.SEC_SES_CTL_OPEN : Fld := ⟨0x00F00108, 0, 1, .wo, 0, [.p, .m, .h]⟩
def Reg.SEC_SES_STAT_HOST_STATE : Fld := ⟨0x00F0010C, 29, 3, .ro, 0, [.p, .m, .h]⟩
def Reg.SEC_SES_STAT_HOST_ROLES : Fld := ⟨0x00F0010C, 26, 3, .ro, 0, [.p, .m, .h]⟩
def Reg.SEC_SES_STAT_SVC_ROLES : Fld := ⟨0x00F0010C, 23, 3, .ro, 0, [.p, .m]⟩
def Reg.SEC_SES_STAT_SVC_OPEN : Fld := ⟨0x00F0010C, 22, 1, .ro, 0, [.p, .m]⟩
def Reg.SEC_SES_STAT_CRED : Fld := ⟨0x00F0010C, 16, 6, .ro, 0, [.p, .m, .h]⟩
def Reg.SEC_SES_STAT_FAILS : Fld := ⟨0x00F0010C, 8, 8, .ro, 0, [.p, .m]⟩
def Reg.SEC_CHALLENGE_BYTES (i : Nat) : Fld := ⟨0x00F00120 + i * 0x4, 0, 32, .ro, 0, [.p, .m, .h]⟩
def Reg.RPC_CAUSE_LOAD_RETRY : Fld := ⟨0x01000000, 12, 1, .w1c, 0, [.k]⟩
def Reg.RPC_CAUSE_H_REG : Fld := ⟨0x01000000, 11, 1, .w1c, 0, [.k]⟩
def Reg.RPC_CAUSE_H_FLR : Fld := ⟨0x01000000, 10, 1, .w1c, 0, [.k]⟩
def Reg.RPC_CAUSE_H_LINK : Fld := ⟨0x01000000, 9, 1, .w1c, 0, [.k]⟩
def Reg.RPC_CAUSE_H_HOT : Fld := ⟨0x01000000, 8, 1, .w1c, 0, [.k]⟩
def Reg.RPC_CAUSE_WARM_CMD : Fld := ⟨0x01000000, 7, 1, .w1c, 0, [.k]⟩
def Reg.RPC_CAUSE_HOLD_STORE : Fld := ⟨0x01000000, 6, 1, .w1c, 0, [.k]⟩
def Reg.RPC_CAUSE_WDG : Fld := ⟨0x01000000, 5, 1, .w1c, 0, [.k]⟩
def Reg.RPC_CAUSE_MOD_CMD : Fld := ⟨0x01000000, 4, 1, .w1c, 0, [.k]⟩
def Reg.RPC_CAUSE_MRST : Fld := ⟨0x01000000, 3, 1, .w1c, 0, [.k]⟩
def Reg.RPC_CAUSE_KA_CLEAR : Fld := ⟨0x01000000, 2, 1, .w1c, 0, [.k]⟩
def Reg.RPC_CAUSE_KA_LOST : Fld := ⟨0x01000000, 1, 1, .w1c, 0, [.k]⟩
def Reg.RPC_CAUSE_POR : Fld := ⟨0x01000000, 0, 1, .w1c, 0, [.k]⟩
def Reg.RPC_CAUSE_CH_MAP (n : Nat) : Fld := ⟨0x01000004, n * 8 + 4, 1, .w1c, 0, [.k]⟩
def Reg.RPC_CAUSE_CH_REPOWER (n : Nat) : Fld := ⟨0x01000004, n * 8 + 3, 1, .w1c, 0, [.k]⟩
def Reg.RPC_CAUSE_CH_POISON (n : Nat) : Fld := ⟨0x01000004, n * 8 + 2, 1, .w1c, 0, [.k]⟩
def Reg.RPC_CAUSE_CH_FW (n : Nat) : Fld := ⟨0x01000004, n * 8 + 1, 1, .w1c, 0, [.k]⟩
def Reg.RPC_CAUSE_CH_CMD (n : Nat) : Fld := ⟨0x01000004, n * 8 + 0, 1, .w1c, 0, [.k]⟩
def Reg.RPC_RESET_PIN : Fld := ⟨0x01000008, 24, 1, .ro, 1, [.p, .m]⟩
def Reg.RPC_RESET_IN_RESET : Fld := ⟨0x01000008, 16, 8, .ro, 0, [.p, .m]⟩
def Reg.RPC_RESET_H : Fld := ⟨0x01000008, 5, 1, .ro, 0, [.p, .m]⟩
def Reg.RPC_RESET_C : Fld := ⟨0x01000008, 2, 3, .ro, 0, [.p, .m]⟩
def Reg.RPC_RESET_W : Fld := ⟨0x01000008, 1, 1, .ro, 0, [.p, .m]⟩
def Reg.RPC_RESET_SAVE_HOLD : Fld := ⟨0x01000008, 0, 1, .ro, 0, [.p, .m]⟩
def Reg.RPC_LOAD_RETRIES : Fld := ⟨0x0100000C, 16, 8, .ro, 0, [.p, .m]⟩
def Reg.RPC_LOAD_LOAD_ERR : Fld := ⟨0x0100000C, 8, 8, .ro, 0, [.p, .m, .c]⟩
def Reg.RPC_LOAD_LOAD_DONE : Fld := ⟨0x0100000C, 0, 8, .ro, 1, [.p, .m, .c]⟩
def Reg.RPC_STRAP_CHANGED : Fld := ⟨0x01000010, 16, 1, .w1c, 0, [.p, .m]⟩
def Reg.RPC_STRAP_TWIN_POS_LIVE : Fld := ⟨0x01000010, 12, 1, .ro, 0, [.p, .m]⟩
def Reg.RPC_STRAP_CLK_MODE_LIVE : Fld := ⟨0x01000010, 10, 2, .ro, 0, [.p, .m]⟩
def Reg.RPC_STRAP_BOOT_SRC_LIVE : Fld := ⟨0x01000010, 8, 2, .ro, 0, [.p, .m]⟩
def Reg.RPC_STRAP_TWIN_POS : Fld := ⟨0x01000010, 4, 1, .ro, 0, [.p, .m]⟩
def Reg.RPC_STRAP_CLK_MODE : Fld := ⟨0x01000010, 2, 2, .ro, 0, [.p, .m]⟩
def Reg.RPC_STRAP_BOOT_SRC : Fld := ⟨0x01000010, 0, 2, .ro, 0, [.p, .m]⟩
def Reg.RPC_SUPPLY_VMB : Fld := ⟨0x01000014, 16, 16, .ro, 0, [.p, .m]⟩
def Reg.RPC_SUPPLY_VMA : Fld := ⟨0x01000014, 0, 16, .ro, 0, [.p, .m]⟩
def Reg.RPC_VKA_REF_LOSS : Fld := ⟨0x01000018, 24, 8, .ro, 0, [.p, .m]⟩
def Reg.RPC_VKA_FROM_MAIN : Fld := ⟨0x01000018, 17, 1, .ro, 1, [.p, .m]⟩
def Reg.RPC_VKA_VKA_LOW : Fld := ⟨0x01000018, 16, 1, .ro, 0, [.p, .m]⟩
def Reg.RPC_VKA_VKA_MV : Fld := ⟨0x01000018, 0, 16, .ro, 0, [.p, .m]⟩
def Reg.RPC_RIDE_RIDES : Fld := ⟨0x0100001C, 24, 8, .ro, 0, [.k]⟩
def Reg.RPC_RIDE_SAVES : Fld := ⟨0x0100001C, 16, 8, .ro, 0, [.k]⟩
def Reg.RPC_RIDE_LAST : Fld := ⟨0x0100001C, 0, 10, .ro, 0, [.k]⟩
def Reg.RPC_OPTIME_LO_MS_LO : Fld := ⟨0x01000020, 0, 32, .ro, 0, []⟩
def Reg.RPC_OPTIME_HI_MS_HI : Fld := ⟨0x01000024, 0, 8, .ro, 0, []⟩
def Reg.RPC_PCYCLES_COUNT : Fld := ⟨0x01000028, 0, 24, .ro, 0, []⟩
def Reg.RPC_KA_STAT_PAR_COUNT : Fld := ⟨0x0100002C, 8, 8, .ro, 0, [.k]⟩
def Reg.RPC_KA_STAT_PAR_ERR : Fld := ⟨0x0100002C, 2, 1, .w1c, 0, [.k]⟩
def Reg.RPC_KA_STAT_CNT_RESTORED : Fld := ⟨0x0100002C, 1, 1, .w1c, 0, [.k]⟩
def Reg.RPC_KA_STAT_VALID : Fld := ⟨0x0100002C, 0, 1, .ro, 1, [.k]⟩
def Reg.RPC_KA_CLEAR_KEY : Fld := ⟨0x01000030, 0, 32, .wo, 0, [.k]⟩
def Reg.RPC_WDG_FIRES : Fld := ⟨0x01000034, 24, 8, .ro, 0, [.k]⟩
def Reg.RPC_WDG_SEEN : Fld := ⟨0x01000034, 16, 3, .ro, 0, [.p, .m]⟩
def Reg.RPC_WDG_AGE : Fld := ⟨0x01000034, 0, 11, .ro, 0, [.p, .m]⟩
def Reg.RPC_REPOWER_GIVEN_UP (d : Nat) : Fld := ⟨0x01000040 + d * 0x4, 31, 1, .ro, 0, [.p, .m]⟩
def Reg.RPC_REPOWER_HOUR (d : Nat) : Fld := ⟨0x01000040 + d * 0x4, 8, 2, .ro, 0, [.p, .m]⟩
def Reg.RPC_REPOWER_COUNT (d : Nat) : Fld := ⟨0x01000040 + d * 0x4, 0, 8, .ro, 0, [.p, .m]⟩
def Reg.RPC_BKP_DATA (i : Nat) : Fld := ⟨0x01000100 + i * 0x4, 0, 32, .rw, 0, [.k]⟩
def Reg.RPC_KRAM_DATA (i : Nat) : Fld := ⟨0x01001000 + i * 0x4, 0, 32, .rw, 0, [.k]⟩
def Reg.CCU_STATUS_FW_VERSION (n : Nat) : Fld := ⟨0x00302000 + n * 0x100000, 16, 16, .ro, 0, [.p, .m, .c]⟩
def Reg.CCU_STATUS_STAGE (n : Nat) : Fld := ⟨0x00302000 + n * 0x100000, 8, 4, .ro, 0, [.p, .m, .c]⟩
def Reg.CCU_STATUS_WDG_OK (n : Nat) : Fld := ⟨0x00302000 + n * 0x100000, 0, 1, .ro, 0, [.p, .m, .c]⟩
def Reg.CCU_BOOT_BOOTS (n : Nat) : Fld := ⟨0x00302004 + n * 0x100000, 16, 16, .ro, 0, [.p, .m]⟩
def Reg.CCU_BOOT_BOOT_MS (n : Nat) : Fld := ⟨0x00302004 + n * 0x100000, 0, 12, .ro, 0, [.p, .m, .c]⟩

/-- Register families of block 0x0 (R529). -/
def Reg.rowsMod : List RegRow := [
  ⟨"MOD_IDENT", 0x00000000, 0x0, 1, 0x0, 1, [Reg.MOD_IDENT_FAMILY, Reg.MOD_IDENT_MEMBER]⟩,
  ⟨"MOD_VERSION", 0x00000004, 0x0, 1, 0x0, 1, [Reg.MOD_VERSION_HW_MAJOR, Reg.MOD_VERSION_HW_MINOR, Reg.MOD_VERSION_ASSY_LEVEL, Reg.MOD_VERSION_IDENT_LAYOUT]⟩,
  ⟨"MOD_PARAM0", 0x00000010, 0x0, 1, 0x0, 1, [Reg.MOD_PARAM0_PROG_KI, Reg.MOD_PARAM0_PHASES, Reg.MOD_PARAM0_LANES, Reg.MOD_PARAM0_CHANNELS]⟩,
  ⟨"MOD_PARAM1", 0x00000014, 0x0, 1, 0x0, 1, [Reg.MOD_PARAM1_WORD_IMAGE_KI, Reg.MOD_PARAM1_BIT_IMAGE_KI]⟩,
  ⟨"MOD_PARAM2", 0x00000018, 0x0, 1, 0x0, 1, [Reg.MOD_PARAM2_COUNTERS, Reg.MOD_PARAM2_TIMERS]⟩,
  ⟨"MOD_PARAM3", 0x0000001C, 0x0, 1, 0x0, 1, [Reg.MOD_PARAM3_TABLE_WORDS, Reg.MOD_PARAM3_TABLES]⟩,
  ⟨"MOD_PARAM4", 0x00000020, 0x0, 1, 0x0, 1, [Reg.MOD_PARAM4_SCHED_ENTRIES, Reg.MOD_PARAM4_STATIONS, Reg.MOD_PARAM4_ETH_PORTS]⟩,
  ⟨"MOD_PARAM5", 0x00000024, 0x0, 1, 0x0, 1, [Reg.MOD_PARAM5_LOOPS, Reg.MOD_PARAM5_EIA485, Reg.MOD_PARAM5_MVB, Reg.MOD_PARAM5_CAN, Reg.MOD_PARAM5_ROUTES]⟩,
  ⟨"MOD_PARAM6", 0x00000028, 0x0, 1, 0x0, 1, [Reg.MOD_PARAM6_FORCES, Reg.MOD_PARAM6_SO, Reg.MOD_PARAM6_SI]⟩,
  ⟨"MOD_STATUS", 0x00000040, 0x0, 1, 0x0, 1, [Reg.MOD_STATUS_ACK_READY, Reg.MOD_STATUS_SESSION, Reg.MOD_STATUS_ZERO_SPEED, Reg.MOD_STATUS_KEY, Reg.MOD_STATUS_OUT_PERMIT, Reg.MOD_STATUS_CFG_VALID, Reg.MOD_STATUS_TIME_VALID, Reg.MOD_STATUS_RETIRED, Reg.MOD_STATUS_IN_VOTE, Reg.MOD_STATUS_VOTE_DEG, Reg.MOD_STATUS_ROLE, Reg.MOD_STATUS_DEBUG, Reg.MOD_STATUS_MODE]⟩,
  ⟨"MOD_CAUSE", 0x00000044, 0x0, 1, 0x0, 1, [Reg.MOD_CAUSE_SEQ, Reg.MOD_CAUSE_CHANNELS, Reg.MOD_CAUSE_TO, Reg.MOD_CAUSE_FROM, Reg.MOD_CAUSE_CAUSE]⟩,
  ⟨"MOD_CH_STATE", 0x00000050, 0x4, 3, 0x0, 1, [Reg.MOD_CH_STATE_EXCL_COUNT 0, Reg.MOD_CH_STATE_LAST_CAUSE 0, Reg.MOD_CH_STATE_PLUG_COPY 0, Reg.MOD_CH_STATE_RESYNC_FAILS 0, Reg.MOD_CH_STATE_STATE 0]⟩,
  ⟨"MOD_DOMAIN", 0x00000060, 0x0, 1, 0x0, 1, [Reg.MOD_DOMAIN_LOSS, Reg.MOD_DOMAIN_CLAMP, Reg.MOD_DOMAIN_PGOOD]⟩]

/-- Register families of block 0x1 (R529). -/
def Reg.rowsHbr : List RegRow := [
  ⟨"HBR_LINK", 0x00100000, 0x0, 1, 0x0, 1, [Reg.HBR_LINK_SPEED, Reg.HBR_LINK_WIDTH, Reg.HBR_LINK_STATE]⟩,
  ⟨"HBR_CTL", 0x00100004, 0x0, 1, 0x0, 1, [Reg.HBR_CTL_HRESET]⟩,
  ⟨"HBR_ACC_ERR", 0x00100008, 0x0, 1, 0x0, 1, [Reg.HBR_ACC_ERR_KIND, Reg.HBR_ACC_ERR_POISON, Reg.HBR_ACC_ERR_COUNT]⟩,
  ⟨"HBR_ACC_ADDR", 0x0010000C, 0x0, 1, 0x0, 1, [Reg.HBR_ACC_ADDR_OFFSET]⟩,
  ⟨"HBR_INT_STATUS", 0x00100010, 0x0, 1, 0x0, 1, [Reg.HBR_INT_STATUS_INT]⟩,
  ⟨"HBR_INT_ENABLE", 0x00100014, 0x0, 1, 0x0, 1, [Reg.HBR_INT_ENABLE_EN]⟩,
  ⟨"HBR_INT_LEGACY", 0x00100018, 0x0, 1, 0x0, 1, [Reg.HBR_INT_LEGACY_INT]⟩,
  ⟨"HBR_DMA_BASE_LO", 0x00100020, 0x0, 1, 0x0, 1, [Reg.HBR_DMA_BASE_LO_BASE_LO]⟩,
  ⟨"HBR_DMA_BASE_HI", 0x00100024, 0x0, 1, 0x0, 1, [Reg.HBR_DMA_BASE_HI_BASE_HI]⟩,
  ⟨"HBR_DMA_CTL", 0x00100028, 0x0, 1, 0x0, 1, [Reg.HBR_DMA_CTL_ENABLE, Reg.HBR_DMA_CTL_SLOTS, Reg.HBR_DMA_CTL_RATE, Reg.HBR_DMA_CTL_VIEW]⟩,
  ⟨"HBR_DMA_STAT", 0x0010002C, 0x0, 1, 0x0, 1, [Reg.HBR_DMA_STAT_LATE, Reg.HBR_DMA_STAT_PUSHED]⟩]

/-- Register families of block 0x2 (R529). -/
def Reg.rowsCmd : List RegRow := [
  ⟨"CMD_PRG_STATE", 0x00200400, 0x0, 1, 0x0, 1, [Reg.CMD_PRG_STATE_UC_AGREE, Reg.CMD_PRG_STATE_SWITCH_BACK, Reg.CMD_PRG_STATE_START_COPY, Reg.CMD_PRG_STATE_LOAD_COPY, Reg.CMD_PRG_STATE_COMMIT_PENDING, Reg.CMD_PRG_STATE_UC_STATE]⟩,
  ⟨"CMD_PRG_TARGET_LO", 0x00200404, 0x0, 1, 0x0, 1, [Reg.CMD_PRG_TARGET_LO_T_LO]⟩,
  ⟨"CMD_PRG_TARGET_HI", 0x00200408, 0x0, 1, 0x0, 1, [Reg.CMD_PRG_TARGET_HI_T_HI]⟩,
  ⟨"CMD_PRG_COMMIT", 0x0020040C, 0x0, 1, 0x0, 1, [Reg.CMD_PRG_COMMIT_SEQ, Reg.CMD_PRG_COMMIT_REMOVED, Reg.CMD_PRG_COMMIT_KEPT, Reg.CMD_PRG_COMMIT_RESULT]⟩,
  ⟨"CMD_PRG_MIGR", 0x00200410, 0x0, 1, 0x0, 1, [Reg.CMD_PRG_MIGR_SKIPPED, Reg.CMD_PRG_MIGR_COST_CLK, Reg.CMD_PRG_MIGR_OPS]⟩,
  ⟨"CMD_RET_STATUS", 0x00200414, 0x0, 1, 0x0, 1, [Reg.CMD_RET_STATUS_NOMAJ, Reg.CMD_RET_STATUS_SAVE_TIME, Reg.CMD_RET_STATUS_DISCARDED, Reg.CMD_RET_STATUS_LAST_WARM, Reg.CMD_RET_STATUS_COLD_REASON]⟩,
  ⟨"CMD_FORCE_COUNT", 0x00200418, 0x0, 1, 0x0, 1, [Reg.CMD_FORCE_COUNT_SAFETY, Reg.CMD_FORCE_COUNT_COUNT]⟩,
  ⟨"CMD_FORCE_SYM", 0x00201000, 0x10, 256, 0x0, 1, [Reg.CMD_FORCE_SYM_SYMBOL 0]⟩,
  ⟨"CMD_FORCE_LOC", 0x00201004, 0x10, 256, 0x0, 1, [Reg.CMD_FORCE_LOC_VALID 0, Reg.CMD_FORCE_LOC_SAFETY_LOC 0, Reg.CMD_FORCE_LOC_SPACE 0, Reg.CMD_FORCE_LOC_ADDR 0]⟩,
  ⟨"CMD_FORCE_VAL", 0x00201008, 0x10, 256, 0x0, 1, [Reg.CMD_FORCE_VAL_VALUE 0]⟩,
  ⟨"CMD_REC", 0x00200000, 0x4, 4, 0x0, 1, [Reg.CMD_REC_WORD 0]⟩,
  ⟨"CMD_NEXT_SEQ", 0x00200010, 0x0, 1, 0x0, 1, [Reg.CMD_NEXT_SEQ_NEXT]⟩,
  ⟨"CMD_LANE", 0x00200014, 0x0, 1, 0x0, 1, [Reg.CMD_LANE_FIFO_LOST, Reg.CMD_LANE_SEQ_ERR, Reg.CMD_LANE_WAITING]⟩,
  ⟨"CMD_RES_HEAD0", 0x00200018, 0x0, 1, 0x0, 1, [Reg.CMD_RES_HEAD0_WORD0]⟩,
  ⟨"CMD_RES_HEAD1", 0x0020001C, 0x0, 1, 0x0, 1, [Reg.CMD_RES_HEAD1_WORD1]⟩,
  ⟨"CMD_RES_COMMIT", 0x00200020, 0x0, 1, 0x0, 1, [Reg.CMD_RES_COMMIT_COMMIT]⟩,
  ⟨"CMD_RES_LEGACY", 0x00200024, 0x0, 1, 0x0, 1, [Reg.CMD_RES_LEGACY_WORD0]⟩,
  ⟨"CMD_RESULT0", 0x00200100, 0x8, 64, 0x0, 1, [Reg.CMD_RESULT0_WORD0 0]⟩,
  ⟨"CMD_RESULT1", 0x00200104, 0x8, 64, 0x0, 1, [Reg.CMD_RESULT1_WORD1 0]⟩]

/-- Register families of block 0x3 (R529). -/
def Reg.rowsChv : List RegRow := [
  ⟨"LEN_CAPS", 0x00300000, 0x100000, 3, 0x0, 1, [Reg.LEN_CAPS_CLK_MHZ 0, Reg.LEN_CAPS_TBL_STORE_KI 0]⟩,
  ⟨"LEN_STATUS", 0x00300004, 0x100000, 3, 0x0, 1, [Reg.LEN_STATUS_PHASE 0, Reg.LEN_STATUS_UC_STATE 0, Reg.LEN_STATUS_BANK_RUN 0, Reg.LEN_STATUS_RUN 0]⟩,
  ⟨"LEN_LANE_STAT", 0x00300008, 0x100000, 3, 0x0, 1, [Reg.LEN_LANE_STAT_RNG 0, Reg.LEN_LANE_STAT_OVF 0]⟩,
  ⟨"LEN_LANE_STICKY", 0x0030000C, 0x100000, 3, 0x0, 1, [Reg.LEN_LANE_STICKY_RNG 0, Reg.LEN_LANE_STICKY_OVF 0]⟩,
  ⟨"LEN_PSN", 0x00300010, 0x100000, 3, 0x0, 1, [Reg.LEN_PSN_COUNT 0, Reg.LEN_PSN_LANES 0]⟩,
  ⟨"LEN_BANK_RUN_LO", 0x00300014, 0x100000, 3, 0x0, 1, [Reg.LEN_BANK_RUN_LO_ID_LO 0]⟩,
  ⟨"LEN_BANK_RUN_HI", 0x00300018, 0x100000, 3, 0x0, 1, [Reg.LEN_BANK_RUN_HI_ID_HI 0]⟩,
  ⟨"LEN_BANK_UC_LO", 0x0030001C, 0x100000, 3, 0x0, 1, [Reg.LEN_BANK_UC_LO_ID_LO 0]⟩,
  ⟨"LEN_BANK_UC_HI", 0x00300020, 0x100000, 3, 0x0, 1, [Reg.LEN_BANK_UC_HI_ID_HI 0]⟩,
  ⟨"LEN_PROG", 0x00300024, 0x100000, 3, 0x0, 1, [Reg.LEN_PROG_TABLES 0, Reg.LEN_PROG_LANES_USED 0, Reg.LEN_PROG_PHASE_COUNT 0]⟩,
  ⟨"LEN_BARRIER", 0x00300028, 0x100000, 3, 0x0, 1, [Reg.LEN_BARRIER_BAR_CLK 0]⟩,
  ⟨"LEN_END_CLK", 0x0030002C, 0x100000, 3, 0x0, 1, [Reg.LEN_END_CLK_END_CLK 0]⟩,
  ⟨"LEN_LOAD_STAT", 0x00300030, 0x100000, 3, 0x0, 1, [Reg.LEN_LOAD_STAT_INDEX 0, Reg.LEN_LOAD_STAT_PHASE 0, Reg.LEN_LOAD_STAT_LANE 0, Reg.LEN_LOAD_STAT_REASON 0]⟩,
  ⟨"LEN_LOAD_ADDR", 0x00300034, 0x100000, 3, 0x0, 1, [Reg.LEN_LOAD_ADDR_SPACE 0, Reg.LEN_LOAD_ADDR_ADDR 0]⟩,
  ⟨"MIU_CFG", 0x00301000, 0x100000, 3, 0x0, 1, [Reg.MIU_CFG_SCRUB_S 0, Reg.MIU_CFG_BCH_T 0]⟩,
  ⟨"MIU_SCRUB", 0x00301004, 0x100000, 3, 0x0, 1, [Reg.MIU_SCRUB_PASSES 0, Reg.MIU_SCRUB_PACE 0]⟩,
  ⟨"MIU_SCRUB_POS", 0x00301008, 0x100000, 3, 0x0, 1, [Reg.MIU_SCRUB_POS_NEXT 0]⟩,
  ⟨"MIU_CE", 0x0030100C, 0x100000, 3, 0x0, 1, [Reg.MIU_CE_CE_ACCESS 0, Reg.MIU_CE_CE_SCRUB 0]⟩,
  ⟨"MIU_UE", 0x00301010, 0x100000, 3, 0x0, 1, [Reg.MIU_UE_UE_COUNT 0, Reg.MIU_UE_HOST_EP 0, Reg.MIU_UE_QUEUE_OVF 0]⟩,
  ⟨"MIU_EVENT", 0x00301014, 0x100000, 3, 0x0, 1, [Reg.MIU_EVENT_PLUG_UE 0, Reg.MIU_EVENT_PLUG_MARGIN 0, Reg.MIU_EVENT_WEAK_ROW 0, Reg.MIU_EVENT_CCU_PSN 0, Reg.MIU_EVENT_LEN_PSN 0, Reg.MIU_EVENT_UE 0, Reg.MIU_EVENT_CE 0]⟩,
  ⟨"MIU_ERR_ADDR", 0x00301018, 0x100000, 3, 0x0, 1, [Reg.MIU_ERR_ADDR_KIND 0, Reg.MIU_ERR_ADDR_REGION 0, Reg.MIU_ERR_ADDR_CWADDR 0]⟩,
  ⟨"MIU_ERR_SYND", 0x0030101C, 0x100000, 3, 0x0, 1, [Reg.MIU_ERR_SYND_SYND 0, Reg.MIU_ERR_SYND_BIT 0]⟩,
  ⟨"MIU_SPARE", 0x00301020, 0x100000, 3, 0x0, 1, [Reg.MIU_SPARE_MAP_OK 0, Reg.MIU_SPARE_USED 0, Reg.MIU_SPARE_WEAK 0]⟩,
  ⟨"MIU_FLIP_MASK_LO", 0x00301024, 0x100000, 3, 0x0, 1, [Reg.MIU_FLIP_MASK_LO_MASK_LO 0]⟩,
  ⟨"MIU_FLIP_MASK_HI", 0x00301028, 0x100000, 3, 0x0, 1, [Reg.MIU_FLIP_MASK_HI_MASK_HI 0]⟩,
  ⟨"MIU_FLIP_CTL", 0x0030102C, 0x100000, 3, 0x0, 1, [Reg.MIU_FLIP_CTL_ARM 0, Reg.MIU_FLIP_CTL_FIRED 0, Reg.MIU_FLIP_CTL_CANCELLED 0, Reg.MIU_FLIP_CTL_TARGET 0, Reg.MIU_FLIP_CTL_CHK 0, Reg.MIU_FLIP_CTL_ADDR_EN 0]⟩,
  ⟨"MIU_FLIP_ADDR", 0x00301030, 0x100000, 3, 0x0, 1, [Reg.MIU_FLIP_ADDR_CWADDR 0]⟩,
  ⟨"MIU_PLUG_ECC", 0x00301034, 0x100000, 3, 0x0, 1, [Reg.MIU_PLUG_ECC_UE_PAGES 0, Reg.MIU_PLUG_ECC_CE_PAGES 0, Reg.MIU_PLUG_ECC_MAX_BITS 0]⟩,
  ⟨"MIU_PLUG_UE_LOC", 0x00301038, 0x100000, 3, 0x0, 1, [Reg.MIU_PLUG_UE_LOC_COPY 0, Reg.MIU_PLUG_UE_LOC_SECTION 0, Reg.MIU_PLUG_UE_LOC_PAGE 0]⟩,
  ⟨"CCU_STATUS", 0x00302000, 0x100000, 3, 0x0, 1, [Reg.CCU_STATUS_FW_VERSION 0, Reg.CCU_STATUS_STAGE 0, Reg.CCU_STATUS_WDG_OK 0]⟩,
  ⟨"CCU_BOOT", 0x00302004, 0x100000, 3, 0x0, 1, [Reg.CCU_BOOT_BOOTS 0, Reg.CCU_BOOT_BOOT_MS 0]⟩]

/-- Register families of block 0x6 (R529). -/
def Reg.rowsVot : List RegRow := [
  ⟨"VOT_CFG", 0x00600000, 0x0, 1, 0x0, 1, [Reg.VOT_CFG_PROOF_DAYS, Reg.VOT_CFG_TRAVERSE]⟩,
  ⟨"VOT_SIG_STATUS", 0x00600004, 0x0, 1, 0x0, 1, [Reg.VOT_SIG_STATUS_SEQ, Reg.VOT_SIG_STATUS_ABSENT, Reg.VOT_SIG_STATUS_IN_CMP, Reg.VOT_SIG_STATUS_EXCL, Reg.VOT_SIG_STATUS_DECISION, Reg.VOT_SIG_STATUS_VERD_C, Reg.VOT_SIG_STATUS_VERD_B, Reg.VOT_SIG_STATUS_VERD_A]⟩,
  ⟨"VOT_SIG_CYCLE", 0x00600008, 0x0, 1, 0x0, 1, [Reg.VOT_SIG_CYCLE_CYCLE]⟩,
  ⟨"VOT_SIG_LO", 0x00600010, 0x8, 3, 0x0, 1, [Reg.VOT_SIG_LO_SIG_LO 0]⟩,
  ⟨"VOT_SIG_HI", 0x00600014, 0x8, 3, 0x0, 1, [Reg.VOT_SIG_HI_SIG_HI 0]⟩,
  ⟨"VOT_ODD_COUNT", 0x00600030, 0x0, 1, 0x0, 1, [Reg.VOT_ODD_COUNT_SAFE_COUNT, Reg.VOT_ODD_COUNT_ODD_C, Reg.VOT_ODD_COUNT_ODD_B, Reg.VOT_ODD_COUNT_ODD_A]⟩,
  ⟨"VOT_OUT_DIFF", 0x00600034, 0x0, 1, 0x0, 1, [Reg.VOT_OUT_DIFF_FLAG, Reg.VOT_OUT_DIFF_DIFF_C, Reg.VOT_OUT_DIFF_DIFF_B, Reg.VOT_OUT_DIFF_DIFF_A]⟩,
  ⟨"VOT_RESYNC", 0x00600040, 0x0, 1, 0x0, 1, [Reg.VOT_RESYNC_ATTEMPTS, Reg.VOT_RESYNC_ELAPSED, Reg.VOT_RESYNC_CHASED, Reg.VOT_RESYNC_COPIES, Reg.VOT_RESYNC_CHANNEL, Reg.VOT_RESYNC_STAGE]⟩,
  ⟨"VOT_RESYNC_FAIL", 0x00600044, 0x0, 1, 0x0, 1, [Reg.VOT_RESYNC_FAIL_COUNT, Reg.VOT_RESYNC_FAIL_CHANNEL, Reg.VOT_RESYNC_FAIL_REASON]⟩,
  ⟨"VOT_XFER_TIME", 0x00600048, 0x0, 1, 0x0, 1, [Reg.VOT_XFER_TIME_XFER]⟩,
  ⟨"VOT_PLUMB", 0x00600050, 0x0, 1, 0x0, 1, [Reg.VOT_PLUMB_SEQ, Reg.VOT_PLUMB_TESTED, Reg.VOT_PLUMB_CELL_OK, Reg.VOT_PLUMB_CMP_OK]⟩,
  ⟨"VOT_PROOF_AGE", 0x00600060, 0x4, 3, 0x0, 1, [Reg.VOT_PROOF_AGE_HOURS 0]⟩,
  ⟨"VOT_PROOF_WARN", 0x0060006C, 0x0, 1, 0x0, 1, [Reg.VOT_PROOF_WARN_WARN]⟩,
  ⟨"VOT_DBG", 0x00600070, 0x0, 1, 0x0, 1, [Reg.VOT_DBG_STEPS, Reg.VOT_DBG_PHASE, Reg.VOT_DBG_STATE]⟩,
  ⟨"VOT_DBG_CYCLE", 0x00600074, 0x0, 1, 0x0, 1, [Reg.VOT_DBG_CYCLE_CYCLE]⟩]

/-- Register families of block 0x7 (R529). -/
def Reg.rowsPtn : List RegRow := [
  ⟨"PTN_CFG", 0x00700000, 0x0, 1, 0x0, 1, [Reg.PTN_CFG_ETHERTYPE, Reg.PTN_CFG_NODE, Reg.PTN_CFG_STATIONS]⟩,
  ⟨"PTN_STATUS", 0x00700004, 0x0, 1, 0x0, 1, [Reg.PTN_STATUS_NEXT_LOADED, Reg.PTN_STATUS_LISTEN_ONLY, Reg.PTN_STATUS_EDGE_LOADED, Reg.PTN_STATUS_ENTRIES]⟩,
  ⟨"PTN_GUARD", 0x00700008, 0x0, 1, 0x0, 1, [Reg.PTN_GUARD_PI, Reg.PTN_GUARD_G]⟩,
  ⟨"PTN_BYPASS", 0x0070000C, 0x0, 1, 0x0, 1, [Reg.PTN_BYPASS_RETRIES, Reg.PTN_BYPASS_RELAY_B, Reg.PTN_BYPASS_RELAY_A, Reg.PTN_BYPASS_STAGE]⟩,
  ⟨"PTN_HOLDUP", 0x00700010, 0x0, 1, 0x0, 1, [Reg.PTN_HOLDUP_NO_STAGE, Reg.PTN_HOLDUP_LOW, Reg.PTN_HOLDUP_DONE, Reg.PTN_HOLDUP_ENERGY]⟩,
  ⟨"PTN_VOTE", 0x00700014, 0x0, 1, 0x0, 1, [Reg.PTN_VOTE_EMPTY, Reg.PTN_VOTE_UNFIT]⟩,
  ⟨"PTN_LINE", 0x00700018, 0x0, 1, 0x0, 1, [Reg.PTN_LINE_DUP, Reg.PTN_LINE_ONLY_B, Reg.PTN_LINE_ONLY_A]⟩,
  ⟨"PTN_FREE", 0x0070001C, 0x0, 1, 0x0, 1, [Reg.PTN_FREE_DROPPED, Reg.PTN_FREE_LEARNED]⟩,
  ⟨"PTN_PORT", 0x00700100, 0x4, 14, 0x0, 1, [Reg.PTN_PORT_LINK 0, Reg.PTN_PORT_SPEED 0, Reg.PTN_PORT_BYPASSED 0, Reg.PTN_PORT_FREE_FWD 0, Reg.PTN_PORT_CONNECTED 0, Reg.PTN_PORT_RX_BAD 0, Reg.PTN_PORT_RX_ERR 0]⟩,
  ⟨"PTN_POLICE", 0x00700140, 0x4, 14, 0x0, 1, [Reg.PTN_POLICE_DROPS 0, Reg.PTN_POLICE_ISOLATED 0]⟩,
  ⟨"PTN_ISO_LO", 0x00700180, 0x8, 14, 0x0, 1, [Reg.PTN_ISO_LO_SRC_LO 0]⟩,
  ⟨"PTN_ISO_HI", 0x00700184, 0x8, 14, 0x0, 1, [Reg.PTN_ISO_HI_SRC_HI 0]⟩,
  ⟨"PTN_STN", 0x00701000, 0x4, 128, 0x0, 1, [Reg.PTN_STN_CONFIGURED 0, Reg.PTN_STN_STALE 0, Reg.PTN_STN_SUBST 0, Reg.PTN_STN_RETURN 0, Reg.PTN_STN_LAST_REJECT 0, Reg.PTN_STN_A 0, Reg.PTN_STN_S 0, Reg.PTN_STN_MISS 0]⟩,
  ⟨"PTN_CONN", 0x00701200, 0x4, 128, 0x0, 1, [Reg.PTN_CONN_CONFIGURED 0, Reg.PTN_CONN_FRESH 0, Reg.PTN_CONN_SUBST 0, Reg.PTN_CONN_RETURN 0, Reg.PTN_CONN_LAST_REJECT 0, Reg.PTN_CONN_A 0, Reg.PTN_CONN_S 0, Reg.PTN_CONN_MISS 0]⟩,
  ⟨"PTN_SCHED", 0x00780000, 0x20, 2048, 0x4, 8, [Reg.PTN_SCHED_ENTRY 0 0]⟩,
  ⟨"PTN_SCHED_NEXT", 0x007C0000, 0x20, 2048, 0x4, 8, [Reg.PTN_SCHED_NEXT_ENTRY 0 0]⟩]

/-- Register families of block 0x8 (R529). -/
def Reg.rowsTmu : List RegRow := [
  ⟨"TMU_CYC_CFG", 0x00800100, 0x0, 1, 0x0, 1, [Reg.TMU_CYC_CFG_EPOCH, Reg.TMU_CYC_CFG_M_CODE, Reg.TMU_CYC_CFG_TBC_CODE]⟩,
  ⟨"TMU_CYC_INDEX", 0x00800104, 0x0, 1, 0x0, 1, [Reg.TMU_CYC_INDEX_CYCLE, Reg.TMU_CYC_INDEX_MX_INDEX]⟩,
  ⟨"TMU_CYC_WINDOW", 0x00800108, 0x0, 1, 0x0, 1, [Reg.TMU_CYC_WINDOW_WINDOW_CLK]⟩,
  ⟨"TMU_CYC_WCET", 0x0080010C, 0x0, 1, 0x0, 1, [Reg.TMU_CYC_WCET_RUN_CLK]⟩,
  ⟨"TMU_CYC_WCET_UC", 0x00800110, 0x0, 1, 0x0, 1, [Reg.TMU_CYC_WCET_UC_UC_CLK]⟩,
  ⟨"TMU_CYC_OVR", 0x00800114, 0x0, 1, 0x0, 1, [Reg.TMU_CYC_OVR_FLAG, Reg.TMU_CYC_OVR_COUNT_C, Reg.TMU_CYC_OVR_COUNT_B, Reg.TMU_CYC_OVR_COUNT_A]⟩,
  ⟨"TMU_CYC_XCHG", 0x00800118, 0x0, 1, 0x0, 1, [Reg.TMU_CYC_XCHG_LINK_FLT, Reg.TMU_CYC_XCHG_MISS_CA, Reg.TMU_CYC_XCHG_MISS_BC, Reg.TMU_CYC_XCHG_MISS_AB]⟩,
  ⟨"TMU_CYC_ISTG", 0x00800120, 0x4, 3, 0x0, 1, [Reg.TMU_CYC_ISTG_EXCL 0]⟩,
  ⟨"TMU_STATUS", 0x00800000, 0x0, 1, 0x0, 1, [Reg.TMU_STATUS_MASTER, Reg.TMU_STATUS_DOM1_ALIVE, Reg.TMU_STATUS_DOM0_ALIVE, Reg.TMU_STATUS_DOMAIN, Reg.TMU_STATUS_VALID, Reg.TMU_STATUS_ROLE]⟩,
  ⟨"TMU_NOW", 0x00800004, 0x0, 1, 0x0, 1, [Reg.TMU_NOW_NS]⟩,
  ⟨"TMU_TC", 0x00800008, 0x0, 1, 0x0, 1, [Reg.TMU_TC_TC_NS]⟩,
  ⟨"TMU_OFFSET", 0x0080000C, 0x0, 1, 0x0, 1, [Reg.TMU_OFFSET_THETA]⟩,
  ⟨"TMU_UNCERT", 0x00800010, 0x0, 1, 0x0, 1, [Reg.TMU_UNCERT_U]⟩,
  ⟨"TMU_DOMAIN", 0x00800020, 0x4, 2, 0x0, 1, [Reg.TMU_DOMAIN_ACCEPTED 0, Reg.TMU_DOMAIN_RANK 0, Reg.TMU_DOMAIN_MASTER 0, Reg.TMU_DOMAIN_MISSED 0]⟩,
  ⟨"TMU_CFG", 0x00800030, 0x0, 1, 0x0, 1, [Reg.TMU_CFG_HOLD_PPB, Reg.TMU_CFG_COLD_PRIO, Reg.TMU_CFG_ELIGIBLE, Reg.TMU_CFG_EL_DOMAIN, Reg.TMU_CFG_RANK]⟩,
  ⟨"TMU_COLD", 0x00800034, 0x0, 1, 0x0, 1, [Reg.TMU_COLD_BACKOFFS, Reg.TMU_COLD_LAST_PERIODS, Reg.TMU_COLD_CONFLICT]⟩,
  ⟨"TMU_REJECT", 0x00800038, 0x0, 1, 0x0, 1, [Reg.TMU_REJECT_OUTLIER, Reg.TMU_REJECT_MISMATCH]⟩,
  ⟨"TMU_PORT_ADJ", 0x00800200, 0x8, 14, 0x0, 1, [Reg.TMU_PORT_ADJ_TX_ADJ 0, Reg.TMU_PORT_ADJ_RX_ADJ 0]⟩,
  ⟨"TMU_PORT_DELAY", 0x00800204, 0x8, 14, 0x0, 1, [Reg.TMU_PORT_DELAY_LINK_NS 0]⟩,
  ⟨"TMU_LAUNCH", 0x00800300, 0x8, 8, 0x0, 1, [Reg.TMU_LAUNCH_ENABLED 0, Reg.TMU_LAUNCH_TARGET_WORD 0, Reg.TMU_LAUNCH_ENTRY 0]⟩,
  ⟨"TMU_LAUNCH_STAT", 0x00800304, 0x8, 8, 0x0, 1, [Reg.TMU_LAUNCH_STAT_LATE 0, Reg.TMU_LAUNCH_STAT_REFUSED 0, Reg.TMU_LAUNCH_STAT_RESULT 0]⟩,
  ⟨"TMU_AS", 0x00800380, 0x0, 1, 0x0, 1, [Reg.TMU_AS_PRIORITY1, Reg.TMU_AS_SYNC_LOG, Reg.TMU_AS_PORTS]⟩]

/-- Register families of block 0x9 (R529). -/
def Reg.rowsSio : List RegRow := [
  ⟨"SIO_GROUP", 0x00900000, 0x4, 2, 0x0, 1, [Reg.SIO_GROUP_VOLT 0, Reg.SIO_GROUP_STATE 0, Reg.SIO_GROUP_UN 0]⟩,
  ⟨"SIO_TP", 0x00900008, 0x0, 1, 0x0, 1, [Reg.SIO_TP_HIZ, Reg.SIO_TP_OVL]⟩,
  ⟨"SIO_IN_CFG", 0x00900100, 0x4, 24, 0x0, 1, [Reg.SIO_IN_CFG_FILTER 0, Reg.SIO_IN_CFG_TP 0, Reg.SIO_IN_CFG_USE 0]⟩,
  ⟨"SIO_IN_STAT", 0x00900200, 0x4, 24, 0x0, 1, [Reg.SIO_IN_STAT_VALUE 0, Reg.SIO_IN_STAT_DIAG 0]⟩,
  ⟨"SIO_PAIR_CFG", 0x00900300, 0x4, 12, 0x0, 1, [Reg.SIO_PAIR_CFG_DECLARED 0, Reg.SIO_PAIR_CFG_D 0]⟩,
  ⟨"SIO_PAIR_STAT", 0x00900340, 0x0, 1, 0x0, 1, [Reg.SIO_PAIR_STAT_LATCHED, Reg.SIO_PAIR_STAT_VALUE]⟩,
  ⟨"SIO_OUT_CFG", 0x00900400, 0x4, 12, 0x0, 1, [Reg.SIO_OUT_CFG_ENABLED 0, Reg.SIO_OUT_CFG_PARALLEL 0, Reg.SIO_OUT_CFG_TIMED 0, Reg.SIO_OUT_CFG_AUTO_RESUME 0, Reg.SIO_OUT_CFG_PERIOD 0, Reg.SIO_OUT_CFG_PULSE 0, Reg.SIO_OUT_CFG_TIMED_WORD 0]⟩,
  ⟨"SIO_OUT_STAT", 0x00900500, 0x4, 12, 0x0, 1, [Reg.SIO_OUT_STAT_LATCH 0, Reg.SIO_OUT_STAT_HS 0, Reg.SIO_OUT_STAT_LS 0, Reg.SIO_OUT_STAT_ENERGISED 0, Reg.SIO_OUT_STAT_HOLD 0, Reg.SIO_OUT_STAT_PEND 0, Reg.SIO_OUT_STAT_OPEN_LOAD 0, Reg.SIO_OUT_STAT_IMBAL 0, Reg.SIO_OUT_STAT_CHECK 0, Reg.SIO_OUT_STAT_CURRENT 0]⟩,
  ⟨"SIO_OUT_COUNT", 0x00900600, 0x4, 12, 0x0, 1, [Reg.SIO_OUT_COUNT_LATCHES 0, Reg.SIO_OUT_COUNT_ABORTS 0, Reg.SIO_OUT_COUNT_FAILS 0]⟩,
  ⟨"SIO_TIMED", 0x00900680, 0x0, 1, 0x0, 1, [Reg.SIO_TIMED_LATE_FLAG, Reg.SIO_TIMED_LATE_COUNT]⟩,
  ⟨"SIO_ACK", 0x00900700, 0x0, 1, 0x0, 1, [Reg.SIO_ACK_SEQ, Reg.SIO_ACK_LAST, Reg.SIO_ACK_CLEARED]⟩,
  ⟨"SIO_SWITCH", 0x00900710, 0x0, 1, 0x0, 1, [Reg.SIO_SWITCH_DIGEST0, Reg.SIO_SWITCH_MISMATCH, Reg.SIO_SWITCH_CHANGED, Reg.SIO_SWITCH_SW_D, Reg.SIO_SWITCH_SW_S, Reg.SIO_SWITCH_SW_N]⟩]

/-- Register families of block 0xA (R529). -/
def Reg.rowsDlk : List RegRow := [
  ⟨"DLK_STATUS", 0x00A00000, 0x0, 1, 0x0, 1, [Reg.DLK_STATUS_FAULT_CODE, Reg.DLK_STATUS_LOCK_CAUSE, Reg.DLK_STATUS_TESTING, Reg.DLK_STATUS_FALLBACK, Reg.DLK_STATUS_FAULT, Reg.DLK_STATUS_LOCKOUT, Reg.DLK_STATUS_HEALTHY, Reg.DLK_STATUS_OUT, Reg.DLK_STATUS_PAIRS]⟩,
  ⟨"DLK_CFG", 0x00A00004, 0x0, 1, 0x0, 1, [Reg.DLK_CFG_MATCH, Reg.DLK_CFG_SW_D_EXP, Reg.DLK_CFG_SW_D]⟩,
  ⟨"DLK_PAIR", 0x00A00008, 0x0, 1, 0x0, 1, [Reg.DLK_PAIR_ACK_LATCHED, Reg.DLK_PAIR_LATCHED, Reg.DLK_PAIR_DISAGREE, Reg.DLK_PAIR_ACK_IN, Reg.DLK_PAIR_INPUTS]⟩,
  ⟨"DLK_EVENT", 0x00A0000C, 0x0, 1, 0x0, 1, [Reg.DLK_EVENT_FB_DIFF, Reg.DLK_EVENT_ACK_IGNORED, Reg.DLK_EVENT_OFF_TIME_BLOCK, Reg.DLK_EVENT_FAULT_SET, Reg.DLK_EVENT_LOCKOUT_CLEARED, Reg.DLK_EVENT_LOCKOUT_SET]⟩,
  ⟨"DLK_RELEASES", 0x00A00010, 0x0, 1, 0x0, 1, [Reg.DLK_RELEASES_RIGHT, Reg.DLK_RELEASES_LEFT]⟩,
  ⟨"DLK_FB", 0x00A00014, 0x0, 1, 0x0, 1, [Reg.DLK_FB_DIFF_COUNT, Reg.DLK_FB_CH_SECOND, Reg.DLK_FB_CH_FIRST, Reg.DLK_FB_DIFF, Reg.DLK_FB_PERMIT]⟩,
  ⟨"DLK_TEST", 0x00A00018, 0x0, 1, 0x0, 1, [Reg.DLK_TEST_CHK_PASSES, Reg.DLK_TEST_STARTUP, Reg.DLK_TEST_FAILED_VECTOR]⟩]

/-- Register families of block 0xB (R529). -/
def Reg.rowsAlp : List RegRow := [
  ⟨"ALP_CFG", 0x00B00000, 0x20, 4, 0x0, 1, [Reg.ALP_CFG_STALE_CYC 0, Reg.ALP_CFG_HART_DEV 0, Reg.ALP_CFG_COMP_FAULT 0, Reg.ALP_CFG_HART 0, Reg.ALP_CFG_FAIL 0, Reg.ALP_CFG_FILTER 0, Reg.ALP_CFG_MULTIDROP 0, Reg.ALP_CFG_MODE 0]⟩,
  ⟨"ALP_STAT", 0x00B00004, 0x20, 4, 0x0, 1, [Reg.ALP_STAT_HEADROOM 0, Reg.ALP_STAT_FAILSAFE 0, Reg.ALP_STAT_CAL 0, Reg.ALP_STAT_FAULT 0, Reg.ALP_STAT_COMPLIANCE 0, Reg.ALP_STAT_OPEN 0, Reg.ALP_STAT_LIMIT 0, Reg.ALP_STAT_CLASS 0, Reg.ALP_STAT_CURRENT 0]⟩,
  ⟨"ALP_EVENT", 0x00B00008, 0x20, 4, 0x0, 1, [Reg.ALP_EVENT_CLAMPED 0, Reg.ALP_EVENT_STALE 0, Reg.ALP_EVENT_CAL_ABORT 0, Reg.ALP_EVENT_CAL_DONE 0, Reg.ALP_EVENT_FAILURE 0, Reg.ALP_EVENT_COMP_SET 0, Reg.ALP_EVENT_OPEN_SET 0]⟩,
  ⟨"ALP_CAL", 0x00B0000C, 0x20, 4, 0x0, 1, [Reg.ALP_CAL_SOURCE 0, Reg.ALP_CAL_HIGH 0, Reg.ALP_CAL_LOW 0, Reg.ALP_CAL_MEASURING 0, Reg.ALP_CAL_ACTIVE 0]⟩,
  ⟨"ALP_HART", 0x00B00010, 0x20, 4, 0x0, 1, [Reg.ALP_HART_LIVE 0, Reg.ALP_HART_ERR 0, Reg.ALP_HART_TRANS 0]⟩,
  ⟨"ALP_TRIM", 0x00B00014, 0x20, 4, 0x0, 1, [Reg.ALP_TRIM_GAIN_PPM 0, Reg.ALP_TRIM_OFFSET 0]⟩,
  ⟨"ALP_HREQ_CTL", 0x00B00100, 0x100, 4, 0x0, 1, [Reg.ALP_HREQ_CTL_GO 0, Reg.ALP_HREQ_CTL_DROPPED 0, Reg.ALP_HREQ_CTL_LEN 0, Reg.ALP_HREQ_CTL_CMD 0, Reg.ALP_HREQ_CTL_ADDR 0]⟩,
  ⟨"ALP_HREQ_DATA", 0x00B00104, 0x100, 4, 0x4, 16, [Reg.ALP_HREQ_DATA_DATA 0 0]⟩,
  ⟨"ALP_HRSP_STAT", 0x00B00180, 0x100, 4, 0x0, 1, [Reg.ALP_HRSP_STAT_RESP 0, Reg.ALP_HRSP_STAT_LEN 0, Reg.ALP_HRSP_STAT_STATE 0]⟩,
  ⟨"ALP_HRSP_DATA", 0x00B00184, 0x100, 4, 0x4, 16, [Reg.ALP_HRSP_DATA_DATA 0 0]⟩]

/-- Register families of block 0xC (R529). -/
def Reg.rowsGwy : List RegRow := [
  ⟨"GWY_CFG", 0x00C00000, 0x0, 1, 0x0, 1, [Reg.GWY_CFG_BANK, Reg.GWY_CFG_NEXT_STATE, Reg.GWY_CFG_SWAP_PENDING, Reg.GWY_CFG_MESSAGES, Reg.GWY_CFG_ROUTES]⟩,
  ⟨"GWY_LOAD_STAT", 0x00C00004, 0x0, 1, 0x0, 1, [Reg.GWY_LOAD_STAT_TABLE, Reg.GWY_LOAD_STAT_ENTRY, Reg.GWY_LOAD_STAT_REASON]⟩,
  ⟨"GWY_COUNT", 0x00C00008, 0x0, 1, 0x0, 1, [Reg.GWY_COUNT_SAT, Reg.GWY_COUNT_STALE_EV, Reg.GWY_COUNT_LEN_ERR]⟩,
  ⟨"GWY_PORT", 0x00C00100, 0x4, 8, 0x0, 1, [Reg.GWY_PORT_ENABLED 0, Reg.GWY_PORT_NMT 0, Reg.GWY_PORT_CRC16 0, Reg.GWY_PORT_STATE 0, Reg.GWY_PORT_BUSOFF 0, Reg.GWY_PORT_CRC_ERR 0]⟩,
  ⟨"GWY_SDO", 0x00C00140, 0x8, 4, 0x0, 1, [Reg.GWY_SDO_SEQ 0, Reg.GWY_SDO_STATE 0, Reg.GWY_SDO_NODE 0]⟩,
  ⟨"GWY_SDO_DATA", 0x00C00144, 0x8, 4, 0x0, 1, [Reg.GWY_SDO_DATA_DATA 0]⟩,
  ⟨"GWY_HTX_ID", 0x00C02000, 0x80, 16, 0x0, 1, [Reg.GWY_HTX_ID_IDENT 0]⟩,
  ⟨"GWY_HTX_CTL", 0x00C02004, 0x80, 16, 0x0, 1, [Reg.GWY_HTX_CTL_SEND 0, Reg.GWY_HTX_CTL_DROPPED 0, Reg.GWY_HTX_CTL_PORT 0, Reg.GWY_HTX_CTL_LENGTH 0]⟩,
  ⟨"GWY_HTX_DATA", 0x00C02008, 0x80, 16, 0x4, 16, [Reg.GWY_HTX_DATA_DATA 0 0]⟩,
  ⟨"GWY_MSG", 0x00C60000, 0x8, 896, 0x4, 2, [Reg.GWY_MSG_ENTRY 0 0]⟩,
  ⟨"GWY_MSG_NEXT", 0x00C62000, 0x8, 896, 0x4, 2, [Reg.GWY_MSG_NEXT_ENTRY 0 0]⟩,
  ⟨"GWY_ROUTE", 0x00C80000, 0x10, 4096, 0x4, 4, [Reg.GWY_ROUTE_ENTRY 0 0]⟩,
  ⟨"GWY_ROUTE_NEXT", 0x00C90000, 0x10, 4096, 0x4, 4, [Reg.GWY_ROUTE_NEXT_ENTRY 0 0]⟩]

/-- Register families of block 0xD (R529). -/
def Reg.rowsRec : List RegRow := [
  ⟨"REC_CFG", 0x00D00000, 0x0, 1, 0x0, 1, [Reg.REC_CFG_IRQ_SEV]⟩,
  ⟨"REC_STATUS", 0x00D00004, 0x0, 1, 0x0, 1, [Reg.REC_STATUS_INDEX_DONE, Reg.REC_STATUS_FULL, Reg.REC_STATUS_COUNT]⟩,
  ⟨"REC_NEXT_SEQ_LO", 0x00D00008, 0x0, 1, 0x0, 1, [Reg.REC_NEXT_SEQ_LO_NEXT_LO]⟩,
  ⟨"REC_NEXT_SEQ_HI", 0x00D0000C, 0x0, 1, 0x0, 1, [Reg.REC_NEXT_SEQ_HI_NEXT_HI]⟩,
  ⟨"REC_FLOOR_LO", 0x00D00010, 0x0, 1, 0x0, 1, [Reg.REC_FLOOR_LO_FLOOR_LO]⟩,
  ⟨"REC_FLOOR_HI", 0x00D00014, 0x0, 1, 0x0, 1, [Reg.REC_FLOOR_HI_FLOOR_HI]⟩,
  ⟨"REC_HEAD", 0x00D00018, 0x0, 1, 0x0, 1, [Reg.REC_HEAD_VALID, Reg.REC_HEAD_SLOT]⟩,
  ⟨"REC_ERR", 0x00D0001C, 0x0, 1, 0x0, 1, [Reg.REC_ERR_Q_OVF, Reg.REC_ERR_CRC_BAD, Reg.REC_ERR_UE]⟩,
  ⟨"REC_SEEK_LO", 0x00D00020, 0x0, 1, 0x0, 1, [Reg.REC_SEEK_LO_S_LO]⟩,
  ⟨"REC_SEEK_HI", 0x00D00024, 0x0, 1, 0x0, 1, [Reg.REC_SEEK_HI_S_HI]⟩,
  ⟨"REC_SEEK_RES", 0x00D00028, 0x0, 1, 0x0, 1, [Reg.REC_SEEK_RES_FOUND, Reg.REC_SEEK_RES_SLOT]⟩,
  ⟨"REC_QUEUE", 0x00D0002C, 0x0, 1, 0x0, 1, [Reg.REC_QUEUE_HIGH, Reg.REC_QUEUE_FILL]⟩,
  ⟨"REC_SEV_COUNT", 0x00D00040, 0x4, 8, 0x0, 1, [Reg.REC_SEV_COUNT_COUNT 0]⟩,
  ⟨"REC_DROP", 0x00D00060, 0x4, 8, 0x0, 1, [Reg.REC_DROP_DROPS 0]⟩,
  ⟨"REC_MARK_DATA", 0x00D00080, 0x4, 6, 0x0, 1, [Reg.REC_MARK_DATA_DATA 0]⟩,
  ⟨"REC_MARK_CTL", 0x00D00098, 0x0, 1, 0x0, 1, [Reg.REC_MARK_CTL_WRITE, Reg.REC_MARK_CTL_DROPPED, Reg.REC_MARK_CTL_TAG, Reg.REC_MARK_CTL_SEV]⟩]

/-- Register families of block 0xE (R529). -/
def Reg.rowsTwn : List RegRow := [
  ⟨"TWN_CFG", 0x00E00000, 0x0, 1, 0x0, 1, [Reg.TWN_CFG_PAIR_ADDR, Reg.TWN_CFG_PARTNER, Reg.TWN_CFG_QUORUM, Reg.TWN_CFG_POS, Reg.TWN_CFG_PAIR_ID, Reg.TWN_CFG_LZ]⟩,
  ⟨"TWN_ARB_NODES", 0x00E00004, 0x0, 1, 0x0, 1, [Reg.TWN_ARB_NODES_ARB2, Reg.TWN_ARB_NODES_ARB1, Reg.TWN_ARB_NODES_ARB0]⟩,
  ⟨"TWN_STATUS", 0x00E00008, 0x0, 1, 0x0, 1, [Reg.TWN_STATUS_LEASE_LEFT, Reg.TWN_STATUS_LINK_UP, Reg.TWN_STATUS_CURRENT, Reg.TWN_STATUS_FREE_RUN, Reg.TWN_STATUS_ADOPTING, Reg.TWN_STATUS_PARTNER_CURRENT, Reg.TWN_STATUS_ACKS, Reg.TWN_STATUS_ROLE]⟩,
  ⟨"TWN_EPOCH", 0x00E0000C, 0x0, 1, 0x0, 1, [Reg.TWN_EPOCH_EPOCH]⟩,
  ⟨"TWN_SNAP_HELD", 0x00E00010, 0x0, 1, 0x0, 1, [Reg.TWN_SNAP_HELD_CYCLE]⟩,
  ⟨"TWN_SNAP_COUNT", 0x00E00014, 0x0, 1, 0x0, 1, [Reg.TWN_SNAP_COUNT_COMPLETE, Reg.TWN_SNAP_COUNT_DISCARDED, Reg.TWN_SNAP_COUNT_ABORTED]⟩,
  ⟨"TWN_CMP", 0x00E00018, 0x0, 1, 0x0, 1, [Reg.TWN_CMP_SIG_DIFF, Reg.TWN_CMP_STATE_DIFF, Reg.TWN_CMP_ADOPTED, Reg.TWN_CMP_ADOPT_FAIL]⟩,
  ⟨"TWN_IN_DIFF", 0x00E0001C, 0x0, 1, 0x0, 1, [Reg.TWN_IN_DIFF_INPUTS]⟩,
  ⟨"TWN_HANDOVER", 0x00E00020, 0x0, 1, 0x0, 1, [Reg.TWN_HANDOVER_SEQ, Reg.TWN_HANDOVER_RESULT]⟩,
  ⟨"TWN_HO_TARGET_LO", 0x00E00024, 0x0, 1, 0x0, 1, [Reg.TWN_HO_TARGET_LO_T_LO]⟩,
  ⟨"TWN_HO_TARGET_HI", 0x00E00028, 0x0, 1, 0x0, 1, [Reg.TWN_HO_TARGET_HI_T_HI]⟩,
  ⟨"TWN_LINK", 0x00E0002C, 0x0, 1, 0x0, 1, [Reg.TWN_LINK_BLOCK_ERR, Reg.TWN_LINK_REC_LATE]⟩,
  ⟨"TWN_TAKEOVER", 0x00E00030, 0x0, 1, 0x0, 1, [Reg.TWN_TAKEOVER_ORPHANED, Reg.TWN_TAKEOVER_TAKEOVERS, Reg.TWN_TAKEOVER_GAP_CYC]⟩,
  ⟨"TWN_ARB_STATE", 0x00E00100, 0x10, 8, 0x0, 1, [Reg.TWN_ARB_STATE_SERVING 0, Reg.TWN_ARB_STATE_STATE 0, Reg.TWN_ARB_STATE_PAIR_ID 0, Reg.TWN_ARB_STATE_HOLDER 0, Reg.TWN_ARB_STATE_LAST_REQ 0]⟩,
  ⟨"TWN_ARB_EPOCH", 0x00E00104, 0x10, 8, 0x0, 1, [Reg.TWN_ARB_EPOCH_EPOCH 0]⟩,
  ⟨"TWN_ARB_RENEW", 0x00E00108, 0x10, 8, 0x0, 1, [Reg.TWN_ARB_RENEW_CYCLE 0]⟩,
  ⟨"TWN_ARB_COUNT", 0x00E0010C, 0x10, 8, 0x0, 1, [Reg.TWN_ARB_COUNT_GRANTS 0, Reg.TWN_ARB_COUNT_REFUSED 0]⟩]

/-- Register families of block 0xF (R529). -/
def Reg.rowsSec : List RegRow := [
  ⟨"SEC_STATUS", 0x00F00000, 0x0, 1, 0x0, 1, [Reg.SEC_STATUS_FW_MIXED, Reg.SEC_STATUS_FIRST_MIGR, Reg.SEC_STATUS_MIGRATED]⟩,
  ⟨"SEC_KEYS", 0x00F00004, 0x0, 1, 0x0, 1, [Reg.SEC_KEYS_ROLLBACK, Reg.SEC_KEYS_FLEET, Reg.SEC_KEYS_ROOT_REVOKED, Reg.SEC_KEYS_ROOT_SET]⟩,
  ⟨"SEC_COPY", 0x00F00010, 0x8, 2, 0x0, 1, [Reg.SEC_COPY_VALID 0, Reg.SEC_COPY_SEC_VER 0, Reg.SEC_COPY_SECTIONS 0, Reg.SEC_COPY_HOLDS_RUN 0, Reg.SEC_COPY_HOLDS_UC 0]⟩,
  ⟨"SEC_COPY_ID", 0x00F00014, 0x8, 2, 0x0, 1, [Reg.SEC_COPY_ID_IMAGE_ID 0]⟩,
  ⟨"SEC_STORE", 0x00F00020, 0x0, 1, 0x0, 1, [Reg.SEC_STORE_STATE, Reg.SEC_STORE_COPY, Reg.SEC_STORE_CH_OK, Reg.SEC_STORE_REASON, Reg.SEC_STORE_PAGES]⟩,
  ⟨"SEC_CH", 0x00F00030, 0x4, 3, 0x0, 1, [Reg.SEC_CH_REASON 0, Reg.SEC_CH_SECTION 0, Reg.SEC_CH_CHECK_COPY 0, Reg.SEC_CH_FW_COPY 0, Reg.SEC_CH_FW_VERSION 0]⟩,
  ⟨"SEC_EPOCH", 0x00F00040, 0x0, 1, 0x0, 1, [Reg.SEC_EPOCH_STATE, Reg.SEC_EPOCH_REASON, Reg.SEC_EPOCH_NEXT_EPOCH]⟩,
  ⟨"SEC_EPOCH_TGT_LO", 0x00F00044, 0x0, 1, 0x0, 1, [Reg.SEC_EPOCH_TGT_LO_T_LO]⟩,
  ⟨"SEC_EPOCH_TGT_HI", 0x00F00048, 0x0, 1, 0x0, 1, [Reg.SEC_EPOCH_TGT_HI_T_HI]⟩,
  ⟨"SEC_SES_ADDR_LO", 0x00F00100, 0x0, 1, 0x0, 1, [Reg.SEC_SES_ADDR_LO_ADDR_LO]⟩,
  ⟨"SEC_SES_ADDR_HI", 0x00F00104, 0x0, 1, 0x0, 1, [Reg.SEC_SES_ADDR_HI_ADDR_HI]⟩,
  ⟨"SEC_SES_CTL", 0x00F00108, 0x0, 1, 0x0, 1, [Reg.SEC_SES_CTL_CLOSE, Reg.SEC_SES_CTL_OPEN]⟩,
  ⟨"SEC_SES_STAT", 0x00F0010C, 0x0, 1, 0x0, 1, [Reg.SEC_SES_STAT_HOST_STATE, Reg.SEC_SES_STAT_HOST_ROLES, Reg.SEC_SES_STAT_SVC_ROLES, Reg.SEC_SES_STAT_SVC_OPEN, Reg.SEC_SES_STAT_CRED, Reg.SEC_SES_STAT_FAILS]⟩,
  ⟨"SEC_CHALLENGE", 0x00F00120, 0x4, 8, 0x0, 1, [Reg.SEC_CHALLENGE_BYTES 0]⟩]

/-- Register families of block 0x10 (R529). -/
def Reg.rowsRpc : List RegRow := [
  ⟨"RPC_CAUSE", 0x01000000, 0x0, 1, 0x0, 1, [Reg.RPC_CAUSE_LOAD_RETRY, Reg.RPC_CAUSE_H_REG, Reg.RPC_CAUSE_H_FLR, Reg.RPC_CAUSE_H_LINK, Reg.RPC_CAUSE_H_HOT, Reg.RPC_CAUSE_WARM_CMD, Reg.RPC_CAUSE_HOLD_STORE, Reg.RPC_CAUSE_WDG, Reg.RPC_CAUSE_MOD_CMD, Reg.RPC_CAUSE_MRST, Reg.RPC_CAUSE_KA_CLEAR, Reg.RPC_CAUSE_KA_LOST, Reg.RPC_CAUSE_POR]⟩,
  ⟨"RPC_CAUSE_CH", 0x01000004, 0x0, 1, 0x0, 1, [Reg.RPC_CAUSE_CH_MAP 0, Reg.RPC_CAUSE_CH_MAP 1, Reg.RPC_CAUSE_CH_MAP 2, Reg.RPC_CAUSE_CH_REPOWER 0, Reg.RPC_CAUSE_CH_REPOWER 1, Reg.RPC_CAUSE_CH_REPOWER 2, Reg.RPC_CAUSE_CH_POISON 0, Reg.RPC_CAUSE_CH_POISON 1, Reg.RPC_CAUSE_CH_POISON 2, Reg.RPC_CAUSE_CH_FW 0, Reg.RPC_CAUSE_CH_FW 1, Reg.RPC_CAUSE_CH_FW 2, Reg.RPC_CAUSE_CH_CMD 0, Reg.RPC_CAUSE_CH_CMD 1, Reg.RPC_CAUSE_CH_CMD 2]⟩,
  ⟨"RPC_RESET", 0x01000008, 0x0, 1, 0x0, 1, [Reg.RPC_RESET_PIN, Reg.RPC_RESET_IN_RESET, Reg.RPC_RESET_H, Reg.RPC_RESET_C, Reg.RPC_RESET_W, Reg.RPC_RESET_SAVE_HOLD]⟩,
  ⟨"RPC_LOAD", 0x0100000C, 0x0, 1, 0x0, 1, [Reg.RPC_LOAD_RETRIES, Reg.RPC_LOAD_LOAD_ERR, Reg.RPC_LOAD_LOAD_DONE]⟩,
  ⟨"RPC_STRAP", 0x01000010, 0x0, 1, 0x0, 1, [Reg.RPC_STRAP_CHANGED, Reg.RPC_STRAP_TWIN_POS_LIVE, Reg.RPC_STRAP_CLK_MODE_LIVE, Reg.RPC_STRAP_BOOT_SRC_LIVE, Reg.RPC_STRAP_TWIN_POS, Reg.RPC_STRAP_CLK_MODE, Reg.RPC_STRAP_BOOT_SRC]⟩,
  ⟨"RPC_SUPPLY", 0x01000014, 0x0, 1, 0x0, 1, [Reg.RPC_SUPPLY_VMB, Reg.RPC_SUPPLY_VMA]⟩,
  ⟨"RPC_VKA", 0x01000018, 0x0, 1, 0x0, 1, [Reg.RPC_VKA_REF_LOSS, Reg.RPC_VKA_FROM_MAIN, Reg.RPC_VKA_VKA_LOW, Reg.RPC_VKA_VKA_MV]⟩,
  ⟨"RPC_RIDE", 0x0100001C, 0x0, 1, 0x0, 1, [Reg.RPC_RIDE_RIDES, Reg.RPC_RIDE_SAVES, Reg.RPC_RIDE_LAST]⟩,
  ⟨"RPC_OPTIME_LO", 0x01000020, 0x0, 1, 0x0, 1, [Reg.RPC_OPTIME_LO_MS_LO]⟩,
  ⟨"RPC_OPTIME_HI", 0x01000024, 0x0, 1, 0x0, 1, [Reg.RPC_OPTIME_HI_MS_HI]⟩,
  ⟨"RPC_PCYCLES", 0x01000028, 0x0, 1, 0x0, 1, [Reg.RPC_PCYCLES_COUNT]⟩,
  ⟨"RPC_KA_STAT", 0x0100002C, 0x0, 1, 0x0, 1, [Reg.RPC_KA_STAT_PAR_COUNT, Reg.RPC_KA_STAT_PAR_ERR, Reg.RPC_KA_STAT_CNT_RESTORED, Reg.RPC_KA_STAT_VALID]⟩,
  ⟨"RPC_KA_CLEAR", 0x01000030, 0x0, 1, 0x0, 1, [Reg.RPC_KA_CLEAR_KEY]⟩,
  ⟨"RPC_WDG", 0x01000034, 0x0, 1, 0x0, 1, [Reg.RPC_WDG_FIRES, Reg.RPC_WDG_SEEN, Reg.RPC_WDG_AGE]⟩,
  ⟨"RPC_REPOWER", 0x01000040, 0x4, 8, 0x0, 1, [Reg.RPC_REPOWER_GIVEN_UP 0, Reg.RPC_REPOWER_HOUR 0, Reg.RPC_REPOWER_COUNT 0]⟩,
  ⟨"RPC_BKP", 0x01000100, 0x4, 32, 0x0, 1, [Reg.RPC_BKP_DATA 0]⟩,
  ⟨"RPC_KRAM", 0x01001000, 0x4, 1024, 0x0, 1, [Reg.RPC_KRAM_DATA 0]⟩]

/-- The rows of the block that holds an offset; the three channel views share one list (R531). -/
def Reg.rowsOf (off : Nat) : List RegRow :=
  match off / 0x100000 with
  | 0 => Reg.rowsMod
  | 1 => Reg.rowsHbr
  | 2 => Reg.rowsCmd
  | 3 => Reg.rowsChv
  | 4 => Reg.rowsChv
  | 5 => Reg.rowsChv
  | 6 => Reg.rowsVot
  | 7 => Reg.rowsPtn
  | 8 => Reg.rowsTmu
  | 9 => Reg.rowsSio
  | 10 => Reg.rowsDlk
  | 11 => Reg.rowsAlp
  | 12 => Reg.rowsGwy
  | 13 => Reg.rowsRec
  | 14 => Reg.rowsTwn
  | 15 => Reg.rowsSec
  | 16 => Reg.rowsRpc
  | _ => []

end Sys2Proof.Machine
end

