-- ==== Sys2Proof/Syntax.lean ====
section
/-! DEFINITION. The commands of the block: one constructor for each row of spec/opcode_table.json, in the order of
the table, with the operands the row needs. A row is an instruction executed by a lane, an access by the host or
the service port, a message received, or an event at an instant of the cycle or on a pin. -/

namespace Sys2Proof

/-- The commands (rows of the table); each docstring names the row's rule. -/
inductive Instr where
  /-- `NOP` (R123). -/
  | nop (c : Ch) (l : Fin 16)
  /-- `PHASE` (R123). -/
  | phase (c : Ch) (l : Fin 16)
  /-- `END` (R123). -/
  | endp (c : Ch) (l : Fin 16)
  /-- `ASSERT` (R124). -/
  | assert (c : Ch) (l : Fin 16) (a : BitVec 10)
  /-- `LD` (R105). -/
  | ld (c : Ch) (l : Fin 16) (x : BitOp)
  /-- `LDN` (R105). -/
  | ldn (c : Ch) (l : Fin 16) (x : BitOp)
  /-- `AND` (R105). -/
  | and (c : Ch) (l : Fin 16) (x : BitOp)
  /-- `ANDN` (R105). -/
  | andn (c : Ch) (l : Fin 16) (x : BitOp)
  /-- `OR` (R105). -/
  | or (c : Ch) (l : Fin 16) (x : BitOp)
  /-- `ORN` (R105). -/
  | orn (c : Ch) (l : Fin 16) (x : BitOp)
  /-- `XOR` (R105). -/
  | xor (c : Ch) (l : Fin 16) (x : BitOp)
  /-- `REDGE` (R106). -/
  | redge (c : Ch) (l : Fin 16) (m : BitAddr)
  /-- `FEDGE` (R106). -/
  | fedge (c : Ch) (l : Fin 16) (m : BitAddr)
  /-- `BPUSH` (R108). -/
  | bpush (c : Ch) (l : Fin 16)
  /-- `BOR` (R108). -/
  | bor (c : Ch) (l : Fin 16)
  /-- `BAND` (R108). -/
  | band (c : Ch) (l : Fin 16)
  /-- `ZON` (R109). -/
  | zon (c : Ch) (l : Fin 16) (neg : Bool)
  /-- `ZOFF` (R109). -/
  | zoff (c : Ch) (l : Fin 16)
  /-- `OUT` (R110). -/
  | out (c : Ch) (l : Fin 16) (b : BitAddr)
  /-- `OUTN` (R110). -/
  | outn (c : Ch) (l : Fin 16) (b : BitAddr)
  /-- `SET` (R110). -/
  | set (c : Ch) (l : Fin 16) (b : BitAddr)
  /-- `RST` (R110). -/
  | rst (c : Ch) (l : Fin 16) (b : BitAddr)
  /-- `STW` (R110). -/
  | stw (c : Ch) (l : Fin 16) (w : WordAddr)
  /-- `LDW` (R112). -/
  | ldw (c : Ch) (l : Fin 16) (w : WordAddr)
  /-- `LDWI` (R112). -/
  | ldwi (c : Ch) (l : Fin 16) (uns : Bool) (x : BitVec 24)
  /-- `LDWH` (R112). -/
  | ldwh (c : Ch) (l : Fin 16) (h : BitVec 16)
  /-- `LDX` (R117). -/
  | ldx (c : Ch) (l : Fin 16) (t : BitVec 8)
  /-- `ADD` (R113). -/
  | add (c : Ch) (l : Fin 16) (x : ArOp)
  /-- `SUB` (R113). -/
  | sub (c : Ch) (l : Fin 16) (x : ArOp)
  /-- `MUL` (R113). -/
  | mul (c : Ch) (l : Fin 16) (x : ArOp)
  /-- `MIN` (R113). -/
  | min (c : Ch) (l : Fin 16) (x : ArOp)
  /-- `MAX` (R113). -/
  | max (c : Ch) (l : Fin 16) (x : ArOp)
  /-- `ANDW` (R113). -/
  | andw (c : Ch) (l : Fin 16) (x : LogOp)
  /-- `ORW` (R113). -/
  | orw (c : Ch) (l : Fin 16) (x : LogOp)
  /-- `XORW` (R113). -/
  | xorw (c : Ch) (l : Fin 16) (x : LogOp)
  /-- `SHL` (R114). -/
  | shl (c : Ch) (l : Fin 16) (x : ShOp)
  /-- `SHR` (R114). -/
  | shr (c : Ch) (l : Fin 16) (x : ShOp)
  /-- `ASR` (R114). -/
  | asr (c : Ch) (l : Fin 16) (x : ShOp)
  /-- `LIMIT` (R115). -/
  | limit (c : Ch) (l : Fin 16) (x : LimOp)
  /-- `CEQ` (R116). -/
  | ceq (c : Ch) (l : Fin 16) (x : ArOp)
  /-- `CNE` (R116). -/
  | cne (c : Ch) (l : Fin 16) (x : ArOp)
  /-- `CLT` (R116). -/
  | clt (c : Ch) (l : Fin 16) (x : ArOp)
  /-- `CLE` (R116). -/
  | cle (c : Ch) (l : Fin 16) (x : ArOp)
  /-- `CGT` (R116). -/
  | cgt (c : Ch) (l : Fin 16) (x : ArOp)
  /-- `CGE` (R116). -/
  | cge (c : Ch) (l : Fin 16) (x : ArOp)
  /-- `TON` (R119). -/
  | ton (c : Ch) (l : Fin 16) (k : TVar) (t : BitVec 12)
  /-- `TOF` (R119). -/
  | tof (c : Ch) (l : Fin 16) (k : TVar) (t : BitVec 12)
  /-- `TP` (R119). -/
  | tp (c : Ch) (l : Fin 16) (k : TVar) (t : BitVec 12)
  /-- `CTU` (R121). -/
  | ctu (c : Ch) (l : Fin 16) (k : CVar) (t : BitVec 12)
  /-- `CTD` (R121). -/
  | ctd (c : Ch) (l : Fin 16) (k : CVar) (t : BitVec 12)
  /-- `CRES` (R121). -/
  | cres (c : Ch) (l : Fin 16) (preset : Bool) (t : BitVec 12)
  /-- `PHASE_BARRIER` (R81). -/
  | phaseBarrier (c : Ch)
  /-- `TC_STROBE` (R48). -/
  | tcStrobe
  /-- `RPC_TC_STROBE` (R47). -/
  | rpcTcStrobe
  /-- `INPUT_RECORD` (R55). -/
  | inputRecord (rx tx : Ch) (bytes : List Byte)
  /-- `INPUT_RECORD_DUE` (R55). -/
  | inputRecordDue
  /-- `EXECUTION_LIMIT` (R62). -/
  | executionLimit
  /-- `SIGNATURE_RECORD` (R173). -/
  | signatureRecord (rx tx : Ch) (x : SigRec)
  /-- `SIGNATURE_RECORD_DUE` (R173). -/
  | signatureRecordDue
  /-- `DECISION` (R175). -/
  | decision
  /-- `OUTPUT_VOTE` (R178). -/
  | outputVote
  /-- `SNAPSHOT_CAPTURE` (R140). -/
  | snapshotCapture
  /-- `SCRUB_SLOT` (R217). -/
  | scrubSlot (c : Ch)
  /-- `SNAPSHOT_SEND` (R182). -/
  | snapshotSend (rx : Ch)
  /-- `SNAPSHOT_BLOCK` (R183). -/
  | snapshotBlock (rx tx : Ch) (idx : Nat) (ok markBad : Bool) (bytes : List Byte)
  /-- `SNAPSHOT_ACCEPT` (R183). -/
  | snapshotAccept (rx : Ch)
  /-- `CHASE_CYCLE` (R186). -/
  | chaseCycle (rx : Ch) (startNs : Nat)
  /-- `RESYNC_TIMEOUT` (R189). -/
  | resyncTimeout (rx : Ch)
  /-- `BANK_RELOAD_DONE` (R185). -/
  | bankReloadDone (rx : Ch)
  /-- `VIEW_BUFFER_FILL` (R399). -/
  | viewBufferFill
  /-- `IMAGE_PUSH` (R414). -/
  | imagePush (finished : Bool)
  /-- `BRIDGE_REFRESH` (R397). -/
  | bridgeRefresh
  /-- `CMD_REC_LATCH` (R402). -/
  | cmdRecLatch (i : Fin 3) (w : Word) (poisoned : Bool)
  /-- `UNKNOWN_COMMAND` (R405). -/
  | unknownCommand (code : Byte) (r : CmdRec)
  /-- `CMD_NOP` (R408). -/
  | cmdNop (r : CmdRec)
  /-- `MOD_RESET` (R557). -/
  | modReset (r : CmdRec)
  /-- `WARM_RESET` (R31). -/
  | warmReset (r : CmdRec)
  /-- `CH_RESET` (R512). -/
  | chReset (r : CmdRec)
  /-- `MNT_ENTER` (R34). -/
  | mntEnter (r : CmdRec)
  /-- `MNT_EXIT` (R37). -/
  | mntExit (r : CmdRec)
  /-- `PRG_LOAD` (R165). -/
  | prgLoad (r : CmdRec)
  /-- `BANK_CHECK_DONE` (R91). -/
  | bankCheckDone (c : Ch)
  /-- `PRG_ARM` (R152). -/
  | prgArm (r : CmdRec)
  /-- `PRG_COMMIT` (R153). -/
  | prgCommit (r : CmdRec)
  /-- `COMMIT_AT_TARGET` (R154). -/
  | commitAtTarget
  /-- `PRG_DISARM` (R165). -/
  | prgDisarm (r : CmdRec)
  /-- `PRG_RELEASE` (R165). -/
  | prgRelease (r : CmdRec)
  /-- `FORCE_SET` (R151). -/
  | forceSet (r : CmdRec)
  /-- `FORCE_CLEAR` (R148). -/
  | forceClear (r : CmdRec)
  /-- `FORCE_CLEAR_ALL` (R165). -/
  | forceClearAll (r : CmdRec)
  /-- `RET_DISCARD` (R144). -/
  | retDiscard (r : CmdRec)
  /-- `DBG_ENTER` (R194). -/
  | dbgEnter (r : CmdRec)
  /-- `DBG_EXIT` (R194). -/
  | dbgExit (r : CmdRec)
  /-- `DBG_HALT` (R195). -/
  | dbgHalt (r : CmdRec)
  /-- `DBG_STEP` (R196). -/
  | dbgStep (r : CmdRec)
  /-- `DBG_RESUME` (R197). -/
  | dbgResume (r : CmdRec)
  /-- `TWN_HANDOVER` (R389). -/
  | twnHandover (r : CmdRec)
  /-- `TWN_HO_CANCEL` (R389). -/
  | twnHoCancel (r : CmdRec)
  /-- `GWY_LOAD` (R438). -/
  | gwyLoad (r : CmdRec)
  /-- `GWY_LOAD_DONE` (R435). -/
  | gwyLoadDone
  /-- `GWY_SWAP` (R438). -/
  | gwySwap (r : CmdRec)
  /-- `GWY_SWAP_AT_TARGET` (R437). -/
  | gwySwapAtTarget
  /-- `GWY_NMT` (R438). -/
  | gwyNmt (r : CmdRec)
  /-- `GWY_SDO_READ` (R438). -/
  | gwySdoRead (r : CmdRec)
  /-- `GWY_SDO_WRITE` (R438). -/
  | gwySdoWrite (r : CmdRec)
  /-- `SDO_TIMEOUT` (R438). -/
  | sdoTimeout (p : Fin 4)
  /-- `ALP_CAL_BEGIN` (R453). -/
  | alpCalBegin (r : CmdRec)
  /-- `ALP_CAL_POINT` (R453). -/
  | alpCalPoint (r : CmdRec)
  /-- `CAL_POINT_TAKEN` (R453). -/
  | calPointTaken (n : Fin 4) (avgNa : Nat)
  /-- `ALP_CAL_COMMIT` (R453). -/
  | alpCalCommit (r : CmdRec)
  /-- `ALP_CAL_ABORT` (R453). -/
  | alpCalAbort (r : CmdRec)
  /-- `ALP_CAL_FACTORY` (R453). -/
  | alpCalFactory (r : CmdRec)
  /-- `CAL_TIMEOUT` (R454). -/
  | calTimeout (n : Fin 4)
  /-- `REC_CLEAR` (R468). -/
  | recClear (r : CmdRec)
  /-- `REC_COUNT_CLEAR` (R468). -/
  | recCountClear (r : CmdRec)
  /-- `CFG_STORE` (R491). -/
  | cfgStore (r : CmdRec)
  /-- `CFG_STORE_DONE` (R491). -/
  | cfgStoreDone (readBack : BitVec 3) (writeOk : Bool)
  /-- `CFG_START` (R505). -/
  | cfgStart (r : CmdRec)
  /-- `SCH_LOAD` (R496). -/
  | schLoad (r : CmdRec)
  /-- `SCH_COMMIT` (R496). -/
  | schCommit (r : CmdRec)
  /-- `SCH_CANCEL` (R505). -/
  | schCancel (r : CmdRec)
  /-- `EPOCH_SWITCH` (R497). -/
  | epochSwitch
  /-- `FW_ACTIVATE` (R494). -/
  | fwActivate (r : CmdRec)
  /-- `SEC_ROLLBACK` (R483). -/
  | secRollback (r : CmdRec)
  /-- `SEC_REVOKE` (R484). -/
  | secRevoke (r : CmdRec)
  /-- `SEC_CERT_GET` (R486). -/
  | secCertGet (r : CmdRec)
  /-- `SEC_KEY_IMPORT` (R485). -/
  | secKeyImport (r : CmdRec)
  /-- `CMD_RES_COMMIT` (R410). -/
  | cmdResCommit (val : Word)
  /-- `CMD_RES_LEGACY` (R7). -/
  | cmdResLegacy
  /-- `HBR_INT_LEGACY` (R7). -/
  | hbrIntLegacy
  /-- `HRESET` (R416). -/
  | hreset (val : Word)
  /-- `HOST_PORT_RESET` (R416). -/
  | hostPortReset (k : HostResetKind)
  /-- `BAR0_REFUSED_ACCESS` (R395). -/
  | bar0RefusedAccess (off : Nat) (write : Bool)
  /-- `UNASSIGNED_ACCESS` (R396). -/
  | unassignedAccess (off : Nat) (write : Bool)
  /-- `POISONED_WRITE` (R556). -/
  | poisonedWrite (off : Nat)
  /-- `BAR2_WRITE` (R398). -/
  | bar2Write (off : Nat)
  /-- `REGISTER_WRITE` (R406). -/
  | registerWrite (off : Nat) (val : Word) (chainageNs : Nat)
  /-- `HOST_FRAME_SEND` (R434). -/
  | hostFrameSend (j : Fin 16) (val : Word)
  /-- `HART_GO` (R451). -/
  | hartGo (n : Fin 4) (val : Word)
  /-- `HART_COMPLETE` (R451). -/
  | hartComplete (n : Fin 4) (response : Option (List Byte))
  /-- `HOST_MARK` (R462). -/
  | hostMark (val : Word)
  /-- `REC_SEEK` (R469). -/
  | recSeek (val : Word)
  /-- `SES_OPEN` (R501). -/
  | sesOpen (val : Word)
  /-- `SES_VERIFIED` (R501). -/
  | sesVerified
  /-- `SES_CLOSE` (R502). -/
  | sesClose (val : Word)
  /-- `SESSION_IDLE_TIMEOUT` (R502). -/
  | sessionIdleTimeout (port : CmdPort)
  /-- `OPENING_LOCKOUT_END` (R502). -/
  | openingLockoutEnd (port : CmdPort)
  /-- `KA_CLEAR` (R527). -/
  | kaClear (val : Word)
  /-- `SVC_TLS_OPEN` (R503). -/
  | svcTlsOpen (keyDigest : List Byte) (tlsOk : Bool)
  /-- `SVC_COMMAND` (R503). -/
  | svcCommand (w0 w1 w2 w3 : Word) (chainageNs : Nat)
  /-- `SVC_REG_READ` (R503). -/
  | svcRegRead (off : Nat)
  /-- `SVC_REG_WRITE` (R503). -/
  | svcRegWrite (off : Nat) (val : Word) (chainageNs : Nat)
  /-- `SVC_STAGE_WRITE` (R503). -/
  | svcStageWrite (off : Nat) (data : List Byte)
  /-- `SVC_STAGE_READ` (R503). -/
  | svcStageRead (off len : Nat)
  /-- `POWER_ON_RELEASE` (R509). -/
  | powerOnRelease
  /-- `SUPPLY_LOW` (R508). -/
  | supplyLow
  /-- `RIDE_THROUGH_END` (R508). -/
  | rideThroughEnd
  /-- `SAVE_COMPLETE` (R142). -/
  | saveComplete (durationNs : Nat)
  /-- `FEED_OUT_OF_RANGE` (R507). -/
  | feedOutOfRange (feed : Bool)
  /-- `MRST_N` (R517). -/
  | mrstN (lowNs : Nat)
  /-- `RESET_RELEASE` (R513). -/
  | resetRelease
  /-- `WARM_RESET_RELEASE` (R516). -/
  | warmResetRelease
  /-- `CHANNEL_RESET_RELEASE` (R514). -/
  | channelResetRelease (c : Ch)
  /-- `OUTPUT_HOLD_EXPIRY` (R31). -/
  | outputHoldExpiry
  /-- `WATCHDOG_EXPIRY` (R518). -/
  | watchdogExpiry
  /-- `WATCHDOG_REFRESH` (R518). -/
  | watchdogRefresh (c : Ch)
  /-- `DOMAIN_LOSS` (R22). -/
  | domainLoss (d : Fin 8)
  /-- `DOMAIN_REPOWER` (R511). -/
  | domainRepower (d : Fin 8) (ok : Bool)
  /-- `OPTION_LOAD_DONE` (R519). -/
  | optionLoadDone (d : Fin 8) (ok : Bool)
  /-- `BROWN_OUT_LATCH` (R524). -/
  | brownOutLatch
  /-- `STRAP_CHANGE` (R521). -/
  | strapChange (i : Fin 8) (v : Bool)
  /-- `REFERENCE_LOSS` (R522). -/
  | referenceLoss
  /-- `REFERENCE_RETURN` (R522). -/
  | referenceReturn
  /-- `COUNTER_CHECKPOINT` (R525). -/
  | counterCheckpoint
  /-- `SWITCH_REREAD` (R271). -/
  | switchReread (readings : Per3 (BitVec 22))
  /-- `PROOF_HOUR` (R205). -/
  | proofHour
  /-- `ORDINARY_SAMPLE` (R235). -/
  | ordinarySample (uA : FMap Nat)
  /-- `TEST_PULSE` (R236). -/
  | testPulse (k : Fin 4)
  /-- `TEST_SAMPLE` (R237). -/
  | testSample (k : Fin 4) (interval : Nat) (uA : FMap Nat)
  /-- `TP_OVERLOAD` (R240). -/
  | tpOverload (k : Fin 4)
  /-- `TP_RETRY` (R240). -/
  | tpRetry (k : Fin 4)
  /-- `OFF_PULSE` (R249). -/
  | offPulse (o : Fin 12) (low : Bool)
  /-- `OFF_PULSE_END` (R250). -/
  | offPulseEnd (o : Fin 12) (low : Bool) (v : PulseVolts) (plus : FMap Nat)
  /-- `OFF_STATE_CHECK` (R251). -/
  | offStateCheck (o : Fin 12)
  /-- `OFF_STATE_CHECK_END` (R560). -/
  | offStateCheckEnd (o : Fin 12) (hsOk lsOk : Bool) (mvPlus : Nat)
  /-- `OVERCURRENT` (R253). -/
  | overcurrent (o : Fin 12) (inst : Bool)
  /-- `OVERCURRENT_CLEAR` (R253). -/
  | overcurrentClear (o : Fin 12)
  /-- `OPEN_LOAD_WARNING` (R255). -/
  | openLoadWarning (o : Fin 12) (imbalance : Bool)
  /-- `GROUP_SAG` (R257). -/
  | groupSag (g : Fin 2) (mV : Nat)
  /-- `GROUP_TRIP` (R257). -/
  | groupTrip (g : Fin 2)
  /-- `GROUP_OVERVOLTAGE` (R259). -/
  | groupOvervoltage (g : Fin 2) (mV : Nat) (lasted : Bool)
  /-- `GROUP_RECOVERED` (R258). -/
  | groupRecovered (g : Fin 2)
  /-- `TIMED_OUTPUT_DUE` (R261). -/
  | timedOutputDue (o : Fin 12)
  /-- `DLK_INPUT_CHANGE` (R275). -/
  | dlkInputChange (v : DlkSense)
  /-- `DLK_DISCREPANCY` (R276). -/
  | dlkDiscrepancy (p : Fin 6)
  /-- `DLK_BOTH_RELEASE` (R283). -/
  | dlkBothRelease
  /-- `DLK_ACK_EDGE` (R284). -/
  | dlkAckEdge
  /-- `DLK_OFF_TIME_EXPIRY` (R281). -/
  | dlkOffTimeExpiry (right : Bool)
  /-- `DLK_SO3_READBACK_OPEN` (R282). -/
  | dlkSo3ReadbackOpen
  /-- `DLK_STARTUP_TEST` (R285). -/
  | dlkStartupTest
  /-- `DLK_STARTUP_TEST_DONE` (R285). -/
  | dlkStartupTestDone (failedVector : Option (BitVec 8))
  /-- `DLK_CHECKER_TEST` (R286). -/
  | dlkCheckerTest (ok : Bool)
  /-- `DLK_FAULT` (R286). -/
  | dlkFault (code : BitVec 4)
  /-- `PTN_FRAME_RECEIVE` (R301). -/
  | ptnFrameReceive (port : Fin 14) (bytes : List Byte) (startNs endNs : Nat) (fcsOk : Bool)
  /-- `FOREIGN_FRAME_RECEIVE` (R326). -/
  | foreignFrameReceive (port : Fin 14) (dst src : BitVec 48) (tag : Option (BitVec 16)) (etherType : BitVec 16) (data : List Byte)
  /-- `FREE_WINDOW_FORWARD` (R326). -/
  | freeWindowForward (port : Fin 14)
  /-- `ADDRESS_AGEING` (R327). -/
  | addressAgeing
  /-- `TRANSMIT_WINDOW` (R314). -/
  | transmitWindow (e : Nat)
  /-- `EVENT_FRAME_EXPIRY` (R316). -/
  | eventFrameExpiry
  /-- `DATUM_SEND` (R350). -/
  | datumSend
  /-- `COLDSTART_TIMEOUT` (R351). -/
  | coldstartTimeout
  /-- `COLDSTART_BACKOFF_END` (R352). -/
  | coldstartBackoffEnd
  /-- `TIMED_LAUNCH_DUE` (R358). -/
  | timedLaunchDue (l : Fin 8)
  /-- `GPTP_SYNC` (R361). -/
  | gptpSync
  /-- `GPTP_ANNOUNCE` (R362). -/
  | gptpAnnounce
  /-- `GPTP_PDELAY_REQ` (R361). -/
  | gptpPdelayReq (port : Fin 14)
  /-- `TIME_PULSE` (R364). -/
  | timePulse
  /-- `PORT_LINK_CHANGE` (R295). -/
  | portLinkChange (port : Fin 14) (speed : Nat)
  /-- `BYPASS_RELAY_B` (R329). -/
  | bypassRelayB
  /-- `HOLDUP_MEASURE` (R331). -/
  | holdupMeasure
  /-- `HOLDUP_MEASURE_DONE` (R331). -/
  | holdupMeasureDone (energyMj : Nat)
  /-- `EDGE_INSERTION` (R332). -/
  | edgeInsertion
  /-- `LINE_A_LINKS_UP` (R332). -/
  | lineALinksUp
  /-- `INSERTION_TIMEOUT` (R332). -/
  | insertionTimeout
  /-- `INSERTION_RETRY` (R332). -/
  | insertionRetry
  /-- `TWIN_INPUT_RECORD` (R372). -/
  | twinInputRecord (bytes : List Byte)
  /-- `TWIN_RECORD_DEADLINE` (R372). -/
  | twinRecordDeadline
  /-- `TWIN_SIGNATURE_RECORD` (R373). -/
  | twinSignatureRecord (x : SigRec)
  /-- `TWIN_SNAPSHOT_BLOCK` (R370). -/
  | twinSnapshotBlock (idx : Nat) (ok : Bool) (bytes : List Byte)
  /-- `TWIN_SNAPSHOT_ACCEPT` (R377). -/
  | twinSnapshotAccept
  /-- `SNAPSHOT_ACKNOWLEDGEMENT` (R378). -/
  | snapshotAcknowledgement (k : Nat) (mismatch : Bool)
  /-- `LEASE_WINDOW` (R381). -/
  | leaseWindow
  /-- `RENEW_RECEIVE` (R381). -/
  | renewReceive (m : LeaseMsg)
  /-- `REQUEST_RECEIVE` (R384). -/
  | requestReceive (m : LeaseMsg)
  /-- `GRANT_RECEIVE` (R387). -/
  | grantReceive (m : LeaseMsg)
  /-- `RELEASE_RECEIVE` (R391). -/
  | releaseReceive (m : LeaseMsg)
  /-- `LEASE_EXPIRY` (R382). -/
  | leaseExpiry
  /-- `ARBITER_VACANCY` (R386). -/
  | arbiterVacancy (slot : Fin 8)
  /-- `BUS_MESSAGE_RECEIVE` (R424). -/
  | busMessageReceive (port : Fin 8) (ident : Nat) (bytes : Option (List Byte))
  /-- `MESSAGE_PERIOD` (R433). -/
  | messagePeriod (m : Nat)
  /-- `MVB_POLL` (R433). -/
  | mvbPoll (port : Fin 8) (addr : Nat)
  /-- `RS485_FRAME_END` (R422). -/
  | rs485FrameEnd (port : Fin 8) (bytes : List Byte)
  /-- `CAN_BUS_OFF` (R420). -/
  | canBusOff (p : Fin 4)
  /-- `BUS_OFF_RECOVERY` (R420). -/
  | busOffRecovery (p : Fin 4)
  /-- `NMT_START` (R421). -/
  | nmtStart (p : Fin 4)
  /-- `LOOP_SAMPLE` (R441). -/
  | loopSample (n : Fin 4) (nA : Nat) (limited : Bool) (headroomMv : Nat)
  /-- `LOOP_OPEN` (R446). -/
  | loopOpen (n : Fin 4)
  /-- `LOOP_COMPLIANCE` (R447). -/
  | loopCompliance (n : Fin 4)
  /-- `CHANNEL_EVENT_MATCH` (R460). -/
  | channelEventMatch
  /-- `REC_WRITE` (R464). -/
  | recWrite
  /-- `REC_INDEX_BUILD` (R467). -/
  | recIndexBuild
  /-- `SUPPLY_IN_RANGE` (R508). -/
  | supplyInRange
  /-- `GROUP_VOLTAGE_RETURN` (R257). -/
  | groupVoltageReturn (g : Fin 2) (mV : Nat)
  /-- `TP_RETRY_SUCCESS` (R240). -/
  | tpRetrySuccess (k : Fin 4)
  /-- `LOOP_OPEN_CLEAR` (R446). -/
  | loopOpenClear (n : Fin 4)
  /-- `LOOP_COMPLIANCE_CLEAR` (R447). -/
  | loopComplianceClear (n : Fin 4)
  /-- `HOLDUP_STORE_LOSS` (R330). -/
  | holdupStoreLoss
  /-- `SVC_TLS_CLOSE` (R503). -/
  | svcTlsClose
  /-- `HOST_LINK_TRAINED` (R416). -/
  | hostLinkTrained (speed width : Nat)
  /-- `REC_INDEX_DONE` (R467). -/
  | recIndexDone
  /-- `HOST_FRAME_SENT` (R434). -/
  | hostFrameSent (j : Fin 16)
  /-- `POISONED_DATA_READ` (R216). -/
  | poisonedDataRead (off : Nat)
  /-- `BUS_MASTER_ENABLE_CHANGE` (R492). -/
  | busMasterEnableChange
  /-- `DEBUG_STEP_OVERRUN` (R199). -/
  | debugStepOverrun (c : Ch)
  /-- `TWIN_LINK_CHANGE` (R370). -/
  | twinLinkChange (up : Bool)
  deriving DecidableEq, Repr

end Sys2Proof
end

