-- ==== Sys2Proof/Decode.lean ====
section
/-! DEFINITION. The two decoders of the block: that of the program words of the logic engine, with its encoder
(Tables 4-1 to 4-3, R102), and the decoder of table words, which the opcode table of this block gives no bits. -/

namespace Sys2Proof

/-- The word that opcode, modifier and operand spell (Table 4-1). -/
def Rh.word (op : Nat) (md : Nat) (x : BitVec 24) : Word := BitVec.ofNat 6 op ++ BitVec.ofNat 2 md ++ x

/-- Opcode field (Table 4-1). -/
def Rh.op (w : Word) : Nat := (w.extractLsb' 26 6).toNat
/-- Modifier field (Table 4-1). -/
def Rh.md (w : Word) : Nat := (w.extractLsb' 24 2).toNat
/-- Operand field (Table 4-1). -/
def Rh.x (w : Word) : BitVec 24 := w.extractLsb' 0 24

/-- The operand read as an n-bit field whose other bits must be 0 (Table 4-2). -/
def Rh.field (n : Nat) (x : BitVec 24) : Option (BitVec n) :=
  if (x.setWidth n).setWidth 24 = x then some (x.setWidth n) else none

/-- Form WP: the pair's second word is w + 1, so 0x3FFF is outside the range (Table 4-2). -/
def Rh.pair (x : BitVec 24) : Option WordAddr :=
  (Rh.field 14 x).bind fun a => if a = 0x3FFF#14 then none else some a

/-- Form N: no operand, every bit 0. -/
def Rh.none (x : BitVec 24) (i : LInstr) : Option LInstr := if x = 0 then some i else Option.none

/-- Forms B and K of the bit logic instructions. -/
def Rh.bitOp (md : Nat) (x : BitVec 24) (f : BitOp → LInstr) : Option LInstr :=
  match md with
  | 0 => (Rh.field 18 x).map fun a => f (.bit a)
  | 1 => (Rh.field 1 x).map fun b => f (.k (b = 1#1))
  | _ => Option.none

/-- Form B without variants. -/
def Rh.bit (md : Nat) (x : BitVec 24) (f : BitAddr → LInstr) : Option LInstr :=
  if md = 0 then (Rh.field 18 x).map f else Option.none

/-- Forms W, S24, W unsigned and Z24. -/
def Rh.arOp (md : Nat) (x : BitVec 24) (f : ArOp → LInstr) : Option LInstr :=
  match md with
  | 0 => (Rh.field 14 x).map fun a => f (.w false a)
  | 1 => some (f (.imm false x))
  | 2 => (Rh.field 14 x).map fun a => f (.w true a)
  | _ => some (f (.imm true x))

/-- Forms W, S24 and Z24 of the word logic instructions. -/
def Rh.logOp (md : Nat) (x : BitVec 24) (f : LogOp → LInstr) : Option LInstr :=
  match md with
  | 0 => (Rh.field 14 x).map fun a => f (.w a)
  | 1 => some (f (.i x))
  | 2 => Option.none
  | _ => some (f (.iu x))

/-- Forms W and C5 of the shifts. -/
def Rh.shOp (md : Nat) (x : BitVec 24) (f : ShOp → LInstr) : Option LInstr :=
  match md with
  | 0 => (Rh.field 14 x).map fun a => f (.w a)
  | 1 => (Rh.field 5 x).map fun n => f (.c n)
  | _ => Option.none

/-- Forms WP and P12 of `LIMIT`. -/
def Rh.limOp (md : Nat) (x : BitVec 24) : Option LInstr :=
  match md with
  | 0 => (Rh.pair x).map fun a => .limit (.wp false a)
  | 1 => some (.limit (.p false (x.extractLsb' 0 12) (x.extractLsb' 12 12)))
  | 2 => (Rh.pair x).map fun a => .limit (.wp true a)
  | _ => some (.limit (.p true (x.extractLsb' 0 12) (x.extractLsb' 12 12)))

/-- The timer variants. -/
def Rh.tvar (md : Nat) (x : BitVec 24) (f : TVar → BitVec 12 → LInstr) : Option LInstr :=
  match md with
  | 0 => (Rh.field 12 x).map (f .plain)
  | 1 => (Rh.field 12 x).map (f .e)
  | 2 => (Rh.field 12 x).map (f .r)
  | _ => Option.none

/-- The counter variants. -/
def Rh.cvar (md : Nat) (x : BitVec 24) (f : CVar → BitVec 12 → LInstr) : Option LInstr :=
  match md with
  | 0 => (Rh.field 12 x).map (f .plain)
  | 1 => (Rh.field 12 x).map (f .v)
  | 2 => (Rh.field 12 x).map (f .r)
  | _ => Option.none

/-- R102: the instruction that a program word spells, or none where the word is not valid (Table 4-3). -/
def Rh.decode (w : Word) : Option LInstr :=
  let md := Rh.md w
  let x := Rh.x w
  match Rh.op w with
  | 0x01 => if md = 0 then Rh.none x .nop else Option.none
  | 0x02 => if md = 0 then Rh.none x .phase else Option.none
  | 0x03 => if md = 0 then Rh.none x .endp else Option.none
  | 0x04 => if md = 0 then (Rh.field 10 x).map .assert else Option.none
  | 0x08 => Rh.bitOp md x .ld
  | 0x09 => Rh.bitOp md x .ldn
  | 0x0A => Rh.bitOp md x .and
  | 0x0B => Rh.bitOp md x .andn
  | 0x0C => Rh.bitOp md x .or
  | 0x0D => Rh.bitOp md x .orn
  | 0x0E => Rh.bitOp md x .xor
  | 0x10 => Rh.bit md x .redge
  | 0x11 => Rh.bit md x .fedge
  | 0x12 => if md = 0 then Rh.none x .bpush else Option.none
  | 0x13 => if md = 0 then Rh.none x .bor else Option.none
  | 0x14 => if md = 0 then Rh.none x .band else Option.none
  | 0x15 => if md = 0 then Rh.none x (.zon false) else if md = 1 then Rh.none x (.zon true) else Option.none
  | 0x16 => if md = 0 then Rh.none x .zoff else Option.none
  | 0x18 => Rh.bit md x .out
  | 0x19 => Rh.bit md x .outn
  | 0x1A => Rh.bit md x .set
  | 0x1B => Rh.bit md x .rst
  | 0x1C => if md = 0 then (Rh.field 14 x).map .stw else Option.none
  | 0x20 => if md = 0 then (Rh.field 14 x).map .ldw else Option.none
  | 0x21 => if md = 1 then some (.ldwi false x) else if md = 3 then some (.ldwi true x) else Option.none
  | 0x22 => if md = 3 then (Rh.field 16 x).map .ldwh else Option.none
  | 0x23 => if md = 0 then (Rh.field 8 x).map .ldx else Option.none
  | 0x24 => Rh.arOp md x .add
  | 0x25 => Rh.arOp md x .sub
  | 0x26 => Rh.arOp md x .mul
  | 0x27 => Rh.arOp md x .min
  | 0x28 => Rh.arOp md x .max
  | 0x29 => Rh.logOp md x .andw
  | 0x2A => Rh.logOp md x .orw
  | 0x2B => Rh.logOp md x .xorw
  | 0x2C => Rh.shOp md x .shl
  | 0x2D => Rh.shOp md x .shr
  | 0x2E => Rh.shOp md x .asr
  | 0x2F => Rh.limOp md x
  | 0x30 => Rh.arOp md x .ceq
  | 0x31 => Rh.arOp md x .cne
  | 0x32 => Rh.arOp md x .clt
  | 0x33 => Rh.arOp md x .cle
  | 0x34 => Rh.arOp md x .cgt
  | 0x35 => Rh.arOp md x .cge
  | 0x38 => Rh.tvar md x .ton
  | 0x39 => Rh.tvar md x .tof
  | 0x3A => Rh.tvar md x .tp
  | 0x3B => Rh.cvar md x .ctu
  | 0x3C => Rh.cvar md x .ctd
  | 0x3D => if md = 0 then (Rh.field 12 x).map (.cres false) else if md = 1 then (Rh.field 12 x).map (.cres true) else Option.none
  | _ => Option.none

/-- Operand and modifier of an arithmetic or compare form. -/
def Rh.encAr (op : Nat) : ArOp → Word
  | .w uns a => Rh.word op (if uns then 2 else 0) (a.setWidth 24)
  | .imm uns x => Rh.word op (if uns then 3 else 1) x

/-- Operand and modifier of a bit logic form. -/
def Rh.encBit (op : Nat) : BitOp → Word
  | .bit a => Rh.word op 0 (a.setWidth 24)
  | .k b => Rh.word op 1 (if b then 1 else 0)

/-- Operand and modifier of a word logic form. -/
def Rh.encLog (op : Nat) : LogOp → Word
  | .w a => Rh.word op 0 (a.setWidth 24)
  | .i x => Rh.word op 1 x
  | .iu x => Rh.word op 3 x

/-- Operand and modifier of a shift. -/
def Rh.encSh (op : Nat) : ShOp → Word
  | .w a => Rh.word op 0 (a.setWidth 24)
  | .c n => Rh.word op 1 (n.setWidth 24)

/-- Operand and modifier of `LIMIT`. -/
def Rh.encLim : LimOp → Word
  | .wp uns a => Rh.word 0x2F (if uns then 2 else 0) (a.setWidth 24)
  | .p uns lo hi => Rh.word 0x2F (if uns then 3 else 1) (hi ++ lo)

/-- Modifier of a timer variant. -/
def Rh.encT : TVar → Nat
  | .plain => 0
  | .e => 1
  | .r => 2

/-- Modifier of a counter variant. -/
def Rh.encC : CVar → Nat
  | .plain => 0
  | .v => 1
  | .r => 2

/-- The program word of an instruction (Tables 4-1 to 4-3). -/
def Rh.encode : LInstr → Word
  | .nop => Rh.word 0x01 0 0
  | .phase => Rh.word 0x02 0 0
  | .endp => Rh.word 0x03 0 0
  | .assert a => Rh.word 0x04 0 (a.setWidth 24)
  | .ld x => Rh.encBit 0x08 x
  | .ldn x => Rh.encBit 0x09 x
  | .and x => Rh.encBit 0x0A x
  | .andn x => Rh.encBit 0x0B x
  | .or x => Rh.encBit 0x0C x
  | .orn x => Rh.encBit 0x0D x
  | .xor x => Rh.encBit 0x0E x
  | .redge b => Rh.word 0x10 0 (b.setWidth 24)
  | .fedge b => Rh.word 0x11 0 (b.setWidth 24)
  | .out b => Rh.word 0x18 0 (b.setWidth 24)
  | .outn b => Rh.word 0x19 0 (b.setWidth 24)
  | .set b => Rh.word 0x1A 0 (b.setWidth 24)
  | .rst b => Rh.word 0x1B 0 (b.setWidth 24)
  | .bpush => Rh.word 0x12 0 0
  | .bor => Rh.word 0x13 0 0
  | .band => Rh.word 0x14 0 0
  | .zon neg => Rh.word 0x15 (if neg then 1 else 0) 0
  | .zoff => Rh.word 0x16 0 0
  | .stw w => Rh.word 0x1C 0 (w.setWidth 24)
  | .ldw w => Rh.word 0x20 0 (w.setWidth 24)
  | .ldwi uns x => Rh.word 0x21 (if uns then 3 else 1) x
  | .ldwh h => Rh.word 0x22 3 (h.setWidth 24)
  | .ldx t => Rh.word 0x23 0 (t.setWidth 24)
  | .add x => Rh.encAr 0x24 x
  | .sub x => Rh.encAr 0x25 x
  | .mul x => Rh.encAr 0x26 x
  | .min x => Rh.encAr 0x27 x
  | .max x => Rh.encAr 0x28 x
  | .ceq x => Rh.encAr 0x30 x
  | .cne x => Rh.encAr 0x31 x
  | .clt x => Rh.encAr 0x32 x
  | .cle x => Rh.encAr 0x33 x
  | .cgt x => Rh.encAr 0x34 x
  | .cge x => Rh.encAr 0x35 x
  | .andw x => Rh.encLog 0x29 x
  | .orw x => Rh.encLog 0x2A x
  | .xorw x => Rh.encLog 0x2B x
  | .shl x => Rh.encSh 0x2C x
  | .shr x => Rh.encSh 0x2D x
  | .asr x => Rh.encSh 0x2E x
  | .limit x => Rh.encLim x
  | .ton k t => Rh.word 0x38 (Rh.encT k) (t.setWidth 24)
  | .tof k t => Rh.word 0x39 (Rh.encT k) (t.setWidth 24)
  | .tp k t => Rh.word 0x3A (Rh.encT k) (t.setWidth 24)
  | .ctu k t => Rh.word 0x3B (Rh.encC k) (t.setWidth 24)
  | .ctd k t => Rh.word 0x3C (Rh.encC k) (t.setWidth 24)
  | .cres preset t => Rh.word 0x3D (if preset then 1 else 0) (t.setWidth 24)

/-- The command that a word of the opcode table spells: the table gives no row of this block any bits, so no word
spells a command. -/
def decodeTableWord (_nbits _w : Nat) : Option Instr := Option.none

end Sys2Proof
end

