-- ==== Sys2Proof/WellFormed.lean ====
section
/-! DEFINITION. The checks on operands that the types do not make: form WP of `LIMIT` names a pair of words, so its
address stops at 0x3FFE (Table 4-2); and the numbers and lengths of the commands that name a schedule entry, a message, a speed, a
block or a record. -/

namespace Sys2Proof

/-- A `LIMIT` operand in range (Table 4-2, form WP). -/
def LimOp.wf : LimOp → Bool
  | .wp _ a => a ≠ 0x3FFF#14
  | .p _ _ _ => true

/-- A program instruction with every operand in the range of its form (R102). -/
def LInstr.wf : LInstr → Bool
  | .limit x => x.wf
  | _ => true

/-- A command with every operand in the range the spec gives it. -/
def Instr.wf : Instr → Bool
  | .limit _ _ x => x.wf
  | .transmitWindow e => e < 2048
  | .messagePeriod m => m < 896
  | .portLinkChange _ sp => sp < 4
  | .snapshotBlock _ _ idx _ _ bs => idx < 562 && bs.length ≤ 256
  | .twinSnapshotBlock idx _ bs => idx < 562 && bs.length ≤ 256
  | .inputRecord _ _ bs => bs.length = 64
  | .twinInputRecord bs => bs.length ≤ 65536
  | _ => true

end Sys2Proof
end

