-- ==== Sys2Proof/Machine/State.lean ====
section
/-! DEFINITION. The state of the module as plain data: the queue of waiting commands, the register map (sparse, a
field absent from it holds its reset value), and for each block the state that its chapter gives it beside its
registers. `State.reset` is the module with P asserted, before its first release. -/

namespace Sys2Proof.Machine

/-- Why the module stops with a fault. The model has no such case: every command of the table has an effect or
leaves the state as it is, so no constructor is raised by a meaning (safe). -/
inductive Fault where
  /-- Raised by nobody. -/
  | none
  deriving DecidableEq, Repr

/-- Why a command has no meaning. -/
inductive Refusal where
  /-- Raised by the arms of `exec` whose command has no meaning yet (safe: the machine stops). -/
  | notModelled (mnemonic : String)
  deriving DecidableEq, Repr

/-- Module modes (Table 1-4). -/
inductive Mode where
  | off | boot | hold | integrate | startup | run3 | run2 | safe | maint
  deriving DecidableEq, Repr

/-- Twin roles (Table 1-7). -/
inductive Role where
  | solo | standby | active | orphan
  deriving DecidableEq, Repr

/-- `STATE` of `MOD_CH_STATE[n]` (R40). -/
inductive ChState where
  | reset | booting | vote | excluded | resync | reloading | retired
  deriving DecidableEq, Repr

/-- Whether a lane runs or has closed its phase (R81). -/
inductive LaneWait where
  | running | atPhase | atEnd
  deriving DecidableEq, Repr

/-- The state of a lane while it executes (Table 4-4), with its private replica as an overlay over the master copy:
`own` holds the image words the lane has stored in this phase, `dirty` the mask of the bits its stores name (R82),
`barPsn` the image words that a poisoned fetch poisons at the barrier (R131).
Image words are numbered 0 to 0x1FFF in the bit image and from 0x2000 on in the word image. -/
structure LaneSt where
  ba : Psn Bool
  wa : Psn Word
  bstk : List (Psn Bool)
  zstk : List (Psn Bool)
  ze : Psn Bool
  ovf : Bool
  rng : Bool
  psn : Bool
  idx : Nat
  cnt : Nat
  wait : LaneWait
  own : FMap (Option Word)
  dirty : FMap Word
  barPsn : List Nat
  deriving DecidableEq, Repr

/-- R71: the state of every lane at the start of phase 0. -/
def LaneSt.init : LaneSt :=
  { ba := ⟨false, false⟩, wa := ⟨0, false⟩, bstk := [], zstk := [], ze := ⟨true, false⟩,
    ovf := false, rng := false, psn := false, idx := 0, cnt := 0, wait := .running, own := [], dirty := [], barPsn := [] }

/-- The values of an input record that enter agreement (Table 2-4): SI1 to SI24, pairs 1 to 12, and the 16
diagnostic bits of each input, input i in bits [16i + 15:16i]. -/
structure InVals where
  si : BitVec 24
  pair : BitVec 12
  diag : BitVec 384
  deriving DecidableEq, Repr

/-- A received input record of this cycle. -/
structure InRec where
  k16 : BitVec 16
  sender : Nat
  vals : InVals
  deriving DecidableEq, Repr

/-- A force (R145): the table entry n is `CMD_FORCE_SYM[n]` to `CMD_FORCE_VAL[n]`. -/
structure Force where
  sym : Word
  safety : Bool
  word : Bool
  addr : Nat
  value : Word
  deriving DecidableEq, Repr

/-- The force table by entry number (R151). -/
abbrev ForceTab := FMap (Option Force)

/-- A cycle kept by an excluded channel for its chase (R184): the image-load words, the forces in force, whether
a traverse starts with it, whether a bank was committed at its Tc, and the accumulator of the channels in the vote. -/
structure Kept where
  k : Nat
  image : FMap Word
  forces : ForceTab
  first : Bool
  commit : Bool
  acc : Option Word64
  deriving DecidableEq, Repr

/-- One sender's copy of a snapshot as it arrives (R182, R183): the blocks received, by index, and whether the final
block marked it bad (R191). -/
structure SnapCopy where
  sender : Ch
  blocks : FMap (List Byte)
  bad : Bool
  deriving DecidableEq, Repr

/-- A resynchronisation attempt of an excluded channel (R182 to R192). -/
structure Attempt where
  startOp : Nat
  startCyc : Nat
  copies : List SnapCopy
  accepted : Bool
  nextK : Nat
  chased : Nat
  acc : Word64
  travPos : Nat
  inTime : Bool
  reloading : Bool
  deriving DecidableEq, Repr

/-- One channel: memories, banks, lanes, and what the cycle, the comparison and a resynchronisation keep. `sent` is the snapshot that it
last sent, `fuse` the rows that its fuse map replaces by spare rows (R222), `ownForces` the force table that its own store holds while it differs from the module's, outside the vote, and `plumbBad`
what its own plumb check has found faulty: its comparator, its cells. `bootCopy` names the
copy that a channel reset by `FW_ACTIVATE` boots from; otherwise it is the start copy. -/
structure Chan where
  st : ChState
  img : FMap Word
  timers : FMap Word
  counters : FMap Word
  errs : FMap (BitVec 72)
  pmap : FMap Bool
  tags : FMap Bool
  fuse : List Nat
  wbq : List Nat
  ceRows : List Nat
  weakRuns : FMap Nat
  lanes : FMap LaneSt
  run : Option Bank
  uc : Option Bank
  ucCopy : Nat
  acc : Word64
  accStart : Bool
  travPos : Nat
  clk : Nat
  raised : List Nat
  ovr : Bool
  repPsn : Bool
  ccuStop : Bool
  verdict : Option Nat
  saveBuf : Option (FMap (Psn Word))
  frozen : Option (FMap (Psn Word))
  prevEvents : FMap Word
  laneStat : Word
  inRecs : FMap (Option InRec)
  sigRecs : FMap (Option SigRec)
  sample : InVals
  agreed : InVals
  diffCnt : FMap Nat
  kept : List Kept
  attempt : Option Attempt
  sent : List Byte
  ownForces : Option ForceTab
  failTimes : List Nat
  probation : Bool
  plumbLeft : Nat
  plumbBad : Bool × Bool
  cfgOk : Bool
  sendPsn : Bool
  bootCopy : Option Nat
  deriving DecidableEq, Repr

/-- Kind of a program restart (R136, R137). -/
inductive Restart where
  | none | cold | warm
  deriving DecidableEq, Repr

/-- The module's mode, role and what the next Tc will take (R24 to R39, Table 1-6). `exclReq` lists the exclusions
found for the next Tc with their causes, `safeReq` the triggers to SAFE with the channels concerned. `linkMiss` counts the
consecutive cycles with an absence on each link, `done` holds the voters, number and network time of the last program cycle
completed since the last release of P or M, `cycForces` the forces that this cycle's merges hold, `loadDone` that an image load has
begun a program cycle that has not been left, `plumbBad` lists the
channels whose comparator and whose cells a plumb check under way has found faulty, `cellsOut` those whose cells are out of the cell
majority, `proofOver` the hourly counts for which a proof interval has been exceeded, `exclAt` the cycle of each channel's exclusion,
`sigDue` says that signature records are past due, and `taken`, `decided` and `voted` that agreement, decision and output vote of this cycle
have been taken. -/
structure ModSt where
  mode : Mode
  role : Role
  debug : Bool
  maintFrom : Mode
  exclReq : List (Ch × Nat)
  rejoinReq : List Ch
  safeReq : List (Nat × Nat)
  wHold : Nat
  ackEdge : Bool
  ackAccepted : Bool
  bootVerdict : Option Nat
  invalidNs : Nat
  plumb : Nat
  plumbBad : List Ch × List Ch
  cellsOut : List Ch
  proofOver : FMap Nat
  exclAt : FMap Nat
  sigDue : Bool
  plumbDone : Bool
  travDone : Bool
  restart : Restart
  firstCold : Bool
  firstWarm : Bool
  firstCommit : Bool
  firstResume : Bool
  assertSafe : Bool
  assertStage : Bool
  noneStreak : Nat
  decided : Bool
  voted : Bool
  safeStage : Bool
  ranCycle : Bool
  dbgHaltReq : Option Nat
  dbgAbandon : Bool
  halted : Bool
  heldBatch : Bool
  commitDue : Bool
  noMaj : Nat
  overlap : Bool
  linkMiss : FMap Nat
  done : Option (List Ch × Nat × Nat)
  cycForces : ForceTab
  loadDone : Bool
  taken : Bool
  deriving DecidableEq, Repr

/-- Time as the module keeps it: network time of the current Tc in ns, the cycle number, the time powered since the model's start, what
the operating-time counter adds to it, and whether the strobe in use is the RPC's, and whether any strobe has come since the release of P or M (R42, R47, R558). -/
structure TimeSt where
  tcNs : Nat
  cyc : Nat
  opNs : Nat
  opAdd : Int
  valid : Bool
  rpcStrobe : Bool
  started : Bool
  deriving DecidableEq, Repr

/-- An entry of the command lane: a record (R405) or an unnumbered write (R406). `wait` counts the Tc instants still
to come before it applies (R50). -/
inductive LaneEntry where
  | record (wait : Nat) (seq : BitVec 16) (code : Byte) (port : CmdPort) (w1 w2 w3 : Word)
  | write (wait : Nat) (off : Nat) (val : Word)
  deriving DecidableEq, Repr

/-- The command lane (R402 to R410). `res` holds the results in sequence order, with their words once final. -/
structure LaneQ where
  latch : List Word
  latchPsn : Bool
  queue : List LaneEntry
  res : List (BitVec 16 × Option (Word × Word))
  fifo : List (Word × Word)
  deriving DecidableEq, Repr

/-- A recorder record before it has a slot (Table 16-1). -/
structure RecEv where
  sev : Nat
  cls : Nat
  src : Nat
  inst : Nat
  cycle : Nat
  ntime : Nat
  ntValid : Bool
  single : Bool
  flushed : Bool
  payload : List Word
  deriving DecidableEq, Repr

/-- A channel's report of a channel event (R460) with the number of Tc instants since. -/
structure Report where
  chan : Nat
  age : Nat
  ev : RecEv
  deriving DecidableEq, Repr

/-- The event recorder beside its registers: the MRAM bytes (an unlisted byte reads 0) with the wrong bits of its codewords, the queue of records, the
channel reports awaiting a match, those held by the channels while PD-H is lost and the number each channel could not hold, and the index of valid slots with
`SEQ` and severity. -/
structure RecSt where
  mram : List Host.Cell
  mramErrs : FMap (BitVec 72)
  queue : List RecEv
  reports : List Report
  held : List Report
  heldLost : FMap Nat
  matched : List RecEv
  index : FMap (Option (Nat × Nat))
  indexing : Bool
  next : Nat
  floor : Nat
  deriving DecidableEq, Repr

/-- One channel's sense stage of one input (R233 to R241). Classes: 0 broken wire, 1 invalid, 2 open, 3 closed. -/
structure InStage where
  cls : Nat
  fval : Bool
  vCnt : Nat
  fcls : Nat
  cCnt : Nat
  tpMiss : Bool
  tpForeign : Bool
  tpFails : Nat
  tpFault : Bool
  ownOk : Nat
  ordHigh : Bool
  forPend : Bool
  deriving DecidableEq, Repr

/-- R241: an input's stage at the release of a reset: value 0, filtered class broken wire, nothing latched. -/
def InStage.init : InStage :=
  { cls := 0, fval := false, vCnt := 0, fcls := 0, cCnt := 0, tpMiss := false, tpForeign := false, tpFails := 0,
    tpFault := false, ownOk := 0, ordHigh := false, forPend := false }

/-- One channel's evaluation of one pair (R243). -/
structure PairStage where
  value : Bool
  disCnt : Nat
  latched : Bool
  sawZero : Bool
  deriving DecidableEq, Repr

def PairStage.init : PairStage := { value := false, disCnt := 0, latched := false, sawZero := false }

/-- One channel's acknowledge detector (R263), in ordinary samples of 250 µs. -/
structure AckStage where
  low : Nat
  high : Nat
  armed : Bool
  stuck : Bool
  pend : Bool
  deriving DecidableEq, Repr

def AckStage.init : AckStage := { low := 0, high := 0, armed := false, stuck := false, pend := false }

/-- An action due in this cycle: its voted target, and the chainage at which it falls due, counted on the edge's oscillator in difference
mode (R355, R356). -/
structure Due where
  target : Nat
  chain : Nat
  diff : Bool
  deriving DecidableEq, Repr

/-- One safety output beside its registers: the latched commands of its two switches, what the vote has staged for the
next Tc, a timed target, its tests and the classification of a code-1 latch (R246 to R262). -/
structure OutSt where
  onHs : Bool
  onLs : Bool
  stHs : Bool
  stLs : Bool
  target : Nat
  targetOk : Bool
  due : Option Due
  dueHs : Bool
  dueLs : Bool
  pulse : Option Bool
  failHs : Nat
  failLs : Nat
  offHs : Nat
  offLs : Nat
  high : Nat
  awaited : Option (List Nat)
  causeClear : Bool
  lowSince : Option Nat
  cmpDiff : Nat
  /-- SOn+ read 0.5 Un or more in the last off-state check; none before the first. -/
  rb : Option Bool
  deriving DecidableEq, Repr

def OutSt.init : OutSt :=
  { onHs := false, onLs := false, stHs := false, stLs := false, target := 0, targetOk := true, due := none,
    dueHs := false, dueLs := false, pulse := none, failHs := 0, failLs := 0, offHs := 0, offLs := 0, high := 0,
    awaited := none, causeClear := false, lowSince := none, cmpDiff := 0, rb := none }

/-- The condition of a channel's comparator, decision cell and voter cells, which the plumb check finds out (R201): `verd` is the verdict
that a faulty comparator gives whatever it compares, `dec` the code of the decision that a faulty decision cell gives, and the voter
cells of the bits in `hi` and `lo` are stuck at 1 and at 0. -/
structure Cells where
  verd : Option Nat
  dec : Option Nat
  hi : Word
  lo : Word
  deriving DecidableEq, Repr

/-- Sound cells. -/
def Cells.sound : Cells := { verd := none, dec := none, hi := 0, lo := 0 }

/-- The field domain beside its registers (Safety inputs and outputs). `cells` is hardware that no reset changes. Keys: input stages c × 24 + i, pair stages
c × 12 + p, outputs o, supplies k, groups g. `swRead` holds each channel's last reading of the sealed switches, `holdLeft`
the operating time at which a hold after a warm reset began, `late` the outputs whose target was late at the last Tc. Of a group,
`susp` says that its tests are suspended (R257, R258), `ovRide` that it rides through an overvoltage (R259), and `trip` is the
`STATE` code of its trip, 0 for none. -/
structure SioSt where
  cells : Per3 Cells
  ins : FMap InStage
  pairs : FMap PairStage
  acks : FMap AckStage
  outs : FMap OutSt
  pulses : FMap Bool
  tpOff : FMap Bool
  ovRide : FMap Bool
  susp : FMap Bool
  trip : FMap Nat
  autoClr : FMap Bool
  swRead : Per3 (BitVec 22)
  /-- The readings at the last release of P or M (R268). -/
  swAt : Per3 (BitVec 22)
  /-- What each rail of the DLK reads wrong of `SW-D` (R277), a condition of the hardware. -/
  railErr : BitVec 8 × BitVec 8
  swLast : BitVec 22
  evSev : FMap Nat
  holdLeft : Option Nat
  late : Nat
  twinOut : BitVec 12
  deriving DecidableEq, Repr

/-- One pair of the Door Loop Keeper (R276). -/
structure DlkPair where
  value : Bool
  disagree : Bool
  latched : Bool
  sawZero : Bool
  deriving DecidableEq, Repr

def DlkPair.init : DlkPair := { value := false, disagree := false, latched := false, sawZero := false }

/-- The Door Loop Keeper beside its registers: input values (SI1 to SI10, SI23, SI24), pairs 1 to 5 and 12, whether
SO3 has read open (R282), the running off-times, and the Tc instants until the fallback driver connects. -/
structure DlkSt where
  inputs : BitVec 12
  pairs : FMap DlkPair
  passed : Bool
  so3Open : Bool
  offL : Bool
  offR : Bool
  termL : Bool
  termR : Bool
  fbWait : Option Nat
  fbStaged : BitVec 4
  /-- The fallback driver holds its values after a warm reset (R291). -/
  fbHold : Bool
  /-- The DLK's acknowledge detector (R284): how long pair 12 stands at its value, as of the last input change, how long it had read 0
  before it last rose, and the length of the high that has ended and that no `DLK_ACK_EDGE` has judged, in ns. -/
  ackRun : Nat
  ackLow : Nat
  ackHigh : Option Nat
  /-- The 64 status bits at the last Tc (R293). -/
  frozen : BitVec 64
  deriving DecidableEq, Repr

def DlkSt.init : DlkSt :=
  { inputs := 0, pairs := [], passed := false, so3Open := true, offL := false,
    offR := false, termL := false, termR := false, fbWait := none, fbStaged := 0, fbHold := false, ackRun := 0, ackLow := 0, ackHigh := none,
    frozen := 0 }

/-- A payload staged for a transmit entry: the voted bytes (none without a majority), the voted launch target (none
without a majority), and the safety sequence it carries. -/
structure TxStage where
  payload : Option (List Byte)
  target : Option Nat
  safeSeq : Nat
  deriving DecidableEq, Repr

/-- A received payload of a mapped entry, with the safety sequence last sent to its peer when it arrived (R324). -/
structure RxFrame where
  payload : List Byte
  sentSeq : Nat
  deriving DecidableEq, Repr

/-- A frame seen in this cycle on a backbone line (R302). -/
structure SeenFrame where
  entry : Nat
  src : Nat
  seq : Nat
  mi : Nat
  onA : Bool
  onB : Bool
  deriving DecidableEq, Repr

/-- The frame that last left a port, without its FCS; `good` is false where it ended with a corrupted FCS. Its first octet after the
start-frame delimiter is on the wire at chainage `startNs`, and its MAC timestamp is `macNs` (R340). -/
structure Egress where
  bytes : List Byte
  good : Bool
  startNs : Nat
  macNs : Int
  deriving DecidableEq, Repr

/-- A queued EVENT frame (R316). -/
structure EvFrame where
  entry : Nat
  payload : List Byte
  cyc : Nat
  deriving DecidableEq, Repr

/-- A buffered frame that is not PTN with the egress ports it still waits for (R326). -/
structure FreeFrame where
  bytes : List Byte
  ports : List Nat
  deriving DecidableEq, Repr

/-- A learned address (R327). -/
structure Learned where
  vlan : Nat
  mac : BitVec 48
  port : Nat
  seen : Nat
  deriving DecidableEq, Repr

/-- The network edge beside its registers: both schedule tables by word e × 8 + w, their configurations, frames staged
and to be sent, frames received in this cycle, late in it, and frozen for delivery, policing counts by port, source and
slot, and the communication state of stations and connections (R304). -/
structure PtnSt where
  sched : FMap Word
  nextSched : FMap Word
  net : NetCfg
  nextNet : NetCfg
  staged : FMap (Option TxStage)
  tx : FMap (Option TxStage)
  hdrSeq : FMap Nat
  rx : FMap (Option RxFrame)
  rxLate : FMap (Option RxFrame)
  frozen : FMap (Option RxFrame)
  seen : List SeenFrame
  viol : FMap Nat
  iso : FMap Nat
  egress : FMap (Option Egress)
  events : List EvFrame
  freeQ : List FreeFrame
  learned : List Learned
  netIn : FMap Word
  rxSeq : FMap (Option Nat)
  txSeq : FMap Nat
  sentSeq : FMap Nat
  retSeq : FMap Nat
  lastData : FMap (Option (List Byte))
  /-- ns of an entry's window taken at a port in this cycle, by entry × 16 + port. -/
  used : FMap Nat
  /-- ns until relay A, commanded closed, is closed (R329). -/
  relayNs : Nat
  cViol : Nat
  cEmpty : Nat
  cFail : Nat
  pViol : Nat
  pEmpty : Nat
  pFail : Nat
  pOnlyA : Bool
  pOnlyB : Bool
  holdupBusy : Bool
  deriving DecidableEq, Repr

def PtnSt.init : PtnSt :=
  { sched := [], nextSched := [], net := NetCfg.none, nextNet := NetCfg.none, staged := [], tx := [], hdrSeq := [], rx := [],
    rxLate := [], frozen := [], seen := [], viol := [], iso := [], egress := [], events := [], freeQ := [], learned := [],
    netIn := [], rxSeq := [], txSeq := [], sentSeq := [], retSeq := [], lastData := [], used := [], relayNs := 0, cViol := 0, cEmpty := 0, cFail := 0,
    pViol := 0, pEmpty := 0, pFail := 0, pOnlyA := false, pOnlyB := false, holdupBusy := false }

/-- What the time unit keeps of one time domain: accepted in this cycle, consecutive cycles with an acceptance,
consecutive accepted datums with |θ| at most Π / 4, the last θ, when it was accepted, whether the announced codes equal
the configured ones, and whether this node sends its datums. -/
structure DomSt where
  acc : Bool
  run : Nat
  good : Nat
  theta : Int
  at' : Nat
  codesOk : Bool
  master : Bool
  deriving DecidableEq, Repr

def DomSt.init : DomSt := { acc := false, run := 0, good := 0, theta := 0, at' := 0, codesOk := false, master := false }

/-- A gPTP message that last left a consist port (R361, R362). -/
structure GptpMsg where
  kind : Nat
  domain : Nat
  seq : Nat
  logInterval : Int
  clockClass : Nat
  priority1 : Nat
  timeSource : Nat
  ptpTimescale : Bool
  time : Nat
  deriving DecidableEq, Repr

/-- The time unit beside its registers (R340 to R364). -/
structure TmuSt where
  d0 : DomSt
  d1 : DomSt
  both : Nat
  calm : Nat
  quiet : Nat
  coldSends : Nat
  backoff : Nat
  stepped : Bool
  /-- −θ in ns that the next basic cycle takes up, the rate correction in ppb, and both together in this cycle (R342). -/
  slew : Int
  rate : Int
  force : Int
  /-- What the corrections have added to the timebase over the oscillator, in 10⁻⁹ ns. -/
  osc : Int
  lastTL : FMap Nat
  launchDue : FMap (Option Due)
  gptp : FMap (Option GptpMsg)
  /-- gPTP messages by port that wait for a free window (R363). -/
  gptpWait : List (Nat × GptpMsg)
  /-- The second at which the time output rose, while it is high (R364). -/
  pulse : Option Nat
  /-- Chainage that this cycle has reached, as far as reads of `TMU_NOW` tell. -/
  nowNs : Nat
  epoch : Nat
  coldOrigin : Bool
  deriving DecidableEq, Repr

def TmuSt.init : TmuSt :=
  { d0 := DomSt.init, d1 := DomSt.init, both := 0, calm := 0, quiet := 0, coldSends := 0, backoff := 0, stepped := false,
    slew := 0, rate := 0, force := 0, osc := 0, lastTL := [], launchDue := [], gptp := [], gptpWait := [], pulse := none, nowNs := 0, epoch := 0, coldOrigin := false }

/-- A receive or transmit message of the gateway beside its entry: data bytes, when it was last received (R425), whether
it counted as stale, and when it was last sent. -/
structure GwyMsg where
  data : List Byte
  rxAt : Option Nat
  stale : Bool
  txAt : Option Nat
  deriving DecidableEq, Repr

def GwyMsg.init : GwyMsg := { data := [], rxAt := none, stale := true, txAt := none }

/-- A route beside its entry: its last y, and whether its source was stale at the last evaluation (R428, R432). -/
structure GwyRoute where
  y : Int
  stale : Bool
  deriving DecidableEq, Repr

def GwyRoute.init : GwyRoute := { y := 0, stale := true }

/-- A frame the gateway has sent or queued: port, identifier and bytes. -/
structure GwyFrame where
  port : Nat
  ident : Nat
  bytes : List Byte
  deriving DecidableEq, Repr

/-- The gateway beside its registers: both banks, messages and routes by number, image input words being built and
frozen with their freshness bits, voted output words with the list that had no majority, the queue of host frames,
the last frame sent at each port, the pending swap, SDO transfers and the copy being loaded. -/
structure GwySt where
  cur : GwyTab
  next : GwyTab
  msgs : FMap GwyMsg
  routes : FMap GwyRoute
  inW : FMap Word
  frozen : FMap Word
  fresh : Nat
  outW : FMap Word
  noMaj : List Nat
  hostQ : List (Nat × GwyFrame)
  sent : FMap (Option GwyFrame)
  target : Option Nat
  loading : Option Nat
  sdo : FMap (Option Nat)
  deriving DecidableEq, Repr

def GwySt.init : GwySt :=
  { cur := GwyTab.empty, next := GwyTab.empty, msgs := [], routes := [], inW := [], frozen := [], fresh := 0, outW := [],
    noMaj := [], hostQ := [], sent := [], target := none, loading := none, sdo := [] }

/-- A calibration under way on a loop (R453): when it began, its points as (reference, reading) in µA and nA, and the
input point being averaged. -/
structure AlpCal where
  began : Nat
  p0 : Option (Nat × Nat)
  p1 : Option (Nat × Nat)
  measuring : Option (Nat × Nat)
  deriving DecidableEq, Repr

/-- A HART request as it stood at its `GO`: polling address, command number and data (R451). -/
structure HartReq where
  addr : Nat
  cmd : Nat
  data : List Byte
  deriving DecidableEq, Repr

/-- A current loop beside its registers (R440 to R454): samples in nA, newest first, the state of the powered input's
limit, the headroom in mV, frozen current and class, the current driven and the last voted one in µA, cycles without
a majority, what the vote staged for the next Tc, the calibration, the trims in use, and the HART request under way. -/
structure AlpLoop where
  samples : List Nat
  limited : Bool
  headroom : Nat
  driveUa : Nat
  lastUa : Nat
  noMaj : Nat
  staged : Option Nat
  stale : Bool
  cal : Option AlpCal
  gain : Int
  offset : Int
  commits : Nat
  hreq : Option HartReq
  deriving DecidableEq, Repr

def AlpLoop.init : AlpLoop :=
  { samples := [], limited := false, headroom := 0, driveUa := 0, lastUa := 0, noMaj := 0, staged := none, stale := false,
    cal := none, gain := 0, offset := 0, commits := 0, hreq := none }

/-- One copy of the one-time-programmable storage (R482). -/
structure Otp where
  set : BitVec 3
  revoked : BitVec 3
  roll : BitVec 64
  dig0 : BitVec 384
  dig1 : BitVec 384
  dig2 : BitVec 384
  deriving DecidableEq, Repr

def Otp.blank : Otp := { set := 0, revoked := 0, roll := 0, dig0 := 0, dig1 := 0, dig2 := 0 }

/-- One copy in one channel's plug flash (R471): its descriptor bytes, its container bytes, and the wrong bits of each page that
has any, as bit numbers of its slot, bit b of byte i at 8 × i + b (R227); the container occupies the pages from 1 on. -/
structure PlugCopy where
  desc : List Byte
  body : List Byte
  errs : FMap (List Nat)
  deriving DecidableEq, Repr

def PlugCopy.erased : PlugCopy := { desc := [], body := [], errs := [] }

/-- A store in progress (R491): copy, port that ordered it, address, length and BCH code. -/
structure StoreJob where
  copy : Nat
  port : CmdPort
  addr : Nat
  len : Nat
  tcode : Nat
  stage : Nat
  data : Option (List Byte)
  deriving DecidableEq, Repr

/-- Openings of one port (R502): instants of failed ones, whether openings are locked, when the session last had a
command accepted, and the session's address of its record. -/
structure SesPort where
  fails : List Nat
  locked : Bool
  last : Nat
  deriving DecidableEq, Repr

def SesPort.init : SesPort := { fails := [], locked := false, last := 0 }

/-- The security unit beside its registers: the four OTP copies (SEC first, then the channels), sealed fleet keys, plug
copies by channel × 2 + copy, the start copy, the copy that the running bank came from, the container digest of the last start, the staging buffer, the store
in progress, the policy in force, the ports' openings, the challenge number and the pending epoch. -/
structure SecSt where
  otp : Otp
  otpCh : Per3 Otp
  fleet : FMap (Option (List Byte))
  plug : FMap PlugCopy
  start : Nat
  runCopy : Nat
  digest : List Byte
  staging : FMap Byte
  job : Option StoreJob
  policy : Policy
  host : SesPort
  svc : SesPort
  challenge : Nat
  epochNext : Nat
  epochTgt : Nat
  deriving DecidableEq, Repr

def SecSt.init : SecSt :=
  { otp := Otp.blank, otpCh := ⟨Otp.blank, Otp.blank, Otp.blank⟩, fleet := [], plug := [], start := 0, runCopy := 0, digest := [],
    staging := [], job := none, policy := Config.holdPolicy.getD Policy.empty, host := SesPort.init, svc := SesPort.init, challenge := 0,
    epochNext := 0, epochTgt := 0 }

/-- Sources of M and W that a save can hold (R515). -/
inductive ResetSrc where
  | pin | command | watchdog | holdStore | warm
  deriving DecidableEq, Repr

/-- The reset and power controller beside its registers: whether the supply is in range, a ride-through, the save under
way (true where it precedes a module reset), a reset source held by it, M asserted, P asserted, the brown-out latch,
straps, times of re-power attempts and failed option loads by domain, the retained store with the wrong bits of its codewords,
whether its mark and the counters await PD-H, the last refresh of the edge watchdog by each channel (operating time + 1; key 3 the load of PD-E), and
whether the 10 MHz reference is lost. -/
structure RpcSt where
  inRange : Bool
  ride : Bool
  save : Option Bool
  held : Option ResetSrc
  por : Bool
  mod : Bool
  bor : Bool
  straps : BitVec 5
  attempts : FMap (List Nat)
  loadFails : FMap Nat
  store : FMap Byte
  storeErrs : FMap (BitVec 72)
  markDue : Bool
  refresh : FMap Nat
  refLost : Bool
  restoreDue : Bool
  deriving DecidableEq, Repr

def RpcSt.init : RpcSt :=
  { inRange := true, ride := false, save := none, held := none, por := false, mod := false, bor := false, straps := 0,
    attempts := [], loadFails := [], store := [], storeErrs := [], markDue := false, refresh := [], refLost := false,
    restoreDue := false }

/-- One buffer of a view (Table 13-3): image words with poison by image word number, and the words behind them. -/
structure ViewBuf where
  img : FMap (Psn Word)
  cycBegin : Nat
  cycEnd : Nat
  ntime : Nat
  info : Nat
  deriving DecidableEq, Repr

def ViewBuf.init : ViewBuf := { img := [], cycBegin := 0, cycEnd := 0, ntime := 0, info := 0 }

/-- The completion of a host read: offset, data, the poisoned-data mark, and Unsupported Request status (R216, R395). -/
structure Cpl where
  off : Nat
  data : Word
  ep : Bool
  ur : Bool
  deriving DecidableEq, Repr

/-- The host bridge beside its registers: view buffers by view × 2 + buffer and the directory as a mask, the copies of
channel, PD-F and edge registers (R397), Bus Master Enable, MSI-X messages sent by vector, the MSI-X table and its pending bits, host memory as
DMA finds and leaves it, the last completion with the poisoned-data mark (its offset, its data as stored, the mark), the last service reply, and the service records that await their result. -/
structure HbrSt where
  views : FMap ViewBuf
  dir : Nat
  copyRegs : FMap Nat
  copyWords : FMap Nat
  busMaster : Bool
  msix : FMap Nat
  msixTable : FMap Word
  pba : BitVec 32
  hostMem : FMap Byte
  cpl : Option Cpl
  /-- Errors signalled under AER: 0 Unsupported Request, 1 Poisoned TLP Received. -/
  aer : FMap Nat
  /-- Cycle and network time of the slot pushed or abandoned last. -/
  pushed : Option (Nat × Nat)
  reply : List Byte
  svcWait : List (BitVec 16)
  deriving DecidableEq, Repr

def HbrSt.init : HbrSt :=
  { views := [], dir := 0, copyRegs := [], copyWords := [], busMaster := false, msix := [], msixTable := [], pba := 0, hostMem := [], cpl := none, aer := [], pushed := none, reply := [],
    svcWait := [] }

/-- What an arbiter keeps of one pair (R381 to R391): the last renewal accepted with its flags, the node it named and its
handover cycle, the epochs granted with their node, when it began to serve and when it last heard a RENEW, the requests and
releases of this cycle, and the GRANT to send in this cycle as (node, epoch, cycle acknowledged, handover, last cycle). -/
structure ArbSlot where
  holder : Nat
  epoch : Nat
  high : Nat
  r : Nat
  kSnap : Nat
  flags : Nat
  named : Nat
  h : Nat
  last : Nat
  renewed : Bool
  granted : List (Nat × Nat)
  since : Nat
  heard : Option Nat
  reqs : List LeaseMsg
  rels : List LeaseMsg
  grant : Option (Nat × Nat × Nat × Bool × Nat)
  deriving DecidableEq, Repr

def ArbSlot.init : ArbSlot :=
  { holder := 0, epoch := 0, high := 0, r := 0, kSnap := 0, flags := 0, named := 0, h := 0, last := 0, renewed := false, granted := [],
    since := 0, heard := none, reqs := [], rels := [], grant := none }

/-- An input record on the twin link: cycle, force table where it carries one, image words (Table 12-1). -/
structure TwinTx where
  k : Nat
  forces : Option ForceTab
  image : FMap Word
  deriving DecidableEq, Repr

/-- The twin unit beside its registers: the active's input and signature records of this cycle, the snapshot arriving (`rxK` 1 while the
rest of a discarded one is ignored), the held one (cycle and bytes), whether the standby has not missed three without a later one
compared equal or adopted, the snapshots expected and sent with their acknowledgements, the acknowledgement sent last, k_snap, the
latest cycle a quorum acknowledged, the GRANTs of this cycle, when the partner's RENEW was last heard and for how many cycles it has
been missed, the highest epoch known, a pending handover's cycle, the grant held for it, an adoption (`some 0` awaits a snapshot, `some (k + 1)`
chases cycle k next) with the kept cycles, the communication state for the next image load, the counts of R376, the CRC-64 of the
module's own state by cycle executed from a record, the cycle (plus 1) of the last force table taken from a record, and the arbiter's
slots. `become` is the epoch at which the module becomes ACTIVE at the next Tc, `lose` that its lease went to its partner. -/
structure TwnSt where
  recIn : Option (List Byte)
  late : Bool
  ran : Bool
  sigIn : Option SigRec
  rxK : Nat
  rx : FMap (List Byte)
  held : Option (Nat × List Byte)
  good : Bool
  missed : Nat
  expect : List Nat
  sent : List (Nat × Option Bool)
  txK : Option (Nat × Bool)
  kSnap : Nat
  ackAt : Nat
  grants : List LeaseMsg
  heard : Option Nat
  heardCnt : Nat
  known : Nat
  ho : Option Nat
  hoGot : Option Nat
  become : Option Nat
  lose : Bool
  adopt : Option Nat
  kept : List Kept
  commNext : List Byte
  inDiff : FMap Nat
  own : List (Nat × Nat)
  ftAt : Nat
  /-- Last LEASE sequence accepted with its cycle, by connection ID × 64 + source (R380). -/
  leaseRef : FMap (Option (Nat × Nat))
  /-- Lz of the pair that each arbiter slot serves. -/
  slotLz : FMap Nat
  /-- The units sent last on the twin link (Table 12-1): the input record as cycle, force table where it carries one, and image words;
  the signature record; the snapshot; and the force table at the last image load. -/
  txRec : Option TwinTx
  txSig : Option SigRec
  txSnap : Option (List Byte)
  ftWas : ForceTab
  arb : FMap ArbSlot
  deriving DecidableEq, Repr

def TwnSt.init : TwnSt :=
  { recIn := none, late := false, ran := false, sigIn := none, rxK := 0, rx := [], held := none, good := true,
    missed := 0, expect := [], sent := [], txK := none, kSnap := 0, ackAt := 0, grants := [], heard := none, heardCnt := 0, known := 0,
    ho := none, hoGot := none, become := none, lose := false, adopt := none, kept := [], commNext := [], inDiff := [], own := [], ftAt := 0, leaseRef := [], slotLz := [],
    txRec := none, txSig := none, txSnap := none, ftWas := [], arb := [] }

/-! ### The state after reset -/

/-- A record of zeros. -/
def InVals.init : InVals := { si := 0, pair := 0, diag := 0 }

/-- A channel that is held in reset: its memories read 0 and it holds no bank (Table 1-3, R514). -/
def Chan.init : Chan :=
  { st := .reset, img := [], timers := [], counters := [], errs := [], pmap := [], tags := [], fuse := [], wbq := [], ceRows := [],
    weakRuns := [], lanes := [], run := none, uc := none, ucCopy := 0, acc := 0xFFFFFFFFFFFFFFFF#64, accStart := true, travPos := 0,
    clk := 0, raised := [], ovr := false, repPsn := false, ccuStop := false, verdict := none, saveBuf := none, frozen := none,
    prevEvents := [], laneStat := 0, inRecs := [], sigRecs := [], sample := InVals.init, agreed := InVals.init, diffCnt := [], kept := [],
    attempt := none, sent := [], ownForces := none, failTimes := [], probation := false, plumbLeft := 0, plumbBad := (false, false), cfgOk := false,
    sendPsn := false, bootCopy := none }

/-- The module's mode state at the release of P or M. -/
def ModSt.init : ModSt :=
  { mode := .boot, role := .standby, debug := false, maintFrom := .boot, exclReq := [], rejoinReq := [], safeReq := [], wHold := 0,
    ackEdge := false, ackAccepted := false, bootVerdict := none, invalidNs := 0, plumb := 0, plumbBad := ([], []), cellsOut := [],
    proofOver := [], exclAt := [], sigDue := false, plumbDone := false, travDone := false,
    restart := .none, firstCold := false, firstWarm := false, firstCommit := false, firstResume := false, assertSafe := false,
    assertStage := false, noneStreak := 0, decided := false, voted := false, safeStage := false, ranCycle := false, dbgHaltReq := none,
    dbgAbandon := false, halted := false, heldBatch := false, commitDue := false, noMaj := 0, overlap := false, linkMiss := [],
    done := none, cycForces := [], loadDone := false, taken := false }

def TimeSt.init : TimeSt := { tcNs := 0, cyc := 0, opNs := 0, opAdd := 0, valid := false, rpcStrobe := true, started := false }

def LaneQ.init : LaneQ := { latch := [], latchPsn := false, queue := [], res := [], fifo := [] }

def RecSt.init : RecSt :=
  { mram := [], mramErrs := [], queue := [], reports := [], held := [], heldLost := [], matched := [], index := [], indexing := false, next := 0,
    floor := 0 }

def SioSt.init : SioSt :=
  { cells := ⟨Cells.sound, Cells.sound, Cells.sound⟩, ins := [], pairs := [], acks := [], outs := [], pulses := [], tpOff := [], ovRide := [], susp := [], trip := [], autoClr := [], swRead := ⟨0, 0, 0⟩, swAt := ⟨0, 0, 0⟩, railErr := (0, 0),
    swLast := 0, evSev := [], holdLeft := none, late := 0, twinOut := 0 }

/-- The whole module. `pending` is the queue of commands, `free` the counter that free values are drawn from,
`regs` every register field that does not hold its reset value. -/
structure State where
  pending : List Instr
  free : Nat
  regs : FMap Nat
  tm : TimeSt
  md : ModSt
  chs : Per3 Chan
  forces : ForceTab
  lane : LaneQ
  rcd : RecSt
  sio : SioSt
  dlk : DlkSt
  ptn : PtnSt
  tmu : TmuSt
  gwy : GwySt
  alp : FMap AlpLoop
  sec : SecSt
  rpc : RpcSt
  hbr : HbrSt
  twn : TwnSt
  deriving DecidableEq, Repr

/-- The module with P asserted, before its first release: mode BOOT and role STANDBY as `MOD_STATUS` and `MOD_CAUSE` give
them at reset, every register at its reset value, no domain good yet, an erased plug and empty nonvolatile stores. -/
def State.reset : State :=
  { pending := [], free := 0, regs := [], tm := TimeSt.init, md := ModSt.init, chs := ⟨Chan.init, Chan.init, Chan.init⟩,
    forces := [], lane := LaneQ.init, rcd := RecSt.init, sio := SioSt.init, dlk := DlkSt.init, ptn := PtnSt.init,
    tmu := TmuSt.init, gwy := GwySt.init, alp := [], sec := SecSt.init, rpc := { RpcSt.init with por := true },
    hbr := HbrSt.init, twn := TwnSt.init }

end Sys2Proof.Machine
end

