-- ==== Sys2Proof/Machine/Ops.lean ====
section
/-! DEFINITION. The named operations every meaning is written over: sparse maps, channels, register fields, time,
logging, the choice of a free value. -/

namespace Sys2Proof

/-! ### Sparse maps -/

/-- The entry of key `k`, or the default. -/
def FMap.get (d : β) : FMap β → Nat → β
  | [], _ => d
  | (j, v) :: m, k => if j = k then v else FMap.get d m k

/-- Insert or replace an entry; keys stay strictly rising. -/
def FMap.put : FMap β → Nat → β → FMap β
  | [], k, v => [(k, v)]
  | (j, w) :: m, k, v =>
    if k < j then (k, v) :: (j, w) :: m else if j = k then (k, v) :: m else (j, w) :: FMap.put m k v

/-- Remove an entry. -/
def FMap.del : FMap β → Nat → FMap β
  | [], _ => []
  | (j, w) :: m, k => if j = k then FMap.del m k else (j, w) :: FMap.del m k

/-- Store `v` at `k`; storing the default removes the entry, so that equal maps are equal lists. -/
def FMap.set [DecidableEq β] (d : β) (m : FMap β) (k : Nat) (v : β) : FMap β :=
  if v = d then FMap.del m k else FMap.put m k v

/-- The canonical form: keys strictly rising and no entry equal to the default. -/
def FMap.wf [DecidableEq β] (d : β) : FMap β → Bool
  | [] => true
  | [(_, v)] => v ≠ d
  | (j, v) :: (k, w) :: m => decide (j < k) && v ≠ d && FMap.wf d ((k, w) :: m)

/-- The entries whose key lies in `[lo, hi)` removed. -/
def FMap.cut (m : FMap β) (lo hi : Nat) : FMap β := m.filter fun e => e.1 < lo || hi ≤ e.1

/-- Only the entries whose key lies in `[lo, hi)`. -/
def FMap.range (m : FMap β) (lo hi : Nat) : FMap β := m.filter fun e => lo ≤ e.1 && e.1 < hi

/-! ### Numbers -/

/-- A field's value cut to its width. -/
def trunc (w v : Nat) : Nat := v % 2 ^ w

/-- Add 1 and stop at `max` (saturating counters). -/
def satInc (max v : Nat) : Nat := if v < max then v + 1 else max

/-- A Boolean as a number. -/
def bitNat (b : Bool) : Nat := if b then 1 else 0

/-- Bit `i` of a number. -/
def natBit (v i : Nat) : Bool := v.testBit i

/-- A number with bit `i` set. -/
def natSet (v i : Nat) : Nat := v ||| 2 ^ i

/-- A number with bit `i` cleared. -/
def natClr (v i : Nat) : Nat := if v.testBit i then v - 2 ^ i else v

/-- The list of the numbers below `n`. -/
def upTo (n : Nat) : List Nat := List.range n

/-! ### Channels -/

/-- Number of a channel: 0 CH-A, 1 CH-B, 2 CH-C. -/
def Ch.num : Ch → Nat
  | .chA => 0
  | .chB => 1
  | .chC => 2

/-- The channel of a number; numbers above 2 name CH-C. -/
def Ch.at : Nat → Ch
  | 0 => .chA
  | 1 => .chB
  | _ => .chC

/-- All channels, in order. -/
def Ch.all : List Ch := [.chA, .chB, .chC]

/-- The two other channels, in order. -/
def Ch.others : Ch → List Ch
  | .chA => [.chB, .chC]
  | .chB => [.chA, .chC]
  | .chC => [.chA, .chB]

def Per3.get (p : Per3 α) : Ch → α
  | .chA => p.a
  | .chB => p.b
  | .chC => p.c

def Per3.set (p : Per3 α) (c : Ch) (v : α) : Per3 α :=
  match c with
  | .chA => { p with a := v }
  | .chB => { p with b := v }
  | .chC => { p with c := v }

/-- The same value for every channel. -/
def Per3.all (v : α) : Per3 α := ⟨v, v, v⟩

/-- The mask of a list of channels, CH-A in bit 0. -/
def Ch.mask (l : List Ch) : Nat := bitNat (l.contains .chA) + 2 * bitNat (l.contains .chB) + 4 * bitNat (l.contains .chC)

/-- Key of a register field in the sparse map: its offset and least significant bit. -/
def Fld.key (f : Fld) : Nat := f.off * 32 + f.lsb

end Sys2Proof

namespace Sys2Proof.Machine

def State.ch (s : State) (c : Ch) : Chan := s.chs.get c

def State.modCh (s : State) (c : Ch) (f : Chan → Chan) : State := { s with chs := s.chs.set c (f (s.chs.get c)) }

def State.modMd (s : State) (f : ModSt → ModSt) : State := { s with md := f s.md }

/-- Apply a state function for each element of a list, in order. -/
def foldSt (l : List α) (f : α → State → State) (s : State) : State := l.foldl (fun s x => f x s) s

/-! ### Register fields -/

/-- Value of a register field; a field not listed holds its reset value. -/
def State.rd (s : State) (f : Fld) : Nat := FMap.get f.rst s.regs (Fld.key f)

/-- Value of a one-bit register field. -/
def State.rdb (s : State) (f : Fld) : Bool := s.rd f ≠ 0

/-- Set a register field, cut to its width. -/
def State.wr (s : State) (f : Fld) (v : Nat) : State :=
  { s with regs := FMap.set f.rst s.regs (Fld.key f) (trunc f.width v) }

def State.wrb (s : State) (f : Fld) (b : Bool) : State := s.wr f (bitNat b)

/-- Count in a field that saturates at its largest value. -/
def State.inc (s : State) (f : Fld) : State := s.wr f (satInc (2 ^ f.width - 1) (s.rd f))

/-- Count in a field that wraps. -/
def State.incWrap (s : State) (f : Fld) : State := s.wr f (s.rd f + 1)

/-- Set one bit of a field. -/
def State.setBit (s : State) (f : Fld) (i : Nat) : State := s.wr f (natSet (s.rd f) i)

/-- Clear one bit of a field. -/
def State.clrBit (s : State) (f : Fld) (i : Nat) : State := s.wr f (natClr (s.rd f) i)

/-- The next free value and the state with the counter advanced. -/
def State.take (s : State) : Nat × State := (Config.freeValue s.free, { s with free := s.free + 1 })

/-! ### Register words -/

/-- The fields of the register at an offset; none where no register lies there (R530). -/
def Reg.fieldsIn (rows : List RegRow) (off : Nat) : Option (List Fld) :=
  match rows with
  | [] => none
  | r :: rs =>
    let rem := off - r.base
    let i := if r.stride = 0 then 0 else rem / r.stride
    let rem2 := rem - i * r.stride
    let j := if r.stride2 = 0 then 0 else rem2 / r.stride2
    if r.base ≤ off && rem2 = j * r.stride2 && i < r.count && j < r.count2 then
      some (r.flds.map fun f => { f with off := f.off + rem })
    else Reg.fieldsIn rs off

/-- The fields of the register at a BAR 0 offset (R529 to R531). -/
def Reg.fieldsAt (off : Nat) : Option (List Fld) := Reg.fieldsIn (Reg.rowsOf off) off

/-- The stored word of a register: its fields at their places. -/
def State.storedWord (s : State) (off : Nat) : Nat :=
  match Reg.fieldsAt off with
  | none => 0
  | some fs => fs.foldl (fun v f => v + s.rd f * 2 ^ f.lsb) 0

/-! ### Mode, role and time -/

def Mode.code : Mode → Nat
  | .off => 0 | .boot => 1 | .hold => 2 | .integrate => 3 | .startup => 4
  | .run3 => 5 | .run2 => 6 | .safe => 7 | .maint => 8

def Role.code : Role → Nat
  | .solo => 0 | .standby => 1 | .active => 2 | .orphan => 3

def ChState.code : ChState → Nat
  | .reset => 0 | .booting => 1 | .vote => 2 | .excluded => 3 | .resync => 4 | .reloading => 5 | .retired => 6

def State.mode (s : State) : Mode := s.md.mode
def State.role (s : State) : Role := s.md.role

/-- Channels in the vote. -/
def State.inVote (s : State) (c : Ch) : Bool := (s.ch c).st = .vote

/-- The channels in the vote, in order. -/
def State.voters (s : State) : List Ch := Ch.all.filter s.inVote

/-- `VOTE_DEG` of `MOD_STATUS`: 0 while no program can execute, as in the cycles in which W is held, otherwise the number of channels
in the vote. DESIGN CHOICE (log 80): in the three cycles of the plumb check, in which the engines run the test bank, it reads that
number too. -/
def State.voteDeg (s : State) : Nat :=
  match s.md.mode with
  | .startup => if 2 ≤ s.voters.length && s.md.wHold = 0 then s.voters.length else 0
  | .run3 | .run2 | .safe | .maint => if 2 ≤ s.voters.length then s.voters.length else 0
  | _ => 0

/-- First two conditions of R25. -/
def State.outPermit (s : State) : Bool :=
  (match s.md.mode with
   | .run3 | .run2 => true
   | .maint => !s.md.debug
   | _ => false) &&
  (match s.md.role with
   | .solo | .active => true
   | _ => false)

/-- T_bc in ns for a `TBC_CODE` (Table 2-1); the reserved codes give the default of 1 ms and are refused at load. -/
def tbcOf : Nat → Nat
  | 0 => 250000 | 1 => 500000 | 2 => 1000000 | 3 => 2000000 | 4 => 4000000 | 5 => 5000000
  | 6 => 8000000 | 7 => 10000000 | 8 => 16000000 | 9 => 20000000 | 10 => 50000000 | 11 => 100000000
  | _ => 1000000

/-- The engine window of T_bc − 70 µs in engine clocks of 2.5 ns (Table 2-1). -/
def windowClk (tbc : Nat) : Nat := (tbc - 70000) * 2 / 5

/-- T_bc in force; 1 ms in BOOT and HOLD (R47, R489). -/
def State.tbc (s : State) : Nat :=
  match s.md.mode with
  | .boot | .hold => 1000000
  | _ => tbcOf (s.rd Reg.TMU_CYC_CFG_TBC_CODE)

/-- M in force (R41). -/
def State.mx (s : State) : Nat := 2 ^ s.rd Reg.TMU_CYC_CFG_M_CODE

/-- Network time is valid for the module's use. -/
def State.timeValid (s : State) : Bool := s.tm.valid && !s.tm.rpcStrobe

/-! ### Logging -/

/-- PD-H is powered and its load has not been given up (R520), so the recorder takes records. -/
def State.pdhGood (s : State) : Bool := natBit (s.rd Reg.MOD_DOMAIN_PGOOD) 7 && !natBit (s.rd Reg.RPC_LOAD_LOAD_ERR) 7

/-- Queue a record (R463): a full queue discards it and counts it in `Q_OVF`; a lost PD-H takes none. -/
def State.enqueue (s : State) (e : RecEv) : State :=
  if !s.pdhGood then s
  else if s.rcd.queue.length < 2048 then
    let s := { s with rcd := { s.rcd with queue := s.rcd.queue ++ [e] } }
    let n := s.rcd.queue.length
    let s := s.wr Reg.REC_QUEUE_FILL n
    if s.rd Reg.REC_QUEUE_HIGH < n then s.wr Reg.REC_QUEUE_HIGH n else s
  else s.inc Reg.REC_ERR_Q_OVF

/-- A payload of six words. -/
def pay (l : List Nat) : List Word := ((l ++ [0, 0, 0, 0, 0, 0]).take 6).map fun v => BitVec.ofNat 32 v

/-- An event with the time of its cycle's Tc (R460). -/
def State.tcEvent (s : State) (sev cls src inst : Nat) (payload : List Nat) : RecEv :=
  { sev := sev, cls := cls, src := src, inst := inst, cycle := s.tm.cyc % 2 ^ 32,
    ntime := if s.timeValid then s.tm.tcNs else 0, ntValid := s.timeValid, single := false, flushed := false,
    payload := pay payload }

/-- An event with the time at which its block reports it (R460): a free instant of the cycle. -/
def State.event (s : State) (sev cls src inst : Nat) (payload : List Nat) : RecEv :=
  { s.tcEvent sev cls src inst payload with
    ntime := if s.timeValid then s.tm.tcNs + Config.reportLag (s.rcd.next + s.rcd.queue.length) % max 1 s.tbc else 0 }

/-- Log an event of a block (R555): a class 0x10 to 0xFE record whose payload names the register concerned and its
value (Table 16-3). -/
def State.diag (s : State) (sev src inst : Nat) (off : Nat) (detail : List Nat := []) : State :=
  s.enqueue (s.event sev (0x10 + src) src inst ([off, s.storedWord off] ++ detail))

/-- Each parameter by which a load exceeds the module is logged under its identity register (R4, R555). -/
def State.logParams (s : State) (l : List Nat) : State := l.foldl (fun s off => s.diag 3 0 0 off) s

/-- Source block codes of Table 16-4. -/
def Src.mod : Nat := 0
def Src.chan : Nat := 1
def Src.vot : Nat := 2
def Src.ptn : Nat := 3
def Src.tmu : Nat := 4
def Src.sio : Nat := 5
def Src.dlk : Nat := 6
def Src.alp : Nat := 7
def Src.gwy : Nat := 8
def Src.twn : Nat := 9
def Src.sec : Nat := 10
def Src.hbr : Nat := 11
def Src.prog : Nat := 12
def Src.host : Nat := 13
def Src.rec : Nat := 14

/-- Channels that report a channel event: those powered and running (Table 1-3, R460). -/
def State.reporters (s : State) : List Ch :=
  Ch.all.filter fun c => (s.ch c).st ≠ .reset && (s.ch c).st ≠ .booting

/-- A report of a channel event by one channel: kept by the channel while PD-H is lost, up to 256; further ones are counted and lost
(Table 1-3). -/
def State.report (s : State) (c : Ch) (e : RecEv) : State :=
  let r : Report := { chan := Ch.num c, age := 0, ev := e }
  if s.pdhGood then { s with rcd := { s.rcd with reports := s.rcd.reports ++ [r] } }
  else if (s.rcd.held.filter fun x => x.chan = Ch.num c).length < 256 then
    { s with rcd := { s.rcd with held := s.rcd.held ++ [r] } }
  else { s with rcd := { s.rcd with heldLost := FMap.set 0 s.rcd.heldLost r.chan (FMap.get 0 s.rcd.heldLost r.chan + 1) } }

/-- A channel event that every running channel reports alike. -/
def State.chEvent (s : State) (sev cls inst : Nat) (payload : List Nat) : State :=
  foldSt s.reporters (fun c s => s.report c (s.tcEvent sev cls Src.chan inst payload)) s

end Sys2Proof.Machine
end

