-- ==== Sys2Proof/Machine/Flags.lean ====
section
/-! DEFINITION. The overflow status of the word instructions (R113, R114, R121) and their results, from exact
arithmetic narrowed at the end. -/

namespace Sys2Proof.Machine

/-- The number an operand stands for: unsigned in the `.U` forms, two's complement otherwise. -/
def numOf (uns : Bool) (x : Word) : Int := if uns then (x.toNat : Int) else x.toInt

/-- The exact result lies outside the range of the form (R113). -/
def outOfRange (uns : Bool) (v : Int) : Bool :=
  if uns then v < 0 || 4294967296 ≤ v else v < -2147483648 || 2147483648 ≤ v

/-- The low 32 bits of an exact result. -/
def narrow (v : Int) : Word := BitVec.ofInt 32 v

/-- `ADD`: result and overflow. -/
def aluAdd (uns : Bool) (a v : Word) : Word × Bool := let r := numOf uns a + numOf uns v; (narrow r, outOfRange uns r)
/-- `SUB`: result and overflow. -/
def aluSub (uns : Bool) (a v : Word) : Word × Bool := let r := numOf uns a - numOf uns v; (narrow r, outOfRange uns r)
/-- `MUL`: result and overflow. -/
def aluMul (uns : Bool) (a v : Word) : Word × Bool := let r := numOf uns a * numOf uns v; (narrow r, outOfRange uns r)
/-- `MIN`: never overflows. -/
def aluMin (uns : Bool) (a v : Word) : Word × Bool := (if numOf uns v < numOf uns a then v else a, false)
/-- `MAX`: never overflows. -/
def aluMax (uns : Bool) (a v : Word) : Word × Bool := (if numOf uns a < numOf uns v then v else a, false)

/-- `SHL` by `n` (R114): overflow when a bit shifted out is 1. -/
def aluShl (a : Word) (n : Nat) : Word × Bool :=
  if 32 ≤ n then (0, a ≠ 0) else (a <<< n, (a.toNat * 2 ^ n) / 2 ^ 32 ≠ 0)
/-- `SHR` by `n`. -/
def aluShr (a : Word) (n : Nat) : Word × Bool := (if 32 ≤ n then 0 else a >>> n, false)
/-- `ASR` by `n`: copies of bit 31 enter. -/
def aluAsr (a : Word) (n : Nat) : Word × Bool := (a.sshiftRight (min n 32), false)

/-- `LIMIT` (R115): min(max(a, lo), hi). -/
def aluLimit (uns : Bool) (a lo hi : Word) : Word := (aluMin uns (aluMax uns a lo).1 hi).1

end Sys2Proof.Machine
end

