-- ==== Sys2Proof/Machine/Miu.lean ====
section
/-! DEFINITION. Memory codes and poison of a channel (the chapter "Memory integrity"), the cyclic codes of the spec, and
the images, timer and counter stores read and written through them. A memory holds its ideal contents and, for each
codeword that differs from the encoding of those contents, the XOR difference. -/

namespace Sys2Proof

/-! ### Cyclic codes -/

/-- One byte into CRC-64 with the ECMA-182 polynomial, not reflected (R169). -/
def crc64Bit (a : Word64) : Word64 :=
  if a.msb then (a <<< 1) ^^^ 0x42F0E1EBA9EA3693#64 else a <<< 1

def crc64Byte (a : Word64) (b : Byte) : Word64 :=
  let a := a ^^^ (b.setWidth 64 <<< 56)
  crc64Bit (crc64Bit (crc64Bit (crc64Bit (crc64Bit (crc64Bit (crc64Bit (crc64Bit a)))))))

/-- Initial value of the signature accumulator (R169). -/
def crc64Init : Word64 := 0xFFFFFFFFFFFFFFFF#64

/-- Bytes into the accumulator, in order. -/
def crc64Feed (a : Word64) (l : List Byte) : Word64 := l.foldl crc64Byte a

/-- The final XOR (R169). -/
def crc64Final (a : Word64) : Word64 := a ^^^ crc64Init

/-- Byte `i` of a 64-bit value, byte 0 least significant. -/
def byteOf (v : Word64) (i : Nat) : Byte := v.extractLsb' (8 * i) 8

/-- One signature item into the accumulator: eight bytes, most significant first (R169). -/
def crc64Item (a : Word64) (v : Word64) : Word64 :=
  crc64Feed a [byteOf v 7, byteOf v 6, byteOf v 5, byteOf v 4, byteOf v 3, byteOf v 2, byteOf v 1, byteOf v 0]

/-- One bit of CRC-32C in its reflected form (polynomial 0x1EDC_6F41). -/
def crc32cBit (a : Word) : Word := if a.getLsbD 0 then (a >>> 1) ^^^ 0x82F63B78#32 else a >>> 1

def crc32cByte (a : Word) (b : Byte) : Word :=
  let a := a ^^^ b.setWidth 32
  crc32cBit (crc32cBit (crc32cBit (crc32cBit (crc32cBit (crc32cBit (crc32cBit (crc32cBit a)))))))

/-- CRC-32C of a byte string: Castagnoli, reflected, initial and final XOR of all ones. -/
def crc32c (l : List Byte) : Word := l.foldl crc32cByte 0xFFFFFFFF#32 ^^^ 0xFFFFFFFF#32

/-- The four bytes of a word, least significant first. -/
def wordLE (v : Word) : List Byte := [v.extractLsb' 0 8, v.extractLsb' 8 8, v.extractLsb' 16 8, v.extractLsb' 24 8]

/-- `n` bytes of a number, least significant first. -/
def natLE : Nat → Nat → List Byte
  | 0, _ => []
  | n + 1, v => BitVec.ofNat 8 v :: natLE n (v / 256)

/-- The number that bytes spell, least significant first. -/
def leNat : List Byte → Nat
  | [] => 0
  | b :: l => b.toNat + 256 * leNat l

/-- The number that bytes spell in network byte order. -/
def beNat (l : List Byte) : Nat := l.foldl (fun v b => v * 256 + b.toNat) 0

/-- `n` bytes of a number in network byte order. -/
def natBE (n v : Nat) : List Byte := (natLE n v).reverse

/-! ### The (72,64) code -/

/-- Columns of the code (Table 7-2): data bits 0 to 63, then check bits 0 to 7. -/
def Hsiao.cols : List Nat :=
  [0x07, 0x0B, 0x0D, 0x0E, 0x13, 0x15, 0x16, 0x19, 0x1A, 0x1C, 0x23, 0x25, 0x26, 0x29, 0x2A, 0x2C, 0x31, 0x32, 0x34, 0x38] ++
  [0x43, 0x45, 0x46, 0x49, 0x4A, 0x4C, 0x51, 0x52, 0x54, 0x58, 0x61, 0x62, 0x64, 0x68, 0x70, 0x83, 0x85, 0x86, 0x89, 0x8A] ++
  [0x8C, 0x91, 0x92, 0x94, 0x98, 0xA1, 0xA2, 0xA4, 0xA8, 0xB0, 0xC1, 0xC2, 0xC4, 0xC8, 0xD0, 0xE0] ++
  [0x1F, 0x2F, 0x37, 0x3B, 0x3D, 0x3E, 0x4F, 0x57, 0x01, 0x02, 0x04, 0x08, 0x10, 0x20, 0x40, 0x80]

/-- Syndrome of a 72-bit difference from a codeword (R208). -/
def Hsiao.synd (e : BitVec 72) : Nat :=
  (Hsiao.cols.foldl (fun (p : Nat × Nat) col => (p.1 + 1, if e.getLsbD p.1 then p.2 ^^^ col else p.2)) (0, 0)).2

/-- Check byte of 64 data bits (R208). -/
def Hsiao.check (d : BitVec 64) : Nat := Hsiao.synd (d.setWidth 72)

/-- The codeword of 64 data bits: data in bits 0 to 63, check bits above. -/
def Hsiao.enc (d : BitVec 64) : BitVec 72 := BitVec.ofNat 8 (Hsiao.check d) ++ d

/-- What a read finds (Table 7-3, rows 2 to 4). -/
inductive RdOut where
  | clean
  | corrected (bit : Nat)
  | uncorrectable
  deriving DecidableEq, Repr

def Hsiao.outcome (e : BitVec 72) : RdOut :=
  let sy := Hsiao.synd e
  if sy = 0 then .clean
  else
    let b := Hsiao.cols.idxOf sy
    if b < 72 then .corrected b else .uncorrectable

/-- The poison tag (R210): data 0, check byte 0xFF. -/
def Hsiao.tag : BitVec 72 := 0xFF0000000000000000#72

/-- Number of ones. -/
def popCount (v : BitVec n) : Nat := (List.range n).foldl (fun a i => if v.getLsbD i then a + 1 else a) 0

/-- Row 1 of Table 7-3: the stored word is the tag or differs from it in one bit. -/
def Hsiao.isTag (stored : BitVec 72) : Bool := popCount (stored ^^^ Hsiao.tag) ≤ 1

end Sys2Proof

namespace Sys2Proof.Machine

/-! ### Regions -/

/-- Region code of a codeword address (Table 7-1). -/
def Miu.region (cw : Nat) : Nat :=
  if cw < 0x100000 then 0 else if cw < 0x130000 then 1 else if cw < 0x133000 then 2 else if cw < 0x153000 then 3
  else if cw < 0x154000 then 4 else if cw < 0x160000 then 5 else 6

/-- Regions whose poison is kept in the map (Table 7-1). -/
def Miu.isMap (r : Nat) : Bool := r = 1 || r = 2 || r = 4

/-- Codeword of image word `i` in the master copy or in a lane's replica (R207). -/
def Miu.cwMaster (i : Nat) : Nat := 0x130000 + i / 2
def Miu.cwLane (l i : Nat) : Nat := 0x100000 + l * 0x3000 + i / 2
/-- Codeword of instruction `i` of lane `l` in physical bank `b`. -/
def Miu.cwProg (b l i : Nat) : Nat := b * 0x80000 + l * 0x8000 + i / 2
/-- Codeword of word `i` of the table store of physical bank `b`. -/
def Miu.cwTable (b i : Nat) : Nat := 0x133000 + b * 0x10000 + i / 2
/-- Codeword of a timer or of a counter. -/
def Miu.cwTimer (t : Nat) : Nat := 0x153000 + t / 2
def Miu.cwCounter (t : Nat) : Nat := 0x153800 + t / 2
/-- Codewords of the force table and of the save buffer in the working store. -/
def Miu.cwForce (n : Nat) : Nat := 0x154000 + n * 2
def Miu.cwSave (i : Nat) : Nat := 0x154200 + i / 2

/-- Key of the poison bit of one half of a codeword. -/
def Miu.pkey (cw i : Nat) : Nat := cw * 2 + i % 2

/-! ### Errors on access -/

/-- Note the last error in `MIU_ERR_ADDR` and `MIU_ERR_SYND` (R232). -/
def State.miuErr (s : State) (c : Ch) (kind cw synd bit : Nat) : State :=
  let n := Ch.num c
  ((((s.wr (Reg.MIU_ERR_ADDR_KIND n) kind).wr (Reg.MIU_ERR_ADDR_REGION n) (Miu.region cw)).wr
    (Reg.MIU_ERR_ADDR_CWADDR n) cw).wr (Reg.MIU_ERR_SYND_SYND n) synd).wr (Reg.MIU_ERR_SYND_BIT n) bit

/-- A correction on access: counted, reported, and its address placed in the write-back queue; one that finds the queue full is
counted, also where the codeword stands there already (R212). A codeword stands there once. -/
def State.miuCorrected (s : State) (c : Ch) (cw : Nat) (e : BitVec 72) (bit : Nat) (queue : Bool) : State :=
  let n := Ch.num c
  let s := (s.inc (Reg.MIU_CE_CE_ACCESS n)).wrb (Reg.MIU_EVENT_CE n) true
  let s := s.miuErr c 1 cw (Hsiao.synd e) bit
  if !queue then s
  else if 16 ≤ (s.ch c).wbq.length then s.inc (Reg.MIU_UE_QUEUE_OVF n)
  else if (s.ch c).wbq.contains cw then s
  else s.modCh c fun h => { h with wbq := h.wbq ++ [cw] }

/-- An uncorrectable read: counted and reported (R211). -/
def State.miuUncorrectable (s : State) (c : Ch) (cw : Nat) (e : BitVec 72) : State :=
  let n := Ch.num c
  ((s.inc (Reg.MIU_UE_UE_COUNT n)).wrb (Reg.MIU_EVENT_UE n) true).miuErr c 3 cw (Hsiao.synd e) 0xFF

def State.setErr (s : State) (c : Ch) (cw : Nat) (e : BitVec 72) : State :=
  s.modCh c fun h => { h with errs := FMap.set 0 h.errs cw e }

def State.setPsn (s : State) (c : Ch) (key : Nat) (p : Bool) : State :=
  s.modCh c fun h => { h with pmap := FMap.set false h.pmap key p }

def State.setTag (s : State) (c : Ch) (cw : Nat) (p : Bool) : State :=
  s.modCh c fun h => { h with tags := FMap.set false h.tags cw p }

/-- The data part of a difference after the decoder's correction. -/
def Miu.residual (e : BitVec 72) (o : RdOut) : BitVec 64 :=
  match o with
  | .corrected b => (e ^^^ BitVec.ofNat 72 (2 ^ b)).setWidth 64
  | _ => e.setWidth 64

/-- A read of a codeword of a map region (R209, R211): the difference of the data delivered from the ideal data. -/
def State.readMapCw (s : State) (c : Ch) (cw : Nat) : BitVec 64 × State :=
  let e := FMap.get 0 (s.ch c).errs cw
  if e = 0 then (0, s)
  else
    let o := Hsiao.outcome e
    let r := Miu.residual e o
    match o with
    | .clean => (r, s)
    | .corrected b => (r, s.miuCorrected c cw e b true)
    | .uncorrectable =>
      (r, (((s.miuUncorrectable c cw e).setPsn c (cw * 2) true).setPsn c (cw * 2 + 1) true))

/-- A read of a codeword of a tag region whose ideal data is `d`: the data's difference, whether it reads poisoned. -/
def State.readTagCw (s : State) (c : Ch) (cw : Nat) (d : BitVec 64) : (BitVec 64 × Bool) × State :=
  let e := FMap.get 0 (s.ch c).errs cw
  if FMap.get false (s.ch c).tags cw then ((d, true), s.miuErr c 4 cw 0xFF 0xFF)
  else if e = 0 then ((0, false), s)
  else if Hsiao.isTag (Hsiao.enc d ^^^ e) then ((e.setWidth 64, true), s.miuErr c 4 cw (Hsiao.synd e) 0xFF)
  else
    let o := Hsiao.outcome e
    let r := Miu.residual e o
    match o with
    | .clean => ((r, false), s)
    | .corrected b => ((r, false), s.miuCorrected c cw e b true)
    | .uncorrectable => ((r, true), ((s.miuUncorrectable c cw e).setTag c cw true).setErr c cw 0)

/-! ### The flip mask (R224) -/

/-- The armed mask fires at this write. -/
def State.flipHits (s : State) (c : Ch) (cw : Nat) : Bool :=
  let n := Ch.num c
  s.rdb (Reg.MIU_FLIP_CTL_ARM n) && s.rd (Reg.MIU_FLIP_CTL_TARGET n) = Miu.region cw &&
    (!s.rdb (Reg.MIU_FLIP_CTL_ADDR_EN n) || s.rd (Reg.MIU_FLIP_ADDR_CWADDR n) = cw)

/-- The 72-bit mask. -/
def State.flipMask (s : State) (c : Ch) : BitVec 72 :=
  let n := Ch.num c
  BitVec.ofNat 8 (s.rd (Reg.MIU_FLIP_CTL_CHK n)) ++ BitVec.ofNat 32 (s.rd (Reg.MIU_FLIP_MASK_HI_MASK_HI n)) ++
    BitVec.ofNat 32 (s.rd (Reg.MIU_FLIP_MASK_LO_MASK_LO n))

/-- Fire the mask on a codeword just written, where it is armed for it (R224). -/
def State.flip (s : State) (c : Ch) (cw : Nat) : State :=
  if s.flipHits c cw then
    let n := Ch.num c
    let e := FMap.get 0 (s.ch c).errs cw ^^^ s.flipMask c
    ((s.setErr c cw e).wrb (Reg.MIU_FLIP_CTL_ARM n) false).wrb (Reg.MIU_FLIP_CTL_FIRED n) true
  else s

/-- An armed mask at a write of many codewords: it hits the one that it names, or the first of its region among `firsts`, where that is
written. -/
def State.flipAmong (s : State) (c : Ch) (firsts : List Nat) (written : Nat → Bool) : State :=
  let n := Ch.num c
  let first := firsts.find? fun w => Miu.region w = s.rd (Reg.MIU_FLIP_CTL_TARGET n)
  let cw := if s.rdb (Reg.MIU_FLIP_CTL_ADDR_EN n) then some (s.rd (Reg.MIU_FLIP_ADDR_CWADDR n)) else first
  match cw with
  | some w => if written w then s.flip c w else s
  | none => s

/-! ### Writes -/

/-- A write of one 32-bit half of a codeword of a map region (R559): the other half is read through the decoder and the
codeword re-encoded; the caller stores the new half and its poison bit. -/
def State.writeMapHalf (s : State) (c : Ch) (cw i : Nat) : State :=
  let e := FMap.get 0 (s.ch c).errs cw
  let s :=
    if e = 0 then s
    else
      let o := Hsiao.outcome e
      let other : BitVec 64 := if i % 2 = 0 then 0xFFFFFFFF00000000#64 else 0xFFFFFFFF#64
      let r := Miu.residual e o &&& other
      let s := match o with
        | .clean => s
        | .corrected b => s.miuCorrected c cw e b false
        | .uncorrectable => (s.miuUncorrectable c cw e).setPsn c (cw * 2 + (1 - i % 2)) true
      s.setErr c cw (if r = 0 then 0 else Hsiao.enc r)
  s.flip c cw

/-- A write of one 32-bit half of a codeword of a tag region whose ideal data is `d` (R559): the codeword is read through the decoder;
one that reads as poisoned keeps its tag and drops the write, any other is re-encoded from the new half and the half as it read. -/
def State.writeTagHalf (s : State) (c : Ch) (cw i : Nat) (d : BitVec 64) : State :=
  let e := FMap.get 0 (s.ch c).errs cw
  let s :=
    if FMap.get false (s.ch c).tags cw then s
    else if e = 0 then s
    else if Hsiao.isTag (Hsiao.enc d ^^^ e) then (s.setTag c cw true).setErr c cw 0
    else
      let o := Hsiao.outcome e
      let other : BitVec 64 := if i % 2 = 0 then 0xFFFFFFFF00000000#64 else 0xFFFFFFFF#64
      let r := Miu.residual e o &&& other
      match o with
      | .clean => s.setErr c cw (if r = 0 then 0 else Hsiao.enc r)
      | .corrected b => (s.miuCorrected c cw e b false).setErr c cw (if r = 0 then 0 else Hsiao.enc r)
      | .uncorrectable => ((s.miuUncorrectable c cw e).setTag c cw true).setErr c cw 0
  if FMap.get false (s.ch c).tags cw then s else s.flip c cw

/-- A write of a whole codeword with fresh check bits. -/
def State.writeCw (s : State) (c : Ch) (cw : Nat) : State :=
  let s := if FMap.get 0 (s.ch c).errs cw = 0 then s else s.setErr c cw 0
  let s := if FMap.get false (s.ch c).tags cw then s.setTag c cw false else s
  s.flip c cw

/-! ### Images -/

/-- Number of image words: the bit image's 0x2000 and the word image's 0x4000. -/
def Img.size : Nat := 0x6000
/-- Image word of a bit address and of a word address. -/
def Img.ofBit (b : Nat) : Nat := b / 32
def Img.ofWord (w : Nat) : Nat := 0x2000 + w
/-- The image word lies in the bit image. -/
def Img.isBit (i : Nat) : Bool := i < 0x2000

/-- Codeword of an image word in a copy: the master copy, or a lane's replica. -/
def Img.cw (copy : Option Nat) (i : Nat) : Nat :=
  match copy with
  | none => Miu.cwMaster i
  | some l => Miu.cwLane l i

def Chan.lane (h : Chan) (l : Nat) : LaneSt := FMap.get LaneSt.init h.lanes l

def State.lane' (s : State) (c : Ch) (l : Nat) : LaneSt := (s.ch c).lane l

def State.modLane (s : State) (c : Ch) (l : Nat) (f : LaneSt → LaneSt) : State :=
  s.modCh c fun h => { h with lanes := FMap.set LaneSt.init h.lanes l (f (h.lane l)) }

/-- The ideal word of a copy: a replica shows the lane's own stores of this phase over the master copy (R80). -/
def State.ideal (s : State) (c : Ch) (copy : Option Nat) (i : Nat) : Word :=
  let h := s.ch c
  match copy with
  | none => FMap.get 0 h.img i
  | some l => (FMap.get none (h.lane l).own i).getD (FMap.get 0 h.img i)

/-- One half of 64 bits. -/
def halfOf (d : BitVec 64) (i : Nat) : Word := d.extractLsb' (32 * (i % 2)) 32

/-- A read of an image word through the memory code: its value and its poison flag (R130, R209). -/
def State.readImg (s : State) (c : Ch) (copy : Option Nat) (i : Nat) : Psn Word × State :=
  let cw := Img.cw copy i
  let (r, s) := s.readMapCw c cw
  (⟨s.ideal c copy i ^^^ halfOf r i, FMap.get false (s.ch c).pmap (Miu.pkey cw i)⟩, s)

/-- Set only the poison bit of an image word. -/
def State.markImg (s : State) (c : Ch) (copy : Option Nat) (i : Nat) (p : Bool) : State :=
  s.setPsn c (Miu.pkey (Img.cw copy i) i) p

/-- A store of an image word with its poison flag. -/
def State.storeImg (s : State) (c : Ch) (copy : Option Nat) (i : Nat) (v : Psn Word) : State :=
  let s := s.writeMapHalf c (Img.cw copy i) i
  let s := match copy with
    | none => s.modCh c fun h => { h with img := FMap.set 0 h.img i v.v }
    | some l => s.modLane c l fun ln => { ln with own := FMap.set none ln.own i (some v.v) }
  s.markImg c copy i v.p

/-- The sixteen lane numbers. -/
def lanes16 : List Nat := [0, 1, 2, 3, 4, 5, 6, 7, 8, 9, 10, 11, 12, 13, 14, 15]

/-- A write of the same word into the master copy and every replica. With `orPsn` the poison flag of each copy is kept
where the word is clean (a bit store into a poisoned word, R130). -/
def State.storeAll (s : State) (c : Ch) (i : Nat) (v : Psn Word) (orPsn : Bool) : State :=
  let p := fun (s : State) (copy : Option Nat) =>
    v.p || (orPsn && FMap.get false (s.ch c).pmap (Miu.pkey (Img.cw copy i) i))
  let s := foldSt lanes16 (fun l s =>
    (s.writeMapHalf c (Miu.cwLane l i) i).markImg c (some l) i (p s (some l))) s
  let s := s.storeImg c none i ⟨v.v, p s none⟩
  s

/-! ### Timer and counter stores -/

/-- A read of a timer's state word or of a counter's value. -/
def State.readTc (s : State) (c : Ch) (counter : Bool) (t : Nat) : Psn Word × State :=
  let cw := if counter then Miu.cwCounter t else Miu.cwTimer t
  let (r, s) := s.readMapCw c cw
  let h := s.ch c
  let v := FMap.get 0 (if counter then h.counters else h.timers) t
  (⟨v ^^^ halfOf r t, FMap.get false h.pmap (Miu.pkey cw t)⟩, s)

/-- A write of a timer's or counter's state word with its poison flag. -/
def State.storeTc (s : State) (c : Ch) (counter : Bool) (t : Nat) (v : Psn Word) : State :=
  let cw := if counter then Miu.cwCounter t else Miu.cwTimer t
  let s := s.writeMapHalf c cw t
  let s := s.modCh c fun h =>
    if counter then { h with counters := FMap.set 0 h.counters t v.v } else { h with timers := FMap.set 0 h.timers t v.v }
  s.setPsn c (Miu.pkey cw t) v.p

/-- Mark a timer's or counter's state poisoned without a write of its data (R118). -/
def State.markTc (s : State) (c : Ch) (counter : Bool) (t : Nat) : State :=
  s.setPsn c (Miu.pkey (if counter then Miu.cwCounter t else Miu.cwTimer t) t) true

end Sys2Proof.Machine
end

