-- ==== Sys2Proof/Machine/Operands.lean ====
section
/-! DEFINITION. The operand forms of the logic engine (Table 4-2) as reads of a lane's replica, of the timer, counter
and table stores and of the instruction itself, with the poison status a poisoned operand sets (R128, R129). -/

namespace Sys2Proof

/-- The unsigned forms. -/
def ArOp.uns : ArOp → Bool
  | .w u _ => u
  | .imm u _ => u

/-- Table `t` of a bank. -/
def Bank.table (b : Bank) (t : Nat) : Option TableDesc := b.tables.find? fun d => d.num = t

/-- First word of table `t` in the bank's table store: the tables stand in the order of the descriptors. -/
def Bank.tableBase (b : Bank) (t : Nat) : Nat :=
  ((b.tables.takeWhile fun d => d.num ≠ t).map fun d => d.len).foldl (· + ·) 0

/-- Word `i` of a bank's table store, in store order. -/
def Bank.storeWord (b : Bank) (i : Nat) : Word := ((b.tables.map fun d => d.entries).flatten).getD i 0

/-- Preset of a timer in a bank (R94). -/
def Bank.tPreset (b : Bank) (t : Nat) : Nat := ((b.tPresets.find? fun e => e.1 = t).map fun e => e.2).getD 0
/-- Preset of a counter in a bank (R95). -/
def Bank.cPreset (b : Bank) (t : Nat) : Word := ((b.cPresets.find? fun e => e.1 = t).map fun e => e.2).getD 0

/-- The stream of a lane: that of the image, or P − 1 `PHASE` and `END` (R70). -/
def Bank.stream (b : Bank) (l : Nat) : List Word :=
  match b.streams.find? fun e => e.1 = l with
  | some e => e.2
  | none => List.replicate (b.phases - 1) (Rh.encode .phase) ++ [Rh.encode .endp]

end Sys2Proof

namespace Sys2Proof.Machine


/-- Poison status of a lane, and the event bit of its channel, when an operand reads poisoned (R99, R128). -/
def State.laneTook (s : State) (c : Ch) (l : Nat) (p : Bool) : State :=
  if p then (s.modLane c l fun ln => { ln with psn := true }).wrb (Reg.MIU_EVENT_LEN_PSN (Ch.num c)) true else s

/-- Bit `b` of the bit image as lane `l` sees it (form B). -/
def State.laneBit (s : State) (c : Ch) (l : Nat) (b : BitAddr) : Psn Bool × State :=
  let (v, s) := s.readImg c (some l) (Img.ofBit b.toNat)
  (⟨v.v.getLsbD (b.toNat % 32), v.p⟩, s.laneTook c l v.p)

/-- Word `w` of the word image as lane `l` sees it (form W). -/
def State.laneWord (s : State) (c : Ch) (l : Nat) (w : Nat) : Psn Word × State :=
  let (v, s) := s.readImg c (some l) (Img.ofWord w)
  (v, s.laneTook c l v.p)

/-- Operand of a bit logic instruction. -/
def State.bitOp (s : State) (c : Ch) (l : Nat) : BitOp → Psn Bool × State
  | .bit a => s.laneBit c l a
  | .k x => (⟨x, false⟩, s)

/-- Sign extension of form S24. -/
def s24 (x : BitVec 24) : Word := x.signExtend 32
/-- Zero extension of form Z24. -/
def z24 (x : BitVec 24) : Word := x.zeroExtend 32

/-- Operand of arithmetic and compares. -/
def State.arOp (s : State) (c : Ch) (l : Nat) : ArOp → Psn Word × State
  | .w _ a => s.laneWord c l a.toNat
  | .imm u x => (⟨if u then z24 x else s24 x, false⟩, s)

/-- Operand of a word logic instruction. -/
def State.logOp (s : State) (c : Ch) (l : Nat) : LogOp → Psn Word × State
  | .w a => s.laneWord c l a.toNat
  | .i x => (⟨s24 x, false⟩, s)
  | .iu x => (⟨z24 x, false⟩, s)

/-- Shift count: form C5, or the whole of the word in form W (R114). -/
def State.shOp (s : State) (c : Ch) (l : Nat) : ShOp → Psn Word × State
  | .w a => s.laneWord c l a.toNat
  | .c n => (⟨n.setWidth 32, false⟩, s)

/-- Bounds of `LIMIT` (R115): whether unsigned, lower, upper, poisoned. -/
def State.limOp (s : State) (c : Ch) (l : Nat) : LimOp → (Bool × Psn Word × Psn Word) × State
  | .wp u a =>
    let (lo, s) := s.laneWord c l a.toNat
    let (hi, s) := s.laneWord c l (a.toNat + 1)
    ((u, lo, hi), s)
  | .p u lo hi =>
    let x : BitVec 12 → Word := fun v => if u then v.zeroExtend 32 else v.signExtend 32
    ((u, ⟨x lo, false⟩, ⟨x hi, false⟩), s)

/-- Physical bank that runs in a channel. -/
def State.physRun (s : State) (c : Ch) : Nat := s.rd (Reg.LEN_STATUS_BANK_RUN (Ch.num c))

/-- Entry `i` of table `t` through the memory code. -/
def State.tableEntry (s : State) (c : Ch) (b : Bank) (t i : Nat) : Psn Word × State :=
  let at' := b.tableBase t + i
  let pos := at' / 2 * 2
  let d : BitVec 64 := b.storeWord (pos + 1) ++ b.storeWord pos
  let ((r, p), s) := s.readTagCw c (Miu.cwTable (s.physRun c) at') d
  (⟨b.storeWord at' ^^^ halfOf r at', p⟩, s)

/-- Store one bit of a lane's replica with its poison flag: an acting store writes the word, and poison lands whether
or not the store acts (R110, R130, Table 4-9). -/
def State.storeBit (s : State) (c : Ch) (l : Nat) (b : BitAddr) (acts v p : Bool) : State :=
  let i := Img.ofBit b.toNat
  if acts then
    let (w, s) := s.readImg c (some l) i
    let m : Word := BitVec.ofNat 32 (2 ^ (b.toNat % 32))
    s.storeImg c (some l) i ⟨if v then w.v ||| m else w.v &&& ~~~m, w.p || p⟩
  else if p then s.markImg c (some l) i true
  else s

end Sys2Proof.Machine
end

