-- ==== Sys2Proof/Machine/Lane.lean ====
section
/-! DEFINITION. The logic engine: the effect of each of the 51 instructions on its lane (the chapter "Rhathen logic
code"), the fetch (R131), the phase barrier (R81 to R86) and a whole cycle of the running bank. -/

namespace Sys2Proof

/-- The dirty set of one instruction (R82): image words with the mask of the bits named. -/
def LInstr.dirty : LInstr → List (Nat × Word)
  | .out b | .outn b | .set b | .rst b | .redge b | .fedge b => [(Machine.Img.ofBit b.toNat, BitVec.ofNat 32 (2 ^ (b.toNat % 32)))]
  | .stw w => [(Machine.Img.ofWord w.toNat, 0xFFFFFFFF#32)]
  | _ => []

end Sys2Proof

namespace Sys2Proof.Machine

/-! ### Effects on a lane -/

/-- Set BA. -/
def State.setBa (s : State) (c : Ch) (l : Nat) (v p : Bool) : State := s.modLane c l fun ln => { ln with ba := ⟨v, p⟩ }
/-- Set WA. -/
def State.setWa (s : State) (c : Ch) (l : Nat) (v : Word) (p : Bool) : State :=
  s.modLane c l fun ln => { ln with wa := ⟨v, p⟩ }
/-- Set the overflow status where it holds (R128). -/
def State.setOvf (s : State) (c : Ch) (l : Nat) (b : Bool) : State :=
  if b then s.modLane c l fun ln => { ln with ovf := true } else s

/-- Bit logic (R105): BA from BA and the operand; `usesBa` where BA is read. -/
def effBit (usesBa : Bool) (f : Bool → Bool → Bool) (c : Ch) (l : Nat) (x : BitOp) (s : State) : State :=
  let (v, s) := s.bitOp c l x
  let ba := (s.lane' c l).ba
  s.setBa c l (f ba.v v.v) (v.p || (usesBa && ba.p))

def effLd (c : Ch) (l : Nat) (x : BitOp) (s : State) : State := effBit false (fun _ x => x) c l x s
def effLdn (c : Ch) (l : Nat) (x : BitOp) (s : State) : State := effBit false (fun _ x => !x) c l x s
def effAnd (c : Ch) (l : Nat) (x : BitOp) (s : State) : State := effBit true (fun a x => a && x) c l x s
def effAndn (c : Ch) (l : Nat) (x : BitOp) (s : State) : State := effBit true (fun a x => a && !x) c l x s
def effOr (c : Ch) (l : Nat) (x : BitOp) (s : State) : State := effBit true (fun a x => a || x) c l x s
def effOrn (c : Ch) (l : Nat) (x : BitOp) (s : State) : State := effBit true (fun a x => a || !x) c l x s
def effXor (c : Ch) (l : Nat) (x : BitOp) (s : State) : State := effBit true (fun a x => a != x) c l x s

/-- Edges (R106): BA from BA and the marker; with ZE at 1 the previous BA goes into the marker. -/
def effEdge (f : Bool → Bool → Bool) (c : Ch) (l : Nat) (m : BitAddr) (s : State) : State :=
  let (v, s) := s.laneBit c l m
  let ln := s.lane' c l
  let s := s.setBa c l (f ln.ba.v v.v) (ln.ba.p || v.p)
  s.storeBit c l m ln.ze.v ln.ba.v (ln.ba.p || ln.ze.p || v.p)

def effRedge (c : Ch) (l : Nat) (m : BitAddr) (s : State) : State := effEdge (fun a m => a && !m) c l m s
def effFedge (c : Ch) (l : Nat) (m : BitAddr) (s : State) : State := effEdge (fun a m => !a && m) c l m s

/-- `BPUSH` (R108). -/
def effBpush (c : Ch) (l : Nat) (s : State) : State := s.modLane c l fun ln => { ln with bstk := ln.ba :: ln.bstk }

/-- `BOR` and `BAND` (R108): an empty stack cannot be met in a bank the loader accepts (R72); the lane then keeps BA. -/
def effPop (f : Bool → Bool → Bool) (c : Ch) (l : Nat) (s : State) : State :=
  s.modLane c l fun ln =>
    match ln.bstk with
    | [] => ln
    | e :: st => { ln with ba := ⟨f e.v ln.ba.v, e.p || ln.ba.p⟩, bstk := st }

def effBor (c : Ch) (l : Nat) (s : State) : State := effPop (fun p b => p || b) c l s
def effBand (c : Ch) (l : Nat) (s : State) : State := effPop (fun p b => p && b) c l s

/-- `ZON` and `ZON.N` (R109). -/
def effZon (neg : Bool) (c : Ch) (l : Nat) (s : State) : State :=
  s.modLane c l fun ln =>
    { ln with zstk := ln.ze :: ln.zstk, ze := ⟨ln.ze.v && (ln.ba.v != neg), ln.ze.p || ln.ba.p⟩ }

/-- `ZOFF` (R109). -/
def effZoff (c : Ch) (l : Nat) (s : State) : State :=
  s.modLane c l fun ln =>
    match ln.zstk with
    | [] => ln
    | e :: st => { ln with ze := e, zstk := st }

/-- Bit stores (R110): when the store acts, and what it writes. -/
def effStore (acts val : Bool → Bool → Bool) (c : Ch) (l : Nat) (b : BitAddr) (s : State) : State :=
  let ln := s.lane' c l
  s.storeBit c l b (acts ln.ba.v ln.ze.v) (val ln.ba.v ln.ze.v) (ln.ba.p || ln.ze.p)

def effOut (c : Ch) (l : Nat) (b : BitAddr) (s : State) : State := effStore (fun _ _ => true) (fun a z => a && z) c l b s
def effOutn (c : Ch) (l : Nat) (b : BitAddr) (s : State) : State := effStore (fun _ _ => true) (fun a z => !a && z) c l b s
def effSet (c : Ch) (l : Nat) (b : BitAddr) (s : State) : State := effStore (fun a z => a && z) (fun _ _ => true) c l b s
def effRst (c : Ch) (l : Nat) (b : BitAddr) (s : State) : State := effStore (fun a z => a && z) (fun _ _ => false) c l b s

/-- `STW` (R110, R130): a clean acting store clears the destination's poison. -/
def effStw (c : Ch) (l : Nat) (w : WordAddr) (s : State) : State :=
  let ln := s.lane' c l
  let i := Img.ofWord w.toNat
  let p := ln.wa.p || ln.ze.p
  if ln.ze.v then s.storeImg c (some l) i ⟨ln.wa.v, p⟩
  else if p then s.markImg c (some l) i true
  else s

/-- `LDW` (R112). -/
def effLdw (c : Ch) (l : Nat) (w : WordAddr) (s : State) : State :=
  let (v, s) := s.laneWord c l w.toNat
  s.setWa c l v.v v.p

/-- `LDWI` and `LDWI.U` (R112). -/
def effLdwi (c : Ch) (l : Nat) (uns : Bool) (x : BitVec 24) (s : State) : State :=
  s.setWa c l (if uns then z24 x else s24 x) false

/-- `LDWH` (R112). -/
def effLdwh (c : Ch) (l : Nat) (h : BitVec 16) (s : State) : State :=
  let wa := (s.lane' c l).wa
  s.setWa c l (h ++ wa.v.setWidth 16) wa.p

/-- `LDX` (R117): entry WA of the table, or the default and the range status. -/
def effLdx (c : Ch) (l : Nat) (t : BitVec 8) (s : State) : State :=
  let wa := (s.lane' c l).wa
  match (s.ch c).run with
  | none => s
  | some b =>
    match b.table t.toNat with
    | none => s
    | some d =>
      if wa.v.toNat < d.len then
        let (v, s) := s.tableEntry c b t.toNat wa.v.toNat
        (s.laneTook c l v.p).setWa c l v.v (wa.p || v.p)
      else
        (s.modLane c l fun ln => { ln with rng := true }).setWa c l d.dflt wa.p

/-- Arithmetic (R113): WA from WA and the operand, with overflow. -/
def effAr (f : Bool → Word → Word → Word × Bool) (c : Ch) (l : Nat) (x : ArOp) (s : State) : State :=
  let (v, s) := s.arOp c l x
  let wa := (s.lane' c l).wa
  let r := f x.uns wa.v v.v
  (s.setWa c l r.1 (wa.p || v.p)).setOvf c l r.2

def effAdd (c : Ch) (l : Nat) (x : ArOp) (s : State) : State := effAr aluAdd c l x s
def effSub (c : Ch) (l : Nat) (x : ArOp) (s : State) : State := effAr aluSub c l x s
def effMul (c : Ch) (l : Nat) (x : ArOp) (s : State) : State := effAr aluMul c l x s
def effMin (c : Ch) (l : Nat) (x : ArOp) (s : State) : State := effAr aluMin c l x s
def effMax (c : Ch) (l : Nat) (x : ArOp) (s : State) : State := effAr aluMax c l x s

/-- Word logic (R113). -/
def effLog (f : Word → Word → Word) (c : Ch) (l : Nat) (x : LogOp) (s : State) : State :=
  let (v, s) := s.logOp c l x
  let wa := (s.lane' c l).wa
  s.setWa c l (f wa.v v.v) (wa.p || v.p)

def effAndw (c : Ch) (l : Nat) (x : LogOp) (s : State) : State := effLog (· &&& ·) c l x s
def effOrw (c : Ch) (l : Nat) (x : LogOp) (s : State) : State := effLog (· ||| ·) c l x s
def effXorw (c : Ch) (l : Nat) (x : LogOp) (s : State) : State := effLog (· ^^^ ·) c l x s

/-- Shifts (R114). -/
def effShift (f : Word → Nat → Word × Bool) (c : Ch) (l : Nat) (x : ShOp) (s : State) : State :=
  let (v, s) := s.shOp c l x
  let wa := (s.lane' c l).wa
  let r := f wa.v v.v.toNat
  (s.setWa c l r.1 (wa.p || v.p)).setOvf c l r.2

def effShl (c : Ch) (l : Nat) (x : ShOp) (s : State) : State := effShift aluShl c l x s
def effShr (c : Ch) (l : Nat) (x : ShOp) (s : State) : State := effShift aluShr c l x s
def effAsr (c : Ch) (l : Nat) (x : ShOp) (s : State) : State := effShift aluAsr c l x s

/-- `LIMIT` (R115). -/
def effLimit (c : Ch) (l : Nat) (x : LimOp) (s : State) : State :=
  let ((u, lo, hi), s) := s.limOp c l x
  let wa := (s.lane' c l).wa
  s.setWa c l (aluLimit u wa.v lo.v hi.v) (wa.p || lo.p || hi.p)

/-- Compares (R116). -/
def effCmp (f : Int → Int → Bool) (c : Ch) (l : Nat) (x : ArOp) (s : State) : State :=
  let (v, s) := s.arOp c l x
  let wa := (s.lane' c l).wa
  s.setBa c l (f (numOf x.uns wa.v) (numOf x.uns v.v)) (wa.p || v.p)

def effCeq (c : Ch) (l : Nat) (x : ArOp) (s : State) : State := effCmp (fun a b => a == b) c l x s
def effCne (c : Ch) (l : Nat) (x : ArOp) (s : State) : State := effCmp (fun a b => a != b) c l x s
def effClt (c : Ch) (l : Nat) (x : ArOp) (s : State) : State := effCmp (fun a b => decide (a < b)) c l x s
def effCle (c : Ch) (l : Nat) (x : ArOp) (s : State) : State := effCmp (fun a b => decide (a ≤ b)) c l x s
def effCgt (c : Ch) (l : Nat) (x : ArOp) (s : State) : State := effCmp (fun a b => decide (b < a)) c l x s
def effCge (c : Ch) (l : Nat) (x : ArOp) (s : State) : State := effCmp (fun a b => decide (b ≤ a)) c l x s

/-! ### Timers and counters -/

/-- A timer's state in its fields (R94). -/
structure TimerSt where
  e : Nat
  q : Bool
  prev : Bool
  deriving DecidableEq, Repr

/-- Fields of a timer's state word (R94). -/
def timerOf (w : Word) : TimerSt := ⟨(w.extractLsb' 0 24).toNat, w.getLsbD 24, w.getLsbD 25⟩
/-- State word of a timer. -/
def timerWord (t : TimerSt) : Word := BitVec.ofNat 32 (t.e % 2 ^ 24 + bitNat t.q * 2 ^ 24 + bitNat t.prev * 2 ^ 25)

/-- `TON` (R119): new state and result. -/
def timerOn (pt : Nat) (inp : Bool) (t : TimerSt) : TimerSt × Bool :=
  let t := if inp then (if t.e < pt then { t with e := t.e + 1 } else { t with q := true }) else { t with e := 0, q := false }
  ({ t with prev := inp }, t.q)

/-- `TOF` (R119). -/
def timerOff (pt : Nat) (inp : Bool) (t : TimerSt) : TimerSt × Bool :=
  let t :=
    if inp then { t with e := 0, q := true }
    else if t.q then (if t.e < pt then { t with e := t.e + 1 } else { t with q := false })
    else t
  ({ t with prev := inp }, t.q)

/-- `TP` (R119). -/
def timerPulse (pt : Nat) (inp : Bool) (t : TimerSt) : TimerSt × Bool :=
  let t := if !t.q && inp && !t.prev && decide (0 < pt) then { t with q := true, e := 0 } else t
  if t.q then
    let e := t.e + 1
    (⟨e, decide (e < pt), inp⟩, true)
  else ({ t with prev := inp }, false)

/-- WA of a timer variant (R120). -/
def timerWa (k : TVar) (pt : Nat) (t : TimerSt) : Option Word :=
  match k with
  | .plain => none
  | .e => some (BitVec.ofNat 32 t.e)
  | .r => some (BitVec.ofNat 32 pt - BitVec.ofNat 32 t.e)

/-- Set WA where a variant loads it. -/
def State.setWaOpt (s : State) (c : Ch) (l : Nat) (v : Option Word) (p : Bool) : State :=
  match v with
  | none => s
  | some w => s.setWa c l w p

/-- A timer instruction (R118 to R120). With ZE at 0 the state keeps its value, BA takes its output bit, and poison of
BA or ZE still marks it. -/
def effTimer (f : Nat → Bool → TimerSt → TimerSt × Bool) (c : Ch) (l : Nat) (k : TVar) (t : BitVec 12) (s : State) : State :=
  let ln := s.lane' c l
  let (w, s) := s.readTc c false t.toNat
  let s := s.laneTook c l w.p
  let pt := (((s.ch c).run).map fun b => b.tPreset t.toNat).getD 0
  let p := ln.ba.p || ln.ze.p || w.p
  let st := timerOf w.v
  if ln.ze.v then
    let (st, r) := f pt ln.ba.v st
    let s := s.storeTc c false t.toNat ⟨timerWord st, p⟩
    (s.setBa c l r p).setWaOpt c l (timerWa k pt st) p
  else
    let s := if ln.ba.p || ln.ze.p then s.markTc c false t.toNat else s
    (s.setBa c l st.q p).setWaOpt c l (timerWa k pt st) p

def effTon (c : Ch) (l : Nat) (k : TVar) (t : BitVec 12) (s : State) : State := effTimer timerOn c l k t s
def effTof (c : Ch) (l : Nat) (k : TVar) (t : BitVec 12) (s : State) : State := effTimer timerOff c l k t s
def effTp (c : Ch) (l : Nat) (k : TVar) (t : BitVec 12) (s : State) : State := effTimer timerPulse c l k t s

/-- `CTU` on its count (R121): new count and overflow. -/
def countUp (inp : Bool) (v : Word) : Word × Bool :=
  if inp then (if v = 0xFFFFFFFF#32 then (v, true) else (v + 1, false)) else (v, false)
/-- `CTD` on its count (R121). -/
def countDown (inp : Bool) (v : Word) : Word × Bool :=
  if inp then (if v = 0 then (v, true) else (v - 1, false)) else (v, false)

/-- WA of a counter variant (R122). -/
def counterWa (k : CVar) (pv v : Word) : Option Word :=
  match k with
  | .plain => none
  | .v => some v
  | .r => some (pv - v)

/-- A counting instruction (R118, R121, R122); `out` gives BA from the count and the preset. -/
def effCount (f : Bool → Word → Word × Bool) (out : Word → Word → Bool) (c : Ch) (l : Nat) (k : CVar) (t : BitVec 12)
    (s : State) : State :=
  let ln := s.lane' c l
  let (w, s) := s.readTc c true t.toNat
  let s := s.laneTook c l w.p
  let pv := (((s.ch c).run).map fun b => b.cPreset t.toNat).getD 0
  let p := ln.ba.p || ln.ze.p || w.p
  if ln.ze.v then
    let (v, o) := f ln.ba.v w.v
    let s := s.storeTc c true t.toNat ⟨v, p⟩
    ((s.setBa c l (out v pv) p).setWaOpt c l (counterWa k pv v) p).setOvf c l o
  else
    let s := if ln.ba.p || ln.ze.p then s.markTc c true t.toNat else s
    (s.setBa c l (out w.v pv) p).setWaOpt c l (counterWa k pv w.v) p

def effCtu (c : Ch) (l : Nat) (k : CVar) (t : BitVec 12) (s : State) : State :=
  effCount countUp (fun v pv => decide (pv.toNat ≤ v.toNat)) c l k t s
def effCtd (c : Ch) (l : Nat) (k : CVar) (t : BitVec 12) (s : State) : State :=
  effCount countDown (fun v _ => v == 0) c l k t s

/-- `CRES` and `CRES.P` (R121): the count is written back, BA and WA keep their values. -/
def effCres (c : Ch) (l : Nat) (preset : Bool) (t : BitVec 12) (s : State) : State :=
  let ln := s.lane' c l
  let (w, s) := s.readTc c true t.toNat
  let s := s.laneTook c l w.p
  let pv := (((s.ch c).run).map fun b => b.cPreset t.toNat).getD 0
  let p := ln.ba.p || ln.ze.p || w.p
  if ln.ze.v then
    s.storeTc c true t.toNat ⟨if ln.ba.v then (if preset then pv else 0) else w.v, p⟩
  else if ln.ba.p || ln.ze.p then s.markTc c true t.toNat
  else s

/-- `ASSERT` (R124): raised with ZE at 1 when BA is 0 or poisoned, and when ZE is poisoned (Table 4-9). -/
def effAssert (c : Ch) (l : Nat) (a : BitVec 10) (s : State) : State :=
  let ln := s.lane' c l
  if ln.ze.p || (ln.ze.v && (!ln.ba.v || ln.ba.p)) then
    s.modCh c fun h => if h.raised.contains a.toNat then h else { h with raised := h.raised ++ [a.toNat] }
  else s

/-- `NOP` (R123). -/
def effNop (_ : Ch) (_ : Nat) (s : State) : State := s
/-- `PHASE` (R123): the lane waits for the barrier. -/
def effPhase (c : Ch) (l : Nat) (s : State) : State := s.modLane c l fun ln => { ln with wait := .atPhase }
/-- `END` (R123): the lane waits for the final barrier. -/
def effEnd (c : Ch) (l : Nat) (s : State) : State := s.modLane c l fun ln => { ln with wait := .atEnd }

/-! ### Fetch and execution -/

/-- Union of masks in a dirty set. -/
def addDirty (d : FMap Word) (l : List (Nat × Word)) : FMap Word :=
  l.foldl (fun d e => FMap.set 0 d e.1 (FMap.get 0 d e.1 ||| e.2)) d

/-- What the memory code delivers of the codeword that holds word `i` of a lane's stream in the running bank (R209): the difference
of its data from the stream's, whether it is poisoned, and the state after the read. -/
def State.streamCw (s : State) (c : Ch) (l : Nat) (b : Bank) (i : Nat) : (BitVec 64 × Bool) × State :=
  let st := b.stream l
  let pos := i / 2 * 2
  s.readTagCw c (Miu.cwProg (s.physRun c) l i) (st.getD (pos + 1) 0 ++ st.getD pos 0)

/-- The codeword of the lane's next program word is uncorrectable (R131). -/
def State.fetch (s : State) (c : Ch) (l : Nat) : Bool × State :=
  match (s.ch c).run with
  | none => (false, s)
  | some b =>
    let ((_, p), s) := s.streamCw c l b (s.lane' c l).idx
    (p, s)

/-- The instruction that the lane executes next (R68, R209): the next word of its running stream as the memory code delivers it.
Behind a poisoned word it is the instruction of the stream, of which R131 keeps the dirty set and the end of the phase. DESIGN CHOICE
(log 82): a word that a miscorrection turns into an undefined encoding acts as `NOP`. -/
def State.laneNext (s : State) (c : Ch) (l : Nat) : Option LInstr :=
  match (s.ch c).run with
  | none => none
  | some b =>
    let i := (s.lane' c l).idx
    ((b.stream l)[i]?).map fun w =>
      let r := (s.streamCw c l b i).1
      (Rh.decode (if r.2 then w else w ^^^ halfOf r.1 i)).getD .nop

/-- R131: a poisoned program word acts as a `NOP` that poisons BA, WA, ZE and every stack entry; its dirty set is
poisoned at the barrier. A `PHASE` or `END` still closes the phase. -/
def State.poisonedFetch (s : State) (c : Ch) (l : Nat) (i : LInstr) : State :=
  s.laneTook c l true |>.modLane c l fun ln =>
    { ln with
      ba := ⟨ln.ba.v, true⟩, wa := ⟨ln.wa.v, true⟩, ze := ⟨ln.ze.v, true⟩,
      bstk := ln.bstk.map fun e => ⟨e.v, true⟩, zstk := ln.zstk.map fun e => ⟨e.v, true⟩,
      barPsn := ln.barPsn ++ i.dirty.map (·.1),
      wait := match i with
        | .phase => .atPhase
        | .endp => .atEnd
        | _ => ln.wait }

/-- The lane may execute: its channel executes and the lane has not closed its phase (R68, R81). -/
def State.laneReady (s : State) (c : Ch) (l : Nat) : Bool :=
  s.rd (Reg.LEN_STATUS_RUN (Ch.num c)) = 1 && (s.lane' c l).wait = .running

/-- One instruction of a lane: fetch, effect, dirty set, advance (R68, R82, R131). -/
def State.laneDo (s : State) (c : Ch) (l : Nat) (i : LInstr) (eff : State → State) : State :=
  let (p, s) := s.fetch c l
  let s := if p then s.poisonedFetch c l i else eff s
  s.modLane c l fun ln => { ln with idx := ln.idx + 1, cnt := ln.cnt + 1, dirty := addDirty ln.dirty i.dirty }

/-- A lane instruction as a command: without effect while the lane may not execute, and where it is not the next instruction of the
lane's running stream (R68). -/
def State.laneStep (s : State) (c : Ch) (l : Fin 16) (i : LInstr) (eff : State → State) : State :=
  if s.laneReady c l.val && s.laneNext c l.val = some i then s.laneDo c l.val i eff else s

/-- The effect of a decoded program word. -/
def effOf (c : Ch) (l : Nat) : LInstr → State → State
  | .nop => effNop c l
  | .phase => effPhase c l
  | .endp => effEnd c l
  | .assert a => effAssert c l a
  | .ld x => effLd c l x
  | .ldn x => effLdn c l x
  | .and x => effAnd c l x
  | .andn x => effAndn c l x
  | .or x => effOr c l x
  | .orn x => effOrn c l x
  | .xor x => effXor c l x
  | .redge m => effRedge c l m
  | .fedge m => effFedge c l m
  | .bpush => effBpush c l
  | .bor => effBor c l
  | .band => effBand c l
  | .zon neg => effZon neg c l
  | .zoff => effZoff c l
  | .out b => effOut c l b
  | .outn b => effOutn c l b
  | .set b => effSet c l b
  | .rst b => effRst c l b
  | .stw w => effStw c l w
  | .ldw w => effLdw c l w
  | .ldwi u x => effLdwi c l u x
  | .ldwh h => effLdwh c l h
  | .ldx t => effLdx c l t
  | .add x => effAdd c l x
  | .sub x => effSub c l x
  | .mul x => effMul c l x
  | .min x => effMin c l x
  | .max x => effMax c l x
  | .andw x => effAndw c l x
  | .orw x => effOrw c l x
  | .xorw x => effXorw c l x
  | .shl x => effShl c l x
  | .shr x => effShr c l x
  | .asr x => effAsr c l x
  | .limit x => effLimit c l x
  | .ceq x => effCeq c l x
  | .cne x => effCne c l x
  | .clt x => effClt c l x
  | .cle x => effCle c l x
  | .cgt x => effCgt c l x
  | .cge x => effCge c l x
  | .ton k t => effTon c l k t
  | .tof k t => effTof c l k t
  | .tp k t => effTp c l k t
  | .ctu k t => effCtu c l k t
  | .ctd k t => effCtd c l k t
  | .cres pr t => effCres c l pr t

/-! ### The rows of the table: one meaning for each instruction -/

/-- `NOP` (R123). -/
def execNop (c : Ch) (l : Fin 16) (s : State) : Host.Outcome State Fault Refusal :=
  .next (s.laneStep c l .nop (effNop c l.val))

/-- `PHASE` (R123). -/
def execPhase (c : Ch) (l : Fin 16) (s : State) : Host.Outcome State Fault Refusal :=
  .next (s.laneStep c l .phase (effPhase c l.val))

/-- `END` (R123). -/
def execEndp (c : Ch) (l : Fin 16) (s : State) : Host.Outcome State Fault Refusal :=
  .next (s.laneStep c l .endp (effEnd c l.val))

/-- `ASSERT` (R124). -/
def execAssert (c : Ch) (l : Fin 16) (a : BitVec 10) (s : State) : Host.Outcome State Fault Refusal :=
  .next (s.laneStep c l (.assert a) (effAssert c l.val a))

/-- `LD` (R105). -/
def execLd (c : Ch) (l : Fin 16) (x : BitOp) (s : State) : Host.Outcome State Fault Refusal :=
  .next (s.laneStep c l (.ld x) (effLd c l.val x))

/-- `LDN` (R105). -/
def execLdn (c : Ch) (l : Fin 16) (x : BitOp) (s : State) : Host.Outcome State Fault Refusal :=
  .next (s.laneStep c l (.ldn x) (effLdn c l.val x))

/-- `AND` (R105). -/
def execAnd (c : Ch) (l : Fin 16) (x : BitOp) (s : State) : Host.Outcome State Fault Refusal :=
  .next (s.laneStep c l (.and x) (effAnd c l.val x))

/-- `ANDN` (R105). -/
def execAndn (c : Ch) (l : Fin 16) (x : BitOp) (s : State) : Host.Outcome State Fault Refusal :=
  .next (s.laneStep c l (.andn x) (effAndn c l.val x))

/-- `OR` (R105). -/
def execOr (c : Ch) (l : Fin 16) (x : BitOp) (s : State) : Host.Outcome State Fault Refusal :=
  .next (s.laneStep c l (.or x) (effOr c l.val x))

/-- `ORN` (R105). -/
def execOrn (c : Ch) (l : Fin 16) (x : BitOp) (s : State) : Host.Outcome State Fault Refusal :=
  .next (s.laneStep c l (.orn x) (effOrn c l.val x))

/-- `XOR` (R105). -/
def execXor (c : Ch) (l : Fin 16) (x : BitOp) (s : State) : Host.Outcome State Fault Refusal :=
  .next (s.laneStep c l (.xor x) (effXor c l.val x))

/-- `REDGE` (R106). -/
def execRedge (c : Ch) (l : Fin 16) (m : BitAddr) (s : State) : Host.Outcome State Fault Refusal :=
  .next (s.laneStep c l (.redge m) (effRedge c l.val m))

/-- `FEDGE` (R106). -/
def execFedge (c : Ch) (l : Fin 16) (m : BitAddr) (s : State) : Host.Outcome State Fault Refusal :=
  .next (s.laneStep c l (.fedge m) (effFedge c l.val m))

/-- `BPUSH` (R108). -/
def execBpush (c : Ch) (l : Fin 16) (s : State) : Host.Outcome State Fault Refusal :=
  .next (s.laneStep c l .bpush (effBpush c l.val))

/-- `BOR` (R108). -/
def execBor (c : Ch) (l : Fin 16) (s : State) : Host.Outcome State Fault Refusal :=
  .next (s.laneStep c l .bor (effBor c l.val))

/-- `BAND` (R108). -/
def execBand (c : Ch) (l : Fin 16) (s : State) : Host.Outcome State Fault Refusal :=
  .next (s.laneStep c l .band (effBand c l.val))

/-- `ZON` (R109). -/
def execZon (c : Ch) (l : Fin 16) (neg : Bool) (s : State) : Host.Outcome State Fault Refusal :=
  .next (s.laneStep c l (.zon neg) (effZon neg c l.val))

/-- `ZOFF` (R109). -/
def execZoff (c : Ch) (l : Fin 16) (s : State) : Host.Outcome State Fault Refusal :=
  .next (s.laneStep c l .zoff (effZoff c l.val))

/-- `OUT` (R110). -/
def execOut (c : Ch) (l : Fin 16) (b : BitAddr) (s : State) : Host.Outcome State Fault Refusal :=
  .next (s.laneStep c l (.out b) (effOut c l.val b))

/-- `OUTN` (R110). -/
def execOutn (c : Ch) (l : Fin 16) (b : BitAddr) (s : State) : Host.Outcome State Fault Refusal :=
  .next (s.laneStep c l (.outn b) (effOutn c l.val b))

/-- `SET` (R110). -/
def execSet (c : Ch) (l : Fin 16) (b : BitAddr) (s : State) : Host.Outcome State Fault Refusal :=
  .next (s.laneStep c l (.set b) (effSet c l.val b))

/-- `RST` (R110). -/
def execRst (c : Ch) (l : Fin 16) (b : BitAddr) (s : State) : Host.Outcome State Fault Refusal :=
  .next (s.laneStep c l (.rst b) (effRst c l.val b))

/-- `STW` (R110). -/
def execStw (c : Ch) (l : Fin 16) (w : WordAddr) (s : State) : Host.Outcome State Fault Refusal :=
  .next (s.laneStep c l (.stw w) (effStw c l.val w))

/-- `LDW` (R112). -/
def execLdw (c : Ch) (l : Fin 16) (w : WordAddr) (s : State) : Host.Outcome State Fault Refusal :=
  .next (s.laneStep c l (.ldw w) (effLdw c l.val w))

/-- `LDWI` (R112). -/
def execLdwi (c : Ch) (l : Fin 16) (uns : Bool) (x : BitVec 24) (s : State) : Host.Outcome State Fault Refusal :=
  .next (s.laneStep c l (.ldwi uns x) (effLdwi c l.val uns x))

/-- `LDWH` (R112). -/
def execLdwh (c : Ch) (l : Fin 16) (h : BitVec 16) (s : State) : Host.Outcome State Fault Refusal :=
  .next (s.laneStep c l (.ldwh h) (effLdwh c l.val h))

/-- `LDX` (R117). -/
def execLdx (c : Ch) (l : Fin 16) (t : BitVec 8) (s : State) : Host.Outcome State Fault Refusal :=
  .next (s.laneStep c l (.ldx t) (effLdx c l.val t))

/-- `ADD` (R113). -/
def execAdd (c : Ch) (l : Fin 16) (x : ArOp) (s : State) : Host.Outcome State Fault Refusal :=
  .next (s.laneStep c l (.add x) (effAdd c l.val x))

/-- `SUB` (R113). -/
def execSub (c : Ch) (l : Fin 16) (x : ArOp) (s : State) : Host.Outcome State Fault Refusal :=
  .next (s.laneStep c l (.sub x) (effSub c l.val x))

/-- `MUL` (R113). -/
def execMul (c : Ch) (l : Fin 16) (x : ArOp) (s : State) : Host.Outcome State Fault Refusal :=
  .next (s.laneStep c l (.mul x) (effMul c l.val x))

/-- `MIN` (R113). -/
def execMin (c : Ch) (l : Fin 16) (x : ArOp) (s : State) : Host.Outcome State Fault Refusal :=
  .next (s.laneStep c l (.min x) (effMin c l.val x))

/-- `MAX` (R113). -/
def execMax (c : Ch) (l : Fin 16) (x : ArOp) (s : State) : Host.Outcome State Fault Refusal :=
  .next (s.laneStep c l (.max x) (effMax c l.val x))

/-- `CEQ` (R116). -/
def execCeq (c : Ch) (l : Fin 16) (x : ArOp) (s : State) : Host.Outcome State Fault Refusal :=
  .next (s.laneStep c l (.ceq x) (effCeq c l.val x))

/-- `CNE` (R116). -/
def execCne (c : Ch) (l : Fin 16) (x : ArOp) (s : State) : Host.Outcome State Fault Refusal :=
  .next (s.laneStep c l (.cne x) (effCne c l.val x))

/-- `CLT` (R116). -/
def execClt (c : Ch) (l : Fin 16) (x : ArOp) (s : State) : Host.Outcome State Fault Refusal :=
  .next (s.laneStep c l (.clt x) (effClt c l.val x))

/-- `CLE` (R116). -/
def execCle (c : Ch) (l : Fin 16) (x : ArOp) (s : State) : Host.Outcome State Fault Refusal :=
  .next (s.laneStep c l (.cle x) (effCle c l.val x))

/-- `CGT` (R116). -/
def execCgt (c : Ch) (l : Fin 16) (x : ArOp) (s : State) : Host.Outcome State Fault Refusal :=
  .next (s.laneStep c l (.cgt x) (effCgt c l.val x))

/-- `CGE` (R116). -/
def execCge (c : Ch) (l : Fin 16) (x : ArOp) (s : State) : Host.Outcome State Fault Refusal :=
  .next (s.laneStep c l (.cge x) (effCge c l.val x))

/-- `ANDW` (R113). -/
def execAndw (c : Ch) (l : Fin 16) (x : LogOp) (s : State) : Host.Outcome State Fault Refusal :=
  .next (s.laneStep c l (.andw x) (effAndw c l.val x))

/-- `ORW` (R113). -/
def execOrw (c : Ch) (l : Fin 16) (x : LogOp) (s : State) : Host.Outcome State Fault Refusal :=
  .next (s.laneStep c l (.orw x) (effOrw c l.val x))

/-- `XORW` (R113). -/
def execXorw (c : Ch) (l : Fin 16) (x : LogOp) (s : State) : Host.Outcome State Fault Refusal :=
  .next (s.laneStep c l (.xorw x) (effXorw c l.val x))

/-- `SHL` (R114). -/
def execShl (c : Ch) (l : Fin 16) (x : ShOp) (s : State) : Host.Outcome State Fault Refusal :=
  .next (s.laneStep c l (.shl x) (effShl c l.val x))

/-- `SHR` (R114). -/
def execShr (c : Ch) (l : Fin 16) (x : ShOp) (s : State) : Host.Outcome State Fault Refusal :=
  .next (s.laneStep c l (.shr x) (effShr c l.val x))

/-- `ASR` (R114). -/
def execAsr (c : Ch) (l : Fin 16) (x : ShOp) (s : State) : Host.Outcome State Fault Refusal :=
  .next (s.laneStep c l (.asr x) (effAsr c l.val x))

/-- `LIMIT` (R115). -/
def execLimit (c : Ch) (l : Fin 16) (x : LimOp) (s : State) : Host.Outcome State Fault Refusal :=
  .next (s.laneStep c l (.limit x) (effLimit c l.val x))

/-- `TON` (R119). -/
def execTon (c : Ch) (l : Fin 16) (k : TVar) (t : BitVec 12) (s : State) : Host.Outcome State Fault Refusal :=
  .next (s.laneStep c l (.ton k t) (effTon c l.val k t))

/-- `TOF` (R119). -/
def execTof (c : Ch) (l : Fin 16) (k : TVar) (t : BitVec 12) (s : State) : Host.Outcome State Fault Refusal :=
  .next (s.laneStep c l (.tof k t) (effTof c l.val k t))

/-- `TP` (R119). -/
def execTp (c : Ch) (l : Fin 16) (k : TVar) (t : BitVec 12) (s : State) : Host.Outcome State Fault Refusal :=
  .next (s.laneStep c l (.tp k t) (effTp c l.val k t))

/-- `CTU` (R121). -/
def execCtu (c : Ch) (l : Fin 16) (k : CVar) (t : BitVec 12) (s : State) : Host.Outcome State Fault Refusal :=
  .next (s.laneStep c l (.ctu k t) (effCtu c l.val k t))

/-- `CTD` (R121). -/
def execCtd (c : Ch) (l : Fin 16) (k : CVar) (t : BitVec 12) (s : State) : Host.Outcome State Fault Refusal :=
  .next (s.laneStep c l (.ctd k t) (effCtd c l.val k t))

/-- `CRES` (R121). -/
def execCres (c : Ch) (l : Fin 16) (preset : Bool) (t : BitVec 12) (s : State) : Host.Outcome State Fault Refusal :=
  .next (s.laneStep c l (.cres preset t) (effCres c l.val preset t))

/-! ### Signature items -/

/-- Encoding of an item of an image word (Table 6-2). -/
def imgItem (i : Nat) (v : Psn Word) : Word64 :=
  let space : Nat := if Img.isBit i then 1 else 2
  let addr := if Img.isBit i then i else i - 0x2000
  BitVec.ofNat 64 (space * 2 ^ 62 + bitNat v.p * 2 ^ 61 + addr * 2 ^ 32 + v.v.toNat)

/-- Encoding of an item of a timer or counter (Table 6-2). -/
def tcItem (counter : Bool) (t : Nat) (v : Psn Word) : Word64 :=
  BitVec.ofNat 64 (3 * 2 ^ 62 + bitNat v.p * 2 ^ 61 + bitNat counter * 2 ^ 44 + t * 2 ^ 32 + v.v.toNat)

/-- The closing item (Table 6-2). -/
def closingItem (k : Nat) : Word64 := BitVec.ofNat 64 (k % 2 ^ 32)

/-- An item into a channel's accumulator (R167). -/
def State.feed (s : State) (c : Ch) (item : Word64) : State := s.modCh c fun h => { h with acc := crc64Item h.acc item }

/-! ### Forces on images -/

/-- The forces on one image word. -/
def forcesOn (ft : ForceTab) (i : Nat) : List Force :=
  ft.filterMap fun e =>
    match e.2 with
    | some f => if (if f.word then Img.ofWord f.addr else Img.ofBit f.addr) = i then some f else none
    | none => none

/-- A word with the forces on it applied (R145): a word force writes a clean word, a bit force its bit only. DESIGN CHOICE (log 84): of
two forces on one location the one with the higher entry number holds. -/
def applyForces (fs : List Force) (v : Psn Word) : Psn Word :=
  fs.foldl (fun v f =>
    if f.word then ⟨f.value, false⟩
    else
      let m : Word := BitVec.ofNat 32 (2 ^ (f.addr % 32))
      ⟨if f.value.getLsbD 0 then v.v ||| m else v.v &&& ~~~m, v.p⟩) v

/-! ### The barrier -/

/-- Merge one dirty word of a lane into the master copy and every replica, with the forces held (R81 to R86), and feed
the merged word to the signature (R167). -/
def State.mergeWord (s : State) (c : Ch) (ft : ForceTab) (l : Nat) (i : Nat) (mask : Word) : State :=
  let s := if (s.lane' c l).barPsn.contains i then s.markImg c (some l) i true else s
  let (lv, s) := s.readImg c (some l) i
  let (v, s) :=
    if Img.isBit i then
      let (mv, s) := s.readImg c none i
      (⟨(mv.v &&& ~~~mask) ||| (lv.v &&& mask), lv.p || mv.p⟩, s)
    else (lv, s)
  let v := applyForces (forcesOn ft i) v
  let s := s.storeAll c i v (Img.isBit i)
  s.feed c (imgItem i ⟨v.v, FMap.get false (s.ch c).pmap (Miu.pkey (Miu.cwMaster i) i)⟩)

/-- D of a phase: the dirty words of every lane (R83). -/
def Chan.dirtyCount (h : Chan) : Nat := (lanes16.map fun l => (h.lane l).dirty.length).foldl (· + ·) 0

/-- The largest instruction count of a lane in the phase (R69). -/
def Chan.longest (h : Chan) : Nat := (lanes16.map fun l => (h.lane l).cnt).foldl max 0

/-- Clocks of a barrier with D dirty words (R81). -/
def barrierClk (d : Nat) : Nat := 8 + (d + 3) / 4

/-- Merge every lane's dirty words in the order of R84 and clear the overlays. -/
def State.mergeLanes (s : State) (c : Ch) (ft : ForceTab) : State :=
  let s := foldSt lanes16 (fun l s => foldSt (s.lane' c l).dirty (fun e s => s.mergeWord c ft l e.1 e.2) s) s
  s.modCh c fun h => { h with lanes := h.lanes.map fun e => (e.1, { e.2 with own := [], dirty := [], barPsn := [], cnt := 0 }) }

/-- Every lane has executed the instruction that closes the phase (R81); `last` where it is `END`. -/
def Chan.closed (h : Chan) : Bool := lanes16.all fun l => (h.lane l).wait ≠ .running
def Chan.ended (h : Chan) : Bool := lanes16.all fun l => (h.lane l).wait = .atEnd

/-- A phase barrier: merge, clocks, and either the next phase or the end of the program (R81, R85). -/
def State.barrier (s : State) (c : Ch) (ft : ForceTab) : State :=
  let n := Ch.num c
  let h := s.ch c
  let last := h.ended
  let clk := h.clk + h.longest + barrierClk h.dirtyCount
  let s := s.mergeLanes c ft
  let s := s.modCh c fun h => { h with
    clk := clk, lanes := h.lanes.map fun e => (e.1, { e.2 with wait := if last then .atEnd else .running }) }
  if last then (s.wr (Reg.LEN_STATUS_RUN n) 2).wr (Reg.LEN_END_CLK_END_CLK n) clk
  else s.wr (Reg.LEN_STATUS_PHASE n) (s.rd (Reg.LEN_STATUS_PHASE n) + 1)

/-- Phase 0 of a channel (R71): lanes at their start values, statuses clear. -/
def State.startProgram (s : State) (c : Ch) : State :=
  let n := Ch.num c
  let s := s.modCh c fun h => { h with lanes := [], clk := 0, raised := [] }
  (s.wr (Reg.LEN_STATUS_RUN n) 1).wr (Reg.LEN_STATUS_PHASE n) 0

/-- Execute the words that a lane still has, up to and including the next `PHASE` or `END`. -/
def State.runWords (c : Ch) (l : Nat) : List Word → State → State
  | [], s => s
  | _ :: ws, s =>
    let i := (s.laneNext c l).getD .nop
    let s := s.laneDo c l i (effOf c l i)
    match i with
    | .phase | .endp => s
    | _ => State.runWords c l ws s

/-- One phase of every lane, then its barrier. -/
def State.runPhase (s : State) (c : Ch) (b : Bank) (ft : ForceTab) : State :=
  let s := foldSt lanes16 (fun l s => State.runWords c l ((b.stream l).drop (s.lane' c l).idx) s) s
  s.barrier c ft

/-- A whole execution of the running bank, as a chase cycle or a stepped cycle needs it. -/
def State.runPhases (s : State) (c : Ch) (b : Bank) (ft : ForceTab) (n : Nat) : State :=
  foldSt (upTo n) (fun _ s => s.runPhase c b ft) s

end Sys2Proof.Machine
end

