-- ==== Sys2Proof/Machine/Sio.lean ====
section
/-! DEFINITION. Safety inputs and outputs: the sense stages, test-pulse supplies, filters, pairs and acknowledge detector;
the output switches, their tests, latches, field supply groups, timed outputs and sealed switches. -/

namespace Sys2Proof.Machine

/-! ### Access -/

def SioSt.inp (x : SioSt) (c : Ch) (i : Nat) : InStage := FMap.get InStage.init x.ins (Ch.num c * 24 + i)
def SioSt.pr (x : SioSt) (c : Ch) (p : Nat) : PairStage := FMap.get PairStage.init x.pairs (Ch.num c * 12 + p)
def SioSt.ack (x : SioSt) (c : Ch) : AckStage := FMap.get AckStage.init x.acks (Ch.num c)
def SioSt.out (x : SioSt) (o : Nat) : OutSt := FMap.get OutSt.init x.outs o

def State.modSio (s : State) (f : SioSt → SioSt) : State := { s with sio := f s.sio }
def State.setInp (s : State) (c : Ch) (i : Nat) (v : InStage) : State :=
  s.modSio fun x => { x with ins := FMap.set InStage.init x.ins (Ch.num c * 24 + i) v }
def State.setPr (s : State) (c : Ch) (p : Nat) (v : PairStage) : State :=
  s.modSio fun x => { x with pairs := FMap.set PairStage.init x.pairs (Ch.num c * 12 + p) v }
def State.setAck (s : State) (c : Ch) (v : AckStage) : State :=
  s.modSio fun x => { x with acks := FMap.set AckStage.init x.acks (Ch.num c) v }
def State.out (s : State) (o : Nat) : OutSt := s.sio.out o
def State.modOut (s : State) (o : Nat) (f : OutSt → OutSt) : State :=
  s.modSio fun x => { x with outs := FMap.set OutSt.init x.outs o (f (x.out o)) }

/-- Diagnostic of the SIO block for an output. -/
def State.outEvent (s : State) (sev o : Nat) : State := s.diag sev Src.sio (0x100 + o) (0x00900500 + o * 4)

def in24 : List Nat := List.range 24
def pair12 : List Nat := List.range 12
def out12 : List Nat := List.range 12

/-! ### Supply groups -/

/-- Nominal voltage Un of a group in mV. -/
def State.unMv (s : State) (g : Nat) : Nat :=
  match s.rd (Reg.SIO_GROUP_UN g) with
  | 0 => 24000 | 1 => 48000 | 2 => 72000 | _ => 110000

/-- Group of a test-pulse supply and of an output. -/
def groupOfTp (k : Nat) : Nat := k / 2
def groupOfOut (o : Nat) : Nat := o / 6

/-- The group's tests are suspended: from a sag or a trip until the group has recovered (R257 to R259). -/
def State.suspended (s : State) (g : Nat) : Bool := FMap.get false s.sio.susp g

/-! ### Sense stages -/

/-- Class of a current in µA at a sense stage (R233, Table 8-1): 0 broken wire, 1 invalid, 2 open, 3 closed. Each
threshold lies where the stage has it, within its 0.1 mA. -/
def classOf (c : Ch) (i x : Nat) : Nat :=
  let key := Ch.num c * 24 + i
  if x < 400 + min 100 (Config.thrBroken key) then 0
  else if x < 700 + min 100 (Config.thrOpenLow key) then 1
  else if x ≤ 1800 + min 100 (Config.thrOpenHigh key) then 2
  else if x ≤ 3100 + min 100 (Config.thrClosed key) then 1
  else 3

/-- A test sample's verdict on an input: `own` where it lies in a pulse of the input's own supply (R237, R238). -/
def InStage.test (x : InStage) (own fail : Bool) : InStage :=
  let fails := if fail then x.tpFails + 1 else 0
  let fault := x.tpFault || 2 ≤ fails
  { x with
    tpFails := fails, tpFault := fault, fval := x.fval && !fault,
    tpMiss := if own then fail else x.tpMiss,
    tpForeign := if own then x.tpForeign else fail,
    ownOk := if own then (if fail then 0 else x.ownOk + 1) else x.ownOk }

/-- An ordinary sample of an input (R235, R238, R241) with filter length `n`: a foreign pulse still open is judged,
the class taken, value and class filtered, a test-pulse fault held or cleared. -/
def InStage.ordinary (x : InStage) (cls uA n : Nat) : InStage :=
  let x := if x.forPend then { (x.test false (800 ≤ uA)) with forPend := false } else x
  let raw : Bool := cls = 3
  let vCnt := if raw = x.fval then 0 else x.vCnt + 1
  let take := n ≤ vCnt && vCnt ≠ 0
  let cCnt := if cls = x.cls then x.cCnt + 1 else 1
  let clear := x.tpFault && 8 ≤ x.ownOk && cls = 2
  let fault := x.tpFault && !clear
  { x with
    cls := cls, ordHigh := 800 ≤ uA, tpFault := fault,
    tpFails := if clear then 0 else x.tpFails,
    ownOk := if x.tpFault then x.ownOk else 0,
    fval := (if take then raw else x.fval) && !fault,
    vCnt := if take then 0 else vCnt,
    cCnt := min cCnt 256,
    fcls := if n ≤ cCnt then cls else x.fcls }

/-- The input's value for the pair rules (R244). -/
def InStage.forPair (x : InStage) : Bool := x.fval && x.fcls ≠ 0 && x.fcls ≠ 1 && !x.tpFault

/-- A pair at an ordinary sample with discrepancy limit `d` (R243). -/
def PairStage.step (p : PairStage) (d : Nat) (a b : Bool) : PairStage :=
  if p.latched then
    let zero := p.sawZero || (!a && !b)
    if zero && a && b then { value := true, disCnt := 0, latched := false, sawZero := false }
    else { value := false, disCnt := if a = b then 0 else p.disCnt, latched := true, sawZero := zero }
  else if a = b then { value := a, disCnt := 0, latched := false, sawZero := false }
  else
    let n := p.disCnt + 1
    { value := false, disCnt := n, latched := d ≤ n, sawZero := false }

/-- The acknowledge detector at an ordinary sample (R263): 100 ms are 400 samples, 3 s are 12,000. -/
def AckStage.step (k : AckStage) (v : Bool) : AckStage :=
  if v then
    let high := k.high + 1
    { low := 0, high := min high 12001, armed := if k.high = 0 then 400 ≤ k.low else k.armed,
      stuck := k.stuck || 12000 < high, pend := k.pend }
  else
    { low := min (k.low + 1) 400, high := 0, armed := false, stuck := false,
      pend := k.pend || (k.armed && 400 ≤ k.high && k.high ≤ 12000) }

/-- A channel's sense stages are powered and out of reset. -/
def State.stageOn (s : State) (c : Ch) : Bool := (s.ch c).st ≠ .reset

/-- Current that reaches an input: none from a supply switched off by overload (R240). -/
def State.inputUa (s : State) (uA : FMap Nat) (c : Ch) (i : Nat) : Nat :=
  let tp := s.rd (Reg.SIO_IN_CFG_TP i)
  if tp ≠ 0 && FMap.get false s.sio.tpOff (tp - 1) then 0 else FMap.get 0 uA (Ch.num c * 24 + i)

/-- The ordinary sample of one channel. -/
def State.ordinaryOf (s : State) (uA : FMap Nat) (c : Ch) : State :=
  if !s.stageOn c then s
  else
    let s := foldSt in24 (fun i s =>
      let x := s.inputUa uA c i
      s.setInp c i ((s.sio.inp c i).ordinary (classOf c i x) x (s.rd (Reg.SIO_IN_CFG_FILTER i)))) s
    let s := foldSt pair12 (fun p s =>
      if s.rdb (Reg.SIO_PAIR_CFG_DECLARED p) then
        s.setPr c p ((s.sio.pr c p).step (s.rd (Reg.SIO_PAIR_CFG_D p)) (s.sio.inp c (2 * p)).forPair
          (s.sio.inp c (2 * p + 1)).forPair)
      else s) s
    s.setAck c ((s.sio.ack c).step (s.sio.pr c 11).value)

/-- The 16 diagnostic bits of an input at a channel (Table 8-6). -/
def State.diagBits (s : State) (c : Ch) (i : Nat) (ack : Bool) : Nat :=
  let x := s.sio.inp c i
  let p := i / 2
  let declared := s.rdb (Reg.SIO_PAIR_CFG_DECLARED p)
  let pr := s.sio.pr c p
  let disLatch := declared && pr.latched
  let use := s.rd (Reg.SIO_IN_CFG_USE i) ≠ 0
  let tp := s.rd (Reg.SIO_IN_CFG_TP i) ≠ 0
  let healthy := use && x.fcls ≠ 0 && x.fcls ≠ 1 && !x.tpFault && !disLatch && !(tp && x.tpMiss)
  bitNat (x.cls = 3) + 2 * bitNat (x.cls = 2) + 4 * bitNat (x.fcls = 0) + 8 * bitNat (x.fcls = 1) +
    16 * bitNat x.tpMiss + 32 * bitNat x.tpForeign + 64 * bitNat x.tpFault +
    128 * bitNat (declared && (s.sio.inp c (2 * p)).forPair ≠ (s.sio.inp c (2 * p + 1)).forPair) +
    256 * bitNat disLatch + 512 * bitNat (ack && p = 11) + 1024 * bitNat (p = 11 && (s.sio.ack c).stuck) +
    2048 * bitNat healthy

/-- The Tc sample of a channel (R48, R245, R263): values, pairs and diagnostics; `ACK` is given once. -/
def State.tcSampleOf (s : State) (c : Ch) : State :=
  if !s.stageOn c then s
  else
    let k := s.sio.ack c
    let si := in24.foldl (fun v i => v + bitNat (s.sio.inp c i).fval * 2 ^ i) 0
    let pr := pair12.foldl (fun v p =>
      v + bitNat (s.rdb (Reg.SIO_PAIR_CFG_DECLARED p) && (s.sio.pr c p).value) * 2 ^ p) 0
    let dg := in24.foldl (fun v i => v + s.diagBits c i k.pend * 2 ^ (16 * i)) 0
    let s := s.modCh c fun h => { h with
      sample := { si := BitVec.ofNat 24 si, pair := BitVec.ofNat 12 pr, diag := BitVec.ofNat 384 dg } }
    s.setAck c { k with pend := false }

/-- R241: a channel's sense stages at the release of P, M or C. -/
def State.resetStages (s : State) (c : Ch) : State :=
  let s := foldSt in24 (fun i s => s.setInp c i InStage.init) s
  let s := foldSt pair12 (fun p s => s.setPr c p PairStage.init) s
  s.setAck c AckStage.init

/-- `ORDINARY_SAMPLE` (R235): every powered sense stage samples, filters and evaluates its pairs. -/
def execOrdinarySample (uA : FMap Nat) (s : State) : Host.Outcome State Fault Refusal :=
  .next (foldSt Ch.all (fun c s => s.ordinaryOf uA c) s)

/-! ### Test-pulse supplies -/

/-- The supplies are driven: the module is neither STANDBY nor ORPHAN (R267). -/
def State.tpDriven (s : State) : Bool := s.md.role = .solo || s.md.role = .active

/-- `HIZ` follows the role. -/
def State.driveTp (s : State) : State := s.wr Reg.SIO_TP_HIZ (if s.tpDriven then 0 else 15)

/-- Intervals of a supply's pulses in a pulse frame (Table 8-3). -/
def tpIntervals (k : Nat) : List Nat := [4 * k + 1, 4 * k + 17]

/-- `TEST_PULSE` (R236): the supply switches off for 200 µs, unless its group's tests are suspended, it is off by
overload or at high impedance. -/
def execTestPulse (k : Fin 4) (s : State) : Host.Outcome State Fault Refusal :=
  .next (if s.tpDriven && !s.suspended (groupOfTp k.val) && !FMap.get false s.sio.tpOff k.val then
      s.modSio fun x => { x with pulses := FMap.set false x.pulses k.val true }
    else s)

/-- A pulse of the supply is under way: its own, or in STANDBY and ORPHAN that of the module that drives the terminals (R236, R267). -/
def State.inPulse (s : State) (k : Nat) : Bool := FMap.get false s.sio.pulses k || !s.tpDriven

/-- One input's test sample in the interval of supply `k` (R237, R239). -/
def State.testInput (s : State) (k : Nat) (uA : FMap Nat) (c : Ch) (i : Nat) : State :=
  let tp := s.rd (Reg.SIO_IN_CFG_TP i)
  if tp = 0 || s.suspended (groupOfTp (tp - 1)) then s
  else
    let x := s.sio.inp c i
    let v := s.inputUa uA c i
    if tp = k + 1 then s.setInp c i (x.test true (400 ≤ v))
    else if v < 400 && x.ordHigh then s.setInp c i { x with forPend := true }
    else s.setInp c i (x.test false false)

/-- `TEST_SAMPLE` (R237): 125 µs into an interval of supply `k`, every input with a test-pulse supply is sampled. A sample in no pulse
neither passes nor fails. -/
def execTestSample (k : Fin 4) (interval : Nat) (uA : FMap Nat) (s : State) : Host.Outcome State Fault Refusal :=
  if (tpIntervals k.val).contains interval then
    let s := if s.inPulse k.val then
        foldSt Ch.all (fun c s => if s.stageOn c then foldSt in24 (fun i s => s.testInput k.val uA c i) s else s) s
      else s
    .next (s.modSio fun x => { x with pulses := FMap.set false x.pulses k.val false })
  else .next s

/-- `TP_OVERLOAD` (R240): held at its limit for more than 10 ms, the supply switches off and `OVL` is set. -/
def execTpOverload (k : Fin 4) (s : State) : Host.Outcome State Fault Refusal :=
  .next ((s.setBit Reg.SIO_TP_OVL k.val).modSio fun x => { x with tpOff := FMap.set false x.tpOff k.val true })

/-- `TP_RETRY` (R240): the supply switches on again; `OVL` stays and its inputs read their real currents. -/
def execTpRetry (k : Fin 4) (s : State) : Host.Outcome State Fault Refusal :=
  .next (if natBit (s.rd Reg.SIO_TP_OVL) k.val then s.modSio fun x => { x with tpOff := FMap.set false x.tpOff k.val false }
    else s)

/-- `TP_RETRY_SUCCESS` (R240): a retry has run for more than 10 ms below the limit, and `OVL` clears. -/
def execTpRetrySuccess (k : Fin 4) (s : State) : Host.Outcome State Fault Refusal :=
  .next (if !FMap.get false s.sio.tpOff k.val then s.clrBit Reg.SIO_TP_OVL k.val else s)

/-! ### Driving the switches -/

/-- The other output of a declared parallel pair (R248). -/
def State.partner (s : State) (o : Nat) : Option Nat :=
  if s.rdb (Reg.SIO_OUT_CFG_PARALLEL o) && 4 ≤ o then some (if o % 2 = 0 then o + 1 else o - 1) else none

def State.latchCode (s : State) (o : Nat) : Nat := s.rd (Reg.SIO_OUT_STAT_LATCH o)

/-- A latch on the output or on its parallel partner holds it off (R246, R248). -/
def State.heldOff (s : State) (o : Nat) : Bool :=
  s.latchCode o ≠ 0 || (match s.partner o with
    | some q => s.latchCode q ≠ 0
    | none => false)

/-- What closes the low side: the DLK or its fallback driver for SO1 to SO4, the second voter otherwise (Table 8-7). -/
def State.lowDrive (s : State) (o : Nat) : Bool :=
  if o < 4 then
    if s.rdb Reg.DLK_STATUS_FALLBACK then natBit (s.rd Reg.DLK_FB_PERMIT) o else natBit (s.rd Reg.DLK_STATUS_OUT) o
  else (s.out o).onLs

/-- PD-F is powered, so its switches can be driven. -/
def State.pdfGood (s : State) : Bool := natBit (s.rd Reg.MOD_DOMAIN_PGOOD) 5

/-- Replace a code-1 latch by its final code (R254), with the outputs wired together with it. -/
def State.classify (s : State) (o code : Nat) (other : List Nat) : State :=
  if s.latchCode o = 1 then
    (s.wr (Reg.SIO_OUT_STAT_LATCH o) code).modOut o fun x => { x with awaited := if code = 3 then some other else none, lowSince := none }
  else s

/-- Output `x` has had its off-pulse, switched off or is latched: another output under classification awaits it no longer, and takes
code 2 when it waits for nothing more (R254). -/
def State.dropAwaited (s : State) (x : Nat) : State :=
  foldSt out12 (fun o s =>
    match (s.out o).awaited with
    | some l =>
      if s.latchCode o = 1 && o ≠ x then
        let l := l.filter (· ≠ x)
        let s := s.modOut o fun y => { y with awaited := some l }
        if l.isEmpty then s.classify o 2 [] else s
      else s
    | none => s) s

/-- A switch of the output may close: the output is in use and no latch, role, loss of power or save holds it open (R246, R253,
R267, R141). -/
def State.mayClose (s : State) (o : Nat) : Bool :=
  s.rdb (Reg.SIO_OUT_CFG_ENABLED o) && !s.heldOff o && s.tpDriven && s.pdfGood && s.rpc.save.isNone

/-- The output is energised but for its tests. -/
def State.isOn (s : State) (o : Nat) : Bool := s.mayClose o && (s.out o).onHs && s.lowDrive o

/-- The low-side switch is closed. An off-pulse opens it, and an off-state check opens that of SO1 to SO4 whatever the DLK commands
(R287). -/
def State.lowClosed (s : State) (o : Nat) : Bool :=
  let x := s.out o
  s.mayClose o && s.lowDrive o && x.pulse ≠ some true && !(o < 4 && x.pulse = none && s.rdb (Reg.SIO_OUT_STAT_CHECK o))

/-- Set the switches and status bits of one output from what drives and what holds it (R246, R253, R267). An output that is off is
awaited no longer (R254). -/
def State.drive (s : State) (o : Nat) : State :=
  let x := s.out o
  let hs := s.mayClose o && x.onHs && x.pulse ≠ some false
  let ls := s.lowClosed o
  let en := hs && ls
  let s := ((s.wrb (Reg.SIO_OUT_STAT_HS o) hs).wrb (Reg.SIO_OUT_STAT_LS o) ls).wrb (Reg.SIO_OUT_STAT_ENERGISED o) en
  if en then s
  else if x.pulse = none then
    (((s.wrb (Reg.SIO_OUT_STAT_OPEN_LOAD o) false).wrb (Reg.SIO_OUT_STAT_IMBAL o) false).wr (Reg.SIO_OUT_STAT_CURRENT o) 0).dropAwaited o
  else s

def State.driveAll (s : State) : State := foldSt out12 (fun o s => s.drive o) s

def State.energised (s : State) (o : Nat) : Bool := s.rdb (Reg.SIO_OUT_STAT_ENERGISED o)

/-- Set the commands of both switches of an output, ending a test that the demand meets (R252); an output that is held open meets no
demand to switch on. -/
def State.command (s : State) (o : Nat) (hs ls : Bool) : State :=
  let x := s.out o
  let toOff := x.pulse ≠ none && !(hs && (o < 4 || ls))
  let toOn := s.rdb (Reg.SIO_OUT_STAT_CHECK o) && x.pulse = none && hs && s.mayClose o
  let s := if toOff || toOn then (s.inc (Reg.SIO_OUT_COUNT_ABORTS o)).wrb (Reg.SIO_OUT_STAT_CHECK o) false else s
  (s.modOut o fun x => { x with onHs := hs, onLs := ls, pulse := if toOff then none else x.pulse }).drive o

/-! ### Latches -/

/-- Latch an output with a code (R253): the first code stands, a further detection is an event of severity 5. A latch
opens both switches of the output and of its parallel partner and ends a hold (R266). -/
def State.latchOut (s : State) (o code : Nat) : State :=
  if s.latchCode o ≠ 0 then s.outEvent 5 o
  else
    let s := (s.wr (Reg.SIO_OUT_STAT_LATCH o) code).inc (Reg.SIO_OUT_COUNT_LATCHES o)
    let s := s.wrb (Reg.SIO_OUT_STAT_HOLD o) false
    let s := s.modOut o fun x => { x with
      causeClear := false, lowSince := none, pulse := none, due := none, failHs := 0, failLs := 0, offHs := 0, offLs := 0 }
    let s := (s.wrb (Reg.SIO_OUT_STAT_CHECK o) false).drive o
    let s := s.outEvent 5 o
    match s.partner o with
    | some q =>
      let s := s.wrb (Reg.SIO_OUT_STAT_HOLD q) false
      (if (s.out q).pulse = none then s
        else (s.modOut q fun x => { x with pulse := none }).wrb (Reg.SIO_OUT_STAT_CHECK q) false).drive q
    | none => s

/-- A code-1 latch and its classification's start (R254): the energised outputs outside the parallel pair are awaited. -/
def State.latchReadback (s : State) (o : Nat) : State :=
  let first := s.latchCode o = 0
  let s := s.latchOut o 1
  if !first then s
  else
    let aw := out12.filter fun q => q ≠ o && s.partner o ≠ some q && s.isOn q
    let s := s.modOut o fun x => { x with awaited := some aw }
    if aw.isEmpty then s.classify o 2 [] else s

/-- The cause of the latch of an output is clear (Table 8-8). -/
def State.causeIsClear (s : State) (o : Nat) : Bool :=
  let low := fun q => match (s.out q).lowSince with
    | some t => t + 100000000 ≤ s.tm.opNs
    | none => false
  match s.latchCode o with
  | 2 => low o
  | 3 => low o && (((s.out o).awaited.getD []).all low)
  | 4 | 5 => true
  | 6 => (s.out o).causeClear
  | 7 => FMap.get 0 s.sio.trip (groupOfOut o) = 0
  | _ => false

def State.unlatch (s : State) (o : Nat) : State :=
  let s := s.wr (Reg.SIO_OUT_STAT_LATCH o) 0
  s.modOut o fun x => { x with
    awaited := none, causeClear := false, lowSince := none, high := 0, failHs := 0, failLs := 0, offHs := 0, offLs := 0 }

/-- R264: clear every latch whose cause is clear; one that is not stays and is recorded at severity 4. The outputs cleared,
as a mask. -/
def State.clearLatches (s : State) : Nat × State :=
  let clr := out12.filter fun o => s.latchCode o ≠ 0 && s.causeIsClear o
  let keep := out12.filter fun o => s.latchCode o ≠ 0 && !s.causeIsClear o
  let s := foldSt clr (fun o s => s.unlatch o) s
  let s := foldSt keep (fun o s => s.outEvent 4 o) s
  (clr.foldl (fun v o => v + 2 ^ o) 0, s)

/-- Report what an acknowledge edge did in `SIO_ACK`. -/
def State.ackReport (s : State) (last cleared : Nat) : State := (s.wr Reg.SIO_ACK_LAST last).wr Reg.SIO_ACK_CLEARED cleared

/-! ### The latch at Tc -/

/-- No target of the output is due or pending. -/
def State.dropDue (s : State) (o : Nat) : State :=
  (s.modOut o fun x => { x with due := none }).wrb (Reg.SIO_OUT_STAT_PEND o) false

/-- R356: with network time invalid a target more than 31 bits away from the local Tc is refused. -/
def State.beyondHorizon (s : State) (t : Nat) : Bool :=
  let d : Int := (t : Int) - (s.tm.tcNs : Int)
  !s.timeValid && (d < -2147483648 || 2147483647 < d)

/-- A target of this cycle falls due at its distance from the Tc, in difference mode on the edge's oscillator (R355, R356). -/
def State.dueAt (s : State) (t : Nat) : Due := ⟨t, t - s.tm.tcNs, !s.timeValid⟩

/-- An output's share of R48 at a Tc: hold (R31), loss of permit (R25, R262), timed target (Table 8-10) or command. -/
def State.latchAtTc (s : State) (o : Nat) : State :=
  let x := s.out o
  let hold := s.rdb (Reg.SIO_OUT_STAT_HOLD o)
  if hold && !(s.outPermit && s.md.ranCycle) then s
  else
    let s := s.wrb (Reg.SIO_OUT_STAT_HOLD o) false
    let off := fun (s : State) => (s.dropDue o).command o false false
    if !s.outPermit || s.md.halted then off s
    else if s.rdb (Reg.SIO_OUT_CFG_TIMED o) then
      let t := x.target / 10000 * 10000
      let tc := s.tm.tcNs
      if !x.targetOk || s.beyondHorizon x.target then off s
      else if t = 0 then
        (s.dropDue o).command o x.stHs x.stLs
      else if t < tc then
        let s := ((s.setBit Reg.SIO_TIMED_LATE_FLAG o).inc Reg.SIO_TIMED_LATE_COUNT).wrb (Reg.SIO_OUT_STAT_PEND o) false
        let s := s.modSio fun x => { x with late := natSet x.late o }
        (s.modOut o fun x => { x with due := none }).command o x.stHs x.stLs
      else if t < tc + s.tbc then
        (s.modOut o fun y => { y with due := some (s.dueAt t), dueHs := x.stHs, dueLs := x.stLs }).wrb (Reg.SIO_OUT_STAT_PEND o) false
      else (s.modOut o fun y => { y with due := none }).wrb (Reg.SIO_OUT_STAT_PEND o) true
    else s.command o x.stHs x.stLs

/-- Latch the voted outputs staged in the previous cycle (R48); what no vote stages anew is the safe state. -/
def State.latchOutputs (s : State) : State :=
  let s := s.modSio fun x => { x with late := 0 }
  let s := foldSt out12 (fun o s => s.latchAtTc o) s
  let s := foldSt out12 (fun o s => s.modOut o fun x => { x with stHs := false, stLs := false, target := 0, targetOk := true }) s
  s.driveAll

/-- The measured voltage of a group at a Tc, in units of 0.1 V: free within what the group's state says of it (R257 to R259). -/
def State.measureGroup (s : State) (g : Nat) : State :=
  let (v, s) := s.take
  let un := s.unMv g / 100
  let within := fun (lo hi : Nat) => lo + v % (hi - lo + 1)
  s.wr (Reg.SIO_GROUP_VOLT g) (match s.rd (Reg.SIO_GROUP_STATE g) with
    | 0 => within (un * 6 / 10) (un * 14 / 10)
    | 1 => if FMap.get false s.sio.ovRide g then within (un * 14 / 10 + 1) 65535 else v % (un * 6 / 10)
    | 4 => if FMap.get 0 s.sio.trip g ≠ 0 then within (un * 7 / 10) (un * 13 / 10) else within (un * 6 / 10) (un * 14 / 10)
    | _ => v)

/-- What the supervisor measures at a Tc: the voltage of each group, and the current of each energised output, which is what its load
draws; both are free values. -/
def State.measure (s : State) : State :=
  let s := if s.pdfGood then foldSt [0, 1] (fun g s => s.measureGroup g) s else s
  foldSt out12 (fun o s =>
    if s.energised o then
      let (v, s) := s.take
      s.wr (Reg.SIO_OUT_STAT_CURRENT o) v
    else s) s

/-- `TIMED_OUTPUT_DUE` (R261): the command staged for a target in this cycle applies at its instant. -/
def execTimedOutputDue (o : Fin 12) (s : State) : Host.Outcome State Fault Refusal :=
  let x := s.out o.val
  match x.due with
  | none => .next s
  | some _ =>
    let s := s.modOut o.val fun y => { y with due := none }
    .next ((s.wrb (Reg.SIO_OUT_STAT_PEND o.val) false).command o.val (x.dueHs && s.outPermit) (x.dueLs && s.outPermit))

/-! ### Off-pulses and off-state checks -/

/-- A measured voltage of a group. -/
def State.setVolt (s : State) (g mV : Nat) : State := s.wr (Reg.SIO_GROUP_VOLT g) (mV / 100)

/-- Pulse period L in basic cycles of an output (R249). -/
def State.pulseL (s : State) (o : Nat) : Nat := 64000000 * 2 ^ s.rd (Reg.SIO_OUT_CFG_PERIOD o) / s.tbc

/-- `OFF_PULSE` (R249): in the output's cycle of its pulse period, the switch of the side named opens. -/
def execOffPulse (o : Fin 12) (low : Bool) (s : State) : Host.Outcome State Fault Refusal :=
  .next (if s.energised o.val && (s.out o.val).pulse = none && !s.suspended (groupOfOut o.val) &&
        s.tm.cyc % s.pulseL o.val = 2 * o.val + bitNat low then
      ((s.modOut o.val fun x => { x with pulse := some low }).wrb (Reg.SIO_OUT_STAT_CHECK o.val) true).drive o.val
    else s)

/-- SOn+ of the outputs under classification, sampled in a high-side off-pulse of output `x` (R254). -/
def State.judgeWired (s : State) (x : Nat) (plus : FMap Nat) : State :=
  let wired := out12.filter fun o => s.latchCode o = 1 && ((s.out o).awaited.getD []).contains x &&
    FMap.get 0 plus o * 5 < s.unMv (groupOfOut o)
  let s := foldSt wired (fun o s => s.classify o 3 [x]) s
  let s := if wired.isEmpty then s
    else (if s.latchCode x = 0 then s.latchOut x 3 else s.outEvent 5 x).modOut x fun y => { y with awaited := some wired }
  s.dropAwaited x

/-- `OFF_PULSE_END` (R250, R254): passed when the voltage across the opened switch exceeded half the group's voltage; two
consecutive failures of a side latch. -/
def execOffPulseEnd (o : Fin 12) (low : Bool) (v : PulseVolts) (plus : FMap Nat) (s : State) : Host.Outcome State Fault Refusal :=
  let n := o.val
  if (s.out n).pulse ≠ some low then .next s
  else
    let pass : Bool := v.groupMv < v.mV * 2
    let s := (((s.setVolt (groupOfOut n) v.groupMv).modOut n fun x => { x with pulse := none }).wrb (Reg.SIO_OUT_STAT_CHECK n) false).drive n
    let s := s.modOut n fun x =>
      if low then { x with failLs := if pass then 0 else x.failLs + 1 } else { x with failHs := if pass then 0 else x.failHs + 1 }
    let s := if pass then s else s.inc (Reg.SIO_OUT_COUNT_FAILS n)
    let s := if low then s else s.judgeWired n plus
    let x := s.out n
    .next (if low && 2 ≤ x.failLs then s.latchOut n 5 else if !low && 2 ≤ x.failHs then s.latchOut n 4 else s)

/-- `OFF_STATE_CHECK` (R251, R287): the check of an output that is off begins; the low side of SO1 to SO4 opens for it. -/
def execOffStateCheck (o : Fin 12) (s : State) : Host.Outcome State Fault Refusal :=
  .next (if !s.rdb (Reg.SIO_OUT_STAT_HS o.val) && !s.suspended (groupOfOut o.val) && (s.out o.val).pulse = none then
      let s := s.wrb (Reg.SIO_OUT_STAT_CHECK o.val) true
      if o.val < 4 then s.wrb (Reg.SIO_OUT_STAT_LS o.val) false else s
    else s)

/-- The output whose command bit an output follows (R248). -/
def State.leader (s : State) (o : Nat) : Nat := match s.partner o with
  | some q => min o q
  | none => o

/-- R267 at the Tc that ends a cycle: a standby's readback of an output against the active's voted output, outside the active's
off-pulse cycles. A readback comes with each off-state check. -/
def State.standbyReadback (s : State) (o : Nat) : State :=
  let l := s.pulseL o
  let k := s.tm.cyc - 1
  match (s.out o).rb with
  | none => s
  | some on =>
    if k % l = 2 * o || k % l = 2 * o + 1 then s
    else
      let d := if on = s.sio.twinOut.getLsbD (s.leader o) then 0 else (s.out o).cmpDiff + 1
      let s := s.modOut o fun x => { x with cmpDiff := d }
      if d = 3 then s.outEvent 4 o else s

/-- The comparison of every output, in a role that holds the switches open, with a snapshot of the active. -/
def State.standbyAtTc (s : State) : State :=
  if s.tpDriven || s.twn.held.isNone || !s.pdfGood then s else foldSt out12 (fun o s => s.standbyReadback o) s

/-- `OFF_STATE_CHECK_END` (R251, R560, R267): blocking and driver results of both sides and the voltage at SOn+. -/
def execOffStateCheckEnd (o : Fin 12) (hsOk lsOk : Bool) (mvPlus : Nat) (s : State) : Host.Outcome State Fault Refusal :=
  let n := o.val
  if !s.rdb (Reg.SIO_OUT_STAT_CHECK n) || (s.out n).pulse ≠ none then .next s
  else
    let un := s.unMv (groupOfOut n)
    let high := un ≤ mvPlus * 2
    let own := s.tpDriven
    let s := s.wrb (Reg.SIO_OUT_STAT_CHECK n) false
    let s := if n < 4 then s.wrb (Reg.SIO_OUT_STAT_LS n) (s.lowClosed n) else s
    let both : Bool := high && (s.out n).rb = some true
    let s := s.modOut n fun x => { x with
      rb := some high, offHs := if hsOk then 0 else x.offHs + 1, offLs := if lsOk then 0 else x.offLs + 1,
      high := if high && own then x.high + 1 else 0,
      lowSince := if mvPlus * 10 < un then (match x.lowSince with
        | some t => some t
        | none => some s.tm.opNs) else none }
    let s := if hsOk && lsOk && !(high && own) then s else s.inc (Reg.SIO_OUT_COUNT_FAILS n)
    let x := s.out n
    let s := if own && 2 ≤ x.high then (s.latchReadback n).modOut n fun y => { y with high := 0, offHs := 0 }
      else if 2 ≤ x.offHs && (own || !both) then (s.latchOut n 4).modOut n fun y => { y with offHs := 0 }
      else s
    .next (if 2 ≤ x.offLs then (s.latchOut n 5).modOut n fun y => { y with offLs := 0 } else s)

/-! ### Overcurrent and warnings -/

/-- `OVERCURRENT` (R253): the output opens with code 6; for a parallel pair both latch. -/
def execOvercurrent (o : Fin 12) (_inst : Bool) (s : State) : Host.Outcome State Fault Refusal :=
  let q := s.partner o.val
  let s := s.latchOut o.val 6
  .next (match q with
    | some q => s.latchOut q 6
    | none => s)

/-- `OVERCURRENT_CLEAR` (R253): 1 s after opening, the cause of code 6 is clear. -/
def execOvercurrentClear (o : Fin 12) (s : State) : Host.Outcome State Fault Refusal :=
  .next (if s.latchCode o.val = 6 then s.modOut o.val fun x => { x with causeClear := true } else s)

/-- `OPEN_LOAD_WARNING` (R255): an energised output's open-load warning, or the imbalance warning of its parallel pair. -/
def execOpenLoadWarning (o : Fin 12) (imbalance : Bool) (s : State) : Host.Outcome State Fault Refusal :=
  .next (if !s.energised o.val then s
    else if !imbalance then s.wrb (Reg.SIO_OUT_STAT_OPEN_LOAD o.val) true
    else match s.partner o.val with
      | some q => (s.wrb (Reg.SIO_OUT_STAT_IMBAL o.val) true).wrb (Reg.SIO_OUT_STAT_IMBAL q) true
      | none => s)

/-! ### Field supplies -/

def outsOf (g : Nat) : List Nat := out12.filter fun o => groupOfOut o = g

/-- End of the tests in progress in a group, neither passed nor failed (R257). -/
def State.suspendTests (s : State) (g : Nat) : State :=
  foldSt (outsOf g) (fun o s =>
    if s.rdb (Reg.SIO_OUT_STAT_CHECK o) then
      ((s.wrb (Reg.SIO_OUT_STAT_CHECK o) false).modOut o fun x => { x with pulse := none }).drive o
    else s) s

/-- A group with the voltage `mV`: below 0.6 Un the tests are suspended and the ride starts, above 1.4 Un a ride starts with the
tests going on, in between a ride ends with nothing latched; a tripped group recovers from 0.7 Un to 1.3 Un (R257 to R259). A group
whose tests a ride has suspended is recovering until R258 resumes them. -/
def State.groupVoltage (s : State) (g mV : Nat) : State :=
  let un := s.unMv g
  let s := s.setVolt g mV
  let trip := FMap.get 0 s.sio.trip g
  let ride := fun (s : State) (st : Nat) (ov : Bool) =>
    (s.wr (Reg.SIO_GROUP_STATE g) st).modSio fun x => { x with ovRide := FMap.set false x.ovRide g ov }
  if trip ≠ 0 then s.wr (Reg.SIO_GROUP_STATE g) (if un * 7 ≤ mV * 10 && mV * 10 ≤ un * 13 then 4 else trip)
  else if mV * 10 < un * 6 then
    ((ride s 1 false).modSio fun x => { x with susp := FMap.set false x.susp g true }).suspendTests g
  else if un * 14 < mV * 10 then ride s 1 true
  else ride s (if s.suspended g then 4 else 0) false

/-- Trip a group (R257 step 3, R259): every output opens with code 7. -/
def State.tripGroup (s : State) (g st : Nat) : State :=
  let s := s.wr (Reg.SIO_GROUP_STATE g) st
  let s := s.modSio fun x => { x with
    ovRide := FMap.set false x.ovRide g false, susp := FMap.set false x.susp g true, trip := FMap.set 0 x.trip g st,
    autoClr := FMap.set false x.autoClr g false }
  foldSt (outsOf g) (fun o s => s.latchOut o 7) s

/-- `GROUP_SAG` (R257): the group's voltage falls below 0.6 Un. -/
def execGroupSag (g : Fin 2) (mV : Nat) (s : State) : Host.Outcome State Fault Refusal := .next (s.groupVoltage g.val mV)

/-- `GROUP_TRIP` (R257): after 10 ms below 0.6 Un, every output of the group opens with code 7. -/
def execGroupTrip (g : Fin 2) (s : State) : Host.Outcome State Fault Refusal :=
  .next (if s.rd (Reg.SIO_GROUP_STATE g.val) = 1 && !FMap.get false s.sio.ovRide g.val then s.tripGroup g.val 2 else s)

/-- `GROUP_OVERVOLTAGE` (R259): above 1.4 Un the ride starts with the tests continuing; one that has `lasted` 10 ms trips. -/
def execGroupOvervoltage (g : Fin 2) (mV : Nat) (lasted : Bool) (s : State) : Host.Outcome State Fault Refusal :=
  .next (if lasted && s.unMv g.val * 14 < mV * 10 then ((s.setVolt g.val mV).suspendTests g.val).tripGroup g.val 3
    else s.groupVoltage g.val mV)

/-- `GROUP_VOLTAGE_RETURN` (R257 to R259): a ride ends with nothing latched, or a tripped group starts to recover. -/
def execGroupVoltageReturn (g : Fin 2) (mV : Nat) (s : State) : Host.Outcome State Fault Refusal := .next (s.groupVoltage g.val mV)

/-- `GROUP_RECOVERED` (R258): after 100 ms in range the tests resume; auto-resume outputs clear at the next Tc. -/
def execGroupRecovered (g : Fin 2) (s : State) : Host.Outcome State Fault Refusal :=
  .next (if s.rd (Reg.SIO_GROUP_STATE g.val) = 4 then
      (s.wr (Reg.SIO_GROUP_STATE g.val) 0).modSio fun x => { x with
        susp := FMap.set false x.susp g.val false, trip := FMap.set 0 x.trip g.val 0, ovRide := FMap.set false x.ovRide g.val false,
        autoClr := FMap.set false x.autoClr g.val true }
    else s)

/-- R258 at a Tc: code 7 clears on the outputs of SO5 to SO12 configured for automatic resumption. -/
def State.autoResume (s : State) : State :=
  foldSt [0, 1] (fun g s =>
    if FMap.get false s.sio.autoClr g then
      let s := s.modSio fun x => { x with autoClr := FMap.set false x.autoClr g false }
      foldSt (outsOf g) (fun o s =>
        if 4 ≤ o && s.latchCode o = 7 && s.rdb (Reg.SIO_OUT_CFG_AUTO_RESUME o) then s.unlatch o else s) s
    else s) s

/-! ### Sealed switches -/

/-- Majority of three bit by bit. -/
def maj3 (a b c : BitVec n) : BitVec n := (a &&& b) ||| (a &&& c) ||| (b &&& c)

/-- `SWITCH_REREAD` (R271): the readings of the three channels; a change of the majority is reported and takes effect
only at the next release of P or M. -/
def execSwitchReread (readings : Per3 (BitVec 22)) (s : State) : Host.Outcome State Fault Refusal :=
  let m := maj3 readings.a readings.b readings.c
  let changed := m ≠ s.sio.swLast
  let s := s.modSio fun x => { x with swRead := readings, swLast := m }
  .next (if changed then (s.wrb Reg.SIO_SWITCH_CHANGED true).diag 5 Src.sio 0xFFF 0x00900710 else s)

end Sys2Proof.Machine
end

