-- ==== Sys2Proof/Machine/Dlk.lean ====
section
/-! DEFINITION. The Door Loop Keeper: inputs and pairs, the equations of Table 9-3, the interlock with SO3, lockout,
off-times, self-test, faults and the fallback driver. -/

namespace Sys2Proof.Machine

def State.modDlk (s : State) (f : DlkSt → DlkSt) : State := { s with dlk := f s.dlk }
def DlkSt.pr (x : DlkSt) (p : Nat) : DlkPair := FMap.get DlkPair.init x.pairs p
def State.setDlkPr (s : State) (p : Nat) (v : DlkPair) : State :=
  s.modDlk fun x => { x with pairs := FMap.set DlkPair.init x.pairs p v }

/-- Bit `i` of `SW-D` as latched on rail 0 (Table 9-2). -/
def State.swd (s : State) (i : Nat) : Bool := natBit (s.rd Reg.DLK_CFG_SW_D) i

/-- H of Table 9-3: the start-up test has passed and there is no fault. -/
def State.dlkH (s : State) : Bool := s.dlk.passed && !s.rdb Reg.DLK_STATUS_FAULT

def State.dlkLockout (s : State) : Bool := s.rdb Reg.DLK_STATUS_LOCKOUT

/-- RLC and RRC after the side swap (R280). -/
def State.dlkL (s : State) : Bool := (s.dlk.pr (if s.swd 0 then 3 else 2)).value
def State.dlkR (s : State) : Bool := (s.dlk.pr (if s.swd 0 then 2 else 3)).value

/-- The release term of SO1 or SO2 (Table 9-3). -/
def State.releaseTerm (s : State) (right : Bool) : Bool :=
  let own := if right then s.dlkR else s.dlkL
  let other := if right then s.dlkL else s.dlkR
  let off := if right then s.dlk.offR else s.dlk.offL
  s.dlkH && (s.dlk.pr 0).value && own && !other && (!s.swd 3 || (s.dlk.pr 4).value) && !s.dlkLockout && !off

/-- The minimum off-time is not 0 (Table 9-2). -/
def State.hasOffTime (s : State) : Bool := s.swd 4 || s.swd 5

/-- SO3's low side reads open. -/
def State.so3ReadsOpen (s : State) : Bool := s.dlk.so3Open

/-- Copy inputs, pairs and conditions into the DLK's registers (R294). -/
def State.dlkRegs (s : State) : State :=
  let x := s.dlk
  let mask := fun (f : DlkPair → Bool) => (List.range 5).foldl (fun v p => v + bitNat (f (x.pr p)) * 2 ^ p) 0
  let s := (s.wr Reg.DLK_PAIR_INPUTS (x.inputs.toNat % 1024)).wr Reg.DLK_PAIR_ACK_IN (x.inputs.toNat / 1024)
  let s := (s.wr Reg.DLK_PAIR_DISAGREE (mask (·.disagree))).wr Reg.DLK_PAIR_LATCHED (mask (·.latched))
  let s := (s.wrb Reg.DLK_PAIR_ACK_LATCHED (x.pr 5).latched).wr Reg.DLK_STATUS_PAIRS (mask (·.value))
  s.wrb Reg.DLK_STATUS_HEALTHY s.dlkH

/-- Set the four low-side commands and the switches they drive. -/
def State.dlkOut (s : State) (rle rre tpe feed : Bool) : State :=
  let s := s.wr Reg.DLK_STATUS_OUT (bitNat rle + 2 * bitNat rre + 4 * bitNat tpe + 8 * bitNat feed)
  foldSt [0, 1, 2, 3] (fun o s => s.drive o) s

/-- Evaluate the equations (R280 to R282): terms, off-times, the interlock with SO3, and the commands. -/
def State.dlkEval (s : State) : State :=
  let tl := s.releaseTerm false
  let tr := s.releaseTerm true
  let fallL := s.dlk.termL && !tl
  let fallR := s.dlk.termR && !tr
  let s := s.modDlk fun x => { x with
    offL := x.offL || (fallL && s.hasOffTime), offR := x.offR || (fallR && s.hasOffTime), termL := tl, termR := tr }
  let s := if (s.dlk.offL && s.dlkL) || (s.dlk.offR && s.dlkR) then s.wrb Reg.DLK_EVENT_OFF_TIME_BLOCK true else s
  let out := s.rd Reg.DLK_STATUS_OUT
  let open3 := s.so3ReadsOpen
  let rle := tl && (natBit out 0 || open3)
  let rre := tr && (natBit out 1 || open3)
  let tpe := s.dlkH && (s.dlk.pr 1).value && !tl && !tr
  let s := if rle && !natBit out 0 then s.incWrap Reg.DLK_RELEASES_LEFT else s
  let s := if rre && !natBit out 1 then s.incWrap Reg.DLK_RELEASES_RIGHT else s
  let s := s.modDlk fun x => { x with so3Open := x.so3Open && !tpe }
  (s.dlkOut rle rre tpe (s.dlkH && !s.dlkLockout)).dlkRegs

/-- Enter lockout with a cause (R283). -/
def State.dlkLock (s : State) (cause : Nat) : State :=
  if s.dlkLockout then s
  else ((s.wrb Reg.DLK_STATUS_LOCKOUT true).wr Reg.DLK_STATUS_LOCK_CAUSE cause).wrb Reg.DLK_EVENT_LOCKOUT_SET true

/-- Enter DLK fault (R286): the first code stands, the low sides open, and the fallback driver is to connect at the
second Tc where it is permitted (R288). In fault 5 no parameter applies (R277). -/
def State.dlkFaultSet (s : State) (code : Nat) : State :=
  if s.rdb Reg.DLK_STATUS_FAULT then s
  else
    let s := ((s.wrb Reg.DLK_STATUS_FAULT true).wr Reg.DLK_STATUS_FAULT_CODE code).wrb Reg.DLK_EVENT_FAULT_SET true
    let s := s.modDlk fun x => { x with fbWait := if s.swd 6 && code ≠ 5 then some 2 else none }
    (s.dlkEval).diag 6 Src.dlk 0 0x00A00000

/-- The DLK's input values after its threshold stages (R275): 1 above 3.2 mA, for the inputs whose current is given. -/
def dlkStage (old : BitVec 12) (uA : FMap Nat) : BitVec 12 :=
  uA.foldl (fun v e =>
    let m := BitVec.ofNat 12 (2 ^ e.1)
    if 3200 < e.2 then v ||| m else v &&& ~~~m) old

/-- The acknowledge detector at an input change `sinceNs` after the last one (R263, R284); `old` is what pair 12 read before. -/
def DlkSt.ackTick (x : DlkSt) (old : Bool) (sinceNs : Nat) : DlkSt :=
  let run := x.ackRun + sinceNs
  match old, (x.pr 5).value with
  | false, true => { x with ackRun := 0, ackLow := run, ackHigh := none }
  | true, false => { x with ackRun := 0, ackHigh := some run }
  | _, _ => { x with ackRun := run }

/-- `DLK_INPUT_CHANGE` (R275, R276): threshold stages that held their outputs for 1.0 ms. The DLK takes the new values and evaluates
the pairs at once. -/
def execDlkInputChange (v : DlkSense) (s : State) : Host.Outcome State Fault Refusal :=
  if !s.pdfGood || v.heldNs < 1000000 then .next s
  else
    let old := (s.dlk.pr 5).value
    let since := v.sinceNs
    let v := dlkStage s.dlk.inputs v.uA
    let s := s.modDlk fun x => { x with inputs := v }
    let s := foldSt (List.range 6) (fun p s =>
      let a := v.getLsbD (2 * p)
      let b := v.getLsbD (2 * p + 1)
      let q := s.dlk.pr p
      let zero := q.sawZero || (!a && !b)
      s.setDlkPr p (
        if q.latched then
          if zero && a && b then { value := true, disagree := false, latched := false, sawZero := false }
          else { value := false, disagree := a != b, latched := true, sawZero := zero }
        else { value := a && b, disagree := a != b, latched := false, sawZero := false })) s
    .next (s.modDlk fun x => x.ackTick old since).dlkEval

/-- `DLK_DISCREPANCY` (R276, R283): a disagreement has lasted T_D; pairs 1 to 5 enter lockout. -/
def execDlkDiscrepancy (p : Fin 6) (s : State) : Host.Outcome State Fault Refusal :=
  let q := s.dlk.pr p.val
  if !s.pdfGood || !q.disagree || q.latched then .next s
  else
    let s := s.setDlkPr p.val { value := false, disagree := true, latched := true, sawZero := false }
    .next (if p.val < 5 then (s.dlkLock 1).dlkEval else (s.modDlk fun x => { x with ackHigh := none }).dlkEval)

/-- `DLK_BOTH_RELEASE` (R283): RLC and RRC both at 1 for T_D. -/
def execDlkBothRelease (s : State) : Host.Outcome State Fault Refusal :=
  .next (if s.pdfGood && (s.dlk.pr 2).value && (s.dlk.pr 3).value then (s.dlkLock 2).dlkEval else s)

/-- `DLK_ACK_EDGE` (R263, R284): the detector judges the high of the DLK's pair 12 that has ended. An edge of the timing of R263 leaves
lockout, or is ignored where a condition is unmet. -/
def execDlkAckEdge (s : State) : Host.Outcome State Fault Refusal :=
  match s.dlk.ackHigh with
  | none => .next s
  | some high =>
    if !s.pdfGood || (s.dlk.pr 5).value || (s.dlk.pr 5).latched then .next s
    else
      let s := s.modDlk fun x => { x with ackHigh := none }
      let free := ((List.range 5).all fun p => !(s.dlk.pr p).latched) && !((s.dlk.pr 2).value && (s.dlk.pr 3).value)
      .next (if s.dlk.ackLow < 100000000 || high < 100000000 || 3000000000 < high then s
        else if !free then s.wrb Reg.DLK_EVENT_ACK_IGNORED true
        else if s.dlkLockout then
          ((s.wrb Reg.DLK_STATUS_LOCKOUT false).wrb Reg.DLK_EVENT_LOCKOUT_CLEARED true).dlkEval
        else s)

/-- `DLK_OFF_TIME_EXPIRY` (R281): the output may close again if its equation then holds. -/
def execDlkOffTimeExpiry (right : Bool) (s : State) : Host.Outcome State Fault Refusal :=
  if !s.pdfGood then .next s
  else .next (s.modDlk fun x => if right then { x with offR := false } else { x with offL := false }).dlkEval

/-- `DLK_SO3_READBACK_OPEN` (R282): SO3's low side, commanded open, reads open; a waiting release closes. -/
def execDlkSo3ReadbackOpen (s : State) : Host.Outcome State Fault Refusal :=
  if s.pdfGood && !natBit (s.rd Reg.DLK_STATUS_OUT) 2 then
    .next (s.modDlk fun x => { x with so3Open := true }).dlkEval
  else .next s

/-- `DLK_STARTUP_TEST` (R285): after `LOAD_DONE` of PD-F, with the low-side drivers disconnected. -/
def execDlkStartupTest (s : State) : Host.Outcome State Fault Refusal :=
  if s.pdfGood && natBit (s.rd Reg.RPC_LOAD_LOAD_DONE) 5 && s.rd Reg.DLK_TEST_STARTUP = 0 then
    .next ((s.wr Reg.DLK_TEST_STARTUP 1).wrb Reg.DLK_STATUS_TESTING true)
  else .next s

/-- `DLK_STARTUP_TEST_DONE` (R285): passed, or failed at a first combination with fault code 1; both off-times start. -/
def execDlkStartupTestDone (failedVector : Option (BitVec 8)) (s : State) : Host.Outcome State Fault Refusal :=
  if s.rd Reg.DLK_TEST_STARTUP ≠ 1 then .next s
  else
    let s := s.wrb Reg.DLK_STATUS_TESTING false
    let s := s.modDlk fun x => { x with offL := s.hasOffTime, offR := s.hasOffTime }
    match failedVector with
    | none => .next ((s.wr Reg.DLK_TEST_STARTUP 2).modDlk fun x => { x with passed := true }).dlkEval
    | some v => .next (((s.wr Reg.DLK_TEST_STARTUP 3).wr Reg.DLK_TEST_FAILED_VECTOR v.toNat).dlkFaultSet 1)

/-- `DLK_CHECKER_TEST` (R286): the rail checker flags both codes, or fault code 3. -/
def execDlkCheckerTest (ok : Bool) (s : State) : Host.Outcome State Fault Refusal :=
  .next (if !s.pdfGood then s
    else if ok then s.inc Reg.DLK_TEST_CHK_PASSES
    else s.dlkFaultSet 3)

/-- A low side of SO1 to SO4 can be read closed while the DLK commands it open, outside an off-pulse and an output latch (Table 9-4). -/
def State.lowSideOpen (s : State) : Bool :=
  [0, 1, 2, 3].any fun o => !natBit (s.rd Reg.DLK_STATUS_OUT) o && (s.out o).pulse = none && !s.heldOff o

/-- `DLK_FAULT` (R286): a fault of Table 9-4 is detected in operation. Codes 1 and 5 belong to the start-up test and to the latching of
`SW-D`; the codes 0 and 6 to 15 name none. -/
def execDlkFault (code : BitVec 4) (s : State) : Host.Outcome State Fault Refusal :=
  .next (if s.pdfGood && (code = 2 || code = 3 || (code = 4 && s.lowSideOpen)) then s.dlkFaultSet code.toNat else s)

/-- The fallback channels: the first two in the vote (R288). -/
def State.fbChannels (s : State) : Option (Ch × Ch) :=
  match s.voters with
  | a :: b :: _ => some (a, b)
  | _ => none

/-- The fallback driver at a Tc (R288, R291): it connects at the second Tc after the fault and then follows the permits
staged in the last cycle; through a hold after a warm reset its values stay. -/
def State.fallbackAtTc (s : State) : State :=
  let s := match s.dlk.fbWait with
    | some n =>
      if n ≤ 1 then (s.modDlk fun x => { x with fbWait := none }).wrb Reg.DLK_STATUS_FALLBACK true
      else s.modDlk fun x => { x with fbWait := some (n - 1) }
    | none => s
  if !s.rdb Reg.DLK_STATUS_FALLBACK then s
  else
    let s := match s.fbChannels with
      | some (a, b) => (s.wr Reg.DLK_FB_CH_FIRST (Ch.num a)).wr Reg.DLK_FB_CH_SECOND (Ch.num b)
      | none => (s.wr Reg.DLK_FB_CH_FIRST 3).wr Reg.DLK_FB_CH_SECOND 3
    let modeOk := match s.md.mode with
      | .run3 | .run2 => true
      | .maint => !s.md.debug
      | _ => false
    let hold := s.dlk.fbHold && !(modeOk && s.md.ranCycle)
    let s := if hold then s else s.wr Reg.DLK_FB_PERMIT (if modeOk then s.dlk.fbStaged.toNat else 0)
    let s := s.modDlk fun x => { x with fbStaged := 0, fbHold := hold }
    foldSt [0, 1, 2, 3] (fun o s => s.drive o) s

/-- R277: `SW-D` latched on both rails at the release of P or M; disagreement or bit 7 gives fault code 5. The DLK's
state starts anew (R290). -/
def State.dlkRelease (s : State) (rail0 rail1 : BitVec 8) : State :=
  let s := s.modDlk fun _ => DlkSt.init
  let s := s.wr Reg.DLK_CFG_SW_D rail0.toNat
  if rail0 ≠ rail1 || rail0.msb then s.dlkFaultSet 5 else s

/-- DLK status as the 64 bits 0x0_0840 to 0x0_087F (Table 9-5). -/
def State.dlkBits (s : State) : Nat :=
  s.rd Reg.DLK_STATUS_PAIRS + s.rd Reg.DLK_STATUS_OUT * 2 ^ 5 + s.rd Reg.DLK_STATUS_LOCKOUT * 2 ^ 9 +
    s.rd Reg.DLK_STATUS_FAULT * 2 ^ 10 + s.rd Reg.DLK_STATUS_FALLBACK * 2 ^ 11 + s.rd Reg.DLK_STATUS_HEALTHY * 2 ^ 12 +
    s.rd Reg.DLK_PAIR_LATCHED * 2 ^ 13 + bitNat s.dlk.offL * 2 ^ 18 + bitNat s.dlk.offR * 2 ^ 19 +
    s.rd Reg.DLK_CFG_SW_D * 2 ^ 20 + s.rd Reg.DLK_STATUS_FAULT_CODE * 2 ^ 28 + s.rd Reg.DLK_STATUS_LOCK_CAUSE * 2 ^ 32

/-- The DLK's status at a Tc, which the image load of the cycle shows (R293). -/
def State.dlkFreeze (s : State) : State := s.modDlk fun x => { x with frozen := BitVec.ofNat 64 s.dlkBits }

end Sys2Proof.Machine
end

