-- ==== Sys2Proof/Machine/Ptn.lean ====
section
/-! DEFINITION. The time-triggered network: schedule entries, frames, policing and delivery, staging and frame vote, masking
gates, stations and safety connections, traffic that is not PTN, bypass and hold-up. Times of a cycle are chainages in ns. -/

namespace Sys2Proof

/-- Configuration of a schedule entry, and of a station s or connection 128 + c. -/
def NetCfg.ent (n : NetCfg) (e : Nat) : NetEnt :=
  ((n.ents.find? fun x => x.1 = e).map (·.2)).getD { dst := 0, connId := 0, nodes := [] }
def NetCfg.peer (n : NetCfg) (k : Nat) : NetPeer :=
  ((n.peers.find? fun x => x.1 = k).map (·.2)).getD { a := if k < 128 then 1 else 2, s := 1, subst := [] }

end Sys2Proof

namespace Sys2Proof.Machine

def State.modPtn (s : State) (f : PtnSt → PtnSt) : State := { s with ptn := f s.ptn }

/-! ### Schedule entries -/

/-- A schedule entry in its fields (Table 10-7). -/
structure SchedEntry where
  mask : Nat
  start : Nat
  prio : Nat
  length : Nat
  kind : Nat
  owner : Nat
  ftype : Nat
  slot : Nat
  ports : Nat
  map : Nat
  index : Nat
  nb : Nat
  bbase : Nat
  nw : Nat
  wbase : Nat
  deriving DecidableEq, Repr

/-- Bits `[lo + w − 1 : lo]` of a word. -/
def bitsOf (v : Word) (lo w : Nat) : Nat := (v.toNat / 2 ^ lo) % 2 ^ w

/-- Word `w` of entry `e`. -/
def schedWord (m : FMap Word) (e w : Nat) : Word := FMap.get 0 m (e * 8 + w)

/-- Entry `e` of a schedule table (R310). -/
def schedEntry (m : FMap Word) (e : Nat) : SchedEntry :=
  let w := schedWord m e
  { mask := (w 0).toNat + (w 1).toNat * 2 ^ 32, start := bitsOf (w 2) 0 24, prio := bitsOf (w 3) 24 3,
    length := bitsOf (w 3) 0 24, kind := bitsOf (w 4) 29 3, owner := bitsOf (w 4) 21 6, ftype := bitsOf (w 4) 17 4,
    slot := bitsOf (w 4) 0 10, ports := bitsOf (w 5) 0 14, map := bitsOf (w 6) 30 2, index := bitsOf (w 6) 22 8,
    nb := bitsOf (w 6) 13 9, bbase := bitsOf (w 6) 0 13, nw := bitsOf (w 7) 23 9, wbase := bitsOf (w 7) 0 14 }

/-- The numbers of the entries that a table holds, rising. -/
def schedUsed (m : FMap Word) : List Nat :=
  (m.foldl (fun (l : List Nat) e => if l.head? = some (e.1 / 8) then l else e.1 / 8 :: l) []).reverse

/-- Offsets of the identity registers that report less than a schedule and station table needs (R4). -/
def schedOverParams (m : FMap Word) : List Nat :=
  if (schedUsed m).any fun e => 2048 ≤ e || ((schedEntry m e).map = 1 && 128 ≤ (schedEntry m e).index) then [0x20] else []

/-- Image words that an entry maps, in payload order (R311). -/
def SchedEntry.locs (x : SchedEntry) : List Nat :=
  (List.range x.nb).map (x.bbase + ·) ++ (List.range x.nw).map (0x2000 + x.wbase + ·)

/-- The entry carries the safety trailer. -/
def SchedEntry.safety (x : SchedEntry) : Bool := x.map = 1 || x.map = 2

/-- Payload length of a mapped frame (R311). -/
def SchedEntry.payLen (x : SchedEntry) : Nat := 4 * (x.nb + x.nw) + (if x.safety then 20 else 0)

/-- Key of the station or connection of an entry: stations s, connections 128 + c. -/
def SchedEntry.peer (x : SchedEntry) : Nat := (x.map - 1) * 128 + x.index

/-- The entry's window exists in the cycle of a matrix index. -/
def SchedEntry.inCycle (x : SchedEntry) (mi : Nat) : Bool := x.mask.testBit mi

/-- The program's mapping of an arbitrating window that this module sends in: an own EVENT entry maps from the output
regions and has `MAP` 0. -/
def SchedEntry.ownEvent (x : SchedEntry) : Bool := x.kind = 4 && x.ftype = 4 && x.map = 0 && 0 < x.nb + x.nw

def State.entry (s : State) (e : Nat) : SchedEntry := schedEntry s.ptn.sched e
def State.entries (s : State) : List Nat := schedUsed s.ptn.sched

/-- Matrix index of the current cycle and of the next. -/
def State.mi (s : State) : Nat := s.tm.cyc % s.mx
def State.miNext (s : State) : Nat := (s.tm.cyc + 1) % s.mx

/-! ### Frames -/

/-- ns per octet at a port's speed. -/
def State.octetNs (s : State) (p : Nat) : Nat := if s.rd (Reg.PTN_PORT_SPEED p) = 1 then 80 else 8

/-- Octets of a PTN frame with FCS, at least 64. -/
def frameOctets (payload : Nat) : Nat := max 64 (26 + payload)

/-- Duration on the wire, with preamble and gap. -/
def State.frameNs (s : State) (p payload : Nat) : Nat := (frameOctets payload + 20) * s.octetNs p

/-- Source address 02-A1-50-00-00-nn (R300). -/
def macOf (node : Nat) : List Byte := natBE 6 (0x02A150000000 + node)

/-- A whole frame without its FCS (R299, R300). -/
def buildFrame (dst : List Byte) (etherType node domain type mi slot seq : Nat) (payload : List Byte) : List Byte :=
  dst ++ macOf node ++ natBE 2 etherType ++ natBE 1 (0x10 + type) ++ natBE 1 (domain * 64 + node) ++
    natBE 2 (mi * 1024 + slot) ++ natBE 2 (seq % 65536) ++ natBE 2 payload.length ++ payload

/-- A received frame in its header fields (Table 10-2). -/
structure PtnFrame where
  version : Nat
  type : Nat
  domain : Nat
  src : Nat
  mi : Nat
  slot : Nat
  seq : Nat
  len : Nat
  body : List Byte
  deriving DecidableEq, Repr

/-- The octets after the EtherType where a frame carries the PTN EtherType, with or without a tag. -/
def ptnBody (etherType : Nat) (bytes : List Byte) : Option (List Byte) :=
  let ty := fun (n : Nat) => beNat ((bytes.drop n).take 2)
  if bytes.length < 14 then none
  else if ty 12 = etherType then some (bytes.drop 14)
  else if ty 12 = 0x8100 && ty 16 = etherType then some (bytes.drop 18)
  else none

/-- The header fields of a PTN frame; missing octets read as 0 and make the frame fail check 3. -/
def parsePtn (b : List Byte) : PtnFrame :=
  let n := fun (i k : Nat) => beNat (((b ++ List.replicate 8 0).drop i).take k)
  { version := n 0 1 / 16, type := n 0 1 % 16, domain := n 1 1 / 64, src := n 1 1 % 64, mi := n 2 2 / 1024,
    slot := n 2 2 % 1024, seq := n 4 2, len := n 6 2, body := b.drop 8 }

/-! ### Reception -/

/-- Line of a backbone port and the port across it (R297). -/
def otherPort (p : Nat) : Option Nat := if p < 4 then some (if p % 2 = 0 then p + 1 else p - 1) else none

/-- The edge is powered, loaded and runs; during a staged bypass it runs from the hold-up store (R329). -/
def State.edgeUp (s : State) : Bool :=
  s.rdb Reg.PTN_STATUS_EDGE_LOADED && (natBit (s.rd Reg.MOD_DOMAIN_PGOOD) 4 || s.rd Reg.PTN_BYPASS_STAGE = 1)

/-- A port carries traffic: linked, and not bridged by its relay. -/
def State.portUp (s : State) (p : Nat) : Bool := s.rdb (Reg.PTN_PORT_LINK p) && !(p < 4 && s.rdb (Reg.PTN_PORT_BYPASSED p))

/-- Policing key of a source at a port; a remote station counts by its slot (R321). -/
def violKey (port src slot : Nat) : Nat := port * 65536 + src * 1024 + (if src = 0 then slot else 0)

/-- Π and g in ns. -/
def State.piNs (s : State) : Nat := s.rd Reg.PTN_GUARD_PI * 10
def State.gNs (s : State) : Nat := s.rd Reg.PTN_GUARD_G * 10

/-- The entry admits the frame at the port (R320). The window test is not applied to DATUM and COLDSTART frames while
network time is invalid, whose Tc grid is not yet the train's (R345, R346). -/
def State.admits (s : State) (e port : Nat) (f : PtnFrame) (startNs : Nat) : Bool :=
  let x := s.entry e
  let datum := f.type = 1 || f.type = 2
  let srcOk := f.src = x.owner || (x.owner = 0 && ((s.ptn.net.ent e).nodes.contains f.src || (4 ≤ port && f.src = 0)))
  let endNs := startNs + frameOctets f.len * s.octetNs port
  let inTime := x.inCycle s.mi && x.start * 10 ≤ startNs + s.piNs && endNs ≤ (x.start + x.length) * 10 + s.piNs
  (x.kind = 1 || x.kind = 3 || x.kind = 4) && x.ports.testBit port && srcOk && f.slot = x.slot &&
    (inTime || (datum && !s.tm.valid))

/-- The window of a frame, where it is in window. -/
def State.windowOf (s : State) (port : Nat) (f : PtnFrame) (startNs : Nat) : Option Nat :=
  s.entries.find? fun e => s.admits e port f startNs

/-- Signed value of an 11-bit adjustment field. -/
def adjOf (v : Nat) : Int := if v < 1024 then v else (v : Int) - 2048

/-- Corrections of a port between its MAC timestamps and the wire, received and sent, with its adjustment (R340, Table 11-2). -/
def State.deltaRx (s : State) (p : Nat) : Int :=
  (if s.rd (Reg.PTN_PORT_SPEED p) = 1 then 286 else 312) + adjOf (s.rd (Reg.TMU_PORT_ADJ_RX_ADJ p))
def State.deltaTx (s : State) (p : Nat) : Int :=
  (if s.rd (Reg.PTN_PORT_SPEED p) = 1 then 148 else 184) + adjOf (s.rd (Reg.TMU_PORT_ADJ_TX_ADJ p))

/-- A frame leaves a port, on the wire at chainage `at'` (R340). -/
def State.emit (s : State) (p : Nat) (bytes : List Byte) (good : Bool) (at' : Nat) : State :=
  s.modPtn fun x => { x with egress := FMap.set none x.egress p (some ⟨bytes, good, at', (at' : Int) - s.deltaTx p⟩) }

/-- Octets before the payload of a PTN frame, with or without a tag. -/
def headLen (bytes : List Byte) : Nat := if beNat ((bytes.drop 12).take 2) = 0x8100 then 26 else 22

/-- Forwarded octets of a DATUM or COLDSTART frame (R338): Correction and Hops advanced; none once Hops reached 62. A frame cut short
before them goes on as it is. -/
def State.forwardDatum (s : State) (port residence : Nat) (bytes : List Byte) : Option (List Byte) :=
  let n := headLen bytes
  let pl := bytes.drop n
  let hops := beNat ((pl.drop 16).take 1)
  if pl.length < 17 then some bytes
  else if 62 ≤ hops then none
  else
    let corr := beNat ((pl.drop 12).take 4) + (residence + s.rd (Reg.TMU_PORT_DELAY_LINK_NS port)) * 16
    some (bytes.take n ++ pl.take 12 ++ natBE 4 corr ++ natBE 1 (hops + 1) ++ pl.drop 17)

/-- Cut-through forwarding on the same line (R297, R298, R338), with a residence time of 1.200 µs ± 8 ns. -/
def State.forward (s : State) (port : Nat) (f : PtnFrame) (bytes : List Byte) (startNs : Nat) (good : Bool) : State :=
  match otherPort port with
  | none => s
  | some q =>
    if !s.portUp q then s
    else
      let (r, s) := s.take
      let residence := 1192 + r % 17
      let out := if f.type = 1 || f.type = 2 then s.forwardDatum port residence bytes else some bytes
      match out with
      | some b => s.emit q b good ((startNs : Int) - s.deltaRx port + residence).toNat
      | none => s

def State.rxBad (s : State) (port : Nat) : State :=
  (s.inc (Reg.PTN_PORT_RX_BAD port)).modPtn fun x => { x with cFail := x.cFail + 1 }

/-- A frame dropped at check 4: a violation, or a frame of an isolated source (R320, R321). -/
def State.policeDrop (s : State) (port : Nat) (f : PtnFrame) (violation : Bool) : State :=
  let s := s.inc (Reg.PTN_POLICE_DROPS port)
  if violation then
    let k := violKey port f.src f.slot
    s.modPtn fun x => { x with viol := FMap.set 0 x.viol k (FMap.get 0 x.viol k + 1), cViol := x.cViol + 1 }
  else s

/-- Note a frame seen on a line; true where it is a second copy (R302). -/
def State.noteSeen (s : State) (e port : Nat) (f : PtnFrame) : Bool × State :=
  if 4 ≤ port then (false, s)
  else
    let onA := port < 2
    let same := fun (y : SeenFrame) => y.entry = e && y.src = f.src && y.seq = f.seq && y.mi = f.mi
    match s.ptn.seen.find? same with
    | some _ =>
      (true, s.modPtn fun x => { x with
        seen := x.seen.map fun y => if same y then { y with onA := y.onA || onA, onB := y.onB || !onA } else y })
    | none => (false, s.modPtn fun x => { x with seen := x.seen ++ [⟨e, f.src, f.seq, f.mi, onA, !onA⟩] })

/-- Deliver a payload of a mapped entry: frozen at the next Tc, or one cycle later where its last octet came at or after
it (R49). -/
def State.deliver (s : State) (e : Nat) (f : PtnFrame) (late : Bool) : State :=
  let r : RxFrame := ⟨f.body.take f.len, FMap.get 0 s.ptn.sentSeq (s.entry e).peer⟩
  s.modPtn fun x =>
    if late then { x with rxLate := FMap.set none x.rxLate e (some r) } else { x with rx := FMap.set none x.rx e (some r) }

/-- Outcome of the reception checks (Table 10-4). -/
inductive RxVerdict where
  | ignored
  | rejected
  | accepted (e : Nat) (f : PtnFrame)
  deriving DecidableEq, Repr

/-- The checks of Table 10-4 with forwarding, up to and including the mapping length. -/
def State.receive (s : State) (port : Nat) (bytes : List Byte) (startNs : Nat) (fcsOk : Bool) : RxVerdict × State :=
  match ptnBody (s.rd Reg.PTN_CFG_ETHERTYPE) bytes with
  | none => (.ignored, s)
  | some b =>
    if !s.edgeUp || !s.portUp port then (.ignored, s)
    else
      let f := parsePtn b
      let typeOk := f.version = 1 && 1 ≤ f.type && f.type ≤ 6
      let win := s.windowOf port f startNs
      let isolated := 0 < FMap.get 0 s.ptn.iso (violKey port f.src f.slot)
      let lenOk := f.len ≤ f.body.length
      let s := if typeOk && f.len ≠ 0xFFFF && win.isSome && !isolated then s.forward port f bytes startNs (fcsOk && lenOk) else s
      if !fcsOk then (.rejected, (s.inc (Reg.PTN_PORT_RX_ERR port)).modPtn fun x => { x with cFail := x.cFail + 1 })
      else if !typeOk || f.len = 0xFFFF || !lenOk || b.length < 8 then (.rejected, s.rxBad port)
      else
        match win with
        | none => (.rejected, s.policeDrop port f true)
        | some e =>
          if isolated then (.rejected, s.policeDrop port f false)
          else
            let (dup, s) := s.noteSeen e port f
            if dup then (.rejected, s.incWrap Reg.PTN_LINE_DUP)
            else
              let x := s.entry e
              let want := if f.type = 1 || f.type = 2 then 32 else if f.type = 5 then 52 else x.payLen
              if f.type ≠ 6 && f.len ≠ want then (.rejected, s.rxBad port) else (.accepted e f, s)

/-! ### Matrix boundary -/

/-- Sources isolated at a port, as a mask of node numbers. -/
def PtnSt.isoMask (x : PtnSt) (port : Nat) : Nat :=
  x.iso.foldl (fun v e => if e.1 / 65536 = port then natSet v (e.1 / 1024 % 64) else v) 0

/-- Isolation at a matrix boundary (R321): sixteen violations isolate, four clean matrix periods lift. An entry of `iso`
holds 1 plus the clean periods so far. -/
def PtnSt.boundary (x : PtnSt) : PtnSt :=
  let kept := x.iso.filterMap fun e =>
    if FMap.get 0 x.viol e.1 ≠ 0 then some (e.1, 1) else if 4 ≤ e.2 then none else some (e.1, e.2 + 1)
  let iso := x.viol.foldl (fun m e => if 16 ≤ e.2 && FMap.get 0 m e.1 = 0 then FMap.set 0 m e.1 1 else m) kept
  { x with iso := iso, viol := [] }

/-- Report isolation in the registers. -/
def State.isoRegs (s : State) : State :=
  foldSt (List.range 14) (fun p s =>
    let m := s.ptn.isoMask p
    let n := (List.range 64).foldl (fun c i => c + bitNat (m.testBit i)) 0
    ((s.wr (Reg.PTN_ISO_LO_SRC_LO p) (m % 2 ^ 32)).wr (Reg.PTN_ISO_HI_SRC_HI p) (m / 2 ^ 32)).wr (Reg.PTN_POLICE_ISOLATED p) n) s

/-! ### Safety code -/

/-- CRC of the safety code (R303): CRC-32C whose register starts with the connection ID. -/
def safetyCrc (connId : Nat) (l : List Byte) : Word := l.foldl crc32cByte (BitVec.ofNat 32 connId) ^^^ 0xFFFFFFFF#32

/-- Bytes 0 to 15 of the safety trailer (Table 10-5). -/
def trailerHead (connId seq stamp status : Nat) : List Byte :=
  natBE 4 connId ++ natBE 4 seq ++ natBE 4 stamp ++ natBE 1 status ++ natBE 3 0

/-- Safety data with its trailer. -/
def withTrailer (connId seq stamp status : Nat) (data : List Byte) : List Byte :=
  let l := data ++ trailerHead connId seq stamp status
  l ++ natBE 4 (safetyCrc connId l).toNat

/-- Safety status of the frames that leave in a cycle (R305). -/
def State.safetyStatus (s : State) : Nat :=
  match s.md.mode with
  | .startup | .safe => 1
  | .maint => if s.md.debug then 2 else 0
  | _ => 0

/-- A staged frame as it leaves under a status: zeros in STARTUP and SAFE, its own data marked stale in DEBUG (R305). -/
def TxStage.restate (t : TxStage) (connId status n : Nat) : TxStage :=
  { t with payload := t.payload.map fun l =>
      withTrailer connId t.safeSeq (beNat ((l.drop (n + 8)).take 4)) status (if status = 1 then List.replicate n 0 else l.take n) }

/-- The frames staged in the last cycle become those to be sent. Safety frames take the status of the cycle that sends them (R305); DESIGN
CHOICE (log 95): one staged in STARTUP keeps its own. While W is held every window stays empty (Table 18-4). -/
def State.txOf (s : State) : FMap (Option TxStage) :=
  let st := s.safetyStatus
  if s.md.wHold ≠ 0 then []
  else if st = 0 then s.ptn.staged
  else s.ptn.staged.map fun e =>
    let x := s.entry e.1
    (e.1, if x.safety then e.2.map fun t => t.restate (s.ptn.net.ent e.1).connId st (4 * (x.nb + x.nw)) else e.2)

/-- The network's share of a Tc (R48, R302, R321, R333): freeze the frames received, count what came on one line only,
exchange the counts of the cycle, make the staged frames those to be sent. -/
def State.ptnAtTc (s : State) : State :=
  let a := (s.ptn.seen.filter fun y => y.onA && !y.onB).length
  let b := (s.ptn.seen.filter fun y => y.onB && !y.onA).length
  let s := s.wr Reg.PTN_LINE_ONLY_A (min 0xFFF (s.rd Reg.PTN_LINE_ONLY_A + a))
  let s := s.wr Reg.PTN_LINE_ONLY_B (min 0xFFF (s.rd Reg.PTN_LINE_ONLY_B + b))
  let tx := s.txOf
  let s := s.modPtn fun x => { x with
    frozen := x.rx, rx := x.rxLate, rxLate := [], seen := [], tx := tx, staged := [], used := [],
    pViol := min 0xFFFF x.cViol, pEmpty := min 0xFFFF x.cEmpty, pFail := min 0xFFFF x.cFail, cViol := 0, cEmpty := 0, cFail := 0,
    pOnlyA := 0 < a, pOnlyB := 0 < b }
  if s.mi = 0 then (s.modPtn PtnSt.boundary).isoRegs else s

/-- The checks of Table 10-6 on a received payload: reject code 0 where it is valid. `ref` is the reference sequence, `tc`
the network time of the Tc of the delivering cycle in ns. -/
def safetyCheck (connId : Nat) (ref : Option Nat) (aLimit tc tbc : Nat) (payload : List Byte) : Nat :=
  let n := payload.length - 20
  let tr := payload.drop n
  let f := fun (i k : Nat) => beNat ((tr.drop i).take k)
  let d := (tc / 1000 + 2 ^ 32 - f 8 4) % 2 ^ 32
  if f 16 4 ≠ (safetyCrc connId (payload.take (n + 16))).toNat then 1
  else if f 0 4 ≠ connId then 2
  else if (match ref with
    | some r => let k := (f 4 4 + 2 ^ 32 - r) % 2 ^ 32; k = 0 || 2 ^ 31 ≤ k
    | none => false) then 3
  else if 2 ^ 31 ≤ d || d % (tbc / 1000) ≠ 0 || aLimit < d / (tbc / 1000) then 4
  else if (f 12 1).testBit 1 then 5
  else 0

/-! ### Image load of stations and connections -/

/-- Write the values of a payload to the mapped words of the network input regions. -/
def PtnSt.store (x : PtnSt) (locs : List Nat) (payload : List Byte) : PtnSt :=
  { x with netIn := (locs.foldl (fun (p : FMap Word × List Byte) i =>
      (FMap.set 0 p.1 i (BitVec.ofNat 32 (beNat (p.2.take 4))), p.2.drop 4)) (x.netIn, payload)).1 }

/-- Write the substitute values of a peer. -/
def PtnSt.substitute (x : PtnSt) (locs : List Nat) (v : FMap Word) : PtnSt :=
  { x with netIn := locs.foldl (fun m i => FMap.set 0 m i (FMap.get 0 v i)) x.netIn }

/-- Registers of a peer: stations `PTN_STN`, connections `PTN_CONN`. -/
def peerFld (f g : Nat → Fld) (k : Nat) : Fld := if k < 128 then f k else g (k - 128)
def Peer.ret : Nat → Fld := peerFld Reg.PTN_STN_RETURN Reg.PTN_CONN_RETURN
def Peer.subst : Nat → Fld := peerFld Reg.PTN_STN_SUBST Reg.PTN_CONN_SUBST
def Peer.miss : Nat → Fld := peerFld Reg.PTN_STN_MISS Reg.PTN_CONN_MISS
def Peer.reject : Nat → Fld := peerFld Reg.PTN_STN_LAST_REJECT Reg.PTN_CONN_LAST_REJECT
def Peer.limA : Nat → Fld := peerFld Reg.PTN_STN_A Reg.PTN_CONN_A
def Peer.limS : Nat → Fld := peerFld Reg.PTN_STN_S Reg.PTN_CONN_S

/-- Freshness of a connection and stale bit of a station, from its state after this load (R324, R325, R308). -/
def State.peerBit (s : State) (k : Nat) (safeSet : Bool) : State :=
  let exch := s.rd (Peer.ret k) = 0
  if k < 128 then s.wrb (Reg.PTN_STN_STALE k) !exch else s.wrb (Reg.PTN_CONN_FRESH (k - 128)) (exch && !safeSet)

/-- A miss (R323, Table 10-8). -/
def State.peerMiss (s : State) (k : Nat) (locs : List Nat) : State :=
  let n := if s.rd (Peer.ret k) = 1 then satInc 255 (s.rd (Peer.miss k)) else 1
  let s := (s.wr (Peer.ret k) 1).wr (Peer.miss k) n
  let s :=
    if s.rd (Peer.limS k) ≤ n then
      let sub := (s.ptn.net.peer k).subst
      (s.wrb (Peer.subst k) true).modPtn fun x => { (x.substitute locs sub) with rxSeq := FMap.set none x.rxSeq k none }
    else s
  s.peerBit k false

/-- A valid frame (R322 to R325): applied while exchanging and when it completes a return; otherwise the return starts or
goes on. -/
def State.peerValid (s : State) (k : Nat) (locs : List Nat) (r : RxFrame) : State :=
  let n := r.payload.length - 20
  let f := fun (i w : Nat) => beNat (((r.payload.drop n).drop i).take w)
  let echo := beNat (r.payload.take 4)
  let s := s.modPtn fun x => { x with rxSeq := FMap.set none x.rxSeq k (some (f 4 4)) }
  let apply := fun (s : State) =>
    ((((s.wr (Peer.ret k) 0).wrb (Peer.subst k) false).wr (Peer.miss k) 0).modPtn fun x => x.store locs r.payload).peerBit k
      ((f 12 1).testBit 0)
  match s.rd (Peer.ret k) with
  | 0 => apply s
  | 1 =>
    (((s.wr (Peer.ret k) 2).wr (Peer.miss k) 0).modPtn fun x => { x with retSeq := FMap.set 0 x.retSeq k r.sentSeq }).peerBit k false
  | _ =>
    let from' := FMap.get 0 s.ptn.retSeq k
    let d := (echo + 2 ^ 32 - from') % 2 ^ 32
    let last := (FMap.get 0 s.ptn.sentSeq k + 2 ^ 32 - from') % 2 ^ 32
    if 128 ≤ k || (0 < d && d ≤ last) then apply s else s.peerBit k false

/-- Image load of one receive entry: `mi` is the matrix index of the cycle of reception. -/
def State.loadEntry (s : State) (e mi : Nat) : State :=
  let x := s.entry e
  if !(x.kind = 3 || x.kind = 4) || x.map = 0 then s
  else
    let r := FMap.get none s.ptn.frozen e
    if x.map = 3 then
      match r with
      | some r => s.modPtn fun p => p.store x.locs r.payload
      | none => s
    else
      let k := x.peer
      match r with
      | some r =>
        let code := safetyCheck (s.ptn.net.ent e).connId (FMap.get none s.ptn.rxSeq k) (s.rd (Peer.limA k)) s.tm.tcNs s.tbc r.payload
        if code = 0 then s.peerValid k x.locs r
        else
          let s := s.wr (Peer.reject k) code
          s.peerMiss k x.locs
      | none => if x.inCycle mi then s.peerMiss k x.locs else s

/-- Network inputs at image load (R76, R306, R322): every receive entry of the cycle just completed. -/
def State.ptnLoad (s : State) : State :=
  let mi := (s.tm.cyc + s.mx - 1) % s.mx
  foldSt s.entries (fun e s => s.loadEntry e mi) s

/-- R307: no reference sequence, and every produced sequence starts anew. -/
def State.ptnRestart (s : State) : State := s.modPtn fun x => { x with rxSeq := [], txSeq := [] }

/-- Mask word of 32 peers from number `k`. -/
def State.peerMask (s : State) (fld : Nat → Fld) (k : Nat) : Nat :=
  (List.range 32).foldl (fun v i => v + s.rd (fld (k + i)) * 2 ^ i) 0

/-- Network diagnostic words 0x0040 to 0x004D (Table 10-11). -/
def State.ptnWord (s : State) (w : Nat) : Nat :=
  let x := s.ptn
  match w - 0x40 with
  | 0 => (List.range 14).foldl (fun v p => v + s.rd (Reg.PTN_PORT_LINK p) * 2 ^ p) 0 +
      s.rd Reg.PTN_BYPASS_RELAY_A * 2 ^ 16 + s.rd Reg.PTN_BYPASS_RELAY_B * 2 ^ 17
  | 1 => s.rd Reg.PTN_STATUS_LISTEN_ONLY + 2 * bitNat x.pOnlyA + 4 * bitNat x.pOnlyB + 8 * s.rd Reg.PTN_HOLDUP_LOW +
      16 * s.rd Reg.PTN_HOLDUP_NO_STAGE
  | 2 => x.pViol + x.pEmpty * 65536
  | 3 => x.pFail
  | 4 => (List.range 14).foldl (fun v p => v ||| s.rd (Reg.PTN_ISO_LO_SRC_LO p)) 0
  | 5 => (List.range 14).foldl (fun v p => v ||| s.rd (Reg.PTN_ISO_HI_SRC_HI p)) 0
  | 6 | 7 | 8 | 9 => s.peerMask Peer.subst ((w - 0x46) * 32)
  | 10 | 11 | 12 | 13 => s.peerMask Peer.subst (128 + (w - 0x4A) * 32)
  | _ => 0

/-! ### Staging and the frame vote -/

/-- The value that at least two contributions carry. -/
def majority [DecidableEq α] (l : List (Option α)) : Option α :=
  l.findSome? fun x => match x with
    | some v => if 2 ≤ (l.filter (· = some v)).length then some v else none
    | none => none

/-- Bytewise majority of the contributions of the channels, each as long as the first (R19). -/
def majorityBytes (cs : List (List (Option Byte))) : Option (List Byte) :=
  match cs with
  | [] => none
  | c :: _ =>
    (List.range c.length).foldr (fun i (r : Option (List Byte)) =>
      match majority (cs.map fun x => (x[i]?).getD none), r with
      | some b, some l => some (b :: l)
      | _, _ => none) (some [])

/-- A channel's words of a list of image words, from its master copy. -/
def State.gather (s : State) (c : Ch) (locs : List Nat) : List (Psn Word) × State :=
  locs.foldl (fun (p : List (Psn Word) × State) i =>
    let (v, s) := p.2.readImg c none i
    (p.1 ++ [v], s)) ([], s)

/-- Contribution of a channel as bytes: a poisoned word contributes no valid byte (R178). -/
def contribution (l : List (Psn Word)) : List (Option Byte) :=
  (l.map fun v => (natBE 4 v.v.toNat).map fun b => if v.p then none else some b).flatten

/-- The launch entry that a schedule entry is. -/
def State.launchOf (s : State) (e : Nat) : Option Nat :=
  (List.range 8).find? fun l => s.rdb (Reg.TMU_LAUNCH_ENABLED l) && s.rd (Reg.TMU_LAUNCH_ENTRY l) = e

/-- A voted 64-bit target from a word pair, low word first; none without a majority. -/
def State.voteTarget (s : State) (valid : List Ch) (w : Nat) : Option Nat × State :=
  let (cs, s) := valid.foldl (fun (p : List (Option Nat) × State) c =>
    let (lo, s) := p.2.readImg c none (Img.ofWord w)
    let (hi, s) := s.readImg c none (Img.ofWord (w + 1))
    (p.1 ++ [if lo.p || hi.p then none else some (lo.v.toNat + hi.v.toNat * 2 ^ 32)], s)) ([], s)
  (majority cs, s)

/-- Contribution of a channel as a whole payload: its data, and of a safety frame the trailer that it builds over them, whose CRC is no
valid value where a part of the data is none (R304). -/
def withTail (safety : Bool) (connId seq stamp status : Nat) (data : List (Option Byte)) : List (Option Byte) :=
  if safety then
    let n := data.length
    let whole := data.filterMap id
    let tail := ((withTrailer connId seq stamp status whole).drop whole.length).map some
    data ++ (if whole.length = n then tail else tail.take 16 ++ List.replicate 4 none)
  else data

/-- Stage one entry's frame (R304, R305, R314) from the channels with valid contributions; the channels whose bytes differ
from the vote. -/
def State.stageEntry (s : State) (valid : List Ch) (e : Nat) : List Ch × State :=
  let x := s.entry e
  let n := 4 * (x.nb + x.nw)
  let status := s.safetyStatus
  let connId := (s.ptn.net.ent e).connId
  let frozen := match FMap.get none s.ptn.lastData connId with
    | some l => if l.length = n then l else List.replicate n 0
    | none => List.replicate n 0
  let seq := if x.safety then (FMap.get 0 s.ptn.txSeq x.peer + 1) % 2 ^ 32 else 0
  let s := if x.safety then s.modPtn fun p => { p with txSeq := FMap.set 0 p.txSeq x.peer seq } else s
  let tail := withTail x.safety connId seq (s.tm.tcNs / 1000 % 2 ^ 32) status
  let (cs, s) := valid.foldl (fun (p : List (Ch × List (Option Byte)) × State) c =>
    if x.safety && status = 1 then (p.1 ++ [(c, tail (List.replicate n (some 0)))], p.2)
    else if x.safety && status = 2 then (p.1 ++ [(c, tail (frozen.map some))], p.2)
    else
      let (l, s) := p.2.gather c x.locs
      (p.1 ++ [(c, tail (contribution l))], s)) ([], s)
  let payload := majorityBytes (cs.map (·.2))
  let diff := match payload with
    | some d => (cs.filter fun y => y.2 ≠ d.map some).map (·.1)
    | none => []
  let s := match payload with
    | some d => if status ≠ 2 && x.safety then s.modPtn fun p => { p with lastData := FMap.set none p.lastData connId (some (d.take n)) } else s
    | none => s
  let (target, s) := match s.launchOf e with
    | some l => s.voteTarget valid (s.rd (Reg.TMU_LAUNCH_TARGET_WORD l))
    | none => (none, s)
  if x.kind = 4 then
    match payload with
    | some d => (diff, s.modPtn fun p => { p with events := p.events ++ [⟨e, d, s.tm.cyc⟩] })
    | none => (diff, s)
  else (diff, s.modPtn fun p => { p with staged := FMap.set none p.staged e (some ⟨payload, target, seq⟩) })

/-- Stage every transmit entry whose window exists in the next cycle (R314), LEASE windows apart (R380); an own arbitrating entry stages a frame where
the free choice of this cycle says so (R316 gives no condition). -/
def State.stageFrames (s : State) (valid : List Ch) : List Ch × State :=
  s.entries.foldl (fun (p : List Ch × State) e =>
    let s := p.2
    let x := s.entry e
    if x.kind = 2 && x.ftype ≠ 5 && x.inCycle s.miNext then
      let (d, s) := s.stageEntry valid e
      (p.1 ++ d, s)
    else if x.ownEvent then
      let go := Config.freeBool s.free
      let s := { s with free := s.free + 1 }
      if go then
        let (d, s) := s.stageEntry valid e
        (p.1 ++ d, s)
      else (p.1, s)
    else (p.1, s)) ([], s)

/-! ### Transmission -/

/-- Origination by mode (Table 1-4), listen-only (R318) and the edge's state. -/
def State.mayOriginate (s : State) : Bool :=
  s.edgeUp && !s.rdb Reg.PTN_STATUS_LISTEN_ONLY &&
  (match s.md.mode with
   | .startup | .run3 | .run2 | .safe | .maint => true
   | _ => false)

/-- Twin configured. -/
def State.twin (s : State) : Bool := s.rd Reg.TWN_CFG_QUORUM ≠ 0

/-- DATA and EVENT frames of a pair go under the pair address, and only while the module is ACTIVE and past its overlap
cycle (R368, R390). -/
def State.pairFrame (s : State) (ftype : Nat) : Bool := s.twin && (ftype = 3 || ftype = 4)
def State.gateOpen (s : State) (ftype : Nat) : Bool := !s.pairFrame ftype || (s.md.role = .active && !s.md.overlap)
def State.srcNode (s : State) (ftype : Nat) : Nat :=
  if s.pairFrame ftype then s.rd Reg.TWN_CFG_PAIR_ADDR else s.rd Reg.PTN_CFG_NODE

/-- Ports on which an entry can originate: linked, and a backbone line not being bypassed (Table 10-10). -/
def State.txPorts (s : State) (x : SchedEntry) : List Nat :=
  (List.range 14).filter fun p => x.ports.testBit p && s.portUp p &&
    !(p < 4 && (s.rd Reg.PTN_BYPASS_STAGE = 1 || s.rd Reg.PTN_BYPASS_STAGE = 3))

/-- ns of an entry's window taken at a port in this cycle. -/
def State.taken (s : State) (e p : Nat) : Nat := FMap.get 0 s.ptn.used (e * 16 + p)

/-- The frame fits between the guards of an untouched window at a port (R317). -/
def State.fits (s : State) (x : SchedEntry) (p payload : Nat) : Bool := s.frameNs p payload + 2 * s.gNs ≤ x.length * 10

/-- It fits in what this cycle's frames have left of entry `e`'s window there. -/
def State.fitsNow (s : State) (e p payload : Nat) : Bool :=
  s.taken e p + s.frameNs p payload + 2 * s.gNs ≤ (s.entry e).length * 10

/-- Start a frame at a port of entry `e`'s window after those already there. -/
def State.start (s : State) (e p payload : Nat) (bytes : List Byte) : State :=
  let n := s.taken e p
  (s.emit p bytes true ((s.entry e).start * 10 + s.gNs + n)).modPtn fun y => { y with
    used := FMap.set 0 y.used (e * 16 + p) (n + s.frameNs p payload) }

/-- Start a frame of an entry on some of its ports, at a chainage given or after the frames already in the window: a frame that does not
fit at a port is not started there and counted, and the header sequence advances where it was started (R299, R317). -/
def State.sendOn (s : State) (e : Nat) (ports : List Nat) (at' : Option Nat) (bytes : List Byte) (payload : Nat) : Bool × State :=
  let (sent, s) := ports.foldl (fun (r : Bool × State) p =>
    match at' with
    | some t => (true, r.2.emit p bytes true t)
    | none =>
      if r.2.fitsNow e p payload then (true, r.2.start e p payload bytes) else (r.1, r.2.inc Reg.PTN_VOTE_UNFIT)) (false, s)
  (sent, if sent then
      s.modPtn fun y => { y with hdrSeq := FMap.set 0 y.hdrSeq e ((FMap.get 0 y.hdrSeq e + 1) % 65536) }
    else s)

/-- Send a frame of an entry on its ports, at a chainage given or in its window. -/
def State.sendFrame (s : State) (e : Nat) (at' : Option Nat) (payload : List Byte) : Bool × State :=
  let x := s.entry e
  s.sendOn e (s.txPorts x) at' (buildFrame (natBE 6 (s.ptn.net.ent e).dst.toNat) (s.rd Reg.PTN_CFG_ETHERTYPE) (s.srcNode x.ftype)
    (s.rd Reg.TMU_STATUS_DOMAIN) x.ftype s.mi x.slot (FMap.get 0 s.ptn.hdrSeq e) payload) payload.length

/-- Send the frame staged for a transmit entry; where it was sent, its safety sequence is the last sent to its peer. -/
def State.sendStaged (s : State) (e : Nat) (t : TxStage) (at' : Option Nat) (payload : List Byte) : State :=
  let x := s.entry e
  let (sent, s) := s.sendFrame e at' payload
  if sent && x.safety then s.modPtn fun y => { y with sentSeq := FMap.set 0 y.sentSeq x.peer t.safeSeq } else s

/-- A window left empty (R315). -/
def State.countEmpty (s : State) : State :=
  (s.inc Reg.PTN_VOTE_EMPTY).modPtn fun x => { x with cEmpty := x.cEmpty + 1 }

/-! ### Launch entries -/

/-- Result of a launch entry. -/
def State.launchResult (s : State) (l r : Nat) : State := s.wr (Reg.TMU_LAUNCH_STAT_RESULT l) r

/-- The cases of Table 11-3 for a launch entry in its window. -/
def State.launchWindow (s : State) (e l : Nat) (t : TxStage) : State :=
  let x := s.entry e
  match t.payload, t.target with
  | some pl, some tl =>
    let last := FMap.get 0 s.tmu.lastTL l
    let note := fun (s : State) => { s with tmu := { s.tmu with lastTL := FMap.set 0 s.tmu.lastTL l tl } }
    let f := ((List.range 14).filter fun p => x.ports.testBit p).foldl (fun m p => max m (s.frameNs p pl.length)) 0
    let lo := s.tm.tcNs + x.start * 10 + s.gNs
    let hi := s.tm.tcNs + (x.start + x.length) * 10
    if tl = 0 then (s.sendStaged e t none pl).launchResult l 0
    else if tl = last then s
    else if s.beyondHorizon tl then (s.inc (Reg.TMU_LAUNCH_STAT_REFUSED l)).launchResult l 4
    else if tl < s.tm.tcNs then ((note (s.sendStaged e t none pl)).inc (Reg.TMU_LAUNCH_STAT_LATE l)).launchResult l 2
    else if tl < s.tm.tcNs + s.tbc then
      if lo ≤ tl && tl + s.gNs + f ≤ hi then
        { s with tmu := { s.tmu with launchDue := FMap.set none s.tmu.launchDue l (some { s.dueAt tl with chain := tl / 10 * 10 - s.tm.tcNs }) } }
      else ((s.inc (Reg.TMU_LAUNCH_STAT_REFUSED l)).launchResult l 3).diag 4 Src.tmu l (0x00800304 + l * 8)
    else s.launchResult l 6
  | _, _ => s.launchResult l 5

/-! ### Rows of reception and transmission -/

/-- Two entries name one window: the same start and length at a common port. -/
def SchedEntry.sameWindow (x y : SchedEntry) : Bool := x.start = y.start && x.length = y.length && x.ports &&& y.ports ≠ 0

/-- Put an element before the first that it precedes. -/
def insertBy (lt : α → α → Bool) (v : α) : List α → List α
  | [] => [v]
  | y :: l => if lt v y then v :: y :: l else y :: insertBy lt v l

/-- The EVENT frames staged before this cycle that wait for the window of an entry, in order of priority and then of age (R316); the queue
is in order of age. -/
def State.eventsOf (s : State) (e : Nat) : List EvFrame :=
  (s.ptn.events.filter fun v => (v.entry = e || (s.entry v.entry).sameWindow (s.entry e)) && v.cyc < s.tm.cyc).foldl
    (fun l v => insertBy (fun a b => (s.entry a.entry).prio < (s.entry b.entry).prio) v l) []

/-- Start a queued EVENT frame in the window of entry `e` where it fits (R316); one that no window could hold is counted and waits for
its expiry. -/
def State.sendEvent (s : State) (e : Nat) (v : EvFrame) : State :=
  let ps := s.txPorts (s.entry v.entry)
  if ps.any fun p => s.fitsNow e p v.payload.length then
    ((s.sendFrame v.entry none v.payload).2).modPtn fun y => { y with events := y.events.erase v }
  else if ps.any fun p => s.fits (s.entry e) p v.payload.length then s
  else s.inc Reg.PTN_VOTE_UNFIT

/-- `TRANSMIT_WINDOW` (R314 to R317, R358): the window of a transmit or an own arbitrating entry in the current cycle. -/
def execTransmitWindow (e : Nat) (s : State) : Host.Outcome State Fault Refusal :=
  let x := s.entry e
  if !s.mayOriginate || !x.inCycle s.mi || !s.gateOpen x.ftype then .next s
  else if x.kind = 2 && x.ftype ≠ 5 then
    match s.launchOf e, FMap.get none s.ptn.tx e with
    | some l, some t => .next (s.launchWindow e l t)
    | some _, none => .next s
    | none, some t =>
      match t.payload with
      | some pl => .next (s.sendStaged e t none pl)
      | none => .next s.countEmpty
    | none, none => .next s.countEmpty
  else if x.kind = 4 then .next (foldSt (s.eventsOf e) (fun v s => s.sendEvent e v) s)
  else .next s

/-- `EVENT_FRAME_EXPIRY` (R316): queued frames older than one matrix period are discarded and counted. -/
def execEventFrameExpiry (s : State) : Host.Outcome State Fault Refusal :=
  let old := s.ptn.events.filter fun v => v.cyc + s.mx < s.tm.cyc
  let s := foldSt old (fun _ s => s.inc Reg.PTN_VOTE_UNFIT) s
  .next (s.modPtn fun y => { y with events := y.events.filter fun v => !(v.cyc + s.mx < s.tm.cyc) })

/-- `TIMED_LAUNCH_DUE` (R355, R358, R359): the frame of a launch entry leaves at its voted target. -/
def execTimedLaunchDue (l : Fin 8) (s : State) : Host.Outcome State Fault Refusal :=
  let e := s.rd (Reg.TMU_LAUNCH_ENTRY l.val)
  match FMap.get none s.tmu.launchDue l.val, FMap.get none s.ptn.tx e with
  | some due, some t =>
    match t.payload with
    | some pl =>
      let s := { s with tmu := { s.tmu with launchDue := FMap.set none s.tmu.launchDue l.val none } }
      if s.mayOriginate && s.gateOpen (s.entry e).ftype then
        let s := (s.sendStaged e t (some due.chain) pl).launchResult l.val 1
        .next { s with tmu := { s.tmu with lastTL := FMap.set 0 s.tmu.lastTL l.val due.target } }
      else .next s
    | none => .next s
  | _, _ => .next s

/-! ### Traffic that is not PTN -/

/-- Octets of a buffered frame, with its FCS. -/
def FreeFrame.len (f : FreeFrame) : Nat := max 64 (f.bytes.length + 4)

/-- Octets that wait for a port, and in the shared buffer. -/
def PtnSt.portUse (x : PtnSt) (p : Nat) : Nat := ((x.freeQ.filter fun f => f.ports.contains p).map (·.len)).foldl (· + ·) 0
def PtnSt.sharedUse (x : PtnSt) : Nat := (x.freeQ.map (·.len)).foldl (· + ·) 0

/-- VLAN ID under which a frame's addresses are learned (R327). DESIGN CHOICE (log 96): 0 of an untagged one. -/
def vlanOf (tag : Option (BitVec 16)) : Nat :=
  match tag with
  | some t => t.toNat % 4096
  | none => 0

/-- A gPTP frame, by its EtherType (R363). -/
def isGptp (tag : Option (BitVec 16)) (etherType : BitVec 16) : Bool := tag.isNone && etherType = 0x88F7#16

/-- The octets of a frame that is not PTN, less its FCS: a tag, where it has one, is carried unchanged (R327). -/
def foreignOctets (dst src : BitVec 48) (tag : Option (BitVec 16)) (etherType : BitVec 16) (data : List Byte) : List Byte :=
  natBE 6 dst.toNat ++ natBE 6 src.toNat ++
    (match tag with
     | some t => natBE 2 0x8100 ++ natBE 2 t.toNat
     | none => []) ++ natBE 2 etherType.toNat ++ data

/-- Learn a source address; at most 4,096 entries (R327). -/
def State.learn (s : State) (vlan : Nat) (mac : BitVec 48) (port : Nat) : State :=
  let same := fun (y : Learned) => y.vlan = vlan && y.mac = mac
  let rest := s.ptn.learned.filter fun y => !same y
  if rest.length < 4096 then
    let s := s.modPtn fun x => { x with learned := rest ++ [⟨vlan, mac, port, s.tm.opNs⟩] }
    s.wr Reg.PTN_FREE_LEARNED s.ptn.learned.length
  else s

/-- A port takes part in traffic that is not PTN (R328). -/
def State.freeFwd (s : State) (p : Nat) : Bool := p < 4 || s.rdb (Reg.PTN_PORT_FREE_FWD p)

/-- `FOREIGN_FRAME_RECEIVE` (R326 to R328, R363): learned, then buffered for its egress ports as far as there is room. -/
def execForeignFrameReceive (port : Fin 14) (dst src : BitVec 48) (tag : Option (BitVec 16)) (etherType : BitVec 16) (data : List Byte)
    (s : State) : Host.Outcome State Fault Refusal :=
  let p := port.val
  let bytes := foreignOctets dst src tag etherType data
  if !s.edgeUp || !s.portUp p || !s.freeFwd p || etherType.toNat = s.rd Reg.PTN_CFG_ETHERTYPE || isGptp tag etherType then .next s
  else
    let vlan := vlanOf tag
    let s := s.learn vlan src p
    let flood := (List.range 14).filter fun q => q ≠ p && s.freeFwd q
    let outs :=
      if dst.getLsbD 40 then flood
      else match s.ptn.learned.find? fun y => y.vlan = vlan && y.mac = dst with
        | some y => if y.port = p then [] else [y.port]
        | none => flood
    let f : FreeFrame := ⟨bytes, outs⟩
    let fit := outs.filter fun q => s.ptn.portUse q + f.len ≤ 65536
    if s.ptn.sharedUse + f.len ≤ 524288 && !fit.isEmpty then
      let s := if fit.length < outs.length then s.inc Reg.PTN_FREE_DROPPED else s
      .next (s.modPtn fun x => { x with freeQ := x.freeQ ++ [⟨bytes, fit⟩] })
    else if outs.isEmpty then .next s
    else .next (s.inc Reg.PTN_FREE_DROPPED)

/-- ns that a frame of some octets takes at a port, with preamble and gap. -/
def State.octetsNs (s : State) (p octets : Nat) : Nat := (octets + 20) * s.octetNs p

/-- The first free window of a port in this cycle in which a frame of some octets still ends g before its end (R326). -/
def State.freeWindow (s : State) (p octets : Nat) : Option Nat :=
  s.entries.find? fun e =>
    let x := s.entry e
    x.kind = 5 && x.ports.testBit p && x.inCycle s.mi && s.taken e p + s.octetsNs p octets + s.gNs ≤ x.length * 10

/-- Take that time of a free window; the chainage at which the frame starts. -/
def State.takeFree (s : State) (e p octets : Nat) : Nat × State :=
  let n := s.taken e p
  ((s.entry e).start * 10 + n, s.modPtn fun y => { y with used := FMap.set 0 y.used (e * 16 + p) (n + s.octetsNs p octets) })

/-- Remove the first queued frame of a port from that port. -/
def dequeue (p : Nat) : List FreeFrame → List FreeFrame
  | [] => []
  | f :: fs =>
    if f.ports.contains p then
      let l := f.ports.filter (· ≠ p)
      if l.isEmpty then fs else { f with ports := l } :: fs
    else f :: dequeue p fs

/-- The next buffered frame of the port leaves in a free window it fits into (R326). -/
def State.sendFree (s : State) (p : Nat) : State :=
  match s.ptn.freeQ.find? fun f => f.ports.contains p with
  | some f =>
    match s.freeWindow p f.len with
    | some e =>
      let (at', s) := s.takeFree e p f.len
      (s.emit p f.bytes true at').modPtn fun y => { y with freeQ := dequeue p y.freeQ }
    | none => s
  | none => s

/-- `ADDRESS_AGEING` (R327): entries not refreshed for 300 s go. -/
def execAddressAgeing (s : State) : Host.Outcome State Fault Refusal :=
  let s := s.modPtn fun x => { x with learned := x.learned.filter fun y => s.tm.opNs < y.seen + 300000000000 }
  .next (s.wr Reg.PTN_FREE_LEARNED s.ptn.learned.length)

/-! ### Links, bypass and hold-up -/

/-- Drive a bypass relay: its register bit and the two ports it bridges. -/
def State.relay (s : State) (lineB closed : Bool) : State :=
  let p := if lineB then 2 else 0
  let s := s.wrb (if lineB then Reg.PTN_BYPASS_RELAY_B else Reg.PTN_BYPASS_RELAY_A) closed
  (s.wrb (Reg.PTN_PORT_BYPASSED p) closed).wrb (Reg.PTN_PORT_BYPASSED (p + 1)) closed

/-- Every port of a line that the schedule names as connected reports link up. -/
def State.lineUp (s : State) (lineB : Bool) : Bool :=
  let p := if lineB then 2 else 0
  [p, p + 1].all fun q => !s.rdb (Reg.PTN_PORT_CONNECTED q) || s.rdb (Reg.PTN_PORT_LINK q)

/-- The insertion of line B is complete once its connected ports are up. -/
def State.endInsertion (s : State) : State :=
  if s.rd Reg.PTN_BYPASS_STAGE = 5 && s.lineUp true then s.wr Reg.PTN_BYPASS_STAGE 0 else s

/-- Both relays close at once (R330). -/
def State.bypassAtOnce (s : State) : State :=
  (((s.modPtn fun x => { x with relayNs := 0 }).relay false true).relay true true).wr Reg.PTN_BYPASS_STAGE 3

/-- The staged bypass from its trigger (R329, Table 10-10), or both relays at once where the hold-up store is too small
(R331). -/
def State.stagedBypass (s : State) : State :=
  if s.rd Reg.PTN_BYPASS_STAGE = 3 || s.rd Reg.PTN_BYPASS_STAGE = 1 then s
  else if s.rdb Reg.PTN_HOLDUP_NO_STAGE then s.bypassAtOnce
  else (s.modPtn fun x => { x with relayNs := 10000000 }).wr Reg.PTN_BYPASS_STAGE 1

/-- The edge's clock goes on by one cycle: relay A is closed 10 ms after its command (Table 10-10). -/
def State.relayTick (s : State) : State :=
  if s.ptn.relayNs = 0 then s
  else
    let n := s.ptn.relayNs - s.tbc
    let s := s.modPtn fun x => { x with relayNs := n }
    if n = 0 then s.relay false true else s

/-- `HOLDUP_STORE_LOSS` (R330). -/
def execHoldupStoreLoss (s : State) : Host.Outcome State Fault Refusal := .next s.bypassAtOnce

/-- `PORT_LINK_CHANGE` (R295): a link comes up at a speed the port offers, or goes down. -/
def execPortLinkChange (port : Fin 14) (speed : Nat) (s : State) : Host.Outcome State Fault Refusal :=
  let p := port.val
  if 3 ≤ speed || (p < 4 && speed = 1) then .next s
  else .next ((s.wrb (Reg.PTN_PORT_LINK p) (speed ≠ 0)).wr (Reg.PTN_PORT_SPEED p) speed).endInsertion

/-- `HOLDUP_MEASURE` (R331): once after each release of P the measurement starts. -/
def execHoldupMeasure (s : State) : Host.Outcome State Fault Refusal :=
  .next (if s.rdb Reg.PTN_HOLDUP_DONE then s else s.modPtn fun x => { x with holdupBusy := true })

/-- `HOLDUP_MEASURE_DONE` (R331). -/
def execHoldupMeasureDone (energyMj : Nat) (s : State) : Host.Outcome State Fault Refusal :=
  if !s.ptn.holdupBusy then .next s
  else
    let s := s.modPtn fun x => { x with holdupBusy := false }
    let s := (s.wrb Reg.PTN_HOLDUP_DONE true).wr Reg.PTN_HOLDUP_ENERGY (min 0xFFFF (energyMj / 100))
    let s := if energyMj < 40000 then (s.wrb Reg.PTN_HOLDUP_LOW true).diag 4 Src.ptn 0 0x00700010 else s
    .next (if energyMj < 32000 then (s.wrb Reg.PTN_HOLDUP_NO_STAGE true).diag 5 Src.ptn 0 0x00700010 else s)

/-- Step 1 of R332, where the edge is loaded with a valid schedule and the measurement is complete. -/
def State.insertA (s : State) : State :=
  if s.edgeUp && s.rdb Reg.PTN_HOLDUP_DONE && s.rd Reg.PTN_BYPASS_STAGE = 3 then
    (s.relay false false).wr Reg.PTN_BYPASS_STAGE 4
  else s

/-- `EDGE_INSERTION` (R332). -/
def execEdgeInsertion (s : State) : Host.Outcome State Fault Refusal := .next s.insertA

/-- `INSERTION_RETRY` (R332): 60 s after a failed insertion. -/
def execInsertionRetry (s : State) : Host.Outcome State Fault Refusal :=
  .next (if 0 < s.rd Reg.PTN_BYPASS_RETRIES then s.insertA else s)

/-- `LINE_A_LINKS_UP` (R332): relay B opens. -/
def execLineALinksUp (s : State) : Host.Outcome State Fault Refusal :=
  .next (if s.rd Reg.PTN_BYPASS_STAGE = 4 && s.lineUp false then
      ((s.relay true false).wr Reg.PTN_BYPASS_STAGE 5).endInsertion
    else s)

/-- `INSERTION_TIMEOUT` (R332): relay A closes again. -/
def execInsertionTimeout (s : State) : Host.Outcome State Fault Refusal :=
  .next (if s.rd Reg.PTN_BYPASS_STAGE = 4 then
      (((s.relay false true).wr Reg.PTN_BYPASS_STAGE 3).inc Reg.PTN_BYPASS_RETRIES).diag 5 Src.ptn 0 0x0070000C
    else s)

/-! ### Configuration -/

/-- Rules of R313, R319, R357 and R363 on a schedule with its configuration; `n` is M. -/
def schedOk (m : FMap Word) (cfg : NetCfg) : Bool :=
  let n := 2 ^ cfg.mCode
  let tbc := tbcOf cfg.tbcCode
  let es := schedUsed m
  let xs := es.map (schedEntry m)
  let full := 2 ^ n - 1
  let isRx := fun (x : SchedEntry) => x.kind = 3 || (x.kind = 4 && x.map ≠ 0)
  let tx := xs.filter fun x => x.kind = 2
  let rx := xs.filter isRx
  let overlap := fun (x y : SchedEntry) =>
    x.ports &&& y.ports ≠ 0 && x.mask &&& y.mask ≠ 0 && x.start < y.start + y.length && y.start < x.start + x.length
  let pairs := fun (f : SchedEntry → SchedEntry → Bool) => ((List.range xs.length).all fun i => (List.range i).all fun j =>
    match xs[i]?, xs[j]? with
    | some x, some y => f x y
    | _, _ => true)
  let fieldsOk := es.all fun e =>
    let x := schedEntry m e
    let w := schedWord m e
    x.kind ≤ 5 && bitsOf (w 2) 24 8 = 0 && bitsOf (w 3) 27 5 = 0 && bitsOf (w 4) 27 2 = 0 && bitsOf (w 4) 10 7 = 0 &&
      bitsOf (w 5) 14 18 = 0 && bitsOf (w 7) 14 9 = 0 && x.nb ≤ 360 && x.nw ≤ 360 && (x.map = 1 || x.map = 2 → x.index < 128) &&
      (x.kind ≠ 4 → x.prio = 0) && ((x.kind = 0 && x.ftype ≤ 6) || (1 ≤ x.ftype && x.ftype ≤ 6) || x.kind = 5) && x.mask ≤ full
  let octet := fun (x : SchedEntry) => if (x.ports &&& cfg.slow) ≠ 0 then 80 else 8
  let txFits := tx.all fun x => (frameOctets (if x.ftype = 5 then 52 else x.payLen) + 20) * octet x + 2 * cfg.g * 10 ≤ x.length * 10
  let within := xs.all fun x => (x.start + x.length) * 10 ≤ tbc && (!isRx x || (x.start + x.length) * 10 + 2 * cfg.pi * 10 ≤ tbc)
  let noOverlap := pairs fun x y =>
    let k := fun (x : SchedEntry) => x.kind = 1 || x.kind = 2 || x.kind = 4
    !((k x && k y || x.kind = 5 && y.kind ≠ 0 || y.kind = 5 && x.kind ≠ 0) && overlap x y)
  let payloads := xs.all fun x => x.payLen ≤ (if x.map = 1 then 256 else 1440)
  let regions := (tx.all fun x => x.locs.all fun i => (0x800 ≤ i && i < 0x1000) || (0x3000 ≤ i && i < 0x4000)) &&
    (rx.all fun x => x.locs.all fun i => (0x80 ≤ i && i < 0x800) || (0x2200 ≤ i && i < 0x3000))
  let distinct := pairs fun x y =>
    let d := fun (x : SchedEntry) => if isRx x then 1 else if x.kind = 2 then 2 else 0
    let same := x.safety && y.safety && d x = d y && d x ≠ 0 && x.peer = y.peer
    let shared := isRx x && isRx y && x.locs.any fun i => y.locs.contains i
    !same && !shared
  let stations := (xs.filter fun x => x.map = 1).all fun x => x.mask = full &&
    (rx.filter fun y => y.map = 1 && y.index = x.index).length = 1 && (tx.filter fun y => y.map = 1 && y.index = x.index).length = 1
  let peers := cfg.peers.all fun p => (if p.1 < 128 then 1 else 2) ≤ p.2.a && p.2.a ≤ 16 && 1 ≤ p.2.s && p.2.s ≤ 16
  let launches := cfg.launches.length ≤ 8 && cfg.launches.all fun l =>
    let x := schedEntry m l.1
    x.kind = 2 && x.ports % 16 = 0 && x.mask = full && l.2 % 2 = 0 && 0x2800 ≤ l.2 && l.2 < 0x3FFF &&
      (cfg.launches.filter fun k => k.2 = l.2).length = 1
  let gptp := (List.range 10).all fun p => !cfg.asPorts.testBit p || (List.range n).all fun i =>
    xs.any fun x => x.kind = 5 && x.ports.testBit (p + 4) && x.inCycle i && 2000 ≤ x.length
  (schedOverParams m).isEmpty && cfg.tbcCode ≤ 11 && cfg.mCode ≤ 6 && 2 * cfg.pi ≤ cfg.g && cfg.pi ≤ 200 && fieldsOk && within && noOverlap && txFits &&
    payloads && regions && distinct && stations && peers && launches && gptp && cfg.asSyncLog ≤ 5 &&
    100 ≤ cfg.holdPpb && cfg.holdPpb ≤ 10000

/-- The entry of a table that goes on with what entry `x` of another has received or staged: that of the same station or connection and
direction, otherwise that of the same slot and owner, where the payload is as long (R498). -/
def carryTo (m : FMap Word) (x : SchedEntry) : Option Nat :=
  (schedUsed m).find? fun e =>
    let y := schedEntry m e
    y.payLen = x.payLen && y.kind = x.kind &&
      (if x.safety then y.map = x.map && y.index = x.index else !y.safety && y.slot = x.slot && y.owner = x.owner)

/-- A table by entry of the schedule in force, carried to the entries of the next. -/
def carry (old new : FMap Word) (empty : β) [DecidableEq β] (t : FMap β) : FMap β :=
  t.foldl (fun r e => match carryTo new (schedEntry old e.1) with
    | some k => FMap.set empty r k e.2
    | none => r) []

/-- The state of frames by entry under the next table. -/
def PtnSt.carried (x : PtnSt) (m : FMap Word) : PtnSt :=
  { x with
    staged := carry x.sched m none x.staged, tx := carry x.sched m none x.tx, rx := carry x.sched m none x.rx,
    rxLate := carry x.sched m none x.rxLate, frozen := carry x.sched m none x.frozen, hdrSeq := carry x.sched m 0 x.hdrSeq,
    events := x.events.filterMap fun v => (carryTo m (schedEntry x.sched v.entry)).map fun e => { v with entry := e } }

/-- Configuration fields copied from the schedule section when it comes into force (R335, R366, R67). At an epoch boundary (`switch`) a
station or connection of both tables keeps its state, and a new one starts returning (R498). -/
def State.applySched (s : State) (m : FMap Word) (cfg : NetCfg) (epoch : Nat) (switch : Bool) : State :=
  let es := schedUsed m
  let xs := es.map (schedEntry m)
  let node := s.rd Reg.PTN_CFG_NODE
  let s := { s with tmu := { s.tmu with epoch := epoch } }
  let s := s.modPtn fun x => { (if switch then x.carried m else
    { x with staged := [], tx := [], frozen := [], rx := [], rxLate := [], events := [], hdrSeq := [] }) with sched := m, net := cfg }
  let has := fun (rx : Bool) (k : Nat) => xs.any fun x => x.safety && x.peer = k && (x.kind = (if rx then 3 else 2) || (rx && x.kind = 4))
  let s := (s.wr Reg.PTN_CFG_ETHERTYPE cfg.etherType).wr Reg.PTN_CFG_STATIONS ((List.range 128).filter (has true)).length
  let s := ((s.wr Reg.PTN_STATUS_ENTRIES (xs.filter fun x => x.kind ≠ 0).length).wr Reg.PTN_GUARD_PI cfg.pi).wr Reg.PTN_GUARD_G cfg.g
  let s := foldSt (List.range 14) (fun p s =>
    ((s.wrb (Reg.PTN_PORT_FREE_FWD p) (p < 4 || cfg.freeFwd.testBit p)).wrb (Reg.PTN_PORT_CONNECTED p) (cfg.connected.testBit p)).wr
      (Reg.TMU_PORT_DELAY_LINK_NS p) (FMap.get 0 cfg.linkNs p)) s
  let s := foldSt (List.range 256) (fun k s =>
    let fld := peerFld Reg.PTN_STN_CONFIGURED Reg.PTN_CONN_CONFIGURED k
    let on := has true k
    let s := if on && !s.rdb fld then
        let s := s.modPtn fun x => { x with rxSeq := FMap.set none x.rxSeq k none, retSeq := FMap.set 0 x.retSeq k (FMap.get 0 x.sentSeq k) }
        if switch then (s.wr (Peer.ret k) 2).peerBit k false else s
      else s
    let s := s.wrb fld on
    if on then (s.wr (Peer.limA k) (cfg.peer k).a).wr (Peer.limS k) (cfg.peer k).s else s) s
  let el := if cfg.masters0.contains node then some (0, cfg.masters0.idxOf node)
    else if cfg.masters1.contains node then some (1, cfg.masters1.idxOf node) else none
  let s := s.wr Reg.TMU_CFG_HOLD_PPB cfg.holdPpb
  let s := match el with
    | some (d, r) => (((s.wrb Reg.TMU_CFG_ELIGIBLE true).wr Reg.TMU_CFG_EL_DOMAIN d).wr Reg.TMU_CFG_RANK r).wr Reg.TMU_CFG_COLD_PRIO (4 * d + r)
    | none => (((s.wrb Reg.TMU_CFG_ELIGIBLE false).wr Reg.TMU_CFG_EL_DOMAIN 0).wr Reg.TMU_CFG_RANK 0).wr Reg.TMU_CFG_COLD_PRIO 0
  let s := foldSt (List.range 8) (fun l s =>
    match cfg.launches[l]? with
    | some (e, w) => ((s.wrb (Reg.TMU_LAUNCH_ENABLED l) true).wr (Reg.TMU_LAUNCH_TARGET_WORD l) w).wr (Reg.TMU_LAUNCH_ENTRY l) e
    | none => ((s.wrb (Reg.TMU_LAUNCH_ENABLED l) false).wr (Reg.TMU_LAUNCH_TARGET_WORD l) 0).wr (Reg.TMU_LAUNCH_ENTRY l) 0) s
  let s := ((s.wr Reg.TMU_AS_PRIORITY1 cfg.asPrio).wr Reg.TMU_AS_SYNC_LOG cfg.asSyncLog).wr Reg.TMU_AS_PORTS cfg.asPorts
  let s := ((s.wr Reg.TMU_CYC_CFG_TBC_CODE cfg.tbcCode).wr Reg.TMU_CYC_CFG_M_CODE cfg.mCode).wr Reg.TMU_CYC_CFG_EPOCH epoch
  s.wr Reg.TMU_CYC_WINDOW_WINDOW_CLK (windowClk (tbcOf cfg.tbcCode))

end Sys2Proof.Machine
end

