-- ==== Sys2Proof/Machine/Tmu.lean ====
section
/-! DEFINITION. Network time: datum frames and what a node takes from them, valid time, uncertainty and listen-only, masters
and domains, cold start, the gPTP service and the time output; and the reception of a PTN frame, which feeds it. -/

namespace Sys2Proof.Machine

def State.modTmu (s : State) (f : TmuSt → TmuSt) : State := { s with tmu := f s.tmu }
def TmuSt.dom (x : TmuSt) (d : Nat) : DomSt := if d = 0 then x.d0 else x.d1
def State.setDom (s : State) (d : Nat) (f : DomSt → DomSt) : State :=
  s.modTmu fun x => if d = 0 then { x with d0 := f x.d0 } else { x with d1 := f x.d1 }

/-- Domain in use, and this node's own list. -/
def State.domUse (s : State) : Nat := s.rd Reg.TMU_STATUS_DOMAIN
def State.ownDom (s : State) : Nat := s.rd Reg.TMU_CFG_EL_DOMAIN
def State.mastersOf (s : State) (d : Nat) : List Nat := if d = 0 then s.ptn.net.masters0 else s.ptn.net.masters1

/-- The node sends the datums of the domain in use. -/
def State.isMaster (s : State) : Bool := (s.tmu.dom s.domUse).master

/-- STARTUP to MAINT. -/
def State.inTrain (s : State) : Bool :=
  match s.md.mode with
  | .startup | .run3 | .run2 | .safe | .maint => true
  | _ => false

/-! ### Uncertainty -/

/-- Offset uncertainty u (R344) at a local time; 0 at the master of the domain in use and at a cold-starting node, whose own
timebase is the time it originates. -/
def State.uncertainty (s : State) (now : Nat) : Nat :=
  let d := s.tmu.dom s.domUse
  if s.isMaster || s.rd Reg.TMU_STATUS_ROLE = 3 then 0
  else if s.rd (Reg.TMU_DOMAIN_ACCEPTED s.domUse) = 0 then 0xFFFFFF
  else min 0xFFFFFF (d.theta.natAbs + 20 + s.rd Reg.TMU_CFG_HOLD_PPB * (now - d.at') / 1000000000)

/-- Report u, and go listen-only where it exceeds Π / 2 (R318). -/
def State.noteU (s : State) (now : Nat) : State :=
  let u := s.uncertainty now
  let s := s.wr Reg.TMU_UNCERT_U u
  if s.piNs < 2 * u then (s.wrb Reg.PTN_STATUS_LISTEN_ONLY true).modTmu fun x => { x with calm := 0 } else s

/-- Set the validity of network time. While it is invalid the time output is low (R364). -/
def State.setValid (s : State) (v : Bool) : State :=
  let s := { s with tm := { s.tm with valid := v } }
  let s := if v then s.modMd fun m => { m with invalidNs := 0 }
    else ((s.setDom 0 fun d => { d with good := 0 }).setDom 1 fun d => { d with good := 0 }).modTmu fun x => { x with pulse := none }
  s.wrb Reg.TMU_STATUS_VALID v

/-! ### Accepting a datum -/

/-- The payload of a DATUM or COLDSTART frame (Table 11-1). -/
structure Datum where
  origin : Nat
  launch : Nat
  corr : Nat
  hops : Nat
  rank : Nat
  tbcCode : Nat
  mCode : Nat
  prio : Nat
  epoch : Nat
  deriving DecidableEq, Repr

def parseDatum (pl : List Byte) : Datum :=
  let n := fun (i k : Nat) => beNat ((pl.drop i).take k)
  { origin := n 0 8, launch := n 8 4, corr := n 12 4, hops := n 16 1, rank := n 17 1 / 64, tbcCode := n 17 1 % 16,
    mCode := n 18 1 % 8, prio := n 19 1, epoch := n 20 4 }

/-- θ in ns (R341). -/
def State.thetaOf (s : State) (port : Nat) (x : Datum) (startNs : Nat) : Int :=
  ((s.tm.tcNs + startNs : Nat) : Int) - s.deltaRx port -
    ((x.origin + x.launch + x.corr / 16 + s.rd (Reg.TMU_PORT_DELAY_LINK_NS port) : Nat) : Int)

/-- A number limited to ±`m`. -/
def clampI (m v : Int) : Int := max (-m) (min m v)

/-- The corrections of one more basic cycle of `tbc` ns (R342): those of the cycle that ends have moved the timebase, and the slew of
the last datum is spread over the one that begins, with the rate, within ±200 ppm. -/
def TmuSt.discipline (x : TmuSt) (tbc : Nat) : TmuSt :=
  { x with osc := x.osc + x.force * tbc, force := clampI 200000 (x.rate + x.slew * 1000000000 / tbc), slew := 0, nowNs := 0 }

/-- Take an accepted frame of domain `d` (R341 to R345). The first one in INTEGRATE steps the timebase to θ = 0. -/
def State.takeDatum (s : State) (d src : Nat) (x : Datum) (theta : Int) (startNs : Nat) : State :=
  let step := s.md.mode = .integrate && !s.tmu.stepped
  let s := if step then
      ({ s with tm := { s.tm with tcNs := x.origin, cyc := x.origin / s.tbc } }).modTmu fun t => { t with stepped := true }
    else s
  let th := if step then 0 else theta
  let codes := x.tbcCode = s.rd Reg.TMU_CYC_CFG_TBC_CODE && x.mCode = s.rd Reg.TMU_CYC_CFG_M_CODE
  let s := if s.md.mode = .integrate && !codes then
      s.diag 3 Src.tmu 0 0x00800100 [x.tbcCode, x.mCode]
    else s
  let s := s.setDom d fun y => { y with
    acc := true, good := if th.natAbs * 4 ≤ s.piNs then y.good + 1 else 0, theta := th, at' := s.tm.tcNs + startNs, codesOk := codes }
  let s := ((s.inc (Reg.TMU_DOMAIN_ACCEPTED d)).wr (Reg.TMU_DOMAIN_MASTER d) src).wr (Reg.TMU_DOMAIN_RANK d) x.rank
  let s := s.modTmu fun t => { t with quiet := 0 }
  if d = s.domUse && !s.isMaster then
    let t : Int := s.tbc
    let s := s.wr Reg.TMU_OFFSET_THETA (BitVec.ofInt 32 th).toNat
    let s := s.modTmu fun y => { y with
      slew := clampI (t / 10000) (-th), rate := clampI 200000 (y.rate - th * 1000000000 / (8 * t)) }
    s.noteU (s.tm.tcNs + startNs)
  else s

/-- A DATUM or COLDSTART frame that has passed Table 10-4 (R347, R352). -/
def State.datumIn (s : State) (port : Nat) (f : PtnFrame) (startNs : Nat) : State :=
  let x := parseDatum (f.body.take 32)
  let integ := s.md.mode = .integrate
  if !(integ || s.inTrain) then s
  else if f.type = 2 && !integ then s
  else
    let th := s.thetaOf port x startNs
    let codes := x.tbcCode = s.rd Reg.TMU_CYC_CFG_TBC_CODE && x.mCode = s.rd Reg.TMU_CYC_CFG_M_CODE && x.epoch = s.tmu.epoch
    let role := s.rd Reg.TMU_STATUS_ROLE
    let p := s.rd Reg.TMU_CFG_COLD_PRIO
    if 1 < f.domain || !(s.mastersOf f.domain).contains f.src || (!integ && !codes) then s.inc Reg.TMU_REJECT_MISMATCH
    else if s.tm.valid && s.piNs < th.natAbs then s.inc Reg.TMU_REJECT_OUTLIER
    else if f.type = 2 && (role = 3 || role = 4) && x.prio = p then
      if role = 4 then s
      else
        let (v, s) := s.take
        let n := 1 + v % 16
        let s := (((s.wr Reg.TMU_STATUS_ROLE 4).wrb Reg.TMU_COLD_CONFLICT true).inc Reg.TMU_COLD_BACKOFFS).wr Reg.TMU_COLD_LAST_PERIODS n
        (s.modTmu fun t => { t with coldSends := 0, backoff := n * s.mx }).diag 4 Src.tmu 0 0x00800034
    else if f.type = 2 && role = 3 && p < x.prio then s
    else
      let s := if role = 3 || role = 4 then
          (s.wr Reg.TMU_STATUS_ROLE 5).modTmu fun t => { t with coldSends := 0, backoff := 0, stepped := false }
        else s
      s.takeDatum f.domain f.src x th startNs

/-- `PTN_FRAME_RECEIVE` (R301): checked, forwarded, and delivered to its mapping or to the time unit. LEASE frames act by
the rows of the twin unit. -/
def execPtnFrameReceive (port : Fin 14) (bytes : List Byte) (startNs endNs : Nat) (fcsOk : Bool) (s : State) :
    Host.Outcome State Fault Refusal :=
  let (r, s) := s.receive port.val bytes startNs fcsOk
  match r with
  | .accepted e f =>
    if f.type = 1 || f.type = 2 then .next (s.datumIn port.val f startNs)
    else if (s.entry e).map ≠ 0 && f.type ≠ 6 then .next (s.deliver e f (s.tbc ≤ endNs))
    else .next s
  | _ => .next s

/-! ### The time unit at a Tc -/

/-- Datums of the last cycle: alive bits, missing counts and runs of one domain. -/
def State.domAtTc (s : State) (d : Nat) : State :=
  let acc := (s.tmu.dom d).acc
  let s := s.wrb (if d = 0 then Reg.TMU_STATUS_DOM0_ALIVE else Reg.TMU_STATUS_DOM1_ALIVE) acc
  let s := if acc then s.wr (Reg.TMU_DOMAIN_MISSED d) 0 else s.inc (Reg.TMU_DOMAIN_MISSED d)
  s.setDom d fun y => { y with run := if acc then y.run + 1 else 0 }

/-- A domain heard in the last cycle; a master hears its own. -/
def DomSt.live (d : DomSt) : Bool := d.acc || d.master

/-- Choice of the domain in use (R348). -/
def State.chooseDomain (s : State) : State :=
  let a := s.tmu.d0
  let b := s.tmu.d1
  if s.domUse = 0 then
    if !a.live && 3 ≤ s.rd (Reg.TMU_DOMAIN_MISSED 0) && b.live then
      (s.wr Reg.TMU_STATUS_DOMAIN 1).modTmu fun x => { x with both := 0 }
    else s
  else
    let ok := a.live && b.live && (a.theta - b.theta).natAbs * 4 ≤ s.piNs
    let n := if ok then s.tmu.both + 1 else 0
    let s := s.modTmu fun x => { x with both := n }
    if 8 ≤ n then (s.wr Reg.TMU_STATUS_DOMAIN 0).modTmu fun x => { x with both := 0 } else s

/-- Validity at a Tc (R345, R346, R352). -/
def State.validAtTc (s : State) : State :=
  if s.md.mode = .integrate then
    if s.tm.valid then s
    else
      let ok := fun (d : DomSt) => 32 ≤ d.run && 8 ≤ d.good && d.codesOk
      if ok s.tmu.d0 then (s.wr Reg.TMU_STATUS_DOMAIN 0).setValid true
      else if ok s.tmu.d1 then (s.wr Reg.TMU_STATUS_DOMAIN 1).setValid true
      else if s.rd Reg.TMU_STATUS_ROLE = 3 && 8 ≤ s.tmu.coldSends then
        let s := (s.wr Reg.TMU_STATUS_DOMAIN s.ownDom).setDom s.ownDom fun y => { y with master := true }
        (s.modTmu fun x => { x with coldSends := 0, coldOrigin := true }).setValid true
      else s
  else if !s.inTrain then s
  else if s.tm.valid then
    if s.piNs < s.uncertainty s.tm.tcNs then s.setValid false else s
  else if 8 ≤ (s.tmu.dom s.domUse).good then s.setValid true
  else s

/-- Mastership of the own domain at a Tc (R350). -/
def State.masterAtTc (s : State) : State :=
  if !s.rdb Reg.TMU_CFG_ELIGIBLE then s
  else
    let d := s.ownDom
    let r := s.rd Reg.TMU_CFG_RANK
    let y := s.tmu.dom d
    if y.master then
      if y.acc && s.rd (Reg.TMU_DOMAIN_RANK d) < r then s.setDom d fun y => { y with master := false } else s
    else if s.tm.valid && s.inTrain then
      let n := (s.mastersOf d).length
      let heard := s.rd (Reg.TMU_DOMAIN_MASTER d) ≠ 0
      let k := if heard then (r + n - s.rd (Reg.TMU_DOMAIN_RANK d) - 1) % n + 1 else r % n + 1
      if 3 * k ≤ s.rd (Reg.TMU_DOMAIN_MISSED d) then s.setDom d fun y => { y with master := true } else s
    else s

/-- Role and master as the registers report them. -/
def State.tmuRegs (s : State) : State :=
  let m := if s.isMaster then s.rd Reg.PTN_CFG_NODE else s.rd (Reg.TMU_DOMAIN_MASTER s.domUse)
  let s := s.wr Reg.TMU_STATUS_MASTER m
  if s.inTrain || (s.md.mode = .integrate && s.tm.valid) then
    s.wr Reg.TMU_STATUS_ROLE (if s.tmu.d0.master then 1 else if s.tmu.d1.master then 2 else 0)
  else s

/-- Leave listen-only after one matrix period below Π / 4 (R318). -/
def State.calmAtTc (s : State) : State :=
  let s := s.noteU s.tm.tcNs
  let calm := if 4 * s.rd Reg.TMU_UNCERT_U < s.piNs then s.tmu.calm + 1 else 0
  let s := s.modTmu fun x => { x with calm := calm }
  if s.mx < calm && s.rdb Reg.PTN_STATUS_LISTEN_ONLY then s.wrb Reg.PTN_STATUS_LISTEN_ONLY false else s

/-- The time output falls 10 ms after it rose (R364); DESIGN CHOICE (log 97): at the Tc at or after that instant. -/
def State.pulseAtTc (s : State) : State :=
  s.modTmu fun x => { x with pulse := x.pulse.filter fun t => s.timeValid && s.tm.tcNs < t + 10000000 }

/-- The time unit's share of a Tc, after time has advanced. -/
def State.tmuAtTc (s : State) : State :=
  let s := s.pulseAtTc
  if !(s.md.mode = .integrate || s.inTrain) then s
  else
    let heard := s.tmu.d0.acc || s.tmu.d1.acc
    let s := (s.domAtTc 0).domAtTc 1
    let s := s.chooseDomain.validAtTc.masterAtTc
    let s := s.modTmu fun x => { x with
      quiet := if heard then 0 else x.quiet + 1, backoff := x.backoff - 1, launchDue := [] }
    let s := s.calmAtTc
    let s := (s.setDom 0 fun y => { y with acc := false }).setDom 1 fun y => { y with acc := false }
    s.tmuRegs

/-! ### Sending datums and cold start -/

/-- The datum entries that the module sends in. -/
def State.ownDatums (s : State) : List Nat :=
  s.entries.filter fun e => (s.entry e).kind = 1 && (s.entry e).owner = s.rd Reg.PTN_CFG_NODE && (s.entry e).inCycle s.mi

/-- Payload of a datum (Table 11-1). The master of domain 1 is locked to domain 0 while it accepts its datums (R349). -/
def State.datumPayload (s : State) (x : SchedEntry) (domain : Nat) (cold : Bool) : List Byte :=
  let locked := !cold && domain = 1 && s.domUse = 0 && s.rdb Reg.TMU_STATUS_DOM0_ALIVE
  natBE 8 s.tm.tcNs ++ natBE 4 (x.start * 10 + s.gNs) ++ natBE 4 0 ++ natBE 1 0 ++
    natBE 1 (s.rd Reg.TMU_CFG_RANK * 64 + s.rd Reg.TMU_CYC_CFG_TBC_CODE) ++
    natBE 1 (s.rd Reg.TMU_CYC_CFG_M_CODE + 8 * bitNat locked + 16 * bitNat (cold || s.tmu.coldOrigin)) ++
    natBE 1 (s.rd Reg.TMU_CFG_COLD_PRIO) ++ natBE 4 s.tmu.epoch ++ List.replicate 8 0

/-- Send a datum on some ports of its entry. -/
def State.sendDatum (s : State) (e domain : Nat) (cold : Bool) (onPort : Nat → Bool) : State :=
  let x := s.entry e
  (s.sendOn e ((s.txPorts x).filter onPort) none (buildFrame (natBE 6 (0x03A150000000 + domain)) (s.rd Reg.PTN_CFG_ETHERTYPE)
    (s.rd Reg.PTN_CFG_NODE) domain (if cold then 2 else 1) s.mi x.slot (FMap.get 0 s.ptn.hdrSeq e) (s.datumPayload x domain cold)) 32).2

/-- `DATUM_SEND` (R337, R339, R350, R351): a master's DATUM on both lines, the module's own DATUM on its consist ports, or a
COLDSTART frame, which listen-only does not hold back: a node that integrates has no uncertainty of its own. -/
def execDatumSend (s : State) : Host.Outcome State Fault Refusal :=
  let es := s.ownDatums
  if !s.edgeUp || es.isEmpty then .next s
  else if s.md.mode = .integrate then
    if s.rd Reg.TMU_STATUS_ROLE = 3 then
      .next ((foldSt es (fun e s => s.sendDatum e s.ownDom true fun p => p < 4) s).modTmu fun x => { x with coldSends := x.coldSends + 1 })
    else .next s
  else if s.inTrain && !s.rdb Reg.PTN_STATUS_LISTEN_ONLY then
    let m := (s.tmu.dom s.ownDom).master && s.rdb Reg.TMU_CFG_ELIGIBLE
    .next (foldSt es (fun e s => s.sendDatum e (if m then s.ownDom else s.domUse) false fun p => 4 ≤ p || m) s)
  else .next s

/-- `COLDSTART_TIMEOUT` (R351): an eligible node in INTEGRATE that has heard nothing for 2 M + 4 p cycles. -/
def execColdstartTimeout (s : State) : Host.Outcome State Fault Refusal :=
  .next (if s.md.mode = .integrate && s.rdb Reg.TMU_CFG_ELIGIBLE && s.rd Reg.TMU_STATUS_ROLE = 5 &&
      2 * s.mx + 4 * s.rd Reg.TMU_CFG_COLD_PRIO ≤ s.tmu.quiet then
    (s.wr Reg.TMU_STATUS_ROLE 3).modTmu fun x => { x with coldSends := 0 }
  else s)

/-- `COLDSTART_BACKOFF_END` (R352): the node counts again under R351. -/
def execColdstartBackoffEnd (s : State) : Host.Outcome State Fault Refusal :=
  .next (if s.rd Reg.TMU_STATUS_ROLE = 4 && s.tmu.backoff = 0 then
    (s.wr Reg.TMU_STATUS_ROLE 5).modTmu fun x => { x with quiet := 0 }
  else s)

/-! ### gPTP and the time output -/

/-- Clock class announced (R362). -/
def State.clockClass (s : State) : Nat := if s.timeValid then 13 else 14

/-- Octets of a gPTP message with its Ethernet header and FCS. -/
def gptpOctets (kind : Nat) : Nat := if kind = 11 then 82 else if kind = 2 || kind = 3 || kind = 10 then 72 else 64

/-- The next gPTP message that waits for a port leaves in a free window that it fits into (R363); its time is that of its start. -/
def State.gptpLeave (s : State) (p : Nat) : State :=
  match s.tmu.gptpWait.find? fun e => e.1 = p with
  | some (q, g) =>
    match s.freeWindow p (gptpOctets g.kind) with
    | some e =>
      let (at', s) := s.takeFree e p (gptpOctets g.kind)
      s.modTmu fun x => { x with
        gptpWait := x.gptpWait.erase (q, g), gptp := FMap.set none x.gptp (p * 16 + g.kind) (some { g with time := s.tm.tcNs + at' }) }
    | none => s
  | none => s

/-- Every gPTP message that waits for a port leaves, as far as this cycle's free windows have room. -/
def State.gptpFlush (s : State) (p : Nat) : State := foldSt (List.range s.tmu.gptpWait.length) (fun _ s => s.gptpLeave p) s

/-- A port serves gPTP: a consist port enabled for it, in STARTUP to MAINT (R361). -/
def State.gptpOn (s : State) (p : Nat) : Bool :=
  4 ≤ p && (s.rd Reg.TMU_AS_PORTS).testBit (p - 4) && s.inTrain && s.edgeUp && s.portUp p

/-- gPTP messages of a port (R361, R362): 0 Sync and 8 its Follow_Up, 3 Pdelay_Resp and 10 its Follow_Up, 11 Announce. They are of domain
0, on the arbitrary timescale, with timeSource 0xA0. -/
def State.gptpSend (s : State) (p : Nat) (kinds : List Nat) (logInterval : Int) : State :=
  if s.gptpOn p then
    let new := kinds.map fun k =>
      let last := ((s.tmu.gptpWait.filter fun e => e.1 = p && e.2.kind = k).getLast?.map (·.2)).or (FMap.get none s.tmu.gptp (p * 16 + k))
      let n := (last.map fun m => m.seq + 1).getD 0
      (p, { kind := k, domain := 0, seq := n % 65536, logInterval := logInterval, clockClass := s.clockClass,
            priority1 := s.rd Reg.TMU_AS_PRIORITY1, timeSource := 0xA0, ptpTimescale := false, time := s.tm.tcNs : GptpMsg })
    (s.modTmu fun x => { x with gptpWait := x.gptpWait ++ new }).gptpFlush p
  else s

/-- `GPTP_SYNC` (R361): Sync with Follow_Up. -/
def execGptpSync (s : State) : Host.Outcome State Fault Refusal :=
  .next (foldSt (List.range 14) (fun p s => s.gptpSend p [0, 8] (-(s.rd Reg.TMU_AS_SYNC_LOG : Int))) s)

/-- `GPTP_ANNOUNCE` (R361, R362). -/
def execGptpAnnounce (s : State) : Host.Outcome State Fault Refusal :=
  .next (foldSt (List.range 14) (fun p s => s.gptpSend p [11] 0) s)

/-- `GPTP_PDELAY_REQ` (R361): a received Pdelay_Req is answered by Pdelay_Resp and its Follow_Up. PRESUMED (log 98): their log interval is
0x7F, as IEEE 802.1AS has it. -/
def execGptpPdelayReq (port : Fin 14) (s : State) : Host.Outcome State Fault Refusal := .next (s.gptpSend port.val [3, 10] 127)

/-- `FREE_WINDOW_FORWARD` (R326, R363): what waits for the port leaves in its free windows, as far as they have room. -/
def execFreeWindowForward (port : Fin 14) (s : State) : Host.Outcome State Fault Refusal :=
  let p := port.val
  if !s.edgeUp || !s.portUp p then .next s
  else
    let s := s.gptpFlush p
    .next (if s.freeFwd p then foldSt (List.range s.ptn.freeQ.length) (fun _ s => s.sendFree p) s else s)

/-- `TIME_PULSE` (R364): the time output rises at a whole second of network time; it stays low while time is invalid. -/
def execTimePulse (s : State) : Host.Outcome State Fault Refusal :=
  .next (if s.timeValid then s.modTmu fun x => { x with pulse := some ((s.tm.tcNs + s.tbc - 1) / 1000000000 * 1000000000) } else s)

end Sys2Proof.Machine
end

