-- ==== Sys2Proof/Machine/Cmd.lean ====
section
/-! DEFINITION. The host's accesses: interrupts, register writes by access code (R7), the command lane with its results
(R402 to R413), and the checks that every command passes before its own effect. -/

namespace Sys2Proof

/-- The effect of a command record: the state it leaves, or the status with which it is refused (Table 13-5). A
refused command has no side effect (R407). -/
abbrev CmdRes (σ : Type) := Except Nat σ

end Sys2Proof

namespace Sys2Proof.Machine

def St.wrongState : Nat := 1
def St.badArg : Nat := 2
def St.poisoned : Nat := 3
def St.busy : Nat := 4
def St.denied : Nat := 5
def St.unknown : Nat := 6

def State.modHbr (s : State) (f : HbrSt → HbrSt) : State := { s with hbr := f s.hbr }
def State.modLaneQ (s : State) (f : LaneQ → LaneQ) : State := { s with lane := f s.lane }
def State.modSec (s : State) (f : SecSt → SecSt) : State := { s with sec := f s.sec }
def State.modRpc (s : State) (f : RpcSt → RpcSt) : State := { s with rpc := f s.rpc }

/-- PD-H is powered, loaded and out of reset, so the bridge and the lane run. -/
def State.hostAlive (s : State) : Bool :=
  s.pdhGood && natBit (s.rd Reg.RPC_LOAD_LOAD_DONE) 7 && !s.rpc.por && !s.rpc.mod && s.md.mode ≠ .off

/-- The host port is up: the bridge accepts requests (R416, `STATE` of `HBR_LINK`). -/
def State.hostUp (s : State) : Bool := s.hostAlive && s.rd Reg.HBR_LINK_STATE = 3

/-- The service port is served: its session is open (R503). -/
def State.svcUp (s : State) : Bool := s.hostAlive && s.rdb Reg.SEC_SES_STAT_SVC_OPEN

/-- A port accepts requests. -/
def State.portServed (s : State) : CmdPort → Bool
  | .host => s.hostUp
  | .service => s.svcUp

/-! ### Interrupts -/

/-- What an unwritten word of the MSI-X table reads as: every vector is masked by bit 0 of its fourth word, as the layout of PCI Express
Base 3.0 has it (chapter 19). -/
def msixDefault (k : Nat) : Word := if k % 4 = 3 then 1 else 0

/-- A word of the MSI-X table. -/
def HbrSt.msixWord (x : HbrSt) (k : Nat) : Word := FMap.get (msixDefault k) x.msixTable k

/-- The message of a vector leaves; that of a masked one waits with its pending bit set. -/
def HbrSt.raise (x : HbrSt) (i : Nat) : HbrSt :=
  if (x.msixWord (4 * i + 3)).getLsbD 0 then { x with pba := x.pba ||| (1#32 <<< i) }
  else { x with msix := FMap.set 0 x.msix i (FMap.get 0 x.msix i + 1), pba := x.pba &&& ~~~(1#32 <<< i) }

/-- A write of a word of the MSI-X table; a vector that it unmasks sends the message that waits. -/
def HbrSt.msixWrite (x : HbrSt) (k : Nat) (w : Word) : HbrSt :=
  let x := { x with msixTable := FMap.set (msixDefault k) x.msixTable k w }
  if k % 4 = 3 && x.pba.getLsbD (k / 4) && !w.getLsbD 0 then x.raise (k / 4) else x

/-- Set bit `i` of `HBR_INT_STATUS`; an enabled bit raises its MSI-X vector as it becomes set (R415). -/
def State.raiseInt (s : State) (i : Nat) : State :=
  let was := natBit (s.rd Reg.HBR_INT_STATUS_INT) i
  let s := s.setBit Reg.HBR_INT_STATUS_INT i
  if !was && natBit (s.rd Reg.HBR_INT_ENABLE_EN) i then
    s.modHbr fun x => x.raise i
  else s

/-! ### Refused accesses -/

/-- Count a refused access (R395, R396, R398, R556). -/
def State.accErr (s : State) (kind : Nat) (poison : Bool) (off : Nat) : State :=
  (((s.inc Reg.HBR_ACC_ERR_COUNT).wr Reg.HBR_ACC_ERR_KIND kind).wrb Reg.HBR_ACC_ERR_POISON poison).wr Reg.HBR_ACC_ADDR_OFFSET off

/-- A refused access of BAR 0 with its log record and interrupt (R415, R555). -/
def State.accErr0 (s : State) (kind : Nat) (poison : Bool) (off : Nat) : State :=
  ((s.accErr kind poison off).diag 3 Src.hbr 0 0x100008 [off]).raiseInt 4

/-! ### Register writes -/

/-- A code that reaches a field of RW or RWL access and that its chapter reserves (R11, R12). -/
def Fld.reserved (f : Fld) (v : Nat) : Bool :=
  let b := f.off / 0x100000
  if b = 1 && f.off = 0x100028 && f.lsb = 8 then v < 2
  else if b = 12 && 0xC02000 ≤ f.off && f.off < 0xC02800 && f.off % 0x80 = 4 then
    (if f.lsb = 24 then v = 4 || v = 5 || 8 ≤ v else f.lsb = 0 && (v = 0 || 64 < v))
  else if 3 ≤ b && b ≤ 5 && f.off % 0x100000 = 0x102C % 0x100000 && f.lsb = 24 then v = 7
  else if b = 8 then f.width = 11 && v = 1024
  else false

/-- A refused or ineffective access of a register is logged (R7, R11, R555). -/
def State.refusedAccess (s : State) (off : Nat) : State := s.diag 3 Src.hbr 0 off

/-- Writes of the flip registers are accepted in MAINT and STARTUP only (R225). -/
def flipReg (off : Nat) : Bool :=
  let b := off / 0x100000
  3 ≤ b && b ≤ 5 && 0x1024 ≤ off % 0x100000 && off % 0x100000 ≤ 0x1030

/-- A session is open on some port. -/
def State.session (s : State) : Bool := s.rd Reg.SEC_SES_STAT_HOST_STATE = 2 || s.rdb Reg.SEC_SES_STAT_SVC_OPEN

/-- Roles of the open sessions, as a mask (R500). -/
def State.roles (s : State) : Nat :=
  (if s.rd Reg.SEC_SES_STAT_HOST_STATE = 2 then s.rd Reg.SEC_SES_STAT_HOST_ROLES else 0) |||
    (if s.rdb Reg.SEC_SES_STAT_SVC_OPEN then s.rd Reg.SEC_SES_STAT_SVC_ROLES else 0)

/-- A write of one field by its access code (Table 0-6); the fields that trigger an action do so in the command of their
own. -/
def State.writeField (s : State) (f : Fld) (w : Word) : State :=
  let v := w.toNat / 2 ^ f.lsb % 2 ^ f.width
  match f.acc with
  | .rw => if Fld.reserved f v then s.refusedAccess f.off else s.wr f v
  | .rwl =>
    if s.md.mode = .maint && s.session then (if Fld.reserved f v then s.refusedAccess f.off else s.wr f v)
    else s.refusedAccess f.off
  | .w1c => s.wr f (s.rd f &&& (2 ^ f.width - 1 - v))
  | _ => s

def Acc.writable : Acc → Bool
  | .ro | .rc => false
  | _ => true

/-- A port's transmit and receive adjustments, whose accepted writes are recorded (R365). -/
def adjReg (off : Nat) : Bool := 0x800200 ≤ off && off < 0x800270 && off % 8 = 0

/-- A write of a register, field by field (R7); a register without a writable field logs the write. -/
def State.writeReg (s : State) (off : Nat) (w : Word) : State :=
  match Reg.fieldsAt off with
  | none => s
  | some fs =>
    if fs.any fun f => Acc.writable f.acc then
      if flipReg off && s.md.mode ≠ .maint && s.md.mode ≠ .startup then s.refusedAccess off
      else
        let t := foldSt fs (fun f s => s.writeField f w) s
        if adjReg off && s.md.mode = .maint && s.session && fs.any fun f => f.acc = .rwl && !Fld.reserved f (w.toNat / 2 ^ f.lsb % 2 ^ f.width)
        then t.diag 3 Src.tmu 0 off else t
    else s.refusedAccess off

/-- Writes to these blocks enter the lane (R406, Table 19-1). -/
def laneBlock (off : Nat) : Bool :=
  let b := off / 0x100000
  (3 ≤ b && b ≤ 6) || b = 8 || b = 9 || b = 10 || b = 14

/-! ### Sessions and codes -/

/-- Role that a command needs (Table 17-7); none for `CMD_NOP` (R408). -/
def roleOf (code : Nat) : Option Nat :=
  if code = 1 then none
  else if (0x60 ≤ code && code ≤ 0x61) || (0x72 ≤ code && code ≤ 0x74) || (0x80 ≤ code && code ≤ 0x84) || code = 0x91 then some 0
  else if 0xA6 ≤ code then some 2
  else some 1

/-- The defined command codes (Table 13-6 and the tables of the chapters). -/
def codeDefined (code : Nat) : Bool :=
  (1 ≤ code && code ≤ 6) || (0x40 ≤ code && code ≤ 0x48) || (0x50 ≤ code && code ≤ 0x54) || (0x60 ≤ code && code ≤ 0x61) ||
    (0x70 ≤ code && code ≤ 0x74) || (0x80 ≤ code && code ≤ 0x84) || (0x90 ≤ code && code ≤ 0x91) || (0xA0 ≤ code && code ≤ 0xA9)

/-- Commands that the lane accepts in HOLD (R489). -/
def inHold (code : Nat) : Bool := code = 1 || code = 2 || code = 0x48 || code = 0x91 || (0xA0 ≤ code && code ≤ 0xA9)

/-- Checks before a command's own: the mode (R489), then the session and its role (R408, R500). -/
def State.gate (s : State) (code : Nat) : Option Nat :=
  if s.md.mode = .boot || s.md.mode = .off then some St.wrongState
  else if s.md.mode = .hold && !inHold code then some St.wrongState
  else
    match roleOf code with
    | none => none
    | some r => if natBit s.roles r then none else some St.denied

/-! ### Results -/

/-- Words 0 of a result (Table 13-7). -/
def resultWord (seq : Nat) (code : Nat) (done : Bool) (st : Nat) : Nat := seq * 65536 + code * 256 + bitNat done * 128 + st

/-- Copy the head of the FIFO and the fill of the lane into their registers. -/
def State.laneRegs (s : State) : State :=
  let h : Word × Word := s.lane.fifo.headD (0, 0)
  let n := (s.lane.queue.filter fun e => match e with
    | .record .. => true
    | .write .. => false).length
  ((s.wr Reg.CMD_RES_HEAD0_WORD0 h.1.toNat).wr Reg.CMD_RES_HEAD1_WORD1 h.2.toNat).wr Reg.CMD_LANE_WAITING n

/-- A result enters the FIFO; a full one loses its oldest (R410). -/
def State.pushFifo (s : State) (r : Word × Word) : State :=
  let full := 64 ≤ s.lane.fifo.length
  let s := if full then s.inc Reg.CMD_LANE_FIFO_LOST else s
  (s.modLaneQ fun q => { q with fifo := (if full then q.fifo.drop 1 else q.fifo) ++ [r] }).raiseInt 0

/-- The final results at the front of the sequence: those of the service port answer it, and all enter the FIFO in
sequence order (R409, Table 17-9). -/
def State.flushRes : Nat → State → State
  | 0, s => s
  | n + 1, s =>
    match s.lane.res with
    | (q, some r) :: rest =>
      let s := (s.modLaneQ fun x => { x with res := rest }).pushFifo r
      let s := if s.hbr.svcWait.contains q then
          s.modHbr fun x => { x with svcWait := x.svcWait.filter (· ≠ q), reply := wordLE r.1 ++ wordLE r.2 }
        else s
      State.flushRes n s
    | _ => s

/-- Write the result of sequence number `seq` into its slot and make it final. -/
def State.post (s : State) (seq : BitVec 16) (code st word1 : Nat) : State :=
  let w0 := resultWord seq.toNat code true st
  let i := seq.toNat % 64
  let s := (s.wr (Reg.CMD_RESULT0_WORD0 i) w0).wr (Reg.CMD_RESULT1_WORD1 i) word1
  let r : Word × Word := (BitVec.ofNat 32 w0, BitVec.ofNat 32 word1)
  let s := s.modLaneQ fun x => { x with res := x.res.map fun e => if e.1 = seq && e.2.isNone then (e.1, some r) else e }
  (State.flushRes s.lane.res.length s).laneRegs

/-- A command completes: one that is not OK is logged with its sequence number, code and status (R407). -/
def State.complete (s : State) (seq : BitVec 16) (code st word1 : Nat) : State :=
  let s := if st = 0 then s else s.diag 3 Src.hbr 0 0x00200000 [seq.toNat, code, st]
  s.post seq code st word1

/-- Word 1 of the result of a record that applies at the present Tc. -/
def State.atTc (s : State) : Nat := s.tm.cyc % 2 ^ 32

/-! ### Submission -/

/-- Accept a record: it takes `NEXT`, and its slot shows it as not final (R403). -/
def State.accept (s : State) (code : Nat) (port : CmdPort) : BitVec 16 × State :=
  let seq : BitVec 16 := BitVec.ofNat 16 (s.rd Reg.CMD_NEXT_SEQ_NEXT)
  let s := s.incWrap Reg.CMD_NEXT_SEQ_NEXT
  let i := seq.toNat % 64
  let s := (s.wr (Reg.CMD_RESULT0_WORD0 i) (resultWord seq.toNat code false 0)).wr (Reg.CMD_RESULT1_WORD1 i) 0
  let s := s.modLaneQ fun x => { x with res := x.res ++ [(seq, none)] }
  let s := s.modSec fun x => match port with
    | .host => { x with host := { x.host with last := s.tm.opNs } }
    | .service => { x with svc := { x.svc with last := s.tm.opNs } }
  let s := match port with
    | .host => s
    | .service => s.modHbr fun x => { x with svcWait := x.svcWait ++ [seq] }
  (seq, s)

/-- Number of Tc instants until an entry applies that arrives at a chainage (R50). -/
def State.laneWait (s : State) (chainageNs : Nat) : Nat := if chainageNs + 10000 < s.tbc then 1 else 2

/-- Submit a record (R402 to R405). -/
def State.submit (s : State) (seq : BitVec 16) (code : Byte) (port : CmdPort) (w1 w2 w3 : Word) (chainageNs : Nat)
    (psn : Bool) : State :=
  let s := s.modLaneQ fun x => { x with latch := [], latchPsn := false }
  let c := code.toNat
  if psn then
    let (q, s) := s.accept c port
    s.complete q c St.poisoned 0
  else if seq.toNat ≠ s.rd Reg.CMD_NEXT_SEQ_NEXT then
    ((s.inc Reg.CMD_LANE_SEQ_ERR).diag 4 Src.hbr 0 0x00200014).raiseInt 5
  else
    let n := s.rd Reg.CMD_LANE_WAITING
    let (q, s) := s.accept c port
    if !codeDefined c then s.complete q c St.unknown 0
    else if 256 ≤ n then s.complete q c St.busy 0
    else (s.modLaneQ fun x => { x with queue := x.queue ++ [.record (s.laneWait chainageNs) q code port w1 w2 w3] }).laneRegs

/-- The record of words 0 to 3, as `CMD_REC[3]` or a service message submits it. -/
def State.submitWords (s : State) (port : CmdPort) (w0 w1 w2 w3 : Word) (chainageNs : Nat) (psn : Bool) : State :=
  s.submit (w0.extractLsb' 16 16) (w0.extractLsb' 0 8) port w1 w2 w3 chainageNs psn

/-- A record's effect at its Tc, through the checks of every command. -/
def State.runRecord (s : State) (seq : BitVec 16) (code : Byte) (eff : State → CmdRes State) : State :=
  let c := code.toNat
  match s.gate c with
  | some st => s.complete seq c st s.atTc
  | none =>
    match eff s with
    | .ok s' => s'.complete seq c 0 s.atTc
    | .error st => s.complete seq c st s.atTc

/-- A record leaves the queue as it applies. -/
def State.unqueue (s : State) (seq : BitVec 16) : State :=
  s.modLaneQ fun q => { q with queue := q.queue.filter fun e => match e with
    | .record _ k .. => k ≠ seq
    | .write .. => true }

/-- A command row: its submission, or its effect at its Tc. During a save the lane applies nothing (R141, R557). -/
def State.cmd (s : State) (code : Byte) (r : CmdRec) (eff : State → CmdRes State) : State :=
  if !s.hostAlive then s
  else
    match r.form with
    | .arrive seq chainageNs psn =>
      if s.portServed r.port then s.submit seq code r.port r.w1 r.w2 r.w3 chainageNs psn else s
    | .apply seq => if s.rpc.save.isSome then s else (s.unqueue seq).runRecord seq code eff

/-- Modes in which most commands are accepted: STARTUP to MAINT, and from INTEGRATE or from HOLD on. -/
def State.fromStartup (s : State) : Bool :=
  match s.md.mode with
  | .startup | .run3 | .run2 | .safe | .maint => true
  | _ => false
def State.fromIntegrate (s : State) : Bool := s.fromStartup || s.md.mode = .integrate
def State.fromHold (s : State) : Bool := s.fromIntegrate || s.md.mode = .hold

/-- Refuse with a status unless the condition holds. -/
def needs (c : Bool) (st : Nat) (k : CmdRes State) : CmdRes State := if c then k else .error st

/-- A time is a Tc to come, at most 86,400 s ahead. -/
def State.tcAhead (s : State) (t : Nat) : Bool := t % s.tbc = 0 && s.tm.tcNs < t && t ≤ s.tm.tcNs + 86400000000000

/-- A 64-bit argument in words 1 and 2. -/
def arg64 (w1 w2 : Word) : Nat := w1.toNat + w2.toNat * 4294967296

/-- `CMD_NOP` (R408). -/
def applyNop (s : State) : CmdRes State := .ok s

/-- `CMD_NOP` (R408): no session needed. -/
def execCmdNop (r : CmdRec) (s : State) : Host.Outcome State Fault Refusal := .next (s.cmd 0x01 r applyNop)

/-- `CMD_REC_LATCH` (R402): a write to `CMD_REC[0]` to `CMD_REC[2]` is latched with its poison mark. -/
def execCmdRecLatch (i : Fin 3) (w : Word) (poisoned : Bool) (s : State) : Host.Outcome State Fault Refusal :=
  .next (if s.hostUp then
      s.modLaneQ fun x => { x with
        latch := ([0, 1, 2].map fun j => if j = i.val then w else x.latch.getD j 0), latchPsn := x.latchPsn || poisoned }
    else s)

/-- `UNKNOWN_COMMAND` (R405): a record with an undefined code completes at arrival. -/
def execUnknownCommand (code : Byte) (r : CmdRec) (s : State) : Host.Outcome State Fault Refusal :=
  .next (match r.form with
    | .arrive seq chainageNs psn =>
      if s.portServed r.port && !codeDefined code.toNat then s.submit seq code r.port r.w1 r.w2 r.w3 chainageNs psn else s
    | .apply _ => s)

/-- Remove the oldest result of the FIFO. -/
def State.popFifo (s : State) : State := (s.modLaneQ fun q => { q with fifo := q.fifo.drop 1 }).laneRegs

/-- `CMD_RES_COMMIT` (R410): a write of 1 to `COMMIT`. -/
def execCmdResCommit (val : Word) (s : State) : Host.Outcome State Fault Refusal :=
  .next (if s.hostUp && val.getLsbD 0 then s.popFifo else s)

/-- `CMD_RES_LEGACY` (R7): a read removes the oldest result and is logged at severity 1. -/
def State.readResLegacy (s : State) : State := (s.popFifo).diag 1 Src.hbr 0 0x00200024

/-- `HBR_INT_LEGACY` (R7): a read clears the interrupt causes and is logged at severity 1. -/
def State.readIntLegacy (s : State) : State := (s.wr Reg.HBR_INT_STATUS_INT 0).diag 1 Src.hbr 0 0x00100018

def execCmdResLegacy (s : State) : Host.Outcome State Fault Refusal := .next (if s.hostUp then s.readResLegacy else s)
def execHbrIntLegacy (s : State) : Host.Outcome State Fault Refusal := .next (if s.hostUp then s.readIntLegacy else s)

end Sys2Proof.Machine
end

