-- ==== Sys2Proof/Machine/Plug.lean ====
section
/-! DEFINITION. The configuration plug and its containers: OTP values (R482), the layout of a container (R474), its checks in
the order of Table 17-6, and the sections it opens to. -/

namespace Sys2Proof

/-- `n` bytes from offset `off`. -/
def bytesAt (l : List Byte) (off n : Nat) : List Byte := (l.drop off).take n

/-- The little-endian number of `n` bytes at `off`. -/
def leAt (l : List Byte) (off n : Nat) : Nat := leNat (bytesAt l off n)

/-- Every byte of a list is 0. -/
def allZero (l : List Byte) : Bool := l.all (· = 0)

/-- A SHA-384 digest as bits. -/
def digestBits (l : List Byte) : BitVec 384 := BitVec.ofNat 384 (leNat l)

/-- Length of the signature block (Table 17-4). -/
def sigLen : Nat := 17048

/-- A section table entry (Table 17-3). -/
structure SecEnt where
  idx : Nat
  typ : Nat
  rsv : Nat
  ver : Nat
  off : Nat
  slen : Nat
  crc : Nat
  deriving DecidableEq, Repr

def secEnt (l : List Byte) (i : Nat) : SecEnt :=
  let b := 64 + 16 * i
  { idx := i, typ := leAt l b 1, rsv := leAt l (b + 1) 1, ver := leAt l (b + 2) 2, off := leAt l (b + 4) 4,
    slen := leAt l (b + 8) 4, crc := leAt l (b + 12) 4 }

/-- Number of sections and length of a container (Table 17-2). -/
def contSections (l : List Byte) : Nat := leAt l 6 2
def contLength (l : List Byte) : Nat := leAt l 8 4
def contEnts (l : List Byte) : List SecEnt := (List.range (min 16 (contSections l))).map (secEnt l)
/-- The signature block. -/
def contSig (l : List Byte) : List Byte := bytesAt l (contLength l - sigLen) sigLen
/-- A stored section. -/
def contStored (l : List Byte) (e : SecEnt) : List Byte := bytesAt l e.off (e.slen + 16)

/-- R475: section counts, order, alignment and overlap. -/
def contTableOk (l : List Byte) : Bool :=
  let es := contEnts l
  let count := fun t => (es.filter fun e => e.typ = t).length
  let n := contSections l
  1 ≤ n && n ≤ 15 && (es.all fun e => 1 ≤ e.typ && e.typ ≤ 9 && e.off % 8 = 0 && 320 ≤ e.off) &&
    ([1, 2, 3, 6, 9].all fun t => count t = 1) && ([4, 5, 7, 8].all fun t => count t ≤ 1) &&
    ((List.zip es (es.drop 1)).all fun p => p.1.off + p.1.slen + 16 ≤ p.2.off)

/-- Initialisation vector of section `i` (R477). -/
def contIv (l : List Byte) (i : Nat) : List Byte :=
  let iv := bytesAt l 32 12
  iv.take 8 ++ natLE 4 (leNat (iv.drop 8) ^^^ i)

/-- Additional authenticated data of section `i` (R477). -/
def contAad (l : List Byte) (i : Nat) : List Byte := bytesAt l 0 64 ++ bytesAt l (64 + 16 * i) 12 ++ [0, 0, 0, 0]

/-- Bits that at least two of four copies hold (R482). -/
def atLeast2 (a b c d : BitVec n) : BitVec n := (a &&& b) ||| (a &&& c) ||| (a &&& d) ||| (b &&& c) ||| (b &&& d) ||| (c &&& d)

/-- Bit by bit union. -/
def Machine.Otp.union (x y : Machine.Otp) : Machine.Otp :=
  { set := x.set ||| y.set, revoked := x.revoked ||| y.revoked, roll := x.roll ||| y.roll, dig0 := x.dig0 ||| y.dig0,
    dig1 := x.dig1 ||| y.dig1, dig2 := x.dig2 ||| y.dig2 }

def Machine.Otp.digest (x : Machine.Otp) : Nat → BitVec 384
  | 0 => x.dig0
  | 1 => x.dig1
  | _ => x.dig2

/-! ### The code of the plug's pages (R227) -/

/-- Product with α in GF(2^14), whose field polynomial is x^14 + x^5 + x^3 + x + 1. -/
def Bch.mulA (x : Nat) : Nat := if 2 * x < 0x4000 then 2 * x else (2 * x) ^^^ 0x402B

/-- Product in GF(2^14). -/
def Bch.mul (x y : Nat) : Nat := (List.range 14).foldr (fun i v => Bch.mulA v ^^^ (if y.testBit i then x else 0)) 0

/-- α to the power `k`. -/
def Bch.pow (k : Nat) : Nat := (List.range k).foldl (fun v _ => Bch.mulA v) 1

/-- The conjugates of an element, each the square of the one before, without repeats. -/
def Bch.conj (x : Nat) : List Nat := ((List.range 13).foldl (fun (l : List Nat) _ => l ++ [Bch.mul (l.getLastD x) (l.getLastD x)]) [x]).eraseDups

/-- A polynomial over GF(2^14), lowest coefficient first, times (x + b). -/
def Bch.mulRoot (p : List Nat) (b : Nat) : List Nat := List.zipWith (· ^^^ ·) (0 :: p) (p.map (Bch.mul b) ++ [0])

/-- Minimal polynomial of α^k over GF(2), bit i the coefficient of x^i. -/
def Bch.minPoly (k : Nat) : Nat :=
  ((Bch.conj (Bch.pow k)).foldl Bch.mulRoot [1]).zipIdx.foldl (fun v e => v + e.1 * 2 ^ e.2) 0

/-- Product of polynomials over GF(2). -/
def Bch.polyMul (a b : Nat) : Nat := (List.range (b.log2 + 1)).foldl (fun v i => if b.testBit i then v ^^^ (a <<< i) else v) 0

/-- Generator for `t` bits: least common multiple of the minimal polynomials of α, α^3, …, α^(2t − 1). -/
def Bch.generator (t : Nat) : Nat := (((List.range t).map fun j => Bch.minPoly (2 * j + 1)).eraseDups).foldl Bch.polyMul 1

/-- Parity bytes: ceil(14t / 8) (Table 7-5). -/
def Bch.parityLen (t : Nat) : Nat := (14 * t + 7) / 8

/-- One step of the division by the generator `g` of degree `d`, for the next data bit. -/
def Bch.shift (d g r : Nat) (b : Bool) : Nat :=
  let x := 2 * r % 2 ^ d
  if r.testBit (d - 1) != b then x ^^^ (g % 2 ^ d) else x

/-- The remainder of the data polynomial times x^(14t), the data bits entering in byte order, bit 7 of each byte first. -/
def Bch.remainder (t : Nat) (l : List Byte) : Nat :=
  let g := Bch.generator t
  l.foldl (fun r b => [7, 6, 5, 4, 3, 2, 1, 0].foldl (fun r i => Bch.shift (14 * t) g r (b.getLsbD i)) r) 0

/-- The parity bytes, from the remainder's highest bit, bit 7 of each byte first. -/
def Bch.parity (t : Nat) (l : List Byte) : List Byte :=
  let n := Bch.parityLen t
  let v := Bch.remainder t l <<< (8 * n - 14 * t)
  (List.range n).map fun j => BitVec.ofNat 8 (v >>> (8 * (n - 1 - j)))

/-- Invert bit `k` of a list of bytes, bit 7 of byte 0 being bit 0. -/
def Bch.flipBit (l : List Byte) (k : Nat) : List Byte := l.modify (k / 8) fun b => b ^^^ (BitVec.ofNat 8 (2 ^ (7 - k % 8)))

/-- Zero bits of a list of bytes. -/
def Bch.zeros (l : List Byte) : Nat := l.foldl (fun v b => v + (8 - popCount b)) 0

/-- What opening a container gives: the reason of Table 17-6 (0 accepted), the section type concerned, and its sections
as (type, layout version, plaintext). -/
structure Opened where
  reason : Nat
  secNo : Nat
  secs : List (Nat × Nat × List Byte)
  deriving DecidableEq, Repr

/-- A section's version and plaintext. -/
def Opened.sec (o : Opened) (t : Nat) : Option (Nat × List Byte) := (o.secs.find? fun e => e.1 = t).map fun e => e.2

/-- Plaintext of a section, empty where there is none. -/
def Opened.text (o : Opened) (t : Nat) : List Byte := ((o.sec t).map fun e => e.2).getD []

/-- Checks 12 and 13, for firmware of version `fw` or the container's own. -/
def Opened.checkFw (o : Opened) (fw : Option Nat) : Opened :=
  if o.reason ≠ 0 then o
  else
    let v := fw.getD (Config.fwVersion (o.text 1))
    match o.secs.find? fun e => 3 ≤ e.1 && Config.secVersion v e.1 < e.2.1 with
    | some e => { o with reason := 12, secNo := e.1 }
    | none => if Config.fwSigOk (o.text 1) then o else { o with reason := 13, secNo := 1 }

end Sys2Proof

namespace Sys2Proof.Machine

/-- The OTP value in force: each bit programmed in at least two of the four copies (R482). -/
def State.otpVal (s : State) : Otp :=
  let a := s.sec.otp
  let b := s.sec.otpCh.a
  let c := s.sec.otpCh.b
  let d := s.sec.otpCh.c
  { set := atLeast2 a.set b.set c.set d.set, revoked := atLeast2 a.revoked b.revoked c.revoked d.revoked,
    roll := atLeast2 a.roll b.roll c.roll d.roll, dig0 := atLeast2 a.dig0 b.dig0 c.dig0 d.dig0,
    dig1 := atLeast2 a.dig1 b.dig1 c.dig1 d.dig1, dig2 := atLeast2 a.dig2 b.dig2 c.dig2 d.dig2 }

/-- Program every copy that lacks a decided bit; no bit is ever cleared (R482). -/
def State.otpComplete (s : State) (v : Otp) : State :=
  s.modSec fun x => { x with
    otp := x.otp.union v, otpCh := ⟨x.otpCh.a.union v, x.otpCh.b.union v, x.otpCh.c.union v⟩ }

/-- The rollback counter: a thermometer of 64 bits (R483). -/
def State.rollback (s : State) : Nat := popCount s.otpVal.roll

/-- Root slot `k` is programmed and not revoked. -/
def State.rootLive (s : State) (k : Nat) : Bool := k < 3 && s.otpVal.set.getLsbD k && !s.otpVal.revoked.getLsbD k

/-- The public keys of a signature block belong to its root slot (R480). -/
def State.rootOk (s : State) (sig : List Byte) : Bool :=
  let k := leAt sig 0 1
  s.rootLive k && digestBits (Config.sha384 (bytesAt sig 4 436)) = s.otpVal.digest k

def sigPss (sig msg : List Byte) : Bool := Config.pssVerify (bytesAt sig 4 384) (bytesAt sig 388 4) msg (bytesAt sig 440 384)
def sigSlh (sig msg : List Byte) : Bool := Config.slhVerify (bytesAt sig 392 48) msg (bytesAt sig 824 16224)

/-- The sealed fleet key of a slot. -/
def State.fleetKey (s : State) (k : Nat) : Option (List Byte) := FMap.get none s.sec.fleet k

/-- Checks 1 to 10 of a container within `limit` bytes (Table 17-6): reason and section type. -/
def State.checkPlain (s : State) (l : List Byte) (limit : Nat) : Nat × Nat :=
  let len := contLength l
  let es := contEnts l
  let sig := contSig l
  let msg := l.take (len - 16608)
  if leAt l 0 4 ≠ 0x454C4F41 || leAt l 4 2 ≠ 1 || leAt l 19 1 ≠ 0 || !allZero (bytesAt l 44 20) ||
      (es.any fun e => e.rsv ≠ 0) || !allZero (bytesAt l (64 + 16 * contSections l) (256 - 16 * contSections l)) ||
      !allZero (bytesAt sig 1 3) then (1, 0)
  else if leAt l 12 2 ≠ 0x7110 || leAt l 14 2 ≠ 0x3096 || Config.hwMajor.toNat < leAt l 16 1 ||
      leAt l 17 1 ≠ s.rd Reg.SIO_SWITCH_SW_N then (2, 0)
  else if limit < len || l.length < len || len < 17368 || (es.any fun e => len - sigLen < e.off + e.slen + 16) then (3, 0)
  else if !contTableOk l then (4, 0)
  else
    match es.find? fun e => (crc32c (contStored l e)).toNat ≠ e.crc with
    | some e => (5, e.typ)
    | none =>
      if !s.rootOk sig then (6, 0)
      else if !sigPss sig msg then (7, 0)
      else if !sigSlh sig msg then (8, 0)
      else if leAt l 20 4 < s.rollback || 64 < leAt l 20 4 then (9, 0)
      else if (s.fleetKey (leAt l 18 1)).isNone || 1 < leAt l 18 1 then (10, 0)
      else (0, 0)

/-- Decrypt the sections in order, up to the first whose tag fails (check 11). -/
def State.openSecs (s : State) (l : List Byte) : List SecEnt → Opened
  | [] => { reason := 0, secNo := 0, secs := [] }
  | e :: es =>
    match Config.gcmOpen ((s.fleetKey (leAt l 18 1)).getD []) (contIv l e.idx) (contAad l e.idx) (contStored l e) with
    | none => { reason := 11, secNo := e.typ, secs := [] }
    | some pl =>
      let o := State.openSecs s l es
      { o with secs := (e.typ, e.ver, pl) :: o.secs }

/-- Checks 1 to 11 of a container. -/
def State.openContainer (s : State) (l : List Byte) (limit : Nat) : Opened :=
  let (r, t) := s.checkPlain l limit
  if r ≠ 0 then { reason := r, secNo := t, secs := [] } else s.openSecs l (contEnts l)

/-- A plug copy of a channel. -/
def State.plug (s : State) (c : Ch) (copy : Nat) : PlugCopy := FMap.get PlugCopy.erased s.sec.plug (Ch.num c * 2 + copy)

def PlugCopy.len (p : PlugCopy) : Nat := leAt p.desc 56 4
def PlugCopy.digest (p : PlugCopy) : List Byte := bytesAt p.desc 8 48

/-- Bits that a page's code corrects (R227, R228). -/
def PlugCopy.strength (p : PlugCopy) (n : Nat) : Nat := if n = 0 then 40 else leAt p.desc 0 1

/-- A page has been written since its copy was last erased. -/
def PlugCopy.written (p : PlugCopy) (n : Nat) : Bool := if n = 0 then p.desc.length ≠ 0 else (n - 1) * 1024 < p.body.length

/-- The 1,024 data bytes that a page was written with; the end of the last page holds 0xFF (log 92). -/
def PlugCopy.page (p : PlugCopy) (n : Nat) : List Byte :=
  let l := if n = 0 then bytesAt p.desc 0 1024 else bytesAt p.body ((n - 1) * 1024) 1024
  l ++ List.replicate (1024 - l.length) 0xFF

/-- Wrong bits of a page's data and parity bytes. -/
def PlugCopy.wrong (p : PlugCopy) (n : Nat) : List Nat :=
  (FMap.get [] p.errs n).eraseDups.filter fun k => k < 8 * (1024 + Bch.parityLen (p.strength n))

/-- Data bytes of a page as they stand in the slot. -/
def PlugCopy.stored (p : PlugCopy) (n : Nat) : List Byte :=
  (p.wrong n).foldl Bch.flipBit (if p.written n then p.page n else List.replicate 1024 0xFF)

/-- Parity bytes of a page as they stand in the slot: the code's remainder, or 0xFF where nothing was written (R227). -/
def PlugCopy.parity (p : PlugCopy) (n : Nat) : List Byte :=
  let t := p.strength n
  ((p.wrong n).filter fun k => 8192 ≤ k).foldl (fun l k => Bch.flipBit l (k - 8192))
    (if p.written n then Bch.parity t (p.page n) else List.replicate (Bch.parityLen t) 0xFF)

/-- A slot whose data and parity hold at most t zero bits reads as an erased page (R229). -/
def PlugCopy.reads1 (p : PlugCopy) (n : Nat) : Bool :=
  let t := p.strength n
  let z := Bch.zeros (p.stored n)
  z ≤ t && z + Bch.zeros (p.parity n) ≤ t

/-- A page that its code cannot correct: more than t wrong bits, and not an erased page (R229). -/
def PlugCopy.unread (p : PlugCopy) (n : Nat) : Bool :=
  !p.reads1 n && (!p.written n || p.strength n < (p.wrong n).length)

/-- Data bytes that a page reads as: corrected, erased, or as they stand where the code cannot correct them. -/
def PlugCopy.read (p : PlugCopy) (n : Nat) : List Byte :=
  if p.reads1 n then List.replicate 1024 0xFF else if p.unread n then p.stored n else p.page n

/-- The copy descriptor holds its mark, CRC-32C and a BCH strength (R228, R471, R472). -/
def PlugCopy.descOk (p : PlugCopy) : Bool :=
  leAt p.desc 4 4 = 0x434F5059 && (crc32c (p.desc.take 60)).toNat = leAt p.desc 60 4 &&
    allZero (bytesAt p.desc 1 3) && [8, 16, 24, 32, 40].contains (leAt p.desc 0 1) && !p.unread 0 && !p.reads1 0

/-- Numbers of a copy's container pages. -/
def PlugCopy.pages (p : PlugCopy) : List Nat := if p.descOk then List.range' 1 ((p.len + 1023) / 1024) else []

/-- The parts of a container that a channel reads as wholes, as (section type, first byte, end): header with section table,
sections, signature block (type 0 for what is no section). -/
def contParts (l : List Byte) : List (Nat × Nat × Nat) :=
  (0, 0, 320) :: (contEnts l).map (fun e => (e.typ, e.off, e.off + e.slen + 16)) ++ [(0, contLength l - sigLen, contLength l)]

/-- A page holds bytes of a part. -/
def partOn (r : Nat × Nat × Nat) (n : Nat) : Bool := 1 ≤ n && (n - 1) * 1024 < r.2.2 && r.2.1 < n * 1024

/-- A page counts as uncorrectable: its code cannot correct it, or it is erased inside a section (R229). -/
def PlugCopy.bad (p : PlugCopy) (rs : List (Nat × Nat × Nat)) (n : Nat) : Bool :=
  p.unread n || (rs.any fun r => r.1 ≠ 0 && partOn r n) && p.reads1 n

/-- An uncorrectable page lies in a part (R230). -/
def PlugCopy.spoils (p : PlugCopy) (rs : List (Nat × Nat × Nat)) (r : Nat × Nat × Nat) : Bool :=
  p.pages.any fun n => partOn r n && p.bad rs n

/-- Pages that a channel corrected, with their wrong bits (R231). -/
def PlugCopy.corrected (p : PlugCopy) (n : Nat) : Bool :=
  p.written n && !p.reads1 n && 1 ≤ (p.wrong n).length && (p.wrong n).length ≤ p.strength n

/-- What a channel reads of a copy (R230): the other copy of the same container stands by for parts that an uncorrectable page
invalidates. -/
structure CopyRead where
  parts : List (Nat × Nat × Nat)
  /-- Parts of the copy that are invalid. -/
  lost : List (Nat × Nat × Nat)
  /-- The other copy holds the same container. -/
  same : Bool
  /-- Pages of the other copy that the channel turns to. -/
  other : List Nat
  deriving DecidableEq, Repr

def State.copyRead (s : State) (c : Ch) (copy : Nat) : CopyRead :=
  let p := s.plug c copy
  let q := s.plug c (1 - copy)
  let same := q.descOk && q.digest = p.digest
  let parts := if p.len = 0 then [] else contParts (if p.unread 1 && same then q.read 1 else p.read 1)
  let lost := parts.filter (p.spoils parts)
  { parts := parts, lost := lost, same := same,
    other := if lost.isEmpty then [] else 0 :: (if same then q.pages.filter fun n => lost.any fun r => partOn r n else []) }

/-- The pages that a channel reads, as (copy, page), in the order it reads them. -/
def State.pagesRead (s : State) (c : Ch) (copy : Nat) : List (Nat × Nat) :=
  ((0 :: (s.plug c copy).pages).map fun n => (copy, n)) ++ ((s.copyRead c copy).other.map fun n => (1 - copy, n))

/-- Those of them that count as uncorrectable. -/
def State.pagesBad (s : State) (c : Ch) (copy : Nat) : List (Nat × Nat) :=
  (s.pagesRead c copy).filter fun e => (s.plug c e.1).bad (s.copyRead c copy).parts e.2

/-- Section type that a page lies in, 0 where it lies in none. -/
def CopyRead.section (x : CopyRead) (n : Nat) : Nat := ((x.parts.find? fun r => r.1 ≠ 0 && partOn r n).map (·.1)).getD 0

/-- Count the pages that a channel corrected, and report those beyond half of the code's strength (R231). -/
def State.noteFixed (s : State) (c : Ch) (copy : Nat) : State :=
  let n := Ch.num c
  let bits := fun (e : Nat × Nat) => ((s.plug c e.1).wrong e.2).length
  let es := (s.pagesRead c copy).filter fun e => (s.plug c e.1).corrected e.2
  let wide := es.filter fun e => (s.plug c e.1).strength e.2 < 2 * bits e
  let s := s.wr (Reg.MIU_PLUG_ECC_CE_PAGES n) (min 65535 (s.rd (Reg.MIU_PLUG_ECC_CE_PAGES n) + es.length))
  let s := s.wr (Reg.MIU_PLUG_ECC_MAX_BITS n) (es.foldl (fun m e => max m (bits e)) (s.rd (Reg.MIU_PLUG_ECC_MAX_BITS n)))
  foldSt wide (fun e s =>
    (s.wrb (Reg.MIU_EVENT_PLUG_MARGIN n) true).diag 4 Src.chan n (0x00301034 + n * 0x100000) [e.1, e.2, bits e]) s

/-- Report the pages that a channel corrected, and those that it could not read (R230 to R232). -/
def State.notePages (s : State) (c : Ch) (copy : Nat) : State :=
  let n := Ch.num c
  let bad := s.pagesBad c copy
  let x := s.copyRead c copy
  let s := s.noteFixed c copy
  match bad.getLast? with
  | none => s
  | some e =>
    let s := s.wr (Reg.MIU_PLUG_ECC_UE_PAGES n) (min 255 (s.rd (Reg.MIU_PLUG_ECC_UE_PAGES n) + bad.length))
    let s := ((s.wr (Reg.MIU_PLUG_UE_LOC_COPY n) e.1).wr (Reg.MIU_PLUG_UE_LOC_SECTION n) (x.section e.2)).wr
      (Reg.MIU_PLUG_UE_LOC_PAGE n) e.2
    s.wrb (Reg.MIU_EVENT_PLUG_UE n) true

/-- Container bytes of a copy as its pages read. -/
def PlugCopy.bytes (p : PlugCopy) : List Byte := (p.pages.flatMap p.read).take p.len

/-- The bytes a channel reads for a copy: a part that an uncorrectable page invalidates comes from the other copy, where that
holds the same container and reads it (R230). True where a part did. -/
def State.readCopy (s : State) (c : Ch) (copy : Nat) : Option (Bool × List Byte) :=
  let x := s.copyRead c copy
  let q := s.plug c (1 - copy)
  if x.lost.isEmpty then some (false, (s.plug c copy).bytes)
  else if x.same && x.lost.all fun r => !q.spoils x.parts r then
    some (true, x.lost.foldl (fun l r => l.take r.2.1 ++ bytesAt q.bytes r.2.1 (r.2.2 - r.2.1) ++ l.drop r.2.2) (s.plug c copy).bytes)
  else none

/-- The copy in use after a channel read a copy: the other one where a part came from it (R230, log 93). -/
def State.copyUsed (s : State) (c : Ch) (copy : Nat) : Nat :=
  match s.readCopy c copy with
  | some (true, _) => 1 - copy
  | _ => copy

/-- `PLUG_COPY` and `BCH_T`: the copy in use and its strength (R230, R232). -/
def State.plugRegs (s : State) (c : Ch) (copy : Nat) : State :=
  let used := s.copyUsed c copy
  (s.wr (Reg.MOD_CH_STATE_PLUG_COPY (Ch.num c)) used).wr (Reg.MIU_CFG_BCH_T (Ch.num c)) (leAt (s.plug c used).desc 0 1)

/-- A copy of a channel opened through every check (R472). -/
def State.openCopy (s : State) (c : Ch) (copy : Nat) (fw : Option Nat) : Opened :=
  let p := s.plug c copy
  if !p.descOk then { reason := 14, secNo := 0, secs := [] }
  else
    match s.readCopy c copy with
    | none =>
      { reason := 14, secNo := ((s.pagesBad c copy).getLast?.map fun e => (s.copyRead c copy).section e.2).getD 0, secs := [] }
    | some (_, l) =>
      let o := s.openContainer l (min 29358080 p.len)
      (if o.reason = 0 && Config.sha384 (l.take (contLength l)) ≠ p.digest then { o with reason := 14 } else o).checkFw fw

/-- The copy is valid in the channel (R472). -/
def State.copyValid (s : State) (c : Ch) (copy : Nat) : Bool := (s.openCopy c copy none).reason = 0

/-- Channels in which a copy is valid. -/
def State.copyValidIn (s : State) (copy : Nat) : List Ch := Ch.all.filter fun c => s.copyValid c copy

/-- The logic bank of a section with its identity, the low 64 bits of the section's SHA-384 digest (R132). -/
def bankOf (text : List Byte) : Option Bank :=
  (Config.parseBank text).map fun b => { b with id := BitVec.ofNat 64 (leAt (Config.sha384 text) 0 8) }

/-- The logic bank of a copy that is valid in a channel. -/
def State.copyBank (s : State) (c : Ch) (copy : Nat) : Option Bank :=
  let o := s.openCopy c copy none
  if o.reason = 0 then bankOf (o.text 2) else none

/-- `SEC_KEYS` from the OTP value and the sealed slots (R506). -/
def State.keyRegs (s : State) : State :=
  let v := s.otpVal
  (((s.wr Reg.SEC_KEYS_ROLLBACK s.rollback).wr Reg.SEC_KEYS_ROOT_SET v.set.toNat).wr Reg.SEC_KEYS_ROOT_REVOKED
    v.revoked.toNat).wr Reg.SEC_KEYS_FLEET (bitNat (s.fleetKey 0).isSome + 2 * bitNat (s.fleetKey 1).isSome)

/-- The container bytes of a copy as the first channel in which it is valid reads them. -/
def State.copyBytes (s : State) (copy : Nat) : List Byte :=
  match s.copyValidIn copy with
  | c :: _ => ((s.readCopy c copy).map fun e => e.2).getD []
  | [] => []

/-- Copy the plug's state into `SEC_COPY` and `SEC_COPY_ID` (R506). -/
def State.secRegs (s : State) : State :=
  let s := foldSt [0, 1] (fun k s =>
    let vs := s.copyValidIn k
    let l := s.copyBytes k
    let holds := fun (f : Chan → Option Bank) => Ch.all.any fun c =>
      match f (s.ch c), vs with
      | some b, v :: _ => ((s.copyBank v k).map (·.id)) = some b.id
      | _, _ => false
    ((((s.wr (Reg.SEC_COPY_VALID k) (Ch.mask vs)).wr (Reg.SEC_COPY_SEC_VER k) (leAt l 20 4)).wr
      (Reg.SEC_COPY_SECTIONS k) (contSections l)).wrb (Reg.SEC_COPY_HOLDS_RUN k) (holds (·.run))).wrb
      (Reg.SEC_COPY_HOLDS_UC k) (holds (·.uc)) |>.wr (Reg.SEC_COPY_ID_IMAGE_ID k) (leAt l 24 4)) s
  s.keyRegs

/-- Write a register field by its key, from a configuration section. -/
def State.wrKey (s : State) (key v : Nat) : State :=
  match Reg.fieldsAt (key / 32) with
  | none => s
  | some fs =>
    match fs.find? fun f => f.lsb = key % 32 with
    | none => s
    | some f => s.wr f v

/-- Write the fields of a configuration section. -/
def State.wrKeys (s : State) (m : FMap Nat) : State := foldSt m (fun e s => s.wrKey e.1 e.2) s

end Sys2Proof.Machine
end

