-- ==== Sys2Proof/Machine/Gwy.lean ====
section
/-! DEFINITION. The gateway: message and route tables with their checks (R423 to R435), evaluation of routes, freezing for the
image, sending, CANopen, host frames, and the gateway commands (R438). -/

namespace Sys2Proof

/-- A message entry in its fields (Table 14-2). -/
structure GwyMsgDef where
  ident : Nat
  port : Nat
  dir : Nat
  rsv : Nat
  len : Nat
  time : Nat
  deriving DecidableEq, Repr

/-- A route entry in its fields (Table 14-3). -/
structure GwyRouteDef where
  valid : Bool
  stale : Nat
  big : Bool
  sx : Bool
  dx : Bool
  shift : Nat
  src : Nat
  dst : Nat
  rsv : Nat
  srcPos : Nat
  srcW : Nat
  dstPos : Nat
  dstW : Nat
  o : Int
  k : Int
  dflt : Nat
  deriving DecidableEq, Repr

def GwyTab.msg (t : GwyTab) (m : Nat) : GwyMsgDef :=
  let w0 : Word := FMap.get 0 t.msgs (m * 2)
  let w : Word := FMap.get 0 t.msgs (m * 2 + 1)
  let f := Machine.bitsOf w
  { ident := w0.toNat, port := f 28 4, dir := f 26 2, rsv := f 25 1, len := f 16 9, time := f 0 16 }

def GwyTab.route (t : GwyTab) (r : Nat) : GwyRouteDef :=
  let w : Nat → Word := fun i => FMap.get 0 t.routes (r * 4 + i)
  let f := fun i => Machine.bitsOf (w i)
  { valid := f 0 31 1 = 1, stale := f 0 29 2, big := f 0 28 1 = 1, sx := f 0 27 1 = 1, dx := f 0 26 1 = 1, shift := f 0 21 5,
    src := f 0 11 10, dst := f 0 1 10, rsv := f 0 0 1, srcPos := f 1 21 11, srcW := f 1 16 5 + 1, dstPos := f 1 5 11,
    dstW := f 1 0 5 + 1, o := (w 2).toInt, k := ((w 3).extractLsb' 16 16).toInt, dflt := f 3 0 16 }

/-- Entries with a word that is not 0, in order. -/
def GwyTab.msgNos (t : GwyTab) : List Nat := (t.msgs.map fun e => e.1 / 2).eraseDups
def GwyTab.routeNos (t : GwyTab) : List Nat := ((t.routes.map fun e => e.1 / 4).eraseDups).filter fun r => (t.route r).valid
def GwyTab.used (t : GwyTab) : List Nat := t.msgNos.filter fun m => (t.msg m).dir ≠ 0

/-- The number names an image word. -/
def isWordNo (n : Nat) : Bool := 0x380 ≤ n && n ≤ 0x3F7

/-- Message lengths a port allows (Table 14-1, R423). -/
def lenAllowed (d : GwyMsgDef) : Bool :=
  if d.port < 4 then
    if d.ident.testBit 30 then (1 ≤ d.len && d.len ≤ 8) || [12, 16, 20, 24, 32, 48, 64].contains d.len else 1 ≤ d.len && d.len ≤ 8
  else if d.port < 6 then [2, 4, 8, 16, 32].contains d.len
  else 1 ≤ d.len && d.len ≤ 256

/-- The first reason for which a message entry is refused (Table 14-4), 0 for none. -/
def GwyTab.checkMsg (t : GwyTab) (m : Nat) : Nat :=
  let d := t.msg m
  if 896 ≤ m then 7
  else if d.rsv ≠ 0 || d.dir = 3 || (d.dir ≠ 0 && 8 ≤ d.port) || (d.dir = 2 && d.time = 0) ||
      (d.dir ≠ 0 && 4 ≤ d.port && d.port < 6 && 4096 ≤ d.ident) || (d.dir ≠ 0 && 6 ≤ d.port && 256 ≤ d.ident) then 1
  else if d.dir ≠ 0 && !lenAllowed d then 2
  else if d.dir = 1 && (t.used.any fun n => n < m && (t.msg n).dir = 1 && (t.msg n).port = d.port && (t.msg n).ident = d.ident) then 6
  else 0

/-- Bit of the bytes at which bit `i` of a field lies, least significant bit first (R427). -/
def fieldBit (big : Bool) (pos w i : Nat) : Nat :=
  if big then
    let b := pos + (w - 1 - i)
    b / 8 * 8 + (7 - b % 8)
  else pos + i

/-- Bits of a destination that a route writes. -/
def GwyRouteDef.dstBits (d : GwyRouteDef) : List Nat :=
  (List.range d.dstW).map fun i => fieldBit (d.big && !isWordNo d.dst) d.dstPos d.dstW i

/-- The first reason for which a route entry is refused (Table 14-4). -/
def GwyTab.checkRoute (t : GwyTab) (r : Nat) : Nat :=
  let d := t.route r
  let inMsg := fun n dir => n < 896 && (t.msg n).dir = dir
  let room := fun n => if isWordNo n then 32 else 8 * (t.msg n).len
  if 4096 ≤ r then 7
  else if d.rsv ≠ 0 || d.stale = 3 || 0x3F8 ≤ d.src || 0x3F8 ≤ d.dst then 1
  else if !(isWordNo d.src || inMsg d.src 1) || !(isWordNo d.dst || inMsg d.dst 2) then 4
  else if room d.src < d.srcPos + d.srcW || room d.dst < d.dstPos + d.dstW then 3
  else if t.routeNos.any fun q => q < r && (t.route q).dst = d.dst && (t.route q).dstBits.any d.dstBits.contains then 5
  else 0

/-- The first refused entry: whether a route, its number and its reason (R435). -/
def GwyTab.check (t : GwyTab) : Option (Bool × Nat × Nat) :=
  match t.msgNos.find? fun m => t.checkMsg m ≠ 0 with
  | some m => some (false, m, t.checkMsg m)
  | none => (t.routeNos.find? fun r => t.checkRoute r ≠ 0).map fun r => (true, r, t.checkRoute r)

/-- Offsets of the identity registers that report less than a route table needs (R4). -/
def GwyTab.overParams (t : GwyTab) : List Nat := if t.routeNos.any fun r => 4096 ≤ r then [0x24] else []

/-- Bit `i` of a byte string. -/
def bitOfBytes (l : List Byte) (i : Nat) : Bool := (l.getD (i / 8) 0).getLsbD (i % 8)

/-- A byte string with bit `i` set to `v`. -/
def setBitOfBytes (l : List Byte) (i : Nat) (v : Bool) : List Byte :=
  let b := l.getD (i / 8) 0
  let m : Byte := BitVec.ofNat 8 (2 ^ (i % 8))
  l.set (i / 8) (if v then b ||| m else b &&& ~~~m)

/-- A field read from a byte string. -/
def fieldOf (l : List Byte) (big : Bool) (pos w : Nat) : Nat :=
  (List.range w).foldl (fun v i => v + bitNat (bitOfBytes l (fieldBit big pos w i)) * 2 ^ i) 0

/-- A field written into a byte string. -/
def setField (l : List Byte) (big : Bool) (pos w v : Nat) : List Byte :=
  (List.range w).foldl (fun l i => setBitOfBytes l (fieldBit big pos w i) (v.testBit i)) l

/-- CRC-16/MODBUS of a byte string, low byte first (R422). -/
def crc16Modbus (l : List Byte) : List Byte :=
  let step := fun (a : BitVec 16) => if a.getLsbD 0 then (a >>> 1) ^^^ 0xA001#16 else a >>> 1
  let c := l.foldl (fun a b => (List.range 8).foldl (fun a _ => step a) (a ^^^ b.setWidth 16)) 0xFFFF#16
  [c.extractLsb' 0 8, c.extractLsb' 8 8]

/-- A number of `w` bits as signed. -/
def signedOf (w v : Nat) : Int := if v < 2 ^ (w - 1) then v else (v : Int) - 2 ^ w

/-- y of a route from its source field, with a flag that tells clamping (R428). -/
def GwyRouteDef.clamp (d : GwyRouteDef) (y : Int) : Int × Bool :=
  let lo : Int := if d.dx then -(2 ^ (d.dstW - 1)) else 0
  let hi : Int := if d.dx then 2 ^ (d.dstW - 1) - 1 else 2 ^ d.dstW - 1
  let z := min (max y lo) hi
  (z, z ≠ y)

/-- The rescaled value before clamping. -/
def GwyRouteDef.scale (d : GwyRouteDef) (x : Nat) : Int :=
  let v : Int := if d.sx then signedOf d.srcW x else x
  (v * d.k) / 2 ^ d.shift + d.o

/-- The default before clamping. -/
def GwyRouteDef.defVal (d : GwyRouteDef) : Int := if d.dx then signedOf 16 d.dflt else d.dflt

/-- The receive message with a port and an identifier. -/
def GwyTab.findMsg (t : GwyTab) (dir port ident : Nat) : Option Nat :=
  t.used.find? fun m => let d := t.msg m; d.dir = dir && d.port = port && d.ident = ident

/-- The gateway bank of an opened container; without the section the bank is empty. -/
def Opened.gwyBank (o : Opened) : Option GwyTab :=
  match o.sec 5 with
  | .none => some GwyTab.empty
  | .some (v, t) => Config.parseGwy v t

/-- Sequence number that a record carries. -/
def CmdRec.seq (r : CmdRec) : BitVec 16 :=
  match r.form with
  | .arrive q _ _ => q
  | .apply q => q

end Sys2Proof

namespace Sys2Proof.Machine

def State.modGwy (s : State) (f : GwySt → GwySt) : State := { s with gwy := f s.gwy }
def GwySt.msg (x : GwySt) (m : Nat) : GwyMsg := FMap.get GwyMsg.init x.msgs m
def GwySt.route (x : GwySt) (r : Nat) : GwyRoute := FMap.get GwyRoute.init x.routes r
def State.setGwyMsg (s : State) (m : Nat) (v : GwyMsg) : State :=
  s.modGwy fun x => { x with msgs := FMap.set GwyMsg.init x.msgs m v }
def State.setGwyRoute (s : State) (r : Nat) (v : GwyRoute) : State :=
  s.modGwy fun x => { x with routes := FMap.set GwyRoute.init x.routes r v }

/-- PD-H runs the gateway. -/
def State.gwyUp (s : State) : Bool := s.hostAlive

/-! ### Routes -/

/-- The source of a route is stale (R425, R429). -/
def State.srcStale (s : State) (d : GwyRouteDef) : Bool :=
  if isWordNo d.src then s.gwy.noMaj.contains (d.src - 0x380) else (s.gwy.msg d.src).stale

/-- Bytes of the source of a route; an image word is four bytes, least significant first. -/
def State.srcBytes (s : State) (d : GwyRouteDef) : List Byte :=
  if isWordNo d.src then wordLE (FMap.get 0 s.gwy.outW (d.src - 0x380)) else (s.gwy.msg d.src).data

/-- Store a field of y into a message or an image input word. -/
def State.dstStore (s : State) (d : GwyRouteDef) (y : Int) : State :=
  let v := (y % 2 ^ d.dstW).toNat
  if isWordNo d.dst then
    let i := d.dst - 0x380
    let l := setField (wordLE (FMap.get 0 s.gwy.inW i)) false d.dstPos d.dstW v
    s.modGwy fun x => { x with inW := FMap.set 0 x.inW i (BitVec.ofNat 32 (leNat l)) }
  else
    let x := s.gwy.msg d.dst
    let n := (s.gwy.cur.msg d.dst).len
    let l := (x.data ++ List.replicate n 0).take n
    s.setGwyMsg d.dst { x with data := setField l d.big d.dstPos d.dstW v }

/-- Evaluate one route (R428). -/
def State.evalRoute (s : State) (r : Nat) : State :=
  let d := s.gwy.cur.route r
  let st := s.srcStale d
  let x := fieldOf (s.srcBytes d) (d.big && !isWordNo d.src) d.srcPos d.srcW
  let y := if st && d.stale = 0 then d.defVal else if st && d.stale = 1 then (s.gwy.route r).y else d.scale x
  let (y, sat) := d.clamp y
  let s := if sat then s.inc Reg.GWY_COUNT_SAT else s
  (s.setGwyRoute r { y := y, stale := st }).dstStore d y

/-- Routes of the bank in force with a property, evaluated in entry order (R430). -/
def State.evalRoutes (s : State) (p : GwyRouteDef → Bool) : State :=
  foldSt (s.gwy.cur.routeNos.filter fun r => p (s.gwy.cur.route r)) (fun r s => s.evalRoute r) s

/-- Receive messages that become stale at a Tc are counted (R425). -/
def State.ageMsg (s : State) (m : Nat) : State :=
  let d := s.gwy.cur.msg m
  if d.dir ≠ 1 then s
  else
    let x := s.gwy.msg m
    let st := match x.rxAt with
      | none => true
      | some t => d.time ≠ 0 && t + d.time * 1000000 < s.tm.opNs
    let s := if st && !x.stale then s.inc Reg.GWY_COUNT_STALE_EV else s
    s.setGwyMsg m { x with stale := st }

/-- The freeze of R48 and R432: image input words and their freshness bits. -/
def State.gwyFreeze (s : State) : State :=
  let t := s.gwy.cur
  let into := fun i => t.routeNos.filter fun r => (t.route r).dst = 0x380 + i
  let fresh := (List.range 120).foldl (fun v i =>
    let l := into i
    v + bitNat (!l.isEmpty && l.all fun r => !(s.gwy.route r).stale) * 2 ^ i) 0
  s.modGwy fun x => { x with frozen := x.inW, fresh := fresh }

/-- What a bus tells of itself at a Tc: the error state of a CAN port outside bus-off, and the lines that an MVB port receives on. DESIGN
CHOICE (log 101): free values. -/
def State.busState (s : State) (p : Nat) : State :=
  if !s.rdb (Reg.GWY_PORT_ENABLED p) || 6 ≤ p || (p < 4 && s.rd (Reg.GWY_PORT_STATE p) = 2) then s
  else
    let (v, s) := s.take
    s.wr (Reg.GWY_PORT_STATE p) (if p < 4 then v % 2 else v % 4)

/-- A Tc of the gateway: staleness, the evaluations of R430, and the freeze, unless a swap is due that makes it. -/
def State.gwyAtTc (s : State) : State :=
  if !s.gwyUp then s.modGwy fun x => { x with frozen := [], fresh := 0 }
  else
    let s := foldSt (List.range 8) (fun p s => s.busState p) s
    let s := foldSt s.gwy.cur.used (fun m s => s.ageMsg m) s
    let s := s.evalRoutes fun d => isWordNo d.src || ((s.gwy.msg d.src).stale && d.stale ≠ 2)
    match s.gwy.target with
    | some t => if t ≤ s.tm.tcNs then s else s.gwyFreeze
    | none => s.gwyFreeze

/-! ### Receiving -/

/-- The module sends on its buses: STARTUP to MAINT, role SOLO or ACTIVE (R433). -/
def State.gwyRole (s : State) : Bool := s.md.role = .solo || s.md.role = .active
def State.gwySends (s : State) : Bool := s.gwyUp && s.fromStartup && s.gwyRole

/-- A port can send: a CAN port in bus-off and a port not configured send nothing. -/
def State.portSends (s : State) (port : Nat) : Bool :=
  s.rdb (Reg.GWY_PORT_ENABLED port) && !(port < 4 && s.rd (Reg.GWY_PORT_STATE port) = 2)

/-- A frame leaves a port that can send. -/
def State.gwyOut (s : State) (port ident : Nat) (bytes : List Byte) : State :=
  if !s.portSends port then s
  else
    let b := if 6 ≤ port && s.rdb (Reg.GWY_PORT_CRC16 port) then bytes ++ crc16Modbus bytes else bytes
    s.modGwy fun x => { x with sent := FMap.set none x.sent port (some { port := port, ident := ident, bytes := b }) }

/-- Start Remote Node to all nodes (R421). -/
def State.nmtStart (s : State) (p : Nat) : State :=
  if s.rdb (Reg.GWY_PORT_NMT p) && s.gwySends then s.gwyOut p 0 [1, 0] else s

/-- The reply of an expedited SDO transfer (R438): done, or aborted with its code. -/
def State.sdoReply (s : State) (p : Nat) (ident : Nat) (b : List Byte) : State :=
  match FMap.get none s.gwy.sdo p with
  | none => s
  | some key =>
    let node := s.rd (Reg.GWY_SDO_NODE p)
    if ident ≠ 0x580 + node || b.length ≠ 8 || leAt b 1 3 ≠ key % 0x1000000 then s
    else
      let cs := leAt b 0 1
      let done := fun (st v : Nat) (s : State) =>
        ((s.wr (Reg.GWY_SDO_STATE p) st).wr (Reg.GWY_SDO_DATA_DATA p) v).modGwy fun x =>
          { x with sdo := FMap.set none x.sdo p none }
      if cs = 0x80 then done 3 (leAt b 4 4) s
      else if key < 0x1000000 then
        if cs / 32 = 2 && cs.testBit 1 then
          done 2 (if cs.testBit 0 then leAt b 4 (4 - cs / 4 % 4) else leAt b 4 4) s
        else s
      else if cs / 32 = 3 then done 2 (s.rd (Reg.GWY_SDO_DATA_DATA p)) s
      else s

/-- A valid reception of a message (R424, R430). The instant within the cycle is a free value. -/
def State.receiveMsg (s : State) (m : Nat) (bytes : List Byte) : State :=
  let (v, s) := s.take
  let x := s.gwy.msg m
  let s := s.setGwyMsg m { x with data := bytes, rxAt := some (s.tm.opNs + v % s.tbc), stale := false }
  s.evalRoutes fun d => d.src = m

/-- A message that passed its bus's own checks. -/
def State.busIn (s : State) (port ident : Nat) (bytes : List Byte) : State :=
  let s := if port < 4 then
      let s := s.sdoReply port ident bytes
      if 0x701 ≤ ident && ident ≤ 0x77F && bytes = [0] then s.nmtStart port else s
    else s
  match s.gwy.cur.findMsg 1 port ident with
  | none => s
  | some m =>
    if bytes.length = (s.gwy.cur.msg m).len then s.receiveMsg m bytes else s.inc Reg.GWY_COUNT_LEN_ERR

/-- `BUS_MESSAGE_RECEIVE` (R424): a CAN frame or an MVB process data message; no bytes where its bus's own checks failed. -/
def execBusMessageReceive (port : Fin 8) (ident : Nat) (bytes : Option (List Byte)) (s : State) : Host.Outcome State Fault Refusal :=
  .next (if s.gwyUp && s.rdb (Reg.GWY_PORT_ENABLED port.val) && port.val < 6 then
      (match bytes with
       | some b => s.busIn port.val ident b
       | none => s.inc (Reg.GWY_PORT_CRC_ERR port.val))
    else s)

/-- `RS485_FRAME_END` (R422): byte 0 is the address; a frame whose CRC-16 fails is discarded and counted. -/
def execRs485FrameEnd (port : Fin 8) (bytes : List Byte) (s : State) : Host.Outcome State Fault Refusal :=
  let p := port.val
  .next (if !s.gwyUp || p < 6 || !s.rdb (Reg.GWY_PORT_ENABLED p) || bytes.isEmpty then s
    else if s.rdb (Reg.GWY_PORT_CRC16 p) then
      let n := bytes.length - 2
      if bytes.length < 3 || crc16Modbus (bytes.take n) ≠ bytes.drop n then s.inc (Reg.GWY_PORT_CRC_ERR p)
      else s.busIn p (leAt bytes 0 1) (bytes.take n)
    else s.busIn p (leAt bytes 0 1) bytes)

/-! ### Sending -/

/-- Contents of a transmit message at the start of its transmission (R433); byte 0 of an EIA-485 frame is its address. -/
def State.txBytes (s : State) (m : Nat) : List Byte :=
  let d := s.gwy.cur.msg m
  let l := ((s.gwy.msg m).data ++ List.replicate d.len 0).take d.len
  if 6 ≤ d.port then BitVec.ofNat 8 d.ident :: l.drop 1 else l

/-- The period of a transmit message ends in this cycle (R433). -/
def State.periodOver (s : State) (m : Nat) : Bool :=
  match (s.gwy.msg m).txAt with
  | some t => t + (s.gwy.cur.msg m).time * 1000000 < s.tm.opNs + s.tbc
  | none => true

/-- `MESSAGE_PERIOD` (R433): a transmit message of a CAN or EIA-485 port goes out every `TIME` ms. -/
def execMessagePeriod (m : Nat) (s : State) : Host.Outcome State Fault Refusal :=
  let d := s.gwy.cur.msg m
  .next (if s.gwySends && d.dir = 2 && (d.port < 4 || 6 ≤ d.port) && s.periodOver m then
      let x := s.gwy.msg m
      let at' := match x.txAt with
        | some t => max (t + d.time * 1000000) s.tm.opNs
        | none => s.tm.opNs
      (s.gwyOut d.port d.ident (s.txBytes m)).setGwyMsg m { x with txAt := some at' }
    else s)

/-- `MVB_POLL` (R433): the poll of a source port is answered with the message of that port address. -/
def execMvbPoll (port : Fin 8) (addr : Nat) (s : State) : Host.Outcome State Fault Refusal :=
  .next (if s.gwySends && 4 ≤ port.val && port.val < 6 then
      match s.gwy.cur.findMsg 2 port.val addr with
      | some m => s.gwyOut port.val addr (s.txBytes m)
      | none => s
    else s)

/-- `CAN_BUS_OFF` (R420). -/
def execCanBusOff (p : Fin 4) (s : State) : Host.Outcome State Fault Refusal :=
  .next (if s.gwyUp && s.rdb (Reg.GWY_PORT_ENABLED p.val) then
      (s.wr (Reg.GWY_PORT_STATE p.val) 2).inc (Reg.GWY_PORT_BUSOFF p.val)
    else s)

/-- `BUS_OFF_RECOVERY` (R420). -/
def execBusOffRecovery (p : Fin 4) (s : State) : Host.Outcome State Fault Refusal :=
  .next (if s.gwyUp && s.rd (Reg.GWY_PORT_STATE p.val) = 2 then s.wr (Reg.GWY_PORT_STATE p.val) 0 else s)

/-- `NMT_START` (R421): 500 ms after the port starts. -/
def execNmtStart (p : Fin 4) (s : State) : Host.Outcome State Fault Refusal := .next (s.nmtStart p.val)

/-- A write of `GWY_HTX_CTL[j]` (R434): the plain fields, then a 1 in `SEND` queues the slot as it stands. A frame whose length does
not lie within the buffer, or that its format does not have, is rejected and counted (R13). DESIGN CHOICE (log 102): byte 0 of an
EIA-485 frame is the address in `IDENT`. -/
def State.htxWrite (s : State) (j : Nat) (w : Word) : State :=
  let off := 0xC02004 + j * 0x80
  let busy := s.rdb (Reg.GWY_HTX_CTL_SEND j)
  let s := s.writeReg off w
  if !w.getLsbD 31 then s
  else if busy then s.wrb (Reg.GWY_HTX_CTL_DROPPED j) true
  else
    let n := s.rd (Reg.GWY_HTX_CTL_LENGTH j)
    let p := s.rd (Reg.GWY_HTX_CTL_PORT j)
    let ident := s.rd (Reg.GWY_HTX_ID_IDENT j)
    if n = 0 || w.toNat % 128 ≠ n || !lenAllowed { ident := ident, port := p, dir := 2, rsv := 0, len := n, time := 1 } then
      s.accErr0 1 false off
    else
      let data := ((List.range 16).flatMap fun i => natLE 4 (s.rd (Reg.GWY_HTX_DATA_DATA j i))).take n
      let f : GwyFrame := { port := p, ident := ident, bytes := if 6 ≤ p then BitVec.ofNat 8 ident :: data.drop 1 else data }
      (s.wrb (Reg.GWY_HTX_CTL_SEND j) true).modGwy fun x => { x with hostQ := x.hostQ ++ [(j, f)] }

/-- `HOST_FRAME_SEND` (R434). -/
def execHostFrameSend (j : Fin 16) (val : Word) (s : State) : Host.Outcome State Fault Refusal :=
  .next (if s.hostUp then s.htxWrite j.val val else s)

/-- `HOST_FRAME_SENT` (R434): in any mode after BOOT, in role SOLO or ACTIVE, the queued frame of the slot goes out. -/
def execHostFrameSent (j : Fin 16) (s : State) : Host.Outcome State Fault Refusal :=
  .next (match s.gwy.hostQ.find? fun e => e.1 = j.val with
    | none => s
    | some (_, f) =>
      if s.gwyUp && s.md.mode ≠ .boot && s.gwyRole && s.portSends f.port then
        let s := s.gwyOut f.port f.ident f.bytes
        (s.wrb (Reg.GWY_HTX_CTL_SEND j.val) false).modGwy fun x => { x with hostQ := x.hostQ.filter fun e => e.1 ≠ j.val }
      else s)

/-! ### Tables and commands -/

/-- Report the bank in force (R439). -/
def State.gwyRegs (s : State) : State :=
  let t := s.gwy.cur
  let s := (s.wr Reg.GWY_CFG_MESSAGES t.used.length).wr Reg.GWY_CFG_ROUTES t.routeNos.length
  foldSt (List.range 8) (fun p s =>
    ((s.wrb (Reg.GWY_PORT_ENABLED p) (natBit t.enabled p)).wrb (Reg.GWY_PORT_NMT p) (natBit t.nmt p)).wrb
      (Reg.GWY_PORT_CRC16 p) (natBit t.crc16 p)) s

/-- Start the gateway with a bank (R425, R432): every receive message stale, contents 0. -/
def State.gwyStart (s : State) (t : GwyTab) : State :=
  ({ s with gwy := { GwySt.init with cur := t, sent := s.gwy.sent } }).gwyRegs

/-- Swap the banks (R437): messages with the same port, identifier and direction keep their data and times, image input
words that the new bank does not write read 0. -/
def State.gwySwap (s : State) : State :=
  let x := s.gwy
  let keep := fun m =>
    let d := x.next.msg m
    match x.cur.findMsg d.dir d.port d.ident with
    | some q => x.msg q
    | none => GwyMsg.init
  let msgs := x.next.used.foldl (fun l m => FMap.set GwyMsg.init l m (keep m)) []
  let wr := x.next.routeNos.map fun r => (x.next.route r).dst
  let s := s.modGwy fun x => { x with
    cur := x.next, next := x.cur, target := none, msgs := msgs, routes := [],
    inW := x.inW.filter fun e => wr.contains (0x380 + e.1) }
  let s := s.evalRoutes fun d => isWordNo d.src || !(s.gwy.msg d.src).stale || d.stale = 0
  let s := ((s.wr Reg.GWY_CFG_BANK (1 - s.rd Reg.GWY_CFG_BANK)).wrb Reg.GWY_CFG_SWAP_PENDING false).gwyRegs
  s.gwyFreeze

/-- `GWY_SWAP_AT_TARGET` (R437): at the freeze of the target Tc. -/
def execGwySwapAtTarget (s : State) : Host.Outcome State Fault Refusal :=
  .next (match s.gwy.target with
    | some t => if s.gwyUp && t ≤ s.tm.tcNs then s.gwySwap else s
    | none => s)

/-- `GWY_LOAD` (Table 14-5). -/
def applyGwyLoad (w1 : Word) (s : State) : CmdRes State :=
  needs s.fromStartup St.wrongState <|
  needs (w1.toNat ≤ 1) St.badArg <|
  needs (s.rd Reg.GWY_CFG_NEXT_STATE ≠ 1 && !s.rdb Reg.GWY_CFG_SWAP_PENDING) St.busy <|
  .ok ((s.wr Reg.GWY_CFG_NEXT_STATE 1).modGwy fun x => { x with loading := some w1.toNat })

/-- Open a copy in the first channel that holds it valid, with the firmware that runs there. -/
def State.openAny (s : State) (copy : Nat) : Opened :=
  match s.copyValidIn copy with
  | c :: _ => s.openCopy c copy (some (s.rd (Reg.SEC_CH_FW_VERSION (Ch.num c))))
  | [] => s.openCopy .chA copy none

/-- Report the check of a bank: the first refused entry with its reason, or none (R435). -/
def State.gwyReport (s : State) (e : Option (Bool × Nat × Nat)) : State :=
  let (r, n, code) := e.getD (false, 0, 0)
  ((s.wrb Reg.GWY_LOAD_STAT_TABLE r).wr Reg.GWY_LOAD_STAT_ENTRY n).wr Reg.GWY_LOAD_STAT_REASON code

/-- The other bank is refused. -/
def State.gwyRefuse (s : State) (route : Bool) (n reason : Nat) : State :=
  ((s.wr Reg.GWY_CFG_NEXT_STATE 3).gwyReport (some (route, n, reason))).diag 3 Src.gwy 0xFFF 0x00C00004

/-- `GWY_LOAD_DONE` (R435): the other bank is accepted, or refused at its first bad entry. -/
def execGwyLoadDone (s : State) : Host.Outcome State Fault Refusal :=
  match s.gwy.loading with
  | none => .next s
  | some k =>
    if !s.gwyUp then .next s
    else
      let o := s.openAny k
      let s := s.modGwy fun x => { x with loading := none }
      .next (if o.reason ≠ 0 then s.gwyRefuse false 0 8
        else match o.gwyBank with
          | none => s.gwyRefuse false 0 8
          | some t =>
            match t.check with
            | some (r, n, code) => (s.gwyRefuse r n code).logParams t.overParams
            | none =>
              ((s.wr Reg.GWY_CFG_NEXT_STATE 2).gwyReport none).modGwy fun x => { x with next := t })

/-- `GWY_SWAP` (Table 14-5). -/
def applyGwySwap (w1 w2 : Word) (s : State) : CmdRes State :=
  let t := arg64 w1 w2
  let t := if t = 0 then s.tm.tcNs + s.tbc else t
  needs (s.fromStartup && s.rd Reg.GWY_CFG_NEXT_STATE = 2) St.wrongState <|
  needs (s.tcAhead t) St.badArg <|
  .ok ((s.wrb Reg.GWY_CFG_SWAP_PENDING true).modGwy fun x => { x with target := some t })

/-- A CAN port with NMT enabled. -/
def State.nmtPort (s : State) (p : Nat) : Bool := p < 4 && s.rdb (Reg.GWY_PORT_NMT p)

/-- `GWY_NMT` (Table 14-5). -/
def applyGwyNmt (w1 : Word) (s : State) : CmdRes State :=
  let p := bitsOf w1 0 8
  needs (s.fromStartup && s.gwyRole) St.wrongState <|
  needs (s.nmtPort p) St.badArg <|
  .ok (s.gwyOut p 0 [w1.extractLsb' 8 8, w1.extractLsb' 16 8])

/-- Begin an SDO transfer (R438). -/
def State.sdoBegin (s : State) (seq : BitVec 16) (p node key : Nat) (b : List Byte) : State :=
  let s := (((s.wr (Reg.GWY_SDO_SEQ p) seq.toNat).wr (Reg.GWY_SDO_STATE p) 1).wr (Reg.GWY_SDO_NODE p) node).wr
    (Reg.GWY_SDO_DATA_DATA p) 0
  (s.modGwy fun x => { x with sdo := FMap.set none x.sdo p (some key) }).gwyOut p (0x600 + node) b

/-- Checks of the SDO commands, with one of its own. -/
def State.sdoCheck (s : State) (w1 : Word) (own : Bool) (k : CmdRes State) : CmdRes State :=
  let p := bitsOf w1 0 8
  needs (s.fromStartup && s.gwyRole) St.wrongState <|
  needs ((FMap.get none s.gwy.sdo p).isNone) St.busy <|
  needs (s.nmtPort p && bitsOf w1 8 7 ≠ 0 && own) St.badArg k

/-- `GWY_SDO_READ` (Table 14-5). -/
def applyGwySdoRead (seq : BitVec 16) (w1 w2 : Word) (s : State) : CmdRes State :=
  s.sdoCheck w1 true <|
  let idx := bitsOf w1 16 16
  let sub := bitsOf w2 0 8
  .ok (s.sdoBegin seq (bitsOf w1 0 8) (bitsOf w1 8 7) (idx + sub * 65536) ([0x40] ++ natLE 2 idx ++ natLE 1 sub ++ [0, 0, 0, 0]))

/-- `GWY_SDO_WRITE` (Table 14-5). -/
def applyGwySdoWrite (seq : BitVec 16) (w1 w2 w3 : Word) (s : State) : CmdRes State :=
  let n := bitsOf w2 8 3
  s.sdoCheck w1 (1 ≤ n && n ≤ 4) <|
  let idx := bitsOf w1 16 16
  let sub := bitsOf w2 0 8
  let data := (wordLE w3).take n ++ List.replicate (4 - n) 0
  .ok (s.sdoBegin seq (bitsOf w1 0 8) (bitsOf w1 8 7) (0x1000000 + idx + sub * 65536)
    ([BitVec.ofNat 8 (0x23 + 4 * (4 - n))] ++ natLE 2 idx ++ natLE 1 sub ++ data))

/-- `SDO_TIMEOUT` (R438): no reply within 1 s. -/
def execSdoTimeout (p : Fin 4) (s : State) : Host.Outcome State Fault Refusal :=
  .next (if (FMap.get none s.gwy.sdo p.val).isSome && s.gwyUp then
      (s.wr (Reg.GWY_SDO_STATE p.val) 4).modGwy fun x => { x with sdo := FMap.set none x.sdo p.val none }
    else s)

def execGwyLoad (r : CmdRec) (s : State) : Host.Outcome State Fault Refusal := .next (s.cmd 0x70 r (applyGwyLoad r.w1))
def execGwySwap (r : CmdRec) (s : State) : Host.Outcome State Fault Refusal := .next (s.cmd 0x71 r (applyGwySwap r.w1 r.w2))
def execGwyNmt (r : CmdRec) (s : State) : Host.Outcome State Fault Refusal := .next (s.cmd 0x72 r (applyGwyNmt r.w1))

def execGwySdoRead (r : CmdRec) (s : State) : Host.Outcome State Fault Refusal :=
  .next (s.cmd 0x73 r (applyGwySdoRead (CmdRec.seq r) r.w1 r.w2))
def execGwySdoWrite (r : CmdRec) (s : State) : Host.Outcome State Fault Refusal :=
  .next (s.cmd 0x74 r (applyGwySdoWrite (CmdRec.seq r) r.w1 r.w2 r.w3))

end Sys2Proof.Machine
end

