-- ==== Sys2Proof/Machine/Mem.lean ====
section
/-! DEFINITION. Byte memories in canonical form (an unlisted byte reads 0): the retained store, the recorder's MRAM, the
staging buffer and host memory as DMA reaches it. -/

namespace Sys2Proof

/-- One byte. -/
def Mem.get (m : FMap Byte) (a : Nat) : Byte := FMap.get 0 m a

/-- Store one byte; a 0 removes the entry. -/
def Mem.set (m : FMap Byte) (a : Nat) (v : Byte) : FMap Byte := FMap.set 0 m a v

/-- `n` bytes from an address. -/
def Mem.read (m : FMap Byte) (a n : Nat) : List Byte := (List.range n).map fun i => Mem.get m (a + i)

/-- Store bytes from an address on. -/
def Mem.write : FMap Byte → Nat → List Byte → FMap Byte
  | m, _, [] => m
  | m, a, b :: l => Mem.write (Mem.set m a b) (a + 1) l

/-- The canonical form of a byte memory. -/
def Mem.wf (m : FMap Byte) : Bool := FMap.wf 0 m

/-! ### Nonvolatile memory under the code of R208 (R226) -/

/-- Codewords of eight bytes that a byte range touches. -/
def cwRange (a n : Nat) : List Nat := (List.range ((a + n + 7) / 8 - a / 8)).map (a / 8 + ·)

/-- A codeword of a byte range is uncorrectable; `errs` holds the difference of each codeword from its encoding. -/
def Ecc.bad (errs : FMap (BitVec 72)) (a n : Nat) : Bool :=
  errs.any fun e => a / 8 ≤ e.1 && e.1 < (a + n + 7) / 8 && Hsiao.outcome e.2 = .uncorrectable

/-- Difference of one byte, as it reads, from what was written there. -/
def Ecc.byte (errs : FMap (BitVec 72)) (a : Nat) : Byte :=
  let e := FMap.get 0 errs (a / 8)
  byteOf (Machine.Miu.residual e (Hsiao.outcome e)) (a % 8)

/-- `n` bytes from an address as they read through the code; none where a codeword is uncorrectable. -/
def Mem.readEcc (m : FMap Byte) (errs : FMap (BitVec 72)) (a n : Nat) : Option (List Byte) :=
  if Ecc.bad errs a n then none
  else if errs.isEmpty then some (Mem.read m a n)
  else some ((List.range n).map fun i => Mem.get m (a + i) ^^^ Ecc.byte errs (a + i))

/-- The difference that stays of a codeword written back as it read. -/
def Ecc.left (e : BitVec 72) : BitVec 72 :=
  match Hsiao.outcome e with
  | .uncorrectable => e
  | o =>
    let r := Machine.Miu.residual e o
    if r = 0 then 0 else Hsiao.enc r

/-- The differences after the corrected codewords of a range have been written back. -/
def Ecc.heal (errs : FMap (BitVec 72)) (a n : Nat) : FMap (BitVec 72) :=
  (errs.filter fun e => a / 8 ≤ e.1 && e.1 < (a + n + 7) / 8).foldl (fun m e => FMap.set 0 m e.1 (Ecc.left e.2)) errs

/-- The differences after a write of a range, which stores whole codewords: of one written in part the other bytes are stored as they
read. DESIGN CHOICE (log 91): one that is uncorrectable stays so. -/
def Ecc.written (errs : FMap (BitVec 72)) (a n : Nat) : FMap (BitVec 72) :=
  (errs.filter fun e => a / 8 ≤ e.1 && e.1 < (a + n + 7) / 8).foldl (fun m e =>
    if a ≤ 8 * e.1 && 8 * e.1 + 8 ≤ a + n then FMap.del m e.1
    else
      match Hsiao.outcome e.2 with
      | .uncorrectable => m
      | o =>
        let d := Machine.Miu.residual e.2 o
        let keep := (List.range 8).foldl (fun v i =>
          if a ≤ 8 * e.1 + i && 8 * e.1 + i < a + n then v else v ||| (byteOf d i).setWidth 64 <<< (8 * i)) 0#64
        FMap.set 0 m e.1 (if keep = 0 then 0 else Hsiao.enc keep)) errs

end Sys2Proof

namespace Sys2Proof.Machine

/-- The retained store can be written: PD-H is powered, loaded and out of reset. -/
def State.nvAlive (s : State) : Bool := s.pdhGood && natBit (s.rd Reg.RPC_LOAD_LOAD_DONE) 7

/-- Bytes of the retained store as they read; none where a codeword is uncorrectable (R226) or the store cannot be read. -/
def State.nvRead (s : State) (a n : Nat) : Option (List Byte) :=
  if s.nvAlive then Mem.readEcc s.rpc.store s.rpc.storeErrs a n else none

/-- Single errors that a read of the retained store has met are written back (R226). -/
def State.nvHeal (s : State) (a n : Nat) : State :=
  if s.nvAlive then s.modRpc fun x => { x with storeErrs := Ecc.heal x.storeErrs a n } else s

/-- Write bytes of the retained store, where it can be written. -/
def State.nvWrite (s : State) (a : Nat) (l : List Byte) : State :=
  if s.nvAlive then
    s.modRpc fun x => { x with store := Mem.write x.store a l, storeErrs := Ecc.written x.storeErrs a l.length }
  else s

/-- A record with a CRC-32C written last over the bytes before it. -/
def withCrc (l : List Byte) : List Byte := l ++ wordLE (crc32c l)

/-- A record of the retained store with its CRC-32C in the last four of `n` bytes; none where it does not match. -/
def State.nvRecord (s : State) (a n : Nat) : Option (List Byte) :=
  match s.nvRead a n with
  | none => none
  | some l => if (crc32c (l.take (n - 4))).toNat = leNat (l.drop (n - 4)) then some (l.take (n - 4)) else none

end Sys2Proof.Machine
end

