-- ==== Sys2Proof/Machine/Alp.lean ====
section
/-! DEFINITION. The current loops (R440 to R455): sampling and classes, output drive and supervision, HART transactions, and
on-line recalibration. -/

namespace Sys2Proof.Machine

def State.loop (s : State) (n : Nat) : AlpLoop := FMap.get AlpLoop.init s.alp n
def State.modLoop (s : State) (n : Nat) (f : AlpLoop → AlpLoop) : State :=
  { s with alp := FMap.set AlpLoop.init s.alp n (f (s.loop n)) }

def loops4 : List Nat := [0, 1, 2, 3]

/-- PD-L is powered and loaded. -/
def State.pdlGood (s : State) : Bool := natBit (s.rd Reg.MOD_DOMAIN_PGOOD) 6 && natBit (s.rd Reg.RPC_LOAD_LOAD_DONE) 6

def State.loopMode (s : State) (n : Nat) : Nat := s.rd (Reg.ALP_CFG_MODE n)
def State.loopOut (s : State) (n : Nat) : Bool := s.loopMode n = 3
def State.loopDrop (s : State) (n : Nat) : Bool := s.rdb (Reg.ALP_CFG_MULTIDROP n)

/-- Samples in the filter window (R441): one each 250 µs. -/
def State.window (s : State) (n : Nat) : Nat :=
  match s.rd (Reg.ALP_CFG_FILTER n) with
  | 0 => 40 | 1 => 80 | 2 => 200 | _ => 400

/-- `CLASS` of a current in µA (Table 15-2). -/
def loopClass (uA : Nat) : Nat :=
  if uA ≤ 3600 then 3 else if uA < 3800 then 1 else if uA ≤ 20500 then 0 else if uA < 21000 then 2 else 4

/-- A value divided by `d`, rounded to a neighbour that the spec leaves open where it is not exact. -/
def State.divFree (s : State) (v : Int) (d : Nat) : Int × State :=
  if v % d = 0 then (v / d, s)
  else
    let (r, s) := s.take
    (v / d + (r % 2 : Nat), s)

/-- `LOOP_SAMPLE` (R441): one sample in nA; for an output it is the current in its return. -/
def execLoopSample (n : Fin 4) (nA : Nat) (limited : Bool) (headroomMv : Nat) (s : State) : Host.Outcome State Fault Refusal :=
  .next (if s.pdlGood && s.loopMode n.val ≠ 0 then
      s.modLoop n.val fun x => { x with
        samples := (nA :: x.samples).take 400, limited := limited && s.loopMode n.val = 1, headroom := headroomMv }
    else s)

/-- Trimmed current of a loop in µA (R441, R443, R452): the mean of an input's window, an output's latest sample. -/
def State.loopUa (s : State) (n : Nat) : Nat × State :=
  let x := s.loop n
  let l := if s.loopOut n then x.samples.take 1 else x.samples.take (s.window n)
  let k := l.length
  if k = 0 then (0, s)
  else
    let sum : Int := (l.foldl (· + ·) 0 : Nat)
    let y : Int := if s.loopOut n then sum * 1000000 else sum * (1000000 + x.gain) + x.offset * 100000000 * k
    let (v, s) := s.divFree y (1000000000 * k)
    ((min 24000 (max 0 v)).toNat, s)

/-- Set the status fields that follow from class and supervision (Table 15-2). -/
def State.loopStatus (s : State) (n cls cur : Nat) : State :=
  let was := s.rd (Reg.ALP_STAT_CLASS n)
  let open' := s.rdb (Reg.ALP_STAT_OPEN n)
  let comp := s.rdb (Reg.ALP_STAT_COMPLIANCE n) && s.rdb (Reg.ALP_CFG_COMP_FAULT n)
  let fault := cls = 3 || cls = 4 || cls = 7 || open' || comp
  let s := ((s.wr (Reg.ALP_STAT_CLASS n) cls).wr (Reg.ALP_STAT_CURRENT n) cur).wrb (Reg.ALP_STAT_FAULT n) fault
  if (cls = 3 || cls = 4) && was ≠ cls then s.wrb (Reg.ALP_EVENT_FAILURE n) true else s

/-- The freeze of one loop at a Tc (R441, R443, R449, R453). -/
def State.loopFreeze (s : State) (n : Nat) : State :=
  let x := s.loop n
  if !s.pdlGood || s.loopMode n = 0 then (s.wrb (Reg.ALP_STAT_LIMIT n) false).loopStatus n 7 0
  else
    let s := (s.wrb (Reg.ALP_STAT_LIMIT n) x.limited).wr (Reg.ALP_STAT_HEADROOM n)
      (if s.loopOut n then min 127 (x.headroom / 100) else 0)
    if s.loopDrop n then s.loopStatus n 5 0
    else if x.cal.isSome && !s.loopOut n then s.loopStatus n 6 (s.rd (Reg.ALP_STAT_CURRENT n))
    else
      let (v, s) := s.loopUa n
      s.loopStatus n (if x.cal.isSome then 6 else loopClass v) v

/-- The fail value of an output in µA (R445). -/
def State.failUa (s : State) (n : Nat) : Nat :=
  match s.rd (Reg.ALP_CFG_FAIL n) with
  | 0 => 3500 | 1 => 21500 | 2 => (s.loop n).lastUa | _ => 0

/-- The current that an output drives (R445, Table 15-3): while it is calibrated, the point's current; otherwise its fail value or
the last voted one. DESIGN CHOICE (log 103): a calibration drives its points whatever the mode and role. -/
def State.redrive (s : State) (n : Nat) : State :=
  if !s.loopOut n || !s.pdlGood then s
  else
    let x := s.loop n
    let fail := !(s.fromStartup && s.gwyRole) || x.stale
    let ua :=
      match x.cal with
      | some k => if k.p0.isSome then 20000 else 4000
      | none => if fail then s.failUa n else x.lastUa
    (s.wrb (Reg.ALP_STAT_FAILSAFE n) (fail && x.cal.isNone)).modLoop n fun y => { y with driveUa := ua }

/-- An output's drive at a Tc (R441, R445): the value voted in the previous cycle, or its fail value. -/
def State.loopDrive (s : State) (n : Nat) : State :=
  if !s.loopOut n || !s.pdlGood then s.modLoop n fun x => { x with staged := none }
  else
    let x := s.loop n
    let noMaj := if x.staged.isSome then 0 else x.noMaj + 1
    let stale := s.fromStartup && s.gwyRole && decide (s.rd (Reg.ALP_CFG_STALE_CYC n) ≤ noMaj)
    let last := x.staged.getD x.lastUa
    let s := s.modLoop n fun y => { y with staged := none, noMaj := min noMaj 255, lastUa := last, stale := stale }
    let s := if stale && !x.stale then s.wrb (Reg.ALP_EVENT_STALE n) true else s
    s.redrive n

/-- A voted output word of a loop is staged (R21, R445): clamped, with the clamp counted. -/
def State.loopStage (s : State) (n : Nat) (v : Option Word) : State :=
  match v with
  | none => s.modLoop n fun x => { x with staged := none }
  | some w =>
    let y : Int := w.toInt
    let z := min (max y 0) 24000
    let s := if z ≠ y && s.loopOut n then s.inc (Reg.ALP_EVENT_CLAMPED n) else s
    s.modLoop n fun x => { x with staged := some z.toNat }

/-- The loops at a Tc. -/
def State.alpAtTc (s : State) : State := foldSt loops4 (fun n s => (s.loopFreeze n).loopDrive n) s

/-- Words 0x0178 + 2n and 0x0179 + 2n of the image (R443). -/
def State.loopWords (s : State) (n : Nat) : Nat × Nat :=
  (s.rd (Reg.ALP_STAT_CURRENT n),
    s.rd (Reg.ALP_STAT_CLASS n) + 8 * s.rd (Reg.ALP_STAT_LIMIT n) + 16 * s.rd (Reg.ALP_STAT_OPEN n) +
      32 * s.rd (Reg.ALP_STAT_FAULT n) + 64 * s.rd (Reg.ALP_STAT_FAILSAFE n))

/-- Freshness of a loop (R444). -/
def State.loopFresh (s : State) (n : Nat) : Bool := s.rd (Reg.ALP_STAT_CLASS n) ≤ 2 && !s.rdb (Reg.ALP_STAT_FAULT n)

/-! ### Supervision -/

/-- Every sample of the last 10 ms meets a condition: one sample each 250 µs (R441, R446). -/
def AlpLoop.tenMs (x : AlpLoop) (p : Nat → Bool) : Bool := decide (40 ≤ x.samples.length) && (x.samples.take 40).all p

/-- `LOOP_OPEN` (R446): less than 0.5 mA for 10 ms with 4 mA or more commanded. -/
def execLoopOpen (n : Fin 4) (s : State) : Host.Outcome State Fault Refusal :=
  .next (if s.pdlGood && s.loopOut n.val && 4000 ≤ (s.loop n.val).driveUa && ((s.loop n.val).tenMs fun x => x < 500000) &&
        !s.rdb (Reg.ALP_STAT_OPEN n.val) then
      ((s.wrb (Reg.ALP_STAT_OPEN n.val) true).wrb (Reg.ALP_STAT_FAULT n.val) true).wrb (Reg.ALP_EVENT_OPEN_SET n.val) true
    else s)

/-- Recompute `FAULT` after a supervision bit has changed. -/
def State.loopFault (s : State) (n : Nat) : State := s.loopStatus n (s.rd (Reg.ALP_STAT_CLASS n)) (s.rd (Reg.ALP_STAT_CURRENT n))

/-- `LOOP_OPEN_CLEAR` (R446): more than 0.5 mA for 10 ms. -/
def execLoopOpenClear (n : Fin 4) (s : State) : Host.Outcome State Fault Refusal :=
  .next (if s.rdb (Reg.ALP_STAT_OPEN n.val) && ((s.loop n.val).tenMs fun x => 500000 < x) then (s.wrb (Reg.ALP_STAT_OPEN n.val) false).loopFault n.val else s)

/-- `LOOP_COMPLIANCE` (R447): headroom below 1.5 V for more than 10 ms. -/
def execLoopCompliance (n : Fin 4) (s : State) : Host.Outcome State Fault Refusal :=
  .next (if s.pdlGood && s.loopOut n.val && (s.loop n.val).headroom < 1500 && !s.rdb (Reg.ALP_STAT_COMPLIANCE n.val) then
      ((s.wrb (Reg.ALP_STAT_COMPLIANCE n.val) true).wrb (Reg.ALP_EVENT_COMP_SET n.val) true).loopFault n.val
    else s)

/-- `LOOP_COMPLIANCE_CLEAR` (R447): headroom of 1.5 V or more for 10 ms. -/
def execLoopComplianceClear (n : Fin 4) (s : State) : Host.Outcome State Fault Refusal :=
  .next (if s.rdb (Reg.ALP_STAT_COMPLIANCE n.val) && 1500 ≤ (s.loop n.val).headroom then
      (s.wrb (Reg.ALP_STAT_COMPLIANCE n.val) false).loopFault n.val
    else s)

/-! ### HART -/

/-- A transaction ends with a state (R451). -/
def State.hartEnd (s : State) (n st : Nat) : State :=
  let s := ((s.wr (Reg.ALP_HRSP_STAT_STATE n) st).wrb (Reg.ALP_HREQ_CTL_GO n) false).incWrap (Reg.ALP_HART_TRANS n)
  let s := s.modLoop n fun x => { x with hreq := none }
  if st = 3 || st = 4 then s.inc (Reg.ALP_HART_ERR n) else s

/-- The request that a loop's registers hold. -/
def State.hartReq (s : State) (n : Nat) : HartReq :=
  { addr := s.rd (Reg.ALP_HREQ_CTL_ADDR n), cmd := s.rd (Reg.ALP_HREQ_CTL_CMD n),
    data := ((List.range 16).flatMap fun i => natLE 4 (s.rd (Reg.ALP_HREQ_DATA_DATA n i))).take (s.rd (Reg.ALP_HREQ_CTL_LEN n)) }

/-- A write of `ALP_HREQ_CTL[n]` (R451): a 1 in `GO` sends the request as it stands. -/
def State.hreqWrite (s : State) (n : Nat) (w : Word) : State :=
  let busy := s.rdb (Reg.ALP_HREQ_CTL_GO n)
  let s := s.writeReg (0xB00100 + n * 0x100) w
  if !w.getLsbD 31 then s
  else if busy then s.wrb (Reg.ALP_HREQ_CTL_DROPPED n) true
  else if 64 < s.rd (Reg.ALP_HREQ_CTL_LEN n) then s.hartEnd n 5
  else
    ((s.wrb (Reg.ALP_HREQ_CTL_GO n) true).wr (Reg.ALP_HRSP_STAT_STATE n) 1).modLoop n fun x => { x with hreq := some (s.hartReq n) }

/-- `HART_GO` (R451). -/
def execHartGo (n : Fin 4) (val : Word) (s : State) : Host.Outcome State Fault Refusal :=
  .next (if s.hostUp then s.hreqWrite n.val val else s)

/-- `HART_COMPLETE` (R451): two response code bytes and the data, or no valid response. A loop without `HART` has none (R448). -/
def execHartComplete (n : Fin 4) (response : Option (List Byte)) (s : State) : Host.Outcome State Fault Refusal :=
  let m := n.val
  .next (match (s.loop m).hreq with
    | none => s
    | some q =>
      let a := q.addr
      match (if s.pdlGood && s.rdb (Reg.ALP_CFG_HART m) then response else none) with
      | none => (s.clrBit (Reg.ALP_HART_LIVE m) a).hartEnd m 3
      | some r =>
        let d := r.drop 2
        let s := s.setBit (Reg.ALP_HART_LIVE m) a
        if 64 < d.length then s.hartEnd m 4
        else
          let s := (s.wr (Reg.ALP_HRSP_STAT_RESP m) (beNat (r.take 2))).wr (Reg.ALP_HRSP_STAT_LEN m) d.length
          let s := foldSt (List.range 16) (fun i s => s.wr (Reg.ALP_HRSP_DATA_DATA m i) (leAt d (4 * i) 4)) s
          s.hartEnd m 2)

/-! ### Recalibration -/

/-- Show the calibration of a loop in its registers. -/
def State.calRegs (s : State) (n : Nat) : State :=
  let c := (s.loop n).cal
  let has := fun (f : AlpCal → Bool) => (c.map f).getD false
  ((((s.wrb (Reg.ALP_CAL_ACTIVE n) c.isSome).wrb (Reg.ALP_STAT_CAL n) c.isSome).wrb (Reg.ALP_CAL_LOW n)
    (has (·.p0.isSome))).wrb (Reg.ALP_CAL_HIGH n) (has (·.p1.isSome))).wrb (Reg.ALP_CAL_MEASURING n) (has (·.measuring.isSome))

/-- A loop's calibration changes, and with it what an output drives. -/
def State.setCal (s : State) (n : Nat) (c : Option AlpCal) : State :=
  ((s.modLoop n fun x => { x with cal := c }).calRegs n).redrive n

/-- Trims in use, in the loop and in `ALP_TRIM`. -/
def State.setTrims (s : State) (n : Nat) (gain offset : Int) (field : Bool) : State :=
  let s := s.modLoop n fun x => { x with gain := gain, offset := offset }
  ((s.wr (Reg.ALP_TRIM_GAIN_PPM n) (gain % 65536).toNat).wr (Reg.ALP_TRIM_OFFSET n) (offset % 4096).toNat).wrb
    (Reg.ALP_CAL_SOURCE n) field

/-- Abort a calibration (R454). -/
def State.calAbort (s : State) (n : Nat) : State :=
  if (s.loop n).cal.isSome then (s.setCal n none).wrb (Reg.ALP_EVENT_CAL_ABORT n) true else s

/-- Calibration records in the retained store. -/
def calAddr (n : Nat) : Nat := 0xF000 + 16 * n

/-- The trims of a loop at BOOT (R452). -/
def State.loadTrims (s : State) (n : Nat) : State :=
  let s := s.nvHeal (calAddr n) 16
  match s.nvRecord (calAddr n) 16 with
  | some l =>
    let s := s.modLoop n fun x => { x with commits := leAt l 8 4 }
    s.setTrims n (signedOf 32 (leAt l 0 4)) (signedOf 32 (leAt l 4 4)) true
  | none => (s.setTrims n 0 0 false).diag 3 Src.alp n (0x00B0000C + n * 0x20)

/-- Nearest integer to v / d, d positive. -/
def nearest (v d : Int) : Int := (2 * v + d) / (2 * d)

/-- Trims from two points of (value wanted in µA, value found in nA): gain in ppm and offset in 0.1 µA (R453). -/
def trimsOf (w0 x0 w1 x1 : Int) : Option (Int × Int) :=
  let dx := x1 - x0
  if dx ≤ 0 then none
  else
    let gain := nearest ((w1 - w0) * 1000000000 - dx * 1000000) dx
    let offset := nearest (w0 * 1000000000 - x0 * (1000000 + gain)) 100000000
    some (gain, offset)

/-- The trims of a calibration with both points: an output's wanted values are those it drove, its found ones those the
integrator measured. -/
def State.calTrims (s : State) (n : Nat) (c : AlpCal) : Option (Int × Int) :=
  match c.p0, c.p1 with
  | some (r0, x0), some (r1, x1) =>
    if s.loopOut n then trimsOf 4000 (r0 * 1000) 20000 (r1 * 1000) else trimsOf r0 x0 r1 x1
  | _, _ => none

def calLoop (w1 : Word) : Nat := w1.toNat % 4

/-- `ALP_CAL_BEGIN` (Table 15-3). DESIGN CHOICE (log 103): a loop is unused while PD-L is lost. -/
def applyCalBegin (w1 : Word) (s : State) : CmdRes State :=
  let n := calLoop w1
  needs s.fromIntegrate St.wrongState <|
  needs (loops4.all fun k => (s.loop k).cal.isNone) St.busy <|
  needs (s.loopMode n ≠ 0 && !s.loopDrop n && s.pdlGood) St.wrongState <|
  let s := s.setCal n (some { began := s.tm.opNs, p0 := none, p1 := none, measuring := none })
  .ok (s.loopStatus n 6 (s.rd (Reg.ALP_STAT_CURRENT n)))

/-- `ALP_CAL_POINT` (Table 15-3). -/
def applyCalPoint (w1 w2 : Word) (s : State) : CmdRes State :=
  let n := calLoop w1
  let hi := w1.getLsbD 8
  let ref := w2.toNat
  needs s.fromIntegrate St.wrongState <|
  match (s.loop n).cal with
  | none => .error St.wrongState
  | some c =>
    needs c.measuring.isNone St.busy <|
    needs (if hi then 19000 ≤ ref && ref ≤ 21000 else 3000 ≤ ref && ref ≤ 5000) St.badArg <|
    if s.loopOut n then
      .ok (s.setCal n (some (if hi then { c with p1 := some (ref, 0) } else { c with p0 := some (ref, 0) })))
    else .ok (s.setCal n (some { c with measuring := some (bitNat hi, ref) }))

/-- `CAL_POINT_TAKEN` (R453): the 100 ms average of an input point. -/
def execCalPointTaken (n : Fin 4) (avgNa : Nat) (s : State) : Host.Outcome State Fault Refusal :=
  .next (match (s.loop n.val).cal with
    | none => s
    | some c =>
      match c.measuring with
      | none => s
      | some (p, ref) =>
        let c := { c with measuring := none }
        s.setCal n.val (some (if p = 0 then { c with p0 := some (ref, avgNa) } else { c with p1 := some (ref, avgNa) })))

/-- `ALP_CAL_COMMIT` (Table 15-3): the trims computed, written and applied. -/
def applyCalCommit (w1 : Word) (s : State) : CmdRes State :=
  let n := calLoop w1
  needs s.fromIntegrate St.wrongState <|
  match (s.loop n).cal with
  | none => .error St.wrongState
  | some c =>
    needs (c.p0.isSome && c.p1.isSome) St.wrongState <|
    needs c.measuring.isNone St.busy <|
    match s.calTrims n c with
    | none => .error St.badArg
    | some (g, o) =>
      needs (-20000 ≤ g && g ≤ 20000 && -2000 ≤ o && o ≤ 2000) St.badArg <|
      let k := (s.loop n).commits + 1
      let rec' := natLE 4 (g % 4294967296).toNat ++ natLE 4 (o % 4294967296).toNat ++ natLE 4 k
      let s := ((s.modLoop n fun x => { x with commits := k }).setTrims n g o true).setCal n none
      .ok ((s.nvWrite (calAddr n) (withCrc rec')).wrb (Reg.ALP_EVENT_CAL_DONE n) true)

/-- `ALP_CAL_ABORT` (Table 15-3). -/
def applyCalAbort (w1 : Word) (s : State) : CmdRes State :=
  let n := calLoop w1
  needs (s.fromIntegrate && (s.loop n).cal.isSome) St.wrongState <| .ok (s.calAbort n)

/-- `ALP_CAL_FACTORY` (Table 15-3): the record cleared, factory trims alone. -/
def applyCalFactory (w1 : Word) (s : State) : CmdRes State :=
  let n := calLoop w1
  needs s.fromIntegrate St.wrongState <|
  needs (s.loop n).cal.isNone St.busy <|
  .ok (((s.modLoop n fun x => { x with commits := 0 }).nvWrite (calAddr n) (List.replicate 16 0)).setTrims n 0 0 false)

/-- `CAL_TIMEOUT` (R454): not committed 600 s after its begin. -/
def execCalTimeout (n : Fin 4) (s : State) : Host.Outcome State Fault Refusal :=
  .next (match (s.loop n.val).cal with
    | some c => if c.began + 600000000000 ≤ s.tm.opNs then s.calAbort n.val else s
    | none => s)

def execAlpCalBegin (r : CmdRec) (s : State) : Host.Outcome State Fault Refusal := .next (s.cmd 0x80 r (applyCalBegin r.w1))
def execAlpCalPoint (r : CmdRec) (s : State) : Host.Outcome State Fault Refusal := .next (s.cmd 0x81 r (applyCalPoint r.w1 r.w2))
def execAlpCalCommit (r : CmdRec) (s : State) : Host.Outcome State Fault Refusal := .next (s.cmd 0x82 r (applyCalCommit r.w1))
def execAlpCalAbort (r : CmdRec) (s : State) : Host.Outcome State Fault Refusal := .next (s.cmd 0x83 r (applyCalAbort r.w1))
def execAlpCalFactory (r : CmdRec) (s : State) : Host.Outcome State Fault Refusal := .next (s.cmd 0x84 r (applyCalFactory r.w1))

/-- R450: the ranges of a loop configuration. -/
def State.loopCfgOk (s : State) : Bool :=
  loops4.all fun n =>
    let m := s.loopMode n
    let drop := s.loopDrop n
    let dev := s.rd (Reg.ALP_CFG_HART_DEV n)
    m ≤ 3 && s.rd (Reg.ALP_CFG_STALE_CYC n) ≠ 0 && (!drop || m = 1 || m = 2) && (!drop || (m = 2 && dev ≤ 15) || dev ≤ 5)

end Sys2Proof.Machine
end

