-- ==== Sys2Proof/Machine/Rec.lean ====
section
/-! DEFINITION. The event recorder (R456 to R470): matching of channel events, the choice of a slot and the record's bytes, the
index, the floor, host marks and the seek registers. -/

namespace Sys2Proof.Machine

def State.modRec (s : State) (f : RecSt → RecSt) : State := { s with rcd := f s.rcd }

/-- Number of slots, and the valid mark (R456, Table 16-1). -/
def recSlots : Nat := 524288
def recMark : Nat := 0x45564E54

/-- The index is built. -/
def State.indexDone (s : State) : Bool := s.rdb Reg.REC_STATUS_INDEX_DONE

/-! ### Channel events -/

/-- Two reports are of one event (R460): equal cycle, class, source instance and payload. -/
def RecEv.same (a b : RecEv) : Bool := a.cycle = b.cycle && a.cls = b.cls && a.src = b.src && a.inst = b.inst && a.payload = b.payload

/-- Judge the first of the reports that still waits: matched, already written, alone since two Tc instants, or to wait. -/
def State.matchReport (s : State) (r : Report) : State :=
  let x := s.rcd
  let drop := fun (s : State) => s.modRec fun x => { x with reports := x.reports.filter fun q => !q.ev.same r.ev }
  if !(x.reports.any fun q => q = r) then s
  else if x.matched.any fun e => e.same r.ev then drop s
  else
    let peers := x.reports.filter fun q => q.ev.same r.ev && q.chan ≠ r.chan
    let done := fun (e : RecEv) (s : State) => (drop (s.modRec fun x => { x with matched := x.matched ++ [r.ev] })).enqueue e
    match peers with
    | q :: _ => done { r.ev with flushed := r.ev.flushed || q.ev.flushed } s
    | [] => if 2 ≤ r.age && !r.ev.flushed then done { r.ev with single := true, inst := r.chan } s else s

/-- `CHANNEL_EVENT_MATCH` (R460). -/
def execChannelEventMatch (s : State) : Host.Outcome State Fault Refusal :=
  .next (if s.pdhGood then foldSt s.rcd.reports (fun r s => s.matchReport r) s else s)

/-- The reports at a Tc: each is one Tc older; events written long ago are forgotten. -/
def State.recAtTc (s : State) : State :=
  s.modRec fun x => { x with
    reports := x.reports.map fun r => { r with age := r.age + 1 },
    matched := x.matched.filter fun e => e.flushed || (s.tm.cyc + 2 ^ 32 - e.cycle) % 2 ^ 32 ≤ 8 }

/-- The channels hand over what they kept while PD-H was lost (Table 1-3, R460). -/
def State.flushHeld (s : State) : State :=
  s.modRec fun x => { x with
    reports := x.reports ++ x.held.map fun r => { r with ev := { r.ev with flushed := true } }, held := [] }

/-! ### Records -/

/-- Operating time in ms and power cycles as PD-K counts them. -/
def State.opMs (s : State) : Nat := s.rd Reg.RPC_OPTIME_LO_MS_LO + s.rd Reg.RPC_OPTIME_HI_MS_HI * 4294967296

/-- Bytes 0 to 55 of a record (Table 16-1). -/
def State.recordBody (s : State) (seq : Nat) (e : RecEv) : List Byte :=
  natLE 8 seq ++ natLE 5 s.opMs ++ natLE 3 (s.rd Reg.RPC_PCYCLES_COUNT) ++ natLE 8 e.ntime ++
    natLE 1 (e.sev + 8 * bitNat e.ntValid + 16 * bitNat e.single + 32 * bitNat e.flushed) ++ natLE 1 e.cls ++
    natLE 2 (e.src * 4096 + e.inst) ++ natLE 4 e.cycle ++ (e.payload.flatMap wordLE)

/-- A record's 64 bytes, with `CRC` and `MARK`. -/
def recordBytes (body : List Byte) : List Byte := withCrc body ++ natLE 4 recMark

/-- The lowest-numbered free slot, given the index in slot order. -/
def firstFree (k : Nat) : List (Nat × Option (Nat × Nat)) → Nat
  | [] => k
  | (j, _) :: m => if j = k then firstFree (k + 1) m else k

/-- The slot with the smallest `SEQ` among the records of severity `sev` or lower. -/
def oldestUpTo (sev : Nat) : List (Nat × Option (Nat × Nat)) → Option (Nat × Nat)
  | [] => none
  | (j, some (q, v)) :: m =>
    match oldestUpTo sev m with
    | some (q', j') => if v ≤ sev && q < q' then some (q, j) else some (q', j')
    | none => if v ≤ sev then some (q, j) else none
  | (_, none) :: m => oldestUpTo sev m

/-- The slot for a record of a severity (R464). -/
def RecSt.slotFor (x : RecSt) (sev : Nat) : Option Nat :=
  let f := firstFree 0 x.index
  if f < recSlots then some f else (oldestUpTo sev x.index).map fun e => e.2

/-- Show the index in the registers (R470). -/
def State.recRegs (s : State) : State :=
  let ix := s.rcd.index
  let cnt := fun v => (ix.filter fun e => match e.2 with
    | some (_, w) => w = v
    | none => false).length
  let newest := ix.foldl (fun (b : Option (Nat × Nat)) e => match e.2, b with
    | some (q, _), some (q', j') => if q' < q then some (q, e.1) else some (q', j')
    | some (q, _), none => some (q, e.1)
    | none, b => b) none
  let s := ((s.wr Reg.REC_STATUS_COUNT ix.length).wrb Reg.REC_STATUS_FULL (recSlots ≤ ix.length)).wr Reg.REC_QUEUE_FILL
    s.rcd.queue.length
  let s := (s.wr Reg.REC_NEXT_SEQ_LO_NEXT_LO s.rcd.next).wr Reg.REC_NEXT_SEQ_HI_NEXT_HI (s.rcd.next / 4294967296)
  let s := (s.wr Reg.REC_FLOOR_LO_FLOOR_LO s.rcd.floor).wr Reg.REC_FLOOR_HI_FLOOR_HI (s.rcd.floor / 4294967296)
  let s := (s.wrb Reg.REC_HEAD_VALID newest.isSome).wr Reg.REC_HEAD_SLOT ((newest.map (·.2)).getD 0)
  foldSt (List.range 8) (fun v s => s.wr (Reg.REC_SEV_COUNT_COUNT v) (cnt v)) s

/-- `REC_WRITE` (R464 to R466): the record at the head of the queue takes a slot and the next sequence number, or is
dropped and counted. The save of R141 takes precedence. -/
def execRecWrite (s : State) : Host.Outcome State Fault Refusal :=
  match s.rcd.queue with
  | [] => .next s
  | e :: rest =>
    if !s.nvAlive || !s.indexDone || s.rpc.save.isSome then .next s
    else
      let s := s.modRec fun x => { x with queue := rest }
      match s.rcd.slotFor e.sev with
      | none => .next (s.inc (Reg.REC_DROP_DROPS e.sev)).recRegs
      | some k =>
        let seq := s.rcd.next
        let bytes := recordBytes (s.recordBody seq e)
        let s := s.modRec fun x => { x with
          mram := Mem.write x.mram (k * 64) bytes, mramErrs := Ecc.written x.mramErrs (k * 64) 64,
          index := FMap.set none x.index k (some (seq, e.sev)), next := seq + 1 }
        let s := s.recRegs
        .next (if s.rd Reg.REC_CFG_IRQ_SEV ≤ e.sev then s.raiseInt 3 else s)

/-! ### The floor and the index -/

/-- A copy of the floor in the retained store: floor and write count, where its CRC-32C matches (R467). -/
def State.floorCopy (s : State) (k : Nat) : Option (Nat × Nat) :=
  (s.nvRecord (0xF040 + 16 * k) 16).map fun l => (leAt l 0 8, leAt l 8 4)

/-- Floor in use and the write count behind it. -/
def State.floorNow (s : State) : Nat × Nat :=
  match s.floorCopy 0, s.floorCopy 1 with
  | some (f, a), some (g, b) => if a < b then (g, b) else (f, a)
  | some (f, a), none => (f, a)
  | none, some (g, b) => (g, b)
  | none, none => (0, 0)

/-- Write a floor to the older copy (R468). -/
def State.writeFloor (s : State) (f : Nat) : State :=
  let k := match s.floorCopy 0, s.floorCopy 1 with
    | some (_, a), some (_, b) => if a < b then 0 else 1
    | some _, none => 1
    | _, _ => 0
  let n := s.floorNow.2 + 1
  (s.nvWrite (0xF040 + 16 * k) (withCrc (natLE 8 f ++ natLE 4 n))).modRec fun x => { x with floor := f }

/-- Start building the index (R467). -/
def State.indexStart (s : State) : State :=
  (s.wrb Reg.REC_STATUS_INDEX_DONE false).modRec fun x => { x with indexing := true, index := [] }

/-- `REC_INDEX_BUILD` (R467): at the release of P or M the recorder begins to read every slot. -/
def execRecIndexBuild (s : State) : Host.Outcome State Fault Refusal :=
  .next (if s.nvAlive && !s.indexDone then s.indexStart else s)

/-- What the index build finds in a slot: nothing, an uncorrectable word, a bad CRC, or a record. -/
inductive SlotFind where
  | free | ue | crc
  | rcrd (seq sev : Nat)
  deriving DecidableEq, Repr

def RecSt.find (x : RecSt) (k : Nat) : SlotFind :=
  match Mem.readEcc x.mram x.mramErrs (k * 64) 64 with
  | none => .ue
  | some l =>
    if leAt l 60 4 ≠ recMark then .free
    else if (crc32c (l.take 56)).toNat ≠ leAt l 56 4 then .crc
    else if leAt l 0 8 < x.floor then .free
    else .rcrd (leAt l 0 8) (leAt l 24 1 % 8)

/-- Slots that hold anything. -/
def RecSt.touched (x : RecSt) : List Nat := (x.mram.map (fun (e : Host.Cell) => e.1 / 64) ++ x.mramErrs.map (fun (e : Nat × BitVec 72) => e.1 / 8)).eraseDups

/-- `REC_INDEX_DONE` (R467). -/
def execRecIndexDone (s : State) : Host.Outcome State Fault Refusal :=
  if !s.rcd.indexing || !s.nvAlive then .next s
  else
    let f := s.floorNow.1
    let s := (s.nvHeal 0xF040 32).modRec fun x => { x with floor := f, indexing := false, index := [], next := f }
    let s := foldSt (s.rcd.touched) (fun k s =>
      match s.rcd.find k with
      | .free => s
      | .ue => s.inc Reg.REC_ERR_UE
      | .crc => s.inc Reg.REC_ERR_CRC_BAD
      | .rcrd q v => s.modRec fun x => { x with
          index := FMap.set none x.index k (some (q, v)), next := max x.next (q + 1) }) s
    let bad := (s.rcd.touched.filter fun k => s.rcd.find k = .ue || s.rcd.find k = .crc).length
    let s := s.modRec fun x => { x with mramErrs := x.mramErrs.foldl (fun m e => FMap.set 0 m e.1 (Ecc.left e.2)) x.mramErrs }
    let s := (s.wrb Reg.REC_STATUS_INDEX_DONE true).recRegs
    .next (s.enqueue (s.event 3 0x05 Src.rec 0 [2, bad]))

/-! ### Commands, marks and seeks -/

/-- `REC_CLEAR` (Table 16-6): the floor rises to `NEXT`, and the first record above it tells of the clear. -/
def applyRecClear (s : State) : CmdRes State :=
  needs (s.md.mode = .maint) St.wrongState <|
  needs s.indexDone St.busy <|
  let s := (s.writeFloor s.rcd.next).modRec fun x => { x with index := [] }
  .ok (s.modRec fun x => { x with queue := s.event 5 0x05 Src.rec 0 [1] :: x.queue }).recRegs

/-- `REC_COUNT_CLEAR` (Table 16-6). -/
def applyRecCountClear (s : State) : CmdRes State :=
  let s := foldSt (List.range 8) (fun v s => s.wr (Reg.REC_DROP_DROPS v) 0) s
  .ok (((s.wr Reg.REC_ERR_Q_OVF 0).wr Reg.REC_ERR_CRC_BAD 0).wr Reg.REC_ERR_UE 0)

def execRecClear (r : CmdRec) (s : State) : Host.Outcome State Fault Refusal := .next (s.cmd 0x90 r applyRecClear)
def execRecCountClear (r : CmdRec) (s : State) : Host.Outcome State Fault Refusal := .next (s.cmd 0x91 r applyRecCountClear)

/-- A write of `REC_MARK_CTL` (R462): the record is queued at once, so that `WRITE` reads 0 again. -/
def State.markWrite (s : State) (w : Word) : State :=
  let busy := s.rdb Reg.REC_MARK_CTL_WRITE
  if w.getLsbD 31 && s.md.mode = .boot then s.refusedAccess 0xD00098
  else
  let s := s.writeReg 0xD00098 w
  if !w.getLsbD 31 then s
  else if busy then s.wrb Reg.REC_MARK_CTL_DROPPED true
  else s.enqueue (s.event (s.rd Reg.REC_MARK_CTL_SEV) 0x04 Src.host (s.rd Reg.REC_MARK_CTL_TAG)
    ((List.range 6).map fun i => s.rd (Reg.REC_MARK_DATA_DATA i)))

/-- `HOST_MARK` (R462). -/
def execHostMark (val : Word) (s : State) : Host.Outcome State Fault Refusal :=
  .next (if s.hostUp then s.markWrite val else s)

/-- The slot of the smallest `SEQ` at or above a value. -/
def seekIn (v : Nat) : List (Nat × Option (Nat × Nat)) → Option (Nat × Nat)
  | [] => none
  | (j, some (q, _)) :: m =>
    match seekIn v m with
    | some (q', j') => if v ≤ q && q < q' then some (q, j) else some (q', j')
    | none => if v ≤ q then some (q, j) else none
  | (_, none) :: m => seekIn v m

/-- A write of `REC_SEEK_HI` starts the search. -/
def State.seekWrite (s : State) (w : Word) : State :=
  let s := s.writeReg 0xD00024 w
  let v := s.rd Reg.REC_SEEK_LO_S_LO + s.rd Reg.REC_SEEK_HI_S_HI * 4294967296
  let r := if s.indexDone then seekIn v s.rcd.index else none
  (s.wrb Reg.REC_SEEK_RES_FOUND r.isSome).wr Reg.REC_SEEK_RES_SLOT ((r.map (·.2)).getD 0)

/-- `REC_SEEK` (R469). -/
def execRecSeek (val : Word) (s : State) : Host.Outcome State Fault Refusal :=
  .next (if s.hostUp then s.seekWrite val else s)

end Sys2Proof.Machine
end

