-- ==== Sys2Proof/Machine/Load.lean ====
section
/-! DEFINITION. Image load (R66, R76 to R78, R245, R256), forces at image load (R145 to R147), and the retained data of a
channel with its agreement and the two kinds of restart (R30, R136, R137, R139). -/

namespace Sys2Proof

/-- Put every entry of a second map into a first. -/
def FMap.union (m w : FMap β) : FMap β := w.foldl (fun m e => FMap.put m e.1 e.2) m

/-- The image with the initial values of a bank (R135). -/
def Bank.initImg (b : Bank) : FMap Word :=
  b.inits.foldl (fun m v =>
    if v.word then FMap.set 0 m (Machine.Img.ofWord v.addr) v.value
    else
      let i := Machine.Img.ofBit v.addr
      let k : Word := BitVec.ofNat 32 (2 ^ (v.addr % 32))
      FMap.set 0 m i (if v.value.getLsbD 0 then FMap.get 0 m i ||| k else FMap.get 0 m i &&& ~~~k)) []

/-- Identity of a bank that may be absent. -/
def bankId (b : Option Bank) : Nat := match b with
  | some b => b.id.toNat
  | none => 0

end Sys2Proof

namespace Sys2Proof.Machine

/-- The image word lies in a region that image load writes (Tables 3-1 and 3-2). -/
def Img.loaded (i : Nat) : Bool :=
  i < 0x20 || (0x40 ≤ i && i < 0x60) || (0x80 ≤ i && i < 0x800) || (0x2000 ≤ i && i < 0x2180) || (0x2200 ≤ i && i < 0x3000)

/-- The codeword holds image words, of the master copy or of a replica; the first of them. -/
def Miu.imgOf (cw : Nat) : Option Nat :=
  if 0x100000 ≤ cw && cw < 0x130000 then some ((cw - 0x100000) % 0x3000 * 2)
  else if 0x130000 ≤ cw && cw < 0x133000 then some ((cw - 0x130000) * 2)
  else none

def Miu.loadedCw (cw : Nat) : Bool :=
  match Miu.imgOf cw with
  | some i => Img.loaded i
  | none => false

/-! ### The words of image load -/

/-- 32 bits of a number as a word, from word `j` on. -/
def wordAt (v j : Nat) : Word := BitVec.ofNat 32 (v / 2 ^ (32 * j))

/-- Number of forces in the table, and of those on safety locations. -/
def State.forceCount (s : State) : Nat := (s.forces.filter fun e => e.2.isSome).length
def State.forceSafety (s : State) : Nat :=
  (s.forces.filter fun e => match e.2 with
    | some f => f.safety
    | none => false).length

/-- System bits 0x0_0800 to 0x0_081F and 0x0_0820 to 0x0_083F (Table 3-3). -/
def State.sysBits0 (s : State) (lane : Word) : Nat :=
  s.md.mode.code + 16 * bitNat s.md.debug + 32 * s.md.role.code + 128 * Ch.mask s.voters + 1024 * bitNat s.timeValid +
    2048 * bitNat s.outPermit + 65536 * (lane.toNat % 65536)
def State.sysBits1 (s : State) (lane : Word) (commit : Bool) : Nat :=
  lane.toNat / 65536 + 65536 * bitNat s.md.firstCold + 131072 * bitNat s.md.firstWarm + 262144 * bitNat commit +
    524288 * bitNat s.md.firstResume

/-- Diagnostics of the outputs in words 0x0010 to 0x0023 (Table 8-9). -/
def State.outWord (s : State) (w : Nat) : Nat :=
  let m := fun (f : Nat → Nat) => out12.foldl (fun v o => v + f o * 2 ^ o) 0
  let codes := fun (l : List Nat) => l.foldl (fun v o => v + s.latchCode o * 2 ^ (4 * (o % 8))) 0
  match w - 0x10 with
  | 0 => m (fun o => s.rd (Reg.SIO_OUT_STAT_ENERGISED o)) + 65536 * m (fun o => bitNat (s.latchCode o ≠ 0))
  | 1 => m (fun o => s.rd (Reg.SIO_OUT_STAT_HS o)) + 65536 * m (fun o => s.rd (Reg.SIO_OUT_STAT_LS o))
  | 2 => s.rd (Reg.SIO_GROUP_VOLT 0) + 65536 * s.rd (Reg.SIO_GROUP_VOLT 1)
  | 3 => s.rd (Reg.SIO_GROUP_STATE 0) + 256 * s.rd (Reg.SIO_GROUP_STATE 1) + 65536 * s.rd Reg.SIO_TP_OVL
  | 4 => m (fun o => s.rd (Reg.SIO_OUT_STAT_OPEN_LOAD o)) + 65536 * m (fun o => s.rd (Reg.SIO_OUT_STAT_IMBAL o))
  | 5 => m (fun o => s.rd (Reg.SIO_OUT_STAT_PEND o)) + 65536 * s.sio.late
  | 6 => codes (List.range 8)
  | 7 => codes [8, 9, 10, 11]
  | n => if n < 20 then s.rd (Reg.SIO_OUT_STAT_CURRENT (n - 8)) else 0

/-- System word `w` (Tables 2-7 and 3-4). -/
def State.sysWord (s : State) (lane : Word) (bank : Nat) (w : Nat) : Nat :=
  let t := s.tm.tcNs
  match w with
  | 0 => t / 1000000000
  | 1 => t % 1000000000
  | 2 => s.tm.cyc
  | 3 => s.mi + 256 * s.rd Reg.TMU_CYC_CFG_TBC_CODE + 4096 * s.rd Reg.TMU_CYC_CFG_M_CODE
  | 4 => lane.toNat
  | 5 => bank
  | 6 => s.rd Reg.TMU_CYC_WCET_RUN_CLK
  | 7 => s.forceCount
  | 8 => t / 1000000000 / 4294967296
  | n => if 0x10 ≤ n && n < 0x40 then s.outWord n else if 0x40 ≤ n && n < 0x80 then s.ptnWord n else 0

/-- Gateway and loop freshness bits 0x0_0980 to 0x0_09FF (R334, R432, R444). -/
def State.freshBits (s : State) : Nat :=
  s.gwy.fresh + loops4.foldl (fun v n => v + bitNat (s.loopFresh n) * 3 * 2 ^ (120 + 2 * n)) 0

/-- Analog and gateway input word 0x0100 + i. -/
def State.anaWord (s : State) (i : Nat) : Word :=
  if i < 120 then FMap.get 0 s.gwy.frozen i
  else
    let p := s.loopWords ((i - 120) / 2)
    BitVec.ofNat 32 (if i % 2 = 0 then p.1 else p.2)

/-- A number in every base-2^32 place, keyed from `base`. -/
def wordsFrom (base : Nat) (l : List Word) : FMap Word := (l.zipIdx.map fun e => (base + e.2, e.1))

/-- The words that image load writes (R76), from a channel's agreed inputs and agreed lane status; words not listed are 0. -/
def State.loadWords (s : State) (x : InVals) (lane : Word) (bank : Nat) (commit : Bool) : FMap Word :=
  let ins := [wordAt x.si.toNat 0, wordAt x.pair.toNat 0] ++ (List.range 12).map fun j => wordAt x.diag.toNat j
  let dlk := s.dlk.frozen.toNat
  let bits := [wordAt (s.sysBits0 lane) 0, wordAt (s.sysBits1 lane commit) 0, wordAt dlk 0, wordAt dlk 1] ++
    ([0, 1, 2, 3].map fun j => BitVec.ofNat 32 (s.peerMask Reg.PTN_STN_STALE (32 * j))) ++
    ([0, 1, 2, 3].map fun j => BitVec.ofNat 32 (s.peerMask Reg.PTN_CONN_FRESH (32 * j))) ++
    ([0, 1, 2, 3].map fun j => wordAt s.freshBits j)
  let sys := (List.range 0x80).map fun w => BitVec.ofNat 32 (s.sysWord lane bank w)
  let ana := (List.range 0x80).map fun i => s.anaWord i
  (wordsFrom 0 ins ++ wordsFrom 0x40 bits ++ FMap.range s.ptn.netIn 0x80 0x800 ++ wordsFrom 0x2000 sys ++ wordsFrom 0x2100 ana ++
    FMap.range s.ptn.netIn 0x2200 0x3000).filter fun e => e.2 ≠ 0

/-! ### Forces at image load -/

/-- Image word of a force. -/
def Force.img (f : Force) : Nat := if f.word then Img.ofWord f.addr else Img.ofBit f.addr

/-- Image words that the table forces. -/
def forcedWords (ft : ForceTab) : List Nat := (ft.filterMap fun e => e.2.map Force.img).eraseDups

/-- Forces on words that image load writes replace the delivered value (R57, R146). -/
def forceLoad (ft : ForceTab) (w : FMap Word) : FMap Word :=
  ((forcedWords ft).filter Img.loaded).foldl (fun w i =>
    FMap.set 0 w i (applyForces (forcesOn ft i) ⟨FMap.get 0 w i, false⟩).v) w

/-- Forces on every other location, written into the master copy and every replica (R147). -/
def State.writeForces (s : State) (c : Ch) (ft : ForceTab) : State :=
  foldSt ((forcedWords ft).filter fun i => !Img.loaded i) (fun i s =>
    let (v, s) := s.readImg c none i
    s.storeAll c i (applyForces (forcesOn ft i) v) (Img.isBit i)) s

/-- The flip mask at an image load (R224). -/
def State.flipLoad (s : State) (c : Ch) : State := s.flipAmong c [Miu.cwLane 0 0, Miu.cwMaster 0] Miu.loadedCw

/-- Write the loaded regions of the master copy and of every replica with fresh check bits and no poison, then the forces
(R76, R147). -/
def State.imageLoad (s : State) (c : Ch) (w : FMap Word) (ft : ForceTab) : State :=
  let w := forceLoad ft w
  let s := s.modCh c fun h => { h with
    img := FMap.union (h.img.filter fun (e : Nat × Word) => !Img.loaded e.1) w,
    errs := h.errs.filter fun (e : Nat × BitVec 72) => !Miu.loadedCw e.1,
    pmap := h.pmap.filter fun (e : Nat × Bool) => !Miu.loadedCw (e.1 / 2) }
  (s.flipLoad c).writeForces c ft

/-! ### Retained data -/

/-- Number of retained locations: bits, words, counters; and of body words (Table 5-3). -/
def Ret.locations : Nat := 8192 + 2048 + 4096
def Ret.words : Nat := 256 + 2048 + 4096

/-- Body word number of an image word, where it is retained. -/
def Ret.ofImg (i : Nat) : Option Nat :=
  if 0x1000 ≤ i && i < 0x1100 then some (i - 0x1000)
  else if 0x4000 ≤ i && i < 0x4800 then some (i - 0x4000 + 256)
  else none

/-- Body word number of one half of a codeword of the master copy or the counter store. -/
def Ret.ofHalf (cw half : Nat) : Option Nat :=
  if 0x130000 ≤ cw && cw < 0x133000 then Ret.ofImg ((cw - 0x130000) * 2 + half)
  else if 0x153800 ≤ cw && cw < 0x154000 then some (2304 + (cw - 0x153800) * 2 + half)
  else none

/-- Body words of a channel that may differ from a clean 0. -/
def Chan.retKeys (h : Chan) : List Nat :=
  ((h.img.filterMap fun (e : Nat × Word) => Ret.ofImg e.1) ++ (h.counters.map fun (e : Nat × Word) => 2304 + e.1) ++
    (h.pmap.filterMap fun (e : Nat × Bool) => Ret.ofHalf (e.1 / 2) (e.1 % 2)) ++
    (h.errs.filterMap fun (e : Nat × BitVec 72) => Ret.ofHalf e.1 0) ++
    (h.errs.filterMap fun (e : Nat × BitVec 72) => Ret.ofHalf e.1 1)).eraseDups

/-- A body word of a channel's master copy, read through the memory code. -/
def State.retWord (s : State) (c : Ch) (k : Nat) : Psn Word × State :=
  if k < 256 then s.readImg c none (0x1000 + k)
  else if k < 2304 then s.readImg c none (0x4000 + (k - 256))
  else s.readTc c true (k - 2304)

/-- The retained bits, words and counters of a channel's master copy. -/
def State.retained (s : State) (c : Ch) : FMap (Psn Word) × State :=
  (s.ch c).retKeys.foldl (fun (p : FMap (Psn Word) × State) k =>
    let (v, s) := p.2.retWord c k
    (FMap.set ⟨0, false⟩ p.1 k v, s)) ([], s)

/-- One bit of a location agreed between clean copies: the value that two of them hold. -/
def agreeBit (l : List Word) (b : Nat) : Option Bool :=
  let ones := (l.filter fun v => v.getLsbD b).length
  if 2 ≤ ones then some true else if 2 ≤ l.length - ones then some false else none

/-- A word of 32 retained bits, each agreed by itself: the value with 0 where there is no majority, and their number. -/
def agreeBits (l : List Word) : Word × Nat :=
  (List.range 32).foldl (fun p b => match agreeBit l b with
    | some true => (p.1 ||| BitVec.ofNat 32 (2 ^ b), p.2)
    | some false => p
    | none => (p.1, p.2 + 1)) (0, 0)

/-- A whole word agreed: 0 and one location without a majority where no two clean copies are equal. -/
def agreeWord (l : List Word) : Word × Nat :=
  match majority (l.map some) with
  | some v => (v, 0)
  | none => (0, 1)

/-- Retained data agreed between channels (R30, R139), with each retained bit a location of its own, or word by word as the
save votes it (R141): the number of locations without a majority and the agreed data. -/
def agreeRet (byBit : Bool) (ms : List (FMap (Psn Word))) : Nat × FMap Word :=
  if ms.length < 2 then (if byBit then Ret.locations else Ret.words, [])
  else
    ((ms.map fun m => m.map fun (e : Nat × Psn Word) => e.1).flatten.eraseDups).foldl (fun p k =>
      let l := ms.filterMap fun m =>
        let v := FMap.get ⟨0, false⟩ m k
        if v.p then none else some v.v
      let r := if byBit && k < 256 then agreeBits l else agreeWord l
      (p.1 + r.2, FMap.set 0 p.2 k r.1)) (0, [])

/-! ### The working store, and the writes of whole stores (R209 to R211, R215, R224) -/

/-- The four words of a force as its registers show them, in two codewords. -/
def Force.cw (f : Force) (j : Nat) : BitVec 64 :=
  if j = 0 then
    BitVec.ofNat 64 (f.sym.toNat + (f.addr + bitNat f.word * 2 ^ 28 + bitNat f.safety * 2 ^ 30 + 2 ^ 31) * 2 ^ 32)
  else BitVec.ofNat 64 f.value.toNat

/-- Bank in a physical bank of a channel. -/
def State.physBank (s : State) (c : Ch) (b : Nat) : Option Bank := if b = s.physRun c then (s.ch c).run else (s.ch c).uc

/-- First codewords of the save buffer and their number. The order of the parts of the working store behind the force table is a
DESIGN CHOICE (log 89): save buffer, kept cycles, link buffers. -/
def Miu.saveLo : Nat := 0x154200
def Miu.saveN : Nat := 3200
/-- First codeword of kept cycle k and the number of its codewords: 23,808 bytes of input image, 1,024 bytes of command batch. -/
def Miu.keptLo (k : Nat) : Nat := 0x154E80 + k % 8 * 3104
def Miu.keptN : Nat := 3104
/-- The link buffers. -/
def Miu.linkLo : Nat := 0x15AF80
def Miu.linkN : Nat := 640
/-- The controller memory, and the part of it that holds data (log 89). -/
def Miu.ccuLo : Nat := 0x160000
def Miu.ccuN : Nat := 0x10000
def Miu.ccuDataLo : Nat := 0x168000

/-- Image word of place n of a kept input image: the words that image load writes, in ascending order. -/
def Img.ofLoaded (n : Nat) : Nat :=
  if n < 32 then n else if n < 64 then 0x40 + (n - 32) else if n < 1984 then 0x80 + (n - 64)
  else if n < 2368 then 0x2000 + (n - 1984) else 0x2200 + (n - 2368)

/-- The kept cycle that a codeword of the working store belongs to, and its codeword in it. -/
def Chan.keptAt (h : Chan) (cw : Nat) : Option (Kept × Nat) :=
  if Miu.keptLo 0 ≤ cw && cw < Miu.linkLo then
    (h.kept.find? fun x => x.k % 8 = (cw - Miu.keptLo 0) / Miu.keptN).map fun x => (x, (cw - Miu.keptLo 0) % Miu.keptN)
  else none

/-- Ideal data of a codeword of a tag region. -/
def State.idealCw (s : State) (c : Ch) (cw : Nat) : BitVec 64 :=
  if cw < 0x100000 then
    match s.physBank c (cw / 0x80000) with
    | some b =>
      let l := b.stream (cw / 0x8000 % 16)
      let i := cw % 0x8000 * 2
      l.getD (i + 1) 0 ++ l.getD i 0
    | none => 0
  else if 0x133000 ≤ cw && cw < 0x153000 then
    match s.physBank c ((cw - 0x133000) / 0x10000) with
    | some b =>
      let i := (cw - 0x133000) % 0x10000 * 2
      b.storeWord (i + 1) ++ b.storeWord i
    | none => 0
  else if 0x154000 ≤ cw && cw < 0x154200 then
    match FMap.get none ((s.ch c).ownForces.getD s.forces) ((cw - 0x154000) / 2) with
    | some f => f.cw (cw % 2)
    | none => 0
  else if Miu.saveLo ≤ cw && cw < Miu.saveLo + Miu.saveN then
    let m := (s.ch c).saveBuf.getD []
    let i := (cw - Miu.saveLo) * 2
    (FMap.get ⟨0, false⟩ m (i + 1)).v ++ (FMap.get ⟨0, false⟩ m i).v
  else
    match (s.ch c).keptAt cw with
    | some (x, i) =>
      if i < 2976 then FMap.get 0 x.image (Img.ofLoaded (2 * i + 1)) ++ FMap.get 0 x.image (Img.ofLoaded (2 * i)) else 0
    | none => Config.ccuData (Ch.num c) cw

/-- Codewords `[lo, lo + n)` written with fresh check bits; an armed mask hits the first of them, or the one it names. -/
def State.storeWritten (s : State) (c : Ch) (lo n : Nat) : State :=
  let s := s.modCh c fun h => { h with errs := FMap.cut h.errs lo (lo + n), tags := FMap.cut h.tags lo (lo + n) }
  s.flipAmong c [lo] fun cw => lo ≤ cw && cw < lo + n

/-- A bank is written into a physical bank: its program store and its table store. -/
def State.bankWritten (s : State) (c : Ch) (b : Nat) : State :=
  (s.storeWritten c (b * 0x80000) 0x80000).storeWritten c (0x133000 + b * 0x10000) 0x10000

/-- Entry `n` of the force table is written in every channel. -/
def State.forceWritten (s : State) (n : Nat) : State := foldSt Ch.all (fun c s => s.storeWritten c (Miu.cwForce n) 2) s

/-- Only the value of entry `n` is written, half of its second codeword. -/
def State.forceValue (s : State) (n : Nat) : State :=
  foldSt Ch.all (fun c s => s.writeTagHalf c (Miu.cwForce n + 1) 0 (s.idealCw c (Miu.cwForce n + 1))) s

/-- A new force table: the entries that change are written in every channel. -/
def State.putForces (s : State) (ft : ForceTab) : State :=
  let changed := ((s.forces ++ ft).map (·.1)).eraseDups.filter fun n => FMap.get none s.forces n ≠ FMap.get none ft n
  foldSt changed (fun n s => s.forceWritten n) { s with forces := ft }

/-- The whole force table is cleared. -/
def State.clearForces (s : State) : State := foldSt Ch.all (fun c s => s.storeWritten c (Miu.cwForce 0) 512) { s with forces := [] }

/-- Codewords of `[lo, lo + n)` that differ from their encoding or hold the tag, in ascending order. -/
def Chan.badCws (h : Chan) (lo n : Nat) : List Nat :=
  let m : FMap Unit := (FMap.range h.errs lo (lo + n)).map fun (e : Nat × BitVec 72) => (e.1, ())
  (((FMap.range h.tags lo (lo + n)).foldl (fun m (e : Nat × Bool) => FMap.put m e.1 ()) m)).map (·.1)

/-- A codeword of a tag region reads as poisoned: it holds the tag, or differs from it in one bit (R209). -/
def State.cwPoisoned (s : State) (c : Ch) (cw : Nat) : Bool :=
  let e := FMap.get 0 (s.ch c).errs cw
  FMap.get false (s.ch c).tags cw || (e ≠ 0 && Hsiao.isTag (Hsiao.enc (s.idealCw c cw) ^^^ e))

/-- The program store or the table store of a physical bank of a channel holds a poisoned codeword (R214). -/
def State.bankPoisoned (s : State) (c : Ch) (b : Nat) : Bool :=
  ((s.ch c).badCws (b * 0x80000) 0x80000).any (s.cwPoisoned c) ||
    ((s.ch c).badCws (0x133000 + b * 0x10000) 0x10000).any (s.cwPoisoned c)

/-- Reads of `[lo, lo + n)` of a tag region: the codewords that read wrong data or poison. -/
def State.readStore (s : State) (c : Ch) (lo n : Nat) : List (Nat × BitVec 64 × Bool) × State :=
  ((s.ch c).badCws lo n).foldl (fun (p : List (Nat × BitVec 64 × Bool) × State) cw =>
    let (r, s) := p.2.readTagCw c cw (p.2.idealCw c cw)
    (p.1 ++ [(cw, r)], s)) ([], s)

/-- A CCU takes poison: it stops at once, and its channel is excluded at the next Tc with cause 0x0A (R215). -/
def State.ccuStops (s : State) (c : Ch) : State :=
  let n := Ch.num c
  let s := ((s.modCh c fun h => { h with ccuStop := true }).wrb (Reg.MIU_EVENT_CCU_PSN n) true).wr (Reg.LEN_STATUS_RUN n) 0
  if (s.ch c).st = .vote then s.modMd fun x => { x with exclReq := x.exclReq ++ [(c, 0x0A)] } else s

/-- The CCU reads codewords of the working store. -/
def State.ccuReads (s : State) (c : Ch) (lo n : Nat) : State :=
  let (l, s) := s.readStore c lo n
  if l.any fun e => e.2.2 then s.ccuStops c else s

/-- A kept input image as the CCU reads it for a chase (R186, R209). -/
def State.readKept (s : State) (c : Ch) (x : Kept) : FMap Word × State :=
  let lo := Miu.keptLo x.k
  let (l, s) := s.readStore c lo Miu.keptN
  let s := if l.any fun e => e.2.2 then s.ccuStops c else s
  (l.foldl (fun m e =>
    if e.1 - lo < 2976 then
      [0, 1].foldl (fun m j =>
        let i := Img.ofLoaded ((e.1 - lo) * 2 + j)
        FMap.set 0 m i (FMap.get 0 m i ^^^ halfOf e.2.1 j)) m
    else m) x.image, s)

/-- What a controller does in its memories in every cycle: it writes and reads its link buffers, and reads its memory and writes its
data there (R215). DESIGN CHOICE (log 89): each codeword once, at the input agreement. -/
def State.ccuWorks (s : State) (c : Ch) : State :=
  let s := ((s.storeWritten c Miu.linkLo Miu.linkN).ccuReads c Miu.linkLo Miu.linkN).ccuReads c Miu.ccuLo Miu.ccuN
  s.storeWritten c Miu.ccuDataLo 0x8000

/-- The save buffer as it reads: a word in a poisoned codeword is poisoned (Table 7-4). -/
def State.savedRet (s : State) (c : Ch) : Option (FMap (Psn Word)) × State :=
  match (s.ch c).saveBuf with
  | none => (none, s)
  | some m =>
    let (l, s) := s.readStore c Miu.saveLo Miu.saveN
    (some (l.foldl (fun m e =>
      [0, 1].foldl (fun m j =>
        let k := (e.1 - Miu.saveLo) * 2 + j
        let v := FMap.get ⟨0, false⟩ m k
        FMap.set ⟨0, false⟩ m k ⟨v.v ^^^ halfOf e.2.1 j, v.p || e.2.2⟩) m) m), s)

/-- The save buffers of the channels given, as they read. -/
def State.savedRets (s : State) (cs : List Ch) : List (FMap (Psn Word)) × State :=
  cs.foldl (fun (p : List (FMap (Psn Word)) × State) c =>
    match p.2.savedRet c with
    | (some m, s) => (p.1 ++ [m], s)
    | (none, s) => (p.1, s)) ([], s)

/-! ### Restarts -/

/-- The codeword is rewritten by a restart: every image word that image load does not write, and the timer and counter
stores. -/
def Miu.restartCw (cw : Nat) : Bool :=
  match Miu.imgOf cw with
  | some i => !Img.loaded i
  | none => 0x153000 ≤ cw && cw < 0x154000

/-- A restart of one channel with the retained data given (R136, R137): initial values elsewhere, timers reset. -/
def Chan.restart (h : Chan) (ret : FMap Word) : Chan :=
  let ini := match h.run with
    | some b => b.initImg
    | none => []
  let img := FMap.union (h.img.filter fun (e : Nat × Word) => Img.loaded e.1) ini
  let kept := ret.filterMap fun (e : Nat × Word) =>
    if e.1 < 256 then some (0x1000 + e.1, e.2) else if e.1 < 2304 then some (0x4000 + (e.1 - 256), e.2) else none
  let h := { h with
    img := FMap.union img kept, timers := [],
    counters := ret.filterMap fun (e : Nat × Word) => if 2304 ≤ e.1 then some (e.1 - 2304, e.2) else none,
    errs := h.errs.filter fun (e : Nat × BitVec 72) => !Miu.restartCw e.1,
    pmap := h.pmap.filter fun (e : Nat × Bool) => !Miu.restartCw (e.1 / 2), lanes := [], laneStat := 0 }
  { h with prevEvents := FMap.range h.img 0x60 0x80 }

/-- A restart of a channel, at which an armed flip mask may fire (R224). -/
def State.restartCh (s : State) (c : Ch) (ret : FMap Word) : State :=
  (s.modCh c fun h => h.restart ret).flipAmong c [Miu.cwLane 0 0x20, Miu.cwMaster 0x20, 0x153000] Miu.restartCw

/-- Note the locations without a majority (R30, R139, R141; Table 16-5). -/
def State.noteNomaj (s : State) (n : Nat) : State :=
  (s.wr Reg.CMD_RET_STATUS_NOMAJ n).diag (if n = 0 then 2 else 4) Src.prog 0 0x00200414 [n]

/-- A warm restart (R137, R162) of the channels given: an armed bank returns to verified, a bank being loaded is abandoned. -/
def State.ucAfterWarm (s : State) (c : Ch) : State :=
  let n := Ch.num c
  match s.rd (Reg.LEN_STATUS_UC_STATE n) with
  | 4 => s.wr (Reg.LEN_STATUS_UC_STATE n) 3
  | 1 =>
    (((s.wr (Reg.LEN_STATUS_UC_STATE n) 0).wr (Reg.LEN_BANK_UC_LO_ID_LO n) 0).wr (Reg.LEN_BANK_UC_HI_ID_HI n) 0).modCh c fun h =>
      { h with uc := none }
  | _ => s

end Sys2Proof.Machine
end

