-- ==== Sys2Proof/Machine/Check.lean ====
section
/-! DEFINITION. The load-time checker (R91) with its reason codes (Table 3-5), the WCET (R92) and the cost of a migration
list (R156). The reasons are tried in the order of their codes; within a code the streams come first, in lane order, then the other sections. -/

namespace Sys2Proof

/-- A breach found by the loader: what `LEN_LOAD_STAT[n]` and `LEN_LOAD_ADDR[n]` report. -/
structure Breach where
  reason : Nat
  lane : Nat
  phase : Nat
  idx : Nat
  space : Nat
  addr : Nat
  deriving DecidableEq, Repr

/-- A breach that concerns no location. -/
def Breach.at (reason lane phase idx : Nat) : Breach :=
  { reason := reason, lane := lane, phase := phase, idx := idx, space := 3, addr := 0 }

/-- No breach. -/
def Breach.none : Breach := Breach.at 0 0 0 0

/-- An instruction of a stream with its place. -/
structure Placed where
  lane : Nat
  phase : Nat
  idx : Nat
  i : LInstr
  deriving DecidableEq, Repr

/-- Locations as one number: bits from 0, words from 0x40000. -/
def Loc.bit (b : BitAddr) : Nat := b.toNat
def Loc.word (w : WordAddr) : Nat := 0x40000 + w.toNat

/-- `SPACE` and `ADDR` of a location. -/
def Loc.space (l : Nat) : Nat := if l < 0x40000 then 0 else 1
def Loc.addr (l : Nat) : Nat := if l < 0x40000 then l else l - 0x40000

def BitOp.reads : BitOp → List Nat
  | .bit a => [Loc.bit a]
  | .k _ => []
def ArOp.reads : ArOp → List Nat
  | .w _ a => [Loc.word a]
  | .imm _ _ => []
def LogOp.reads : LogOp → List Nat
  | .w a => [Loc.word a]
  | _ => []
def ShOp.reads : ShOp → List Nat
  | .w a => [Loc.word a]
  | .c _ => []
def LimOp.reads : LimOp → List Nat
  | .wp _ a => [Loc.word a, Loc.word a + 1]
  | .p _ _ _ => []

/-- Image locations that an instruction reads (R88, R89). -/
def LInstr.reads : LInstr → List Nat
  | .ld x | .ldn x | .and x | .andn x | .or x | .orn x | .xor x => x.reads
  | .redge m | .fedge m => [Loc.bit m]
  | .ldw w => [Loc.word w]
  | .add x | .sub x | .mul x | .min x | .max x | .ceq x | .cne x | .clt x | .cle x | .cgt x | .cge x => x.reads
  | .andw x | .orw x | .xorw x => x.reads
  | .shl x | .shr x | .asr x => x.reads
  | .limit x => x.reads
  | _ => []

/-- Image locations that an instruction stores to (R82). -/
def LInstr.writes : LInstr → List Nat
  | .out b | .outn b | .set b | .rst b => [Loc.bit b]
  | .redge m | .fedge m => [Loc.bit m]
  | .stw w => [Loc.word w]
  | _ => []

/-- The program may write the location (Tables 3-1 and 3-2). -/
def Loc.writable (l : Nat) : Bool :=
  if l < 0x40000 then (0x400 ≤ l && l < 0x800) || (0xC00 ≤ l && l < 0x1000) || 0x10000 ≤ l
  else
    let w := l - 0x40000
    (0x180 ≤ w && w < 0x200) || (0x1000 ≤ w && w < 0x4000)

/-- The location is retained (R135). -/
def Loc.retained (l : Nat) : Bool :=
  (0x20000 ≤ l && l < 0x22000) || (0x42000 ≤ l && l < 0x42800)

/-- The sixteen streams of a bank, decoded where they decode. -/
def Bank.streams16 (b : Bank) : List (Nat × List Word) := Machine.lanes16.map fun l => (l, b.stream l)

/-- The instructions of a stream with their phases; a word that does not decode is left out. -/
def placeStream (lane : Nat) : Nat → Nat → List Word → List Placed
  | _, _, [] => []
  | phase, idx, w :: ws =>
    match Rh.decode w with
    | some i => ⟨lane, phase, idx, i⟩ :: placeStream lane (if i = .phase then phase + 1 else phase) (idx + 1) ws
    | none => placeStream lane phase (idx + 1) ws

def Bank.placed (b : Bank) : List Placed := (b.streams16.map fun e => placeStream e.1 0 0 e.2).flatten

/-- Instruction count of a lane in a phase (R69). -/
def phaseCount (ps : List Placed) (lane phase : Nat) : Nat := (ps.filter fun p => p.lane = lane && p.phase = phase).length

/-- Distinct dirty words of a lane in a phase (R83). -/
def phaseDirty (ps : List Placed) (lane phase : Nat) : Nat :=
  (((ps.filter fun p => p.lane = lane && p.phase = phase).map fun p => p.i.dirty.map fun e => e.1).flatten.eraseDups).length

/-- Longest lane and dirty words of a phase. -/
def phaseLongest (ps : List Placed) (phase : Nat) : Nat := (Machine.lanes16.map fun l => phaseCount ps l phase).foldl max 0
def phaseD (ps : List Placed) (phase : Nat) : Nat := (Machine.lanes16.map fun l => phaseDirty ps l phase).foldl (· + ·) 0

/-- Sum of the barrier costs of a bank (R81). -/
def Bank.barClk (b : Bank) : Nat :=
  let ps := b.placed
  ((List.range b.phases).map fun p => Machine.barrierClk (phaseD ps p)).foldl (· + ·) 0

/-- WCET in engine clocks (R92). -/
def Bank.wcet (b : Bank) : Nat :=
  let ps := b.placed
  ((List.range b.phases).map fun p => phaseLongest ps p + Machine.barrierClk (phaseD ps p)).foldl (· + ·) 0

/-- Cost of the migration list when the bank replaces the one of identity `id` (R155, R156). -/
def Bank.migrCost (b : Bank) (id : Nat) : Nat :=
  if b.migr.isEmpty || b.migrFrom.toNat ≠ id then 0 else 8 + 2 * b.migr.length

/-- Symbol in a bank. -/
def Bank.symbol (b : Bank) (id : Word) : Option Sym := b.symbols.find? fun y => y.id = id

/-! ### The checks -/

/-- The phase that a stream's position lies in. -/
def phaseAt (ws : List Word) (i : Nat) : Nat := ((ws.take i).filter fun w => Rh.decode w = some .phase).length

/-- R69: number of phases of a stream. -/
def phasesOf (ws : List Word) : Nat := (ws.filter fun w => Rh.decode w = some .phase).length + 1

/-- Position of the first `END` of a stream that has one elsewhere than at its end; of the last word of a stream without one. -/
def badEnd (ws : List Word) : Option Nat :=
  let ends := (ws.zipIdx.filter fun e => Rh.decode e.1 = some .endp).map fun e => e.2
  if ends = [ws.length - 1] && !ws.isEmpty then none
  else some (match ends with
    | [] => ws.length - 1
    | i :: _ => i)

/-- Two entries of a list with the same key. -/
def dupKey : List Nat → Option Nat
  | [] => none
  | k :: l => if l.contains k then some k else dupKey l

/-- Conflicts (R87, R88): the first instruction, in lane order, that stores to or reads what a lower-numbered lane stores to
in the same phase, or that stores to what a lower-numbered lane reads there. -/
def phaseClash (ps : List Placed) (wr : Bool) : Option (Placed × Nat) :=
  ps.findSome? fun q =>
    let own := if wr then q.i.writes else q.i.reads ++ q.i.writes
    own.findSome? fun l =>
      let hit := ps.any fun p => p.phase = q.phase && p.lane < q.lane &&
        (if wr then p.i.writes.contains l
         else (q.i.reads.contains l && p.i.writes.contains l) || (q.i.writes.contains l && p.i.reads.contains l))
      if hit then some (q, l) else none

/-- Stack depths (R72): the position at which a stream breaks them. -/
def stackBreach : Nat → Nat → Nat → List Word → Option Nat
  | _, _, _, [] => none
  | b, z, i, w :: ws =>
    match (Rh.decode w).getD .nop with
    | .bpush => if 16 ≤ b then some i else stackBreach (b + 1) z (i + 1) ws
    | .bor | .band => if b = 0 then some i else stackBreach (b - 1) z (i + 1) ws
    | .zon _ => if 8 ≤ z then some i else stackBreach b (z + 1) (i + 1) ws
    | .zoff => if z = 0 then some i else stackBreach b (z - 1) (i + 1) ws
    | .phase | .endp => if b ≠ 0 || z ≠ 0 then some i else stackBreach b z (i + 1) ws
    | _ => stackBreach b z (i + 1) ws

/-- Timer and counter that an instruction names. -/
def LInstr.timer : LInstr → Option Nat
  | .ton _ t | .tof _ t | .tp _ t => some t.toNat
  | _ => none
def LInstr.counter : LInstr → Option Nat
  | .ctu _ t | .ctd _ t | .cres _ t => some t.toNat
  | _ => none

/-- R93: a timer named twice or without a preset, a counter of two lanes or without a preset; a preset out of range. -/
def Bank.timerBreach (b : Bank) (ps : List Placed) : Option Breach :=
  let mk := fun (p : Placed) (t : Nat) => { Breach.at 9 p.lane p.phase p.idx with space := 2, addr := t }
  match ps.findSome? fun p =>
      match p.i.timer, p.i.counter with
      | some t, _ =>
        if (ps.any fun q => q.i.timer = some t && (q.lane < p.lane || (q.lane = p.lane && q.idx < p.idx))) ||
            !(b.tPresets.any fun e => e.1 = t) then some (mk p t) else none
      | none, some t =>
        if (ps.any fun q => q.i.counter = some t && q.lane < p.lane) || !(b.cPresets.any fun e => e.1 = t) then some (mk p t) else none
      | none, none => none with
  | some x => some x
  | none =>
    match b.tPresets.find? fun e => 4096 ≤ e.1 || 16777216 ≤ e.2 with
    | some e => some { Breach.at 9 0 0 0 with space := 2, addr := e.1 }
    | none => (b.cPresets.find? fun e => 4096 ≤ e.1).map fun e => { Breach.at 9 0 0 0 with space := 2, addr := e.1 }

/-- R96, R117: an `LDX` of a table that is not declared; table descriptors, their entries and the store. -/
def Bank.tableBreach (b : Bank) (ps : List Placed) : Option Breach :=
  let words := (b.tables.map fun d => d.len).foldl (· + ·) 0
  let mk := fun (t : Nat) => { Breach.at 10 0 0 0 with space := 2, addr := t }
  match ps.findSome? fun p => match p.i with
      | .ldx t => if (b.table t.toNat).isNone then some { Breach.at 10 p.lane p.phase p.idx with space := 2, addr := t.toNat } else none
      | _ => none with
  | some x => some x
  | none =>
    match b.tables.find? fun d => 256 ≤ d.num || d.len = 0 || 4096 < d.len || d.entries.length ≠ d.len with
    | some d => some (mk d.num)
    | none =>
      match dupKey (b.tables.map fun d => d.num) with
      | some t => some (mk t)
      | none => if 256 < b.tables.length || 131072 < words then some (Breach.at 10 0 0 0) else none

/-- A migration operation within its ranges (Table 5-4). DESIGN CHOICE (log 84): bits of `SRC` above the field that the table names count
as a number out of range for the moves, and are ignored for the set of a bit and the reset of a timer. -/
def MigOp.ok (m : MigOp) : Bool :=
  match m.op with
  | 1 => m.dst < 0x40000 && m.src.toNat < 0x40000
  | 2 => m.dst < 0x4000 && m.src.toNat < 0x4000
  | 3 => m.dst < 0x40000
  | 4 => m.dst < 0x4000
  | 5 | 6 => m.dst < 4096 && m.src.toNat < 4096
  | 7 | 8 => m.dst < 4096
  | _ => false

/-- Destination of an operation that names an image location. -/
def MigOp.dest (m : MigOp) : Option Nat :=
  match m.op with
  | 1 | 3 => some m.dst
  | 2 | 4 => some (0x40000 + m.dst)
  | _ => none

/-- An address lies in the bit image or the word image. -/
def imageAddr (word : Bool) (a : Nat) : Bool := if word then a < 0x4000 else a < 0x40000

def InitVal.loc (v : InitVal) : Nat := if v.word then 0x40000 + v.addr else v.addr

/-- A program word that does not decode (R102), or an assertion that the bank does not declare (R103). -/
def Bank.badWord (b : Bank) (w : Word) : Bool :=
  match Rh.decode w with
  | none => true
  | some (.assert a) => !(b.asserts.any fun e => e.1 = a.toNat)
  | _ => false

/-- R102, R103, R133, R135, R157: what carries reason code 4. -/
def Bank.encBreach (b : Bank) : Option Breach :=
  match b.streams16.findSome? fun e => (e.2.zipIdx.find? fun w => b.badWord w.1).map fun w => Breach.at 4 e.1 (phaseAt e.2 w.2) w.2 with
  | some x => some x
  | none =>
    if (b.symbols.any fun y => y.id = 0 || y.id = 0xFFFFFFFF#32) || (dupKey (b.symbols.map fun y => y.id.toNat)).isSome ||
        (b.symbols.any fun y => !imageAddr y.word y.addr) || (b.inits.any fun v => !imageAddr v.word v.addr) ||
        (dupKey (b.inits.map InitVal.loc)).isSome || 1024 < b.migr.length || (b.migr.any fun m => !m.ok) then
      some (Breach.at 4 0 0 0)
    else none

/-- R75, R89, R135, R157: stores to read-only locations, markers outside the markers, initial values and migration
destinations that may not be written. -/
def Bank.writeBreach (b : Bank) (ps : List Placed) : Option Breach :=
  match ps.findSome? fun p =>
      match p.i with
      | .redge m | .fedge m => if m.toNat < 0x20000 then some (p, Loc.bit m) else none
      | i => (i.writes.find? fun l => !Loc.writable l).map fun l => (p, l) with
  | some (p, l) => some { Breach.at 7 p.lane p.phase p.idx with space := Loc.space l, addr := Loc.addr l }
  | none =>
    match (b.inits.map InitVal.loc).find? fun l => !Loc.writable l || Loc.retained l with
    | some l => some { Breach.at 7 0 0 0 with space := Loc.space l, addr := Loc.addr l }
    | none =>
      ((b.migr.filterMap MigOp.dest).find? fun l => !Loc.writable l).map fun l =>
        { Breach.at 7 0 0 0 with space := Loc.space l, addr := Loc.addr l }

/-- Offsets of the identity registers that report less of a parameter than a bank needs (R4). -/
def Bank.overParams (b : Bank) : List Nat :=
  (if (b.streams.any fun e => 16 ≤ e.1 || 65536 < e.2.length || 64 < phasesOf e.2) || 16 < b.lanesUsed || 64 < b.phases then [0x10]
    else []) ++
  (if (b.symbols.any fun y => !imageAddr y.word y.addr) || (b.inits.any fun v => !imageAddr v.word v.addr) then [0x14] else []) ++
  (if (b.tPresets.any fun e => 4096 ≤ e.1) || (b.cPresets.any fun e => 4096 ≤ e.1) then [0x18] else []) ++
  (if (b.tables.any fun d => 256 ≤ d.num || 4096 < d.len) || 256 < b.tables.length then [0x1C] else [])

/-- The first breach of a bank (R91) that would replace the bank of identity `id`, with the window in engine clocks and the
`TBC_CODE` values that it may declare. -/
def Bank.check (b : Bank) (window : Nat) (tbcs : List Nat) (id : Nat) : Option Breach :=
  let ss := b.streams16
  let ps := b.placed
  match ss.find? fun e => 65536 < e.2.length with
  | some e => some (Breach.at 1 e.1 (phaseAt e.2 65536) 65535)
  | none =>
    match ss.find? fun e => phasesOf e.2 ≠ b.phases || 64 < phasesOf e.2 with
    | some e => some (Breach.at 2 e.1 (min 63 (phasesOf e.2 - 1)) 0)
    | none =>
      match ss.findSome? fun e => (badEnd e.2).map fun i => Breach.at 3 e.1 (phaseAt e.2 i) i with
      | some x => some x
      | none =>
        match b.encBreach with
        | some x => some x
        | none =>
          match phaseClash ps true with
          | some (p, l) => some { Breach.at 5 p.lane p.phase p.idx with space := Loc.space l, addr := Loc.addr l }
          | none =>
            match phaseClash ps false with
            | some (p, l) => some { Breach.at 6 p.lane p.phase p.idx with space := Loc.space l, addr := Loc.addr l }
            | none =>
              match b.writeBreach ps with
              | some x => some x
              | none =>
                match ss.findSome? fun e => (stackBreach 0 0 0 e.2).map fun i => Breach.at 8 e.1 (phaseAt e.2 i) i with
                | some x => some x
                | none =>
                  match b.timerBreach ps with
                  | some x => some x
                  | none =>
                    match b.tableBreach ps with
                    | some x => some x
                    | none =>
                      if window < b.wcet + b.migrCost id then some (Breach.at 11 0 0 0)
                      else if !tbcs.contains b.tbc then some (Breach.at 12 0 0 0)
                      else if (b.streams.any fun e => 16 ≤ e.1) || 16 < b.lanesUsed || 65535 < b.symbols.length then
                        some (Breach.at 13 0 0 0)
                      else none

end Sys2Proof
end

