-- ==== Sys2Proof/Machine/Prog.lean ====
section
/-! DEFINITION. Program commands (Table 5-5): the undercoat bank from load to arming, the commit target, forces and the
discard of the retained copy. -/

namespace Sys2Proof.Machine

/-! ### Banks -/

/-- The running bank of the channels in the vote; of any channel while none is in the vote. -/
def State.runBank (s : State) : Option Bank := (s.voters ++ Ch.all).findSome? fun c => (s.ch c).run

def State.ucState (s : State) (c : Ch) : Nat := s.rd (Reg.LEN_STATUS_UC_STATE (Ch.num c))

/-- A channel that runs its controller: out of reset, booted, not retired. -/
def State.booted (s : State) (c : Ch) : Bool :=
  match (s.ch c).st with
  | .vote | .excluded | .resync | .reloading => true
  | _ => false

/-- Set the undercoat of a channel with the identity that it reports (R132). -/
def State.setUc (s : State) (c : Ch) (b : Option Bank) (st : Nat) : State :=
  let n := Ch.num c
  let s := s.modCh c fun h => { h with uc := b }
  ((s.wr (Reg.LEN_STATUS_UC_STATE n) st).wr (Reg.LEN_BANK_UC_LO_ID_LO n) (bankId b)).wr (Reg.LEN_BANK_UC_HI_ID_HI n)
    (bankId b / 4294967296)

/-- Report the running bank of a channel (R101) and its WCET (R67). -/
def State.runRegs (s : State) (c : Ch) : State :=
  let n := Ch.num c
  let b := (s.ch c).run
  let s := (s.wr (Reg.LEN_BANK_RUN_LO_ID_LO n) (bankId b)).wr (Reg.LEN_BANK_RUN_HI_ID_HI n) (bankId b / 4294967296)
  match b with
  | none => ((s.wr (Reg.LEN_PROG_TABLES n) 0).wr (Reg.LEN_PROG_LANES_USED n) 0).wr (Reg.LEN_PROG_PHASE_COUNT n) 0 |>.wr
      (Reg.LEN_BARRIER_BAR_CLK n) 0
  | some b => ((s.wr (Reg.LEN_PROG_TABLES n) b.tables.length).wr (Reg.LEN_PROG_LANES_USED n) b.lanesUsed).wr
      (Reg.LEN_PROG_PHASE_COUNT n) b.phases |>.wr (Reg.LEN_BARRIER_BAR_CLK n) b.barClk

/-- `RUN_CLK` of the running bank. -/
def State.wcetRegs (s : State) : State :=
  s.wr Reg.TMU_CYC_WCET_RUN_CLK (match s.runBank with
    | some b => b.wcet
    | none => 0)

/-- Channels whose undercoat is verified or armed with an identity. -/
def State.ucWith (s : State) (id : Nat) : List Ch :=
  Ch.all.filter fun c => (s.ucState c = 3 || s.ucState c = 4) && bankId (s.ch c).uc = id && (s.ch c).uc.isSome

/-- The undercoat identity that two channels in the vote hold, or else the first one held. -/
def State.ucAgreed (s : State) : Option Nat :=
  let ids := (s.voters.filter fun c => s.ucState c = 3 || s.ucState c = 4).map fun c => bankId (s.ch c).uc
  match majority (ids.map some) with
  | some i => some i
  | none => ids.head?

/-- The agreed undercoat state: what two channels in the vote have, or else the first of them. -/
def State.ucAgreedState (s : State) : Nat :=
  let l := s.voters.map fun c => s.ucState c
  match majority (l.map some) with
  | some v => v
  | none => l.headD 0

/-- What follows the undercoat banks: the fields of `CMD_PRG_STATE` (R166), and a `UC_CLK` of 0 where no channel holds one (R67). -/
def State.prgRegs (s : State) : State :=
  let m := match s.ucAgreed with
    | some id => Ch.mask (s.ucWith id)
    | none => 0
  let s := if Ch.all.any fun c => (s.ch c).uc.isSome then s else s.wr Reg.TMU_CYC_WCET_UC_UC_CLK 0
  ((s.wr Reg.CMD_PRG_STATE_UC_AGREE m).wr Reg.CMD_PRG_STATE_UC_STATE s.ucAgreedState).wr Reg.CMD_PRG_STATE_START_COPY s.sec.start

/-- A plug copy holds the bank that a function of a channel names, in some channel. -/
def State.copyHolds (s : State) (copy : Nat) (f : Chan → Option Bank) : Bool :=
  Ch.all.any fun c => match f (s.ch c) with
    | some b => bankId (s.copyBank c copy) = b.id.toNat && (s.copyBank c copy).isSome
    | none => false

/-- Note the result of a channel's check of a copy (R506). -/
def State.noteCheck (s : State) (c : Ch) (copy : Nat) (o : Opened) : State :=
  let n := Ch.num c
  ((s.wr (Reg.SEC_CH_REASON n) o.reason).wr (Reg.SEC_CH_SECTION n) o.secNo).wr (Reg.SEC_CH_CHECK_COPY n) copy

/-- The `TBC_CODE` values that a bank may declare at its load: that in force, and that of a schedule loaded for the next
epoch (R61). -/
def State.tbcs (s : State) : List Nat :=
  s.rd Reg.TMU_CYC_CFG_TBC_CODE ::
    (if s.rd Reg.SEC_EPOCH_STATE = 1 || s.rd Reg.SEC_EPOCH_STATE = 2 then [s.ptn.nextNet.tbcCode] else [])

/-- Modes of the program commands: RUN3, RUN2, SAFE, MAINT. -/
def State.fromRun (s : State) : Bool :=
  match s.md.mode with
  | .run3 | .run2 | .safe | .maint => true
  | _ => false

/-- Some channel is loading its undercoat, or holds it armed. -/
def State.ucLoading (s : State) : Bool := Ch.all.any fun c => s.ucState c = 1
def State.ucArmed (s : State) : Bool := Ch.all.any fun c => s.ucState c = 4

/-- `PRG_LOAD` (Table 5-5): every running channel loads its undercoat from the copy. -/
def applyPrgLoad (w1 : Word) (s : State) : CmdRes State :=
  needs (s.fromRun && !s.rdb Reg.SEC_STATUS_FW_MIXED) St.wrongState <|
  needs (w1.toNat ≤ 1) St.badArg <|
  needs (!s.ucLoading && !s.ucArmed) St.busy <|
  needs (!s.copyHolds w1.toNat (·.run)) St.wrongState <|
  let s := foldSt (Ch.all.filter s.booted) (fun c s =>
    (s.setUc c none 1).modCh c fun h => { h with ucCopy := w1.toNat }) s
  .ok ((s.wr Reg.CMD_PRG_STATE_LOAD_COPY w1.toNat).wrb Reg.CMD_PRG_STATE_SWITCH_BACK false).prgRegs

/-- Report a breach (R91). -/
def State.breachRegs (s : State) (c : Ch) (x : Breach) : State :=
  let n := Ch.num c
  let s := (((s.wr (Reg.LEN_LOAD_STAT_REASON n) x.reason).wr (Reg.LEN_LOAD_STAT_LANE n) x.lane).wr
    (Reg.LEN_LOAD_STAT_PHASE n) x.phase).wr (Reg.LEN_LOAD_STAT_INDEX n) x.idx
  (s.wr (Reg.LEN_LOAD_ADDR_SPACE n) x.space).wr (Reg.LEN_LOAD_ADDR_ADDR n) x.addr

/-- The first breach of a bank in the place of the running one (R59, R60, R91). -/
def State.bankBreach (s : State) (b : Bank) : Option Breach :=
  b.check (s.rd Reg.TMU_CYC_WINDOW_WINDOW_CLK) s.tbcs (bankId s.runBank)

/-- A bank being loaded is written, and its check begins (`UC_STATE` 2), at a Tc that the spec leaves open. -/
def State.ucWritten (s : State) (c : Ch) : State :=
  if s.ucState c ≠ 1 then s
  else
    let b := Config.freeBool s.free
    let s := { s with free := s.free + 1 }
    if b then (s.wr (Reg.LEN_STATUS_UC_STATE (Ch.num c)) 2).prgRegs else s

/-- `BANK_CHECK_DONE` (R91): the channel's undercoat is verified, or refused with the first breach. DESIGN CHOICE (log 83): where the
check of the container refuses the bank, `REASON` reads 0, since Table 3-5 has no code for it. -/
def execBankCheckDone (c : Ch) (s : State) : Host.Outcome State Fault Refusal :=
  if s.ucState c ≠ 1 && s.ucState c ≠ 2 then .next s
  else
    let n := Ch.num c
    let copy := (s.ch c).ucCopy
    let o := s.openCopy c copy (some (s.rd (Reg.SEC_CH_FW_VERSION n)))
    let s := (s.noteCheck c copy o).notePages c copy
    .next (if o.reason ≠ 0 then ((s.setUc c none 5).breachRegs c Breach.none).prgRegs
      else
        match bankOf (o.text 2) with
        | none => ((s.setUc c none 5).breachRegs c (Breach.at 4 0 0 0)).prgRegs
        | some b =>
          let s := (s.setUc c (some b) 1).bankWritten c (1 - s.physRun c)
          let s := s.wr Reg.TMU_CYC_WCET_UC_UC_CLK (b.wcet + b.migrCost (bankId s.runBank))
          match s.bankBreach b with
          | some x => ((((s.setUc c (some b) 5).breachRegs c x).diag 3 Src.prog n (0x300030 + n * 0x100000)).logParams b.overParams).prgRegs
          | none => ((s.setUc c (some b) 3).breachRegs c Breach.none).prgRegs)

/-- R59 and R60 of a verified bank against the running one, as its arming checks them (R152). -/
def State.armBreach (s : State) (b : Bank) : Option Breach :=
  if s.rd Reg.TMU_CYC_WINDOW_WINDOW_CLK < b.wcet + b.migrCost (bankId s.runBank) then some (Breach.at 11 0 0 0) else none

/-- `PRG_ARM` (R152): every channel with the agreed verified bank arms it; every channel with a verified bank reports how its bank
stands against the running one (R101). DESIGN CHOICE (log 83): a refused command, which has no side effect, reports nothing there. -/
def applyPrgArm (s : State) : CmdRes State :=
  needs (s.fromRun && !s.rdb Reg.SEC_STATUS_FW_MIXED) St.wrongState <|
  let found := fun c => if s.ucState c = 3 then (s.ch c).uc.map s.armBreach else none
  let ok := fun c => found c = some none
  match majority ((s.voters.filter ok).map fun c => some (bankId (s.ch c).uc)) with
  | none => .error St.wrongState
  | some id =>
    let s := foldSt (Ch.all.filter fun c => (found c).isSome) (fun c s => s.breachRegs c ((found c).join.getD Breach.none)) s
    .ok (foldSt (Ch.all.filter fun c => ok c && bankId (s.ch c).uc = id) (fun c s =>
      s.wr (Reg.LEN_STATUS_UC_STATE (Ch.num c)) 4) s).prgRegs

/-- Two channels in the vote hold an armed undercoat. -/
def State.armed (s : State) : Bool := 2 ≤ (s.voters.filter fun c => s.ucState c = 4).length

/-- Cancel the commit target, or set it. -/
def State.setTarget (s : State) (t : Option Nat) : State :=
  let v := t.getD 0
  ((s.wrb Reg.CMD_PRG_STATE_COMMIT_PENDING t.isSome).wr Reg.CMD_PRG_TARGET_LO_T_LO v).wr Reg.CMD_PRG_TARGET_HI_T_HI (v / 4294967296)

def State.commitTarget (s : State) : Nat := s.rd Reg.CMD_PRG_TARGET_LO_T_LO + s.rd Reg.CMD_PRG_TARGET_HI_T_HI * 4294967296

/-- A result of a commit (R166). -/
def State.commitResult (s : State) (r : Nat) : State :=
  (s.wr Reg.CMD_PRG_COMMIT_RESULT r).incWrap Reg.CMD_PRG_COMMIT_SEQ

/-- `PRG_COMMIT` (R153). DESIGN CHOICE (log 84): a command that meets both refusals answers BAD_ARG. -/
def applyPrgCommit (w1 w2 : Word) (s : State) : CmdRes State :=
  let t := arg64 w1 w2
  needs (s.fromRun && !s.rdb Reg.SEC_STATUS_FW_MIXED) St.wrongState <|
  needs (t % (s.tbc * s.mx) = 0 && s.tm.tcNs + 2 * s.tbc ≤ t && t ≤ s.tm.tcNs + 86400000000000) St.badArg <|
  needs (s.timeValid && s.armed) St.wrongState <|
  .ok (s.setTarget (some t))

/-- Armed banks return to verified (R165). -/
def State.disarm (s : State) : State :=
  foldSt (Ch.all.filter fun c => s.ucState c = 4) (fun c s => s.wr (Reg.LEN_STATUS_UC_STATE (Ch.num c)) 3) s

/-- `PRG_DISARM` (Table 5-5). -/
def applyPrgDisarm (s : State) : CmdRes State :=
  needs s.ucArmed St.wrongState <|
  .ok ((s.disarm.setTarget none).commitResult 3).prgRegs

/-- `PRG_RELEASE` (Table 5-5). -/
def applyPrgRelease (s : State) : CmdRes State :=
  needs (!s.ucLoading && !s.ucArmed) St.wrongState <|
  let s := foldSt Ch.all (fun c s => s.setUc c none 0) s
  .ok (s.wrb Reg.CMD_PRG_STATE_SWITCH_BACK false).prgRegs

/-! ### Forces -/

/-- A safety location (R149): a local output command bit, or what a transmit entry maps into safety data. -/
def State.safetyLoc (s : State) (word : Bool) (addr : Nat) : Bool :=
  let i := if word then Img.ofWord addr else Img.ofBit addr
  (!word && 0x400 ≤ addr && addr < 0x800) ||
    (s.entries.any fun e => (s.entry e).kind = 2 && (s.entry e).safety && (s.entry e).locs.contains i)

/-- A location that may not be forced: the system bits and the system words (R145). -/
def forceBarred (word : Bool) (addr : Nat) : Bool := if word then addr < 0x100 else 0x800 ≤ addr && addr < 0xC00

/-- The entry that forces a symbol, and the lowest free one (R151). -/
def forceEntry (ft : ForceTab) (sym : Word) : Option Nat :=
  (ft.find? fun e => match e.2 with
    | some f => f.sym = sym
    | none => false).map (·.1)
def freeEntry (ft : ForceTab) : Option Nat := (List.range 256).find? fun n => (FMap.get none ft n).isNone

/-- Roles in which forces are commanded (R150). -/
def State.forceRole (s : State) : Bool := s.md.role = .solo || s.md.role = .active

/-- `FORCE_SET` (R145, R149 to R151). DESIGN CHOICE (log 90): of a symbol that is forced already only the value is written. -/
def applyForceSet (w1 w2 : Word) (s : State) : CmdRes State :=
  needs (s.fromStartup && s.forceRole) St.wrongState <|
  match s.runBank.bind fun b => b.symbol w1 with
  | none => .error St.badArg
  | some y =>
    needs (!forceBarred y.word y.addr && (y.word || w2.toNat ≤ 1)) St.badArg <|
    let saf := s.safetyLoc y.word y.addr
    needs (!saf || s.md.mode = .maint) St.wrongState <|
    match forceEntry s.forces w1, freeEntry s.forces with
    | none, none => .error St.denied
    | some n, _ =>
      let s := s.forceValue n
      .ok { s with forces := FMap.set none s.forces n (some ⟨w1, saf, y.word, y.addr, w2⟩) }
    | none, some n =>
      .ok (State.forceWritten { s with forces := FMap.set none s.forces n (some ⟨w1, saf, y.word, y.addr, w2⟩) } n)

/-- `FORCE_CLEAR` (R148). -/
def applyForceClear (w1 : Word) (s : State) : CmdRes State :=
  needs (s.fromStartup && s.forceRole) St.wrongState <|
  match forceEntry s.forces w1 with
  | none => .error St.badArg
  | some n =>
    .ok (State.forceWritten { s with forces := FMap.set none s.forces n none } n)

/-- `FORCE_CLEAR_ALL` (Table 5-5). -/
def applyForceClearAll (s : State) : CmdRes State :=
  needs (s.fromStartup && s.forceRole) St.wrongState <|
  .ok s.clearForces

/-- Forces on safety locations removed, on leaving MAINT (R35, R149). -/
def State.dropSafetyForces (s : State) : State :=
  s.putForces (s.forces.filter fun e => match e.2 with
    | some f => !f.safety
    | none => true)

/-- Offsets of the retained copy (Table 5-3). -/
def Ret.discardAt : Nat := 40
def Ret.bodyAt : Nat := 64
def Ret.markAt : Nat := 25664
def Ret.discardMark : Nat := 0x44534344
def Ret.validMark : Nat := 0x56414C44

/-- `RET_DISCARD` (R144): the valid mark cleared, the discard mark written. -/
def applyRetDiscard (s : State) : CmdRes State :=
  needs (s.md.mode = .hold || s.md.mode = .safe || s.md.mode = .maint) St.wrongState <|
  .ok (((s.nvWrite Ret.markAt (natLE 4 0)).nvWrite Ret.discardAt (natLE 4 Ret.discardMark)).wrb
    Reg.CMD_RET_STATUS_DISCARDED true)

def execPrgLoad (r : CmdRec) (s : State) : Host.Outcome State Fault Refusal := .next (s.cmd 0x40 r (applyPrgLoad r.w1))
def execPrgArm (r : CmdRec) (s : State) : Host.Outcome State Fault Refusal := .next (s.cmd 0x41 r applyPrgArm)

def execPrgCommit (r : CmdRec) (s : State) : Host.Outcome State Fault Refusal :=
  .next (s.cmd 0x42 r (applyPrgCommit r.w1 r.w2))
def execPrgDisarm (r : CmdRec) (s : State) : Host.Outcome State Fault Refusal :=
  .next (s.cmd 0x43 r applyPrgDisarm)
def execPrgRelease (r : CmdRec) (s : State) : Host.Outcome State Fault Refusal :=
  .next (s.cmd 0x44 r applyPrgRelease)
def execForceSet (r : CmdRec) (s : State) : Host.Outcome State Fault Refusal :=
  .next (s.cmd 0x45 r (applyForceSet r.w1 r.w2))
def execForceClear (r : CmdRec) (s : State) : Host.Outcome State Fault Refusal :=
  .next (s.cmd 0x46 r (applyForceClear r.w1))
def execForceClearAll (r : CmdRec) (s : State) : Host.Outcome State Fault Refusal :=
  .next (s.cmd 0x47 r applyForceClearAll)
def execRetDiscard (r : CmdRec) (s : State) : Host.Outcome State Fault Refusal :=
  .next (s.cmd 0x48 r applyRetDiscard)

end Sys2Proof.Machine
end

