-- ==== Sys2Proof/Machine/Mode.lean ====
section
/-! DEFINITION. Modes and roles (R22 to R40): the status words, the transitions of Table 1-5 with what entry and exit bring,
exclusions, failed resynchronisations, channel and warm resets, and the commands that change the mode. -/

namespace Sys2Proof

/-- The field belongs to channel `n` and so to the reach of its channel reset (Table 0-5). -/
def Fld.ofChan (f : Fld) (n : Nat) : Bool :=
  f.off / 0x100000 = 3 + n || f.off = 0x50 + 4 * n || f.off = 0xF00030 + 4 * n || f.off = 0x800120 + 4 * n

/-- The field is of a reach. -/
def Fld.reaches (f : Fld) (l : RLetter) : Bool := f.reach.contains l

/-- An attempt that has not begun (R181). -/
def Machine.Attempt.fresh : Machine.Attempt :=
  { startOp := 0, startCyc := 0, copies := [], accepted := false, nextK := 0, chased := 0, acc := 0, travPos := 0,
    inTime := false, reloading := false }

end Sys2Proof

namespace Sys2Proof.Machine

/-- Return to their reset values the listed fields that satisfy a condition. -/
def State.resetRegs (s : State) (p : Fld → Bool) : State :=
  { s with regs := s.regs.filter fun (e : Nat × Nat) =>
      match (Reg.fieldsAt (e.1 / 32)).bind fun fs => fs.find? fun f => f.lsb = e.1 % 32 with
      | some f => !p f
      | none => true }

/-! ### Status words -/

/-- Agreed value of a pair. -/
def State.pairVal (s : State) (p : Nat) : Bool := natBit (s.rd Reg.SIO_PAIR_STAT_VALUE) p

/-- A domain reports `PGOOD`. -/
def State.good (s : State) (d : Nat) : Bool := natBit (s.rd Reg.MOD_DOMAIN_PGOOD) d

/-- Channels that are powered and not retired. -/
def State.powered (s : State) : List Ch := Ch.all.filter fun c => s.good (Ch.num c + 1) && (s.ch c).st ≠ .retired

/-- The cause of SAFE is clear (the conditions before R29). -/
def State.causeClear (s : State) : Bool :=
  2 ≤ s.powered.length && s.good 4 && s.good 5 && s.timeValid && !(2 ≤ s.voters.length && s.md.assertSafe)

/-- The maintenance conditions (R34), with the pair values of the last agreement (DESIGN CHOICE, log 80). -/
def State.maintOk (s : State) : Bool := s.pairVal 10 && s.pairVal 0 && natBit s.roles 1

/-- A valid configuration is in use. -/
def State.cfgValid (s : State) : Bool :=
  match s.md.mode with
  | .off | .boot | .hold => false
  | _ => true

/-- `MOD_STATUS` as it reads (R40). -/
def State.modStatus (s : State) : Nat :=
  bitNat (s.md.mode = .safe && s.causeClear) * 2 ^ 24 + bitNat (natBit s.roles 1) * 2 ^ 23 + bitNat (s.pairVal 0) * 2 ^ 22 +
    bitNat (s.pairVal 10) * 2 ^ 21 + bitNat s.outPermit * 2 ^ 20 + bitNat s.cfgValid * 2 ^ 19 + bitNat s.timeValid * 2 ^ 18 +
    Ch.mask (Ch.all.filter fun c => (s.ch c).st = .retired) * 2 ^ 15 + Ch.mask s.voters * 2 ^ 12 + s.voteDeg * 2 ^ 10 +
    s.md.role.code * 2 ^ 8 + bitNat s.md.debug * 16 + s.md.mode.code

/-- Failed attempts of the last 60 minutes that count towards retirement (R190), 0 to 3. -/
def State.recentFails (s : State) (c : Ch) : Nat :=
  min 3 ((s.ch c).failTimes.filter fun t => s.tm.opNs < t + 3600000000000).length

/-- `MOD_CH_STATE[n]` as it reads. -/
def State.chStateWord (s : State) (c : Ch) : Nat :=
  let n := Ch.num c
  s.rd (Reg.MOD_CH_STATE_EXCL_COUNT n) * 65536 + s.rd (Reg.MOD_CH_STATE_LAST_CAUSE n) * 256 +
    s.rd (Reg.MOD_CH_STATE_PLUG_COPY n) * 64 + s.recentFails c * 16 + (s.ch c).st.code

/-- Record a transition in `MOD_CAUSE`, in the recorder and as an interrupt (R26, Table 16-3). -/
def State.noteMode (s : State) (src dst : Mode) (cause chans : Nat) : State :=
  let s := ((((s.incWrap Reg.MOD_CAUSE_SEQ).wr Reg.MOD_CAUSE_CHANNELS chans).wr Reg.MOD_CAUSE_TO dst.code).wr
    Reg.MOD_CAUSE_FROM src.code).wr Reg.MOD_CAUSE_CAUSE cause
  let sev := if dst = .safe then 6 else if src = .run3 && dst = .run2 then 4 else 2
  (s.enqueue (s.event sev 0x01 Src.mod 0 [s.storedWord 0x44, s.modStatus])).raiseInt 1

/-! ### Roles -/

/-- Every hold of R31 ends. -/
def State.endHolds (s : State) : State :=
  ((foldSt out12 (fun o s => s.wrb (Reg.SIO_OUT_STAT_HOLD o) false) s).modSio fun x => { x with holdLeft := none }).modDlk fun x =>
    { x with fbHold := false }

/-- Change the role (R38), with the outputs and supplies that follow it (R33, R267, R292). -/
def State.setRole (s : State) (r : Role) : State :=
  if r = s.md.role then s
  else
    let s := s.modMd fun x => { x with role := r }
    let s := s.enqueue (s.event 2 0x01 Src.mod 0 [s.storedWord 0x44, s.modStatus])
    let s := if r = .standby || r = .orphan then s.endHolds else s
    s.driveTp.driveAll

/-! ### Failed attempts and retirement -/

/-- Retire a channel (R185, R190). -/
def State.retire (s : State) (c : Ch) : State :=
  let s := s.modCh c fun h => { h with st := .retired, attempt := none, probation := false, kept := [] }
  s.diag 5 Src.vot 0 (0x50 + 4 * Ch.num c) [s.chStateWord c]

/-- An attempt fails with a code of Table 6-7 (R189); codes 1 to 6 count towards retirement, code 9 retires at once. The next
attempt starts with the next snapshot, unless this one was abandoned. -/
def State.failAttempt (s : State) (c : Ch) (code : Nat) : State :=
  let n := Ch.num c
  let s := (((s.inc Reg.VOT_RESYNC_FAIL_COUNT).wr Reg.VOT_RESYNC_FAIL_CHANNEL n).wr Reg.VOT_RESYNC_FAIL_REASON code).wr
    Reg.VOT_RESYNC_STAGE 6
  let s := s.modCh c fun h => { h with
    probation := false,
    attempt := h.attempt.map fun _ => Attempt.fresh,
    failTimes := if 1 ≤ code && code ≤ 6 then (h.failTimes.filter fun t => s.tm.opNs < t + 3600000000000) ++ [s.tm.opNs]
      else h.failTimes }
  let s := s.diag 5 Src.vot 0 0x00600044
  if code = 9 || (1 ≤ code && code ≤ 6 && 3 ≤ s.recentFails c) then s.retire c else s

/-- Abandon a channel's resynchronisation (R192): one under way fails with code 8. -/
def State.abandon (s : State) (c : Ch) : State :=
  let begun : Bool := match (s.ch c).attempt with
    | some a => decide (0 < a.startOp)
    | none => false
  let s := if begun then s.failAttempt c 8
    else if (s.ch c).attempt.isSome && s.rd Reg.VOT_RESYNC_STAGE = 1 && s.rd Reg.VOT_RESYNC_CHANNEL = Ch.num c then
      s.wr Reg.VOT_RESYNC_STAGE 0
    else s
  s.modCh c fun h => { h with
    attempt := none, kept := [], probation := false,
    st := if h.st = .resync || h.st = .reloading then .excluded else h.st }

/-! ### Exclusions -/

/-- Exclude a channel with a cause: counted and reported; from its first traverse after a rejoin it is also a failed attempt
(Table 6-7, codes 5 and 6). In SAFE a channel stays excluded until the warm restart (R192). -/
def State.exclude (s : State) (c : Ch) (cause : Nat) : State :=
  let n := Ch.num c
  let h := s.ch c
  let s := (s.inc (Reg.MOD_CH_STATE_EXCL_COUNT n)).wr (Reg.MOD_CH_STATE_LAST_CAUSE n) cause
  let s := s.modCh c fun h => { h with
    st := if h.st = .vote then .excluded else h.st,
    attempt := if h.st = .vote && h.cfgOk && s.md.mode ≠ .safe then some Attempt.fresh else h.attempt, kept := [],
    ownForces := if h.st = .vote then some s.forces else h.ownForces }
  let s := s.modMd fun x => { x with exclAt := FMap.put x.exclAt n s.tm.cyc }
  let s := if (s.ch c).attempt.isSome && s.md.mode ≠ .safe then (s.wr Reg.VOT_RESYNC_STAGE 1).wr Reg.VOT_RESYNC_CHANNEL n else s
  let s := s.chEvent 3 (0x10 + Src.chan) 0 [0x50 + 4 * n, s.chStateWord c]
  if h.st = .vote && h.probation && cause = 0x08 then s.failAttempt c 5
  else if h.st = .vote && h.probation && (cause = 0x09 || cause = 0x0A) then s.failAttempt c 6
  else s

/-! ### Transitions -/

/-- R225: an armed flip mask is cancelled when the mode leaves MAINT or STARTUP. -/
def State.cancelFlips (s : State) : State :=
  foldSt [0, 1, 2] (fun n s =>
    if s.rdb (Reg.MIU_FLIP_CTL_ARM n) then (s.wrb (Reg.MIU_FLIP_CTL_ARM n) false).wrb (Reg.MIU_FLIP_CTL_CANCELLED n) true else s) s

/-- The debug sub-mode and its halt end (R194, R199); a new traverse starts in the next program cycle (R172). -/
def State.endDebug (s : State) : State :=
  let s := if s.md.debug then foldSt Ch.all (fun c s => s.modCh c fun h => { h with accStart := true }) s else s
  let s := s.modMd fun x => { x with debug := false, halted := false, dbgHaltReq := none, dbgAbandon := x.halted }
  let s := if s.md.dbgAbandon then foldSt Ch.all (fun c s => s.wr (Reg.LEN_STATUS_RUN (Ch.num c)) 0) s else s
  (s.modMd fun x => { x with dbgAbandon := false }).wr Reg.VOT_DBG_STATE 0

/-- What leaving a mode brings: forces on safety locations and DEBUG end with MAINT (R35). -/
def State.leaveMode (s : State) (dst : Mode) : State :=
  let tested := fun (m : Mode) => m = .maint || m = .startup
  let s := if s.md.mode = .maint && dst ≠ .maint then s.dropSafetyForces.endDebug else s
  if tested s.md.mode && !tested dst then s.cancelFlips else s

/-- Freeze the retained data of a channel (R30). -/
def State.freezeRet (s : State) (c : Ch) : State :=
  if s.booted c then
    let (m, s) := s.retained c
    s.modCh c fun h => { h with frozen := some m }
  else s

/-- Entry to SAFE (R23, R30, R192). -/
def State.enterSafe (s : State) : State :=
  let s := foldSt Ch.all (fun c s => (s.freezeRet c).abandon c) s
  let s := s.modMd fun x => { x with plumb := 0, ackAccepted := false, ackEdge := false }
  s.endHolds

/-- A channel that takes part in STARTUP: out of reset, booted with a valid configuration, not retired (R30, R202, R514). -/
def State.eligible (s : State) (c : Ch) : Bool := s.booted c && (s.ch c).cfgOk

/-- Entry to STARTUP: resynchronisations are abandoned, every channel that can takes part, and the plumb check starts unless
W is held (R31, R192, R200). -/
def State.enterStartup (s : State) (hold : Bool) : State :=
  let s := foldSt Ch.all (fun c s => s.abandon c) s
  let out := Ch.all.filter fun c => !s.eligible c
  let s := foldSt (Ch.all.filter s.eligible) (fun c s => s.modCh c fun h => { h with
    st := .vote, plumbLeft := 0, accStart := true, ownForces := none }) s
  s.modMd fun x => { x with
    exclAt := out.foldl (fun m c => FMap.put m (Ch.num c) s.tm.cyc) x.exclAt,
    plumb := if hold then 0 else 3, plumbBad := ([], []), plumbDone := false, travDone := false, noneStreak := 0, assertSafe := false, ranCycle := false,
    rejoinReq := [], ackAccepted := false, ackEdge := false }

/-- Change the mode (R24, R26). -/
def State.setMode (s : State) (dst : Mode) (cause chans : Nat) : State :=
  let src := s.md.mode
  let s := (s.leaveMode dst).modMd fun x => { x with mode := dst }
  let s := s.noteMode src dst cause chans
  match dst with
  | .safe => s.enterSafe
  | .startup => s.enterStartup (cause = 0x18)
  | _ => s

/-! ### Exclusions and rejoins of a Tc (R28) -/

/-- Rank of an exclusion's cause (R177): the lower is the stronger. -/
def exclRank (cause : Nat) : Nat :=
  if cause = 0x0B then 0 else if cause = 0x09 then 1 else if cause = 0x0A then 2 else 3

/-- The strongest cause for a channel among those found. -/
def strongest (l : List (Ch × Nat)) (c : Ch) : Option Nat :=
  (l.filter fun e => e.1 = c).foldl (fun b e => match b with
    | none => some e.2
    | some k => if exclRank e.2 < exclRank k then some e.2 else some k) none

/-- A channel rejoins (R187). DESIGN CHOICE (log 86): `ELAPSED` stops at 255; of a channel that took no part in STARTUP it counts from
there. -/
def State.rejoin (s : State) (c : Ch) : State :=
  match (s.ch c).attempt with
  | none => s
  | some a =>
    let s := s.modCh c fun h => { h with st := .vote, attempt := none, kept := [], ownForces := none, probation := true }
    let n := s.tm.cyc - FMap.get 0 s.md.exclAt (Ch.num c)
    (((s.wr Reg.VOT_RESYNC_STAGE 5).wr Reg.VOT_RESYNC_ELAPSED (min n 255)).wr Reg.VOT_RESYNC_CHASED a.chased).wr
      Reg.VOT_RESYNC_CHANNEL (Ch.num c)

/-- Order 5 of Table 1-6: exclusions and rejoins together, then the mode that the number of channels in the vote gives. A channel that
overran counts as such whatever stronger cause it has. -/
def State.voteChanges (s : State) : State :=
  let ex := Ch.all.filterMap fun c => (strongest s.md.exclReq c).map fun k => (c, k)
  let late := Ch.all.filter fun c => s.md.exclReq.contains (c, 0x09)
  let re := s.md.rejoinReq
  let s := s.modMd fun x => { x with exclReq := [], rejoinReq := [] }
  let s := foldSt ex (fun e s => s.exclude e.1 e.2) s
  let s := foldSt re (fun c s => s.rejoin c) s
  let n := s.voters.length
  let chans := Ch.mask (ex.map (·.1))
  let low := if 2 ≤ late.length then 0x0E else if ex.any fun e => e.2 = 0x0B then 0x0B else 0x0D
  let cause := (ex.foldl (fun (b : Option Nat) e => match b with
    | none => some e.2
    | some k => if exclRank e.2 < exclRank k then some e.2 else some k) none).getD 0x08
  match s.md.mode with
  | .run3 | .run2 =>
    if n < 2 then s.setMode .safe low chans
    else if n = 3 && s.md.mode = .run2 then s.setMode .run3 0x0C (Ch.mask re)
    else if n = 2 && s.md.mode = .run3 then s.setMode .run2 cause chans
    else s
  | .maint => if n < 2 then s.setMode .safe low chans else s
  | .startup => if s.md.plumbDone && n < 2 then s.setMode .safe low chans else s
  | _ => s

/-! ### Channel reset -/

/-- The option load of a domain has begun and is neither complete nor given up. -/
def State.loading (s : State) (d : Nat) : Bool :=
  !natBit (s.rd Reg.RPC_LOAD_LOAD_DONE) d && !natBit (s.rd Reg.RPC_LOAD_LOAD_ERR) d && s.good d &&
    !natBit (s.rd Reg.RPC_RESET_IN_RESET) d

/-- A load under way that a reset abandons (R519). -/
def State.abandonLoad (s : State) (d : Nat) : State :=
  if s.loading d then (s.inc Reg.RPC_LOAD_RETRIES).wrb Reg.RPC_CAUSE_LOAD_RETRY true else s

/-- C asserts for a channel (R512, R192): its memories and registers of reach C take their reset state at once; a channel in
the vote is excluded at the next Tc (R177). DESIGN CHOICE (log 81): what the other channels have counted of its inputs stays. -/
def State.chAssert (s : State) (c : Ch) : State :=
  let n := Ch.num c
  let s := s.abandonLoad (n + 1)
  let s := if (s.ch c).st = .vote then s.modMd fun x => { x with exclReq := x.exclReq ++ [(c, 0x0B)] } else s
  let s := s.abandon c
  let s := s.modCh c fun _ => Chan.init
  let s := s.resetRegs fun f => f.reaches .c && f.ofChan n
  let s := ((s.clrBit Reg.RPC_LOAD_LOAD_DONE (n + 1)).clrBit Reg.RPC_LOAD_LOAD_ERR (n + 1)).setBit Reg.RPC_RESET_C n
  let s := ((s.setBit Reg.RPC_RESET_IN_RESET (n + 1)).setBit Reg.MOD_DOMAIN_CLAMP (n + 1)).modMd fun x => { x with
    done := x.done.map fun d => (d.1.filter (· ≠ c), d.2) }
  (s.modRpc fun x => { x with loadFails := FMap.set 0 x.loadFails (n + 1) 0 }).prgRegs

/-- `CH_RESET` (Table 13-6, R512). -/
def applyChReset (w1 : Word) (s : State) : CmdRes State :=
  needs s.fromIntegrate St.wrongState <|
  needs (w1.toNat ≤ 2) St.badArg <|
  let c := Ch.at w1.toNat
  needs (s.voters.length = 3 || !s.inVote c) St.wrongState <|
  .ok ((s.wrb (Reg.RPC_CAUSE_CH_CMD w1.toNat) true).chAssert c)

/-! ### Restarts -/

/-- What every restart of the program brings beside the channels' data: an empty force table, no reference sequences (R307),
and the first-cycle flag. -/
def State.restartModule (s : State) (k : Restart) : State :=
  let s := s.clearForces
  s.ptnRestart.modMd fun x => { x with
    restart := k, firstCold := k = .cold, firstWarm := k = .warm, firstCommit := false, firstResume := false, commitDue := false }

/-- A commit target and an armed bank at a warm restart (R162). -/
def State.commitAtWarm (s : State) : State :=
  let was := s.rdb Reg.CMD_PRG_STATE_COMMIT_PENDING || s.ucArmed
  let s := foldSt Ch.all (fun c s => s.ucAfterWarm c) s
  let s := s.setTarget none
  (if was then s.commitResult 2 else s).prgRegs

/-- Warm restart of the channels given with agreed retained data (R137). -/
def State.warmRestart (s : State) (cs : List Ch) (ret : FMap Word) : State :=
  let s := foldSt cs (fun c s => s.restartCh c ret) s
  s.commitAtWarm.restartModule .warm

/-! ### Warm reset -/

/-- Cycles for which W is held (R516), with the release at the Tc that ends them. -/
def State.warmCycles (s : State) : Nat := (1000000 + s.tbc - 1) / s.tbc

/-- Retained data for a warm reset (R139): agreed between the save buffers of the channels in the vote in the last completed
cycle, as their CCUs read them. -/
def State.warmRet (s : State) : (Nat × FMap Word) × State :=
  let cs := match s.md.done with
    | some (l, _) => l
    | none => []
  let s := foldSt cs (fun c s => s.ccuReads c Miu.saveLo Miu.saveN) s
  let (ms, s) := s.savedRets cs
  (agreeRet true ms, s)

/-- W asserts (R31, R139, R512, R514). -/
def State.warmAssert (s : State) : State :=
  let ((n, ret), s) := s.warmRet
  let s := ((s.wrb Reg.RPC_CAUSE_WARM_CMD true).wrb Reg.RPC_RESET_W true).noteNomaj n
  let s := s.warmRestart (Ch.all.filter s.eligible) ret
  let s := foldSt Ch.all (fun c s => s.wr (Reg.LEN_STATUS_RUN (Ch.num c)) 0) s
  let s := s.resetRegs fun f => f.reaches .w
  let s := if s.md.role = .solo || s.md.role = .active then
      ((foldSt out12 (fun o s => if s.latchCode o = 0 then (s.dropDue o).wrb (Reg.SIO_OUT_STAT_HOLD o) true else s) s).modSio fun x =>
        { x with holdLeft := some s.tm.opNs }).modDlk fun x => { x with fbHold := s.rdb Reg.DLK_STATUS_FALLBACK }
    else s
  let s := s.modMd fun x => { x with wHold := s.warmCycles + 1, halted := false, heldBatch := false }
  s.setMode .startup 0x18 0

/-- `WARM_RESET` (Table 13-6). -/
def applyWarmReset (s : State) : CmdRes State := needs s.fromStartup St.wrongState <| .ok s.warmAssert

/-! ### Acknowledge edge -/

/-- The restart on an accepted acknowledge edge (R30). -/
def State.ackRestart (s : State) : State :=
  let cs := Ch.all.filter s.eligible
  let (n, ret) := agreeRet true (cs.filterMap fun c => (s.ch c).frozen)
  ((s.noteNomaj n).warmRestart cs ret).setMode .startup 0x12 0

/-! ### Maintenance -/

/-- A module latch is set (R37). DESIGN CHOICE (log 80): the diagnostic bits at a command's Tc are those that the cycle before it
agreed. -/
def State.moduleLatch (s : State) : Bool :=
  (out12.any fun o => s.latchCode o ≠ 0) || s.dlkLockout ||
    (in24.any fun i => natBit (s.rd (Reg.SIO_IN_STAT_DIAG i)) 8 || natBit (s.rd (Reg.SIO_IN_STAT_DIAG i)) 6)

/-- `MNT_ENTER` (R34). -/
def applyMntEnter (s : State) : CmdRes State :=
  let m := s.md.mode
  needs ((m = .run3 || m = .run2 || m = .safe) && s.maintOk && 2 ≤ s.voters.length) St.wrongState <|
  .ok ((s.setMode .maint 0x13 0).modMd fun x => { x with maintFrom := m })

/-- `MNT_EXIT` (R37). -/
def applyMntExit (s : State) : CmdRes State :=
  needs (s.md.mode = .maint && !s.md.debug) St.wrongState <|
  let run := (s.md.maintFrom = .run3 || s.md.maintFrom = .run2) && !s.moduleLatch
  .ok (s.setMode (if run then (if s.voters.length = 3 then .run3 else .run2) else .safe) 0x14 0)

/-! ### Debug commands (Table 6-8) -/

/-- `DBG_ENTER`. -/
def applyDbgEnter (s : State) : CmdRes State :=
  needs (s.md.mode = .maint && !s.md.debug && s.md.role ≠ .standby) St.wrongState <|
  let s := s.modMd fun x => { x with debug := true }
  .ok (((s.noteMode .maint .maint 0x16 0).wr Reg.VOT_DBG_STATE 1).wr Reg.VOT_DBG_STEPS 0)

/-- `DBG_EXIT`. -/
def applyDbgExit (s : State) : CmdRes State :=
  let d := s.rd Reg.VOT_DBG_STATE
  needs (s.md.debug && d ≠ 3 && d ≠ 4) St.wrongState <|
  .ok (s.endDebug.noteMode .maint .maint 0x17 0)

/-- `DBG_HALT`. -/
def applyDbgHalt (w1 : Word) (s : State) : CmdRes State :=
  needs (s.md.debug && s.rd Reg.VOT_DBG_STATE = 1) St.wrongState <|
  needs (w1.toNat < (s.runBank.map (·.phases)).getD 0) St.badArg <|
  .ok (((s.modMd fun x => { x with dbgHaltReq := some w1.toNat }).wr Reg.VOT_DBG_STATE 2).wr Reg.VOT_DBG_PHASE w1.toNat)

/-- `DBG_STEP`. -/
def applyDbgStep (s : State) : CmdRes State :=
  needs (s.md.debug && s.rd Reg.VOT_DBG_STATE = 3) St.wrongState <|
  .ok ((s.wr Reg.VOT_DBG_STATE 4).inc Reg.VOT_DBG_STEPS)

/-- `DBG_RESUME`. -/
def applyDbgResume (s : State) : CmdRes State :=
  needs (s.md.debug && s.rd Reg.VOT_DBG_STATE = 3) St.wrongState <| .ok (s.wr Reg.VOT_DBG_STATE 5)

/-! ### Sources of M and W during a save -/

/-- Bit of `RPC_CAUSE` for a source of M or W. -/
def mCause : ResetSrc → Fld
  | .pin => Reg.RPC_CAUSE_MRST
  | .command => Reg.RPC_CAUSE_MOD_CMD
  | .watchdog => Reg.RPC_CAUSE_WDG
  | .holdStore => Reg.RPC_CAUSE_HOLD_STORE
  | .warm => Reg.RPC_CAUSE_WARM_CMD

/-- A source that asserts during a save (R515): held by a save at a loss of supply, absorbed by one that precedes a module
reset. -/
def State.holdSource (s : State) (src : ResetSrc) : State :=
  if s.rpc.save = some false then (s.modRpc fun x => { x with held := some src }).wrb Reg.RPC_RESET_SAVE_HOLD true else s

/-- `WARM_RESET` (R31, R515): during a save it is held or absorbed. -/
def execWarmReset (r : CmdRec) (s : State) : Host.Outcome State Fault Refusal :=
  .next (match r.form with
    | .arrive .. => s.cmd 0x03 r applyWarmReset
    | .apply _ =>
      if s.hostAlive && s.rpc.save.isSome then (s.wrb (mCause .warm) true).holdSource .warm else s.cmd 0x03 r applyWarmReset)

def execChReset (r : CmdRec) (s : State) : Host.Outcome State Fault Refusal := .next (s.cmd 0x04 r (applyChReset r.w1))
def execMntEnter (r : CmdRec) (s : State) : Host.Outcome State Fault Refusal := .next (s.cmd 0x05 r applyMntEnter)
def execMntExit (r : CmdRec) (s : State) : Host.Outcome State Fault Refusal := .next (s.cmd 0x06 r applyMntExit)
def execDbgEnter (r : CmdRec) (s : State) : Host.Outcome State Fault Refusal := .next (s.cmd 0x50 r applyDbgEnter)
def execDbgExit (r : CmdRec) (s : State) : Host.Outcome State Fault Refusal := .next (s.cmd 0x51 r applyDbgExit)
def execDbgHalt (r : CmdRec) (s : State) : Host.Outcome State Fault Refusal := .next (s.cmd 0x52 r (applyDbgHalt r.w1))
def execDbgStep (r : CmdRec) (s : State) : Host.Outcome State Fault Refusal := .next (s.cmd 0x53 r applyDbgStep)
def execDbgResume (r : CmdRec) (s : State) : Host.Outcome State Fault Refusal := .next (s.cmd 0x54 r applyDbgResume)

end Sys2Proof.Machine
end

