-- ==== Sys2Proof/Machine/Boot.lean ====
section
/-! DEFINITION. The start of the module: the sealed switches (R268 to R271), the check of the containers and of the
configuration that they hold (R272, R278, R367, R475 to R490), the kind of the first restart (R138, R144), and the boot of
one channel (R204, R487). -/

namespace Sys2Proof

/-- `SW-N`, `SW-S` and `SW-D` in a reading of the sealed switches, in the places of `SIO_SWITCH`. -/
def swN (v : BitVec 22) : Nat := v.toNat % 64
def swS (v : BitVec 22) : Nat := v.toNat / 64 % 256
def swD (v : BitVec 22) : Nat := v.toNat / 16384

/-- The majority of each switch bit (R268); none where a bit has no majority among the readings that exist. -/
def switchVote : List (BitVec 22) → Option (BitVec 22)
  | [a, b, c] => some (Machine.maj3 a b c)
  | [a, b] => if a = b then some a else none
  | _ => none

/-- The sections of a container as configurations. -/
structure Parsed where
  bank : Bank
  sched : FMap Word
  net : NetCfg
  epoch : Nat
  gwy : GwyTab
  sio : FMap Nat
  evSev : FMap Nat
  loops : FMap Nat
  twin : FMap Nat
  slotLz : FMap Nat
  policy : Policy
  deriving DecidableEq, Repr

/-- An optional section of register fields. -/
def Opened.fields (o : Opened) (t : Nat) (empty : α) (f : Nat → List Byte → Option α) : Option α :=
  match o.sec t with
  | .none => some empty
  | .some (v, l) => f v l

/-- Every section parsed; none where one does not. -/
def Opened.parse (o : Opened) : Option Parsed :=
  match Machine.bankOf (o.text 2), (o.sec 3).bind fun e => Config.parseSched e.1 e.2 (o.text 4), o.gwyBank,
    (o.sec 6).bind fun e => Config.parseSio e.1 e.2, (o.sec 9).bind fun e => Config.parsePolicy e.1 e.2,
    o.fields 7 [] Config.parseLoop, o.fields 8 ([], []) Config.parseTwin with
  | .some b, .some (m, cfg, ep), .some g, .some (f, ev), .some p, .some l, .some t =>
    .some { bank := b, sched := m, net := cfg, epoch := ep, gwy := g, sio := f, evSev := ev, loops := l, twin := t.1, slotLz := t.2,
            policy := p }
  | _, _, _, _, _, _, _ => .none

/-- A configuration section names a field that the register map does not have. -/
def unknownKey (m : FMap Nat) : Bool := m.any fun e =>
  match Machine.Reg.fieldsAt (e.1 / 32) with
  | .some fs => !(fs.any fun f => f.lsb = e.1 % 32)
  | .none => true

/-- Offsets of the identity registers that report less than a container needs (R4): a safety input, output or loop that the module
does not have is one whose fields the register map does not have. -/
def Parsed.overParams (p : Parsed) : List Nat :=
  p.bank.overParams ++ Machine.schedOverParams p.sched ++ p.gwy.overParams ++ (if unknownKey p.loops then [0x24] else []) ++
    (if unknownKey p.sio then [0x28] else [])

/-- Section types 3 to 9 that the firmware migrates (R490), as `MIGRATED` shows them. -/
def Opened.migrated (o : Opened) : Nat :=
  let fw := Config.fwVersion (o.text 1)
  (o.secs.filter fun e => 3 ≤ e.1 && e.1 ≤ 9 && e.2.1 < Config.secVersion fw e.1).foldl (fun v e => natSet v (e.1 - 3)) 0

end Sys2Proof

namespace Sys2Proof.Machine

/-! ### Checks of the configuration -/

/-- Pairs 1 to 5, 11 and 12, which are always declared (R242). -/
def fixedPairs : List Nat := [0, 1, 2, 3, 4, 10, 11]

/-- R272 on the input and pair fields in force. -/
def State.inputCfgOk (s : State) : Bool :=
  let use := fun i => s.rd (Reg.SIO_IN_CFG_USE i)
  (in24.all fun i =>
    let n := s.rd (Reg.SIO_IN_CFG_FILTER i)
    1 ≤ n && n ≤ 256 && use i ≤ 2 && s.rd (Reg.SIO_IN_CFG_TP i) ≤ 4) &&
  (pair12.all fun p =>
    let decl := s.rdb (Reg.SIO_PAIR_CFG_DECLARED p)
    s.rd (Reg.SIO_PAIR_CFG_D p) ≠ 0 && (!fixedPairs.contains p || (decl && use (2 * p) ≠ 1 && use (2 * p + 1) ≠ 1)) &&
      (!(decl || use (2 * p) = 2 || use (2 * p + 1) = 2) || (use (2 * p) ≠ 0 && use (2 * p + 1) ≠ 0)))

/-- R272 on the output fields in force, for a T_bc in ns. -/
def State.outputCfgOk (s : State) (tbc : Nat) : Bool :=
  let timed := out12.filter fun o => s.rdb (Reg.SIO_OUT_CFG_TIMED o)
  let words := timed.map fun o => s.rd (Reg.SIO_OUT_CFG_TIMED_WORD o)
  (out12.all fun o =>
    let c := s.rd (Reg.SIO_OUT_CFG_PERIOD o)
    let w := s.rd (Reg.SIO_OUT_CFG_PULSE o)
    c ≤ 6 && 10 ≤ w && w ≤ 50 && w * 10000 + 110000 ≤ tbc && 24 ≤ 64000000 * 2 ^ c / tbc &&
    (!s.rdb (Reg.SIO_OUT_CFG_PARALLEL o) || (4 ≤ o && s.rdb (Reg.SIO_OUT_CFG_PARALLEL (if o % 2 = 0 then o + 1 else o - 1)))) &&
    (4 ≤ o || !s.rdb (Reg.SIO_OUT_CFG_AUTO_RESUME o))) &&
  (words.all fun w => 0x2800 ≤ w && w ≤ 0x3FFE && w % 2 = 0) && words.eraseDups.length = words.length

/-- R367 and R369 on the twin fields in force; a section that declares no twin is not judged. -/
def State.twinCfgOk (s : State) : Bool :=
  let q := s.rd Reg.TWN_CFG_QUORUM
  let node := s.rd Reg.PTN_CFG_NODE
  let part := s.rd Reg.TWN_CFG_PARTNER
  let pa := s.rd Reg.TWN_CFG_PAIR_ADDR
  let arbs := [s.rd Reg.TWN_ARB_NODES_ARB0, s.rd Reg.TWN_ARB_NODES_ARB1, s.rd Reg.TWN_ARB_NODES_ARB2]
  let used := arbs.take (if q = 1 then 1 else 3)
  let slots := (List.range 8).filter fun p => s.rdb (Reg.TWN_ARB_STATE_SERVING p)
  let pairs := slots.map fun p => s.rd (Reg.TWN_ARB_STATE_PAIR_ID p)
  (slots.all fun p => 8 ≤ FMap.get 0 s.twn.slotLz p && FMap.get 0 s.twn.slotLz p ≤ 255) && (pairs.all fun k => k ≠ 0) &&
  pairs.eraseDups.length = pairs.length && (q = 0 || (q ≤ 2 && part ≠ 0 && part ≠ node && pa ≠ 0 && pa ≠ node && pa ≠ part && !s.ptn.net.masters0.contains pa &&
    !s.ptn.net.masters1.contains pa && 1 ≤ s.rd Reg.TWN_CFG_PAIR_ID && 8 ≤ s.rd Reg.TWN_CFG_LZ &&
    (used.all fun a => a ≠ 0 && a ≠ node && a ≠ part) && used.eraseDups.length = used.length &&
    ((arbs.drop used.length).all fun a => a = 0)))

/-- The LEASE windows of a schedule in a twin: one of this module, of its partner and of each arbiter in every basic cycle, this module's
on both lines, and both modules' end before an arbiter's starts. Its own first is the module's, a further one an arbiter slot's. DESIGN
CHOICE (log 100): a module of no pair does not know its pairs' nodes, and judges no order. -/
def State.leaseWindowsOk (s : State) (m : FMap Word) (mCode : Nat) : Bool :=
  if s.rd Reg.TWN_CFG_QUORUM = 0 then true
  else
    let xs := ((schedUsed m).map (schedEntry m)).filter fun x => x.ftype = 5 && (x.kind = 2 || x.kind = 3)
    let every := fun (x : SchedEntry) => x.mask = 2 ^ 2 ^ mCode - 1
    let tx := xs.filter fun x => x.kind = 2
    let of := fun (n : Nat) => xs.filter fun x => x.kind = 3 && x.owner = n && every x
    let first := tx.filter fun x => tx.all fun y => x.start ≤ y.start
    let arbs := [s.rd Reg.TWN_ARB_NODES_ARB0, s.rd Reg.TWN_ARB_NODES_ARB1, s.rd Reg.TWN_ARB_NODES_ARB2].filter (· ≠ 0)
    let late := (tx.filter fun x => !first.contains x) ++ arbs.flatMap of
    !first.isEmpty && (first.all fun x => every x && x.ports % 4 ≠ 0 && x.ports / 4 % 4 ≠ 0) &&
      !(of (s.rd Reg.TWN_CFG_PARTNER)).isEmpty && (arbs.all fun a => !(of a).isEmpty) &&
      ((first ++ of (s.rd Reg.TWN_CFG_PARTNER)).all fun x => late.all fun y => x.start + x.length ≤ y.start)

/-- No launch target shares its words with a timed output (R357). -/
def State.launchWordsOk (s : State) (cfg : NetCfg) : Bool :=
  cfg.launches.all fun l => out12.all fun o => !s.rdb (Reg.SIO_OUT_CFG_TIMED o) || s.rd (Reg.SIO_OUT_CFG_TIMED_WORD o) ≠ l.2

/-- Every rule on a schedule of this module (R313). -/
def State.schedFits (s : State) (m : FMap Word) (cfg : NetCfg) : Bool :=
  schedOk m cfg && s.leaseWindowsOk m cfg.mCode && s.launchWordsOk cfg

/-- The other settings of the safety I/O configuration: traverse, proof interval and scrub period within their ranges, and the
expected `SW-D` (R171, R205, R218, R278). -/
def State.safetyCfgOk (s : State) (tbc : Nat) : Bool :=
  let t := s.rd Reg.VOT_CFG_TRAVERSE
  let d := s.rd Reg.VOT_CFG_PROOF_DAYS
  let p := s.rd (Reg.MIU_CFG_SCRUB_S 0)
  1 ≤ t && t ≤ 8 && 1 ≤ d && d ≤ 3650 && 1 ≤ p && p ≤ 3600 && s.rd Reg.DLK_CFG_SW_D_EXP = s.rd Reg.SIO_SWITCH_SW_D &&
    s.rd Reg.DLK_STATUS_FAULT_CODE ≠ 5 && s.inputCfgOk && s.outputCfgOk tbc

/-- `MATCH` of `DLK_CFG`: the expected `SW-D` against the one latched on rail 0 (R294). -/
def State.dlkMatch (s : State) : State := s.wrb Reg.DLK_CFG_MATCH (s.rd Reg.DLK_CFG_SW_D_EXP = s.rd Reg.DLK_CFG_SW_D)

/-- The `SW-D` that a configuration expects, shown also where the configuration is refused (R278, R294). -/
def State.dlkExpects (s : State) (p : Parsed) : State :=
  (s.wrKeys (p.sio.filter fun e => e.1 / 32 = Reg.DLK_CFG_SW_D_EXP.off)).dlkMatch

/-- Put a parsed configuration into force. -/
def State.applyParsed (s : State) (p : Parsed) : State :=
  let s := s.applySched p.sched p.net p.epoch false
  let s := (s.gwyStart p.gwy).wrKeys (p.sio ++ p.loops ++ p.twin)
  let s := ((s.wrb Reg.TWN_CFG_POS (s.rdb Reg.RPC_STRAP_TWIN_POS)).wrb Reg.PTN_STATUS_EDGE_LOADED (s.good 4)).dlkMatch
  let s := { s with twn := { s.twn with slotLz := p.slotLz } }
  (s.modSio fun x => { x with evSev := p.evSev }).modSec fun x => { x with policy := p.policy }

/-- Every check of the configuration in force (R61, R91, R272, R278, R313, R367, R436). -/
def State.cfgOkWith (s : State) (p : Parsed) : Bool :=
  let tbc := tbcOf p.net.tbcCode
  p.overParams.isEmpty && s.schedFits p.sched p.net && p.gwy.check.isNone && s.loopCfgOk && s.twinCfgOk && s.safetyCfgOk tbc &&
    (p.bank.check (windowClk tbc) [p.net.tbcCode] (2 ^ 64)).isNone

/-! ### The scrub pace (R217, R218) -/

/-- Shortest P in ns that the pace reaches, and p for the module's role. -/
def State.scrubMin (s : State) : Nat := (if s.md.role = .standby then 37 else 23) * s.tbc
def State.scrubPace (s : State) (n : Nat) : Nat :=
  let p := s.rd (Reg.MIU_CFG_SCRUB_S n) * 1000000000
  min (if s.md.role = .standby then 40960 else 65536) ((1507328 * s.tbc + p - 1) / p)

/-- Put the pace of the role and of T_bc into `PACE` of every booted channel, with the event of R218. -/
def State.scrubRegs (s : State) (event : Bool) : State :=
  let s := foldSt (Ch.all.filter s.booted) (fun c s => s.wr (Reg.MIU_SCRUB_PACE (Ch.num c)) (s.scrubPace (Ch.num c))) s
  if event && s.rd (Reg.MIU_CFG_SCRUB_S 0) * 1000000000 < s.scrubMin then s.diag 3 Src.chan 0 0x00301000 else s

/-! ### The first restart -/

/-- The retained body of the retained copy. -/
def State.retBody (s : State) : FMap Word :=
  (List.range Ret.words).foldl (fun m k =>
    FMap.set 0 m k (BitVec.ofNat 32 (leNat (Mem.read s.rpc.store (Ret.bodyAt + 4 * k) 4)))) []

/-- The first condition of R144 that fails for a bank, as `COLD_REASON` shows it; 0 where the copy is used. -/
def State.coldReason (s : State) (b : Bank) : Nat :=
  if !b.warm then 1
  else
    match s.nvRead 0 (Ret.markAt + 4) with
    | none => 6
    | some l =>
      if leAt l Ret.discardAt 4 = Ret.discardMark then 5
      else if leAt l Ret.markAt 4 ≠ Ret.validMark then 2
      else if leAt l 12 4 ≠ 25600 || (crc32c (l.take 36 ++ bytesAt l Ret.bodyAt 25600)).toNat ≠ leAt l 36 4 then 3
      else if leAt l 8 4 ≠ b.layoutId.toNat then 4
      else 0

/-- Clear the valid mark before the first program cycle, at once or as soon as PD-H returns (R144). -/
def State.clearMark (s : State) : State :=
  if s.nvAlive then (s.nvWrite Ret.markAt (natLE 4 0)).modRpc fun x => { x with markDue := false }
  else s.modRpc fun x => { x with markDue := true }

/-- Restart of the channels at the release of P or M (R138, R144). -/
def State.firstRestart (s : State) (cs : List Ch) (b : Bank) : State :=
  let r := s.coldReason b
  let ret := if r = 0 then s.retBody else []
  let s := foldSt cs (fun c s => s.restartCh c ret) s
  let s := if b.warm then s.nvHeal 0 (Ret.markAt + 4) else s
  let s := (s.wr Reg.CMD_RET_STATUS_COLD_REASON r).wrb Reg.CMD_RET_STATUS_LAST_WARM (r = 0)
  s.clearMark.restartModule (if r = 0 then .warm else .cold)

/-! ### One channel -/

/-- A channel's controller boots from a copy that it has opened: bank, firmware and plug registers (R471, R506, R532). -/
def State.bootChan (s : State) (c : Ch) (copy : Nat) (o : Opened) : State :=
  let n := Ch.num c
  let (ms, s) := s.take
  let fw := Config.fwVersion (o.text 1)
  let s := s.modCh c fun h => { h with run := bankOf (o.text 2), cfgOk := true, attempt := some Attempt.fresh }
  let s := ((s.wr (Reg.SEC_CH_FW_COPY n) copy).wr (Reg.SEC_CH_FW_VERSION n) fw).wr (Reg.CCU_STATUS_FW_VERSION n) fw
  let s := (s.wr (Reg.CCU_STATUS_STAGE n) 4).wr (Reg.CCU_BOOT_BOOT_MS n) ms
  let s := s.plugRegs c copy
  (s.inc (Reg.CCU_BOOT_BOOTS n)).runRegs c

/-- A channel whose configuration is invalid still runs its controller (Table 19-3). -/
def State.bootInvalid (s : State) (c : Ch) : State :=
  let (ms, s) := s.take
  let n := Ch.num c
  (((s.modCh c fun h => { h with cfgOk := false }).wr (Reg.CCU_STATUS_STAGE n) 2).wr (Reg.CCU_BOOT_BOOT_MS n) ms).inc
    (Reg.CCU_BOOT_BOOTS n)

/-- Channels that run different firmware copies (R495); where all three run one copy, it becomes the start copy (R494). -/
def State.fwRegs (s : State) : State :=
  let cs := Ch.all.filter s.booted
  let copies := (cs.map fun c => s.rd (Reg.SEC_CH_FW_COPY (Ch.num c))).eraseDups
  let s := s.wrb Reg.SEC_STATUS_FW_MIXED (1 < copies.length)
  match copies with
  | [k] => if cs.length = 3 then s.modSec fun x => { x with start := k } else s
  | _ => s

/-- A channel whose OTP copy holds a bit that fewer than two copies hold (R482). -/
def State.otpSound (s : State) (c : Ch) : Bool := s.sec.otpCh.get c = s.otpVal

/-- A channel's check of a copy: the container, its OTP copy and its bank. -/
def State.chanCheck (s : State) (c : Ch) (copy : Nat) : Opened × State :=
  let o := s.openCopy c copy none
  (o, (s.noteCheck c copy o).notePages c copy)

/-- A channel boots after a channel reset (R204, R222, R487): its configuration checked, its own plumb check to come. -/
def State.bootAlone (s : State) (c : Ch) : State :=
  let n := Ch.num c
  let copy := (s.ch c).bootCopy.getD s.sec.start
  let (o, s) := s.chanCheck c copy
  let s := s.modCh c fun h => { h with st := .excluded }
  let bank := if o.reason = 0 then bankOf (o.text 2) else none
  let found := bank.bind s.bankBreach
  let s := if bank.isSome then s.breachRegs c (found.getD Breach.none) else s
  if bank.isNone || !s.otpSound c || found.isSome then
    let s := (s.bootInvalid c).wr (Reg.MOD_CH_STATE_LAST_CAUSE n) 0x19
    s.fwRegs.prgRegs
  else
    let s := s.bootChan c copy o
    let s := s.modCh c fun h => { h with plumbLeft := 3 }
    let s := (s.restartCh c []).wr Reg.VOT_RESYNC_STAGE 1 |>.wr Reg.VOT_RESYNC_CHANNEL n
    (s.scrubRegs false).fwRegs.prgRegs.secRegs

/-! ### The module -/

/-- Every domain but PD-K has loaded its options, has given up, or is not there to load (R519, R520). -/
def State.loadsEnded (s : State) : Bool :=
  [1, 2, 3, 4, 5, 6, 7].all fun d =>
    natBit (s.rd Reg.RPC_LOAD_LOAD_DONE) d || natBit (s.rd Reg.RPC_LOAD_LOAD_ERR) d || !s.good d

/-- Set the verdict of BOOT, taken at the next Tc (R24, Table 1-5). -/
def State.verdict (s : State) (cause : Nat) : State := s.modMd fun x => { x with bootVerdict := some cause }

/-- The switches as the module uses them (R268, R269). -/
def State.useSwitches (s : State) (v : BitVec 22) : State :=
  ((s.wr Reg.SIO_SWITCH_SW_N (swN v)).wr Reg.SIO_SWITCH_SW_S (swS v)).wr Reg.SIO_SWITCH_SW_D (swD v)

/-- The digest of the last start against the one recorded in the retained store (R490); `mig` as `MIGRATED`. -/
def State.noteDigest (s : State) (digest : List Byte) (mig : Nat) : State :=
  let low := digest.take 16
  let s := s.nvHeal 0xF080 20
  if s.nvRecord 0xF080 20 = some low then s
  else
    let s := s.enqueue (s.event 2 0x05 Src.sec 0 [3, leAt low 0 4, leAt low 4 4, leAt low 8 4, leAt low 12 4, mig * 8])
    (s.wrb Reg.SEC_STATUS_FIRST_MIGR true).nvWrite 0xF080 (withCrc low)

/-- A valid start: the configuration in force, every channel with its copy booted, and the first restart. -/
def State.startWith (s : State) (p : Parsed) (os : List (Ch × Opened)) (valid : List Ch) (digest : List Byte) : State :=
  let copy := s.sec.start
  let s := foldSt os (fun e s => if valid.contains e.1 then s.bootChan e.1 copy e.2 else s.bootInvalid e.1) s
  let s := s.modSec fun x => { x with digest := digest, runCopy := copy }
  let mig := match os.find? fun e => valid.contains e.1 with
    | some e => e.2.migrated
    | none => 0
  let s := ((s.wr Reg.SEC_STATUS_MIGRATED mig).noteDigest digest mig).firstRestart valid p.bank
  let s := foldSt loops4 (fun n s => s.loadTrims n) s
  s.wcetRegs.secRegs.verdict 2

/-- The check of the containers and of what they hold, for the channels that boot (R472 to R487). -/
def State.checkPlugs (s : State) (cs : List Ch) : State :=
  let copy := s.sec.start
  let s := s.otpComplete s.otpVal
  let (os, s) := cs.foldl (fun (p : List (Ch × Opened) × State) c =>
    let (o, s) := p.2.chanCheck c copy
    (p.1 ++ [(c, o)], s)) ([], s)
  let s := s.secRegs
  let invalid := fun (s : State) => (foldSt cs (fun c s => s.bootInvalid c) s).verdict 4
  if Ch.all.all fun c => !(s.plug c copy).descOk then (foldSt cs (fun c s => s.bootInvalid c) s).verdict 3
  else
    let good := (os.filter fun e => e.2.reason = 0 && s.otpSound e.1).map (·.1)
    match majority (good.map fun c => some (s.plug c copy).digest) with
    | none => invalid s
    | some dg =>
      let valid := good.filter fun c => (s.plug c copy).digest = dg
      match os.find? fun e => valid.contains e.1 with
      | none => invalid s
      | some (_, o) =>
        let d0 := (Config.sha384 (o.text 6)).headD 0
        let s := (s.wr Reg.SIO_SWITCH_DIGEST0 d0.toNat).wrb Reg.SIO_SWITCH_MISMATCH (s.rd Reg.SIO_SWITCH_SW_S ≠ d0.toNat)
        if s.rdb Reg.SIO_SWITCH_MISMATCH then invalid s
        else
          match o.parse with
          | none => invalid (if o.gwyBank.isNone then s.gwyReport (some (false, 0, 8)) else s)
          | some p =>
            let t := s.applyParsed p
            if t.cfgOkWith p then t.startWith p os valid dg
            else
              let bad := (p.bank.check (windowClk (tbcOf p.net.tbcCode)) [p.net.tbcCode] (2 ^ 64)).getD Breach.none
              invalid ((foldSt valid (fun c s => s.breachRegs c bad) (s.dlkExpects p)).gwyReport p.gwy.check |>.logParams p.overParams)

/-- The check at the end of BOOT (R26, R268, R487, R488, R520, R521). -/
def State.bootCheck (s : State) : State :=
  let src := s.rd Reg.RPC_STRAP_BOOT_SRC
  let cs := Ch.all.filter fun c => (s.ch c).st = .booting && natBit (s.rd Reg.RPC_LOAD_LOAD_DONE) (Ch.num c + 1)
  if natBit (s.rd Reg.RPC_LOAD_LOAD_ERR) 4 || natBit (s.rd Reg.RPC_LOAD_LOAD_ERR) 5 then s.verdict 0x1C
  else if 2 ≤ s.rd Reg.RPC_STRAP_CLK_MODE || src = 3 then s.verdict 0x04
  else
    match switchVote (cs.map s.sio.swAt.get) with
    | none => s.verdict 0x04
    | some v =>
      let s := (s.useSwitches v).wr Reg.PTN_CFG_NODE (swN v)
      if src ≠ 0 then s.verdict 0x03
      else if swN v = 0 then s.verdict 0x04
      else s.checkPlugs cs

/-- The verdict of BOOT at a Tc: HOLD, or INTEGRATE with the channels whose configuration is valid (Table 1-5). In HOLD no
channel executes; without a twin the role of a valid start is SOLO. -/
def State.takeVerdict (s : State) (cause : Nat) : State :=
  let s := s.modMd fun x => { x with bootVerdict := none }
  if cause ≠ 2 then
    (foldSt (Ch.all.filter fun c => (s.ch c).st = .booting) (fun c s => s.modCh c fun h => { h with st := .excluded }) s).setMode
      .hold cause 0
  else
    let s := foldSt (Ch.all.filter fun c => (s.ch c).st = .booting) (fun c s =>
      if (s.ch c).cfgOk then s.modCh c fun h => { h with st := .vote, attempt := none }
      else (s.modCh c fun h => { h with st := .excluded }).exclude c 0x19) s
    let s := s.setMode .integrate 0x02 0
    let s := if s.twin then s else s.setRole .solo
    (s.scrubRegs true).fwRegs.prgRegs

end Sys2Proof.Machine
end

