-- ==== Sys2Proof/Machine/Sec.lean ====
section
/-! DEFINITION. Sessions of the two ports (R500 to R503), the configuration and security commands of Table 17-11, and the
service port's staging buffer (Table 17-9). -/

namespace Sys2Proof

/-- Length of the staging buffer. -/
def stagingLen : Nat := 33554432

/-- The descriptor of a stored copy (Table 17-1). -/
def descOf (t len : Nat) (digest : List Byte) : List Byte :=
  Machine.withCrc (natLE 1 t ++ natLE 3 0 ++ natLE 4 0x434F5059 ++ digest ++ natLE 4 len)

/-- Index of the credential with a digest that may be used on a port. -/
def Policy.find (p : Policy) (digest : List Byte) (port : CmdPort) : Option Nat :=
  let ok := fun (c : Cred) => c.digest = digest && (match port with
    | .host => c.host
    | .service => c.service)
  let i := p.creds.findIdx ok
  if i < p.creds.length then some i else none

/-- Matrix period of a configuration in ns. -/
def NetCfg.period (c : NetCfg) : Nat := Machine.tbcOf c.tbcCode * 2 ^ c.mCode

end Sys2Proof

namespace Sys2Proof.Machine

/-! ### Sessions -/

def State.sesOf (s : State) : CmdPort → SesPort
  | .host => s.sec.host
  | .service => s.sec.svc

def State.modSes (s : State) (p : CmdPort) (f : SesPort → SesPort) : State :=
  s.modSec fun x => match p with
    | .host => { x with host := f x.host }
    | .service => { x with svc := f x.svc }

/-- A port's session is open. -/
def State.sesIsOpen (s : State) : CmdPort → Bool
  | .host => s.rd Reg.SEC_SES_STAT_HOST_STATE = 2
  | .service => s.rdb Reg.SEC_SES_STAT_SVC_OPEN

/-- Close a port's session and renew the challenge (R501, R502). -/
def State.closeSes (s : State) (p : CmdPort) : State :=
  let was := s.sesIsOpen p
  let s := match p with
    | .host => ((s.wr Reg.SEC_SES_STAT_HOST_STATE 0).wr Reg.SEC_SES_STAT_HOST_ROLES 0).wr Reg.SEC_SES_STAT_CRED 0
    | .service => ((s.wrb Reg.SEC_SES_STAT_SVC_OPEN false).wr Reg.SEC_SES_STAT_SVC_ROLES 0)
  let s := s.modSec fun x => { x with challenge := x.challenge + 1 }
  if was then s.diag 3 Src.sec 0 0x00F0010C else s

/-- A failed opening; the fifth within 600 s locks the port's openings (R502). -/
def State.sesFail (s : State) (p : CmdPort) : State :=
  let fails := ((s.sesOf p).fails.filter fun t => s.tm.opNs < t + 600000000000) ++ [s.tm.opNs]
  let lock : Bool := decide (5 ≤ fails.length)
  let s := (s.modSes p fun x => { x with fails := fails, locked := lock }).inc Reg.SEC_SES_STAT_FAILS
  let s := match p with
    | .host => s.wr Reg.SEC_SES_STAT_HOST_STATE (if lock then 4 else 3)
    | .service => s
  s.diag (if lock then 5 else 3) Src.sec 0 0x00F0010C

/-- A session opens with roles (R501, R503). -/
def State.sesOpened (s : State) (p : CmdPort) (cred roles : Nat) : State :=
  let s := match p with
    | .host => ((s.wr Reg.SEC_SES_STAT_HOST_STATE 2).wr Reg.SEC_SES_STAT_HOST_ROLES roles).wr Reg.SEC_SES_STAT_CRED cred
    | .service => (s.wrb Reg.SEC_SES_STAT_SVC_OPEN true).wr Reg.SEC_SES_STAT_SVC_ROLES roles
  (s.modSes p fun x => { x with last := s.tm.opNs, fails := [] }).diag 3 Src.sec 0 0x00F0010C

/-- Recovery firmware serves the service port only (R488). -/
def State.recovery (s : State) : Bool := s.md.mode = .hold && s.rd Reg.RPC_STRAP_BOOT_SRC = 2

/-- `SES_OPEN` (R501): a write of 1 to `OPEN` starts an attempt; a port has one session, and a locked port takes none. -/
def State.sesOpenWrite (s : State) (w : Word) : State :=
  let st := s.rd Reg.SEC_SES_STAT_HOST_STATE
  if !w.getLsbD 0 || s.recovery || st = 1 || st = 2 then s
  else if s.sec.host.locked then s.wr Reg.SEC_SES_STAT_HOST_STATE 4
  else s.wr Reg.SEC_SES_STAT_HOST_STATE 1

def execSesOpen (val : Word) (s : State) : Host.Outcome State Fault Refusal :=
  .next (if s.hostUp then s.sesOpenWrite val else s)

/-- The authentication record of Table 17-8 in host memory, judged against the policy and the challenge: the credential and
the roles requested (R501). -/
def State.sesJudge (s : State) : Option (Nat × Nat) :=
  let l := Mem.read s.hbr.hostMem (s.rd Reg.SEC_SES_ADDR_LO_ADDR_LO + s.rd Reg.SEC_SES_ADDR_HI_ADDR_HI * 4294967296) 780
  let roles := leAt l 4 4
  match s.sec.policy.find (Config.sha384 (bytesAt l 8 388)) .host with
  | none => none
  | some i =>
    let have' := ((s.sec.policy.creds[i]?).map (·.roles)).getD 0
    if s.hbr.busMaster && leAt l 0 4 = 0x53455331 && roles ≤ 7 && roles &&& have' = roles &&
        Config.pssVerify (bytesAt l 8 384) (bytesAt l 392 4) (bytesAt l 0 396 ++ Config.challenge s.sec.challenge)
          (bytesAt l 396 384) then some (i, roles)
    else none

/-- `SES_VERIFIED` (R501): the attempt ends, and the challenge is renewed. -/
def execSesVerified (s : State) : Host.Outcome State Fault Refusal :=
  .next (if s.hostAlive && s.rd Reg.SEC_SES_STAT_HOST_STATE = 1 then
      let t := match s.sesJudge with
        | some (i, r) => s.sesOpened .host i r
        | none => s.sesFail .host
      t.modSec fun x => { x with challenge := x.challenge + 1 }
    else s)

/-- `SES_CLOSE` (R502): a write of 1 to `CLOSE`. -/
def State.sesCloseWrite (s : State) (w : Word) : State := if w.getLsbD 1 then s.closeSes .host else s

def execSesClose (val : Word) (s : State) : Host.Outcome State Fault Refusal :=
  .next (if s.hostUp then s.sesCloseWrite val else s)

/-- `SESSION_IDLE_TIMEOUT` (R502). -/
def execSessionIdleTimeout (port : CmdPort) (s : State) : Host.Outcome State Fault Refusal :=
  .next (if s.sesIsOpen port && (s.sesOf port).last + s.sec.policy.idle * 1000000000 ≤ s.tm.opNs + s.tbc then s.closeSes port
    else s)

/-- `OPENING_LOCKOUT_END` (R502): 600 s after the opening that locked the port, to within a cycle. -/
def execOpeningLockoutEnd (port : CmdPort) (s : State) : Host.Outcome State Fault Refusal :=
  .next (if (s.sesOf port).locked && (s.sesOf port).fails.getLastD 0 + 600000000000 ≤ s.tm.opNs + s.tbc then
      let s := s.modSes port fun x => { x with locked := false, fails := [] }
      match port with
      | .host => if s.rd Reg.SEC_SES_STAT_HOST_STATE = 4 then s.wr Reg.SEC_SES_STAT_HOST_STATE 0 else s
      | .service => s
    else s)

/-- `SVC_TLS_OPEN` (R503): a TLS 1.3 connection whose client key is a listed credential is the session. -/
def execSvcTlsOpen (keyDigest : List Byte) (tlsOk : Bool) (s : State) : Host.Outcome State Fault Refusal :=
  .next (if !s.hostAlive || s.rdb Reg.SEC_SES_STAT_SVC_OPEN || s.sec.svc.locked then s
    else
      match (if tlsOk then s.sec.policy.find keyDigest .service else none) with
      | some i => s.sesOpened .service i (((s.sec.policy.creds[i]?).map (·.roles)).getD 0)
      | none => s.sesFail .service)

/-- `SVC_TLS_CLOSE` (R503). -/
def execSvcTlsClose (s : State) : Host.Outcome State Fault Refusal :=
  .next (if s.rdb Reg.SEC_SES_STAT_SVC_OPEN then s.closeSes .service else s)

/-- `SVC_COMMAND` (Table 17-9, type 1). -/
def execSvcCommand (w0 w1 w2 w3 : Word) (chainageNs : Nat) (s : State) : Host.Outcome State Fault Refusal :=
  .next (if s.svcUp then s.submitWords .service w0 w1 w2 w3 chainageNs false else s)

/-- `SVC_STAGE_WRITE` (Table 17-9, type 4): 1 to 4,096 bytes within the buffer; any other message is rejected and counted (R13). -/
def execSvcStageWrite (off : Nat) (data : List Byte) (s : State) : Host.Outcome State Fault Refusal :=
  .next (if !s.svcUp then s
    else if 1 ≤ data.length && data.length ≤ 4096 && off + data.length ≤ stagingLen then
      s.modSec fun x => { x with staging := Mem.write x.staging off data }
    else s.accErr0 1 false off)

/-- `SVC_STAGE_READ` (Table 17-9, type 5). -/
def execSvcStageRead (off len : Nat) (s : State) : Host.Outcome State Fault Refusal :=
  .next (if !s.svcUp then s
    else if 1 ≤ len && len ≤ 4096 && off + len ≤ stagingLen then
      s.modHbr fun x => { x with reply := Mem.read s.sec.staging off len }
    else s.accErr0 1 false off)

/-! ### The memory that a command names -/

/-- An address of `n` bytes lies in what the port reaches: host memory, or the staging buffer (R491). -/
def reachOk (p : CmdPort) (addr n : Nat) : Bool :=
  match p with
  | .host => true
  | .service => addr + n ≤ stagingLen

/-- Bytes that SEC fetches for a command; none where the host's memory cannot be reached. -/
def State.fetchMem (s : State) (p : CmdPort) (addr n : Nat) : Option (List Byte) :=
  match p with
  | .host => if s.hbr.busMaster then some (Mem.read s.hbr.hostMem addr n) else none
  | .service => some (Mem.read s.sec.staging addr n)

/-! ### The copies -/

/-- `CFG_STORE` (R491, R493): the job is under way. -/
def applyCfgStore (port : CmdPort) (w1 w2 w3 : Word) (s : State) : CmdRes State :=
  let len := w3.toNat % 2 ^ 28
  let t := w3.toNat / 2 ^ 28 % 8
  let copy := w3.toNat / 2 ^ 31
  let addr := arg64 w1 w2
  needs s.fromHold St.wrongState <|
  needs (1 ≤ len && len ≤ 29358080 && t ≤ 4 && reachOk port addr len) St.badArg <|
  needs s.sec.job.isNone St.busy <|
  needs (s.md.mode = .hold || (copy ≠ s.sec.start && !s.copyHolds copy (·.run) && !s.copyHolds copy (·.uc))) St.wrongState <|
  let job : StoreJob := { copy := copy, port := port, addr := addr, len := len, tcode := t, stage := 1, data := none }
  let s := s.modSec fun x => { x with job := some job }
  let s := ((s.wr Reg.SEC_STORE_STATE 1).wr Reg.SEC_STORE_COPY copy).wr Reg.SEC_STORE_CH_OK 0
  .ok ((s.wr Reg.SEC_STORE_REASON 0).wr Reg.SEC_STORE_PAGES 0)

/-- A store ends without a valid copy (R492). -/
def State.storeFailed (s : State) (reason : Nat) : State :=
  ((s.modSec fun x => { x with job := none }).wr Reg.SEC_STORE_STATE 6).wr Reg.SEC_STORE_REASON reason

/-- Set a copy of one channel's flash. -/
def State.setPlug (s : State) (c : Ch) (copy : Nat) (p : PlugCopy) : State :=
  s.modSec fun x => { x with plug := FMap.set PlugCopy.erased x.plug (Ch.num c * 2 + copy) p }

/-- Erase a copy in all three devices (R491 step 2). -/
def State.eraseCopy (s : State) (copy : Nat) : State := foldSt Ch.all (fun c s => s.setPlug c copy PlugCopy.erased) s

/-- Steps 2 to 5 of R491 on a container that passed its checks: the devices whose read-back matched take the descriptor. -/
def State.writeCopy (s : State) (j : StoreJob) (l : List Byte) (readBack : BitVec 3) (writeOk : Bool) : State :=
  let digest := Config.sha384 l
  let ok := Ch.all.filter fun c => writeOk && readBack.getLsbD (Ch.num c) && s.good (Ch.num c + 1)
  let s := s.eraseCopy j.copy
  let s := foldSt ok (fun c s => s.setPlug c j.copy
    { desc := descOf (8 * (j.tcode + 1)) l.length digest, body := l, errs := [] }) s
  let s := ((s.modSec fun x => { x with job := none }).wr Reg.SEC_STORE_CH_OK (Ch.mask ok)).wr Reg.SEC_STORE_PAGES
    ((l.length + 1023) / 1024)
  if 2 ≤ ok.length then (s.wr Reg.SEC_STORE_STATE 5).wr Reg.SEC_STORE_REASON 0 else s.storeFailed 14

/-- The container that a store names: as SEC read it in step 1, or fetched and checked now (R491). DEDUCED (log 105): of the sealed
switches only `SW-N` decides here, in check 2. -/
def State.storeFetch (s : State) (j : StoreJob) : Except Nat (List Byte) :=
  match j.data with
  | some l => .ok l
  | none =>
    match s.fetchMem j.port j.addr j.len with
    | none => .error 15
    | some l =>
      let o := s.openContainer l j.len
      if o.reason = 0 then .ok (l.take (contLength l)) else .error o.reason

/-- The host stops serving: that fails a store which still reads its container (R492). -/
def State.storeHostGone (s : State) : State :=
  match s.sec.job with
  | some j => if j.port = CmdPort.host && j.stage = 1 then s.storeFailed 15 else s
  | none => s

/-- A store goes on to its next stage (R491): read and checked, the copy erased; erased, the pages written; written, read back. -/
def State.storeNext (s : State) (j : StoreJob) : State :=
  let go := fun (s : State) (k : Nat) (d : Option (List Byte)) =>
    (s.modSec fun x => { x with job := some { j with stage := k, data := d } }).wr Reg.SEC_STORE_STATE k
  if j.stage = 1 then
    match s.storeFetch j with
    | .error r => (s.storeFailed r).secRegs
    | .ok l => go ((s.eraseCopy j.copy).secRegs) 2 (some l)
  else if j.stage = 2 then go s 3 j.data
  else if j.stage = 3 then (go s 4 j.data).wr Reg.SEC_STORE_PAGES (((j.data.getD []).length + 1023) / 1024)
  else s

/-- A store under way from Tc to Tc: whether its stage ends before the next one is open. -/
def State.storeTick (s : State) : State :=
  match s.sec.job with
  | none => s
  | some j =>
    if !s.hostAlive then s
    else
      let (v, s) := s.take
      if Config.freeBool v then s.storeNext j else s

/-- A store under way is interrupted by a loss of supply or a reset (R492): which descriptors were written is open while it verifies. -/
def State.storeInterrupted (s : State) : State :=
  match s.sec.job with
  | none => s
  | some j =>
    let s := s.modSec fun x => { x with job := none }
    match j.data with
    | none => s
    | some l =>
      if j.stage ≠ 4 then s
      else foldSt Ch.all (fun c s =>
        let (v, s) := s.take
        if Config.freeBool v && s.good (Ch.num c + 1) then
          s.setPlug c j.copy { desc := descOf (8 * (j.tcode + 1)) l.length (Config.sha384 l), body := l, errs := [] }
        else s) s

/-- `CFG_START` (Table 17-11). -/
def applyCfgStart (w1 : Word) (s : State) : CmdRes State :=
  let copy := w1.toNat % 2
  needs s.fromHold St.wrongState <|
  needs (2 ≤ (s.copyValidIn copy).length) St.badArg <|
  .ok (s.modSec fun x => { x with start := copy }).prgRegs

/-! ### Schedules -/

/-- `SCH_LOAD` (R496): the table of the next epoch, or the reason of its refusal in `SEC_EPOCH`. -/
def applySchLoad (w1 : Word) (s : State) : CmdRes State :=
  needs (s.fromStartup && !s.rdb Reg.SEC_STATUS_FW_MIXED) St.wrongState <|
  needs (s.rd Reg.SEC_EPOCH_STATE ≠ 2) St.busy <|
  let o := s.openAny (w1.toNat % 2)
  let refuse := fun (r : Nat) => (((s.wr Reg.SEC_EPOCH_STATE 6).wr Reg.SEC_EPOCH_REASON r).wrb Reg.PTN_STATUS_NEXT_LOADED false).modPtn
    fun x => { x with nextSched := [], nextNet := NetCfg.none }
  if o.reason ≠ 0 then .ok (refuse o.reason)
  else
    match (o.sec 3).bind fun e => Config.parseSched e.1 e.2 (o.text 4) with
    | none => .ok (refuse 4)
    | some (m, cfg, _) =>
      if s.schedFits m cfg then
        .ok ((((s.modPtn fun x => { x with nextSched := m, nextNet := cfg }).wrb Reg.PTN_STATUS_NEXT_LOADED true).wr
          Reg.SEC_EPOCH_STATE 1).wr Reg.SEC_EPOCH_REASON 0)
      else .ok ((refuse 4).logParams (schedOverParams m))

/-- `SCH_COMMIT` (R496). -/
def applySchCommit (w1 w2 w3 : Word) (s : State) : CmdRes State :=
  let t := arg64 w1 w2
  let p := s.tbc * s.mx
  needs (s.fromStartup && !s.rdb Reg.SEC_STATUS_FW_MIXED && s.timeValid &&
    (s.rd Reg.SEC_EPOCH_STATE = 1 || s.rd Reg.SEC_EPOCH_STATE = 2)) St.wrongState <|
  needs (t % p = 0 && t % s.ptn.nextNet.period = 0 && s.tm.tcNs + 2 * p ≤ t && t ≤ s.tm.tcNs + 86400000000000 &&
    s.tmu.epoch < w3.toNat) St.badArg <|
  let s := s.modSec fun x => { x with epochNext := w3.toNat, epochTgt := t }
  .ok ((((s.wr Reg.SEC_EPOCH_STATE 2).wr Reg.SEC_EPOCH_NEXT_EPOCH w3.toNat).wr Reg.SEC_EPOCH_TGT_LO_T_LO t).wr
    Reg.SEC_EPOCH_TGT_HI_T_HI (t / 4294967296))

/-- The pending epoch commit ends with a state of `SEC_EPOCH`. -/
def State.epochEnd (s : State) (st : Nat) : State :=
  ((s.wr Reg.SEC_EPOCH_STATE st).wr Reg.SEC_EPOCH_TGT_LO_T_LO 0).wr Reg.SEC_EPOCH_TGT_HI_T_HI 0

/-- `SCH_CANCEL` (Table 17-11). -/
def applySchCancel (s : State) : CmdRes State :=
  needs (s.fromStartup && s.rd Reg.SEC_EPOCH_STATE = 2) St.wrongState <| .ok (s.epochEnd 1)

/-! ### Firmware -/

/-- `FW_ACTIVATE` (R494): the channel is reset onto the firmware of the copy. -/
def applyFwActivate (w1 : Word) (s : State) : CmdRes State :=
  let n := w1.toNat % 4
  let copy := w1.toNat / 256 % 2
  let c := Ch.at n
  let run : Bool := match s.md.mode with
    | .run3 | .run2 => true
    | .maint => !s.md.debug
    | _ => false
  needs run St.wrongState <|
  needs (n ≤ 2) St.badArg <|
  needs (s.voters.length = 3 && s.copyValid c copy && (s.copyBank c copy).isSome &&
    bankId (s.copyBank c copy) = bankId s.runBank) St.wrongState <|
  .ok (((s.wrb (Reg.RPC_CAUSE_CH_FW n) true).chAssert c).modCh c fun h => { h with bootCopy := some copy })

/-! ### Keys -/

/-- `SEC_ROLLBACK` (R483): the counter rises to the security version of the start copy. -/
def applySecRollback (s : State) : CmdRes State :=
  needs (s.md.mode = .maint) St.wrongState <|
  let v := min 64 (leAt (s.copyBytes s.sec.start) 20 4)
  let o := { Otp.blank with roll := BitVec.ofNat 64 (2 ^ v - 1) }
  .ok ((s.modSec fun x => { x with otp := x.otp.union o }).otpComplete o).keyRegs

/-- A signature block over a message verifies against a live root (R480). -/
def State.signedBy (s : State) (sig msg : List Byte) : Bool := s.rootOk sig && sigPss sig msg && sigSlh sig msg

/-- Root slot that a copy's container is signed under. -/
def State.copyRoot (s : State) (copy : Nat) : Option Nat :=
  if (s.copyValidIn copy).isEmpty then none else some (leAt (contSig (s.copyBytes copy)) 0 1)

/-- `SEC_REVOKE` (R484). -/
def applySecRevoke (port : CmdPort) (w1 w2 : Word) (s : State) : CmdRes State :=
  let a := arg64 w1 w2
  let n := 8 + sigLen
  needs (s.md.mode = .maint) St.wrongState <|
  match (if reachOk port a n then s.fetchMem port a n else none) with
  | none => .error St.badArg
  | some l =>
    let k := leAt l 4 1
    let sig := bytesAt l 8 sigLen
    needs (leAt l 0 4 = 0x5245564B && k ≤ 2 && allZero (bytesAt l 5 3) && leAt sig 0 1 ≠ k && s.signedBy sig (l.take 448) &&
      ([0, 1, 2].any fun j => j ≠ k && s.rootLive j) && s.copyRoot 0 ≠ some k && s.copyRoot 1 ≠ some k) St.badArg <|
    let o := { Otp.blank with revoked := BitVec.ofNat 3 (2 ^ k) }
    .ok ((s.modSec fun x => { x with otp := x.otp.union o }).otpComplete o).keyRegs

/-- `SEC_CERT_GET` (R486): the certificate goes to host memory, or into the staging buffer. -/
def applySecCertGet (port : CmdPort) (w1 w2 : Word) (s : State) : CmdRes State :=
  let a := arg64 w1 w2
  let l := Config.cert.take 2048
  needs s.fromHold St.wrongState <|
  needs (reachOk port a 2048) St.badArg <|
  match port with
  | .host => needs s.hbr.busMaster St.wrongState <| .ok (s.modHbr fun x => { x with hostMem := Mem.write x.hostMem a l })
  | .service => .ok (s.modSec fun x => { x with staging := Mem.write x.staging a l })

/-- Fleet key slots that the headers of valid copies name. -/
def State.slotsNamed (s : State) : List Nat :=
  ([0, 1].filter fun k => !(s.copyValidIn k).isEmpty).map fun k => leAt (s.copyBytes k) 18 1

/-- `SEC_KEY_IMPORT` (R485). -/
def applySecKeyImport (port : CmdPort) (w1 w2 : Word) (s : State) : CmdRes State :=
  let a := arg64 w1 w2
  let n := 400 + sigLen
  needs (s.md.mode = .maint || s.md.mode = .hold) St.wrongState <|
  match (if reachOk port a n then s.fetchMem port a n else none) with
  | none => .error St.badArg
  | some l =>
    let k := leAt l 4 1
    needs (leAt l 0 4 = 0x4B455931 && k ≤ 1 && allZero (bytesAt l 5 3) && allZero (bytesAt l 12 4) &&
      s.signedBy (bytesAt l 400 sigLen) (l.take 840)) St.badArg <|
    match Config.sealKey (bytesAt l 16 384) with
    | none => .error St.badArg
    | some key =>
      needs (!s.slotsNamed.contains k) St.wrongState <|
      .ok (s.modSec fun x => { x with fleet := FMap.set none x.fleet k (some key) }).keyRegs

def execCfgStore (r : CmdRec) (s : State) : Host.Outcome State Fault Refusal :=
  .next (s.cmd 0xA0 r (applyCfgStore r.port r.w1 r.w2 r.w3))
def execCfgStart (r : CmdRec) (s : State) : Host.Outcome State Fault Refusal := .next (s.cmd 0xA1 r (applyCfgStart r.w1))
def execSchLoad (r : CmdRec) (s : State) : Host.Outcome State Fault Refusal := .next (s.cmd 0xA2 r (applySchLoad r.w1))
def execSchCommit (r : CmdRec) (s : State) : Host.Outcome State Fault Refusal :=
  .next (s.cmd 0xA3 r (applySchCommit r.w1 r.w2 r.w3))
def execSchCancel (r : CmdRec) (s : State) : Host.Outcome State Fault Refusal := .next (s.cmd 0xA4 r applySchCancel)
def execFwActivate (r : CmdRec) (s : State) : Host.Outcome State Fault Refusal := .next (s.cmd 0xA5 r (applyFwActivate r.w1))
def execSecRollback (r : CmdRec) (s : State) : Host.Outcome State Fault Refusal := .next (s.cmd 0xA6 r applySecRollback)
def execSecRevoke (r : CmdRec) (s : State) : Host.Outcome State Fault Refusal :=
  .next (s.cmd 0xA7 r (applySecRevoke r.port r.w1 r.w2))
def execSecCertGet (r : CmdRec) (s : State) : Host.Outcome State Fault Refusal :=
  .next (s.cmd 0xA8 r (applySecCertGet r.port r.w1 r.w2))
def execSecKeyImport (r : CmdRec) (s : State) : Host.Outcome State Fault Refusal :=
  .next (s.cmd 0xA9 r (applySecKeyImport r.port r.w1 r.w2))

end Sys2Proof.Machine
end

