-- ==== Sys2Proof/Machine/Hbr.lean ====
section
/-! DEFINITION. The host bridge (R393 to R417, R556): reads and writes of BAR 0 from either port, refused accesses, the views of
BAR 2 and the image push, the host-port reset, and the keep-alive reset that a register write orders (R524 to R527). -/

namespace Sys2Proof.Machine

/-! ### Register words as they read -/

/-- A word of the force table (R151). -/
def State.forceWord (s : State) (off : Nat) : Nat :=
  match FMap.get none s.forces ((off - 0x201000) / 16) with
  | none => 0
  | some f =>
    match off % 16 with
    | 0 => f.sym.toNat
    | 4 => 2 ^ 31 + bitNat f.safety * 2 ^ 30 + bitNat f.word * 2 ^ 28 + f.addr
    | 8 => f.value.toNat
    | _ => 0

/-- A channel refreshed the edge watchdog within the last 1 s. -/
def State.wdgSeen (s : State) (c : Ch) : Bool :=
  let t := FMap.get 0 s.rpc.refresh (Ch.num c)
  t ≠ 0 && s.tm.opNs < t - 1 + 1000000000

/-- Re-power attempts of a domain within the last 60 minutes of operating time (R511). -/
def State.recentTries (s : State) (d : Nat) : List Nat :=
  (FMap.get [] s.rpc.attempts d).filter fun t => s.tm.opNs < t + 3600000000000

/-- Milliseconds since the latest refresh. -/
def State.wdgAge (s : State) : Nat :=
  let t := s.rpc.refresh.foldl (fun m (e : Nat × Nat) => if e.1 < 3 then max m e.2 else m) 0
  if t = 0 then 0 else min 2047 ((s.tm.opNs + 1 - t) / 1000000)

/-- The word of a register that the model computes from the state instead of storing it; none for the others. -/
def State.computed (s : State) (off : Nat) : Option Nat :=
  let b := off / 0x100000
  if off = 0x40 then some s.modStatus
  else if off = 0x50 || off = 0x54 || off = 0x58 then some (s.chStateWord (Ch.at ((off - 0x50) / 4)))
  else if off = 0x200418 then some (s.forceSafety * 65536 + s.forceCount)
  else if b = 2 && 0x201000 ≤ off then some (s.forceWord off)
  else if 3 ≤ b && b ≤ 5 && off % 0x100000 = 0x2000 then
    some (s.storedWord off - s.storedWord off % 2 + bitNat (s.wdgSeen (Ch.at (b - 3))))
  else if 0x780000 ≤ off && off < 0x7C0000 then some (FMap.get 0#32 s.ptn.sched ((off - 0x780000) / 4)).toNat
  else if 0x7C0000 ≤ off && off < 0x800000 then some (FMap.get 0#32 s.ptn.nextSched ((off - 0x7C0000) / 4)).toNat
  else if 0xC60000 ≤ off && off < 0xC62000 then some (FMap.get 0#32 s.gwy.cur.msgs ((off - 0xC60000) / 4)).toNat
  else if 0xC62000 ≤ off && off < 0xC64000 then some (FMap.get 0#32 s.gwy.next.msgs ((off - 0xC62000) / 4)).toNat
  else if 0xC80000 ≤ off && off < 0xC90000 then some (FMap.get 0#32 s.gwy.cur.routes ((off - 0xC80000) / 4)).toNat
  else if 0xC90000 ≤ off && off < 0xCA0000 then some (FMap.get 0#32 s.gwy.next.routes ((off - 0xC90000) / 4)).toNat
  else if off = 0xE00008 then some (s.storedWord off / 4 * 4 + s.md.role.code)
  else if 0xF00120 ≤ off && off < 0xF00140 then
    some (leNat (bytesAt (Config.challenge s.sec.challenge) (off - 0xF00120) 4))
  else if off = 0x1000018 then
    some (s.storedWord off - s.rd Reg.RPC_VKA_FROM_MAIN * 131072 + bitNat s.rpc.inRange * 131072)
  else if 0x1000040 ≤ off && off < 0x1000060 then
    let d := (off - 0x1000040) / 4
    some (s.storedWord off - s.rd (Reg.RPC_REPOWER_HOUR d) * 256 + min 3 (s.recentTries d).length * 256)
  else if off = 0x1000034 then
    some (s.rd Reg.RPC_WDG_FIRES * 2 ^ 24 + Ch.mask (Ch.all.filter s.wdgSeen) * 65536 + s.wdgAge)
  else none

/-- A register's word at this instant. -/
def State.liveWord (s : State) (off : Nat) : Nat := (s.computed off).getD (s.storedWord off)

/-- Registers held in a channel, in PD-F or in the edge, which the bridge answers from its copies (R397). -/
def copied (off : Nat) : Bool := laneBlock off || off / 0x100000 = 7 || (0x40 ≤ off && off < 0x60)

/-- Copied registers that the model computes. -/
def copiedComputed : List Nat := [0x40, 0x50, 0x54, 0x58, 0x302000, 0x402000, 0x502000, 0xE00008]

/-- The word of a register after its reset. -/
def resetWord (off : Nat) : Nat :=
  match Reg.fieldsAt off with
  | none => 0
  | some fs => fs.foldl (fun v f => v + f.rst * 2 ^ f.lsb) 0

/-- A register's word in the bridge's copies. -/
def State.copyWord (s : State) (off : Nat) : Nat :=
  if copiedComputed.contains off then FMap.get (resetWord off) s.hbr.copyWords off
  else if 0x780000 ≤ off && off < 0x800000 then FMap.get 0 s.hbr.copyWords off
  else
    match Reg.fieldsAt off with
    | none => 0
    | some fs => fs.foldl (fun v f => v + FMap.get f.rst s.hbr.copyRegs (Fld.key f) * 2 ^ f.lsb) 0

/-- `BRIDGE_REFRESH` (R397): at Tc + 20 µs. -/
def execBridgeRefresh (s : State) : Host.Outcome State Fault Refusal :=
  .next (if s.hostAlive then
      let words := copiedComputed.foldl (fun m off => FMap.put m off (s.liveWord off)) []
      let words := s.ptn.sched.foldl (fun m (e : Nat × Word) => FMap.put m (0x780000 + 4 * e.1) e.2.toNat) words
      let words := s.ptn.nextSched.foldl (fun m (e : Nat × Word) => FMap.put m (0x7C0000 + 4 * e.1) e.2.toNat) words
      s.modHbr fun x => { x with
        copyRegs := s.regs.filter fun (e : Nat × Nat) => copied (e.1 / 32), copyWords := words }
    else s)

/-- A read of a BAR 0 register with its side effect (R7, R353, R396, R397, R410). -/
def State.readBar0 (s : State) (off : Nat) : Nat × State :=
  if 0x101000 ≤ off && off < 0x101200 then ((s.hbr.msixWord ((off - 0x101000) / 4)).toNat, s)
  else if off = 0x101800 then (s.hbr.pba.toNat, s)
  else
    match Reg.fieldsAt off with
    | none => (0, s)
    | some _ =>
      if off = 0x200024 then (s.rd Reg.CMD_RES_HEAD0_WORD0, s.readResLegacy)
      else if off = 0x100018 then (s.rd Reg.HBR_INT_STATUS_INT, s.readIntLegacy)
      else if off = 0x800004 then
        let (v, s) := s.take
        let now := s.tmu.nowNs + v % max 1 (s.tbc - s.tmu.nowNs)
        ((s.tm.tcNs + now) % 2 ^ 32, { s with tmu := { s.tmu with nowNs := now } })
      else if copied off then (s.copyWord off, s)
      else (s.liveWord off, s)

/-! ### Refused accesses -/

/-- An error is signalled under AER: 0 Unsupported Request, 1 Poisoned TLP Received. -/
def State.aer (s : State) (k : Nat) : State := s.modHbr fun x => { x with aer := FMap.set 0 x.aer k (FMap.get 0 x.aer k + 1) }

/-- A read completes with data. -/
def State.completion (s : State) (c : Cpl) : State := s.modHbr fun x => { x with cpl := some c }

/-- `BAR0_REFUSED_ACCESS` (R395): a read completes with Unsupported Request status, a write is signalled. -/
def execBar0RefusedAccess (off : Nat) (write : Bool) (s : State) : Host.Outcome State Fault Refusal :=
  .next (if s.hostUp then
      let s := s.accErr0 1 false off
      if write then s.aer 0 else s.completion ⟨off, 0, false, true⟩
    else s)

/-- `UNASSIGNED_ACCESS` (R396): a read returns 0, a write is counted. -/
def execUnassignedAccess (off : Nat) (write : Bool) (s : State) : Host.Outcome State Fault Refusal :=
  .next (if s.hostUp && (Reg.fieldsAt off).isNone then
      (if write then s.accErr0 3 false off else s.completion ⟨off, 0, false, false⟩)
    else s)

/-- `POISONED_WRITE` (R556): to any offset but `CMD_REC[0]` to `CMD_REC[3]`. -/
def execPoisonedWrite (off : Nat) (s : State) : Host.Outcome State Fault Refusal :=
  .next (if s.hostUp && !(0x200000 ≤ off && off < 0x200010) then (s.accErr0 0 true off).aer 1 else s)

/-- `BAR2_WRITE` (R398). -/
def execBar2Write (off : Nat) (s : State) : Host.Outcome State Fault Refusal :=
  .next (if s.hostUp then (s.accErr 2 false off).aer 0 else s)

/-! ### Keep-alive reset -/

/-- The operating time in ms (R525). -/
def State.optimeMs (s : State) : Nat := ((s.tm.opNs : Int) + s.tm.opAdd).toNat / 1000000 % 2 ^ 40

/-- Put the operating time into its registers. -/
def State.optimeRegs (s : State) : State :=
  let ms := s.optimeMs
  (s.wr Reg.RPC_OPTIME_LO_MS_LO (ms % 2 ^ 32)).wr Reg.RPC_OPTIME_HI_MS_HI (ms / 2 ^ 32)

/-- The counters' record (R525): operating time in ms, power cycles, CRC-32C. -/
def State.counterRecord (s : State) : List Byte :=
  withCrc (natLE 8 s.optimeMs ++ natLE 4 (s.rd Reg.RPC_PCYCLES_COUNT))

/-- Restore the counters from their record, or leave them counting from 0 (R525); where PD-H cannot be read yet, later. -/
def State.restoreCounters (s : State) : State :=
  if !s.nvAlive then s.modRpc fun x => { x with restoreDue := true }
  else
    let s := s.modRpc fun x => { x with restoreDue := false }
    let s := s.nvHeal 0xF0C0 16
    match s.nvRecord 0xF0C0 16 with
    | some l =>
      let s := { s with tm := { s.tm with opAdd := s.tm.opAdd + (leAt l 0 8 % 2 ^ 40 * 1000000 : Nat) } }
      ((s.wr Reg.RPC_PCYCLES_COUNT (leAt l 8 4 + s.rd Reg.RPC_PCYCLES_COUNT)).wrb Reg.RPC_KA_STAT_CNT_RESTORED true).optimeRegs
    | none => s.diag 5 Src.mod 0 0x0100002C

/-- A K reset (R512, R525): registers of reach K, the brown-out latch, and the counters. -/
def State.kReset (s : State) : State :=
  let s := (s.resetRegs fun f => f.reaches .k).modRpc fun x => { x with bor := false }
  let s := ({ s with tm := { s.tm with opAdd := -s.tm.opNs } }).wr Reg.RPC_PCYCLES_COUNT 0
  s.optimeRegs.restoreCounters

/-- A write of `RPC_KA_CLEAR` (R527). -/
def State.kaClearWrite (s : State) (w : Word) : State :=
  if w = 0x4B41434C#32 && s.md.mode = .maint && natBit s.roles 1 then s.kReset.wrb Reg.RPC_CAUSE_KA_CLEAR true
  else s.refusedAccess 0x1000030

/-- `KA_CLEAR` (R527). -/
def execKaClear (val : Word) (s : State) : Host.Outcome State Fault Refusal :=
  .next (if s.hostUp then s.kaClearWrite val else s)

/-! ### Host-port reset -/

/-- Cause bit of `RPC_CAUSE` for a host-port reset. -/
def hCause : Option HostResetKind → Fld
  | none => Reg.RPC_CAUSE_H_REG
  | some .hotReset => Reg.RPC_CAUSE_H_HOT
  | some .flr => Reg.RPC_CAUSE_H_FLR
  | some .linkDown => Reg.RPC_CAUSE_H_LINK
  | some .perst => Reg.RPC_CAUSE_H_LINK

/-- What a host-port reset does to the bridge: the host's session closed, a store that fetches from the host failed, every
field of reach H at its reset value, and the link retraining (R416, R492). -/
def State.hEffect (s : State) : State :=
  let s := if s.sesIsOpen CmdPort.host then s.closeSes CmdPort.host else s
  let s := s.storeHostGone
  let s := (s.resetRegs fun f => f.reaches .h).modLaneQ fun x => { x with latch := [], latchPsn := false }
  let s := s.modHbr fun x => { x with msixTable := [], pba := 0, busMaster := false }
  (s.wr Reg.HBR_LINK_STATE 1).wrb Reg.RPC_RESET_H true

/-- A host-port reset; during M or P it adds nothing beyond its cause bit (R515). -/
def State.hReset (s : State) (k : Option HostResetKind) : State :=
  let s := s.wrb (hCause k) true
  if s.hostAlive then s.hEffect else s

/-- A write of `HBR_CTL`. -/
def State.hbrCtlWrite (s : State) (w : Word) : State := if w.getLsbD 0 then s.hReset none else s

/-- `HRESET` (R416). -/
def execHreset (val : Word) (s : State) : Host.Outcome State Fault Refusal := .next (if s.hostUp then s.hbrCtlWrite val else s)

/-- `HOST_PORT_RESET` (R416): hot reset, link down, Function Level Reset or `PERST_N`. -/
def execHostPortReset (k : HostResetKind) (s : State) : Host.Outcome State Fault Refusal := .next (s.hReset (some k))

/-- `HOST_LINK_TRAINED` (R416): the bridge accepts requests again. -/
def execHostLinkTrained (speed width : Nat) (s : State) : Host.Outcome State Fault Refusal :=
  .next (if s.hostAlive && speed ≤ 2 && 1 ≤ width && width ≤ 2 then
      (((s.wr Reg.HBR_LINK_SPEED speed).wr Reg.HBR_LINK_WIDTH width).wr Reg.HBR_LINK_STATE 3).wrb Reg.RPC_RESET_H false
    else s)

/-- `BUS_MASTER_ENABLE_CHANGE` (R414, R492): the bit toggles; cleared during step 1, it fails the host's store. -/
def execBusMasterEnableChange (s : State) : Host.Outcome State Fault Refusal :=
  .next (if s.hostUp then
      let on := !s.hbr.busMaster
      let s := s.modHbr fun x => { x with busMaster := on }
      if on then s else s.storeHostGone
    else s)

/-! ### Register writes -/

/-- A write of a record word: words 0 to 2 are latched, word 3 submits (R402). -/
def State.recWrite (s : State) (port : CmdPort) (i : Nat) (w : Word) (chainageNs : Nat) : State :=
  if i < 3 then
    s.modLaneQ fun x => { x with latch := [0, 1, 2].map fun j => if j = i then w else x.latch.getD j 0 }
  else
    s.submitWords port (s.lane.latch.getD 0 0) (s.lane.latch.getD 1 0) (s.lane.latch.getD 2 0) w chainageNs s.lane.latchPsn

/-- A write that applies on arrival: the action of the register, or its fields by their access codes (R406). -/
def State.directWrite (s : State) (port : CmdPort) (off : Nat) (w : Word) (chainageNs : Nat) : State :=
  if 0x200000 ≤ off && off < 0x200010 then s.recWrite port ((off - 0x200000) / 4) w chainageNs
  else if off = 0x200020 then (if w.getLsbD 0 then s.popFifo else s)
  else if off = 0x100004 then s.hbrCtlWrite w
  else if off = 0x1000030 then s.kaClearWrite w
  else if 0xC02004 ≤ off && off < 0xC02804 && (off - 0xC02004) % 0x80 = 0 then s.htxWrite ((off - 0xC02004) / 0x80) w
  else if 0xB00100 ≤ off && off < 0xB00500 && (off - 0xB00100) % 0x100 = 0 then s.hreqWrite ((off - 0xB00100) / 0x100) w
  else if off = 0xD00098 then s.markWrite w
  else if off = 0xD00024 then s.seekWrite w
  else if off = Reg.SEC_SES_CTL_OPEN.off then (s.sesOpenWrite w).sesCloseWrite w
  else if 0x1000100 ≤ off && s.md.mode = .boot then s.refusedAccess off
  else s.writeReg off w

/-- A write of an aligned DWORD of BAR 0 through a port (R394 to R396, R406). -/
def State.bar0Write (s : State) (port : CmdPort) (off : Nat) (w : Word) (chainageNs : Nat) : State :=
  if off % 4 ≠ 0 then s.accErr0 1 false off
  else if 0x101000 ≤ off && off < 0x101200 then
    s.modHbr fun x => x.msixWrite ((off - 0x101000) / 4) w
  else if off = 0x101800 || off = 0x101804 then s
  else
    match Reg.fieldsAt off with
    | none => s.accErr0 3 false off
    | some fs =>
      if laneBlock off then
        if fs.any fun f => Acc.writable f.acc then
          s.modLaneQ fun x => { x with queue := x.queue ++ [.write (s.laneWait chainageNs) off w] }
        else s.refusedAccess off
      else s.directWrite port off w chainageNs

/-- `REGISTER_WRITE` (R406): a write by the host. -/
def execRegisterWrite (off : Nat) (val : Word) (chainageNs : Nat) (s : State) : Host.Outcome State Fault Refusal :=
  .next (if s.hostUp then s.bar0Write .host off val chainageNs else s)

/-- `SVC_REG_WRITE` (Table 17-9, type 3). -/
def execSvcRegWrite (off : Nat) (val : Word) (chainageNs : Nat) (s : State) : Host.Outcome State Fault Refusal :=
  .next (if s.svcUp then s.bar0Write .service off val chainageNs else s)

/-- `SVC_REG_READ` (Table 17-9, type 2): the register's value is the reply. -/
def execSvcRegRead (off : Nat) (s : State) : Host.Outcome State Fault Refusal :=
  .next (if s.svcUp then
      if off % 4 ≠ 0 then s.accErr0 1 false off
      else
        let (v, s) := s.readBar0 off
        s.modHbr fun x => { x with reply := natLE 4 v }
    else s)

/-! ### The views -/

/-- Image words of a channel's master copy that hold something but a clean 0. -/
def Chan.imgKeys (h : Chan) : List Nat :=
  (h.img.map (fun (e : Nat × Word) => e.1) ++
    ((FMap.range h.pmap 0x260000 0x266000).map fun (e : Nat × Bool) => e.1 - 0x260000) ++
    (FMap.range h.errs 0x130000 0x133000).flatMap fun (e : Nat × BitVec 72) =>
      [2 * (e.1 - 0x130000), 2 * (e.1 - 0x130000) + 1]).eraseDups

/-- The images of a channel's master copy with their poison, as the bridge reads them. -/
def State.channelView (s : State) (c : Ch) : FMap (Psn Word) × State :=
  (s.ch c).imgKeys.foldl (fun (p : FMap (Psn Word) × State) i =>
    let (v, s) := p.2.readImg c none i
    (FMap.set ⟨0, false⟩ p.1 i v, s)) ([], s)

/-- A word of the voted view: the value of at least two valid channel values, otherwise poisoned with no value that the spec
gives (R400). -/
def State.voteWord (s : State) (vs : List (Psn Word)) : Psn Word × State :=
  let ok := (vs.filter fun v => !v.p).map (·.v)
  match ok.find? fun v => 2 ≤ (ok.filter (· = v)).length with
  | some v => (⟨v, false⟩, s)
  | none =>
    let (n, s) := s.take
    (⟨BitVec.ofNat 32 n, true⟩, s)

/-- The voted view of the channels' views. -/
def State.votedView (s : State) (ms : List (FMap (Psn Word))) : FMap (Psn Word) × State :=
  ((ms.flatMap fun m => m.map fun (e : Nat × Psn Word) => e.1).eraseDups).foldl (fun (p : FMap (Psn Word) × State) i =>
    let (v, s) := p.2.voteWord (ms.map fun m => FMap.get ⟨0, false⟩ m i)
    (FMap.set ⟨0, false⟩ p.1 i v, s)) ([], s)

/-- The buffer last completed for a view, and its contents. -/
def State.viewNow (s : State) (v : Nat) : ViewBuf :=
  FMap.get ViewBuf.init s.hbr.views (2 * v + bitNat (natBit s.hbr.dir v))

/-- Fill the buffer of a view that the directory does not name, and name it (R399). -/
def State.fillView (s : State) (v : Nat) (img : FMap (Psn Word)) (k t info : Nat) : State :=
  let b := natBit s.hbr.dir v
  s.modHbr fun x => { x with
    views := FMap.set ViewBuf.init x.views (2 * v + bitNat (!b)) { img := img, cycBegin := k, cycEnd := k, ntime := t, info := info },
    dir := if b then natClr x.dir v else natSet x.dir v }

/-- `VIEW_BUFFER_FILL` (R399, R400): the views of the channels in the vote and the voted view of the cycle last completed, before
the next image load. -/
def execViewBufferFill (s : State) : Host.Outcome State Fault Refusal :=
  .next (match s.md.done with
    | none => s
    | some (cs, k, t) =>
      let v := s.viewNow 0
      if !s.hostAlive || cs = [] || (s.tm.cyc ≠ k && s.md.taken) || (v.info ≠ 0 && v.cycEnd = k && v.ntime = t) then s
      else
        let info := s.md.mode.code + Ch.mask cs * 16 + s.md.role.code * 256
        let (ms, s) := cs.foldl (fun (p : List (FMap (Psn Word)) × State) c =>
          let (m, s) := p.2.channelView c
          (p.1 ++ [m], s.fillView (Ch.num c + 1) m k t info)) ([], s)
        let (m, s) := s.votedView ms
        s.fillView 0 m k t info)

/-- Bytes of image words below `n` at an address, over bytes that are cleared first. -/
def Mem.writeImage (m : FMap Byte) (a : Nat) (img : FMap (Psn Word)) (n : Nat) : FMap Byte :=
  (img.filter fun (e : Nat × Psn Word) => e.1 < n).foldl (fun m (e : Nat × Psn Word) => Mem.write m (a + 4 * e.1) (wordLE e.2.v))
    (FMap.cut m a (a + 4 * n))

/-- `IMAGE_PUSH` (R414): the view of the cycle last completed goes into its slot, or the slot is abandoned when its time is
over, with a part of the images written that the spec leaves open. -/
def execImagePush (finished : Bool) (s : State) : Host.Outcome State Fault Refusal :=
  let v := s.viewNow (s.rd Reg.HBR_DMA_CTL_VIEW)
  let slots := s.rd Reg.HBR_DMA_CTL_SLOTS
  let k := v.cycEnd
  .next (if s.hostUp && s.hbr.busMaster && s.rdb Reg.HBR_DMA_CTL_ENABLE && 2 ≤ slots && v.info ≠ 0 &&
      k % 2 ^ s.rd Reg.HBR_DMA_CTL_RATE = 0 && s.hbr.pushed ≠ some (k, v.ntime) then
      let a := s.rd Reg.HBR_DMA_BASE_LO_BASE_LO * 2 ^ 17 + s.rd Reg.HBR_DMA_BASE_HI_BASE_HI * 2 ^ 32 + k % slots * 0x20000
      let (n, s) := s.take
      let n := if finished then 0x6000 else n % 0x6001
      let s := s.modHbr fun x => { x with
        pushed := some (k, v.ntime), hostMem := Mem.writeImage (Mem.write x.hostMem (a + 0x18000) (natLE 8 k)) a v.img n }
      if finished then
        let desc := natLE 8 k ++ natLE 8 k ++ natLE 8 v.ntime ++ natLE 8 v.info
        ((s.modHbr fun x => { x with hostMem := Mem.write x.hostMem (a + 0x18000) desc }).incWrap Reg.HBR_DMA_STAT_PUSHED).raiseInt 2
      else s.inc Reg.HBR_DMA_STAT_LATE
    else s)

/-! ### Poisoned reads -/

/-- A completion with the poisoned-data mark and the data as stored, and its log record. -/
def State.noteEp (s : State) (off : Nat) (data : Word) : State :=
  (s.completion ⟨off, data, true, false⟩).enqueue (s.event 3 (0x10 + Src.hbr) Src.hbr 0 [off])

/-- A word of the recorder's memory as stored, its wrong bits included. -/
def State.mramWord (s : State) (a : Nat) : Word :=
  let a := a / 4 * 4
  BitVec.ofNat 32 (leNat (Mem.read s.rcd.mram a 4)) ^^^ halfOf ((FMap.get 0 s.rcd.mramErrs (a / 8)).setWidth 64) (a / 4)

/-- A word of a view buffer (Table 13-3). -/
def ViewBuf.word (b : ViewBuf) (i : Nat) : Psn Word :=
  if i < 0x6000 then FMap.get ⟨0, false⟩ b.img i
  else ⟨BitVec.ofNat 32 (leAt (natLE 8 b.cycBegin ++ natLE 8 b.cycEnd ++ natLE 8 b.ntime ++ natLE 8 b.info) (4 * (i - 0x6000)) 4), false⟩

/-- A word of BAR 2 as the host reads it (Table 13-2). -/
def State.bar2Word (s : State) (off : Nat) : Psn Word :=
  if off < 0x10 then ⟨if natBit s.hbr.dir (off / 4) then 1 else 0, false⟩
  else if 0x40000 ≤ off && off < 0x140000 then
    (FMap.get ViewBuf.init s.hbr.views ((off - 0x40000) / 0x20000)).word (off % 0x20000 / 4)
  else if 0x2000000 ≤ off && off < 0x4000000 then ⟨s.mramWord (off - 0x2000000), Ecc.bad s.rcd.mramErrs (off - 0x2000000) 4⟩
  else ⟨0, false⟩

/-- `POISONED_DATA_READ` (R216, R226, R526): a read of BAR 2 whose word is poisoned, or of keep-alive storage whose parity
fails. -/
def execPoisonedDataRead (off : Nat) (s : State) : Host.Outcome State Fault Refusal :=
  .next (if !s.hostUp then s
    else if (0x1000100 ≤ off && off < 0x1000180) || (0x1001000 ≤ off && off < 0x1002000) then
      ((s.inc Reg.RPC_KA_STAT_PAR_COUNT).wrb Reg.RPC_KA_STAT_PAR_ERR true).noteEp off (BitVec.ofNat 32 (s.storedWord off))
    else if 0x40000 ≤ off && off < 0x140000 then
      let v := (off - 0x40000) / 0x40000
      let b := FMap.get ViewBuf.init s.hbr.views ((off - 0x40000) / 0x20000)
      let w := s.bar2Word off
      if w.p then
        let cs := if v = 0 then Ch.all.filter fun c => natBit (b.info / 16) (Ch.num c) else [Ch.at (v - 1)]
        (foldSt cs (fun c s => s.inc (Reg.MIU_UE_HOST_EP (Ch.num c))) s).noteEp off w.v
      else s
    else if (s.bar2Word off).p then s.noteEp off (s.bar2Word off).v
    else s)

end Sys2Proof.Machine
end

