-- ==== Sys2Proof/Machine/Reset.lean ====
section
/-! DEFINITION. Supplies, power domains and resets (R507 to R528): the save of the retained data (R141 to R143), assertion and
release of M and P, option loads, the loss and return of domains, the staged bypass's end (R329), and the events of the keep-alive
domain. `CFG_STORE_DONE` stands here because a store in HOLD resets the module (R493). -/

namespace Sys2Proof.Machine

/-- The module is held: by P, by M, in OFF, or by a save. -/
def State.down (s : State) : Bool := s.rpc.por || s.rpc.mod || s.rpc.save.isSome || s.md.mode = .off

/-! ### What P and M reset -/

/-- The field lies in the edge, which runs on while a staged bypass is in progress. -/
def Fld.inEdge (f : Fld) : Bool := f.off / 0x100000 = 7 || f.off / 0x100000 = 8

/-- P or M asserts: every field of its reach but the supply monitors takes its reset value, every block its initial state, and
every domain but PD-K is held in reset with its outputs clamped (R512, R516). What is nonvolatile or outside the module stays:
the MRAM and the retained store, one-time-programmable storage, keys and plug, host memory, straps and switches.
While a staged bypass is in progress the edge runs on (R329, R509). -/
def State.coreReset (s : State) (l : RLetter) : State :=
  let edge : Bool := decide (s.rd Reg.PTN_BYPASS_STAGE = 1)
  let pgood := s.rd Reg.MOD_DOMAIN_PGOOD
  let t := s.resetRegs fun f => f.reaches l && !(edge && Fld.inEdge f)
  let t := { t with
    md := ModSt.init, chs := ⟨Chan.init, Chan.init, Chan.init⟩, forces := [], lane := LaneQ.init,
    rcd := { RecSt.init with mram := s.rcd.mram, mramErrs := s.rcd.mramErrs },
    sio := { SioSt.init with cells := s.sio.cells, railErr := s.sio.railErr, swRead := s.sio.swRead, swLast := s.sio.swLast },
    dlk := DlkSt.init,
    ptn := if edge then s.ptn else PtnSt.init,
    tmu := if edge then s.tmu else TmuSt.init,
    tm := if edge then s.tm else { TimeSt.init with opNs := s.tm.opNs, opAdd := s.tm.opAdd },
    gwy := GwySt.init, alp := [],
    sec := { SecSt.init with
      otp := s.sec.otp, otpCh := s.sec.otpCh, fleet := s.sec.fleet, plug := s.sec.plug, start := s.sec.start,
      challenge := s.sec.challenge + 1 },
    rpc := { RpcSt.init with
      inRange := s.rpc.inRange, straps := s.rpc.straps, bor := s.rpc.bor, store := s.rpc.store, storeErrs := s.rpc.storeErrs,
      refLost := s.rpc.refLost, restoreDue := s.rpc.restoreDue, por := s.rpc.por, mod := s.rpc.mod },
    hbr := { HbrSt.init with hostMem := s.hbr.hostMem, msix := s.hbr.msix },
    twn := TwnSt.init }
  ((t.wr Reg.MOD_DOMAIN_PGOOD pgood).wr Reg.MOD_DOMAIN_CLAMP 0xFE).wr Reg.RPC_RESET_IN_RESET 0xFE

/-- The edge stops at the end of a staged bypass under P or M. -/
def State.edgeReset (s : State) : State :=
  let l : RLetter := if s.rpc.por then .p else .m
  let s := s.resetRegs fun f => f.reaches l && Fld.inEdge f
  { s with ptn := PtnSt.init, tmu := TmuSt.init, tm := { TimeSt.init with opNs := s.tm.opNs, opAdd := s.tm.opAdd } }

/-- `BYPASS_RELAY_B` (R329): relay B closes and the edge stops. -/
def execBypassRelayB (s : State) : Host.Outcome State Fault Refusal :=
  .next (if s.rd Reg.PTN_BYPASS_STAGE = 1 then
      let s := s.bypassAtOnce.wrb Reg.PTN_STATUS_EDGE_LOADED false
      let s := if s.rpc.por then s.clrBit Reg.MOD_DOMAIN_PGOOD 4 else s
      if s.rpc.por || s.rpc.mod then s.edgeReset else s
    else s)

/-! ### Sources of M -/

/-- Domains whose option load is under way. -/
def State.loadsUnderWay (s : State) : Nat := ([1, 2, 3, 4, 5, 6, 7].filter s.loading).length

/-- M asserts (R512, R513, R519): loads under way are abandoned, and `MRST_N` and the watchdog close both relays at once (R330). -/
def State.assertM (s : State) (src : ResetSrc) : State :=
  let s := s.wrb (mCause src) true
  if s.rpc.save.isSome then s.holdSource src
  else if s.rpc.por then s
  else
    let n := s.loadsUnderWay
    let s := if src = .pin || src = .watchdog then s.bypassAtOnce else s
    let s := s.storeInterrupted.modRpc fun x => { x with mod := true }
    let s := (s.coreReset .m).wr Reg.RPC_LOAD_RETRIES n
    let s := if 0 < n then s.wrb Reg.RPC_CAUSE_LOAD_RETRY true else s
    if src = .holdStore then ((s.wr Reg.MOD_CAUSE_FROM Mode.hold.code).wr Reg.MOD_CAUSE_CAUSE 0x1B) else s

/-- `MRST_N` (R517): a low pulse of the pin; between 0.5 µs and 2 µs it may or may not assert M. -/
def execMrstN (lowNs : Nat) (s : State) : Host.Outcome State Fault Refusal :=
  if lowNs < 500 then .next s
  else if 2000 ≤ lowNs then .next (s.assertM .pin)
  else
    let (v, s) := s.take
    .next (if Config.freeBool v then s.assertM .pin else s)

/-- No refresh of the edge watchdog within the last 1 s, from the load of PD-E on (R518). -/
def State.wdgStarved (s : State) : Bool :=
  [0, 1, 2, 3].all fun k =>
    let t := FMap.get 0 s.rpc.refresh k
    t = 0 || t - 1 + 1000000000 ≤ s.tm.opNs + s.tbc

/-- `WATCHDOG_EXPIRY` (R518). -/
def execWatchdogExpiry (s : State) : Host.Outcome State Fault Refusal :=
  .next (if natBit (s.rd Reg.RPC_LOAD_LOAD_DONE) 4 && s.good 4 && !s.rpc.por && !s.rpc.mod && s.wdgStarved then
      ((s.inc Reg.RPC_WDG_FIRES).assertM .watchdog).diag 6 Src.mod 0 0x01000034
    else s)

/-- `WATCHDOG_REFRESH` (R518): by a channel whose controller runs. -/
def execWatchdogRefresh (c : Ch) (s : State) : Host.Outcome State Fault Refusal :=
  .next (if (s.ch c).st ≠ .reset && !s.rpc.por && !s.rpc.mod then
      s.modRpc fun x => { x with refresh := FMap.put x.refresh (Ch.num c) (s.tm.opNs + 1) }
    else s)

/-! ### The save -/

/-- A save begins (R141, R143, R329): the engines stop, every switch of every safety output opens, the staged bypass begins, and
a store under way is interrupted (R492). `module` tells a save that precedes a module reset. -/
def State.startSave (s : State) (module : Bool) : State :=
  let s := foldSt Ch.all (fun c s => s.wr (Reg.LEN_STATUS_RUN (Ch.num c)) 0) s
  let s := (s.modRpc fun x => { x with save := some module }).driveAll
  s.stagedBypass.storeInterrupted

/-- The retained copy of the last completed cycle (Table 5-3), with the number of words without a majority. -/
def State.retainedCopy (s : State) (ms : List (FMap (Psn Word))) (k t : Nat) : Nat × List Byte :=
  let (n, m) := agreeRet false ms
  let body := (List.range Ret.words).flatMap fun i => wordLE (FMap.get 0#32 m i)
  let id := match s.runBank with
    | some b => natLE 8 b.id.toNat ++ natLE 4 b.layoutId.toNat
    | none => natLE 12 0
  let head := id ++ natLE 4 25600 ++ natLE 8 k ++ natLE 8 t ++ natLE 4 n
  (n, head ++ wordLE (crc32c (head ++ body)) ++ natLE 24 0 ++ body ++ natLE 4 Ret.validMark)

/-- Write the retained copy and the counters, where a cycle has completed and the store can be written (R141, R525). -/
def State.writeSave (s : State) (durationNs : Nat) : State :=
  if !s.nvAlive then s
  else
    let s := s.nvWrite 0xF0C0 s.counterRecord
    match s.md.done with
    | none => s
    | some (cs, k, t) =>
      let (ms, s) := s.savedRets cs
      let (n, l) := s.retainedCopy ms k t
      (((s.nvWrite 0 l).noteNomaj n).wr Reg.CMD_RET_STATUS_SAVE_TIME (durationNs / 10000)).inc Reg.RPC_RIDE_SAVES

/-- `SAVE_COMPLETE` (R142, R143, R515): OFF after a loss of supply, with P asserted and every domain but PD-K switched off;
otherwise the module reset ordered. -/
def execSaveComplete (durationNs : Nat) (s : State) : Host.Outcome State Fault Refusal :=
  match s.rpc.save with
  | none => .next s
  | some module =>
    let s := (s.writeSave durationNs).modRpc fun x => { x with save := none }
    if module then .next (s.assertM .command)
    else
      let s := (s.modRpc fun x => { x with por := true, mod := false, held := none }).coreReset .p
      let s := s.wr Reg.MOD_DOMAIN_PGOOD (if s.rd Reg.PTN_BYPASS_STAGE = 1 then s.rd Reg.MOD_DOMAIN_PGOOD &&& 0x11 else
        s.rd Reg.MOD_DOMAIN_PGOOD &&& 1)
      .next (s.modMd fun x => { x with mode := .off })

/-! ### The module supply -/

/-- New readings of the supply monitors. -/
def State.supplyRegs (s : State) : State :=
  let (a, s) := s.take
  let (b, s) := s.take
  let (k, s) := s.take
  (((s.wr Reg.RPC_SUPPLY_VMA a).wr Reg.RPC_SUPPLY_VMB b).wr Reg.RPC_VKA_VKA_MV k).wrb Reg.RPC_VKA_VKA_LOW (k % 65536 < 2600)

/-- `SUPPLY_LOW` (R508): the ride-through starts. -/
def execSupplyLow (s : State) : Host.Outcome State Fault Refusal :=
  .next (if s.rpc.inRange then s.modRpc fun x => { x with inRange := false, ride := !s.rpc.por } else s)

/-- `SUPPLY_IN_RANGE` (R508, R510): the end of a ride-through, counted with its length, which is below 10 ms; or the return of
the supply in OFF. -/
def execSupplyInRange (s : State) : Host.Outcome State Fault Refusal :=
  .next (if s.rpc.ride then
      let (v, s) := s.take
      ((s.modRpc fun x => { x with inRange := true, ride := false }).inc Reg.RPC_RIDE_RIDES).wr Reg.RPC_RIDE_LAST (v % 1000)
    else s.modRpc fun x => { x with inRange := true })

/-- `RIDE_THROUGH_END` (R508, R141, R329): 10 ms out of range. -/
def execRideThroughEnd (s : State) : Host.Outcome State Fault Refusal :=
  .next (if s.rpc.ride then
      ((s.modRpc fun x => { x with ride := false }).wr Reg.RPC_RIDE_LAST 1000).startSave false
    else s)

/-- `FEED_OUT_OF_RANGE` (R507): one feed out of range while the supply is in range. -/
def execFeedOutOfRange (feed : Bool) (s : State) : Host.Outcome State Fault Refusal :=
  .next (if s.rpc.inRange && !s.rpc.por then
      let (v, s) := s.take
      (if feed then s.wr Reg.RPC_SUPPLY_VMB v else s.wr Reg.RPC_SUPPLY_VMA v).diag 4 Src.mod 0 0x01000014
    else s)

/-! ### Release -/

/-- Sample the straps (R521). -/
def State.sampleStraps (s : State) : State :=
  let v := s.rpc.straps.toNat
  let s := ((s.wr Reg.RPC_STRAP_BOOT_SRC v).wr Reg.RPC_STRAP_CLK_MODE (v / 4)).wr Reg.RPC_STRAP_TWIN_POS (v / 16)
  ((s.wr Reg.RPC_STRAP_BOOT_SRC_LIVE v).wr Reg.RPC_STRAP_CLK_MODE_LIVE (v / 4)).wr Reg.RPC_STRAP_TWIN_POS_LIVE (v / 16)

/-- The field domain starts at the release of P or M: its stages, outputs and the DLK anew, the switches read over every plug
interface and latched by both rails of the DLK (R241, R268, R277, R290). -/
def State.fieldRelease (s : State) : State :=
  let s := s.resetRegs fun f => f.reaches .m && (f.off / 0x100000 = 9 || f.off / 0x100000 = 10)
  let m := maj3 s.sio.swRead.a s.sio.swRead.b s.sio.swRead.c
  let s := s.modSio fun x => { SioSt.init with cells := x.cells, railErr := x.railErr, swRead := x.swRead, swAt := x.swRead, swLast := m }
  let d := BitVec.ofNat 8 (swD m)
  s.dlkRelease (d ^^^ s.sio.railErr.1) (d ^^^ s.sio.railErr.2)

/-- Every domain leaves reset and begins its option load: mode BOOT, straps sampled, `SW-D` latched by the DLK, the RPC's strobe
in use until PD-E is loaded (R47, R277, R510, R519, R521). -/
def State.release (s : State) : State :=
  let s := s.modRpc fun x => { x with por := false, mod := false }
  let s := (s.modMd fun x => { x with mode := .boot }).sampleStraps.supplyRegs
  let s := (s.wr Reg.RPC_RESET_IN_RESET 0).wr Reg.MOD_DOMAIN_CLAMP 0xFE
  let s := foldSt Ch.all (fun c s => (s.modCh c fun h => { h with st := .booting }).wr (Reg.CCU_STATUS_STAGE (Ch.num c)) 1) s
  let s := s.fieldRelease.keyRegs
  let s := { s with tm := { s.tm with rpcStrobe := true } }
  let s := s.wr Reg.HBR_LINK_STATE 1
  s.enqueue (s.event 2 0x01 Src.mod 0 [s.storedWord 0x44, s.modStatus])

/-- `RESET_RELEASE` (R513, R516): M releases; a staged bypass in progress ends first. -/
def execResetRelease (s : State) : Host.Outcome State Fault Refusal :=
  .next (if s.rpc.mod && !s.rpc.por && s.rpc.save.isNone && s.rd Reg.PTN_BYPASS_STAGE ≠ 1 then
      (s.wr Reg.MOD_DOMAIN_PGOOD (s.rd Reg.MOD_DOMAIN_PGOOD ||| 0xFE)).release
    else s)

/-- `POWER_ON_RELEASE` (R509, R524): every domain good; a K reset first where the brown-out latch is set. -/
def execPowerOnRelease (s : State) : Host.Outcome State Fault Refusal :=
  .next (if s.rpc.por && s.rpc.inRange && s.rd Reg.PTN_BYPASS_STAGE ≠ 1 then
      let s := if s.rpc.bor then s.kReset.wrb Reg.RPC_CAUSE_KA_LOST true else s
      (((s.wrb Reg.RPC_CAUSE_POR true).incWrap Reg.RPC_PCYCLES_COUNT).wr Reg.MOD_DOMAIN_PGOOD 0xFF).release
    else s)

/-- The retained data of a channel's master copy and counter store. -/
def Chan.retData (h : Chan) : FMap Word :=
  h.retKeys.foldl (fun m k => FMap.set 0 m k
    (if k < 256 then FMap.get 0 h.img (0x1000 + k) else if k < 2304 then FMap.get 0 h.img (0x4000 + (k - 256))
      else FMap.get 0 h.counters (k - 2304))) []

/-- The channels that booted while W was held take part in the warm restart, with the data that the others restarted with
(R139, R514). -/
def State.warmJoin (s : State) : State :=
  let ret := match s.voters with
    | [] => []
    | v :: _ => (s.ch v).retData
  if s.md.mode = .startup then
    foldSt (Ch.all.filter fun c => s.eligible c && !s.inVote c) (fun c s => ((s.abandon c).restartCh c ret).modCh c fun h =>
      { h with st := .vote, plumbLeft := 0, accStart := true, ownForces := none }) s
  else s

/-- `WARM_RESET_RELEASE` (R514, R516): at the Tc that ends the hold, the plumb check starts (R31). -/
def execWarmResetRelease (s : State) : Host.Outcome State Fault Refusal :=
  .next (if s.md.wHold = 1 then
      (s.warmJoin.modMd fun x => { x with wHold := 0, plumb := 3 }).wrb Reg.RPC_RESET_W false
    else s)

/-- `CHANNEL_RESET_RELEASE` (R241, R514): the channel leaves reset, its sense stages start anew, and it begins its option load. -/
def execChannelResetRelease (c : Ch) (s : State) : Host.Outcome State Fault Refusal :=
  let n := Ch.num c
  .next (if natBit (s.rd Reg.RPC_RESET_C) n && s.good (n + 1) && !s.rpc.por && !s.rpc.mod then
      let s := ((s.clrBit Reg.RPC_RESET_C n).clrBit Reg.RPC_RESET_IN_RESET (n + 1)).resetStages c
      (s.modCh c fun h => { h with st := .booting }).wr (Reg.CCU_STATUS_STAGE n) 1
    else s)

/-! ### Option loads -/

/-- The check at the end of BOOT once every load has ended (R519, R520). -/
def State.bootMaybe (s : State) : State :=
  if s.md.mode = .boot && !s.down && s.md.bootVerdict.isNone && s.loadsEnded then s.bootCheck else s

/-- What a lost PD-L or PD-H stops (Table 1-3). -/
def State.stopLoops (s : State) : State :=
  foldSt loops4 (fun n s => ((s.calAbort n).modLoop n fun x => { x with samples := [], staged := none }).loopFreeze n) s
def State.stopService (s : State) : State :=
  let s := if s.sesIsOpen CmdPort.host then s.closeSes CmdPort.host else s
  let s := if s.sesIsOpen CmdPort.service then s.closeSes CmdPort.service else s
  let s := s.storeInterrupted
  let s := s.resetRegs fun f => f.reaches .m && (f.off / 0x100000 = 1 || f.off / 0x100000 = 13 ||
    (0x200000 ≤ f.off && f.off < 0x200400))
  { s with
    lane := LaneQ.init, rcd := { s.rcd with queue := [], index := [], indexing := false },
    hbr := { HbrSt.init with hostMem := s.hbr.hostMem, msix := s.hbr.msix } }

/-- PD-H has loaded its options: the mark and the counters that waited for the retained store, the queued channel events, and
the gateway (R144, R511, R525). -/
def State.serviceUp (s : State) : State :=
  let s := if s.rpc.restoreDue then s.restoreCounters else s
  let s := if s.rpc.markDue then s.clearMark else s
  let s := if s.md.mode = .boot then s.wr Reg.HBR_LINK_STATE 1 else s.hEffect
  (s.gwyStart s.gwy.cur).flushHeld.indexStart

/-- A domain's option load has passed (R519): `LOAD_DONE` is set and the clamp released. A channel that returns outside BOOT
boots alone (R204). -/
def State.loaded (s : State) (d : Nat) : State :=
  let s := (s.setBit Reg.RPC_LOAD_LOAD_DONE d).clrBit Reg.MOD_DOMAIN_CLAMP d
  let s := s.modRpc fun x => { x with loadFails := FMap.set 0 x.loadFails d 0 }
  if d = 4 then
    { s with
      tm := { s.tm with rpcStrobe := false }, rpc := { s.rpc with refresh := FMap.put s.rpc.refresh 3 (s.tm.opNs + 1) } }
  else if d = 7 then s.serviceUp
  else if 1 ≤ d && d ≤ 3 then
    let c := Ch.at (d - 1)
    let s := s.modCh c fun h => { h with fuse := Config.fuseMap (d - 1) }
    let s := (s.wrb (Reg.MIU_SPARE_MAP_OK (d - 1)) true).wr (Reg.MIU_SPARE_USED (d - 1)) (Config.fuseMap (d - 1)).length
    if s.md.mode = .hold then (s.modCh c fun h => { h with st := .excluded }).bootInvalid c
    else if s.md.mode = .boot && s.md.bootVerdict ≠ some 2 then s
    else s.bootAlone c
  else s

/-- A domain's third load has failed (R223, R520): it stays in reset; a channel's map is not good, and PD-L and PD-H count as
lost. -/
def State.loadGivenUp (s : State) (d : Nat) : State :=
  let s := (s.setBit Reg.RPC_LOAD_LOAD_ERR d).setBit Reg.RPC_RESET_IN_RESET d
  let s := s.diag (if d = 4 || d = 5 then 6 else 5) Src.mod 0 0x0100000C
  if 1 ≤ d && d ≤ 3 then
    let s := (s.wrb (Reg.RPC_CAUSE_CH_MAP (d - 1)) true).wr (Reg.MOD_CH_STATE_LAST_CAUSE (d - 1)) 0x0B
    s.modCh (Ch.at (d - 1)) fun h => { h with st := .reset }
  else if d = 6 then (s.setBit Reg.MOD_DOMAIN_LOSS 6).stopLoops
  else if d = 7 then (s.setBit Reg.MOD_DOMAIN_LOSS 7).stopService
  else s

/-- `OPTION_LOAD_DONE` (R519, R520): a load of a domain ends, with its parity check passed or failed. -/
def execOptionLoadDone (d : Fin 8) (ok : Bool) (s : State) : Host.Outcome State Fault Refusal :=
  let d := d.val
  .next (if d = 0 || s.rpc.por || s.rpc.mod || !s.loading d then s
    else
      let fails := FMap.get 0 s.rpc.loadFails d + 1
      let s := if ok then s.loaded d
        else
          let s := s.modRpc fun x => { x with loadFails := FMap.set 0 x.loadFails d fails }
          if 3 ≤ fails then s.loadGivenUp d else s.inc Reg.RPC_LOAD_RETRIES
      s.bootMaybe)

/-! ### Loss and return of a domain -/

/-- The consequences of a domain's loss beyond its status bits (Table 1-3). -/
def State.domainGone (s : State) (d : Nat) : State :=
  if d = 0 then s.modRpc fun x => { x with bor := true }
  else if d ≤ 3 then s.chAssert (Ch.at (d - 1))
  else if d = 4 then
    let s := { s.stagedBypass with tm := { s.tm with rpcStrobe := true } }
    (s.modPtn fun x => { x with staged := [], tx := [], rx := [], rxLate := [], frozen := [], seen := [] }).setValid false
  else if d = 5 then
    let s := { s with dlk := DlkSt.init }
    (s.resetRegs fun f => f.reaches .m && f.off / 0x100000 = 10).driveAll
  else if d = 6 then (s.clrBit Reg.RPC_LOAD_LOAD_DONE 6).stopLoops
  else (s.clrBit Reg.RPC_LOAD_LOAD_DONE 7).stopService

/-- `DOMAIN_LOSS` (R22): a domain out of range or not responding. -/
def execDomainLoss (d : Fin 8) (s : State) : Host.Outcome State Fault Refusal :=
  let d := d.val
  .next (if s.rpc.por || !s.good d then s
    else
      let sev := if d = 4 || d = 5 then 6 else if d = 0 then 3 else 5
      let s := ((s.setBit Reg.MOD_DOMAIN_LOSS d).clrBit Reg.MOD_DOMAIN_PGOOD d).setBit Reg.MOD_DOMAIN_CLAMP d
      let s := if s.rpc.mod then s else s.domainGone d
      (s.diag sev Src.mod 0 0x60).bootMaybe)

/-- A domain that is re-powered after a loss (Table 18-1). -/
def repowered (d : Nat) : Bool := (1 ≤ d && d ≤ 3) || d = 6 || d = 7

/-- `DOMAIN_REPOWER` (R511): an attempt, or the end of attempts after three within 60 minutes. -/
def execDomainRepower (d : Fin 8) (ok : Bool) (s : State) : Host.Outcome State Fault Refusal :=
  let d := d.val
  .next (if !repowered d || s.good d || s.rpc.por || s.rpc.mod || !s.rpc.inRange || natBit (s.rd Reg.RPC_LOAD_LOAD_ERR) d ||
      s.rdb (Reg.RPC_REPOWER_GIVEN_UP d) then s
    else
      let tries := s.recentTries d
      if 3 ≤ tries.length then s.wrb (Reg.RPC_REPOWER_GIVEN_UP d) true
      else
        let s := s.modRpc fun x => { x with attempts := FMap.set [] x.attempts d (tries ++ [s.tm.opNs]) }
        let s := (s.inc (Reg.RPC_REPOWER_COUNT d)).wr (Reg.RPC_REPOWER_HOUR d) (tries.length + 1)
        if !ok then s
        else
          let s := s.setBit Reg.MOD_DOMAIN_PGOOD d
          if d ≤ 3 then s.wrb (Reg.RPC_CAUSE_CH_REPOWER (d - 1)) true else s)

/-! ### Other events -/

/-- `OUTPUT_HOLD_EXPIRY` (R31, R291): 50 ms after a warm reset, what is still held goes to the safe state. -/
def execOutputHoldExpiry (s : State) : Host.Outcome State Fault Refusal :=
  .next (match s.sio.holdLeft with
    | none => s
    | some t =>
      if s.tm.opNs + s.tbc < t + 50000000 then s
      else
        let held := out12.filter fun o => s.rdb (Reg.SIO_OUT_STAT_HOLD o)
        let s := if s.dlk.fbHold then s.wr Reg.DLK_FB_PERMIT 0 else s
        let s := s.endHolds
        (foldSt held (fun o s => s.command o false false) s).driveAll)

/-- `BROWN_OUT_LATCH` (R524). -/
def execBrownOutLatch (s : State) : Host.Outcome State Fault Refusal := .next (s.modRpc fun x => { x with bor := true })

/-- `STRAP_CHANGE` (R521): bits 0 and 1 `BOOT_SRC`, 2 and 3 `CLK_MODE`, 4 `TWIN_POS`. -/
def execStrapChange (i : Fin 8) (v : Bool) (s : State) : Host.Outcome State Fault Refusal :=
  .next (if 5 ≤ i.val then s
    else
      let k : BitVec 5 := BitVec.ofNat 5 (2 ^ i.val)
      let s := s.modRpc fun x => { x with straps := if v then x.straps ||| k else x.straps &&& ~~~k }
      if s.rpc.por || s.rpc.mod then s
      else
        let l := s.rpc.straps.toNat
        let s := ((s.wr Reg.RPC_STRAP_BOOT_SRC_LIVE l).wr Reg.RPC_STRAP_CLK_MODE_LIVE (l / 4)).wr Reg.RPC_STRAP_TWIN_POS_LIVE (l / 16)
        let sampled := s.rd Reg.RPC_STRAP_BOOT_SRC + 4 * s.rd Reg.RPC_STRAP_CLK_MODE + 16 * s.rd Reg.RPC_STRAP_TWIN_POS
        if natBit sampled i.val = v then s else (s.wrb Reg.RPC_STRAP_CHANGED true).diag 3 Src.mod 0 0x01000010)

/-- `REFERENCE_LOSS` (R522). -/
def execReferenceLoss (s : State) : Host.Outcome State Fault Refusal :=
  .next (if s.rd Reg.RPC_STRAP_CLK_MODE = 1 && !s.rpc.refLost && !s.down then
      ((s.modRpc fun x => { x with refLost := true }).inc Reg.RPC_VKA_REF_LOSS).diag 4 Src.mod 0 0x01000018
    else s)

/-- `REFERENCE_RETURN` (R522): 1 s after the reference came back. -/
def execReferenceReturn (s : State) : Host.Outcome State Fault Refusal := .next (s.modRpc fun x => { x with refLost := false })

/-- `COUNTER_CHECKPOINT` (R525). -/
def execCounterCheckpoint (s : State) : Host.Outcome State Fault Refusal :=
  .next (if s.rpc.por || s.rpc.mod then s else s.nvWrite 0xF0C0 s.counterRecord)

/-! ### `MOD_RESET` and a store's end -/

/-- `MOD_RESET` at its Tc (R143, R557): what waits in the lane is discarded without results, and the save runs. A refused one
completes. -/
def State.modResetApply (s : State) (seq : BitVec 16) : State :=
  match s.gate 0x02 with
  | some st => (s.unqueue seq).complete seq 0x02 st s.atTc
  | none => ((s.wrb Reg.RPC_CAUSE_MOD_CMD true).modLaneQ fun q => { q with queue := [], res := [] }).startSave true

/-- `MOD_RESET` (R143, R557). -/
def execModReset (r : CmdRec) (s : State) : Host.Outcome State Fault Refusal :=
  .next (match r.form with
    | .arrive .. => s.cmd 0x02 r fun s => .ok s
    | .apply seq =>
      if !s.hostAlive then s
      else if s.rpc.save.isSome then (s.wrb Reg.RPC_CAUSE_MOD_CMD true).holdSource .command
      else s.modResetApply seq)

/-- `CFG_STORE_DONE` (R491 to R493): the store ends; in HOLD a copy stored becomes the start copy and M asserts. -/
def execCfgStoreDone (readBack : BitVec 3) (writeOk : Bool) (s : State) : Host.Outcome State Fault Refusal :=
  .next (match s.sec.job with
    | none => s
    | some j =>
      if !s.hostAlive || s.rpc.save.isSome then s
      else
        match s.storeFetch j with
        | .error r => (s.storeFailed r).secRegs
        | .ok l =>
          let s := (s.writeCopy j l readBack writeOk).secRegs
          if s.rd Reg.SEC_STORE_STATE = 5 && s.md.mode = .hold then
            (s.modSec fun x => { x with start := j.copy }).assertM .holdStore
          else s)

end Sys2Proof.Machine
end

