-- ==== Sys2Proof/Machine/Agree.lean ====
section
/-! DEFINITION. The first part of a cycle (R51 to R57): input records and their agreement (Tables 2-4 and 2-5), image load and
the start of phase 0, the phase barriers with the debug halt (R195 to R199), and the execution limit with what each channel
feeds into its signature (R62, R99, R167 to R173). -/

namespace Sys2Proof

/-- The bits that at least two of the values hold at 1 (Table 2-5: an absent sample counts as 0). -/
def atLeastTwo (l : List (BitVec n)) : BitVec n :=
  (l.foldl (fun (p : BitVec n × BitVec n) v => (p.1 ||| v, p.2 ||| (p.1 &&& v))) (0, 0)).2

/-- Agreed values from the samples available (R52). -/
def Machine.InVals.agree (l : List Machine.InVals) : Machine.InVals :=
  { si := atLeastTwo (l.map fun v => v.si), pair := atLeastTwo (l.map fun v => v.pair), diag := atLeastTwo (l.map fun v => v.diag) }

/-- The samples of the inputs of a mask count as absent (R54): the inputs, their diagnostic bits, and the pairs that contain
one. -/
def Machine.InVals.without (v : Machine.InVals) (excl : Nat) : Machine.InVals :=
  Machine.in24.foldl (fun v i =>
    if excl.testBit i then
      { si := v.si &&& ~~~BitVec.ofNat 24 (2 ^ i), pair := v.pair &&& ~~~BitVec.ofNat 12 (2 ^ (i / 2)),
        diag := v.diag &&& ~~~BitVec.ofNat 384 (0xFFFF * 2 ^ (16 * i)) }
    else v) v

/-- The acknowledge bit, bit 9 of the diagnostic bits of SI23 (Table 8-6). -/
def Machine.InVals.ack (v : Machine.InVals) : Bool := v.diag.getLsbD (16 * 22 + 9)

/-- The input record of a channel (Table 2-4). -/
def Machine.InVals.record (v : Machine.InVals) (k : Nat) (c : Ch) : List Byte :=
  let b := natLE 2 k ++ natLE 1 (Ch.num c) ++ natLE 1 0 ++ natLE 4 v.si.toNat ++ natLE 2 v.pair.toNat ++ natLE 2 0 ++
    natLE 48 v.diag.toNat
  b ++ wordLE (crc32c b)

/-- An input record as its bytes give it; none where its length or its CRC-32C is wrong. -/
def Machine.InRec.parse (b : List Byte) : Option Machine.InRec :=
  if b.length = 64 && wordLE (crc32c (b.take 60)) = b.drop 60 then
    some { k16 := BitVec.ofNat 16 (leAt b 0 2), sender := leAt b 2 1,
           vals := { si := BitVec.ofNat 24 (leAt b 4 4), pair := BitVec.ofNat 12 (leAt b 8 2), diag := BitVec.ofNat 384 (leAt b 12 48) } }
  else none

/-- The inter-channel link between two channels: 0 A–B, 1 B–C, 2 C–A. -/
def linkOf (a b : Ch) : Nat :=
  match a, b with
  | .chA, .chB | .chB, .chA => 0
  | .chB, .chC | .chC, .chB => 1
  | _, _ => 2

/-- Its counter of absent records (R67). -/
def linkMiss (l : Nat) : Fld :=
  if l = 0 then Machine.Reg.TMU_CYC_XCHG_MISS_AB else if l = 1 then Machine.Reg.TMU_CYC_XCHG_MISS_BC else Machine.Reg.TMU_CYC_XCHG_MISS_CA

/-- Effect that a bank declares for an assertion (R124). -/
def Bank.assertEff (b : Bank) (a : Nat) : Option AssertEff := (b.asserts.find? fun e => e.1 = a).map (·.2)

end Sys2Proof

namespace Sys2Proof.Machine

/-! ### Input records -/

/-- The channel exchanges records: `STATE` 2 to 5 (R55). -/
def State.exchanging (s : State) (c : Ch) : Bool := s.booted c && !(s.ch c).ccuStop

/-- Channels that count as in the vote until the next Tc: those in the vote, and one that a channel reset or domain loss takes
out at that Tc (R177). -/
def State.compared (s : State) : List Ch := Ch.all.filter fun c => s.inVote c || s.md.exclReq.contains (c, 0x0B)

/-- Modes in which records are exchanged and agreed. -/
def State.agrees (s : State) : Bool := s.fromIntegrate && !s.down

/-- `INPUT_RECORD` (R55): a record with a good CRC, from the peer it names and of the receiver's own cycle is kept. -/
def execInputRecord (rx tx : Ch) (bytes : List Byte) (s : State) : Host.Outcome State Fault Refusal :=
  .next (match InRec.parse bytes with
    | none => s
    | some r =>
      if s.agrees && !s.md.taken && rx ≠ tx && s.exchanging rx && r.sender = Ch.num tx && r.k16.toNat = s.tm.cyc % 65536 then
        s.modCh rx fun h => { h with inRecs := FMap.set none h.inRecs (Ch.num tx) (some r) }
      else s)

/-- The value that a channel holds of another's sample, or of its own, less the inputs excluded under R54. -/
def State.sampleAt (s : State) (rx tx : Ch) : Option InVals :=
  let v := if rx = tx then (if s.exchanging rx then some (s.ch rx).sample else none)
    else (FMap.get none (s.ch rx).inRecs (Ch.num tx)).map fun r => r.vals
  v.map fun v => v.without (s.rd (Reg.TMU_CYC_ISTG_EXCL (Ch.num tx)))

/-- Agreement of a channel over the samples of channels that count (R52, R53). -/
def State.agreeAt (s : State) (rx : Ch) (cs : List Ch) : InVals := InVals.agree (cs.filterMap fun tx => s.sampleAt rx tx)

/-- Absences of expected records by link (R55, R56). -/
def State.countMisses (s : State) : State :=
  let pairs := Ch.all.flatMap fun rx => rx.others.map fun tx => (rx, tx)
  let miss := pairs.filter fun p => s.exchanging p.1 && s.exchanging p.2 && (FMap.get none (s.ch p.1).inRecs (Ch.num p.2)).isNone
  let s := foldSt miss (fun p s => s.inc (linkMiss (linkOf p.1 p.2))) s
  foldSt [0, 1, 2] (fun l s =>
    let n := FMap.get 0 s.md.linkMiss l
    if miss.any fun p => linkOf p.1 p.2 = l then
      let s := s.modMd fun x => { x with linkMiss := FMap.set 0 x.linkMiss l (min 3 (n + 1)) }
      if n = 2 then (s.setBit Reg.TMU_CYC_XCHG_LINK_FLT l).diag 4 Src.tmu l 0x00800118 else s
    else s.modMd fun x => { x with linkMiss := FMap.set 0 x.linkMiss l 0 }) s

/-- What a channel's sample says of input `i`: its value and that of its declared pair. -/
def State.inputOf (s : State) (v : InVals) (i : Nat) : Bool × Bool :=
  (v.si.getLsbD i, s.rdb (Reg.SIO_PAIR_CFG_DECLARED (i / 2)) && v.pair.getLsbD (i / 2))

/-- Exclude a channel's input stage for an input (R54). -/
def State.exclInput (s : State) (c : Ch) (i : Nat) : State :=
  let n := Ch.num c
  let f := Reg.TMU_CYC_ISTG_EXCL n
  if natBit (s.rd f) i then s else (s.setBit f i).diag 3 Src.chan n (0x00800120 + 4 * n) [i]

/-- A channel's counts of differing inputs of the others (R54). -/
def State.countDiffs (s : State) (rx : Ch) : State :=
  let raw := fun (tx : Ch) => if tx = rx then some (s.ch rx).sample
    else (FMap.get none (s.ch rx).inRecs (Ch.num tx)).map fun r => r.vals
  match raw .chA, raw .chB, raw .chC with
  | some a, some b, some c =>
    let val : Ch → InVals := fun x => Per3.get ⟨a, b, c⟩ x
    foldSt rx.others (fun d s =>
      foldSt in24 (fun i s =>
        let key := Ch.num d * 24 + i
        let n := FMap.get 0 (s.ch rx).diffCnt key
        let m := s.inputOf (val d) i
        let os := d.others.map fun x => s.inputOf (val x) i
        let odd := fun (f : Bool × Bool → Bool) => os.all fun o => f o ≠ f m
        if odd (·.1) || odd (·.2) then
          let s := s.modCh rx fun h => { h with diffCnt := FMap.set 0 h.diffCnt key (min 16 (n + 1)) }
          if 16 ≤ n + 1 then s.exclInput d i else s
        else if os.all fun o => o.1 = m.1 then s.modCh rx fun h => { h with diffCnt := FMap.set 0 h.diffCnt key 0 }
        else s) s) s
  | _, _, _ => s

/-- The agreed inputs in their registers. -/
def State.inputRegs (s : State) (v : InVals) : State :=
  let s := foldSt in24 (fun i s => (s.wrb (Reg.SIO_IN_STAT_VALUE i) (v.si.getLsbD i)).wr (Reg.SIO_IN_STAT_DIAG i)
    (v.diag.toNat / 2 ^ (16 * i) % 65536)) s
  let latched := pair12.foldl (fun m p => m + bitNat (v.diag.getLsbD (32 * p + 8)) * 2 ^ p) 0
  (s.wr Reg.SIO_PAIR_STAT_VALUE v.pair.toNat).wr Reg.SIO_PAIR_STAT_LATCHED latched

/-- A diagnostic bit of pair 12 that the channels powered and not retired agree in SAFE (R29). -/
def State.safeBit (s : State) (k : Nat) : Bool :=
  let cs := s.powered
  2 ≤ (cs.filter fun c => s.exchanging c && (s.agreeAt c cs).diag.getLsbD (16 * 22 + k)).length

/-- The acknowledge bit that they agree. -/
def State.safeAck (s : State) : Bool := s.safeBit 9

/-- An acknowledge edge in SAFE (R29, R30, R264). -/
def State.ackInSafe (s : State) : State :=
  if s.md.mode ≠ .safe || !s.safeAck then s
  else if s.causeClear then
    let (m, s) := s.clearLatches
    (s.modMd fun x => { x with ackAccepted := true }).ackReport 1 m
  else (s.ackReport 3 0).diag 3 Src.sio 0 0x00900700

/-- `SEQ` counts each edge that the module agrees, in every mode, and `LAST` shows an acknowledge that is stuck (R263, R273). -/
def State.ackSeen (s : State) (v : InVals) : State :=
  let bit := fun k => if s.md.mode = .safe then s.safeBit k else v.diag.getLsbD (16 * 22 + k)
  let s := if bit 9 then s.incWrap Reg.SIO_ACK_SEQ else s
  if bit 10 then s.wr Reg.SIO_ACK_LAST 4 else s

/-- Input agreement of every channel (R52 to R56), with the acknowledge edge in SAFE. -/
def State.agreement (s : State) : State :=
  let s := s.countMisses
  let cs := s.compared
  let s := if cs.length = 3 then foldSt (Ch.all.filter s.exchanging) (fun c s => s.countDiffs c) s else s
  let s := foldSt (Ch.all.filter s.exchanging) (fun c s =>
    let v := s.agreeAt c cs
    s.modCh c fun h => { h with agreed := v }) s
  let v := InVals.agree (s.voters.map fun c => (s.ch c).agreed)
  ((s.inputRegs v).ackSeen v).ackInSafe

/-! ### Image load and phase 0 -/

/-- The logic engines execute in this cycle (Table 1-4). -/
def State.executes (s : State) : Bool :=
  (match s.md.mode with
   | .startup => s.md.plumbDone && s.md.wHold = 0
   | .run3 | .run2 | .maint => true
   | .safe => 2 ≤ s.voters.length
   | _ => false) && s.runBank.isSome && !s.down

/-- A channel that keeps cycles for its chase (R184). -/
def State.keeps (s : State) (c : Ch) : Bool :=
  let h := s.ch c
  (h.st = .excluded || h.st = .resync || h.st = .reloading) && h.attempt.isSome

/-- Append a kept cycle, at most eight. -/
def keepEight (l : List Kept) (x : Kept) : List Kept := (l ++ [x]).drop (l.length + 1 - 8)

/-- Words of a channel's image load from its own agreement (R76). -/
def State.imgWords (s : State) (c : Ch) (commit : Bool) : FMap Word :=
  s.loadWords (s.ch c).agreed (s.ch c).laneStat (bankId s.runBank % 2 ^ 32) commit

/-- Modes in which a module renews, requests and executes as one of a pair (R39, R371, R379). -/
def State.leaseMode (s : State) : Bool :=
  match s.md.mode with
  | .run3 | .run2 | .maint => true
  | _ => false

/-- The overlap cycle of a planned handover (R390), on the new holder's side and on the old one's. -/
def State.overlapping (s : State) : Bool := s.md.overlap || (s.twn.ho = some s.tm.cyc && s.twn.hoGot.isSome)

/-- The module sends input records, signature records and snapshots (R371). -/
def State.twinSends (s : State) : Bool :=
  s.twin && s.md.role = .active && s.leaseMode && !s.md.debug && !s.overlapping && s.rdb Reg.TWN_STATUS_LINK_UP

/-- The input record that an active module sends of its image load (R371, Table 12-1): the words loaded, and the whole force table where
it changed at this Tc. -/
def State.sendRecord (s : State) (w : FMap Word) : State :=
  let s := if s.twinSends then { s with twn := { s.twn with
      txRec := some { k := s.tm.cyc, forces := if s.forces = s.twn.ftWas then none else some s.forces, image := w } } } else s
  { s with twn := { s.twn with ftWas := s.forces } }

/-- Image load of a program cycle in every channel in the vote, and the copy that excluded channels keep (R57, R76, R184).
The CCU reads the force table first (R215). -/
def State.loadCycle (s : State) (w : Ch → FMap Word) (commit : Bool) : State :=
  let ft := s.forces
  let first := s.voters.any fun c => (s.ch c).accStart
  let s := s.sendRecord (w (s.voters.headD .chA))
  let s := foldSt s.voters (fun c s => (s.ccuReads c (Miu.cwForce 0) 512).imageLoad c (w c) ft) s
  let s := foldSt (Ch.all.filter s.keeps) (fun c s => s.modCh c fun h => { h with
    kept := keepEight h.kept { k := s.tm.cyc, image := w c, forces := ft, first := first, commit := commit, acc := none } }) s
  let s := foldSt (Ch.all.filter s.keeps) (fun c s => s.storeWritten c (Miu.keptLo s.tm.cyc) Miu.keptN) s
  s.modMd fun x => { x with
    loadDone := true, cycForces := ft, firstCold := false, firstWarm := false, firstCommit := false, firstResume := false,
    decided := false }

/-- A channel's accumulator at the start of a cycle (R171). -/
def Chan.openTraverse (h : Chan) : Chan :=
  if h.accStart then { h with acc := crc64Init, travPos := 0, accStart := false } else h

/-- The channels halt together (R195). -/
def State.haltAll (s : State) (phase : Nat) (newCycle : Bool) : State :=
  let s := s.modMd fun x => { x with halted := true, dbgHaltReq := none }
  let s := (s.wr Reg.VOT_DBG_STATE 3).wr Reg.VOT_DBG_PHASE phase
  if newCycle then s.wr Reg.VOT_DBG_CYCLE_CYCLE s.tm.cyc else s

/-- Phase 0 in every channel in the vote, unless a debug halt stops them before it (R71, R195 to R197). -/
def State.startAll (s : State) : State :=
  let s := foldSt (s.voters.filter fun c => !(s.ch c).ccuStop) (fun c s => (s.modCh c Chan.openTraverse).startProgram c) s
  let s := if s.rd Reg.VOT_DBG_STATE = 5 then s.wr Reg.VOT_DBG_STATE 1 else s
  if s.md.debug && s.md.dbgHaltReq = some 0 then
    (foldSt s.voters (fun c s => s.wr (Reg.LEN_STATUS_RUN (Ch.num c)) 3) s).haltAll 0 true
  else s

/-- A halted phase is released at Tc + 20 µs where the command of this Tc says so (R196, R197). -/
def State.releaseHalt (s : State) : State :=
  let d := s.rd Reg.VOT_DBG_STATE
  if d = 4 || d = 5 then
    let p := s.rd Reg.VOT_DBG_PHASE
    let s := foldSt (s.voters.filter fun c => s.rd (Reg.LEN_STATUS_RUN (Ch.num c)) = 3) (fun c s =>
      s.wr (Reg.LEN_STATUS_RUN (Ch.num c)) 1) s
    s.modMd fun x => { x with halted := false, dbgHaltReq := if d = 4 then some (p + 1) else none }
  else s

/-- What follows agreement in a cycle: the release of a halt, or network delivery, image load and phase 0. A commit due at this Tc
does its own image load. -/
def State.cycleStart (s : State) : State :=
  if s.md.halted then s.releaseHalt
  else if s.executes then
    let s := s.ptnLoad
    if s.md.commitDue then s else (s.loadCycle (fun c => s.imgWords c s.md.firstCommit) false).startAll
  else
    let s := s.ptnLoad
    foldSt Ch.all (fun c s => if s.rd (Reg.LEN_STATUS_RUN (Ch.num c)) = 0 then s else s.wr (Reg.LEN_STATUS_RUN (Ch.num c)) 0) s

/-- `INPUT_RECORD_DUE` (R52 to R57, R76): agreement, image load, phase 0. A STANDBY loads at the record of its active (R372). -/
def execInputRecordDue (s : State) : Host.Outcome State Fault Refusal :=
  .next (if s.agrees && !s.md.taken then
      let s := s.agreement.modMd fun x => { x with taken := true }
      let s := foldSt (Ch.all.filter s.exchanging) (fun c s => s.ccuWorks c) s
      if s.md.role = .standby && s.twin then s else s.cycleStart
    else s)

/-! ### Phase barriers -/

/-- Channels in the vote that run the program. -/
def State.runners (s : State) : List Ch := s.voters.filter fun c => !(s.ch c).ovr && !(s.ch c).ccuStop

/-- Lane status of a completed cycle (R98). -/
def State.laneStatus (s : State) (c : Ch) : State :=
  let n := Ch.num c
  let h := s.ch c
  let m := fun (f : LaneSt → Bool) => lanes16.foldl (fun v l => v + bitNat (f (h.lane l)) * 2 ^ l) 0
  let ovf := m (·.ovf)
  let rng := m (·.rng)
  (((s.wr (Reg.LEN_LANE_STAT_OVF n) ovf).wr (Reg.LEN_LANE_STAT_RNG n) rng).wr (Reg.LEN_LANE_STICKY_OVF n)
    (s.rd (Reg.LEN_LANE_STICKY_OVF n) ||| ovf)).wr (Reg.LEN_LANE_STICKY_RNG n) (s.rd (Reg.LEN_LANE_STICKY_RNG n) ||| rng)

/-- The debug halt after a barrier of every running channel (R195 to R197). -/
def State.debugBarrier (s : State) : State :=
  if !s.md.debug || s.runners = [] then s
  else
    let run := fun c => s.rd (Reg.LEN_STATUS_RUN (Ch.num c))
    let cs := s.runners
    let d := s.rd Reg.VOT_DBG_STATE
    if cs.all fun c => run c = 3 then s.haltAll (s.rd (Reg.LEN_STATUS_PHASE (Ch.num (cs.headD .chA)))) (d = 2)
    else if cs.all fun c => run c = 2 then
      if d = 4 then s.modMd fun x => { x with dbgHaltReq := some 0 }
      else if d = 5 then s.modMd fun x => { x with firstResume := true }
      else s
    else s

/-- `PHASE_BARRIER` (R81): once every lane has closed the phase. -/
def execPhaseBarrier (c : Ch) (s : State) : Host.Outcome State Fault Refusal :=
  let n := Ch.num c
  .next (if s.rd (Reg.LEN_STATUS_RUN n) = 1 && (s.ch c).closed then
      let s := s.barrier c s.md.cycForces
      let s := if s.rd (Reg.LEN_STATUS_RUN n) = 2 then s.laneStatus c
        else if s.md.debug && s.md.dbgHaltReq = some (s.rd (Reg.LEN_STATUS_PHASE n)) then s.wr (Reg.LEN_STATUS_RUN n) 3
        else s
      s.debugBarrier
    else s)

/-! ### The end of a cycle -/

/-- Number of the program cycle that runs: that of its Tc, also while it is halted over several (R195). -/
def State.progCyc (s : State) : Nat :=
  let d := s.rd Reg.VOT_DBG_STATE
  if s.md.debug && (d = 3 || d = 4 || d = 5) then
    s.tm.cyc - (s.tm.cyc + 2 ^ 32 - s.rd Reg.VOT_DBG_CYCLE_CYCLE) % 2 ^ 32
  else s.tm.cyc

/-- Image words of Table 6-3, in order. -/
def outImage : List Nat :=
  List.range' 0x20 32 ++ List.range' 0x60 32 ++ List.range' 0x800 2048 ++ List.range' 0x2180 128 ++ List.range' 0x3000 4096

/-- The output image into a channel's accumulator (R170). -/
def State.feedOutput (s : State) (c : Ch) : State :=
  foldSt outImage (fun i s =>
    let (v, s) := s.readImg c none i
    s.feed c (imgItem i v)) s

/-- Traverse length in force (R171, R172). -/
def State.traverse (s : State) : Nat := if s.md.debug then 1 else s.rd Reg.VOT_CFG_TRAVERSE

/-- The end of a cycle's items (R167, R171): output image, closing item, and at the end of a traverse the final XOR. -/
def State.finishSig (s : State) (c : Ch) (k : Nat) : State :=
  let s := (s.feedOutput c).feed c (closingItem k)
  let t := s.traverse
  s.modCh c fun h =>
    if t ≤ h.travPos + 1 then { h with acc := crc64Final h.acc, accStart := true } else { h with travPos := h.travPos + 1 }

/-- A channel overruns (R62): its engine stops and it is excluded at the next Tc; two overruns in one cycle lead to SAFE (R64). -/
def State.overrun (s : State) (c : Ch) : State :=
  let n := Ch.num c
  let count := if n = 0 then Reg.TMU_CYC_OVR_COUNT_A else if n = 1 then Reg.TMU_CYC_OVR_COUNT_B else Reg.TMU_CYC_OVR_COUNT_C
  let s := ((s.wr (Reg.LEN_STATUS_RUN n) 4).inc count).setBit Reg.TMU_CYC_OVR_FLAG n
  let s := s.modCh c fun h => { h with ovr := true }
  let s := s.modMd fun x => { x with exclReq := x.exclReq ++ [(c, 0x09)] }
  let late := s.md.exclReq.filter fun e => e.2 = 0x09
  if 2 ≤ late.length then s.modMd fun x => { x with
    safeReq := (x.safeReq.filter fun e => e.1 ≠ 0x0E) ++ [(0x0E, Ch.mask (late.map (·.1)))] } else s

/-- Poison consumption, reported at the execution limit by a channel that completed the cycle and by one that overran (R99). -/
def State.reportPoison (s : State) (c : Ch) : State :=
  let n := Ch.num c
  let h := s.ch c
  let m := lanes16.foldl (fun v l => v + bitNat (h.lane l).psn * 2 ^ l) 0
  if m = 0 then s
  else
    let s := (s.inc (Reg.LEN_PSN_COUNT n)).wr (Reg.LEN_PSN_LANES n) m
    (s.modCh c fun h => { h with repPsn := true }).modMd fun x => { x with exclReq := x.exclReq ++ [(c, 0x0A)] }

/-- The record that a channel sends (R173): it keeps its own among those received. -/
def State.sendSig (s : State) (c : Ch) : State :=
  let h := s.ch c
  let r : SigRec := { k16 := BitVec.ofNat 16 s.progCyc, sender := c, travEnd := h.accStart, acc := h.acc,
                      raised := h.raised.map fun a => BitVec.ofNat 10 a, ovr := h.ovr, psn := h.repPsn, crcOk := true }
  s.modCh c fun h => { h with sigRecs := FMap.set none h.sigRecs (Ch.num c) (some r) }

/-- The record of a channel for this cycle. -/
def State.ownSig (s : State) (c : Ch) : Option SigRec := FMap.get none (s.ch c).sigRecs (Ch.num c)

/-- A channel has completed `END` of this cycle and sent its record. -/
def State.completed (s : State) (c : Ch) : Bool :=
  s.md.loadDone && s.rd (Reg.LEN_STATUS_RUN (Ch.num c)) = 2 && (s.ownSig c).isSome && !(s.ch c).ovr && !(s.ch c).ccuStop

/-- The execution limit in one channel: a completed cycle is signed; one that has not reached `END` overran, unless a debug halt or
a released phase holds it (R65, R199). -/
def State.limitChan (s : State) (c : Ch) : State :=
  let r := s.rd (Reg.LEN_STATUS_RUN (Ch.num c))
  let d := s.rd Reg.VOT_DBG_STATE
  if r = 2 then ((s.reportPoison c).finishSig c s.progCyc).sendSig c
  else if r = 1 && !(s.md.debug && (d = 4 || d = 5)) then ((s.reportPoison c).overrun c).sendSig c
  else s

/-- `EXECUTION_LIMIT` (R62, R99, R167, R173). -/
def execExecutionLimit (s : State) : Host.Outcome State Fault Refusal :=
  .next (if s.md.loadDone then
      foldSt (s.voters.filter fun c => (s.ownSig c).isNone && !(s.ch c).ccuStop) (fun c s => s.limitChan c) s
    else s)

/-- `DEBUG_STEP_OVERRUN` (R199): a channel that has not reached the next halt point or `END` in its clocks has overrun. -/
def execDebugStepOverrun (c : Ch) (s : State) : Host.Outcome State Fault Refusal :=
  let d := s.rd Reg.VOT_DBG_STATE
  .next (if s.md.debug && (d = 2 || d = 4 || d = 5) && s.inVote c && s.rd (Reg.LEN_STATUS_RUN (Ch.num c)) = 1 then
      (((s.reportPoison c).overrun c).sendSig c).debugBarrier
    else s)

end Sys2Proof.Machine
end

