-- ==== Sys2Proof/Machine/Vote.lean ====
section
/-! DEFINITION. The second part of a cycle: signature records, verdicts and the decision (R173 to R177), assertions (R125 to
R127), the output vote and its staging (R178 to R180), event bits (R461), the save buffer (R140), the scrub slots (R217 to
R221), and the hourly proof count (R205). -/

namespace Sys2Proof.Machine

/-! ### Signature records and verdicts -/

/-- `SIGNATURE_RECORD` (R173): kept where it comes by its due time, its CRC holds, it names its sender and carries the receiver's
cycle. -/
def execSignatureRecord (rx tx : Ch) (x : SigRec) (s : State) : Host.Outcome State Fault Refusal :=
  .next (if s.md.loadDone && !s.md.sigDue && !s.md.decided && rx ≠ tx && s.exchanging rx && x.crcOk && x.sender = tx &&
        x.k16.toNat = s.progCyc % 65536 then
      s.modCh rx fun h => { h with sigRecs := FMap.set none h.sigRecs (Ch.num tx) (some x) }
    else s)

/-- Channels whose signatures are compared: those in the vote that have not overrun (R174). -/
def State.inCmp (s : State) : List Ch := s.compared.filter fun c => !(s.ch c).ovr

/-- A channel's signature as a receiver holds it; a record without the end of a traverse carries none. -/
def State.sigAt (s : State) (rx tx : Ch) : Option Word64 :=
  match FMap.get none (s.ch rx).sigRecs (Ch.num tx) with
  | some r => if r.travEnd then some r.acc else none
  | none => none

/-- Verdict of a channel (Table 6-5) over the channels compared, with their signatures as its comparator takes them. -/
def verdictBy (sig : Ch → Option Word64) (c : Ch) (cs : List Ch) : Nat :=
  if !cs.contains c then 6
  else if cs.any fun x => (sig x).isNone then 5
  else if cs.all fun x => sig x = sig c then 0
  else
    match cs with
    | [a, b, d] =>
      if sig b = sig d then 1 + Ch.num a else if sig a = sig d then 1 + Ch.num b else if sig a = sig b then 1 + Ch.num d else 4
    | _ => 4

/-- What a channel's comparator makes of signatures; a faulty one gives one verdict always. -/
def Cells.verdict (x : Cells) (sig : Ch → Option Word64) (c : Ch) (cs : List Ch) : Nat := x.verd.getD (verdictBy sig c cs)

/-- Verdict of a channel over the channels compared. -/
def State.verdictOf (s : State) (c : Ch) (cs : List Ch) : Nat := (s.sio.cells.get c).verdict (fun x => s.sigAt c x) c cs

/-- A comparison ends with this cycle: a channel in the vote has ended its traverse. -/
def State.compares (s : State) : Bool :=
  s.inCmp.any fun c => match s.ownSig c with
    | some r => r.travEnd
    | none => false

/-- `SIGNATURE_RECORD_DUE` (R173, R174, R184): absent records are noted, each channel that compares forms its verdict, and
excluded channels keep the accumulator of the channels in the vote. -/
def execSignatureRecordDue (s : State) : Host.Outcome State Fault Refusal :=
  .next (if !s.md.loadDone || s.md.halted || s.md.decided then s
    else
      let s := s.modMd fun x => { x with sigDue := true }
      let cs := s.inCmp
      let s := foldSt (Ch.all.filter s.keeps) (fun c s =>
        match (s.voters.filterMap fun v => FMap.get none (s.ch c).sigRecs (Ch.num v)).head? with
        | some r => s.modCh c fun h => { h with kept := h.kept.map fun x => if x.k = s.progCyc then { x with acc := some r.acc } else x }
        | none => s) s
      if !s.compares then s
      else
        let ends := cs.filter fun c => s.exchanging c && (s.ownSig c).isSome
        let absent := cs.filter fun x => ends.any fun c => c ≠ x && (FMap.get none (s.ch c).sigRecs (Ch.num x)).isNone
        let s := foldSt ends (fun c s =>
          let v := s.verdictOf c cs
          s.modCh c fun h => { h with verdict := some v }) s
        s.wr Reg.VOT_SIG_STATUS_ABSENT (Ch.mask absent))

/-! ### The decision -/

/-- A decision: no action, exclusions, or SAFE. -/
inductive Decision where
  | nothing
  | excl (cs : List Ch)
  | safe
  deriving DecidableEq, Repr

/-- Exclude a list of channels, if any. -/
def Decision.ofList (l : List Ch) : Decision := if l = [] then .nothing else .excl l

/-- A verdict that decides (R175, rule 2), given every verdict with its channel. -/
def decideBy (v : Nat) (vs : List (Ch × Nat)) : Decision :=
  if v = 0 then Decision.ofList ((vs.filter fun e => e.2 ≠ 0 && e.2 ≠ 5).map (·.1))
  else if v = 4 then .safe
  else .excl [Ch.at (v - 1)]

/-- R175, rules 2 to 5. -/
def decideThree (vs : List (Ch × Nat)) : Decision :=
  let given := (vs.map (·.2)).filter (· ≠ 5)
  match majority (given.map some) with
  | some v => decideBy v vs
  | none =>
    match given with
    | [] => .nothing
    | [v] => decideBy v vs
    | _ => .safe

/-- R176, with the comparisons in a row that had a verdict NONE, this one included. -/
def decideTwo (vs : List (Ch × Nat)) (streak : Nat) : Decision :=
  if vs.any fun e => e.2 = 4 then .safe else if 3 ≤ streak then .safe else .nothing

/-- Channels whose record is absent at both others (R175, rule 1); one in reset is not excluded by it (R177). -/
def State.absentAll (s : State) (cs : List Ch) : List Ch :=
  cs.filter fun x => s.inVote x && (cs.filter (· ≠ x)).all fun c => (FMap.get none (s.ch c).sigRecs (Ch.num x)).isNone

/-- The verdict that the decision logic has of a channel: one that was not delivered counts as NONE (R174). -/
def State.verdictIn (s : State) (c : Ch) : Nat := (s.ch c).verdict.getD 5

/-- The decision over the channels compared (R175, R176): their verdicts, those whose record is absent at both others, and the
comparisons in a row with a verdict NONE. -/
def decideOn (vs : List (Ch × Nat)) (absent : List Ch) (streak : Nat) : Decision :=
  match vs with
  | [_, _, _] =>
    match absent with
    | [] => decideThree vs
    | l => .excl l
  | [_, _] => decideTwo vs streak
  | _ => .nothing

/-- Decision of a code that a faulty cell is stuck at. -/
def Decision.ofCode (k : Nat) : Decision := if k = 0 then .nothing else if k ≤ 3 then .excl [Ch.at (k - 1)] else .safe

/-- What a channel's decision cell makes of a decision. -/
def Cells.decision (x : Cells) (d : Decision) : Decision := (x.dec.map Decision.ofCode).getD d

/-- Channels whose cells take part in the cell majority (R203, R204). -/
def State.cellsIn (s : State) : List Ch :=
  Ch.all.filter fun c => !s.md.cellsOut.contains c && !(s.booted c && 0 < (s.ch c).plumbLeft)

/-- The decision that the majority of the decision cells gives (R174). DESIGN CHOICE (log 87): without a majority it is SAFE. -/
def State.cellDecision (s : State) (d : Decision) : Decision :=
  (majority (s.cellsIn.map fun c => some ((s.sio.cells.get c).decision d))).getD .safe

/-- The decision over the channels compared (R175, R176). -/
def State.decide (s : State) (cs : List Ch) : Decision :=
  s.cellDecision (decideOn (cs.map fun c => (c, s.verdictIn c)) (s.absentAll cs) s.md.noneStreak)

/-- Counter of exclusions by decision. -/
def oddCount (c : Ch) : Fld :=
  match c with
  | .chA => Reg.VOT_ODD_COUNT_ODD_A
  | .chB => Reg.VOT_ODD_COUNT_ODD_B
  | .chC => Reg.VOT_ODD_COUNT_ODD_C

/-- A comparison in the `VOT_SIG` registers (R206). -/
def State.sigRegs (s : State) (cs : List Ch) (d : Decision) : State :=
  let v := fun c => if cs.contains c then s.verdictIn c else 6
  let (code, ex) := match d with
    | .nothing => (0, [])
    | .excl l => (1, l)
    | .safe => (2, [])
  let s := (((s.incWrap Reg.VOT_SIG_STATUS_SEQ).wr Reg.VOT_SIG_STATUS_IN_CMP (Ch.mask cs)).wr Reg.VOT_SIG_STATUS_EXCL
    (Ch.mask ex)).wr Reg.VOT_SIG_STATUS_DECISION code
  let s := ((s.wr Reg.VOT_SIG_STATUS_VERD_A (v .chA)).wr Reg.VOT_SIG_STATUS_VERD_B (v .chB)).wr Reg.VOT_SIG_STATUS_VERD_C (v .chC)
  let s := s.wr Reg.VOT_SIG_CYCLE_CYCLE s.progCyc
  let s := foldSt cs (fun c s => match s.ownSig c with
    | some r => (s.wr (Reg.VOT_SIG_LO_SIG_LO (Ch.num c)) r.acc.toNat).wr (Reg.VOT_SIG_HI_SIG_HI (Ch.num c)) (r.acc.toNat / 2 ^ 32)
    | none => s) s
  let s := foldSt ex (fun c s => s.inc (oddCount c)) s
  if d = .safe then s.inc Reg.VOT_ODD_COUNT_SAFE_COUNT else s

/-- The comparison of a traverse and its decision (R175 to R177). -/
def State.comparison (s : State) : State :=
  let cs := s.inCmp
  let vs := cs.map s.verdictIn
  let s := s.modMd fun x => { x with noneStreak := if cs.length = 2 && vs.contains 5 then min 3 (x.noneStreak + 1) else 0 }
  let d := s.decide cs
  let s := s.sigRegs cs d
  let s := match d with
    | .nothing => s
    | .excl l => s.modMd fun x => { x with exclReq := x.exclReq ++ l.map fun c => (c, 0x08) }
    | .safe => s.modMd fun x => { x with safeReq := x.safeReq ++ [(0x0D, Ch.mask cs)], safeStage := true }
  let s := if d = .nothing && vs.all (· = 0) && 2 ≤ cs.length then s.modMd fun x => { x with travDone := true } else s
  foldSt cs (fun c s =>
    if s.md.exclReq.any fun e => e.1 = c then s else s.modCh c fun h => { h with probation := false }) s

/-- A channel event of the program cycle that runs, also where that was halted over several (R127, R460): it takes the number of that
cycle and the time of its Tc. -/
def State.progEvent (s : State) (sev cls : Nat) (payload : List Nat) : RecEv :=
  { s.tcEvent sev cls Src.chan 0 payload with
    cycle := s.progCyc % 2 ^ 32
    ntime := if s.timeValid then s.tm.tcNs - (s.tm.cyc - s.progCyc) * s.tbc else 0 }

/-- A channel event of the program cycle that the channels given report alike. -/
def State.eventOf (s : State) (cs : List Ch) (sev cls : Nat) (payload : List Nat) : State :=
  foldSt cs (fun c s => s.report c (s.progEvent sev cls payload)) s

/-- Assertions of a cycle (R125 to R127), of every channel in the vote that sent its set, also one that overran. DESIGN CHOICE (log 88):
raised sets that differ are recorded also where the signatures differ as well. -/
def State.assertions (s : State) : State :=
  let cs := s.compared.filter fun c => (s.ownSig c).isSome && s.inVote c
  let sets := cs.map fun c => (s.ch c).raised
  let all := sets.flatten.eraseDups
  let eff := fun (a : Nat) => s.runBank.bind fun b => b.assertEff a
  let n := fun (a : Nat) => (sets.filter fun l => l.contains a).length
  let takes := fun (a : Nat) => 2 ≤ n a || (s.compared.length = 2 && 1 ≤ n a && eff a = some .safe)
  let safe := all.filter fun a => takes a && eff a = some .safe
  let s := foldSt (all.filter takes) (fun a s => match eff a with
    | some (.event sev) => s.eventOf cs sev 0x02 [a]
    | _ => s) s
  let s := if all.any fun a => n a ≠ cs.length then s.diag 4 Src.vot 0 0x00600004 all else s
  s.modMd fun x => { x with
    assertSafe := !safe.isEmpty, assertStage := !safe.isEmpty,
    safeReq := if safe.isEmpty then x.safeReq else x.safeReq ++ [(0x0F, Ch.mask cs)] }

/-- Lane status agreed for the next image load (R98). -/
def State.agreeLanes (s : State) : State :=
  let cs := s.inCmp.filter fun c => s.inVote c && !(s.ch c).repPsn && s.rd (Reg.LEN_STATUS_RUN (Ch.num c)) = 2
  let w := fun c : Ch => BitVec.ofNat 32 (s.rd (Reg.LEN_LANE_STAT_OVF (Ch.num c)) + s.rd (Reg.LEN_LANE_STAT_RNG (Ch.num c)) * 65536)
  let v : Word := atLeastTwo (cs.map w)
  foldSt (Ch.all.filter s.booted) (fun c s => s.modCh c fun h => { h with laneStat := v }) s

/-- The signature record that an active module sends after its decision (R371, Table 12-1): the decision, the traverse-end flag, and the
accumulator of the channels in the vote, which at the end of a traverse is the decided signature. -/
def State.sendTwinSig (s : State) : State :=
  let rs := (s.voters.filter s.completed).filterMap fun c => s.ownSig c
  if s.twinSends then
    match majority (rs.map fun r => some r.acc) with
    | some v => { s with twn := { s.twn with
        txSig := some { k16 := BitVec.ofNat 16 s.tm.cyc, sender := s.voters.headD .chA, travEnd := rs.any fun r => r.travEnd, acc := v,
                        raised := [], ovr := s.md.safeStage, psn := false, crcOk := true } } }
    | none => s
  else s

/-- `DECISION` (R125, R175 to R177). -/
def execDecision (s : State) : Host.Outcome State Fault Refusal :=
  .next (if !s.md.loadDone || s.md.halted || s.md.decided then s
    else
      let s := s.modMd fun x => { x with decided := true }
      let s := if s.compares then s.comparison else s
      s.assertions.agreeLanes.sendTwinSig)

/-! ### The output vote -/

/-- Channels whose contributions can be valid (R178); a stopped controller gives none (R215). -/
def State.contributors (s : State) : List Ch := s.voters.filter fun c => !(s.ch c).ovr && !(s.ch c).ccuStop

/-- A channel's contribution of one image word. -/
def State.contrib (s : State) (i : Nat) (cs : List Ch) : List (Ch × Psn Word) × State :=
  cs.foldl (fun (p : List (Ch × Psn Word) × State) c =>
    let (v, s) := p.2.readImg c none i
    (p.1 ++ [(c, v)], s)) ([], s)

/-- Bit `b` as the channels contribute it. -/
def contribBits (l : List (Ch × Psn Word)) (b : Nat) : List (Ch × Bool) :=
  (l.filter fun e => !e.2.p).map fun e => (e.1, e.2.v.getLsbD b)

/-- A sound voter cell outputs 1 only where two valid contributions are 1 (R178). -/
def votedOn (l : List (Ch × Bool)) : Bool := 2 ≤ (l.filter fun e => e.2).length

/-- What a channel's voter cell of bit `b` makes of a vote. -/
def Cells.vote (x : Cells) (b : Nat) (v : Bool) : Bool := (v || x.hi.getLsbD b) && !x.lo.getLsbD b

/-- A safety output bit is commanded on where at least two cells of the majority output 1 (R178, R203, R204). -/
def State.cellVote (s : State) (b : Nat) (v : Bool) : Bool := 2 ≤ (s.cellsIn.filter fun c => (s.sio.cells.get c).vote b v).length

/-- Output whose command bit an output follows (R248). -/
def State.followed (s : State) (o : Nat) : Nat := if (s.partner o).isSome && o % 2 = 1 then o - 1 else o

/-- Stage one safety output for the next Tc (R178, R179, R247, R260). -/
def State.stageOutput (s : State) (cs : List Ch) (l : List (Ch × Psn Word)) (safe : Bool) (o : Nat) : State :=
  let on := s.cellVote o (votedOn (contribBits l (s.followed o))) && !safe
  let (t, s) := if s.rdb (Reg.SIO_OUT_CFG_TIMED o) then s.voteTarget cs (s.rd (Reg.SIO_OUT_CFG_TIMED_WORD o)) else (some 0, s)
  s.modOut o fun x => { x with stHs := on, stLs := on, target := t.getD 0, targetOk := t.isSome }

/-- The fallback permits of the first two channels in the vote (R288). -/
def State.stageFallback (s : State) (l : List (Ch × Psn Word)) (safe : Bool) : State :=
  match s.fbChannels with
  | none => s
  | some (a, b) =>
    let bit := fun (c : Ch) (o : Nat) => ((contribBits l (16 + o)).find? fun e => e.1 = c).map fun e => e.2
    let idx := [0, 1, 2, 3]
    let on := idx.foldl (fun m o => m + bitNat (bit a o = some true && bit b o = some true) * 2 ^ o) 0
    let diff := idx.foldl (fun m o => m + bitNat ((bit a o).isNone || (bit b o).isNone || bit a o ≠ bit b o) * 2 ^ o) 0
    let s := s.modDlk fun x => { x with fbStaged := if safe then 0 else BitVec.ofNat 4 on }
    if !s.rdb Reg.DLK_STATUS_FALLBACK then s
    else
      let s := s.wr Reg.DLK_FB_DIFF diff
      if diff = 0 then s else (s.inc Reg.DLK_FB_DIFF_COUNT).wrb Reg.DLK_EVENT_FB_DIFF true

/-- A non-safety word as it is voted (R21): none without a majority. -/
def State.wordVote (s : State) (cs : List Ch) (w : Nat) : Option Word × State :=
  let (l, s) := s.contrib (Img.ofWord w) cs
  (majority (l.map fun e => if e.2.p then none else some e.2.v), s)

/-- The words of the gateway and of the loops (R21): a word without a majority keeps its previous value and is counted. -/
def State.stageWords (s : State) (cs : List Ch) : State :=
  let s := s.modGwy fun x => { x with noMaj := [] }
  let s := foldSt (List.range 120) (fun i s =>
    match s.wordVote cs (0x180 + i) with
    | (some v, s) => s.modGwy fun x => { x with outW := FMap.set 0 x.outW i v }
    | (none, s) => (s.modGwy fun x => { x with noMaj := x.noMaj ++ [i] }).modMd fun x => { x with noMaj := x.noMaj + 1 }) s
  foldSt loops4 (fun n s =>
    let (v, s) := s.wordVote cs (0x1F8 + 2 * n)
    let s := if v.isNone then s.modMd fun x => { x with noMaj := x.noMaj + 1 } else s
    s.loopStage n v) s

/-- Counter of a channel's cycles with a difference (R180). -/
def diffCount (c : Ch) : Fld :=
  match c with
  | .chA => Reg.VOT_OUT_DIFF_DIFF_A
  | .chB => Reg.VOT_OUT_DIFF_DIFF_B
  | .chC => Reg.VOT_OUT_DIFF_DIFF_C

/-- Event bits that rose in a completed cycle (R461). -/
def State.eventBits (s : State) (c : Ch) : State :=
  let (cur, s) := (List.range' 0x60 32).foldl (fun (p : FMap Word × State) i =>
    let (v, s) := p.2.readImg c none i
    (FMap.set 0 p.1 i v.v, s)) ([], s)
  let old := (s.ch c).prevEvents
  let s := foldSt cur (fun e s =>
    let rose := e.2 &&& ~~~FMap.get 0 old e.1
    foldSt (List.range 32) (fun b s =>
      let n := (e.1 - 0x60) * 32 + b
      let sev := FMap.get 0 s.sio.evSev n
      if rose.getLsbD b && sev ≠ 0 then s.report c (s.progEvent (sev - 1) 0x03 [n]) else s) s) s
  s.modCh c fun h => { h with prevEvents := cur }

/-- The latch-clear request that the channels stage on an agreed acknowledge edge (R264). -/
def State.stageAck (s : State) (cs : List Ch) : State :=
  match s.md.mode with
  | .run3 | .run2 | .maint =>
    if 2 ≤ (cs.filter fun c => (s.ch c).agreed.ack).length then s.modMd fun x => { x with ackEdge := true } else s
  | _ => s

/-- The vote over the contributions of a cycle. -/
def State.vote (s : State) : State :=
  let cs := s.contributors
  let safe := s.md.safeStage || s.md.assertStage || s.md.halted
  let (l, s) := s.contrib 0x20 cs
  let s := foldSt out12 (fun o s => s.stageOutput cs l safe o) s
  let s := s.stageFallback l safe
  let d0 := cs.filter fun c => out12.any fun o =>
    let b := contribBits l (s.followed o)
    b.any fun e => e.1 = c && e.2 ≠ s.cellVote o (votedOn b)
  let (d1, s) := if s.md.safeStage then ([], s) else s.stageFrames cs
  let s := foldSt (Ch.all.filter fun c => d0.contains c || d1.contains c) (fun c s =>
    (s.inc (diffCount c)).setBit Reg.VOT_OUT_DIFF_FLAG (Ch.num c)) s
  let s := (s.stageWords cs).stageAck cs
  let done := cs.filter s.completed
  let ran := 2 ≤ done.length
  let s := foldSt done (fun c s => s.eventBits c) s
  s.modMd fun x => { x with
    voted := true, ranCycle := ran && (x.mode = .run3 || x.mode = .run2 || (x.mode = .maint && !x.debug)) }

/-- `OUTPUT_VOTE` (R178 to R180). The cycles in which W is held stage no vote (R31). -/
def execOutputVote (s : State) : Host.Outcome State Fault Refusal :=
  .next (if s.md.taken && !s.md.voted && s.fromStartup && s.md.wHold = 0 && !s.down then s.vote else s)

/-! ### The save buffer -/

/-- A channel's save buffer takes the retained data of the cycle it completed (R140). -/
def State.capture (s : State) (c : Ch) : State :=
  let (m, s) := s.retained c
  (s.modCh c fun h => { h with saveBuf := some m }).storeWritten c Miu.saveLo Miu.saveN

/-! ### The scrubber -/

/-- Write a corrected codeword back: what a miscorrection leaves stays as data (R219). -/
def State.writeBack (s : State) (c : Ch) (cw : Nat) : State :=
  let e := FMap.get 0 (s.ch c).errs cw
  let r := Miu.residual e (Hsiao.outcome e)
  match Hsiao.outcome e with
  | .corrected _ => s.setErr c cw (if r = 0 then 0 else Hsiao.enc r)
  | _ => s

/-- A correction by the scrubber (R212, R221): counted, written back, its row noted. -/
def State.scrubCorrected (s : State) (c : Ch) (cw bit : Nat) : State :=
  let n := Ch.num c
  let e := FMap.get 0 (s.ch c).errs cw
  let s := ((s.inc (Reg.MIU_CE_CE_SCRUB n)).wrb (Reg.MIU_EVENT_CE n) true).miuErr c 2 cw (Hsiao.synd e) bit
  let s := s.modCh c fun h => { h with ceRows := if h.ceRows.contains cw then h.ceRows else h.ceRows ++ [cw] }
  let s := if FMap.get 0 (s.ch c).weakRuns cw = 2 then
      ((s.inc (Reg.MIU_SPARE_WEAK n)).wrb (Reg.MIU_EVENT_WEAK_ROW n) true).diag 4 Src.chan n (0x301020 + n * 0x100000)
        [Miu.region cw, cw]
    else s
  s.writeBack c cw

/-- A replica codeword rewritten from the master copy, which the scrubber reads through its decoder (R100, R209): what the decoder
delivers wrong stays as data. -/
def State.repairReplica (s : State) (c : Ch) (cw : Nat) : State :=
  let i := (cw - 0x100000) % 0x3000 * 2
  let (r, s) := s.readMapCw c (Miu.cwMaster i)
  let s := s.setErr c cw (if r = 0 then 0 else Hsiao.enc r)
  foldSt [0, 1] (fun j s => s.setPsn c (cw * 2 + j) (FMap.get false (s.ch c).pmap (Miu.pkey (Miu.cwMaster i) (i + j)))) s

/-- What poison in a bank's store brings: a poisoned codeword of the undercoat makes that bank refused (R214). -/
def State.bankPoison (s : State) (c : Ch) (cw : Nat) : State :=
  let b := if cw < 0x100000 then some (cw / 0x80000)
    else if 0x133000 ≤ cw && cw < 0x153000 then some ((cw - 0x133000) / 0x10000) else none
  let st := s.ucState c
  match b with
  | some b => if b ≠ s.physRun c && 1 ≤ st && st ≤ 4 then (s.wr (Reg.LEN_STATUS_UC_STATE (Ch.num c)) 5).prgRegs else s
  | none => s

/-- One codeword checked (R209 to R211, R217). -/
def State.scrubCw (s : State) (c : Ch) (cw : Nat) : State :=
  let e := FMap.get 0 (s.ch c).errs cw
  if Miu.isMap (Miu.region cw) then
    match Hsiao.outcome e with
    | .clean => s
    | .corrected b => s.scrubCorrected c cw b
    | .uncorrectable =>
      let s := ((s.miuUncorrectable c cw e).setPsn c (cw * 2) true).setPsn c (cw * 2 + 1) true
      if Miu.region cw = 1 then s.repairReplica c cw else s
  else if FMap.get false (s.ch c).tags cw then (s.miuErr c 4 cw 0xFF 0xFF).bankPoison c cw
  else if e = 0 then s
  else if Hsiao.isTag (Hsiao.enc (s.idealCw c cw) ^^^ e) then (s.miuErr c 4 cw (Hsiao.synd e) 0xFF).bankPoison c cw
  else
    match Hsiao.outcome e with
    | .clean => s
    | .corrected b => s.scrubCorrected c cw b
    | .uncorrectable => (((s.miuUncorrectable c cw e).setTag c cw true).setErr c cw 0).bankPoison c cw

/-- Number of codewords of a channel (Table 7-1). -/
def Miu.total : Nat := 0x170000

/-- The end of a pass (R221): the rows with an error in it continue their run of passes, the others lose theirs. -/
def State.endPass (s : State) (c : Ch) : State :=
  (s.inc (Reg.MIU_SCRUB_PASSES (Ch.num c))).modCh c fun h =>
    { h with ceRows := [], weakRuns := h.ceRows.foldl (fun m r => FMap.set 0 m r (min 3 (FMap.get 0 h.weakRuns r + 1))) [] }

/-- The scrubber of a channel pauses: while the channel receives a snapshot, chases or reloads a bank (R220). -/
def State.scrubPaused (s : State) (c : Ch) : Bool :=
  match (s.ch c).attempt with
  | some a => (s.ch c).st = .reloading || a.accepted || (0 < a.startOp && !a.reloading && s.tm.cyc ≤ a.nextK)
  | none => (s.ch c).st = .reloading

/-- `SCRUB_SLOT` (R217, R219 to R221): the write-back queue, then p codewords; a pass ends with its slot. -/
def execScrubSlot (c : Ch) (s : State) : Host.Outcome State Fault Refusal :=
  let n := Ch.num c
  .next (if !s.booted c || s.scrubPaused c || s.down then s
    else
      let s := (foldSt (s.ch c).wbq (fun cw s => s.writeBack c cw) s).modCh c fun h => { h with wbq := [] }
      let p := s.scrubPace n
      let lo := s.rd (Reg.MIU_SCRUB_POS_NEXT n)
      let hi := min (lo + p) Miu.total
      let s := foldSt ((s.ch c).badCws lo (hi - lo)) (fun cw s => s.scrubCw c cw) (s.wr (Reg.MIU_SCRUB_PACE n) p)
      if Miu.total ≤ hi then (s.wr (Reg.MIU_SCRUB_POS_NEXT n) 0).endPass c else s.wr (Reg.MIU_SCRUB_POS_NEXT n) hi)

/-! ### The proof interval -/

/-- `PROOF_HOUR` (R205): one more hour of operating time for every channel. The event comes with the first hourly count that exceeds
the limit and with every 24th after it. -/
def execProofHour (s : State) : Host.Outcome State Fault Refusal :=
  let limit := s.rd Reg.VOT_CFG_PROOF_DAYS * 24
  .next (if s.down then s
    else
      foldSt Ch.all (fun c s =>
        let n := Ch.num c
        let s := s.inc (Reg.VOT_PROOF_AGE_HOURS n)
        let h := s.rd (Reg.VOT_PROOF_AGE_HOURS n)
        let k := FMap.get 0 s.md.proofOver n
        let s := s.modMd fun x => { x with proofOver := FMap.set 0 x.proofOver n (if h ≤ limit then 0 else k + 1) }
        if h ≤ limit then s
        else
          let s := s.setBit Reg.VOT_PROOF_WARN_WARN n
          if k % 24 = 0 then s.diag 3 Src.vot n 0x0060006C else s) s)

end Sys2Proof.Machine
end

