-- ==== Sys2Proof/Machine/Commit.lean ====
section
/-! DEFINITION. The parts of a commit (R154 to R161): whether it proceeds, the change of banks, the force table and the migration
list, for the channels in the vote and for a chase (R193). -/

namespace Sys2Proof.Machine

/-- `TBC_CODE` that will be in force at the present Tc: that of a schedule whose epoch switches here (R61, R497). -/
def State.tbcAhead (s : State) : Nat :=
  if s.rd Reg.SEC_EPOCH_STATE = 2 && s.sec.epochTgt = s.tm.tcNs && s.timeValid then s.ptn.nextNet.tbcCode
  else s.rd Reg.TMU_CYC_CFG_TBC_CODE

/-- Identity of the armed bank that two channels in the vote hold. -/
def State.armedId (s : State) : Option Nat :=
  majority ((s.voters.filter fun c => s.ucState c = 4).map fun c => some (bankId (s.ch c).uc))

/-- Modes in which a commit proceeds (R154). -/
def State.commitMode (s : State) : Bool :=
  match s.md.mode with
  | .run3 | .run2 | .safe => true
  | .maint => !s.md.debug
  | _ => false

/-- The `T_bc` condition of R61 for the bank that would be committed. -/
def State.commitTbc (s : State) : Bool :=
  s.voters.all fun c => s.ucState c ≠ 4 ||
    (match (s.ch c).uc with
     | some b => b.tbc = s.tbcAhead
     | none => false)

/-- The commit due at this Tc proceeds. -/
def State.commitGoes (s : State) : Bool := s.commitMode && s.commitTbc && s.armedId.isSome

/-- Channels in the vote whose undercoat is not verified with an identity (R159). -/
def State.notWith (s : State) (id : Nat) : List Ch := s.voters.filter fun c => !(s.ucWith id).contains c

/-- The undercoat bank becomes the running bank of a channel; the bank it replaces is left verified, or refused where its store holds a
poisoned codeword (R154, R161, R214). -/
def State.swapBank (s : State) (c : Ch) : State :=
  let n := Ch.num c
  let old := (s.ch c).run
  let p := s.physRun c
  let bad := s.bankPoisoned c p
  let s := (s.modCh c fun h => { h with run := h.uc }).setUc c old (if bad then 5 else 3)
  (s.wr (Reg.LEN_STATUS_BANK_RUN n) (1 - p)).runRegs c

/-! ### Migration (R155 to R157) -/

/-- Write one bit of the images of a channel with the value's poison flag, and its item (R168). -/
def State.migBit (s : State) (c : Ch) (b : Nat) (v : Psn Bool) : State :=
  let i := Img.ofBit b
  let (w, s) := s.readImg c none i
  let m : Word := BitVec.ofNat 32 (2 ^ (b % 32))
  let x : Word := if v.v then w.v ||| m else w.v &&& ~~~m
  let s := s.storeAll c i ⟨x, v.p⟩ true
  s.feed c (imgItem i ⟨x, FMap.get false (s.ch c).pmap (Miu.pkey (Miu.cwMaster i) i)⟩)

def State.migWord (s : State) (c : Ch) (w : Nat) (v : Psn Word) : State :=
  let i := Img.ofWord w
  (s.storeAll c i v false).feed c (imgItem i v)

def State.migTc (s : State) (c : Ch) (counter : Bool) (t : Nat) (v : Psn Word) : State :=
  (s.storeTc c counter t v).feed c (tcItem counter t v)

/-- One operation (Table 5-4). -/
def State.migOp (s : State) (c : Ch) (o : MigOp) : State :=
  let src := o.src.toNat
  match o.op with
  | 1 =>
    let b := src % 2 ^ 18
    let (w, s) := s.readImg c none (Img.ofBit b)
    s.migBit c o.dst ⟨w.v.getLsbD (b % 32), w.p⟩
  | 2 =>
    let (w, s) := s.readImg c none (Img.ofWord (src % 2 ^ 14))
    s.migWord c o.dst w
  | 3 => s.migBit c o.dst ⟨o.src.getLsbD 0, false⟩
  | 4 => s.migWord c o.dst ⟨o.src, false⟩
  | 5 =>
    let (w, s) := s.readTc c false (src % 4096)
    s.migTc c false o.dst w
  | 6 =>
    let (w, s) := s.readTc c true (src % 4096)
    s.migTc c true o.dst w
  | 7 => s.migTc c true o.dst ⟨o.src, false⟩
  | 8 => s.migTc c false o.dst ⟨0, false⟩
  | _ => s

/-- The migration list of a channel's new bank, where it was written for the bank replaced. -/
def State.migrate (s : State) (c : Ch) (old : Nat) : State :=
  match (s.ch c).run with
  | some b => if b.migrFrom.toNat = old then foldSt b.migr (fun o s => s.migOp c o) s else s
  | none => s

/-- The registers and the log of a commit's list (R155, R156). DESIGN CHOICE (log 84): an empty list is not skipped, whatever its
from-identity. -/
def State.migrRegs (s : State) (b : Bank) (old : Nat) : State :=
  let skip : Bool := !b.migr.isEmpty && b.migrFrom.toNat ≠ old
  let cost := b.migrCost old
  let s := (s.wrb Reg.CMD_PRG_MIGR_SKIPPED skip).wr Reg.CMD_PRG_MIGR_OPS (if skip then 0 else b.migr.length)
  let s := if cost = 0 then s else s.wr Reg.CMD_PRG_MIGR_COST_CLK cost
  if skip then s.diag 3 Src.prog 0 0x00200410 else s

/-! ### Forces (R158) -/

/-- A force under a new bank: its new location, or none where the symbol counts as gone. -/
def State.remapForce (s : State) (b : Bank) (f : Force) : Option Force :=
  match b.symbol f.sym with
  | none => none
  | some y =>
    let saf := s.safetyLoc y.word y.addr
    if y.word ≠ f.word || (saf && s.md.mode ≠ .maint) then none else some { f with addr := y.addr, safety := saf }

/-- The force table under a new bank, with what was kept and what was removed. -/
def State.remapForces (s : State) (b : Bank) : State :=
  let old := s.forces
  let new := old.map fun (e : Nat × Option Force) => (e.1, e.2.bind fun f => s.remapForce b f)
  let kept := new.filter fun (e : Nat × Option Force) => e.2.isSome
  let gone := new.filter fun (e : Nat × Option Force) => e.2.isNone
  let s := { s with forces := kept }
  let s := (s.wr Reg.CMD_PRG_COMMIT_KEPT kept.length).wr Reg.CMD_PRG_COMMIT_REMOVED gone.length
  let s := foldSt old (fun e s => s.forceWritten e.1) s
  foldSt gone (fun e s => s.diag 4 Src.prog e.1 (0x00201000 + e.1 * 16) [e.1]) s

/-- Every forced value written into a channel's images. -/
def State.forceAll (s : State) (c : Ch) (ft : ForceTab) : State :=
  foldSt (forcedWords ft) (fun i s =>
    let (v, s) := s.readImg c none i
    s.storeAll c i (applyForces (forcesOn ft i) v) (Img.isBit i)) s

/-! ### The commit of the channels in the vote -/

/-- The commit up to its migration list (R154, R155, R158, R160): `w` gives the words of image load under the new bank. -/
def State.commitBanks (s : State) (id : Nat) (w : State → Ch → FMap Word) : State :=
  let old := bankId s.runBank
  let before := s.forces
  let from' := s.sec.runCopy
  let s := foldSt (s.voters.filter fun c => (s.ucWith id).contains c) (fun c s => s.swapBank c) s
  let s := s.wcetRegs
  let s := (s.loadCycle (w s) true).modSec fun x =>
    { x with start := s.rd Reg.CMD_PRG_STATE_LOAD_COPY, runCopy := s.rd Reg.CMD_PRG_STATE_LOAD_COPY }
  let s := s.wr Reg.CMD_PRG_STATE_LOAD_COPY from'
  let s := (s.setTarget none).commitResult 1
  let s := (s.wrb Reg.CMD_PRG_STATE_SWITCH_BACK true).prgRegs
  let s := match s.runBank with
    | some b =>
      let s := (s.remapForces b).migrRegs b old
      foldSt s.voters (fun c s => (s.modCh c Chan.openTraverse).migrate c old) s
    | none => s
  let uc := ((s.voters.filterMap fun c => (s.ch c).uc).head?).map fun b => b.wcet + b.migrCost id
  let s := s.wr Reg.TMU_CYC_WCET_UC_UC_CLK (uc.getD 0)
  foldSt (Ch.all.filter s.keeps) (fun c s => s.modCh c fun h => { h with
    kept := h.kept.map fun x => if x.k = s.tm.cyc then { x with image := forceLoad before x.image } else x }) s

/-- The end of a commit cycle's start: forced values, and the table that the chase of this cycle merges with. -/
def State.commitForces (s : State) : State :=
  let ft := s.forces
  let s := foldSt s.voters (fun c s => s.forceAll c ft) s
  let s := foldSt (Ch.all.filter s.keeps) (fun c s => s.modCh c fun h => { h with
    kept := h.kept.map fun x => if x.k = s.tm.cyc then { x with forces := ft } else x }) s
  s.modMd fun x => { x with cycForces := ft }

/-- A commit that does not proceed (R154): the bank stays armed. -/
def State.commitFails (s : State) : State :=
  ((s.setTarget none).commitResult (if s.commitMode && !s.commitTbc then 4 else 2)).diag 3 Src.prog 0 0x0020040C

end Sys2Proof.Machine
end

