-- ==== Sys2Proof/Machine/Resync.lean ====
section
/-! DEFINITION. Snapshots and resynchronisation of an excluded channel (R181 to R193): the snapshot's layout as it is written and
read, its transfer and acceptance, the chase and the reload of a bank. The layout of the communication state inside its 4,096 bytes
is PRESUMED. -/

namespace Sys2Proof

/-- Length of a snapshot (Table 6-6). -/
def Snap.len : Nat := 143624
/-- Number of its blocks of 256 bytes; the last is partly filled. -/
def Snap.blocks : Nat := 562

/-- CRC-64 of R169 over bytes. -/
def crc64 (l : List Byte) : Word64 := crc64Final (crc64Feed crc64Init l)

/-- A snapshot passes its checks: magic, format, length and CRC-64 (R181, R183). -/
def Snap.ok (l : List Byte) : Bool :=
  l.length = Snap.len && leAt l 0 4 = 0x534E5031 && leAt l 4 2 = 1 && leAt l 56 4 = Snap.len &&
    leAt l 143616 8 = (crc64 (l.take 143616)).toNat

/-- Fields of the header. -/
def Snap.cycle (l : List Byte) : Nat := leAt l 8 8
def Snap.runId (l : List Byte) : Nat := leAt l 16 8
def Snap.acc (l : List Byte) : Word64 := BitVec.ofNat 64 (leAt l 40 8)
def Snap.pos (l : List Byte) : Nat := leAt l 48 1

/-- Two copies are equal but for their sender and their CRC-64 (R183). -/
def Snap.same (a b : List Byte) : Bool :=
  a.take 6 = b.take 6 && (a.take 143616).drop 7 = (b.take 143616).drop 7

end Sys2Proof

namespace Sys2Proof.Machine

/-! ### The communication state -/

/-- Bytes of one peer: miss count, flags, sequences sent since its return began, last reference sequence, produced sequence. -/
def State.peerComm (s : State) (k : Nat) : List Byte :=
  let ref := FMap.get none s.ptn.rxSeq k
  let bit := if k < 128 then s.rd (Reg.PTN_STN_STALE k) else s.rd (Reg.PTN_CONN_FRESH (k - 128))
  let tx := FMap.get 0 s.ptn.txSeq k
  natLE 1 (s.rd (Peer.miss k)) ++ natLE 1 (bit + 2 * s.rd (Peer.subst k) + 4 * s.rd (Peer.ret k) + 16 * bitNat ref.isSome) ++
    natLE 2 (tx + 2 ^ 32 - FMap.get 0 s.ptn.retSeq k) ++ natLE 4 (ref.getD 0) ++ natLE 4 tx

/-- Bytes 139,520 to 143,615 of a snapshot: stations, connections, route staleness. -/
def State.commState (s : State) : List Byte :=
  let routes := (List.range 4096).foldl (fun v r => v + bitNat (FMap.get GwyRoute.init s.gwy.routes r).stale * 2 ^ r) 0
  (List.range 256).flatMap (fun k => s.peerComm k) ++ natLE 1024 routes

/-- Put one peer's communication state into force (R375). -/
def State.setPeerComm (s : State) (k : Nat) (l : List Byte) : State :=
  let fl := leAt l 1 1
  let tx := leAt l 8 4
  let s := ((s.wr (Peer.miss k) (leAt l 0 1)).wr (Peer.subst k) (fl / 2 % 2)).wr (Peer.ret k) (fl / 4 % 4)
  let s := if k < 128 then s.wr (Reg.PTN_STN_STALE k) (fl % 2) else s.wr (Reg.PTN_CONN_FRESH (k - 128)) (fl % 2)
  s.modPtn fun x => { x with
    rxSeq := FMap.set none x.rxSeq k (if natBit fl 4 then some (leAt l 4 4) else none),
    txSeq := FMap.set 0 x.txSeq k tx, sentSeq := FMap.set 0 x.sentSeq k tx,
    retSeq := FMap.set 0 x.retSeq k ((tx + 2 ^ 32 - leAt l 2 2) % 2 ^ 32) }

/-- Replace the communication state (R375). -/
def State.setComm (s : State) (l : List Byte) : State :=
  let s := foldSt (List.range 256) (fun k s => s.setPeerComm k ((l.drop (12 * k)).take 12)) s
  let routes := leAt l 3072 1024
  s.modGwy fun x => { x with routes := s.gwy.cur.routeNos.foldl (fun m r =>
    FMap.set GwyRoute.init m r { FMap.get GwyRoute.init m r with stale := natBit routes r }) x.routes }

/-! ### Sending -/

/-- Words that a channel reads of itself, each through its memory code. -/
def State.readWords (s : State) (f : State → Nat → Psn Word × State) (n : Nat) : List Word × State :=
  (List.range n).foldl (fun (p : List Word × State) i =>
    let (v, s) := f p.2 i
    (p.1 ++ [v.v], s)) ([], s)

/-- Poison map of a snapshot: a bit for each image word, then for each timer and counter. -/
def State.poisonBits (s : State) (c : Ch) : Nat :=
  let m := (s.ch c).pmap
  m.foldl (fun v e =>
    let cw := e.1 / 2
    let j := e.1 % 2
    if !e.2 then v
    else if 0x130000 ≤ cw && cw < 0x133000 then v + 2 ^ ((cw - 0x130000) * 2 + j)
    else if 0x153000 ≤ cw && cw < 0x153800 then v + 2 ^ (0x6000 + (cw - 0x153000) * 2 + j)
    else if 0x153800 ≤ cw && cw < 0x154000 then v + 2 ^ (0x7000 + (cw - 0x153800) * 2 + j)
    else v) 0

/-- A sender reads an uncorrectable word of what a snapshot holds (R191). -/
def State.sendBad (s : State) (c : Ch) : Bool :=
  let h := s.ch c
  (h.errs.any fun e => ((0x130000 ≤ e.1 && e.1 < 0x133000) || (0x153000 ≤ e.1 && e.1 < 0x154200)) &&
    Hsiao.outcome e.2 = .uncorrectable) || (h.tags.any fun e => e.2 && 0x154000 ≤ e.1 && e.1 < 0x154200)

/-- The snapshot of a channel at the end of the present cycle (R181), with byte 6 as given. -/
def State.snapshot (s : State) (c : Ch) (sender : Nat) : List Byte × State :=
  let h := s.ch c
  let mode := s.md.mode.code
  let (img, s) := s.readWords (fun s i => s.readImg c none i) Img.size
  let (tim, s) := s.readWords (fun s t => s.readTc c false t) 4096
  let (cnt, s) := s.readWords (fun s t => s.readTc c true t) 4096
  let n := Ch.num c
  let target := if s.rdb Reg.CMD_PRG_STATE_COMMIT_PENDING then s.commitTarget else 0
  let layout := match h.run with
    | some b => b.layoutId.toNat
    | none => 0
  let forces := (List.range 256).flatMap fun i => match FMap.get none s.forces i with
    | some f => natLE 8 (f.cw 0).toNat ++ natLE 8 (f.cw 1).toNat
    | none => natLE 16 0
  let pos := if h.accStart then s.traverse - 1 else h.travPos - 1
  let head := natLE 4 0x534E5031 ++ natLE 2 1 ++ natLE 1 sender ++ natLE 1 (s.rd (Reg.LEN_STATUS_UC_STATE n)) ++ natLE 8 s.progCyc ++
    natLE 8 (bankId h.run) ++ natLE 8 (bankId h.uc) ++ natLE 8 target ++ natLE 8 h.acc.toNat ++ natLE 1 pos ++ natLE 1 mode ++
    natLE 2 s.forceCount ++ natLE 4 layout ++ natLE 4 Snap.len ++ natLE 196 0
  let body := head ++ img.flatMap wordLE ++ natLE 4096 (s.poisonBits c) ++ tim.flatMap wordLE ++ cnt.flatMap wordLE ++ forces ++
    s.commState
  (body ++ natLE 8 (crc64 body).toNat, s)

/-- Modes in which a channel is resynchronised. -/
def State.resyncMode (s : State) : Bool := s.md.mode = .run2 || s.md.mode = .maint

/-- An attempt that waits for a snapshot. -/
def Chan.waiting (h : Chan) : Bool :=
  (h.st = .excluded || h.st = .resync) && h.plumbLeft = 0 && (match h.attempt with
    | some a => !a.accepted && !a.reloading
    | none => false)

/-- An attempt for which snapshots are sent: from the end of the channel's own plumb check until the attempt ends (R182, R204). -/
def Chan.served (h : Chan) : Bool :=
  (h.st = .excluded || h.st = .resync || h.st = .reloading) && h.plumbLeft = 0 && h.attempt.isSome

/-- `SNAPSHOT_SEND` (R182, R187, R191): both channels in the vote send their snapshots to the excluded channel, in every cycle until the
attempt ends; the first of an attempt sets `STATE` 4. A channel that chases or reloads its bank leaves them where they are. -/
def execSnapshotSend (rx : Ch) (s : State) : Host.Outcome State Fault Refusal :=
  let go := (s.ch rx).served && s.resyncMode && s.voters.length = 2 && s.voters.any s.completed && !s.down
  let takes := (s.ch rx).waiting
  .next (if !go then s
    else
      let s := foldSt s.voters (fun c s =>
        let bad := s.sendBad c
        let (l, s) := s.snapshot c (Ch.num c)
        s.modCh c fun h => { h with sendPsn := bad, sent := l }) s
      if !takes then s
      else
      let first : Bool := match (s.ch rx).attempt with
        | some a => a.startOp = 0
        | none => true
      let s := s.modCh rx fun h => { h with
        st := .resync,
        attempt := h.attempt.map fun a => { a with
          startOp := if first then s.tm.opNs + 1 else a.startOp, startCyc := if first then s.tm.cyc else a.startCyc,
          copies := [], nextK := s.tm.cyc + 1 } }
      let s := if first then s.inc Reg.VOT_RESYNC_ATTEMPTS else s
      ((s.wr Reg.VOT_RESYNC_STAGE 2).wr Reg.VOT_RESYNC_CHANNEL (Ch.num rx)).wr Reg.VOT_RESYNC_CHASED 0)

/-! ### Receiving -/

/-- Write the word at an offset of a snapshot into a channel's image, timer and counter stores (R183). The communication state is the
module's and the same in every channel. -/
def State.restoreWord (s : State) (c : Ch) (off : Nat) (v : Word) : State :=
  if off < 256 then s
  else if off < 98560 then s.storeAll c ((off - 256) / 4) ⟨v, false⟩ false
  else if off < 102656 then
    let base := (off - 98560) * 8
    foldSt (List.range 32) (fun b s =>
      let i := base + b
      let p := v.getLsbD b
      if i < 0x6000 then (foldSt lanes16 (fun l s => s.markImg c (some l) i p) s).markImg c none i p
      else s.setPsn c (Miu.pkey (if i < 0x7000 then Miu.cwTimer (i - 0x6000) else Miu.cwCounter (i - 0x7000)) i) p) s
  else if off < 135424 then
    let t := (off - 102656) / 4
    let counter : Bool := 4096 ≤ t
    let t := t % 4096
    let p := FMap.get false (s.ch c).pmap (Miu.pkey (if counter then Miu.cwCounter t else Miu.cwTimer t) t)
    s.storeTc c counter t ⟨v, p⟩
  else s

/-- The force that an entry of a force table spells in its sixteen bytes, as `CMD_FORCE_SYM` to `CMD_FORCE_VAL` show it. -/
def forceOfBytes (l : List Byte) : Option Force :=
  let a := leAt l 4 4
  if natBit a 31 then
    some { sym := BitVec.ofNat 32 (leAt l 0 4), safety := natBit a 30, word := natBit a 28, addr := a % 2 ^ 18,
           value := BitVec.ofNat 32 (leAt l 8 4) }
  else none

/-- Write an entry of a snapshot's force table into the force store of a channel (R183). -/
def State.restoreForce (s : State) (c : Ch) (n : Nat) (f : Option Force) : State :=
  (s.modCh c fun h => { h with ownForces := some (FMap.set none (h.ownForces.getD s.forces) n f) }).storeWritten c (Miu.cwForce n) 2

/-- Write bytes from an offset on, in whole words and in whole entries of the force table. -/
def State.restoreBytes (s : State) (c : Ch) (off : Nat) (l : List Byte) : State :=
  let s := foldSt (List.range (l.length / 4)) (fun j s => s.restoreWord c (off + 4 * j) (BitVec.ofNat 32 (leAt l (4 * j) 4))) s
  foldSt (List.range (l.length / 16)) (fun j s =>
    let o := off + 16 * j
    if 135424 ≤ o && o < 139520 then s.restoreForce c ((o - 135424) / 16) (forceOfBytes ((l.drop (16 * j)).take 16)) else s) s

/-- The block belongs to the first stream, which is written as it arrives. -/
def firstStream (l : List SnapCopy) (tx : Ch) : Bool :=
  match l with
  | x :: _ => x.sender = tx
  | [] => true

/-- A block into the copy of its sender; the copies stand in the order in which they began to arrive. -/
def addBlock (l : List SnapCopy) (tx : Ch) (idx : Nat) (bytes : List Byte) (bad : Bool) : List SnapCopy :=
  if l.any fun x => x.sender = tx then
    l.map fun x => if x.sender = tx then { x with blocks := FMap.put x.blocks idx bytes, bad := x.bad || bad } else x
  else l ++ [{ sender := tx, blocks := [(idx, bytes)], bad := bad }]

/-- `SNAPSHOT_BLOCK` (R182, R183, R191): a block with good framing is kept, and the first stream is written at once; the final
block carries the sender's mark. -/
def execSnapshotBlock (rx tx : Ch) (idx : Nat) (ok markBad : Bool) (bytes : List Byte) (s : State) :
    Host.Outcome State Fault Refusal :=
  let h := s.ch rx
  let go := ok && h.st = .resync && h.waiting && rx ≠ tx && s.inVote tx && idx < Snap.blocks && bytes.length = 256 && !s.down
  .next (match h.attempt with
    | some a =>
      if !go then s
      else
        let bad := idx = Snap.blocks - 1 && (markBad || (s.ch tx).sendPsn)
        let s := if firstStream a.copies tx then
            s.restoreBytes rx (idx * 256) bytes else s
        s.modCh rx fun h => { h with attempt := some { a with copies := addBlock a.copies tx idx bytes bad } }
    | none => s)

/-- The bytes of a copy of which every block has arrived. -/
def SnapCopy.whole (x : SnapCopy) : Option (List Byte) :=
  if x.blocks.length = Snap.blocks then some ((x.blocks.flatMap fun e => e.2).take Snap.len) else none

/-- The bytes of a copy that passes its checks. -/
def SnapCopy.passes (x : SnapCopy) : Option (List Byte) :=
  if x.bad then none else x.whole.bind fun l => if Snap.ok l then some l else none

/-- Copies that a receiver found to pass, that of the earlier of its two senders in bit 0. -/
def copyMask (rx : Ch) (l : List SnapCopy) : Nat :=
  (l.filter fun x => x.passes.isSome).foldl (fun m x => m ||| (if rx.others.head? = some x.sender then 1 else 2)) 0

/-- The program store or the table store of a channel's running bank holds a poisoned codeword (R214). -/
def State.runPoisoned (s : State) (c : Ch) : Bool := s.bankPoisoned c (s.physRun c)

/-- A copy of the channel's own plug flash that holds the bank of an identity. -/
def State.ownCopy (s : State) (c : Ch) (id : Nat) : Option Nat :=
  [0, 1].find? fun k => (s.copyBank c k).isSome && bankId (s.copyBank c k) = id

/-- The channel has the bank that the snapshot names: as its running bank, or by committing its armed undercoat (R159, R185). A bank
with a poisoned codeword is reloaded from the channel's own plug flash, as an unknown one is (R214); none where it has no copy. -/
def State.takeBank (s : State) (c : Ch) (id : Nat) : Option (Bool × State) :=
  if bankId (s.ch c).run = id && !s.runPoisoned c then some (true, s)
  else if bankId (s.ch c).run ≠ id && s.ucState c = 4 && bankId (s.ch c).uc = id then some (true, (s.swapBank c).prgRegs)
  else if (s.ownCopy c id).isSome then some (false, s)
  else none

/-- A snapshot is accepted (R183, R185): its contents stand in the channel, which chases from the next cycle on. -/
def State.takeSnapshot (s : State) (c : Ch) (l : List Byte) : State :=
  match s.takeBank c (Snap.runId l) with
  | none => s.failAttempt c 9
  | some (false, s) =>
    (s.modCh c fun h => { h with st := .reloading, attempt := h.attempt.map fun a => { a with reloading := true, copies := [] } }).wr
      Reg.VOT_RESYNC_STAGE 4
  | some (true, s) =>
    let s := s.restoreBytes c 0 (l.take 143616)
    let s := s.modCh c fun h => { h with
      acc := Snap.acc l, travPos := Snap.pos l + 1, accStart := false, lanes := [],
      attempt := h.attempt.map fun a => { a with
        accepted := true, copies := [], nextK := Snap.cycle l + 1, chased := 0, acc := Snap.acc l, travPos := Snap.pos l,
        inTime := false } }
    s.wr Reg.VOT_RESYNC_STAGE 3

/-- `SNAPSHOT_ACCEPT` (R183, R189): 0.5 µs after the last block. -/
def execSnapshotAccept (rx : Ch) (s : State) : Host.Outcome State Fault Refusal :=
  let h := s.ch rx
  .next (match h.attempt with
    | some a =>
      if !(h.st = .resync && h.waiting && 0 < a.startOp) || s.down then s
      else
        let s := (s.wr Reg.VOT_RESYNC_COPIES (copyMask rx a.copies)).wr Reg.VOT_XFER_TIME_XFER
          (if a.nextK = s.tm.cyc + 1 then 15336 else 15344)
        match a.copies.filterMap SnapCopy.passes with
        | [x] => s.takeSnapshot rx x
        | [x, y] => if Snap.same x y then s.takeSnapshot rx x else s.failAttempt rx 2
        | _ => s.failAttempt rx (if a.copies.length = 2 && a.copies.all fun x => x.bad then 7 else 1)
    | none => s)

/-! ### The chase -/

/-- Latest-start point of a chase cycle in ns of chainage (R187); `clk` is the cost of the cycle's program. -/
def State.latestStart (s : State) (clk : Nat) : Nat := s.tbc - 3960 - clk * 5 / 2

/-- Re-execute a kept cycle in a channel (R186, R193): image load, a commit at its Tc, the whole program, its items. The second
result is its cost in clocks. -/
def State.chase (s : State) (c : Ch) (x : Kept) : Nat × State :=
  let n := Ch.num c
  let s := if x.first || (s.ch c).accStart then s.modCh c fun h => { (h.openTraverse) with acc := crc64Init, travPos := 0, accStart := false } else s
  let (w, s) := s.readKept c x
  let s := s.imageLoad c w (if x.commit then [] else x.forces)
  let old := bankId (s.ch c).run
  let s := if x.commit && (s.ch c).uc.isSome && (s.ucState c = 3 || s.ucState c = 4) then
      ((s.swapBank c).prgRegs.migrate c old).forceAll c x.forces else s
  let s := s.startProgram c
  let clk := match (s.ch c).run with
    | some b => b.wcet + (if x.commit then b.migrCost old else 0)
    | none => 0
  let s := match (s.ch c).run with
    | some b => s.runPhases c b x.forces b.phases
    | none => s
  let s := (s.laneStatus c).finishSig c x.k
  let (cur, s) := (List.range' 0x60 32).foldl (fun (p : FMap Word × State) i =>
    let (v, s) := p.2.readImg c none i
    (FMap.set 0 p.1 i v.v, s)) ([], s)
  (clk, (s.modCh c fun h => { h with prevEvents := cur, lanes := [], ownForces := some x.forces }).wr (Reg.LEN_STATUS_RUN n) 2)

/-- A chase cycle of an excluded channel (R186, R187, R189): one that started at a chainage of the cycle it re-executes, or later,
completes. One of the current cycle that started by the latest-start point rejoins at the next Tc. A controller that takes poison from the
kept cycle stops (R215). -/
def State.chaseDone (s : State) (rx : Ch) (startNs : Nat) : State :=
  let h := s.ch rx
  match h.attempt with
  | some a =>
    match h.kept.find? fun x => x.k = a.nextK with
    | some x =>
        if h.st ≠ .resync || !a.accepted || h.ccuStop || s.down then s
        else
          let (clk, s) := s.chase rx x
          if (s.ch rx).ccuStop then s
          else if some (s.ch rx).acc ≠ x.acc then s.failAttempt rx 3
          else
            let inTime : Bool := x.k = s.tm.cyc && startNs ≤ s.latestStart clk
            let s := s.modCh rx fun h => { h with
              kept := h.kept.filter fun y => x.k < y.k,
              attempt := h.attempt.map fun a => { a with nextK := x.k + 1, chased := a.chased + 1, inTime := inTime } }
            let s := s.wr Reg.VOT_RESYNC_CHASED (a.chased + 1)
            if inTime then s.modMd fun y => { y with rejoinReq := y.rejoinReq ++ [rx] } else s
    | none => s
  | none => s

/-- `RESYNC_TIMEOUT` (R189, R190): no rejoin within 16 basic cycles of the start of the transfer. -/
def execResyncTimeout (rx : Ch) (s : State) : Host.Outcome State Fault Refusal :=
  let h := s.ch rx
  .next (match h.attempt with
    | some a =>
      if h.st = .resync && 0 < a.startOp && a.startCyc + 16 ≤ s.tm.cyc && !s.md.halted && !s.md.rejoinReq.contains rx && !s.down then
        s.failAttempt rx 4
      else s
    | none => s)

/-- `BANK_RELOAD_DONE` (R91, R185, R214): the channel holds the running bank of the channels in the vote again, checked anew, and
waits for a new snapshot; one whose flash has no bank of the identity that passes is retired. -/
def execBankReloadDone (rx : Ch) (s : State) : Host.Outcome State Fault Refusal :=
  let id := bankId s.runBank
  .next (if (s.ch rx).st ≠ .reloading || s.down then s
    else
      match s.ownCopy rx id with
      | none => s.failAttempt rx 9
      | some k =>
        let b := s.copyBank rx k
        let s := s.notePages rx k
        match b.bind s.bankBreach with
        | some x => (s.breachRegs rx x).failAttempt rx 9
        | none =>
          let s := ((s.breachRegs rx Breach.none).plugRegs rx k).modCh rx fun h => { h with
            run := b, st := .resync,
            attempt := h.attempt.map fun a => { a with reloading := false, accepted := false, copies := [], nextK := 0 } }
          ((s.bankWritten rx (s.physRun rx)).runRegs rx).wr Reg.VOT_RESYNC_STAGE 1)

end Sys2Proof.Machine
end

