-- ==== Sys2Proof/Machine/Twn.lean ====
section
/-! DEFINITION. Twin operation (R367 to R392): the twin link's units, the standby's cycle with its comparison and adoption, snapshots
and currency, the lease with its RENEW, REQUEST, GRANT and RELEASE, the arbiter, and planned handover. The layout of the input record
inside its blocks is PRESUMED. -/

namespace Sys2Proof

/-- Image words of an input record, in order: those that image load writes, the safety inputs and system words last (Table 12-1). -/
def TwinRec.words : List Nat :=
  List.range' 0x80 0x780 ++ List.range' 0x2100 0x80 ++ List.range' 0x2200 0xE00 ++ List.range 0x20 ++ List.range' 0x40 0x20 ++
    List.range' 0x2000 0x100

/-- The bytes of an input record: header, force table where it carries one, image words. -/
def TwinRec.bytes (k : Nat) (ft : Option (List Byte)) (w : FMap Word) : List Byte :=
  natLE 8 k ++ natLE 1 (if ft.isSome then 1 else 0) ++ List.replicate 247 0 ++ ft.getD [] ++
    TwinRec.words.flatMap fun i => wordLE (FMap.get 0 w i)

/-- An input record in its parts: cycle, force table where it carries one, image words. -/
def TwinRec.parse (b : List Byte) : Option (Nat × Option (List Byte) × FMap Word) :=
  let ft : Bool := natBit (leAt b 8 1) 0
  let at' := if ft then 4352 else 256
  if b.length ≠ at' + 23808 then none
  else
    let w := (TwinRec.words.zipIdx.foldl (fun (p : FMap Word × List Byte) e =>
      (FMap.set 0 p.1 e.1 (BitVec.ofNat 32 (leAt p.2 0 4)), p.2.drop 4)) ([], b.drop at')).1
    some (leAt b 0 8, if ft then some ((b.drop 256).take 4096) else none, w)

/-- A force table from its 4,096 bytes. -/
def Machine.ForceTab.parse (b : List Byte) : Machine.ForceTab :=
  (List.range 256).foldl (fun m i => FMap.set none m i (Machine.forceOfBytes ((b.drop (16 * i)).take 16))) []

/-- The 32 bytes of a LEASE payload (Table 12-3). -/
def LeaseMsg.bytes (m : LeaseMsg) : List Byte :=
  natBE 1 m.kind ++ natBE 1 m.pair ++ natBE 4 m.epoch ++ natBE 8 m.cycle ++ natBE 8 m.kSnap ++ natBE 1 m.flags ++ natBE 1 m.node ++
    natBE 8 m.last

/-- Flags of a LEASE message. -/
def LeaseMsg.current (m : LeaseMsg) : Bool := natBit m.flags 0
def LeaseMsg.handover (m : LeaseMsg) : Bool := natBit m.flags 1
def LeaseMsg.pos (m : LeaseMsg) : Nat := m.flags / 4 % 2

/-- Key of the reference sequence of a LEASE connection and source. -/
def LeaseMsg.key (m : LeaseMsg) : Nat := m.connId * 64 + m.src

end Sys2Proof

namespace Sys2Proof.Machine

def State.modTwn (s : State) (f : TwnSt → TwnSt) : State := { s with twn := f s.twn }

/-! ### State of the pair -/

/-- The module's own node and its partner's. -/
def State.node (s : State) : Nat := s.rd Reg.PTN_CFG_NODE
def State.partnerNode (s : State) : Nat := s.rd Reg.TWN_CFG_PARTNER

/-- The lease length in basic cycles, and the arbiters that make a quorum. -/
def State.lz (s : State) : Nat := s.rd Reg.TWN_CFG_LZ
def State.lzOf (s : State) (p : Nat) : Nat := FMap.get 0 s.twn.slotLz p
def State.quorum (s : State) : Nat := s.rd Reg.TWN_CFG_QUORUM
def State.arbiters (s : State) : List Nat :=
  [s.rd Reg.TWN_ARB_NODES_ARB0, s.rd Reg.TWN_ARB_NODES_ARB1, s.rd Reg.TWN_ARB_NODES_ARB2].filter (· ≠ 0)

/-- A STANDBY module of a pair that runs. -/
def State.standby (s : State) : Bool := s.twin && s.md.role = .standby && !s.down

/-- The standby is current (R379). -/
def State.current (s : State) : Bool :=
  s.md.role = .standby && s.leaseMode && s.twn.adopt.isNone && s.twn.good &&
    (match s.twn.held with
     | some (_, l) => bankId s.runBank = Snap.runId l
     | none => false)

/-- The partner acknowledged one of the last three snapshots sent without a mismatch (R378). -/
def State.partnerCurrent (s : State) : Bool := s.twn.sent.any fun e => e.2 = some false

/-- The cycle at whose Tc the active's lease ends (R382). -/
def State.leaseEnd (s : State) : Nat := s.twn.ackAt + s.lz - (if s.timeValid then 1 else 2)

/-- The twin registers that follow from the twin unit's state. -/
def State.twnRegs (s : State) : State :=
  let act : Bool := s.md.role = .active
  let s := (s.wrb Reg.TWN_STATUS_CURRENT s.current).wrb Reg.TWN_STATUS_ADOPTING s.twn.adopt.isSome
  let s := s.wrb Reg.TWN_STATUS_PARTNER_CURRENT (act && s.partnerCurrent)
  let s := s.wr Reg.TWN_STATUS_LEASE_LEFT (if act then min 255 (s.leaseEnd - s.tm.cyc) else 0)
  s.wr Reg.TWN_SNAP_HELD_CYCLE (if act then s.twn.kSnap else match s.twn.held with
    | some (k, _) => k
    | none => 0)

/-- A mismatch, recorded at severity 4; the standby adopts the next complete snapshot (R373, R374). -/
def State.mismatch (s : State) (count : Fld) : State :=
  (((s.inc count).diag 4 Src.twn 0 0x00E00018).modTwn fun x => { x with adopt := some 0 }).twnRegs

/-- A result of a planned handover (R389 to R391). -/
def State.hoResult (s : State) (r : Nat) : State :=
  ((s.wr Reg.TWN_HANDOVER_RESULT r).incWrap Reg.TWN_HANDOVER_SEQ).modTwn fun x => { x with ho := none }

/-! ### The twin link -/

/-- A unit discarded for a bad block (R370). -/
def State.blockErr (s : State) : State := s.inc Reg.TWN_LINK_BLOCK_ERR

/-- `TWIN_LINK_CHANGE` (R370): the link trains or is lost; a snapshot that stops part-way is discarded (R377). -/
def execTwinLinkChange (up : Bool) (s : State) : Host.Outcome State Fault Refusal :=
  .next (if s.down then s
    else
      let s := s.wrb Reg.TWN_STATUS_LINK_UP up
      if up then s
      else
        let s := if s.twn.rx.isEmpty then s else s.inc Reg.TWN_SNAP_COUNT_DISCARDED
        s.modTwn fun x => { x with rx := [], rxK := 0 })

/-- `TWIN_INPUT_RECORD` (R370, R372): a whole record of the standby's own cycle, complete before the deadline. -/
def execTwinInputRecord (bytes : List Byte) (s : State) : Host.Outcome State Fault Refusal :=
  .next (if !s.standby || s.twn.late then s
    else
      match TwinRec.parse bytes with
      | some (k, _, _) => if k = s.tm.cyc then s.modTwn fun x => { x with recIn := some bytes } else s.blockErr
      | none => s.blockErr)

/-- Differences of the standby's own agreed inputs from the record's (R376): an input differs where its value or that of its declared
pair does. -/
def State.countInDiff (s : State) (w : FMap Word) : State :=
  let own := InVals.agree (s.voters.map fun c => (s.ch c).agreed)
  let si := FMap.get 0 w 0
  let pair := FMap.get 0 w 1
  foldSt in24 (fun i s =>
    let decl := s.rdb (Reg.SIO_PAIR_CFG_DECLARED (i / 2))
    let differs := own.si.getLsbD i ≠ si.getLsbD i || (decl && own.pair.getLsbD (i / 2) ≠ pair.getLsbD (i / 2))
    let limit := 2 + (s.rd (Reg.SIO_IN_CFG_FILTER i) * 250000 + s.tbc - 1) / s.tbc
    let n := if differs then min (limit + 1) (FMap.get 0 s.twn.inDiff i + 1) else 0
    let was := FMap.get 0 s.twn.inDiff i
    let s := s.modTwn fun x => { x with inDiff := FMap.set 0 x.inDiff i n }
    if limit < n && was ≤ limit then (s.setBit Reg.TWN_IN_DIFF_INPUTS i).diag 4 Src.twn i 0x00E0001C [i] else s) s

/-- Words of the image load of a channel: those of the record where the module is a standby that has one, otherwise its own
(R372). -/
def State.sourceWords (s : State) (c : Ch) (commit : Bool) : FMap Word :=
  if s.md.role = .standby && s.twn.ran then
    match s.twn.recIn.bind TwinRec.parse with
    | some (_, _, w) => w
    | none => s.imgWords c commit
  else s.imgWords c commit

/-- The communication state of the snapshot accepted last comes into force at this image load (R375). -/
def State.takeComm (s : State) : State :=
  if s.twn.commNext = [] then s else (s.setComm s.twn.commNext).modTwn fun x => { x with commNext := [] }

/-- The record of this cycle, or a free run. -/
def State.takeRecord (s : State) : State :=
  match s.twn.recIn.bind TwinRec.parse with
  | some (_, ft, w) =>
    let s := match ft with
      | some b => (s.putForces (ForceTab.parse b)).modTwn fun x => { x with ftAt := s.tm.cyc + 1 }
      | none => s
    let s := s.countInDiff w
    let k : Kept := { k := s.tm.cyc, image := w, forces := s.forces, first := s.voters.any fun c => (s.ch c).accStart,
                      commit := s.md.commitDue, acc := none }
    let s := s.modTwn fun x => { x with ran := true, kept := keepEight x.kept k }
    let s := foldSt s.voters (fun c s =>
      (s.modCh c fun h => { h with kept := keepEight h.kept k }).storeWritten c (Miu.keptLo k.k) Miu.keptN) s
    s.wrb Reg.TWN_STATUS_FREE_RUN false
  | none =>
    let s := s.wrb Reg.TWN_STATUS_FREE_RUN true
    if s.rdb Reg.TWN_STATUS_LINK_UP then s.inc Reg.TWN_LINK_REC_LATE else s

/-- A chase of an adoption is under way: its cycles are re-executed instead of run. -/
def State.chasing (s : State) : Bool :=
  match s.twn.adopt with
  | some n => 0 < n
  | none => false

/-- `TWIN_RECORD_DEADLINE` (R372, R375): the standby's image load, from the record or from its own agreement. -/
def execTwinRecordDeadline (s : State) : Host.Outcome State Fault Refusal :=
  .next (if !s.standby || !s.md.taken || s.twn.late then s
    else
      let s := s.takeRecord.modTwn fun x => { x with late := true }
      if s.md.halted then s
      else
        let s := s.ptnLoad.takeComm
        if s.chasing || !s.executes || s.md.commitDue then s
        else (s.loadCycle (fun c => s.sourceWords c s.md.firstCommit) false).startAll)

/-! ### The comparison (R373) -/

/-- The decided signature of a traverse that ended with this cycle. -/
def State.decidedSig (s : State) : Option Word64 :=
  majority (s.voters.map fun c => (s.ownSig c).bind fun r => if r.travEnd then some r.acc else none)

/-- Compare the decided signature with the active's. -/
def State.twinCompare (s : State) : State :=
  match s.twn.sigIn with
  | none => s
  | some r =>
    let s := s.modTwn fun x => { x with sigIn := none }
    match s.decidedSig with
    | some v => if s.twn.ran && !s.chasing && r.travEnd && v ≠ r.acc then s.mismatch Reg.TWN_CMP_SIG_DIFF else s
    | none => s

/-- `TWIN_SIGNATURE_RECORD` (R373, R379): `ovr` of the record stands for a decision SAFE. -/
def execTwinSignatureRecord (r : SigRec) (s : State) : Host.Outcome State Fault Refusal :=
  .next (if !s.standby then s
    else if !r.crcOk || r.k16.toNat ≠ s.tm.cyc % 65536 then s.blockErr
    else
      let s := s.modTwn fun x => { x with
        sigIn := some r, expect := if r.ovr || !x.ran then x.expect else x.expect ++ [s.tm.cyc],
        kept := x.kept.map fun k => if k.k = s.tm.cyc then { k with acc := some r.acc } else k }
      if s.md.decided then s.twinCompare else s)

/-! ### Snapshots -/

/-- The snapshot that the channels in the vote agree, block by block (R371), with byte 6 naming the lowest of them. -/
def State.twinSnapshot (s : State) : Option (List Byte) × State :=
  let cs := s.voters.filter s.completed
  let sender := match cs with
    | c :: _ => Ch.num c
    | [] => 0
  let (l, s) := cs.foldl (fun (p : List (List (Option Byte)) × State) c =>
    let (b, s) := p.2.snapshot c sender
    (p.1 ++ [b.map some], s)) ([], s)
  (majorityBytes l, s)

/-- CRC-64 of bytes 256 to 139,519 of a snapshot (R373). -/
def stateCrc (l : List Byte) : Nat := (crc64 ((l.take 139520).drop 256)).toNat

/-- The twin's part of the capture: the active sends its snapshot or aborts it, the standby keeps the CRC-64 of its own state. -/
def State.twinCapture (s : State) : State :=
  if s.twinSends then
    if s.md.safeStage then s.inc Reg.TWN_SNAP_COUNT_ABORTED
    else
      match s.twinSnapshot with
      | (some l, s) =>
        ((s.inc Reg.TWN_SNAP_COUNT_COMPLETE).modTwn fun x => { x with
          txSnap := some l, sent := (x.sent ++ [(s.tm.cyc, none)]).drop (x.sent.length - 2) }).twnRegs
      | (none, s) => s.inc Reg.TWN_SNAP_COUNT_ABORTED
  else if s.standby && s.twn.ran then
    let (l, s) := s.twinSnapshot
    let v := match l with
      | some l => stateCrc l
      | none => 2 ^ 64
    s.modTwn fun x => { x with own := (x.own ++ [(s.tm.cyc, v)]).drop (x.own.length - 7) }
  else s

/-- `SNAPSHOT_CAPTURE` (R140, R371): the save buffers, and the twin snapshot of the cycle. DESIGN CHOICE (log 85): a channel in the vote
that did not complete the cycle takes no part in their agreement. -/
def execSnapshotCapture (s : State) : Host.Outcome State Fault Refusal :=
  let cs := s.voters.filter s.completed
  .next (if cs = [] || s.down then s
    else
      ((foldSt cs (fun c s => s.capture c) s).modMd fun x => { x with
        done := some (cs, s.progCyc, if s.timeValid then s.tm.tcNs else 0) }).twinCapture)

/-- The snapshot being received is discarded (R377); the rest of it is ignored. -/
def State.dropUnit (s : State) : State :=
  ((s.blockErr).inc Reg.TWN_SNAP_COUNT_DISCARDED).modTwn fun x => { x with rx := [], rxK := 1 }

/-- `TWIN_SNAPSHOT_BLOCK` (R370, R377): blocks in order with good framing; block 0 starts a unit. -/
def execTwinSnapshotBlock (idx : Nat) (ok : Bool) (bytes : List Byte) (s : State) : Host.Outcome State Fault Refusal :=
  .next (if !s.standby || !s.rdb Reg.TWN_STATUS_LINK_UP then s
    else
      let good := ok && bytes.length = 256 && idx < Snap.blocks
      if idx = 0 && good then
        let s := if s.twn.rx.isEmpty then s else s.inc Reg.TWN_SNAP_COUNT_DISCARDED
        s.modTwn fun x => { x with rx := [(0, bytes)], rxK := 0 }
      else if s.twn.rxK = 1 then s
      else if good && idx = s.twn.rx.length then s.modTwn fun x => { x with rx := x.rx ++ [(idx, bytes)] }
      else s.dropUnit)

/-- The held snapshot goes into every channel in the vote, which abandon the cycle in progress (R374); it needs the bank that they
run. -/
def State.adoptInto (s : State) (l : List Byte) : Option State :=
  if s.voters.any fun c => bankId (s.ch c).run ≠ Snap.runId l then none
  else some (foldSt s.voters (fun c s =>
    let s := s.restoreBytes c 0 (l.take 143616)
    let last : Bool := s.traverse ≤ Snap.pos l + 1
    (s.modCh c fun h => { h with
      acc := Snap.acc l, travPos := if last then 0 else Snap.pos l + 1, accStart := last, lanes := [], sigRecs := [],
      ownForces := none }).wr (Reg.LEN_STATUS_RUN (Ch.num c)) 0) s)

/-- An adoption fails and waits for the next snapshot (R374). -/
def State.adoptFails (s : State) : State :=
  ((s.inc Reg.TWN_CMP_ADOPT_FAIL).modTwn fun x => { x with adopt := some 0 }).twnRegs

/-- Adopt the held snapshot: the channels chase from its next cycle on. Where its bank stands armed here, the commit at the next Tc
comes first (R164), and the adoption takes a later snapshot. -/
def State.adoptHeld (s : State) (k : Nat) (l : List Byte) : State :=
  match s.adoptInto l with
  | none => if s.armedId = some (Snap.runId l) then s else s.adoptFails
  | some s =>
    let s := s.modMd fun x => { x with loadDone := false }
    (s.modTwn fun x => { x with adopt := some (k + 2), kept := x.kept.filter fun y => k < y.k }).twnRegs

/-- R164: the active runs a bank that stands armed here; it is committed at the next Tc, in the place of any later target. -/
def State.followBank (s : State) (id : Nat) : State :=
  if bankId s.runBank ≠ id && s.armedId = some id then s.setTarget (some (s.tm.tcNs + s.tbc)) else s

/-- The active's force table in a snapshot (R150), unless an input record of a later cycle brought a newer one. -/
def State.takeForces (s : State) (k : Nat) (l : List Byte) : State :=
  if s.twn.ftAt ≤ k + 1 then s.putForces (ForceTab.parse ((l.drop 135424).take 4096)) else s

/-- A complete snapshot becomes the held one (R373, R375, R377, R379). -/
def State.holdSnapshot (s : State) (l : List Byte) : State :=
  let k := Snap.cycle l
  let s := s.modTwn fun x => { x with
    rx := [], rxK := 0, held := some (k, l), missed := 0, expect := x.expect.filter fun y => k < y,
    commNext := (l.drop 139520).take 4096 }
  let s := s.modSio fun x => { x with twinOut := BitVec.ofNat 12 (leAt l 384 4) }
  let s := ((s.inc Reg.TWN_SNAP_COUNT_COMPLETE).followBank (Snap.runId l)).takeForces k l
  let own := (s.twn.own.find? fun e => e.1 = k).map (·.2)
  let differs : Bool := match own with
    | some v => v ≠ stateCrc l
    | none => false
  let s := if differs && !s.chasing then s.mismatch Reg.TWN_CMP_STATE_DIFF
    else if own.isSome && !differs then s.modTwn fun x => { x with good := true }
    else s
  let s := s.modTwn fun x => { x with txK := some (k, differs) }
  (if s.twn.adopt = some 0 then s.adoptHeld k l else s).twnRegs

/-- `TWIN_SNAPSHOT_ACCEPT` (R377): 0.5 µs after the last block. -/
def execTwinSnapshotAccept (s : State) : Host.Outcome State Fault Refusal :=
  let l := (s.twn.rx.flatMap fun e => e.2).take Snap.len
  let older : Bool := match s.twn.held with
    | some (k, _) => decide (Snap.cycle l < k)
    | none => false
  .next (if !s.standby || s.twn.rx.length ≠ Snap.blocks then s
    else if !Snap.ok l || older then
      (s.inc Reg.TWN_SNAP_COUNT_DISCARDED).modTwn fun x => { x with rx := [], rxK := 0 }
    else s.holdSnapshot l)

/-- `SNAPSHOT_ACKNOWLEDGEMENT` (R378). -/
def execSnapshotAcknowledgement (k : Nat) (mismatch : Bool) (s : State) : Host.Outcome State Fault Refusal :=
  .next (if s.twin && s.md.role = .active && !s.down && k ≤ s.tm.cyc then
      (s.modTwn fun x => { x with
        sent := x.sent.map fun e => if e.1 = k then (k, some mismatch) else e, kSnap := max x.kSnap k }).twnRegs
    else s)

/-! ### The chase of an adoption -/

/-- An adoption is complete. -/
def State.adopted (s : State) : State :=
  ((s.inc Reg.TWN_CMP_ADOPTED).modTwn fun x => { x with adopt := none, good := true, missed := 0 }).twnRegs

/-- One cycle of the chase, in every channel in the vote (R374). A cycle whose record is missing, or whose accumulator does not match,
fails the adoption. -/
def State.adoptCycle (s : State) (k startNs : Nat) : State :=
  match s.twn.kept.find? fun x => x.k = k with
  | none => if k < s.tm.cyc || (k = s.tm.cyc && s.twn.late) then s.adoptFails else s
  | some x =>
    let (clk, s) := s.voters.foldl (fun (p : Nat × State) c =>
      let (n, s) := p.2.chase c x
      (max p.1 n, s.modCh c fun h => { h with ownForces := none })) (0, s)
    if s.voters.any fun c => some (s.ch c).acc ≠ x.acc then s.adoptFails
    else if x.k = s.tm.cyc && startNs ≤ s.latestStart clk + 10000 then s.adopted
    else s.modTwn fun y => { y with adopt := some (k + 2) }

/-- `CHASE_CYCLE` (R186, R187, R189, R374): a chase cycle of an excluded channel, or one of a standby's adoption, which runs in all of its
channels at once. -/
def execChaseCycle (rx : Ch) (startNs : Nat) (s : State) : Host.Outcome State Fault Refusal :=
  .next (if s.standby && s.inVote rx then
      match s.twn.adopt with
      | some (k + 1) => s.adoptCycle k startNs
      | _ => s
    else s.chaseDone rx startNs)

/-! ### Sending LEASE frames -/

/-- LEASE entries of this cycle, in order of their windows. -/
def State.leaseEntries (s : State) : List Nat :=
  (s.entries.filter fun e => (s.entry e).kind = 2 && (s.entry e).ftype = 5 && (s.entry e).inCycle s.mi).mergeSort
    fun a b => (s.entry a).start ≤ (s.entry b).start

/-- Send a LEASE message in an entry's window with its safety trailer (R380). -/
def State.sendLease (s : State) (e : Nat) (m : LeaseMsg) : State :=
  let k := 256 + (s.entry e).slot
  let seq := (FMap.get 0 s.ptn.txSeq k + 1) % 2 ^ 32
  let s := s.modPtn fun x => { x with txSeq := FMap.set 0 x.txSeq k seq }
  (s.sendFrame e none (withTrailer (s.ptn.net.ent e).connId seq (s.tm.tcNs / 1000 % 2 ^ 32) 0 m.bytes)).2

/-- A message of this module for its own pair; its connection ID and sequence are those of its trailer. -/
def State.ownLease (s : State) (kind epoch kSnap flags node last : Nat) : LeaseMsg :=
  { kind := kind, pair := s.rd Reg.TWN_CFG_PAIR_ID, src := s.node, node := node, epoch := epoch, cycle := s.tm.cyc, kSnap := kSnap,
    flags := flags, last := last, connId := 0, seq := 0, crcOk := true }

/-- Bit 2 of the flags. -/
def State.posFlag (s : State) : Nat := 4 * s.rd Reg.TWN_CFG_POS

/-- Cycle of the held snapshot. -/
def State.heldCycle (s : State) : Nat := match s.twn.held with
  | some (k, _) => k
  | none => 0

/-- RENEW of this cycle (R378, R381, R389). -/
def State.renewMsg (s : State) : LeaseMsg :=
  let ho := s.twn.ho
  s.ownLease 1 (s.rd Reg.TWN_EPOCH_EPOCH) s.twn.kSnap (bitNat s.partnerCurrent + 2 * bitNat ho.isSome + s.posFlag) s.partnerNode
    (ho.getD 0)

/-- REQUEST of this cycle (R383, R389). -/
def State.requestMsg (s : State) (ho : Bool) : LeaseMsg :=
  s.ownLease 2 s.twn.known s.heldCycle (bitNat s.current + 2 * bitNat ho + s.posFlag) s.node (if ho then s.twn.ho.getD 0 else 0)

/-- What the module sends in its own window: RENEW as ACTIVE, RELEASE of a grant it does not take, REQUEST for a handover or after
two cycles without the holder's RENEW. -/
def State.ownMsg (s : State) : Option LeaseMsg :=
  if !s.twin then none
  else
    match s.md.role with
    | .active => if s.leaseMode then some s.renewMsg else none
    | .standby | .orphan =>
      match s.twn.hoGot with
      | some e => some (s.ownLease 4 e 0 0 s.node 0)
      | none =>
        if !s.leaseMode then none
        else if s.md.role = .standby && s.twn.ho = some (s.tm.cyc + 1) then some (s.requestMsg true)
        else if 2 ≤ s.twn.heardCnt then some (s.requestMsg false)
        else none
    | .solo => none

/-! ### The arbiter -/

def State.slot (s : State) (p : Nat) : ArbSlot := FMap.get ArbSlot.init s.twn.arb p
def State.modSlot (s : State) (p : Nat) (f : ArbSlot → ArbSlot) : State :=
  s.modTwn fun x => { x with arb := FMap.set ArbSlot.init x.arb p (f (FMap.get ArbSlot.init x.arb p)) }

/-- The arbiter serves: the edge is loaded and network time is valid. -/
def State.arbUp (s : State) : Bool := s.edgeUp && s.timeValid && !s.down

/-- Slots that serve a pair. -/
def State.slots (s : State) : List Nat := (List.range 8).filter fun p => s.rdb (Reg.TWN_ARB_STATE_SERVING p)

/-- The slot of a pair. -/
def State.slotOf (s : State) (pair : Nat) : Option Nat := s.slots.find? fun p => s.rd (Reg.TWN_ARB_STATE_PAIR_ID p) = pair

/-- The arbiter's GRANT (Table 12-3). -/
def State.grantMsg (s : State) (p node epoch ack : Nat) (ho : Bool) (last : Nat) : LeaseMsg :=
  { kind := 3, pair := s.rd (Reg.TWN_ARB_STATE_PAIR_ID p), src := s.node, node := node, epoch := epoch, cycle := s.tm.cyc, kSnap := ack,
    flags := 2 * bitNat ho, last := last, connId := 0, seq := 0, crcOk := true }

/-- What a slot sends in its window: the acknowledgement of this cycle's RENEW, then a new grant. -/
def State.slotMsgs (s : State) (p : Nat) : List LeaseMsg :=
  let x := s.slot p
  (if x.renewed then [s.grantMsg p x.holder x.epoch x.r false 0] else []) ++
    (match x.grant with
     | some (node, e, ack, ho, last) => [s.grantMsg p node e ack ho last]
     | none => [])

/-- A grant that was sent is the slot's lease from then on (R385). -/
def State.granted (s : State) (p : Nat) : State :=
  let x := s.slot p
  match x.grant with
  | none => s.modSlot p fun x => { x with renewed := false }
  | some (node, e, _, _, _) =>
    let s := s.modSlot p fun x => { x with
      granted := x.granted ++ [(x.epoch, x.holder), (e, node)], holder := node, epoch := e, high := max x.high e, r := s.tm.cyc, kSnap := 0,
      flags := 0, named := 0, h := 0, renewed := false, reqs := [], grant := none }
    (((s.inc (Reg.TWN_ARB_COUNT_GRANTS p)).wr (Reg.TWN_ARB_STATE_STATE p) 1).wr (Reg.TWN_ARB_STATE_HOLDER p) node).wr
      (Reg.TWN_ARB_EPOCH_EPOCH p) e

/-- `LEASE_WINDOW` (R381, R383, R389, R391): the module's own message and the GRANTs of its arbiter slots, each in its own window. -/
def execLeaseWindow (s : State) : Host.Outcome State Fault Refusal :=
  let es := s.leaseEntries
  .next (if !s.mayOriginate || s.down then s
    else
      let (s, es) := match s.twin, es with
        | true, e :: rest =>
          (match s.ownMsg with
           | some m =>
             let s := s.sendLease e m
             let s := if m.kind = 1 then s.wr Reg.TWN_STATUS_ACKS 0 else s
             if m.kind = 4 then s.modTwn fun x => { x with hoGot := none } else s
           | none => s, rest)
        | _, _ => (s, es)
      if !s.arbUp then s
      else foldSt (s.slots.zip es) (fun e s =>
        (foldSt (s.slotMsgs e.1) (fun m s => s.sendLease e.2 m) s).granted e.1) s)

/-- The connection ID is that of a LEASE window of the frame's source (check 2 of Table 10-6). -/
def State.leaseConn (s : State) (m : LeaseMsg) : Bool :=
  s.entries.any fun e =>
    let x := s.entry e
    x.kind = 3 && x.ftype = 5 && x.owner = m.src && (s.ptn.net.ent e).connId = m.connId

/-- The sequence goes on from the last accepted (check 3). DESIGN CHOICE (log 99): the reference lapses after sixteen cycles without an
accepted frame, the greatest S of R323. -/
def State.leaseSeq (s : State) (m : LeaseMsg) : Bool :=
  match FMap.get none s.twn.leaseRef m.key with
  | some (q, k) =>
    let d := (m.seq + 2 ^ 32 - q) % 2 ^ 32
    k + 16 < s.tm.cyc || (1 ≤ d && d < 2 ^ 31)
  | none => true

/-- A LEASE frame passes the checks of R380. -/
def State.leaseOk (s : State) (m : LeaseMsg) (kind : Nat) : Bool :=
  s.edgeUp && !s.down && m.crcOk && s.leaseConn m && s.leaseSeq m && m.kind = kind && m.cycle = s.tm.cyc

/-- An accepted LEASE frame's sequence is the reference (R380). -/
def State.leaseHeard (s : State) (m : LeaseMsg) : State :=
  s.modTwn fun x => { x with leaseRef := FMap.set none x.leaseRef m.key (some (m.seq, s.tm.cyc)) }

/-- The pair's own module hears its partner's RENEW (R38, R383, R389). -/
def State.hearRenew (s : State) (m : LeaseMsg) : State :=
  if s.twin && m.pair = s.rd Reg.TWN_CFG_PAIR_ID && m.src = s.partnerNode && s.twn.known ≤ m.epoch && s.md.role ≠ .active then
    let s := s.modTwn fun x => { x with heard := some s.tm.cyc, heardCnt := 0, known := m.epoch }
    let s := s.wr Reg.TWN_EPOCH_EPOCH m.epoch
    if s.md.role ≠ .standby then s
    else if m.handover && s.twn.ho ≠ some m.last then
      (((s.modTwn fun x => { x with ho := some m.last }).wr Reg.TWN_HANDOVER_RESULT 1).wr Reg.TWN_HO_TARGET_LO_T_LO (m.last * s.tbc)).wr
        Reg.TWN_HO_TARGET_HI_T_HI (m.last * s.tbc / 2 ^ 32)
    else if !m.handover && s.twn.ho.isSome then s.hoResult 5
    else s
  else s

/-- A slot accepts a RENEW: of its holder at its epoch, of any holder while it learns, or of a higher epoch that it did not grant to
another (R381, R385). -/
def ArbSlot.accepts (x : ArbSlot) (learning : Bool) (m : LeaseMsg) : Bool :=
  learning || (m.epoch = x.epoch && m.src = x.holder) ||
    (x.epoch < m.epoch && !(x.granted.any fun e => e.1 = m.epoch && e.2 ≠ m.src))

/-- `RENEW_RECEIVE` (R381, R383). -/
def execRenewReceive (m : LeaseMsg) (s : State) : Host.Outcome State Fault Refusal :=
  .next (if !s.leaseOk m 1 then s
    else
      let s := (s.leaseHeard m).hearRenew m
      match s.slotOf m.pair with
      | none => s
      | some p =>
        if !s.arbUp then s
        else
          let s := s.modSlot p fun x => { x with heard := some s.tm.cyc, high := max x.high m.epoch }
          if (s.slot p).accepts (s.rd (Reg.TWN_ARB_STATE_STATE p) = 0) m then
            let s := s.modSlot p fun x => { x with
              holder := m.src, epoch := m.epoch, r := s.tm.cyc, kSnap := m.kSnap, flags := m.flags, named := m.node, h := m.last,
              renewed := true }
            (((s.wr (Reg.TWN_ARB_STATE_STATE p) 1).wr (Reg.TWN_ARB_STATE_HOLDER p) m.src).wr (Reg.TWN_ARB_EPOCH_EPOCH p) m.epoch).wr
              (Reg.TWN_ARB_RENEW_CYCLE p) s.tm.cyc
          else s)

/-- The slot's lease is vacant (R386). -/
def State.vacant (s : State) (p : Nat) : Bool :=
  let x := s.slot p
  (x.heard.isNone && x.since + s.lzOf p + 2 ≤ s.tm.cyc + 1) ||
    (s.rd (Reg.TWN_ARB_STATE_STATE p) ≠ 0 && x.r + s.lzOf p - 1 + 64 * s.lzOf p ≤ s.tm.cyc)

/-- A request that a slot would grant: a planned handover (R389), after the expiry (R384), or on a vacant lease (R386). -/
def State.grantable (s : State) (p : Nat) (m : LeaseMsg) : Bool :=
  let x := s.slot p
  let st := s.rd (Reg.TWN_ARB_STATE_STATE p)
  let met := natBit x.flags 0 && m.current && x.kSnap ≤ m.kSnap
  if m.handover then
    met && x.renewed && natBit x.flags 1 && x.h = m.last && m.last = s.tm.cyc + 1 && x.named = m.src
  else if st = 3 then true
  else st ≠ 0 && x.r + s.lzOf p + 1 ≤ s.tm.cyc && met

/-- Of two requests, the one that goes before (R385, R386). -/
def State.before (s : State) (p : Nat) (a b : LeaseMsg) : Bool :=
  if s.rd (Reg.TWN_ARB_STATE_STATE p) = 3 then a.pos < b.pos || (a.pos = b.pos && a.src ≤ b.src)
  else if a.kSnap ≠ b.kSnap then b.kSnap < a.kSnap
  else
    let old := (s.slot p).holder
    if (a.src = old) ≠ (b.src = old) then a.src ≠ old else a.pos ≤ b.pos

/-- The grant that a slot makes in this cycle among its requests. -/
def State.judge (s : State) (p : Nat) : State :=
  let x := s.slot p
  let best := (x.reqs.filter fun m => s.grantable p m).foldl (fun (b : Option LeaseMsg) m => match b with
    | none => some m
    | some k => if s.before p k m then some k else some m) none
  match best with
  | none => s
  | some m =>
    let e := max x.high x.epoch + 1
    let last := if m.handover then m.last else x.r + s.lzOf p - 2
    s.modSlot p fun x => { x with grant := some (m.src, e, 0, m.handover, last) }

/-- `REQUEST_RECEIVE` (R384 to R386, R389). -/
def execRequestReceive (m : LeaseMsg) (s : State) : Host.Outcome State Fault Refusal :=
  .next (if !s.leaseOk m 2 then s
    else
      let s := s.leaseHeard m
      if !s.arbUp then s
      else
      match s.slotOf m.pair with
      | none => s
      | some p =>
        let s := s.wr (Reg.TWN_ARB_STATE_LAST_REQ p) m.src
        let s := s.modSlot p fun x => { x with high := max x.high m.epoch, reqs := x.reqs ++ [m] }
        let had := (s.slot p).grant.isSome
        let s := if s.grantable p m && !had then s else s.inc (Reg.TWN_ARB_COUNT_REFUSED p)
        s.judge p)

/-- `ARBITER_VACANCY` (R386): the lease is vacant; a request of this cycle is granted without the conditions of R384. -/
def execArbiterVacancy (slot : Fin 8) (s : State) : Host.Outcome State Fault Refusal :=
  let p := slot.val
  .next (if s.arbUp && s.slots.contains p && s.rd (Reg.TWN_ARB_STATE_STATE p) ≠ 3 && s.vacant p then
      (s.wr (Reg.TWN_ARB_STATE_STATE p) 3).judge p
    else s)

/-- `RELEASE_RECEIVE` (R391): an epoch not yet renewed goes back; the old holder is granted the next epoch in the same cycle. -/
def execReleaseReceive (m : LeaseMsg) (s : State) : Host.Outcome State Fault Refusal :=
  .next (if !s.leaseOk m 4 then s
    else
      let s := s.leaseHeard m
      if !s.arbUp then s
      else
      match s.slotOf m.pair with
      | none => s
      | some p =>
        let x := s.slot p
        if m.epoch = x.epoch && m.src = x.holder && x.flags = 0 && x.named = 0 then
          match (x.granted.filter fun e => e.1 ≠ x.epoch).getLast? with
          | some (_, old) => s.modSlot p fun x => { x with
              rels := x.rels ++ [m], grant := some (old, max x.high x.epoch + 1, 0, true, s.tm.cyc) }
          | none => s
        else s)

/-- A slot at a Tc: the expiry (R381), the end of one cycle's messages, and a slot that begins to serve. -/
def State.slotAtTc (s : State) (p : Nat) : State :=
  let x := s.slot p
  if !s.arbUp then
    (((s.modSlot p fun _ => ArbSlot.init).wr (Reg.TWN_ARB_STATE_STATE p) 0).wr (Reg.TWN_ARB_STATE_HOLDER p) 0)
  else if x.since = 0 then s.modSlot p fun _ => { ArbSlot.init with since := s.tm.cyc + 1 }
  else
    let s := s.modSlot p fun x => { x with renewed := false, reqs := [], rels := [], grant := none }
    if s.rd (Reg.TWN_ARB_STATE_STATE p) = 1 && x.r + s.lzOf p - 1 ≤ s.tm.cyc then s.wr (Reg.TWN_ARB_STATE_STATE p) 2 else s

/-! ### The lease -/

/-- GRANTs of this cycle that satisfy a condition, by distinct arbiters. -/
def State.grantsBy (s : State) (f : LeaseMsg → Bool) : Nat := ((s.twn.grants.filter f).map fun m => m.src).eraseDups.length

/-- An acknowledgement of this cycle's RENEW (R382). -/
def State.ackReceived (s : State) (m : LeaseMsg) : State :=
  let ack := fun (g : LeaseMsg) => g.node = s.node && g.kSnap = s.tm.cyc && g.epoch = s.rd Reg.TWN_EPOCH_EPOCH
  if s.md.role = .active && ack m then
    let i := [s.rd Reg.TWN_ARB_NODES_ARB0, s.rd Reg.TWN_ARB_NODES_ARB1, s.rd Reg.TWN_ARB_NODES_ARB2].idxOf m.src
    let s := s.setBit Reg.TWN_STATUS_ACKS i
    if s.quorum ≤ s.grantsBy ack then s.modTwn fun x => { x with ackAt := s.tm.cyc } else s
  else s

/-- A quorum grants the lease to this module (R387, R389, R391). -/
def State.leaseWon (s : State) (m : LeaseMsg) : State :=
  match s.md.role with
  | .active =>
    if s.rd Reg.TWN_EPOCH_EPOCH < m.epoch then
      let s := (s.wr Reg.TWN_EPOCH_EPOCH m.epoch).modTwn fun x => { x with ackAt := s.tm.cyc, hoGot := none, lose := false }
      if s.twn.ho.isSome then s.hoResult 4 else s
    else s
  | .standby =>
    if m.handover then s.modTwn fun x => { x with hoGot := some m.epoch } else s.modTwn fun x => { x with become := some m.epoch }
  | .orphan => s.modTwn fun x => { x with become := some m.epoch }
  | .solo => s

/-- A quorum grants the lease to the partner (R382, R389). -/
def State.leaseLost (s : State) (m : LeaseMsg) : State :=
  if s.md.role = .active && s.rd Reg.TWN_EPOCH_EPOCH < m.epoch then
    if m.handover && s.twn.ho = some (s.tm.cyc + 1) then s.modTwn fun x => { x with hoGot := some m.epoch }
    else s.modTwn fun x => { x with lose := true }
  else s

/-- An arbiter of the pair hears another's GRANT: its epoch is one that it has received (R385). -/
def State.slotHears (s : State) (m : LeaseMsg) : State :=
  match s.slotOf m.pair with
  | some p => if s.arbUp then s.modSlot p fun x => { x with high := max x.high m.epoch } else s
  | none => s

/-- `GRANT_RECEIVE` (R382, R385, R387, R391). -/
def execGrantReceive (m : LeaseMsg) (s : State) : Host.Outcome State Fault Refusal :=
  .next (if !s.leaseOk m 3 then s
    else
      let s := (s.leaseHeard m).slotHears m
      if !s.twin || m.pair ≠ s.rd Reg.TWN_CFG_PAIR_ID || !s.arbiters.contains m.src then s
      else
      let s := s.modTwn fun x => { x with grants := x.grants ++ [m], known := max x.known m.epoch }
      let s := s.ackReceived m
      let same := fun (g : LeaseMsg) => g.node = m.node && g.epoch = m.epoch && g.kSnap = 0 && g.handover = m.handover
      let s := if m.kSnap = 0 && s.quorum ≤ s.grantsBy same then
          (if m.node = s.node then s.leaseWon m else if m.node = s.partnerNode then s.leaseLost m else s)
        else s
      s.twnRegs)

/-- The module loses its lease (R382). -/
def State.orphaned (s : State) : State :=
  ((((s.inc Reg.TWN_TAKEOVER_ORPHANED).modTwn fun x => { x with lose := false, hoGot := none, heard := none, heardCnt := 0 }).setRole
    .orphan).scrubRegs true).twnRegs

/-- `LEASE_EXPIRY` (R382): at the last Tc of the lease without a later acknowledgement of a quorum. -/
def execLeaseExpiry (s : State) : Host.Outcome State Fault Refusal :=
  .next (if s.twin && s.md.role = .active && s.leaseEnd ≤ s.tm.cyc && !s.down then s.orphaned else s)

/-- The module becomes ACTIVE at this Tc (R387); the scrubber returns to the timeline of Table 2-2. -/
def State.becomeActive (s : State) (epoch : Nat) (handover : Bool) : State :=
  let gap := match s.twn.heard with
    | some k => s.tm.cyc - k
    | none => 0
  let s := if handover then s else (s.inc Reg.TWN_TAKEOVER_TAKEOVERS).wr Reg.TWN_TAKEOVER_GAP_CYC (min 65535 gap)
  let s := s.wr Reg.TWN_EPOCH_EPOCH epoch
  let s := s.modTwn fun x => { x with
    become := none, hoGot := none, known := max x.known epoch, ackAt := s.tm.cyc - 1, adopt := none, kSnap := 0, sent := [], heardCnt := 0,
    lose := false, commNext := [] }
  let s := if handover then s.hoResult 2 else s.modTwn fun x => { x with ho := none }
  (((s.modMd fun x => { x with overlap := handover }).setRole .active).scrubRegs true).twnRegs

/-- The old holder's side of a planned handover at this Tc (R389, R390): at Tc(h) without a quorum's grant it is missed, at Tc(h + 1)
the module becomes STANDBY and adopts. -/
def State.oldHolder (s : State) : State :=
  match s.twn.ho with
  | none => s
  | some h =>
    if s.twn.hoGot.isNone && h ≤ s.tm.cyc then s.hoResult 3
    else if h < s.tm.cyc then
      let s := s.hoResult 2
      let s := s.modTwn fun x => { x with
        hoGot := none, adopt := some 0, held := none, good := true, missed := 0, expect := [], own := [], kept := [], heard := some (s.tm.cyc - 1),
        heardCnt := 0 }
      ((s.setRole .standby).scrubRegs true).twnRegs
    else s

/-- The new holder's side at Tc(h): a grant whose comparison failed, or that the mode does not take, is released (R390, R391). -/
def State.newHolder (s : State) : State :=
  match s.twn.ho with
  | none => s
  | some h =>
    if s.tm.cyc < h then s
    else
      match s.twn.hoGot with
      | none => s.hoResult 3
      | some e => if s.twn.adopt.isNone && s.leaseMode then s.becomeActive e true else s.hoResult 4

/-- Changes of role at a Tc (R38). -/
def State.roleAtTc (s : State) : State :=
  let s := s.modMd fun x => { x with overlap := false }
  match s.md.role with
  | .solo => s
  | .active =>
    if s.twn.lose || s.leaseEnd ≤ s.tm.cyc && (s.twn.ho.isNone || s.twn.hoGot.isNone) then s.orphaned else s.oldHolder
  | .standby =>
    match s.twn.become with
    | some e => s.becomeActive e false
    | none => s.newHolder
  | .orphan =>
    match s.twn.become with
    | some e => s.becomeActive e false
    | none =>
      if s.twn.heard = some (s.tm.cyc - 1) then
        ((s.modTwn fun x => { x with adopt := some 0 }).setRole .standby).scrubRegs true
      else s

/-- Snapshots expected and not accepted by the Tc after the next count as missed (R379). -/
def State.countMissed (s : State) : State :=
  let due := s.twn.expect.filter fun k => k + 2 ≤ s.tm.cyc
  let n := min 3 (s.twn.missed + due.length)
  s.modTwn fun x => { x with
    expect := x.expect.filter fun k => s.tm.cyc < k + 2, missed := n, good := x.good && !(n = 3 && !due.isEmpty) }

/-- The twin unit and the arbiter at a Tc. -/
def State.twnAtTc (s : State) : State :=
  let s := foldSt s.slots (fun p s => s.slotAtTc p) s
  if !s.twin then s
  else
    let s := s.twinCompare.countMissed.roleAtTc
    let miss : Bool := s.twn.heard ≠ some (s.tm.cyc - 1)
    (s.modTwn fun x => { x with
      recIn := none, late := false, ran := false, sigIn := none, grants := [], become := none,
      heardCnt := if miss && s.md.role ≠ .active then min 2 (x.heardCnt + 1) else 0 }).twnRegs

/-! ### Commands -/

/-- Arbiters that acknowledged the last RENEW. -/
def State.ackCount (s : State) : Nat := ((List.range 3).filter fun i => natBit (s.rd Reg.TWN_STATUS_ACKS) i).length

/-- `TWN_HANDOVER` (Table 12-4). -/
def applyTwnHandover (w1 w2 : Word) (s : State) : CmdRes State :=
  let t := arg64 w1 w2
  needs (s.twin && s.md.role = .active && s.leaseMode && !s.md.debug && s.partnerCurrent && s.quorum ≤ s.ackCount) St.wrongState <|
  needs (s.tcAhead t && s.tm.tcNs + 4 * s.tbc ≤ t) St.badArg <|
  needs s.twn.ho.isNone St.busy <|
  let s := (s.wr Reg.TWN_HO_TARGET_LO_T_LO w1.toNat).wr Reg.TWN_HO_TARGET_HI_T_HI w2.toNat
  .ok ((s.wr Reg.TWN_HANDOVER_RESULT 1).modTwn fun x => { x with ho := some (t / s.tbc), hoGot := none })

/-- `TWN_HO_CANCEL` (Table 12-4). -/
def applyTwnHoCancel (s : State) : CmdRes State :=
  needs (s.md.role = .active && (match s.twn.ho with
    | some h => s.tm.cyc + 1 < h
    | none => false)) St.wrongState <|
  .ok (s.hoResult 5)

def execTwnHandover (r : CmdRec) (s : State) : Host.Outcome State Fault Refusal := .next (s.cmd 0x60 r (applyTwnHandover r.w1 r.w2))
def execTwnHoCancel (r : CmdRec) (s : State) : Host.Outcome State Fault Refusal := .next (s.cmd 0x61 r applyTwnHoCancel)

end Sys2Proof.Machine
end

