-- ==== Sys2Proof/Machine/Batch.lean ====
section
/-! DEFINITION. The batch of the command lane that closes at a Tc (R50, R163, R405, R406, R557): the effect of every command code on
its arguments, the entries due at a Tc, and their application in arrival order. -/

namespace Sys2Proof.Machine

/-- The effect of a command code of `port` with sequence number `seq` on its argument words. `MOD_RESET` (0x02) discards the lane and
has its own. -/
def applyCode (code : Nat) (port : CmdPort) (seq : BitVec 16) (w1 w2 w3 : Word) : State → CmdRes State :=
  match code with
  | 0x03 => applyWarmReset
  | 0x04 => applyChReset w1
  | 0x05 => applyMntEnter
  | 0x06 => applyMntExit
  | 0x40 => applyPrgLoad w1
  | 0x41 => applyPrgArm
  | 0x42 => applyPrgCommit w1 w2
  | 0x43 => applyPrgDisarm
  | 0x44 => applyPrgRelease
  | 0x45 => applyForceSet w1 w2
  | 0x46 => applyForceClear w1
  | 0x47 => applyForceClearAll
  | 0x48 => applyRetDiscard
  | 0x50 => applyDbgEnter
  | 0x51 => applyDbgExit
  | 0x52 => applyDbgHalt w1
  | 0x53 => applyDbgStep
  | 0x54 => applyDbgResume
  | 0x60 => applyTwnHandover w1 w2
  | 0x61 => applyTwnHoCancel
  | 0x70 => applyGwyLoad w1
  | 0x71 => applyGwySwap w1 w2
  | 0x72 => applyGwyNmt w1
  | 0x73 => applyGwySdoRead seq w1 w2
  | 0x74 => applyGwySdoWrite seq w1 w2 w3
  | 0x80 => applyCalBegin w1
  | 0x81 => applyCalPoint w1 w2
  | 0x82 => applyCalCommit w1
  | 0x83 => applyCalAbort w1
  | 0x84 => applyCalFactory w1
  | 0x90 => applyRecClear
  | 0x91 => applyRecCountClear
  | 0xA0 => applyCfgStore port w1 w2 w3
  | 0xA1 => applyCfgStart w1
  | 0xA2 => applySchLoad w1
  | 0xA3 => applySchCommit w1 w2 w3
  | 0xA4 => applySchCancel
  | 0xA5 => applyFwActivate w1
  | 0xA6 => applySecRollback
  | 0xA7 => applySecRevoke port w1 w2
  | 0xA8 => applySecCertGet port w1 w2
  | 0xA9 => applySecKeyImport port w1 w2
  | _ => applyNop

/-- Tc instants that an entry still waits for. -/
def LaneEntry.waits : LaneEntry → Nat
  | .record w .. => w
  | .write w .. => w

/-- One Tc has come. -/
def LaneEntry.tick : LaneEntry → LaneEntry
  | .record w q c p a b d => .record (w - 1) q c p a b d
  | .write w o v => .write (w - 1) o v

/-- Command code of a record. -/
def LaneEntry.code : LaneEntry → Option Nat
  | .record _ _ c .. => some c.toNat
  | .write .. => none

/-- Commands of order 7 of Table 1-6. -/
def LaneEntry.ofMode (e : LaneEntry) : Bool :=
  match e.code with
  | some c => c = 0x05 || c = 0x06 || c = 0x50 || c = 0x51
  | none => false

/-- A warm reset (order 2). -/
def LaneEntry.isWarm (e : LaneEntry) : Bool := e.code = some 0x03

/-- The entries at the front of the queue that wait for nothing more, with at most `n` records (R405). -/
def dueOf : Nat → List LaneEntry → List LaneEntry
  | _, [] => []
  | n, e :: l =>
    if e.waits ≠ 0 then []
    else
      match e.code, n with
      | none, _ => e :: dueOf n l
      | some _, 0 => []
      | some _, n + 1 => e :: dueOf n l

/-- The batch of a Tc. -/
def State.due (s : State) : List LaneEntry := dueOf 64 s.lane.queue

/-- Apply one entry. After a `MOD_RESET` of the batch, or with the lane lost, nothing applies (R557). -/
def State.runEntry (s : State) (e : LaneEntry) : State :=
  let s := s.modLaneQ fun q => { q with queue := q.queue.erase e }
  if s.rpc.save.isSome || !s.hostAlive then s
  else
    match e with
    | .record _ q c port a b d =>
      if c.toNat = 0x02 then s.modResetApply q else s.runRecord q c (applyCode c.toNat port q a b d)
    | .write _ off v => s.writeReg off v

/-- Apply entries in order. -/
def State.runEntries (s : State) (l : List LaneEntry) : State := (foldSt l (fun e s => s.runEntry e) s).laneRegs

/-- An entry past the batch waits for the following Tc. -/
def LaneEntry.later : LaneEntry → LaneEntry
  | .record w q c p a b d => .record (max 1 w) q c p a b d
  | .write w o v => .write (max 1 w) o v

/-- The queue with the entries that wait for nothing more cut after `n` records (R405). -/
def cutBatch : Nat → List LaneEntry → List LaneEntry
  | _, [] => []
  | n, e :: l =>
    if e.waits ≠ 0 then e :: l
    else
      match e.code, n with
      | none, _ => e :: cutBatch n l
      | some _, 0 => (e :: l).map LaneEntry.later
      | some _, n + 1 => e :: cutBatch n l

/-- A Tc closes the batch: every entry has waited one Tc more (R50), and what lies past 64 records waits for the next (R405). -/
def State.closeBatch (s : State) : State := s.modLaneQ fun q => { q with queue := cutBatch 64 (q.queue.map LaneEntry.tick) }

/-- A module reset of the batch (order 1 of Table 1-6) with the entries before it, which apply and complete (R557). -/
def State.resetBatch (s : State) : State :=
  let l := s.due
  let pre := l.takeWhile fun e => e.code ≠ some 0x02
  if pre.length < l.length && (s.gate 0x02).isNone then s.runEntries (l.take (pre.length + 1)) else s

/-- Warm resets of the batch (order 2 of Table 1-6). -/
def State.warmBatch (s : State) : State :=
  let l := s.due.filter LaneEntry.isWarm
  if l = [] then s else s.runEntries l

/-- The rest of the batch in arrival order; at a commit's Tc the commands other than those of order 7 wait for the new bank (R163). -/
def State.restBatch (s : State) : State :=
  if s.md.commitDue then
    (s.runEntries (s.due.filter LaneEntry.ofMode)).modMd fun x => { x with heldBatch := true }
  else s.runEntries s.due

/-- The commands that waited for the commit. -/
def State.heldEntries (s : State) : State :=
  if s.md.heldBatch then (s.runEntries s.due).modMd fun x => { x with heldBatch := false } else s

end Sys2Proof.Machine
end

