-- ==== Sys2Proof/Machine/Cycle.lean ====
section
/-! DEFINITION. The cycle instant (R27, R41 to R48, R558): time, the triggers of Table 1-6 in their order, the plumb check (R200 to
R204), the batch, the freeze of inputs and the latch of outputs; then the commit and the switch of the schedule epoch in the cycle
that starts there (R154, R497). -/

namespace Sys2Proof.Machine

/-! ### Time -/

/-- The cycle number and the matrix index in their register (R67). -/
def State.cycRegs (s : State) : State := (s.wr Reg.TMU_CYC_INDEX_CYCLE s.tm.cyc).wr Reg.TMU_CYC_INDEX_MX_INDEX s.mi

/-- Operating time goes on by one basic cycle (R525). -/
def State.opTime (s : State) : State := ({ s with tm := { s.tm with opNs := s.tm.opNs + s.tbc } }).optimeRegs

/-- The next Tc of the edge: the next whole multiple of T_bc of network time (R42), under the corrections of R342. -/
def State.edgeTime (s : State) : State :=
  let t := (s.tm.tcNs / s.tbc + 1) * s.tbc
  ({ s with tm := { s.tm with tcNs := t, cyc := t / s.tbc, started := true }, tmu := s.tmu.discipline s.tbc }).cycRegs

/-- The next Tc of the RPC's strobe: the count goes on by 1, or starts at 0 (R558). -/
def State.rpcTime (s : State) : State :=
  let k := if s.tm.started then s.tm.cyc + 1 else 0
  ({ s with tm := { s.tm with tcNs := k * s.tbc, cyc := k, started := true }, tmu := { s.tmu with nowNs := 0 } }).cycRegs

/-- The cycle number under a T_bc that changes at this Tc. -/
def State.renumber (s : State) : State := ({ s with tm := { s.tm with cyc := s.tm.tcNs / s.tbc } }).cycRegs

/-! ### What a new cycle clears -/

/-- What the channels and the module keep of one cycle only. A halted cycle goes on (R195), and an attempt's time stands still with it. -/
def State.newCycle (s : State) : State :=
  let halted := s.md.halted
  let s := foldSt Ch.all (fun c s => s.modCh c fun h => { h with
    inRecs := [], sigRecs := [], ovr := false, repPsn := false, verdict := none,
    attempt := if halted then h.attempt.map fun a => { a with startCyc := a.startCyc + 1 } else h.attempt }) s
  s.modMd fun x => { x with
    taken := false, sigDue := false, decided := false, voted := false, loadDone := x.loadDone && halted, safeStage := false, assertStage := false }

/-! ### The plumb check -/

/-- The pattern of the first pass of a plumb-check cycle (R201). -/
def plumbPattern : Word := 0x55555555#32

/-- The signatures that the comparators take in the plumb-check cycle that names channel `i`: equal but for that channel's, which is
inverted. The test bank's own signature is the same in every channel. -/
def plumbSig (i : Ch) (c : Ch) : Option Word64 := some (if c = i then ~~~crc64Init else crc64Init)

/-- The comparator of channel `c` passes the plumb-check cycle that names channel `i`, with the channels `cs` taking part: ODD_i of
three; of two, DIFFER where `i` takes part and AGREE where it does not (R201, R202). -/
def State.cmpPasses (s : State) (cs : List Ch) (i c : Ch) : Bool :=
  (s.sio.cells.get c).verdict (plumbSig i) c cs = verdictBy (plumbSig i) c cs

/-- The verdicts that the decision cells take in that cycle. -/
def State.plumbVerdicts (s : State) (cs : List Ch) (i : Ch) : List (Ch × Nat) :=
  cs.map fun c => (c, (s.sio.cells.get c).verdict (plumbSig i) c cs)

/-- The decision that a cell is to take in that cycle: exclusion of channel `i` of three; of two, SAFE where `i` takes part and no
action where it does not. -/
def plumbDecision (cs : List Ch) (i : Ch) : Decision :=
  if cs.length = 3 then .excl [i] else if cs.contains i then .safe else .nothing

/-- What a sound voter cell outputs in that cycle at a pattern: the majority of the contributions that take part, that of channel `i`
inverted. -/
def plumbVote (cs : List Ch) (i : Ch) (p : Word) : Word := atLeastTwo (cs.map fun c => if c = i then ~~~p else p)

/-- The voter cells of a channel output `v`, bit for bit. -/
def Cells.voteWord (x : Cells) (v : Word) : Word := (v ||| x.hi) &&& ~~~x.lo

/-- The decision cell and the voter cells of channel `c` pass the plumb-check cycle that names channel `i`, the voter cells with the
pattern and with its complement (R201, R202). -/
def State.cellsPass (s : State) (cs : List Ch) (i c : Ch) : Bool :=
  let x := s.sio.cells.get c
  x.decision (decideOn (s.plumbVerdicts cs i) [] 0) = plumbDecision cs i &&
    [plumbPattern, ~~~plumbPattern].all fun p => x.voteWord (plumbVote cs i p) = plumbVote cs i p

/-- The result of a plumb check of channels: its registers, the hours of those that passed, and the others retired, their cells out of
the cell majority (R201 to R205). -/
def State.plumbResult (s : State) (cs : List Ch) (cmpBad cellBad : List Ch) : State :=
  let bad := cs.filter fun c => cmpBad.contains c || cellBad.contains c
  let good := cs.filter fun c => !bad.contains c
  let s := (((s.incWrap Reg.VOT_PLUMB_SEQ).wr Reg.VOT_PLUMB_TESTED (Ch.mask cs)).wr Reg.VOT_PLUMB_CELL_OK
    (Ch.mask (cs.filter fun c => !cellBad.contains c))).wr Reg.VOT_PLUMB_CMP_OK (Ch.mask (cs.filter fun c => !cmpBad.contains c))
  let s := s.modMd fun x => { x with
    cellsOut := (x.cellsOut.filter fun c => !good.contains c) ++ bad.filter fun c => !x.cellsOut.contains c
    proofOver := good.foldl (fun m c => FMap.set 0 m (Ch.num c) 0) x.proofOver }
  let s := foldSt good (fun c s => s.wr (Reg.VOT_PROOF_AGE_HOURS (Ch.num c)) 0) s
  foldSt bad (fun c s => s.retire c) s

/-- One more cycle of the module's plumb check is over, naming CH-A, CH-B and CH-C in turn; with the third it ends, and fewer than two
channels that passed lead to SAFE (R200 to R203). DESIGN CHOICE (log 49): signature records of the test bank are not lost. -/
def State.plumbTick (s : State) : State :=
  if s.md.mode ≠ .startup || s.md.plumb = 0 then s
  else
    let n := s.md.plumb - 1
    let i := Ch.at (2 - n)
    let cs := s.voters
    let s := s.modMd fun x => { x with
      plumb := n
      plumbBad := (x.plumbBad.1 ++ cs.filter fun c => !s.cmpPasses cs i c, x.plumbBad.2 ++ cs.filter fun c => !s.cellsPass cs i c) }
    if n ≠ 0 then s
    else
      let s := (s.plumbResult cs s.md.plumbBad.1 s.md.plumbBad.2).modMd fun x => { x with plumbBad := ([], []) }
      let s := foldSt s.voters (fun c s => s.modCh c fun h => { h with accStart := true }) s
      if s.voters.length < 2 then s.modMd fun x => { x with safeReq := x.safeReq ++ [(0x10, 0)] }
      else s.modMd fun x => { x with plumbDone := true }

/-- The plumb check of a rejoining channel on its own cells, in three cycles that name CH-A, CH-B and CH-C in turn (R204). -/
def State.chanPlumb (s : State) (c : Ch) : State :=
  match (s.ch c).plumbLeft with
  | 0 => s
  | n + 1 =>
    if !s.booted c then s
    else
      let i := Ch.at (2 - n)
      let s := s.modCh c fun h => { h with
        plumbLeft := n
        plumbBad := (h.plumbBad.1 || !s.cmpPasses Ch.all i c, h.plumbBad.2 || !s.cellsPass Ch.all i c) }
      if n = 0 then
        let b := (s.ch c).plumbBad
        (s.plumbResult [c] (if b.1 then [c] else []) (if b.2 then [c] else [])).modCh c fun h => { h with plumbBad := (false, false) }
      else s

/-! ### Triggers to SAFE (order 3) -/

/-- Network time has been invalid for one cycle more, from STARTUP on (R32). -/
def State.countInvalid (s : State) : State :=
  s.modMd fun x => { x with invalidNs := if s.timeValid || !s.fromStartup then 0 else x.invalidNs + s.tbc }

/-- The mode takes a trigger to SAFE (Table 1-5). -/
def State.takesSafe (s : State) (cause : Nat) : Bool :=
  match s.md.mode with
  | .run3 | .run2 | .maint => cause ≠ 0x10
  | .startup => cause = 0x10 || cause = 0x11 || cause = 0x1A
  | .integrate => cause = 0x11
  | _ => false

/-- The triggers of this Tc, the strongest first. DESIGN CHOICE (log 80): `CHANNELS` names the channels compared for the causes 0x0D
and 0x0F, and none for a cause that concerns no channel. -/
def State.safeTriggers (s : State) : List (Nat × Nat) :=
  let found := s.md.safeReq ++ (if s.good 4 && s.good 5 then [] else [(0x11, 0)]) ++
    (if 2 * s.mx * s.tbc < s.md.invalidNs then [(0x1A, 0)] else [])
  [0x0E, 0x0D, 0x0F, 0x10, 0x11, 0x1A].filterMap fun c => found.find? fun e => e.1 = c

/-- Order 3: any trigger to SAFE. -/
def State.safeAtTc (s : State) : State :=
  let l := s.safeTriggers.filter fun e => s.takesSafe e.1
  let s := s.modMd fun x => { x with safeReq := [] }
  match l with
  | e :: _ => s.setMode .safe e.1 e.2
  | [] => s

/-! ### The other orders -/

/-- Order 4: loss of a maintenance condition. -/
def State.maintAtTc (s : State) : State := if s.md.mode = .maint && !s.maintOk then s.setMode .safe 0x15 0 else s

/-- Order 6: the end of STARTUP, and entry to STARTUP on valid network time. -/
def State.startupAtTc (s : State) : State :=
  match s.md.mode with
  | .startup =>
    if s.md.plumbDone && s.md.travDone then
      (match s.voters.length with
       | 3 => s.setMode .run3 0x06 0
       | 2 => s.setMode .run2 0x07 0
       | _ => s)
    else s
  | .integrate => if s.timeValid then s.setMode .startup 0x05 0 else s
  | _ => s

/-- The verdict of BOOT (Table 1-5). Under the RPC's strobe the count goes on and only T_bc changes (R558). -/
def State.bootAtTc (s : State) : State :=
  match s.md.mode, s.md.bootVerdict with
  | .boot, some v =>
    let s := s.takeVerdict v
    if s.tm.rpcStrobe then { s with tm := { s.tm with tcNs := s.tm.cyc * s.tbc } } else s.renumber
  | _, _ => s

/-- A channel whose CCU took poison passes through a channel reset (R215). -/
def State.poisonResets (s : State) : State :=
  foldSt (Ch.all.filter fun c => (s.ch c).ccuStop) (fun c s => (s.wrb (Reg.RPC_CAUSE_CH_POISON (Ch.num c)) true).chAssert c) s

/-- The commit target at a Tc: one that is due is taken in this cycle, one that has passed was missed (R154). -/
def State.commitAtTc (s : State) : State :=
  let missed := fun (s : State) => ((s.setTarget none).commitResult 2).diag 3 Src.prog 0 0x0020040C
  let s := if s.md.commitDue then (missed s).modMd fun x => { x with commitDue := false, heldBatch := false } else s
  if !s.rdb Reg.CMD_PRG_STATE_COMMIT_PENDING then s
  else if s.commitTarget < s.tm.tcNs then missed s
  else if s.commitTarget = s.tm.tcNs then s.modMd fun x => { x with commitDue := true }
  else s

/-- Channels in the vote without the bank of a commit that proceeds are excluded at its Tc (R159). -/
def State.commitExcludes (s : State) : State :=
  match s.armedId with
  | some id =>
    if s.md.commitDue && s.commitGoes then
      s.modMd fun x => { x with exclReq := x.exclReq ++ (s.notWith id).map fun c => (c, 0x08) }
    else s
  | none => s

/-- An epoch commit whose target passes, or comes while network time is invalid, is missed (R497). -/
def State.epochAtTc (s : State) : State :=
  if s.rd Reg.SEC_EPOCH_STATE = 2 && (s.sec.epochTgt < s.tm.tcNs || (s.sec.epochTgt = s.tm.tcNs && !s.timeValid)) then s.epochEnd 4
  else s

/-- Order 8: an accepted acknowledge edge in SAFE (R30). -/
def State.ackAtTc (s : State) : State := if s.md.mode = .safe && s.md.ackAccepted then s.ackRestart else s

/-- The latch-clear request of an acknowledge edge in RUN3, RUN2 and MAINT (R264): `LAST` is 2 where it cleared a latch, 3 where every
latch stays, and stands where there was none (log 94). -/
def State.latchClearAtTc (s : State) : State :=
  if s.md.ackEdge then
    let (m, s) := s.clearLatches
    let s := s.modMd fun x => { x with ackEdge := false }
    s.ackReport (if m ≠ 0 then 2 else if out12.any fun o => s.latchCode o ≠ 0 then 3 else s.rd Reg.SIO_ACK_LAST) m
  else s

/-- The triggers of Table 1-6 in their order. -/
def State.triggersAtTc (s : State) : State :=
  let s := s.modMd fun x => { x with wHold := if 1 < x.wHold then x.wHold - 1 else x.wHold }
  let s := (s.commitAtTc.epochAtTc.closeBatch).resetBatch
  if s.down then s
  else
    let s := (foldSt Ch.all (fun c s => s.chanPlumb c) s.warmBatch.plumbTick).countInvalid.bootAtTc
    let s := s.safeAtTc.maintAtTc.commitExcludes.voteChanges.poisonResets
    (foldSt Ch.all (fun c s => s.ucWritten c) (s.startupAtTc.twnAtTc.restBatch).ackAtTc).prgRegs

/-- What happens at a Tc once time stands at it (R27, R48). The RPC's strobe goes to the channels, the field domain and the command
lane only (R47). -/
def State.tcStrobe (s : State) : State :=
  let s := s.newCycle.triggersAtTc
  if s.down then s
  else
    let s := foldSt Ch.all (fun c s => s.tcSampleOf c) s
    let s := (if s.tm.rpcStrobe then s else s.ptnAtTc.tmuAtTc.gwyAtTc.alpAtTc).recAtTc.storeTick
    let s := s.latchClearAtTc.autoResume.latchOutputs.fallbackAtTc.standbyAtTc.measure.dlkFreeze
    s.modMd fun x => { x with ranCycle := false }

/-- `TC_STROBE` (R42, R48): the edge's strobe. Under a module reset or a save only a staged bypass keeps the edge's time running (R329). -/
def execTcStrobe (s : State) : Host.Outcome State Fault Refusal :=
  .next (if s.tm.rpcStrobe then s
    else
      let s := if s.rpc.inRange then s.opTime else s
      let s := s.relayTick
      if s.down then (if s.rd Reg.PTN_BYPASS_STAGE = 1 then s.edgeTime.ptnAtTc else s) else s.edgeTime.tcStrobe)

/-- `RPC_TC_STROBE` (R47, R558): the strobe while PD-E is lost or not loaded. -/
def execRpcTcStrobe (s : State) : Host.Outcome State Fault Refusal :=
  .next (if !s.tm.rpcStrobe then s
    else
      let s := (if s.rpc.inRange then s.opTime else s).relayTick
      if s.down then s else s.rpcTime.tcStrobe)

/-- The cycle's image load and phase 0 are to run: not while a debug halt holds the previous one. -/
def State.loadsNow (s : State) : Bool :=
  let d := s.rd Reg.VOT_DBG_STATE
  s.executes && !s.md.halted && !s.chasing && !(s.md.debug && (d = 4 || d = 5))

/-- `COMMIT_AT_TARGET` (R154 to R163): after agreement of the cycle that starts at the target, before phase 0. -/
def execCommitAtTarget (s : State) : Host.Outcome State Fault Refusal :=
  .next (if !s.md.commitDue || !s.md.taken || s.down || (s.md.role = .standby && s.twin && !s.twn.late) then s
    else
      match s.armedId with
      | some id =>
        if s.commitGoes && s.loadsNow then
          let s := s.commitBanks id fun s c => s.sourceWords c true
          let s := s.modMd fun x => { x with commitDue := false }
          s.heldEntries.commitForces.startAll
        else
          let s := (s.commitFails.modMd fun x => { x with commitDue := false }).heldEntries
          if s.loadsNow then (s.loadCycle (fun c => s.sourceWords c s.md.firstCommit) false).startAll else s
      | none =>
        let s := (s.commitFails.modMd fun x => { x with commitDue := false }).heldEntries
        if s.loadsNow then (s.loadCycle (fun c => s.sourceWords c s.md.firstCommit) false).startAll else s)

/-- `EPOCH_SWITCH` (R61, R497, R498): before image load of the cycle that starts at the target. -/
def execEpochSwitch (s : State) : Host.Outcome State Fault Refusal :=
  let nxt := s.ptn.nextNet
  let differs : Bool := nxt.tbcCode ≠ s.rd Reg.TMU_CYC_CFG_TBC_CODE || nxt.mCode ≠ s.rd Reg.TMU_CYC_CFG_M_CODE
  let bankTbc := match s.runBank with
    | some b => b.tbc
    | none => nxt.tbcCode
  let goes : Bool := s.md.commitDue && s.commitGoes
  .next (if s.rd Reg.SEC_EPOCH_STATE ≠ 2 || s.tm.tcNs ≠ s.sec.epochTgt || !s.timeValid || s.md.taken || s.down then s
    else if !goes && ((differs && s.md.commitDue) || bankTbc ≠ nxt.tbcCode) then
      (s.epochEnd 5).diag 4 Src.sec 0 0x00F00040
    else
      let s := ((s.applySched s.ptn.nextSched nxt s.sec.epochNext true).epochEnd 3).wrb Reg.PTN_STATUS_NEXT_LOADED false
      (s.modPtn fun x => { x with nextSched := [], nextNet := NetCfg.none }).renumber.scrubRegs true)

end Sys2Proof.Machine
end

