-- ==== Sys2Proof/Machine/Dispatch.lean ====
section
/-! DEFINITION. The dispatch of the commands: one arm for each row of the opcode table. -/

namespace Sys2Proof.Machine

def exec (i : Instr) (s : State) : Host.Outcome State Fault Refusal :=
  match i with
  | .nop c l => Sys2Proof.Machine.execNop c l s
  | .phase c l => Sys2Proof.Machine.execPhase c l s
  | .endp c l => Sys2Proof.Machine.execEndp c l s
  | .assert c l a => Sys2Proof.Machine.execAssert c l a s
  | .ld c l x => Sys2Proof.Machine.execLd c l x s
  | .ldn c l x => Sys2Proof.Machine.execLdn c l x s
  | .and c l x => Sys2Proof.Machine.execAnd c l x s
  | .andn c l x => Sys2Proof.Machine.execAndn c l x s
  | .or c l x => Sys2Proof.Machine.execOr c l x s
  | .orn c l x => Sys2Proof.Machine.execOrn c l x s
  | .xor c l x => Sys2Proof.Machine.execXor c l x s
  | .redge c l m => Sys2Proof.Machine.execRedge c l m s
  | .fedge c l m => Sys2Proof.Machine.execFedge c l m s
  | .bpush c l => Sys2Proof.Machine.execBpush c l s
  | .bor c l => Sys2Proof.Machine.execBor c l s
  | .band c l => Sys2Proof.Machine.execBand c l s
  | .zon c l neg => Sys2Proof.Machine.execZon c l neg s
  | .zoff c l => Sys2Proof.Machine.execZoff c l s
  | .out c l b => Sys2Proof.Machine.execOut c l b s
  | .outn c l b => Sys2Proof.Machine.execOutn c l b s
  | .set c l b => Sys2Proof.Machine.execSet c l b s
  | .rst c l b => Sys2Proof.Machine.execRst c l b s
  | .stw c l w => Sys2Proof.Machine.execStw c l w s
  | .ldw c l w => Sys2Proof.Machine.execLdw c l w s
  | .ldwi c l uns x => Sys2Proof.Machine.execLdwi c l uns x s
  | .ldwh c l h => Sys2Proof.Machine.execLdwh c l h s
  | .ldx c l t => Sys2Proof.Machine.execLdx c l t s
  | .add c l x => Sys2Proof.Machine.execAdd c l x s
  | .sub c l x => Sys2Proof.Machine.execSub c l x s
  | .mul c l x => Sys2Proof.Machine.execMul c l x s
  | .min c l x => Sys2Proof.Machine.execMin c l x s
  | .max c l x => Sys2Proof.Machine.execMax c l x s
  | .andw c l x => Sys2Proof.Machine.execAndw c l x s
  | .orw c l x => Sys2Proof.Machine.execOrw c l x s
  | .xorw c l x => Sys2Proof.Machine.execXorw c l x s
  | .shl c l x => Sys2Proof.Machine.execShl c l x s
  | .shr c l x => Sys2Proof.Machine.execShr c l x s
  | .asr c l x => Sys2Proof.Machine.execAsr c l x s
  | .limit c l x => Sys2Proof.Machine.execLimit c l x s
  | .ceq c l x => Sys2Proof.Machine.execCeq c l x s
  | .cne c l x => Sys2Proof.Machine.execCne c l x s
  | .clt c l x => Sys2Proof.Machine.execClt c l x s
  | .cle c l x => Sys2Proof.Machine.execCle c l x s
  | .cgt c l x => Sys2Proof.Machine.execCgt c l x s
  | .cge c l x => Sys2Proof.Machine.execCge c l x s
  | .ton c l k t => Sys2Proof.Machine.execTon c l k t s
  | .tof c l k t => Sys2Proof.Machine.execTof c l k t s
  | .tp c l k t => Sys2Proof.Machine.execTp c l k t s
  | .ctu c l k t => Sys2Proof.Machine.execCtu c l k t s
  | .ctd c l k t => Sys2Proof.Machine.execCtd c l k t s
  | .cres c l preset t => Sys2Proof.Machine.execCres c l preset t s
  | .phaseBarrier c => Sys2Proof.Machine.execPhaseBarrier c s
  | .tcStrobe => Sys2Proof.Machine.execTcStrobe s
  | .rpcTcStrobe => Sys2Proof.Machine.execRpcTcStrobe s
  | .inputRecord rx tx bytes => Sys2Proof.Machine.execInputRecord rx tx bytes s
  | .inputRecordDue => Sys2Proof.Machine.execInputRecordDue s
  | .executionLimit => Sys2Proof.Machine.execExecutionLimit s
  | .signatureRecord rx tx x => Sys2Proof.Machine.execSignatureRecord rx tx x s
  | .signatureRecordDue => Sys2Proof.Machine.execSignatureRecordDue s
  | .decision => Sys2Proof.Machine.execDecision s
  | .outputVote => Sys2Proof.Machine.execOutputVote s
  | .snapshotCapture => Sys2Proof.Machine.execSnapshotCapture s
  | .scrubSlot c => Sys2Proof.Machine.execScrubSlot c s
  | .snapshotSend rx => Sys2Proof.Machine.execSnapshotSend rx s
  | .snapshotBlock rx tx idx ok markBad bytes => Sys2Proof.Machine.execSnapshotBlock rx tx idx ok markBad bytes s
  | .snapshotAccept rx => Sys2Proof.Machine.execSnapshotAccept rx s
  | .chaseCycle rx startNs => Sys2Proof.Machine.execChaseCycle rx startNs s
  | .resyncTimeout rx => Sys2Proof.Machine.execResyncTimeout rx s
  | .bankReloadDone rx => Sys2Proof.Machine.execBankReloadDone rx s
  | .viewBufferFill => Sys2Proof.Machine.execViewBufferFill s
  | .imagePush finished => Sys2Proof.Machine.execImagePush finished s
  | .bridgeRefresh => Sys2Proof.Machine.execBridgeRefresh s
  | .cmdRecLatch i1 w poisoned => Sys2Proof.Machine.execCmdRecLatch i1 w poisoned s
  | .unknownCommand code r => Sys2Proof.Machine.execUnknownCommand code r s
  | .cmdNop r => Sys2Proof.Machine.execCmdNop r s
  | .modReset r => Sys2Proof.Machine.execModReset r s
  | .warmReset r => Sys2Proof.Machine.execWarmReset r s
  | .chReset r => Sys2Proof.Machine.execChReset r s
  | .mntEnter r => Sys2Proof.Machine.execMntEnter r s
  | .mntExit r => Sys2Proof.Machine.execMntExit r s
  | .prgLoad r => Sys2Proof.Machine.execPrgLoad r s
  | .bankCheckDone c => Sys2Proof.Machine.execBankCheckDone c s
  | .prgArm r => Sys2Proof.Machine.execPrgArm r s
  | .prgCommit r => Sys2Proof.Machine.execPrgCommit r s
  | .commitAtTarget => Sys2Proof.Machine.execCommitAtTarget s
  | .prgDisarm r => Sys2Proof.Machine.execPrgDisarm r s
  | .prgRelease r => Sys2Proof.Machine.execPrgRelease r s
  | .forceSet r => Sys2Proof.Machine.execForceSet r s
  | .forceClear r => Sys2Proof.Machine.execForceClear r s
  | .forceClearAll r => Sys2Proof.Machine.execForceClearAll r s
  | .retDiscard r => Sys2Proof.Machine.execRetDiscard r s
  | .dbgEnter r => Sys2Proof.Machine.execDbgEnter r s
  | .dbgExit r => Sys2Proof.Machine.execDbgExit r s
  | .dbgHalt r => Sys2Proof.Machine.execDbgHalt r s
  | .dbgStep r => Sys2Proof.Machine.execDbgStep r s
  | .dbgResume r => Sys2Proof.Machine.execDbgResume r s
  | .twnHandover r => Sys2Proof.Machine.execTwnHandover r s
  | .twnHoCancel r => Sys2Proof.Machine.execTwnHoCancel r s
  | .gwyLoad r => Sys2Proof.Machine.execGwyLoad r s
  | .gwyLoadDone => Sys2Proof.Machine.execGwyLoadDone s
  | .gwySwap r => Sys2Proof.Machine.execGwySwap r s
  | .gwySwapAtTarget => Sys2Proof.Machine.execGwySwapAtTarget s
  | .gwyNmt r => Sys2Proof.Machine.execGwyNmt r s
  | .gwySdoRead r => Sys2Proof.Machine.execGwySdoRead r s
  | .gwySdoWrite r => Sys2Proof.Machine.execGwySdoWrite r s
  | .sdoTimeout p => Sys2Proof.Machine.execSdoTimeout p s
  | .alpCalBegin r => Sys2Proof.Machine.execAlpCalBegin r s
  | .alpCalPoint r => Sys2Proof.Machine.execAlpCalPoint r s
  | .calPointTaken n avgNa => Sys2Proof.Machine.execCalPointTaken n avgNa s
  | .alpCalCommit r => Sys2Proof.Machine.execAlpCalCommit r s
  | .alpCalAbort r => Sys2Proof.Machine.execAlpCalAbort r s
  | .alpCalFactory r => Sys2Proof.Machine.execAlpCalFactory r s
  | .calTimeout n => Sys2Proof.Machine.execCalTimeout n s
  | .recClear r => Sys2Proof.Machine.execRecClear r s
  | .recCountClear r => Sys2Proof.Machine.execRecCountClear r s
  | .cfgStore r => Sys2Proof.Machine.execCfgStore r s
  | .cfgStoreDone readBack writeOk => Sys2Proof.Machine.execCfgStoreDone readBack writeOk s
  | .cfgStart r => Sys2Proof.Machine.execCfgStart r s
  | .schLoad r => Sys2Proof.Machine.execSchLoad r s
  | .schCommit r => Sys2Proof.Machine.execSchCommit r s
  | .schCancel r => Sys2Proof.Machine.execSchCancel r s
  | .epochSwitch => Sys2Proof.Machine.execEpochSwitch s
  | .fwActivate r => Sys2Proof.Machine.execFwActivate r s
  | .secRollback r => Sys2Proof.Machine.execSecRollback r s
  | .secRevoke r => Sys2Proof.Machine.execSecRevoke r s
  | .secCertGet r => Sys2Proof.Machine.execSecCertGet r s
  | .secKeyImport r => Sys2Proof.Machine.execSecKeyImport r s
  | .cmdResCommit val => Sys2Proof.Machine.execCmdResCommit val s
  | .cmdResLegacy => Sys2Proof.Machine.execCmdResLegacy s
  | .hbrIntLegacy => Sys2Proof.Machine.execHbrIntLegacy s
  | .hreset val => Sys2Proof.Machine.execHreset val s
  | .hostPortReset k => Sys2Proof.Machine.execHostPortReset k s
  | .bar0RefusedAccess off write => Sys2Proof.Machine.execBar0RefusedAccess off write s
  | .unassignedAccess off write => Sys2Proof.Machine.execUnassignedAccess off write s
  | .poisonedWrite off => Sys2Proof.Machine.execPoisonedWrite off s
  | .bar2Write off => Sys2Proof.Machine.execBar2Write off s
  | .registerWrite off val chainageNs => Sys2Proof.Machine.execRegisterWrite off val chainageNs s
  | .hostFrameSend j val => Sys2Proof.Machine.execHostFrameSend j val s
  | .hartGo n val => Sys2Proof.Machine.execHartGo n val s
  | .hartComplete n response => Sys2Proof.Machine.execHartComplete n response s
  | .hostMark val => Sys2Proof.Machine.execHostMark val s
  | .recSeek val => Sys2Proof.Machine.execRecSeek val s
  | .sesOpen val => Sys2Proof.Machine.execSesOpen val s
  | .sesVerified => Sys2Proof.Machine.execSesVerified s
  | .sesClose val => Sys2Proof.Machine.execSesClose val s
  | .sessionIdleTimeout port => Sys2Proof.Machine.execSessionIdleTimeout port s
  | .openingLockoutEnd port => Sys2Proof.Machine.execOpeningLockoutEnd port s
  | .kaClear val => Sys2Proof.Machine.execKaClear val s
  | .svcTlsOpen keyDigest tlsOk => Sys2Proof.Machine.execSvcTlsOpen keyDigest tlsOk s
  | .svcCommand w0 w1 w2 w3 chainageNs => Sys2Proof.Machine.execSvcCommand w0 w1 w2 w3 chainageNs s
  | .svcRegRead off => Sys2Proof.Machine.execSvcRegRead off s
  | .svcRegWrite off val chainageNs => Sys2Proof.Machine.execSvcRegWrite off val chainageNs s
  | .svcStageWrite off data => Sys2Proof.Machine.execSvcStageWrite off data s
  | .svcStageRead off len => Sys2Proof.Machine.execSvcStageRead off len s
  | .powerOnRelease => Sys2Proof.Machine.execPowerOnRelease s
  | .supplyLow => Sys2Proof.Machine.execSupplyLow s
  | .rideThroughEnd => Sys2Proof.Machine.execRideThroughEnd s
  | .saveComplete durationNs => Sys2Proof.Machine.execSaveComplete durationNs s
  | .feedOutOfRange feed => Sys2Proof.Machine.execFeedOutOfRange feed s
  | .mrstN lowNs => Sys2Proof.Machine.execMrstN lowNs s
  | .resetRelease => Sys2Proof.Machine.execResetRelease s
  | .warmResetRelease => Sys2Proof.Machine.execWarmResetRelease s
  | .channelResetRelease c => Sys2Proof.Machine.execChannelResetRelease c s
  | .outputHoldExpiry => Sys2Proof.Machine.execOutputHoldExpiry s
  | .watchdogExpiry => Sys2Proof.Machine.execWatchdogExpiry s
  | .watchdogRefresh c => Sys2Proof.Machine.execWatchdogRefresh c s
  | .domainLoss d => Sys2Proof.Machine.execDomainLoss d s
  | .domainRepower d ok => Sys2Proof.Machine.execDomainRepower d ok s
  | .optionLoadDone d ok => Sys2Proof.Machine.execOptionLoadDone d ok s
  | .brownOutLatch => Sys2Proof.Machine.execBrownOutLatch s
  | .strapChange i1 v => Sys2Proof.Machine.execStrapChange i1 v s
  | .referenceLoss => Sys2Proof.Machine.execReferenceLoss s
  | .referenceReturn => Sys2Proof.Machine.execReferenceReturn s
  | .counterCheckpoint => Sys2Proof.Machine.execCounterCheckpoint s
  | .switchReread readings => Sys2Proof.Machine.execSwitchReread readings s
  | .proofHour => Sys2Proof.Machine.execProofHour s
  | .ordinarySample uA => Sys2Proof.Machine.execOrdinarySample uA s
  | .testPulse k => Sys2Proof.Machine.execTestPulse k s
  | .testSample k interval uA => Sys2Proof.Machine.execTestSample k interval uA s
  | .tpOverload k => Sys2Proof.Machine.execTpOverload k s
  | .tpRetry k => Sys2Proof.Machine.execTpRetry k s
  | .offPulse o low => Sys2Proof.Machine.execOffPulse o low s
  | .offPulseEnd o low v plus => Sys2Proof.Machine.execOffPulseEnd o low v plus s
  | .offStateCheck o => Sys2Proof.Machine.execOffStateCheck o s
  | .offStateCheckEnd o hsOk lsOk mvPlus => Sys2Proof.Machine.execOffStateCheckEnd o hsOk lsOk mvPlus s
  | .overcurrent o inst => Sys2Proof.Machine.execOvercurrent o inst s
  | .overcurrentClear o => Sys2Proof.Machine.execOvercurrentClear o s
  | .openLoadWarning o imbalance => Sys2Proof.Machine.execOpenLoadWarning o imbalance s
  | .groupSag g mV => Sys2Proof.Machine.execGroupSag g mV s
  | .groupTrip g => Sys2Proof.Machine.execGroupTrip g s
  | .groupOvervoltage g mV lasted => Sys2Proof.Machine.execGroupOvervoltage g mV lasted s
  | .groupRecovered g => Sys2Proof.Machine.execGroupRecovered g s
  | .timedOutputDue o => Sys2Proof.Machine.execTimedOutputDue o s
  | .dlkInputChange v => Sys2Proof.Machine.execDlkInputChange v s
  | .dlkDiscrepancy p => Sys2Proof.Machine.execDlkDiscrepancy p s
  | .dlkBothRelease => Sys2Proof.Machine.execDlkBothRelease s
  | .dlkAckEdge => Sys2Proof.Machine.execDlkAckEdge s
  | .dlkOffTimeExpiry right => Sys2Proof.Machine.execDlkOffTimeExpiry right s
  | .dlkSo3ReadbackOpen => Sys2Proof.Machine.execDlkSo3ReadbackOpen s
  | .dlkStartupTest => Sys2Proof.Machine.execDlkStartupTest s
  | .dlkStartupTestDone failedVector => Sys2Proof.Machine.execDlkStartupTestDone failedVector s
  | .dlkCheckerTest ok => Sys2Proof.Machine.execDlkCheckerTest ok s
  | .dlkFault code => Sys2Proof.Machine.execDlkFault code s
  | .ptnFrameReceive port bytes startNs endNs fcsOk => Sys2Proof.Machine.execPtnFrameReceive port bytes startNs endNs fcsOk s
  | .foreignFrameReceive port dst src tag etherType data => Sys2Proof.Machine.execForeignFrameReceive port dst src tag etherType data s
  | .freeWindowForward port => Sys2Proof.Machine.execFreeWindowForward port s
  | .addressAgeing => Sys2Proof.Machine.execAddressAgeing s
  | .transmitWindow e => Sys2Proof.Machine.execTransmitWindow e s
  | .eventFrameExpiry => Sys2Proof.Machine.execEventFrameExpiry s
  | .datumSend => Sys2Proof.Machine.execDatumSend s
  | .coldstartTimeout => Sys2Proof.Machine.execColdstartTimeout s
  | .coldstartBackoffEnd => Sys2Proof.Machine.execColdstartBackoffEnd s
  | .timedLaunchDue l => Sys2Proof.Machine.execTimedLaunchDue l s
  | .gptpSync => Sys2Proof.Machine.execGptpSync s
  | .gptpAnnounce => Sys2Proof.Machine.execGptpAnnounce s
  | .gptpPdelayReq port => Sys2Proof.Machine.execGptpPdelayReq port s
  | .timePulse => Sys2Proof.Machine.execTimePulse s
  | .portLinkChange port speed => Sys2Proof.Machine.execPortLinkChange port speed s
  | .bypassRelayB => Sys2Proof.Machine.execBypassRelayB s
  | .holdupMeasure => Sys2Proof.Machine.execHoldupMeasure s
  | .holdupMeasureDone energyMj => Sys2Proof.Machine.execHoldupMeasureDone energyMj s
  | .edgeInsertion => Sys2Proof.Machine.execEdgeInsertion s
  | .lineALinksUp => Sys2Proof.Machine.execLineALinksUp s
  | .insertionTimeout => Sys2Proof.Machine.execInsertionTimeout s
  | .insertionRetry => Sys2Proof.Machine.execInsertionRetry s
  | .twinInputRecord bytes => Sys2Proof.Machine.execTwinInputRecord bytes s
  | .twinRecordDeadline => Sys2Proof.Machine.execTwinRecordDeadline s
  | .twinSignatureRecord x => Sys2Proof.Machine.execTwinSignatureRecord x s
  | .twinSnapshotBlock idx ok bytes => Sys2Proof.Machine.execTwinSnapshotBlock idx ok bytes s
  | .twinSnapshotAccept => Sys2Proof.Machine.execTwinSnapshotAccept s
  | .snapshotAcknowledgement k mismatch => Sys2Proof.Machine.execSnapshotAcknowledgement k mismatch s
  | .leaseWindow => Sys2Proof.Machine.execLeaseWindow s
  | .renewReceive m => Sys2Proof.Machine.execRenewReceive m s
  | .requestReceive m => Sys2Proof.Machine.execRequestReceive m s
  | .grantReceive m => Sys2Proof.Machine.execGrantReceive m s
  | .releaseReceive m => Sys2Proof.Machine.execReleaseReceive m s
  | .leaseExpiry => Sys2Proof.Machine.execLeaseExpiry s
  | .arbiterVacancy slot => Sys2Proof.Machine.execArbiterVacancy slot s
  | .busMessageReceive port ident bytes => Sys2Proof.Machine.execBusMessageReceive port ident bytes s
  | .messagePeriod m => Sys2Proof.Machine.execMessagePeriod m s
  | .mvbPoll port addr => Sys2Proof.Machine.execMvbPoll port addr s
  | .rs485FrameEnd port bytes => Sys2Proof.Machine.execRs485FrameEnd port bytes s
  | .canBusOff p => Sys2Proof.Machine.execCanBusOff p s
  | .busOffRecovery p => Sys2Proof.Machine.execBusOffRecovery p s
  | .nmtStart p => Sys2Proof.Machine.execNmtStart p s
  | .loopSample n nA limited headroomMv => Sys2Proof.Machine.execLoopSample n nA limited headroomMv s
  | .loopOpen n => Sys2Proof.Machine.execLoopOpen n s
  | .loopCompliance n => Sys2Proof.Machine.execLoopCompliance n s
  | .channelEventMatch => Sys2Proof.Machine.execChannelEventMatch s
  | .recWrite => Sys2Proof.Machine.execRecWrite s
  | .recIndexBuild => Sys2Proof.Machine.execRecIndexBuild s
  | .supplyInRange => Sys2Proof.Machine.execSupplyInRange s
  | .groupVoltageReturn g mV => Sys2Proof.Machine.execGroupVoltageReturn g mV s
  | .tpRetrySuccess k => Sys2Proof.Machine.execTpRetrySuccess k s
  | .loopOpenClear n => Sys2Proof.Machine.execLoopOpenClear n s
  | .loopComplianceClear n => Sys2Proof.Machine.execLoopComplianceClear n s
  | .holdupStoreLoss => Sys2Proof.Machine.execHoldupStoreLoss s
  | .svcTlsClose => Sys2Proof.Machine.execSvcTlsClose s
  | .hostLinkTrained speed width => Sys2Proof.Machine.execHostLinkTrained speed width s
  | .recIndexDone => Sys2Proof.Machine.execRecIndexDone s
  | .hostFrameSent j => Sys2Proof.Machine.execHostFrameSent j s
  | .poisonedDataRead off => Sys2Proof.Machine.execPoisonedDataRead off s
  | .busMasterEnableChange => Sys2Proof.Machine.execBusMasterEnableChange s
  | .debugStepOverrun c => Sys2Proof.Machine.execDebugStepOverrun c s
  | .twinLinkChange up => Sys2Proof.Machine.execTwinLinkChange up s

end Sys2Proof.Machine
end

