-- ==== Sys2Proof/Machine/Step.lean ====
section
/-! DEFINITION. One step: take the command at the front of the queue and run it on the rest; an empty queue idles. -/

namespace Sys2Proof.Machine

/-- The command at the front of the queue, with the queue's rest; on an empty queue the module idles. -/
def step (s : State) : Host.Outcome State Fault Refusal :=
  match s.pending with
  | [] => .next s
  | i :: q => exec i { s with pending := q }

/-- The command that a table word spells put at the front of the queue; no word of this block's table spells one. -/
def State.withFetchWord (s : State) (nbits w : Nat) : State :=
  match decodeTableWord nbits w with
  | some i => { s with pending := i :: s.pending }
  | none => s

end Sys2Proof.Machine
end

