-- ==== Sys2Proof/Machine/Panel.lean ====
section
/-! DEFINITION. The front-panel indicators (R539) as functions of the state. DESIGN CHOICE (log 106): where two colours of Table 20-6 apply
the more severe one shows, and no indicator shows while the edge, which drives them, is off or not loaded. -/

namespace Sys2Proof

/-- Colours of an indicator. -/
inductive Colour where
  | green | yellow | red
  deriving DecidableEq, Repr

/-- How an indicator shows its colour. -/
inductive Blink where
  | steady | flashing | slow
  deriving DecidableEq, Repr

/-- What an indicator shows; `none` is off. -/
abbrev Lamp := Option (Colour × Blink)

/-- A steady colour. -/
def Lamp.on (c : Colour) : Lamp := some (c, .steady)

end Sys2Proof

namespace Sys2Proof.Machine

/-- MODE (Table 20-6). -/
def State.lampMode (s : State) : Lamp :=
  match s.md.mode with
  | .off => none
  | .boot | .integrate | .startup => some (.green, .slow)
  | .run3 => .on .green
  | .run2 => some (.green, .flashing)
  | .maint => if s.md.debug then some (.yellow, .flashing) else .on .yellow
  | .safe => .on .red
  | .hold => some (.red, .flashing)

/-- ROLE (Table 20-6). -/
def State.lampRole (s : State) : Lamp :=
  match s.md.role with
  | .active => .on .green
  | .standby => .on .yellow
  | .orphan => .on .red
  | .solo => none

/-- CH A, CH B and CH C (Table 20-6). -/
def State.lampCh (s : State) (c : Ch) : Lamp :=
  match (s.ch c).st with
  | .vote => .on .green
  | .booting | .resync | .reloading => .on .yellow
  | .excluded | .retired => .on .red
  | .reset => none

/-- NET (Table 20-6). -/
def State.lampNet (s : State) : Lamp :=
  match s.md.mode with
  | .off | .boot | .hold | .integrate => none
  | .startup | .run3 | .run2 | .safe | .maint =>
    if (List.range 14).any fun p => s.rd (Reg.PTN_POLICE_ISOLATED p) ≠ 0 then .on .red
    else if s.rdb Reg.PTN_STATUS_LISTEN_ONLY || !s.timeValid then .on .yellow
    else .on .green

/-- DLK (Table 20-6). -/
def State.lampDlk (s : State) : Lamp :=
  if s.rdb Reg.DLK_STATUS_TESTING then none
  else if s.rdb Reg.DLK_STATUS_LOCKOUT then some (.red, .flashing)
  else if s.rdb Reg.DLK_STATUS_FALLBACK then .on .yellow
  else if s.rdb Reg.DLK_STATUS_FAULT then .on .red
  else if s.rdb Reg.DLK_STATUS_HEALTHY then .on .green
  else none

/-- The link indicator of X1 to X14: green for 1 Gbit/s, yellow for 100 Mbit/s. -/
def State.lampLink (s : State) (p : Nat) : Lamp :=
  if !s.rdb (Reg.PTN_PORT_LINK p) then none
  else if s.rd (Reg.PTN_PORT_SPEED p) = 2 then .on .green else .on .yellow

/-- The front panel. -/
structure Panel where
  mode : Lamp
  role : Lamp
  channels : List Lamp
  net : Lamp
  dlk : Lamp
  links : List Lamp
  deriving DecidableEq, Repr

/-- What the panel shows, driven by the edge (R539). -/
def State.panel (s : State) : Panel :=
  if s.good 4 && natBit (s.rd Reg.RPC_LOAD_LOAD_DONE) 4 then
    { mode := s.lampMode, role := s.lampRole, channels := Ch.all.map s.lampCh, net := s.lampNet, dlk := s.lampDlk,
      links := (List.range 14).map s.lampLink }
  else
    { mode := none, role := none, channels := [none, none, none], net := none, dlk := none, links := List.replicate 14 none }

end Sys2Proof.Machine
end

