-- ==== Sys2Proof/Certificates/Slice0/Obligations.lean ====
section
/-! DEFINITION. The statements for the provers. Each says what a group of commands does, in terms of `exec`, from the
rules that it cites; first the notions that the statements share. -/

namespace Sys2Proof.Claims

open Sys2Proof.Machine

/-- Lane `l` of channel `c` may execute and the memory code of its next word does not fail (R68, R131). -/
def runs (s : State) (c : Ch) (l : Fin 16) : Prop := s.laneReady c l.val = true ∧ (s.fetch c l.val).1 = false

/-- The state after the fetch of the lane's next word: a correction may have been counted. -/
def fetched (s : State) (c : Ch) (l : Fin 16) : State := (s.fetch c l.val).2

/-- `t` differs from `s` only in lane `l` of channel `c`, and there as `f` says. -/
def onlyLane (s t : State) (c : Ch) (l : Nat) (f : LaneSt → LaneSt) : Prop :=
  t.lane' c l = f (s.lane' c l) ∧ (∀ j, j ≠ l → t.lane' c j = s.lane' c j) ∧ (∀ d, d ≠ c → t.ch d = s.ch d) ∧
    t.ch c = { s.ch c with lanes := (t.ch c).lanes } ∧ t = { s with chs := t.chs }

/-- One instruction further in the stream and in the count of the phase. -/
def next (ln : LaneSt) : LaneSt := { ln with idx := ln.idx + 1, cnt := ln.cnt + 1 }

/-- The instruction word that a row of a lane stands for. -/
def word : Instr → Option LInstr
  | .nop _ _ => some .nop | .phase _ _ => some .phase | .endp _ _ => some .endp | .assert _ _ a => some (.assert a)
  | .ld _ _ x => some (.ld x) | .ldn _ _ x => some (.ldn x) | .and _ _ x => some (.and x) | .andn _ _ x => some (.andn x)
  | .or _ _ x => some (.or x) | .orn _ _ x => some (.orn x) | .xor _ _ x => some (.xor x)
  | .redge _ _ m => some (.redge m) | .fedge _ _ m => some (.fedge m)
  | .bpush _ _ => some .bpush | .bor _ _ => some .bor | .band _ _ => some .band
  | .zon _ _ neg => some (.zon neg) | .zoff _ _ => some .zoff
  | .out _ _ b => some (.out b) | .outn _ _ b => some (.outn b) | .set _ _ b => some (.set b) | .rst _ _ b => some (.rst b)
  | .stw _ _ w => some (.stw w) | .ldw _ _ w => some (.ldw w) | .ldwi _ _ u x => some (.ldwi u x) | .ldwh _ _ h => some (.ldwh h)
  | .ldx _ _ t => some (.ldx t)
  | .add _ _ x => some (.add x) | .sub _ _ x => some (.sub x) | .mul _ _ x => some (.mul x) | .min _ _ x => some (.min x)
  | .max _ _ x => some (.max x) | .andw _ _ x => some (.andw x) | .orw _ _ x => some (.orw x) | .xorw _ _ x => some (.xorw x)
  | .shl _ _ x => some (.shl x) | .shr _ _ x => some (.shr x) | .asr _ _ x => some (.asr x) | .limit _ _ x => some (.limit x)
  | .ceq _ _ x => some (.ceq x) | .cne _ _ x => some (.cne x) | .clt _ _ x => some (.clt x) | .cle _ _ x => some (.cle x)
  | .cgt _ _ x => some (.cgt x) | .cge _ _ x => some (.cge x)
  | .ton _ _ k t => some (.ton k t) | .tof _ _ k t => some (.tof k t) | .tp _ _ k t => some (.tp k t)
  | .ctu _ _ k t => some (.ctu k t) | .ctd _ _ k t => some (.ctd k t) | .cres _ _ pr t => some (.cres pr t)
  | _ => none

/-- The row's instruction is the one that the lane's running stream has next (R68). -/
def isNext (s : State) (c : Ch) (l : Fin 16) (i : Instr) : Prop := s.laneNext c l.val = word i

/-- Where it is the next one, the command completes, and what it changes beyond `r`, the state after its operand is read, is its lane as `f` says. -/
def laneTo (i : Instr) (s r : State) (c : Ch) (l : Fin 16) (f : LaneSt → LaneSt) : Prop :=
  isNext s c l i → ∃ t, exec i s = .next t ∧ onlyLane r t c l.val fun ln => next (f ln)

/-- The codeword of image word `i` in the replica of lane `l` holds no error and the flip mask is not armed for it, so
that a read or a write of it is exact (R209, R224). -/
def sound (s : State) (c : Ch) (l : Fin 16) (i : Nat) : Prop :=
  FMap.get 0 (s.ch c).errs (Miu.cwLane l.val i) = 0 ∧ s.flipHits c (Miu.cwLane l.val i) = false

/-- Image word `i` as lane `l` sees it, with its poison flag. -/
def seen (s : State) (c : Ch) (l : Fin 16) (i : Nat) : Psn Word :=
  ⟨s.ideal c (some l.val) i, FMap.get false (s.ch c).pmap (Miu.pkey (Miu.cwLane l.val i) i)⟩

end Sys2Proof.Claims

open Sys2Proof Sys2Proof.Machine Sys2Proof.Claims

/-! ### The logic engine -/

/-- R105 with Table 4-9: the bit logic instructions set BA from BA and the operand; nothing else of the state after the
operand is read changes but the lane's place in its stream. -/
def Obligations.BitLogicSetsBa : Prop :=
  ∀ (c : Ch) (l : Fin 16) (x : BitOp) (s : State), runs s c l →
    let r := (fetched s c l).bitOp c l.val x
    let ld := fun (f : Bool → Bool) (ln : LaneSt) => { ln with ba := ⟨f r.1.v, r.1.p⟩ }
    let op := fun (f : Bool → Bool → Bool) (ln : LaneSt) => { ln with ba := ⟨f ln.ba.v r.1.v, ln.ba.p || r.1.p⟩ }
    laneTo (.ld c l x) s r.2 c l (ld fun x => x) ∧
    laneTo (.ldn c l x) s r.2 c l (ld fun x => !x) ∧
    laneTo (.and c l x) s r.2 c l (op fun b x => b && x) ∧
    laneTo (.andn c l x) s r.2 c l (op fun b x => b && !x) ∧
    laneTo (.or c l x) s r.2 c l (op fun b x => b || x) ∧
    laneTo (.orn c l x) s r.2 c l (op fun b x => b || !x) ∧
    laneTo (.xor c l x) s r.2 c l (op fun b x => b ^^ x)

/-- R108 and R109 with Table 4-9: the branch stack and the zone stack. An empty stack cannot be met in a bank that the
loader accepts (R72). -/
def Obligations.StacksAndZones : Prop :=
  ∀ (c : Ch) (l : Fin 16) (s : State), runs s c l →
    let u := fetched s c l
    laneTo (.bpush c l) s u c l (fun ln => { ln with bstk := ln.ba :: ln.bstk }) ∧
    (∀ neg, laneTo (.zon c l neg) s u c l fun ln =>
      { ln with zstk := ln.ze :: ln.zstk, ze := ⟨ln.ze.v && (if neg then !ln.ba.v else ln.ba.v), ln.ze.p || ln.ba.p⟩ }) ∧
    (∀ p st, (u.lane' c l.val).bstk = p :: st →
      laneTo (.bor c l) s u c l (fun ln => { ln with ba := ⟨p.v || ln.ba.v, p.p || ln.ba.p⟩, bstk := st }) ∧
      laneTo (.band c l) s u c l (fun ln => { ln with ba := ⟨p.v && ln.ba.v, p.p || ln.ba.p⟩, bstk := st })) ∧
    (∀ z st, (u.lane' c l.val).zstk = z :: st → laneTo (.zoff c l) s u c l fun ln => { ln with ze := z, zstk := st })

/-- R106: an edge sets BA from BA and its marker; with ZE at 1 the previous BA goes into the marker in the lane's own
replica, and the marker's word is in the lane's dirty set (R82). The operand's word is sound. -/
def Sys2Proof.Claims.edgesUseAndUpdateMarker : Prop :=
  ∀ (c : Ch) (l : Fin 16) (m : BitAddr) (s : State), runs s c l →
    let u := fetched s c l
    let i := m.toNat / 32
    let w := seen u c l i
    let ln := u.lane' c l.val
    let x := w.v.getLsbD (m.toNat % 32)
    sound u c l i → w.p = false → ln.ba.p = false → ln.ze.p = false →
    ∀ (re : Bool), let i' : Instr := if re then .redge c l m else .fedge c l m
      isNext s c l i' → ∃ t, exec i' s = .next t ∧
      (t.lane' c l.val).ba = ⟨if re then ln.ba.v && !x else !ln.ba.v && x, false⟩ ∧
      (seen t c l i).p = false ∧
      (∀ n, n < 32 → (seen t c l i).v.getLsbD n = if n = m.toNat % 32 ∧ ln.ze.v then ln.ba.v else w.v.getLsbD n) ∧
      (∀ j, j ≠ i → t.ideal c (some l.val) j = u.ideal c (some l.val) j) ∧
      (FMap.get 0 (t.lane' c l.val).dirty i).getLsbD (m.toNat % 32) = true ∧
      (t.ch c).img = (u.ch c).img ∧ t.regs = u.regs ∧ t = { u with chs := t.chs }

/-- R110 with Table 4-6: when each store acts and what it writes, in the lane's own replica; the destination is in the
dirty set of the lane whether or not the store acts, the master copy keeps its value until the barrier (R80, R82). -/
def Sys2Proof.Claims.storesWriteTheReplica : Prop :=
  ∀ (c : Ch) (l : Fin 16) (s : State), runs s c l →
    let u := fetched s c l
    let ln := u.lane' c l.val
    ln.ze.p = false →
    (∀ (b : BitAddr),
      let i := b.toNat / 32
      let w := seen u c l i
      sound u c l i → w.p = false → ln.ba.p = false →
      ∀ e ∈ [(Instr.out c l b, true, ln.ba.v && ln.ze.v), (Instr.outn c l b, true, !ln.ba.v && ln.ze.v),
          (Instr.set c l b, ln.ba.v && ln.ze.v, true), (Instr.rst c l b, ln.ba.v && ln.ze.v, false)],
        isNext s c l e.1 → ∃ t, exec e.1 s = .next t ∧
          (∀ n, n < 32 → (seen t c l i).v.getLsbD n =
            if n = b.toNat % 32 ∧ e.2.1 = true then e.2.2 else w.v.getLsbD n) ∧
          (seen t c l i).p = false ∧
          (∀ j, j ≠ i → t.ideal c (some l.val) j = u.ideal c (some l.val) j) ∧
          (FMap.get 0 (t.lane' c l.val).dirty i).getLsbD (b.toNat % 32) = true ∧
          (t.lane' c l.val).ba = ln.ba ∧ (t.ch c).img = (u.ch c).img ∧ t.regs = u.regs ∧ t = { u with chs := t.chs }) ∧
    (∀ (a : WordAddr),
      let i := 0x2000 + a.toNat
      let w := seen u c l i
      sound u c l i → ln.wa.p = false →
        isNext s c l (.stw c l a) → ∃ t, exec (.stw c l a) s = .next t ∧
          seen t c l i = (if ln.ze.v then ⟨ln.wa.v, false⟩ else w) ∧
          (∀ j, j ≠ i → t.ideal c (some l.val) j = u.ideal c (some l.val) j) ∧
          FMap.get 0 (t.lane' c l.val).dirty i = 0xFFFFFFFF#32 ∧
          (t.lane' c l.val).wa = ln.wa ∧ (t.ch c).img = (u.ch c).img ∧ t.regs = u.regs ∧ t = { u with chs := t.chs })

/-- Both: `edgesUseAndUpdateMarker`, and `storesWriteTheReplica`. -/
def Obligations.StoresAndEdgeInstructions : Prop := Claims.edgesUseAndUpdateMarker ∧ Claims.storesWriteTheReplica

/-- R112 and R117 with Table 4-9: the word loads and the indexed read. The table entry is read through the code of the
table store. -/
def Sys2Proof.Claims.wordLoadsSetWa : Prop :=
  ∀ (c : Ch) (l : Fin 16) (s : State), runs s c l →
    let u := fetched s c l
    (∀ a : WordAddr, let r := u.laneWord c l.val a.toNat
      laneTo (.ldw c l a) s r.2 c l fun ln => { ln with wa := r.1 }) ∧
    (∀ (uns : Bool) (x : BitVec 24), laneTo (.ldwi c l uns x) s u c l fun ln =>
      { ln with wa := ⟨if uns then x.setWidth 32 else x.signExtend 32, false⟩ }) ∧
    (∀ h : BitVec 16, laneTo (.ldwh c l h) s u c l fun ln => { ln with wa := ⟨h ++ ln.wa.v.setWidth 16, ln.wa.p⟩ }) ∧
    (∀ (t : BitVec 8) (b : Bank) (d : TableDesc), (u.ch c).run = some b → b.table t.toNat = some d →
      let n := (u.lane' c l.val).wa.v.toNat
      (d.len ≤ n → laneTo (.ldx c l t) s u c l fun ln => { ln with wa := ⟨d.dflt, ln.wa.p⟩, rng := true }) ∧
      (n < d.len → let r := u.tableEntry c b t.toNat n
        laneTo (.ldx c l t) s (r.2.laneTook c l.val r.1.p) c l fun ln => { ln with wa := ⟨r.1.v, ln.wa.p || r.1.p⟩ }))

/-- The number that a word stands for in an unsigned or a signed form. -/
def Sys2Proof.Claims.num (uns : Bool) (x : Word) : Int := if uns then x.toNat else x.toInt

/-- The number lies outside the range of 32 bits of an unsigned or a signed form. -/
def Sys2Proof.Claims.outside (uns : Bool) (v : Int) : Bool := if uns then v < 0 || 2 ^ 32 ≤ v else v < -2 ^ 31 || 2 ^ 31 ≤ v

/-- R113 with Table 4-7 and R115: the exact result cut to 32 bits, the overflow status where it lies outside the range of
the form and otherwise as it was, and the minimum and maximum of the form. -/
def Obligations.ArithmeticWrapsAndFlags : Prop :=
  ∀ (c : Ch) (l : Fin 16) (x : ArOp) (s : State), runs s c l →
    let r := (fetched s c l).arOp c l.val x
    let wa := ((fetched s c l).lane' c l.val).wa
    let a := Claims.num x.uns wa.v
    let v := Claims.num x.uns r.1.v
    let res := fun (e : Int) (ln : LaneSt) =>
      { ln with wa := ⟨BitVec.ofInt 32 e, wa.p || r.1.p⟩, ovf := ln.ovf || Claims.outside x.uns e }
    laneTo (.add c l x) s r.2 c l (res (a + v)) ∧ laneTo (.sub c l x) s r.2 c l (res (a - v)) ∧
    laneTo (.mul c l x) s r.2 c l (res (a * v)) ∧ laneTo (.min c l x) s r.2 c l (res (Min.min a v)) ∧
    laneTo (.max c l x) s r.2 c l (res (Max.max a v)) ∧
    (∀ y : LimOp, let q := (fetched s c l).limOp c l.val y
      laneTo (.limit c l y) s q.2 c l fun ln => { ln with
        wa := ⟨BitVec.ofInt 32 (Min.min (Max.max (Claims.num q.1.1 wa.v) (Claims.num q.1.1 q.1.2.1.v)) (Claims.num q.1.1 q.1.2.2.v)),
          wa.p || q.1.2.1.p || q.1.2.2.p⟩ })

/-- R113 (word logic) and R114: logic bit by bit, never a status; shifts by any count, with the overflow status of `SHL`
where a bit shifted out is 1. -/
def Sys2Proof.Claims.wordLogicAndShifts : Prop :=
  ∀ (c : Ch) (l : Fin 16) (s : State), runs s c l →
    let wa := ((fetched s c l).lane' c l.val).wa
    (∀ x : LogOp, let r := (fetched s c l).logOp c l.val x
      let res := fun (f : Bool → Bool → Bool) (ln' : LaneSt → LaneSt) => (∀ ln n, n < 32 →
          (ln' ln).wa.v.getLsbD n = f (wa.v.getLsbD n) (r.1.v.getLsbD n)) ∧
        (∀ ln, ln' ln = { ln with wa := ⟨(ln' ln).wa.v, wa.p || r.1.p⟩ })
      (∃ f, laneTo (.andw c l x) s r.2 c l f ∧ res (fun a b => a && b) f) ∧
      (∃ f, laneTo (.orw c l x) s r.2 c l f ∧ res (fun a b => a || b) f) ∧
      (∃ f, laneTo (.xorw c l x) s r.2 c l f ∧ res (fun a b => a ^^ b) f)) ∧
    (∀ x : ShOp, let r := (fetched s c l).shOp c l.val x
      let n := r.1.v.toNat
      (∀ k, x = .c k → r = (⟨k.setWidth 32, false⟩, fetched s c l)) ∧
      laneTo (.shl c l x) s r.2 c l (fun ln => { ln with
        wa := ⟨BitVec.ofNat 32 (wa.v.toNat * 2 ^ n), wa.p || r.1.p⟩,
        ovf := ln.ovf || decide (2 ^ 32 ≤ wa.v.toNat * 2 ^ n) }) ∧
      laneTo (.shr c l x) s r.2 c l (fun ln => { ln with wa := ⟨BitVec.ofNat 32 (wa.v.toNat / 2 ^ n), wa.p || r.1.p⟩ }) ∧
      laneTo (.asr c l x) s r.2 c l (fun ln => { ln with wa := ⟨BitVec.ofInt 32 (wa.v.toInt / 2 ^ n), wa.p || r.1.p⟩ }))

/-- Both: `wordLoadsSetWa`, and `wordLogicAndShifts`. -/
def Obligations.LoadsLogicAndShifts : Prop := Claims.wordLoadsSetWa ∧ Claims.wordLogicAndShifts

/-- R116: a compare sets BA to the relation between WA and the operand in the form's reading, and leaves WA. -/
def Obligations.ComparesSetBa : Prop :=
  ∀ (c : Ch) (l : Fin 16) (x : ArOp) (s : State), runs s c l →
    let r := (fetched s c l).arOp c l.val x
    let wa := ((fetched s c l).lane' c l.val).wa
    let a := Claims.num x.uns wa.v
    let v := Claims.num x.uns r.1.v
    let res := fun (b : Bool) (ln : LaneSt) => { ln with ba := ⟨b, wa.p || r.1.p⟩ }
    laneTo (.ceq c l x) s r.2 c l (res (decide (wa.v = r.1.v))) ∧ laneTo (.cne c l x) s r.2 c l (res (decide (wa.v ≠ r.1.v))) ∧
    laneTo (.clt c l x) s r.2 c l (res (decide (a < v))) ∧ laneTo (.cle c l x) s r.2 c l (res (decide (a ≤ v))) ∧
    laneTo (.cgt c l x) s r.2 c l (res (decide (v < a))) ∧ laneTo (.cge c l x) s r.2 c l (res (decide (v ≤ a)))

/-- The codeword of a timer or of a counter holds no error, the flip mask is not armed for it, and neither the state nor
BA nor ZE is poisoned. -/
def Sys2Proof.Claims.cleanTc (s : State) (c : Ch) (l : Fin 16) (counter : Bool) (t : Nat) : Prop :=
  let cw := if counter then Miu.cwCounter t else Miu.cwTimer t
  FMap.get 0 (s.ch c).errs cw = 0 ∧ s.flipHits c cw = false ∧ FMap.get false (s.ch c).pmap (Miu.pkey cw t) = false ∧
    (s.lane' c l.val).ba.p = false ∧ (s.lane' c l.val).ze.p = false

/-- R94, R119 and R120: with ZE at 1 the three timers on elapsed time e, output q, previous input p, preset pt and input
BA; with ZE at 0 the state keeps its value (R118). The other timers, the images and the registers keep theirs. -/
def Sys2Proof.Claims.timersStep : Prop :=
  ∀ (c : Ch) (l : Fin 16) (k : TVar) (n : BitVec 12) (s : State) (b : Bank), runs s c l →
    let u := fetched s c l
    let ln := u.lane' c l.val
    let w := FMap.get 0 (u.ch c).timers n.toNat
    let e := (w.extractLsb' 0 24).toNat
    let q := w.getLsbD 24
    let pt := b.tPreset n.toNat
    let inp := ln.ba.v
    let start := !q && inp && !w.getLsbD 25 && decide (0 < pt)
    let e1 := if start then 0 else e
    (u.ch c).run = some b → cleanTc u c l false n.toNat → pt < 2 ^ 24 → e1 + 1 < 2 ^ 24 →
    ∀ x ∈ [(Instr.ton c l k n, if inp then (if e < pt then e + 1 else e) else 0, inp && (q || decide (pt ≤ e)),
              inp && (q || decide (pt ≤ e))),
          (Instr.tof c l k n, if inp then 0 else if q && decide (e < pt) then e + 1 else e, inp || (q && decide (e < pt)),
              inp || (q && decide (e < pt))),
          (Instr.tp c l k n, if q || start then e1 + 1 else e, (q || start) && decide (e1 + 1 < pt), q || start)],
      let e' := if ln.ze.v then x.2.1 else e
      isNext s c l x.1 → ∃ t, exec x.1 s = .next t ∧
        (let w' := FMap.get 0 (t.ch c).timers n.toNat
         (w'.extractLsb' 0 24).toNat = e' ∧ w'.getLsbD 24 = (if ln.ze.v then x.2.2.1 else q) ∧
         w'.getLsbD 25 = (if ln.ze.v then inp else w.getLsbD 25)) ∧
        (t.lane' c l.val).ba = ⟨if ln.ze.v then x.2.2.2 else q, false⟩ ∧
        (t.lane' c l.val).wa = (match k with
          | .plain => ln.wa
          | .e => ⟨BitVec.ofNat 32 e', false⟩
          | .r => ⟨BitVec.ofInt 32 ((pt : Int) - e'), false⟩) ∧
        (∀ m, m ≠ n.toNat → FMap.get 0 (t.ch c).timers m = FMap.get 0 (u.ch c).timers m) ∧
        (t.ch c).img = (u.ch c).img ∧ t.regs = u.regs ∧ t = { u with chs := t.chs }

/-- R121 and R122: the counters on count v, preset pv and input BA, with the overflow status at the ends of the range;
with ZE at 0 the count keeps its value (R118). -/
def Sys2Proof.Claims.countersStep : Prop :=
  ∀ (c : Ch) (l : Fin 16) (n : BitVec 12) (s : State) (b : Bank), runs s c l →
    let u := fetched s c l
    let ln := u.lane' c l.val
    let v := FMap.get 0 (u.ch c).counters n.toNat
    let pv := b.cPreset n.toNat
    let acts := ln.ba.v && ln.ze.v
    let up := if acts && v ≠ 0xFFFFFFFF#32 then v + 1 else v
    let down := if acts && v ≠ 0 then v - 1 else v
    let kept := fun (t : State) => (∀ m, m ≠ n.toNat → FMap.get 0 (t.ch c).counters m = FMap.get 0 (u.ch c).counters m) ∧
      (t.ch c).img = (u.ch c).img ∧ t.regs = u.regs ∧ t = { u with chs := t.chs }
    (u.ch c).run = some b → cleanTc u c l true n.toNat →
    (∀ (k : CVar), ∀ x ∈ [(Instr.ctu c l k n, up, decide (pv.toNat ≤ up.toNat), acts && v = 0xFFFFFFFF#32),
          (Instr.ctd c l k n, down, decide (down = 0), acts && v = 0)],
      isNext s c l x.1 → ∃ t, exec x.1 s = .next t ∧ FMap.get 0 (t.ch c).counters n.toNat = x.2.1 ∧
        (t.lane' c l.val).ba = ⟨x.2.2.1, false⟩ ∧ (t.lane' c l.val).ovf = (ln.ovf || x.2.2.2) ∧
        (t.lane' c l.val).wa = (match k with
          | .plain => ln.wa
          | .v => ⟨x.2.1, false⟩
          | .r => ⟨pv - x.2.1, false⟩) ∧ kept t) ∧
    (∀ (preset : Bool), isNext s c l (.cres c l preset n) → ∃ t, exec (.cres c l preset n) s = .next t ∧
      FMap.get 0 (t.ch c).counters n.toNat = (if acts then (if preset then pv else 0) else v) ∧
      (t.lane' c l.val).ba = ln.ba ∧ (t.lane' c l.val).wa = ln.wa ∧ (t.lane' c l.val).ovf = ln.ovf ∧ kept t)

/-- Both: `timersStep`, and `countersStep`. -/
def Obligations.TimersAndCountersStep : Prop := Claims.timersStep ∧ Claims.countersStep

/-- R123 and R124: `NOP` changes nothing but the lane's place, `PHASE` and `END` make the lane wait, and `ASSERT` raises
its assertion once where ZE is 1 and BA is 0 or poisoned; a poisoned ZE raises it too (Table 4-9). -/
def Obligations.ControlInstructions : Prop :=
  ∀ (c : Ch) (l : Fin 16) (s : State), runs s c l →
    let u := fetched s c l
    let ln := u.lane' c l.val
    laneTo (.nop c l) s u c l (fun ln => ln) ∧ laneTo (.phase c l) s u c l (fun ln => { ln with wait := .atPhase }) ∧
    laneTo (.endp c l) s u c l (fun ln => { ln with wait := .atEnd }) ∧
    (∀ a : BitVec 10, let raises := ln.ze.p || (ln.ze.v && (!ln.ba.v || ln.ba.p))
      isNext s c l (.assert c l a) → ∃ t, exec (.assert c l a) s = .next t ∧
        (∀ x, x ∈ (t.ch c).raised ↔ x ∈ (u.ch c).raised ∨ (raises = true ∧ x = a.toNat)) ∧
        ((u.ch c).raised.Nodup → (t.ch c).raised.Nodup) ∧ t.lane' c l.val = next ln ∧
        (t.ch c).img = (u.ch c).img ∧ t.regs = u.regs ∧ t = { u with chs := t.chs })

/-- R131: a word whose memory code fails acts as a `NOP` that poisons BA, WA, ZE and every stack entry and sets the poison
status; here for an instruction that names no destination and closes no phase. -/
def Obligations.PoisonedFetchPoisonsLane : Prop :=
  ∀ (c : Ch) (l : Fin 16) (x : ArOp) (s : State), s.laneReady c l.val = true → (s.fetch c l.val).1 = true →
    let ln := (fetched s c l).lane' c l.val
    ∀ i ∈ [Instr.add c l x, Instr.ceq c l x, Instr.nop c l, Instr.bpush c l, Instr.zoff c l],
      isNext s c l i → ∃ t, exec i s = .next t ∧
        t.lane' c l.val = { next ln with
          ba := ⟨ln.ba.v, true⟩, wa := ⟨ln.wa.v, true⟩, ze := ⟨ln.ze.v, true⟩, psn := true,
          bstk := ln.bstk.map fun e => ⟨e.v, true⟩, zstk := ln.zstk.map fun e => ⟨e.v, true⟩ } ∧
        (∀ j, j ≠ l.val → t.lane' c j = (fetched s c l).lane' c j) ∧ (t.ch c).img = ((fetched s c l).ch c).img

/-- R81, R82, R85 and R71: with every lane waiting, no memory error, no force and no debug session, the barrier merges the
words that the lanes stored: a word that one lane alone names as a whole takes that lane's value in the master copy, a
word that no lane names keeps its own. The lanes run on in the next phase, or the program is complete when all wait at
`END`; the clocks of the phase are the longest lane's count, 8, and a quarter of D, rounded up. -/
def Obligations.BarrierMergesDirtyWords : Prop :=
  ∀ (c : Ch) (s : State),
    let h := s.ch c
    let n := Ch.num c
    let lanes := List.range 16
    let last := lanes.all fun l => decide ((s.lane' c l).wait = .atEnd)
    let d := (lanes.map fun l => (s.lane' c l).dirty.length).sum
    s.rd (Reg.LEN_STATUS_RUN n) = 1 → (∀ l < 16, (s.lane' c l).wait ≠ .running) → h.errs = [] → h.pmap = [] →
    s.rdb (Reg.MIU_FLIP_CTL_ARM n) = false → s.md.cycForces = [] → s.md.debug = false →
    (∀ l < 16, FMap.wf 0 (s.lane' c l).dirty = true ∧ (s.lane' c l).barPsn = []) →
    s.rd (Reg.LEN_STATUS_PHASE n) < 63 →
    ∃ t, exec (.phaseBarrier c) s = .next t ∧
      (∀ l < 16, ∀ i, 0x2000 ≤ i → FMap.get 0 (s.lane' c l).dirty i = 0xFFFFFFFF#32 →
        (∀ j < 16, j ≠ l → FMap.get 0 (s.lane' c j).dirty i = 0) →
        FMap.get 0 (t.ch c).img i = s.ideal c (some l) i) ∧
      (∀ i, (∀ l < 16, FMap.get 0 (s.lane' c l).dirty i = 0) → FMap.get 0 (t.ch c).img i = FMap.get 0 h.img i) ∧
      (∀ l < 16, (t.lane' c l).own = [] ∧ (t.lane' c l).dirty = [] ∧
        (t.lane' c l).wait = (if last then .atEnd else .running)) ∧
      t.rd (Reg.LEN_STATUS_RUN n) = (if last then 2 else 1) ∧
      (last = false → t.rd (Reg.LEN_STATUS_PHASE n) = s.rd (Reg.LEN_STATUS_PHASE n) + 1) ∧
      (t.ch c).clk = h.clk + ((lanes.map fun l => (s.lane' c l).cnt).foldl max 0) + (8 + (d + 3) / 4) ∧
      (∀ e, e ≠ c → t.ch e = s.ch e)

/-! ### Notions for the registers -/

/-- The fields listed hold the values given, and every field at another place holds what it held. -/
def Sys2Proof.Claims.regsTo (s t : State) (l : List (Fld × Nat)) : Prop :=
  (∀ e ∈ l, t.rd e.1 = e.2) ∧ ∀ g : Fld, (∀ e ∈ l, g.key ≠ e.1.key) → t.rd g = s.rd g

/-- Every field that is not at the place of one listed holds what it held. -/
def Sys2Proof.Claims.keepsRegs (s t : State) (l : List Fld) : Prop := ∀ g : Fld, (∀ f ∈ l, g.key ≠ f.key) → t.rd g = s.rd g

/-- The recorder's fields that a logged event may change (R463). -/
def Sys2Proof.Claims.logFlds : List Fld := [Reg.REC_QUEUE_FILL, Reg.REC_QUEUE_HIGH, Reg.REC_ERR_Q_OVF]

/-- Output `o` has both switches open. -/
def Sys2Proof.Claims.isOff (s : State) (o : Nat) : Prop :=
  s.rdb (Reg.SIO_OUT_STAT_HS o) = false ∧ s.rdb (Reg.SIO_OUT_STAT_LS o) = false ∧ s.rdb (Reg.SIO_OUT_STAT_ENERGISED o) = false

/-- The state parts of the field domain and the registers may differ, nothing else. -/
def Sys2Proof.Claims.onlySio (s t : State) : Prop := t = { s with regs := t.regs, sio := t.sio }

/-- What a switch's opening may change of an output's record: what its classification awaits (R254). -/
def Sys2Proof.Claims.outKept (s t : State) (q : Nat) : Prop :=
  t.out q = { s.out q with awaited := (t.out q).awaited, lowSince := (t.out q).lowSince }

/-- The same with the recorder, for a command that logs. -/
def Sys2Proof.Claims.onlySioRec (s t : State) : Prop := t = { s with regs := t.regs, sio := t.sio, rcd := t.rcd }

/-! ### Safety inputs and outputs -/

/-- R233, R235, R242 and R243: an ordinary sample classifies every input of every powered channel and filters its value
over N samples, evaluates each declared pair, and touches nothing but the sense stages. For an input with no test-pulse
fault and no foreign pulse to judge. -/
def Sys2Proof.Claims.ordinarySampleFilters : Prop :=
  ∀ (uA : FMap Nat) (s : State), ∃ t, exec (.ordinarySample uA) s = .next t ∧ t = { s with sio := t.sio } ∧
    t.sio.outs = s.sio.outs ∧
    ∀ c : Ch, (s.stageOn c = false → ∀ i < 24, t.sio.inp c i = s.sio.inp c i) ∧
      (s.stageOn c = true →
        (∀ i < 24, let x := s.sio.inp c i
          let y := t.sio.inp c i
          let cls := classOf c i (s.inputUa uA c i)
          let n := s.rd (Reg.SIO_IN_CFG_FILTER i)
          y.cls = cls ∧
          (x.tpFault = false → x.forPend = false →
            y.fval = (if decide (cls = 3) ≠ x.fval ∧ n ≤ x.vCnt + 1 then decide (cls = 3) else x.fval) ∧
            y.vCnt = (if decide (cls = 3) ≠ x.fval ∧ ¬ n ≤ x.vCnt + 1 then x.vCnt + 1 else 0) ∧
            y.tpFault = false)) ∧
        (∀ p < 12, let x := s.sio.pr c p
          let y := t.sio.pr c p
          let a := (t.sio.inp c (2 * p)).forPair
          let b := (t.sio.inp c (2 * p + 1)).forPair
          (s.rdb (Reg.SIO_PAIR_CFG_DECLARED p) = false → y = x) ∧
          (s.rdb (Reg.SIO_PAIR_CFG_DECLARED p) = true → x.latched = false →
            y.value = (a && b) ∧
            (a = b → y.latched = false ∧ y.disCnt = 0) ∧
            (a ≠ b → y.disCnt = x.disCnt + 1 ∧ y.latched = decide (s.rd (Reg.SIO_PAIR_CFG_D p) ≤ x.disCnt + 1)))))

/-- R236, R237 and R240: a test pulse, the sample in an interval of its supply on an input of that supply and on any
other, and the overload of a supply. -/
def Sys2Proof.Claims.testPulseSupplies : Prop :=
  ∀ (k : Fin 4) (s : State),
    (s.tpDriven = true → s.suspended (k.val / 2) = false → FMap.get false s.sio.tpOff k.val = false →
      ∃ t, exec (.testPulse k) s = .next t ∧ FMap.get false t.sio.pulses k.val = true ∧
        (∀ j, j ≠ k.val → FMap.get false t.sio.pulses j = FMap.get false s.sio.pulses j) ∧
        t = { s with sio := { s.sio with pulses := t.sio.pulses } }) ∧
    (∀ (n : Nat) (uA : FMap Nat), n = 4 * k.val + 1 ∨ n = 4 * k.val + 17 →
      ∃ t, exec (.testSample k n uA) s = .next t ∧ FMap.get false t.sio.pulses k.val = false ∧
        t = { s with sio := { s.sio with ins := t.sio.ins, pulses := t.sio.pulses } } ∧
        ∀ (c : Ch), s.stageOn c = true → ∀ i < 24,
          let x := s.sio.inp c i
          let y := t.sio.inp c i
          let own := s.rd (Reg.SIO_IN_CFG_TP i)
          (own = 0 → y = x) ∧
          (FMap.get false s.sio.pulses k.val = false → s.tpDriven = true → y = x) ∧
          (own = k.val + 1 → s.suspended (k.val / 2) = false → FMap.get false s.sio.pulses k.val = true →
            y.tpFails = (if 400 ≤ s.inputUa uA c i then x.tpFails + 1 else 0) ∧
            y.tpMiss = decide (400 ≤ s.inputUa uA c i) ∧
            y.tpFault = (x.tpFault || decide (2 ≤ y.tpFails)) ∧ y.fval = (x.fval && !y.tpFault))) ∧
    (∃ t, exec (.tpOverload k) s = .next t ∧ natBit (t.rd Reg.SIO_TP_OVL) k.val = true ∧
      FMap.get false t.sio.tpOff k.val = true ∧ keepsRegs s t [Reg.SIO_TP_OVL] ∧ onlySio s t) ∧
    (natBit (s.rd Reg.SIO_TP_OVL) k.val = true →
      ∃ t, exec (.tpRetry k) s = .next t ∧ FMap.get false t.sio.tpOff k.val = false ∧
        t = { s with sio := { s.sio with tpOff := t.sio.tpOff } }) ∧
    (FMap.get false s.sio.tpOff k.val = false → s.rd Reg.SIO_TP_OVL < 16 →
      ∃ t, exec (.tpRetrySuccess k) s = .next t ∧ natBit (t.rd Reg.SIO_TP_OVL) k.val = false ∧
        (∀ j < 4, j ≠ k.val → natBit (t.rd Reg.SIO_TP_OVL) j = natBit (s.rd Reg.SIO_TP_OVL) j) ∧
        keepsRegs s t [Reg.SIO_TP_OVL] ∧ t = { s with regs := t.regs })

/-- Both: `ordinarySampleFilters`, and `testPulseSupplies`. -/
def Obligations.InputSamplesAndTestSupplies : Prop := Claims.ordinarySampleFilters ∧ Claims.testPulseSupplies

/-- R249 to R251, R287 and R560: the tests of an output's switches. An off-pulse opens one switch of an energised output in its
cycle; its end judges the voltage across it against the group's, and the second failure of a side in sequence latches code 4 or 5. An
off-state check ends with its counts at 0 where both sides are sound, and the second failure in sequence latches code 4 or 5, or 1 (2
where no output is left to await) for a voltage at SOn+. -/
def Sys2Proof.Claims.outputSwitchTests : Prop :=
  ∀ (o : Fin 12) (s : State),
    let n := o.val
    (∀ low : Bool, s.energised n = true → (s.out n).pulse = none → s.suspended (n / 6) = false →
        s.tm.cyc % s.pulseL n = 2 * n + (if low then 1 else 0) →
      ∃ t, exec (.offPulse o low) s = .next t ∧ (t.out n).pulse = some low ∧
        t.rdb (if low then Reg.SIO_OUT_STAT_LS n else Reg.SIO_OUT_STAT_HS n) = false ∧
        t.rdb (Reg.SIO_OUT_STAT_ENERGISED n) = false ∧ t.rdb (Reg.SIO_OUT_STAT_CHECK n) = true ∧
        (∀ q, q ≠ n → t.out q = s.out q) ∧
        keepsRegs s t [Reg.SIO_OUT_STAT_HS n, Reg.SIO_OUT_STAT_LS n, Reg.SIO_OUT_STAT_ENERGISED n, Reg.SIO_OUT_STAT_CHECK n] ∧
        onlySio s t) ∧
    (∀ (low : Bool) (mV groupMv : Nat) (plus : FMap Nat), (s.out n).pulse = some low → groupMv < 6553600 →
      ∃ t, exec (.offPulseEnd o low ⟨mV, groupMv⟩ plus) s = .next t ∧ (t.out n).pulse = none ∧
        t.rdb (Reg.SIO_OUT_STAT_CHECK n) = false ∧ t.rd (Reg.SIO_GROUP_VOLT (n / 6)) = groupMv / 100 ∧ onlySioRec s t ∧
        (groupMv < mV * 2 → (if low then (t.out n).failLs else (t.out n).failHs) = 0) ∧
        ((low = true ∨ ∀ q < 12, s.latchCode q ≠ 1) →
          (groupMv < mV * 2 → t.latchCode n = s.latchCode n) ∧
          (¬ groupMv < mV * 2 → s.latchCode n = 0 → (if low then (s.out n).failLs else (s.out n).failHs) = 1 →
            t.latchCode n = (if low then 5 else 4) ∧ isOff t n))) ∧
    (s.rdb (Reg.SIO_OUT_STAT_HS n) = false → s.suspended (n / 6) = false → (s.out n).pulse = none →
      ∃ t, exec (.offStateCheck o) s = .next t ∧ t.rdb (Reg.SIO_OUT_STAT_CHECK n) = true ∧
        (n < 4 → t.rdb (Reg.SIO_OUT_STAT_LS n) = false) ∧
        (4 ≤ n → t.rdb (Reg.SIO_OUT_STAT_LS n) = s.rdb (Reg.SIO_OUT_STAT_LS n)) ∧
        keepsRegs s t [Reg.SIO_OUT_STAT_CHECK n, Reg.SIO_OUT_STAT_LS n] ∧ t = { s with regs := t.regs }) ∧
    (∀ (hsOk lsOk : Bool) (mv : Nat), s.rdb (Reg.SIO_OUT_STAT_CHECK n) = true → (s.out n).pulse = none →
      ∃ t, exec (.offStateCheckEnd o hsOk lsOk mv) s = .next t ∧ t.rdb (Reg.SIO_OUT_STAT_CHECK n) = false ∧
        (t.out n).rb = some (decide (s.unMv (n / 6) ≤ mv * 2)) ∧ onlySioRec s t ∧
        (hsOk = true → lsOk = true → s.tpDriven = true → mv * 2 < s.unMv (n / 6) →
          (n < 4 → t.rdb (Reg.SIO_OUT_STAT_LS n) = (s.mayClose n && s.lowDrive n)) ∧
          (4 ≤ n → t.rdb (Reg.SIO_OUT_STAT_LS n) = s.rdb (Reg.SIO_OUT_STAT_LS n)) ∧
          keepsRegs s t [Reg.SIO_OUT_STAT_CHECK n, Reg.SIO_OUT_STAT_LS n] ∧
          (t.out n).offHs = 0 ∧ (t.out n).offLs = 0 ∧ (t.out n).high = 0 ∧ (∀ q, q ≠ n → t.out q = s.out q) ∧ onlySio s t) ∧
        (s.latchCode n = 0 → mv * 2 < s.unMv (n / 6) → hsOk = false → lsOk = true → (s.out n).offHs = 1 →
          t.latchCode n = 4 ∧ isOff t n) ∧
        (s.latchCode n = 0 → mv * 2 < s.unMv (n / 6) → hsOk = true → lsOk = false → (s.out n).offLs = 1 →
          t.latchCode n = 5 ∧ isOff t n) ∧
        (s.latchCode n = 0 → s.unMv (n / 6) ≤ mv * 2 → s.tpDriven = true → lsOk = true → (s.out n).high = 1 →
          (t.latchCode n = 1 ∨ t.latchCode n = 2) ∧ isOff t n))

/-- R253, R255 and R261: an overcurrent opens the output and its parallel partner and latches code 6, whose cause clears
after the hold; the load warnings; and a timed output at its instant. -/
def Sys2Proof.Claims.outputLatchesAndTimedOutputs : Prop :=
  ∀ (o : Fin 12) (s : State),
    let n := o.val
    (∀ inst : Bool, ∃ t, exec (.overcurrent o inst) s = .next t ∧ onlySioRec s t ∧
      ∀ q, q = n ∨ s.partner n = some q → s.latchCode q = 0 → t.latchCode q = 6 ∧ isOff t q) ∧
    (s.latchCode n = 6 → ∃ t, exec (.overcurrentClear o) s = .next t ∧ (t.out n).causeClear = true ∧ t.causeIsClear n = true ∧
      (∀ q, q ≠ n → t.out q = s.out q) ∧ t = { s with sio := t.sio }) ∧
    (s.latchCode n ≠ 6 → exec (.overcurrentClear o) s = .next s) ∧
    (s.energised n = false → ∀ w, exec (.openLoadWarning o w) s = .next s) ∧
    (s.energised n = true →
      (∃ t, exec (.openLoadWarning o false) s = .next t ∧ regsTo s t [(Reg.SIO_OUT_STAT_OPEN_LOAD n, 1)] ∧
        t = { s with regs := t.regs }) ∧
      (∀ q, s.partner n = some q → ∃ t, exec (.openLoadWarning o true) s = .next t ∧
        regsTo s t [(Reg.SIO_OUT_STAT_IMBAL n, 1), (Reg.SIO_OUT_STAT_IMBAL q, 1)] ∧ t = { s with regs := t.regs })) ∧
    (∀ d, (s.out n).due = some d → ∃ t, exec (.timedOutputDue o) s = .next t ∧ (t.out n).due = none ∧
      t.rdb (Reg.SIO_OUT_STAT_PEND n) = false ∧ (t.out n).onHs = ((s.out n).dueHs && s.outPermit) ∧
      (t.out n).onLs = ((s.out n).dueLs && s.outPermit) ∧ (∀ q, q ≠ n → outKept s t q) ∧ onlySio s t) ∧
    ((s.out n).due = none → exec (.timedOutputDue o) s = .next s)

/-- Both: `outputSwitchTests`, and `outputLatchesAndTimedOutputs`. -/
def Obligations.OutputTestsAndLatches : Prop := Claims.outputSwitchTests ∧ Claims.outputLatchesAndTimedOutputs

/-- R257 to R259: the field supply groups. A sag below 0.6 Un of a group that is not tripped starts the ride and ends the tests of the
group, the trip opens every output with code 7, an overvoltage above 1.4 Un rides with the tests going on, a return ends a ride with
nothing latched or starts a recovery, and the end of the recovery resumes the tests. That a group whose tests a ride has suspended
shows `STATE` 4 until then is the model's reading (log 77). -/
def Obligations.FieldSupplyGroups : Prop :=
  ∀ (g : Fin 2) (s : State),
    let n := g.val
    let un := s.unMv n
    let trip := FMap.get 0 s.sio.trip n
    let st := Reg.SIO_GROUP_STATE n
    let volt := Reg.SIO_GROUP_VOLT n
    (∀ mV, mV * 10 < un * 6 → trip = 0 → ∃ t, exec (.groupSag g mV) s = .next t ∧ t.rd st = 1 ∧ t.rd volt = mV / 100 ∧
      t.suspended n = true ∧ FMap.get 0 t.sio.trip n = 0 ∧ (∀ o < 12, o / 6 = n → t.rdb (Reg.SIO_OUT_STAT_CHECK o) = false) ∧
      (∀ o < 12, s.latchCode o ≠ 1 → t.latchCode o = s.latchCode o) ∧ onlySio s t) ∧
    (s.rd st = 1 → FMap.get false s.sio.ovRide n = false → ∃ t, exec (.groupTrip g) s = .next t ∧ t.rd st = 2 ∧ onlySioRec s t ∧
      t.suspended n = true ∧ ∀ o < 12, o / 6 = n → s.latchCode o = 0 → t.latchCode o = 7 ∧ isOff t o) ∧
    (∀ mV, un * 14 < mV * 10 → mV < 6553600 → trip = 0 → ∃ t, exec (.groupOvervoltage g mV false) s = .next t ∧
      regsTo s t [(volt, mV / 100), (st, 1)] ∧ FMap.get false t.sio.ovRide n = true ∧ t.suspended n = s.suspended n ∧ onlySio s t) ∧
    (∀ mV, un * 14 < mV * 10 → ∃ t, exec (.groupOvervoltage g mV true) s = .next t ∧ t.rd st = 3 ∧ onlySioRec s t ∧
      ∀ o < 12, o / 6 = n → s.latchCode o = 0 → t.latchCode o = 7) ∧
    (∀ mV, un * 7 ≤ mV * 10 → mV * 10 ≤ un * 13 →
      ∃ t, exec (.groupVoltageReturn g mV) s = .next t ∧ onlySio s t ∧ (∀ o, t.out o = s.out o) ∧ t.suspended n = s.suspended n ∧
        regsTo s t [(volt, mV / 100), (st, if trip ≠ 0 ∨ s.suspended n = true then 4 else 0)]) ∧
    (s.rd st = 4 → ∃ t, exec (.groupRecovered g) s = .next t ∧ regsTo s t [(st, 0)] ∧ FMap.get false t.sio.autoClr n = true ∧
      t.suspended n = false ∧ FMap.get 0 t.sio.trip n = 0 ∧ onlySio s t)
/-! ### The Door Loop Keeper -/

/-- The state parts that the Door Loop Keeper's own evaluation may change: its own, the registers, and what a classification of the
outputs awaits when a low side opens (R254). -/
def Sys2Proof.Claims.onlyDlk (s t : State) : Prop :=
  t = { s with regs := t.regs, dlk := t.dlk, sio := { s.sio with outs := t.sio.outs } } ∧ ∀ q, outKept s t q

/-- R275, R276, R280 and R282: currents held for 1.0 ms become the inputs' values, 1 above 3.2 mA, and shorter ones are not taken; with
no pair latched they make the pairs the conjunction of their inputs, pair 12 is timed for the acknowledge edge (R284), and the four
low-side commands follow Table 9-3; a release waits until SO3 reads open, and a readback of SO3 lets it close. The end of
an off-time lets the output close if its equation then holds (R281). -/
def Obligations.DlkEquations : Prop :=
  ∀ (s : State), s.pdfGood = true →
    (∀ (uA : FMap Nat) (held since : Nat), held < 1000000 → exec (.dlkInputChange ⟨uA, held, since⟩) s = .next s) ∧
    (∀ (uA : FMap Nat) (held since : Nat), 1000000 ≤ held → (∀ p < 6, (s.dlk.pr p).latched = false) →
      let v := dlkStage s.dlk.inputs uA
      let pair := fun p => v.getLsbD (2 * p) && v.getLsbD (2 * p + 1)
      let lc := pair (if s.swd 0 then 3 else 2)
      let rc := pair (if s.swd 0 then 2 else 3)
      let h := s.dlk.passed && !s.rdb Reg.DLK_STATUS_FAULT
      let free := h && pair 0 && (!s.swd 3 || pair 4) && !s.rdb Reg.DLK_STATUS_LOCKOUT
      let tl := free && lc && !rc && !s.dlk.offL
      let tr := free && rc && !lc && !s.dlk.offR
      let out := s.rd Reg.DLK_STATUS_OUT
      ∃ t, exec (.dlkInputChange ⟨uA, held, since⟩) s = .next t ∧ t.dlk.inputs = v ∧
        ((s.dlk.pr 5).value = false → pair 5 = true →
          t.dlk.ackLow = s.dlk.ackRun + since ∧ t.dlk.ackHigh = none ∧ t.dlk.ackRun = 0) ∧
        ((s.dlk.pr 5).value = true → pair 5 = false →
          t.dlk.ackHigh = some (s.dlk.ackRun + since) ∧ t.dlk.ackLow = s.dlk.ackLow ∧ t.dlk.ackRun = 0) ∧
        ((s.dlk.pr 5).value = pair 5 →
          t.dlk.ackRun = s.dlk.ackRun + since ∧ t.dlk.ackLow = s.dlk.ackLow ∧ t.dlk.ackHigh = s.dlk.ackHigh) ∧
        (∀ i < 12, (∀ e ∈ uA, e.1 ≠ i) → v.getLsbD i = s.dlk.inputs.getLsbD i) ∧
        (∀ e ∈ uA, e.1 < 12 → (∀ e' ∈ uA, e'.1 = e.1 → e' = e) → v.getLsbD e.1 = decide (3200 < e.2)) ∧ (∀ p < 6, (t.dlk.pr p).value = pair p) ∧
        natBit (t.rd Reg.DLK_STATUS_OUT) 0 = (tl && (natBit out 0 || s.dlk.so3Open)) ∧
        natBit (t.rd Reg.DLK_STATUS_OUT) 1 = (tr && (natBit out 1 || s.dlk.so3Open)) ∧
        natBit (t.rd Reg.DLK_STATUS_OUT) 2 = (h && pair 1 && !tl && !tr) ∧
        natBit (t.rd Reg.DLK_STATUS_OUT) 3 = (h && !s.rdb Reg.DLK_STATUS_LOCKOUT) ∧ onlyDlk s t) ∧
    (natBit (s.rd Reg.DLK_STATUS_OUT) 2 = false →
      ∃ t, exec .dlkSo3ReadbackOpen s = .next t ∧ natBit (t.rd Reg.DLK_STATUS_OUT) 0 = s.releaseTerm false ∧
        natBit (t.rd Reg.DLK_STATUS_OUT) 1 = s.releaseTerm true ∧ t.dlk.inputs = s.dlk.inputs ∧ onlyDlk s t) ∧
    (∀ right : Bool, s.dlk.termL = false → s.dlk.termR = false →
      ∃ t, exec (.dlkOffTimeExpiry right) s = .next t ∧ t.dlk.offL = (s.dlk.offL && right) ∧ t.dlk.offR = (s.dlk.offR && !right) ∧
        (if right then t.dlk.termR else t.dlk.termL) =
          ({ s with dlk := { s.dlk with offL := s.dlk.offL && right, offR := s.dlk.offR && !right } } : State).releaseTerm right ∧
        onlyDlk s t)

/-- R283 and R284: a discrepancy that has lasted T_D latches its pair, and that of pairs 1 to 5, or both release commands
for T_D, enter lockout with their cause, which opens the release and feed outputs; an acknowledge edge of the
timing of R263 leaves it only when no pair is latched and not both releases are commanded, and is otherwise ignored. -/
def Sys2Proof.Claims.dlkLockout : Prop :=
  ∀ (s : State), s.pdfGood = true →
    (∀ p : Fin 6, (s.dlk.pr p.val).disagree = true → (s.dlk.pr p.val).latched = false →
      ∃ t, exec (.dlkDiscrepancy p) s = .next t ∧ (t.dlk.pr p.val).latched = true ∧ (t.dlk.pr p.val).value = false ∧
        (∀ q, q ≠ p.val → t.dlk.pr q = s.dlk.pr q) ∧ onlyDlk s t ∧
        (p.val < 5 → s.rdb Reg.DLK_STATUS_LOCKOUT = false →
          t.rd Reg.DLK_STATUS_LOCKOUT = 1 ∧ t.rd Reg.DLK_STATUS_LOCK_CAUSE = 1 ∧ t.rd Reg.DLK_EVENT_LOCKOUT_SET = 1) ∧
        (p.val < 5 → ∀ b ∈ [0, 1, 3], natBit (t.rd Reg.DLK_STATUS_OUT) b = false) ∧
        (p.val = 5 → t.rd Reg.DLK_STATUS_LOCKOUT = s.rd Reg.DLK_STATUS_LOCKOUT)) ∧
    ((s.dlk.pr 2).value = true → (s.dlk.pr 3).value = true → s.rdb Reg.DLK_STATUS_LOCKOUT = false →
      ∃ t, exec .dlkBothRelease s = .next t ∧ t.rd Reg.DLK_STATUS_LOCKOUT = 1 ∧ t.rd Reg.DLK_STATUS_LOCK_CAUSE = 2 ∧
        t.rd Reg.DLK_EVENT_LOCKOUT_SET = 1 ∧ (∀ b ∈ [0, 1, 3], natBit (t.rd Reg.DLK_STATUS_OUT) b = false) ∧ onlyDlk s t) ∧
    (∀ highNs : Nat, s.dlk.ackHigh = some highNs → (s.dlk.pr 5).value = false → (s.dlk.pr 5).latched = false →
      100000000 ≤ s.dlk.ackLow → 100000000 ≤ highNs → highNs ≤ 3000000000 →
      let free := (∀ p < 5, (s.dlk.pr p).latched = false) ∧ ¬ ((s.dlk.pr 2).value = true ∧ (s.dlk.pr 3).value = true)
      ∃ t, exec .dlkAckEdge s = .next t ∧ t.dlk.ackHigh = none ∧ onlyDlk s t ∧
        (s.rdb Reg.DLK_STATUS_LOCKOUT = true → free → t.rd Reg.DLK_STATUS_LOCKOUT = 0 ∧ t.rd Reg.DLK_EVENT_LOCKOUT_CLEARED = 1) ∧
        (¬ free → regsTo s t [(Reg.DLK_EVENT_ACK_IGNORED, 1)]))

/-- R281, R285 and R286: the start-up test and its two ends, the rail checker's test, and a fault of Table 9-4: the first
code stands, every low side opens, and the fallback driver is to connect at the second Tc where `SW-D` bit 6 permits it
(R288). Codes 2, 3 and 4 are found in operation, 4 while a low side is commanded open outside an off-pulse and an output latch. -/
def Sys2Proof.Claims.dlkTestsAndFaults : Prop :=
  ∀ (s : State),
    let fault := fun (t : State) (code : Nat) => t.rd Reg.DLK_STATUS_FAULT = 1 ∧ t.rd Reg.DLK_STATUS_FAULT_CODE = code ∧
      t.rd Reg.DLK_EVENT_FAULT_SET = 1 ∧ t.rd Reg.DLK_STATUS_OUT = 0 ∧ t.dlk.fbWait = (if s.swd 6 && code ≠ 5 then some 2 else none) ∧
      t = { s with regs := t.regs, dlk := t.dlk, rcd := t.rcd, sio := { s.sio with outs := t.sio.outs } } ∧ ∀ q, outKept s t q
    (s.pdfGood = true → natBit (s.rd Reg.RPC_LOAD_LOAD_DONE) 5 = true → s.rd Reg.DLK_TEST_STARTUP = 0 →
      ∃ t, exec .dlkStartupTest s = .next t ∧ regsTo s t [(Reg.DLK_TEST_STARTUP, 1), (Reg.DLK_STATUS_TESTING, 1)] ∧
        t = { s with regs := t.regs }) ∧
    (s.rd Reg.DLK_TEST_STARTUP = 1 →
      (∃ t, exec (.dlkStartupTestDone none) s = .next t ∧ t.rd Reg.DLK_TEST_STARTUP = 2 ∧ t.rd Reg.DLK_STATUS_TESTING = 0 ∧
        t.dlk.passed = true ∧ t.dlk.offL = s.hasOffTime ∧ t.dlk.offR = s.hasOffTime ∧
        t.rd Reg.DLK_STATUS_FAULT = s.rd Reg.DLK_STATUS_FAULT ∧ onlyDlk s t) ∧
      (∀ v : BitVec 8, ∃ t, exec (.dlkStartupTestDone (some v)) s = .next t ∧ t.rd Reg.DLK_TEST_STARTUP = 3 ∧
        t.rd Reg.DLK_TEST_FAILED_VECTOR = v.toNat ∧ t.rd Reg.DLK_STATUS_TESTING = 0 ∧
        (s.rdb Reg.DLK_STATUS_FAULT = false → fault t 1) ∧
        (s.rdb Reg.DLK_STATUS_FAULT = true → t.rd Reg.DLK_STATUS_FAULT_CODE = s.rd Reg.DLK_STATUS_FAULT_CODE))) ∧
    (s.pdfGood = true →
      (∃ t, exec (.dlkCheckerTest true) s = .next t ∧
        regsTo s t [(Reg.DLK_TEST_CHK_PASSES, Min.min 65535 (s.rd Reg.DLK_TEST_CHK_PASSES + 1))] ∧ t = { s with regs := t.regs }) ∧
      (s.rdb Reg.DLK_STATUS_FAULT = false → ∃ t, exec (.dlkCheckerTest false) s = .next t ∧ fault t 3)) ∧
    (∀ code : BitVec 4, s.pdfGood = true →
      let found := code = 2 ∨ code = 3 ∨ (code = 4 ∧ ∃ o < 4, natBit (s.rd Reg.DLK_STATUS_OUT) o = false ∧ (s.out o).pulse = none ∧
        s.heldOff o = false)
      (found → s.rdb Reg.DLK_STATUS_FAULT = false → ∃ t, exec (.dlkFault code) s = .next t ∧ fault t code.toNat) ∧
      (s.rdb Reg.DLK_STATUS_FAULT = true ∨ ¬ found → exec (.dlkFault code) s = .next s))

/-- Both: `dlkLockout`, and `dlkTestsAndFaults`. -/
def Obligations.DlkLockoutTestsAndFaults : Prop := Claims.dlkLockout ∧ Claims.dlkTestsAndFaults

/-! ### The network and its time -/

/-- A saturating counter's next value. -/
def Sys2Proof.Claims.up (s : State) (f : Fld) : Nat := Min.min (2 ^ f.width - 1) (s.rd f + 1)

/-- The state parts of the network edge and the registers may differ, nothing else. -/
def Sys2Proof.Claims.onlyPtn (s t : State) : Prop := t = { s with regs := t.regs, ptn := t.ptn }

/-- R301, R320 and R49: the checks of Table 10-4 on a frame at a consist port, which is not forwarded. A DATA frame that
passes them is delivered to its entry, one cycle later where it ended at or after the next Tc; one with a wrong FCS, or
in nobody's window, is dropped and counted. -/
def Sys2Proof.Claims.frameReception : Prop :=
  ∀ (port : Fin 14) (bytes b : List Byte) (startNs endNs : Nat) (s : State),
    let p := port.val
    let f := parsePtn b
    4 ≤ p → s.edgeUp = true → s.portUp p = true → ptnBody (s.rd Reg.PTN_CFG_ETHERTYPE) bytes = some b →
    (∃ t, exec (.ptnFrameReceive port bytes startNs endNs false) s = .next t ∧ t.rd (Reg.PTN_PORT_RX_ERR p) = up s (Reg.PTN_PORT_RX_ERR p) ∧
      keepsRegs s t [Reg.PTN_PORT_RX_ERR p] ∧ t.ptn = { s.ptn with cFail := s.ptn.cFail + 1 } ∧ onlyPtn s t) ∧
    (f.version = 1 → f.type = 3 → f.len ≠ 0xFFFF → f.len ≤ f.body.length → 8 ≤ b.length →
      (s.windowOf p f startNs = none → ∃ t, exec (.ptnFrameReceive port bytes startNs endNs true) s = .next t ∧
        t.rd (Reg.PTN_POLICE_DROPS p) = up s (Reg.PTN_POLICE_DROPS p) ∧ keepsRegs s t [Reg.PTN_POLICE_DROPS p] ∧
        t.ptn.cViol = s.ptn.cViol + 1 ∧ t.ptn.rx = s.ptn.rx ∧ t.ptn.rxLate = s.ptn.rxLate ∧ onlyPtn s t) ∧
      (∀ e, s.windowOf p f startNs = some e → FMap.get 0 s.ptn.iso (violKey p f.src f.slot) = 0 →
        f.len = (s.entry e).payLen → (s.entry e).map ≠ 0 →
        ∃ t, exec (.ptnFrameReceive port bytes startNs endNs true) s = .next t ∧ t.regs = s.regs ∧
          let r : Option RxFrame := some ⟨f.body.take f.len, FMap.get 0 s.ptn.sentSeq (s.entry e).peer⟩
          (if endNs < s.tbc then FMap.get none t.ptn.rx e = r ∧ t.ptn = { s.ptn with rx := t.ptn.rx }
            else FMap.get none t.ptn.rxLate e = r ∧ t.ptn = { s.ptn with rxLate := t.ptn.rxLate }) ∧ onlyPtn s t))

/-- R326 and R327: a foreign frame to an address learned at another port is buffered as it is for that port, its source learned; the
first frame of a port leaves in a free window that has room for it; an address not seen for 300 s goes. -/
def Sys2Proof.Claims.foreignTraffic : Prop :=
  ∀ (port : Fin 14) (s : State),
    let p := port.val
    (∀ (dst src : BitVec 48) (tag : Option (BitVec 16)) (etherType : BitVec 16) (data : List Byte) (y : Learned),
      let bytes := foreignOctets dst src tag etherType data
      let len := max 64 (bytes.length + 4)
      s.edgeUp = true → s.portUp p = true → s.freeFwd p = true →
      etherType.toNat ≠ s.rd Reg.PTN_CFG_ETHERTYPE → isGptp tag etherType = false → dst.getLsbD 40 = false →
      s.ptn.learned.find? (fun z => z.vlan = vlanOf tag && z.mac = dst) = some y → y.port ≠ p → src ≠ dst →
      s.ptn.learned.length < 4096 → s.ptn.portUse y.port + len ≤ 65536 → s.ptn.sharedUse + len ≤ 524288 →
      ∃ t, exec (.foreignFrameReceive port dst src tag etherType data) s = .next t ∧
        t.ptn.freeQ = s.ptn.freeQ ++ [⟨bytes, [y.port]⟩] ∧ ⟨vlanOf tag, src, p, s.tm.opNs⟩ ∈ t.ptn.learned ∧
        (∀ z ∈ s.ptn.learned, ¬ (z.vlan = vlanOf tag ∧ z.mac = src) → z ∈ t.ptn.learned) ∧
        keepsRegs s t [Reg.PTN_FREE_LEARNED] ∧ onlyPtn s t) ∧
    (∀ (w : Nat) (f : FreeFrame) (rest : List FreeFrame), s.ptn.freeQ = f :: rest → f.ports = [p] → (∀ g ∈ rest, p ∉ g.ports) →
      s.freeWindow p f.len = some w → (∀ m ∈ s.tmu.gptpWait, m.1 ≠ p) → s.edgeUp = true → s.portUp p = true → s.freeFwd p = true →
      let n := (s.entry w).start * 10 + s.taken w p
      exec (.freeWindowForward port) s = .next { s with ptn := { s.ptn with
        freeQ := rest, egress := FMap.set none s.ptn.egress p (some ⟨f.bytes, true, n, (n : Int) - s.deltaTx p⟩),
        used := FMap.set 0 s.ptn.used (w * 16 + p) (s.taken w p + (f.len + 20) * s.octetNs p) } }) ∧
    (∃ t, exec .addressAgeing s = .next t ∧
      (∀ z, z ∈ t.ptn.learned ↔ z ∈ s.ptn.learned ∧ s.tm.opNs < z.seen + 300000000000) ∧
      (t.ptn.learned.length < 8192 → t.rd Reg.PTN_FREE_LEARNED = t.ptn.learned.length) ∧ keepsRegs s t [Reg.PTN_FREE_LEARNED] ∧ onlyPtn s t)

/-- Both: `frameReception`, and `foreignTraffic`. -/
def Obligations.FramesAndForeignTraffic : Prop := Claims.frameReception ∧ Claims.foreignTraffic

/-- R299, R314 to R317 and R358: a window with a voted payload sends it on the entry's ports where it fits and advances the
header sequence where a port started it; one with none is left empty and counted; an arbitrating window sends the queued frame of its entry; EVENT
frames older than one matrix period go; a launch entry's frame leaves at its target. -/
def Obligations.Transmission : Prop :=
  ∀ (e : Nat) (s : State),
    let x := s.entry e
    let bytes := fun (pl : List Byte) => buildFrame (natBE 6 (s.ptn.net.ent e).dst.toNat) (s.rd Reg.PTN_CFG_ETHERTYPE)
      (s.srcNode x.ftype) (s.rd Reg.TMU_STATUS_DOMAIN) x.ftype s.mi x.slot (FMap.get 0 s.ptn.hdrSeq e) pl
    let sent := fun (t : State) (pl : List Byte) (at' : Nat → Option Nat) =>
      (∀ p, FMap.get none t.ptn.egress p = match at' p with
        | some n => some ⟨bytes pl, true, n, (n : Int) - s.deltaTx p⟩
        | none => FMap.get none s.ptn.egress p) ∧
      FMap.get 0 t.ptn.hdrSeq e =
        if (List.range 14).any fun p => (at' p).isSome then (FMap.get 0 s.ptn.hdrSeq e + 1) % 65536 else FMap.get 0 s.ptn.hdrSeq e
    let inWindow := fun (pl : List Byte) (p : Nat) =>
      if p ∈ s.txPorts x ∧ s.fitsNow e p pl.length = true then some (x.start * 10 + s.gNs + s.taken e p) else none
    s.mayOriginate = true → x.inCycle s.mi = true → s.gateOpen x.ftype = true →
    (x.kind = 2 → x.ftype ≠ 5 → s.launchOf e = none →
      (∀ (t0 : TxStage) (pl : List Byte), FMap.get none s.ptn.tx e = some t0 → t0.payload = some pl →
        ∃ t, exec (.transmitWindow e) s = .next t ∧ sent t pl (inWindow pl) ∧
          (x.safety = true → ((s.txPorts x).any fun p => s.fitsNow e p pl.length) = true → FMap.get 0 t.ptn.sentSeq x.peer = t0.safeSeq) ∧ keepsRegs s t [Reg.PTN_VOTE_UNFIT] ∧ onlyPtn s t) ∧
      ((FMap.get none s.ptn.tx e).bind (·.payload) = none →
        ∃ t, exec (.transmitWindow e) s = .next t ∧ t.rd Reg.PTN_VOTE_EMPTY = up s Reg.PTN_VOTE_EMPTY ∧
          keepsRegs s t [Reg.PTN_VOTE_EMPTY] ∧ t.ptn = { s.ptn with cEmpty := s.ptn.cEmpty + 1 } ∧ onlyPtn s t)) ∧
    (∀ v : EvFrame, x.kind = 4 → s.eventsOf e = [v] → v.entry = e →
      ((s.txPorts x).any fun p => s.fitsNow e p v.payload.length) = true →
      ∃ t, exec (.transmitWindow e) s = .next t ∧ sent t v.payload (inWindow v.payload) ∧ t.ptn.events = s.ptn.events.erase v ∧
        onlyPtn s t) ∧
    (∃ t, exec .eventFrameExpiry s = .next t ∧
      t.ptn = { s.ptn with events := s.ptn.events.filter fun v => s.tm.cyc ≤ v.cyc + s.mx } ∧
      keepsRegs s t [Reg.PTN_VOTE_UNFIT] ∧ onlyPtn s t) ∧
    (∀ (l : Fin 8) (due : Due) (t0 : TxStage) (pl : List Byte), s.rd (Reg.TMU_LAUNCH_ENTRY l.val) = e →
      FMap.get none s.tmu.launchDue l.val = some due → FMap.get none s.ptn.tx e = some t0 → t0.payload = some pl →
      ∃ t, exec (.timedLaunchDue l) s = .next t ∧
        sent t pl (fun p => if p ∈ s.txPorts x then some due.chain else none) ∧ t.rd (Reg.TMU_LAUNCH_STAT_RESULT l.val) = 1 ∧
        FMap.get none t.tmu.launchDue l.val = none ∧ FMap.get 0 t.tmu.lastTL l.val = due.target ∧
        t = { s with regs := t.regs, ptn := t.ptn, tmu := t.tmu })

/-- R295, R330, R331 and R332 with Table 10-10: link changes, the hold-up measurement, and the steps of an insertion from
both relays closed to both lines in. -/
def Obligations.LinksBypassAndHoldup : Prop :=
  ∀ (s : State),
    let stage := Reg.PTN_BYPASS_STAGE
    let relayA := fun (v : Nat) => [(Reg.PTN_BYPASS_RELAY_A, v), (Reg.PTN_PORT_BYPASSED 0, v), (Reg.PTN_PORT_BYPASSED 1, v)]
    let relayB := fun (v : Nat) => [(Reg.PTN_BYPASS_RELAY_B, v), (Reg.PTN_PORT_BYPASSED 2, v), (Reg.PTN_PORT_BYPASSED 3, v)]
    (∀ (port : Fin 14) (speed : Nat), speed < 3 → (port.val < 4 → speed ≠ 1) → s.rd stage ≠ 5 →
      ∃ t, exec (.portLinkChange port speed) s = .next t ∧
        regsTo s t [(Reg.PTN_PORT_LINK port.val, if speed = 0 then 0 else 1), (Reg.PTN_PORT_SPEED port.val, speed)] ∧
        t = { s with regs := t.regs }) ∧
    (s.rdb Reg.PTN_HOLDUP_DONE = false → exec .holdupMeasure s = .next { s with ptn := { s.ptn with holdupBusy := true } }) ∧
    (∀ mJ, s.ptn.holdupBusy = true → 40000 ≤ mJ → mJ < 6553600 →
      ∃ t, exec (.holdupMeasureDone mJ) s = .next t ∧ regsTo s t [(Reg.PTN_HOLDUP_DONE, 1), (Reg.PTN_HOLDUP_ENERGY, mJ / 100)] ∧
        t.ptn = { s.ptn with holdupBusy := false } ∧ onlyPtn s t) ∧
    (∀ mJ, s.ptn.holdupBusy = true → mJ < 32000 →
      ∃ t, exec (.holdupMeasureDone mJ) s = .next t ∧ t.rdb Reg.PTN_HOLDUP_LOW = true ∧ t.rdb Reg.PTN_HOLDUP_NO_STAGE = true) ∧
    (∃ t, exec .holdupStoreLoss s = .next t ∧ regsTo s t (relayA 1 ++ relayB 1 ++ [(stage, 3)]) ∧ t.ptn = { s.ptn with relayNs := 0 } ∧ onlyPtn s t) ∧
    (s.edgeUp = true → s.rdb Reg.PTN_HOLDUP_DONE = true → s.rd stage = 3 →
      (∃ t, exec .edgeInsertion s = .next t ∧ regsTo s t (relayA 0 ++ [(stage, 4)]) ∧ t = { s with regs := t.regs }) ∧
      (0 < s.rd Reg.PTN_BYPASS_RETRIES → ∃ t, exec .insertionRetry s = .next t ∧ regsTo s t (relayA 0 ++ [(stage, 4)]) ∧
        t = { s with regs := t.regs })) ∧
    (s.rd stage = 4 → s.lineUp false = true →
      ∃ t, exec .lineALinksUp s = .next t ∧ regsTo s t (relayB 0 ++ [(stage, if s.lineUp true then 0 else 5)]) ∧
        t = { s with regs := t.regs }) ∧
    (s.rd stage = 4 → ∃ t, exec .insertionTimeout s = .next t ∧ (∀ r ∈ relayA 1 ++ [(stage, 3)], t.rd r.1 = r.2) ∧
      t.rd Reg.PTN_BYPASS_RETRIES = up s Reg.PTN_BYPASS_RETRIES ∧
      keepsRegs s t ((relayA 1).map (·.1) ++ [stage, Reg.PTN_BYPASS_RETRIES] ++ logFlds) ∧ t = { s with regs := t.regs, rcd := t.rcd })

/-- R350 to R352 and R339: a cold-starting node sends a COLDSTART frame on its backbone ports and counts it, a master sends
its DATUM, and a node that is none sends the datum of the domain in use on its consist ports; an eligible node that has heard nothing for 2 M + 4 p cycles starts, and one that has backed off counts again. -/
def Sys2Proof.Claims.datumsAndColdStart : Prop :=
  ∀ (s : State),
    (∀ e, s.ownDatums = [e] → s.edgeUp = true →
      let x := s.entry e
      let bytes := fun (domain ty : Nat) (cold : Bool) => buildFrame (natBE 6 (0x03A150000000 + domain)) (s.rd Reg.PTN_CFG_ETHERTYPE)
        (s.rd Reg.PTN_CFG_NODE) domain ty s.mi x.slot (FMap.get 0 s.ptn.hdrSeq e) (s.datumPayload x domain cold)
      let sent := fun (t : State) (f : List Byte) (on : Nat → Bool) => ∀ p, FMap.get none t.ptn.egress p =
        if p ∈ s.txPorts x ∧ on p = true ∧ s.fitsNow e p 32 = true then
          let n := x.start * 10 + s.gNs + s.taken e p
          some ⟨f, true, n, (n : Int) - s.deltaTx p⟩
        else FMap.get none s.ptn.egress p
      let m := (s.tmu.dom s.ownDom).master && s.rdb Reg.TMU_CFG_ELIGIBLE
      (s.md.mode = .integrate → s.rd Reg.TMU_STATUS_ROLE = 3 →
        ∃ t, exec .datumSend s = .next t ∧ t.tmu = { s.tmu with coldSends := s.tmu.coldSends + 1 } ∧
          sent t (bytes s.ownDom 2 true) (fun p => decide (p < 4)) ∧ t.md = s.md) ∧
      (s.inTrain = true → s.rdb Reg.PTN_STATUS_LISTEN_ONLY = false →
        ∃ t, exec .datumSend s = .next t ∧ t.tmu = s.tmu ∧ t.md = s.md ∧
          sent t (bytes (if m then s.ownDom else s.domUse) 1 false) (fun p => decide (4 ≤ p) || m))) ∧
    (s.md.mode = .integrate → s.rdb Reg.TMU_CFG_ELIGIBLE = true → s.rd Reg.TMU_STATUS_ROLE = 5 →
      (2 * s.mx + 4 * s.rd Reg.TMU_CFG_COLD_PRIO ≤ s.tmu.quiet →
        ∃ t, exec .coldstartTimeout s = .next t ∧ regsTo s t [(Reg.TMU_STATUS_ROLE, 3)] ∧ t.tmu = { s.tmu with coldSends := 0 } ∧
          t = { s with regs := t.regs, tmu := t.tmu }) ∧
      (s.tmu.quiet < 2 * s.mx + 4 * s.rd Reg.TMU_CFG_COLD_PRIO → exec .coldstartTimeout s = .next s)) ∧
    (s.rd Reg.TMU_STATUS_ROLE = 4 → s.tmu.backoff = 0 →
      ∃ t, exec .coldstartBackoffEnd s = .next t ∧ regsTo s t [(Reg.TMU_STATUS_ROLE, 5)] ∧ t.tmu = { s.tmu with quiet := 0 } ∧
        t = { s with regs := t.regs, tmu := t.tmu })

/-- R361 to R364: a consist port enabled for gPTP sends Sync with Follow_Up, Announce, and the answer to a Pdelay request with its
Follow_Up, each with its sequence number, domain 0, the arbitrary timescale, clock class 13 while network time is valid and 14
otherwise; the first leaves where a free window has room, what has not left waits; the time output rises at whole seconds. The log
interval of the Pdelay answers is the model's (log 98). -/
def Sys2Proof.Claims.gptpAndTimePulse : Prop :=
  ∀ (s : State),
    (∀ port : Fin 14, let p := port.val
      s.gptpOn p = true → (∀ w ∈ s.tmu.gptpWait, w.1 ≠ p) →
      ∀ x ∈ [(Instr.gptpSync, [0, 8], -(s.rd Reg.TMU_AS_SYNC_LOG : Int)), (Instr.gptpAnnounce, [11], 0),
          (Instr.gptpPdelayReq port, [3, 10], 127)],
        ∃ t, exec x.1 s = .next t ∧ t = { s with
            ptn := { s.ptn with used := t.ptn.used }, tmu := { s.tmu with gptp := t.tmu.gptp, gptpWait := t.tmu.gptpWait } } ∧
          ∀ k ∈ x.2.1,
            let m : GptpMsg := {
              kind := k, domain := 0, seq := ((FMap.get none s.tmu.gptp (p * 16 + k)).elim 0 fun m => m.seq + 1) % 65536,
              logInterval := x.2.2, clockClass := if s.timeValid then 13 else 14, priority1 := s.rd Reg.TMU_AS_PRIORITY1,
              timeSource := 0xA0, ptpTimescale := false, time := s.tm.tcNs }
            let left := ∃ n, s.tm.tcNs ≤ n ∧ FMap.get none t.tmu.gptp (p * 16 + k) = some { m with time := n }
            ((p, m) ∈ t.tmu.gptpWait ∨ left) ∧
            (x.2.1.head? = some k → (s.freeWindow p (gptpOctets k)).isSome = true → left)) ∧
    (s.timeValid = true → ∃ t n, exec .timePulse s = .next t ∧ t = { s with tmu := { s.tmu with pulse := some n } } ∧
      n % 1000000000 = 0 ∧ n < s.tm.tcNs + s.tbc ∧ s.tm.tcNs + s.tbc ≤ n + 1000000000)

/-- Both: `datumsAndColdStart`, and `gptpAndTimePulse`. -/
def Obligations.DatumsColdStartAndTimeOutputs : Prop := Claims.datumsAndColdStart ∧ Claims.gptpAndTimePulse

/-! ### The host port and the command lane -/

/-- Module and program commands of the lane with their codes. -/
def Sys2Proof.Claims.commands1 : List (Nat × (CmdRec → Instr)) :=
  [(0x01, .cmdNop), (0x02, .modReset), (0x03, .warmReset), (0x04, .chReset), (0x05, .mntEnter), (0x06, .mntExit)]

/-- Program and force commands of the lane with their codes. -/
def Sys2Proof.Claims.commands2 : List (Nat × (CmdRec → Instr)) :=
  [(0x40, .prgLoad), (0x41, .prgArm), (0x42, .prgCommit), (0x43, .prgDisarm), (0x44, .prgRelease), (0x45, .forceSet)]

/-- Force and debug commands of the lane with their codes. -/
def Sys2Proof.Claims.commands3 : List (Nat × (CmdRec → Instr)) :=
  [(0x46, .forceClear), (0x47, .forceClearAll), (0x48, .retDiscard), (0x50, .dbgEnter), (0x51, .dbgExit)]

/-- Debug, twin and gateway commands of the lane with their codes. -/
def Sys2Proof.Claims.commands4 : List (Nat × (CmdRec → Instr)) :=
  [(0x52, .dbgHalt), (0x53, .dbgStep), (0x54, .dbgResume), (0x60, .twnHandover), (0x61, .twnHoCancel), (0x70, .gwyLoad)]

/-- Gateway and loop commands of the lane with their codes. -/
def Sys2Proof.Claims.commands5 : List (Nat × (CmdRec → Instr)) :=
  [(0x71, .gwySwap), (0x72, .gwyNmt), (0x73, .gwySdoRead), (0x74, .gwySdoWrite), (0x80, .alpCalBegin), (0x81, .alpCalPoint)]

/-- Loop and recorder commands of the lane with their codes. -/
def Sys2Proof.Claims.commands6 : List (Nat × (CmdRec → Instr)) :=
  [(0x82, .alpCalCommit), (0x83, .alpCalAbort), (0x84, .alpCalFactory), (0x90, .recClear), (0x91, .recCountClear)]

/-- Security commands of the lane with their codes. -/
def Sys2Proof.Claims.commands7 : List (Nat × (CmdRec → Instr)) :=
  [(0xA0, .cfgStore), (0xA1, .cfgStart), (0xA2, .schLoad), (0xA3, .schCommit), (0xA4, .schCancel), (0xA5, .fwActivate)]

/-- Further security commands of the lane with their codes. -/
def Sys2Proof.Claims.commands8 : List (Nat × (CmdRec → Instr)) :=
  [(0xA6, .secRollback), (0xA7, .secRevoke), (0xA8, .secCertGet), (0xA9, .secKeyImport)]

/-- The commands of the lane with their codes (Tables 13-6, 5-5, 6-8, 12-4, 14-8, 15-7, 16-6 and 17-11). -/
def Sys2Proof.Claims.commands : List (Nat × (CmdRec → Instr)) :=
  [commands1, commands2, commands3, commands4, commands5, commands6, commands7, commands8].flatten

/-- Word 0 of a result (Table 13-7). -/
def Sys2Proof.Claims.result0 (seq : BitVec 16) (code st : Nat) (done : Bool) : Nat :=
  seq.toNat * 65536 + code * 256 + (if done then 128 else 0) + st

/-- The result slot of a sequence number, the FIFO's head, the fill of the lane and the result interrupt. -/
def Sys2Proof.Claims.cmdFlds (seq : BitVec 16) : List Fld :=
  [Reg.CMD_RESULT0_WORD0 (seq.toNat % 64), Reg.CMD_RESULT1_WORD1 (seq.toNat % 64), Reg.CMD_RES_HEAD0_WORD0, Reg.CMD_RES_HEAD1_WORD1,
    Reg.CMD_LANE_WAITING, Reg.CMD_LANE_FIFO_LOST, Reg.HBR_INT_STATUS_INT]

/-- `t` differs from `u` only by the result of a record, posted with status `st` and word 1 `w1`; a status other than OK
is logged (R407, R409, R410). -/
def Sys2Proof.Claims.posted (u t : State) (seq : BitVec 16) (code st w1 : Nat) : Prop :=
  t.rd (Reg.CMD_RESULT0_WORD0 (seq.toNat % 64)) = result0 seq code st true ∧
  t.rd (Reg.CMD_RESULT1_WORD1 (seq.toNat % 64)) = w1 ∧
  keepsRegs u t (cmdFlds seq ++ if st = 0 then [] else logFlds) ∧
  (st = 0 → t.rcd = u.rcd) ∧
  t = { u with regs := t.regs, lane := t.lane, rcd := t.rcd,
               hbr := { u.hbr with msix := t.hbr.msix, pba := t.hbr.pba, reply := t.hbr.reply, svcWait := t.hbr.svcWait } }

/-- The record of a command at its Tc. -/
def Sys2Proof.Claims.atTc (seq : BitVec 16) (port : CmdPort) (w1 w2 w3 : Word) : CmdRec :=
  { form := .apply seq, port := port, w1 := w1, w2 := w2, w3 := w3 }

/-- The lane runs, and the command of this code passes the checks of mode, session and role (R408, R489, R500). -/
def Sys2Proof.Claims.ready (s : State) (code : Nat) : Prop :=
  s.hostAlive = true ∧ s.rpc.save = none ∧ s.gate code = none

/-- The state without the record in its queue: what a command's effect starts from. -/
def Sys2Proof.Claims.taken (s : State) (seq : BitVec 16) : State := s.unqueue seq

/-- The command takes effect at its Tc and completes with status OK: `P` says what its effect leaves, the lane's bookkeeping
apart. -/
def Sys2Proof.Claims.takesEffect (mk : CmdRec → Instr) (code : Nat) (s : State) (w1 w2 w3 : Word)
    (P : State → State → Prop) : Prop :=
  ∀ (seq : BitVec 16) (port : CmdPort), ready s code →
    ∃ u t, exec (mk (atTc seq port w1 w2 w3)) s = .next t ∧ P (taken s seq) u ∧ posted u t seq code 0 (s.tm.cyc % 2 ^ 32)

/-- R402 to R405: every command of the tables is accepted at its submission when its sequence number is `NEXT`, takes that
number, and waits in the lane until its Tc; a wrong sequence number is counted and the record discarded; a poisoned
record completes with POISONED, a full lane with BUSY. -/
def Obligations.CommandsAreSubmitted : Prop :=
  ∀ cmd ∈ Claims.commands, ∀ (s : State) (seq : BitVec 16) (port : CmdPort) (w1 w2 w3 : Word) (ch : Nat),
    s.hostAlive = true → s.portServed port = true →
    let r := fun (psn : Bool) => cmd.2 { form := .arrive seq ch psn, port := port, w1 := w1, w2 := w2, w3 := w3 }
    let n := seq.toNat % 64
    (seq.toNat ≠ s.rd Reg.CMD_NEXT_SEQ_NEXT →
      ∃ t, exec (r false) s = .next t ∧ t.rd Reg.CMD_LANE_SEQ_ERR = up s Reg.CMD_LANE_SEQ_ERR ∧
        t.lane = { s.lane with latch := [], latchPsn := false } ∧ t.rd Reg.CMD_NEXT_SEQ_NEXT = s.rd Reg.CMD_NEXT_SEQ_NEXT) ∧
    (seq.toNat = s.rd Reg.CMD_NEXT_SEQ_NEXT → s.rd Reg.CMD_LANE_WAITING < 256 →
      ∃ t, exec (r false) s = .next t ∧ t.rd Reg.CMD_NEXT_SEQ_NEXT = (seq.toNat + 1) % 65536 ∧
        t.rd (Reg.CMD_RESULT0_WORD0 n) = result0 seq cmd.1 0 false ∧
        t.lane.queue = s.lane.queue ++
          [.record (if ch + 10000 < s.tbc then 1 else 2) seq (BitVec.ofNat 8 cmd.1) port w1 w2 w3] ∧
        t.lane.latch = [] ∧ t.md = s.md ∧ t.chs = s.chs ∧ t.forces = s.forces) ∧
    (seq.toNat = s.rd Reg.CMD_NEXT_SEQ_NEXT → 256 ≤ s.rd Reg.CMD_LANE_WAITING →
      ∃ t, exec (r false) s = .next t ∧ t.rd (Reg.CMD_RESULT0_WORD0 n) = result0 seq cmd.1 4 true ∧
        t.lane.queue = s.lane.queue ∧ t.md = s.md ∧ t.chs = s.chs) ∧
    (seq.toNat = s.rd Reg.CMD_NEXT_SEQ_NEXT →
      ∃ t, exec (r true) s = .next t ∧ t.rd (Reg.CMD_RESULT0_WORD0 n) = result0 seq cmd.1 3 true ∧
        t.lane.queue = s.lane.queue ∧ t.md = s.md ∧ t.chs = s.chs)

/-- R407, R408, R489 and R500: a command that its mode, or a missing session or role, bars from taking effect completes
with that status, and nothing else happens than its result and its log record; a save lets none apply but the two resets,
which it holds (R141, R515). -/
def Obligations.BarredCommandsHaveNoEffect : Prop :=
  ∀ cmd ∈ Claims.commands, ∀ (s : State) (seq : BitVec 16) (port : CmdPort) (w1 w2 w3 : Word), s.hostAlive = true →
    (∀ st, s.rpc.save = none → s.gate cmd.1 = some st →
      ∃ t, exec (cmd.2 (atTc seq port w1 w2 w3)) s = .next t ∧ posted (taken s seq) t seq cmd.1 st (s.tm.cyc % 2 ^ 32)) ∧
    (s.rpc.save ≠ none → cmd.1 ≠ 0x02 → cmd.1 ≠ 0x03 → exec (cmd.2 (atTc seq port w1 w2 w3)) s = .next s) ∧
    (s.md.mode = .boot → s.gate cmd.1 = some 1) ∧
    (cmd.1 ≠ 1 → s.roles = 0 → s.gate cmd.1 = some 1 ∨ s.gate cmd.1 = some 5)

/-- R402, R405, R408, R410 and R7: a record's words are latched with their poison mark; an undefined code completes at its
arrival; `CMD_NOP` completes with no other effect; the oldest result leaves the FIFO by a write of 1 to `COMMIT` or a
read of the legacy register, and the legacy interrupt register clears the causes. -/
def Obligations.RecordsAndResults : Prop :=
  ∀ (s : State),
    (∀ (i : Fin 3) (w : Word) (p : Bool), s.hostUp = true →
      ∃ t, exec (.cmdRecLatch i w p) s = .next t ∧ t.lane.latch.getD i.val 0 = w ∧
        (∀ j, j < 3 → j ≠ i.val → t.lane.latch.getD j 0 = s.lane.latch.getD j 0) ∧ t.lane.latchPsn = (s.lane.latchPsn || p) ∧
        t = { s with lane := { s.lane with latch := t.lane.latch, latchPsn := t.lane.latchPsn } }) ∧
    (∀ (code : Byte) (port : CmdPort) (w1 w2 w3 : Word) (ch : Nat) (seq : BitVec 16), s.portServed port = true →
      codeDefined code.toNat = false → seq.toNat = s.rd Reg.CMD_NEXT_SEQ_NEXT →
      ∃ t, exec (.unknownCommand code { form := .arrive seq ch false, port := port, w1 := w1, w2 := w2, w3 := w3 }) s = .next t ∧
        t.rd (Reg.CMD_RESULT0_WORD0 (seq.toNat % 64)) = result0 seq code.toNat 6 true ∧ t.lane.queue = s.lane.queue ∧
        t.rd Reg.CMD_NEXT_SEQ_NEXT = (seq.toNat + 1) % 65536) ∧
    (∀ w1 w2 w3, takesEffect .cmdNop 0x01 s w1 w2 w3 fun s u => u = s) ∧
    (s.hostUp = true →
      (∀ w : Word, w.getLsbD 0 = true → ∃ t, exec (.cmdResCommit w) s = .next t ∧ t.lane = { s.lane with fifo := s.lane.fifo.drop 1 } ∧
        t.rd Reg.CMD_RES_HEAD0_WORD0 = ((s.lane.fifo.drop 1).headD (0, 0)).1.toNat ∧
        t.rd Reg.CMD_RES_HEAD1_WORD1 = ((s.lane.fifo.drop 1).headD (0, 0)).2.toNat ∧
        keepsRegs s t [Reg.CMD_RES_HEAD0_WORD0, Reg.CMD_RES_HEAD1_WORD1, Reg.CMD_LANE_WAITING] ∧
        t = { s with regs := t.regs, lane := t.lane }) ∧
      (∃ t, exec .cmdResLegacy s = .next t ∧ t.lane = { s.lane with fifo := s.lane.fifo.drop 1 } ∧
        keepsRegs s t ([Reg.CMD_RES_HEAD0_WORD0, Reg.CMD_RES_HEAD1_WORD1, Reg.CMD_LANE_WAITING] ++ logFlds) ∧
        t = { s with regs := t.regs, lane := t.lane, rcd := t.rcd }) ∧
      (∃ t, exec .hbrIntLegacy s = .next t ∧ t.rd Reg.HBR_INT_STATUS_INT = 0 ∧ keepsRegs s t (Reg.HBR_INT_STATUS_INT :: logFlds) ∧
        t = { s with regs := t.regs, rcd := t.rcd }))

/-- R395, R396, R398, R415 and R556: an access that BAR 0 or BAR 2 refuses changes nothing but the error registers, which
name it; those of BAR 0 are logged and raise interrupt 4. A read completes with Unsupported Request status or, at an unassigned offset,
with 0; an error is signalled under AER. -/
def Sys2Proof.Claims.refusedAccessesAreCounted : Prop :=
  ∀ (off : Nat) (s : State), off < 2 ^ 32 → s.hostUp = true →
    let errs := [Reg.HBR_ACC_ERR_COUNT, Reg.HBR_ACC_ERR_KIND, Reg.HBR_ACC_ERR_POISON, Reg.HBR_ACC_ADDR_OFFSET]
    let counted := fun (t : State) (kind psn : Nat) => t.rd Reg.HBR_ACC_ERR_COUNT = up s Reg.HBR_ACC_ERR_COUNT ∧
      t.rd Reg.HBR_ACC_ERR_KIND = kind ∧ t.rd Reg.HBR_ACC_ERR_POISON = psn ∧ t.rd Reg.HBR_ACC_ADDR_OFFSET = off
    let aer := fun (k : Nat) => FMap.set 0 s.hbr.aer k (FMap.get 0 s.hbr.aer k + 1)
    let logged := fun (t : State) => natBit (t.rd Reg.HBR_INT_STATUS_INT) 4 = true ∧
      keepsRegs s t (errs ++ Reg.HBR_INT_STATUS_INT :: logFlds) ∧
      t = { s with regs := t.regs, rcd := t.rcd,
                   hbr := { s.hbr with msix := t.hbr.msix, pba := t.hbr.pba, aer := t.hbr.aer, cpl := t.hbr.cpl } }
    (∀ wr, ∃ t, exec (.bar0RefusedAccess off wr) s = .next t ∧ counted t 1 0 ∧ logged t ∧
      (if wr then t.hbr.aer = aer 0 ∧ t.hbr.cpl = s.hbr.cpl else t.hbr.aer = s.hbr.aer ∧ t.hbr.cpl = some ⟨off, 0, false, true⟩)) ∧
    (Reg.fieldsAt off = none →
      (∃ t, exec (.unassignedAccess off true) s = .next t ∧ counted t 3 0 ∧ logged t ∧ t.hbr.cpl = s.hbr.cpl) ∧
      exec (.unassignedAccess off false) s = .next { s with hbr := { s.hbr with cpl := some ⟨off, 0, false, false⟩ } }) ∧
    (¬ (0x200000 ≤ off ∧ off < 0x200010) → ∃ t, exec (.poisonedWrite off) s = .next t ∧ counted t 0 1 ∧ logged t ∧
      t.hbr.aer = aer 1 ∧ t.hbr.cpl = s.hbr.cpl) ∧
    (∃ t, exec (.bar2Write off) s = .next t ∧ counted t 2 0 ∧ keepsRegs s t errs ∧
      t = { s with regs := t.regs, hbr := { s.hbr with aer := aer 0 } })

/-- R397 and R406: a write to a block of the channels, of PD-F or of the network enters the lane behind what waits there;
a write-one-to-clear register of the bridge applies on arrival; the service port reads a register of the bridge's own as
its reply; the copies are taken at Tc + 20 µs, and a copied register then reads what it held. -/
def Sys2Proof.Claims.registerAccesses : Prop :=
  ∀ (off : Nat) (w : Word) (ch : Nat) (s : State),
    (∀ fs, Reg.fieldsAt off = some fs → laneBlock off = true → off % 4 = 0 → (fs.any fun f => Acc.writable f.acc) = true →
      let t := { s with lane := { s.lane with queue := s.lane.queue ++ [.write (if ch + 10000 < s.tbc then 1 else 2) off w] } }
      (s.hostUp = true → exec (.registerWrite off w ch) s = .next t) ∧ (s.svcUp = true → exec (.svcRegWrite off w ch) s = .next t)) ∧
    (s.hostUp = true → ∃ t, exec (.registerWrite Reg.HBR_INT_STATUS_INT.off w ch) s = .next t ∧
      regsTo s t [(Reg.HBR_INT_STATUS_INT, (s.rd Reg.HBR_INT_STATUS_INT &&& (63 - w.toNat % 64)) % 64)] ∧ t = { s with regs := t.regs }) ∧
    (s.svcUp = true → ∃ t, exec (.svcRegRead Reg.CMD_NEXT_SEQ_NEXT.off) s = .next t ∧
      t = { s with hbr := { s.hbr with reply := natLE 4 (s.storedWord Reg.CMD_NEXT_SEQ_NEXT.off) } }) ∧
    (s.hostAlive = true → ∃ t, exec .bridgeRefresh s = .next t ∧ t.copyWord 0x40 = s.modStatus ∧
      (∀ f : Fld, copied f.off = true → f.lsb < 32 → FMap.get f.rst t.hbr.copyRegs f.key = s.rd f) ∧
      t = { s with hbr := { s.hbr with copyRegs := t.hbr.copyRegs, copyWords := t.hbr.copyWords } })

/-- Both: `refusedAccessesAreCounted`, and `registerAccesses`. -/
def Obligations.RegisterAndTableAccesses : Prop := Claims.refusedAccessesAreCounted ∧ Claims.registerAccesses

/-- R416 and R527: a host-port reset of every kind names its cause and retrains the link, with the host's latch, session and
MSI-X table gone; the link's training makes the bridge accept requests; Bus Master Enable toggles, and fails nothing but a
store that still fetches from the host; and a write of the key to
`RPC_KA_CLEAR` outside MAINT is refused and logged, while in MAINT it restarts the counters from their record. -/
def Sys2Proof.Claims.hostPortResets : Prop :=
  ∀ (s : State), s.hostAlive = true →
    let gone := fun (t : State) (cause : Fld) => t.rdb cause = true ∧ t.rd Reg.HBR_LINK_STATE = 1 ∧ t.rdb Reg.RPC_RESET_H = true ∧
      t.lane.latch = [] ∧ t.lane.queue = s.lane.queue ∧ t.hbr.msixTable = [] ∧ t.hbr.pba = 0 ∧ t.hbr.busMaster = false ∧
      t.rd Reg.HBR_INT_ENABLE_EN = 0 ∧ t.md.mode = s.md.mode ∧ t.forces = s.forces
    (∀ x ∈ [(HostResetKind.hotReset, Reg.RPC_CAUSE_H_HOT), (.flr, Reg.RPC_CAUSE_H_FLR), (.linkDown, Reg.RPC_CAUSE_H_LINK),
        (.perst, Reg.RPC_CAUSE_H_LINK)], ∃ t, exec (.hostPortReset x.1) s = .next t ∧ gone t x.2) ∧
    (s.hostUp = true → ∀ w : Word, w.getLsbD 0 = true → ∃ t, exec (.hreset w) s = .next t ∧ gone t Reg.RPC_CAUSE_H_REG) ∧
    (∀ speed width, speed ≤ 2 → width = 1 ∨ width = 2 → ∃ t, exec (.hostLinkTrained speed width) s = .next t ∧
      regsTo s t [(Reg.HBR_LINK_SPEED, speed), (Reg.HBR_LINK_WIDTH, width), (Reg.HBR_LINK_STATE, 3), (Reg.RPC_RESET_H, 0)] ∧
      t = { s with regs := t.regs }) ∧
    (s.hostUp = true → s.hbr.busMaster = false ∨ (∀ j, s.sec.job = some j → ¬ (j.port = .host ∧ j.stage = 1)) →
      exec .busMasterEnableChange s = .next { s with hbr := { s.hbr with busMaster := !s.hbr.busMaster } }) ∧
    (s.hostUp = true → ∀ w : Word, s.md.mode ≠ .maint → ∃ t, exec (.kaClear w) s = .next t ∧ keepsRegs s t logFlds ∧
      t = { s with regs := t.regs, rcd := t.rcd }) ∧
    (s.hostUp = true → s.md.mode = .maint → natBit s.roles 1 = true →
      ∃ t, exec (.kaClear 0x4B41434C#32) s = .next t ∧ t.rdb Reg.RPC_CAUSE_KA_CLEAR = true ∧ t.md = s.md ∧ t.rpc.store = s.rpc.store ∧
        t.tm.opNs = s.tm.opNs ∧
        (s.nvRecord 0xF0C0 16 = none → t.optimeMs = 0 ∧ t.rd Reg.RPC_PCYCLES_COUNT = 0) ∧
        (∀ l, s.nvRecord 0xF0C0 16 = some l → t.optimeMs = leAt l 0 8 % 2 ^ 40 ∧
          t.rd Reg.RPC_PCYCLES_COUNT = leAt l 8 4 % 2 ^ 24 ∧ t.rdb Reg.RPC_KA_STAT_CNT_RESTORED = true))

/-- R399, R400, R414 and R216: the views are filled with the images of the cycle completed last in the buffer that the
directory does not name; a finished push stores the voted view in its slot with the descriptor behind it and raises
interrupt 2; a read that meets poison in a view is counted for its channel and completes with the poisoned-data mark and the data as
stored, one of keep-alive storage whose parity fails likewise (R526). -/
def Sys2Proof.Claims.viewsAndPush : Prop :=
  ∀ (s : State),
    (∀ (cs : List Ch) (k n : Nat), s.md.done = some (cs, k, n) → s.hostAlive = true → cs ≠ [] → cs.Nodup → s.tm.cyc = k →
      (s.viewNow 0).info = 0 → (∀ c ∈ cs, (s.ch c).errs = []) →
      ∃ t, exec .viewBufferFill s = .next t ∧ (t.viewNow 0).cycEnd = k ∧ (t.viewNow 0).ntime = n ∧
        natBit t.hbr.dir 0 ≠ natBit s.hbr.dir 0 ∧
        (∀ c ∈ cs, (t.viewNow (Ch.num c + 1)).cycEnd = k ∧ ∀ i < 0x6000, FMap.get false (s.ch c).pmap (0x260000 + i) = false →
          FMap.get ⟨0, false⟩ (t.viewNow (Ch.num c + 1)).img i = ⟨FMap.get 0 (s.ch c).img i, false⟩) ∧
        t.chs = s.chs ∧ t.regs = s.regs) ∧
    (let v := s.viewNow (s.rd Reg.HBR_DMA_CTL_VIEW)
     s.hostUp = true → s.hbr.busMaster = true → s.rdb Reg.HBR_DMA_CTL_ENABLE = true → 2 ≤ s.rd Reg.HBR_DMA_CTL_SLOTS →
      s.hbr.pushed ≠ some (v.cycEnd, v.ntime) → v.info ≠ 0 → v.cycEnd % 2 ^ s.rd Reg.HBR_DMA_CTL_RATE = 0 →
      let a := s.rd Reg.HBR_DMA_BASE_LO_BASE_LO * 2 ^ 17 + s.rd Reg.HBR_DMA_BASE_HI_BASE_HI * 2 ^ 32 +
        v.cycEnd % s.rd Reg.HBR_DMA_CTL_SLOTS * 0x20000
      (∃ t, exec (.imagePush true) s = .next t ∧ natBit (t.rd Reg.HBR_INT_STATUS_INT) 2 = true ∧
        t.rd Reg.HBR_DMA_STAT_PUSHED = (s.rd Reg.HBR_DMA_STAT_PUSHED + 1) % 65536 ∧
        Mem.read t.hbr.hostMem (a + 0x18000) 32 = natLE 8 v.cycEnd ++ natLE 8 v.cycEnd ++ natLE 8 v.ntime ++ natLE 8 v.info ∧
        (∀ x, x < a ∨ a + 0x18020 ≤ x → Mem.get t.hbr.hostMem x = Mem.get s.hbr.hostMem x)) ∧
      (∃ t, exec (.imagePush false) s = .next t ∧ t.rd Reg.HBR_DMA_STAT_LATE = up s Reg.HBR_DMA_STAT_LATE ∧
        (∀ x, x < a ∨ a + 0x18008 ≤ x → Mem.get t.hbr.hostMem x = Mem.get s.hbr.hostMem x))) ∧
    (∀ (c : Ch) (buf i : Nat), s.hostUp = true → buf < 2 → i < 0x6000 →
      (FMap.get ⟨0, false⟩ (FMap.get ViewBuf.init s.hbr.views (2 * (Ch.num c + 1) + buf)).img i).p = true →
      ∃ t, exec (.poisonedDataRead (0x40000 + (Ch.num c + 1) * 0x40000 + buf * 0x20000 + 4 * i)) s = .next t ∧
        t.rd (Reg.MIU_UE_HOST_EP (Ch.num c)) = up s (Reg.MIU_UE_HOST_EP (Ch.num c)) ∧
        keepsRegs s t (Reg.MIU_UE_HOST_EP (Ch.num c) :: logFlds) ∧ t = { s with regs := t.regs, rcd := t.rcd, hbr := { s.hbr with
          cpl := some ⟨0x40000 + (Ch.num c + 1) * 0x40000 + buf * 0x20000 + 4 * i,
            (FMap.get ⟨0, false⟩ (FMap.get ViewBuf.init s.hbr.views (2 * (Ch.num c + 1) + buf)).img i).v, true, false⟩ } }) ∧
    (∀ off : Nat, s.hostUp = true → (0x1000100 ≤ off ∧ off < 0x1000180) ∨ (0x1001000 ≤ off ∧ off < 0x1002000) →
      ∃ t, exec (.poisonedDataRead off) s = .next t ∧ t.rd Reg.RPC_KA_STAT_PAR_COUNT = up s Reg.RPC_KA_STAT_PAR_COUNT ∧
        t.rdb Reg.RPC_KA_STAT_PAR_ERR = true ∧ t.hbr.cpl = some ⟨off, BitVec.ofNat 32 (s.storedWord off), true, false⟩ ∧
        keepsRegs s t (Reg.RPC_KA_STAT_PAR_COUNT :: Reg.RPC_KA_STAT_PAR_ERR :: logFlds))


/-- Both: `hostPortResets`, and `viewsAndPush`. -/
def Obligations.HostPortResetsViewsAndPush : Prop := Claims.hostPortResets ∧ Claims.viewsAndPush

/-! ### Modes, debugging and resets -/

/-- The fields of `MOD_CAUSE` and the interrupt of a mode change. -/
def Sys2Proof.Claims.causeFlds : List Fld :=
  [Reg.MOD_CAUSE_SEQ, Reg.MOD_CAUSE_CHANNELS, Reg.MOD_CAUSE_TO, Reg.MOD_CAUSE_FROM, Reg.MOD_CAUSE_CAUSE, Reg.HBR_INT_STATUS_INT]

/-- The mode changes from `src` to `dst` with a cause: `MOD_CAUSE` names them and counts, and interrupt 1 is raised (R26). -/
def Sys2Proof.Claims.moved (s u : State) (src dst : Mode) (cause : Nat) : Prop :=
  u.md.mode = dst ∧ u.rd Reg.MOD_CAUSE_FROM = src.code ∧ u.rd Reg.MOD_CAUSE_TO = dst.code ∧ u.rd Reg.MOD_CAUSE_CAUSE = cause ∧
    u.rd Reg.MOD_CAUSE_SEQ = (s.rd Reg.MOD_CAUSE_SEQ + 1) % 256 ∧ natBit (u.rd Reg.HBR_INT_STATUS_INT) 1 = true

/-- R34, R35, R37: `MNT_ENTER` under the maintenance conditions enters MAINT and keeps the mode it came from; `MNT_EXIT` returns to
RUN3 or RUN2 where no module latch is set and the module came from one, else to SAFE, and no force on a safety location stays. -/
def Sys2Proof.Claims.maintenanceCommands : Prop :=
  ∀ (s : State) (w1 w2 w3 : Word),
    (s.md.mode = .run3 ∨ s.md.mode = .run2 ∨ s.md.mode = .safe → s.maintOk = true → 2 ≤ s.voters.length →
      takesEffect .mntEnter 0x05 s w1 w2 w3 fun s u => moved s u s.md.mode .maint 0x13 ∧
        u.md = { s.md with mode := .maint, maintFrom := s.md.mode } ∧ keepsRegs s u (causeFlds ++ logFlds) ∧
        u.chs = s.chs ∧ u.forces = s.forces ∧ u.sio = s.sio) ∧
    (s.md.mode = .maint → s.md.debug = false →
      takesEffect .mntExit 0x06 s w1 w2 w3 fun s u =>
        moved s u .maint (if (s.md.maintFrom = .run3 ∨ s.md.maintFrom = .run2) ∧ s.moduleLatch = false then
          (if s.voters.length = 3 then .run3 else .run2) else .safe) 0x14 ∧
        (∀ n f, FMap.get none u.forces n = some f → f.safety = false) ∧
        (∀ n f, FMap.get none s.forces n = some f → f.safety = false → FMap.get none u.forces n = some f))

/-- R194, R196 to R199: the five debug commands move `VOT_DBG` and the debug sub-mode; after `DBG_EXIT` the accumulators start
anew. -/
def Sys2Proof.Claims.debugCommands : Prop :=
  ∀ (s : State) (w1 w2 w3 : Word),
    (s.md.mode = .maint → s.md.debug = false → s.md.role ≠ .standby →
      takesEffect .dbgEnter 0x50 s w1 w2 w3 fun s u => moved s u .maint .maint 0x16 ∧ u.md = { s.md with debug := true } ∧
        u.rd Reg.VOT_DBG_STATE = 1 ∧ u.rd Reg.VOT_DBG_STEPS = 0 ∧ u.chs = s.chs ∧
        keepsRegs s u ([Reg.VOT_DBG_STATE, Reg.VOT_DBG_STEPS] ++ causeFlds ++ logFlds)) ∧
    (s.md.mode = .maint → s.md.debug = true →
      (s.rd Reg.VOT_DBG_STATE ≠ 3 → s.rd Reg.VOT_DBG_STATE ≠ 4 →
        takesEffect .dbgExit 0x51 s w1 w2 w3 fun s u => moved s u .maint .maint 0x17 ∧ u.md.debug = false ∧ u.md.halted = false ∧
          u.rd Reg.VOT_DBG_STATE = 0 ∧ (∀ c, u.ch c = { s.ch c with accStart := true }) ∧ u.forces = s.forces) ∧
      (∀ b, s.rd Reg.VOT_DBG_STATE = 1 → s.runBank = some b → w1.toNat < b.phases → w1.toNat < 64 →
        takesEffect .dbgHalt 0x52 s w1 w2 w3 fun s u =>
          regsTo s u [(Reg.VOT_DBG_STATE, 2), (Reg.VOT_DBG_PHASE, w1.toNat)] ∧
          u = { s with regs := u.regs, md := { s.md with dbgHaltReq := some w1.toNat } }) ∧
      (s.rd Reg.VOT_DBG_STATE = 3 →
        (takesEffect .dbgStep 0x53 s w1 w2 w3 fun s u =>
          regsTo s u [(Reg.VOT_DBG_STATE, 4), (Reg.VOT_DBG_STEPS, up s Reg.VOT_DBG_STEPS)] ∧ u = { s with regs := u.regs }) ∧
        takesEffect .dbgResume 0x54 s w1 w2 w3 fun s u => regsTo s u [(Reg.VOT_DBG_STATE, 5)] ∧ u = { s with regs := u.regs }))

/-- Both: `maintenanceCommands`, and `debugCommands`. -/
def Obligations.MaintenanceAndDebugCommands : Prop := Claims.maintenanceCommands ∧ Claims.debugCommands

/-- A save has begun: every engine stopped, every switch of every safety output open, no store under way, and the staged bypass
begun where none was under way: relay A is commanded and closed 10 ms later (R141, R143, R329, R492). -/
def Sys2Proof.Claims.saving (s t : State) (module : Bool) : Prop :=
  t.rpc.save = some module ∧ (∀ c, t.rd (Reg.LEN_STATUS_RUN (Ch.num c)) = 0) ∧ (∀ o < 12, isOff t o) ∧ t.sec.job = none ∧
    (s.rd Reg.PTN_BYPASS_STAGE ≠ 3 → s.rd Reg.PTN_BYPASS_STAGE ≠ 1 → s.rdb Reg.PTN_HOLDUP_NO_STAGE = false →
      t.rd Reg.PTN_BYPASS_STAGE = 1 ∧ t.ptn.relayNs = 10000000 ∧ t.rdb Reg.PTN_BYPASS_RELAY_A = s.rdb Reg.PTN_BYPASS_RELAY_A)

/-- M is asserted: every channel, block and register of its reach but what is nonvolatile takes its reset state, and every domain
but PD-K is in reset and clamped (R512, R516). -/
def Sys2Proof.Claims.mAsserted (s t : State) : Prop :=
  t.rpc.mod = true ∧ (∀ c, t.ch c = Chan.init) ∧ t.forces = [] ∧ t.lane = LaneQ.init ∧ t.twn = TwnSt.init ∧
    t.rd Reg.RPC_RESET_IN_RESET = 0xFE ∧ t.rd Reg.MOD_DOMAIN_CLAMP = 0xFE ∧ t.rd Reg.MOD_DOMAIN_PGOOD = s.rd Reg.MOD_DOMAIN_PGOOD % 256 ∧
    t.rd Reg.CMD_NEXT_SEQ_NEXT = 0 ∧ t.rd Reg.RPC_PCYCLES_COUNT = s.rd Reg.RPC_PCYCLES_COUNT ∧ t.rcd.mram = s.rcd.mram ∧
    t.rpc.store = s.rpc.store ∧ t.sec.otp = s.sec.otp ∧ t.sec.fleet = s.sec.fleet ∧ t.tm.opNs = s.tm.opNs

/-- R141 to R143, R512, R514 to R517: the resets by command and by pin. `MOD_RESET` discards what waits in the lane and starts the
save; the save's end asserts M, or leaves OFF with P asserted; `MRST_N` asserts M at 2 µs and not below 0.5 µs; a channel reset
initialises its channel; a warm reset restarts the program in STARTUP with W held. -/
def Obligations.ModuleAndChannelResets : Prop :=
  ∀ (s : State) (seq : BitVec 16) (port : CmdPort) (w1 w2 w3 : Word),
    (ready s 0x02 → ∃ t, exec (.modReset (atTc seq port w1 w2 w3)) s = .next t ∧ saving s t true ∧ t.lane.queue = [] ∧
      t.rdb Reg.RPC_CAUSE_MOD_CMD = true) ∧
    (∀ ns, s.rpc.save = some true → s.rpc.por = false → s.md.done = none → s.nvAlive = false →
      ∃ t, exec (.saveComplete ns) s = .next t ∧ t.rpc.save = none ∧ t.rdb Reg.RPC_CAUSE_MOD_CMD = true ∧ mAsserted s t) ∧
    (∀ ns, s.rpc.save = some false → ∃ t, exec (.saveComplete ns) s = .next t ∧ t.rpc.save = none ∧ t.rpc.por = true ∧
      t.md.mode = .off ∧ (∀ c, t.ch c = Chan.init) ∧ t.lane = LaneQ.init ∧ (∀ d, 0 < d → d ≠ 4 → t.good d = false)) ∧
    (∀ ns, (ns < 500 → exec (.mrstN ns) s = .next s) ∧
      (2000 ≤ ns → s.rpc.save = none → s.rpc.por = false →
        ∃ t, exec (.mrstN ns) s = .next t ∧ t.rdb Reg.RPC_CAUSE_MRST = true ∧ mAsserted s t)) ∧
    (s.fromIntegrate = true → ∀ c : Ch, w1.toNat = Ch.num c → s.voters.length = 3 ∨ s.inVote c = false →
      takesEffect .chReset 0x04 s w1 w2 w3 fun s u => u.ch c = Chan.init ∧ (∀ d, d ≠ c → u.ch d = s.ch d) ∧
        u.md.mode = s.md.mode ∧ u.rdb (Reg.RPC_CAUSE_CH_CMD (Ch.num c)) = true ∧ natBit (u.rd Reg.RPC_RESET_C) (Ch.num c) = true ∧
        natBit (u.rd Reg.RPC_RESET_IN_RESET) (Ch.num c + 1) = true ∧ (s.inVote c = true → (c, 0x0B) ∈ u.md.exclReq)) ∧
    (s.fromStartup = true → takesEffect .warmReset 0x03 s w1 w2 w3 fun s u => moved s u s.md.mode .startup 0x18 ∧ u.forces = [] ∧
      u.rdb Reg.RPC_CAUSE_WARM_CMD = true ∧ u.rdb Reg.RPC_RESET_W = true ∧ u.md.wHold = s.warmCycles + 1 ∧ u.md.plumb = 0 ∧
      u.md.restart = .warm ∧ (∀ c, s.eligible c = true → (u.ch c).st = .vote) ∧
      (s.md.role = .solo ∨ s.md.role = .active → ∀ o < 12, s.latchCode o = 0 → u.rdb (Reg.SIO_OUT_STAT_HOLD o) = true))

/-! ### Supplies, domains and releases -/

/-- P or M has released: every domain is powered, out of reset and clamped until its option load ends, the channels boot, the
straps, the sealed switches and rail 0's `SW-D` are sampled, and the strobe is the RPC's (R47, R277, R510, R519, R521). -/
def Sys2Proof.Claims.released (s t : State) : Prop :=
  t.rpc.por = false ∧ t.rpc.mod = false ∧ t.md = { s.md with mode := .boot } ∧ t.rd Reg.RPC_RESET_IN_RESET = 0 ∧
    t.rd Reg.MOD_DOMAIN_CLAMP = 0xFE ∧ (∀ d, 0 < d → d < 8 → t.good d = true) ∧
    (∀ c, t.ch c = { s.ch c with st := .booting } ∧ t.rd (Reg.CCU_STATUS_STAGE (Ch.num c)) = 1) ∧
    t.rd Reg.RPC_STRAP_BOOT_SRC = s.rpc.straps.toNat % 4 ∧ t.rd Reg.RPC_STRAP_CLK_MODE = s.rpc.straps.toNat / 4 % 4 ∧
    t.rd Reg.RPC_STRAP_TWIN_POS = s.rpc.straps.toNat / 16 ∧ t.rd Reg.HBR_LINK_STATE = 1 ∧ t.timeValid = false ∧
    t.sio.swAt = s.sio.swRead ∧
    t.rd Reg.DLK_CFG_SW_D = (BitVec.ofNat 8 (swD (maj3 s.sio.swRead.a s.sio.swRead.b s.sio.swRead.c)) ^^^ s.sio.railErr.1).toNat

/-- R31, R141, R142, R507 to R510, R513, R514, R516, R524, R525: the supply's fall, its return within the ride-through and its end;
a feed out of range; the releases of P, M, W and C, the last with its sense stages anew (R241); the end of the output hold; the brown-out latch and the counters' record. -/
def Obligations.SupplyAndReleases : Prop :=
  ∀ (s : State),
    (s.rpc.inRange = true → exec .supplyLow s = .next { s with rpc := { s.rpc with inRange := false, ride := !s.rpc.por } }) ∧
    (s.rpc.ride = true →
      (∃ t, exec .supplyInRange s = .next t ∧ t.rpc = { s.rpc with inRange := true, ride := false } ∧
        t.rd Reg.RPC_RIDE_RIDES = up s Reg.RPC_RIDE_RIDES ∧ t.rd Reg.RPC_RIDE_LAST < 1000 ∧ t.md = s.md ∧
        keepsRegs s t [Reg.RPC_RIDE_RIDES, Reg.RPC_RIDE_LAST]) ∧
      ∃ t, exec .rideThroughEnd s = .next t ∧ t.rd Reg.RPC_RIDE_LAST = 1000 ∧ t.rpc.ride = false ∧ saving s t false) ∧
    (s.rpc.ride = false → exec .supplyInRange s = .next { s with rpc := { s.rpc with inRange := true, ride := false } }) ∧
    (s.rpc.inRange = true → s.rpc.por = false → ∀ feed, ∃ t, exec (.feedOutOfRange feed) s = .next t ∧
      keepsRegs s t ((if feed then Reg.RPC_SUPPLY_VMB else Reg.RPC_SUPPLY_VMA) :: logFlds) ∧
      t = { s with regs := t.regs, rcd := t.rcd, free := s.free + 1 } ∧
      (s.pdhGood = true → s.rcd.queue.length < 2048 → ∃ e, t.rcd.queue = s.rcd.queue ++ [e] ∧ e.sev = 4)) ∧
    (s.rpc.por = true → s.rpc.inRange = true → s.rd Reg.PTN_BYPASS_STAGE ≠ 1 →
      ∃ t, exec .powerOnRelease s = .next t ∧ released s t ∧ t.rdb Reg.RPC_CAUSE_POR = true ∧
        (s.rpc.bor = false → t.rd Reg.RPC_PCYCLES_COUNT = (s.rd Reg.RPC_PCYCLES_COUNT + 1) % 2 ^ 24) ∧
        (s.rpc.bor = true → t.rdb Reg.RPC_CAUSE_KA_LOST = true ∧ t.rpc.bor = false)) ∧
    (s.rpc.mod = true → s.rpc.por = false → s.rpc.save = none → s.rd Reg.PTN_BYPASS_STAGE ≠ 1 →
      ∃ t, exec .resetRelease s = .next t ∧ released s t ∧ t.rd Reg.RPC_PCYCLES_COUNT = s.rd Reg.RPC_PCYCLES_COUNT) ∧
    (s.md.wHold = 1 → ∃ t, exec .warmResetRelease s = .next t ∧ t.md = { s.md with wHold := 0, plumb := 3 } ∧
      t.rdb Reg.RPC_RESET_W = false ∧ (s.md.mode = .startup → ∀ c, s.eligible c = true → (t.ch c).st = .vote) ∧
      (∀ c, s.inVote c = true ∨ s.eligible c = false → t.ch c = s.ch c) ∧
      ((∀ c, s.eligible c = true → s.inVote c = true) → regsTo s t [(Reg.RPC_RESET_W, 0)] ∧
        t = { s with regs := t.regs, md := t.md })) ∧
    (∀ c : Ch, natBit (s.rd Reg.RPC_RESET_C) (Ch.num c) = true → s.good (Ch.num c + 1) = true → s.rpc.por = false →
      s.rpc.mod = false → ∃ t, exec (.channelResetRelease c) s = .next t ∧ t.ch c = { s.ch c with st := .booting } ∧
        (∀ d, d ≠ c → t.ch d = s.ch d) ∧ natBit (t.rd Reg.RPC_RESET_C) (Ch.num c) = false ∧
        natBit (t.rd Reg.RPC_RESET_IN_RESET) (Ch.num c + 1) = false ∧ t.rd (Reg.CCU_STATUS_STAGE (Ch.num c)) = 1 ∧
        keepsRegs s t [Reg.RPC_RESET_C, Reg.RPC_RESET_IN_RESET, Reg.CCU_STATUS_STAGE (Ch.num c)] ∧
        (∀ i < 24, t.sio.inp c i = InStage.init) ∧ (∀ p < 12, t.sio.pr c p = PairStage.init) ∧ t.sio.ack c = AckStage.init ∧
        (∀ d i, d ≠ c → i < 24 → t.sio.inp d i = s.sio.inp d i) ∧
        t = { s with regs := t.regs, chs := t.chs, sio := { s.sio with ins := t.sio.ins, pairs := t.sio.pairs, acks := t.sio.acks } }) ∧
    (∀ h, s.sio.holdLeft = some h → h + 50000000 ≤ s.tm.opNs + s.tbc →
      ∃ t, exec .outputHoldExpiry s = .next t ∧ t.sio.holdLeft = none ∧ ∀ o < 12, t.rdb (Reg.SIO_OUT_STAT_HOLD o) = false ∧
        (s.rdb (Reg.SIO_OUT_STAT_HOLD o) = true → t.rdb (Reg.SIO_OUT_STAT_HS o) = false ∧ t.energised o = false ∧
          (t.out o).onHs = false ∧ (t.out o).onLs = false)) ∧
    exec .brownOutLatch s = .next { s with rpc := { s.rpc with bor := true } } ∧
    (s.rpc.por = false → s.rpc.mod = false → s.nvAlive = true →
      ∃ t, exec .counterCheckpoint s = .next t ∧
        Mem.read t.rpc.store 0xF0C0 12 = natLE 8 s.optimeMs ++ natLE 4 (s.rd Reg.RPC_PCYCLES_COUNT) ∧
        (∀ a, a < 0xF0C0 ∨ 0xF0D0 ≤ a → Mem.get t.rpc.store a = Mem.get s.rpc.store a) ∧
        t = { s with rpc := { s.rpc with store := t.rpc.store, storeErrs := t.rpc.storeErrs } })

/-- R22, R329, R511, R518 to R522, R223: outside BOOT, the loss of a domain, the attempts to re-power one, the end of an option
load, the watchdog, the straps, the reference, and the end of a staged bypass. -/
def Obligations.DomainsLoadsAndWatchdog : Prop :=
  ∀ (d : Fin 8) (s : State),
    (s.md.mode ≠ .boot → s.rpc.por = false → s.good d.val = true →
      ∃ t, exec (.domainLoss d) s = .next t ∧ natBit (t.rd Reg.MOD_DOMAIN_LOSS) d.val = true ∧ t.good d.val = false ∧
        natBit (t.rd Reg.MOD_DOMAIN_CLAMP) d.val = true ∧ (∀ j < 8, j ≠ d.val → t.good j = s.good j) ∧
        (s.rpc.mod = false → (d.val = 0 → t.rpc.bor = true) ∧ (∀ c, Ch.num c + 1 = d.val → t.ch c = Chan.init) ∧
          (d.val = 4 → t.timeValid = false) ∧ (d.val = 7 → t.lane = LaneQ.init))) ∧
    (repowered d.val = true → s.good d.val = false → s.rpc.por = false → s.rpc.mod = false → s.rpc.inRange = true →
      natBit (s.rd Reg.RPC_LOAD_LOAD_ERR) d.val = false → s.rdb (Reg.RPC_REPOWER_GIVEN_UP d.val) = false → ∀ ok,
      let n := (s.recentTries d.val).length
      ∃ t, exec (.domainRepower d ok) s = .next t ∧
        (n < 3 → t.rd (Reg.RPC_REPOWER_COUNT d.val) = up s (Reg.RPC_REPOWER_COUNT d.val) ∧
          t.rd (Reg.RPC_REPOWER_HOUR d.val) = n + 1 ∧ t.good d.val = ok ∧ t.rdb (Reg.RPC_REPOWER_GIVEN_UP d.val) = false) ∧
        (3 ≤ n → t.rdb (Reg.RPC_REPOWER_GIVEN_UP d.val) = true ∧ t.good d.val = false ∧ keepsRegs s t [Reg.RPC_REPOWER_GIVEN_UP d.val]) ∧
        t.md = s.md ∧ t.chs = s.chs) ∧
    (d.val ≠ 0 → s.rpc.por = false → s.rpc.mod = false → s.md.mode ≠ .boot → s.loading d.val = true →
      let n := FMap.get 0 s.rpc.loadFails d.val
      (∃ t, exec (.optionLoadDone d true) s = .next t ∧ natBit (t.rd Reg.RPC_LOAD_LOAD_DONE) d.val = true ∧
        natBit (t.rd Reg.MOD_DOMAIN_CLAMP) d.val = false) ∧
      ∃ t, exec (.optionLoadDone d false) s = .next t ∧ natBit (t.rd Reg.RPC_LOAD_LOAD_DONE) d.val = false ∧
        (n < 2 → regsTo s t [(Reg.RPC_LOAD_RETRIES, up s Reg.RPC_LOAD_RETRIES)] ∧ FMap.get 0 t.rpc.loadFails d.val = n + 1) ∧
        (2 ≤ n → natBit (t.rd Reg.RPC_LOAD_LOAD_ERR) d.val = true ∧ natBit (t.rd Reg.RPC_RESET_IN_RESET) d.val = true)) ∧
    (natBit (s.rd Reg.RPC_LOAD_LOAD_DONE) 4 = true → s.good 4 = true → s.rpc.por = false → s.rpc.mod = false → s.wdgStarved = true →
      s.rpc.save = none → ∃ t, exec .watchdogExpiry s = .next t ∧ t.rd Reg.RPC_WDG_FIRES = up s Reg.RPC_WDG_FIRES ∧
        t.rdb Reg.RPC_CAUSE_WDG = true ∧ mAsserted s t) ∧
    (∀ c : Ch, (s.ch c).st ≠ .reset → s.rpc.por = false → s.rpc.mod = false →
      ∃ t, exec (.watchdogRefresh c) s = .next t ∧ FMap.get 0 t.rpc.refresh (Ch.num c) = s.tm.opNs + 1 ∧
        (∀ k, k ≠ Ch.num c → FMap.get 0 t.rpc.refresh k = FMap.get 0 s.rpc.refresh k) ∧
        t = { s with rpc := { s.rpc with refresh := t.rpc.refresh } }) ∧
    (s.rpc.por = false → s.rpc.mod = false → ∀ v, d.val < 5 →
      ∃ t, exec (.strapChange d v) s = .next t ∧ t.rpc.straps.getLsbD d.val = v ∧
        (∀ j < 5, j ≠ d.val → t.rpc.straps.getLsbD j = s.rpc.straps.getLsbD j) ∧
        t.rd Reg.RPC_STRAP_BOOT_SRC_LIVE = t.rpc.straps.toNat % 4 ∧ t.rd Reg.RPC_STRAP_CLK_MODE_LIVE = t.rpc.straps.toNat / 4 % 4 ∧
        t.rd Reg.RPC_STRAP_TWIN_POS_LIVE = t.rpc.straps.toNat / 16 ∧
        (natBit (s.rd Reg.RPC_STRAP_BOOT_SRC + 4 * s.rd Reg.RPC_STRAP_CLK_MODE + 16 * s.rd Reg.RPC_STRAP_TWIN_POS) d.val ≠ v →
          t.rdb Reg.RPC_STRAP_CHANGED = true) ∧
        keepsRegs s t ([Reg.RPC_STRAP_BOOT_SRC_LIVE, Reg.RPC_STRAP_CLK_MODE_LIVE, Reg.RPC_STRAP_TWIN_POS_LIVE, Reg.RPC_STRAP_CHANGED] ++
          logFlds)) ∧
    (s.rd Reg.RPC_STRAP_CLK_MODE = 1 → s.rpc.refLost = false → s.down = false →
      ∃ t, exec .referenceLoss s = .next t ∧ t.rpc = { s.rpc with refLost := true } ∧ t.rd Reg.RPC_VKA_REF_LOSS = up s Reg.RPC_VKA_REF_LOSS ∧
        keepsRegs s t (Reg.RPC_VKA_REF_LOSS :: logFlds) ∧ t.md = s.md) ∧
    exec .referenceReturn s = .next { s with rpc := { s.rpc with refLost := false } } ∧
    (s.rd Reg.PTN_BYPASS_STAGE = 1 → ∃ t, exec .bypassRelayB s = .next t ∧ t.rd Reg.PTN_BYPASS_STAGE = 3 ∧
      t.rdb Reg.PTN_BYPASS_RELAY_B = true ∧ (∀ p, 2 ≤ p → p < 4 → t.rdb (Reg.PTN_PORT_BYPASSED p) = true) ∧
      t.rdb Reg.PTN_STATUS_EDGE_LOADED = false ∧ (s.rpc.por = true → t.good 4 = false))

/-! ### Program banks, forces and retained data -/

/-- `PRG_STATE` as it follows the undercoat banks. -/
def Sys2Proof.Claims.prgFlds : List Fld :=
  [Reg.CMD_PRG_STATE_UC_AGREE, Reg.CMD_PRG_STATE_UC_STATE, Reg.CMD_PRG_STATE_START_COPY]

/-- What a channel reports of a load or an arming (R91, R101). -/
def Sys2Proof.Claims.loadFlds (n : Nat) : List Fld :=
  [Reg.LEN_STATUS_UC_STATE n, Reg.LEN_LOAD_STAT_REASON n, Reg.LEN_LOAD_STAT_LANE n, Reg.LEN_LOAD_STAT_PHASE n, Reg.LEN_LOAD_STAT_INDEX n,
    Reg.LEN_LOAD_ADDR_SPACE n, Reg.LEN_LOAD_ADDR_ADDR n]

/-- R67, R91, R101, R132, R152, R153, R165 and Table 5-5: an undercoat bank from its load through its check to arming, which R59 and R60
judge against the running bank, the commit target, disarming and release. -/
def Obligations.UndercoatBanks : Prop :=
  ∀ (s : State) (w1 w2 w3 : Word),
    (s.fromRun = true → s.rdb Reg.SEC_STATUS_FW_MIXED = false →
      (w1.toNat ≤ 1 → s.ucLoading = false → s.ucArmed = false → s.copyHolds w1.toNat (·.run) = false →
        takesEffect .prgLoad 0x40 s w1 w2 w3 fun s u =>
          (∀ c, s.booted c = true → u.ucState c = 1 ∧ u.ch c = { s.ch c with uc := none, ucCopy := w1.toNat }) ∧
          (∀ c, s.booted c = false → u.ch c = s.ch c) ∧ u.rd Reg.CMD_PRG_STATE_LOAD_COPY = w1.toNat ∧
          u.rdb Reg.CMD_PRG_STATE_SWITCH_BACK = false ∧ u = { s with regs := u.regs, chs := u.chs }) ∧
      (∀ (c d : Ch) (b : Bank), c ≠ d → s.inVote c = true → s.inVote d = true → s.ucState c = 3 → s.ucState d = 3 →
        (s.ch c).uc = some b → (s.ch d).uc = some b →
        b.wcet + b.migrCost (bankId s.runBank) ≤ s.rd Reg.TMU_CYC_WINDOW_WINDOW_CLK →
        takesEffect .prgArm 0x41 s w1 w2 w3 fun s u =>
          (∀ x, s.ucState x = 3 → (s.ch x).uc = some b → u.ucState x = 4 ∧ u.rd (Reg.LEN_LOAD_STAT_REASON (Ch.num x)) = 0) ∧
          u = { s with regs := u.regs } ∧ keepsRegs s u (prgFlds ++ [0, 1, 2].flatMap loadFlds)) ∧
      (let t := w1.toNat + w2.toNat * 4294967296
       t % (s.tbc * s.mx) = 0 → s.tm.tcNs + 2 * s.tbc ≤ t → t ≤ s.tm.tcNs + 86400000000000 → s.timeValid = true → s.armed = true →
        takesEffect .prgCommit 0x42 s w1 w2 w3 fun s u =>
          regsTo s u [(Reg.CMD_PRG_STATE_COMMIT_PENDING, 1), (Reg.CMD_PRG_TARGET_LO_T_LO, w1.toNat),
            (Reg.CMD_PRG_TARGET_HI_T_HI, w2.toNat)] ∧ u = { s with regs := u.regs })) ∧
    (s.ucArmed = true → takesEffect .prgDisarm 0x43 s w1 w2 w3 fun s u =>
      (∀ c, u.ucState c = if s.ucState c = 4 then 3 else s.ucState c) ∧ u.rdb Reg.CMD_PRG_STATE_COMMIT_PENDING = false ∧
        u.rd Reg.CMD_PRG_COMMIT_RESULT = 3 ∧ u.rd Reg.CMD_PRG_COMMIT_SEQ = (s.rd Reg.CMD_PRG_COMMIT_SEQ + 1) % 256 ∧
        u = { s with regs := u.regs }) ∧
    (s.ucLoading = false → s.ucArmed = false → takesEffect .prgRelease 0x44 s w1 w2 w3 fun s u =>
      (∀ c, u.ch c = { s.ch c with uc := none } ∧ u.ucState c = 0) ∧ u.rd Reg.TMU_CYC_WCET_UC_UC_CLK = 0 ∧ u.rdb Reg.CMD_PRG_STATE_SWITCH_BACK = false ∧
        u = { s with regs := u.regs, chs := u.chs }) ∧
    (∀ c : Ch, s.ucState c = 1 ∨ s.ucState c = 2 →
      let o := s.openCopy c (s.ch c).ucCopy (some (s.rd (Reg.SEC_CH_FW_VERSION (Ch.num c))))
      (o.reason ≠ 0 → ∃ t, exec (.bankCheckDone c) s = .next t ∧ t.ucState c = 5 ∧ (t.ch c).uc = none ∧ (t.ch c).run = (s.ch c).run) ∧
      (∀ b, o.reason = 0 → bankOf (o.text 2) = some b →
        ∃ t, exec (.bankCheckDone c) s = .next t ∧ (t.ch c).uc = some b ∧ (t.ch c).run = (s.ch c).run ∧
          t.rd (Reg.LEN_BANK_UC_LO_ID_LO (Ch.num c)) = b.id.toNat % 2 ^ 32 ∧
          t.rd (Reg.LEN_BANK_UC_HI_ID_HI (Ch.num c)) = b.id.toNat / 2 ^ 32 ∧
          (s.bankBreach b = none → t.ucState c = 3 ∧ t.rd (Reg.LEN_LOAD_STAT_REASON (Ch.num c)) = 0) ∧
          (∀ x, s.bankBreach b = some x → t.ucState c = 5 ∧ t.rd (Reg.LEN_LOAD_STAT_REASON (Ch.num c)) = x.reason % 32) ∧
          ∀ d, d ≠ c → t.ch d = s.ch d))

/-- R144, R145, R148 to R151: a force is written into its own entry or the lowest free one and no other; a symbol that no entry can
take is denied; a force, or every force, is cleared; in STANDBY and ORPHAN none is commanded (R150); and the retained copy is
discarded. The codewords of the entries are written. -/
def Obligations.ForcesAndRetainedCopy : Prop :=
  ∀ (s : State) (w1 w2 w3 : Word),
    (s.fromStartup = true → s.forceRole = true →
      (∀ (b : Bank) (y : Sym), s.runBank = some b → b.symbol w1 = some y → forceBarred y.word y.addr = false →
        (y.word = true ∨ w2.toNat ≤ 1) → (s.safetyLoc y.word y.addr = false ∨ s.md.mode = .maint) →
        (∀ n, forceEntry s.forces w1 = some n ∨ (forceEntry s.forces w1 = none ∧ freeEntry s.forces = some n) →
          takesEffect .forceSet 0x45 s w1 w2 w3 fun s u =>
            FMap.get none u.forces n = some ⟨w1, s.safetyLoc y.word y.addr, y.word, y.addr, w2⟩ ∧
            (∀ k, k ≠ n → FMap.get none u.forces k = FMap.get none s.forces k) ∧
            u = { s with regs := u.regs, chs := u.chs, forces := u.forces }) ∧
        (forceEntry s.forces w1 = none → freeEntry s.forces = none → ∀ seq port, ready s 0x45 →
          ∃ t, exec (.forceSet (atTc seq port w1 w2 w3)) s = .next t ∧
            posted (taken s seq) t seq 0x45 5 (s.tm.cyc % 2 ^ 32))) ∧
      (∀ n, forceEntry s.forces w1 = some n → takesEffect .forceClear 0x46 s w1 w2 w3 fun s u =>
        FMap.get none u.forces n = none ∧ (∀ k, k ≠ n → FMap.get none u.forces k = FMap.get none s.forces k) ∧
          u = { s with regs := u.regs, chs := u.chs, forces := u.forces }) ∧
      takesEffect .forceClearAll 0x47 s w1 w2 w3 fun s u => u = { s with regs := u.regs, chs := u.chs, forces := [] } ∧
        ∀ c, u.ch c = { s.ch c with errs := (u.ch c).errs, tags := (u.ch c).tags }) ∧
    (s.forceRole = false → ∀ x ∈ [(Instr.forceSet, 0x45), (Instr.forceClear, 0x46), (Instr.forceClearAll, 0x47)],
      ∀ seq port, ready s x.2 → ∃ t, exec (x.1 (atTc seq port w1 w2 w3)) s = .next t ∧
        posted (taken s seq) t seq x.2 1 (s.tm.cyc % 2 ^ 32)) ∧
    (s.md.mode = .hold ∨ s.md.mode = .safe ∨ s.md.mode = .maint → takesEffect .retDiscard 0x48 s w1 w2 w3 fun s u =>
      Mem.read u.rpc.store 25664 4 = [0, 0, 0, 0] ∧ Mem.read u.rpc.store 40 4 = natLE 4 0x44534344 ∧
        (∀ a, (a < 40 ∨ 44 ≤ a) → (a < 25664 ∨ 25668 ≤ a) → Mem.get u.rpc.store a = Mem.get s.rpc.store a) ∧
        regsTo s u [(Reg.CMD_RET_STATUS_DISCARDED, 1)] ∧
        u = { s with regs := u.regs, rpc := { s.rpc with store := u.rpc.store, storeErrs := u.rpc.storeErrs } })

/-! ### The gateway -/

/-- A frame leaves a port of the gateway: its bytes, with the CRC-16 behind them where an EIA-485 port appends it, and nothing else
changes (R422). -/
def Sys2Proof.Claims.portSends (s t : State) (port ident : Nat) (bytes : List Byte) : Prop :=
  t = { s with gwy := { s.gwy with sent := t.gwy.sent } } ∧
    FMap.get none t.gwy.sent port = some ⟨port, ident,
      if 6 ≤ port ∧ s.rdb (Reg.GWY_PORT_CRC16 port) = true then bytes ++ crc16Modbus bytes else bytes⟩ ∧
    ∀ p, p ≠ port → FMap.get none t.gwy.sent p = FMap.get none s.gwy.sent p

/-- A port of the gateway can send: it is configured, and a CAN port is not in bus-off. -/
def Sys2Proof.Claims.canSend (s : State) (port : Nat) : Prop :=
  s.rdb (Reg.GWY_PORT_ENABLED port) = true ∧ (port < 4 → s.rd (Reg.GWY_PORT_STATE port) ≠ 2)

/-- R420 to R422, R424, R425, R433 and R434: valid receptions become the data of their message, fresh from an instant in the present
cycle, and wrong lengths and failed checks are counted; transmit messages go out once their period is over, polls, NMT starts and
host frames go out; a host frame of a length that its format does not have is refused and counted (R13); a CAN port enters and leaves
bus-off. -/
def Obligations.GatewayTraffic : Prop :=
  ∀ (s : State), s.gwyUp = true →
    (∀ (port : Fin 8) (ident : Nat) (b : List Byte), s.rdb (Reg.GWY_PORT_ENABLED port.val) = true →
      let arrives := fun (i : Instr) =>
        (s.gwy.cur.findMsg 1 port.val ident = none → exec i s = .next s) ∧
        ∀ m, s.gwy.cur.findMsg 1 port.val ident = some m → (∀ r ∈ s.gwy.cur.routeNos, (s.gwy.cur.route r).dst ≠ m) →
          (b.length = (s.gwy.cur.msg m).len → ∃ t v, exec i s = .next t ∧ (t.gwy.msg m).data = b ∧ (t.gwy.msg m).stale = false ∧
            (t.gwy.msg m).rxAt = some v ∧ s.tm.opNs ≤ v ∧ v < s.tm.opNs + s.tbc) ∧
          (b.length ≠ (s.gwy.cur.msg m).len → ∃ t, exec i s = .next t ∧
            regsTo s t [(Reg.GWY_COUNT_LEN_ERR, up s Reg.GWY_COUNT_LEN_ERR)] ∧ t = { s with regs := t.regs })
      (port.val < 6 → port.val < 4 → FMap.get none s.gwy.sdo port.val = none → b ≠ [0] → arrives (.busMessageReceive port ident (some b))) ∧
      (port.val < 6 → 4 ≤ port.val → arrives (.busMessageReceive port ident (some b))) ∧
      (port.val < 6 → ∃ t, exec (.busMessageReceive port ident none) s = .next t ∧
        regsTo s t [(Reg.GWY_PORT_CRC_ERR port.val, up s (Reg.GWY_PORT_CRC_ERR port.val))] ∧ t = { s with regs := t.regs }) ∧
      (6 ≤ port.val → b ≠ [] → ident = leAt b 0 1 →
        (s.rdb (Reg.GWY_PORT_CRC16 port.val) = false → arrives (.rs485FrameEnd port b)) ∧
        (s.rdb (Reg.GWY_PORT_CRC16 port.val) = true → arrives (.rs485FrameEnd port (b ++ crc16Modbus b)) ∧
          ∀ c, c.length = 2 → c ≠ crc16Modbus b → ∃ t, exec (.rs485FrameEnd port (b ++ c)) s = .next t ∧
            regsTo s t [(Reg.GWY_PORT_CRC_ERR port.val, up s (Reg.GWY_PORT_CRC_ERR port.val))] ∧ t = { s with regs := t.regs }))) ∧
    (s.gwySends = true →
      (∀ m, (s.gwy.cur.msg m).dir = 2 → (s.gwy.cur.msg m).port < 4 ∨ 6 ≤ (s.gwy.cur.msg m).port → canSend s (s.gwy.cur.msg m).port →
        let elapsed := ∀ x, (s.gwy.msg m).txAt = some x → x + (s.gwy.cur.msg m).time * 1000000 < s.tm.opNs + s.tbc
        (elapsed → ∃ t, exec (.messagePeriod m) s = .next t ∧
          portSends s { t with gwy := { t.gwy with msgs := s.gwy.msgs } } (s.gwy.cur.msg m).port (s.gwy.cur.msg m).ident (s.txBytes m) ∧
          (∃ v, s.tm.opNs ≤ v ∧ t.gwy.msg m = { s.gwy.msg m with txAt := some v }) ∧ ∀ q, q ≠ m → t.gwy.msg q = s.gwy.msg q) ∧
        (¬ elapsed → exec (.messagePeriod m) s = .next s)) ∧
      (∀ (port : Fin 8) (a m : Nat), port.val = 4 ∨ port.val = 5 → canSend s port.val → s.gwy.cur.findMsg 2 port.val a = some m →
        ∃ t, exec (.mvbPoll port a) s = .next t ∧ portSends s t port.val a (s.txBytes m)) ∧
      (∀ p : Fin 4, s.rdb (Reg.GWY_PORT_NMT p.val) = true → canSend s p.val →
        ∃ t, exec (.nmtStart p) s = .next t ∧ portSends s t p.val 0 [1, 0])) ∧
    (∀ p : Fin 4,
      (s.rdb (Reg.GWY_PORT_ENABLED p.val) = true → ∃ t, exec (.canBusOff p) s = .next t ∧
        regsTo s t [(Reg.GWY_PORT_STATE p.val, 2), (Reg.GWY_PORT_BUSOFF p.val, up s (Reg.GWY_PORT_BUSOFF p.val))] ∧
        t = { s with regs := t.regs }) ∧
      (s.rd (Reg.GWY_PORT_STATE p.val) = 2 → ∃ t, exec (.busOffRecovery p) s = .next t ∧
        regsTo s t [(Reg.GWY_PORT_STATE p.val, 0)] ∧ t = { s with regs := t.regs })) ∧
    (∀ (j : Fin 16) (port n : Nat), s.hostUp = true → port < 4 ∨ port = 6 ∨ port = 7 → 1 ≤ n → n ≤ 64 →
      let ident := s.rd (Reg.GWY_HTX_ID_IDENT j.val)
      let ok := lenAllowed { ident := ident, port := port, dir := 2, rsv := 0, len := n, time := 1 }
      ∃ t, exec (.hostFrameSend j (BitVec.ofNat 32 (2 ^ 31 + port * 2 ^ 24 + n))) s = .next t ∧
        (s.rdb (Reg.GWY_HTX_CTL_SEND j.val) = false → ok = true → t.rdb (Reg.GWY_HTX_CTL_SEND j.val) = true ∧
          ∃ d, d.length = n ∧ (6 ≤ port → d.head? = some (BitVec.ofNat 8 ident)) ∧
            t.gwy = { s.gwy with hostQ := s.gwy.hostQ ++ [(j.val, ⟨port, ident, d⟩)] }) ∧
        (s.rdb (Reg.GWY_HTX_CTL_SEND j.val) = false → ok = false → t.rd Reg.HBR_ACC_ERR_COUNT = up s Reg.HBR_ACC_ERR_COUNT ∧
          t.gwy = s.gwy) ∧
        (s.rdb (Reg.GWY_HTX_CTL_SEND j.val) = true → t.rdb (Reg.GWY_HTX_CTL_DROPPED j.val) = true ∧ t.gwy = s.gwy)) ∧
    (∀ (j : Fin 16) (f : GwyFrame), s.gwy.hostQ.find? (fun e => e.1 = j.val) = some (j.val, f) → s.md.mode ≠ .boot → s.gwyRole = true →
      canSend s f.port → ∃ t, exec (.hostFrameSent j) s = .next t ∧ t.rdb (Reg.GWY_HTX_CTL_SEND j.val) = false ∧
        (t.gwy.hostQ.any fun e => e.1 = j.val) = false ∧ (FMap.get none t.gwy.sent f.port).map (·.ident) = some f.ident ∧
        t.md = s.md ∧ t.gwy.msgs = s.gwy.msgs)

/-- R435, R437, R438: the other gateway bank is loaded, checked and swapped in at its target, with the data of equal messages kept;
CANopen commands and expedited transfers go out at their port, and a transfer without a reply ends. -/
def Obligations.GatewayBanksAndCanopen : Prop :=
  ∀ (s : State) (w1 w2 w3 : Word),
    (s.fromStartup = true → w1.toNat ≤ 1 → s.rd Reg.GWY_CFG_NEXT_STATE ≠ 1 → s.rdb Reg.GWY_CFG_SWAP_PENDING = false →
      takesEffect .gwyLoad 0x70 s w1 w2 w3 fun s u => regsTo s u [(Reg.GWY_CFG_NEXT_STATE, 1)] ∧
        u = { s with regs := u.regs, gwy := { s.gwy with loading := some w1.toNat } }) ∧
    (∀ k, s.gwy.loading = some k → s.gwyUp = true →
      let o := s.openAny k
      ∃ t, exec .gwyLoadDone s = .next t ∧ t.gwy.loading = none ∧ t.gwy.cur = s.gwy.cur ∧
        (o.reason ≠ 0 → t.rd Reg.GWY_CFG_NEXT_STATE = 3 ∧ t.rd Reg.GWY_LOAD_STAT_REASON = 8) ∧
        (∀ b, o.reason = 0 → o.gwyBank = some b →
          (b.check = none → t.rd Reg.GWY_CFG_NEXT_STATE = 2 ∧ t.rd Reg.GWY_LOAD_STAT_REASON = 0 ∧ t.gwy.next = b) ∧
          (∀ r n code, b.check = some (r, n, code) → t.rd Reg.GWY_CFG_NEXT_STATE = 3 ∧ t.rdb Reg.GWY_LOAD_STAT_TABLE = r ∧
            t.rd Reg.GWY_LOAD_STAT_ENTRY = n % 4096 ∧ t.rd Reg.GWY_LOAD_STAT_REASON = code % 16))) ∧
    (s.fromStartup = true → s.rd Reg.GWY_CFG_NEXT_STATE = 2 →
      let a := w1.toNat + w2.toNat * 4294967296
      let x := if a = 0 then s.tm.tcNs + s.tbc else a
      s.tcAhead x = true → takesEffect .gwySwap 0x71 s w1 w2 w3 fun s u => regsTo s u [(Reg.GWY_CFG_SWAP_PENDING, 1)] ∧
        u = { s with regs := u.regs, gwy := { s.gwy with target := some x } }) ∧
    (∀ x, s.gwy.target = some x → x ≤ s.tm.tcNs → s.gwyUp = true →
      ∃ t, exec .gwySwapAtTarget s = .next t ∧ t.gwy.cur = s.gwy.next ∧ t.gwy.next = s.gwy.cur ∧ t.gwy.target = none ∧
        t.rd Reg.GWY_CFG_BANK = 1 - s.rd Reg.GWY_CFG_BANK ∧ t.rdb Reg.GWY_CFG_SWAP_PENDING = false ∧
        (∀ m ∈ s.gwy.next.used, ∀ q, s.gwy.cur.findMsg (s.gwy.next.msg m).dir (s.gwy.next.msg m).port (s.gwy.next.msg m).ident = some q →
          (t.gwy.msg m).rxAt = (s.gwy.msg q).rxAt ∧ (t.gwy.msg m).stale = (s.gwy.msg q).stale)) ∧
    (s.fromStartup = true → s.gwyRole = true → ∀ (p node idx sub : Nat), p < 4 → s.rdb (Reg.GWY_PORT_NMT p) = true → canSend s p →
      1 ≤ node → node < 128 → idx < 65536 → sub < 256 →
      (takesEffect .gwyNmt 0x72 s (BitVec.ofNat 32 (p + sub * 256 + node * 65536)) w2 w3 fun s u =>
        portSends s u p 0 [BitVec.ofNat 8 sub, BitVec.ofNat 8 node]) ∧
      (FMap.get none s.gwy.sdo p = none →
        let begun := fun (s u : State) (b : List Byte) => u.rd (Reg.GWY_SDO_STATE p) = 1 ∧ u.rd (Reg.GWY_SDO_NODE p) = node ∧
          u.rd (Reg.GWY_SDO_DATA_DATA p) = 0 ∧ (FMap.get none u.gwy.sdo p).isSome = true ∧
          FMap.get none u.gwy.sent p = some ⟨p, 0x600 + node, b⟩ ∧ u.md = s.md ∧ u.gwy.msgs = s.gwy.msgs
        (takesEffect .gwySdoRead 0x73 s (BitVec.ofNat 32 (p + node * 256 + idx * 65536)) (BitVec.ofNat 32 sub) w3 fun s u =>
          begun s u ([0x40] ++ natLE 2 idx ++ natLE 1 sub ++ [0, 0, 0, 0])) ∧
        ∀ n, 1 ≤ n → n ≤ 4 →
          takesEffect .gwySdoWrite 0x74 s (BitVec.ofNat 32 (p + node * 256 + idx * 65536)) (BitVec.ofNat 32 (sub + n * 256)) w3 fun s u =>
            begun s u ([BitVec.ofNat 8 (0x23 + 4 * (4 - n))] ++ natLE 2 idx ++ natLE 1 sub ++
              ((wordLE w3).take n ++ List.replicate (4 - n) 0)))) ∧
    (∀ p : Fin 4, s.gwyUp = true → FMap.get none s.gwy.sdo p.val ≠ none → ∃ t, exec (.sdoTimeout p) s = .next t ∧
      regsTo s t [(Reg.GWY_SDO_STATE p.val, 4)] ∧ FMap.get none t.gwy.sdo p.val = none ∧
      (∀ q, q ≠ p.val → FMap.get none t.gwy.sdo q = FMap.get none s.gwy.sdo q) ∧
      t = { s with regs := t.regs, gwy := { s.gwy with sdo := t.gwy.sdo } })

/-! ### Current loops -/

/-- Only loop `n` and registers differ. -/
def Sys2Proof.Claims.onlyLoop (s t : State) (n : Nat) : Prop :=
  (∀ k, k ≠ n → t.loop k = s.loop k) ∧ t = { s with regs := t.regs, alp := t.alp }

/-- R441, R446, R447 and R451: a sample enters its loop's window; the supervision bits of an output set and clear with `FAULT`
following them; a HART transaction starts, is refused or dropped, and ends with its response or without one. -/
def Sys2Proof.Claims.loopSamplingSupervisionHart : Prop :=
  ∀ (f : Fin 4) (s : State),
    let n := f.val
    let cls := s.rd (Reg.ALP_STAT_CLASS n)
    let bad := decide (cls = 3 ∨ cls = 4 ∨ cls = 7)
    let stat := [Reg.ALP_STAT_OPEN n, Reg.ALP_STAT_COMPLIANCE n, Reg.ALP_STAT_FAULT n, Reg.ALP_STAT_CLASS n, Reg.ALP_STAT_CURRENT n,
      Reg.ALP_EVENT_COMP_SET n]
    let tenMs := fun (p : Nat → Prop) => 40 ≤ (s.loop n).samples.length ∧ ∀ x ∈ (s.loop n).samples.take 40, p x
    (∀ nA lim mv, s.pdlGood = true → s.loopMode n ≠ 0 → ∃ t, exec (.loopSample f nA lim mv) s = .next t ∧
      t.loop n = { s.loop n with samples := (nA :: (s.loop n).samples).take 400, limited := lim && decide (s.loopMode n = 1),
                                 headroom := mv } ∧ onlyLoop s t n ∧ t.regs = s.regs) ∧
    (s.pdlGood = true → s.loopOut n = true → 4000 ≤ (s.loop n).driveUa → tenMs (fun x => x < 500000) →
        s.rdb (Reg.ALP_STAT_OPEN n) = false →
      ∃ t, exec (.loopOpen f) s = .next t ∧
        regsTo s t [(Reg.ALP_STAT_OPEN n, 1), (Reg.ALP_STAT_FAULT n, 1), (Reg.ALP_EVENT_OPEN_SET n, 1)] ∧ t = { s with regs := t.regs }) ∧
    (s.rdb (Reg.ALP_STAT_OPEN n) = true → tenMs (fun x => 500000 < x) → ∃ t, exec (.loopOpenClear f) s = .next t ∧ t.rdb (Reg.ALP_STAT_OPEN n) = false ∧
      t.rdb (Reg.ALP_STAT_FAULT n) = (bad || (s.rdb (Reg.ALP_STAT_COMPLIANCE n) && s.rdb (Reg.ALP_CFG_COMP_FAULT n))) ∧
      keepsRegs s t stat ∧ t = { s with regs := t.regs }) ∧
    (s.pdlGood = true → s.loopOut n = true → (s.loop n).headroom < 1500 → s.rdb (Reg.ALP_STAT_COMPLIANCE n) = false →
      ∃ t, exec (.loopCompliance f) s = .next t ∧ t.rdb (Reg.ALP_STAT_COMPLIANCE n) = true ∧ t.rdb (Reg.ALP_EVENT_COMP_SET n) = true ∧
        t.rdb (Reg.ALP_STAT_FAULT n) = (bad || s.rdb (Reg.ALP_STAT_OPEN n) || s.rdb (Reg.ALP_CFG_COMP_FAULT n)) ∧
        keepsRegs s t stat ∧ t = { s with regs := t.regs }) ∧
    (s.rdb (Reg.ALP_STAT_COMPLIANCE n) = true → 1500 ≤ (s.loop n).headroom → ∃ t, exec (.loopComplianceClear f) s = .next t ∧
      t.rdb (Reg.ALP_STAT_COMPLIANCE n) = false ∧ t.rdb (Reg.ALP_STAT_FAULT n) = (bad || s.rdb (Reg.ALP_STAT_OPEN n)) ∧
      keepsRegs s t stat ∧ t = { s with regs := t.regs }) ∧
    (s.hostUp = true → ∀ w : Word, w.getLsbD 31 = true → ∃ t, exec (.hartGo f w) s = .next t ∧
      (s.rdb (Reg.ALP_HREQ_CTL_GO n) = true → t.rdb (Reg.ALP_HREQ_CTL_DROPPED n) = true ∧ t.rdb (Reg.ALP_HREQ_CTL_GO n) = true ∧ t.alp = s.alp) ∧
      (s.rdb (Reg.ALP_HREQ_CTL_GO n) = false → w.toNat / 65536 % 256 ≤ 64 →
        t.rdb (Reg.ALP_HREQ_CTL_GO n) = true ∧ t.rd (Reg.ALP_HRSP_STAT_STATE n) = 1 ∧
        ∃ q : HartReq, t.loop n = { s.loop n with hreq := some q } ∧ q.addr = t.rd (Reg.ALP_HREQ_CTL_ADDR n) ∧
          q.cmd = t.rd (Reg.ALP_HREQ_CTL_CMD n) ∧ q.data.length = w.toNat / 65536 % 256) ∧
      (s.rdb (Reg.ALP_HREQ_CTL_GO n) = false → 64 < w.toNat / 65536 % 256 →
        t.rdb (Reg.ALP_HREQ_CTL_GO n) = false ∧ t.rd (Reg.ALP_HRSP_STAT_STATE n) = 5 ∧
        t.loop n = { s.loop n with hreq := none }) ∧ ∀ k, k ≠ n → t.loop k = s.loop k) ∧
    (∀ q : HartReq, (s.loop n).hreq = some q → q.addr < 16 →
      let a := q.addr
      let ended := fun (t : State) (st : Nat) => t.rd (Reg.ALP_HRSP_STAT_STATE n) = st ∧ t.rdb (Reg.ALP_HREQ_CTL_GO n) = false ∧
        t.rd (Reg.ALP_HART_TRANS n) = (s.rd (Reg.ALP_HART_TRANS n) + 1) % 256 ∧
        t.loop n = { s.loop n with hreq := none } ∧ onlyLoop s t n
      (∃ t, exec (.hartComplete f none) s = .next t ∧ ended t 3 ∧ t.rd (Reg.ALP_HART_ERR n) = up s (Reg.ALP_HART_ERR n) ∧
        natBit (t.rd (Reg.ALP_HART_LIVE n)) a = false) ∧
      ∀ r : List Byte, s.pdlGood = true → s.rdb (Reg.ALP_CFG_HART n) = true → 2 ≤ r.length → r.length ≤ 66 →
        ∃ t, exec (.hartComplete f (some r)) s = .next t ∧ ended t 2 ∧ t.rd (Reg.ALP_HRSP_STAT_RESP n) = beNat (r.take 2) ∧
          t.rd (Reg.ALP_HRSP_STAT_LEN n) = r.length - 2 ∧ natBit (t.rd (Reg.ALP_HART_LIVE n)) a = true ∧
          ∀ i < 16, t.rd (Reg.ALP_HRSP_DATA_DATA n i) = leAt (r.drop 2) (4 * i) 4)

/-- R452 to R454: a calibration from its begin through its points to the trims it commits, in the loop and in the retained store; its
abort, its timeout, and the return to factory trims. That an output's calibration drives its points whatever the mode and role is the
model's choice (log 103). -/
def Sys2Proof.Claims.loopCalibration : Prop :=
  ∀ (f : Fin 4) (s : State) (w2 w3 : Word),
    let n := f.val
    let w1 : Word := BitVec.ofNat 32 n
    let aborted := fun (t : State) => t.loop n = { s.loop n with cal := none, driveUa := (t.loop n).driveUa } ∧
      (s.loopOut n = false → (t.loop n).driveUa = (s.loop n).driveUa) ∧ t.rdb (Reg.ALP_EVENT_CAL_ABORT n) = true ∧
      t.rdb (Reg.ALP_CAL_ACTIVE n) = false
    (s.fromIntegrate = true →
      ((∀ k < 4, (s.loop k).cal = none) → s.loopMode n ≠ 0 → s.loopDrop n = false → s.pdlGood = true →
        takesEffect .alpCalBegin 0x80 s w1 w2 w3 fun s u =>
          (u.loop n).cal = some { began := s.tm.opNs, p0 := none, p1 := none, measuring := none } ∧
          (s.loopOut n = true → (u.loop n).driveUa = 4000) ∧ u.rd (Reg.ALP_STAT_CLASS n) = 6 ∧ u.rdb (Reg.ALP_CAL_ACTIVE n) = true ∧
          u.rdb (Reg.ALP_STAT_CAL n) = true ∧ onlyLoop s u n) ∧
      (∀ c, (s.loop n).cal = some c → c.measuring = none →
        (∀ hi : Bool, (if hi then 19000 ≤ w2.toNat ∧ w2.toNat ≤ 21000 else 3000 ≤ w2.toNat ∧ w2.toNat ≤ 5000) →
          takesEffect .alpCalPoint 0x81 s (BitVec.ofNat 32 (n + bitNat hi * 256)) w2 w3 fun s u =>
            (u.loop n).cal = some (if s.loopOut n then
                (if hi then { c with p1 := some (w2.toNat, 0) } else { c with p0 := some (w2.toNat, 0) })
              else { c with measuring := some (bitNat hi, w2.toNat) }) ∧
            (s.loopOut n = true → s.pdlGood = true → hi = false ∨ c.p0.isSome = true → (u.loop n).driveUa = 20000) ∧ onlyLoop s u n) ∧
        (∀ p q g o, c.p0 = some p → c.p1 = some q → s.calTrims n c = some (g, o) → -20000 ≤ g → g ≤ 20000 → -2000 ≤ o → o ≤ 2000 →
          takesEffect .alpCalCommit 0x82 s w1 w2 w3 fun s u =>
            u.loop n = { s.loop n with cal := none, gain := g, offset := o, commits := (s.loop n).commits + 1,
                                       driveUa := (u.loop n).driveUa } ∧
            (s.loopOut n = false → (u.loop n).driveUa = (s.loop n).driveUa) ∧
            u.rdb (Reg.ALP_EVENT_CAL_DONE n) = true ∧ u.rdb (Reg.ALP_CAL_SOURCE n) = true ∧
            Mem.read u.rpc.store (0xF000 + 16 * n) 12 =
              natLE 4 (g % 4294967296).toNat ++ natLE 4 (o % 4294967296).toNat ++ natLE 4 ((s.loop n).commits + 1)) ∧
        takesEffect .alpCalAbort 0x83 s w1 w2 w3 fun _ u => aborted u) ∧
      ((s.loop n).cal = none → takesEffect .alpCalFactory 0x84 s w1 w2 w3 fun s u =>
        u.loop n = { s.loop n with gain := 0, offset := 0, commits := 0 } ∧ u.rdb (Reg.ALP_CAL_SOURCE n) = false ∧
          Mem.read u.rpc.store (0xF000 + 16 * n) 16 = List.replicate 16 0)) ∧
    (∀ c p ref avg, (s.loop n).cal = some c → c.measuring = some (p, ref) → ∃ t, exec (.calPointTaken f avg) s = .next t ∧
      (t.loop n).cal = some (if p = 0 then { c with measuring := none, p0 := some (ref, avg) }
        else { c with measuring := none, p1 := some (ref, avg) }) ∧ t.rdb (Reg.ALP_CAL_MEASURING n) = false ∧ onlyLoop s t n) ∧
    (∀ c, (s.loop n).cal = some c → c.began + 600000000000 ≤ s.tm.opNs → ∃ t, exec (.calTimeout f) s = .next t ∧ aborted t ∧
      onlyLoop s t n)

/-- Both: `loopSamplingSupervisionHart`, and `loopCalibration`. -/
def Obligations.CurrentLoops : Prop := Claims.loopSamplingSupervisionHart ∧ Claims.loopCalibration

/-! ### The event recorder -/

/-- R460, R464 to R470: equal reports of two channels become one record, a report alone for two cycles a single one; the record at
the head of the queue takes the slot of R464 with its 64 bytes, or is dropped and counted; the index is built from the valid slots. -/
def Sys2Proof.Claims.recorderWritesAndIndex : Prop :=
  ∀ (s : State),
    (s.pdhGood = true → s.rcd.queue.length < 2048 → s.rcd.matched = [] → ∀ r q : Report,
      (s.rcd.reports = [r, q] → q.ev.same r.ev = true → r.ev.same q.ev = true → q.chan ≠ r.chan →
        ∃ t, exec .channelEventMatch s = .next t ∧ t.rcd.reports = [] ∧ t.rcd.matched = [r.ev] ∧
          t.rcd.queue = s.rcd.queue ++ [{ r.ev with flushed := r.ev.flushed || q.ev.flushed }]) ∧
      (s.rcd.reports = [r] → r.ev.flushed = false →
        (2 ≤ r.age → ∃ t, exec .channelEventMatch s = .next t ∧ t.rcd.reports = [] ∧
          t.rcd.queue = s.rcd.queue ++ [{ r.ev with single := true, inst := r.chan }]) ∧
        (r.age < 2 → exec .channelEventMatch s = .next s))) ∧
    (∀ e rest, s.rcd.queue = e :: rest → e.sev < 8 → e.payload.length = 6 → s.nvAlive = true → s.indexDone = true → s.rpc.save = none →
      (∀ k, s.rcd.slotFor e.sev = some k → ∃ t, exec .recWrite s = .next t ∧ t.rcd.queue = rest ∧ t.rcd.next = s.rcd.next + 1 ∧
        Mem.read t.rcd.mram (k * 64) 64 = recordBytes (s.recordBody s.rcd.next e) ∧
        (∀ a, a < k * 64 ∨ k * 64 + 64 ≤ a → Mem.get t.rcd.mram a = Mem.get s.rcd.mram a) ∧
        FMap.get none t.rcd.index k = some (s.rcd.next, e.sev) ∧
        (s.rd Reg.REC_CFG_IRQ_SEV ≤ e.sev → natBit (t.rd Reg.HBR_INT_STATUS_INT) 3 = true)) ∧
      (s.rcd.slotFor e.sev = none → ∃ t, exec .recWrite s = .next t ∧ t.rcd = { s.rcd with queue := rest } ∧
        t.rd (Reg.REC_DROP_DROPS e.sev) = up s (Reg.REC_DROP_DROPS e.sev))) ∧
    (s.nvAlive = true →
      (s.indexDone = false → ∃ t, exec .recIndexBuild s = .next t ∧ t.rcd = { s.rcd with indexing := true, index := [] } ∧
        t.indexDone = false) ∧
      (s.rcd.indexing = true → ∃ t, exec .recIndexDone s = .next t ∧ t.indexDone = true ∧ t.rcd.indexing = false ∧
        t.rcd.floor = s.floorNow.1 ∧ t.rcd.mram = s.rcd.mram ∧
        ∀ k ∈ s.rcd.touched, ∀ q v, RecSt.find { s.rcd with floor := s.floorNow.1 } k = .rcrd q v →
          FMap.get none t.rcd.index k = some (q, v) ∧ q < t.rcd.next))

/-- R462, R468, R469 and Table 16-6: the recorder's commands, a host mark, and a seek, which finds the smallest number at or above the
one asked for. -/
def Sys2Proof.Claims.recorderCommands : Prop :=
  ∀ (s : State) (w1 w2 w3 : Word),
    (s.md.mode = .maint → s.indexDone = true → takesEffect .recClear 0x90 s w1 w2 w3 fun s u =>
      u.rcd.index = [] ∧ u.rcd.floor = s.rcd.next ∧ u.rcd.mram = s.rcd.mram ∧
        ∃ e, u.rcd.queue = e :: s.rcd.queue ∧ e.sev = 5 ∧ e.cls = 5 ∧ e.payload.head? = some 1) ∧
    (takesEffect .recCountClear 0x91 s w1 w2 w3 fun s u =>
      regsTo s u ([(Reg.REC_ERR_Q_OVF, 0), (Reg.REC_ERR_CRC_BAD, 0), (Reg.REC_ERR_UE, 0)] ++
        (List.range 8).map fun v => (Reg.REC_DROP_DROPS v, 0)) ∧ u = { s with regs := u.regs }) ∧
    (s.hostUp = true →
      (∀ tag sev, tag < 256 → sev < 4 → s.rdb Reg.REC_MARK_CTL_WRITE = false → s.md.mode ≠ .boot → s.rcd.queue.length < 2048 →
        ∃ t e, exec (.hostMark (BitVec.ofNat 32 (2 ^ 31 + tag * 256 + sev))) s = .next t ∧ t.rcd.queue = s.rcd.queue ++ [e] ∧
          e.sev = sev ∧ e.cls = 4 ∧ e.src = 13 ∧ e.inst = tag ∧
          e.payload = (List.range 6).map (fun i => BitVec.ofNat 32 (s.rd (Reg.REC_MARK_DATA_DATA i)))) ∧
      (∀ w : Word, s.indexDone = true →
        let v := s.rd Reg.REC_SEEK_LO_S_LO + w.toNat * 4294967296
        ∃ t, exec (.recSeek w) s = .next t ∧ t = { s with regs := t.regs } ∧
          (∀ k q sv, (k, some (q, sv)) ∈ s.rcd.index → v ≤ q → t.rdb Reg.REC_SEEK_RES_FOUND = true) ∧
          (t.rdb Reg.REC_SEEK_RES_FOUND = true → ∃ k q sv, (k, some (q, sv)) ∈ s.rcd.index ∧ v ≤ q ∧
            t.rd Reg.REC_SEEK_RES_SLOT = k % 2 ^ 19 ∧ ∀ j p u, (j, some (p, u)) ∈ s.rcd.index → v ≤ p → q ≤ p)))

/-- Both: `recorderWritesAndIndex`, and `recorderCommands`. -/
def Obligations.EventRecorder : Prop := Claims.recorderWritesAndIndex ∧ Claims.recorderCommands

/-! ### Sessions, the service port and the security commands -/

/-- As `takesEffect`, for a command given at a port. -/
def Sys2Proof.Claims.takesEffectAt (port : CmdPort) (mk : CmdRec → Instr) (code : Nat) (s : State) (w1 w2 w3 : Word)
    (P : State → State → Prop) : Prop :=
  ∀ (seq : BitVec 16), ready s code →
    ∃ u t, exec (mk (atTc seq port w1 w2 w3)) s = .next t ∧ P (taken s seq) u ∧ posted u t seq code 0 (s.tm.cyc % 2 ^ 32)

/-- R500 to R503: a session is opened by the judgement of its record with the roles it asked for, refused otherwise, closed on request,
when idle or with its connection; five failures within 600 s lock a port's openings until the lockout ends. -/
def Sys2Proof.Claims.sessions : Prop :=
  ∀ (s : State),
    (s.hostUp = true → ∀ w : Word,
      (w.getLsbD 0 = true → s.recovery = false → s.rd Reg.SEC_SES_STAT_HOST_STATE ≠ 1 → s.rd Reg.SEC_SES_STAT_HOST_STATE ≠ 2 →
        ∃ t, exec (.sesOpen w) s = .next t ∧ regsTo s t [(Reg.SEC_SES_STAT_HOST_STATE, if s.sec.host.locked then 4 else 1)] ∧
          t = { s with regs := t.regs }) ∧
      (w.getLsbD 1 = true → ∃ t, exec (.sesClose w) s = .next t ∧ t.rd Reg.SEC_SES_STAT_HOST_STATE = 0 ∧
        t.rd Reg.SEC_SES_STAT_HOST_ROLES = 0 ∧ t.sec = { s.sec with challenge := s.sec.challenge + 1 } ∧
        keepsRegs s t ([Reg.SEC_SES_STAT_HOST_STATE, Reg.SEC_SES_STAT_HOST_ROLES, Reg.SEC_SES_STAT_CRED] ++ logFlds) ∧ t.md = s.md)) ∧
    (s.hostAlive = true → s.rd Reg.SEC_SES_STAT_HOST_STATE = 1 →
      let fails := (s.sec.host.fails.filter fun x => decide (s.tm.opNs < x + 600000000000)).length + 1
      ∃ t, exec .sesVerified s = .next t ∧ t.sec.challenge = s.sec.challenge + 1 ∧
        (∀ i r, s.sesJudge = some (i, r) → t.rd Reg.SEC_SES_STAT_HOST_STATE = 2 ∧ t.rd Reg.SEC_SES_STAT_HOST_ROLES = r % 8 ∧
          t.rd Reg.SEC_SES_STAT_CRED = i % 64 ∧ t.sec.host.last = s.tm.opNs) ∧
        (s.sesJudge = none → t.rd Reg.SEC_SES_STAT_FAILS = up s Reg.SEC_SES_STAT_FAILS ∧
          (fails < 5 → t.rd Reg.SEC_SES_STAT_HOST_STATE = 3 ∧ t.sec.host.locked = false) ∧
          (5 ≤ fails → t.rd Reg.SEC_SES_STAT_HOST_STATE = 4 ∧ t.sec.host.locked = true))) ∧
    (∀ i r, s.sesJudge = some (i, r) → r ≤ 7 ∧ ∃ c, s.sec.policy.creds[i]? = some c ∧ r &&& c.roles = r) ∧
    (∀ p : CmdPort,
      (s.sesIsOpen p = true → (s.sesOf p).last + s.sec.policy.idle * 1000000000 ≤ s.tm.opNs + s.tbc →
        ∃ t, exec (.sessionIdleTimeout p) s = .next t ∧ t.sesIsOpen p = false ∧ t.md = s.md ∧
          t.sec = { s.sec with challenge := s.sec.challenge + 1 }) ∧
      ((s.sesOf p).locked = true → (s.sesOf p).fails.getLastD 0 + 600000000000 ≤ s.tm.opNs + s.tbc →
        ∃ t, exec (.openingLockoutEnd p) s = .next t ∧ (t.sesOf p).locked = false ∧
        (t.sesOf p).fails = [] ∧ keepsRegs s t [Reg.SEC_SES_STAT_HOST_STATE] ∧ t = { s with regs := t.regs, sec := t.sec })) ∧
    (s.hostAlive = true → s.rdb Reg.SEC_SES_STAT_SVC_OPEN = false → s.sec.svc.locked = false → ∀ d : List Byte,
      (∀ i c, s.sec.policy.find d .service = some i → s.sec.policy.creds[i]? = some c →
        ∃ t, exec (.svcTlsOpen d true) s = .next t ∧ t.rdb Reg.SEC_SES_STAT_SVC_OPEN = true ∧
          t.rd Reg.SEC_SES_STAT_SVC_ROLES = c.roles % 8 ∧ t.sec.svc.last = s.tm.opNs) ∧
      ∃ t, exec (.svcTlsOpen d false) s = .next t ∧ t.rdb Reg.SEC_SES_STAT_SVC_OPEN = false ∧
        t.rd Reg.SEC_SES_STAT_FAILS = up s Reg.SEC_SES_STAT_FAILS) ∧
    (s.rdb Reg.SEC_SES_STAT_SVC_OPEN = true → ∃ t, exec .svcTlsClose s = .next t ∧ t.rdb Reg.SEC_SES_STAT_SVC_OPEN = false ∧
      t.rd Reg.SEC_SES_STAT_SVC_ROLES = 0 ∧ t.sec = { s.sec with challenge := s.sec.challenge + 1 })

/-- R486, R503 and Table 17-9: the service port's staging buffer and commands, and the certificate, which a port gets where it can
reach. -/
def Sys2Proof.Claims.servicePortMessages : Prop :=
  ∀ (s : State),
    (s.svcUp = true →
      (∀ (off : Nat) (d : List Byte), 1 ≤ d.length → d.length ≤ 4096 → off + d.length ≤ stagingLen →
        ∃ t, exec (.svcStageWrite off d) s = .next t ∧ Mem.read t.sec.staging off d.length = d ∧
          (∀ a, a < off ∨ off + d.length ≤ a → Mem.get t.sec.staging a = Mem.get s.sec.staging a) ∧
          t = { s with sec := { s.sec with staging := t.sec.staging } }) ∧
      (∀ off n : Nat, 1 ≤ n → n ≤ 4096 → off + n ≤ stagingLen →
        exec (.svcStageRead off n) s = .next { s with hbr := { s.hbr with reply := Mem.read s.sec.staging off n } }) ∧
      (∀ (off : Nat) (d : List Byte), ¬ (1 ≤ d.length ∧ d.length ≤ 4096 ∧ off + d.length ≤ stagingLen) →
        exec (.svcStageWrite off d) s = .next (s.accErr0 1 false off)) ∧
      (∀ off n : Nat, ¬ (1 ≤ n ∧ n ≤ 4096 ∧ off + n ≤ stagingLen) →
        exec (.svcStageRead off n) s = .next (s.accErr0 1 false off)) ∧
      (∀ (code : Byte) (seq : BitVec 16) (w1 w2 w3 : Word) (ch : Nat), codeDefined code.toNat = true →
        seq.toNat = s.rd Reg.CMD_NEXT_SEQ_NEXT → s.rd Reg.CMD_LANE_WAITING < 256 →
        ∃ t, exec (.svcCommand (seq ++ (0 : BitVec 8) ++ code) w1 w2 w3 ch) s = .next t ∧
          t.lane.queue = s.lane.queue ++ [.record (if ch + 10000 < s.tbc then 1 else 2) seq code .service w1 w2 w3] ∧
          t.rd Reg.CMD_NEXT_SEQ_NEXT = (seq.toNat + 1) % 65536 ∧ t.hbr.svcWait = s.hbr.svcWait ++ [seq] ∧ t.md = s.md)) ∧
    (s.fromHold = true → ∀ (w1 w2 w3 : Word),
      let a := w1.toNat + w2.toNat * 4294967296
      let l := Config.cert.take 2048
      (s.hbr.busMaster = true → takesEffectAt .host .secCertGet 0xA8 s w1 w2 w3 fun s u => Mem.read u.hbr.hostMem a l.length = l ∧
        (∀ x, x < a ∨ a + l.length ≤ x → Mem.get u.hbr.hostMem x = Mem.get s.hbr.hostMem x) ∧
        u = { s with hbr := { s.hbr with hostMem := u.hbr.hostMem } }) ∧
      (a + 2048 ≤ stagingLen → takesEffectAt .service .secCertGet 0xA8 s w1 w2 w3 fun s u => Mem.read u.sec.staging a l.length = l ∧
        (∀ x, x < a ∨ a + l.length ≤ x → Mem.get u.sec.staging x = Mem.get s.sec.staging x) ∧
        u = { s with sec := { s.sec with staging := u.sec.staging } }))

/-- Both: `sessions`, and `servicePortMessages`. -/
def Obligations.SessionsAndServicePort : Prop := Claims.sessions ∧ Claims.servicePortMessages

/-- R491 to R493 and Table 17-11: a store is taken and, at its end, writes the copy into the devices whose read-back matched, or fails
with its reason; `CFG_START` names the start copy. -/
def Obligations.ConfigurationStores : Prop :=
  ∀ (s : State),
    (s.fromHold = true → s.sec.job = none → ∀ (port : CmdPort) (w1 w2 : Word) (copy tc len : Nat), copy < 2 → tc ≤ 4 → 1 ≤ len →
      len ≤ 29358080 → reachOk port (w1.toNat + w2.toNat * 4294967296) len = true →
      s.md.mode = .hold ∨ (copy ≠ s.sec.start ∧ s.copyHolds copy (·.run) = false ∧ s.copyHolds copy (·.uc) = false) →
      takesEffectAt port .cfgStore 0xA0 s w1 w2 (BitVec.ofNat 32 (copy * 2 ^ 31 + tc * 2 ^ 28 + len)) fun s u =>
        u.sec = { s.sec with job := some ⟨copy, port, w1.toNat + w2.toNat * 4294967296, len, tc, 1, none⟩ } ∧
        regsTo s u [(Reg.SEC_STORE_STATE, 1), (Reg.SEC_STORE_COPY, copy), (Reg.SEC_STORE_CH_OK, 0), (Reg.SEC_STORE_REASON, 0),
          (Reg.SEC_STORE_PAGES, 0)] ∧ u = { s with regs := u.regs, sec := u.sec }) ∧
    (∀ j, s.sec.job = some j → s.hostAlive = true → s.rpc.save = none → ∀ (rb : BitVec 3) (wOk : Bool),
      (∀ r, s.storeFetch j = .error r → ∃ t, exec (.cfgStoreDone rb wOk) s = .next t ∧ t.rd Reg.SEC_STORE_STATE = 6 ∧
        t.rd Reg.SEC_STORE_REASON = r % 16 ∧ t.sec = { s.sec with job := none }) ∧
      (∀ l, s.storeFetch j = .ok l → s.md.mode ≠ .hold →
        let ok := fun (c : Ch) => wOk && rb.getLsbD (Ch.num c) && s.good (Ch.num c + 1)
        ∃ t, exec (.cfgStoreDone rb wOk) s = .next t ∧ t.sec.job = none ∧ t.sec.start = s.sec.start ∧
          (2 ≤ (Ch.all.filter ok).length → t.rd Reg.SEC_STORE_STATE = 5 ∧ t.rd Reg.SEC_STORE_REASON = 0) ∧
          ((Ch.all.filter ok).length < 2 → t.rd Reg.SEC_STORE_STATE = 6 ∧ t.rd Reg.SEC_STORE_REASON = 14) ∧
          (j.copy < 2 → ∀ c, (ok c = true → t.plug c j.copy =
              { desc := descOf (8 * (j.tcode + 1)) l.length (Config.sha384 l), body := l, errs := [] }) ∧
            (ok c = false → t.plug c j.copy = PlugCopy.erased) ∧ t.plug c (1 - j.copy) = s.plug c (1 - j.copy)))) ∧
    (s.fromHold = true → ∀ (w1 w2 w3 : Word), 2 ≤ (s.copyValidIn (w1.toNat % 2)).length →
      takesEffect .cfgStart 0xA1 s w1 w2 w3 fun s u => u.sec = { s.sec with start := w1.toNat % 2 } ∧
        u.rd Reg.CMD_PRG_STATE_START_COPY = w1.toNat % 2 ∧ keepsRegs s u prgFlds ∧ u = { s with regs := u.regs, sec := u.sec })

/-- R496 to R498 and R494: a schedule for the next epoch is loaded, its commit set and cancelled; a channel is reset onto other
firmware. -/
def Sys2Proof.Claims.schedulesAndFirmware : Prop :=
  ∀ (s : State) (w1 w2 w3 : Word),
    (s.fromStartup = true →
      (s.rdb Reg.SEC_STATUS_FW_MIXED = false → s.rd Reg.SEC_EPOCH_STATE ≠ 2 →
        let o := s.openAny (w1.toNat % 2)
        (o.reason ≠ 0 → takesEffect .schLoad 0xA2 s w1 w2 w3 fun s u => u.rd Reg.SEC_EPOCH_STATE = 6 ∧
          u.rd Reg.SEC_EPOCH_REASON = o.reason % 16 ∧ u.rdb Reg.PTN_STATUS_NEXT_LOADED = false ∧ u.ptn.sched = s.ptn.sched) ∧
        (∀ e m cfg ep, o.reason = 0 → o.sec 3 = some e → Config.parseSched e.1 e.2 (o.text 4) = some (m, cfg, ep) → s.schedFits m cfg = true →
          takesEffect .schLoad 0xA2 s w1 w2 w3 fun s u =>
            regsTo s u [(Reg.PTN_STATUS_NEXT_LOADED, 1), (Reg.SEC_EPOCH_STATE, 1), (Reg.SEC_EPOCH_REASON, 0)] ∧
            u = { s with regs := u.regs, ptn := { s.ptn with nextSched := m, nextNet := cfg } })) ∧
      (s.rdb Reg.SEC_STATUS_FW_MIXED = false → s.timeValid = true → s.rd Reg.SEC_EPOCH_STATE = 1 ∨ s.rd Reg.SEC_EPOCH_STATE = 2 →
        let x := w1.toNat + w2.toNat * 4294967296
        let p := s.tbc * s.mx
        x % p = 0 → x % s.ptn.nextNet.period = 0 → s.tm.tcNs + 2 * p ≤ x → x ≤ s.tm.tcNs + 86400000000000 → s.tmu.epoch < w3.toNat →
        takesEffect .schCommit 0xA3 s w1 w2 w3 fun s u =>
          regsTo s u [(Reg.SEC_EPOCH_STATE, 2), (Reg.SEC_EPOCH_NEXT_EPOCH, w3.toNat % 65536), (Reg.SEC_EPOCH_TGT_LO_T_LO, w1.toNat),
            (Reg.SEC_EPOCH_TGT_HI_T_HI, w2.toNat)] ∧
          u = { s with regs := u.regs, sec := { s.sec with epochNext := w3.toNat, epochTgt := x } }) ∧
      (s.rd Reg.SEC_EPOCH_STATE = 2 → takesEffect .schCancel 0xA4 s w1 w2 w3 fun s u =>
        regsTo s u [(Reg.SEC_EPOCH_STATE, 1), (Reg.SEC_EPOCH_TGT_LO_T_LO, 0), (Reg.SEC_EPOCH_TGT_HI_T_HI, 0)] ∧
          u = { s with regs := u.regs })) ∧
    (∀ (c : Ch) (copy : Nat), copy < 2 → s.md.mode = .run3 ∨ s.md.mode = .run2 ∨ (s.md.mode = .maint ∧ s.md.debug = false) →
      s.voters.length = 3 → s.copyValid c copy = true → s.copyBank c copy ≠ none → bankId (s.copyBank c copy) = bankId s.runBank →
      takesEffect .fwActivate 0xA5 s (BitVec.ofNat 32 (Ch.num c + copy * 256)) w2 w3 fun s u =>
        u.ch c = { Chan.init with bootCopy := some copy } ∧ (∀ d, d ≠ c → u.ch d = s.ch d) ∧
          u.rdb (Reg.RPC_CAUSE_CH_FW (Ch.num c)) = true ∧ natBit (u.rd Reg.RPC_RESET_C) (Ch.num c) = true ∧ (c, 0x0B) ∈ u.md.exclReq)

/-- R482 to R485: the rollback counter rises to the version of the start copy and no bit of one-time-programmable storage is ever
cleared; a root is revoked by an order that another live root signed; a fleet key enters a slot that no valid copy names. -/
def Sys2Proof.Claims.keysAndRollback : Prop :=
  ∀ (s : State) (w1 w2 w3 : Word),
    (s.md.mode = .maint →
      (takesEffect .secRollback 0xA6 s w1 w2 w3 fun s u =>
        (∀ i < 64, u.otpVal.roll.getLsbD i = true ↔ s.otpVal.roll.getLsbD i = true ∨ i < min 64 (leAt (s.copyBytes s.sec.start) 20 4)) ∧
          u.otpVal.set = s.otpVal.set ∧ u.otpVal.revoked = s.otpVal.revoked ∧ u.sec.fleet = s.sec.fleet ∧ u.sec.plug = s.sec.plug) ∧
      (∀ (port : CmdPort) (l : List Byte),
        let a := w1.toNat + w2.toNat * 4294967296
        let k := leAt l 4 1
        let sig := bytesAt l 8 sigLen
        reachOk port a (8 + sigLen) = true → s.fetchMem port a (8 + sigLen) = some l → leAt l 0 4 = 0x5245564B → k ≤ 2 →
        allZero (bytesAt l 5 3) = true → leAt sig 0 1 ≠ k → s.signedBy sig (l.take 448) = true →
        (∃ j < 3, j ≠ k ∧ s.rootLive j = true) → s.copyRoot 0 ≠ some k → s.copyRoot 1 ≠ some k →
        takesEffectAt port .secRevoke 0xA7 s w1 w2 w3 fun s u => u.rootLive k = false ∧
          (∀ j, j ≠ k → u.rootLive j = s.rootLive j) ∧ u.otpVal.roll = s.otpVal.roll ∧ u.sec.fleet = s.sec.fleet)) ∧
    (s.md.mode = .maint ∨ s.md.mode = .hold → ∀ (port : CmdPort) (l key : List Byte),
      let a := w1.toNat + w2.toNat * 4294967296
      let k := leAt l 4 1
      reachOk port a (400 + sigLen) = true → s.fetchMem port a (400 + sigLen) = some l → leAt l 0 4 = 0x4B455931 → k ≤ 1 →
      allZero (bytesAt l 5 3) = true → allZero (bytesAt l 12 4) = true → s.signedBy (bytesAt l 400 sigLen) (l.take 840) = true →
      Config.sealKey (bytesAt l 16 384) = some key → s.slotsNamed.contains k = false →
      takesEffectAt port .secKeyImport 0xA9 s w1 w2 w3 fun s u => u.fleetKey k = some key ∧
        (∀ j, j ≠ k → u.fleetKey j = s.fleetKey j) ∧ u.sec.otp = s.sec.otp ∧ u.sec.plug = s.sec.plug)

/-- Both: `schedulesAndFirmware`, and `keysAndRollback`. -/
def Obligations.SchedulesFirmwareAndKeys : Prop := Claims.schedulesAndFirmware ∧ Claims.keysAndRollback

/-! ### The cycle -/

/-- Only channel `c`, and there only what `f` puts in place. -/
def Sys2Proof.Claims.onlyCh (s t : State) (c : Ch) (f : Chan → Chan) : Prop :=
  t.ch c = f (s.ch c) ∧ (∀ d, d ≠ c → t.ch d = s.ch d) ∧ t = { s with chs := t.chs }

/-- R271 and R205: the sealed switches as reread, a change of their majority reported and nothing else changed; and one hour more of
proof age in every channel, with the warning above the limit. -/
def Sys2Proof.Claims.sealedSwitchesAndProofAge : Prop :=
  ∀ (s : State),
    (∀ r : Per3 (BitVec 22),
      let m := maj3 r.a r.b r.c
      ∃ t, exec (.switchReread r) s = .next t ∧
        t = { s with regs := t.regs, rcd := t.rcd, sio := { s.sio with swRead := r, swLast := m } } ∧
        (m = s.sio.swLast → t.regs = s.regs ∧ t.rcd = s.rcd) ∧
        (m ≠ s.sio.swLast → t.rdb Reg.SIO_SWITCH_CHANGED = true ∧ keepsRegs s t (Reg.SIO_SWITCH_CHANGED :: logFlds) ∧
          (s.pdhGood = true → s.rcd.queue.length < 2048 → ∃ e, t.rcd.queue = s.rcd.queue ++ [e] ∧ e.sev = 5))) ∧
    (s.down = false → ∃ t, exec .proofHour s = .next t ∧
      t = { s with regs := t.regs, rcd := t.rcd, md := { s.md with proofOver := t.md.proofOver } } ∧
      keepsRegs s t ([Reg.VOT_PROOF_AGE_HOURS 0, Reg.VOT_PROOF_AGE_HOURS 1, Reg.VOT_PROOF_AGE_HOURS 2, Reg.VOT_PROOF_WARN_WARN] ++ logFlds) ∧
      ∀ n < 3, t.rd (Reg.VOT_PROOF_AGE_HOURS n) = up s (Reg.VOT_PROOF_AGE_HOURS n) ∧
        FMap.get 0 t.md.proofOver n = (if s.rd Reg.VOT_CFG_PROOF_DAYS * 24 < up s (Reg.VOT_PROOF_AGE_HOURS n) then
          FMap.get 0 s.md.proofOver n + 1 else 0) ∧
        natBit (t.rd Reg.VOT_PROOF_WARN_WARN) n = (natBit (s.rd Reg.VOT_PROOF_WARN_WARN) n ||
          decide (s.rd Reg.VOT_CFG_PROOF_DAYS * 24 < t.rd (Reg.VOT_PROOF_AGE_HOURS n))))

/-- R42, R47, R48, R525, R558: at a strobe network time advances to the next whole multiple of `T_bc` (the edge's strobe) or the
count by 1 (the RPC's), operating time by `T_bc`, what belongs to one cycle only is cleared, and with outputs not permitted no output that is
not held has its high side closed. -/
def Obligations.StrobesAdvanceTime : Prop :=
  ∀ (s : State), s.down = false → s.md.mode ≠ .boot →
    let left := fun (t : State) => t.md.taken = false ∧ t.md.decided = false ∧ t.md.voted = false ∧ (t.down = false → t.md.ranCycle = false) ∧
      t.tm.opNs = s.tm.opNs + (if s.rpc.inRange then s.tbc else 0) ∧ t.tm.rpcStrobe = s.tm.rpcStrobe ∧ t.tm.started = true ∧
      (t.down = false → t.outPermit = false → ∀ o < 12, t.rdb (Reg.SIO_OUT_STAT_HOLD o) = false →
        t.rdb (Reg.SIO_OUT_STAT_HS o) = false ∧ t.energised o = false)
    (s.tm.rpcStrobe = false → ∃ t, exec .tcStrobe s = .next t ∧ left t ∧ t.tm.tcNs = (s.tm.tcNs / s.tbc + 1) * s.tbc ∧
      t.tm.cyc = s.tm.tcNs / s.tbc + 1) ∧
    (s.tm.rpcStrobe = true → ∃ t, exec .rpcTcStrobe s = .next t ∧ left t ∧ t.tm.cyc = (if s.tm.started then s.tm.cyc + 1 else 0) ∧
      t.tm.tcNs = t.tm.cyc * s.tbc)

/-- R52 to R55: a record that a peer sent for this cycle is kept as the peer's sample, one of a wrong length or checksum is discarded;
when they are due, each channel agrees every bit on two samples of 1, the samples excluded under R54 counting as absent. -/
def Obligations.InputRecordsAndAgreement : Prop :=
  ∀ (s : State), s.agrees = true → s.md.taken = false →
    (∀ (rx tx : Ch), rx ≠ tx → s.exchanging rx = true →
      (∀ v : InVals, ∃ t, exec (.inputRecord rx tx (v.record s.tm.cyc tx)) s = .next t ∧
        FMap.get none (t.ch rx).inRecs (Ch.num tx) = some ⟨BitVec.ofNat 16 s.tm.cyc, Ch.num tx, v⟩ ∧
        (∀ k, k ≠ Ch.num tx → FMap.get none (t.ch rx).inRecs k = FMap.get none (s.ch rx).inRecs k) ∧
        onlyCh s t rx fun h => { h with inRecs := (t.ch rx).inRecs }) ∧
      (∀ b : List Byte, b.length ≠ 64 ∨ wordLE (crc32c (b.take 60)) ≠ b.drop 60 → exec (.inputRecord rx tx b) s = .next s)) ∧
    ∃ t, exec .inputRecordDue s = .next t ∧ t.md.taken = true ∧
      (∀ rx : Ch, s.exchanging rx = true →
        (t.ch rx).agreed = InVals.agree (s.compared.filterMap fun tx =>
          ((if rx = tx then some (s.ch rx).sample else (FMap.get none (s.ch rx).inRecs (Ch.num tx)).map fun r => r.vals)).map fun v =>
            v.without (t.rd (Reg.TMU_CYC_ISTG_EXCL (Ch.num tx))))) ∧
      (∀ i < 24, t.rdb (Reg.SIO_IN_STAT_VALUE i) = (InVals.agree (s.voters.map fun c => (t.ch c).agreed)).si.getLsbD i) ∧
      (s.executes = true → s.md.halted = false → s.md.commitDue = false → ¬ (s.md.role = .standby ∧ s.twin = true) →
        t.md.loadDone = true ∧ t.md.cycForces = s.forces ∧
        ∀ c ∈ s.voters, (t.ch c).ccuStop = false → (t.ch c).lanes = [] ∧ t.rd (Reg.LEN_STATUS_PHASE (Ch.num c)) = 0 ∧
          t.rd (Reg.LEN_STATUS_RUN (Ch.num c)) = (if s.md.debug = true ∧ s.md.dbgHaltReq = some 0 then 3 else 1))

/-- R62, R99, R173, R199: at the execution limit a channel that has completed `END` sends its signature record, with its poison
flag, and one that has not has overrun and is excluded; a debug step that exceeds its clocks overruns likewise. -/
def Obligations.ExecutionLimitAndOverrun : Prop :=
  ∀ (s : State) (c : Ch),
    let n := Ch.num c
    let d := s.rd Reg.VOT_DBG_STATE
    let took := lanes16.any fun l => ((s.ch c).lane l).psn
    let overran := fun (t : State) => (t.ch c).ovr = true ∧ t.rd (Reg.LEN_STATUS_RUN n) = 4 ∧ natBit (t.rd Reg.TMU_CYC_OVR_FLAG) n = true ∧
      (c, 0x09) ∈ t.md.exclReq ∧ ∃ r, t.ownSig c = some r ∧ r.sender = c ∧ r.ovr = true ∧ r.psn = ((s.ch c).repPsn || took) ∧
        (took = true → (c, 0x0A) ∈ t.md.exclReq)
    (s.md.loadDone = false → exec .executionLimit s = .next s) ∧
    (s.md.loadDone = true → c ∈ s.voters → s.ownSig c = none → (s.ch c).ccuStop = false →
      ∃ t, exec .executionLimit s = .next t ∧
        (s.rd (Reg.LEN_STATUS_RUN n) = 2 →
          (∃ r, t.ownSig c = some r ∧ r.k16 = BitVec.ofNat 16 s.progCyc ∧ r.sender = c ∧ r.acc = (t.ch c).acc ∧
            r.ovr = (s.ch c).ovr ∧ r.psn = ((s.ch c).repPsn || took) ∧ r.crcOk = true ∧
            r.raised = (s.ch c).raised.map fun a => BitVec.ofNat 10 a) ∧
          (took = true → (c, 0x0A) ∈ t.md.exclReq)) ∧
        (s.rd (Reg.LEN_STATUS_RUN n) = 1 → ¬ (s.md.debug = true ∧ (d = 4 ∨ d = 5)) → overran t)) ∧
    (s.md.debug = true → d = 2 ∨ d = 4 ∨ d = 5 → s.inVote c = true → s.rd (Reg.LEN_STATUS_RUN n) = 1 →
      ∃ t, exec (.debugStepOverrun c) s = .next t ∧ overran t)

/-- R173, R174 and Table 6-5: a signature record of this cycle is kept; when they are due each channel that ended its traverse forms its
verdict, which is NONE where a signature is missing, AGREE where all are equal, the odd channel of three, DIFFER otherwise, and of a comparator
that is stuck the one verdict it is stuck at. -/
def Obligations.SignaturesAndVerdicts : Prop :=
  ∀ (s : State), s.md.loadDone = true → s.md.decided = false →
    (∀ (rx tx : Ch) (x : SigRec), s.md.sigDue = false → rx ≠ tx → s.exchanging rx = true → x.crcOk = true → x.sender = tx → x.k16.toNat = s.progCyc % 65536 →
      ∃ t, exec (.signatureRecord rx tx x) s = .next t ∧ FMap.get none (t.ch rx).sigRecs (Ch.num tx) = some x ∧
        (∀ k, k ≠ Ch.num tx → FMap.get none (t.ch rx).sigRecs k = FMap.get none (s.ch rx).sigRecs k) ∧
        onlyCh s t rx fun h => { h with sigRecs := (t.ch rx).sigRecs }) ∧
    (∀ (rx tx : Ch) (x : SigRec), x.crcOk = false → exec (.signatureRecord rx tx x) s = .next s) ∧
    (s.md.halted = false → s.compares = true → ∃ t, exec .signatureRecordDue s = .next t ∧
      t.md = { s.md with sigDue := true } ∧
      keepsRegs s t [Reg.VOT_SIG_STATUS_ABSENT] ∧
      ∀ c ∈ s.inCmp, s.exchanging c = true → (s.ownSig c).isSome = true →
        (∀ v, (s.sio.cells.get c).verd = some v → (t.ch c).verdict = some v) ∧ ((s.sio.cells.get c).verd = none →
        ((∃ x ∈ s.inCmp, s.sigAt c x = none) → (t.ch c).verdict = some 5) ∧
        (∀ v, (∀ x ∈ s.inCmp, s.sigAt c x = some v) → (t.ch c).verdict = some 0) ∧
        (∀ (x y z : Ch) (v w : Word64), x ≠ y → y ≠ z → x ≠ z → x ∈ s.inCmp → y ∈ s.inCmp → z ∈ s.inCmp → v ≠ w →
          s.sigAt c x = some v → s.sigAt c y = some v → s.sigAt c z = some w → (t.ch c).verdict = some (1 + Ch.num z)) ∧
        (∀ (x y z : Ch) (u v w : Word64), x ≠ y → y ≠ z → x ≠ z → x ∈ s.inCmp → y ∈ s.inCmp → z ∈ s.inCmp → u ≠ v → v ≠ w → u ≠ w →
          s.sigAt c x = some u → s.sigAt c y = some v → s.sigAt c z = some w → (t.ch c).verdict = some 4) ∧
        (∀ (x y : Ch) (v w : Word64), s.inCmp = [x, y] → v ≠ w → s.sigAt c x = some v → s.sigAt c y = some w →
          (t.ch c).verdict = some 4)))

/-- R125, R175 and R176: the decision of a comparison. Of three channels two verdicts decide: AGREE excludes at most the third, an odd
channel named twice is excluded, DIFFER twice leads to SAFE; of two, a DIFFER leads to SAFE and AGREE to nothing. An assertion with effect
SAFE that two channels raise leads to SAFE. Two sound decision cells of the majority suffice. -/
def Obligations.DecisionsAndAssertions : Prop :=
  ∀ (s : State), s.md.loadDone = true → s.md.halted = false → s.md.decided = false →
    let shows := fun (t : State) (d : Nat) (ex : List Ch) => t.rd Reg.VOT_SIG_STATUS_DECISION = d ∧ t.rd Reg.VOT_SIG_STATUS_EXCL = Ch.mask ex ∧
      (∀ x ∈ ex, (x, 0x08) ∈ t.md.exclReq) ∧ t.rd Reg.VOT_SIG_STATUS_SEQ = (s.rd Reg.VOT_SIG_STATUS_SEQ + 1) % 256 ∧
      (d = 2 → t.md.safeStage = true ∧ (0x0D, Ch.mask s.inCmp) ∈ t.md.safeReq)
    let sound := ∃ a ∈ s.cellsIn, ∃ b ∈ s.cellsIn, a ≠ b ∧ (s.sio.cells.get a).dec = none ∧ (s.sio.cells.get b).dec = none
    ∃ t, exec .decision s = .next t ∧ t.md.decided = true ∧
      (s.compares = false → t.rd Reg.VOT_SIG_STATUS_SEQ = s.rd Reg.VOT_SIG_STATUS_SEQ) ∧
      (s.compares = true → sound → s.inCmp = Ch.all → s.absentAll Ch.all = [] → ∀ x y z : Ch, x ≠ y → y ≠ z → x ≠ z →
        (s.verdictIn x = 0 → s.verdictIn y = 0 → s.verdictIn z = 0 ∨ s.verdictIn z = 5 → shows t 0 []) ∧
        (s.verdictIn x = 0 → s.verdictIn y = 0 → s.verdictIn z ≠ 0 → s.verdictIn z ≠ 5 → shows t 1 [z]) ∧
        (∀ o : Ch, s.verdictIn x = 1 + Ch.num o → s.verdictIn y = 1 + Ch.num o → shows t 1 [o]) ∧
        (s.verdictIn x = 4 → s.verdictIn y = 4 → shows t 2 [])) ∧
      (s.compares = true → sound → ∀ x y : Ch, s.inCmp = [x, y] →
        (s.verdictIn x = 4 ∨ s.verdictIn y = 4 → shows t 2 []) ∧
        (s.verdictIn x = 0 → s.verdictIn y = 0 → shows t 0 [] ∧ t.md.noneStreak = 0 ∧ t.md.travDone = true)) ∧
      (∀ (a : Nat) (b : Bank) (x y : Ch), x ≠ y → s.runBank = some b → b.assertEff a = some .safe → (∀ c : Ch, c = x ∨ c = y →
          c ∈ s.compared ∧ s.inVote c = true ∧ (s.ownSig c).isSome = true ∧ a ∈ (s.ch c).raised) →
        t.md.assertSafe = true ∧ t.md.assertStage = true ∧ ∃ m, (0x0F, m) ∈ t.md.safeReq)

/-- R178, R179 and R247: a safety output is staged on only where two channels with valid contributions hold its command bit at 1, and none
in a cycle that leads to SAFE; two sound voter cells of the majority suffice. -/
def Obligations.OutputsAreVoted : Prop :=
  ∀ (s : State), s.md.taken = true → s.md.voted = false → s.fromStartup = true → s.md.wHold = 0 → s.down = false →
    (∀ c ∈ s.contributors, FMap.get 0 (s.ch c).errs (Miu.cwMaster 0x20) = 0) →
    ∃ t, exec .outputVote s = .next t ∧ t.md.voted = true ∧ ∀ o < 12,
      let sound := fun (c : Ch) => (s.sio.cells.get c).hi.getLsbD o = false ∧ (s.sio.cells.get c).lo.getLsbD o = false
      (∃ a ∈ s.cellsIn, ∃ b ∈ s.cellsIn, a ≠ b ∧ sound a ∧ sound b) →
      let yes := s.contributors.filter fun c => FMap.get false (s.ch c).pmap (Miu.pkey (Miu.cwMaster 0x20) 0x20) = false &&
        (FMap.get 0 (s.ch c).img 0x20).getLsbD (s.followed o)
      let on := decide (2 ≤ yes.length) && !(s.md.safeStage || s.md.assertStage || s.md.halted)
      (t.out o).stHs = on ∧ (t.out o).stLs = on ∧
        (s.rdb (Reg.SIO_OUT_CFG_TIMED o) = false → (t.out o).target = 0 ∧ (t.out o).targetOk = true)

/-- R212, R217, R219 and R221: a scrub slot checks the codewords of its pace from where the last one ended, a pass ends with the last
codeword, and a codeword with one wrong bit is corrected in place and counted. -/
def Sys2Proof.Claims.scrubSlots : Prop :=
  ∀ (c : Ch) (s : State), s.booted c = true → s.scrubPaused c = false → s.down = false → (s.ch c).wbq = [] →
    let n := Ch.num c
    let lo := s.rd (Reg.MIU_SCRUB_POS_NEXT n)
    let hi := Min.min (lo + s.scrubPace n) 0x170000
    ((s.ch c).badCws lo (hi - lo) = [] →
      (hi < 0x170000 → ∃ t, exec (.scrubSlot c) s = .next t ∧
        regsTo s t [(Reg.MIU_SCRUB_PACE n, s.scrubPace n), (Reg.MIU_SCRUB_POS_NEXT n, hi)] ∧ t = { s with regs := t.regs }) ∧
      (hi = 0x170000 → ∃ t, exec (.scrubSlot c) s = .next t ∧
        regsTo s t [(Reg.MIU_SCRUB_PACE n, s.scrubPace n), (Reg.MIU_SCRUB_POS_NEXT n, 0),
          (Reg.MIU_SCRUB_PASSES n, up s (Reg.MIU_SCRUB_PASSES n))] ∧ (t.ch c).ceRows = [] ∧
        t = { s with regs := t.regs, chs := t.chs })) ∧
    (∀ cw b, (s.ch c).badCws lo (hi - lo) = [cw] → Miu.isMap (Miu.region cw) = true →
      Hsiao.outcome (FMap.get 0 (s.ch c).errs cw) = .corrected b → Miu.residual (FMap.get 0 (s.ch c).errs cw) (.corrected b) = 0 →
      ∃ t, exec (.scrubSlot c) s = .next t ∧ FMap.get 0 (t.ch c).errs cw = 0 ∧
        (∀ k, k ≠ cw → FMap.get 0 (t.ch c).errs k = FMap.get 0 (s.ch c).errs k) ∧
        t.rd (Reg.MIU_CE_CE_SCRUB n) = up s (Reg.MIU_CE_CE_SCRUB n) ∧ t.rdb (Reg.MIU_EVENT_CE n) = true ∧
        (t.ch c).img = (s.ch c).img ∧ ∀ d, d ≠ c → t.ch d = s.ch d)

/-- Both: `sealedSwitchesAndProofAge`, and `scrubSlots`. -/
def Obligations.SwitchesProofAgeAndScrubbing : Prop := Claims.sealedSwitchesAndProofAge ∧ Claims.scrubSlots

/-- R154, R159 and R161: the commit due in a cycle puts every armed bank of the agreed identity in the place of the running one, which
stays in the undercoat, verified unless its store holds a poisoned codeword; one that does not proceed leaves every bank where it is and says so. -/
def Sys2Proof.Claims.commitAtItsTarget : Prop :=
  ∀ (s : State), s.md.commitDue = true → s.md.taken = true → s.down = false → s.md.role ≠ .standby → s.lane.queue = [] →
    (∀ id, s.armedId = some id → s.commitMode = true → s.commitTbc = true → s.loadsNow = true →
      ∃ t, exec .commitAtTarget s = .next t ∧ t.rd Reg.CMD_PRG_COMMIT_RESULT = 1 ∧ t.rdb Reg.CMD_PRG_STATE_COMMIT_PENDING = false ∧
        t.rdb Reg.CMD_PRG_STATE_SWITCH_BACK = true ∧ t.md.commitDue = false ∧ t.md.loadDone = true ∧
        (∀ c ∈ s.voters, (t.ch c).st = .vote ∧
          (c ∈ s.ucWith id → (t.ch c).run = (s.ch c).uc ∧ (t.ch c).uc = (s.ch c).run ∧
            t.ucState c = (if s.bankPoisoned c (s.physRun c) then 5 else 3) ∧ t.physRun c = 1 - s.physRun c) ∧
          (c ∉ s.ucWith id → (t.ch c).run = (s.ch c).run ∧ (t.ch c).uc = (s.ch c).uc)) ∧
        (∀ c, c ∉ s.voters → (t.ch c).run = (s.ch c).run)) ∧
    (s.armedId = none ∨ s.commitMode = false ∨ s.commitTbc = false →
      ∃ t, exec .commitAtTarget s = .next t ∧ t.rd Reg.CMD_PRG_COMMIT_RESULT = (if s.commitMode = true ∧ s.commitTbc = false then 4 else 2) ∧
        t.rdb Reg.CMD_PRG_STATE_COMMIT_PENDING = false ∧ t.md.commitDue = false ∧
        ∀ c, (t.ch c).run = (s.ch c).run ∧ (t.ch c).uc = (s.ch c).uc ∧ t.ucState c = s.ucState c)

/-- R61, R497 and R498: at its target the next schedule comes into force with its configuration, its codes and its epoch; one whose
`T_bc` does not fit the running bank is turned away and the schedule in force stays. -/
def Sys2Proof.Claims.epochSwitchAtItsTarget : Prop :=
  ∀ (s : State), s.rd Reg.SEC_EPOCH_STATE = 2 → s.tm.tcNs = s.sec.epochTgt → s.timeValid = true → s.md.taken = false → s.down = false →
    s.md.commitDue = false → ∀ b, s.runBank = some b →
    (b.tbc = s.ptn.nextNet.tbcCode → ∃ t, exec .epochSwitch s = .next t ∧ t.ptn.sched = s.ptn.nextSched ∧ t.ptn.net = s.ptn.nextNet ∧
      t.ptn.nextSched = [] ∧ t.rd Reg.SEC_EPOCH_STATE = 3 ∧ t.rdb Reg.PTN_STATUS_NEXT_LOADED = false ∧ t.tmu.epoch = s.sec.epochNext ∧
      t.rd Reg.TMU_CYC_CFG_TBC_CODE = s.ptn.nextNet.tbcCode % 16 ∧ t.rd Reg.TMU_CYC_CFG_M_CODE = s.ptn.nextNet.mCode % 8 ∧
      t.tm.tcNs = s.tm.tcNs ∧ t.tm.cyc = s.tm.tcNs / t.tbc ∧ t.md = s.md ∧ t.chs = s.chs) ∧
    (b.tbc ≠ s.ptn.nextNet.tbcCode → ∃ t, exec .epochSwitch s = .next t ∧ t.rd Reg.SEC_EPOCH_STATE = 5 ∧
      keepsRegs s t ([Reg.SEC_EPOCH_STATE, Reg.SEC_EPOCH_TGT_LO_T_LO, Reg.SEC_EPOCH_TGT_HI_T_HI] ++ logFlds) ∧
      t = { s with regs := t.regs, rcd := t.rcd })

/-- Both: `commitAtItsTarget`, and `epochSwitchAtItsTarget`. -/
def Obligations.CommitsAndEpochSwitches : Prop := Claims.commitAtItsTarget ∧ Claims.epochSwitchAtItsTarget

/-! ### Resynchronisation of an excluded channel -/

/-- An attempt of channel `c` has failed with a code (R190). -/
def Sys2Proof.Claims.failedWith (s t : State) (c : Ch) (code : Nat) : Prop :=
  t.rd Reg.VOT_RESYNC_FAIL_REASON = code ∧ t.rd Reg.VOT_RESYNC_FAIL_CHANNEL = Ch.num c ∧
    t.rd Reg.VOT_RESYNC_FAIL_COUNT = up s Reg.VOT_RESYNC_FAIL_COUNT ∧ t.rd Reg.VOT_RESYNC_STAGE = 6 ∧ ∀ d, d ≠ c → t.ch d = s.ch d

/-- R182, R183, R185, R187, R189 to R191: the two channels in the vote start their transfers; a block with good framing is kept in its
sender's copy, and a channel that waits for none is sent its snapshots all the same; one copy that passes its checks is accepted, none or two that differ fail the attempt; so does the timeout. -/
def Sys2Proof.Claims.snapshotTransfer : Prop :=
  ∀ (s : State) (rx : Ch) (a : Attempt), s.down = false → (s.ch rx).attempt = some a →
    ((s.ch rx).waiting = true → s.resyncMode = true → s.voters.length = 2 → s.voters.any s.completed = true →
      ∃ t, exec (.snapshotSend rx) s = .next t ∧ t.rd Reg.VOT_RESYNC_STAGE = 2 ∧ t.rd Reg.VOT_RESYNC_CHANNEL = Ch.num rx ∧
        t.rd Reg.VOT_RESYNC_CHASED = 0 ∧
        t.rd Reg.VOT_RESYNC_ATTEMPTS = (if a.startOp = 0 then up s Reg.VOT_RESYNC_ATTEMPTS else s.rd Reg.VOT_RESYNC_ATTEMPTS) ∧
        t.ch rx = { s.ch rx with
          st := .resync
          attempt := some { a with
            startOp := if a.startOp = 0 then s.tm.opNs + 1 else a.startOp
            startCyc := if a.startOp = 0 then s.tm.cyc else a.startCyc
            copies := []
            nextK := s.tm.cyc + 1 } } ∧
        ∀ c ∈ s.voters, (t.ch c).sendPsn = s.sendBad c) ∧
    ((s.ch rx).served = true → (s.ch rx).waiting = false → s.resyncMode = true → s.voters.length = 2 → s.voters.any s.completed = true →
      ∃ t, exec (.snapshotSend rx) s = .next t ∧ t.ch rx = s.ch rx ∧ t.rd Reg.VOT_RESYNC_STAGE = s.rd Reg.VOT_RESYNC_STAGE ∧
        ∀ c ∈ s.voters, (t.ch c).sendPsn = s.sendBad c) ∧
    ((s.ch rx).st = .resync → (s.ch rx).waiting = true →
      (∀ (tx : Ch) (idx : Nat) (bad : Bool) (b : List Byte), rx ≠ tx → s.inVote tx = true → idx < 562 → b.length = 256 →
        exec (.snapshotBlock rx tx idx false bad b) s = .next s ∧
        ∃ t a', exec (.snapshotBlock rx tx idx true bad b) s = .next t ∧ (t.ch rx).attempt = some a' ∧ a' = { a with copies := a'.copies } ∧
          (∃ x ∈ a'.copies, x.sender = tx ∧ FMap.get [] x.blocks idx = b ∧ (idx = 561 → bad = true → x.bad = true)) ∧
          (∀ x ∈ a'.copies, x.sender ≠ tx → x ∈ a.copies) ∧ ∀ d, d ≠ rx → t.ch d = s.ch d) ∧
      (0 < a.startOp →
        (∀ x l, a.copies = [x] → x.passes = some l → bankId (s.ch rx).run = Snap.runId l → s.runPoisoned rx = false →
          ∃ t a', exec (.snapshotAccept rx) s = .next t ∧ t.rd Reg.VOT_RESYNC_STAGE = 3 ∧ (t.ch rx).attempt = some a' ∧ a'.accepted = true ∧
            a'.nextK = Snap.cycle l + 1 ∧ a'.chased = 0 ∧ (t.ch rx).acc = Snap.acc l ∧ (t.ch rx).st = .resync) ∧
        (a.copies = [] → ∃ t, exec (.snapshotAccept rx) s = .next t ∧ failedWith s t rx 1) ∧
        (∀ x y k l, a.copies = [x, y] → x.passes = some k → y.passes = some l → Snap.same k l = false →
          ∃ t, exec (.snapshotAccept rx) s = .next t ∧ failedWith s t rx 2) ∧
        (a.startCyc + 16 ≤ s.tm.cyc → s.md.halted = false → s.md.rejoinReq.contains rx = false →
          ∃ t, exec (.resyncTimeout rx) s = .next t ∧ failedWith s t rx 4)))

/-- R185 to R187 and R189: a chase cycle re-executes a kept cycle; one whose accumulator differs fails the attempt, and the current one
that started by the latest-start point rejoins at the next Tc; a controller that takes poison stops there. A reloaded bank that passes its
check sends the channel back to a new snapshot, one that does not retires it. -/
def Sys2Proof.Claims.chaseAndReload : Prop :=
  ∀ (s : State) (rx : Ch), s.down = false →
    (∀ (a : Attempt) (x : Kept) (startNs : Nat), s.standby = false → (s.ch rx).st = .resync → (s.ch rx).attempt = some a → a.accepted = true →
      (s.ch rx).ccuStop = false →
      (s.ch rx).kept.find? (fun y => y.k = a.nextK) = some x →
      let u := (s.chase rx x).2
      let inTime := decide (x.k = s.tm.cyc) && decide (startNs ≤ s.latestStart (s.chase rx x).1)
      ∃ t, exec (.chaseCycle rx startNs) s = .next t ∧
        ((u.ch rx).ccuStop = true → t = u) ∧
        ((u.ch rx).ccuStop = false → some (u.ch rx).acc = x.acc →
          (t.ch rx).attempt = some { a with nextK := x.k + 1, chased := a.chased + 1, inTime := inTime } ∧
          t.rd Reg.VOT_RESYNC_CHASED = (a.chased + 1) % 256 ∧ (t.ch rx).img = (u.ch rx).img ∧
          (∀ y ∈ (t.ch rx).kept, x.k < y.k) ∧ (inTime = true → rx ∈ t.md.rejoinReq) ∧
          (inTime = false → t.md = u.md) ∧ ∀ d, d ≠ rx → t.ch d = s.ch d) ∧
        ((u.ch rx).ccuStop = false → some (u.ch rx).acc ≠ x.acc → failedWith s t rx 3)) ∧
    ((s.ch rx).st = .reloading →
      (∀ k, s.ownCopy rx (bankId s.runBank) = some k → (s.copyBank rx k).bind s.bankBreach ≠ none →
        ∃ t, exec (.bankReloadDone rx) s = .next t ∧ failedWith s t rx 9 ∧ (t.ch rx).st = .retired) ∧
      (∀ k, s.ownCopy rx (bankId s.runBank) = some k → (s.copyBank rx k).bind s.bankBreach = none → ∃ t, exec (.bankReloadDone rx) s = .next t ∧ (t.ch rx).run = s.copyBank rx k ∧
        (t.ch rx).st = .resync ∧ t.rd Reg.VOT_RESYNC_STAGE = 1 ∧
        t.rd (Reg.LEN_BANK_RUN_LO_ID_LO (Ch.num rx)) = bankId (s.copyBank rx k) % 2 ^ 32 ∧ ∀ d, d ≠ rx → t.ch d = s.ch d) ∧
      (s.ownCopy rx (bankId s.runBank) = none → ∃ t, exec (.bankReloadDone rx) s = .next t ∧ failedWith s t rx 9 ∧
        (t.ch rx).st = .retired))

/-- Both: `snapshotTransfer`, and `chaseAndReload`. -/
def Obligations.ResynchronisationOfAChannel : Prop := Claims.snapshotTransfer ∧ Claims.chaseAndReload

/-! ### Twin operation -/

/-- The twin unit and registers may differ, nothing else. -/
def Sys2Proof.Claims.onlyTwn (s t : State) : Prop := t = { s with regs := t.regs, twn := t.twn }

/-- The fields that follow from the twin unit's state. -/
def Sys2Proof.Claims.twnFlds : List Fld :=
  [Reg.TWN_STATUS_CURRENT, Reg.TWN_STATUS_ADOPTING, Reg.TWN_STATUS_PARTNER_CURRENT, Reg.TWN_STATUS_LEASE_LEFT, Reg.TWN_SNAP_HELD_CYCLE]

/-- R370, R372, R375 and R377: the link's changes; an input record of the standby's own cycle is kept and another counted; at the
deadline the standby loads the record's words, or runs free and counts. -/
def Sys2Proof.Claims.twinLinkAndRecords : Prop :=
  ∀ (s : State), s.down = false →
    (∃ t, exec (.twinLinkChange true) s = .next t ∧ regsTo s t [(Reg.TWN_STATUS_LINK_UP, 1)] ∧ t = { s with regs := t.regs }) ∧
    (∃ t, exec (.twinLinkChange false) s = .next t ∧ t.rdb Reg.TWN_STATUS_LINK_UP = false ∧
      t.rd Reg.TWN_SNAP_COUNT_DISCARDED = (if s.twn.rx = [] then s.rd Reg.TWN_SNAP_COUNT_DISCARDED else up s Reg.TWN_SNAP_COUNT_DISCARDED) ∧
      t.twn = { s.twn with rx := [], rxK := 0 } ∧ keepsRegs s t [Reg.TWN_STATUS_LINK_UP, Reg.TWN_SNAP_COUNT_DISCARDED] ∧ onlyTwn s t) ∧
    (s.twin = true → s.md.role = .standby → s.twn.late = false →
      (∀ b ft w, TwinRec.parse b = some (s.tm.cyc, ft, w) →
        exec (.twinInputRecord b) s = .next { s with twn := { s.twn with recIn := some b } }) ∧
      (∀ b, (∀ ft w, TwinRec.parse b ≠ some (s.tm.cyc, ft, w)) → ∃ t, exec (.twinInputRecord b) s = .next t ∧
        regsTo s t [(Reg.TWN_LINK_BLOCK_ERR, up s Reg.TWN_LINK_BLOCK_ERR)] ∧ t = { s with regs := t.regs }) ∧
      (s.md.taken = true →
        (s.twn.recIn = none → ∃ t, exec .twinRecordDeadline s = .next t ∧ t.twn.late = true ∧ t.rdb Reg.TWN_STATUS_FREE_RUN = true ∧
          t.rd Reg.TWN_LINK_REC_LATE = (if s.rdb Reg.TWN_STATUS_LINK_UP = true then up s Reg.TWN_LINK_REC_LATE
            else s.rd Reg.TWN_LINK_REC_LATE)) ∧
        (∀ b k w, s.twn.recIn = some b → TwinRec.parse b = some (k, none, w) → ∃ t, exec .twinRecordDeadline s = .next t ∧
          t.twn.late = true ∧ t.twn.ran = true ∧ t.rdb Reg.TWN_STATUS_FREE_RUN = false ∧
          (s.md.halted = false → s.chasing = false → s.executes = true → s.md.commitDue = false → s.forces = [] →
            t.md.loadDone = true ∧ ∀ c ∈ s.voters, ∀ i, Img.loaded i = true → FMap.get 0 (t.ch c).img i = FMap.get 0 w i))))

/-- R140, R371 and R373: at the end of a completed cycle every save buffer takes its channel's retained data and the module notes which
cycle it was; a twin that decided SAFE aborts its snapshot; the active's signature record is kept, and one that differs from the
standby's own decision makes it adopt the next snapshot. -/
def Sys2Proof.Claims.captureAndComparison : Prop :=
  ∀ (s : State), s.down = false →
    (s.voters.filter s.completed ≠ [] → ∃ t, exec .snapshotCapture s = .next t ∧
      t.md = { s.md with done := some (s.voters.filter s.completed, s.progCyc, if s.timeValid then s.tm.tcNs else 0) } ∧
      (∀ c ∈ s.voters.filter s.completed, (t.ch c).saveBuf = some (s.retained c).1) ∧
      (s.twinSends = true → s.md.safeStage = true → t.rd Reg.TWN_SNAP_COUNT_ABORTED = up s Reg.TWN_SNAP_COUNT_ABORTED)) ∧
    (s.voters.filter s.completed = [] → exec .snapshotCapture s = .next s) ∧
    (s.twin = true → s.md.role = .standby → ∀ r : SigRec,
      (r.crcOk = false ∨ r.k16.toNat ≠ s.tm.cyc % 65536 → ∃ t, exec (.twinSignatureRecord r) s = .next t ∧
        regsTo s t [(Reg.TWN_LINK_BLOCK_ERR, up s Reg.TWN_LINK_BLOCK_ERR)] ∧ t = { s with regs := t.regs }) ∧
      (r.crcOk = true → r.k16.toNat = s.tm.cyc % 65536 →
        (s.md.decided = false → ∃ t, exec (.twinSignatureRecord r) s = .next t ∧ t.twn.sigIn = some r ∧
          t.twn.expect = (if r.ovr = true ∨ s.twn.ran = false then s.twn.expect else s.twn.expect ++ [s.tm.cyc]) ∧
          t = { s with twn := t.twn }) ∧
        (∀ v, s.md.decided = true → s.decidedSig = some v → s.twn.ran = true → s.chasing = false → r.travEnd = true →
          ∃ t, exec (.twinSignatureRecord r) s = .next t ∧ t.twn.sigIn = none ∧
            (v = r.acc → t.regs = s.regs ∧ t.twn.adopt = s.twn.adopt) ∧
            (v ≠ r.acc → t.rd Reg.TWN_CMP_SIG_DIFF = up s Reg.TWN_CMP_SIG_DIFF ∧ t.twn.adopt = some 0))))

/-- Both: `twinLinkAndRecords`, and `captureAndComparison`. -/
def Obligations.TwinRecordsAndComparison : Prop := Claims.twinLinkAndRecords ∧ Claims.captureAndComparison

/-- R370, R373, R374, R377 and R378: the blocks of a snapshot in order, a bad one discards it, a complete one that passes its checks is
held and compared with the standby's own state; its acknowledgement at the active; and the chase of an adoption to its end. -/
def Obligations.TwinSnapshots : Prop :=
  ∀ (s : State), s.down = false → s.twin = true →
    (s.md.role = .standby → s.rdb Reg.TWN_STATUS_LINK_UP = true → ∀ b : List Byte,
      (b.length = 256 → ∃ t, exec (.twinSnapshotBlock 0 true b) s = .next t ∧ t.twn = { s.twn with rx := [(0, b)], rxK := 0 } ∧
        t.rd Reg.TWN_SNAP_COUNT_DISCARDED = (if s.twn.rx = [] then s.rd Reg.TWN_SNAP_COUNT_DISCARDED else up s Reg.TWN_SNAP_COUNT_DISCARDED) ∧
        onlyTwn s t) ∧
      (s.twn.rxK ≠ 1 → ∀ idx, 0 < idx →
        (b.length = 256 → idx < 562 → idx = s.twn.rx.length →
          exec (.twinSnapshotBlock idx true b) s = .next { s with twn := { s.twn with rx := s.twn.rx ++ [(idx, b)] } }) ∧
        (∃ t, exec (.twinSnapshotBlock idx false b) s = .next t ∧ t.twn = { s.twn with rx := [], rxK := 1 } ∧
          regsTo s t [(Reg.TWN_LINK_BLOCK_ERR, up s Reg.TWN_LINK_BLOCK_ERR),
            (Reg.TWN_SNAP_COUNT_DISCARDED, up s Reg.TWN_SNAP_COUNT_DISCARDED)] ∧ onlyTwn s t))) ∧
    (s.md.role = .standby → s.twn.rx.length = 562 →
      let l := (s.twn.rx.flatMap fun e => e.2).take 143624
      let older := ∃ k l', s.twn.held = some (k, l') ∧ Snap.cycle l < k
      (Snap.ok l = false ∨ older → ∃ t, exec .twinSnapshotAccept s = .next t ∧ t.twn = { s.twn with rx := [], rxK := 0 } ∧
        regsTo s t [(Reg.TWN_SNAP_COUNT_DISCARDED, up s Reg.TWN_SNAP_COUNT_DISCARDED)] ∧ onlyTwn s t) ∧
      (Snap.ok l = true → ¬ older → ∃ t, exec .twinSnapshotAccept s = .next t ∧ t.twn.held = some (Snap.cycle l, l) ∧ t.twn.rx = [] ∧
        t.twn.missed = 0 ∧ t.rd Reg.TWN_SNAP_COUNT_COMPLETE = up s Reg.TWN_SNAP_COUNT_COMPLETE ∧
        (s.chasing = false → ∀ v, s.twn.own.find? (fun e => e.1 = Snap.cycle l) = some (Snap.cycle l, v) →
          (v = stateCrc l → t.twn.good = true ∧ t.rd Reg.TWN_CMP_STATE_DIFF = s.rd Reg.TWN_CMP_STATE_DIFF) ∧
          (v ≠ stateCrc l → t.rd Reg.TWN_CMP_STATE_DIFF = up s Reg.TWN_CMP_STATE_DIFF ∧ t.twn.adopt.isSome = true)))) ∧
    (∀ k (mm : Bool), s.md.role = .active → k ≤ s.tm.cyc → ∃ t, exec (.snapshotAcknowledgement k mm) s = .next t ∧
      t.twn = { s.twn with sent := s.twn.sent.map fun e => if e.1 = k then (k, some mm) else e, kSnap := Max.max s.twn.kSnap k } ∧
      t.rdb Reg.TWN_STATUS_PARTNER_CURRENT = t.partnerCurrent ∧ keepsRegs s t twnFlds ∧ onlyTwn s t) ∧
    (s.md.role = .standby → ∀ (rx : Ch) (k startNs : Nat), s.inVote rx = true → s.twn.adopt = some (k + 1) →
      (s.twn.kept.find? (fun x => x.k = k) = none → k < s.tm.cyc → ∃ t, exec (.chaseCycle rx startNs) s = .next t ∧
        t.rd Reg.TWN_CMP_ADOPT_FAIL = up s Reg.TWN_CMP_ADOPT_FAIL ∧ t.twn = { s.twn with adopt := some 0 } ∧ onlyTwn s t) ∧
      (∀ x, s.twn.kept.find? (fun x => x.k = k) = some x →
        let r := s.voters.foldl (fun (p : Nat × State) c =>
          (Max.max p.1 (p.2.chase c x).1, (p.2.chase c x).2.modCh c fun h => { h with ownForces := none })) (0, s)
        ∃ t, exec (.chaseCycle rx startNs) s = .next t ∧ ((∀ c ∈ s.voters, some (r.2.ch c).acc = x.acc) → t.chs = r.2.chs ∧
          (k = s.tm.cyc → startNs ≤ s.latestStart r.1 + 10000 → t.rd Reg.TWN_CMP_ADOPTED = up s Reg.TWN_CMP_ADOPTED ∧
            t.twn.adopt = none ∧ t.twn.good = true) ∧
          (k ≠ s.tm.cyc → t.twn.adopt = some (k + 2)))))

/-- R381, R382 and R387: the lease of a pair at the module itself: the RENEW that its holder sends, the acknowledgement of a quorum,
a grant to the standby, and the expiry. -/
def Sys2Proof.Claims.leaseOfThePair : Prop :=
  ∀ (s : State), s.down = false → s.twin = true →
    (∀ e rest, s.md.role = .active → s.leaseMode = true → s.mayOriginate = true → s.leaseEntries = e :: rest → s.slots = [] →
      let k := 256 + (s.entry e).slot
      let seq := (FMap.get 0 s.ptn.txSeq k + 1) % 2 ^ 32
      let pl := withTrailer (s.ptn.net.ent e).connId seq (s.tm.tcNs / 1000 % 2 ^ 32) 0 s.renewMsg.bytes
      ∃ t, exec .leaseWindow s = .next t ∧ t.rd Reg.TWN_STATUS_ACKS = 0 ∧ FMap.get 0 t.ptn.txSeq k = seq ∧
        (∀ p ∈ s.txPorts (s.entry e), s.fitsNow e p pl.length = true →
          let n := (s.entry e).start * 10 + s.gNs + s.taken e p
          ∃ b, FMap.get none t.ptn.egress p = some ⟨b ++ pl, true, n, (n : Int) - s.deltaTx p⟩) ∧
        t = { s with regs := t.regs, ptn := t.ptn }) ∧
    (∀ m : LeaseMsg, s.leaseOk m 3 = true → m.pair = s.rd Reg.TWN_CFG_PAIR_ID → s.arbiters.contains m.src = true →
      let all := s.twn.grants ++ [m]
      let n := fun (f : LeaseMsg → Bool) => ((all.filter f).map fun g => g.src).eraseDups.length
      (s.md.role = .active → m.node = s.node → m.kSnap = s.tm.cyc → 0 < s.tm.cyc → m.epoch = s.rd Reg.TWN_EPOCH_EPOCH →
        s.quorum ≤ n (fun g => g.node = m.node && g.kSnap = m.kSnap && g.epoch = m.epoch) →
        ∃ t, exec (.grantReceive m) s = .next t ∧ t.twn.ackAt = s.tm.cyc ∧ t.twn.grants = all ∧ t.md = s.md ∧ onlyTwn s t) ∧
      (s.md.role = .standby → m.node = s.node → m.kSnap = 0 → m.handover = false →
        s.quorum ≤ n (fun g => g.node = m.node && g.epoch = m.epoch && g.kSnap = 0 && g.handover = false) →
        ∃ t, exec (.grantReceive m) s = .next t ∧ t.twn.become = some m.epoch ∧ t.twn.known = Max.max s.twn.known m.epoch ∧
          keepsRegs s t twnFlds ∧ onlyTwn s t)) ∧
    (s.md.role = .active → s.leaseEnd ≤ s.tm.cyc → ∃ t, exec .leaseExpiry s = .next t ∧ t.md = { s.md with role := .orphan } ∧
      t.rd Reg.TWN_TAKEOVER_ORPHANED = up s Reg.TWN_TAKEOVER_ORPHANED ∧ t.outPermit = false ∧ t.chs = s.chs) ∧
    (s.md.role = .active → s.tm.cyc < s.leaseEnd → exec .leaseExpiry s = .next s)

/-- R381, R384 to R386 and R391: an arbiter's slot: a RENEW that it accepts is its lease, a REQUEST that meets the conditions is granted in
its cycle and another refused, a vacant lease, and a release gives the old holder the next epoch. -/
def Obligations.ArbiterSlots : Prop :=
  ∀ (s : State) (m : LeaseMsg) (p : Nat), s.arbUp = true → s.slotOf m.pair = some p →
    let x := s.slot p
    (s.leaseOk m 1 = true → x.accepts (s.rd (Reg.TWN_ARB_STATE_STATE p) = 0) m = true → ∃ t, exec (.renewReceive m) s = .next t ∧
      t.rd (Reg.TWN_ARB_STATE_STATE p) = 1 ∧ t.rd (Reg.TWN_ARB_STATE_HOLDER p) = m.src % 64 ∧
      t.rd (Reg.TWN_ARB_EPOCH_EPOCH p) = m.epoch % 2 ^ 32 ∧ t.rd (Reg.TWN_ARB_RENEW_CYCLE p) = s.tm.cyc % 2 ^ 32 ∧
      t.slot p = { x with
        heard := some s.tm.cyc, high := Max.max x.high m.epoch, holder := m.src, epoch := m.epoch, r := s.tm.cyc, kSnap := m.kSnap
        flags := m.flags, named := m.node, h := m.last, renewed := true } ∧
      (∀ q, q ≠ p → t.slot q = s.slot q) ∧ onlyTwn s t) ∧
    (s.leaseOk m 2 = true → x.reqs = [] → x.grant = none →
      (s.grantable p m = true → ∃ t, exec (.requestReceive m) s = .next t ∧
        (t.slot p).grant = some (m.src, Max.max (Max.max x.high m.epoch) x.epoch + 1, 0, m.handover,
          if m.handover then m.last else x.r + s.lzOf p - 2) ∧
        regsTo s t [(Reg.TWN_ARB_STATE_LAST_REQ p, m.src % 64)] ∧ (∀ q, q ≠ p → t.slot q = s.slot q) ∧ onlyTwn s t) ∧
      (s.grantable p m = false → ∃ t, exec (.requestReceive m) s = .next t ∧ (t.slot p).grant = none ∧
        regsTo s t [(Reg.TWN_ARB_STATE_LAST_REQ p, m.src % 64), (Reg.TWN_ARB_COUNT_REFUSED p, up s (Reg.TWN_ARB_COUNT_REFUSED p))] ∧
        (∀ q, q ≠ p → t.slot q = s.slot q) ∧ onlyTwn s t)) ∧
    (s.leaseOk m 4 = true → m.epoch = x.epoch → m.src = x.holder → x.flags = 0 → x.named = 0 → ∀ old,
      (x.granted.filter fun e => e.1 ≠ x.epoch).getLast? = some old → ∃ t, exec (.releaseReceive m) s = .next t ∧
        (t.slot p).grant = some (old.2, Max.max x.high x.epoch + 1, 0, true, s.tm.cyc) ∧ (∀ q, q ≠ p → t.slot q = s.slot q) ∧
        t = { s with twn := t.twn }) ∧
    (∀ slot : Fin 8, slot.val = p → s.rd (Reg.TWN_ARB_STATE_STATE p) ≠ 3 →
      (s.vacant p = true → x.reqs = [] → ∃ t, exec (.arbiterVacancy slot) s = .next t ∧
        regsTo s t [(Reg.TWN_ARB_STATE_STATE p, 3)] ∧ t = { s with regs := t.regs }) ∧
      (s.vacant p = false → exec (.arbiterVacancy slot) s = .next s)) ∧
    (∀ e rest node ep ack ho last, s.twin = false → s.mayOriginate = true → s.leaseEntries = e :: rest → s.slots = [p] → x.grant = some (node, ep, ack, ho, last) →
      ∃ t, exec .leaseWindow s = .next t ∧ (t.slot p).holder = node ∧ (t.slot p).epoch = ep ∧ (t.slot p).grant = none ∧
        t.rd (Reg.TWN_ARB_STATE_HOLDER p) = node % 64 ∧ t.rd (Reg.TWN_ARB_STATE_STATE p) = 1 ∧
        t.rd (Reg.TWN_ARB_COUNT_GRANTS p) = up s (Reg.TWN_ARB_COUNT_GRANTS p) ∧ t = { s with regs := t.regs, ptn := t.ptn, twn := t.twn })

/-- R389 and R391: a planned handover is ordered for a Tc at least four cycles ahead while the partner is current and a quorum
acknowledges, and cancelled until the cycle before it. -/
def Sys2Proof.Claims.plannedHandover : Prop :=
  ∀ (s : State) (w1 w2 w3 : Word), s.md.role = .active →
    (s.twin = true → s.leaseMode = true → s.md.debug = false → s.partnerCurrent = true → s.quorum ≤ s.ackCount →
      s.tcAhead (arg64 w1 w2) = true → s.tm.tcNs + 4 * s.tbc ≤ arg64 w1 w2 → s.twn.ho = none →
      takesEffect .twnHandover 0x60 s w1 w2 w3 fun s u =>
        regsTo s u [(Reg.TWN_HANDOVER_RESULT, 1), (Reg.TWN_HO_TARGET_LO_T_LO, w1.toNat), (Reg.TWN_HO_TARGET_HI_T_HI, w2.toNat)] ∧
        u = { s with regs := u.regs, twn := { s.twn with ho := some (arg64 w1 w2 / s.tbc), hoGot := none } }) ∧
    (∀ h, s.twn.ho = some h → s.tm.cyc + 1 < h →
      takesEffect .twnHoCancel 0x61 s w1 w2 w3 fun s u =>
        regsTo s u [(Reg.TWN_HANDOVER_RESULT, 5), (Reg.TWN_HANDOVER_SEQ, (s.rd Reg.TWN_HANDOVER_SEQ + 1) % 256)] ∧
        u = { s with regs := u.regs, twn := { s.twn with ho := none } })

/-- Both: `leaseOfThePair`, and `plannedHandover`. -/
def Obligations.LeaseAndPlannedHandover : Prop := Claims.leaseOfThePair ∧ Claims.plannedHandover

/-! ### The machine as a whole -/

/-- A step takes the command at the front of the queue and is that command on the rest; an empty queue idles (the model's own
rule for the order in which commands reach the block). -/
def Obligations.StepRunsTheFrontCommand : Prop :=
  ∀ (s : State), (∀ (i : Instr) (q : List Instr), s.pending = i :: q → step s = exec i { s with pending := q }) ∧
    (s.pending = [] → step s = .next s)

/-- Every command answers a next state in every state: none faults and none is refused. -/
def Obligations.EveryCommandAnswersANextState : Prop := ∀ (i : Instr) (s : State), ∃ t, exec i s = .next t

/-- No command changes the queue of the commands that wait behind it. -/
def Obligations.CommandsKeepTheQueue : Prop := ∀ (i : Instr) (s t : State), exec i s = .next t → t.pending = s.pending

/-- R509, R529 and Table 1-2: after reset every register field holds its reset value, P is asserted, every channel is in reset, no output
is on, nothing is queued, the module is in BOOT as STANDBY, and no indicator shows (the last is the model's choice, log 106). -/
def Obligations.MachineAtReset : Prop :=
  (∀ f : Fld, State.reset.rd f = f.rst) ∧ State.reset.rpc.por = true ∧ (∀ c : Ch, (State.reset.ch c).st = .reset) ∧
    (∀ o < 12, isOff State.reset o) ∧ State.reset.pending = [] ∧ State.reset.lane.queue = [] ∧ State.reset.md.mode = .boot ∧
    State.reset.md.role = .standby ∧ State.reset.voters = [] ∧ State.reset.timeValid = false ∧
    State.reset.panel.mode = none ∧ State.reset.panel.role = none ∧ State.reset.panel.channels = [none, none, none] ∧
    State.reset.panel.net = none ∧ State.reset.panel.dlk = none ∧ ∀ x ∈ State.reset.panel.links, x = none

/-- The byte memories are in canonical form: addresses strictly rising and no byte listed that an unlisted one reads as. -/
def Sys2Proof.Claims.canonical (s : State) : Prop :=
  Mem.wf s.rcd.mram = true ∧ Mem.wf s.rpc.store = true ∧ Mem.wf s.hbr.hostMem = true ∧ Mem.wf s.sec.staging = true

/-- The memories of the reset state are canonical. -/
def Obligations.ResetMemoriesAreCanonical : Prop := canonical State.reset

/-- Every step keeps the memories canonical. -/
def Obligations.StepsKeepMemoriesCanonical : Prop := ∀ (s t : State), canonical s → step s = .next t → canonical t

/-- Every bit of `x` is programmed in `y`. -/
def Sys2Proof.Claims.within (x y : Otp) : Prop :=
  x.set &&& y.set = x.set ∧ x.revoked &&& y.revoked = x.revoked ∧ x.roll &&& y.roll = x.roll ∧ x.dig0 &&& y.dig0 = x.dig0 ∧
    x.dig1 &&& y.dig1 = x.dig1 ∧ x.dig2 &&& y.dig2 = x.dig2

/-- R482, R483: no step, a reset included, clears a one-time-programmable bit of any of the four copies, so that a root once set stays
set, a revoked one stays revoked and the rollback counter never falls. -/
def Obligations.ProgrammedBitsStayProgrammed : Prop :=
  ∀ (s t : State), step s = .next t → within s.sec.otp t.sec.otp ∧ ∀ c : Ch, within (s.sec.otpCh.get c) (t.sec.otpCh.get c)

/-- R102 and Tables 4-1 to 4-3: the word of every well-formed program instruction decodes to that instruction with every operand. -/
def Obligations.ProgramWordsDecodeToTheirInstruction : Prop := ∀ i : LInstr, i.wf = true → Rh.decode (Rh.encode i) = some i

/-- R102: a program word that decodes is the word of its instruction, so that no bit of a valid word is ignored; and neither the all-zero nor
the all-ones word is valid. -/
def Obligations.ValidWordsAreCanonical : Prop :=
  (∀ (w : Word) (i : LInstr), Rh.decode w = some i → i.wf = true ∧ Rh.encode i = w) ∧ Rh.decode 0 = none ∧ Rh.decode 0xFFFFFFFF#32 = none

/-- The words of the worked programs of chapter 4 decode to the instructions printed beside them. -/
def Obligations.PrintedWordsDecode : Prop :=
  Rh.decode 0x20022010#32 = some (.ld (.bit 0x22010#18)) ∧ Rh.decode 0x28024100#32 = some (.and (.bit 0x24100#18)) ∧
    Rh.decode 0x48000000#32 = some .bpush ∧ Rh.decode 0x4C000000#32 = some .bor ∧
    Rh.decode 0x2C024100#32 = some (.andn (.bit 0x24100#18)) ∧ Rh.decode 0x60010A37#32 = some (.out 0x10A37#18) ∧
    Rh.decode 0x24001A37#32 = some (.ldn (.bit 0x01A37#18)) ∧ Rh.decode 0x54000000#32 = some (.zon false) ∧
    Rh.decode 0xE1000123#32 = some (.ton .e 0x123#12) ∧ Rh.decode 0x68024300#32 = some (.set 0x24300#18) ∧
    Rh.decode 0x70002140#32 = some (.stw 0x2140#14) ∧ Rh.decode 0x58000000#32 = some .zoff ∧ Rh.decode 0x6C024300#32 = some (.rst 0x24300#18) ∧
    Rh.decode 0x80002150#32 = some (.ldw 0x2150#14) ∧ Rh.decode 0x8C000007#32 = some (.ldx 7#8) ∧
    Rh.decode 0x99000003#32 = some (.mul (.imm false 3#24)) ∧ Rh.decode 0xB5000001#32 = some (.shr (.c 1#5)) ∧
    Rh.decode 0xBD7FF000#32 = some (.limit (.p false 0#12 2047#12)) ∧ Rh.decode 0xD0002151#32 = some (.cgt (.w false 0x2151#14)) ∧
    Rh.decode 0x8B001234#32 = some (.ldwh 0x1234#16)
end

