-- ==== Sys2Proof/Laws/Map.lean ====
section
/-! SUPPORT. The laws of sparse maps: what a read finds after a store, and that every operation keeps the canonical
form. -/

namespace Sys2Proof

variable {β : Type}

theorem FMap.get_put (d : β) (m : FMap β) (k j : Nat) (v : β) :
    FMap.get d (FMap.put m k v) j = if j = k then v else FMap.get d m j := by
  induction m with
  | nil => simp only [FMap.put, FMap.get, eq_comm]
  | cons e m ih =>
    obtain ⟨i, w⟩ := e
    simp only [FMap.put]
    split
    · simp only [FMap.get, eq_comm]
    · split
      · rename_i _ h
        subst h
        by_cases h : j = i
        · subst h; simp only [FMap.get, if_pos]
        · simp only [FMap.get, if_neg h, if_neg (Ne.symm h)]
      · rename_i _ h
        simp only [FMap.get, ih]
        by_cases h1 : i = j
        · subst h1; simp only [if_pos, if_neg h]
        · simp only [if_neg h1]

theorem FMap.get_del (d : β) (m : FMap β) (k j : Nat) :
    FMap.get d (FMap.del m k) j = if j = k then d else FMap.get d m j := by
  induction m with
  | nil => simp [FMap.del, FMap.get]
  | cons e m ih =>
    obtain ⟨i, w⟩ := e
    simp only [FMap.del]
    by_cases h : i = k
    · subst h
      simp only [if_pos, ih, FMap.get]
      by_cases h : j = i
      · simp only [if_pos h]
      · simp only [if_neg h, if_neg (Ne.symm h)]
    · simp only [if_neg h, FMap.get, ih]
      by_cases h1 : i = j
      · subst h1; simp only [if_pos, if_neg h]
      · simp only [if_neg h1]

/-- A read after a store: the value at its key, and what was there before at every other key. -/
theorem FMap.get_set [DecidableEq β] (d : β) (m : FMap β) (k j : Nat) (v : β) :
    FMap.get d (FMap.set d m k v) j = if j = k then v else FMap.get d m j := by
  unfold FMap.set
  split
  · subst_vars; exact FMap.get_del _ m k j
  · exact FMap.get_put d m k j v

@[simp] theorem FMap.get_set_same [DecidableEq β] (d : β) (m : FMap β) (k : Nat) (v : β) :
    FMap.get d (FMap.set d m k v) k = v := by simp [FMap.get_set]

theorem FMap.get_set_ne [DecidableEq β] (d : β) (m : FMap β) {k j : Nat} (v : β) (h : j ≠ k) :
    FMap.get d (FMap.set d m k v) j = FMap.get d m j := by simp [FMap.get_set, h]

/-- With two defaults: a read at another key of a map that a store with its own default has changed. -/
theorem FMap.get_set_other [DecidableEq β] (d e : β) (m : FMap β) {k j : Nat} (v : β) (h : j ≠ k) :
    FMap.get d (FMap.set e m k v) j = FMap.get d m j := by
  unfold FMap.set
  split
  · rw [FMap.get_del, if_neg h]
  · rw [FMap.get_put, if_neg h]

@[simp] theorem FMap.get_nil (d : β) (k : Nat) : FMap.get d [] k = d := rfl

/-! ### The canonical form -/

/-- Every key of the map is at least `n`. -/
def FMap.from (n : Nat) (m : FMap β) : Prop := ∀ e ∈ m, n ≤ e.1

theorem FMap.wf_cons [DecidableEq β] (d : β) (j : Nat) (v : β) (m : FMap β) :
    FMap.wf d ((j, v) :: m) = true ↔ v ≠ d ∧ FMap.from (j + 1) m ∧ FMap.wf d m = true := by
  induction m generalizing j v with
  | nil => simp [FMap.wf, FMap.from]
  | cons e m ih =>
    obtain ⟨k, w⟩ := e
    have h1 : FMap.wf d ((j, v) :: (k, w) :: m) = true ↔ j < k ∧ v ≠ d ∧ FMap.wf d ((k, w) :: m) = true := by
      simp [FMap.wf, and_assoc]
    rw [h1, ih]
    constructor
    · rintro ⟨hj, hv, hw, hf, hm⟩
      refine ⟨hv, ?_, hw, hf, hm⟩
      intro e he
      rcases List.mem_cons.1 he with rfl | he
      · exact hj
      · have := hf e he; omega
    · rintro ⟨hv, hf, hw, hf', hm⟩
      exact ⟨hf (k, w) List.mem_cons_self, hv, hw, hf', hm⟩

theorem FMap.from_put (n k : Nat) (v : β) (m : FMap β) (h : FMap.from n m) (hk : n ≤ k) : FMap.from n (FMap.put m k v) := by
  induction m with
  | nil => intro e he; simp [FMap.put] at he; subst he; exact hk
  | cons e m ih =>
    obtain ⟨j, w⟩ := e
    have hj : n ≤ j := h (j, w) List.mem_cons_self
    have hm : FMap.from n m := fun e he => h e (List.mem_cons_of_mem _ he)
    simp only [FMap.put]
    split
    · intro e he
      rcases List.mem_cons.1 he with rfl | he
      · exact hk
      · exact h e he
    · split
      · intro e he
        rcases List.mem_cons.1 he with rfl | he
        · exact hk
        · exact hm e he
      · intro e he
        rcases List.mem_cons.1 he with rfl | he
        · exact hj
        · exact ih hm e he

theorem FMap.from_del (n k : Nat) (m : FMap β) (h : FMap.from n m) : FMap.from n (FMap.del m k) := by
  induction m with
  | nil => simpa [FMap.del] using h
  | cons e m ih =>
    obtain ⟨j, w⟩ := e
    have hj : n ≤ j := h (j, w) List.mem_cons_self
    have hm : FMap.from n m := fun e he => h e (List.mem_cons_of_mem _ he)
    simp only [FMap.del]
    split
    · exact ih hm
    · intro e he
      rcases List.mem_cons.1 he with rfl | he
      · exact hj
      · exact ih hm e he

theorem FMap.wf_put [DecidableEq β] (d : β) (m : FMap β) (k : Nat) (v : β) (hv : v ≠ d) (h : FMap.wf d m = true) :
    FMap.wf d (FMap.put m k v) = true := by
  induction m with
  | nil => simpa [FMap.put, FMap.wf] using hv
  | cons e m ih =>
    obtain ⟨j, w⟩ := e
    obtain ⟨hw, hf, hm⟩ := (FMap.wf_cons d j w m).1 h
    simp only [FMap.put]
    split
    · rename_i hk
      refine (FMap.wf_cons d k v _).2 ⟨hv, ?_, h⟩
      intro e he
      rcases List.mem_cons.1 he with rfl | he
      · exact hk
      · have := hf e he; omega
    · split
      · subst_vars; exact (FMap.wf_cons d _ v m).2 ⟨hv, hf, hm⟩
      · refine (FMap.wf_cons d j w _).2 ⟨hw, FMap.from_put _ k v m hf (by omega), ih hm⟩

theorem FMap.wf_del [DecidableEq β] (d : β) (m : FMap β) (k : Nat) (h : FMap.wf d m = true) :
    FMap.wf d (FMap.del m k) = true := by
  induction m with
  | nil => simp [FMap.del, FMap.wf]
  | cons e m ih =>
    obtain ⟨j, w⟩ := e
    obtain ⟨hw, hf, hm⟩ := (FMap.wf_cons d j w m).1 h
    simp only [FMap.del]
    split
    · exact ih hm
    · exact (FMap.wf_cons d j w _).2 ⟨hw, FMap.from_del _ k m hf, ih hm⟩

/-- A store keeps the canonical form. -/
theorem FMap.wf_set [DecidableEq β] (d : β) (m : FMap β) (k : Nat) (v : β) (h : FMap.wf d m = true) :
    FMap.wf d (FMap.set d m k v) = true := by
  unfold FMap.set
  split
  · exact FMap.wf_del d m k h
  · exact FMap.wf_put d m k v (by assumption) h

theorem FMap.wf_filter [DecidableEq β] (d : β) (m : FMap β) (p : Nat × β → Bool) (h : FMap.wf d m = true) :
    FMap.wf d (m.filter p) = true := by
  induction m with
  | nil => simp [FMap.wf]
  | cons e m ih =>
    obtain ⟨j, w⟩ := e
    obtain ⟨hw, hf, hm⟩ := (FMap.wf_cons d j w m).1 h
    simp only [List.filter_cons]
    split
    · exact (FMap.wf_cons d j w _).2 ⟨hw, fun e he => hf e (List.mem_of_mem_filter he), ih hm⟩
    · exact ih hm

theorem FMap.wf_cut [DecidableEq β] (d : β) (m : FMap β) (lo hi : Nat) (h : FMap.wf d m = true) :
    FMap.wf d (FMap.cut m lo hi) = true := FMap.wf_filter d m _ h

theorem FMap.wf_range [DecidableEq β] (d : β) (m : FMap β) (lo hi : Nat) (h : FMap.wf d m = true) :
    FMap.wf d (FMap.range m lo hi) = true := FMap.wf_filter d m _ h

end Sys2Proof
end

