-- ==== Sys2Proof/Laws/State.lean ====
section
/-! SUPPORT. One lemma per field of State for each named update, and the laws of register fields, channels and
lanes. -/

namespace Sys2Proof.Machine

/-! #### `modCh` -/

@[simp] theorem State.modCh_pending (s : State) (c : Ch) (f : Chan → Chan) : (s.modCh c f).pending = s.pending := rfl
@[simp] theorem State.modCh_free (s : State) (c : Ch) (f : Chan → Chan) : (s.modCh c f).free = s.free := rfl
@[simp] theorem State.modCh_regs (s : State) (c : Ch) (f : Chan → Chan) : (s.modCh c f).regs = s.regs := rfl
@[simp] theorem State.modCh_tm (s : State) (c : Ch) (f : Chan → Chan) : (s.modCh c f).tm = s.tm := rfl
@[simp] theorem State.modCh_md (s : State) (c : Ch) (f : Chan → Chan) : (s.modCh c f).md = s.md := rfl
@[simp] theorem State.modCh_chs (s : State) (c : Ch) (f : Chan → Chan) :
    (s.modCh c f).chs = s.chs.set c (f (s.chs.get c)) := rfl
@[simp] theorem State.modCh_forces (s : State) (c : Ch) (f : Chan → Chan) : (s.modCh c f).forces = s.forces := rfl
@[simp] theorem State.modCh_lane (s : State) (c : Ch) (f : Chan → Chan) : (s.modCh c f).lane = s.lane := rfl
@[simp] theorem State.modCh_rcd (s : State) (c : Ch) (f : Chan → Chan) : (s.modCh c f).rcd = s.rcd := rfl
@[simp] theorem State.modCh_sio (s : State) (c : Ch) (f : Chan → Chan) : (s.modCh c f).sio = s.sio := rfl
@[simp] theorem State.modCh_dlk (s : State) (c : Ch) (f : Chan → Chan) : (s.modCh c f).dlk = s.dlk := rfl
@[simp] theorem State.modCh_ptn (s : State) (c : Ch) (f : Chan → Chan) : (s.modCh c f).ptn = s.ptn := rfl
@[simp] theorem State.modCh_tmu (s : State) (c : Ch) (f : Chan → Chan) : (s.modCh c f).tmu = s.tmu := rfl
@[simp] theorem State.modCh_gwy (s : State) (c : Ch) (f : Chan → Chan) : (s.modCh c f).gwy = s.gwy := rfl
@[simp] theorem State.modCh_alp (s : State) (c : Ch) (f : Chan → Chan) : (s.modCh c f).alp = s.alp := rfl
@[simp] theorem State.modCh_sec (s : State) (c : Ch) (f : Chan → Chan) : (s.modCh c f).sec = s.sec := rfl
@[simp] theorem State.modCh_rpc (s : State) (c : Ch) (f : Chan → Chan) : (s.modCh c f).rpc = s.rpc := rfl
@[simp] theorem State.modCh_hbr (s : State) (c : Ch) (f : Chan → Chan) : (s.modCh c f).hbr = s.hbr := rfl
@[simp] theorem State.modCh_twn (s : State) (c : Ch) (f : Chan → Chan) : (s.modCh c f).twn = s.twn := rfl

/-! #### `modMd` -/

@[simp] theorem State.modMd_pending (s : State) (f : ModSt → ModSt) : (s.modMd f).pending = s.pending := rfl
@[simp] theorem State.modMd_free (s : State) (f : ModSt → ModSt) : (s.modMd f).free = s.free := rfl
@[simp] theorem State.modMd_regs (s : State) (f : ModSt → ModSt) : (s.modMd f).regs = s.regs := rfl
@[simp] theorem State.modMd_tm (s : State) (f : ModSt → ModSt) : (s.modMd f).tm = s.tm := rfl
@[simp] theorem State.modMd_md (s : State) (f : ModSt → ModSt) :
    (s.modMd f).md = f s.md := rfl
@[simp] theorem State.modMd_chs (s : State) (f : ModSt → ModSt) : (s.modMd f).chs = s.chs := rfl
@[simp] theorem State.modMd_forces (s : State) (f : ModSt → ModSt) : (s.modMd f).forces = s.forces := rfl
@[simp] theorem State.modMd_lane (s : State) (f : ModSt → ModSt) : (s.modMd f).lane = s.lane := rfl
@[simp] theorem State.modMd_rcd (s : State) (f : ModSt → ModSt) : (s.modMd f).rcd = s.rcd := rfl
@[simp] theorem State.modMd_sio (s : State) (f : ModSt → ModSt) : (s.modMd f).sio = s.sio := rfl
@[simp] theorem State.modMd_dlk (s : State) (f : ModSt → ModSt) : (s.modMd f).dlk = s.dlk := rfl
@[simp] theorem State.modMd_ptn (s : State) (f : ModSt → ModSt) : (s.modMd f).ptn = s.ptn := rfl
@[simp] theorem State.modMd_tmu (s : State) (f : ModSt → ModSt) : (s.modMd f).tmu = s.tmu := rfl
@[simp] theorem State.modMd_gwy (s : State) (f : ModSt → ModSt) : (s.modMd f).gwy = s.gwy := rfl
@[simp] theorem State.modMd_alp (s : State) (f : ModSt → ModSt) : (s.modMd f).alp = s.alp := rfl
@[simp] theorem State.modMd_sec (s : State) (f : ModSt → ModSt) : (s.modMd f).sec = s.sec := rfl
@[simp] theorem State.modMd_rpc (s : State) (f : ModSt → ModSt) : (s.modMd f).rpc = s.rpc := rfl
@[simp] theorem State.modMd_hbr (s : State) (f : ModSt → ModSt) : (s.modMd f).hbr = s.hbr := rfl
@[simp] theorem State.modMd_twn (s : State) (f : ModSt → ModSt) : (s.modMd f).twn = s.twn := rfl

/-! #### `modHbr` -/

@[simp] theorem State.modHbr_pending (s : State) (f : HbrSt → HbrSt) : (s.modHbr f).pending = s.pending := rfl
@[simp] theorem State.modHbr_free (s : State) (f : HbrSt → HbrSt) : (s.modHbr f).free = s.free := rfl
@[simp] theorem State.modHbr_regs (s : State) (f : HbrSt → HbrSt) : (s.modHbr f).regs = s.regs := rfl
@[simp] theorem State.modHbr_tm (s : State) (f : HbrSt → HbrSt) : (s.modHbr f).tm = s.tm := rfl
@[simp] theorem State.modHbr_md (s : State) (f : HbrSt → HbrSt) : (s.modHbr f).md = s.md := rfl
@[simp] theorem State.modHbr_chs (s : State) (f : HbrSt → HbrSt) : (s.modHbr f).chs = s.chs := rfl
@[simp] theorem State.modHbr_forces (s : State) (f : HbrSt → HbrSt) : (s.modHbr f).forces = s.forces := rfl
@[simp] theorem State.modHbr_lane (s : State) (f : HbrSt → HbrSt) : (s.modHbr f).lane = s.lane := rfl
@[simp] theorem State.modHbr_rcd (s : State) (f : HbrSt → HbrSt) : (s.modHbr f).rcd = s.rcd := rfl
@[simp] theorem State.modHbr_sio (s : State) (f : HbrSt → HbrSt) : (s.modHbr f).sio = s.sio := rfl
@[simp] theorem State.modHbr_dlk (s : State) (f : HbrSt → HbrSt) : (s.modHbr f).dlk = s.dlk := rfl
@[simp] theorem State.modHbr_ptn (s : State) (f : HbrSt → HbrSt) : (s.modHbr f).ptn = s.ptn := rfl
@[simp] theorem State.modHbr_tmu (s : State) (f : HbrSt → HbrSt) : (s.modHbr f).tmu = s.tmu := rfl
@[simp] theorem State.modHbr_gwy (s : State) (f : HbrSt → HbrSt) : (s.modHbr f).gwy = s.gwy := rfl
@[simp] theorem State.modHbr_alp (s : State) (f : HbrSt → HbrSt) : (s.modHbr f).alp = s.alp := rfl
@[simp] theorem State.modHbr_sec (s : State) (f : HbrSt → HbrSt) : (s.modHbr f).sec = s.sec := rfl
@[simp] theorem State.modHbr_rpc (s : State) (f : HbrSt → HbrSt) : (s.modHbr f).rpc = s.rpc := rfl
@[simp] theorem State.modHbr_hbr (s : State) (f : HbrSt → HbrSt) :
    (s.modHbr f).hbr = f s.hbr := rfl
@[simp] theorem State.modHbr_twn (s : State) (f : HbrSt → HbrSt) : (s.modHbr f).twn = s.twn := rfl

/-! #### `modLaneQ` -/

@[simp] theorem State.modLaneQ_pending (s : State) (f : LaneQ → LaneQ) : (s.modLaneQ f).pending = s.pending := rfl
@[simp] theorem State.modLaneQ_free (s : State) (f : LaneQ → LaneQ) : (s.modLaneQ f).free = s.free := rfl
@[simp] theorem State.modLaneQ_regs (s : State) (f : LaneQ → LaneQ) : (s.modLaneQ f).regs = s.regs := rfl
@[simp] theorem State.modLaneQ_tm (s : State) (f : LaneQ → LaneQ) : (s.modLaneQ f).tm = s.tm := rfl
@[simp] theorem State.modLaneQ_md (s : State) (f : LaneQ → LaneQ) : (s.modLaneQ f).md = s.md := rfl
@[simp] theorem State.modLaneQ_chs (s : State) (f : LaneQ → LaneQ) : (s.modLaneQ f).chs = s.chs := rfl
@[simp] theorem State.modLaneQ_forces (s : State) (f : LaneQ → LaneQ) : (s.modLaneQ f).forces = s.forces := rfl
@[simp] theorem State.modLaneQ_lane (s : State) (f : LaneQ → LaneQ) :
    (s.modLaneQ f).lane = f s.lane := rfl
@[simp] theorem State.modLaneQ_rcd (s : State) (f : LaneQ → LaneQ) : (s.modLaneQ f).rcd = s.rcd := rfl
@[simp] theorem State.modLaneQ_sio (s : State) (f : LaneQ → LaneQ) : (s.modLaneQ f).sio = s.sio := rfl
@[simp] theorem State.modLaneQ_dlk (s : State) (f : LaneQ → LaneQ) : (s.modLaneQ f).dlk = s.dlk := rfl
@[simp] theorem State.modLaneQ_ptn (s : State) (f : LaneQ → LaneQ) : (s.modLaneQ f).ptn = s.ptn := rfl
@[simp] theorem State.modLaneQ_tmu (s : State) (f : LaneQ → LaneQ) : (s.modLaneQ f).tmu = s.tmu := rfl
@[simp] theorem State.modLaneQ_gwy (s : State) (f : LaneQ → LaneQ) : (s.modLaneQ f).gwy = s.gwy := rfl
@[simp] theorem State.modLaneQ_alp (s : State) (f : LaneQ → LaneQ) : (s.modLaneQ f).alp = s.alp := rfl
@[simp] theorem State.modLaneQ_sec (s : State) (f : LaneQ → LaneQ) : (s.modLaneQ f).sec = s.sec := rfl
@[simp] theorem State.modLaneQ_rpc (s : State) (f : LaneQ → LaneQ) : (s.modLaneQ f).rpc = s.rpc := rfl
@[simp] theorem State.modLaneQ_hbr (s : State) (f : LaneQ → LaneQ) : (s.modLaneQ f).hbr = s.hbr := rfl
@[simp] theorem State.modLaneQ_twn (s : State) (f : LaneQ → LaneQ) : (s.modLaneQ f).twn = s.twn := rfl

/-! #### `modSec` -/

@[simp] theorem State.modSec_pending (s : State) (f : SecSt → SecSt) : (s.modSec f).pending = s.pending := rfl
@[simp] theorem State.modSec_free (s : State) (f : SecSt → SecSt) : (s.modSec f).free = s.free := rfl
@[simp] theorem State.modSec_regs (s : State) (f : SecSt → SecSt) : (s.modSec f).regs = s.regs := rfl
@[simp] theorem State.modSec_tm (s : State) (f : SecSt → SecSt) : (s.modSec f).tm = s.tm := rfl
@[simp] theorem State.modSec_md (s : State) (f : SecSt → SecSt) : (s.modSec f).md = s.md := rfl
@[simp] theorem State.modSec_chs (s : State) (f : SecSt → SecSt) : (s.modSec f).chs = s.chs := rfl
@[simp] theorem State.modSec_forces (s : State) (f : SecSt → SecSt) : (s.modSec f).forces = s.forces := rfl
@[simp] theorem State.modSec_lane (s : State) (f : SecSt → SecSt) : (s.modSec f).lane = s.lane := rfl
@[simp] theorem State.modSec_rcd (s : State) (f : SecSt → SecSt) : (s.modSec f).rcd = s.rcd := rfl
@[simp] theorem State.modSec_sio (s : State) (f : SecSt → SecSt) : (s.modSec f).sio = s.sio := rfl
@[simp] theorem State.modSec_dlk (s : State) (f : SecSt → SecSt) : (s.modSec f).dlk = s.dlk := rfl
@[simp] theorem State.modSec_ptn (s : State) (f : SecSt → SecSt) : (s.modSec f).ptn = s.ptn := rfl
@[simp] theorem State.modSec_tmu (s : State) (f : SecSt → SecSt) : (s.modSec f).tmu = s.tmu := rfl
@[simp] theorem State.modSec_gwy (s : State) (f : SecSt → SecSt) : (s.modSec f).gwy = s.gwy := rfl
@[simp] theorem State.modSec_alp (s : State) (f : SecSt → SecSt) : (s.modSec f).alp = s.alp := rfl
@[simp] theorem State.modSec_sec (s : State) (f : SecSt → SecSt) :
    (s.modSec f).sec = f s.sec := rfl
@[simp] theorem State.modSec_rpc (s : State) (f : SecSt → SecSt) : (s.modSec f).rpc = s.rpc := rfl
@[simp] theorem State.modSec_hbr (s : State) (f : SecSt → SecSt) : (s.modSec f).hbr = s.hbr := rfl
@[simp] theorem State.modSec_twn (s : State) (f : SecSt → SecSt) : (s.modSec f).twn = s.twn := rfl

/-! #### `modRpc` -/

@[simp] theorem State.modRpc_pending (s : State) (f : RpcSt → RpcSt) : (s.modRpc f).pending = s.pending := rfl
@[simp] theorem State.modRpc_free (s : State) (f : RpcSt → RpcSt) : (s.modRpc f).free = s.free := rfl
@[simp] theorem State.modRpc_regs (s : State) (f : RpcSt → RpcSt) : (s.modRpc f).regs = s.regs := rfl
@[simp] theorem State.modRpc_tm (s : State) (f : RpcSt → RpcSt) : (s.modRpc f).tm = s.tm := rfl
@[simp] theorem State.modRpc_md (s : State) (f : RpcSt → RpcSt) : (s.modRpc f).md = s.md := rfl
@[simp] theorem State.modRpc_chs (s : State) (f : RpcSt → RpcSt) : (s.modRpc f).chs = s.chs := rfl
@[simp] theorem State.modRpc_forces (s : State) (f : RpcSt → RpcSt) : (s.modRpc f).forces = s.forces := rfl
@[simp] theorem State.modRpc_lane (s : State) (f : RpcSt → RpcSt) : (s.modRpc f).lane = s.lane := rfl
@[simp] theorem State.modRpc_rcd (s : State) (f : RpcSt → RpcSt) : (s.modRpc f).rcd = s.rcd := rfl
@[simp] theorem State.modRpc_sio (s : State) (f : RpcSt → RpcSt) : (s.modRpc f).sio = s.sio := rfl
@[simp] theorem State.modRpc_dlk (s : State) (f : RpcSt → RpcSt) : (s.modRpc f).dlk = s.dlk := rfl
@[simp] theorem State.modRpc_ptn (s : State) (f : RpcSt → RpcSt) : (s.modRpc f).ptn = s.ptn := rfl
@[simp] theorem State.modRpc_tmu (s : State) (f : RpcSt → RpcSt) : (s.modRpc f).tmu = s.tmu := rfl
@[simp] theorem State.modRpc_gwy (s : State) (f : RpcSt → RpcSt) : (s.modRpc f).gwy = s.gwy := rfl
@[simp] theorem State.modRpc_alp (s : State) (f : RpcSt → RpcSt) : (s.modRpc f).alp = s.alp := rfl
@[simp] theorem State.modRpc_sec (s : State) (f : RpcSt → RpcSt) : (s.modRpc f).sec = s.sec := rfl
@[simp] theorem State.modRpc_rpc (s : State) (f : RpcSt → RpcSt) :
    (s.modRpc f).rpc = f s.rpc := rfl
@[simp] theorem State.modRpc_hbr (s : State) (f : RpcSt → RpcSt) : (s.modRpc f).hbr = s.hbr := rfl
@[simp] theorem State.modRpc_twn (s : State) (f : RpcSt → RpcSt) : (s.modRpc f).twn = s.twn := rfl

/-! #### `modDlk` -/

@[simp] theorem State.modDlk_pending (s : State) (f : DlkSt → DlkSt) : (s.modDlk f).pending = s.pending := rfl
@[simp] theorem State.modDlk_free (s : State) (f : DlkSt → DlkSt) : (s.modDlk f).free = s.free := rfl
@[simp] theorem State.modDlk_regs (s : State) (f : DlkSt → DlkSt) : (s.modDlk f).regs = s.regs := rfl
@[simp] theorem State.modDlk_tm (s : State) (f : DlkSt → DlkSt) : (s.modDlk f).tm = s.tm := rfl
@[simp] theorem State.modDlk_md (s : State) (f : DlkSt → DlkSt) : (s.modDlk f).md = s.md := rfl
@[simp] theorem State.modDlk_chs (s : State) (f : DlkSt → DlkSt) : (s.modDlk f).chs = s.chs := rfl
@[simp] theorem State.modDlk_forces (s : State) (f : DlkSt → DlkSt) : (s.modDlk f).forces = s.forces := rfl
@[simp] theorem State.modDlk_lane (s : State) (f : DlkSt → DlkSt) : (s.modDlk f).lane = s.lane := rfl
@[simp] theorem State.modDlk_rcd (s : State) (f : DlkSt → DlkSt) : (s.modDlk f).rcd = s.rcd := rfl
@[simp] theorem State.modDlk_sio (s : State) (f : DlkSt → DlkSt) : (s.modDlk f).sio = s.sio := rfl
@[simp] theorem State.modDlk_dlk (s : State) (f : DlkSt → DlkSt) :
    (s.modDlk f).dlk = f s.dlk := rfl
@[simp] theorem State.modDlk_ptn (s : State) (f : DlkSt → DlkSt) : (s.modDlk f).ptn = s.ptn := rfl
@[simp] theorem State.modDlk_tmu (s : State) (f : DlkSt → DlkSt) : (s.modDlk f).tmu = s.tmu := rfl
@[simp] theorem State.modDlk_gwy (s : State) (f : DlkSt → DlkSt) : (s.modDlk f).gwy = s.gwy := rfl
@[simp] theorem State.modDlk_alp (s : State) (f : DlkSt → DlkSt) : (s.modDlk f).alp = s.alp := rfl
@[simp] theorem State.modDlk_sec (s : State) (f : DlkSt → DlkSt) : (s.modDlk f).sec = s.sec := rfl
@[simp] theorem State.modDlk_rpc (s : State) (f : DlkSt → DlkSt) : (s.modDlk f).rpc = s.rpc := rfl
@[simp] theorem State.modDlk_hbr (s : State) (f : DlkSt → DlkSt) : (s.modDlk f).hbr = s.hbr := rfl
@[simp] theorem State.modDlk_twn (s : State) (f : DlkSt → DlkSt) : (s.modDlk f).twn = s.twn := rfl

/-! #### `modGwy` -/

@[simp] theorem State.modGwy_pending (s : State) (f : GwySt → GwySt) : (s.modGwy f).pending = s.pending := rfl
@[simp] theorem State.modGwy_free (s : State) (f : GwySt → GwySt) : (s.modGwy f).free = s.free := rfl
@[simp] theorem State.modGwy_regs (s : State) (f : GwySt → GwySt) : (s.modGwy f).regs = s.regs := rfl
@[simp] theorem State.modGwy_tm (s : State) (f : GwySt → GwySt) : (s.modGwy f).tm = s.tm := rfl
@[simp] theorem State.modGwy_md (s : State) (f : GwySt → GwySt) : (s.modGwy f).md = s.md := rfl
@[simp] theorem State.modGwy_chs (s : State) (f : GwySt → GwySt) : (s.modGwy f).chs = s.chs := rfl
@[simp] theorem State.modGwy_forces (s : State) (f : GwySt → GwySt) : (s.modGwy f).forces = s.forces := rfl
@[simp] theorem State.modGwy_lane (s : State) (f : GwySt → GwySt) : (s.modGwy f).lane = s.lane := rfl
@[simp] theorem State.modGwy_rcd (s : State) (f : GwySt → GwySt) : (s.modGwy f).rcd = s.rcd := rfl
@[simp] theorem State.modGwy_sio (s : State) (f : GwySt → GwySt) : (s.modGwy f).sio = s.sio := rfl
@[simp] theorem State.modGwy_dlk (s : State) (f : GwySt → GwySt) : (s.modGwy f).dlk = s.dlk := rfl
@[simp] theorem State.modGwy_ptn (s : State) (f : GwySt → GwySt) : (s.modGwy f).ptn = s.ptn := rfl
@[simp] theorem State.modGwy_tmu (s : State) (f : GwySt → GwySt) : (s.modGwy f).tmu = s.tmu := rfl
@[simp] theorem State.modGwy_gwy (s : State) (f : GwySt → GwySt) :
    (s.modGwy f).gwy = f s.gwy := rfl
@[simp] theorem State.modGwy_alp (s : State) (f : GwySt → GwySt) : (s.modGwy f).alp = s.alp := rfl
@[simp] theorem State.modGwy_sec (s : State) (f : GwySt → GwySt) : (s.modGwy f).sec = s.sec := rfl
@[simp] theorem State.modGwy_rpc (s : State) (f : GwySt → GwySt) : (s.modGwy f).rpc = s.rpc := rfl
@[simp] theorem State.modGwy_hbr (s : State) (f : GwySt → GwySt) : (s.modGwy f).hbr = s.hbr := rfl
@[simp] theorem State.modGwy_twn (s : State) (f : GwySt → GwySt) : (s.modGwy f).twn = s.twn := rfl

/-! #### `modPtn` -/

@[simp] theorem State.modPtn_pending (s : State) (f : PtnSt → PtnSt) : (s.modPtn f).pending = s.pending := rfl
@[simp] theorem State.modPtn_free (s : State) (f : PtnSt → PtnSt) : (s.modPtn f).free = s.free := rfl
@[simp] theorem State.modPtn_regs (s : State) (f : PtnSt → PtnSt) : (s.modPtn f).regs = s.regs := rfl
@[simp] theorem State.modPtn_tm (s : State) (f : PtnSt → PtnSt) : (s.modPtn f).tm = s.tm := rfl
@[simp] theorem State.modPtn_md (s : State) (f : PtnSt → PtnSt) : (s.modPtn f).md = s.md := rfl
@[simp] theorem State.modPtn_chs (s : State) (f : PtnSt → PtnSt) : (s.modPtn f).chs = s.chs := rfl
@[simp] theorem State.modPtn_forces (s : State) (f : PtnSt → PtnSt) : (s.modPtn f).forces = s.forces := rfl
@[simp] theorem State.modPtn_lane (s : State) (f : PtnSt → PtnSt) : (s.modPtn f).lane = s.lane := rfl
@[simp] theorem State.modPtn_rcd (s : State) (f : PtnSt → PtnSt) : (s.modPtn f).rcd = s.rcd := rfl
@[simp] theorem State.modPtn_sio (s : State) (f : PtnSt → PtnSt) : (s.modPtn f).sio = s.sio := rfl
@[simp] theorem State.modPtn_dlk (s : State) (f : PtnSt → PtnSt) : (s.modPtn f).dlk = s.dlk := rfl
@[simp] theorem State.modPtn_ptn (s : State) (f : PtnSt → PtnSt) :
    (s.modPtn f).ptn = f s.ptn := rfl
@[simp] theorem State.modPtn_tmu (s : State) (f : PtnSt → PtnSt) : (s.modPtn f).tmu = s.tmu := rfl
@[simp] theorem State.modPtn_gwy (s : State) (f : PtnSt → PtnSt) : (s.modPtn f).gwy = s.gwy := rfl
@[simp] theorem State.modPtn_alp (s : State) (f : PtnSt → PtnSt) : (s.modPtn f).alp = s.alp := rfl
@[simp] theorem State.modPtn_sec (s : State) (f : PtnSt → PtnSt) : (s.modPtn f).sec = s.sec := rfl
@[simp] theorem State.modPtn_rpc (s : State) (f : PtnSt → PtnSt) : (s.modPtn f).rpc = s.rpc := rfl
@[simp] theorem State.modPtn_hbr (s : State) (f : PtnSt → PtnSt) : (s.modPtn f).hbr = s.hbr := rfl
@[simp] theorem State.modPtn_twn (s : State) (f : PtnSt → PtnSt) : (s.modPtn f).twn = s.twn := rfl

/-! #### `modRec` -/

@[simp] theorem State.modRec_pending (s : State) (f : RecSt → RecSt) : (s.modRec f).pending = s.pending := rfl
@[simp] theorem State.modRec_free (s : State) (f : RecSt → RecSt) : (s.modRec f).free = s.free := rfl
@[simp] theorem State.modRec_regs (s : State) (f : RecSt → RecSt) : (s.modRec f).regs = s.regs := rfl
@[simp] theorem State.modRec_tm (s : State) (f : RecSt → RecSt) : (s.modRec f).tm = s.tm := rfl
@[simp] theorem State.modRec_md (s : State) (f : RecSt → RecSt) : (s.modRec f).md = s.md := rfl
@[simp] theorem State.modRec_chs (s : State) (f : RecSt → RecSt) : (s.modRec f).chs = s.chs := rfl
@[simp] theorem State.modRec_forces (s : State) (f : RecSt → RecSt) : (s.modRec f).forces = s.forces := rfl
@[simp] theorem State.modRec_lane (s : State) (f : RecSt → RecSt) : (s.modRec f).lane = s.lane := rfl
@[simp] theorem State.modRec_rcd (s : State) (f : RecSt → RecSt) :
    (s.modRec f).rcd = f s.rcd := rfl
@[simp] theorem State.modRec_sio (s : State) (f : RecSt → RecSt) : (s.modRec f).sio = s.sio := rfl
@[simp] theorem State.modRec_dlk (s : State) (f : RecSt → RecSt) : (s.modRec f).dlk = s.dlk := rfl
@[simp] theorem State.modRec_ptn (s : State) (f : RecSt → RecSt) : (s.modRec f).ptn = s.ptn := rfl
@[simp] theorem State.modRec_tmu (s : State) (f : RecSt → RecSt) : (s.modRec f).tmu = s.tmu := rfl
@[simp] theorem State.modRec_gwy (s : State) (f : RecSt → RecSt) : (s.modRec f).gwy = s.gwy := rfl
@[simp] theorem State.modRec_alp (s : State) (f : RecSt → RecSt) : (s.modRec f).alp = s.alp := rfl
@[simp] theorem State.modRec_sec (s : State) (f : RecSt → RecSt) : (s.modRec f).sec = s.sec := rfl
@[simp] theorem State.modRec_rpc (s : State) (f : RecSt → RecSt) : (s.modRec f).rpc = s.rpc := rfl
@[simp] theorem State.modRec_hbr (s : State) (f : RecSt → RecSt) : (s.modRec f).hbr = s.hbr := rfl
@[simp] theorem State.modRec_twn (s : State) (f : RecSt → RecSt) : (s.modRec f).twn = s.twn := rfl

/-! #### `modSio` -/

@[simp] theorem State.modSio_pending (s : State) (f : SioSt → SioSt) : (s.modSio f).pending = s.pending := rfl
@[simp] theorem State.modSio_free (s : State) (f : SioSt → SioSt) : (s.modSio f).free = s.free := rfl
@[simp] theorem State.modSio_regs (s : State) (f : SioSt → SioSt) : (s.modSio f).regs = s.regs := rfl
@[simp] theorem State.modSio_tm (s : State) (f : SioSt → SioSt) : (s.modSio f).tm = s.tm := rfl
@[simp] theorem State.modSio_md (s : State) (f : SioSt → SioSt) : (s.modSio f).md = s.md := rfl
@[simp] theorem State.modSio_chs (s : State) (f : SioSt → SioSt) : (s.modSio f).chs = s.chs := rfl
@[simp] theorem State.modSio_forces (s : State) (f : SioSt → SioSt) : (s.modSio f).forces = s.forces := rfl
@[simp] theorem State.modSio_lane (s : State) (f : SioSt → SioSt) : (s.modSio f).lane = s.lane := rfl
@[simp] theorem State.modSio_rcd (s : State) (f : SioSt → SioSt) : (s.modSio f).rcd = s.rcd := rfl
@[simp] theorem State.modSio_sio (s : State) (f : SioSt → SioSt) :
    (s.modSio f).sio = f s.sio := rfl
@[simp] theorem State.modSio_dlk (s : State) (f : SioSt → SioSt) : (s.modSio f).dlk = s.dlk := rfl
@[simp] theorem State.modSio_ptn (s : State) (f : SioSt → SioSt) : (s.modSio f).ptn = s.ptn := rfl
@[simp] theorem State.modSio_tmu (s : State) (f : SioSt → SioSt) : (s.modSio f).tmu = s.tmu := rfl
@[simp] theorem State.modSio_gwy (s : State) (f : SioSt → SioSt) : (s.modSio f).gwy = s.gwy := rfl
@[simp] theorem State.modSio_alp (s : State) (f : SioSt → SioSt) : (s.modSio f).alp = s.alp := rfl
@[simp] theorem State.modSio_sec (s : State) (f : SioSt → SioSt) : (s.modSio f).sec = s.sec := rfl
@[simp] theorem State.modSio_rpc (s : State) (f : SioSt → SioSt) : (s.modSio f).rpc = s.rpc := rfl
@[simp] theorem State.modSio_hbr (s : State) (f : SioSt → SioSt) : (s.modSio f).hbr = s.hbr := rfl
@[simp] theorem State.modSio_twn (s : State) (f : SioSt → SioSt) : (s.modSio f).twn = s.twn := rfl

/-! #### `modTmu` -/

@[simp] theorem State.modTmu_pending (s : State) (f : TmuSt → TmuSt) : (s.modTmu f).pending = s.pending := rfl
@[simp] theorem State.modTmu_free (s : State) (f : TmuSt → TmuSt) : (s.modTmu f).free = s.free := rfl
@[simp] theorem State.modTmu_regs (s : State) (f : TmuSt → TmuSt) : (s.modTmu f).regs = s.regs := rfl
@[simp] theorem State.modTmu_tm (s : State) (f : TmuSt → TmuSt) : (s.modTmu f).tm = s.tm := rfl
@[simp] theorem State.modTmu_md (s : State) (f : TmuSt → TmuSt) : (s.modTmu f).md = s.md := rfl
@[simp] theorem State.modTmu_chs (s : State) (f : TmuSt → TmuSt) : (s.modTmu f).chs = s.chs := rfl
@[simp] theorem State.modTmu_forces (s : State) (f : TmuSt → TmuSt) : (s.modTmu f).forces = s.forces := rfl
@[simp] theorem State.modTmu_lane (s : State) (f : TmuSt → TmuSt) : (s.modTmu f).lane = s.lane := rfl
@[simp] theorem State.modTmu_rcd (s : State) (f : TmuSt → TmuSt) : (s.modTmu f).rcd = s.rcd := rfl
@[simp] theorem State.modTmu_sio (s : State) (f : TmuSt → TmuSt) : (s.modTmu f).sio = s.sio := rfl
@[simp] theorem State.modTmu_dlk (s : State) (f : TmuSt → TmuSt) : (s.modTmu f).dlk = s.dlk := rfl
@[simp] theorem State.modTmu_ptn (s : State) (f : TmuSt → TmuSt) : (s.modTmu f).ptn = s.ptn := rfl
@[simp] theorem State.modTmu_tmu (s : State) (f : TmuSt → TmuSt) :
    (s.modTmu f).tmu = f s.tmu := rfl
@[simp] theorem State.modTmu_gwy (s : State) (f : TmuSt → TmuSt) : (s.modTmu f).gwy = s.gwy := rfl
@[simp] theorem State.modTmu_alp (s : State) (f : TmuSt → TmuSt) : (s.modTmu f).alp = s.alp := rfl
@[simp] theorem State.modTmu_sec (s : State) (f : TmuSt → TmuSt) : (s.modTmu f).sec = s.sec := rfl
@[simp] theorem State.modTmu_rpc (s : State) (f : TmuSt → TmuSt) : (s.modTmu f).rpc = s.rpc := rfl
@[simp] theorem State.modTmu_hbr (s : State) (f : TmuSt → TmuSt) : (s.modTmu f).hbr = s.hbr := rfl
@[simp] theorem State.modTmu_twn (s : State) (f : TmuSt → TmuSt) : (s.modTmu f).twn = s.twn := rfl

/-! #### `modTwn` -/

@[simp] theorem State.modTwn_pending (s : State) (f : TwnSt → TwnSt) : (s.modTwn f).pending = s.pending := rfl
@[simp] theorem State.modTwn_free (s : State) (f : TwnSt → TwnSt) : (s.modTwn f).free = s.free := rfl
@[simp] theorem State.modTwn_regs (s : State) (f : TwnSt → TwnSt) : (s.modTwn f).regs = s.regs := rfl
@[simp] theorem State.modTwn_tm (s : State) (f : TwnSt → TwnSt) : (s.modTwn f).tm = s.tm := rfl
@[simp] theorem State.modTwn_md (s : State) (f : TwnSt → TwnSt) : (s.modTwn f).md = s.md := rfl
@[simp] theorem State.modTwn_chs (s : State) (f : TwnSt → TwnSt) : (s.modTwn f).chs = s.chs := rfl
@[simp] theorem State.modTwn_forces (s : State) (f : TwnSt → TwnSt) : (s.modTwn f).forces = s.forces := rfl
@[simp] theorem State.modTwn_lane (s : State) (f : TwnSt → TwnSt) : (s.modTwn f).lane = s.lane := rfl
@[simp] theorem State.modTwn_rcd (s : State) (f : TwnSt → TwnSt) : (s.modTwn f).rcd = s.rcd := rfl
@[simp] theorem State.modTwn_sio (s : State) (f : TwnSt → TwnSt) : (s.modTwn f).sio = s.sio := rfl
@[simp] theorem State.modTwn_dlk (s : State) (f : TwnSt → TwnSt) : (s.modTwn f).dlk = s.dlk := rfl
@[simp] theorem State.modTwn_ptn (s : State) (f : TwnSt → TwnSt) : (s.modTwn f).ptn = s.ptn := rfl
@[simp] theorem State.modTwn_tmu (s : State) (f : TwnSt → TwnSt) : (s.modTwn f).tmu = s.tmu := rfl
@[simp] theorem State.modTwn_gwy (s : State) (f : TwnSt → TwnSt) : (s.modTwn f).gwy = s.gwy := rfl
@[simp] theorem State.modTwn_alp (s : State) (f : TwnSt → TwnSt) : (s.modTwn f).alp = s.alp := rfl
@[simp] theorem State.modTwn_sec (s : State) (f : TwnSt → TwnSt) : (s.modTwn f).sec = s.sec := rfl
@[simp] theorem State.modTwn_rpc (s : State) (f : TwnSt → TwnSt) : (s.modTwn f).rpc = s.rpc := rfl
@[simp] theorem State.modTwn_hbr (s : State) (f : TwnSt → TwnSt) : (s.modTwn f).hbr = s.hbr := rfl
@[simp] theorem State.modTwn_twn (s : State) (f : TwnSt → TwnSt) :
    (s.modTwn f).twn = f s.twn := rfl

/-! #### `wr` -/

@[simp] theorem State.wr_pending (s : State) (f : Fld) (v : Nat) : (s.wr f v).pending = s.pending := rfl
@[simp] theorem State.wr_free (s : State) (f : Fld) (v : Nat) : (s.wr f v).free = s.free := rfl
@[simp] theorem State.wr_regs (s : State) (f : Fld) (v : Nat) :
    (s.wr f v).regs = FMap.set f.rst s.regs (Fld.key f) (trunc f.width v) := rfl
@[simp] theorem State.wr_tm (s : State) (f : Fld) (v : Nat) : (s.wr f v).tm = s.tm := rfl
@[simp] theorem State.wr_md (s : State) (f : Fld) (v : Nat) : (s.wr f v).md = s.md := rfl
@[simp] theorem State.wr_chs (s : State) (f : Fld) (v : Nat) : (s.wr f v).chs = s.chs := rfl
@[simp] theorem State.wr_forces (s : State) (f : Fld) (v : Nat) : (s.wr f v).forces = s.forces := rfl
@[simp] theorem State.wr_lane (s : State) (f : Fld) (v : Nat) : (s.wr f v).lane = s.lane := rfl
@[simp] theorem State.wr_rcd (s : State) (f : Fld) (v : Nat) : (s.wr f v).rcd = s.rcd := rfl
@[simp] theorem State.wr_sio (s : State) (f : Fld) (v : Nat) : (s.wr f v).sio = s.sio := rfl
@[simp] theorem State.wr_dlk (s : State) (f : Fld) (v : Nat) : (s.wr f v).dlk = s.dlk := rfl
@[simp] theorem State.wr_ptn (s : State) (f : Fld) (v : Nat) : (s.wr f v).ptn = s.ptn := rfl
@[simp] theorem State.wr_tmu (s : State) (f : Fld) (v : Nat) : (s.wr f v).tmu = s.tmu := rfl
@[simp] theorem State.wr_gwy (s : State) (f : Fld) (v : Nat) : (s.wr f v).gwy = s.gwy := rfl
@[simp] theorem State.wr_alp (s : State) (f : Fld) (v : Nat) : (s.wr f v).alp = s.alp := rfl
@[simp] theorem State.wr_sec (s : State) (f : Fld) (v : Nat) : (s.wr f v).sec = s.sec := rfl
@[simp] theorem State.wr_rpc (s : State) (f : Fld) (v : Nat) : (s.wr f v).rpc = s.rpc := rfl
@[simp] theorem State.wr_hbr (s : State) (f : Fld) (v : Nat) : (s.wr f v).hbr = s.hbr := rfl
@[simp] theorem State.wr_twn (s : State) (f : Fld) (v : Nat) : (s.wr f v).twn = s.twn := rfl

/-! #### `wrb` -/

@[simp] theorem State.wrb_pending (s : State) (f : Fld) (b : Bool) : (s.wrb f b).pending = s.pending := rfl
@[simp] theorem State.wrb_free (s : State) (f : Fld) (b : Bool) : (s.wrb f b).free = s.free := rfl
@[simp] theorem State.wrb_tm (s : State) (f : Fld) (b : Bool) : (s.wrb f b).tm = s.tm := rfl
@[simp] theorem State.wrb_md (s : State) (f : Fld) (b : Bool) : (s.wrb f b).md = s.md := rfl
@[simp] theorem State.wrb_chs (s : State) (f : Fld) (b : Bool) : (s.wrb f b).chs = s.chs := rfl
@[simp] theorem State.wrb_forces (s : State) (f : Fld) (b : Bool) : (s.wrb f b).forces = s.forces := rfl
@[simp] theorem State.wrb_lane (s : State) (f : Fld) (b : Bool) : (s.wrb f b).lane = s.lane := rfl
@[simp] theorem State.wrb_rcd (s : State) (f : Fld) (b : Bool) : (s.wrb f b).rcd = s.rcd := rfl
@[simp] theorem State.wrb_sio (s : State) (f : Fld) (b : Bool) : (s.wrb f b).sio = s.sio := rfl
@[simp] theorem State.wrb_dlk (s : State) (f : Fld) (b : Bool) : (s.wrb f b).dlk = s.dlk := rfl
@[simp] theorem State.wrb_ptn (s : State) (f : Fld) (b : Bool) : (s.wrb f b).ptn = s.ptn := rfl
@[simp] theorem State.wrb_tmu (s : State) (f : Fld) (b : Bool) : (s.wrb f b).tmu = s.tmu := rfl
@[simp] theorem State.wrb_gwy (s : State) (f : Fld) (b : Bool) : (s.wrb f b).gwy = s.gwy := rfl
@[simp] theorem State.wrb_alp (s : State) (f : Fld) (b : Bool) : (s.wrb f b).alp = s.alp := rfl
@[simp] theorem State.wrb_sec (s : State) (f : Fld) (b : Bool) : (s.wrb f b).sec = s.sec := rfl
@[simp] theorem State.wrb_rpc (s : State) (f : Fld) (b : Bool) : (s.wrb f b).rpc = s.rpc := rfl
@[simp] theorem State.wrb_hbr (s : State) (f : Fld) (b : Bool) : (s.wrb f b).hbr = s.hbr := rfl
@[simp] theorem State.wrb_twn (s : State) (f : Fld) (b : Bool) : (s.wrb f b).twn = s.twn := rfl

/-! #### `inc` -/

@[simp] theorem State.inc_pending (s : State) (f : Fld) : (s.inc f).pending = s.pending := rfl
@[simp] theorem State.inc_free (s : State) (f : Fld) : (s.inc f).free = s.free := rfl
@[simp] theorem State.inc_tm (s : State) (f : Fld) : (s.inc f).tm = s.tm := rfl
@[simp] theorem State.inc_md (s : State) (f : Fld) : (s.inc f).md = s.md := rfl
@[simp] theorem State.inc_chs (s : State) (f : Fld) : (s.inc f).chs = s.chs := rfl
@[simp] theorem State.inc_forces (s : State) (f : Fld) : (s.inc f).forces = s.forces := rfl
@[simp] theorem State.inc_lane (s : State) (f : Fld) : (s.inc f).lane = s.lane := rfl
@[simp] theorem State.inc_rcd (s : State) (f : Fld) : (s.inc f).rcd = s.rcd := rfl
@[simp] theorem State.inc_sio (s : State) (f : Fld) : (s.inc f).sio = s.sio := rfl
@[simp] theorem State.inc_dlk (s : State) (f : Fld) : (s.inc f).dlk = s.dlk := rfl
@[simp] theorem State.inc_ptn (s : State) (f : Fld) : (s.inc f).ptn = s.ptn := rfl
@[simp] theorem State.inc_tmu (s : State) (f : Fld) : (s.inc f).tmu = s.tmu := rfl
@[simp] theorem State.inc_gwy (s : State) (f : Fld) : (s.inc f).gwy = s.gwy := rfl
@[simp] theorem State.inc_alp (s : State) (f : Fld) : (s.inc f).alp = s.alp := rfl
@[simp] theorem State.inc_sec (s : State) (f : Fld) : (s.inc f).sec = s.sec := rfl
@[simp] theorem State.inc_rpc (s : State) (f : Fld) : (s.inc f).rpc = s.rpc := rfl
@[simp] theorem State.inc_hbr (s : State) (f : Fld) : (s.inc f).hbr = s.hbr := rfl
@[simp] theorem State.inc_twn (s : State) (f : Fld) : (s.inc f).twn = s.twn := rfl

/-! #### `incWrap` -/

@[simp] theorem State.incWrap_pending (s : State) (f : Fld) : (s.incWrap f).pending = s.pending := rfl
@[simp] theorem State.incWrap_free (s : State) (f : Fld) : (s.incWrap f).free = s.free := rfl
@[simp] theorem State.incWrap_tm (s : State) (f : Fld) : (s.incWrap f).tm = s.tm := rfl
@[simp] theorem State.incWrap_md (s : State) (f : Fld) : (s.incWrap f).md = s.md := rfl
@[simp] theorem State.incWrap_chs (s : State) (f : Fld) : (s.incWrap f).chs = s.chs := rfl
@[simp] theorem State.incWrap_forces (s : State) (f : Fld) : (s.incWrap f).forces = s.forces := rfl
@[simp] theorem State.incWrap_lane (s : State) (f : Fld) : (s.incWrap f).lane = s.lane := rfl
@[simp] theorem State.incWrap_rcd (s : State) (f : Fld) : (s.incWrap f).rcd = s.rcd := rfl
@[simp] theorem State.incWrap_sio (s : State) (f : Fld) : (s.incWrap f).sio = s.sio := rfl
@[simp] theorem State.incWrap_dlk (s : State) (f : Fld) : (s.incWrap f).dlk = s.dlk := rfl
@[simp] theorem State.incWrap_ptn (s : State) (f : Fld) : (s.incWrap f).ptn = s.ptn := rfl
@[simp] theorem State.incWrap_tmu (s : State) (f : Fld) : (s.incWrap f).tmu = s.tmu := rfl
@[simp] theorem State.incWrap_gwy (s : State) (f : Fld) : (s.incWrap f).gwy = s.gwy := rfl
@[simp] theorem State.incWrap_alp (s : State) (f : Fld) : (s.incWrap f).alp = s.alp := rfl
@[simp] theorem State.incWrap_sec (s : State) (f : Fld) : (s.incWrap f).sec = s.sec := rfl
@[simp] theorem State.incWrap_rpc (s : State) (f : Fld) : (s.incWrap f).rpc = s.rpc := rfl
@[simp] theorem State.incWrap_hbr (s : State) (f : Fld) : (s.incWrap f).hbr = s.hbr := rfl
@[simp] theorem State.incWrap_twn (s : State) (f : Fld) : (s.incWrap f).twn = s.twn := rfl

/-! #### `setBit` -/

@[simp] theorem State.setBit_pending (s : State) (f : Fld) (i : Nat) : (s.setBit f i).pending = s.pending := rfl
@[simp] theorem State.setBit_free (s : State) (f : Fld) (i : Nat) : (s.setBit f i).free = s.free := rfl
@[simp] theorem State.setBit_tm (s : State) (f : Fld) (i : Nat) : (s.setBit f i).tm = s.tm := rfl
@[simp] theorem State.setBit_md (s : State) (f : Fld) (i : Nat) : (s.setBit f i).md = s.md := rfl
@[simp] theorem State.setBit_chs (s : State) (f : Fld) (i : Nat) : (s.setBit f i).chs = s.chs := rfl
@[simp] theorem State.setBit_forces (s : State) (f : Fld) (i : Nat) : (s.setBit f i).forces = s.forces := rfl
@[simp] theorem State.setBit_lane (s : State) (f : Fld) (i : Nat) : (s.setBit f i).lane = s.lane := rfl
@[simp] theorem State.setBit_rcd (s : State) (f : Fld) (i : Nat) : (s.setBit f i).rcd = s.rcd := rfl
@[simp] theorem State.setBit_sio (s : State) (f : Fld) (i : Nat) : (s.setBit f i).sio = s.sio := rfl
@[simp] theorem State.setBit_dlk (s : State) (f : Fld) (i : Nat) : (s.setBit f i).dlk = s.dlk := rfl
@[simp] theorem State.setBit_ptn (s : State) (f : Fld) (i : Nat) : (s.setBit f i).ptn = s.ptn := rfl
@[simp] theorem State.setBit_tmu (s : State) (f : Fld) (i : Nat) : (s.setBit f i).tmu = s.tmu := rfl
@[simp] theorem State.setBit_gwy (s : State) (f : Fld) (i : Nat) : (s.setBit f i).gwy = s.gwy := rfl
@[simp] theorem State.setBit_alp (s : State) (f : Fld) (i : Nat) : (s.setBit f i).alp = s.alp := rfl
@[simp] theorem State.setBit_sec (s : State) (f : Fld) (i : Nat) : (s.setBit f i).sec = s.sec := rfl
@[simp] theorem State.setBit_rpc (s : State) (f : Fld) (i : Nat) : (s.setBit f i).rpc = s.rpc := rfl
@[simp] theorem State.setBit_hbr (s : State) (f : Fld) (i : Nat) : (s.setBit f i).hbr = s.hbr := rfl
@[simp] theorem State.setBit_twn (s : State) (f : Fld) (i : Nat) : (s.setBit f i).twn = s.twn := rfl

/-! #### `clrBit` -/

@[simp] theorem State.clrBit_pending (s : State) (f : Fld) (i : Nat) : (s.clrBit f i).pending = s.pending := rfl
@[simp] theorem State.clrBit_free (s : State) (f : Fld) (i : Nat) : (s.clrBit f i).free = s.free := rfl
@[simp] theorem State.clrBit_tm (s : State) (f : Fld) (i : Nat) : (s.clrBit f i).tm = s.tm := rfl
@[simp] theorem State.clrBit_md (s : State) (f : Fld) (i : Nat) : (s.clrBit f i).md = s.md := rfl
@[simp] theorem State.clrBit_chs (s : State) (f : Fld) (i : Nat) : (s.clrBit f i).chs = s.chs := rfl
@[simp] theorem State.clrBit_forces (s : State) (f : Fld) (i : Nat) : (s.clrBit f i).forces = s.forces := rfl
@[simp] theorem State.clrBit_lane (s : State) (f : Fld) (i : Nat) : (s.clrBit f i).lane = s.lane := rfl
@[simp] theorem State.clrBit_rcd (s : State) (f : Fld) (i : Nat) : (s.clrBit f i).rcd = s.rcd := rfl
@[simp] theorem State.clrBit_sio (s : State) (f : Fld) (i : Nat) : (s.clrBit f i).sio = s.sio := rfl
@[simp] theorem State.clrBit_dlk (s : State) (f : Fld) (i : Nat) : (s.clrBit f i).dlk = s.dlk := rfl
@[simp] theorem State.clrBit_ptn (s : State) (f : Fld) (i : Nat) : (s.clrBit f i).ptn = s.ptn := rfl
@[simp] theorem State.clrBit_tmu (s : State) (f : Fld) (i : Nat) : (s.clrBit f i).tmu = s.tmu := rfl
@[simp] theorem State.clrBit_gwy (s : State) (f : Fld) (i : Nat) : (s.clrBit f i).gwy = s.gwy := rfl
@[simp] theorem State.clrBit_alp (s : State) (f : Fld) (i : Nat) : (s.clrBit f i).alp = s.alp := rfl
@[simp] theorem State.clrBit_sec (s : State) (f : Fld) (i : Nat) : (s.clrBit f i).sec = s.sec := rfl
@[simp] theorem State.clrBit_rpc (s : State) (f : Fld) (i : Nat) : (s.clrBit f i).rpc = s.rpc := rfl
@[simp] theorem State.clrBit_hbr (s : State) (f : Fld) (i : Nat) : (s.clrBit f i).hbr = s.hbr := rfl
@[simp] theorem State.clrBit_twn (s : State) (f : Fld) (i : Nat) : (s.clrBit f i).twn = s.twn := rfl

/-! #### `modLane` -/

@[simp] theorem State.modLane_pending (s : State) (c : Ch) (l : Nat) (f : LaneSt → LaneSt) : (s.modLane c l f).pending = s.pending := rfl
@[simp] theorem State.modLane_free (s : State) (c : Ch) (l : Nat) (f : LaneSt → LaneSt) : (s.modLane c l f).free = s.free := rfl
@[simp] theorem State.modLane_regs (s : State) (c : Ch) (l : Nat) (f : LaneSt → LaneSt) : (s.modLane c l f).regs = s.regs := rfl
@[simp] theorem State.modLane_tm (s : State) (c : Ch) (l : Nat) (f : LaneSt → LaneSt) : (s.modLane c l f).tm = s.tm := rfl
@[simp] theorem State.modLane_md (s : State) (c : Ch) (l : Nat) (f : LaneSt → LaneSt) : (s.modLane c l f).md = s.md := rfl
@[simp] theorem State.modLane_forces (s : State) (c : Ch) (l : Nat) (f : LaneSt → LaneSt) : (s.modLane c l f).forces = s.forces := rfl
@[simp] theorem State.modLane_lane (s : State) (c : Ch) (l : Nat) (f : LaneSt → LaneSt) : (s.modLane c l f).lane = s.lane := rfl
@[simp] theorem State.modLane_rcd (s : State) (c : Ch) (l : Nat) (f : LaneSt → LaneSt) : (s.modLane c l f).rcd = s.rcd := rfl
@[simp] theorem State.modLane_sio (s : State) (c : Ch) (l : Nat) (f : LaneSt → LaneSt) : (s.modLane c l f).sio = s.sio := rfl
@[simp] theorem State.modLane_dlk (s : State) (c : Ch) (l : Nat) (f : LaneSt → LaneSt) : (s.modLane c l f).dlk = s.dlk := rfl
@[simp] theorem State.modLane_ptn (s : State) (c : Ch) (l : Nat) (f : LaneSt → LaneSt) : (s.modLane c l f).ptn = s.ptn := rfl
@[simp] theorem State.modLane_tmu (s : State) (c : Ch) (l : Nat) (f : LaneSt → LaneSt) : (s.modLane c l f).tmu = s.tmu := rfl
@[simp] theorem State.modLane_gwy (s : State) (c : Ch) (l : Nat) (f : LaneSt → LaneSt) : (s.modLane c l f).gwy = s.gwy := rfl
@[simp] theorem State.modLane_alp (s : State) (c : Ch) (l : Nat) (f : LaneSt → LaneSt) : (s.modLane c l f).alp = s.alp := rfl
@[simp] theorem State.modLane_sec (s : State) (c : Ch) (l : Nat) (f : LaneSt → LaneSt) : (s.modLane c l f).sec = s.sec := rfl
@[simp] theorem State.modLane_rpc (s : State) (c : Ch) (l : Nat) (f : LaneSt → LaneSt) : (s.modLane c l f).rpc = s.rpc := rfl
@[simp] theorem State.modLane_hbr (s : State) (c : Ch) (l : Nat) (f : LaneSt → LaneSt) : (s.modLane c l f).hbr = s.hbr := rfl
@[simp] theorem State.modLane_twn (s : State) (c : Ch) (l : Nat) (f : LaneSt → LaneSt) : (s.modLane c l f).twn = s.twn := rfl

/-! #### `modLoop` -/

@[simp] theorem State.modLoop_pending (s : State) (n : Nat) (f : AlpLoop → AlpLoop) : (s.modLoop n f).pending = s.pending := rfl
@[simp] theorem State.modLoop_free (s : State) (n : Nat) (f : AlpLoop → AlpLoop) : (s.modLoop n f).free = s.free := rfl
@[simp] theorem State.modLoop_regs (s : State) (n : Nat) (f : AlpLoop → AlpLoop) : (s.modLoop n f).regs = s.regs := rfl
@[simp] theorem State.modLoop_tm (s : State) (n : Nat) (f : AlpLoop → AlpLoop) : (s.modLoop n f).tm = s.tm := rfl
@[simp] theorem State.modLoop_md (s : State) (n : Nat) (f : AlpLoop → AlpLoop) : (s.modLoop n f).md = s.md := rfl
@[simp] theorem State.modLoop_chs (s : State) (n : Nat) (f : AlpLoop → AlpLoop) : (s.modLoop n f).chs = s.chs := rfl
@[simp] theorem State.modLoop_forces (s : State) (n : Nat) (f : AlpLoop → AlpLoop) : (s.modLoop n f).forces = s.forces := rfl
@[simp] theorem State.modLoop_lane (s : State) (n : Nat) (f : AlpLoop → AlpLoop) : (s.modLoop n f).lane = s.lane := rfl
@[simp] theorem State.modLoop_rcd (s : State) (n : Nat) (f : AlpLoop → AlpLoop) : (s.modLoop n f).rcd = s.rcd := rfl
@[simp] theorem State.modLoop_sio (s : State) (n : Nat) (f : AlpLoop → AlpLoop) : (s.modLoop n f).sio = s.sio := rfl
@[simp] theorem State.modLoop_dlk (s : State) (n : Nat) (f : AlpLoop → AlpLoop) : (s.modLoop n f).dlk = s.dlk := rfl
@[simp] theorem State.modLoop_ptn (s : State) (n : Nat) (f : AlpLoop → AlpLoop) : (s.modLoop n f).ptn = s.ptn := rfl
@[simp] theorem State.modLoop_tmu (s : State) (n : Nat) (f : AlpLoop → AlpLoop) : (s.modLoop n f).tmu = s.tmu := rfl
@[simp] theorem State.modLoop_gwy (s : State) (n : Nat) (f : AlpLoop → AlpLoop) : (s.modLoop n f).gwy = s.gwy := rfl
@[simp] theorem State.modLoop_sec (s : State) (n : Nat) (f : AlpLoop → AlpLoop) : (s.modLoop n f).sec = s.sec := rfl
@[simp] theorem State.modLoop_rpc (s : State) (n : Nat) (f : AlpLoop → AlpLoop) : (s.modLoop n f).rpc = s.rpc := rfl
@[simp] theorem State.modLoop_hbr (s : State) (n : Nat) (f : AlpLoop → AlpLoop) : (s.modLoop n f).hbr = s.hbr := rfl
@[simp] theorem State.modLoop_twn (s : State) (n : Nat) (f : AlpLoop → AlpLoop) : (s.modLoop n f).twn = s.twn := rfl

/-! #### `modOut` -/

@[simp] theorem State.modOut_pending (s : State) (o : Nat) (f : OutSt → OutSt) : (s.modOut o f).pending = s.pending := rfl
@[simp] theorem State.modOut_free (s : State) (o : Nat) (f : OutSt → OutSt) : (s.modOut o f).free = s.free := rfl
@[simp] theorem State.modOut_regs (s : State) (o : Nat) (f : OutSt → OutSt) : (s.modOut o f).regs = s.regs := rfl
@[simp] theorem State.modOut_tm (s : State) (o : Nat) (f : OutSt → OutSt) : (s.modOut o f).tm = s.tm := rfl
@[simp] theorem State.modOut_md (s : State) (o : Nat) (f : OutSt → OutSt) : (s.modOut o f).md = s.md := rfl
@[simp] theorem State.modOut_chs (s : State) (o : Nat) (f : OutSt → OutSt) : (s.modOut o f).chs = s.chs := rfl
@[simp] theorem State.modOut_forces (s : State) (o : Nat) (f : OutSt → OutSt) : (s.modOut o f).forces = s.forces := rfl
@[simp] theorem State.modOut_lane (s : State) (o : Nat) (f : OutSt → OutSt) : (s.modOut o f).lane = s.lane := rfl
@[simp] theorem State.modOut_rcd (s : State) (o : Nat) (f : OutSt → OutSt) : (s.modOut o f).rcd = s.rcd := rfl
@[simp] theorem State.modOut_dlk (s : State) (o : Nat) (f : OutSt → OutSt) : (s.modOut o f).dlk = s.dlk := rfl
@[simp] theorem State.modOut_ptn (s : State) (o : Nat) (f : OutSt → OutSt) : (s.modOut o f).ptn = s.ptn := rfl
@[simp] theorem State.modOut_tmu (s : State) (o : Nat) (f : OutSt → OutSt) : (s.modOut o f).tmu = s.tmu := rfl
@[simp] theorem State.modOut_gwy (s : State) (o : Nat) (f : OutSt → OutSt) : (s.modOut o f).gwy = s.gwy := rfl
@[simp] theorem State.modOut_alp (s : State) (o : Nat) (f : OutSt → OutSt) : (s.modOut o f).alp = s.alp := rfl
@[simp] theorem State.modOut_sec (s : State) (o : Nat) (f : OutSt → OutSt) : (s.modOut o f).sec = s.sec := rfl
@[simp] theorem State.modOut_rpc (s : State) (o : Nat) (f : OutSt → OutSt) : (s.modOut o f).rpc = s.rpc := rfl
@[simp] theorem State.modOut_hbr (s : State) (o : Nat) (f : OutSt → OutSt) : (s.modOut o f).hbr = s.hbr := rfl
@[simp] theorem State.modOut_twn (s : State) (o : Nat) (f : OutSt → OutSt) : (s.modOut o f).twn = s.twn := rfl

/-! #### `modSlot` -/

@[simp] theorem State.modSlot_pending (s : State) (p : Nat) (f : ArbSlot → ArbSlot) : (s.modSlot p f).pending = s.pending := rfl
@[simp] theorem State.modSlot_free (s : State) (p : Nat) (f : ArbSlot → ArbSlot) : (s.modSlot p f).free = s.free := rfl
@[simp] theorem State.modSlot_regs (s : State) (p : Nat) (f : ArbSlot → ArbSlot) : (s.modSlot p f).regs = s.regs := rfl
@[simp] theorem State.modSlot_tm (s : State) (p : Nat) (f : ArbSlot → ArbSlot) : (s.modSlot p f).tm = s.tm := rfl
@[simp] theorem State.modSlot_md (s : State) (p : Nat) (f : ArbSlot → ArbSlot) : (s.modSlot p f).md = s.md := rfl
@[simp] theorem State.modSlot_chs (s : State) (p : Nat) (f : ArbSlot → ArbSlot) : (s.modSlot p f).chs = s.chs := rfl
@[simp] theorem State.modSlot_forces (s : State) (p : Nat) (f : ArbSlot → ArbSlot) : (s.modSlot p f).forces = s.forces := rfl
@[simp] theorem State.modSlot_lane (s : State) (p : Nat) (f : ArbSlot → ArbSlot) : (s.modSlot p f).lane = s.lane := rfl
@[simp] theorem State.modSlot_rcd (s : State) (p : Nat) (f : ArbSlot → ArbSlot) : (s.modSlot p f).rcd = s.rcd := rfl
@[simp] theorem State.modSlot_sio (s : State) (p : Nat) (f : ArbSlot → ArbSlot) : (s.modSlot p f).sio = s.sio := rfl
@[simp] theorem State.modSlot_dlk (s : State) (p : Nat) (f : ArbSlot → ArbSlot) : (s.modSlot p f).dlk = s.dlk := rfl
@[simp] theorem State.modSlot_ptn (s : State) (p : Nat) (f : ArbSlot → ArbSlot) : (s.modSlot p f).ptn = s.ptn := rfl
@[simp] theorem State.modSlot_tmu (s : State) (p : Nat) (f : ArbSlot → ArbSlot) : (s.modSlot p f).tmu = s.tmu := rfl
@[simp] theorem State.modSlot_gwy (s : State) (p : Nat) (f : ArbSlot → ArbSlot) : (s.modSlot p f).gwy = s.gwy := rfl
@[simp] theorem State.modSlot_alp (s : State) (p : Nat) (f : ArbSlot → ArbSlot) : (s.modSlot p f).alp = s.alp := rfl
@[simp] theorem State.modSlot_sec (s : State) (p : Nat) (f : ArbSlot → ArbSlot) : (s.modSlot p f).sec = s.sec := rfl
@[simp] theorem State.modSlot_rpc (s : State) (p : Nat) (f : ArbSlot → ArbSlot) : (s.modSlot p f).rpc = s.rpc := rfl
@[simp] theorem State.modSlot_hbr (s : State) (p : Nat) (f : ArbSlot → ArbSlot) : (s.modSlot p f).hbr = s.hbr := rfl

/-! #### Register fields -/

/-- A field read after it was written holds the value cut to its width. -/
@[simp] theorem State.rd_wr_same (s : State) (f : Fld) (v : Nat) : (s.wr f v).rd f = trunc f.width v := by
  simp [State.rd]

/-- A write leaves every field at another place alone. -/
theorem State.rd_wr_ne (s : State) (f g : Fld) (v : Nat) (h : g.key ≠ f.key) : (s.wr f v).rd g = s.rd g := by
  simp [State.rd, FMap.get_set_other _ _ _ _ h]

@[simp] theorem State.rd_wrb_same (s : State) (f : Fld) (b : Bool) : (s.wrb f b).rd f = trunc f.width (bitNat b) := by
  simp [State.wrb]

theorem State.rd_wrb_ne (s : State) (f g : Fld) (b : Bool) (h : g.key ≠ f.key) : (s.wrb f b).rd g = s.rd g :=
  State.rd_wr_ne s f g _ h

theorem State.rd_inc_ne (s : State) (f g : Fld) (h : g.key ≠ f.key) : (s.inc f).rd g = s.rd g := State.rd_wr_ne s f g _ h

theorem State.rd_setBit_ne (s : State) (f g : Fld) (i : Nat) (h : g.key ≠ f.key) : (s.setBit f i).rd g = s.rd g :=
  State.rd_wr_ne s f g _ h

theorem State.rd_clrBit_ne (s : State) (f g : Fld) (i : Nat) (h : g.key ≠ f.key) : (s.clrBit f i).rd g = s.rd g :=
  State.rd_wr_ne s f g _ h

/-- Register fields depend on the register map alone. -/
theorem State.rd_congr {s t : State} (h : t.regs = s.regs) (f : Fld) : t.rd f = s.rd f := by simp [State.rd, h]

/-! #### Channels and lanes -/

@[simp] theorem Per3.get_set_same (p : Per3 α) (c : Ch) (v : α) : (p.set c v).get c = v := by cases c <;> rfl

theorem Per3.get_set_ne (p : Per3 α) {c d : Ch} (v : α) (h : d ≠ c) : (p.set c v).get d = p.get d := by
  cases c <;> cases d <;> first | rfl | exact absurd rfl h

@[simp] theorem State.ch_modCh_same (s : State) (c : Ch) (f : Chan → Chan) : (s.modCh c f).ch c = f (s.ch c) := by
  simp [State.ch]

theorem State.ch_modCh_ne (s : State) {c d : Ch} (f : Chan → Chan) (h : d ≠ c) : (s.modCh c f).ch d = s.ch d := by
  simp [State.ch, Per3.get_set_ne _ _ h]

@[simp] theorem State.lane_modLane_same (s : State) (c : Ch) (l : Nat) (f : LaneSt → LaneSt) :
    (s.modLane c l f).lane' c l = f (s.lane' c l) := by
  simp [State.modLane, State.lane', Chan.lane]

theorem State.lane_modLane_ne (s : State) (c : Ch) {l j : Nat} (f : LaneSt → LaneSt) (h : j ≠ l) :
    (s.modLane c l f).lane' c j = s.lane' c j := by
  simp [State.modLane, State.lane', Chan.lane, FMap.get_set_ne _ _ _ h]

@[simp] theorem State.rd_modCh (s : State) (c : Ch) (f : Chan → Chan) (g : Fld) : (s.modCh c f).rd g = s.rd g := rfl
@[simp] theorem State.rd_modLane (s : State) (c : Ch) (l : Nat) (f : LaneSt → LaneSt) (g : Fld) :
    (s.modLane c l f).rd g = s.rd g := rfl
@[simp] theorem State.ch_wr (s : State) (f : Fld) (v : Nat) (c : Ch) : (s.wr f v).ch c = s.ch c := rfl
@[simp] theorem State.ch_wrb (s : State) (f : Fld) (v : Bool) (c : Ch) : (s.wrb f v).ch c = s.ch c := rfl

/-! #### Folds -/

/-- What every step of a fold keeps, the fold keeps. -/
theorem foldSt_keeps {α β : Type} (p : State → β) (l : List α) (f : α → State → State)
    (h : ∀ x s, p (f x s) = p s) (s : State) : p (foldSt l f s) = p s := by
  induction l generalizing s with
  | nil => rfl
  | cons x l ih => simpa [foldSt, h] using ih (f x s)

end Sys2Proof.Machine
end

