-- ==== Sys2Proof/Laws/Lane.lean ====
section
/-! SUPPORT. What the shared operations of the logic engine do: a lane's execution, its updates, and the memory codes
where a codeword is sound. -/

namespace Sys2Proof.Machine

/-! ### Lane updates -/

@[simp] theorem State.modLane_img (s : State) (c : Ch) (l : Nat) (f : LaneSt → LaneSt) :
    ((s.modLane c l f).ch c).img = (s.ch c).img := by simp [State.modLane]

theorem State.modLane_ch (s : State) (c : Ch) (l : Nat) (f : LaneSt → LaneSt) :
    (s.modLane c l f).ch c = { s.ch c with lanes := FMap.set LaneSt.init (s.ch c).lanes l (f (s.lane' c l)) } := by
  simp [State.modLane, State.lane']

theorem State.modLane_ch_ne (s : State) {c d : Ch} (l : Nat) (f : LaneSt → LaneSt) (h : d ≠ c) :
    (s.modLane c l f).ch d = s.ch d := State.ch_modCh_ne s _ h

/-- A lane update changes the channels' part of the state only. -/
theorem State.modLane_frame (s : State) (c : Ch) (l : Nat) (f : LaneSt → LaneSt) :
    s.modLane c l f = { s with chs := (s.modLane c l f).chs } := rfl

theorem State.lane_modCh_of_lanes (s : State) (c : Ch) (f : Chan → Chan) (h : ∀ x, (f x).lanes = x.lanes) (l : Nat) :
    (s.modCh c f).lane' c l = s.lane' c l := by simp [State.lane', Chan.lane, h]

/-! ### Execution -/

/-- A ready lane whose fetch succeeds runs the effect on the state after the fetch and goes on by one instruction. -/
theorem State.laneStep_eq (s : State) (c : Ch) (l : Fin 16) (i : LInstr) (eff : State → State)
    (h : s.laneReady c l.val = true) (hn : s.laneNext c l.val = some i) (hf : (s.fetch c l.val).1 = false) :
    s.laneStep c l i eff = (eff (s.fetch c l.val).2).modLane c l.val fun ln =>
      { ln with idx := ln.idx + 1, cnt := ln.cnt + 1, dirty := addDirty ln.dirty i.dirty } := by
  simp [State.laneStep, State.laneDo, h, hn, hf]

/-- A lane that may not execute leaves the state as it is. -/
theorem State.laneStep_idle (s : State) (c : Ch) (l : Fin 16) (i : LInstr) (eff : State → State)
    (h : s.laneReady c l.val = false) : s.laneStep c l i eff = s := by simp [State.laneStep, h]

/-- Nor does one whose stream has another instruction next. -/
theorem State.laneStep_other (s : State) (c : Ch) (l : Fin 16) (i : LInstr) (eff : State → State)
    (h : s.laneNext c l.val ≠ some i) : s.laneStep c l i eff = s := by simp [State.laneStep, h]

@[simp] theorem addDirty_nil (d : FMap Word) : addDirty d [] = d := rfl

/-! ### Sound codewords -/

/-- A codeword without error reads as stored and changes nothing. -/
theorem State.readMapCw_clean (s : State) (c : Ch) (cw : Nat) (h : FMap.get 0 (s.ch c).errs cw = 0) :
    s.readMapCw c cw = (0, s) := by
  unfold State.readMapCw
  exact if_pos h

@[simp] theorem halfOf_zero (i : Nat) : halfOf 0#64 i = 0#32 := by simp [halfOf]

theorem State.readImg_clean (s : State) (c : Ch) (copy : Option Nat) (i : Nat)
    (h : FMap.get 0 (s.ch c).errs (Img.cw copy i) = 0) :
    s.readImg c copy i = (⟨s.ideal c copy i, FMap.get false (s.ch c).pmap (Miu.pkey (Img.cw copy i) i)⟩, s) := by
  simp [State.readImg, State.readMapCw_clean s c _ h]

theorem State.flip_off (s : State) (c : Ch) (cw : Nat) (h : s.flipHits c cw = false) : s.flip c cw = s := by
  simp [State.flip, h]

theorem State.writeMapHalf_clean (s : State) (c : Ch) (cw i : Nat) (h : FMap.get 0 (s.ch c).errs cw = 0)
    (hf : s.flipHits c cw = false) : s.writeMapHalf c cw i = s := by
  unfold State.writeMapHalf
  simp only [if_pos h]
  exact State.flip_off s c cw hf

/-- A store into a sound codeword of a lane's replica changes the overlay and the poison flag of its word. -/
theorem State.storeImg_lane_clean (s : State) (c : Ch) (l i : Nat) (v : Psn Word)
    (h : FMap.get 0 (s.ch c).errs (Miu.cwLane l i) = 0) (hf : s.flipHits c (Miu.cwLane l i) = false) :
    s.storeImg c (some l) i v = (s.modLane c l fun ln => { ln with own := FMap.set none ln.own i (some v.v) }).setPsn c
      (Miu.pkey (Miu.cwLane l i) i) v.p := by
  simp [State.storeImg, State.markImg, Img.cw, State.writeMapHalf_clean s c _ i h hf]

theorem State.readTc_clean (s : State) (c : Ch) (counter : Bool) (t : Nat)
    (h : FMap.get 0 (s.ch c).errs (if counter then Miu.cwCounter t else Miu.cwTimer t) = 0) :
    s.readTc c counter t = (⟨FMap.get 0 (if counter then (s.ch c).counters else (s.ch c).timers) t,
      FMap.get false (s.ch c).pmap (Miu.pkey (if counter then Miu.cwCounter t else Miu.cwTimer t) t)⟩, s) := by
  simp [State.readTc, State.readMapCw_clean s c _ h]

/-! ### Poison flags -/

theorem State.setPsn_ch (s : State) (c : Ch) (k : Nat) (p : Bool) :
    (s.setPsn c k p).ch c = { s.ch c with pmap := FMap.set false (s.ch c).pmap k p } := by simp [State.setPsn]

theorem State.setPsn_ch_ne (s : State) {c d : Ch} (k : Nat) (p : Bool) (h : d ≠ c) : (s.setPsn c k p).ch d = s.ch d :=
  State.ch_modCh_ne s _ h

@[simp] theorem State.setPsn_lane (s : State) (c : Ch) (k : Nat) (p : Bool) (l : Nat) :
    (s.setPsn c k p).lane' c l = s.lane' c l := by simp [State.setPsn, State.lane', Chan.lane]

@[simp] theorem State.setPsn_regs (s : State) (c : Ch) (k : Nat) (p : Bool) : (s.setPsn c k p).regs = s.regs := rfl

/-! ### Operand reads leave the lanes' working state -/

@[simp] theorem State.miuErr_chs (s : State) (c : Ch) (k a y b : Nat) : (s.miuErr c k a y b).chs = s.chs := rfl

@[simp] theorem State.setErr_lane (s : State) (c : Ch) (cw : Nat) (e : BitVec 72) (l : Nat) :
    (s.setErr c cw e).lane' c l = s.lane' c l := by simp [State.setErr, State.lane', Chan.lane]

@[simp] theorem State.setTag_lane (s : State) (c : Ch) (cw : Nat) (p : Bool) (l : Nat) :
    (s.setTag c cw p).lane' c l = s.lane' c l := by simp [State.setTag, State.lane', Chan.lane]

theorem State.lane_congr {s t : State} (h : t.chs = s.chs) (c : Ch) (l : Nat) : t.lane' c l = s.lane' c l := by
  simp [State.lane', State.ch, h]

@[simp] theorem State.miuUncorrectable_lane (s : State) (c : Ch) (cw : Nat) (e : BitVec 72) (l : Nat) :
    (s.miuUncorrectable c cw e).lane' c l = s.lane' c l := rfl

@[simp] theorem State.miuCorrected_lane (s : State) (c : Ch) (cw : Nat) (e : BitVec 72) (b : Nat) (q : Bool) (l : Nat) :
    (s.miuCorrected c cw e b q).lane' c l = s.lane' c l := by
  unfold State.miuCorrected
  dsimp only
  split
  · exact State.lane_congr (by simp) c l
  · split
    · exact State.lane_congr (by simp) c l
    · split
      · exact State.lane_congr (by simp) c l
      · rw [State.lane_modCh_of_lanes _ c (fun h => { h with wbq := h.wbq ++ [cw] }) (fun _ => rfl) l]
        exact State.lane_congr (by simp) c l

/-- A read through the memory code leaves every lane's own state. -/
@[simp] theorem State.readMapCw_lane (s : State) (c : Ch) (cw l : Nat) : (s.readMapCw c cw).2.lane' c l = s.lane' c l := by
  unfold State.readMapCw
  dsimp only
  split
  · rfl
  · split <;> simp

@[simp] theorem State.readTagCw_lane (s : State) (c : Ch) (cw : Nat) (d : BitVec 64) (l : Nat) :
    (s.readTagCw c cw d).2.lane' c l = s.lane' c l := by
  unfold State.readTagCw
  dsimp only
  split
  · exact State.lane_congr rfl c l
  · split
    · rfl
    · split
      · exact State.lane_congr rfl c l
      · split <;> simp

@[simp] theorem State.readImg_lane (s : State) (c : Ch) (copy : Option Nat) (i l : Nat) :
    (s.readImg c copy i).2.lane' c l = s.lane' c l := State.readMapCw_lane s c _ l

@[simp] theorem State.tableEntry_lane (s : State) (c : Ch) (b : Bank) (t i l : Nat) :
    (s.tableEntry c b t i).2.lane' c l = s.lane' c l := State.readTagCw_lane s c _ _ l

/-- A poisoned operand sets the lane's poison status and nothing else of it. -/
@[simp] theorem State.laneTook_lane (s : State) (c : Ch) (l : Nat) (p : Bool) :
    (s.laneTook c l p).lane' c l = { s.lane' c l with psn := (s.lane' c l).psn || p } := by
  cases p
  · simp [State.laneTook]
  · simp [State.laneTook, State.lane', Chan.lane, State.modLane]

theorem State.laneWord_lane (s : State) (c : Ch) (l w : Nat) :
    (s.laneWord c l w).2.lane' c l = { s.lane' c l with psn := (s.lane' c l).psn || (s.laneWord c l w).1.p } := by
  simp [State.laneWord]

theorem State.laneBit_lane (s : State) (c : Ch) (l : Nat) (b : BitAddr) :
    (s.laneBit c l b).2.lane' c l = { s.lane' c l with psn := (s.lane' c l).psn || (s.laneBit c l b).1.p } := by
  simp [State.laneBit]

theorem State.bitOp_lane (s : State) (c : Ch) (l : Nat) (x : BitOp) :
    (s.bitOp c l x).2.lane' c l = { s.lane' c l with psn := (s.lane' c l).psn || (s.bitOp c l x).1.p } := by
  cases x
  · exact State.laneBit_lane s c l _
  · simp [State.bitOp]

theorem State.arOp_lane (s : State) (c : Ch) (l : Nat) (x : ArOp) :
    (s.arOp c l x).2.lane' c l = { s.lane' c l with psn := (s.lane' c l).psn || (s.arOp c l x).1.p } := by
  cases x
  · exact State.laneWord_lane s c l _
  · simp [State.arOp]

theorem State.logOp_lane (s : State) (c : Ch) (l : Nat) (x : LogOp) :
    (s.logOp c l x).2.lane' c l = { s.lane' c l with psn := (s.lane' c l).psn || (s.logOp c l x).1.p } := by
  cases x
  · exact State.laneWord_lane s c l _
  · simp [State.logOp]
  · simp [State.logOp]

theorem State.shOp_lane (s : State) (c : Ch) (l : Nat) (x : ShOp) :
    (s.shOp c l x).2.lane' c l = { s.lane' c l with psn := (s.lane' c l).psn || (s.shOp c l x).1.p } := by
  cases x
  · exact State.laneWord_lane s c l _
  · simp [State.shOp]

theorem State.limOp_lane (s : State) (c : Ch) (l : Nat) (x : LimOp) :
    (s.limOp c l x).2.lane' c l =
      { s.lane' c l with psn := (s.lane' c l).psn || ((s.limOp c l x).1.2.1.p || (s.limOp c l x).1.2.2.p) } := by
  cases x
  · simp [State.limOp, State.laneWord_lane, Bool.or_assoc]
  · simp [State.limOp]

end Sys2Proof.Machine
end

