-- ==== Sys2Proof/Safety.lean ====
section
/-! DEFINITION. What counts as a safe run: no step stops. -/

namespace Sys2Proof

/-- `n` steps from a state answer next states only. -/
def safeRun : Nat → Machine.State → Bool
  | 0, _ => true
  | n + 1, s =>
    match Machine.step s with
    | .next t => safeRun n t
    | _ => false

end Sys2Proof
end

