-- ==== Sys2Proof/Tests/Slice0.lean ====
section
/-! SUPPORT. Tests on fixed values: the operand checks, one word of each program instruction written out from Tables 4-1
to 4-3, small steps with results taken from the spec's own examples and rules, and for every statement with hypotheses
a state and operands that meet them. -/

namespace Sys2Proof.Tests

open Sys2Proof Sys2Proof.Machine Sys2Proof.Claims

set_option Elab.async false

/-! ### Helpers -/

/-- The state with the fields listed set. -/
def regs (s : State) (l : List (Fld × Nat)) : State := l.foldl (fun s e => s.wr e.1 e.2) s

/-- A bank with one stream on lane 0 (`NOP`, `END`), two symbols, a table of two entries, timer 3 with preset 5 and counter 2 with
preset 9. -/
def bank : Bank :=
  { id := 7, tbc := 2, phases := 1, lanesUsed := 1, warm := true, layoutId := 1, streams := [(0, [0x04000000#32, 0x0C000000#32])],
    symbols := [⟨1#32, true, 0x200⟩, ⟨2#32, false, 0x100⟩], inits := [], tPresets := [(3, 5)], cPresets := [(2, 9#32)],
    tables := [{ num := 7, len := 2, dflt := 99#32, entries := [10#32, 20#32] }], asserts := [], migrFrom := 0, migr := [] }

/-- A channel in the vote with the bank. -/
def voting : Chan := { Chan.init with st := .vote, run := some bank }

/-- The module in RUN3 as SOLO, all channels in the vote, every domain powered and loaded, the host port up. -/
def live : State :=
  regs { State.reset with
    rpc := { RpcSt.init with por := false }, md := { ModSt.init with mode := .run3, role := .solo },
    chs := ⟨voting, voting, voting⟩,
    tm := { tcNs := 1000000000, cyc := 1000, opNs := 5000000000, valid := true, rpcStrobe := false, started := true, opAdd := 0 } }
    [(Reg.MOD_DOMAIN_PGOOD, 255), (Reg.RPC_LOAD_LOAD_DONE, 255), (Reg.HBR_LINK_STATE, 3),
     (Reg.LEN_STATUS_RUN 0, 1), (Reg.LEN_STATUS_RUN 1, 1), (Reg.LEN_STATUS_RUN 2, 1)]

/-- A command record of the host as it arrives, and as it applies. -/
def arrives (w1 w2 w3 : Word) : CmdRec := { form := .arrive 5#16 100 false, port := .host, w1 := w1, w2 := w2, w3 := w3 }
def applies (w1 w2 w3 : Word) : CmdRec := { form := .apply 5#16, port := .host, w1 := w1, w2 := w2, w3 := w3 }

/-- The next state of a command, where it has one. -/
def after (i : Instr) (s : State) : State :=
  match exec i s with
  | .next t => t
  | _ => s

/-! ### Operand checks: an ill-formed term for each -/

theorem test_wf_limit : (Instr.limit .chA 0 (.wp false 0x3FFE#14)).wf = true ∧ (Instr.limit .chA 0 (.wp false 0x3FFF#14)).wf = false := by
  decide
theorem test_wf_transmitWindow : (Instr.transmitWindow 2047).wf = true ∧ (Instr.transmitWindow 2048).wf = false := by decide
theorem test_wf_messagePeriod : (Instr.messagePeriod 895).wf = true ∧ (Instr.messagePeriod 896).wf = false := by decide
theorem test_wf_portLinkChange : (Instr.portLinkChange 0 3).wf = true ∧ (Instr.portLinkChange 0 4).wf = false := by decide
theorem test_wf_snapshotBlock : (Instr.snapshotBlock .chA .chB 561 true false []).wf = true ∧
    (Instr.snapshotBlock .chA .chB 562 true false []).wf = false ∧
    (Instr.snapshotBlock .chA .chB 0 true false (List.replicate 257 0)).wf = false := by decide +kernel
theorem test_wf_twinSnapshotBlock : (Instr.twinSnapshotBlock 561 true []).wf = true ∧ (Instr.twinSnapshotBlock 562 true []).wf = false := by
  decide
theorem test_wf_inputRecord : (Instr.inputRecord .chA .chB (List.replicate 64 0)).wf = true ∧
    (Instr.inputRecord .chA .chB []).wf = false := by decide +kernel
theorem test_wf_twinInputRecord : (Instr.twinInputRecord [0]).wf = true ∧
    (Instr.twinInputRecord (List.replicate 65537 0)).wf = false := by
  refine ⟨by decide, ?_⟩
  show decide ((List.replicate 65537 (0 : Byte)).length ≤ 65536) = false
  rw [List.length_replicate]
  decide

/-! ### Program words bit by bit: opcode, modifier and operand of Table 4-3 -/

theorem test_decode_control :
    Rh.decode (0b000001#6 ++ 0b00#2 ++ 0x000000#24) = some .nop ∧ Rh.decode (0b000010#6 ++ 0b00#2 ++ 0x000000#24) = some .phase ∧
    Rh.decode (0b000011#6 ++ 0b00#2 ++ 0x000000#24) = some .endp ∧
    Rh.decode (0b000100#6 ++ 0b00#2 ++ 0x0003FF#24) = some (.assert 0x3FF#10) := by decide +kernel
theorem test_decode_bit_logic :
    Rh.decode (0b001000#6 ++ 0b00#2 ++ 0x03FFFF#24) = some (.ld (.bit 0x3FFFF#18)) ∧
    Rh.decode (0b001001#6 ++ 0b01#2 ++ 0x000001#24) = some (.ldn (.k true)) ∧
    Rh.decode (0b001010#6 ++ 0b01#2 ++ 0x000000#24) = some (.and (.k false)) ∧
    Rh.decode (0b001011#6 ++ 0b00#2 ++ 0x000021#24) = some (.andn (.bit 0x21#18)) ∧
    Rh.decode (0b001100#6 ++ 0b00#2 ++ 0x020000#24) = some (.or (.bit 0x20000#18)) ∧
    Rh.decode (0b001101#6 ++ 0b00#2 ++ 0x000001#24) = some (.orn (.bit 1#18)) ∧
    Rh.decode (0b001110#6 ++ 0b00#2 ++ 0x000002#24) = some (.xor (.bit 2#18)) := by decide +kernel
theorem test_decode_edges_and_stacks :
    Rh.decode (0b010000#6 ++ 0b00#2 ++ 0x024100#24) = some (.redge 0x24100#18) ∧
    Rh.decode (0b010001#6 ++ 0b00#2 ++ 0x024101#24) = some (.fedge 0x24101#18) ∧
    Rh.decode (0b010010#6 ++ 0b00#2 ++ 0x000000#24) = some .bpush ∧ Rh.decode (0b010011#6 ++ 0b00#2 ++ 0x000000#24) = some .bor ∧
    Rh.decode (0b010100#6 ++ 0b00#2 ++ 0x000000#24) = some .band ∧
    Rh.decode (0b010101#6 ++ 0b00#2 ++ 0x000000#24) = some (.zon false) ∧
    Rh.decode (0b010101#6 ++ 0b01#2 ++ 0x000000#24) = some (.zon true) ∧
    Rh.decode (0b010110#6 ++ 0b00#2 ++ 0x000000#24) = some .zoff := by decide +kernel
theorem test_decode_stores_and_loads :
    Rh.decode (0b011000#6 ++ 0b00#2 ++ 0x020040#24) = some (.out 0x20040#18) ∧
    Rh.decode (0b011001#6 ++ 0b00#2 ++ 0x020041#24) = some (.outn 0x20041#18) ∧
    Rh.decode (0b011010#6 ++ 0b00#2 ++ 0x020045#24) = some (.set 0x20045#18) ∧
    Rh.decode (0b011011#6 ++ 0b00#2 ++ 0x020046#24) = some (.rst 0x20046#18) ∧
    Rh.decode (0b011100#6 ++ 0b00#2 ++ 0x003FFF#24) = some (.stw 0x3FFF#14) ∧
    Rh.decode (0b100000#6 ++ 0b00#2 ++ 0x002150#24) = some (.ldw 0x2150#14) ∧
    Rh.decode (0b100001#6 ++ 0b01#2 ++ 0xFFFFFF#24) = some (.ldwi false 0xFFFFFF#24) ∧
    Rh.decode (0b100001#6 ++ 0b11#2 ++ 0x005678#24) = some (.ldwi true 0x5678#24) ∧
    Rh.decode (0b100010#6 ++ 0b11#2 ++ 0x00FFFF#24) = some (.ldwh 0xFFFF#16) ∧
    Rh.decode (0b100011#6 ++ 0b00#2 ++ 0x0000FF#24) = some (.ldx 0xFF#8) := by decide +kernel
theorem test_decode_arithmetic :
    Rh.decode (0b100100#6 ++ 0b00#2 ++ 0x000005#24) = some (.add (.w false 5#14)) ∧
    Rh.decode (0b100101#6 ++ 0b01#2 ++ 0x800000#24) = some (.sub (.imm false 0x800000#24)) ∧
    Rh.decode (0b100110#6 ++ 0b10#2 ++ 0x003FFF#24) = some (.mul (.w true 0x3FFF#14)) ∧
    Rh.decode (0b100111#6 ++ 0b11#2 ++ 0xFFFFFF#24) = some (.min (.imm true 0xFFFFFF#24)) ∧
    Rh.decode (0b101000#6 ++ 0b00#2 ++ 0x000001#24) = some (.max (.w false 1#14)) ∧
    Rh.decode (0b101111#6 ++ 0b00#2 ++ 0x003FFE#24) = some (.limit (.wp false 0x3FFE#14)) ∧
    Rh.decode (0b101111#6 ++ 0b11#2 ++ 0xABC123#24) = some (.limit (.p true 0x123#12 0xABC#12)) := by decide +kernel
theorem test_decode_logic_shifts_compares :
    Rh.decode (0b101001#6 ++ 0b00#2 ++ 0x000001#24) = some (.andw (.w 1#14)) ∧
    Rh.decode (0b101010#6 ++ 0b01#2 ++ 0xF00000#24) = some (.orw (.i 0xF00000#24)) ∧
    Rh.decode (0b101011#6 ++ 0b11#2 ++ 0xF00000#24) = some (.xorw (.iu 0xF00000#24)) ∧
    Rh.decode (0b101100#6 ++ 0b01#2 ++ 0x00001F#24) = some (.shl (.c 31#5)) ∧
    Rh.decode (0b101101#6 ++ 0b00#2 ++ 0x000002#24) = some (.shr (.w 2#14)) ∧
    Rh.decode (0b101110#6 ++ 0b01#2 ++ 0x000001#24) = some (.asr (.c 1#5)) ∧
    Rh.decode (0b110000#6 ++ 0b01#2 ++ 0x000001#24) = some (.ceq (.imm false 1#24)) ∧
    Rh.decode (0b110001#6 ++ 0b00#2 ++ 0x000001#24) = some (.cne (.w false 1#14)) ∧
    Rh.decode (0b110010#6 ++ 0b10#2 ++ 0x000001#24) = some (.clt (.w true 1#14)) ∧
    Rh.decode (0b110011#6 ++ 0b11#2 ++ 0x000001#24) = some (.cle (.imm true 1#24)) ∧
    Rh.decode (0b110100#6 ++ 0b00#2 ++ 0x002151#24) = some (.cgt (.w false 0x2151#14)) ∧
    Rh.decode (0b110101#6 ++ 0b00#2 ++ 0x000003#24) = some (.cge (.w false 3#14)) := by decide +kernel
theorem test_decode_timers_and_counters :
    Rh.decode (0b111000#6 ++ 0b01#2 ++ 0x000123#24) = some (.ton .e 0x123#12) ∧
    Rh.decode (0b111001#6 ++ 0b00#2 ++ 0x000FFF#24) = some (.tof .plain 0xFFF#12) ∧
    Rh.decode (0b111010#6 ++ 0b10#2 ++ 0x000001#24) = some (.tp .r 1#12) ∧
    Rh.decode (0b111011#6 ++ 0b01#2 ++ 0x000002#24) = some (.ctu .v 2#12) ∧
    Rh.decode (0b111100#6 ++ 0b10#2 ++ 0x000003#24) = some (.ctd .r 3#12) ∧
    Rh.decode (0b111101#6 ++ 0b01#2 ++ 0x000004#24) = some (.cres true 4#12) := by decide +kernel
/-- R102: a dash of Table 4-3, an operand bit that must be 0, the all-zero and the all-ones word. -/
theorem test_decode_refuses :
    Rh.decode (0b001111#6 ++ 0b00#2 ++ 0x000000#24) = none ∧ Rh.decode (0b001000#6 ++ 0b10#2 ++ 0x000000#24) = none ∧
    Rh.decode (0b001000#6 ++ 0b00#2 ++ 0x040000#24) = none ∧ Rh.decode (0b000001#6 ++ 0b00#2 ++ 0x000001#24) = none ∧
    Rh.decode (0b101111#6 ++ 0b00#2 ++ 0x003FFF#24) = none ∧ Rh.decode 0x00000000#32 = none ∧ Rh.decode 0xFFFFFFFF#32 = none := by
  decide +kernel

/-! ### The logic engine -/

/-- `live` with the instruction of a row next in a lane of CH-A, whose state is changed. -/
def running (l : Fin 16) (i : Instr) (f : LaneSt → LaneSt) : State :=
  (live.modCh .chA fun h => { h with
    run := some { bank with streams := [(l.val, [((word i).map Rh.encode).getD 0, 0x0C000000#32])] } }).modLane .chA l.val f

/-- Each of the rows is the next one of its lane, which may execute it, at lanes 0 and 15. -/
def nextAt (is : Fin 16 → List Instr) : Prop :=
  ∀ l ∈ [(0 : Fin 16), 15], ∀ i ∈ is l, runs (running l i fun x => x) .chA l ∧ isNext (running l i fun x => x) .chA l i

theorem test_hyp_BitLogicSetsBa :
    nextAt (fun l => [Instr.ld .chA l (.bit 0x3FFFF#18), .ldn .chA l (.k true), .and .chA l (.k false),
      .andn .chA l (.bit 0#18), .or .chA l (.bit 1#18), .orn .chA l (.k true), .xor .chA l (.k false)]) := by
  unfold nextAt runs isNext; decide +kernel

theorem test_hyp_StacksAndZones :
    nextAt (fun l => [Instr.bpush .chA l, .zon .chA l true]) ∧
    (∀ i ∈ [Instr.bor .chA 0, .band .chA 0, .zoff .chA 0],
      let s := running 0 i fun ln => { ln with bstk := [⟨true, false⟩], zstk := [⟨true, false⟩] }
      runs s .chA 0 ∧ isNext s .chA 0 i ∧ ((fetched s .chA 0).lane' .chA 0).bstk = ⟨true, false⟩ :: [] ∧
        ((fetched s .chA 0).lane' .chA 0).zstk = ⟨true, false⟩ :: []) := by
  unfold nextAt runs isNext; decide +kernel

theorem test_hyp_StoresAndEdgeInstructions :
    (∀ i ∈ [Instr.redge .chA 0 0x3FFFF#18, .fedge .chA 0 0x3FFFF#18, .out .chA 0 0x3FFFF#18, .outn .chA 0 0x3FFFF#18, .set .chA 0 0x3FFFF#18,
        .rst .chA 0 0x3FFFF#18, .stw .chA 0 0x3FFF#14],
      let s := running 0 i fun ln => { ln with ba := ⟨true, false⟩ }
      let u := fetched s .chA 0
      runs s .chA 0 ∧ isNext s .chA 0 i ∧ sound u .chA 0 0x1FFF ∧ (seen u .chA 0 0x1FFF).p = false ∧ (u.lane' .chA 0).ba.p = false ∧
        (u.lane' .chA 0).ze.p = false ∧ sound u .chA 0 0x5FFF ∧ (u.lane' .chA 0).wa.p = false) := by
  unfold runs isNext sound; decide +kernel

theorem test_hyp_LoadsLogicAndShifts :
    nextAt (fun l => [Instr.ldw .chA l 0x3FFF#14, .ldwi .chA l false 0xFFFFFF#24, .ldwh .chA l 0xFFFF#16,
      .andw .chA l (.w 1#14), .orw .chA l (.i 1#24), .xorw .chA l (.iu 1#24), .shl .chA l (.c 31#5), .shr .chA l (.w 1#14),
      .asr .chA l (.c 1#5)]) ∧
    (∀ e ∈ [(1, decide (1 < 2)), (2, decide (2 < 2))],
      let s := running 0 (.ldx .chA 0 7#8) fun ln => { ln with wa := ⟨BitVec.ofNat 32 e.1, false⟩ }
      let b := ((fetched s .chA 0).ch .chA).run.getD bank
      runs s .chA 0 ∧ isNext s .chA 0 (.ldx .chA 0 7#8) ∧ ((fetched s .chA 0).ch .chA).run = some b ∧
        b.table 7 = some { num := 7, len := 2, dflt := 99#32, entries := [10#32, 20#32] } ∧
        decide (((fetched s .chA 0).lane' .chA 0).wa.v.toNat < 2) = e.2) := by
  unfold nextAt runs isNext; decide +kernel

theorem test_hyp_ArithmeticAndCompares :
    nextAt (fun l => [Instr.add .chA l (.imm false 1#24), .sub .chA l (.w true 1#14), .mul .chA l (.imm true 3#24),
      .min .chA l (.w false 0#14), .max .chA l (.imm false 1#24), .limit .chA l (.p true 1#12 2#12),
      .limit .chA l (.wp false 0x3FFE#14), .ceq .chA l (.imm false 1#24), .cne .chA l (.imm false 1#24),
      .clt .chA l (.imm true 1#24), .cle .chA l (.imm false 1#24), .cgt .chA l (.w false 1#14), .cge .chA l (.imm false 1#24)]) := by
  unfold nextAt runs isNext; decide +kernel

theorem test_hyp_TimersAndCountersStep :
    ∀ i ∈ [Instr.ton .chA 0 .e 3#12, .tof .chA 0 .plain 3#12, .tp .chA 0 .r 3#12, .ctu .chA 0 .v 2#12, .ctd .chA 0 .r 2#12,
        .cres .chA 0 true 2#12],
      let s := running 0 i fun x => x
      let u := fetched s .chA 0
      let b := (u.ch .chA).run.getD bank
      runs s .chA 0 ∧ isNext s .chA 0 i ∧ (u.ch .chA).run = some b ∧ cleanTc u .chA 0 false 3 ∧ b.tPreset 3 < 2 ^ 24 ∧
        ((FMap.get 0 (u.ch .chA).timers 3).extractLsb' 0 24).toNat + 1 < 2 ^ 24 ∧ cleanTc u .chA 0 true 2 := by
  unfold runs isNext cleanTc; decide +kernel

theorem test_hyp_ControlInstructions :
    nextAt (fun l => [Instr.nop .chA l, .phase .chA l, .endp .chA l, .assert .chA l 1023#10]) := by
  unfold nextAt runs isNext; decide +kernel

/-- R68: a row that does not carry the next word of its lane's stream does nothing. -/
theorem test_not_next : (after (.bpush .chA 0) live).ch .chA = live.ch .chA := by decide +kernel

/-- A stream word with two wrong bits in its codeword. -/
def badWord (i : Instr) : State :=
  (running 0 i fun x => x).modCh .chA fun h => { h with errs := [(Miu.cwProg (live.physRun .chA) 0 0, 3#72)] }

theorem test_hyp_PoisonedFetchPoisonsLane :
    ∀ i ∈ [Instr.add .chA 0 (.imm false 1#24), .ceq .chA 0 (.imm false 1#24), .nop .chA 0, .bpush .chA 0, .zoff .chA 0],
      (badWord i).laneReady .chA 0 = true ∧ ((badWord i).fetch .chA 0).1 = true ∧ isNext (badWord i) .chA 0 i := by
  unfold isNext; decide +kernel

/-- Every lane waiting at `END`; lane 0 has stored image word 0x2100. -/
def atBarrier : State :=
  live.modCh .chA fun h => { h with lanes := (List.range 16).map fun l =>
    (l, { LaneSt.init with
      wait := .atEnd, cnt := 5, own := if l = 0 then [(0x2100, some 7#32)] else [],
      dirty := if l = 0 then [(0x2100, 0xFFFFFFFF#32)] else [] }) }

theorem test_hyp_BarrierMergesDirtyWords :
    atBarrier.rd (Reg.LEN_STATUS_RUN 0) = 1 ∧ (∀ l < 16, (atBarrier.lane' .chA l).wait ≠ .running) ∧ (atBarrier.ch .chA).errs = [] ∧
    (atBarrier.ch .chA).pmap = [] ∧ atBarrier.rdb (Reg.MIU_FLIP_CTL_ARM 0) = false ∧ atBarrier.md.cycForces = [] ∧
    atBarrier.md.debug = false ∧
    (∀ l < 16, FMap.wf 0 (atBarrier.lane' .chA l).dirty = true ∧ (atBarrier.lane' .chA l).barPsn = []) ∧
    atBarrier.rd (Reg.LEN_STATUS_PHASE 0) < 63 ∧ FMap.get 0 (atBarrier.lane' .chA 0).dirty 0x2100 = 0xFFFFFFFF#32 ∧
    (∀ j < 16, j ≠ 0 → FMap.get 0 (atBarrier.lane' .chA j).dirty 0x2100 = 0) := by
  decide +kernel

/-- The merge of R82: lane 0's value is in the master copy afterwards. -/
theorem test_barrier_merges : FMap.get 0 ((after (.phaseBarrier .chA) atBarrier).ch .chA).img 0x2100 = 7#32 := by decide +kernel

/-- R113: signed overflow wraps and sets the overflow status. -/
theorem test_add_wraps :
    (let t := after (.add .chA 0 (.imm false 1#24)) (running 0 (.add .chA 0 (.imm false 1#24)) fun ln => { ln with wa := ⟨0x7FFFFFFF#32, false⟩ })
     (t.lane' .chA 0).wa = ⟨0x80000000#32, false⟩ ∧ (t.lane' .chA 0).ovf = true) := by decide +kernel
/-- R114: the overflow status of `SHL` where a 1 is shifted out. -/
theorem test_shl_overflow :
    (let t := after (.shl .chA 0 (.c 31#5)) (running 0 (.shl .chA 0 (.c 31#5)) fun ln => { ln with wa := ⟨3#32, false⟩ })
     (t.lane' .chA 0).wa = ⟨0x80000000#32, false⟩ ∧ (t.lane' .chA 0).ovf = true) := by decide +kernel
/-- R117: an index past the table loads the default and sets the range status. -/
theorem test_ldx_range :
    (let t := after (.ldx .chA 0 7#8) (running 0 (.ldx .chA 0 7#8) fun ln => { ln with wa := ⟨2#32, false⟩ })
     (t.lane' .chA 0).wa = ⟨99#32, false⟩ ∧ (t.lane' .chA 0).rng = true) ∧
    (let t := after (.ldx .chA 0 7#8) (running 0 (.ldx .chA 0 7#8) fun ln => { ln with wa := ⟨1#32, false⟩ })
     (t.lane' .chA 0).wa = ⟨20#32, false⟩ ∧ (t.lane' .chA 0).rng = false) := by decide +kernel

/-! ### Safety inputs and outputs -/

/-- Hypotheses of `InputSamplesAndTestSupplies`: a channel with its stages on, one with them off, a declared pair, an input
of the supply, the supply driven and not overloaded, the intervals of its pulses, and the overload flag. -/
def sioIn : State := regs live [(Reg.SIO_PAIR_CFG_DECLARED 0, 1), (Reg.SIO_IN_CFG_TP 0, 1), (Reg.SIO_TP_OVL, 8)]

theorem test_hyp_InputSamplesAndTestSupplies :
    sioIn.stageOn .chA = true ∧ (live.modCh .chA fun h => { h with st := .reset }).stageOn .chA = false ∧
    (sioIn.sio.inp .chA 0).tpFault = false ∧ (sioIn.sio.inp .chA 23).forPend = false ∧
    sioIn.rdb (Reg.SIO_PAIR_CFG_DECLARED 0) = true ∧ (sioIn.sio.pr .chA 0).latched = false ∧ sioIn.rdb (Reg.SIO_PAIR_CFG_DECLARED 11) = false ∧
    sioIn.tpDriven = true ∧ sioIn.suspended 0 = false ∧ sioIn.suspended 1 = false ∧ FMap.get false sioIn.sio.tpOff 0 = false ∧
    sioIn.rd (Reg.SIO_IN_CFG_TP 0) = 0 + 1 ∧ sioIn.rd (Reg.SIO_IN_CFG_TP 23) = 0 ∧ (1 : Nat) = 4 * 0 + 1 ∧ (29 : Nat) = 4 * 3 + 17 ∧
    natBit (sioIn.rd Reg.SIO_TP_OVL) 3 = true ∧ sioIn.rd Reg.SIO_TP_OVL < 16 ∧ FMap.get false sioIn.sio.pulses 0 = false ∧
    FMap.get false ((after (.testPulse 0) sioIn).sio.pulses) 0 = true := by decide +kernel

/-- R233 and R235: 7 mA is a closed contact wherever the stage's thresholds lie, and with N = 2 its value is 1 after two samples. -/
theorem test_sample_closes : classOf .chA 0 7000 = 3 ∧ (InStage.init.ordinary 3 7000 2).fval = false ∧
    ((InStage.init.ordinary 3 7000 2).ordinary 3 7000 2).fval = true := by
  refine ⟨?_, by decide, by decide⟩
  unfold classOf
  simp only
  split_ifs <;> omega

/-- SO12 energised in its cycle of the pulse period for the high and for the low side. -/
def pulsing (low : Nat) : State :=
  { regs live [(Reg.SIO_OUT_STAT_ENERGISED 11, 1), (Reg.SIO_OUT_STAT_HS 11, 1), (Reg.SIO_OUT_STAT_LS 11, 1)] with
    tm := { live.tm with cyc := live.pulseL 11 + 22 + low } }

theorem test_hyp_OutputTestsAndLatches :
    ((pulsing 0).energised 11 = true ∧ ((pulsing 0).out 11).pulse = none ∧ (pulsing 0).suspended 1 = false ∧
      (pulsing 0).tm.cyc % (pulsing 0).pulseL 11 = 2 * 11 + 0 ∧ (pulsing 1).tm.cyc % (pulsing 1).pulseL 11 = 2 * 11 + 1) ∧
    (∀ low : Bool, let s := live.modOut 11 fun x => { x with pulse := some low, failLs := 1, failHs := 1 }
     (s.out 11).pulse = some low ∧ 110000 < 6553600 ∧ 110000 < 110000 * 2 ∧ ¬ (110000 < 0 * 2) ∧ s.latchCode 11 = 0 ∧
       (if low then (s.out 11).failLs else (s.out 11).failHs) = 1 ∧ ∀ q < 12, s.latchCode q ≠ 1) ∧
    (∀ n ∈ [0, 4], live.rdb (Reg.SIO_OUT_STAT_HS n) = false ∧ live.suspended 0 = false ∧ (live.out n).pulse = none) ∧
    (∀ n ∈ [0, 4], let s := (regs live [(Reg.SIO_OUT_STAT_CHECK n, 1)]).modOut n fun x => { x with offHs := 1, offLs := 1, high := 1 }
     s.rdb (Reg.SIO_OUT_STAT_CHECK n) = true ∧ (s.out n).pulse = none ∧ s.tpDriven = true ∧ 1000 * 2 < s.unMv 0 ∧
       s.unMv 0 ≤ 120000 * 2 ∧ s.latchCode n = 0 ∧ (s.out n).offHs = 1 ∧ (s.out n).offLs = 1 ∧ (s.out n).high = 1) ∧
    (let s := regs live [(Reg.SIO_OUT_CFG_PARALLEL 4, 1), (Reg.SIO_OUT_STAT_ENERGISED 4, 1), (Reg.SIO_OUT_STAT_LATCH 6, 6)]
     s.partner 4 = some 5 ∧ s.latchCode 4 = 0 ∧ s.latchCode 5 = 0 ∧ s.energised 4 = true ∧ s.latchCode 6 = 6 ∧
       s.latchCode 5 ≠ 6 ∧ s.energised 6 = false) ∧
    ((live.modOut 0 fun x => { x with due := some ⟨5, 5, false⟩ }).out 0).due = some ⟨5, 5, false⟩ ∧ (live.out 0).due = none := by
  decide +kernel

/-- R250: the second failed off-pulse of the low side in sequence latches code 5. -/
theorem test_offpulse_latches :
    (after (.offPulseEnd 11 true ⟨0, 110000⟩ []) (live.modOut 11 fun x => { x with pulse := some true, failLs := 1 })).latchCode 11 = 5 := by
  decide +kernel

theorem test_hyp_FieldSupplyGroups :
    (0 * 10 < live.unMv 1 * 6 ∧ FMap.get 0 live.sio.trip 1 = 0 ∧ live.latchCode 11 ≠ 1) ∧
    ((regs live [(Reg.SIO_GROUP_STATE 1, 1)]).rd (Reg.SIO_GROUP_STATE 1) = 1 ∧ FMap.get false live.sio.ovRide 1 = false ∧
      (11 : Nat) / 6 = 1 ∧ live.latchCode 11 = 0) ∧
    (live.unMv 0 * 14 < 160000 * 10 ∧ 160000 < 6553600) ∧ (live.unMv 0 * 7 ≤ live.unMv 0 * 10 ∧ live.unMv 0 * 10 ≤ live.unMv 0 * 13) ∧
    (regs live [(Reg.SIO_GROUP_STATE 0, 4)]).rd (Reg.SIO_GROUP_STATE 0) = 4 := by decide +kernel

/-- R257 and the example of "Field supplies": a ride that ends within its 10 ms leaves the tests suspended until the recovery. -/
theorem test_sag_ride_ends :
    let s := after (.groupVoltageReturn 1 (live.unMv 1)) (after (.groupSag 1 0) live)
    s.rd (Reg.SIO_GROUP_STATE 1) = 4 ∧ s.suspended 1 = true ∧ (after (.groupRecovered 1) s).suspended 1 = false := by decide +kernel

/-! ### The Door Loop Keeper -/

theorem test_hyp_DlkEquations :
    live.pdfGood = true ∧ (∀ p < 6, (live.dlk.pr p).latched = false) ∧ natBit (live.rd Reg.DLK_STATUS_OUT) 2 = false ∧
    live.dlk.termL = false ∧ live.dlk.termR = false ∧ 999999 < 1000000 ∧
    (let uA : FMap Nat := [(0, 3201), (11, 3200)]
     (∀ e ∈ uA, e.1 < 12 ∧ ∀ e' ∈ uA, e'.1 = e.1 → e' = e) ∧ ∀ e ∈ uA, e.1 ≠ 5) := by decide +kernel

theorem test_hyp_DlkLockoutTestsAndFaults :
    (∀ p ∈ [0, 4, 5], let s := live.setDlkPr p { DlkPair.init with disagree := true }
      s.pdfGood = true ∧ (s.dlk.pr p).disagree = true ∧ (s.dlk.pr p).latched = false ∧ s.rdb Reg.DLK_STATUS_LOCKOUT = false) ∧
    (let s := (live.setDlkPr 2 { DlkPair.init with value := true }).setDlkPr 3 { DlkPair.init with value := true }
     s.pdfGood = true ∧ (s.dlk.pr 2).value = true ∧ (s.dlk.pr 3).value = true ∧ s.rdb Reg.DLK_STATUS_LOCKOUT = false) ∧
    (let s := regs live [(Reg.DLK_STATUS_LOCKOUT, 1)]
     s.rdb Reg.DLK_STATUS_LOCKOUT = true ∧ (s.dlk.pr 5).latched = false ∧ (∀ p < 5, (s.dlk.pr p).latched = false) ∧
       (s.dlk.pr 2).value = false ∧ (s.dlk.pr 5).value = false ∧
       ({ s with dlk := { s.dlk with ackLow := 100000000, ackHigh := some 3000000000 } } : State).dlk.ackHigh = some 3000000000 ∧ ((s.setDlkPr 0 { DlkPair.init with latched := true }).dlk.pr 0).latched = true) ∧
    (live.pdfGood = true ∧ natBit (live.rd Reg.RPC_LOAD_LOAD_DONE) 5 = true ∧ live.rd Reg.DLK_TEST_STARTUP = 0) ∧
    (∀ f ∈ [0, 1], let s := regs live [(Reg.DLK_TEST_STARTUP, 1), (Reg.DLK_STATUS_FAULT, f)]
      s.rd Reg.DLK_TEST_STARTUP = 1 ∧ s.rdb Reg.DLK_STATUS_FAULT = decide (f = 1)) ∧
    (let s := regs live [(Reg.DLK_TEST_STARTUP, 2)]
     s.pdfGood = true ∧ s.rd Reg.DLK_TEST_STARTUP = 2 ∧ s.rdb Reg.DLK_STATUS_FAULT = false) ∧
    (live.rdb Reg.DLK_STATUS_FAULT = false ∧ natBit (live.rd Reg.DLK_STATUS_OUT) 3 = false ∧ (live.out 3).pulse = none ∧
      live.heldOff 3 = false) ∧
    (let s := regs live [(Reg.DLK_STATUS_OUT, 15)]
     s.pdfGood = true ∧ ∀ o < 4, natBit (s.rd Reg.DLK_STATUS_OUT) o = true) := by decide +kernel

/-- R280: with the pairs of the right releases commanded and free, the left release closes. -/
theorem test_dlk_release :
    (let s := regs { live with dlk := { DlkSt.init with passed := true } } [(Reg.DLK_CFG_SW_D, 0)]
     natBit ((after (.dlkInputChange ⟨[(0, 3201), (1, 3201), (4, 3201), (5, 3201)], 1000000, 0⟩) s).rd Reg.DLK_STATUS_OUT) 0 = true) := by decide +kernel

/-- R263 and R284: pair 12, low for 100 ms, high for 100 ms and then low, is an edge that leaves lockout; a high of 1 ns less is none. -/
theorem test_dlk_ack_edge :
    (∀ h ∈ [99999999, 100000000],
      let rise := after (.dlkInputChange ⟨[(10, 3201), (11, 3201)], 1000000, 100000000⟩) (regs live [(Reg.DLK_STATUS_LOCKOUT, 1)])
      let fall := after (.dlkInputChange ⟨[(10, 0)], 1000000, h⟩) rise
      (after .dlkAckEdge fall).rdb Reg.DLK_STATUS_LOCKOUT = decide (h < 100000000)) := by decide +kernel

/-! ### The network and its time -/

/-- Words of a schedule entry (Table 10-7) at 0 ns with a window of 50 µs in every cycle of M = 1. -/
def entryWords (e kind owner ftype slot ports map index nw wbase : Nat) : List (Nat × Word) :=
  [(e * 8, 1), (e * 8 + 3, 5000), (e * 8 + 4, BitVec.ofNat 32 (kind * 2 ^ 29 + owner * 2 ^ 21 + ftype * 2 ^ 17 + slot)),
   (e * 8 + 5, BitVec.ofNat 32 ports), (e * 8 + 6, BitVec.ofNat 32 (map * 2 ^ 30 + index * 2 ^ 22)),
   (e * 8 + 7, BitVec.ofNat 32 (nw * 2 ^ 23 + wbase))]

/-- A frame that is not PTN, to an address of 0x0A. -/
def foreign : List Byte := foreignOctets 0x0A 0x0B none 0x0800 (List.replicate 50 0)

/-- `live` as node 3 with consist port 4 linked: entry 0 received from node 9, entry 1 sent, entry 2 arbitrating, entry 3 a
free window, entry 4 the own datum. -/
def netted : State :=
  regs { live with
    ptn := { PtnSt.init with
      sched := entryWords 0 3 9 3 5 16 1 2 1 0x100 ++ entryWords 1 2 3 3 6 16 1 4 1 0x110 ++ entryWords 2 4 3 4 7 16 0 0 1 0x120 ++
        entryWords 3 5 0 0 0 16 0 0 0 0 ++ entryWords 4 1 3 1 8 17 0 0 0 0,
      tx := [(1, some { payload := some (List.replicate 24 1), target := none, safeSeq := 4 })],
      events := [⟨2, [1, 2, 3, 4], 999⟩], freeQ := [⟨foreign, [4]⟩], learned := [⟨0, 0x0A, 5, 0⟩] }
    tmu := { TmuSt.init with launchDue := [(7, some ⟨5, 5, false⟩)], d0 := { DomSt.init with master := true } } }
    [(Reg.PTN_STATUS_EDGE_LOADED, 1), (Reg.PTN_PORT_LINK 4, 1), (Reg.PTN_PORT_SPEED 4, 2), (Reg.PTN_PORT_FREE_FWD 4, 1),
     (Reg.PTN_CFG_NODE, 3), (Reg.TMU_LAUNCH_ENTRY 7, 1), (Reg.TMU_CFG_ELIGIBLE, 1), (Reg.TMU_AS_PORTS, 1), (Reg.PTN_BYPASS_STAGE, 0),
     (Reg.PTN_STATUS_LISTEN_ONLY, 0)]

/-- A DATA frame of node 9 in slot 5 with 24 octets. -/
def dataFrame : List Byte := buildFrame (natBE 6 0) 0x88B6 9 0 3 0 5 0 (List.replicate 24 2)

theorem test_hyp_FramesAndForeignTraffic :
    (let s := netted
     let f := parsePtn (dataFrame.drop 14)
     s.edgeUp = true ∧ s.portUp 4 = true ∧ ptnBody (s.rd Reg.PTN_CFG_ETHERTYPE) dataFrame = some (dataFrame.drop 14) ∧ f.version = 1 ∧
       f.type = 3 ∧ f.len ≠ 0xFFFF ∧ f.len ≤ f.body.length ∧ 8 ≤ (dataFrame.drop 14).length ∧ s.windowOf 4 f 60000 = none ∧
       s.windowOf 4 f 1000 = some 0 ∧ FMap.get 0 s.ptn.iso (violKey 4 f.src f.slot) = 0 ∧ f.len = (s.entry 0).payLen ∧ (s.entry 0).map ≠ 0) ∧
    (let s := netted
     s.freeFwd 4 = true ∧ s.ptn.learned.find? (fun z => z.vlan = 0 && z.mac = 0x0A#48) = some ⟨0, 0x0A, 5, 0⟩ ∧ s.ptn.learned.length < 4096 ∧
       s.ptn.portUse 5 + 68 ≤ 65536 ∧ s.ptn.sharedUse + 68 ≤ 524288 ∧ max 64 (foreign.length + 4) = 68 ∧ vlanOf none = 0 ∧ isGptp none 0x0800 = false ∧
       (0x0A#48).getLsbD 40 = false ∧ s.rd Reg.PTN_CFG_ETHERTYPE ≠ 0x0800) ∧
    (let s := netted
     s.ptn.freeQ = ⟨foreign, [4]⟩ :: [] ∧ s.freeWindow 4 (FreeFrame.len ⟨foreign, [4]⟩) = some 3 ∧ s.tmu.gptpWait = []) := by
  decide +kernel

/-- R320: the DATA frame is delivered to entry 0; R301: a wrong FCS is counted at the port. -/
theorem test_frame_delivered :
    (FMap.get none (after (.ptnFrameReceive 4 dataFrame 1000 1512 true) netted).ptn.rx 0).map (·.payload) = some (List.replicate 24 2) ∧
    (after (.ptnFrameReceive 4 dataFrame 1000 1512 false) netted).rd (Reg.PTN_PORT_RX_ERR 4) = 1 := by decide +kernel

theorem test_hyp_Transmission :
    (netted.mayOriginate = true ∧ (∀ e ∈ [1, 2], (netted.entry e).inCycle netted.mi = true ∧ netted.gateOpen (netted.entry e).ftype = true)) ∧
    ((netted.entry 1).kind = 2 ∧ (netted.entry 1).ftype ≠ 5 ∧ netted.launchOf 1 = none ∧
      FMap.get none netted.ptn.tx 1 = some { payload := some (List.replicate 24 1), target := none, safeSeq := 4 } ∧
      (netted.entry 1).safety = true ∧ 4 ∈ netted.txPorts (netted.entry 1) ∧ netted.fitsNow 1 4 24 = true) ∧
    (({ netted with ptn := { netted.ptn with tx := [] } } : State).ptn.tx.length = 0) ∧
    ((netted.entry 2).kind = 4 ∧
      netted.eventsOf 2 = [⟨2, [1, 2, 3, 4], 999⟩] ∧ (netted.txPorts (netted.entry 2)).any (fun p => netted.fitsNow 2 p 4) = true) ∧
    (netted.rd (Reg.TMU_LAUNCH_ENTRY 7) = 1 ∧ FMap.get none netted.tmu.launchDue 7 = some ⟨5, 5, false⟩) := by decide +kernel

theorem test_hyp_LinksBypassAndHoldup :
    (netted.rd Reg.PTN_BYPASS_STAGE ≠ 5 ∧ (∀ sp < 3, sp < 3)) ∧ netted.rdb Reg.PTN_HOLDUP_DONE = false ∧
    ({ netted with ptn := { netted.ptn with holdupBusy := true } } : State).ptn.holdupBusy = true ∧
    (let s := regs netted [(Reg.PTN_HOLDUP_DONE, 1), (Reg.PTN_BYPASS_STAGE, 3), (Reg.PTN_BYPASS_RETRIES, 1)]
     s.edgeUp = true ∧ s.rdb Reg.PTN_HOLDUP_DONE = true ∧ s.rd Reg.PTN_BYPASS_STAGE = 3 ∧ 0 < s.rd Reg.PTN_BYPASS_RETRIES) ∧
    (let s := regs netted [(Reg.PTN_BYPASS_STAGE, 4), (Reg.PTN_PORT_LINK 0, 1), (Reg.PTN_PORT_LINK 1, 1)]
     s.rd Reg.PTN_BYPASS_STAGE = 4 ∧ s.lineUp false = true) := by decide +kernel

theorem test_hyp_DatumsColdStartAndTimeOutputs :
    (let s := regs { netted with md := { netted.md with mode := .integrate } } [(Reg.TMU_STATUS_ROLE, 3)]
     s.ownDatums = [4] ∧ s.edgeUp = true ∧ s.rdb Reg.PTN_STATUS_LISTEN_ONLY = false ∧ s.rd Reg.PTN_BYPASS_STAGE ≠ 1 ∧ s.md.mode = .integrate ∧
       s.rd Reg.TMU_STATUS_ROLE = 3) ∧
    (netted.ownDatums = [4] ∧ netted.inTrain = true ∧ (netted.tmu.dom netted.ownDom).master = true ∧ netted.rdb Reg.PTN_STATUS_LISTEN_ONLY = false ∧ netted.rdb Reg.TMU_CFG_ELIGIBLE = true) ∧
    (∀ q ∈ [1, 2], let s := regs { netted with md := { netted.md with mode := .integrate }, tmu := { netted.tmu with quiet := q } } [(Reg.TMU_STATUS_ROLE, 5)]
      s.md.mode = .integrate ∧ s.rdb Reg.TMU_CFG_ELIGIBLE = true ∧ s.rd Reg.TMU_STATUS_ROLE = 5 ∧
        (2 * s.mx + 4 * s.rd Reg.TMU_CFG_COLD_PRIO ≤ s.tmu.quiet ↔ q = 2)) ∧
    (let s := regs netted [(Reg.TMU_STATUS_ROLE, 4)]
     s.rd Reg.TMU_STATUS_ROLE = 4 ∧ s.tmu.backoff = 0) ∧
    (netted.gptpOn 4 = true ∧ netted.tmu.gptpWait = [] ∧ (∀ k ∈ [0, 11, 3], (netted.freeWindow 4 (gptpOctets k)).isSome = true) ∧
      netted.timeValid = true) := by
  decide +kernel

/-! ### The host port and the command lane -/

/-- `live` with a host session in every role and both maintenance permits (pairs 1 and 11). -/
def ses : State := regs live [(Reg.SEC_SES_STAT_HOST_STATE, 2), (Reg.SEC_SES_STAT_HOST_ROLES, 7)]

/-- `ses` in another mode. -/
def inMode (m : Mode) : State := { ses with md := { ses.md with mode := m } }

theorem test_hyp_CommandsAreSubmitted :
    live.hostAlive = true ∧ live.portServed .host = true ∧ (0#16).toNat = live.rd Reg.CMD_NEXT_SEQ_NEXT ∧
    (1#16).toNat ≠ live.rd Reg.CMD_NEXT_SEQ_NEXT ∧ live.rd Reg.CMD_LANE_WAITING < 256 ∧
    (let s := regs live [(Reg.CMD_LANE_WAITING, 256), (Reg.CMD_NEXT_SEQ_NEXT, 65535)]
     s.hostAlive = true ∧ s.portServed .host = true ∧ (65535#16).toNat = s.rd Reg.CMD_NEXT_SEQ_NEXT ∧ 256 ≤ s.rd Reg.CMD_LANE_WAITING) ∧
    (regs live [(Reg.SEC_SES_STAT_SVC_OPEN, 1)]).portServed .service = true := by decide +kernel

theorem test_hyp_BarredCommandsHaveNoEffect :
    live.hostAlive = true ∧ live.rpc.save = none ∧ (∀ cmd ∈ commands, cmd.1 ≠ 1 → live.gate cmd.1 = some 5) ∧ live.roles = 0 ∧
    (inMode .boot).hostAlive = true ∧ (∀ cmd ∈ commands, (inMode .boot).gate cmd.1 = some 1) ∧
    (let s := { live with rpc := { live.rpc with save := some false } }
     s.hostAlive = true ∧ s.rpc.save ≠ none) := by decide +kernel

/-- The commands of the tables pass their checks somewhere. -/
theorem test_ready : ∀ cmd ∈ commands, ses.hostAlive = true ∧ ses.rpc.save = none ∧ ses.gate cmd.1 = none := by decide +kernel

theorem test_hyp_RecordsAndResults :
    live.hostUp = true ∧ live.portServed .host = true ∧ codeDefined (0#8).toNat = false ∧ codeDefined (0x07#8).toNat = false ∧
    (0#16).toNat = live.rd Reg.CMD_NEXT_SEQ_NEXT ∧ ready ses 0x01 ∧ (1#32).getLsbD 0 = true := by unfold ready; decide +kernel

/-- R402 to R410: a `CMD_NOP` submitted below the chainage limit waits for one Tc. -/
theorem test_cmd_waits :
    (after (.cmdNop { (arrives 0 0 0) with form := .arrive 0#16 100 false }) ses).lane.queue = [.record 1 0#16 1#8 .host 0 0 0] ∧
    (after (.cmdNop { (arrives 0 0 0) with form := .arrive 0#16 990000 false }) ses).lane.queue = [.record 2 0#16 1#8 .host 0 0 0] := by
  decide +kernel

theorem test_hyp_RegisterAndTableAccesses :
    (0 < 2 ^ 32 ∧ live.hostUp = true ∧ Reg.fieldsAt 0xC = none ∧ ¬ (0x200000 ≤ 0x200010 ∧ 0x200010 < 0x200010)) ∧
    (Reg.fieldsAt 0x30102C).isSome = true ∧ laneBlock 0x30102C = true ∧ 0x30102C % 4 = 0 ∧
    ((Reg.fieldsAt 0x30102C).getD []).any (fun f => Acc.writable f.acc) = true ∧
    (regs live [(Reg.SEC_SES_STAT_SVC_OPEN, 1)]).svcUp = true ∧ live.hostAlive = true ∧
    copied Reg.TMU_STATUS_ROLE.off = true ∧ Reg.TMU_STATUS_ROLE.lsb < 32 := by decide +kernel

/-- The example of the register chapter: offset 0x0070_0060 is no register, and a read there is only counted by the host. -/
theorem test_unassigned_example : Reg.fieldsAt 0x700060 = none ∧ laneBlock 0x50102C = true := by decide +kernel

/-- A view with poison in its first word, behind the completed cycle 1000. -/
def viewed : State :=
  regs { ses with
    md := { ses.md with done := some ([.chA, .chB, .chC], 1000, 5) },
    hbr := { HbrSt.init with
      busMaster := true,
      views := [(1, { ViewBuf.init with cycBegin := 998, cycEnd := 998, info := 3 }), (3, { ViewBuf.init with img := [(0, ⟨7, true⟩)] })],
      dir := 1 } }
    [(Reg.HBR_DMA_CTL_ENABLE, 1), (Reg.HBR_DMA_CTL_SLOTS, 2)]

theorem test_hyp_HostPortResetsViewsAndPush :
    (live.hostAlive = true ∧ live.hostUp = true ∧ live.sec.job = none ∧ live.md.mode ≠ .maint) ∧
    (inMode .maint).hostUp = true ∧ (inMode .maint).md.mode = .maint ∧ natBit (inMode .maint).roles 1 = true ∧
    (inMode .maint).nvRecord 0xF0C0 16 = none ∧
    (let s := { inMode .maint with rpc := { live.rpc with store := Mem.write [] 0xF0C0 live.counterRecord } }
     s.hostUp = true ∧ (s.nvRecord 0xF0C0 16).isSome = true) ∧
    (let s := { ses with md := { ses.md with done := some ([.chA, .chB, .chC], 1000, 5) } }
     s.hostAlive = true ∧ [Ch.chA, .chB, .chC] ≠ [] ∧ [Ch.chA, .chB, .chC].Nodup ∧ s.tm.cyc = 1000 ∧ (s.viewNow 0).info = 0 ∧
       (∀ c ∈ [Ch.chA, .chB, .chC], (s.ch c).errs = []) ∧ FMap.get false (s.ch .chA).pmap (0x260000 + 0x5FFF) = false) ∧
    (viewed.hostUp = true ∧ viewed.hbr.busMaster = true ∧ viewed.rdb Reg.HBR_DMA_CTL_ENABLE = true ∧ 2 ≤ viewed.rd Reg.HBR_DMA_CTL_SLOTS ∧
      (viewed.viewNow (viewed.rd Reg.HBR_DMA_CTL_VIEW)).info ≠ 0 ∧
      (let v := viewed.viewNow (viewed.rd Reg.HBR_DMA_CTL_VIEW); viewed.hbr.pushed ≠ some (v.cycEnd, v.ntime)) ∧
      (viewed.viewNow (viewed.rd Reg.HBR_DMA_CTL_VIEW)).cycEnd % 2 ^ viewed.rd Reg.HBR_DMA_CTL_RATE = 0) ∧
    (FMap.get ⟨0, false⟩ (FMap.get ViewBuf.init viewed.hbr.views (2 * (Ch.num .chA + 1) + 1)).img 0).p = true := by decide +kernel

/-! ### Modes, debugging and resets -/

/-- `inMode` with pairs 1 and 11 of the maintenance conditions at 1. -/
def maintained (m : Mode) : State := regs (inMode m) [(Reg.SIO_PAIR_STAT_VALUE, 0b010000000001)]

theorem test_hyp_MaintenanceAndDebugCommands :
    (∀ m ∈ [Mode.run3, .run2, .safe], let s := maintained m
      s.maintOk = true ∧ 2 ≤ s.voters.length ∧ s.hostAlive = true ∧ s.gate 0x05 = none) ∧
    (let s := { inMode .maint with md := { ses.md with mode := .maint, maintFrom := .run3 } }
     s.md.mode = .maint ∧ s.md.debug = false ∧ s.gate 0x06 = none ∧ s.md.role ≠ .standby ∧ s.gate 0x50 = none) ∧
    (∀ st ∈ [1, 3], let s := regs { inMode .maint with md := { ses.md with mode := .maint, debug := true } } [(Reg.VOT_DBG_STATE, st)]
      s.md.mode = .maint ∧ s.md.debug = true ∧ s.rd Reg.VOT_DBG_STATE = st ∧ s.runBank = some bank ∧ (0#32).toNat < bank.phases ∧
        s.gate 0x51 = none ∧ s.gate 0x52 = none ∧ s.gate 0x53 = none ∧ s.gate 0x54 = none) := by decide +kernel

theorem test_hyp_ModuleAndChannelResets :
    ready ses 0x02 ∧
    (∀ m ∈ [true, false], let s := regs { live with rpc := { live.rpc with save := some m } } [(Reg.RPC_LOAD_LOAD_DONE, 0)]
      s.rpc.save = some m ∧ s.rpc.por = false ∧ s.md.done = none ∧ s.nvAlive = false) ∧
    (live.rpc.save = none ∧ live.rpc.por = false) ∧
    (ses.fromIntegrate = true ∧ (2#32).toNat = Ch.num .chC ∧ ses.voters.length = 3 ∧ ready ses 0x04 ∧
      (let s := ses.modCh .chC fun h => { h with st := .excluded }
       s.inVote .chC = false ∧ s.fromIntegrate = true ∧ ready s 0x04)) ∧
    (ses.fromStartup = true ∧ ready ses 0x03 ∧ ses.md.role = .solo ∧ ses.latchCode 0 = 0 ∧
      (let s := regs (ses.modCh .chA fun h => { h with cfgOk := true }) [(Reg.CCU_STATUS_STAGE 0, 5)]
       s.fromStartup = true ∧ ready s 0x03)) := by
  unfold ready; decide +kernel

theorem test_hyp_SupplyAndReleases :
    live.rpc.inRange = true ∧ live.rpc.ride = false ∧ live.rpc.por = false ∧ live.pdhGood = true ∧ live.rcd.queue.length < 2048 ∧
    { live with rpc := { live.rpc with ride := true } }.rpc.ride = true ∧
    (State.reset.rpc.por = true ∧ State.reset.rpc.inRange = true ∧ State.reset.rd Reg.PTN_BYPASS_STAGE ≠ 1 ∧ State.reset.rpc.bor = false) ∧
    (let s := { live with rpc := { live.rpc with mod := true } }
     s.rpc.mod = true ∧ s.rpc.por = false ∧ s.rpc.save = none ∧ s.rd Reg.PTN_BYPASS_STAGE ≠ 1) ∧
    { live with md := { live.md with wHold := 1 } }.md.wHold = 1 ∧ (Ch.all.all fun c => live.inVote c) = true ∧
    (let s := { live with md := { live.md with wHold := 1, mode := .startup } }.modCh .chB fun h => { h with st := .excluded, cfgOk := true }
     s.md.wHold = 1 ∧ s.md.mode = .startup ∧ s.eligible .chB = true ∧ s.inVote .chB = false ∧ s.eligible .chC = false) ∧
    (let s := regs live [(Reg.RPC_RESET_C, 4)]
     natBit (s.rd Reg.RPC_RESET_C) (Ch.num .chC) = true ∧ s.good (Ch.num .chC + 1) = true ∧ s.rpc.por = false ∧ s.rpc.mod = false) ∧
    (let s := regs { live with sio := { live.sio with holdLeft := some 4951000000 } } [(Reg.SIO_OUT_STAT_HOLD 11, 1)]
     s.sio.holdLeft = some 4951000000 ∧ 4951000000 + 50000000 ≤ s.tm.opNs + s.tbc ∧ s.rdb (Reg.SIO_OUT_STAT_HOLD 11) = true) ∧
    live.nvAlive = true := by decide +kernel

theorem test_hyp_DomainsLoadsAndWatchdog :
    (live.md.mode ≠ .boot ∧ live.rpc.por = false ∧ live.good 7 = true ∧ live.good 0 = true ∧ live.rpc.mod = false) ∧
    (let s := regs live [(Reg.MOD_DOMAIN_PGOOD, 0x7F)]
     repowered 7 = true ∧ s.good 7 = false ∧ s.rpc.inRange = true ∧ natBit (s.rd Reg.RPC_LOAD_LOAD_ERR) 7 = false ∧
       s.rdb (Reg.RPC_REPOWER_GIVEN_UP 7) = false ∧ (s.recentTries 7).length < 3 ∧
       3 ≤ (({ s with rpc := { s.rpc with attempts := [(7, [1, 2, 3])] } } : State).recentTries 7).length) ∧
    (let s := regs live [(Reg.RPC_LOAD_LOAD_DONE, 0x7F)]
     s.loading 7 = true ∧ FMap.get 0 s.rpc.loadFails 7 < 2 ∧
       2 ≤ FMap.get 0 ({ s with rpc := { s.rpc with loadFails := [(7, 2)] } } : State).rpc.loadFails 7) ∧
    (natBit (live.rd Reg.RPC_LOAD_LOAD_DONE) 4 = true ∧ live.good 4 = true ∧ live.wdgStarved = true ∧ live.rpc.save = none) ∧
    (live.ch .chC).st ≠ .reset ∧ (4 : Fin 8).val < 5 ∧
    (let s := regs live [(Reg.RPC_STRAP_CLK_MODE, 1)]
     s.rd Reg.RPC_STRAP_CLK_MODE = 1 ∧ s.rpc.refLost = false ∧ s.down = false) ∧
    (regs live [(Reg.PTN_BYPASS_STAGE, 1)]).rd Reg.PTN_BYPASS_STAGE = 1 := by decide +kernel

/-! ### Program banks, forces and retained data -/

/-- Another bank, verified as the undercoat of two channels. -/
def armable (st : Nat) : State :=
  regs ([Ch.chA, .chB].foldl (fun s c => s.modCh c fun h => { h with uc := some { bank with id := 8 } }) ses)
    [(Reg.LEN_STATUS_UC_STATE 0, st), (Reg.LEN_STATUS_UC_STATE 1, st), (Reg.TMU_CYC_WINDOW_WINDOW_CLK, 372000)]

theorem test_hyp_UndercoatBanks :
    (ses.fromRun = true ∧ ses.rdb Reg.SEC_STATUS_FW_MIXED = false ∧ (1#32).toNat ≤ 1 ∧ ses.ucLoading = false ∧ ses.ucArmed = false ∧
      ses.copyHolds 1 (·.run) = false ∧ ready ses 0x40 ∧ ready ses 0x44 ∧ ses.booted .chA = true ∧
      (ses.modCh .chA fun h => { h with st := .booting }).booted .chA = false) ∧
    (let s := armable 3
     let b := { bank with id := 8 }
     s.fromRun = true ∧ s.inVote .chA = true ∧ s.inVote .chB = true ∧ s.ucState .chA = 3 ∧ s.ucState .chB = 3 ∧ (s.ch .chA).uc = some b ∧
       (s.ch .chB).uc = some b ∧ b.wcet + b.migrCost (bankId s.runBank) ≤ s.rd Reg.TMU_CYC_WINDOW_WINDOW_CLK ∧ ready s 0x41) ∧
    (let s := armable 4
     1002000000 % (s.tbc * s.mx) = 0 ∧ s.tm.tcNs + 2 * s.tbc ≤ 1002000000 ∧ 1002000000 ≤ s.tm.tcNs + 86400000000000 ∧ s.timeValid = true ∧
       s.armed = true ∧ s.ucArmed = true ∧ ready s 0x42 ∧ ready s 0x43) ∧
    (let s := armable 1
     s.ucState .chA = 1 ∧ (s.openCopy .chA (s.ch .chA).ucCopy (some (s.rd (Reg.SEC_CH_FW_VERSION 0)))).reason ≠ 0) ∧
    (armable 2).ucState .chB = 2 := by
  unfold ready; decide +kernel

/-- Every entry of the force table taken. -/
def fullForces : ForceTab := (List.range 256).map fun n => (n, some ⟨BitVec.ofNat 32 (n + 100), false, true, 0x200, 0⟩)

theorem test_hyp_ForcesAndRetainedCopy :
    (ses.fromStartup = true ∧ ses.forceRole = true ∧ ses.runBank = some bank ∧ bank.symbol 1#32 = some ⟨1#32, true, 0x200⟩ ∧
      forceBarred true 0x200 = false ∧ ses.safetyLoc true 0x200 = false ∧ forceEntry ses.forces 1#32 = none ∧
      freeEntry ses.forces = some 0 ∧ ready ses 0x45 ∧ ready ses 0x47 ∧
      bank.symbol 2#32 = some ⟨2#32, false, 0x100⟩ ∧ forceBarred false 0x100 = false ∧ (1#32).toNat ≤ 1 ∧ (inMode .maint).md.mode = .maint) ∧
    (let s := { ses with forces := [(255, some ⟨1#32, false, true, 0x200, 5#32⟩)] }
     forceEntry s.forces 1#32 = some 255 ∧ ready s 0x46) ∧
    (let s := { ses with forces := fullForces }
     forceEntry s.forces 1#32 = none ∧ freeEntry s.forces = none ∧ ready s 0x45) ∧
    (let s := { ses with md := { ses.md with role := .standby } }
     s.forceRole = false ∧ ready s 0x45 ∧ ready s 0x46 ∧ ready s 0x47) ∧
    (∀ m ∈ [Mode.hold, .safe, .maint], (inMode m).hostAlive = true ∧ (inMode m).gate 0x48 = none) := by
  unfold ready; decide +kernel

/-- R145, R150: the force of a word takes the lowest free entry with its value. -/
theorem test_force_set :
    FMap.get none (after (.forceSet (applies 1 77 0)) ses).forces 0 = some ⟨1#32, false, true, 0x200, 77#32⟩ := by decide +kernel

/-! ### The gateway -/

/-- Message words of Table 14-2: identifier, and port, direction, length and time. -/
def gwyMsg (m ident port dir len : Nat) : List (Nat × Word) :=
  [(m * 2, BitVec.ofNat 32 ident), (m * 2 + 1, BitVec.ofNat 32 (port * 2 ^ 28 + dir * 2 ^ 26 + len * 2 ^ 16))]

/-- Received messages of CAN 0, MVB 4 and EIA-485 6, transmit messages of CAN 0 and MVB 5, every port configured. -/
def gated : State :=
  regs { ses with
    gwy := { GwySt.init with
      cur := { GwyTab.empty with
        msgs := gwyMsg 0 0x100 0 1 4 ++ gwyMsg 1 0x20 4 1 2 ++ gwyMsg 2 0x11 6 1 3 ++ gwyMsg 3 0x200 0 2 4 ++ gwyMsg 4 0x9 5 2 2,
        enabled := 0xFF },
      hostQ := [(15, ⟨6, 0x33, [1, 2]⟩)], loading := some 1, target := some 1000000000, sdo := [(3, some 0)] } }
    ((List.range 8).map (fun p => (Reg.GWY_PORT_ENABLED p, 1)) ++ [(Reg.GWY_PORT_NMT 0, 1), (Reg.GWY_PORT_STATE 3, 2)])

theorem test_hyp_GatewayTraffic :
    (gated.gwyUp = true ∧ gated.rdb (Reg.GWY_PORT_ENABLED 7) = true ∧ gated.gwy.cur.findMsg 1 0 0x101 = none ∧
      gated.gwy.cur.findMsg 1 0 0x100 = some 0 ∧ gated.gwy.cur.routeNos = [] ∧ [1, 2, 3, 4].length = (gated.gwy.cur.msg 0).len ∧
      [1, 2].length ≠ (gated.gwy.cur.msg 0).len ∧ FMap.get none gated.gwy.sdo 0 = none ∧ gated.gwy.cur.findMsg 1 4 0x20 = some 1) ∧
    (([0x11, 1, 2] : List Byte) ≠ [] ∧ 0x11 = leAt [0x11, 1, 2] 0 1 ∧ gated.gwy.cur.findMsg 1 6 0x11 = some 2 ∧
      gated.rdb (Reg.GWY_PORT_CRC16 6) = false ∧ (regs gated [(Reg.GWY_PORT_CRC16 6, 1)]).rdb (Reg.GWY_PORT_CRC16 6) = true ∧
      ([0, 0] : List Byte) ≠ crc16Modbus [0x11, 1, 2]) ∧
    (gated.gwySends = true ∧ (gated.gwy.cur.msg 3).dir = 2 ∧ (gated.gwy.cur.msg 3).port < 4 ∧ canSend gated 0 ∧
      canSend gated 5 ∧ gated.gwy.cur.findMsg 2 5 9 = some 4 ∧ gated.rdb (Reg.GWY_PORT_NMT 0) = true) ∧
    ((gated.gwy.msg 3).txAt = none ∧
      ({ gated with gwy := { gated.gwy with msgs := [(3, { gated.gwy.msg 3 with txAt := some (gated.tm.opNs + 1000000) })] } } : State).gwy.msg 3 =
        { gated.gwy.msg 3 with txAt := some (gated.tm.opNs + 1000000) } ∧ ([4] : List Byte) ≠ [0]) ∧
    gated.rd (Reg.GWY_PORT_STATE 3) = 2 ∧
    (∀ p ∈ [0, 6], lenAllowed { ident := 0, port := p, dir := 2, rsv := 0, len := 8, time := 1 } = true) ∧
    lenAllowed { ident := 0, port := 0, dir := 2, rsv := 0, len := 9, time := 1 } = false ∧
    (gated.hostUp = true ∧ gated.rdb (Reg.GWY_HTX_CTL_SEND 0) = false ∧ (regs gated [(Reg.GWY_HTX_CTL_SEND 15, 1)]).rdb (Reg.GWY_HTX_CTL_SEND 15) = true) ∧
    (gated.gwy.hostQ.find? (fun e => e.1 = 15) = some (15, ⟨6, 0x33, [1, 2]⟩) ∧ gated.md.mode ≠ .boot ∧ gated.gwyRole = true ∧ canSend gated 6) := by
  unfold canSend; decide +kernel

/-- Table 14-1, R422: the CRC-16 of MODBUS over 01 03 00 00 00 0A is C5 CD. -/
theorem test_crc16 : crc16Modbus [0x01, 0x03, 0x00, 0x00, 0x00, 0x0A] = [0xC5, 0xCD] := by decide +kernel

theorem test_hyp_GatewayBanksAndCanopen :
    (gated.fromStartup = true ∧ (1#32).toNat ≤ 1 ∧ gated.rd Reg.GWY_CFG_NEXT_STATE ≠ 1 ∧ gated.rdb Reg.GWY_CFG_SWAP_PENDING = false ∧
      ready gated 0x70) ∧
    (gated.gwy.loading = some 1 ∧ gated.gwyUp = true ∧ (gated.openAny 1).reason ≠ 0) ∧
    (let s := regs gated [(Reg.GWY_CFG_NEXT_STATE, 2)]
     s.fromStartup = true ∧ s.rd Reg.GWY_CFG_NEXT_STATE = 2 ∧ s.tcAhead (s.tm.tcNs + s.tbc) = true ∧ s.tcAhead 1002000000 = true ∧
       ready s 0x71) ∧
    (gated.gwy.target = some 1000000000 ∧ 1000000000 ≤ gated.tm.tcNs) ∧
    (gated.gwyRole = true ∧ gated.rdb (Reg.GWY_PORT_NMT 0) = true ∧ canSend gated 0 ∧ FMap.get none gated.gwy.sdo 0 = none ∧
      ready gated 0x72 ∧ ready gated 0x73 ∧ ready gated 0x74) ∧
    FMap.get none gated.gwy.sdo 3 ≠ none := by unfold ready canSend; decide +kernel

/-! ### Current loops -/

/-- Loop 0 a driven output with HART, loop 1 an input under calibration, loop 2 an output under calibration. -/
def looped : State :=
  regs { ses with
    alp := [(0, { AlpLoop.init with driveUa := 4000, samples := List.replicate 40 499999, headroom := 1499, hreq := some ⟨15, 0, []⟩ }), (1, { AlpLoop.init with samples := List.replicate 40 500001, headroom := 1500, cal := some ⟨0, none, none, some (1, 20000)⟩ }),
      (2, { AlpLoop.init with cal := some ⟨0, some (4000, 0), some (20000, 0), none⟩ })],
    tm := { ses.tm with opNs := 600000000000 } }
    [(Reg.ALP_CFG_MODE 0, 3), (Reg.ALP_CFG_MODE 1, 1), (Reg.ALP_CFG_MODE 2, 3), (Reg.ALP_CFG_HART 0, 1), (Reg.ALP_HREQ_CTL_GO 0, 1),
     (Reg.ALP_STAT_OPEN 1, 1), (Reg.ALP_STAT_COMPLIANCE 1, 1)]

theorem test_hyp_CurrentLoops :
    (looped.pdlGood = true ∧ looped.loopMode 0 ≠ 0 ∧ looped.loopOut 0 = true ∧ 4000 ≤ (looped.loop 0).driveUa ∧
      looped.rdb (Reg.ALP_STAT_OPEN 0) = false ∧ looped.rdb (Reg.ALP_STAT_COMPLIANCE 0) = false ∧ looped.rdb (Reg.ALP_STAT_OPEN 1) = true ∧
      looped.rdb (Reg.ALP_STAT_COMPLIANCE 1) = true ∧ 40 ≤ (looped.loop 0).samples.length ∧
      (∀ x ∈ (looped.loop 0).samples.take 40, x < 500000) ∧ 40 ≤ (looped.loop 1).samples.length ∧
      (∀ x ∈ (looped.loop 1).samples.take 40, 500000 < x) ∧ (looped.loop 0).headroom < 1500 ∧ 1500 ≤ (looped.loop 1).headroom ∧
      (looped.loop 0).hreq = some ⟨15, 0, []⟩) ∧
    (looped.hostUp = true ∧ (0x80400000#32).getLsbD 31 = true ∧ (0x80400000#32).toNat / 65536 % 256 ≤ 64 ∧
      64 < (0x80410000#32).toNat / 65536 % 256 ∧ looped.rdb (Reg.ALP_HREQ_CTL_GO 0) = true ∧ looped.rdb (Reg.ALP_HREQ_CTL_GO 1) = false ∧
      looped.rdb (Reg.ALP_CFG_HART 0) = true) ∧
    (let s := { looped with alp := [] }
     s.fromIntegrate = true ∧ (∀ k < 4, (s.loop k).cal = none) ∧ s.loopMode 0 ≠ 0 ∧ s.loopDrop 0 = false ∧ s.pdlGood = true ∧
       ready s 0x80 ∧ ready s 0x84) ∧
    ((looped.loop 2).cal = some ⟨0, some (4000, 0), some (20000, 0), none⟩ ∧ looped.calTrims 2 ⟨0, some (4000, 0), some (20000, 0), none⟩ = some (0, 0) ∧
      ready looped 0x81 ∧ ready looped 0x82 ∧ ready looped 0x83) ∧
    ((looped.loop 1).cal = some ⟨0, none, none, some (1, 20000)⟩ ∧ 0 + 600000000000 ≤ looped.tm.opNs) := by
  unfold ready; decide +kernel

/-! ### The event recorder -/

/-- A record of severity 2 by CH-A. -/
def ev1 : RecEv := { live.tcEvent 2 0x13 1 0 [1] with cls := 0x13 }

theorem firstFree_full (n k : Nat) : firstFree k ((List.range' k n).map fun j => (j, some (j, 7))) = k + n := by
  induction n generalizing k with
  | zero => rfl
  | succ n ih => simp only [List.range'_succ, List.map_cons, firstFree, if_pos]; rw [ih]; omega

theorem oldestUpTo_none (l : List Nat) : oldestUpTo 2 (l.map fun j => (j, some (j, 7))) = none := by
  induction l with
  | nil => rfl
  | cons a l ih => simp [oldestUpTo, ih]

theorem test_hyp_EventRecorder_full : { live.rcd with index := (List.range' 0 recSlots).map fun j => (j, some (j, 7)) }.slotFor 2 = none := by
  unfold RecSt.slotFor
  simp only [firstFree_full, oldestUpTo_none, Nat.zero_add, Nat.lt_irrefl, if_false, Option.map_none]

theorem test_hyp_EventRecorder :
    (live.pdhGood = true ∧ live.rcd.queue.length < 2048 ∧ live.rcd.matched = [] ∧ ev1.same ev1 = true ∧ ev1.flushed = false ∧
      (Report.mk 1 0 ev1).chan ≠ (Report.mk 0 0 ev1).chan ∧ 2 ≤ (Report.mk 0 2 ev1).age ∧ (Report.mk 0 1 ev1).age < 2) ∧
    (let s := regs { live with rcd := { live.rcd with queue := [ev1] } } [(Reg.REC_STATUS_INDEX_DONE, 1)]
     s.rcd.queue = ev1 :: [] ∧ ev1.sev < 8 ∧ ev1.payload.length = 6 ∧ s.nvAlive = true ∧ s.indexDone = true ∧ s.rpc.save = none ∧
       s.rcd.slotFor 2 = some 0 ∧ s.rd Reg.REC_CFG_IRQ_SEV ≤ 7) ∧
    (live.indexDone = false ∧ { live with rcd := { live.rcd with indexing := true } }.rcd.indexing = true) ∧
    (let s := { live with rcd := { live.rcd with mram := Mem.write [] 64 (recordBytes (live.recordBody 0 ev1)) } }
     1 ∈ s.rcd.touched ∧ RecSt.find { s.rcd with floor := s.floorNow.1 } 1 = .rcrd 0 2) ∧
    (let s := regs (inMode .maint) [(Reg.REC_STATUS_INDEX_DONE, 1)]
     s.md.mode = .maint ∧ s.indexDone = true ∧ ready s 0x90 ∧ ready s 0x91 ∧ s.hostUp = true ∧ s.rdb Reg.REC_MARK_CTL_WRITE = false ∧
       s.md.mode ≠ .boot) := by unfold ready; decide +kernel

/-- R465: a record's CRC-32C and mark read back as the record of its number and severity. -/
theorem test_record_found :
    RecSt.find { RecSt.init with mram := Mem.write [] 0 (recordBytes (live.recordBody 9 ev1)) } 0 = .rcrd 9 2 := by decide +kernel
/-- The check value of CRC-32C: the ASCII digits 1 to 9 give 0xE3069283. -/
theorem test_crc32c : crc32c [0x31, 0x32, 0x33, 0x34, 0x35, 0x36, 0x37, 0x38, 0x39] = 0xE3069283#32 := by decide +kernel

/-! ### Sessions, the service port and the security commands

The acceptance of a container, of a signature and of a session record rests on the uninterpreted verifications of Config, whose
values no proof can see; for the clauses that assume such an acceptance the theorems below show the rest of their hypotheses and
the clause for the refusal. -/

/-- A credential on the service port. -/
def cred : Cred := { digest := [1, 2, 3], roles := 5, host := true, service := true }

/-- `live` with a policy of one credential. -/
def policed : State := { live with sec := { live.sec with policy := { idle := 4, creds := [cred] }, host := { SesPort.init with locked := true } } }

/-- `policed` with the service session open. -/
def served : State := regs policed [(Reg.SEC_SES_STAT_SVC_OPEN, 1), (Reg.SEC_SES_STAT_SVC_ROLES, 7)]

theorem test_hyp_SessionsAndServicePort :
    (live.hostUp = true ∧ (3#32).getLsbD 0 = true ∧ (3#32).getLsbD 1 = true ∧ live.recovery = false ∧
      live.rd Reg.SEC_SES_STAT_HOST_STATE ≠ 1 ∧ live.rd Reg.SEC_SES_STAT_HOST_STATE ≠ 2) ∧
    (let s := regs { live with sec := { live.sec with policy := Policy.empty } } [(Reg.SEC_SES_STAT_HOST_STATE, 1)]
     s.hostAlive = true ∧ s.rd Reg.SEC_SES_STAT_HOST_STATE = 1 ∧ s.sesJudge = none) ∧
    (served.sesIsOpen .service = true ∧ (served.sesOf .service).last + served.sec.policy.idle * 1000000000 ≤ served.tm.opNs + served.tbc ∧
      (let s := { policed with tm := { policed.tm with opNs := 599999999999, tcNs := 0 } }
       (s.sesOf .host).locked = true ∧ (s.sesOf .host).fails.getLastD 0 + 600000000000 ≤ s.tm.opNs + s.tbc)) ∧
    (policed.hostAlive = true ∧ policed.rdb Reg.SEC_SES_STAT_SVC_OPEN = false ∧ policed.sec.svc.locked = false ∧
      policed.sec.policy.find [1, 2, 3] .service = some 0 ∧ policed.sec.policy.creds[0]? = some cred) ∧
    (served.svcUp = true ∧ stagingLen - 4096 + 4096 ≤ stagingLen ∧ codeDefined (0x01#8).toNat = true ∧
      (0#16).toNat = served.rd Reg.CMD_NEXT_SEQ_NEXT ∧ served.rd Reg.CMD_LANE_WAITING < 256 ∧ ¬ (stagingLen - 4096 + 4097 ≤ stagingLen)) ∧
    (ses.fromHold = true ∧ ready ses 0xA8 ∧ ({ ses with hbr := { ses.hbr with busMaster := true } } : State).hbr.busMaster = true ∧
      0 + 2048 ≤ stagingLen) := by unfold ready; decide +kernel

/-- R501: an empty policy admits nobody, so the session is refused. -/
theorem test_session_refused :
    (after .sesVerified (regs { live with sec := { live.sec with policy := Policy.empty } } [(Reg.SEC_SES_STAT_HOST_STATE, 1)])).rd
      Reg.SEC_SES_STAT_HOST_STATE = 3 := by decide +kernel

theorem test_hyp_ConfigurationStores :
    (ses.fromHold = true ∧ ses.sec.job = none ∧ reachOk .host 0 29358080 = true ∧ 1 ≠ ses.sec.start ∧ ses.copyHolds 1 (·.run) = false ∧
      ses.copyHolds 1 (·.uc) = false ∧ ready ses 0xA0 ∧ (inMode .hold).fromHold = true ∧ (inMode .hold).gate 0xA0 = none) ∧
    (let j : StoreJob := ⟨1, .host, 0, 100, 0, 1, none⟩
     let s := { ses with sec := { ses.sec with job := some j } }
     s.sec.job = some j ∧ s.hostAlive = true ∧ s.rpc.save = none ∧ (s.storeFetch j).toOption = none ∧ s.md.mode ≠ .hold ∧
       (s.storeFetch { j with stage := 4, data := some [1, 2] }).toOption = some [1, 2]) ∧
    ready ses 0xA1 := by unfold ready; decide +kernel

theorem test_hyp_SchedulesFirmwareAndKeys :
    (ses.fromStartup = true ∧ ses.rdb Reg.SEC_STATUS_FW_MIXED = false ∧ ses.rd Reg.SEC_EPOCH_STATE ≠ 2 ∧ (ses.openAny 1).reason ≠ 0 ∧
      ready ses 0xA2) ∧
    (∀ st ∈ [1, 2], let s := regs ses [(Reg.SEC_EPOCH_STATE, st)]
      s.rd Reg.SEC_EPOCH_STATE = st ∧ s.timeValid = true ∧ 1002000000 % (s.tbc * s.mx) = 0 ∧ 1002000000 % s.ptn.nextNet.period = 0 ∧
        s.tm.tcNs + 2 * (s.tbc * s.mx) ≤ 1002000000 ∧ 1002000000 ≤ s.tm.tcNs + 86400000000000 ∧ s.tmu.epoch < (1#32).toNat ∧
        ready s 0xA3 ∧ ready s 0xA4) ∧
    (ses.md.mode = .run3 ∧ ses.voters.length = 3 ∧ ready ses 0xA5) ∧
    ((inMode .maint).md.mode = .maint ∧ (inMode .maint).hostAlive = true ∧ (inMode .maint).gate 0xA6 = none ∧ (inMode .maint).gate 0xA7 = none ∧
      (inMode .hold).gate 0xA9 = none ∧ reachOk .host 0 (400 + sigLen) = true ∧ (inMode .maint).copyRoot 0 ≠ some 2 ∧
      (inMode .maint).slotsNamed.contains 1 = false ∧
      (let s := { inMode .maint with sec := { ses.sec with otp := { Otp.blank with set := 7 }, otpCh := ⟨{ Otp.blank with set := 7 }, Otp.blank, Otp.blank⟩ } }
       s.rootLive 0 = true)) := by unfold ready; decide +kernel

/-- R482: a bit programmed in one copy alone is not in force. -/
theorem test_otp_needs_two :
    ({ live with sec := { live.sec with otp := { Otp.blank with set := 1 } } } : State).rootLive 0 = false := by decide +kernel

/-! ### The cycle -/

/-- `live` in a cycle whose program has begun, channel by channel complete or not. -/
def begun (f : Chan → Chan) (run : Nat) : State :=
  regs (Ch.all.foldl (fun s c => s.modCh c f) { live with md := { live.md with loadDone := true, taken := true } })
    [(Reg.LEN_STATUS_RUN 0, run), (Reg.LEN_STATUS_RUN 1, run), (Reg.LEN_STATUS_RUN 2, run)]

/-- The signature record of a channel of cycle 1000 that ends its traverse. -/
def sig (c : Ch) (v : Word64) : SigRec :=
  { k16 := 1000#16, sender := c, travEnd := true, ovr := false, psn := false, acc := v, raised := [], crcOk := true }

/-- Every channel holds the records of the three. -/
def signed (a b c : Word64) (verdicts : List (Option Nat)) : State :=
  Ch.all.foldl (fun s x => s.modCh x fun h => { h with verdict := verdicts.getD (Ch.num x) none })
    (begun (fun h => { h with sigRecs := [(0, some (sig .chA a)), (1, some (sig .chB b)), (2, some (sig .chC c))] }) 2)

theorem test_hyp_SwitchesProofAgeAndScrubbing :
    (maj3 1#22 1#22 0#22 ≠ live.sio.swLast ∧ maj3 0#22 0#22 1#22 = live.sio.swLast ∧ live.pdhGood = true ∧ live.rcd.queue.length < 2048 ∧
      live.down = false) ∧
    (live.booted .chA = true ∧ live.scrubPaused .chA = false ∧ (live.ch .chA).wbq = [] ∧
      (let lo := live.rd (Reg.MIU_SCRUB_POS_NEXT 0)
       let hi := Min.min (lo + live.scrubPace 0) 0x170000
       (live.ch .chA).badCws lo (hi - lo) = [] ∧ hi < 0x170000) ∧
      (let s := regs live [(Reg.MIU_SCRUB_POS_NEXT 0, 0x16FFFF)]
       Min.min (s.rd (Reg.MIU_SCRUB_POS_NEXT 0) + s.scrubPace 0) 0x170000 = 0x170000)) ∧
    (let s := regs (live.modCh .chA fun h => { h with errs := [(0x100000, 1#72)] }) [(Reg.MIU_SCRUB_POS_NEXT 0, 0x100000)]
     (s.ch .chA).badCws 0x100000 (Min.min (0x100000 + s.scrubPace 0) 0x170000 - 0x100000) = [0x100000] ∧
       Miu.isMap (Miu.region 0x100000) = true ∧ Hsiao.outcome (FMap.get 0 (s.ch .chA).errs 0x100000) = .corrected 0 ∧
       Miu.residual (FMap.get 0 (s.ch .chA).errs 0x100000) (.corrected 0) = 0) := by decide +kernel

theorem test_hyp_StrobesAdvanceTime :
    live.down = false ∧ live.md.mode ≠ .boot ∧ live.tm.rpcStrobe = false ∧
    ({ live with tm := { live.tm with rpcStrobe := true } } : State).tm.rpcStrobe = true := by decide +kernel

theorem test_hyp_InputRecordsAndAgreement :
    live.agrees = true ∧ live.md.taken = false ∧ live.exchanging .chA = true ∧ live.executes = true ∧ live.md.halted = false ∧
    live.md.commitDue = false ∧ (live.ch .chC).ccuStop = false ∧ ¬ (live.md.role = .standby ∧ live.twin = true) ∧
    ([] : List Byte).length ≠ 64 := by decide +kernel

/-- Table 2-4: a record has 64 bytes. -/
theorem test_record_length : (InVals.init.record 1000 .chB).length = 64 := by decide +kernel

theorem test_hyp_ExecutionLimitAndOverrun :
    live.md.loadDone = false ∧
    (∀ r ∈ [1, 2], let s := begun (fun h => { h with ccuStop := false }) r
      s.md.loadDone = true ∧ Ch.chA ∈ s.voters ∧ s.ownSig .chA = none ∧ (s.ch .chA).ccuStop = false ∧ s.rd (Reg.LEN_STATUS_RUN 0) = r ∧
        s.md.debug = false) ∧
    (let s := begun (fun h => { h with lanes := [(3, { LaneSt.init with psn := true })] }) 2
     lanes16.any (fun l => ((s.ch .chA).lane l).psn) = true) ∧
    (∀ d ∈ [2, 4, 5], let s := regs { begun (fun h => h) 1 with md := { live.md with mode := .maint, debug := true } } [(Reg.VOT_DBG_STATE, d)]
      s.md.debug = true ∧ s.rd Reg.VOT_DBG_STATE = d ∧ s.inVote .chA = true ∧ s.rd (Reg.LEN_STATUS_RUN 0) = 1) := by decide +kernel

theorem test_hyp_SignaturesAndVerdicts :
    (let s := signed 1 1 1 []
     s.md.loadDone = true ∧ s.md.decided = false ∧ s.md.sigDue = false ∧ s.exchanging .chA = true ∧ (s.sio.cells.get .chA).verd = none ∧ (sig .chB 1).crcOk = true ∧ (sig .chB 1).sender = .chB ∧
       (sig .chB 1).k16.toNat = s.progCyc % 65536 ∧ ({ sig .chB 1 with crcOk := false } : SigRec).crcOk = false ∧
       s.md.halted = false ∧ s.compares = true ∧ s.inCmp = [.chA, .chB, .chC] ∧ (s.ownSig .chA).isSome = true ∧
       (∀ x ∈ s.inCmp, s.sigAt .chA x = some 1) ∧
       (let stuck : Cells := { Cells.sound with verd := some 0 }
        let s := { s with sio := { s.sio with cells := ⟨stuck, .sound, .sound⟩ } }
        (s.sio.cells.get .chA).verd = some 0 ∧ .chA ∈ s.inCmp ∧ s.exchanging .chA = true)) ∧
    (let s := signed 1 1 2 []
     s.compares = true ∧ s.sigAt .chA .chA = some 1 ∧ s.sigAt .chA .chB = some 1 ∧ s.sigAt .chA .chC = some 2 ∧ (1#64) ≠ 2#64) ∧
    (let s := signed 1 2 3 []
     s.compares = true ∧ s.sigAt .chA .chA = some 1 ∧ s.sigAt .chA .chB = some 2 ∧ s.sigAt .chA .chC = some 3) ∧
    (let s := (signed 1 1 1 []).modCh .chA fun h => { h with sigRecs := [(0, some (sig .chA 1)), (1, some (sig .chB 1))] }
     s.compares = true ∧ Ch.chC ∈ s.inCmp ∧ s.sigAt .chA .chC = none) ∧
    (let s := (signed 1 2 1 []).modCh .chC fun h => { h with st := .excluded }
     s.compares = true ∧ s.inCmp = [.chA, .chB] ∧ s.sigAt .chA .chA = some 1 ∧ s.sigAt .chA .chB = some 2) := by decide +kernel

/-- Table 6-5: with CH-C odd, CH-A's verdict names it. -/
theorem test_verdict_odd : ((after .signatureRecordDue (signed 1 1 2 [])).ch .chA).verdict = some 3 := by decide +kernel

theorem test_hyp_DecisionsAndAssertions :
    (live.compares = false ∧ ({ live with md := { live.md with loadDone := true } } : State).compares = false) ∧
    (∀ vs ∈ [[some 0, some 0, some 0], [some 0, some 0, none], [some 0, some 0, some 4], [some 3, some 3, none], [some 4, some 4, none]],
      let s := signed 1 1 1 vs
      s.md.loadDone = true ∧ s.md.halted = false ∧ s.md.decided = false ∧ s.compares = true ∧ s.inCmp = Ch.all ∧ Ch.chA ∈ s.cellsIn ∧ Ch.chB ∈ s.cellsIn ∧
        (s.sio.cells.get .chA).dec = none ∧ (s.sio.cells.get .chB).dec = none ∧ s.absentAll Ch.all = [] ∧
        s.verdictIn .chA = (vs.getD 0 none).getD 5 ∧ s.verdictIn .chB = (vs.getD 1 none).getD 5 ∧ s.verdictIn .chC = (vs.getD 2 none).getD 5) ∧
    (∀ vs ∈ [[some 4, some 0], [some 0, some 0]], let s := (signed 1 1 1 vs).modCh .chC fun h => { h with st := .excluded }
      s.compares = true ∧ s.inCmp = [.chA, .chB] ∧ s.verdictIn .chA = (vs.getD 0 none).getD 5 ∧ s.verdictIn .chB = 0) ∧
    (let b := { bank with asserts := [(9, .safe)] }
     let s := Ch.all.foldl (fun s x => s.modCh x fun h => { h with run := some b, raised := [9] }) (signed 1 1 1 [])
     s.runBank = some b ∧ b.assertEff 9 = some .safe ∧
       ∀ c ∈ [Ch.chA, .chB], c ∈ s.compared ∧ s.inVote c = true ∧ (s.ownSig c).isSome = true ∧ 9 ∈ (s.ch c).raised) := by decide +kernel

/-- R175: CH-C odd twice is excluded at the next Tc. -/
theorem test_decision_excludes : (.chC, 0x08) ∈ (after .decision (signed 1 1 2 [some 3, some 3, none])).md.exclReq := by decide +kernel

theorem test_hyp_OutputsAreVoted :
    (let s := signed 1 1 1 []
     s.md.taken = true ∧ s.md.voted = false ∧ s.fromStartup = true ∧ s.md.wHold = 0 ∧ s.down = false ∧
       (∀ c ∈ s.contributors, FMap.get 0 (s.ch c).errs (Miu.cwMaster 0x20) = 0) ∧ s.rdb (Reg.SIO_OUT_CFG_TIMED 11) = false ∧ Ch.chA ∈ s.cellsIn ∧ Ch.chC ∈ s.cellsIn ∧
       (∀ c ∈ [Ch.chA, .chC], (s.sio.cells.get c).hi.getLsbD 11 = false ∧ (s.sio.cells.get c).lo.getLsbD 11 = false)) := by decide +kernel

theorem test_hyp_CommitsAndEpochSwitches :
    (let s := { armable 4 with md := { ses.md with commitDue := true, taken := true } }
     s.md.commitDue = true ∧ s.md.taken = true ∧ s.down = false ∧ s.md.role ≠ .standby ∧ s.lane.queue = [] ∧ s.armedId = some 8 ∧
       s.commitMode = true ∧ s.commitTbc = true ∧ s.loadsNow = true ∧ Ch.chA ∈ s.ucWith 8 ∧ Ch.chC ∉ s.ucWith 8) ∧
    (let s := { ses with md := { ses.md with commitDue := true, taken := true } }
     s.armedId = none ∧ s.md.commitDue = true ∧ s.lane.queue = []) ∧
    (let s := { armable 4 with md := { ses.md with mode := .startup, commitDue := true, taken := true } }
     s.commitMode = false) ∧
    (let s := regs { armable 4 with md := { ses.md with commitDue := true, taken := true } } [(Reg.TMU_CYC_CFG_TBC_CODE, 1)]
     s.commitMode = true ∧ s.commitTbc = false) ∧
    (∀ t ∈ [2, 3],
      let n := { NetCfg.none with tbcCode := t }
      let s := { ses with sec := { ses.sec with epochTgt := 1000000000 }, ptn := { ses.ptn with nextNet := n } }
      let s := regs s [(Reg.SEC_EPOCH_STATE, 2)]
      s.rd Reg.SEC_EPOCH_STATE = 2 ∧ s.tm.tcNs = s.sec.epochTgt ∧ s.timeValid = true ∧ s.md.taken = false ∧ s.down = false ∧
        s.md.commitDue = false ∧ s.runBank = some bank ∧ (bank.tbc = s.ptn.nextNet.tbcCode ↔ t = 2)) := by decide +kernel

/-! ### A snapshot that passes its checks -/

theorem natLE_length (n v : Nat) : (natLE n v).length = n := by
  induction n generalizing v with
  | zero => rfl
  | succ n ih => simp [natLE, ih]

theorem leNat_natLE (n v : Nat) : leNat (natLE n v) = v % 256 ^ n := by
  induction n generalizing v with
  | zero => simp [natLE, leNat, Nat.mod_one]
  | succ n ih =>
    have h : leNat (natLE (n + 1) v) = v % 256 + 256 * leNat (natLE n (v / 256)) := rfl
    rw [h, ih, Nat.pow_succ', Nat.mod_mul]

/-- Block 0 with the header: magic, format, cycle, running bank 7 and length (Table 6-6). -/
def snapHead (k : Nat) : List Byte :=
  natLE 4 0x534E5031 ++ natLE 2 1 ++ [0, 0] ++ natLE 8 k ++ natLE 8 7 ++ List.replicate 32 0 ++ natLE 4 143624 ++ List.replicate 196 0

/-- Blocks 0 to 560. -/
def snapBody (k : Nat) : List (Nat × List Byte) := (0, snapHead k) :: (List.range' 1 560).map fun i => (i, List.replicate 256 0)

def snapBytes (k : Nat) : List Byte := (snapBody k).flatMap fun e => e.2

/-- The copy with its CRC-64 at the start of block 561. -/
def snapBlocks (k : Nat) : FMap (List Byte) :=
  snapBody k ++ [(561, natLE 8 (crc64 (snapBytes k)).toNat ++ List.replicate 248 0)]

theorem snapHead_length (k : Nat) : (snapHead k).length = 256 := by
  simp only [snapHead, List.length_append, natLE_length, List.length_replicate, List.length_cons, List.length_nil]

theorem zeros_length (m : Nat) (l : List Nat) : ((l.map fun i => (i, List.replicate m (0 : Byte))).flatMap fun e => e.2).length = l.length * m := by
  induction l with
  | nil => simp
  | cons a l ih => rw [List.map_cons, List.flatMap_cons, List.length_append, ih, List.length_cons, Nat.succ_mul, Nat.add_comm, List.length_replicate]

theorem snapBytes_eq (k : Nat) : ∃ r, snapBytes k = snapHead k ++ r ∧ r.length = 143360 := by
  refine ⟨((List.range' 1 560).map fun i => (i, List.replicate 256 (0 : Byte))).flatMap fun e => e.2, by rw [snapBytes, snapBody, List.flatMap_cons], ?_⟩
  rw [zeros_length, List.length_range']

/-- The snapshot's bytes. -/
def snap (k : Nat) : List Byte := snapBytes k ++ natLE 8 (crc64 (snapBytes k)).toNat

theorem snapBytes_length (k : Nat) : (snapBytes k).length = 143616 := by
  obtain ⟨r, h, hr⟩ := snapBytes_eq k
  rw [h, List.length_append, snapHead_length, hr]

theorem snap_head (k : Nat) (off n : Nat) (h : off + n ≤ 256) : bytesAt (snap k) off n = bytesAt (snapHead k) off n := by
  obtain ⟨r, hb, -⟩ := snapBytes_eq k
  have hl := snapHead_length k
  unfold bytesAt snap
  rw [hb, List.append_assoc, List.drop_append_of_le_length (by omega), List.take_append_of_le_length (by rw [List.length_drop]; omega)]

/-- The header's magic, format and length. -/
def headOk (k : Nat) : Prop :=
  leNat (bytesAt (snapHead k) 0 4) = 0x534E5031 ∧ leNat (bytesAt (snapHead k) 4 2) = 1 ∧ leNat (bytesAt (snapHead k) 56 4) = 143624

theorem headOk_two : headOk 900 ∧ headOk 901 := by unfold headOk; decide +kernel

theorem snap_ok (k : Nat) (hk : headOk k) : Snap.ok (snap k) = true := by
  obtain ⟨h1, h2, h3⟩ := hk
  have hc : (crc64 (snapBytes k)).toNat < 256 ^ 8 := (crc64 (snapBytes k)).isLt
  have hh : ∀ off n, off + n ≤ 256 → leAt (snap k) off n = leNat (bytesAt (snapHead k) off n) := fun off n h => by
    rw [leAt, snap_head k off n h]
  have hl : (snap k).length = 143624 := by rw [snap, List.length_append, snapBytes_length, natLE_length]
  have ht : (snap k).take 143616 = snapBytes k := List.take_left' (snapBytes_length k)
  have hd : (snap k).drop 143616 = natLE 8 (crc64 (snapBytes k)).toNat := List.drop_left' (snapBytes_length k)
  have h4 : leAt (snap k) 143616 8 = (crc64 (snapBytes k)).toNat := by
    rw [leAt, bytesAt, hd, List.take_of_length_le (by rw [natLE_length]), leNat_natLE, Nat.mod_eq_of_lt hc]
  have e0 := (hh 0 4 (by omega)).trans h1
  have e1 := (hh 4 2 (by omega)).trans h2
  have e2 := (hh 56 4 (by omega)).trans h3
  simp only [Snap.ok, Bool.and_eq_true, decide_eq_true_eq]
  exact ⟨⟨⟨⟨hl, e0⟩, e1⟩, e2⟩, by rw [h4, ht]⟩

theorem snap_cycle : Snap.cycle (snap 900) = 900 ∧ Snap.cycle (snap 901) = 901 ∧ Snap.runId (snap 900) = 7 := by
  simp only [Snap.cycle, Snap.runId, leAt, snap_head _ 8 8 (by omega), snap_head _ 16 8 (by omega)]
  decide +kernel

/-- A complete copy of `snap k` from a sender. -/
def copyOf (c : Ch) (k : Nat) : SnapCopy := { sender := c, blocks := snapBlocks k, bad := false }

theorem blocks_take (k : Nat) : ((snapBlocks k).flatMap fun e => e.2).take 143624 = snap k := by
  have h : (snapBlocks k).flatMap (fun e => e.2) = snap k ++ List.replicate 248 0 := by
    rw [snapBlocks, List.flatMap_append, snap, List.append_assoc]
    simp only [snapBytes, List.flatMap_cons, List.flatMap_nil, List.append_nil]
  rw [h]
  exact List.take_left' (by rw [snap, List.length_append, snapBytes_length, natLE_length])

theorem passes_of (x : SnapCopy) (l : List Byte) (h1 : x.blocks.length = Snap.blocks)
    (h2 : (x.blocks.flatMap fun e => e.2).take Snap.len = l) (h3 : x.bad = false) (h4 : Snap.ok l = true) : x.passes = some l := by
  have h : x.whole = some l := by rw [SnapCopy.whole, if_pos h1, h2]
  rw [SnapCopy.passes, h3, h, if_neg Bool.false_ne_true, Option.bind_some, if_pos h4]

theorem blocks_length (k : Nat) : (snapBlocks k).length = Snap.blocks := by
  rw [snapBlocks, snapBody, List.length_append, List.length_cons, List.length_map, List.length_range', List.length_singleton]
  rfl

theorem copy_passes (c : Ch) (k : Nat) (hk : headOk k) : (copyOf c k).passes = some (snap k) :=
  passes_of _ _ (blocks_length k) (blocks_take k) rfl (snap_ok k hk)

theorem take_mid {α : Type} (l : List α) (n : Nat) (h : 16 ≤ n) : (((l.take n).drop 7).drop 1).take 8 = (l.drop 8).take 8 := by
  rw [List.drop_drop, List.drop_take, List.take_take, Nat.min_eq_left (by omega)]

theorem same_cycle (a b : List Byte) (h : Snap.same a b = true) : Snap.cycle a = Snap.cycle b := by
  simp only [Snap.same, Bool.and_eq_true, decide_eq_true_eq] at h
  have hd := congrArg (fun l => (l.drop 1).take 8) h.2
  simp only [take_mid a 143616 (by omega), take_mid b 143616 (by omega)] at hd
  exact congrArg leNat hd

theorem snaps_differ : Snap.same (snap 900) (snap 901) = false := by
  refine Bool.eq_false_iff.mpr fun h => ?_
  have hc := same_cycle _ _ h
  rw [snap_cycle.1, snap_cycle.2.1] at hc
  omega

/-! ### Resynchronisation of an excluded channel -/

def att (a : Attempt → Attempt) : Attempt :=
  a { startOp := 1, startCyc := 984, copies := [], accepted := false, nextK := 999, chased := 0, acc := 0, travPos := 0,
      inTime := false, reloading := false }

/-- CH-C with an attempt, CH-A and CH-B complete in RUN2. -/
def resyncing (st : ChState) (a : Attempt → Attempt) : State :=
  let s := { signed 1 1 1 [] with md := { (signed 1 1 1 []).md with mode := .run2 } }
  s.modCh .chC fun h => { h with st := st, attempt := some (att a) }

theorem test_hyp_ResynchronisationOfAChannel_transfer :
    (let s := resyncing .excluded id
     s.down = false ∧ (s.ch .chC).attempt = some (att id) ∧ (s.ch .chC).waiting = true ∧ (s.ch .chC).served = true ∧ s.resyncMode = true ∧ s.voters.length = 2 ∧
       s.voters.any s.completed = true) ∧
    (let s := resyncing .resync fun a => { a with accepted := true }
     (s.ch .chC).served = true ∧ (s.ch .chC).waiting = false ∧ s.resyncMode = true ∧ s.voters.length = 2 ∧ s.voters.any s.completed = true) ∧
    (let s := resyncing .resync id
     (s.ch .chC).st = .resync ∧ (s.ch .chC).waiting = true ∧ s.inVote .chA = true ∧ 0 < (att id).startOp ∧ (att id).copies = [] ∧
       (att id).startCyc + 16 ≤ s.tm.cyc ∧ s.md.halted = false ∧ s.md.rejoinReq.contains .chC = false ∧
       bankId (s.ch .chC).run = 7 ∧ s.runPoisoned .chC = false) := by decide +kernel

theorem test_hyp_ResynchronisationOfAChannel_accept :
    (let a := att fun a => { a with copies := [copyOf .chA 900] }
     a.copies = [copyOf .chA 900] ∧ (copyOf .chA 900).passes = some (snap 900) ∧ Snap.runId (snap 900) = 7) ∧
    (let a := att fun a => { a with copies := [copyOf .chA 900, copyOf .chB 901] }
     a.copies = [copyOf .chA 900, copyOf .chB 901] ∧ (copyOf .chB 901).passes = some (snap 901) ∧
       Snap.same (snap 900) (snap 901) = false) :=
  ⟨⟨rfl, copy_passes _ _ headOk_two.1, snap_cycle.2.2⟩, rfl, copy_passes _ _ headOk_two.2, snaps_differ⟩

/-- A cycle that CH-C kept at its image load, with the accumulator that the others reported. -/
def keptCycle (k : Nat) (acc : Option Word64) : Kept := { k := k, image := [(0x80, 5)], forces := [], first := true, commit := false, acc := acc }

/-- CH-C with an accepted snapshot whose next chase cycle is `k`. -/
def chasing (k : Nat) (acc : Option Word64) : State :=
  (resyncing .resync fun a => { a with accepted := true, nextK := k }).modCh .chC fun h => { h with kept := [keptCycle k acc] }

theorem test_hyp_ResynchronisationOfAChannel_chase :
    (∀ k ∈ [999, 1000], let s := chasing k (some 1)
      s.down = false ∧ s.standby = false ∧ (s.ch .chC).st = .resync ∧ ((s.ch .chC).attempt.map fun a => a.accepted) = some true ∧
        (s.ch .chC).kept.find? (fun y => y.k = k) = some (keptCycle k (some 1)) ∧ (s.ch .chC).ccuStop = false) ∧
    (let s := resyncing .reloading id
     (s.ch .chC).st = .reloading ∧ s.ownCopy .chC (bankId s.runBank) = none) := by decide +kernel

set_option maxRecDepth 20000 in
/-- The re-executed cycle runs without poison. -/
theorem test_hyp_ResynchronisationOfAChannel_runs :
    ((((chasing 1000 (some 1)).chase .chC (keptCycle 1000 (some 1))).2.ch .chC).ccuStop) = false := by decide +kernel

/-- The accumulator that a re-executed cycle reaches does not depend on the one reported, so it can agree with it. -/
theorem test_hyp_ResynchronisationOfAChannel_acc (s : State) (c : Ch) (x : Kept) (v : Option Word64) :
    s.chase c { x with acc := v } = s.chase c x := rfl

set_option maxRecDepth 20000 in
/-- A controller that takes poison from its kept image stops there. -/
theorem test_hyp_ResynchronisationOfAChannel_poison :
    let s := (chasing 1000 none).modCh .chC fun h => { h with errs := [(Miu.keptLo 1000, 3#72)] }
    ((s.chase .chC (keptCycle 1000 none)).2.ch .chC).ccuStop = true := by decide +kernel

/-! ### Twin operation -/

/-- LEASE windows: the module's own two, then those of nodes 5, 6, 3 and 4. -/
def leaseSched : List (Nat × Word) :=
  entryWords 0 2 3 5 6 16 0 0 1 0x100 ++ entryWords 1 2 3 5 7 16 0 0 1 0x110 ++ entryWords 2 3 5 5 8 16 0 0 1 0x120 ++
    entryWords 3 3 6 5 9 16 0 0 1 0x130 ++ entryWords 4 3 3 5 10 16 0 0 1 0x140 ++ entryWords 5 3 4 5 11 16 0 0 1 0x150

/-- The module as node 3 of pair 2 with node 4, arbiters 5, 6 and 7, a quorum of 2 and leases of 8 cycles, the LEASE windows of `leaseSched`; `f` changes the twin unit. -/
def twinned (role : Role) (f : TwnSt → TwnSt) : State :=
  regs { netted with
    md := { netted.md with role := role, taken := true }, twn := f TwnSt.init,
    ptn := { netted.ptn with sched := leaseSched } }
    [(Reg.TWN_CFG_PARTNER, 4), (Reg.TWN_CFG_QUORUM, 2), (Reg.TWN_CFG_PAIR_ID, 2), (Reg.TWN_CFG_LZ, 8), (Reg.TWN_ARB_NODES_ARB0, 5),
     (Reg.TWN_ARB_NODES_ARB1, 6), (Reg.TWN_ARB_NODES_ARB2, 7), (Reg.TWN_STATUS_LINK_UP, 1), (Reg.TWN_EPOCH_EPOCH, 12)]

/-- The input record of cycle 1000 with every word 0. -/
def record1000 : List Byte := natLE 8 1000 ++ List.replicate 24056 0

theorem leAt_record (off n : Nat) (h : off + n ≤ 8) : leAt record1000 off n = leNat (bytesAt (natLE 8 1000) off n) := by
  unfold leAt bytesAt record1000
  rw [List.drop_append_of_le_length (by rw [natLE_length]; omega),
    List.take_append_of_le_length (by rw [List.length_drop, natLE_length]; omega)]

theorem leAt_record_flags : leAt record1000 8 1 = 0 := by
  unfold leAt bytesAt record1000
  rw [List.drop_left' (natLE_length 8 1000)]
  rfl

theorem test_twin_record : ∃ w, TwinRec.parse record1000 = some (1000, none, w) := by
  have hl : record1000.length = 24064 := by unfold record1000; rw [List.length_append, natLE_length, List.length_replicate]
  have h0 : leAt record1000 0 8 = 1000 := by rw [leAt_record 0 8 (by omega)]; decide +kernel
  have hf : natBit (leAt record1000 8 1) 0 = false := by rw [leAt_record_flags]; rfl
  unfold TwinRec.parse
  simp only [hf, hl, h0, Bool.false_eq_true, if_false, Nat.reduceAdd, ne_eq, not_true_eq_false]
  exact ⟨_, rfl⟩

theorem test_twin_record_short : TwinRec.parse [] = none := by decide +kernel

theorem test_hyp_TwinRecordsAndComparison_record :
    (let s := twinned .standby id
     s.down = false ∧ s.twin = true ∧ s.md.role = .standby ∧ s.twn.late = false ∧ s.md.taken = true ∧ s.twn.recIn = none ∧ s.tm.cyc = 1000) ∧
    (let s := twinned .standby fun x => { x with recIn := some record1000 }
     s.down = false ∧ s.twin = true ∧ s.md.role = .standby ∧ s.twn.late = false ∧ s.md.taken = true ∧
       s.md.halted = false ∧ s.chasing = false ∧ s.executes = true ∧ s.md.commitDue = false ∧ s.forces = [] ∧ s.voters ≠ []) ∧
    Img.loaded 0x80 = true :=
  ⟨by decide +kernel, ⟨rfl, rfl, rfl, rfl, rfl, rfl, rfl, by decide +kernel, rfl, rfl, by decide +kernel⟩, by decide +kernel⟩

/-- A twin in a cycle that completed with the signature 1. -/
def decidedTwin (role : Role) (f : TwnSt → TwnSt) : State :=
  let t := twinned role f
  { signed 1 1 1 [] with regs := t.regs, twn := t.twn, ptn := t.ptn, md := { (signed 1 1 1 []).md with role := role, decided := true } }

/-- `decidedTwin` with the program of every channel complete. -/
def completedTwin (role : Role) : State :=
  regs (decidedTwin role id) [(Reg.LEN_STATUS_RUN 0, 2), (Reg.LEN_STATUS_RUN 1, 2), (Reg.LEN_STATUS_RUN 2, 2)]

theorem test_hyp_TwinRecordsAndComparison_signature :
    (let s := completedTwin .active
     s.down = false ∧ s.voters.filter s.completed ≠ [] ∧ s.twinSends = true) ∧
    ({ completedTwin .active with md := { (completedTwin .active).md with safeStage := true } } : State).md.safeStage = true ∧
    (let s := twinned .standby id
     s.voters.filter s.completed = []) ∧
    (let s := twinned .standby id
     s.twin = true ∧ s.md.role = .standby ∧ (sig .chA 1).crcOk = true ∧ (sig .chA 1).k16.toNat = s.tm.cyc % 65536 ∧ s.md.decided = false) ∧
    (let s := decidedTwin .standby fun x => { x with ran := true }
     s.md.decided = true ∧ s.decidedSig = some 1 ∧ s.twn.ran = true ∧ s.chasing = false ∧ (sig .chA 2).travEnd = true ∧
       (1#64) = (sig .chA 1).acc ∧ (1#64) ≠ (sig .chA 2).acc) := by decide +kernel

/-- A standby that has received the blocks of `snap 900`. -/
def snapped (f : TwnSt → TwnSt) : State := twinned .standby fun x => f { x with rx := snapBlocks 900 }

theorem test_hyp_TwinSnapshots_blocks :
    (let s := twinned .standby id
     s.down = false ∧ s.twin = true ∧ s.md.role = .standby ∧ s.rdb Reg.TWN_STATUS_LINK_UP = true ∧ s.twn.rxK ≠ 1) ∧
    (List.replicate 256 (0 : Byte)).length = 256 ∧
    (let s := twinned .standby fun x => { x with rx := [(0, [])] }
     0 < 1 ∧ 1 < 562 ∧ 1 = s.twn.rx.length) ∧
    (let s := twinned .active fun x => { x with sent := [(1000, none)] }
     s.md.role = .active ∧ 1000 ≤ s.tm.cyc) := by decide +kernel

/-- The bytes that a standby holding the blocks of `snap 900` judges: they pass; and with a held snapshot of cycle 901 they are older. -/
theorem test_hyp_TwinSnapshots_accept (f : TwnSt → TwnSt) (hf : ∀ x, (f x).rx = x.rx) :
    (snapped f).twn.rx.length = 562 ∧ ((snapped f).twn.rx.flatMap fun e => e.2).take 143624 = snap 900 ∧ Snap.ok (snap 900) = true ∧
    Snap.cycle (snap 900) = 900 ∧ 900 < 901 := by
  have h : (snapped f).twn.rx = snapBlocks 900 := hf _
  rw [h]
  exact ⟨blocks_length 900, blocks_take 900, snap_ok 900 headOk_two.1, snap_cycle.1, by omega⟩

/-- The standby's own list holds the snapshot's CRC, or another. -/
theorem test_hyp_TwinSnapshots_own (v : Nat) : [(900, v)].find? (fun e => e.1 = Snap.cycle (snap 900)) = some (Snap.cycle (snap 900), v) := by
  rw [snap_cycle.1]
  rfl

/-- 562 blocks that are no snapshot. -/
theorem test_hyp_TwinSnapshots_bad : Snap.ok (((List.replicate 562 (0, ([] : List Byte))).flatMap fun e => e.2).take 143624) = false ∧
    (List.replicate 562 (0, ([] : List Byte))).length = 562 := by decide +kernel

/-- A standby whose channels chase from cycle `k` on, with that cycle kept. -/
def adopting (k : Nat) (kept : List Kept) : State :=
  let t := twinned .standby fun x => { x with adopt := some (k + 1), kept := kept }
  { t with chs := (begun id 1).chs }

theorem test_hyp_TwinSnapshots_chase :
    (let s := adopting 999 []
     s.down = false ∧ s.twin = true ∧ s.md.role = .standby ∧ s.inVote .chA = true ∧ s.twn.adopt = some (999 + 1) ∧
       s.twn.kept.find? (fun x => x.k = 999) = none ∧ 999 < s.tm.cyc) ∧
    (∀ k ∈ [999, 1000], let s := adopting k [keptCycle k (some 1)]
      s.inVote .chA = true ∧ s.twn.adopt = some (k + 1) ∧ s.twn.kept.find? (fun x => x.k = k) = some (keptCycle k (some 1))) := by decide +kernel

/-! ### The lease -/

/-- A message of pair 2 in cycle 1000. -/
def msg (kind pair src node epoch kSnap flags last : Nat) : LeaseMsg :=
  { kind := kind, pair := pair, src := src, node := node, epoch := epoch, cycle := 1000, kSnap := kSnap, flags := flags, last := last,
    connId := 0, seq := 1, crcOk := true }

theorem test_lease_payload : (msg 1 2 3 4 12 1000 0 0).bytes.length = 32 := by decide +kernel

theorem leaseEntries_two (s : State) (a b : Nat)
    (h : (s.entries.filter fun e => (s.entry e).kind = 2 && (s.entry e).ftype = 5 && (s.entry e).inCycle s.mi) = [a, b])
    (hs : decide ((s.entry a).start ≤ (s.entry b).start) = true) : s.leaseEntries = [a, b] := by
  rw [State.leaseEntries, h]
  exact List.mergeSort_of_pairwise (by simpa using hs)

theorem test_hyp_LeaseAndPlannedHandover_window :
    (let s := twinned .active id
     s.down = false ∧ s.twin = true ∧ s.md.role = .active ∧ s.leaseMode = true ∧ s.mayOriginate = true ∧ s.leaseEntries = 0 :: [1] ∧
       s.slots = [] ∧ 4 ∈ s.txPorts (s.entry 0) ∧ s.fitsNow 0 4 48 = true) := by
  refine ⟨by decide +kernel, by decide +kernel, by decide +kernel, by decide +kernel, by decide +kernel, ?_, by decide +kernel⟩
  exact leaseEntries_two _ 0 1 (by decide +kernel) (by decide +kernel)

theorem test_hyp_LeaseAndPlannedHandover_lease :
    (let s := twinned .active fun x => { x with grants := [msg 3 2 5 3 12 1000 0 0] }
     let m := msg 3 2 6 3 12 1000 0 0
     s.leaseOk m 3 = true ∧ m.pair = s.rd Reg.TWN_CFG_PAIR_ID ∧ s.arbiters.contains m.src = true ∧ m.node = s.node ∧ m.kSnap = s.tm.cyc ∧
       0 < s.tm.cyc ∧ m.epoch = s.rd Reg.TWN_EPOCH_EPOCH ∧
       s.quorum ≤ (((s.twn.grants ++ [m]).filter fun g => g.node = m.node && g.kSnap = m.kSnap && g.epoch = m.epoch).map fun g => g.src).eraseDups.length) ∧
    (let s := twinned .standby fun x => { x with grants := [msg 3 2 5 3 13 0 0 0] }
     let m := msg 3 2 6 3 13 0 0 0
     s.leaseOk m 3 = true ∧ m.pair = s.rd Reg.TWN_CFG_PAIR_ID ∧ s.arbiters.contains m.src = true ∧ m.node = s.node ∧ m.kSnap = 0 ∧
       m.handover = false ∧
       s.quorum ≤ (((s.twn.grants ++ [m]).filter fun g => g.node = m.node && g.epoch = m.epoch && g.kSnap = 0 && g.handover = false).map
         fun g => g.src).eraseDups.length) ∧
    (twinned .active fun x => { x with ackAt := 993 }).leaseEnd ≤ 1000 ∧ 1000 < (twinned .active fun x => { x with ackAt := 999 }).leaseEnd := by
  decide +kernel

theorem test_hyp_LeaseAndPlannedHandover_handover :
    (let s := regs (twinned .active fun x => { x with sent := [(999, some false)] }) [(Reg.TWN_STATUS_ACKS, 3)]
     let s := regs s [(Reg.SEC_SES_STAT_HOST_STATE, 2), (Reg.SEC_SES_STAT_HOST_ROLES, 7)]
     s.twin = true ∧ s.leaseMode = true ∧ s.md.debug = false ∧ s.partnerCurrent = true ∧ s.quorum ≤ s.ackCount ∧
       s.tcAhead (arg64 1010000000#32 0) = true ∧ s.tm.tcNs + 4 * s.tbc ≤ arg64 1010000000#32 0 ∧ s.twn.ho = none ∧ ready s 0x60) ∧
    (let s := twinned .active fun x => { x with ho := some 1010 }
     let s := regs s [(Reg.SEC_SES_STAT_HOST_STATE, 2), (Reg.SEC_SES_STAT_HOST_ROLES, 7)]
     s.twn.ho = some 1010 ∧ s.tm.cyc + 1 < 1010 ∧ ready s 0x61) := by unfold ready; decide +kernel

/-- An arbiter of node 5 whose slot 0 serves pair 9, in state `st`; `x` is the slot. -/
def arbiter (st : Nat) (x : ArbSlot) : State :=
  regs (twinned .solo fun t => { t with arb := [(0, x)], slotLz := [(0, 8)] })
    [(Reg.TWN_CFG_QUORUM, 0), (Reg.PTN_CFG_NODE, 5), (Reg.TWN_ARB_STATE_SERVING 0, 1), (Reg.TWN_ARB_STATE_PAIR_ID 0, 9),
     (Reg.TWN_ARB_STATE_STATE 0, st)]

theorem test_hyp_ArbiterSlots :
    (let s := arbiter 0 { ArbSlot.init with since := 900 }
     let m := msg 1 9 3 4 12 999 1 0
     s.arbUp = true ∧ s.slotOf m.pair = some 0 ∧ s.leaseOk m 1 = true ∧ (s.slot 0).accepts (s.rd (Reg.TWN_ARB_STATE_STATE 0) = 0) m = true) ∧
    (let s := arbiter 3 { ArbSlot.init with since := 900 }
     let m := msg 2 9 3 3 12 999 1 0
     s.arbUp = true ∧ s.slotOf m.pair = some 0 ∧ s.leaseOk m 2 = true ∧ (s.slot 0).reqs = [] ∧ (s.slot 0).grant = none ∧
       s.grantable 0 m = true) ∧
    (let s := arbiter 1 { ArbSlot.init with since := 900, r := 999 }
     let m := msg 2 9 3 3 12 999 1 0
     s.leaseOk m 2 = true ∧ (s.slot 0).reqs = [] ∧ (s.slot 0).grant = none ∧ s.grantable 0 m = false) ∧
    (let s := arbiter 1 { ArbSlot.init with since := 900, holder := 4, epoch := 13, granted := [(12, 3), (13, 4)] }
     let m := msg 4 9 4 4 13 0 0 0
     s.leaseOk m 4 = true ∧ m.epoch = (s.slot 0).epoch ∧ m.src = (s.slot 0).holder ∧ (s.slot 0).flags = 0 ∧ (s.slot 0).named = 0 ∧
       ((s.slot 0).granted.filter fun e => e.1 ≠ (s.slot 0).epoch).getLast? = some (12, 3)) ∧
    (let s := arbiter 2 { ArbSlot.init with since := 900 }
     s.rd (Reg.TWN_ARB_STATE_STATE 0) ≠ 3 ∧ s.vacant 0 = true ∧ (s.slot 0).reqs = []) ∧
    (let s := arbiter 2 { ArbSlot.init with since := 900, heard := some 999, r := 999 }
     s.rd (Reg.TWN_ARB_STATE_STATE 0) ≠ 3 ∧ s.vacant 0 = false) ∧
    (let s := arbiter 2 { ArbSlot.init with since := 900, grant := some (3, 14, 0, false, 1007) }
     s.twin = false ∧ s.mayOriginate = true ∧ s.slots = [0] ∧ (s.slot 0).grant = some (3, 14, 0, false, 1007)) := by
  decide +kernel

theorem test_hyp_ArbiterSlots_entries : (arbiter 2 { ArbSlot.init with since := 900 }).leaseEntries = 0 :: [1] :=
  leaseEntries_two _ 0 1 (by decide +kernel) (by decide +kernel)

/-! ### The machine as a whole -/

theorem test_hyp_StepRunsTheFrontCommand :
    ({ live with pending := [Instr.nop .chA 0] } : State).pending = Instr.nop .chA 0 :: [] ∧ live.pending = [] := by decide +kernel

theorem test_hyp_StepsKeepMemoriesCanonical : canonical State.reset ∧ ∃ t, step State.reset = .next t :=
  ⟨by unfold canonical; decide +kernel, _, rfl⟩

theorem test_hyp_ProgramWordsDecodeToTheirInstruction : (LInstr.limit (.p false 0#12 4095#12)).wf = true := by decide +kernel

theorem test_hyp_CommandsKeepTheQueue : ∃ t, exec (.nop .chA 0) State.reset = .next t := ⟨_, rfl⟩

end Sys2Proof.Tests
end

section
/-! The logic engine's instructions that touch their lane alone: bit logic (R105), the stacks (R108, R109) and the
compares (R116). Every such row is one lane update after the fetch and the operand read; what a row does is proved once
(`laneTo_rowOf`), so that for each instruction the equation of its effect as a lane update is left. -/

namespace Sys2Proof.Claims

open Sys2Proof Sys2Proof.Machine

/-! ### Lane updates touch one lane -/

theorem onlyLane_modLane (s : State) (c : Ch) (l : Nat) (f : LaneSt → LaneSt) : onlyLane s (s.modLane c l f) c l f :=
  ⟨State.lane_modLane_same s c l f, fun _ hj => State.lane_modLane_ne s c f hj, fun _ hd => State.modLane_ch_ne s l f hd,
    by rw [State.modLane_ch], State.modLane_frame s c l f⟩

theorem onlyLane.trans {s t u : State} {c : Ch} {l : Nat} {f g : LaneSt → LaneSt} (hst : onlyLane s t c l f)
    (htu : onlyLane t u c l g) : onlyLane s u c l (g ∘ f) := by
  obtain ⟨hl, hlanes, hchs, hch, hs⟩ := hst
  obtain ⟨hl', hlanes', hchs', hch', hs'⟩ := htu
  refine ⟨by rw [hl', hl, Function.comp_apply], fun j hj => (hlanes' j hj).trans (hlanes j hj),
    fun d hd => (hchs' d hd).trans (hchs d hd), ?_, ?_⟩
  · rw [hch', hch]
  · rw [hs', hs]

/-- An update of a lane is known by its value on the lane as it stands. -/
theorem modLane_congr {s : State} {c : Ch} {l : Nat} {f g : LaneSt → LaneSt} (h : f (s.lane' c l) = g (s.lane' c l)) :
    s.modLane c l f = s.modLane c l g := by
  simp only [State.modLane]
  exact congrArg (fun ln => s.modCh c fun k => { k with lanes := FMap.set LaneSt.init k.lanes l ln }) h

/-! ### The rows of the lane instructions -/

/-- The row of the table that stands for a program word at a lane. -/
def rowOf (c : Ch) (l : Fin 16) : LInstr → Instr
  | .nop => .nop c l | .phase => .phase c l | .endp => .endp c l | .assert a => .assert c l a
  | .ld x => .ld c l x | .ldn x => .ldn c l x | .and x => .and c l x | .andn x => .andn c l x
  | .or x => .or c l x | .orn x => .orn c l x | .xor x => .xor c l x
  | .redge m => .redge c l m | .fedge m => .fedge c l m
  | .bpush => .bpush c l | .bor => .bor c l | .band => .band c l
  | .zon neg => .zon c l neg | .zoff => .zoff c l
  | .out b => .out c l b | .outn b => .outn c l b | .set b => .set c l b | .rst b => .rst c l b
  | .stw w => .stw c l w | .ldw w => .ldw c l w | .ldwi u x => .ldwi c l u x | .ldwh h => .ldwh c l h | .ldx t => .ldx c l t
  | .add x => .add c l x | .sub x => .sub c l x | .mul x => .mul c l x | .min x => .min c l x | .max x => .max c l x
  | .andw x => .andw c l x | .orw x => .orw c l x | .xorw x => .xorw c l x
  | .shl x => .shl c l x | .shr x => .shr c l x | .asr x => .asr c l x | .limit x => .limit c l x
  | .ceq x => .ceq c l x | .cne x => .cne c l x | .clt x => .clt c l x | .cle x => .cle c l x
  | .cgt x => .cgt c l x | .cge x => .cge c l x
  | .ton k t => .ton c l k t | .tof k t => .tof c l k t | .tp k t => .tp c l k t
  | .ctu k t => .ctu c l k t | .ctd k t => .ctd c l k t | .cres pr t => .cres c l pr t

@[simp] theorem word_rowOf (c : Ch) (l : Fin 16) (i : LInstr) : word (rowOf c l i) = some i := by
  cases i <;> rfl

/-- Every row is one step of its lane with the effect that the word has in a phase. -/
theorem exec_rowOf (c : Ch) (l : Fin 16) (i : LInstr) (s : State) :
    exec (rowOf c l i) s = .next (s.laneStep c l i (effOf c l.val i)) := by
  cases i <;> rfl

/-- A row whose word names no destination and whose effect is one lane update after its operand is read completes, and
beyond the operand's read it changes its lane as that update says. -/
theorem laneTo_rowOf {s r : State} {c : Ch} {l : Fin 16} {i : LInstr} {f : LaneSt → LaneSt} (hrun : runs s c l)
    (hdirty : i.dirty = []) (heff : effOf c l.val i (fetched s c l) = r.modLane c l.val f) :
    laneTo (rowOf c l i) s r c l f := by
  intro hnext
  obtain ⟨hready, hfetch⟩ := hrun
  have hexec : exec (rowOf c l i) s = .next ((r.modLane c l.val f).modLane c l.val next) := by
    rw [exec_rowOf, State.laneStep_eq s c l i _ hready (hnext.trans (word_rowOf c l i)) hfetch, ← heff, hdirty]
    rfl
  exact ⟨_, hexec, (onlyLane_modLane r c l.val f).trans (onlyLane_modLane _ c l.val next)⟩

/-! ### The effects as lane updates -/

/-- A load sets BA from the operand alone. -/
theorem effBit_load (f : Bool → Bool) (c : Ch) (l : Nat) (x : BitOp) (s : State) :
    effBit false (fun _ x => f x) c l x s =
      (s.bitOp c l x).2.modLane c l fun ln => { ln with ba := ⟨f (s.bitOp c l x).1.v, (s.bitOp c l x).1.p⟩ } := by
  simp [effBit, State.setBa]

/-- The other bit logic instructions set BA from BA and the operand; either's poison poisons it. -/
theorem effBit_combine (f : Bool → Bool → Bool) (c : Ch) (l : Nat) (x : BitOp) (s : State) :
    effBit true f c l x s =
      (s.bitOp c l x).2.modLane c l fun ln =>
        { ln with ba := ⟨f ln.ba.v (s.bitOp c l x).1.v, ln.ba.p || (s.bitOp c l x).1.p⟩ } := by
  simp only [effBit, State.setBa, Bool.true_and]
  exact modLane_congr (by rw [Bool.or_comm])

theorem effPop_cons (f : Bool → Bool → Bool) {c : Ch} {l : Nat} {s : State} {p : Psn Bool} {st : List (Psn Bool)}
    (h : (s.lane' c l).bstk = p :: st) :
    effPop f c l s = s.modLane c l fun ln => { ln with ba := ⟨f p.v ln.ba.v, p.p || ln.ba.p⟩, bstk := st } :=
  modLane_congr (by simp only [h])

theorem effZoff_cons {c : Ch} {l : Nat} {s : State} {z : Psn Bool} {st : List (Psn Bool)}
    (h : (s.lane' c l).zstk = z :: st) : effZoff c l s = s.modLane c l fun ln => { ln with ze := z, zstk := st } :=
  modLane_congr (by simp only [h])

theorem effZon_eq (neg : Bool) (c : Ch) (l : Nat) (s : State) :
    effZon neg c l s = s.modLane c l fun ln =>
      { ln with zstk := ln.ze :: ln.zstk, ze := ⟨ln.ze.v && (if neg then !ln.ba.v else ln.ba.v), ln.ze.p || ln.ba.p⟩ } :=
  modLane_congr (by cases neg <;> simp)

/-- The operand's read leaves WA, so that a compare relates WA as it stood before it. -/
theorem effCmp_eq (f : Int → Int → Bool) (c : Ch) (l : Nat) (x : ArOp) (s : State) :
    effCmp f c l x s =
      (s.arOp c l x).2.modLane c l fun ln =>
        { ln with ba := ⟨f (num x.uns (s.lane' c l).wa.v) (num x.uns (s.arOp c l x).1.v),
          (s.lane' c l).wa.p || (s.arOp c l x).1.p⟩ } := by
  simp only [effCmp, State.setBa, State.arOp_lane]
  rfl

/-- A form reads two words as equal numbers exactly where they are equal words. -/
theorem num_inj {uns : Bool} {x y : Word} : num uns x = num uns y ↔ x = y := by
  cases uns
  · exact BitVec.toInt_inj
  · exact Int.ofNat_inj.trans BitVec.toNat_inj

theorem num_beq (uns : Bool) (x y : Word) : (num uns x == num uns y) = decide (x = y) := by
  simp only [beq_eq_decide, num_inj]

theorem num_bne (uns : Bool) (x y : Word) : (num uns x != num uns y) = decide (x ≠ y) := by
  rw [bne, num_beq, decide_not]

/-! ### The obligations -/

/-- Settles O1: a load sets BA from the operand (`effBit_load`), the others combine BA with it (`effBit_combine`). -/
theorem bitLogicSetsBa : Obligations.BitLogicSetsBa := by
  intro c l x s hrun r ld op
  have load (i : LInstr) (f : Bool → Bool) (hdirty : i.dirty = [])
      (heff : effOf c l.val i = effBit false (fun _ x => f x) c l.val x) : laneTo (rowOf c l i) s r.2 c l (ld f) :=
    laneTo_rowOf hrun hdirty ((congrFun heff _).trans (effBit_load f c l.val x _))
  have combine (i : LInstr) (f : Bool → Bool → Bool) (hdirty : i.dirty = [])
      (heff : effOf c l.val i = effBit true f c l.val x) : laneTo (rowOf c l i) s r.2 c l (op f) :=
    laneTo_rowOf hrun hdirty ((congrFun heff _).trans (effBit_combine f c l.val x _))
  exact ⟨load (.ld x) (fun x => x) rfl rfl,
    load (.ldn x) (fun x => !x) rfl rfl,
    combine (.and x) (fun b x => b && x) rfl rfl,
    combine (.andn x) (fun b x => b && !x) rfl rfl,
    combine (.or x) (fun b x => b || x) rfl rfl,
    combine (.orn x) (fun b x => b || !x) rfl rfl,
    combine (.xor x) (fun b x => b ^^ x) rfl rfl⟩

/-- Settles O2: the pushes act on any stack, a pop on the entry that the stack shows. -/
theorem stacksAndZones : Obligations.StacksAndZones := by
  intro c l s hrun
  refine ⟨laneTo_rowOf (i := .bpush) hrun rfl rfl,
    fun neg => laneTo_rowOf (i := .zon neg) hrun rfl (effZon_eq neg c l.val _), fun p st hstk => ⟨?_, ?_⟩,
    fun z st hstk => laneTo_rowOf (i := .zoff) hrun rfl (effZoff_cons hstk)⟩
  · exact laneTo_rowOf (i := .bor) hrun rfl (effPop_cons _ hstk)
  · exact laneTo_rowOf (i := .band) hrun rfl (effPop_cons _ hstk)

/-- Settles O6: each compare relates the numbers of the form (`effCmp_eq`), and equal numbers are equal words
(`num_inj`). -/
theorem comparesSetBa : Obligations.ComparesSetBa := by
  intro c l x s hrun r wa a v res
  have cmp (i : LInstr) (f : Int → Int → Bool) {b : Bool} (hdirty : i.dirty = [])
      (heff : effOf c l.val i = effCmp f c l.val x) (hb : f a v = b) : laneTo (rowOf c l i) s r.2 c l (res b) :=
    hb ▸ laneTo_rowOf hrun hdirty ((congrFun heff _).trans (effCmp_eq f c l.val x _))
  exact ⟨cmp (.ceq x) (fun a v => a == v) rfl rfl (num_beq _ _ _),
    cmp (.cne x) (fun a v => a != v) rfl rfl (num_bne _ _ _),
    cmp (.clt x) (fun a v => decide (a < v)) rfl rfl rfl,
    cmp (.cle x) (fun a v => decide (a ≤ v)) rfl rfl rfl,
    cmp (.cgt x) (fun a v => decide (v < a)) rfl rfl rfl,
    cmp (.cge x) (fun a v => decide (v ≤ a)) rfl rfl rfl⟩

end Sys2Proof.Claims
end

section
/-! The words of the logic engine's programs (R102, Tables 4-1 to 4-3): the decoder inverts the encoder, and nothing but an
encoder's word decodes. A word is its three fields (`Rh.word_fields`), so that each operand form is treated once. -/

namespace Sys2Proof.Claims

open Sys2Proof Sys2Proof.Machine

/-! ### The fields of a word -/

theorem Rh.op_word {op : Nat} (h : op < 64) (md : Nat) (x : BitVec 24) : Rh.op (Rh.word op md x) = op := by
  have : (Rh.word op md x).extractLsb' 26 6 = BitVec.ofNat 6 op := by
    ext i hi
    simp only [Rh.word, BitVec.getElem_extractLsb', BitVec.getLsbD_append]
    rw [if_neg (by omega), if_neg (by omega), show 26 + i - 24 - 2 = i by omega, BitVec.getLsbD_eq_getElem hi]
  simp [Rh.op, this, Nat.mod_eq_of_lt h]

theorem Rh.md_word (op : Nat) {md : Nat} (h : md < 4) (x : BitVec 24) : Rh.md (Rh.word op md x) = md := by
  have : (Rh.word op md x).extractLsb' 24 2 = BitVec.ofNat 2 md := by
    ext i hi
    simp only [Rh.word, BitVec.getElem_extractLsb', BitVec.getLsbD_append]
    rw [if_neg (by omega), if_pos (by omega), show 24 + i - 24 = i by omega, BitVec.getLsbD_eq_getElem hi]
  simp [Rh.md, this, Nat.mod_eq_of_lt h]

theorem Rh.x_word (op md : Nat) (x : BitVec 24) : Rh.x (Rh.word op md x) = x := by
  ext i hi
  simp only [Rh.x, Rh.word, BitVec.getElem_extractLsb', BitVec.getLsbD_append]
  rw [if_pos (by omega), Nat.zero_add, BitVec.getLsbD_eq_getElem hi]

/-- A word is the word of its own fields. -/
theorem Rh.word_fields (w : Word) : Rh.word (Rh.op w) (Rh.md w) (Rh.x w) = w := by
  have hop : BitVec.ofNat 6 (Rh.op w) = w.extractLsb' 26 6 := (BitVec.ofNat_toNat _ _).trans (BitVec.setWidth_eq _)
  have hmd : BitVec.ofNat 2 (Rh.md w) = w.extractLsb' 24 2 := (BitVec.ofNat_toNat _ _).trans (BitVec.setWidth_eq _)
  unfold Rh.word Rh.x
  rw [hop, hmd, BitVec.extractLsb'_append_extractLsb'_eq_extractLsb' (by rfl),
    BitVec.extractLsb'_append_extractLsb'_eq_extractLsb' (by rfl)]
  exact BitVec.extractLsb'_eq_self

/-! ### The encoder's words decode -/

theorem Rh.field_setWidth {n : Nat} (h : n ≤ 24) (a : BitVec n) : Rh.field n (a.setWidth 24) = some a := by
  have : (a.setWidth 24).setWidth n = a := by simp [BitVec.setWidth_setWidth_of_le, h]
  simp [Rh.field, this]

theorem Rh.pair_setWidth {a : WordAddr} (h : a ≠ 0x3FFF#14) : Rh.pair (a.setWidth 24) = some a := by
  simp [Rh.pair, Rh.field_setWidth, h]

theorem Rh.op_encBit {op : Nat} (hop : op < 64) (y : BitOp) : Rh.op (Rh.encBit op y) = op := by
  cases y <;> exact Rh.op_word hop _ _

theorem Rh.bitOp_encBit (op : Nat) (f : BitOp → LInstr) (y : BitOp) :
    Rh.bitOp (Rh.md (Rh.encBit op y)) (Rh.x (Rh.encBit op y)) f = some (f y) := by
  rcases y with a | b
  · simp [Rh.encBit, Rh.md_word, Rh.x_word, Rh.bitOp, Rh.field_setWidth]
  · cases b <;> simp [Rh.encBit, Rh.md_word, Rh.x_word, Rh.bitOp, Rh.field]

theorem Rh.op_encAr {op : Nat} (hop : op < 64) (y : ArOp) : Rh.op (Rh.encAr op y) = op := by
  cases y <;> exact Rh.op_word hop _ _

theorem Rh.arOp_encAr (op : Nat) (f : ArOp → LInstr) (y : ArOp) :
    Rh.arOp (Rh.md (Rh.encAr op y)) (Rh.x (Rh.encAr op y)) f = some (f y) := by
  rcases y with ⟨uns, a⟩ | ⟨uns, x⟩ <;> cases uns <;>
    simp [Rh.encAr, Rh.md_word, Rh.x_word, Rh.arOp, Rh.field_setWidth]

theorem Rh.op_encLog {op : Nat} (hop : op < 64) (y : LogOp) : Rh.op (Rh.encLog op y) = op := by
  cases y <;> exact Rh.op_word hop _ _

theorem Rh.logOp_encLog (op : Nat) (f : LogOp → LInstr) (y : LogOp) :
    Rh.logOp (Rh.md (Rh.encLog op y)) (Rh.x (Rh.encLog op y)) f = some (f y) := by
  cases y <;> simp [Rh.encLog, Rh.md_word, Rh.x_word, Rh.logOp, Rh.field_setWidth]

theorem Rh.op_encSh {op : Nat} (hop : op < 64) (y : ShOp) : Rh.op (Rh.encSh op y) = op := by
  cases y <;> exact Rh.op_word hop _ _

theorem Rh.shOp_encSh (op : Nat) (f : ShOp → LInstr) (y : ShOp) :
    Rh.shOp (Rh.md (Rh.encSh op y)) (Rh.x (Rh.encSh op y)) f = some (f y) := by
  cases y <;> simp [Rh.encSh, Rh.md_word, Rh.x_word, Rh.shOp, Rh.field_setWidth]

theorem Rh.op_encLim (y : LimOp) : Rh.op (Rh.encLim y) = 0x2F := by
  cases y <;> exact Rh.op_word (by decide) _ _

theorem Rh.limOp_encLim (y : LimOp) (h : y.wf = true) :
    Rh.limOp (Rh.md (Rh.encLim y)) (Rh.x (Rh.encLim y)) = some (.limit y) := by
  rcases y with ⟨uns, a⟩ | ⟨uns, lo, hi⟩
  · have ha : a ≠ 0x3FFF#14 := by simpa [LimOp.wf] using h
    cases uns <;> simp [Rh.encLim, Rh.md_word, Rh.x_word, Rh.limOp, Rh.pair_setWidth ha]
  · have hlo : (hi ++ lo).extractLsb' 0 12 = lo := BitVec.extractLsb'_append_eq_right
    have hhi : (hi ++ lo).extractLsb' 12 12 = hi := BitVec.extractLsb'_append_eq_left
    cases uns <;> simp [Rh.encLim, Rh.md_word, Rh.x_word, Rh.limOp, hlo, hhi]

theorem Rh.tvar_encT (f : TVar → BitVec 12 → LInstr) (k : TVar) (t : BitVec 12) :
    Rh.tvar (Rh.encT k) (t.setWidth 24) f = some (f k t) := by
  cases k <;> simp [Rh.encT, Rh.tvar, Rh.field_setWidth]

theorem Rh.cvar_encC (f : CVar → BitVec 12 → LInstr) (k : CVar) (t : BitVec 12) :
    Rh.cvar (Rh.encC k) (t.setWidth 24) f = some (f k t) := by
  cases k <;> simp [Rh.encC, Rh.cvar, Rh.field_setWidth]

theorem Rh.encT_lt (k : TVar) : Rh.encT k < 4 := by cases k <;> decide

theorem Rh.encC_lt (k : CVar) : Rh.encC k < 4 := by cases k <;> decide

/-- The decoder inverts the encoder: the opcode leads to the instruction's own form. -/
theorem decode_encode (i : LInstr) (h : i.wf = true) : Rh.decode (Rh.encode i) = some i := by
  unfold Rh.decode
  cases i with
  | limit y => simp only [Rh.encode, Rh.op_encLim, Rh.limOp_encLim y h]
  | ld y | ldn y | and y | andn y | or y | orn y | xor y =>
    simp only [Rh.encode, Rh.op_encBit, Nat.reduceLT, Rh.bitOp_encBit]
  | add y | sub y | mul y | min y | max y | ceq y | cne y | clt y | cle y | cgt y | cge y =>
    simp only [Rh.encode, Rh.op_encAr, Nat.reduceLT, Rh.arOp_encAr]
  | andw y | orw y | xorw y => simp only [Rh.encode, Rh.op_encLog, Nat.reduceLT, Rh.logOp_encLog]
  | shl y | shr y | asr y => simp only [Rh.encode, Rh.op_encSh, Nat.reduceLT, Rh.shOp_encSh]
  | ton k t | tof k t | tp k t =>
    simp only [Rh.encode, Nat.reduceLT, Rh.op_word, Rh.md_word, Rh.encT_lt, Rh.x_word, Rh.tvar_encT]
  | ctu k t | ctd k t =>
    simp only [Rh.encode, Nat.reduceLT, Rh.op_word, Rh.md_word, Rh.encC_lt, Rh.x_word, Rh.cvar_encC]
  | zon b | ldwi b x | cres b t =>
    cases b <;> simp [Rh.encode, Rh.op_word, Rh.md_word, Rh.x_word, Rh.none, Rh.field_setWidth]
  | redge b | fedge b | out b | outn b | set b | rst b =>
    simp only [Rh.encode, Nat.reduceLT, Rh.op_word, Rh.md_word, Rh.x_word, Rh.bit, Rh.field_setWidth, Nat.reduceLeDiff,
      Option.map_some, if_true]
  | nop | phase | endp | bpush | bor | band | zoff =>
    simp only [Rh.encode, Nat.reduceLT, Rh.op_word, Rh.md_word, Rh.x_word, Rh.none, if_true]
  | assert a | stw a | ldw a | ldwh a | ldx a =>
    simp only [Rh.encode, Nat.reduceLT, Rh.op_word, Rh.md_word, Rh.x_word, Rh.field_setWidth, Nat.reduceLeDiff,
      Option.map_some, if_true]

/-! ### A word that decodes is its instruction's word -/

/-- What an operand form has to give for a decoded instruction: it is in range, and its word has the fields read. -/
def Rh.spells (i : LInstr) (op md : Nat) (x : BitVec 24) : Prop := i.wf = true ∧ Rh.encode i = Rh.word op md x

theorem Rh.field_eq_some {n : Nat} {x : BitVec 24} {a : BitVec n} (h : Rh.field n x = some a) : a.setWidth 24 = x := by
  obtain ⟨hx, ha⟩ : (x.setWidth n).setWidth 24 = x ∧ x.setWidth n = a := by simpa [Rh.field] using h
  rw [← ha, hx]

theorem Rh.spells_field {n op m : Nat} {x : BitVec 24} {f : BitVec n → LInstr} {i : LInstr}
    (hf : ∀ a, (f a).wf = true ∧ Rh.encode (f a) = Rh.word op m (a.setWidth 24)) (h : (Rh.field n x).map f = some i) :
    Rh.spells i op m x := by
  obtain ⟨a, ha, rfl⟩ := Option.map_eq_some_iff.1 h
  exact ⟨(hf a).1, by rw [(hf a).2, Rh.field_eq_some ha]⟩

theorem Rh.spells_none {op m : Nat} {x : BitVec 24} {j i : LInstr} (hj : Rh.spells j op m 0) (h : Rh.none x j = some i) :
    Rh.spells i op m x := by
  obtain ⟨rfl, rfl⟩ : x = 0 ∧ j = i := by simpa [Rh.none] using h
  exact hj

/-- A form without variants takes one modifier. -/
theorem Rh.spells_of_md {op md m : Nat} {x : BitVec 24} {o : Option LInstr} {i : LInstr}
    (hm : o = some i → Rh.spells i op m x) (h : (if md = m then o else none) = some i) : Rh.spells i op md x := by
  obtain ⟨rfl, ho⟩ : md = m ∧ o = some i := by simpa using h
  exact hm ho

theorem Rh.spells_bit {op md : Nat} {x : BitVec 24} {f : BitAddr → LInstr} {i : LInstr}
    (hf : ∀ a, (f a).wf = true ∧ Rh.encode (f a) = Rh.word op 0 (a.setWidth 24)) (h : Rh.bit md x f = some i) :
    Rh.spells i op md x := Rh.spells_of_md (Rh.spells_field hf) h

theorem Rh.spells_bitOp {op md : Nat} {x : BitVec 24} {f : BitOp → LInstr} {i : LInstr}
    (hf : ∀ y, (f y).wf = true ∧ Rh.encode (f y) = Rh.encBit op y) (h : Rh.bitOp md x f = some i) : Rh.spells i op md x := by
  unfold Rh.bitOp at h
  split at h
  · exact Rh.spells_field (fun a => hf (.bit a)) h
  · refine Rh.spells_field (fun b => ⟨(hf _).1, (hf _).2.trans ?_⟩) h
    obtain rfl | rfl := BitVec.eq_zero_or_eq_one b <;> rfl
  · cases h

theorem Rh.spells_arOp {op md : Nat} (hmd : md < 4) {x : BitVec 24} {f : ArOp → LInstr} {i : LInstr}
    (hf : ∀ y, (f y).wf = true ∧ Rh.encode (f y) = Rh.encAr op y) (h : Rh.arOp md x f = some i) : Rh.spells i op md x :=
  match md, hmd, h with
  | 0, _, h => Rh.spells_field (fun a => hf (.w false a)) h
  | 1, _, h => by cases h; exact hf (.imm false x)
  | 2, _, h => Rh.spells_field (fun a => hf (.w true a)) h
  | 3, _, h => by cases h; exact hf (.imm true x)

theorem Rh.spells_logOp {op md : Nat} (hmd : md < 4) {x : BitVec 24} {f : LogOp → LInstr} {i : LInstr}
    (hf : ∀ y, (f y).wf = true ∧ Rh.encode (f y) = Rh.encLog op y) (h : Rh.logOp md x f = some i) : Rh.spells i op md x :=
  match md, hmd, h with
  | 0, _, h => Rh.spells_field (fun a => hf (.w a)) h
  | 1, _, h => by cases h; exact hf (.i x)
  | 2, _, h => by cases h
  | 3, _, h => by cases h; exact hf (.iu x)

theorem Rh.spells_shOp {op md : Nat} {x : BitVec 24} {f : ShOp → LInstr} {i : LInstr}
    (hf : ∀ y, (f y).wf = true ∧ Rh.encode (f y) = Rh.encSh op y) (h : Rh.shOp md x f = some i) : Rh.spells i op md x := by
  unfold Rh.shOp at h
  split at h
  · exact Rh.spells_field (fun a => hf (.w a)) h
  · exact Rh.spells_field (fun n => hf (.c n)) h
  · cases h

theorem Rh.spells_pair {m : Nat} {x : BitVec 24} {uns : Bool} {i : LInstr} (hm : m = if uns then 2 else 0)
    (h : (Rh.pair x).map (fun a => LInstr.limit (.wp uns a)) = some i) : Rh.spells i 0x2F m x := by
  obtain ⟨a, ha, rfl⟩ := Option.map_eq_some_iff.1 h
  obtain ⟨b, hb, hne⟩ := Option.bind_eq_some_iff.1 ha
  obtain ⟨hne, rfl⟩ : b ≠ 0x3FFF#14 ∧ b = a := by simpa using hne
  exact ⟨by simpa [LInstr.wf, LimOp.wf] using hne, by rw [hm, ← Rh.field_eq_some hb]; rfl⟩

theorem Rh.spells_p12 (uns : Bool) (x : BitVec 24) :
    Rh.spells (.limit (.p uns (x.extractLsb' 0 12) (x.extractLsb' 12 12))) 0x2F (if uns then 3 else 1) x := by
  have hx : x.extractLsb' 12 12 ++ x.extractLsb' 0 12 = x := by
    rw [BitVec.extractLsb'_append_extractLsb'_eq_extractLsb' (by rfl)]; exact BitVec.extractLsb'_eq_self
  exact ⟨rfl, by simp only [Rh.encode, Rh.encLim, hx]⟩

theorem Rh.spells_limOp {md : Nat} (hmd : md < 4) {x : BitVec 24} {i : LInstr} (h : Rh.limOp md x = some i) :
    Rh.spells i 0x2F md x :=
  match md, hmd, h with
  | 0, _, h => Rh.spells_pair (uns := false) rfl h
  | 1, _, h => by cases h; exact Rh.spells_p12 false x
  | 2, _, h => Rh.spells_pair (uns := true) rfl h
  | 3, _, h => by cases h; exact Rh.spells_p12 true x

theorem Rh.spells_tvar {op md : Nat} {x : BitVec 24} {f : TVar → BitVec 12 → LInstr} {i : LInstr}
    (hf : ∀ k t, (f k t).wf = true ∧ Rh.encode (f k t) = Rh.word op (Rh.encT k) (t.setWidth 24))
    (h : Rh.tvar md x f = some i) : Rh.spells i op md x := by
  unfold Rh.tvar at h
  split at h
  · exact Rh.spells_field (hf .plain) h
  · exact Rh.spells_field (hf .e) h
  · exact Rh.spells_field (hf .r) h
  · cases h

theorem Rh.spells_cvar {op md : Nat} {x : BitVec 24} {f : CVar → BitVec 12 → LInstr} {i : LInstr}
    (hf : ∀ k t, (f k t).wf = true ∧ Rh.encode (f k t) = Rh.word op (Rh.encC k) (t.setWidth 24))
    (h : Rh.cvar md x f = some i) : Rh.spells i op md x := by
  unfold Rh.cvar at h
  split at h
  · exact Rh.spells_field (hf .plain) h
  · exact Rh.spells_field (hf .v) h
  · exact Rh.spells_field (hf .r) h
  · cases h

/-- A form with one instruction for each of two modifiers. -/
theorem Rh.spells_of_two {op md m n : Nat} {x : BitVec 24} {o p : Option LInstr} {i : LInstr}
    (hm : o = some i → Rh.spells i op m x) (hn : p = some i → Rh.spells i op n x)
    (h : (if md = m then o else if md = n then p else none) = some i) : Rh.spells i op md x := by
  by_cases hmd : md = m
  · rw [if_pos hmd] at h; exact hmd ▸ hm h
  · rw [if_neg hmd] at h; exact Rh.spells_of_md hn h

theorem encode_of_decode {w : Word} {i : LInstr} (h : Rh.decode w = some i) : i.wf = true ∧ Rh.encode i = w := by
  suffices Rh.spells i (Rh.op w) (Rh.md w) (Rh.x w) by rwa [Rh.spells, Rh.word_fields] at this
  have hmd : Rh.md w < 4 := BitVec.isLt _
  unfold Rh.decode at h
  generalize Rh.op w = op at h
  generalize Rh.md w = md at h hmd
  generalize Rh.x w = x at h
  dsimp only at h
  split at h
  case h_1 | h_2 | h_3 | h_14 | h_15 | h_16 | h_18 => exact Rh.spells_of_md (Rh.spells_none ⟨rfl, rfl⟩) h
  case h_4 | h_23 | h_24 | h_26 | h_27 => exact Rh.spells_of_md (Rh.spells_field fun _ => ⟨rfl, rfl⟩) h
  case h_5 | h_6 | h_7 | h_8 | h_9 | h_10 | h_11 => exact Rh.spells_bitOp (fun _ => ⟨rfl, rfl⟩) h
  case h_12 | h_13 | h_19 | h_20 | h_21 | h_22 => exact Rh.spells_bit (fun _ => ⟨rfl, rfl⟩) h
  case h_17 => exact Rh.spells_of_two (Rh.spells_none ⟨rfl, rfl⟩) (Rh.spells_none ⟨rfl, rfl⟩) h
  case h_25 =>
    exact Rh.spells_of_two (fun h => Option.some.inj h ▸ ⟨rfl, rfl⟩) (fun h => Option.some.inj h ▸ ⟨rfl, rfl⟩) h
  case h_28 | h_29 | h_30 | h_31 | h_32 | h_40 | h_41 | h_42 | h_43 | h_44 | h_45 =>
    exact Rh.spells_arOp hmd (fun _ => ⟨rfl, rfl⟩) h
  case h_33 | h_34 | h_35 => exact Rh.spells_logOp hmd (fun _ => ⟨rfl, rfl⟩) h
  case h_36 | h_37 | h_38 => exact Rh.spells_shOp (fun _ => ⟨rfl, rfl⟩) h
  case h_39 => exact Rh.spells_limOp hmd h
  case h_46 | h_47 | h_48 => exact Rh.spells_tvar (fun _ _ => ⟨rfl, rfl⟩) h
  case h_49 | h_50 => exact Rh.spells_cvar (fun _ _ => ⟨rfl, rfl⟩) h
  case h_51 =>
    exact Rh.spells_of_two (Rh.spells_field fun _ => ⟨rfl, rfl⟩) (Rh.spells_field fun _ => ⟨rfl, rfl⟩) h
  case h_52 => cases h

/-! ### The obligations -/

/-- Settles O58, form by form (`decode_encode`). -/
theorem programWordsDecodeToTheirInstruction : Obligations.ProgramWordsDecodeToTheirInstruction := decode_encode

/-- Settles O59: each operand form reads every bit of the operand field (`encode_of_decode`). -/
theorem validWordsAreCanonical : Obligations.ValidWordsAreCanonical :=
  ⟨fun _ _ h => encode_of_decode h, by decide, by decide⟩

/-- Settles O60: each printed word is the encoder's word of its instruction (`decode_encode`). -/
theorem printedWordsDecode : Obligations.PrintedWordsDecode := by
  have spelled {w : Word} {i : LInstr} (hi : i.wf = true) (hw : Rh.encode i = w) : Rh.decode w = some i :=
    hw ▸ decode_encode i hi
  refine ⟨?_, ?_, ?_, ?_, ?_, ?_, ?_, ?_, ?_, ?_, ?_, ?_, ?_, ?_, ?_, ?_, ?_, ?_, ?_, ?_⟩ <;>
    exact spelled rfl rfl

end Sys2Proof.Claims
end

section
/-! The machine as a whole: its step, its state after reset. -/

namespace Sys2Proof.Claims

open Sys2Proof Sys2Proof.Machine

/-- Settles O51: by the two cases of the queue. -/
theorem stepRunsTheFrontCommand : Obligations.StepRunsTheFrontCommand :=
  fun _ => ⟨fun _ _ h => by rw [step, h], fun h => by rw [step, h]⟩

/-- A field reads its reset value while no field is written. -/
theorem rd_reset (f : Fld) : State.reset.rd f = f.rst := by rfl

/-- Settles O54: no field is written (`rd_reset`), and every indicator's source shows nothing in BOOT. -/
theorem machineAtReset : Obligations.MachineAtReset := by
  refine ⟨rd_reset, rfl, fun c => by cases c <;> rfl, fun o _ => ⟨?_, ?_, ?_⟩, rfl, rfl, rfl, rfl, rfl, rfl, rfl, rfl, rfl, rfl, rfl, ?_⟩
  · rw [State.rdb, rd_reset]; rfl
  · rw [State.rdb, rd_reset]; rfl
  · rw [State.rdb, rd_reset]; rfl
  · decide

/-- Settles O55: every memory is empty. -/
theorem resetMemoriesAreCanonical : Obligations.ResetMemoriesAreCanonical := ⟨rfl, rfl, rfl, rfl⟩

end Sys2Proof.Claims
end

section
/-! The parts of the module that few commands write: the queue, the byte memories and the one-time-programmable bits. A
function that leaves them alone has one lemma `…_durable`; one that writes them, and every command, has one lemma
`…_keeps`: the queue stands, the memories stay canonical, no programmed bit is cleared. -/

namespace Sys2Proof.Machine
open Sys2Proof Sys2Proof.Claims

/-- The durable parts of the module with the queue of the commands: the memories and the one-time-programmable bits. -/
structure Durable where
  pending : List Instr
  mram : List Host.Cell
  store : FMap Byte
  hostMem : FMap Byte
  staging : FMap Byte
  otp : Otp
  otpCh : Per3 Otp

def State.durable (s : State) : Durable :=
  ⟨s.pending, s.rcd.mram, s.rpc.store, s.hbr.hostMem, s.sec.staging, s.sec.otp, s.sec.otpCh⟩

@[simp] theorem durable_mk (pending : List Instr) (free : Nat) (regs : FMap Nat) (tm : TimeSt) (md : ModSt) (chs : Per3 Chan)
    (forces : ForceTab) (lane : LaneQ) (rcd : RecSt) (sio : SioSt) (dlk : DlkSt) (ptn : PtnSt) (tmu : TmuSt) (gwy : GwySt)
    (alp : FMap AlpLoop) (sec : SecSt) (rpc : RpcSt) (hbr : HbrSt) (twn : TwnSt) :
    (State.mk pending free regs tm md chs forces lane rcd sio dlk ptn tmu gwy alp sec rpc hbr twn).durable =
      ⟨pending, rcd.mram, rpc.store, hbr.hostMem, sec.staging, sec.otp, sec.otpCh⟩ := rfl

@[simp] theorem durable_eta (s : State) : (⟨s.pending, s.rcd.mram, s.rpc.store, s.hbr.hostMem, s.sec.staging, s.sec.otp, s.sec.otpCh⟩ : Durable) = s.durable := rfl

@[simp] theorem durable_ite (c : Prop) [Decidable c] (s t : State) : (if c then s else t).durable = if c then s.durable else t.durable :=
  apply_ite State.durable c s t

@[simp] theorem durable_foldSt {α : Type} (l : List α) (f : α → State → State) (h : ∀ x s, (f x s).durable = s.durable) (s : State) :
    (foldSt l f s).durable = s.durable := foldSt_keeps State.durable l f h s

@[simp] theorem durable_foldl {α : Type} (l : List α) (f : State → α → State) (h : ∀ x s, (f s x).durable = s.durable) (s : State) :
    (l.foldl f s).durable = s.durable := foldSt_keeps State.durable l (fun x s => f s x) h s

@[simp] theorem durable_foldlSnd {α β : Type} (l : List α) (f : β × State → α → β × State)
    (h : ∀ p x, (f p x).2.durable = p.2.durable) (p : β × State) : (l.foldl f p).2.durable = p.2.durable := by
  induction l generalizing p with
  | nil => rfl
  | cons x l ih => rw [List.foldl_cons, ih, h]

@[simp] theorem durable_snd_ite {α : Type} (c : Prop) [Decidable c] (p q : α × State) :
    (if c then p else q).2.durable = if c then p.2.durable else q.2.durable := apply_ite (fun p : α × State => p.2.durable) c p q

/-- The state that a pair holds, under the pair's name. -/
theorem durable_of_pair {α : Type} {p : α × State} {a : α} {t : State} {d : Durable} (h : p = (a, t)) (hp : p.2.durable = d) :
    t.durable = d := by
  rw [h] at hp
  exact hp

@[simp] theorem State.modCh_durable (s : State) (c : Ch) (f : Chan → Chan) : (State.modCh s c f).durable = s.durable := by
  simp [State.modCh]

@[simp] theorem State.modMd_durable (s : State) (f : ModSt → ModSt) : (State.modMd s f).durable = s.durable := by
  simp [State.modMd]

@[simp] theorem State.wr_durable (s : State) (f : Fld) (v : Nat) : (State.wr s f v).durable = s.durable := by
  simp [State.wr]

@[simp] theorem State.wrb_durable (s : State) (f : Fld) (b : Bool) : (State.wrb s f b).durable = s.durable := by
  simp [State.wrb]

@[simp] theorem State.inc_durable (s : State) (f : Fld) : (State.inc s f).durable = s.durable := by
  simp [State.inc]

@[simp] theorem State.incWrap_durable (s : State) (f : Fld) : (State.incWrap s f).durable = s.durable := by
  simp [State.incWrap]

@[simp] theorem State.setBit_durable (s : State) (f : Fld) (i : Nat) : (State.setBit s f i).durable = s.durable := by
  simp [State.setBit]

@[simp] theorem State.clrBit_durable (s : State) (f : Fld) (i : Nat) : (State.clrBit s f i).durable = s.durable := by
  simp [State.clrBit]

@[simp] theorem State.take_durable (s : State) : (State.take s).2.durable = s.durable := by
  simp [State.take]

@[simp] theorem State.enqueue_durable (s : State) (e : RecEv) : (State.enqueue s e).durable = s.durable := by
  simp [State.enqueue]

@[simp] theorem State.diag_durable (s : State) (sev src inst : Nat) (off : Nat) (detail : List Nat) : (State.diag s sev src inst off detail).durable = s.durable := by
  simp [State.diag]

@[simp] theorem State.logParams_durable (s : State) (l : List Nat) : (State.logParams s l).durable = s.durable := by
  simp [State.logParams]

@[simp] theorem State.report_durable (s : State) (c : Ch) (e : RecEv) : (State.report s c e).durable = s.durable := by
  simp [State.report]

@[simp] theorem State.chEvent_durable (s : State) (sev cls inst : Nat) (payload : List Nat) : (State.chEvent s sev cls inst payload).durable = s.durable := by
  simp [State.chEvent]

@[simp] theorem State.miuErr_durable (s : State) (c : Ch) (kind cw synd bit : Nat) : (State.miuErr s c kind cw synd bit).durable = s.durable := by
  simp [State.miuErr]

@[simp] theorem State.miuCorrected_durable (s : State) (c : Ch) (cw : Nat) (e : BitVec 72) (bit : Nat) (queue : Bool) : (State.miuCorrected s c cw e bit queue).durable = s.durable := by
  simp [State.miuCorrected]

@[simp] theorem State.miuUncorrectable_durable (s : State) (c : Ch) (cw : Nat) (e : BitVec 72) : (State.miuUncorrectable s c cw e).durable = s.durable := by
  simp [State.miuUncorrectable]

@[simp] theorem State.setErr_durable (s : State) (c : Ch) (cw : Nat) (e : BitVec 72) : (State.setErr s c cw e).durable = s.durable := by
  simp [State.setErr]

@[simp] theorem State.setPsn_durable (s : State) (c : Ch) (key : Nat) (p : Bool) : (State.setPsn s c key p).durable = s.durable := by
  simp [State.setPsn]

@[simp] theorem State.setTag_durable (s : State) (c : Ch) (cw : Nat) (p : Bool) : (State.setTag s c cw p).durable = s.durable := by
  simp [State.setTag]

@[simp] theorem State.readMapCw_durable (s : State) (c : Ch) (cw : Nat) : (State.readMapCw s c cw).2.durable = s.durable := by
  unfold State.readMapCw
  dsimp only
  (repeat' split) <;> simp

@[simp] theorem State.readTagCw_durable (s : State) (c : Ch) (cw : Nat) (d : BitVec 64) : (State.readTagCw s c cw d).2.durable = s.durable := by
  unfold State.readTagCw
  dsimp only
  (repeat' split) <;> simp

@[simp] theorem State.flip_durable (s : State) (c : Ch) (cw : Nat) : (State.flip s c cw).durable = s.durable := by
  simp [State.flip]

@[simp] theorem State.flipAmong_durable (s : State) (c : Ch) (firsts : List Nat) (written : Nat → Bool) : (State.flipAmong s c firsts written).durable = s.durable := by
  unfold State.flipAmong
  dsimp only
  split <;> simp

@[simp] theorem State.writeMapHalf_durable (s : State) (c : Ch) (cw i : Nat) : (State.writeMapHalf s c cw i).durable = s.durable := by
  unfold State.writeMapHalf
  dsimp only
  (repeat' split) <;> simp

@[simp] theorem State.writeTagHalf_durable (s : State) (c : Ch) (cw i : Nat) (d : BitVec 64) : (State.writeTagHalf s c cw i d).durable = s.durable := by
  unfold State.writeTagHalf
  dsimp only
  (repeat' split) <;> simp

@[simp] theorem State.writeCw_durable (s : State) (c : Ch) (cw : Nat) : (State.writeCw s c cw).durable = s.durable := by
  simp [State.writeCw]

@[simp] theorem State.modLane_durable (s : State) (c : Ch) (l : Nat) (f : LaneSt → LaneSt) : (State.modLane s c l f).durable = s.durable := by
  simp [State.modLane]

@[simp] theorem State.readImg_durable (s : State) (c : Ch) (copy : Option Nat) (i : Nat) : (State.readImg s c copy i).2.durable = s.durable := by
  simp [State.readImg]

@[simp] theorem State.markImg_durable (s : State) (c : Ch) (copy : Option Nat) (i : Nat) (p : Bool) : (State.markImg s c copy i p).durable = s.durable := by
  simp [State.markImg]

@[simp] theorem State.storeImg_durable (s : State) (c : Ch) (copy : Option Nat) (i : Nat) (v : Psn Word) : (State.storeImg s c copy i v).durable = s.durable := by
  unfold State.storeImg
  split <;> simp

@[simp] theorem State.storeAll_durable (s : State) (c : Ch) (i : Nat) (v : Psn Word) (orPsn : Bool) : (State.storeAll s c i v orPsn).durable = s.durable := by
  simp [State.storeAll]

@[simp] theorem State.readTc_durable (s : State) (c : Ch) (counter : Bool) (t : Nat) : (State.readTc s c counter t).2.durable = s.durable := by
  simp [State.readTc]

@[simp] theorem State.storeTc_durable (s : State) (c : Ch) (counter : Bool) (t : Nat) (v : Psn Word) : (State.storeTc s c counter t v).durable = s.durable := by
  simp [State.storeTc]

@[simp] theorem State.markTc_durable (s : State) (c : Ch) (counter : Bool) (t : Nat) : (State.markTc s c counter t).durable = s.durable := by
  simp [State.markTc]

@[simp] theorem State.laneTook_durable (s : State) (c : Ch) (l : Nat) (p : Bool) : (State.laneTook s c l p).durable = s.durable := by
  simp [State.laneTook]

@[simp] theorem State.laneBit_durable (s : State) (c : Ch) (l : Nat) (b : BitAddr) : (State.laneBit s c l b).2.durable = s.durable := by
  simp [State.laneBit]

@[simp] theorem State.laneWord_durable (s : State) (c : Ch) (l : Nat) (w : Nat) : (State.laneWord s c l w).2.durable = s.durable := by
  simp [State.laneWord]

@[simp] theorem State.bitOp_durable (s : State) (c : Ch) (l : Nat) (x : BitOp) : (s.bitOp c l x).2.durable = s.durable := by
  cases x <;> simp [State.bitOp]

@[simp] theorem State.arOp_durable (s : State) (c : Ch) (l : Nat) (x : ArOp) : (s.arOp c l x).2.durable = s.durable := by
  cases x <;> simp [State.arOp]

@[simp] theorem State.logOp_durable (s : State) (c : Ch) (l : Nat) (x : LogOp) : (s.logOp c l x).2.durable = s.durable := by
  cases x <;> simp [State.logOp]

@[simp] theorem State.shOp_durable (s : State) (c : Ch) (l : Nat) (x : ShOp) : (s.shOp c l x).2.durable = s.durable := by
  cases x <;> simp [State.shOp]

@[simp] theorem State.limOp_durable (s : State) (c : Ch) (l : Nat) (x : LimOp) : (s.limOp c l x).2.durable = s.durable := by
  cases x <;> simp [State.limOp]

@[simp] theorem State.tableEntry_durable (s : State) (c : Ch) (b : Bank) (t i : Nat) : (State.tableEntry s c b t i).2.durable = s.durable := by
  simp [State.tableEntry]

@[simp] theorem State.storeBit_durable (s : State) (c : Ch) (l : Nat) (b : BitAddr) (acts v p : Bool) : (State.storeBit s c l b acts v p).durable = s.durable := by
  simp [State.storeBit]

@[simp] theorem State.setBa_durable (s : State) (c : Ch) (l : Nat) (v p : Bool) : (State.setBa s c l v p).durable = s.durable := by
  simp [State.setBa]

@[simp] theorem State.setWa_durable (s : State) (c : Ch) (l : Nat) (v : Word) (p : Bool) : (State.setWa s c l v p).durable = s.durable := by
  simp [State.setWa]

@[simp] theorem State.setOvf_durable (s : State) (c : Ch) (l : Nat) (b : Bool) : (State.setOvf s c l b).durable = s.durable := by
  simp [State.setOvf]

@[simp] theorem effBit_durable (usesBa : Bool) (f : Bool → Bool → Bool) (c : Ch) (l : Nat) (x : BitOp) (s : State) : (effBit usesBa f c l x s).durable = s.durable := by
  simp [effBit]

@[simp] theorem effLd_durable (c : Ch) (l : Nat) (x : BitOp) (s : State) : (effLd c l x s).durable = s.durable := by
  simp [effLd]

@[simp] theorem effLdn_durable (c : Ch) (l : Nat) (x : BitOp) (s : State) : (effLdn c l x s).durable = s.durable := by
  simp [effLdn]

@[simp] theorem effAnd_durable (c : Ch) (l : Nat) (x : BitOp) (s : State) : (effAnd c l x s).durable = s.durable := by
  simp [effAnd]

@[simp] theorem effAndn_durable (c : Ch) (l : Nat) (x : BitOp) (s : State) : (effAndn c l x s).durable = s.durable := by
  simp [effAndn]

@[simp] theorem effOr_durable (c : Ch) (l : Nat) (x : BitOp) (s : State) : (effOr c l x s).durable = s.durable := by
  simp [effOr]

@[simp] theorem effOrn_durable (c : Ch) (l : Nat) (x : BitOp) (s : State) : (effOrn c l x s).durable = s.durable := by
  simp [effOrn]

@[simp] theorem effXor_durable (c : Ch) (l : Nat) (x : BitOp) (s : State) : (effXor c l x s).durable = s.durable := by
  simp [effXor]

@[simp] theorem effEdge_durable (f : Bool → Bool → Bool) (c : Ch) (l : Nat) (m : BitAddr) (s : State) : (effEdge f c l m s).durable = s.durable := by
  simp [effEdge]

@[simp] theorem effRedge_durable (c : Ch) (l : Nat) (m : BitAddr) (s : State) : (effRedge c l m s).durable = s.durable := by
  simp [effRedge]

@[simp] theorem effFedge_durable (c : Ch) (l : Nat) (m : BitAddr) (s : State) : (effFedge c l m s).durable = s.durable := by
  simp [effFedge]

@[simp] theorem effBpush_durable (c : Ch) (l : Nat) (s : State) : (effBpush c l s).durable = s.durable := by
  simp [effBpush]

@[simp] theorem effPop_durable (f : Bool → Bool → Bool) (c : Ch) (l : Nat) (s : State) : (effPop f c l s).durable = s.durable := by
  simp [effPop]

@[simp] theorem effBor_durable (c : Ch) (l : Nat) (s : State) : (effBor c l s).durable = s.durable := by
  simp [effBor]

@[simp] theorem effBand_durable (c : Ch) (l : Nat) (s : State) : (effBand c l s).durable = s.durable := by
  simp [effBand]

@[simp] theorem effZon_durable (neg : Bool) (c : Ch) (l : Nat) (s : State) : (effZon neg c l s).durable = s.durable := by
  simp [effZon]

@[simp] theorem effZoff_durable (c : Ch) (l : Nat) (s : State) : (effZoff c l s).durable = s.durable := by
  simp [effZoff]

@[simp] theorem effStore_durable (acts val : Bool → Bool → Bool) (c : Ch) (l : Nat) (b : BitAddr) (s : State) : (effStore acts val c l b s).durable = s.durable := by
  simp [effStore]

@[simp] theorem effOut_durable (c : Ch) (l : Nat) (b : BitAddr) (s : State) : (effOut c l b s).durable = s.durable := by
  simp [effOut]

@[simp] theorem effOutn_durable (c : Ch) (l : Nat) (b : BitAddr) (s : State) : (effOutn c l b s).durable = s.durable := by
  simp [effOutn]

@[simp] theorem effSet_durable (c : Ch) (l : Nat) (b : BitAddr) (s : State) : (effSet c l b s).durable = s.durable := by
  simp [effSet]

@[simp] theorem effRst_durable (c : Ch) (l : Nat) (b : BitAddr) (s : State) : (effRst c l b s).durable = s.durable := by
  simp [effRst]

@[simp] theorem effStw_durable (c : Ch) (l : Nat) (w : WordAddr) (s : State) : (effStw c l w s).durable = s.durable := by
  simp [effStw]

@[simp] theorem effLdw_durable (c : Ch) (l : Nat) (w : WordAddr) (s : State) : (effLdw c l w s).durable = s.durable := by
  simp [effLdw]

@[simp] theorem effLdwi_durable (c : Ch) (l : Nat) (uns : Bool) (x : BitVec 24) (s : State) : (effLdwi c l uns x s).durable = s.durable := by
  simp [effLdwi]

@[simp] theorem effLdwh_durable (c : Ch) (l : Nat) (h : BitVec 16) (s : State) : (effLdwh c l h s).durable = s.durable := by
  simp [effLdwh]

@[simp] theorem effLdx_durable (c : Ch) (l : Nat) (t : BitVec 8) (s : State) : (effLdx c l t s).durable = s.durable := by
  unfold effLdx
  dsimp only
  (repeat' split) <;> simp

@[simp] theorem effAr_durable (f : Bool → Word → Word → Word × Bool) (c : Ch) (l : Nat) (x : ArOp) (s : State) : (effAr f c l x s).durable = s.durable := by
  simp [effAr]

@[simp] theorem effAdd_durable (c : Ch) (l : Nat) (x : ArOp) (s : State) : (effAdd c l x s).durable = s.durable := by
  simp [effAdd]

@[simp] theorem effSub_durable (c : Ch) (l : Nat) (x : ArOp) (s : State) : (effSub c l x s).durable = s.durable := by
  simp [effSub]

@[simp] theorem effMul_durable (c : Ch) (l : Nat) (x : ArOp) (s : State) : (effMul c l x s).durable = s.durable := by
  simp [effMul]

@[simp] theorem effMin_durable (c : Ch) (l : Nat) (x : ArOp) (s : State) : (effMin c l x s).durable = s.durable := by
  simp [effMin]

@[simp] theorem effMax_durable (c : Ch) (l : Nat) (x : ArOp) (s : State) : (effMax c l x s).durable = s.durable := by
  simp [effMax]

@[simp] theorem effLog_durable (f : Word → Word → Word) (c : Ch) (l : Nat) (x : LogOp) (s : State) : (effLog f c l x s).durable = s.durable := by
  simp [effLog]

@[simp] theorem effAndw_durable (c : Ch) (l : Nat) (x : LogOp) (s : State) : (effAndw c l x s).durable = s.durable := by
  simp [effAndw]

@[simp] theorem effOrw_durable (c : Ch) (l : Nat) (x : LogOp) (s : State) : (effOrw c l x s).durable = s.durable := by
  simp [effOrw]

@[simp] theorem effXorw_durable (c : Ch) (l : Nat) (x : LogOp) (s : State) : (effXorw c l x s).durable = s.durable := by
  simp [effXorw]

@[simp] theorem effShift_durable (f : Word → Nat → Word × Bool) (c : Ch) (l : Nat) (x : ShOp) (s : State) : (effShift f c l x s).durable = s.durable := by
  simp [effShift]

@[simp] theorem effShl_durable (c : Ch) (l : Nat) (x : ShOp) (s : State) : (effShl c l x s).durable = s.durable := by
  simp [effShl]

@[simp] theorem effShr_durable (c : Ch) (l : Nat) (x : ShOp) (s : State) : (effShr c l x s).durable = s.durable := by
  simp [effShr]

@[simp] theorem effAsr_durable (c : Ch) (l : Nat) (x : ShOp) (s : State) : (effAsr c l x s).durable = s.durable := by
  simp [effAsr]

@[simp] theorem effLimit_durable (c : Ch) (l : Nat) (x : LimOp) (s : State) : (effLimit c l x s).durable = s.durable := by
  simp [effLimit]

@[simp] theorem effCmp_durable (f : Int → Int → Bool) (c : Ch) (l : Nat) (x : ArOp) (s : State) : (effCmp f c l x s).durable = s.durable := by
  simp [effCmp]

@[simp] theorem effCeq_durable (c : Ch) (l : Nat) (x : ArOp) (s : State) : (effCeq c l x s).durable = s.durable := by
  simp [effCeq]

@[simp] theorem effCne_durable (c : Ch) (l : Nat) (x : ArOp) (s : State) : (effCne c l x s).durable = s.durable := by
  simp [effCne]

@[simp] theorem effClt_durable (c : Ch) (l : Nat) (x : ArOp) (s : State) : (effClt c l x s).durable = s.durable := by
  simp [effClt]

@[simp] theorem effCle_durable (c : Ch) (l : Nat) (x : ArOp) (s : State) : (effCle c l x s).durable = s.durable := by
  simp [effCle]

@[simp] theorem effCgt_durable (c : Ch) (l : Nat) (x : ArOp) (s : State) : (effCgt c l x s).durable = s.durable := by
  simp [effCgt]

@[simp] theorem effCge_durable (c : Ch) (l : Nat) (x : ArOp) (s : State) : (effCge c l x s).durable = s.durable := by
  simp [effCge]

@[simp] theorem State.setWaOpt_durable (s : State) (c : Ch) (l : Nat) (v : Option Word) (p : Bool) : (State.setWaOpt s c l v p).durable = s.durable := by
  unfold State.setWaOpt
  split <;> simp

@[simp] theorem effTimer_durable (f : Nat → Bool → TimerSt → TimerSt × Bool) (c : Ch) (l : Nat) (k : TVar) (t : BitVec 12) (s : State) : (effTimer f c l k t s).durable = s.durable := by
  simp [effTimer]

@[simp] theorem effTon_durable (c : Ch) (l : Nat) (k : TVar) (t : BitVec 12) (s : State) : (effTon c l k t s).durable = s.durable := by
  simp [effTon]

@[simp] theorem effTof_durable (c : Ch) (l : Nat) (k : TVar) (t : BitVec 12) (s : State) : (effTof c l k t s).durable = s.durable := by
  simp [effTof]

@[simp] theorem effTp_durable (c : Ch) (l : Nat) (k : TVar) (t : BitVec 12) (s : State) : (effTp c l k t s).durable = s.durable := by
  simp [effTp]

@[simp] theorem effCount_durable (f : Bool → Word → Word × Bool) (out : Word → Word → Bool) (c : Ch) (l : Nat) (k : CVar) (t : BitVec 12) (s : State) : (effCount f out c l k t s).durable = s.durable := by
  simp [effCount]

@[simp] theorem effCtu_durable (c : Ch) (l : Nat) (k : CVar) (t : BitVec 12) (s : State) : (effCtu c l k t s).durable = s.durable := by
  simp [effCtu]

@[simp] theorem effCtd_durable (c : Ch) (l : Nat) (k : CVar) (t : BitVec 12) (s : State) : (effCtd c l k t s).durable = s.durable := by
  simp [effCtd]

@[simp] theorem effCres_durable (c : Ch) (l : Nat) (preset : Bool) (t : BitVec 12) (s : State) : (effCres c l preset t s).durable = s.durable := by
  simp [effCres]

@[simp] theorem effAssert_durable (c : Ch) (l : Nat) (a : BitVec 10) (s : State) : (effAssert c l a s).durable = s.durable := by
  simp [effAssert]

@[simp] theorem effNop_durable (c : Ch) (l : Nat) (s : State) : (effNop c l s).durable = s.durable := rfl

@[simp] theorem effPhase_durable (c : Ch) (l : Nat) (s : State) : (effPhase c l s).durable = s.durable := by
  simp [effPhase]

@[simp] theorem effEnd_durable (c : Ch) (l : Nat) (s : State) : (effEnd c l s).durable = s.durable := by
  simp [effEnd]

@[simp] theorem State.streamCw_durable (s : State) (c : Ch) (l : Nat) (b : Bank) (i : Nat) : (State.streamCw s c l b i).2.durable = s.durable := by
  simp [State.streamCw]

@[simp] theorem State.fetch_durable (s : State) (c : Ch) (l : Nat) : (State.fetch s c l).2.durable = s.durable := by
  unfold State.fetch
  split <;> simp

@[simp] theorem State.poisonedFetch_durable (s : State) (c : Ch) (l : Nat) (i : LInstr) : (State.poisonedFetch s c l i).durable = s.durable := by
  simp [State.poisonedFetch]

@[simp] theorem State.laneDo_durable (s : State) (c : Ch) (l : Nat) (i : LInstr) (eff : State → State)
    (h : ∀ t, (eff t).durable = t.durable) : (s.laneDo c l i eff).durable = s.durable := by
  simp [State.laneDo, h]

@[simp] theorem State.laneStep_durable (s : State) (c : Ch) (l : Fin 16) (i : LInstr) (eff : State → State)
    (h : ∀ t, (eff t).durable = t.durable) : (s.laneStep c l i eff).durable = s.durable := by
  simp [State.laneStep, h]

@[simp] theorem effOf_durable (c : Ch) (l : Nat) (i : LInstr) (s : State) : (effOf c l i s).durable = s.durable := by
  cases i <;> simp [effOf]

@[simp] theorem State.feed_durable (s : State) (c : Ch) (item : Word64) : (State.feed s c item).durable = s.durable := by
  simp [State.feed]

@[simp] theorem State.mergeWord_durable (s : State) (c : Ch) (ft : ForceTab) (l : Nat) (i : Nat) (mask : Word) : (State.mergeWord s c ft l i mask).durable = s.durable := by
  unfold State.mergeWord
  dsimp only
  split <;> simp

@[simp] theorem State.mergeLanes_durable (s : State) (c : Ch) (ft : ForceTab) : (State.mergeLanes s c ft).durable = s.durable := by
  simp [State.mergeLanes]

@[simp] theorem State.barrier_durable (s : State) (c : Ch) (ft : ForceTab) : (State.barrier s c ft).durable = s.durable := by
  simp [State.barrier]

@[simp] theorem State.startProgram_durable (s : State) (c : Ch) : (State.startProgram s c).durable = s.durable := by
  simp [State.startProgram]

@[simp] theorem State.runWords_durable (c : Ch) (l : Nat) (ws : List Word) (s : State) : (State.runWords c l ws s).durable = s.durable := by
  induction ws generalizing s with
  | nil => rfl
  | cons w ws ih =>
    unfold State.runWords
    dsimp only
    split <;> simp [ih]

@[simp] theorem State.runPhase_durable (s : State) (c : Ch) (b : Bank) (ft : ForceTab) : (State.runPhase s c b ft).durable = s.durable := by
  simp [State.runPhase]

@[simp] theorem State.runPhases_durable (s : State) (c : Ch) (b : Bank) (ft : ForceTab) (n : Nat) : (State.runPhases s c b ft n).durable = s.durable := by
  simp [State.runPhases]

@[simp] theorem State.modSio_durable (s : State) (f : SioSt → SioSt) : (State.modSio s f).durable = s.durable := by
  simp [State.modSio]

@[simp] theorem State.setInp_durable (s : State) (c : Ch) (i : Nat) (v : InStage) : (State.setInp s c i v).durable = s.durable := by
  simp [State.setInp]

@[simp] theorem State.setPr_durable (s : State) (c : Ch) (p : Nat) (v : PairStage) : (State.setPr s c p v).durable = s.durable := by
  simp [State.setPr]

@[simp] theorem State.setAck_durable (s : State) (c : Ch) (v : AckStage) : (State.setAck s c v).durable = s.durable := by
  simp [State.setAck]

@[simp] theorem State.modOut_durable (s : State) (o : Nat) (f : OutSt → OutSt) : (State.modOut s o f).durable = s.durable := by
  simp [State.modOut]

@[simp] theorem State.outEvent_durable (s : State) (sev o : Nat) : (State.outEvent s sev o).durable = s.durable := by
  simp [State.outEvent]

@[simp] theorem State.ordinaryOf_durable (s : State) (uA : FMap Nat) (c : Ch) : (State.ordinaryOf s uA c).durable = s.durable := by
  simp [State.ordinaryOf]

@[simp] theorem State.tcSampleOf_durable (s : State) (c : Ch) : (State.tcSampleOf s c).durable = s.durable := by
  simp [State.tcSampleOf]

@[simp] theorem State.resetStages_durable (s : State) (c : Ch) : (State.resetStages s c).durable = s.durable := by
  simp [State.resetStages]

@[simp] theorem State.driveTp_durable (s : State) : (State.driveTp s).durable = s.durable := by
  simp [State.driveTp]

@[simp] theorem State.testInput_durable (s : State) (k : Nat) (uA : FMap Nat) (c : Ch) (i : Nat) : (State.testInput s k uA c i).durable = s.durable := by
  simp [State.testInput]

@[simp] theorem State.classify_durable (s : State) (o code : Nat) (other : List Nat) : (State.classify s o code other).durable = s.durable := by
  simp [State.classify]

@[simp] theorem State.dropAwaited_durable (s : State) (x : Nat) : (s.dropAwaited x).durable = s.durable :=
  durable_foldSt _ _ (fun o t => by dsimp only; split <;> simp) s

@[simp] theorem State.drive_durable (s : State) (o : Nat) : (State.drive s o).durable = s.durable := by
  simp [State.drive]

@[simp] theorem State.driveAll_durable (s : State) : (State.driveAll s).durable = s.durable := by
  simp [State.driveAll]

@[simp] theorem State.command_durable (s : State) (o : Nat) (hs ls : Bool) : (State.command s o hs ls).durable = s.durable := by
  simp [State.command]

@[simp] theorem State.latchOut_durable (s : State) (o code : Nat) : (State.latchOut s o code).durable = s.durable := by
  unfold State.latchOut
  dsimp only
  (repeat' split) <;> simp

@[simp] theorem State.latchReadback_durable (s : State) (o : Nat) : (State.latchReadback s o).durable = s.durable := by
  simp [State.latchReadback]

@[simp] theorem State.unlatch_durable (s : State) (o : Nat) : (State.unlatch s o).durable = s.durable := by
  simp [State.unlatch]

@[simp] theorem State.clearLatches_durable (s : State) : (State.clearLatches s).2.durable = s.durable := by
  simp [State.clearLatches]

@[simp] theorem State.ackReport_durable (s : State) (last cleared : Nat) : (State.ackReport s last cleared).durable = s.durable := by
  simp [State.ackReport]

@[simp] theorem State.dropDue_durable (s : State) (o : Nat) : (State.dropDue s o).durable = s.durable := by
  simp [State.dropDue]

@[simp] theorem State.latchAtTc_durable (s : State) (o : Nat) : (State.latchAtTc s o).durable = s.durable := by
  unfold State.latchAtTc
  dsimp only
  (repeat' split) <;> simp

@[simp] theorem State.latchOutputs_durable (s : State) : (State.latchOutputs s).durable = s.durable := by
  simp [State.latchOutputs]

@[simp] theorem State.measureGroup_durable (s : State) (g : Nat) : (State.measureGroup s g).durable = s.durable := by
  simp [State.measureGroup]

@[simp] theorem State.measure_durable (s : State) : (State.measure s).durable = s.durable := by
  simp [State.measure]

@[simp] theorem State.setVolt_durable (s : State) (g mV : Nat) : (State.setVolt s g mV).durable = s.durable := by
  simp [State.setVolt]

@[simp] theorem State.judgeWired_durable (s : State) (x : Nat) (plus : FMap Nat) : (State.judgeWired s x plus).durable = s.durable := by
  simp [State.judgeWired]

@[simp] theorem State.standbyReadback_durable (s : State) (o : Nat) : (State.standbyReadback s o).durable = s.durable := by
  unfold State.standbyReadback
  split <;> simp

@[simp] theorem State.standbyAtTc_durable (s : State) : (State.standbyAtTc s).durable = s.durable := by
  simp [State.standbyAtTc]

@[simp] theorem State.suspendTests_durable (s : State) (g : Nat) : (State.suspendTests s g).durable = s.durable := by
  simp [State.suspendTests]

@[simp] theorem State.groupVoltage_durable (s : State) (g mV : Nat) : (State.groupVoltage s g mV).durable = s.durable := by
  simp [State.groupVoltage]

@[simp] theorem State.tripGroup_durable (s : State) (g st : Nat) : (State.tripGroup s g st).durable = s.durable := by
  simp [State.tripGroup]

@[simp] theorem State.autoResume_durable (s : State) : (State.autoResume s).durable = s.durable := by
  simp [State.autoResume]

@[simp] theorem State.modDlk_durable (s : State) (f : DlkSt → DlkSt) : (State.modDlk s f).durable = s.durable := by
  simp [State.modDlk]

@[simp] theorem State.setDlkPr_durable (s : State) (p : Nat) (v : DlkPair) : (State.setDlkPr s p v).durable = s.durable := by
  simp [State.setDlkPr]

@[simp] theorem State.dlkRegs_durable (s : State) : (State.dlkRegs s).durable = s.durable := by
  simp [State.dlkRegs]

@[simp] theorem State.dlkOut_durable (s : State) (rle rre tpe feed : Bool) : (State.dlkOut s rle rre tpe feed).durable = s.durable := by
  simp [State.dlkOut]

@[simp] theorem State.dlkEval_durable (s : State) : (State.dlkEval s).durable = s.durable := by
  simp [State.dlkEval]

@[simp] theorem State.dlkLock_durable (s : State) (cause : Nat) : (State.dlkLock s cause).durable = s.durable := by
  simp [State.dlkLock]

@[simp] theorem State.dlkFaultSet_durable (s : State) (code : Nat) : (State.dlkFaultSet s code).durable = s.durable := by
  simp [State.dlkFaultSet]

@[simp] theorem State.fallbackAtTc_durable (s : State) : (State.fallbackAtTc s).durable = s.durable := by
  unfold State.fallbackAtTc
  dsimp only
  (repeat' split) <;> simp

@[simp] theorem State.dlkRelease_durable (s : State) (rail0 rail1 : BitVec 8) : (State.dlkRelease s rail0 rail1).durable = s.durable := by
  simp [State.dlkRelease]

@[simp] theorem State.dlkFreeze_durable (s : State) : (State.dlkFreeze s).durable = s.durable := by
  simp [State.dlkFreeze]

@[simp] theorem State.modPtn_durable (s : State) (f : PtnSt → PtnSt) : (State.modPtn s f).durable = s.durable := by
  simp [State.modPtn]

@[simp] theorem State.emit_durable (s : State) (p : Nat) (bytes : List Byte) (good : Bool) (at' : Nat) : (State.emit s p bytes good at').durable = s.durable := by
  simp [State.emit]

@[simp] theorem State.forward_durable (s : State) (port : Nat) (f : PtnFrame) (bytes : List Byte) (startNs : Nat) (good : Bool) : (State.forward s port f bytes startNs good).durable = s.durable := by
  unfold State.forward
  dsimp only
  (repeat' split) <;> simp

@[simp] theorem State.rxBad_durable (s : State) (port : Nat) : (State.rxBad s port).durable = s.durable := by
  simp [State.rxBad]

@[simp] theorem State.policeDrop_durable (s : State) (port : Nat) (f : PtnFrame) (violation : Bool) : (State.policeDrop s port f violation).durable = s.durable := by
  simp [State.policeDrop]

@[simp] theorem State.noteSeen_durable (s : State) (e port : Nat) (f : PtnFrame) : (State.noteSeen s e port f).2.durable = s.durable := by
  unfold State.noteSeen
  dsimp only
  (repeat' split) <;> simp

@[simp] theorem State.deliver_durable (s : State) (e : Nat) (f : PtnFrame) (late : Bool) : (State.deliver s e f late).durable = s.durable := by
  simp [State.deliver]

@[simp] theorem State.receive_durable (s : State) (port : Nat) (bytes : List Byte) (startNs : Nat) (fcsOk : Bool) : (State.receive s port bytes startNs fcsOk).2.durable = s.durable := by
  unfold State.receive
  dsimp only
  (repeat' split) <;> simp

@[simp] theorem State.isoRegs_durable (s : State) : (State.isoRegs s).durable = s.durable := by
  simp [State.isoRegs]

@[simp] theorem State.ptnAtTc_durable (s : State) : (State.ptnAtTc s).durable = s.durable := by
  simp [State.ptnAtTc]

@[simp] theorem State.peerBit_durable (s : State) (k : Nat) (safeSet : Bool) : (State.peerBit s k safeSet).durable = s.durable := by
  simp [State.peerBit]

@[simp] theorem State.peerMiss_durable (s : State) (k : Nat) (locs : List Nat) : (State.peerMiss s k locs).durable = s.durable := by
  simp [State.peerMiss]

@[simp] theorem State.peerValid_durable (s : State) (k : Nat) (locs : List Nat) (r : RxFrame) : (State.peerValid s k locs r).durable = s.durable := by
  unfold State.peerValid
  dsimp only
  split <;> simp

@[simp] theorem State.loadEntry_durable (s : State) (e mi : Nat) : (State.loadEntry s e mi).durable = s.durable := by
  unfold State.loadEntry
  dsimp only
  (repeat' split) <;> simp

@[simp] theorem State.ptnLoad_durable (s : State) : (State.ptnLoad s).durable = s.durable := by
  simp [State.ptnLoad]

@[simp] theorem State.ptnRestart_durable (s : State) : (State.ptnRestart s).durable = s.durable := by
  simp [State.ptnRestart]

@[simp] theorem State.gather_durable (s : State) (c : Ch) (locs : List Nat) : (State.gather s c locs).2.durable = s.durable := by
  simp [State.gather]

@[simp] theorem State.voteTarget_durable (s : State) (valid : List Ch) (w : Nat) : (s.voteTarget valid w).2.durable = s.durable := by
  simp [State.voteTarget]

@[simp] theorem State.stageEntry_durable (s : State) (valid : List Ch) (e : Nat) : (s.stageEntry valid e).2.durable = s.durable := by
  unfold State.stageEntry
  extract_lets x n status connId frozen seq u tail
  have hu : u.durable = s.durable := by simp [u]
  split
  rename_i v hv
  have hv : v.durable = s.durable := by
    refine (durable_of_pair hv (durable_foldlSnd _ _ (fun p c => ?_) _)).trans hu
    simp
  extract_lets payload diff w
  clear_value payload diff
  have hw : w.durable = s.durable := by
    unfold w
    split <;> simp [hv]
  clear_value w
  split
  rename_i t ht
  have ht : t.durable = s.durable := by
    refine durable_of_pair ht ?_
    split <;> simp [hw]
  split
  · split <;> simp [ht]
  · simp [ht]

@[simp] theorem State.stageFrames_durable (s : State) (valid : List Ch) : (s.stageFrames valid).2.durable = s.durable := by
  refine durable_foldlSnd _ _ (fun p e => ?_) ([], s)
  dsimp only
  (repeat' split) <;> simp

@[simp] theorem State.start_durable (s : State) (e p payload : Nat) (bytes : List Byte) : (State.start s e p payload bytes).durable = s.durable := by
  simp [State.start]

@[simp] theorem State.sendOn_durable (s : State) (e : Nat) (ports : List Nat) (at' : Option Nat) (bytes : List Byte) (payload : Nat) :
    (s.sendOn e ports at' bytes payload).2.durable = s.durable := by
  cases at' <;> simp [State.sendOn]

@[simp] theorem State.sendFrame_durable (s : State) (e : Nat) (at' : Option Nat) (payload : List Byte) : (State.sendFrame s e at' payload).2.durable = s.durable := by
  simp [State.sendFrame]

@[simp] theorem State.sendStaged_durable (s : State) (e : Nat) (t : TxStage) (at' : Option Nat) (payload : List Byte) : (State.sendStaged s e t at' payload).durable = s.durable := by
  simp [State.sendStaged]

@[simp] theorem State.countEmpty_durable (s : State) : (State.countEmpty s).durable = s.durable := by
  simp [State.countEmpty]

@[simp] theorem State.launchResult_durable (s : State) (l r : Nat) : (State.launchResult s l r).durable = s.durable := by
  simp [State.launchResult]

@[simp] theorem State.launchWindow_durable (s : State) (e l : Nat) (t : TxStage) : (State.launchWindow s e l t).durable = s.durable := by
  unfold State.launchWindow
  split <;> simp

@[simp] theorem State.sendEvent_durable (s : State) (e : Nat) (v : EvFrame) : (State.sendEvent s e v).durable = s.durable := by
  simp [State.sendEvent]

@[simp] theorem State.learn_durable (s : State) (vlan : Nat) (mac : BitVec 48) (port : Nat) : (State.learn s vlan mac port).durable = s.durable := by
  simp [State.learn]

@[simp] theorem State.takeFree_durable (s : State) (e p octets : Nat) : (State.takeFree s e p octets).2.durable = s.durable := by
  simp [State.takeFree]

@[simp] theorem State.sendFree_durable (s : State) (p : Nat) : (State.sendFree s p).durable = s.durable := by
  unfold State.sendFree
  dsimp only
  (repeat' split) <;> simp

@[simp] theorem State.relay_durable (s : State) (lineB closed : Bool) : (State.relay s lineB closed).durable = s.durable := by
  simp [State.relay]

@[simp] theorem State.endInsertion_durable (s : State) : (State.endInsertion s).durable = s.durable := by
  simp [State.endInsertion]

@[simp] theorem State.bypassAtOnce_durable (s : State) : (State.bypassAtOnce s).durable = s.durable := by
  simp [State.bypassAtOnce]

@[simp] theorem State.stagedBypass_durable (s : State) : (State.stagedBypass s).durable = s.durable := by
  simp [State.stagedBypass]

@[simp] theorem State.relayTick_durable (s : State) : (State.relayTick s).durable = s.durable := by
  simp [State.relayTick]

@[simp] theorem State.insertA_durable (s : State) : (State.insertA s).durable = s.durable := by
  simp [State.insertA]

@[simp] theorem State.applySched_durable (s : State) (m : FMap Word) (cfg : NetCfg) (epoch : Nat) (switch : Bool) :
    (s.applySched m cfg epoch switch).durable = s.durable := by
  have launches (t : State) : (foldSt (List.range 8) (fun l s =>
      match cfg.launches[l]? with
      | some (e, w) => ((s.wrb (Reg.TMU_LAUNCH_ENABLED l) true).wr (Reg.TMU_LAUNCH_TARGET_WORD l) w).wr (Reg.TMU_LAUNCH_ENTRY l) e
      | none => ((s.wrb (Reg.TMU_LAUNCH_ENABLED l) false).wr (Reg.TMU_LAUNCH_TARGET_WORD l) 0).wr (Reg.TMU_LAUNCH_ENTRY l) 0)
      t).durable = t.durable := durable_foldSt _ _ (fun l t => by split <;> simp) t
  unfold State.applySched
  dsimp only
  simp only [State.wr_durable]
  refine (launches _).trans ?_
  split <;> simp

@[simp] theorem State.modTmu_durable (s : State) (f : TmuSt → TmuSt) : (State.modTmu s f).durable = s.durable := by
  simp [State.modTmu]

@[simp] theorem State.setDom_durable (s : State) (d : Nat) (f : DomSt → DomSt) : (State.setDom s d f).durable = s.durable := by
  simp [State.setDom]

@[simp] theorem State.noteU_durable (s : State) (now : Nat) : (State.noteU s now).durable = s.durable := by
  simp [State.noteU]

@[simp] theorem State.setValid_durable (s : State) (v : Bool) : (State.setValid s v).durable = s.durable := by
  simp [State.setValid]

@[simp] theorem State.takeDatum_durable (s : State) (d src : Nat) (x : Datum) (theta : Int) (startNs : Nat) : (State.takeDatum s d src x theta startNs).durable = s.durable := by
  simp [State.takeDatum]

@[simp] theorem State.datumIn_durable (s : State) (port : Nat) (f : PtnFrame) (startNs : Nat) : (State.datumIn s port f startNs).durable = s.durable := by
  simp [State.datumIn]

@[simp] theorem State.domAtTc_durable (s : State) (d : Nat) : (State.domAtTc s d).durable = s.durable := by
  simp [State.domAtTc]

@[simp] theorem State.chooseDomain_durable (s : State) : (State.chooseDomain s).durable = s.durable := by
  simp [State.chooseDomain]

@[simp] theorem State.validAtTc_durable (s : State) : (State.validAtTc s).durable = s.durable := by
  simp [State.validAtTc]

@[simp] theorem State.masterAtTc_durable (s : State) : (State.masterAtTc s).durable = s.durable := by
  simp [State.masterAtTc]

@[simp] theorem State.tmuRegs_durable (s : State) : (State.tmuRegs s).durable = s.durable := by
  simp [State.tmuRegs]

@[simp] theorem State.calmAtTc_durable (s : State) : (State.calmAtTc s).durable = s.durable := by
  simp [State.calmAtTc]

@[simp] theorem State.pulseAtTc_durable (s : State) : (State.pulseAtTc s).durable = s.durable := by
  simp [State.pulseAtTc]

@[simp] theorem State.tmuAtTc_durable (s : State) : (State.tmuAtTc s).durable = s.durable := by
  simp [State.tmuAtTc]

@[simp] theorem State.sendDatum_durable (s : State) (e domain : Nat) (cold : Bool) (onPort : Nat → Bool) : (State.sendDatum s e domain cold onPort).durable = s.durable := by
  simp [State.sendDatum]

@[simp] theorem State.gptpLeave_durable (s : State) (p : Nat) : (State.gptpLeave s p).durable = s.durable := by
  unfold State.gptpLeave
  dsimp only
  (repeat' split) <;> simp

@[simp] theorem State.gptpFlush_durable (s : State) (p : Nat) : (State.gptpFlush s p).durable = s.durable := by
  simp [State.gptpFlush]

@[simp] theorem State.gptpSend_durable (s : State) (p : Nat) (kinds : List Nat) (logInterval : Int) : (State.gptpSend s p kinds logInterval).durable = s.durable := by
  simp [State.gptpSend]

@[simp] theorem State.modHbr_durable (s : State) (f : HbrSt → HbrSt) :
    (s.modHbr f).durable = ⟨s.pending, s.rcd.mram, s.rpc.store, (f s.hbr).hostMem, s.sec.staging, s.sec.otp, s.sec.otpCh⟩ := rfl

@[simp] theorem State.modLaneQ_durable (s : State) (f : LaneQ → LaneQ) : (State.modLaneQ s f).durable = s.durable := by
  simp [State.modLaneQ]

@[simp] theorem State.modSec_durable (s : State) (f : SecSt → SecSt) :
    (s.modSec f).durable = ⟨s.pending, s.rcd.mram, s.rpc.store, s.hbr.hostMem, (f s.sec).staging, (f s.sec).otp, (f s.sec).otpCh⟩ := rfl

@[simp] theorem State.modRpc_durable (s : State) (f : RpcSt → RpcSt) :
    (s.modRpc f).durable = ⟨s.pending, s.rcd.mram, (f s.rpc).store, s.hbr.hostMem, s.sec.staging, s.sec.otp, s.sec.otpCh⟩ := rfl

@[simp] theorem HbrSt.raise_hostMem (x : HbrSt) (i : Nat) : (x.raise i).hostMem = x.hostMem := by
  unfold HbrSt.raise
  split <;> rfl

@[simp] theorem State.raiseInt_durable (s : State) (i : Nat) : (s.raiseInt i).durable = s.durable := by
  simp [State.raiseInt]

@[simp] theorem State.accErr_durable (s : State) (kind : Nat) (poison : Bool) (off : Nat) : (State.accErr s kind poison off).durable = s.durable := by
  simp [State.accErr]

@[simp] theorem State.accErr0_durable (s : State) (kind : Nat) (poison : Bool) (off : Nat) : (State.accErr0 s kind poison off).durable = s.durable := by
  simp [State.accErr0]

@[simp] theorem State.refusedAccess_durable (s : State) (off : Nat) : (State.refusedAccess s off).durable = s.durable := by
  simp [State.refusedAccess]

@[simp] theorem State.writeField_durable (s : State) (f : Fld) (w : Word) : (State.writeField s f w).durable = s.durable := by
  unfold State.writeField
  split <;> simp

@[simp] theorem State.writeReg_durable (s : State) (off : Nat) (w : Word) : (State.writeReg s off w).durable = s.durable := by
  unfold State.writeReg
  split <;> simp

@[simp] theorem State.laneRegs_durable (s : State) : (State.laneRegs s).durable = s.durable := by
  simp [State.laneRegs]

@[simp] theorem State.pushFifo_durable (s : State) (r : Word × Word) : (State.pushFifo s r).durable = s.durable := by
  simp [State.pushFifo]

@[simp] theorem State.flushRes_durable (n : Nat) (s : State) : (State.flushRes n s).durable = s.durable := by
  induction n generalizing s with
  | zero => rfl
  | succ n ih =>
    unfold State.flushRes
    split <;> simp [ih]

@[simp] theorem State.post_durable (s : State) (seq : BitVec 16) (code st word1 : Nat) : (State.post s seq code st word1).durable = s.durable := by
  simp [State.post]

@[simp] theorem State.complete_durable (s : State) (seq : BitVec 16) (code st word1 : Nat) : (State.complete s seq code st word1).durable = s.durable := by
  simp [State.complete]

@[simp] theorem State.accept_durable (s : State) (code : Nat) (port : CmdPort) : (State.accept s code port).2.durable = s.durable := by
  unfold State.accept
  split <;> simp

@[simp] theorem State.submit_durable (s : State) (seq : BitVec 16) (code : Byte) (port : CmdPort) (w1 w2 w3 : Word) (chainageNs : Nat) (psn : Bool) : (State.submit s seq code port w1 w2 w3 chainageNs psn).durable = s.durable := by
  simp [State.submit]

@[simp] theorem State.submitWords_durable (s : State) (port : CmdPort) (w0 w1 w2 w3 : Word) (chainageNs : Nat) (psn : Bool) : (State.submitWords s port w0 w1 w2 w3 chainageNs psn).durable = s.durable := by
  simp [State.submitWords]

@[simp] theorem State.unqueue_durable (s : State) (seq : BitVec 16) : (State.unqueue s seq).durable = s.durable := by
  simp [State.unqueue]

@[simp] theorem State.popFifo_durable (s : State) : (State.popFifo s).durable = s.durable := by
  simp [State.popFifo]

@[simp] theorem State.readResLegacy_durable (s : State) : (State.readResLegacy s).durable = s.durable := by
  simp [State.readResLegacy]

@[simp] theorem State.readIntLegacy_durable (s : State) : (State.readIntLegacy s).durable = s.durable := by
  simp [State.readIntLegacy]

@[simp] theorem State.noteFixed_durable (s : State) (c : Ch) (copy : Nat) : (State.noteFixed s c copy).durable = s.durable := by
  simp [State.noteFixed]

@[simp] theorem State.notePages_durable (s : State) (c : Ch) (copy : Nat) : (State.notePages s c copy).durable = s.durable := by
  unfold State.notePages
  dsimp only
  split <;> simp

@[simp] theorem State.plugRegs_durable (s : State) (c : Ch) (copy : Nat) : (State.plugRegs s c copy).durable = s.durable := by
  simp [State.plugRegs]

@[simp] theorem State.keyRegs_durable (s : State) : (State.keyRegs s).durable = s.durable := by
  simp [State.keyRegs]

@[simp] theorem State.secRegs_durable (s : State) : (State.secRegs s).durable = s.durable := by
  simp [State.secRegs]

@[simp] theorem State.wrKey_durable (s : State) (key v : Nat) : (State.wrKey s key v).durable = s.durable := by
  unfold State.wrKey
  (repeat' split) <;> simp

@[simp] theorem State.wrKeys_durable (s : State) (m : FMap Nat) : (State.wrKeys s m).durable = s.durable := by
  simp [State.wrKeys]

@[simp] theorem State.modGwy_durable (s : State) (f : GwySt → GwySt) : (State.modGwy s f).durable = s.durable := by
  simp [State.modGwy]

@[simp] theorem State.setGwyMsg_durable (s : State) (m : Nat) (v : GwyMsg) : (State.setGwyMsg s m v).durable = s.durable := by
  simp [State.setGwyMsg]

@[simp] theorem State.setGwyRoute_durable (s : State) (r : Nat) (v : GwyRoute) : (State.setGwyRoute s r v).durable = s.durable := by
  simp [State.setGwyRoute]

@[simp] theorem State.dstStore_durable (s : State) (d : GwyRouteDef) (y : Int) : (State.dstStore s d y).durable = s.durable := by
  simp [State.dstStore]

@[simp] theorem State.evalRoute_durable (s : State) (r : Nat) : (State.evalRoute s r).durable = s.durable := by
  simp [State.evalRoute]

@[simp] theorem State.evalRoutes_durable (s : State) (p : GwyRouteDef → Bool) : (State.evalRoutes s p).durable = s.durable := by
  simp [State.evalRoutes]

@[simp] theorem State.ageMsg_durable (s : State) (m : Nat) : (State.ageMsg s m).durable = s.durable := by
  simp [State.ageMsg]

@[simp] theorem State.gwyFreeze_durable (s : State) : (State.gwyFreeze s).durable = s.durable := by
  simp [State.gwyFreeze]

@[simp] theorem State.busState_durable (s : State) (p : Nat) : (State.busState s p).durable = s.durable := by
  simp [State.busState]

@[simp] theorem State.gwyAtTc_durable (s : State) : (State.gwyAtTc s).durable = s.durable := by
  unfold State.gwyAtTc
  dsimp only
  (repeat' split) <;> simp

@[simp] theorem State.gwyOut_durable (s : State) (port ident : Nat) (bytes : List Byte) : (State.gwyOut s port ident bytes).durable = s.durable := by
  simp [State.gwyOut]

@[simp] theorem State.nmtStart_durable (s : State) (p : Nat) : (State.nmtStart s p).durable = s.durable := by
  simp [State.nmtStart]

@[simp] theorem State.sdoReply_durable (s : State) (p : Nat) (ident : Nat) (b : List Byte) : (State.sdoReply s p ident b).durable = s.durable := by
  unfold State.sdoReply
  split <;> simp

@[simp] theorem State.receiveMsg_durable (s : State) (m : Nat) (bytes : List Byte) : (State.receiveMsg s m bytes).durable = s.durable := by
  simp [State.receiveMsg]

@[simp] theorem State.busIn_durable (s : State) (port ident : Nat) (bytes : List Byte) : (State.busIn s port ident bytes).durable = s.durable := by
  unfold State.busIn
  dsimp only
  split <;> simp

@[simp] theorem State.htxWrite_durable (s : State) (j : Nat) (w : Word) : (State.htxWrite s j w).durable = s.durable := by
  simp [State.htxWrite]

@[simp] theorem State.gwyRegs_durable (s : State) : (State.gwyRegs s).durable = s.durable := by
  simp [State.gwyRegs]

@[simp] theorem State.gwyStart_durable (s : State) (t : GwyTab) : (State.gwyStart s t).durable = s.durable := by
  simp [State.gwyStart]

@[simp] theorem State.gwySwap_durable (s : State) : (State.gwySwap s).durable = s.durable := by
  simp [State.gwySwap]

@[simp] theorem State.gwyReport_durable (s : State) (e : Option (Bool × Nat × Nat)) : (State.gwyReport s e).durable = s.durable := by
  simp [State.gwyReport]

@[simp] theorem State.gwyRefuse_durable (s : State) (route : Bool) (n reason : Nat) : (State.gwyRefuse s route n reason).durable = s.durable := by
  simp [State.gwyRefuse]

@[simp] theorem State.sdoBegin_durable (s : State) (seq : BitVec 16) (p node key : Nat) (b : List Byte) : (State.sdoBegin s seq p node key b).durable = s.durable := by
  simp [State.sdoBegin]

@[simp] theorem State.nvHeal_durable (s : State) (a n : Nat) : (State.nvHeal s a n).durable = s.durable := by
  simp [State.nvHeal]

@[simp] theorem State.modLoop_durable (s : State) (n : Nat) (f : AlpLoop → AlpLoop) : (State.modLoop s n f).durable = s.durable := by
  simp [State.modLoop]

@[simp] theorem State.divFree_durable (s : State) (v : Int) (d : Nat) : (State.divFree s v d).2.durable = s.durable := by
  unfold State.divFree
  split <;> simp

@[simp] theorem State.loopUa_durable (s : State) (n : Nat) : (s.loopUa n).2.durable = s.durable := by
  unfold State.loopUa
  extract_lets x l k sum y
  split
  · rfl
  · split
    exact durable_of_pair ‹_› (State.divFree_durable s _ _)

@[simp] theorem State.loopStatus_durable (s : State) (n cls cur : Nat) : (State.loopStatus s n cls cur).durable = s.durable := by
  simp [State.loopStatus]

@[simp] theorem State.loopFreeze_durable (s : State) (n : Nat) : (State.loopFreeze s n).durable = s.durable := by
  simp [State.loopFreeze]

@[simp] theorem State.redrive_durable (s : State) (n : Nat) : (State.redrive s n).durable = s.durable := by
  simp [State.redrive]

@[simp] theorem State.loopDrive_durable (s : State) (n : Nat) : (State.loopDrive s n).durable = s.durable := by
  simp [State.loopDrive]

@[simp] theorem State.loopStage_durable (s : State) (n : Nat) (v : Option Word) : (State.loopStage s n v).durable = s.durable := by
  unfold State.loopStage
  split <;> simp

@[simp] theorem State.alpAtTc_durable (s : State) : (State.alpAtTc s).durable = s.durable := by
  simp [State.alpAtTc]

@[simp] theorem State.loopFault_durable (s : State) (n : Nat) : (State.loopFault s n).durable = s.durable := by
  simp [State.loopFault]

@[simp] theorem State.hartEnd_durable (s : State) (n st : Nat) : (State.hartEnd s n st).durable = s.durable := by
  simp [State.hartEnd]

@[simp] theorem State.hreqWrite_durable (s : State) (n : Nat) (w : Word) : (State.hreqWrite s n w).durable = s.durable := by
  simp [State.hreqWrite]

@[simp] theorem State.calRegs_durable (s : State) (n : Nat) : (State.calRegs s n).durable = s.durable := by
  simp [State.calRegs]

@[simp] theorem State.setCal_durable (s : State) (n : Nat) (c : Option AlpCal) : (State.setCal s n c).durable = s.durable := by
  simp [State.setCal]

@[simp] theorem State.setTrims_durable (s : State) (n : Nat) (gain offset : Int) (field : Bool) : (State.setTrims s n gain offset field).durable = s.durable := by
  simp [State.setTrims]

@[simp] theorem State.calAbort_durable (s : State) (n : Nat) : (State.calAbort s n).durable = s.durable := by
  simp [State.calAbort]

@[simp] theorem State.loadTrims_durable (s : State) (n : Nat) : (State.loadTrims s n).durable = s.durable := by
  unfold State.loadTrims
  dsimp only
  split <;> simp

@[simp] theorem State.modRec_durable (s : State) (f : RecSt → RecSt) :
    (s.modRec f).durable = ⟨s.pending, (f s.rcd).mram, s.rpc.store, s.hbr.hostMem, s.sec.staging, s.sec.otp, s.sec.otpCh⟩ := rfl

@[simp] theorem State.matchReport_durable (s : State) (r : Report) : (State.matchReport s r).durable = s.durable := by
  unfold State.matchReport
  dsimp only
  (repeat' split) <;> simp

@[simp] theorem State.recAtTc_durable (s : State) : (State.recAtTc s).durable = s.durable := by
  simp [State.recAtTc]

@[simp] theorem State.flushHeld_durable (s : State) : (State.flushHeld s).durable = s.durable := by
  simp [State.flushHeld]

@[simp] theorem State.recRegs_durable (s : State) : (State.recRegs s).durable = s.durable := by
  simp [State.recRegs]

@[simp] theorem State.indexStart_durable (s : State) : (State.indexStart s).durable = s.durable := by
  simp [State.indexStart]

@[simp] theorem State.markWrite_durable (s : State) (w : Word) : (State.markWrite s w).durable = s.durable := by
  simp [State.markWrite]

@[simp] theorem State.seekWrite_durable (s : State) (w : Word) : (State.seekWrite s w).durable = s.durable := by
  simp [State.seekWrite]

@[simp] theorem State.writeForces_durable (s : State) (c : Ch) (ft : ForceTab) : (State.writeForces s c ft).durable = s.durable := by
  simp [State.writeForces]

@[simp] theorem State.flipLoad_durable (s : State) (c : Ch) : (State.flipLoad s c).durable = s.durable := by
  simp [State.flipLoad]

@[simp] theorem State.imageLoad_durable (s : State) (c : Ch) (w : FMap Word) (ft : ForceTab) : (State.imageLoad s c w ft).durable = s.durable := by
  simp [State.imageLoad]

@[simp] theorem State.retWord_durable (s : State) (c : Ch) (k : Nat) : (State.retWord s c k).2.durable = s.durable := by
  unfold State.retWord
  (repeat' split) <;> simp

@[simp] theorem State.retained_durable (s : State) (c : Ch) : (State.retained s c).2.durable = s.durable := by
  simp [State.retained]

@[simp] theorem State.storeWritten_durable (s : State) (c : Ch) (lo n : Nat) : (State.storeWritten s c lo n).durable = s.durable := by
  simp [State.storeWritten]

@[simp] theorem State.bankWritten_durable (s : State) (c : Ch) (b : Nat) : (State.bankWritten s c b).durable = s.durable := by
  simp [State.bankWritten]

@[simp] theorem State.forceWritten_durable (s : State) (n : Nat) : (State.forceWritten s n).durable = s.durable := by
  simp [State.forceWritten]

@[simp] theorem State.forceValue_durable (s : State) (n : Nat) : (State.forceValue s n).durable = s.durable := by
  simp [State.forceValue]

@[simp] theorem State.putForces_durable (s : State) (ft : ForceTab) : (State.putForces s ft).durable = s.durable := by
  simp [State.putForces]

@[simp] theorem State.clearForces_durable (s : State) : (State.clearForces s).durable = s.durable := by
  simp [State.clearForces]

@[simp] theorem State.readStore_durable (s : State) (c : Ch) (lo n : Nat) : (State.readStore s c lo n).2.durable = s.durable := by
  simp [State.readStore]

@[simp] theorem State.ccuStops_durable (s : State) (c : Ch) : (State.ccuStops s c).durable = s.durable := by
  simp [State.ccuStops]

@[simp] theorem State.ccuReads_durable (s : State) (c : Ch) (lo n : Nat) : (State.ccuReads s c lo n).durable = s.durable := by
  simp [State.ccuReads]

@[simp] theorem State.readKept_durable (s : State) (c : Ch) (x : Kept) : (State.readKept s c x).2.durable = s.durable := by
  simp [State.readKept]

@[simp] theorem State.ccuWorks_durable (s : State) (c : Ch) : (State.ccuWorks s c).durable = s.durable := by
  simp [State.ccuWorks]

@[simp] theorem State.savedRet_durable (s : State) (c : Ch) : (s.savedRet c).2.durable = s.durable := by
  unfold State.savedRet
  split <;> simp

@[simp] theorem State.savedRets_durable (s : State) (cs : List Ch) : (s.savedRets cs).2.durable = s.durable := by
  refine durable_foldlSnd cs _ (fun p c => ?_) ([], s)
  split <;> exact durable_of_pair ‹_› (State.savedRet_durable p.2 c)

@[simp] theorem State.restartCh_durable (s : State) (c : Ch) (ret : FMap Word) : (State.restartCh s c ret).durable = s.durable := by
  simp [State.restartCh]

@[simp] theorem State.noteNomaj_durable (s : State) (n : Nat) : (State.noteNomaj s n).durable = s.durable := by
  simp [State.noteNomaj]

@[simp] theorem State.ucAfterWarm_durable (s : State) (c : Ch) : (State.ucAfterWarm s c).durable = s.durable := by
  unfold State.ucAfterWarm
  dsimp only
  split <;> simp

@[simp] theorem State.setUc_durable (s : State) (c : Ch) (b : Option Bank) (st : Nat) : (State.setUc s c b st).durable = s.durable := by
  simp [State.setUc]

@[simp] theorem State.runRegs_durable (s : State) (c : Ch) : (State.runRegs s c).durable = s.durable := by
  unfold State.runRegs
  dsimp only
  split <;> simp

@[simp] theorem State.wcetRegs_durable (s : State) : (State.wcetRegs s).durable = s.durable := by
  simp [State.wcetRegs]

@[simp] theorem State.prgRegs_durable (s : State) : (State.prgRegs s).durable = s.durable := by
  simp [State.prgRegs]

@[simp] theorem State.noteCheck_durable (s : State) (c : Ch) (copy : Nat) (o : Opened) : (State.noteCheck s c copy o).durable = s.durable := by
  simp [State.noteCheck]

@[simp] theorem State.breachRegs_durable (s : State) (c : Ch) (x : Breach) : (State.breachRegs s c x).durable = s.durable := by
  simp [State.breachRegs]

@[simp] theorem State.ucWritten_durable (s : State) (c : Ch) : (State.ucWritten s c).durable = s.durable := by
  simp [State.ucWritten]

@[simp] theorem State.setTarget_durable (s : State) (t : Option Nat) : (State.setTarget s t).durable = s.durable := by
  simp [State.setTarget]

@[simp] theorem State.commitResult_durable (s : State) (r : Nat) : (State.commitResult s r).durable = s.durable := by
  simp [State.commitResult]

@[simp] theorem State.disarm_durable (s : State) : (State.disarm s).durable = s.durable := by
  simp [State.disarm]

@[simp] theorem State.dropSafetyForces_durable (s : State) : (State.dropSafetyForces s).durable = s.durable := by
  simp [State.dropSafetyForces]

@[simp] theorem State.resetRegs_durable (s : State) (p : Fld → Bool) : (State.resetRegs s p).durable = s.durable := by
  simp [State.resetRegs]

@[simp] theorem State.noteMode_durable (s : State) (src dst : Mode) (cause chans : Nat) : (State.noteMode s src dst cause chans).durable = s.durable := by
  simp [State.noteMode]

@[simp] theorem State.endHolds_durable (s : State) : (State.endHolds s).durable = s.durable := by
  simp [State.endHolds]

@[simp] theorem State.setRole_durable (s : State) (r : Role) : (State.setRole s r).durable = s.durable := by
  simp [State.setRole]

@[simp] theorem State.retire_durable (s : State) (c : Ch) : (State.retire s c).durable = s.durable := by
  simp [State.retire]

@[simp] theorem State.failAttempt_durable (s : State) (c : Ch) (code : Nat) : (State.failAttempt s c code).durable = s.durable := by
  simp [State.failAttempt]

@[simp] theorem State.abandon_durable (s : State) (c : Ch) : (State.abandon s c).durable = s.durable := by
  simp [State.abandon]

@[simp] theorem State.exclude_durable (s : State) (c : Ch) (cause : Nat) : (State.exclude s c cause).durable = s.durable := by
  simp [State.exclude]

@[simp] theorem State.cancelFlips_durable (s : State) : (State.cancelFlips s).durable = s.durable := by
  simp [State.cancelFlips]

@[simp] theorem State.endDebug_durable (s : State) : (State.endDebug s).durable = s.durable := by
  unfold State.endDebug
  dsimp only
  (repeat' split) <;> simp

@[simp] theorem State.leaveMode_durable (s : State) (dst : Mode) : (State.leaveMode s dst).durable = s.durable := by
  simp [State.leaveMode]

@[simp] theorem State.freezeRet_durable (s : State) (c : Ch) : (State.freezeRet s c).durable = s.durable := by
  simp [State.freezeRet]

@[simp] theorem State.enterSafe_durable (s : State) : (State.enterSafe s).durable = s.durable := by
  simp [State.enterSafe]

@[simp] theorem State.enterStartup_durable (s : State) (hold : Bool) : (State.enterStartup s hold).durable = s.durable := by
  simp [State.enterStartup]

@[simp] theorem State.setMode_durable (s : State) (dst : Mode) (cause chans : Nat) : (State.setMode s dst cause chans).durable = s.durable := by
  unfold State.setMode
  split <;> simp

@[simp] theorem State.rejoin_durable (s : State) (c : Ch) : (State.rejoin s c).durable = s.durable := by
  unfold State.rejoin
  split <;> simp

@[simp] theorem State.voteChanges_durable (s : State) : (State.voteChanges s).durable = s.durable := by
  unfold State.voteChanges
  dsimp only
  split <;> simp

@[simp] theorem State.abandonLoad_durable (s : State) (d : Nat) : (State.abandonLoad s d).durable = s.durable := by
  simp [State.abandonLoad]

@[simp] theorem State.chAssert_durable (s : State) (c : Ch) : (State.chAssert s c).durable = s.durable := by
  simp [State.chAssert]

@[simp] theorem State.restartModule_durable (s : State) (k : Restart) : (State.restartModule s k).durable = s.durable := by
  simp [State.restartModule]

@[simp] theorem State.commitAtWarm_durable (s : State) : (State.commitAtWarm s).durable = s.durable := by
  simp [State.commitAtWarm]

@[simp] theorem State.warmRestart_durable (s : State) (cs : List Ch) (ret : FMap Word) : (State.warmRestart s cs ret).durable = s.durable := by
  simp [State.warmRestart]

@[simp] theorem State.warmRet_durable (s : State) : (State.warmRet s).2.durable = s.durable := by
  simp [State.warmRet]

@[simp] theorem State.warmAssert_durable (s : State) : (State.warmAssert s).durable = s.durable := by
  simp [State.warmAssert]

@[simp] theorem State.ackRestart_durable (s : State) : (State.ackRestart s).durable = s.durable := by
  simp [State.ackRestart]

@[simp] theorem State.holdSource_durable (s : State) (src : ResetSrc) : (State.holdSource s src).durable = s.durable := by
  simp [State.holdSource]

@[simp] theorem State.dlkMatch_durable (s : State) : (State.dlkMatch s).durable = s.durable := by
  simp [State.dlkMatch]

@[simp] theorem State.dlkExpects_durable (s : State) (p : Parsed) : (State.dlkExpects s p).durable = s.durable := by
  simp [State.dlkExpects]

@[simp] theorem State.applyParsed_durable (s : State) (p : Parsed) : (State.applyParsed s p).durable = s.durable := by
  simp [State.applyParsed]

@[simp] theorem State.scrubRegs_durable (s : State) (event : Bool) : (State.scrubRegs s event).durable = s.durable := by
  simp [State.scrubRegs]

@[simp] theorem State.bootChan_durable (s : State) (c : Ch) (copy : Nat) (o : Opened) : (State.bootChan s c copy o).durable = s.durable := by
  simp [State.bootChan]

@[simp] theorem State.bootInvalid_durable (s : State) (c : Ch) : (State.bootInvalid s c).durable = s.durable := by
  simp [State.bootInvalid]

@[simp] theorem State.fwRegs_durable (s : State) : (State.fwRegs s).durable = s.durable := by
  unfold State.fwRegs
  dsimp only
  split <;> simp

@[simp] theorem State.chanCheck_durable (s : State) (c : Ch) (copy : Nat) : (State.chanCheck s c copy).2.durable = s.durable := by
  simp [State.chanCheck]

@[simp] theorem State.bootAlone_durable (s : State) (c : Ch) : (State.bootAlone s c).durable = s.durable := by
  simp [State.bootAlone]

@[simp] theorem State.verdict_durable (s : State) (cause : Nat) : (State.verdict s cause).durable = s.durable := by
  simp [State.verdict]

@[simp] theorem State.useSwitches_durable (s : State) (v : BitVec 22) : (State.useSwitches s v).durable = s.durable := by
  simp [State.useSwitches]

@[simp] theorem State.takeVerdict_durable (s : State) (cause : Nat) : (State.takeVerdict s cause).durable = s.durable := by
  simp [State.takeVerdict]

@[simp] theorem State.modSes_durable (s : State) (p : CmdPort) (f : SesPort → SesPort) : (s.modSes p f).durable = s.durable := by
  cases p <;> rfl

@[simp] theorem State.closeSes_durable (s : State) (p : CmdPort) : (State.closeSes s p).durable = s.durable := by
  unfold State.closeSes
  split <;> simp

@[simp] theorem State.sesFail_durable (s : State) (p : CmdPort) : (State.sesFail s p).durable = s.durable := by
  unfold State.sesFail
  split <;> simp

@[simp] theorem State.sesOpened_durable (s : State) (p : CmdPort) (cred roles : Nat) : (State.sesOpened s p cred roles).durable = s.durable := by
  unfold State.sesOpened
  split <;> simp

@[simp] theorem State.sesOpenWrite_durable (s : State) (w : Word) : (State.sesOpenWrite s w).durable = s.durable := by
  simp [State.sesOpenWrite]

@[simp] theorem State.sesCloseWrite_durable (s : State) (w : Word) : (State.sesCloseWrite s w).durable = s.durable := by
  simp [State.sesCloseWrite]

@[simp] theorem State.storeFailed_durable (s : State) (reason : Nat) : (State.storeFailed s reason).durable = s.durable := by
  simp [State.storeFailed]

@[simp] theorem State.setPlug_durable (s : State) (c : Ch) (copy : Nat) (p : PlugCopy) : (State.setPlug s c copy p).durable = s.durable := by
  simp [State.setPlug]

@[simp] theorem State.eraseCopy_durable (s : State) (copy : Nat) : (State.eraseCopy s copy).durable = s.durable := by
  simp [State.eraseCopy]

@[simp] theorem State.writeCopy_durable (s : State) (j : StoreJob) (l : List Byte) (readBack : BitVec 3) (writeOk : Bool) : (State.writeCopy s j l readBack writeOk).durable = s.durable := by
  simp [State.writeCopy]

@[simp] theorem State.storeHostGone_durable (s : State) : (State.storeHostGone s).durable = s.durable := by
  unfold State.storeHostGone
  split <;> simp

@[simp] theorem State.storeNext_durable (s : State) (j : StoreJob) : (State.storeNext s j).durable = s.durable := by
  unfold State.storeNext
  dsimp only
  (repeat' split) <;> simp

@[simp] theorem State.storeTick_durable (s : State) : (State.storeTick s).durable = s.durable := by
  unfold State.storeTick
  split <;> simp

@[simp] theorem State.storeInterrupted_durable (s : State) : (State.storeInterrupted s).durable = s.durable := by
  unfold State.storeInterrupted
  dsimp only
  (repeat' split) <;> simp

@[simp] theorem State.epochEnd_durable (s : State) (st : Nat) : (State.epochEnd s st).durable = s.durable := by
  simp [State.epochEnd]

@[simp] theorem State.readBar0_durable (s : State) (off : Nat) : (State.readBar0 s off).2.durable = s.durable := by
  unfold State.readBar0
  dsimp only
  (repeat' split) <;> simp

@[simp] theorem State.aer_durable (s : State) (k : Nat) : (State.aer s k).durable = s.durable := by
  simp [State.aer]

@[simp] theorem State.completion_durable (s : State) (c : Cpl) : (State.completion s c).durable = s.durable := by
  simp [State.completion]

@[simp] theorem State.optimeRegs_durable (s : State) : (State.optimeRegs s).durable = s.durable := by
  simp [State.optimeRegs]

@[simp] theorem State.restoreCounters_durable (s : State) : (State.restoreCounters s).durable = s.durable := by
  unfold State.restoreCounters
  dsimp only
  (repeat' split) <;> simp

@[simp] theorem State.kReset_durable (s : State) : (State.kReset s).durable = s.durable := by
  simp [State.kReset]

@[simp] theorem State.kaClearWrite_durable (s : State) (w : Word) : (State.kaClearWrite s w).durable = s.durable := by
  simp [State.kaClearWrite]

@[simp] theorem State.hEffect_durable (s : State) : (State.hEffect s).durable = s.durable := by
  simp [State.hEffect]

@[simp] theorem State.hReset_durable (s : State) (k : Option HostResetKind) : (State.hReset s k).durable = s.durable := by
  simp [State.hReset]

@[simp] theorem State.hbrCtlWrite_durable (s : State) (w : Word) : (State.hbrCtlWrite s w).durable = s.durable := by
  simp [State.hbrCtlWrite]

@[simp] theorem State.recWrite_durable (s : State) (port : CmdPort) (i : Nat) (w : Word) (chainageNs : Nat) : (State.recWrite s port i w chainageNs).durable = s.durable := by
  simp [State.recWrite]

@[simp] theorem State.directWrite_durable (s : State) (port : CmdPort) (off : Nat) (w : Word) (chainageNs : Nat) : (State.directWrite s port off w chainageNs).durable = s.durable := by
  simp [State.directWrite]

theorem msixWrite_durable (s : State) (k : Nat) (w : Word) : (s.modHbr fun x => x.msixWrite k w).durable = s.durable := by
  have : (s.hbr.msixWrite k w).hostMem = s.hbr.hostMem := by
    unfold HbrSt.msixWrite
    dsimp only
    split <;> simp
  simp [this]

@[simp] theorem State.bar0Write_durable (s : State) (port : CmdPort) (off : Nat) (w : Word) (chainageNs : Nat) :
    (State.bar0Write s port off w chainageNs).durable = s.durable := by
  unfold State.bar0Write
  generalize Reg.fieldsAt off = fields
  split
  · simp
  · split
    · exact msixWrite_durable s _ w
    · cases fields <;> simp

@[simp] theorem State.channelView_durable (s : State) (c : Ch) : (State.channelView s c).2.durable = s.durable := by
  simp [State.channelView]

@[simp] theorem State.voteWord_durable (s : State) (vs : List (Psn Word)) : (State.voteWord s vs).2.durable = s.durable := by
  unfold State.voteWord
  dsimp only
  split <;> simp

@[simp] theorem State.votedView_durable (s : State) (ms : List (FMap (Psn Word))) : (State.votedView s ms).2.durable = s.durable := by
  simp [State.votedView]

@[simp] theorem State.fillView_durable (s : State) (v : Nat) (img : FMap (Psn Word)) (k t info : Nat) : (State.fillView s v img k t info).durable = s.durable := by
  simp [State.fillView]

@[simp] theorem State.noteEp_durable (s : State) (off : Nat) (data : Word) : (State.noteEp s off data).durable = s.durable := by
  simp [State.noteEp]

@[simp] theorem State.edgeReset_durable (s : State) : (State.edgeReset s).durable = s.durable := by
  simp [State.edgeReset]

@[simp] theorem State.startSave_durable (s : State) (module : Bool) : (State.startSave s module).durable = s.durable := by
  simp [State.startSave]

@[simp] theorem State.supplyRegs_durable (s : State) : (State.supplyRegs s).durable = s.durable := by
  simp [State.supplyRegs]

@[simp] theorem State.sampleStraps_durable (s : State) : (State.sampleStraps s).durable = s.durable := by
  simp [State.sampleStraps]

@[simp] theorem State.fieldRelease_durable (s : State) : (State.fieldRelease s).durable = s.durable := by
  simp [State.fieldRelease]

@[simp] theorem State.release_durable (s : State) : (State.release s).durable = s.durable := by
  simp [State.release]

@[simp] theorem State.warmJoin_durable (s : State) : (State.warmJoin s).durable = s.durable := by
  simp [State.warmJoin]

@[simp] theorem State.stopLoops_durable (s : State) : (State.stopLoops s).durable = s.durable := by
  simp [State.stopLoops]

@[simp] theorem State.stopService_durable (s : State) : (State.stopService s).durable = s.durable := by
  simp [State.stopService]

@[simp] theorem State.loadGivenUp_durable (s : State) (d : Nat) : (State.loadGivenUp s d).durable = s.durable := by
  simp [State.loadGivenUp]

@[simp] theorem State.domainGone_durable (s : State) (d : Nat) : (State.domainGone s d).durable = s.durable := by
  simp [State.domainGone]

@[simp] theorem State.modResetApply_durable (s : State) (seq : BitVec 16) : (State.modResetApply s seq).durable = s.durable := by
  unfold State.modResetApply
  split <;> simp

@[simp] theorem State.countMisses_durable (s : State) : (State.countMisses s).durable = s.durable := by
  simp [State.countMisses]

@[simp] theorem State.exclInput_durable (s : State) (c : Ch) (i : Nat) : (State.exclInput s c i).durable = s.durable := by
  simp [State.exclInput]

@[simp] theorem State.countDiffs_durable (s : State) (rx : Ch) : (State.countDiffs s rx).durable = s.durable := by
  unfold State.countDiffs
  dsimp only
  split <;> simp

@[simp] theorem State.inputRegs_durable (s : State) (v : InVals) : (State.inputRegs s v).durable = s.durable := by
  simp [State.inputRegs]

@[simp] theorem State.ackInSafe_durable (s : State) : (State.ackInSafe s).durable = s.durable := by
  simp [State.ackInSafe]

@[simp] theorem State.ackSeen_durable (s : State) (v : InVals) : (State.ackSeen s v).durable = s.durable := by
  simp [State.ackSeen]

@[simp] theorem State.agreement_durable (s : State) : (State.agreement s).durable = s.durable := by
  simp [State.agreement]

@[simp] theorem State.sendRecord_durable (s : State) (w : FMap Word) : (State.sendRecord s w).durable = s.durable := by
  simp [State.sendRecord]

@[simp] theorem State.loadCycle_durable (s : State) (w : Ch → FMap Word) (commit : Bool) : (State.loadCycle s w commit).durable = s.durable := by
  simp [State.loadCycle]

@[simp] theorem State.haltAll_durable (s : State) (phase : Nat) (newCycle : Bool) : (State.haltAll s phase newCycle).durable = s.durable := by
  simp [State.haltAll]

@[simp] theorem State.startAll_durable (s : State) : (State.startAll s).durable = s.durable := by
  simp [State.startAll]

@[simp] theorem State.releaseHalt_durable (s : State) : (State.releaseHalt s).durable = s.durable := by
  simp [State.releaseHalt]

@[simp] theorem State.cycleStart_durable (s : State) : (State.cycleStart s).durable = s.durable := by
  simp [State.cycleStart]

@[simp] theorem State.laneStatus_durable (s : State) (c : Ch) : (State.laneStatus s c).durable = s.durable := by
  simp [State.laneStatus]

@[simp] theorem State.debugBarrier_durable (s : State) : (State.debugBarrier s).durable = s.durable := by
  simp [State.debugBarrier]

@[simp] theorem State.feedOutput_durable (s : State) (c : Ch) : (State.feedOutput s c).durable = s.durable := by
  simp [State.feedOutput]

@[simp] theorem State.finishSig_durable (s : State) (c : Ch) (k : Nat) : (State.finishSig s c k).durable = s.durable := by
  simp [State.finishSig]

@[simp] theorem State.overrun_durable (s : State) (c : Ch) : (State.overrun s c).durable = s.durable := by
  simp [State.overrun]

@[simp] theorem State.reportPoison_durable (s : State) (c : Ch) : (State.reportPoison s c).durable = s.durable := by
  simp [State.reportPoison]

@[simp] theorem State.sendSig_durable (s : State) (c : Ch) : (State.sendSig s c).durable = s.durable := by
  simp [State.sendSig]

@[simp] theorem State.limitChan_durable (s : State) (c : Ch) : (State.limitChan s c).durable = s.durable := by
  simp [State.limitChan]

@[simp] theorem State.sigRegs_durable (s : State) (cs : List Ch) (d : Decision) : (s.sigRegs cs d).durable = s.durable := by
  unfold State.sigRegs
  simp only [durable_ite, State.inc_durable, ite_self]
  rw [durable_foldSt _ _ (fun c t => by simp), durable_foldSt _ _ (fun c t => by split <;> simp)]
  simp

@[simp] theorem State.comparison_durable (s : State) : (State.comparison s).durable = s.durable := by
  unfold State.comparison
  dsimp only
  (repeat' split) <;> simp

@[simp] theorem State.eventOf_durable (s : State) (cs : List Ch) (sev cls : Nat) (payload : List Nat) : (State.eventOf s cs sev cls payload).durable = s.durable := by
  simp [State.eventOf]

@[simp] theorem State.assertions_durable (s : State) : s.assertions.durable = s.durable := by
  unfold State.assertions
  dsimp only
  rw [State.modMd_durable, durable_ite, State.diag_durable, ite_self]
  exact durable_foldSt _ _ (fun a t => by split <;> simp) s

@[simp] theorem State.agreeLanes_durable (s : State) : s.agreeLanes.durable = s.durable :=
  durable_foldSt _ (fun c (s : State) => s.modCh c _) (fun _ _ => rfl) s

@[simp] theorem State.sendTwinSig_durable (s : State) : (State.sendTwinSig s).durable = s.durable := by
  unfold State.sendTwinSig
  dsimp only
  (repeat' split) <;> simp

@[simp] theorem State.contrib_durable (s : State) (i : Nat) (cs : List Ch) : (State.contrib s i cs).2.durable = s.durable := by
  simp [State.contrib]

@[simp] theorem State.stageOutput_durable (s : State) (cs : List Ch) (l : List (Ch × Psn Word)) (safe : Bool) (o : Nat) : (State.stageOutput s cs l safe o).durable = s.durable := by
  unfold State.stageOutput
  dsimp only
  split <;> simp

@[simp] theorem State.stageFallback_durable (s : State) (l : List (Ch × Psn Word)) (safe : Bool) : (State.stageFallback s l safe).durable = s.durable := by
  unfold State.stageFallback
  split <;> simp

@[simp] theorem State.wordVote_durable (s : State) (cs : List Ch) (w : Nat) : (s.wordVote cs w).2.durable = s.durable := by
  simp [State.wordVote]

@[simp] theorem State.stageWords_durable (s : State) (cs : List Ch) : (s.stageWords cs).durable = s.durable := by
  have loops (t : State) : (foldSt loops4 (fun n s =>
      let (v, s) := s.wordVote cs (0x1F8 + 2 * n)
      let s := if v.isNone then s.modMd fun x => { x with noMaj := x.noMaj + 1 } else s
      s.loopStage n v) t).durable = t.durable := durable_foldSt _ _ (fun n t => by simp) t
  refine (loops _).trans (durable_foldSt _ _ (fun i t => ?_) _)
  have h := State.wordVote_durable t cs (0x180 + i)
  split <;> rename_i hv <;> rw [hv] at h <;> exact h

@[simp] theorem State.eventBits_durable (s : State) (c : Ch) : (State.eventBits s c).durable = s.durable := by
  simp [State.eventBits]

@[simp] theorem State.stageAck_durable (s : State) (cs : List Ch) : (State.stageAck s cs).durable = s.durable := by
  unfold State.stageAck
  split <;> simp

@[simp] theorem State.vote_durable (s : State) : (State.vote s).durable = s.durable := by
  unfold State.vote
  dsimp only
  split <;> simp

@[simp] theorem State.capture_durable (s : State) (c : Ch) : (State.capture s c).durable = s.durable := by
  simp [State.capture]

@[simp] theorem State.writeBack_durable (s : State) (c : Ch) (cw : Nat) : (State.writeBack s c cw).durable = s.durable := by
  unfold State.writeBack
  dsimp only
  split <;> simp

@[simp] theorem State.scrubCorrected_durable (s : State) (c : Ch) (cw bit : Nat) : (State.scrubCorrected s c cw bit).durable = s.durable := by
  simp [State.scrubCorrected]

@[simp] theorem State.repairReplica_durable (s : State) (c : Ch) (cw : Nat) : (State.repairReplica s c cw).durable = s.durable := by
  simp [State.repairReplica]

@[simp] theorem State.bankPoison_durable (s : State) (c : Ch) (cw : Nat) : (State.bankPoison s c cw).durable = s.durable := by
  unfold State.bankPoison
  dsimp only
  split <;> simp

@[simp] theorem State.scrubCw_durable (s : State) (c : Ch) (cw : Nat) : (State.scrubCw s c cw).durable = s.durable := by
  unfold State.scrubCw
  dsimp only
  (repeat' split) <;> simp

@[simp] theorem State.endPass_durable (s : State) (c : Ch) : (State.endPass s c).durable = s.durable := by
  simp [State.endPass]

@[simp] theorem State.swapBank_durable (s : State) (c : Ch) : (State.swapBank s c).durable = s.durable := by
  simp [State.swapBank]

@[simp] theorem State.migBit_durable (s : State) (c : Ch) (b : Nat) (v : Psn Bool) : (State.migBit s c b v).durable = s.durable := by
  simp [State.migBit]

@[simp] theorem State.migWord_durable (s : State) (c : Ch) (w : Nat) (v : Psn Word) : (State.migWord s c w v).durable = s.durable := by
  simp [State.migWord]

@[simp] theorem State.migTc_durable (s : State) (c : Ch) (counter : Bool) (t : Nat) (v : Psn Word) : (State.migTc s c counter t v).durable = s.durable := by
  simp [State.migTc]

@[simp] theorem State.migOp_durable (s : State) (c : Ch) (o : MigOp) : (State.migOp s c o).durable = s.durable := by
  unfold State.migOp
  split <;> simp

@[simp] theorem State.migrate_durable (s : State) (c : Ch) (old : Nat) : (State.migrate s c old).durable = s.durable := by
  unfold State.migrate
  split <;> simp

@[simp] theorem State.migrRegs_durable (s : State) (b : Bank) (old : Nat) : (State.migrRegs s b old).durable = s.durable := by
  simp [State.migrRegs]

@[simp] theorem State.remapForces_durable (s : State) (b : Bank) : (State.remapForces s b).durable = s.durable := by
  simp [State.remapForces]

@[simp] theorem State.forceAll_durable (s : State) (c : Ch) (ft : ForceTab) : (State.forceAll s c ft).durable = s.durable := by
  simp [State.forceAll]

@[simp] theorem State.commitBanks_durable (s : State) (id : Nat) (w : State → Ch → FMap Word) : (State.commitBanks s id w).durable = s.durable := by
  unfold State.commitBanks
  dsimp only
  split <;> simp

@[simp] theorem State.commitForces_durable (s : State) : (State.commitForces s).durable = s.durable := by
  simp [State.commitForces]

@[simp] theorem State.commitFails_durable (s : State) : (State.commitFails s).durable = s.durable := by
  simp [State.commitFails]

@[simp] theorem State.setPeerComm_durable (s : State) (k : Nat) (l : List Byte) : (State.setPeerComm s k l).durable = s.durable := by
  simp [State.setPeerComm]

@[simp] theorem State.setComm_durable (s : State) (l : List Byte) : (State.setComm s l).durable = s.durable := by
  simp [State.setComm]

@[simp] theorem State.readWords_durable (s : State) (f : State → Nat → Psn Word × State) (n : Nat)
    (h : ∀ t i, (f t i).2.durable = t.durable) : (s.readWords f n).2.durable = s.durable := by
  simp [State.readWords, h]

/-- The words are read image, timers, counters; the rest of the snapshot is computed. -/
@[simp] theorem State.snapshot_durable (s : State) (c : Ch) (sender : Nat) : (s.snapshot c sender).2.durable = s.durable := by
  have img := State.readWords_durable s (fun s i => s.readImg c none i) Img.size fun t i => State.readImg_durable t c none i
  have tim (u : State) := State.readWords_durable u (fun s t => s.readTc c false t) 4096 fun t i => State.readTc_durable t c false i
  have cnt (u : State) := State.readWords_durable u (fun s t => s.readTc c true t) 4096 fun t i => State.readTc_durable t c true i
  unfold State.snapshot
  split
  rename_i u himg
  rw [himg] at img
  split
  rename_i v htim
  have tim := tim u
  rw [htim] at tim
  split
  rename_i w hcnt
  have cnt := cnt v
  rw [hcnt] at cnt
  exact cnt.trans (tim.trans img)

@[simp] theorem State.restoreWord_durable (s : State) (c : Ch) (off : Nat) (v : Word) : (State.restoreWord s c off v).durable = s.durable := by
  simp [State.restoreWord]

@[simp] theorem State.restoreForce_durable (s : State) (c : Ch) (n : Nat) (f : Option Force) : (State.restoreForce s c n f).durable = s.durable := by
  simp [State.restoreForce]

@[simp] theorem State.restoreBytes_durable (s : State) (c : Ch) (off : Nat) (l : List Byte) : (State.restoreBytes s c off l).durable = s.durable := by
  simp [State.restoreBytes]

theorem State.takeBank_durable {s t : State} {c : Ch} {id : Nat} {b : Bool} (h : s.takeBank c id = some (b, t)) :
    t.durable = s.durable := by
  unfold State.takeBank at h
  split at h
  · cases h; rfl
  · split at h
    · cases h; simp
    · split at h <;> cases h
      rfl

@[simp] theorem State.takeSnapshot_durable (s : State) (c : Ch) (l : List Byte) : (s.takeSnapshot c l).durable = s.durable := by
  unfold State.takeSnapshot
  split
  · simp
  case _ h => simp [State.takeBank_durable h]
  case _ h => simp [State.takeBank_durable h]

@[simp] theorem State.chase_durable (s : State) (c : Ch) (x : Kept) : (State.chase s c x).2.durable = s.durable := by
  unfold State.chase
  dsimp only
  split <;> simp

@[simp] theorem State.chaseDone_durable (s : State) (rx : Ch) (startNs : Nat) : (State.chaseDone s rx startNs).durable = s.durable := by
  unfold State.chaseDone
  dsimp only
  (repeat' split) <;> simp

@[simp] theorem State.modTwn_durable (s : State) (f : TwnSt → TwnSt) : (State.modTwn s f).durable = s.durable := by
  simp [State.modTwn]

@[simp] theorem State.twnRegs_durable (s : State) : (State.twnRegs s).durable = s.durable := by
  simp [State.twnRegs]

@[simp] theorem State.mismatch_durable (s : State) (count : Fld) : (State.mismatch s count).durable = s.durable := by
  simp [State.mismatch]

@[simp] theorem State.hoResult_durable (s : State) (r : Nat) : (State.hoResult s r).durable = s.durable := by
  simp [State.hoResult]

@[simp] theorem State.blockErr_durable (s : State) : (State.blockErr s).durable = s.durable := by
  simp [State.blockErr]

@[simp] theorem State.countInDiff_durable (s : State) (w : FMap Word) : (State.countInDiff s w).durable = s.durable := by
  simp [State.countInDiff]

@[simp] theorem State.takeComm_durable (s : State) : (State.takeComm s).durable = s.durable := by
  simp [State.takeComm]

@[simp] theorem State.takeRecord_durable (s : State) : (State.takeRecord s).durable = s.durable := by
  have kept (k : Kept) (l : List Ch) (t : State) : (foldSt l (fun c s =>
      (s.modCh c fun h => { h with kept := keepEight h.kept k }).storeWritten c (Miu.keptLo k.k) Miu.keptN) t).durable = t.durable :=
    durable_foldSt l _ (fun c t => by rw [State.storeWritten_durable, State.modCh_durable]) t
  unfold State.takeRecord
  split
  · rw [State.wrb_durable, kept, State.modTwn_durable, State.countInDiff_durable]
    split
    · rw [State.modTwn_durable, State.putForces_durable]
    · rfl
  · rw [durable_ite, State.inc_durable, ite_self, State.wrb_durable]

@[simp] theorem State.twinCompare_durable (s : State) : (State.twinCompare s).durable = s.durable := by
  unfold State.twinCompare
  dsimp only
  (repeat' split) <;> simp

@[simp] theorem State.twinSnapshot_durable (s : State) : s.twinSnapshot.2.durable = s.durable := by
  unfold State.twinSnapshot
  extract_lets cs sender
  split
  refine durable_of_pair ‹_› (durable_foldlSnd _ _ (fun p c => ?_) ([], s))
  split
  exact durable_of_pair ‹_› (State.snapshot_durable p.2 c _)

@[simp] theorem State.twinCapture_durable (s : State) : s.twinCapture.durable = s.durable := by
  unfold State.twinCapture
  split
  · split
    · exact State.inc_durable s _
    · split <;> simp [durable_of_pair ‹_› (State.twinSnapshot_durable s)]
  · split
    · split
      simp [durable_of_pair ‹_› (State.twinSnapshot_durable s)]
    · rfl

@[simp] theorem State.dropUnit_durable (s : State) : (State.dropUnit s).durable = s.durable := by
  simp [State.dropUnit]

theorem State.adoptInto_durable {s t : State} {l : List Byte} (h : s.adoptInto l = some t) : t.durable = s.durable := by
  unfold State.adoptInto at h
  split at h <;> cases h
  simp

@[simp] theorem State.adoptFails_durable (s : State) : (State.adoptFails s).durable = s.durable := by
  simp [State.adoptFails]

@[simp] theorem State.adoptHeld_durable (s : State) (k : Nat) (l : List Byte) : (s.adoptHeld k l).durable = s.durable := by
  unfold State.adoptHeld
  split
  · simp
  · simp [State.adoptInto_durable ‹_›]

@[simp] theorem State.followBank_durable (s : State) (id : Nat) : (State.followBank s id).durable = s.durable := by
  simp [State.followBank]

@[simp] theorem State.takeForces_durable (s : State) (k : Nat) (l : List Byte) : (State.takeForces s k l).durable = s.durable := by
  simp [State.takeForces]

@[simp] theorem State.holdSnapshot_durable (s : State) (l : List Byte) : (State.holdSnapshot s l).durable = s.durable := by
  simp [State.holdSnapshot]

@[simp] theorem State.adopted_durable (s : State) : (State.adopted s).durable = s.durable := by
  simp [State.adopted]

@[simp] theorem State.adoptCycle_durable (s : State) (k startNs : Nat) : (State.adoptCycle s k startNs).durable = s.durable := by
  unfold State.adoptCycle
  split <;> simp

@[simp] theorem State.sendLease_durable (s : State) (e : Nat) (m : LeaseMsg) : (State.sendLease s e m).durable = s.durable := by
  simp [State.sendLease]

@[simp] theorem State.modSlot_durable (s : State) (p : Nat) (f : ArbSlot → ArbSlot) : (State.modSlot s p f).durable = s.durable := by
  simp [State.modSlot]

@[simp] theorem State.granted_durable (s : State) (p : Nat) : (State.granted s p).durable = s.durable := by
  unfold State.granted
  dsimp only
  split <;> simp

@[simp] theorem State.leaseHeard_durable (s : State) (m : LeaseMsg) : (State.leaseHeard s m).durable = s.durable := by
  simp [State.leaseHeard]

@[simp] theorem State.hearRenew_durable (s : State) (m : LeaseMsg) : (State.hearRenew s m).durable = s.durable := by
  simp [State.hearRenew]

@[simp] theorem State.judge_durable (s : State) (p : Nat) : (State.judge s p).durable = s.durable := by
  unfold State.judge
  dsimp only
  split <;> simp

@[simp] theorem State.slotAtTc_durable (s : State) (p : Nat) : (State.slotAtTc s p).durable = s.durable := by
  simp [State.slotAtTc]

@[simp] theorem State.ackReceived_durable (s : State) (m : LeaseMsg) : (State.ackReceived s m).durable = s.durable := by
  simp [State.ackReceived]

@[simp] theorem State.leaseWon_durable (s : State) (m : LeaseMsg) : (State.leaseWon s m).durable = s.durable := by
  unfold State.leaseWon
  dsimp only
  (repeat' split) <;> simp

@[simp] theorem State.leaseLost_durable (s : State) (m : LeaseMsg) : (State.leaseLost s m).durable = s.durable := by
  simp [State.leaseLost]

@[simp] theorem State.slotHears_durable (s : State) (m : LeaseMsg) : (State.slotHears s m).durable = s.durable := by
  unfold State.slotHears
  split <;> simp

@[simp] theorem State.orphaned_durable (s : State) : (State.orphaned s).durable = s.durable := by
  simp [State.orphaned]

@[simp] theorem State.becomeActive_durable (s : State) (epoch : Nat) (handover : Bool) : (State.becomeActive s epoch handover).durable = s.durable := by
  simp [State.becomeActive]

@[simp] theorem State.oldHolder_durable (s : State) : (State.oldHolder s).durable = s.durable := by
  unfold State.oldHolder
  split <;> simp

@[simp] theorem State.newHolder_durable (s : State) : (State.newHolder s).durable = s.durable := by
  unfold State.newHolder
  (repeat' split) <;> simp

@[simp] theorem State.roleAtTc_durable (s : State) : (State.roleAtTc s).durable = s.durable := by
  unfold State.roleAtTc
  dsimp only
  (repeat' split) <;> simp

@[simp] theorem State.countMissed_durable (s : State) : (State.countMissed s).durable = s.durable := by
  simp [State.countMissed]

@[simp] theorem State.twnAtTc_durable (s : State) : (State.twnAtTc s).durable = s.durable := by
  simp [State.twnAtTc]

@[simp] theorem State.closeBatch_durable (s : State) : (State.closeBatch s).durable = s.durable := by
  simp [State.closeBatch]

@[simp] theorem State.cycRegs_durable (s : State) : (State.cycRegs s).durable = s.durable := by
  simp [State.cycRegs]

@[simp] theorem State.opTime_durable (s : State) : (State.opTime s).durable = s.durable := by
  simp [State.opTime]

@[simp] theorem State.edgeTime_durable (s : State) : (State.edgeTime s).durable = s.durable := by
  simp [State.edgeTime]

@[simp] theorem State.rpcTime_durable (s : State) : (State.rpcTime s).durable = s.durable := by
  simp [State.rpcTime]

@[simp] theorem State.renumber_durable (s : State) : (State.renumber s).durable = s.durable := by
  simp [State.renumber]

@[simp] theorem State.newCycle_durable (s : State) : (State.newCycle s).durable = s.durable := by
  simp [State.newCycle]

@[simp] theorem State.plumbResult_durable (s : State) (cs : List Ch) (cmpBad cellBad : List Ch) : (State.plumbResult s cs cmpBad cellBad).durable = s.durable := by
  simp [State.plumbResult]

@[simp] theorem State.plumbTick_durable (s : State) : (State.plumbTick s).durable = s.durable := by
  simp [State.plumbTick]

@[simp] theorem State.chanPlumb_durable (s : State) (c : Ch) : (State.chanPlumb s c).durable = s.durable := by
  unfold State.chanPlumb
  split <;> simp

@[simp] theorem State.countInvalid_durable (s : State) : (State.countInvalid s).durable = s.durable := by
  simp [State.countInvalid]

@[simp] theorem State.safeAtTc_durable (s : State) : (State.safeAtTc s).durable = s.durable := by
  unfold State.safeAtTc
  dsimp only
  split <;> simp

@[simp] theorem State.maintAtTc_durable (s : State) : (State.maintAtTc s).durable = s.durable := by
  simp [State.maintAtTc]

@[simp] theorem State.startupAtTc_durable (s : State) : (State.startupAtTc s).durable = s.durable := by
  unfold State.startupAtTc
  (repeat' split) <;> simp

@[simp] theorem State.bootAtTc_durable (s : State) : (State.bootAtTc s).durable = s.durable := by
  unfold State.bootAtTc
  split <;> simp

@[simp] theorem State.poisonResets_durable (s : State) : (State.poisonResets s).durable = s.durable := by
  simp [State.poisonResets]

@[simp] theorem State.commitAtTc_durable (s : State) : (State.commitAtTc s).durable = s.durable := by
  simp [State.commitAtTc]

@[simp] theorem State.commitExcludes_durable (s : State) : (State.commitExcludes s).durable = s.durable := by
  unfold State.commitExcludes
  split <;> simp

@[simp] theorem State.epochAtTc_durable (s : State) : (State.epochAtTc s).durable = s.durable := by
  simp [State.epochAtTc]

@[simp] theorem State.ackAtTc_durable (s : State) : (State.ackAtTc s).durable = s.durable := by
  simp [State.ackAtTc]

@[simp] theorem State.latchClearAtTc_durable (s : State) : (State.latchClearAtTc s).durable = s.durable := by
  simp [State.latchClearAtTc]

/-- The byte memories are canonical. -/
def Durable.canonical (d : Durable) : Prop := Mem.wf d.mram ∧ Mem.wf d.store ∧ Mem.wf d.hostMem ∧ Mem.wf d.staging

/-- What every command keeps: the queue behind it, the canonical form of the memories, and every programmed bit. -/
structure Durable.Keeps (d e : Durable) : Prop where
  pending : e.pending = d.pending
  canonical : d.canonical → e.canonical
  otp : within d.otp e.otp
  otpCh : ∀ c, within (d.otpCh.get c) (e.otpCh.get c)

theorem within_refl (x : Otp) : within x x := by simp [within]

/-- A union with further bits loses none. -/
theorem and_or_of_and {w : Nat} {a b : BitVec w} (h : a &&& b = a) (c : BitVec w) : a &&& (b ||| c) = a := by
  rw [BitVec.and_or_distrib_left, h]
  ext i hi
  simpa using fun h _ => h

theorem within_union {x y : Otp} (h : within x y) (z : Otp) : within x (y.union z) := by
  obtain ⟨h1, h2, h3, h4, h5, h6⟩ := h
  exact ⟨and_or_of_and h1 _, and_or_of_and h2 _, and_or_of_and h3 _, and_or_of_and h4 _, and_or_of_and h5 _, and_or_of_and h6 _⟩

theorem Mem.wf_write {m : FMap Byte} (h : Mem.wf m) (a : Nat) (l : List Byte) : Mem.wf (Mem.write m a l) := by
  induction l generalizing m a with
  | nil => exact h
  | cons b l ih => exact ih (FMap.wf_set _ _ _ _ h) _

theorem Mem.wf_writeImage {m : FMap Byte} (h : Mem.wf m) (a : Nat) (img : FMap (Psn Word)) (n : Nat) :
    Mem.wf (Mem.writeImage m a img n) := by
  unfold Mem.writeImage
  exact List.foldlRecOn _ _ (motive := fun m => Mem.wf m = true) (FMap.wf_cut _ _ _ _ h) fun _ hm _ _ => Mem.wf_write hm _ _

@[simp] theorem Durable.keeps_refl (d : Durable) : d.Keeps d := ⟨rfl, id, within_refl _, fun _ => within_refl _⟩

@[simp] theorem Durable.keeps_ite {d e f : Durable} {c : Prop} [Decidable c] (he : c → d.Keeps e) (hf : ¬c → d.Keeps f) :
    d.Keeps (if c then e else f) := by
  split
  · exact he ‹_›
  · exact hf ‹_›

theorem Durable.keeps_foldSt {d : Durable} {α : Type} (l : List α) (f : α → State → State)
    (hf : ∀ x s, d.Keeps s.durable → d.Keeps (f x s).durable) {s : State} (h : d.Keeps s.durable) :
    d.Keeps (foldSt l f s).durable := by
  unfold foldSt
  exact List.foldlRecOn _ _ (motive := fun s => d.Keeps s.durable) h fun s hs x _ => hf x s hs

section

variable {d : Durable} {s : State}

/-! ### The writes of the durable parts -/

@[simp] theorem State.nvWrite_keeps (h : d.Keeps s.durable) (a : Nat) (l : List Byte) : d.Keeps (s.nvWrite a l).durable := by
  unfold State.nvWrite
  split
  · exact ⟨h.pending, fun hd => ⟨(h.canonical hd).1, Mem.wf_write (h.canonical hd).2.1 _ _, (h.canonical hd).2.2⟩, h.otp, h.otpCh⟩
  · exact h

@[simp] theorem State.otpComplete_keeps (h : d.Keeps s.durable) (v : Otp) : d.Keeps (s.otpComplete v).durable :=
  ⟨h.pending, h.canonical, within_union h.otp v, fun c => by cases c <;> exact within_union (h.otpCh _) v⟩

/-- Bits added to the copy of PD-H alone. -/
theorem State.otpUnion_keeps (h : d.Keeps s.durable) (v : Otp) :
    d.Keeps (s.modSec fun x => { x with otp := x.otp.union v }).durable :=
  ⟨h.pending, h.canonical, within_union h.otp v, h.otpCh⟩

theorem State.writeHost_keeps (h : d.Keeps s.durable) (a : Nat) (l : List Byte) :
    d.Keeps (s.modHbr fun x => { x with hostMem := Mem.write x.hostMem a l }).durable :=
  ⟨h.pending, fun hd => ⟨(h.canonical hd).1, (h.canonical hd).2.1, Mem.wf_write (h.canonical hd).2.2.1 _ _, (h.canonical hd).2.2.2⟩,
    h.otp, h.otpCh⟩

theorem State.writeStaging_keeps (h : d.Keeps s.durable) (a : Nat) (l : List Byte) :
    d.Keeps (s.modSec fun x => { x with staging := Mem.write x.staging a l }).durable :=
  ⟨h.pending, fun hd => ⟨(h.canonical hd).1, (h.canonical hd).2.1, (h.canonical hd).2.2.1, Mem.wf_write (h.canonical hd).2.2.2 _ _⟩,
    h.otp, h.otpCh⟩

@[simp] theorem State.coreReset_keeps (h : d.Keeps s.durable) (l : RLetter) : d.Keeps (s.coreReset l).durable := by
  have : (s.coreReset l).durable = { s.durable with staging := [] } := by
    simp only [State.coreReset, State.wr_durable, durable_mk]
    rfl
  rw [this]
  exact ⟨h.pending, fun hd => ⟨(h.canonical hd).1, (h.canonical hd).2.1, (h.canonical hd).2.2.1, rfl⟩, h.otp, h.otpCh⟩

@[simp] theorem State.writeFloor_keeps (h : d.Keeps s.durable) (f : Nat) : d.Keeps (s.writeFloor f).durable := by
  simp [State.writeFloor, h]

@[simp] theorem State.clearMark_keeps (h : d.Keeps s.durable) : d.Keeps s.clearMark.durable := by
  simp [State.clearMark, h]

@[simp] theorem State.firstRestart_keeps (h : d.Keeps s.durable) (cs : List Ch) (b : Bank) :
    d.Keeps (s.firstRestart cs b).durable := by
  simp [State.firstRestart, h]

@[simp] theorem State.noteDigest_keeps (h : d.Keeps s.durable) (l : List Byte) (m : Nat) : d.Keeps (s.noteDigest l m).durable := by
  simp [State.noteDigest, h]

@[simp] theorem State.startWith_keeps (h : d.Keeps s.durable) (p : Parsed) (os : List (Ch × Opened)) (valid : List Ch) (l : List Byte) :
    d.Keeps (s.startWith p os valid l).durable := by
  have hb : d.Keeps (foldSt os (fun e s => if valid.contains e.1 then s.bootChan e.1 s.sec.start e.2 else s.bootInvalid e.1) s).durable :=
    Durable.keeps_foldSt _ _ (fun _ _ h => by simp [h]) h
  simp only [State.startWith, State.verdict_durable, State.secRegs_durable, State.wcetRegs_durable]
  rw [durable_foldSt _ _ (by simp)]
  exact State.firstRestart_keeps (State.noteDigest_keeps (by simp [h]) _ _) _ _

@[simp] theorem State.assertM_keeps (h : d.Keeps s.durable) (src : ResetSrc) : d.Keeps (s.assertM src).durable := by
  unfold State.assertM
  dsimp only
  split
  · simp [h]
  · split
    · simp [h]
    · simp [h]

@[simp] theorem State.writeSave_keeps (h : d.Keeps s.durable) (n : Nat) : d.Keeps (s.writeSave n).durable := by
  unfold State.writeSave
  dsimp only
  split
  · exact h
  · split <;> simp [h]

@[simp] theorem State.checkPlugs_keeps (h : d.Keeps s.durable) (cs : List Ch) : d.Keeps (s.checkPlugs cs).durable := by
  unfold State.checkPlugs
  dsimp only
  have hc : d.Keeps (cs.foldl (fun (p : List (Ch × Opened) × State) c =>
      ((p.1 ++ [(c, (p.2.chanCheck c s.sec.start).1)]), (p.2.chanCheck c s.sec.start).2)) ([], s.otpComplete s.otpVal)).2.durable := by
    rw [durable_foldlSnd _ _ (by simp)]
    simp [h]
  generalize cs.foldl _ _ = q at hc ⊢
  repeat' split
  all_goals simp [hc]

@[simp] theorem State.bootCheck_keeps (h : d.Keeps s.durable) : d.Keeps s.bootCheck.durable := by
  unfold State.bootCheck
  dsimp only
  repeat' split
  all_goals simp [h]

@[simp] theorem State.bootMaybe_keeps (h : d.Keeps s.durable) : d.Keeps s.bootMaybe.durable := by
  simp [State.bootMaybe, h]

@[simp] theorem State.serviceUp_keeps (h : d.Keeps s.durable) : d.Keeps s.serviceUp.durable := by
  simp [State.serviceUp, h]

@[simp] theorem State.loaded_keeps (h : d.Keeps s.durable) (n : Nat) : d.Keeps (s.loaded n).durable := by
  unfold State.loaded
  dsimp only
  split
  · simp [h]
  · split
    · exact State.serviceUp_keeps (by simp [h])
    · (repeat' split) <;> simp [h]

/-- What a command's own effect keeps, where it has one. -/
def ResKeeps (d : Durable) : CmdRes State → Prop
  | .ok t => d.Keeps t.durable
  | .error _ => True

@[simp] theorem resKeeps_ok (t : State) : ResKeeps d (.ok t) ↔ d.Keeps t.durable := .rfl

@[simp] theorem resKeeps_error (n : Nat) : ResKeeps d (.error n) := trivial

@[simp] theorem resKeeps_needs (c : Bool) (st : Nat) (k : CmdRes State) : ResKeeps d (needs c st k) ↔ (c = true → ResKeeps d k) := by
  unfold needs
  cases c <;> simp

@[simp] theorem applyNop_keeps (h : d.Keeps s.durable) : ResKeeps d (applyNop s) := by
  simp [applyNop, h]

@[simp] theorem applyGwyLoad_keeps (h : d.Keeps s.durable) (w1 : Word) : ResKeeps d (applyGwyLoad w1 s) := by
  simp [applyGwyLoad, h]

@[simp] theorem applyGwySwap_keeps (h : d.Keeps s.durable) (w1 w2 : Word) : ResKeeps d (applyGwySwap w1 w2 s) := by
  simp [applyGwySwap, h]

@[simp] theorem applyGwyNmt_keeps (h : d.Keeps s.durable) (w1 : Word) : ResKeeps d (applyGwyNmt w1 s) := by
  simp [applyGwyNmt, h]

@[simp] theorem State.sdoCheck_keeps (h : d.Keeps s.durable) (w1 : Word) (own : Bool) (k : CmdRes State) (hk : ResKeeps d k) : ResKeeps d (State.sdoCheck s w1 own k) := by
  simp [State.sdoCheck, h, hk]

@[simp] theorem applyGwySdoRead_keeps (h : d.Keeps s.durable) (seq : BitVec 16) (w1 w2 : Word) : ResKeeps d (applyGwySdoRead seq w1 w2 s) := by
  simp [applyGwySdoRead, h]

@[simp] theorem applyGwySdoWrite_keeps (h : d.Keeps s.durable) (seq : BitVec 16) (w1 w2 w3 : Word) : ResKeeps d (applyGwySdoWrite seq w1 w2 w3 s) := by
  simp [applyGwySdoWrite, h]

@[simp] theorem applyCalBegin_keeps (h : d.Keeps s.durable) (w1 : Word) : ResKeeps d (applyCalBegin w1 s) := by
  simp [applyCalBegin, h]

@[simp] theorem applyCalPoint_keeps (h : d.Keeps s.durable) (w1 w2 : Word) : ResKeeps d (applyCalPoint w1 w2 s) := by
  unfold applyCalPoint
  dsimp only
  simp only [resKeeps_needs]
  intros
  (repeat' split) <;> simp [h]

@[simp] theorem applyCalCommit_keeps (h : d.Keeps s.durable) (w1 : Word) : ResKeeps d (applyCalCommit w1 s) := by
  unfold applyCalCommit
  dsimp only
  simp only [resKeeps_needs]
  intros
  (repeat' split) <;> simp [h]

@[simp] theorem applyCalAbort_keeps (h : d.Keeps s.durable) (w1 : Word) : ResKeeps d (applyCalAbort w1 s) := by
  simp [applyCalAbort, h]

@[simp] theorem applyCalFactory_keeps (h : d.Keeps s.durable) (w1 : Word) : ResKeeps d (applyCalFactory w1 s) := by
  simp [applyCalFactory, h]

@[simp] theorem applyRecClear_keeps (h : d.Keeps s.durable) : ResKeeps d (applyRecClear s) := by
  simp [applyRecClear, h]

@[simp] theorem applyRecCountClear_keeps (h : d.Keeps s.durable) : ResKeeps d (applyRecCountClear s) := by
  simp [applyRecCountClear, h]

@[simp] theorem applyPrgLoad_keeps (h : d.Keeps s.durable) (w1 : Word) : ResKeeps d (applyPrgLoad w1 s) := by
  simp [applyPrgLoad, h]

@[simp] theorem applyPrgArm_keeps (h : d.Keeps s.durable) : ResKeeps d (applyPrgArm s) := by
  unfold applyPrgArm
  dsimp only
  simp only [resKeeps_needs]
  intros
  split <;> simp [h]

@[simp] theorem applyPrgCommit_keeps (h : d.Keeps s.durable) (w1 w2 : Word) : ResKeeps d (applyPrgCommit w1 w2 s) := by
  simp [applyPrgCommit, h]

@[simp] theorem applyPrgDisarm_keeps (h : d.Keeps s.durable) : ResKeeps d (applyPrgDisarm s) := by
  simp [applyPrgDisarm, h]

@[simp] theorem applyPrgRelease_keeps (h : d.Keeps s.durable) : ResKeeps d (applyPrgRelease s) := by
  simp [applyPrgRelease, h]

@[simp] theorem applyForceSet_keeps (h : d.Keeps s.durable) (w1 w2 : Word) : ResKeeps d (applyForceSet w1 w2 s) := by
  unfold applyForceSet
  dsimp only
  simp only [resKeeps_needs]
  intros
  (repeat' split) <;> simp [h]

@[simp] theorem applyForceClear_keeps (h : d.Keeps s.durable) (w1 : Word) : ResKeeps d (applyForceClear w1 s) := by
  unfold applyForceClear
  split <;> simp [h]

@[simp] theorem applyForceClearAll_keeps (h : d.Keeps s.durable) : ResKeeps d (applyForceClearAll s) := by
  simp [applyForceClearAll, h]

@[simp] theorem applyRetDiscard_keeps (h : d.Keeps s.durable) : ResKeeps d (applyRetDiscard s) := by
  simp [applyRetDiscard, h]

@[simp] theorem applyChReset_keeps (h : d.Keeps s.durable) (w1 : Word) : ResKeeps d (applyChReset w1 s) := by
  simp [applyChReset, h]

@[simp] theorem applyWarmReset_keeps (h : d.Keeps s.durable) : ResKeeps d (applyWarmReset s) := by
  simp [applyWarmReset, h]

@[simp] theorem applyMntEnter_keeps (h : d.Keeps s.durable) : ResKeeps d (applyMntEnter s) := by
  simp [applyMntEnter, h]

@[simp] theorem applyMntExit_keeps (h : d.Keeps s.durable) : ResKeeps d (applyMntExit s) := by
  simp [applyMntExit, h]

@[simp] theorem applyDbgEnter_keeps (h : d.Keeps s.durable) : ResKeeps d (applyDbgEnter s) := by
  simp [applyDbgEnter, h]

@[simp] theorem applyDbgExit_keeps (h : d.Keeps s.durable) : ResKeeps d (applyDbgExit s) := by
  simp [applyDbgExit, h]

@[simp] theorem applyDbgHalt_keeps (h : d.Keeps s.durable) (w1 : Word) : ResKeeps d (applyDbgHalt w1 s) := by
  simp [applyDbgHalt, h]

@[simp] theorem applyDbgStep_keeps (h : d.Keeps s.durable) : ResKeeps d (applyDbgStep s) := by
  simp [applyDbgStep, h]

@[simp] theorem applyDbgResume_keeps (h : d.Keeps s.durable) : ResKeeps d (applyDbgResume s) := by
  simp [applyDbgResume, h]

@[simp] theorem applyCfgStore_keeps (h : d.Keeps s.durable) (port : CmdPort) (w1 w2 w3 : Word) : ResKeeps d (applyCfgStore port w1 w2 w3 s) := by
  simp [applyCfgStore, h]

@[simp] theorem applyCfgStart_keeps (h : d.Keeps s.durable) (w1 : Word) : ResKeeps d (applyCfgStart w1 s) := by
  simp [applyCfgStart, h]

@[simp] theorem applySchLoad_keeps (h : d.Keeps s.durable) (w1 : Word) : ResKeeps d (applySchLoad w1 s) := by
  unfold applySchLoad
  dsimp only
  simp only [resKeeps_needs]
  intros
  (repeat' split) <;> simp [h]

@[simp] theorem applySchCommit_keeps (h : d.Keeps s.durable) (w1 w2 w3 : Word) : ResKeeps d (applySchCommit w1 w2 w3 s) := by
  simp [applySchCommit, h]

@[simp] theorem applySchCancel_keeps (h : d.Keeps s.durable) : ResKeeps d (applySchCancel s) := by
  simp [applySchCancel, h]

@[simp] theorem applyFwActivate_keeps (h : d.Keeps s.durable) (w1 : Word) : ResKeeps d (applyFwActivate w1 s) := by
  simp [applyFwActivate, h]

@[simp] theorem applySecRollback_keeps (h : d.Keeps s.durable) : ResKeeps d (applySecRollback s) := by
  simp only [applySecRollback, resKeeps_needs, resKeeps_ok, State.keyRegs_durable]
  exact fun _ => State.otpComplete_keeps (State.otpUnion_keeps h _) _

@[simp] theorem applySecRevoke_keeps (h : d.Keeps s.durable) (port : CmdPort) (w1 w2 : Word) :
    ResKeeps d (applySecRevoke port w1 w2 s) := by
  unfold applySecRevoke
  simp only [resKeeps_needs]
  intros
  split
  · trivial
  · simp only [resKeeps_needs, resKeeps_ok, State.keyRegs_durable]
    exact fun _ => State.otpComplete_keeps (State.otpUnion_keeps h _) _

@[simp] theorem applySecCertGet_keeps (h : d.Keeps s.durable) (port : CmdPort) (w1 w2 : Word) :
    ResKeeps d (applySecCertGet port w1 w2 s) := by
  unfold applySecCertGet
  simp only [resKeeps_needs]
  intros
  split
  · simp only [resKeeps_needs, resKeeps_ok]
    exact fun _ => State.writeHost_keeps h _ _
  · exact State.writeStaging_keeps h _ _

@[simp] theorem applySecKeyImport_keeps (h : d.Keeps s.durable) (port : CmdPort) (w1 w2 : Word) : ResKeeps d (applySecKeyImport port w1 w2 s) := by
  unfold applySecKeyImport
  dsimp only
  simp only [resKeeps_needs]
  intros
  (repeat' split) <;> simp [h]

@[simp] theorem applyTwnHandover_keeps (h : d.Keeps s.durable) (w1 w2 : Word) : ResKeeps d (applyTwnHandover w1 w2 s) := by
  simp [applyTwnHandover, h]

@[simp] theorem applyTwnHoCancel_keeps (h : d.Keeps s.durable) : ResKeeps d (applyTwnHoCancel s) := by
  simp [applyTwnHoCancel, h]

theorem applyCode_keeps (h : d.Keeps s.durable) (code : Nat) (port : CmdPort) (seq : BitVec 16) (w1 w2 w3 : Word) :
    ResKeeps d (applyCode code port seq w1 w2 w3 s) := by
  unfold applyCode
  split <;> simp [h]

@[simp] theorem State.runRecord_keeps {eff : State → CmdRes State} (h : d.Keeps s.durable) (he : ResKeeps d (eff s)) (seq : BitVec 16)
    (code : Byte) : d.Keeps (s.runRecord seq code eff).durable := by
  unfold State.runRecord
  dsimp only
  split
  · simp [h]
  · split
    · next heq => simpa [heq] using he
    · simp [h]

/-- A command's frame keeps what its own effect keeps. -/
theorem State.cmd_keeps {eff : State → CmdRes State} (he : ∀ {t : State}, d.Keeps t.durable → ResKeeps d (eff t)) (h : d.Keeps s.durable)
    (code : Byte) (r : CmdRec) : d.Keeps (s.cmd code r eff).durable := by
  unfold State.cmd
  split
  · exact h
  · split
    · simp [h]
    · have hq (seq : BitVec 16) : d.Keeps (s.unqueue seq).durable := by simp [h]
      simp only [durable_ite]
      exact Durable.keeps_ite (fun _ => h) fun _ => State.runRecord_keeps (hq _) (he (hq _)) _ _

/-! ### The commands of a strobe -/

@[simp] theorem State.runEntry_keeps (h : d.Keeps s.durable) (e : LaneEntry) : d.Keeps (s.runEntry e).durable := by
  unfold State.runEntry
  dsimp only
  have hq : d.Keeps (s.modLaneQ fun q => { q with queue := q.queue.erase e }).durable := by simp [h]
  split
  · exact hq
  · split
    · simp only [durable_ite]
      exact Durable.keeps_ite (fun _ => by simp [h]) fun _ => State.runRecord_keeps hq (applyCode_keeps hq _ _ _ _ _ _) _ _
    · simp [h]

@[simp] theorem State.runEntries_keeps (h : d.Keeps s.durable) (l : List LaneEntry) : d.Keeps (s.runEntries l).durable := by
  unfold State.runEntries
  simpa using Durable.keeps_foldSt l _ (fun e _ h => State.runEntry_keeps h e) h

@[simp] theorem State.resetBatch_keeps (h : d.Keeps s.durable) : d.Keeps s.resetBatch.durable := by simp [State.resetBatch, h]

@[simp] theorem State.warmBatch_keeps (h : d.Keeps s.durable) : d.Keeps s.warmBatch.durable := by simp [State.warmBatch, h]

@[simp] theorem State.restBatch_keeps (h : d.Keeps s.durable) : d.Keeps s.restBatch.durable := by simp [State.restBatch, h]

@[simp] theorem State.heldEntries_keeps (h : d.Keeps s.durable) : d.Keeps s.heldEntries.durable := by simp [State.heldEntries, h]

@[simp] theorem State.triggersAtTc_keeps (h : d.Keeps s.durable) : d.Keeps s.triggersAtTc.durable := by
  unfold State.triggersAtTc
  dsimp only
  have hr : d.Keeps ((s.modMd fun x => { x with wHold := if 1 < x.wHold then x.wHold - 1 else x.wHold }).commitAtTc.epochAtTc.closeBatch
    ).resetBatch.durable := State.resetBatch_keeps (by simp [h])
  generalize State.resetBatch _ = t at hr ⊢
  have hw := State.warmBatch_keeps hr
  generalize t.warmBatch = w at hw ⊢
  have hp : d.Keeps ((foldSt Ch.all (fun c s => s.chanPlumb c) w.plumbTick).countInvalid.bootAtTc.safeAtTc.maintAtTc.commitExcludes.voteChanges
    ).poisonResets.startupAtTc.twnAtTc.restBatch.durable := State.restBatch_keeps (by simp [hw])
  split
  · exact hr
  · generalize State.restBatch _ = q at hp ⊢
    simp [hp]

@[simp] theorem State.tcStrobe_keeps (h : d.Keeps s.durable) : d.Keeps s.tcStrobe.durable := by
  have ht : d.Keeps s.newCycle.triggersAtTc.durable := State.triggersAtTc_keeps (by simp [h])
  unfold State.tcStrobe
  dsimp only
  split
  · exact ht
  · simp [ht]

/-- The outcome is a next state, which keeps what every command keeps. -/
def NextKeeps (d : Durable) : Host.Outcome State Fault Refusal → Prop
  | .next t => d.Keeps t.durable
  | _ => False

@[simp] theorem nextKeeps_next (t : State) : NextKeeps d (.next t) ↔ d.Keeps t.durable := .rfl

@[simp] theorem nextKeeps_ite {c : Prop} [Decidable c] {o p : Host.Outcome State Fault Refusal} (ho : c → NextKeeps d o)
    (hp : ¬c → NextKeeps d p) : NextKeeps d (if c then o else p) := by
  split
  · exact ho ‹_›
  · exact hp ‹_›

/-- A command of the lane is a next state. -/
theorem nextKeeps_cmd {eff : State → CmdRes State} (he : ∀ {t : State}, d.Keeps t.durable → ResKeeps d (eff t)) (h : d.Keeps s.durable)
    (code : Byte) (r : CmdRec) : NextKeeps d (.next (s.cmd code r eff)) := State.cmd_keeps he h code r

theorem execNop_keeps (h : d.Keeps s.durable) (c : Ch) (l : Fin 16) : NextKeeps d (execNop c l s) := by
  rw [execNop, nextKeeps_next, State.laneStep_durable]
  · exact h
  · exact effNop_durable c l

theorem execPhase_keeps (h : d.Keeps s.durable) (c : Ch) (l : Fin 16) : NextKeeps d (execPhase c l s) := by
  simp [execPhase, h]

theorem execEndp_keeps (h : d.Keeps s.durable) (c : Ch) (l : Fin 16) : NextKeeps d (execEndp c l s) := by
  simp [execEndp, h]

theorem execAssert_keeps (h : d.Keeps s.durable) (c : Ch) (l : Fin 16) (a : BitVec 10) : NextKeeps d (execAssert c l a s) := by
  simp [execAssert, h]

theorem execLd_keeps (h : d.Keeps s.durable) (c : Ch) (l : Fin 16) (x : BitOp) : NextKeeps d (execLd c l x s) := by
  simp [execLd, h]

theorem execLdn_keeps (h : d.Keeps s.durable) (c : Ch) (l : Fin 16) (x : BitOp) : NextKeeps d (execLdn c l x s) := by
  simp [execLdn, h]

theorem execAnd_keeps (h : d.Keeps s.durable) (c : Ch) (l : Fin 16) (x : BitOp) : NextKeeps d (execAnd c l x s) := by
  simp [execAnd, h]

theorem execAndn_keeps (h : d.Keeps s.durable) (c : Ch) (l : Fin 16) (x : BitOp) : NextKeeps d (execAndn c l x s) := by
  simp [execAndn, h]

theorem execOr_keeps (h : d.Keeps s.durable) (c : Ch) (l : Fin 16) (x : BitOp) : NextKeeps d (execOr c l x s) := by
  simp [execOr, h]

theorem execOrn_keeps (h : d.Keeps s.durable) (c : Ch) (l : Fin 16) (x : BitOp) : NextKeeps d (execOrn c l x s) := by
  simp [execOrn, h]

theorem execXor_keeps (h : d.Keeps s.durable) (c : Ch) (l : Fin 16) (x : BitOp) : NextKeeps d (execXor c l x s) := by
  simp [execXor, h]

theorem execRedge_keeps (h : d.Keeps s.durable) (c : Ch) (l : Fin 16) (m : BitAddr) : NextKeeps d (execRedge c l m s) := by
  simp [execRedge, h]

theorem execFedge_keeps (h : d.Keeps s.durable) (c : Ch) (l : Fin 16) (m : BitAddr) : NextKeeps d (execFedge c l m s) := by
  simp [execFedge, h]

theorem execBpush_keeps (h : d.Keeps s.durable) (c : Ch) (l : Fin 16) : NextKeeps d (execBpush c l s) := by
  simp [execBpush, h]

theorem execBor_keeps (h : d.Keeps s.durable) (c : Ch) (l : Fin 16) : NextKeeps d (execBor c l s) := by
  simp [execBor, h]

theorem execBand_keeps (h : d.Keeps s.durable) (c : Ch) (l : Fin 16) : NextKeeps d (execBand c l s) := by
  simp [execBand, h]

theorem execZon_keeps (h : d.Keeps s.durable) (c : Ch) (l : Fin 16) (neg : Bool) : NextKeeps d (execZon c l neg s) := by
  simp [execZon, h]

theorem execZoff_keeps (h : d.Keeps s.durable) (c : Ch) (l : Fin 16) : NextKeeps d (execZoff c l s) := by
  simp [execZoff, h]

theorem execOut_keeps (h : d.Keeps s.durable) (c : Ch) (l : Fin 16) (b : BitAddr) : NextKeeps d (execOut c l b s) := by
  simp [execOut, h]

theorem execOutn_keeps (h : d.Keeps s.durable) (c : Ch) (l : Fin 16) (b : BitAddr) : NextKeeps d (execOutn c l b s) := by
  simp [execOutn, h]

theorem execSet_keeps (h : d.Keeps s.durable) (c : Ch) (l : Fin 16) (b : BitAddr) : NextKeeps d (execSet c l b s) := by
  simp [execSet, h]

theorem execRst_keeps (h : d.Keeps s.durable) (c : Ch) (l : Fin 16) (b : BitAddr) : NextKeeps d (execRst c l b s) := by
  simp [execRst, h]

theorem execStw_keeps (h : d.Keeps s.durable) (c : Ch) (l : Fin 16) (w : WordAddr) : NextKeeps d (execStw c l w s) := by
  simp [execStw, h]

theorem execLdw_keeps (h : d.Keeps s.durable) (c : Ch) (l : Fin 16) (w : WordAddr) : NextKeeps d (execLdw c l w s) := by
  simp [execLdw, h]

theorem execLdwi_keeps (h : d.Keeps s.durable) (c : Ch) (l : Fin 16) (uns : Bool) (x : BitVec 24) : NextKeeps d (execLdwi c l uns x s) := by
  simp [execLdwi, h]

theorem execLdwh_keeps (h : d.Keeps s.durable) (c : Ch) (l : Fin 16) (x : BitVec 16) : NextKeeps d (execLdwh c l x s) := by
  simp [execLdwh, h]

theorem execLdx_keeps (h : d.Keeps s.durable) (c : Ch) (l : Fin 16) (t : BitVec 8) : NextKeeps d (execLdx c l t s) := by
  simp [execLdx, h]

theorem execAdd_keeps (h : d.Keeps s.durable) (c : Ch) (l : Fin 16) (x : ArOp) : NextKeeps d (execAdd c l x s) := by
  simp [execAdd, h]

theorem execSub_keeps (h : d.Keeps s.durable) (c : Ch) (l : Fin 16) (x : ArOp) : NextKeeps d (execSub c l x s) := by
  simp [execSub, h]

theorem execMul_keeps (h : d.Keeps s.durable) (c : Ch) (l : Fin 16) (x : ArOp) : NextKeeps d (execMul c l x s) := by
  simp [execMul, h]

theorem execMin_keeps (h : d.Keeps s.durable) (c : Ch) (l : Fin 16) (x : ArOp) : NextKeeps d (execMin c l x s) := by
  simp [execMin, h]

theorem execMax_keeps (h : d.Keeps s.durable) (c : Ch) (l : Fin 16) (x : ArOp) : NextKeeps d (execMax c l x s) := by
  simp [execMax, h]

theorem execCeq_keeps (h : d.Keeps s.durable) (c : Ch) (l : Fin 16) (x : ArOp) : NextKeeps d (execCeq c l x s) := by
  simp [execCeq, h]

theorem execCne_keeps (h : d.Keeps s.durable) (c : Ch) (l : Fin 16) (x : ArOp) : NextKeeps d (execCne c l x s) := by
  simp [execCne, h]

theorem execClt_keeps (h : d.Keeps s.durable) (c : Ch) (l : Fin 16) (x : ArOp) : NextKeeps d (execClt c l x s) := by
  simp [execClt, h]

theorem execCle_keeps (h : d.Keeps s.durable) (c : Ch) (l : Fin 16) (x : ArOp) : NextKeeps d (execCle c l x s) := by
  simp [execCle, h]

theorem execCgt_keeps (h : d.Keeps s.durable) (c : Ch) (l : Fin 16) (x : ArOp) : NextKeeps d (execCgt c l x s) := by
  simp [execCgt, h]

theorem execCge_keeps (h : d.Keeps s.durable) (c : Ch) (l : Fin 16) (x : ArOp) : NextKeeps d (execCge c l x s) := by
  simp [execCge, h]

theorem execAndw_keeps (h : d.Keeps s.durable) (c : Ch) (l : Fin 16) (x : LogOp) : NextKeeps d (execAndw c l x s) := by
  simp [execAndw, h]

theorem execOrw_keeps (h : d.Keeps s.durable) (c : Ch) (l : Fin 16) (x : LogOp) : NextKeeps d (execOrw c l x s) := by
  simp [execOrw, h]

theorem execXorw_keeps (h : d.Keeps s.durable) (c : Ch) (l : Fin 16) (x : LogOp) : NextKeeps d (execXorw c l x s) := by
  simp [execXorw, h]

theorem execShl_keeps (h : d.Keeps s.durable) (c : Ch) (l : Fin 16) (x : ShOp) : NextKeeps d (execShl c l x s) := by
  simp [execShl, h]

theorem execShr_keeps (h : d.Keeps s.durable) (c : Ch) (l : Fin 16) (x : ShOp) : NextKeeps d (execShr c l x s) := by
  simp [execShr, h]

theorem execAsr_keeps (h : d.Keeps s.durable) (c : Ch) (l : Fin 16) (x : ShOp) : NextKeeps d (execAsr c l x s) := by
  simp [execAsr, h]

theorem execLimit_keeps (h : d.Keeps s.durable) (c : Ch) (l : Fin 16) (x : LimOp) : NextKeeps d (execLimit c l x s) := by
  simp [execLimit, h]

theorem execTon_keeps (h : d.Keeps s.durable) (c : Ch) (l : Fin 16) (k : TVar) (t : BitVec 12) : NextKeeps d (execTon c l k t s) := by
  simp [execTon, h]

theorem execTof_keeps (h : d.Keeps s.durable) (c : Ch) (l : Fin 16) (k : TVar) (t : BitVec 12) : NextKeeps d (execTof c l k t s) := by
  simp [execTof, h]

theorem execTp_keeps (h : d.Keeps s.durable) (c : Ch) (l : Fin 16) (k : TVar) (t : BitVec 12) : NextKeeps d (execTp c l k t s) := by
  simp [execTp, h]

theorem execCtu_keeps (h : d.Keeps s.durable) (c : Ch) (l : Fin 16) (k : CVar) (t : BitVec 12) : NextKeeps d (execCtu c l k t s) := by
  simp [execCtu, h]

theorem execCtd_keeps (h : d.Keeps s.durable) (c : Ch) (l : Fin 16) (k : CVar) (t : BitVec 12) : NextKeeps d (execCtd c l k t s) := by
  simp [execCtd, h]

theorem execCres_keeps (h : d.Keeps s.durable) (c : Ch) (l : Fin 16) (preset : Bool) (t : BitVec 12) : NextKeeps d (execCres c l preset t s) := by
  simp [execCres, h]

theorem execOrdinarySample_keeps (h : d.Keeps s.durable) (uA : FMap Nat) : NextKeeps d (execOrdinarySample uA s) := by
  simp [execOrdinarySample, h]

theorem execTestPulse_keeps (h : d.Keeps s.durable) (k : Fin 4) : NextKeeps d (execTestPulse k s) := by
  simp [execTestPulse, h]

theorem execTestSample_keeps (h : d.Keeps s.durable) (k : Fin 4) (interval : Nat) (uA : FMap Nat) : NextKeeps d (execTestSample k interval uA s) := by
  unfold execTestSample
  split <;> simp [h]

theorem execTpOverload_keeps (h : d.Keeps s.durable) (k : Fin 4) : NextKeeps d (execTpOverload k s) := by
  simp [execTpOverload, h]

theorem execTpRetry_keeps (h : d.Keeps s.durable) (k : Fin 4) : NextKeeps d (execTpRetry k s) := by
  simp [execTpRetry, h]

theorem execTpRetrySuccess_keeps (h : d.Keeps s.durable) (k : Fin 4) : NextKeeps d (execTpRetrySuccess k s) := by
  simp [execTpRetrySuccess, h]

theorem execTimedOutputDue_keeps (h : d.Keeps s.durable) (o : Fin 12) : NextKeeps d (execTimedOutputDue o s) := by
  unfold execTimedOutputDue
  dsimp only
  split <;> simp [h]

theorem execOffPulse_keeps (h : d.Keeps s.durable) (o : Fin 12) (low : Bool) : NextKeeps d (execOffPulse o low s) := by
  simp [execOffPulse, h]

theorem execOffPulseEnd_keeps (h : d.Keeps s.durable) (o : Fin 12) (low : Bool) (v : PulseVolts) (plus : FMap Nat) : NextKeeps d (execOffPulseEnd o low v plus s) := by
  simp [execOffPulseEnd, h]

theorem execOffStateCheck_keeps (h : d.Keeps s.durable) (o : Fin 12) : NextKeeps d (execOffStateCheck o s) := by
  simp [execOffStateCheck, h]

theorem execOffStateCheckEnd_keeps (h : d.Keeps s.durable) (o : Fin 12) (hsOk lsOk : Bool) (mvPlus : Nat) : NextKeeps d (execOffStateCheckEnd o hsOk lsOk mvPlus s) := by
  simp [execOffStateCheckEnd, h]

theorem execOvercurrent_keeps (h : d.Keeps s.durable) (o : Fin 12) (_inst : Bool) : NextKeeps d (execOvercurrent o _inst s) := by
  unfold execOvercurrent
  dsimp only
  split <;> simp [h]

theorem execOvercurrentClear_keeps (h : d.Keeps s.durable) (o : Fin 12) : NextKeeps d (execOvercurrentClear o s) := by
  simp [execOvercurrentClear, h]

theorem execOpenLoadWarning_keeps (h : d.Keeps s.durable) (o : Fin 12) (imbalance : Bool) : NextKeeps d (execOpenLoadWarning o imbalance s) := by
  unfold execOpenLoadWarning
  (repeat' split) <;> simp [h]

theorem execGroupSag_keeps (h : d.Keeps s.durable) (g : Fin 2) (mV : Nat) : NextKeeps d (execGroupSag g mV s) := by
  simp [execGroupSag, h]

theorem execGroupTrip_keeps (h : d.Keeps s.durable) (g : Fin 2) : NextKeeps d (execGroupTrip g s) := by
  simp [execGroupTrip, h]

theorem execGroupOvervoltage_keeps (h : d.Keeps s.durable) (g : Fin 2) (mV : Nat) (lasted : Bool) : NextKeeps d (execGroupOvervoltage g mV lasted s) := by
  simp [execGroupOvervoltage, h]

theorem execGroupVoltageReturn_keeps (h : d.Keeps s.durable) (g : Fin 2) (mV : Nat) : NextKeeps d (execGroupVoltageReturn g mV s) := by
  simp [execGroupVoltageReturn, h]

theorem execGroupRecovered_keeps (h : d.Keeps s.durable) (g : Fin 2) : NextKeeps d (execGroupRecovered g s) := by
  simp [execGroupRecovered, h]

theorem execSwitchReread_keeps (h : d.Keeps s.durable) (readings : Per3 (BitVec 22)) : NextKeeps d (execSwitchReread readings s) := by
  simp [execSwitchReread, h]

theorem execDlkInputChange_keeps (h : d.Keeps s.durable) (v : DlkSense) : NextKeeps d (execDlkInputChange v s) := by
  simp [execDlkInputChange, h]

theorem execDlkDiscrepancy_keeps (h : d.Keeps s.durable) (p : Fin 6) : NextKeeps d (execDlkDiscrepancy p s) := by
  simp [execDlkDiscrepancy, h]

theorem execDlkBothRelease_keeps (h : d.Keeps s.durable)  : NextKeeps d (execDlkBothRelease s) := by
  simp [execDlkBothRelease, h]

theorem execDlkAckEdge_keeps (h : d.Keeps s.durable)  : NextKeeps d (execDlkAckEdge s) := by
  unfold execDlkAckEdge
  split <;> simp [h]

theorem execDlkOffTimeExpiry_keeps (h : d.Keeps s.durable) (right : Bool) : NextKeeps d (execDlkOffTimeExpiry right s) := by
  simp [execDlkOffTimeExpiry, h]

theorem execDlkSo3ReadbackOpen_keeps (h : d.Keeps s.durable)  : NextKeeps d (execDlkSo3ReadbackOpen s) := by
  simp [execDlkSo3ReadbackOpen, h]

theorem execDlkStartupTest_keeps (h : d.Keeps s.durable)  : NextKeeps d (execDlkStartupTest s) := by
  simp [execDlkStartupTest, h]

theorem execDlkStartupTestDone_keeps (h : d.Keeps s.durable) (failedVector : Option (BitVec 8)) : NextKeeps d (execDlkStartupTestDone failedVector s) := by
  unfold execDlkStartupTestDone
  dsimp only
  (repeat' split) <;> simp [h]

theorem execDlkCheckerTest_keeps (h : d.Keeps s.durable) (ok : Bool) : NextKeeps d (execDlkCheckerTest ok s) := by
  simp [execDlkCheckerTest, h]

theorem execDlkFault_keeps (h : d.Keeps s.durable) (code : BitVec 4) : NextKeeps d (execDlkFault code s) := by
  simp [execDlkFault, h]

theorem execTransmitWindow_keeps (h : d.Keeps s.durable) (e : Nat) : NextKeeps d (execTransmitWindow e s) := by
  unfold execTransmitWindow
  dsimp only
  (repeat' split) <;> simp [h]

theorem execEventFrameExpiry_keeps (h : d.Keeps s.durable)  : NextKeeps d (execEventFrameExpiry s) := by
  simp [execEventFrameExpiry, h]

theorem execTimedLaunchDue_keeps (h : d.Keeps s.durable) (l : Fin 8) : NextKeeps d (execTimedLaunchDue l s) := by
  unfold execTimedLaunchDue
  dsimp only
  (repeat' split) <;> simp [h]

theorem execForeignFrameReceive_keeps (h : d.Keeps s.durable) (port : Fin 14) (dst src : BitVec 48) (tag : Option (BitVec 16)) (etherType : BitVec 16) (data : List Byte) : NextKeeps d (execForeignFrameReceive port dst src tag etherType data s) := by
  unfold execForeignFrameReceive
  dsimp only
  split <;> simp [h]

theorem execAddressAgeing_keeps (h : d.Keeps s.durable)  : NextKeeps d (execAddressAgeing s) := by
  simp [execAddressAgeing, h]

theorem execHoldupStoreLoss_keeps (h : d.Keeps s.durable)  : NextKeeps d (execHoldupStoreLoss s) := by
  simp [execHoldupStoreLoss, h]

theorem execPortLinkChange_keeps (h : d.Keeps s.durable) (port : Fin 14) (speed : Nat) : NextKeeps d (execPortLinkChange port speed s) := by
  simp [execPortLinkChange, h]

theorem execHoldupMeasure_keeps (h : d.Keeps s.durable)  : NextKeeps d (execHoldupMeasure s) := by
  simp [execHoldupMeasure, h]

theorem execHoldupMeasureDone_keeps (h : d.Keeps s.durable) (energyMj : Nat) : NextKeeps d (execHoldupMeasureDone energyMj s) := by
  simp [execHoldupMeasureDone, h]

theorem execEdgeInsertion_keeps (h : d.Keeps s.durable)  : NextKeeps d (execEdgeInsertion s) := by
  simp [execEdgeInsertion, h]

theorem execInsertionRetry_keeps (h : d.Keeps s.durable)  : NextKeeps d (execInsertionRetry s) := by
  simp [execInsertionRetry, h]

theorem execLineALinksUp_keeps (h : d.Keeps s.durable)  : NextKeeps d (execLineALinksUp s) := by
  simp [execLineALinksUp, h]

theorem execInsertionTimeout_keeps (h : d.Keeps s.durable)  : NextKeeps d (execInsertionTimeout s) := by
  simp [execInsertionTimeout, h]

theorem execPtnFrameReceive_keeps (h : d.Keeps s.durable) (port : Fin 14) (bytes : List Byte) (startNs endNs : Nat) (fcsOk : Bool) : NextKeeps d (execPtnFrameReceive port bytes startNs endNs fcsOk s) := by
  unfold execPtnFrameReceive
  dsimp only
  split <;> simp [h]

theorem execDatumSend_keeps (h : d.Keeps s.durable)  : NextKeeps d (execDatumSend s) := by
  unfold execDatumSend
  dsimp only
  (repeat' split) <;> simp [h]

theorem execColdstartTimeout_keeps (h : d.Keeps s.durable)  : NextKeeps d (execColdstartTimeout s) := by
  simp [execColdstartTimeout, h]

theorem execColdstartBackoffEnd_keeps (h : d.Keeps s.durable)  : NextKeeps d (execColdstartBackoffEnd s) := by
  simp [execColdstartBackoffEnd, h]

theorem execGptpSync_keeps (h : d.Keeps s.durable)  : NextKeeps d (execGptpSync s) := by
  simp [execGptpSync, h]

theorem execGptpAnnounce_keeps (h : d.Keeps s.durable)  : NextKeeps d (execGptpAnnounce s) := by
  simp [execGptpAnnounce, h]

theorem execGptpPdelayReq_keeps (h : d.Keeps s.durable) (port : Fin 14) : NextKeeps d (execGptpPdelayReq port s) := by
  simp [execGptpPdelayReq, h]

theorem execFreeWindowForward_keeps (h : d.Keeps s.durable) (port : Fin 14) : NextKeeps d (execFreeWindowForward port s) := by
  simp [execFreeWindowForward, h]

theorem execTimePulse_keeps (h : d.Keeps s.durable)  : NextKeeps d (execTimePulse s) := by
  simp [execTimePulse, h]

theorem execCmdNop_keeps (h : d.Keeps s.durable) (r : CmdRec) : NextKeeps d (execCmdNop r s) :=
  nextKeeps_cmd (fun h => applyNop_keeps h) h _ _

theorem execCmdRecLatch_keeps (h : d.Keeps s.durable) (i : Fin 3) (w : Word) (poisoned : Bool) : NextKeeps d (execCmdRecLatch i w poisoned s) := by
  simp [execCmdRecLatch, h]

theorem execUnknownCommand_keeps (h : d.Keeps s.durable) (code : Byte) (r : CmdRec) : NextKeeps d (execUnknownCommand code r s) := by
  unfold execUnknownCommand
  split <;> simp [h]

theorem execCmdResCommit_keeps (h : d.Keeps s.durable) (val : Word) : NextKeeps d (execCmdResCommit val s) := by
  simp [execCmdResCommit, h]

theorem execCmdResLegacy_keeps (h : d.Keeps s.durable)  : NextKeeps d (execCmdResLegacy s) := by
  simp [execCmdResLegacy, h]

theorem execHbrIntLegacy_keeps (h : d.Keeps s.durable)  : NextKeeps d (execHbrIntLegacy s) := by
  simp [execHbrIntLegacy, h]

theorem execBusMessageReceive_keeps (h : d.Keeps s.durable) (port : Fin 8) (ident : Nat) (bytes : Option (List Byte)) : NextKeeps d (execBusMessageReceive port ident bytes s) := by
  unfold execBusMessageReceive
  (repeat' split) <;> simp [h]

theorem execRs485FrameEnd_keeps (h : d.Keeps s.durable) (port : Fin 8) (bytes : List Byte) : NextKeeps d (execRs485FrameEnd port bytes s) := by
  simp [execRs485FrameEnd, h]

theorem execMessagePeriod_keeps (h : d.Keeps s.durable) (m : Nat) : NextKeeps d (execMessagePeriod m s) := by
  simp [execMessagePeriod, h]

theorem execMvbPoll_keeps (h : d.Keeps s.durable) (port : Fin 8) (addr : Nat) : NextKeeps d (execMvbPoll port addr s) := by
  unfold execMvbPoll
  (repeat' split) <;> simp [h]

theorem execCanBusOff_keeps (h : d.Keeps s.durable) (p : Fin 4) : NextKeeps d (execCanBusOff p s) := by
  simp [execCanBusOff, h]

theorem execBusOffRecovery_keeps (h : d.Keeps s.durable) (p : Fin 4) : NextKeeps d (execBusOffRecovery p s) := by
  simp [execBusOffRecovery, h]

theorem execNmtStart_keeps (h : d.Keeps s.durable) (p : Fin 4) : NextKeeps d (execNmtStart p s) := by
  simp [execNmtStart, h]

theorem execHostFrameSend_keeps (h : d.Keeps s.durable) (j : Fin 16) (val : Word) : NextKeeps d (execHostFrameSend j val s) := by
  simp [execHostFrameSend, h]

theorem execHostFrameSent_keeps (h : d.Keeps s.durable) (j : Fin 16) : NextKeeps d (execHostFrameSent j s) := by
  unfold execHostFrameSent
  split <;> simp [h]

theorem execGwySwapAtTarget_keeps (h : d.Keeps s.durable)  : NextKeeps d (execGwySwapAtTarget s) := by
  unfold execGwySwapAtTarget
  split <;> simp [h]

theorem execGwyLoadDone_keeps (h : d.Keeps s.durable)  : NextKeeps d (execGwyLoadDone s) := by
  unfold execGwyLoadDone
  dsimp only
  (repeat' split) <;> simp [h]

theorem execSdoTimeout_keeps (h : d.Keeps s.durable) (p : Fin 4) : NextKeeps d (execSdoTimeout p s) := by
  simp [execSdoTimeout, h]

theorem execGwyLoad_keeps (h : d.Keeps s.durable) (r : CmdRec) : NextKeeps d (execGwyLoad r s) :=
  nextKeeps_cmd (fun h => applyGwyLoad_keeps h _) h _ _

theorem execGwySwap_keeps (h : d.Keeps s.durable) (r : CmdRec) : NextKeeps d (execGwySwap r s) :=
  nextKeeps_cmd (fun h => applyGwySwap_keeps h _ _) h _ _

theorem execGwyNmt_keeps (h : d.Keeps s.durable) (r : CmdRec) : NextKeeps d (execGwyNmt r s) :=
  nextKeeps_cmd (fun h => applyGwyNmt_keeps h _) h _ _

theorem execGwySdoRead_keeps (h : d.Keeps s.durable) (r : CmdRec) : NextKeeps d (execGwySdoRead r s) :=
  nextKeeps_cmd (fun h => applyGwySdoRead_keeps h _ _ _) h _ _

theorem execGwySdoWrite_keeps (h : d.Keeps s.durable) (r : CmdRec) : NextKeeps d (execGwySdoWrite r s) :=
  nextKeeps_cmd (fun h => applyGwySdoWrite_keeps h _ _ _ _) h _ _

theorem execLoopSample_keeps (h : d.Keeps s.durable) (n : Fin 4) (nA : Nat) (limited : Bool) (headroomMv : Nat) : NextKeeps d (execLoopSample n nA limited headroomMv s) := by
  simp [execLoopSample, h]

theorem execLoopOpen_keeps (h : d.Keeps s.durable) (n : Fin 4) : NextKeeps d (execLoopOpen n s) := by
  simp [execLoopOpen, h]

theorem execLoopOpenClear_keeps (h : d.Keeps s.durable) (n : Fin 4) : NextKeeps d (execLoopOpenClear n s) := by
  simp [execLoopOpenClear, h]

theorem execLoopCompliance_keeps (h : d.Keeps s.durable) (n : Fin 4) : NextKeeps d (execLoopCompliance n s) := by
  simp [execLoopCompliance, h]

theorem execLoopComplianceClear_keeps (h : d.Keeps s.durable) (n : Fin 4) : NextKeeps d (execLoopComplianceClear n s) := by
  simp [execLoopComplianceClear, h]

theorem execHartGo_keeps (h : d.Keeps s.durable) (n : Fin 4) (val : Word) : NextKeeps d (execHartGo n val s) := by
  simp [execHartGo, h]

theorem execHartComplete_keeps (h : d.Keeps s.durable) (n : Fin 4) (response : Option (List Byte)) : NextKeeps d (execHartComplete n response s) := by
  unfold execHartComplete
  dsimp only
  (repeat' split) <;> simp [h]

theorem execCalPointTaken_keeps (h : d.Keeps s.durable) (n : Fin 4) (avgNa : Nat) : NextKeeps d (execCalPointTaken n avgNa s) := by
  unfold execCalPointTaken
  dsimp only
  (repeat' split) <;> simp [h]

theorem execCalTimeout_keeps (h : d.Keeps s.durable) (n : Fin 4) : NextKeeps d (execCalTimeout n s) := by
  unfold execCalTimeout
  split <;> simp [h]

theorem execAlpCalBegin_keeps (h : d.Keeps s.durable) (r : CmdRec) : NextKeeps d (execAlpCalBegin r s) :=
  nextKeeps_cmd (fun h => applyCalBegin_keeps h _) h _ _

theorem execAlpCalPoint_keeps (h : d.Keeps s.durable) (r : CmdRec) : NextKeeps d (execAlpCalPoint r s) :=
  nextKeeps_cmd (fun h => applyCalPoint_keeps h _ _) h _ _

theorem execAlpCalCommit_keeps (h : d.Keeps s.durable) (r : CmdRec) : NextKeeps d (execAlpCalCommit r s) :=
  nextKeeps_cmd (fun h => applyCalCommit_keeps h _) h _ _

theorem execAlpCalAbort_keeps (h : d.Keeps s.durable) (r : CmdRec) : NextKeeps d (execAlpCalAbort r s) :=
  nextKeeps_cmd (fun h => applyCalAbort_keeps h _) h _ _

theorem execAlpCalFactory_keeps (h : d.Keeps s.durable) (r : CmdRec) : NextKeeps d (execAlpCalFactory r s) :=
  nextKeeps_cmd (fun h => applyCalFactory_keeps h _) h _ _

theorem execChannelEventMatch_keeps (h : d.Keeps s.durable)  : NextKeeps d (execChannelEventMatch s) := by
  simp [execChannelEventMatch, h]

theorem execRecWrite_keeps (h : d.Keeps s.durable) : NextKeeps d (execRecWrite s) := by
  unfold execRecWrite
  dsimp only
  split
  · exact h
  · split
    · exact h
    · split
      · simp [h]
      · rw [nextKeeps_next, durable_ite, State.raiseInt_durable, ite_self, State.recRegs_durable]
        exact ⟨h.pending, fun hd => ⟨Mem.wf_write (h.canonical hd).1 _ _, (h.canonical hd).2⟩, h.otp, h.otpCh⟩

theorem execRecIndexBuild_keeps (h : d.Keeps s.durable)  : NextKeeps d (execRecIndexBuild s) := by
  simp [execRecIndexBuild, h]

theorem execRecIndexDone_keeps (h : d.Keeps s.durable) : NextKeeps d (execRecIndexDone s) := by
  unfold execRecIndexDone
  split
  · exact h
  · simp only [nextKeeps_next, State.enqueue_durable, State.recRegs_durable, State.wrb_durable, State.modRec_durable, durable_eta]
    rw [durable_foldSt]
    · simp [h]
    · intro k s
      split <;> simp

theorem execRecClear_keeps (h : d.Keeps s.durable) (r : CmdRec) : NextKeeps d (execRecClear r s) :=
  nextKeeps_cmd (fun h => applyRecClear_keeps h) h _ _

theorem execRecCountClear_keeps (h : d.Keeps s.durable) (r : CmdRec) : NextKeeps d (execRecCountClear r s) :=
  nextKeeps_cmd (fun h => applyRecCountClear_keeps h) h _ _

theorem execHostMark_keeps (h : d.Keeps s.durable) (val : Word) : NextKeeps d (execHostMark val s) := by
  simp [execHostMark, h]

theorem execRecSeek_keeps (h : d.Keeps s.durable) (val : Word) : NextKeeps d (execRecSeek val s) := by
  simp [execRecSeek, h]

theorem execBankCheckDone_keeps (h : d.Keeps s.durable) (c : Ch) : NextKeeps d (execBankCheckDone c s) := by
  unfold execBankCheckDone
  dsimp only
  (repeat' split) <;> simp [h]

theorem execPrgLoad_keeps (h : d.Keeps s.durable) (r : CmdRec) : NextKeeps d (execPrgLoad r s) :=
  nextKeeps_cmd (fun h => applyPrgLoad_keeps h _) h _ _

theorem execPrgArm_keeps (h : d.Keeps s.durable) (r : CmdRec) : NextKeeps d (execPrgArm r s) :=
  nextKeeps_cmd (fun h => applyPrgArm_keeps h) h _ _

theorem execPrgCommit_keeps (h : d.Keeps s.durable) (r : CmdRec) : NextKeeps d (execPrgCommit r s) :=
  nextKeeps_cmd (fun h => applyPrgCommit_keeps h _ _) h _ _

theorem execPrgDisarm_keeps (h : d.Keeps s.durable) (r : CmdRec) : NextKeeps d (execPrgDisarm r s) :=
  nextKeeps_cmd (fun h => applyPrgDisarm_keeps h) h _ _

theorem execPrgRelease_keeps (h : d.Keeps s.durable) (r : CmdRec) : NextKeeps d (execPrgRelease r s) :=
  nextKeeps_cmd (fun h => applyPrgRelease_keeps h) h _ _

theorem execForceSet_keeps (h : d.Keeps s.durable) (r : CmdRec) : NextKeeps d (execForceSet r s) :=
  nextKeeps_cmd (fun h => applyForceSet_keeps h _ _) h _ _

theorem execForceClear_keeps (h : d.Keeps s.durable) (r : CmdRec) : NextKeeps d (execForceClear r s) :=
  nextKeeps_cmd (fun h => applyForceClear_keeps h _) h _ _

theorem execForceClearAll_keeps (h : d.Keeps s.durable) (r : CmdRec) : NextKeeps d (execForceClearAll r s) :=
  nextKeeps_cmd (fun h => applyForceClearAll_keeps h) h _ _

theorem execRetDiscard_keeps (h : d.Keeps s.durable) (r : CmdRec) : NextKeeps d (execRetDiscard r s) :=
  nextKeeps_cmd (fun h => applyRetDiscard_keeps h) h _ _

theorem execWarmReset_keeps (h : d.Keeps s.durable) (r : CmdRec) : NextKeeps d (execWarmReset r s) := by
  unfold execWarmReset
  split
  · exact nextKeeps_cmd (fun h => applyWarmReset_keeps h) h _ _
  · simp only [nextKeeps_next, durable_ite]
    exact Durable.keeps_ite (fun _ => by simp [h]) fun _ => State.cmd_keeps (fun h => applyWarmReset_keeps h) h _ _

theorem execChReset_keeps (h : d.Keeps s.durable) (r : CmdRec) : NextKeeps d (execChReset r s) :=
  nextKeeps_cmd (fun h => applyChReset_keeps h _) h _ _

theorem execMntEnter_keeps (h : d.Keeps s.durable) (r : CmdRec) : NextKeeps d (execMntEnter r s) :=
  nextKeeps_cmd (fun h => applyMntEnter_keeps h) h _ _

theorem execMntExit_keeps (h : d.Keeps s.durable) (r : CmdRec) : NextKeeps d (execMntExit r s) :=
  nextKeeps_cmd (fun h => applyMntExit_keeps h) h _ _

theorem execDbgEnter_keeps (h : d.Keeps s.durable) (r : CmdRec) : NextKeeps d (execDbgEnter r s) :=
  nextKeeps_cmd (fun h => applyDbgEnter_keeps h) h _ _

theorem execDbgExit_keeps (h : d.Keeps s.durable) (r : CmdRec) : NextKeeps d (execDbgExit r s) :=
  nextKeeps_cmd (fun h => applyDbgExit_keeps h) h _ _

theorem execDbgHalt_keeps (h : d.Keeps s.durable) (r : CmdRec) : NextKeeps d (execDbgHalt r s) :=
  nextKeeps_cmd (fun h => applyDbgHalt_keeps h _) h _ _

theorem execDbgStep_keeps (h : d.Keeps s.durable) (r : CmdRec) : NextKeeps d (execDbgStep r s) :=
  nextKeeps_cmd (fun h => applyDbgStep_keeps h) h _ _

theorem execDbgResume_keeps (h : d.Keeps s.durable) (r : CmdRec) : NextKeeps d (execDbgResume r s) :=
  nextKeeps_cmd (fun h => applyDbgResume_keeps h) h _ _

theorem execSesOpen_keeps (h : d.Keeps s.durable) (val : Word) : NextKeeps d (execSesOpen val s) := by
  simp [execSesOpen, h]

theorem execSesVerified_keeps (h : d.Keeps s.durable)  : NextKeeps d (execSesVerified s) := by
  unfold execSesVerified
  dsimp only
  (repeat' split) <;> simp [h]

theorem execSesClose_keeps (h : d.Keeps s.durable) (val : Word) : NextKeeps d (execSesClose val s) := by
  simp [execSesClose, h]

theorem execSessionIdleTimeout_keeps (h : d.Keeps s.durable) (port : CmdPort) : NextKeeps d (execSessionIdleTimeout port s) := by
  simp [execSessionIdleTimeout, h]

theorem execOpeningLockoutEnd_keeps (h : d.Keeps s.durable) (port : CmdPort) : NextKeeps d (execOpeningLockoutEnd port s) := by
  unfold execOpeningLockoutEnd
  dsimp only
  (repeat' split) <;> simp [h]

theorem execSvcTlsOpen_keeps (h : d.Keeps s.durable) (keyDigest : List Byte) (tlsOk : Bool) : NextKeeps d (execSvcTlsOpen keyDigest tlsOk s) := by
  unfold execSvcTlsOpen
  (repeat' split) <;> simp [h]

theorem execSvcTlsClose_keeps (h : d.Keeps s.durable)  : NextKeeps d (execSvcTlsClose s) := by
  simp [execSvcTlsClose, h]

theorem execSvcCommand_keeps (h : d.Keeps s.durable) (w0 w1 w2 w3 : Word) (chainageNs : Nat) : NextKeeps d (execSvcCommand w0 w1 w2 w3 chainageNs s) := by
  simp [execSvcCommand, h]

theorem execSvcStageWrite_keeps (h : d.Keeps s.durable) (off : Nat) (data : List Byte) : NextKeeps d (execSvcStageWrite off data s) := by
  unfold execSvcStageWrite
  simp only [nextKeeps_next, durable_ite]
  exact Durable.keeps_ite (fun _ => h) fun _ =>
    Durable.keeps_ite (fun _ => State.writeStaging_keeps h _ _) fun _ => by simp [h]

theorem execSvcStageRead_keeps (h : d.Keeps s.durable) (off len : Nat) : NextKeeps d (execSvcStageRead off len s) := by
  simp [execSvcStageRead, h]

theorem execCfgStore_keeps (h : d.Keeps s.durable) (r : CmdRec) : NextKeeps d (execCfgStore r s) :=
  nextKeeps_cmd (fun h => applyCfgStore_keeps h _ _ _ _) h _ _

theorem execCfgStart_keeps (h : d.Keeps s.durable) (r : CmdRec) : NextKeeps d (execCfgStart r s) :=
  nextKeeps_cmd (fun h => applyCfgStart_keeps h _) h _ _

theorem execSchLoad_keeps (h : d.Keeps s.durable) (r : CmdRec) : NextKeeps d (execSchLoad r s) :=
  nextKeeps_cmd (fun h => applySchLoad_keeps h _) h _ _

theorem execSchCommit_keeps (h : d.Keeps s.durable) (r : CmdRec) : NextKeeps d (execSchCommit r s) :=
  nextKeeps_cmd (fun h => applySchCommit_keeps h _ _ _) h _ _

theorem execSchCancel_keeps (h : d.Keeps s.durable) (r : CmdRec) : NextKeeps d (execSchCancel r s) :=
  nextKeeps_cmd (fun h => applySchCancel_keeps h) h _ _

theorem execFwActivate_keeps (h : d.Keeps s.durable) (r : CmdRec) : NextKeeps d (execFwActivate r s) :=
  nextKeeps_cmd (fun h => applyFwActivate_keeps h _) h _ _

theorem execSecRollback_keeps (h : d.Keeps s.durable) (r : CmdRec) : NextKeeps d (execSecRollback r s) :=
  nextKeeps_cmd (fun h => applySecRollback_keeps h) h _ _

theorem execSecRevoke_keeps (h : d.Keeps s.durable) (r : CmdRec) : NextKeeps d (execSecRevoke r s) :=
  nextKeeps_cmd (fun h => applySecRevoke_keeps h _ _ _) h _ _

theorem execSecCertGet_keeps (h : d.Keeps s.durable) (r : CmdRec) : NextKeeps d (execSecCertGet r s) :=
  nextKeeps_cmd (fun h => applySecCertGet_keeps h _ _ _) h _ _

theorem execSecKeyImport_keeps (h : d.Keeps s.durable) (r : CmdRec) : NextKeeps d (execSecKeyImport r s) :=
  nextKeeps_cmd (fun h => applySecKeyImport_keeps h _ _ _) h _ _

theorem execBridgeRefresh_keeps (h : d.Keeps s.durable)  : NextKeeps d (execBridgeRefresh s) := by
  simp [execBridgeRefresh, h]

theorem execBar0RefusedAccess_keeps (h : d.Keeps s.durable) (off : Nat) (write : Bool) : NextKeeps d (execBar0RefusedAccess off write s) := by
  simp [execBar0RefusedAccess, h]

theorem execUnassignedAccess_keeps (h : d.Keeps s.durable) (off : Nat) (write : Bool) : NextKeeps d (execUnassignedAccess off write s) := by
  simp [execUnassignedAccess, h]

theorem execPoisonedWrite_keeps (h : d.Keeps s.durable) (off : Nat) : NextKeeps d (execPoisonedWrite off s) := by
  simp [execPoisonedWrite, h]

theorem execBar2Write_keeps (h : d.Keeps s.durable) (off : Nat) : NextKeeps d (execBar2Write off s) := by
  simp [execBar2Write, h]

theorem execKaClear_keeps (h : d.Keeps s.durable) (val : Word) : NextKeeps d (execKaClear val s) := by
  simp [execKaClear, h]

theorem execHreset_keeps (h : d.Keeps s.durable) (val : Word) : NextKeeps d (execHreset val s) := by
  simp [execHreset, h]

theorem execHostPortReset_keeps (h : d.Keeps s.durable) (k : HostResetKind) : NextKeeps d (execHostPortReset k s) := by
  simp [execHostPortReset, h]

theorem execHostLinkTrained_keeps (h : d.Keeps s.durable) (speed width : Nat) : NextKeeps d (execHostLinkTrained speed width s) := by
  simp [execHostLinkTrained, h]

theorem execBusMasterEnableChange_keeps (h : d.Keeps s.durable)  : NextKeeps d (execBusMasterEnableChange s) := by
  simp [execBusMasterEnableChange, h]

theorem execRegisterWrite_keeps (h : d.Keeps s.durable) (off : Nat) (val : Word) (chainageNs : Nat) : NextKeeps d (execRegisterWrite off val chainageNs s) := by
  simp [execRegisterWrite, h]

theorem execSvcRegWrite_keeps (h : d.Keeps s.durable) (off : Nat) (val : Word) (chainageNs : Nat) : NextKeeps d (execSvcRegWrite off val chainageNs s) := by
  simp [execSvcRegWrite, h]

theorem execSvcRegRead_keeps (h : d.Keeps s.durable) (off : Nat) : NextKeeps d (execSvcRegRead off s) := by
  simp [execSvcRegRead, h]

theorem execViewBufferFill_keeps (h : d.Keeps s.durable)  : NextKeeps d (execViewBufferFill s) := by
  unfold execViewBufferFill
  split <;> simp [h]

theorem execImagePush_keeps (h : d.Keeps s.durable) (b : Bool) : NextKeeps d (execImagePush b s) := by
  have image {t : State} (ht : d.Keeps t.durable) (a k n : Nat) (l : List Byte) (img : FMap (Psn Word)) (p : Option (Nat × Nat)) :
      d.Keeps (t.modHbr fun x => { x with
        pushed := p, hostMem := Mem.writeImage (Mem.write x.hostMem a l) k img n }).durable :=
    ⟨ht.pending, fun hd => ⟨(ht.canonical hd).1, (ht.canonical hd).2.1,
      Mem.wf_writeImage (Mem.wf_write (ht.canonical hd).2.2.1 _ _) _ _ _, (ht.canonical hd).2.2.2⟩, ht.otp, ht.otpCh⟩
  unfold execImagePush
  simp only [nextKeeps_next]
  split
  · split
    · simp only [State.raiseInt_durable, State.incWrap_durable]
      exact State.writeHost_keeps (image (by simp [h]) _ _ _ _ _ _) _ _
    · rw [State.inc_durable]
      exact image (by simp [h]) _ _ _ _ _ _
  · exact h

theorem execPoisonedDataRead_keeps (h : d.Keeps s.durable) (off : Nat) : NextKeeps d (execPoisonedDataRead off s) := by
  simp [execPoisonedDataRead, h]

theorem execBypassRelayB_keeps (h : d.Keeps s.durable)  : NextKeeps d (execBypassRelayB s) := by
  unfold execBypassRelayB
  dsimp only
  (repeat' split) <;> simp [h]

theorem execMrstN_keeps (h : d.Keeps s.durable) (lowNs : Nat) : NextKeeps d (execMrstN lowNs s) := by
  unfold execMrstN
  dsimp only
  (repeat' split) <;> simp [h]

theorem execWatchdogExpiry_keeps (h : d.Keeps s.durable)  : NextKeeps d (execWatchdogExpiry s) := by
  simp [execWatchdogExpiry, h]

theorem execWatchdogRefresh_keeps (h : d.Keeps s.durable) (c : Ch) : NextKeeps d (execWatchdogRefresh c s) := by
  simp [execWatchdogRefresh, h]

theorem execSaveComplete_keeps (h : d.Keeps s.durable) (ns : Nat) : NextKeeps d (execSaveComplete ns s) := by
  have hw : d.Keeps (s.writeSave ns).durable := State.writeSave_keeps h ns
  unfold execSaveComplete
  dsimp only
  split
  · exact h
  · split
    · exact State.assertM_keeps (by simp [hw]) _
    · simp only [nextKeeps_next, State.modMd_durable, State.wr_durable]
      exact State.coreReset_keeps (by simp [hw]) _

theorem execSupplyLow_keeps (h : d.Keeps s.durable)  : NextKeeps d (execSupplyLow s) := by
  simp [execSupplyLow, h]

theorem execSupplyInRange_keeps (h : d.Keeps s.durable)  : NextKeeps d (execSupplyInRange s) := by
  simp [execSupplyInRange, h]

theorem execRideThroughEnd_keeps (h : d.Keeps s.durable)  : NextKeeps d (execRideThroughEnd s) := by
  simp [execRideThroughEnd, h]

theorem execFeedOutOfRange_keeps (h : d.Keeps s.durable) (feed : Bool) : NextKeeps d (execFeedOutOfRange feed s) := by
  simp [execFeedOutOfRange, h]

theorem execResetRelease_keeps (h : d.Keeps s.durable)  : NextKeeps d (execResetRelease s) := by
  simp [execResetRelease, h]

theorem execPowerOnRelease_keeps (h : d.Keeps s.durable)  : NextKeeps d (execPowerOnRelease s) := by
  simp [execPowerOnRelease, h]

theorem execWarmResetRelease_keeps (h : d.Keeps s.durable)  : NextKeeps d (execWarmResetRelease s) := by
  simp [execWarmResetRelease, h]

theorem execChannelResetRelease_keeps (h : d.Keeps s.durable) (c : Ch) : NextKeeps d (execChannelResetRelease c s) := by
  simp [execChannelResetRelease, h]

theorem execOptionLoadDone_keeps (h : d.Keeps s.durable) (n : Fin 8) (ok : Bool) : NextKeeps d (execOptionLoadDone n ok s) := by
  unfold execOptionLoadDone
  dsimp only [nextKeeps_next]
  split
  · exact h
  · refine State.bootMaybe_keeps ?_
    split <;> simp [h]

theorem execDomainLoss_keeps (h : d.Keeps s.durable) (n : Fin 8) : NextKeeps d (execDomainLoss n s) := by
  unfold execDomainLoss
  dsimp only [nextKeeps_next]
  split
  · exact h
  · refine State.bootMaybe_keeps ?_
    rw [State.diag_durable]
    split <;> simp [h]

theorem execDomainRepower_keeps (h : d.Keeps s.durable) (n : Fin 8) (ok : Bool) : NextKeeps d (execDomainRepower n ok s) := by
  unfold execDomainRepower
  dsimp only
  split <;> simp [h]

theorem execOutputHoldExpiry_keeps (h : d.Keeps s.durable)  : NextKeeps d (execOutputHoldExpiry s) := by
  unfold execOutputHoldExpiry
  split <;> simp [h]

theorem execBrownOutLatch_keeps (h : d.Keeps s.durable)  : NextKeeps d (execBrownOutLatch s) := by
  simp [execBrownOutLatch, h]

theorem execStrapChange_keeps (h : d.Keeps s.durable) (i : Fin 8) (v : Bool) : NextKeeps d (execStrapChange i v s) := by
  simp [execStrapChange, h]

theorem execReferenceLoss_keeps (h : d.Keeps s.durable)  : NextKeeps d (execReferenceLoss s) := by
  simp [execReferenceLoss, h]

theorem execReferenceReturn_keeps (h : d.Keeps s.durable)  : NextKeeps d (execReferenceReturn s) := by
  simp [execReferenceReturn, h]

theorem execCounterCheckpoint_keeps (h : d.Keeps s.durable)  : NextKeeps d (execCounterCheckpoint s) := by
  simp [execCounterCheckpoint, h]

theorem execModReset_keeps (h : d.Keeps s.durable) (r : CmdRec) : NextKeeps d (execModReset r s) := by
  unfold execModReset
  split
  · exact nextKeeps_cmd (eff := Except.ok) (fun h => h) h _ _
  · simp only [nextKeeps_next]
    (repeat' split) <;> simp [h]

theorem execCfgStoreDone_keeps (h : d.Keeps s.durable) (readBack : BitVec 3) (writeOk : Bool) : NextKeeps d (execCfgStoreDone readBack writeOk s) := by
  unfold execCfgStoreDone
  dsimp only
  (repeat' split) <;> simp [h]

theorem execInputRecord_keeps (h : d.Keeps s.durable) (rx tx : Ch) (bytes : List Byte) : NextKeeps d (execInputRecord rx tx bytes s) := by
  unfold execInputRecord
  split <;> simp [h]

theorem execInputRecordDue_keeps (h : d.Keeps s.durable)  : NextKeeps d (execInputRecordDue s) := by
  simp [execInputRecordDue, h]

theorem execPhaseBarrier_keeps (h : d.Keeps s.durable) (c : Ch) : NextKeeps d (execPhaseBarrier c s) := by
  simp [execPhaseBarrier, h]

theorem execExecutionLimit_keeps (h : d.Keeps s.durable)  : NextKeeps d (execExecutionLimit s) := by
  simp [execExecutionLimit, h]

theorem execDebugStepOverrun_keeps (h : d.Keeps s.durable) (c : Ch) : NextKeeps d (execDebugStepOverrun c s) := by
  simp [execDebugStepOverrun, h]

theorem execSignatureRecord_keeps (h : d.Keeps s.durable) (rx tx : Ch) (x : SigRec) : NextKeeps d (execSignatureRecord rx tx x s) := by
  simp [execSignatureRecord, h]

theorem execSignatureRecordDue_keeps (h : d.Keeps s.durable) : NextKeeps d (execSignatureRecordDue s) := by
  unfold execSignatureRecordDue
  simp only [nextKeeps_next]
  split
  · exact h
  · split
    · rw [durable_foldSt]
      · simp [h]
      · intro c s
        split <;> simp
    · rw [State.wr_durable, durable_foldSt _ _ (by simp), durable_foldSt]
      · simp [h]
      · intro c s
        split <;> simp

theorem execDecision_keeps (h : d.Keeps s.durable)  : NextKeeps d (execDecision s) := by
  simp [execDecision, h]

theorem execOutputVote_keeps (h : d.Keeps s.durable)  : NextKeeps d (execOutputVote s) := by
  simp [execOutputVote, h]

theorem execScrubSlot_keeps (h : d.Keeps s.durable) (c : Ch) : NextKeeps d (execScrubSlot c s) := by
  simp [execScrubSlot, h]

theorem execProofHour_keeps (h : d.Keeps s.durable) : NextKeeps d (execProofHour s) := by
  unfold execProofHour
  simp only [nextKeeps_next]
  split
  · exact h
  · rw [durable_foldSt]
    · exact h
    · intro c s
      (repeat' split) <;> simp

theorem execSnapshotSend_keeps (h : d.Keeps s.durable) (rx : Ch) : NextKeeps d (execSnapshotSend rx s) := by
  simp [execSnapshotSend, h]

theorem execSnapshotBlock_keeps (h : d.Keeps s.durable) (rx tx : Ch) (idx : Nat) (ok markBad : Bool) (bytes : List Byte) : NextKeeps d (execSnapshotBlock rx tx idx ok markBad bytes s) := by
  unfold execSnapshotBlock
  dsimp only
  split <;> simp [h]

theorem execSnapshotAccept_keeps (h : d.Keeps s.durable) (rx : Ch) : NextKeeps d (execSnapshotAccept rx s) := by
  unfold execSnapshotAccept
  dsimp only
  (repeat' split) <;> simp [h]

theorem execResyncTimeout_keeps (h : d.Keeps s.durable) (rx : Ch) : NextKeeps d (execResyncTimeout rx s) := by
  unfold execResyncTimeout
  dsimp only
  split <;> simp [h]

theorem execBankReloadDone_keeps (h : d.Keeps s.durable) (rx : Ch) : NextKeeps d (execBankReloadDone rx s) := by
  unfold execBankReloadDone
  dsimp only
  (repeat' split) <;> simp [h]

theorem execTwinLinkChange_keeps (h : d.Keeps s.durable) (up : Bool) : NextKeeps d (execTwinLinkChange up s) := by
  simp [execTwinLinkChange, h]

theorem execTwinInputRecord_keeps (h : d.Keeps s.durable) (bytes : List Byte) : NextKeeps d (execTwinInputRecord bytes s) := by
  unfold execTwinInputRecord
  (repeat' split) <;> simp [h]

theorem execTwinRecordDeadline_keeps (h : d.Keeps s.durable)  : NextKeeps d (execTwinRecordDeadline s) := by
  simp [execTwinRecordDeadline, h]

theorem execTwinSignatureRecord_keeps (h : d.Keeps s.durable) (r : SigRec) : NextKeeps d (execTwinSignatureRecord r s) := by
  simp [execTwinSignatureRecord, h]

theorem execSnapshotCapture_keeps (h : d.Keeps s.durable)  : NextKeeps d (execSnapshotCapture s) := by
  simp [execSnapshotCapture, h]

theorem execTwinSnapshotBlock_keeps (h : d.Keeps s.durable) (idx : Nat) (ok : Bool) (bytes : List Byte) : NextKeeps d (execTwinSnapshotBlock idx ok bytes s) := by
  simp [execTwinSnapshotBlock, h]

theorem execTwinSnapshotAccept_keeps (h : d.Keeps s.durable)  : NextKeeps d (execTwinSnapshotAccept s) := by
  simp [execTwinSnapshotAccept, h]

theorem execSnapshotAcknowledgement_keeps (h : d.Keeps s.durable) (k : Nat) (mismatch : Bool) : NextKeeps d (execSnapshotAcknowledgement k mismatch s) := by
  simp [execSnapshotAcknowledgement, h]

theorem execChaseCycle_keeps (h : d.Keeps s.durable) (rx : Ch) (startNs : Nat) : NextKeeps d (execChaseCycle rx startNs s) := by
  unfold execChaseCycle
  (repeat' split) <;> simp [h]

theorem execLeaseWindow_keeps (h : d.Keeps s.durable)  : NextKeeps d (execLeaseWindow s) := by
  unfold execLeaseWindow
  dsimp only
  (repeat' split) <;> simp [h]

theorem execRenewReceive_keeps (h : d.Keeps s.durable) (m : LeaseMsg) : NextKeeps d (execRenewReceive m s) := by
  unfold execRenewReceive
  dsimp only
  (repeat' split) <;> simp [h]

theorem execRequestReceive_keeps (h : d.Keeps s.durable) (m : LeaseMsg) : NextKeeps d (execRequestReceive m s) := by
  unfold execRequestReceive
  dsimp only
  (repeat' split) <;> simp [h]

theorem execArbiterVacancy_keeps (h : d.Keeps s.durable) (slot : Fin 8) : NextKeeps d (execArbiterVacancy slot s) := by
  simp [execArbiterVacancy, h]

theorem execReleaseReceive_keeps (h : d.Keeps s.durable) (m : LeaseMsg) : NextKeeps d (execReleaseReceive m s) := by
  unfold execReleaseReceive
  dsimp only
  (repeat' split) <;> simp [h]

theorem execGrantReceive_keeps (h : d.Keeps s.durable) (m : LeaseMsg) : NextKeeps d (execGrantReceive m s) := by
  simp [execGrantReceive, h]

theorem execLeaseExpiry_keeps (h : d.Keeps s.durable)  : NextKeeps d (execLeaseExpiry s) := by
  simp [execLeaseExpiry, h]

theorem execTwnHandover_keeps (h : d.Keeps s.durable) (r : CmdRec) : NextKeeps d (execTwnHandover r s) :=
  nextKeeps_cmd (fun h => applyTwnHandover_keeps h _ _) h _ _

theorem execTwnHoCancel_keeps (h : d.Keeps s.durable) (r : CmdRec) : NextKeeps d (execTwnHoCancel r s) :=
  nextKeeps_cmd (fun h => applyTwnHoCancel_keeps h) h _ _

theorem execTcStrobe_keeps (h : d.Keeps s.durable)  : NextKeeps d (execTcStrobe s) := by
  unfold execTcStrobe
  split <;> simp [h]

theorem execRpcTcStrobe_keeps (h : d.Keeps s.durable)  : NextKeeps d (execRpcTcStrobe s) := by
  unfold execRpcTcStrobe
  split <;> simp [h]

theorem execCommitAtTarget_keeps (h : d.Keeps s.durable)  : NextKeeps d (execCommitAtTarget s) := by
  unfold execCommitAtTarget
  dsimp only
  (repeat' split) <;> simp [h]

theorem execEpochSwitch_keeps (h : d.Keeps s.durable)  : NextKeeps d (execEpochSwitch s) := by
  simp [execEpochSwitch, h]

/-! ### Every command -/

theorem exec_keeps (hd : d.Keeps s.durable) : ∀ i : Instr, NextKeeps d (exec i s)
  | .nop c l => execNop_keeps hd c l
  | .phase c l => execPhase_keeps hd c l
  | .endp c l => execEndp_keeps hd c l
  | .assert c l a => execAssert_keeps hd c l a
  | .ld c l x => execLd_keeps hd c l x
  | .ldn c l x => execLdn_keeps hd c l x
  | .and c l x => execAnd_keeps hd c l x
  | .andn c l x => execAndn_keeps hd c l x
  | .or c l x => execOr_keeps hd c l x
  | .orn c l x => execOrn_keeps hd c l x
  | .xor c l x => execXor_keeps hd c l x
  | .redge c l m => execRedge_keeps hd c l m
  | .fedge c l m => execFedge_keeps hd c l m
  | .bpush c l => execBpush_keeps hd c l
  | .bor c l => execBor_keeps hd c l
  | .band c l => execBand_keeps hd c l
  | .zon c l neg => execZon_keeps hd c l neg
  | .zoff c l => execZoff_keeps hd c l
  | .out c l b => execOut_keeps hd c l b
  | .outn c l b => execOutn_keeps hd c l b
  | .set c l b => execSet_keeps hd c l b
  | .rst c l b => execRst_keeps hd c l b
  | .stw c l w => execStw_keeps hd c l w
  | .ldw c l w => execLdw_keeps hd c l w
  | .ldwi c l uns x => execLdwi_keeps hd c l uns x
  | .ldwh c l h => execLdwh_keeps hd c l h
  | .ldx c l t => execLdx_keeps hd c l t
  | .add c l x => execAdd_keeps hd c l x
  | .sub c l x => execSub_keeps hd c l x
  | .mul c l x => execMul_keeps hd c l x
  | .min c l x => execMin_keeps hd c l x
  | .max c l x => execMax_keeps hd c l x
  | .andw c l x => execAndw_keeps hd c l x
  | .orw c l x => execOrw_keeps hd c l x
  | .xorw c l x => execXorw_keeps hd c l x
  | .shl c l x => execShl_keeps hd c l x
  | .shr c l x => execShr_keeps hd c l x
  | .asr c l x => execAsr_keeps hd c l x
  | .limit c l x => execLimit_keeps hd c l x
  | .ceq c l x => execCeq_keeps hd c l x
  | .cne c l x => execCne_keeps hd c l x
  | .clt c l x => execClt_keeps hd c l x
  | .cle c l x => execCle_keeps hd c l x
  | .cgt c l x => execCgt_keeps hd c l x
  | .cge c l x => execCge_keeps hd c l x
  | .ton c l k t => execTon_keeps hd c l k t
  | .tof c l k t => execTof_keeps hd c l k t
  | .tp c l k t => execTp_keeps hd c l k t
  | .ctu c l k t => execCtu_keeps hd c l k t
  | .ctd c l k t => execCtd_keeps hd c l k t
  | .cres c l preset t => execCres_keeps hd c l preset t
  | .phaseBarrier c => execPhaseBarrier_keeps hd c
  | .tcStrobe => execTcStrobe_keeps hd
  | .rpcTcStrobe => execRpcTcStrobe_keeps hd
  | .inputRecord rx tx bytes => execInputRecord_keeps hd rx tx bytes
  | .inputRecordDue => execInputRecordDue_keeps hd
  | .executionLimit => execExecutionLimit_keeps hd
  | .signatureRecord rx tx x => execSignatureRecord_keeps hd rx tx x
  | .signatureRecordDue => execSignatureRecordDue_keeps hd
  | .decision => execDecision_keeps hd
  | .outputVote => execOutputVote_keeps hd
  | .snapshotCapture => execSnapshotCapture_keeps hd
  | .scrubSlot c => execScrubSlot_keeps hd c
  | .snapshotSend rx => execSnapshotSend_keeps hd rx
  | .snapshotBlock rx tx idx ok markBad bytes => execSnapshotBlock_keeps hd rx tx idx ok markBad bytes
  | .snapshotAccept rx => execSnapshotAccept_keeps hd rx
  | .chaseCycle rx startNs => execChaseCycle_keeps hd rx startNs
  | .resyncTimeout rx => execResyncTimeout_keeps hd rx
  | .bankReloadDone rx => execBankReloadDone_keeps hd rx
  | .viewBufferFill => execViewBufferFill_keeps hd
  | .imagePush finished => execImagePush_keeps hd finished
  | .bridgeRefresh => execBridgeRefresh_keeps hd
  | .cmdRecLatch i1 w poisoned => execCmdRecLatch_keeps hd i1 w poisoned
  | .unknownCommand code r => execUnknownCommand_keeps hd code r
  | .cmdNop r => execCmdNop_keeps hd r
  | .modReset r => execModReset_keeps hd r
  | .warmReset r => execWarmReset_keeps hd r
  | .chReset r => execChReset_keeps hd r
  | .mntEnter r => execMntEnter_keeps hd r
  | .mntExit r => execMntExit_keeps hd r
  | .prgLoad r => execPrgLoad_keeps hd r
  | .bankCheckDone c => execBankCheckDone_keeps hd c
  | .prgArm r => execPrgArm_keeps hd r
  | .prgCommit r => execPrgCommit_keeps hd r
  | .commitAtTarget => execCommitAtTarget_keeps hd
  | .prgDisarm r => execPrgDisarm_keeps hd r
  | .prgRelease r => execPrgRelease_keeps hd r
  | .forceSet r => execForceSet_keeps hd r
  | .forceClear r => execForceClear_keeps hd r
  | .forceClearAll r => execForceClearAll_keeps hd r
  | .retDiscard r => execRetDiscard_keeps hd r
  | .dbgEnter r => execDbgEnter_keeps hd r
  | .dbgExit r => execDbgExit_keeps hd r
  | .dbgHalt r => execDbgHalt_keeps hd r
  | .dbgStep r => execDbgStep_keeps hd r
  | .dbgResume r => execDbgResume_keeps hd r
  | .twnHandover r => execTwnHandover_keeps hd r
  | .twnHoCancel r => execTwnHoCancel_keeps hd r
  | .gwyLoad r => execGwyLoad_keeps hd r
  | .gwyLoadDone => execGwyLoadDone_keeps hd
  | .gwySwap r => execGwySwap_keeps hd r
  | .gwySwapAtTarget => execGwySwapAtTarget_keeps hd
  | .gwyNmt r => execGwyNmt_keeps hd r
  | .gwySdoRead r => execGwySdoRead_keeps hd r
  | .gwySdoWrite r => execGwySdoWrite_keeps hd r
  | .sdoTimeout p => execSdoTimeout_keeps hd p
  | .alpCalBegin r => execAlpCalBegin_keeps hd r
  | .alpCalPoint r => execAlpCalPoint_keeps hd r
  | .calPointTaken n avgNa => execCalPointTaken_keeps hd n avgNa
  | .alpCalCommit r => execAlpCalCommit_keeps hd r
  | .alpCalAbort r => execAlpCalAbort_keeps hd r
  | .alpCalFactory r => execAlpCalFactory_keeps hd r
  | .calTimeout n => execCalTimeout_keeps hd n
  | .recClear r => execRecClear_keeps hd r
  | .recCountClear r => execRecCountClear_keeps hd r
  | .cfgStore r => execCfgStore_keeps hd r
  | .cfgStoreDone readBack writeOk => execCfgStoreDone_keeps hd readBack writeOk
  | .cfgStart r => execCfgStart_keeps hd r
  | .schLoad r => execSchLoad_keeps hd r
  | .schCommit r => execSchCommit_keeps hd r
  | .schCancel r => execSchCancel_keeps hd r
  | .epochSwitch => execEpochSwitch_keeps hd
  | .fwActivate r => execFwActivate_keeps hd r
  | .secRollback r => execSecRollback_keeps hd r
  | .secRevoke r => execSecRevoke_keeps hd r
  | .secCertGet r => execSecCertGet_keeps hd r
  | .secKeyImport r => execSecKeyImport_keeps hd r
  | .cmdResCommit val => execCmdResCommit_keeps hd val
  | .cmdResLegacy => execCmdResLegacy_keeps hd
  | .hbrIntLegacy => execHbrIntLegacy_keeps hd
  | .hreset val => execHreset_keeps hd val
  | .hostPortReset k => execHostPortReset_keeps hd k
  | .bar0RefusedAccess off write => execBar0RefusedAccess_keeps hd off write
  | .unassignedAccess off write => execUnassignedAccess_keeps hd off write
  | .poisonedWrite off => execPoisonedWrite_keeps hd off
  | .bar2Write off => execBar2Write_keeps hd off
  | .registerWrite off val chainageNs => execRegisterWrite_keeps hd off val chainageNs
  | .hostFrameSend j val => execHostFrameSend_keeps hd j val
  | .hartGo n val => execHartGo_keeps hd n val
  | .hartComplete n response => execHartComplete_keeps hd n response
  | .hostMark val => execHostMark_keeps hd val
  | .recSeek val => execRecSeek_keeps hd val
  | .sesOpen val => execSesOpen_keeps hd val
  | .sesVerified => execSesVerified_keeps hd
  | .sesClose val => execSesClose_keeps hd val
  | .sessionIdleTimeout port => execSessionIdleTimeout_keeps hd port
  | .openingLockoutEnd port => execOpeningLockoutEnd_keeps hd port
  | .kaClear val => execKaClear_keeps hd val
  | .svcTlsOpen keyDigest tlsOk => execSvcTlsOpen_keeps hd keyDigest tlsOk
  | .svcCommand w0 w1 w2 w3 chainageNs => execSvcCommand_keeps hd w0 w1 w2 w3 chainageNs
  | .svcRegRead off => execSvcRegRead_keeps hd off
  | .svcRegWrite off val chainageNs => execSvcRegWrite_keeps hd off val chainageNs
  | .svcStageWrite off data => execSvcStageWrite_keeps hd off data
  | .svcStageRead off len => execSvcStageRead_keeps hd off len
  | .powerOnRelease => execPowerOnRelease_keeps hd
  | .supplyLow => execSupplyLow_keeps hd
  | .rideThroughEnd => execRideThroughEnd_keeps hd
  | .saveComplete durationNs => execSaveComplete_keeps hd durationNs
  | .feedOutOfRange feed => execFeedOutOfRange_keeps hd feed
  | .mrstN lowNs => execMrstN_keeps hd lowNs
  | .resetRelease => execResetRelease_keeps hd
  | .warmResetRelease => execWarmResetRelease_keeps hd
  | .channelResetRelease c => execChannelResetRelease_keeps hd c
  | .outputHoldExpiry => execOutputHoldExpiry_keeps hd
  | .watchdogExpiry => execWatchdogExpiry_keeps hd
  | .watchdogRefresh c => execWatchdogRefresh_keeps hd c
  | .domainLoss d => execDomainLoss_keeps hd d
  | .domainRepower d ok => execDomainRepower_keeps hd d ok
  | .optionLoadDone d ok => execOptionLoadDone_keeps hd d ok
  | .brownOutLatch => execBrownOutLatch_keeps hd
  | .strapChange i1 v => execStrapChange_keeps hd i1 v
  | .referenceLoss => execReferenceLoss_keeps hd
  | .referenceReturn => execReferenceReturn_keeps hd
  | .counterCheckpoint => execCounterCheckpoint_keeps hd
  | .switchReread readings => execSwitchReread_keeps hd readings
  | .proofHour => execProofHour_keeps hd
  | .ordinarySample uA => execOrdinarySample_keeps hd uA
  | .testPulse k => execTestPulse_keeps hd k
  | .testSample k interval uA => execTestSample_keeps hd k interval uA
  | .tpOverload k => execTpOverload_keeps hd k
  | .tpRetry k => execTpRetry_keeps hd k
  | .offPulse o low => execOffPulse_keeps hd o low
  | .offPulseEnd o low v plus => execOffPulseEnd_keeps hd o low v plus
  | .offStateCheck o => execOffStateCheck_keeps hd o
  | .offStateCheckEnd o hsOk lsOk mvPlus => execOffStateCheckEnd_keeps hd o hsOk lsOk mvPlus
  | .overcurrent o inst => execOvercurrent_keeps hd o inst
  | .overcurrentClear o => execOvercurrentClear_keeps hd o
  | .openLoadWarning o imbalance => execOpenLoadWarning_keeps hd o imbalance
  | .groupSag g mV => execGroupSag_keeps hd g mV
  | .groupTrip g => execGroupTrip_keeps hd g
  | .groupOvervoltage g mV lasted => execGroupOvervoltage_keeps hd g mV lasted
  | .groupRecovered g => execGroupRecovered_keeps hd g
  | .timedOutputDue o => execTimedOutputDue_keeps hd o
  | .dlkInputChange v => execDlkInputChange_keeps hd v
  | .dlkDiscrepancy p => execDlkDiscrepancy_keeps hd p
  | .dlkBothRelease => execDlkBothRelease_keeps hd
  | .dlkAckEdge => execDlkAckEdge_keeps hd
  | .dlkOffTimeExpiry right => execDlkOffTimeExpiry_keeps hd right
  | .dlkSo3ReadbackOpen => execDlkSo3ReadbackOpen_keeps hd
  | .dlkStartupTest => execDlkStartupTest_keeps hd
  | .dlkStartupTestDone failedVector => execDlkStartupTestDone_keeps hd failedVector
  | .dlkCheckerTest ok => execDlkCheckerTest_keeps hd ok
  | .dlkFault code => execDlkFault_keeps hd code
  | .ptnFrameReceive port bytes startNs endNs fcsOk => execPtnFrameReceive_keeps hd port bytes startNs endNs fcsOk
  | .foreignFrameReceive port dst src tag etherType data => execForeignFrameReceive_keeps hd port dst src tag etherType data
  | .freeWindowForward port => execFreeWindowForward_keeps hd port
  | .addressAgeing => execAddressAgeing_keeps hd
  | .transmitWindow e => execTransmitWindow_keeps hd e
  | .eventFrameExpiry => execEventFrameExpiry_keeps hd
  | .datumSend => execDatumSend_keeps hd
  | .coldstartTimeout => execColdstartTimeout_keeps hd
  | .coldstartBackoffEnd => execColdstartBackoffEnd_keeps hd
  | .timedLaunchDue l => execTimedLaunchDue_keeps hd l
  | .gptpSync => execGptpSync_keeps hd
  | .gptpAnnounce => execGptpAnnounce_keeps hd
  | .gptpPdelayReq port => execGptpPdelayReq_keeps hd port
  | .timePulse => execTimePulse_keeps hd
  | .portLinkChange port speed => execPortLinkChange_keeps hd port speed
  | .bypassRelayB => execBypassRelayB_keeps hd
  | .holdupMeasure => execHoldupMeasure_keeps hd
  | .holdupMeasureDone energyMj => execHoldupMeasureDone_keeps hd energyMj
  | .edgeInsertion => execEdgeInsertion_keeps hd
  | .lineALinksUp => execLineALinksUp_keeps hd
  | .insertionTimeout => execInsertionTimeout_keeps hd
  | .insertionRetry => execInsertionRetry_keeps hd
  | .twinInputRecord bytes => execTwinInputRecord_keeps hd bytes
  | .twinRecordDeadline => execTwinRecordDeadline_keeps hd
  | .twinSignatureRecord x => execTwinSignatureRecord_keeps hd x
  | .twinSnapshotBlock idx ok bytes => execTwinSnapshotBlock_keeps hd idx ok bytes
  | .twinSnapshotAccept => execTwinSnapshotAccept_keeps hd
  | .snapshotAcknowledgement k mismatch => execSnapshotAcknowledgement_keeps hd k mismatch
  | .leaseWindow => execLeaseWindow_keeps hd
  | .renewReceive m => execRenewReceive_keeps hd m
  | .requestReceive m => execRequestReceive_keeps hd m
  | .grantReceive m => execGrantReceive_keeps hd m
  | .releaseReceive m => execReleaseReceive_keeps hd m
  | .leaseExpiry => execLeaseExpiry_keeps hd
  | .arbiterVacancy slot => execArbiterVacancy_keeps hd slot
  | .busMessageReceive port ident bytes => execBusMessageReceive_keeps hd port ident bytes
  | .messagePeriod m => execMessagePeriod_keeps hd m
  | .mvbPoll port addr => execMvbPoll_keeps hd port addr
  | .rs485FrameEnd port bytes => execRs485FrameEnd_keeps hd port bytes
  | .canBusOff p => execCanBusOff_keeps hd p
  | .busOffRecovery p => execBusOffRecovery_keeps hd p
  | .nmtStart p => execNmtStart_keeps hd p
  | .loopSample n nA limited headroomMv => execLoopSample_keeps hd n nA limited headroomMv
  | .loopOpen n => execLoopOpen_keeps hd n
  | .loopCompliance n => execLoopCompliance_keeps hd n
  | .channelEventMatch => execChannelEventMatch_keeps hd
  | .recWrite => execRecWrite_keeps hd
  | .recIndexBuild => execRecIndexBuild_keeps hd
  | .supplyInRange => execSupplyInRange_keeps hd
  | .groupVoltageReturn g mV => execGroupVoltageReturn_keeps hd g mV
  | .tpRetrySuccess k => execTpRetrySuccess_keeps hd k
  | .loopOpenClear n => execLoopOpenClear_keeps hd n
  | .loopComplianceClear n => execLoopComplianceClear_keeps hd n
  | .holdupStoreLoss => execHoldupStoreLoss_keeps hd
  | .svcTlsClose => execSvcTlsClose_keeps hd
  | .hostLinkTrained speed width => execHostLinkTrained_keeps hd speed width
  | .recIndexDone => execRecIndexDone_keeps hd
  | .hostFrameSent j => execHostFrameSent_keeps hd j
  | .poisonedDataRead off => execPoisonedDataRead_keeps hd off
  | .busMasterEnableChange => execBusMasterEnableChange_keeps hd
  | .debugStepOverrun c => execDebugStepOverrun_keeps hd c
  | .twinLinkChange up => execTwinLinkChange_keeps hd up

end

theorem exec_next (i : Instr) (s : State) : ∃ t, exec i s = .next t ∧ s.durable.Keeps t.durable := by
  have h := exec_keeps (Durable.keeps_refl s.durable) i
  generalize exec i s = o at h ⊢
  cases o with
  | next t => exact ⟨t, rfl, h⟩
  | fault _ => exact h.elim
  | refused _ => exact h.elim

/-- A step keeps what a command keeps, but the queue, whose front it takes. -/
theorem step_keeps {s t : State} (h : step s = .next t) :
    (s.durable.canonical → t.durable.canonical) ∧ within s.sec.otp t.sec.otp ∧ ∀ c, within (s.sec.otpCh.get c) (t.sec.otpCh.get c) := by
  unfold step at h
  split at h
  · cases h
    exact ⟨id, within_refl _, fun _ => within_refl _⟩
  · next i q _ =>
    obtain ⟨u, hu, hk⟩ := exec_next i { s with pending := q }
    cases hu.symm.trans h
    exact ⟨hk.canonical, hk.otp, hk.otpCh⟩

end Sys2Proof.Machine

namespace Sys2Proof.Claims

open Sys2Proof.Machine

/-- Settles O52: every arm of the dispatch is a next state (`exec_next`). -/
theorem everyCommandAnswersANextState : Obligations.EveryCommandAnswersANextState := fun i s =>
  have ⟨t, ht, _⟩ := exec_next i s
  ⟨t, ht⟩

/-- Settles O53: no command writes the queue (`exec_next`). -/
theorem commandsKeepTheQueue : Obligations.CommandsKeepTheQueue := fun i s t h => by
  obtain ⟨u, hu, hk⟩ := exec_next i s
  cases hu.symm.trans h
  exact hk.pending

/-- Settles O56: the memories are written by `Mem.write` and `Mem.writeImage` alone (`step_keeps`). -/
theorem stepsKeepMemoriesCanonical : Obligations.StepsKeepMemoriesCanonical := fun _ _ hs h => (step_keeps h).1 hs

/-- Settles O57: one-time-programmable bits are written by unions alone, and every reset keeps them (`step_keeps`). -/
theorem programmedBitsStayProgrammed : Obligations.ProgrammedBitsStayProgrammed := fun _ _ h => (step_keeps h).2

end Sys2Proof.Claims
end

section
/-! The word instructions (R112 to R115, R117): the ALU as arithmetic on the numbers of the form, and each effect as one
update of its lane after the operand is read. -/

namespace Sys2Proof.Claims

open Sys2Proof Sys2Proof.Machine

/-! ### The ALU on numbers -/

theorem ofInt_num (uns : Bool) (x : Word) : BitVec.ofInt 32 (num uns x) = x := by
  cases uns
  · exact BitVec.ofInt_toInt
  · simp [num]

theorem outside_num (uns : Bool) (x : Word) : outside uns (num uns x) = false := by
  cases uns
  · have h := x.le_toInt
    have h' := x.toInt_lt
    simp only [outside, num, Bool.false_eq_true, if_false, Bool.or_eq_false_iff, decide_eq_false_iff_not]
    omega
  · have h := x.isLt
    simp only [outside, num, if_true, Bool.or_eq_false_iff, decide_eq_false_iff_not]
    omega

theorem aluAdd_eq (uns : Bool) (a v : Word) :
    aluAdd uns a v = (BitVec.ofInt 32 (num uns a + num uns v), outside uns (num uns a + num uns v)) := by rfl

/-- The word that stands for the lesser of two numbers. -/
theorem ofInt_min (uns : Bool) (a v : Word) :
    BitVec.ofInt 32 (min (num uns a) (num uns v)) = (aluMin uns a v).1 := by
  unfold aluMin
  change _ = if num uns v < num uns a then v else a
  split
  · rw [min_eq_right (by omega), ofInt_num]
  · rw [min_eq_left (by omega), ofInt_num]

theorem ofInt_max (uns : Bool) (a v : Word) :
    BitVec.ofInt 32 (max (num uns a) (num uns v)) = (aluMax uns a v).1 := by
  unfold aluMax
  change _ = if num uns a < num uns v then v else a
  split
  · rw [max_eq_right (by omega), ofInt_num]
  · rw [max_eq_left (by omega), ofInt_num]

theorem outside_min (uns : Bool) (a v : Word) : outside uns (min (num uns a) (num uns v)) = false := by
  rcases min_choice (num uns a) (num uns v) with h | h <;> rw [h, outside_num]

theorem outside_max (uns : Bool) (a v : Word) : outside uns (max (num uns a) (num uns v)) = false := by
  rcases max_choice (num uns a) (num uns v) with h | h <;> rw [h, outside_num]

theorem num_aluMax (uns : Bool) (a v : Word) : num uns (aluMax uns a v).1 = max (num uns a) (num uns v) := by
  unfold aluMax
  change num uns (if num uns a < num uns v then v else a) = _
  split <;> omega

theorem ofInt_limit (uns : Bool) (a lo hi : Word) :
    BitVec.ofInt 32 (min (max (num uns a) (num uns lo)) (num uns hi)) = aluLimit uns a lo hi := by
  rw [aluLimit, ← ofInt_min, num_aluMax]

/-! ### The effects on the lane -/

/-- A row whose word names no destination and whose effect is, beyond its operand's read, on its lane alone. -/
theorem laneTo_of_onlyLane {s r : State} {c : Ch} {l : Fin 16} {i : LInstr} {f : LaneSt → LaneSt} (hrun : runs s c l)
    (hdirty : i.dirty = []) (heff : onlyLane r (effOf c l.val i (fetched s c l)) c l.val f) : laneTo (rowOf c l i) s r c l f := by
  intro hnext
  obtain ⟨hready, hfetch⟩ := hrun
  have hexec : exec (rowOf c l i) s = .next ((effOf c l.val i (fetched s c l)).modLane c l.val next) := by
    rw [exec_rowOf, State.laneStep_eq s c l i _ hready (hnext.trans (word_rowOf c l i)) hfetch, hdirty]
    rfl
  exact ⟨_, hexec, heff.trans (onlyLane_modLane _ c l.val next)⟩

/-- A change of a lane is known by its value on the lane as it stands. -/
theorem onlyLane_congr {s t : State} {c : Ch} {l : Nat} {f g : LaneSt → LaneSt} (h : onlyLane s t c l f)
    (hfg : f (s.lane' c l) = g (s.lane' c l)) : onlyLane s t c l g := ⟨h.1.trans hfg, h.2⟩

/-- A write of WA that may set the overflow status. -/
theorem onlyLane_setWa_setOvf (s : State) (c : Ch) (l : Nat) (v : Word) (p o : Bool) :
    onlyLane s ((s.setWa c l v p).setOvf c l o) c l fun ln => { ln with wa := ⟨v, p⟩, ovf := ln.ovf || o } := by
  have hw : onlyLane s (s.setWa c l v p) c l fun ln => { ln with wa := ⟨v, p⟩ } := onlyLane_modLane s c l _
  cases o
  · exact onlyLane_congr hw (by simp)
  · exact onlyLane_congr (hw.trans (onlyLane_modLane _ c l fun ln => { ln with ovf := true })) (by simp)

/-- Arithmetic: WA from WA and the operand, with the overflow status of the exact result. -/
theorem effAr_onlyLane {f : Bool → Word → Word → Word × Bool} {c : Ch} {l : Nat} {x : ArOp} {s : State} {e : Int}
    (h : f x.uns (s.lane' c l).wa.v (s.arOp c l x).1.v = (BitVec.ofInt 32 e, outside x.uns e)) :
    onlyLane (s.arOp c l x).2 (effAr f c l x s) c l fun ln =>
      { ln with wa := ⟨BitVec.ofInt 32 e, (s.lane' c l).wa.p || (s.arOp c l x).1.p⟩, ovf := ln.ovf || outside x.uns e } := by
  simp only [effAr, State.arOp_lane, h]
  exact onlyLane_setWa_setOvf _ c l _ _ _

theorem effLimit_eq (c : Ch) (l : Nat) (x : LimOp) (s : State) :
    effLimit c l x s = (s.limOp c l x).2.modLane c l fun ln => { ln with
      wa := ⟨aluLimit (s.limOp c l x).1.1 (s.lane' c l).wa.v (s.limOp c l x).1.2.1.v (s.limOp c l x).1.2.2.v,
        (s.lane' c l).wa.p || (s.limOp c l x).1.2.1.p || (s.limOp c l x).1.2.2.p⟩ } := by
  simp only [effLimit, State.limOp_lane]
  rfl

/-! ### Arithmetic -/

/-- Settles O5: the ALU's results are those of the numbers (`ofInt_min`, `ofInt_max`, `ofInt_limit`), which the minimum and
the maximum never leave (`outside_min`, `outside_max`). -/
theorem arithmeticWrapsAndFlags : Obligations.ArithmeticWrapsAndFlags := by
  intro c l x s hrun r wa a v res
  have row {f : Bool → Word → Word → Word × Bool} (i : LInstr) {e : Int} (hdirty : i.dirty = [])
      (heff : effOf c l.val i = effAr f c l.val x) (h : f x.uns wa.v r.1.v = (BitVec.ofInt 32 e, outside x.uns e)) :
      laneTo (rowOf c l i) s r.2 c l (res e) :=
    laneTo_of_onlyLane hrun hdirty (congrFun heff _ ▸ effAr_onlyLane h)
  refine ⟨row (.add x) rfl rfl rfl, row (.sub x) rfl rfl rfl, row (.mul x) rfl rfl rfl, row (f := aluMin) (.min x) rfl rfl ?_,
    row (f := aluMax) (.max x) rfl rfl ?_, fun y => ?_⟩
  · rw [ofInt_min, outside_min]
    rfl
  · rw [ofInt_max, outside_max]
    rfl
  · intro q
    rw [ofInt_limit]
    exact laneTo_rowOf (i := .limit y) hrun rfl (effLimit_eq c l.val y _)

/-! ### Shifts on numbers -/

theorem aluShl_eq (a : Word) (n : Nat) :
    aluShl a n = (BitVec.ofNat 32 (a.toNat * 2 ^ n), decide (2 ^ 32 ≤ a.toNat * 2 ^ n)) := by
  unfold aluShl
  by_cases hn : 32 ≤ n
  · rw [if_pos hn, ← Nat.sub_add_cancel hn, pow_add]
    refine Prod.ext ?_ (decide_eq_decide.mpr ?_)
    · apply BitVec.eq_of_toNat_eq
      rw [BitVec.toNat_ofNat, ← mul_assoc, Nat.mul_mod_left]
      rfl
    · rw [← mul_assoc, ne_eq, ← BitVec.toNat_inj]
      have hpos : 0 < 2 ^ (n - 32) := by positivity
      constructor
      · intro h
        exact Nat.le_mul_of_pos_left _ (Nat.mul_pos (Nat.pos_of_ne_zero h) hpos)
      · intro h h0
        simp [h0] at h
  · rw [if_neg hn]
    refine Prod.ext ?_ (decide_eq_decide.mpr ?_)
    · apply BitVec.eq_of_toNat_eq
      rw [BitVec.toNat_ofNat, BitVec.toNat_shiftLeft, Nat.shiftLeft_eq]
    · omega

theorem aluShr_eq (a : Word) (n : Nat) : aluShr a n = (BitVec.ofNat 32 (a.toNat / 2 ^ n), false) := by
  unfold aluShr
  refine Prod.ext (BitVec.eq_of_toNat_eq ?_) rfl
  rw [BitVec.toNat_ofNat, Nat.mod_eq_of_lt (lt_of_le_of_lt (Nat.div_le_self _ _) a.isLt)]
  dsimp only
  split
  · next hn =>
    rw [Nat.div_eq_of_lt (lt_of_lt_of_le a.isLt (Nat.pow_le_pow_right (by decide) hn))]
    rfl
  · rw [BitVec.toNat_ushiftRight, Nat.shiftRight_eq_div_pow]

theorem aluAsr_eq (a : Word) (n : Nat) : aluAsr a n = (BitVec.ofInt 32 (a.toInt / 2 ^ n), false) := by
  unfold aluAsr
  refine Prod.ext ?_ rfl
  have hshift (m : Nat) : a.sshiftRight m = BitVec.ofInt 32 (a.toInt / 2 ^ m) := by
    rw [BitVec.sshiftRight_eq, Int.shiftRight_eq_div_pow]
    simp
  by_cases hn : n ≤ 32
  · rw [min_eq_left hn, hshift]
  · have far {m : Nat} (hm : 32 ≤ m) : a.toInt / 2 ^ m = if a.toInt < 0 then -1 else 0 := by
      have hlo := a.le_toInt
      have hhi := a.toInt_lt
      have hp : (2 : Int) ^ 32 ≤ 2 ^ m := pow_le_pow_right₀ (by decide) hm
      split
      · exact (Int.ediv_eq_iff_of_pos (by omega)).mpr ⟨by omega, by omega⟩
      · exact Int.ediv_eq_zero_of_lt (by omega) (by omega)
    rw [min_eq_right (by omega), hshift, far le_rfl, far (by omega)]

/-! ### Loads, logic and shifts -/

theorem effLdx_outside {c : Ch} {l : Nat} {t : BitVec 8} {s : State} {b : Bank} {d : TableDesc} (hb : (s.ch c).run = some b)
    (hd : b.table t.toNat = some d) (h : d.len ≤ (s.lane' c l).wa.v.toNat) :
    onlyLane s (effLdx c l t s) c l fun ln => { ln with wa := ⟨d.dflt, (s.lane' c l).wa.p⟩, rng := true } := by
  simp only [effLdx, hb, hd, Nat.not_lt.mpr h, if_false]
  exact onlyLane_congr ((onlyLane_modLane s c l fun ln => { ln with rng := true }).trans
    (onlyLane_modLane _ c l fun ln => { ln with wa := ⟨d.dflt, (s.lane' c l).wa.p⟩ })) rfl

theorem effLdx_inside {c : Ch} {l : Nat} {t : BitVec 8} {s : State} {b : Bank} {d : TableDesc} (hb : (s.ch c).run = some b)
    (hd : b.table t.toNat = some d) (h : (s.lane' c l).wa.v.toNat < d.len) :
    let r := s.tableEntry c b t.toNat (s.lane' c l).wa.v.toNat
    effLdx c l t s = (r.2.laneTook c l r.1.p).modLane c l fun ln => { ln with wa := ⟨r.1.v, ln.wa.p || r.1.p⟩ } := by
  simp only [effLdx, hb, hd, h, if_true]
  exact modLane_congr (by simp)

theorem effLog_eq (f : Word → Word → Word) (c : Ch) (l : Nat) (x : LogOp) (s : State) :
    effLog f c l x s = (s.logOp c l x).2.modLane c l fun ln => { ln with
      wa := ⟨f (s.lane' c l).wa.v (s.logOp c l x).1.v, (s.lane' c l).wa.p || (s.logOp c l x).1.p⟩ } := by
  simp only [effLog, State.logOp_lane]
  rfl

theorem effShift_onlyLane (f : Word → Nat → Word × Bool) (c : Ch) (l : Nat) (x : ShOp) (s : State) :
    onlyLane (s.shOp c l x).2 (effShift f c l x s) c l fun ln => { ln with
      wa := ⟨(f (s.lane' c l).wa.v (s.shOp c l x).1.v.toNat).1, (s.lane' c l).wa.p || (s.shOp c l x).1.p⟩,
      ovf := ln.ovf || (f (s.lane' c l).wa.v (s.shOp c l x).1.v.toNat).2 } := by
  simp only [effShift, State.shOp_lane]
  exact onlyLane_setWa_setOvf _ c l _ _ _

theorem wordLoadsSetWa_holds : wordLoadsSetWa := by
  intro c l s hrun u
  refine ⟨fun a => laneTo_rowOf (i := .ldw a) hrun rfl rfl, fun uns x => laneTo_rowOf (i := .ldwi uns x) hrun rfl rfl,
    fun h => laneTo_rowOf (i := .ldwh h) hrun rfl rfl, fun t b d hb hd => ⟨fun h => ?_, fun h => ?_⟩⟩
  · exact laneTo_of_onlyLane (i := .ldx t) hrun rfl (effLdx_outside hb hd h)
  · exact laneTo_rowOf (i := .ldx t) hrun rfl (effLdx_inside hb hd h)

theorem wordLogicAndShifts_holds : wordLogicAndShifts := by
  intro c l s hrun wa
  refine ⟨fun x => ?_, fun x => ?_⟩
  · intro r res
    refine ⟨?_, ?_, ?_⟩
    · exact ⟨_, laneTo_rowOf (i := .andw x) hrun rfl (effLog_eq _ c l.val x _), fun _ _ _ => BitVec.getLsbD_and, fun _ => rfl⟩
    · exact ⟨_, laneTo_rowOf (i := .orw x) hrun rfl (effLog_eq _ c l.val x _), fun _ _ _ => BitVec.getLsbD_or, fun _ => rfl⟩
    · exact ⟨_, laneTo_rowOf (i := .xorw x) hrun rfl (effLog_eq _ c l.val x _), fun _ _ _ => BitVec.getLsbD_xor, fun _ => rfl⟩
  · intro r n
    refine ⟨?_, ?_, ?_, ?_⟩
    · rintro k rfl
      rfl
    · have h := effShift_onlyLane aluShl c l.val x (fetched s c l)
      rw [aluShl_eq] at h
      exact laneTo_of_onlyLane (i := .shl x) hrun rfl h
    · have h := effShift_onlyLane aluShr c l.val x (fetched s c l)
      simp only [aluShr_eq, Bool.or_false] at h
      exact laneTo_of_onlyLane (i := .shr x) hrun rfl h
    · have h := effShift_onlyLane aluAsr c l.val x (fetched s c l)
      simp only [aluAsr_eq, Bool.or_false] at h
      exact laneTo_of_onlyLane (i := .asr x) hrun rfl h

/-- Settles O4: `wordLoadsSetWa_holds` and `wordLogicAndShifts_holds`. -/
theorem loadsLogicAndShifts : Obligations.LoadsLogicAndShifts := ⟨wordLoadsSetWa_holds, wordLogicAndShifts_holds⟩

end Sys2Proof.Claims
end

section
/-! Edges and stores (R106, R110): a store into a sound replica is one relation between the state before and after it,
`Stored`, which the lane's own updates before and after it keep. -/

namespace Sys2Proof.Claims

open Sys2Proof Sys2Proof.Machine

/-! ### A store into the replica of a lane -/

/-- `t` is `s` with the word `v` at `i` of the replica of lane `l`, and with the lane's working state as `f` says. -/
structure Stored (s t : State) (c : Ch) (l : Fin 16) (i : Nat) (v : Psn Word) (f : LaneSt → LaneSt) : Prop where
  seen : seen t c l i = v
  others : ∀ j, j ≠ i → t.ideal c (some l.val) j = s.ideal c (some l.val) j
  lane : ∃ own, t.lane' c l.val = { f (s.lane' c l.val) with own := own }
  img : (t.ch c).img = (s.ch c).img
  regs : t.regs = s.regs
  frame : t = { s with chs := t.chs }

theorem ideal_some (s : State) (c : Ch) (l j : Nat) :
    s.ideal c (some l) j = (FMap.get none (s.lane' c l).own j).getD (FMap.get 0 (s.ch c).img j) := by rfl

/-- A lane update that leaves the lane's own stores leaves its replica. -/
theorem ideal_modLane {s : State} {c : Ch} {l : Nat} {f : LaneSt → LaneSt} (hf : ∀ ln, (f ln).own = ln.own) (j : Nat) :
    (s.modLane c l f).ideal c (some l) j = s.ideal c (some l) j := by
  simp only [ideal_some, State.lane_modLane_same, hf, State.modLane_img]

theorem seen_modLane {s : State} {c : Ch} {l : Fin 16} {f : LaneSt → LaneSt} (hf : ∀ ln, (f ln).own = ln.own) (i : Nat) :
    seen (s.modLane c l.val f) c l i = seen s c l i := by
  simp only [seen, ideal_modLane hf, State.modLane_ch]

theorem sound_modLane {s : State} {c : Ch} {l : Fin 16} {f : LaneSt → LaneSt} {i : Nat} :
    sound (s.modLane c l.val f) c l i ↔ sound s c l i := by
  simp only [sound, State.modLane_ch]
  rfl

theorem Stored.refl (s : State) (c : Ch) (l : Fin 16) (i : Nat) : Stored s s c l i (Claims.seen s c l i) id :=
  ⟨rfl, fun _ _ => rfl, ⟨_, rfl⟩, rfl, rfl, rfl⟩

variable {s t : State} {c : Ch} {l : Fin 16} {i : Nat} {v : Psn Word} {f g : LaneSt → LaneSt}

theorem Stored.modLane_before (hg : ∀ ln, (g ln).own = ln.own) (h : Stored (s.modLane c l.val g) t c l i v f) :
    Stored s t c l i v (f ∘ g) := by
  obtain ⟨hseen, hothers, ⟨own, hlane⟩, himg, hregs, hframe⟩ := h
  refine ⟨hseen, fun j hj => (hothers j hj).trans (ideal_modLane hg j), ⟨own, ?_⟩, himg.trans (State.modLane_img ..), hregs, hframe⟩
  rw [hlane, State.lane_modLane_same, Function.comp_apply]

theorem Stored.modLane_after (hg : ∀ ln, (g ln).own = ln.own) (h : Stored s t c l i v f) (hown : ∀ ln own, g { ln with own := own } = { g ln with own := own }) :
    Stored s (t.modLane c l.val g) c l i v (g ∘ f) := by
  obtain ⟨hseen, hothers, ⟨own, hlane⟩, himg, hregs, hframe⟩ := h
  refine ⟨(seen_modLane hg i).trans hseen, fun j hj => (ideal_modLane hg j).trans (hothers j hj), ⟨own, ?_⟩,
    (State.modLane_img ..).trans himg, hregs, ?_⟩
  · rw [State.lane_modLane_same, hlane, hown, Function.comp_apply]
  · rw [State.modLane_frame, hframe]

theorem Stored.storeImg (h : sound s c l i) (v : Psn Word) : Stored s (s.storeImg c (some l.val) i v) c l i v id := by
  obtain ⟨herr, hflip⟩ := h
  rw [State.storeImg_lane_clean s c l.val i v herr hflip]
  refine ⟨?_, fun j hj => ?_, ⟨FMap.set none (s.lane' c l.val).own i (some v.v), ?_⟩, ?_, rfl, rfl⟩
  · simp only [Claims.seen, ideal_some, State.setPsn_lane, State.lane_modLane_same, State.setPsn_ch, FMap.get_set_same,
      Option.getD_some]
  · simp only [ideal_some, State.setPsn_lane, State.lane_modLane_same, State.setPsn_ch, FMap.get_set_ne _ _ _ hj,
      State.modLane_img]
  · rw [State.setPsn_lane, State.lane_modLane_same]
    rfl
  · rw [State.setPsn_ch, State.modLane_ch]

/-- A sound word reads as the lane sees it. -/
theorem readImg_sound (h : sound s c l i) : s.readImg c (some l.val) i = (Claims.seen s c l i, s) :=
  State.readImg_clean s c (some l.val) i h.1

/-- A word with one bit put to a value. -/
def putBit (w : Word) (k : Nat) (b : Bool) : Word := if b then w ||| BitVec.ofNat 32 (2 ^ k) else w &&& ~~~BitVec.ofNat 32 (2 ^ k)

theorem getLsbD_twoPow {k n : Nat} (hn : n < 32) : (BitVec.ofNat 32 (2 ^ k)).getLsbD n = decide (n = k) := by
  rw [BitVec.getLsbD_ofNat, Nat.testBit_two_pow, decide_eq_true hn, Bool.true_and]
  exact decide_eq_decide.mpr eq_comm

theorem getLsbD_putBit (w : Word) {k n : Nat} (hn : n < 32) (b : Bool) : (putBit w k b).getLsbD n = if n = k then b else w.getLsbD n := by
  cases b
  · rw [putBit, if_neg Bool.false_ne_true, BitVec.getLsbD_and, BitVec.getLsbD_not, getLsbD_twoPow hn]
    by_cases h : n = k <;> simp [h, hn]
  · rw [putBit, if_pos rfl, BitVec.getLsbD_or, getLsbD_twoPow hn]
    by_cases h : n = k <;> simp [h]

theorem getLsbD_putBit_if (acts : Bool) (w : Word) {k n : Nat} (hn : n < 32) (b : Bool) :
    (if acts then putBit w k b else w).getLsbD n = if n = k ∧ acts = true then b else w.getLsbD n := by
  cases acts
  · simp
  · simp [getLsbD_putBit w hn]

/-- A clean store of one bit into a clean word. -/
theorem Stored.storeBit {b : BitAddr} (h : sound s c l (b.toNat / 32)) (hp : (Claims.seen s c l (b.toNat / 32)).p = false) (acts v : Bool) :
    Stored s (s.storeBit c l.val b acts v false) c l (b.toNat / 32)
      ⟨if acts then putBit (Claims.seen s c l (b.toNat / 32)).v (b.toNat % 32) v else (Claims.seen s c l (b.toNat / 32)).v, false⟩ id := by
  have hi : Img.ofBit b.toNat = b.toNat / 32 := rfl
  simp only [State.storeBit, hi, readImg_sound h]
  rcases hw : Claims.seen s c l (b.toNat / 32) with ⟨w, p⟩
  obtain rfl : p = false := by rwa [hw] at hp
  cases acts
  · exact hw ▸ Stored.refl s c l (b.toNat / 32)
  · exact Stored.storeImg h _

/-! ### The rows that store -/

/-- One instruction further, with the bits `m` of word `k` in the dirty set. -/
def nextDirty (k : Nat) (m : Word) (ln : LaneSt) : LaneSt := { next ln with dirty := addDirty ln.dirty [(k, m)] }

/-- A row that names the word `k` as its destination, where its effect is a store there. -/
theorem exec_stored {r : LInstr} {k : Nat} {m : Word} (hrun : runs s c l) (hdirty : r.dirty = [(k, m)])
    (heff : Stored (fetched s c l) (effOf c l.val r (fetched s c l)) c l k v f) (hnext : isNext s c l (rowOf c l r)) :
    ∃ t, exec (rowOf c l r) s = .next t ∧ Stored (fetched s c l) t c l k v (nextDirty k m ∘ f) := by
  obtain ⟨hready, hfetch⟩ := hrun
  have hexec : exec (rowOf c l r) s = .next ((effOf c l.val r (fetched s c l)).modLane c l.val (nextDirty k m)) := by
    rw [exec_rowOf, State.laneStep_eq s c l r _ hready (hnext.trans (word_rowOf c l r)) hfetch, hdirty]
    rfl
  exact ⟨_, hexec, Stored.modLane_after (fun _ => rfl) heff fun _ _ => rfl⟩

/-- The destination is in the lane's dirty set. -/
theorem Stored.dirty {k : Nat} {m : Word} (h : Stored s t c l k v (nextDirty k m ∘ f)) :
    FMap.get 0 (t.lane' c l.val).dirty k = FMap.get 0 (f (s.lane' c l.val)).dirty k ||| m := by
  obtain ⟨own, hlane⟩ := h.lane
  simp [hlane, nextDirty, addDirty]

theorem Stored.dirty_bit {k n : Nat} (hn : n < 32) (h : Stored s t c l k v (nextDirty k (BitVec.ofNat 32 (2 ^ n)) ∘ f)) :
    (FMap.get 0 (t.lane' c l.val).dirty k).getLsbD n = true := by
  rw [h.dirty, BitVec.getLsbD_or, getLsbD_twoPow hn]
  simp

/-- An edge sets BA from BA and its marker, and with ZE at 1 puts the previous BA into the marker. -/
theorem Stored.effEdge {m : BitAddr} (h : sound s c l (m.toNat / 32)) (hw : (Claims.seen s c l (m.toNat / 32)).p = false)
    (hba : (s.lane' c l.val).ba.p = false) (hze : (s.lane' c l.val).ze.p = false) (e : Bool → Bool → Bool) :
    Stored s (effEdge e c l.val m s) c l (m.toNat / 32)
      ⟨if (s.lane' c l.val).ze.v then putBit (Claims.seen s c l (m.toNat / 32)).v (m.toNat % 32) (s.lane' c l.val).ba.v
        else (Claims.seen s c l (m.toNat / 32)).v, false⟩
      fun ln => { ln with ba := ⟨e (s.lane' c l.val).ba.v ((Claims.seen s c l (m.toNat / 32)).v.getLsbD (m.toNat % 32)), false⟩ } := by
  have hread : s.laneBit c l.val m = (⟨(Claims.seen s c l (m.toNat / 32)).v.getLsbD (m.toNat % 32), false⟩, s) := by
    have hi : Img.ofBit m.toNat = m.toNat / 32 := rfl
    simp only [State.laneBit, hi, readImg_sound h, hw, State.laneTook, Bool.false_eq_true, if_false]
  simp only [Machine.effEdge, hread, hba, hze, Bool.or_false]
  generalize e _ _ = x
  have hset : Claims.seen (s.setBa c l.val x false) c l (m.toNat / 32) = Claims.seen s c l (m.toNat / 32) :=
    seen_modLane (f := fun ln => { ln with ba := ⟨x, false⟩ }) (fun _ => rfl) _
  have hs := Stored.storeBit (s := s.setBa c l.val x false) (sound_modLane.mpr h) ((congrArg Psn.p hset).trans hw) (s.lane' c l.val).ze.v
    (s.lane' c l.val).ba.v
  rw [hset] at hs
  exact Stored.modLane_before (g := fun ln => { ln with ba := ⟨x, false⟩ }) (f := id) (fun _ => rfl) hs

/-- `STW` writes WA where ZE is 1. -/
theorem Stored.effStw {a : WordAddr} (h : sound s c l (0x2000 + a.toNat)) (hwa : (s.lane' c l.val).wa.p = false)
    (hze : (s.lane' c l.val).ze.p = false) :
    Stored s (effStw c l.val a s) c l (0x2000 + a.toNat)
      (if (s.lane' c l.val).ze.v then ⟨(s.lane' c l.val).wa.v, false⟩ else Claims.seen s c l (0x2000 + a.toNat)) id := by
  simp only [Machine.effStw, hwa, hze, Bool.or_false, Bool.false_eq_true, if_false]
  split
  · exact Stored.storeImg h _
  · exact Stored.refl s c l _

/-! ### The obligations -/

theorem edgesUseAndUpdateMarker_holds : edgesUseAndUpdateMarker := by
  intro c l m s hrun u i w ln x hsound hw hba hze
  have row (r : LInstr) (e : Bool → Bool → Bool) (hdirty : r.dirty = [(i, BitVec.ofNat 32 (2 ^ (m.toNat % 32)))])
      (heff : effOf c l.val r = effEdge e c l.val m) (hnext : isNext s c l (rowOf c l r)) : ∃ t, exec (rowOf c l r) s = .next t ∧
      (t.lane' c l.val).ba = ⟨e ln.ba.v x, false⟩ ∧ (Claims.seen t c l i).p = false ∧
      (∀ n, n < 32 → (Claims.seen t c l i).v.getLsbD n = if n = m.toNat % 32 ∧ ln.ze.v then ln.ba.v else w.v.getLsbD n) ∧
      (∀ j, j ≠ i → t.ideal c (some l.val) j = u.ideal c (some l.val) j) ∧
      (FMap.get 0 (t.lane' c l.val).dirty i).getLsbD (m.toNat % 32) = true ∧
      (t.ch c).img = (u.ch c).img ∧ t.regs = u.regs ∧ t = { u with chs := t.chs } := by
    obtain ⟨t, hexec, ht⟩ := exec_stored hrun hdirty (congrFun heff _ ▸ Stored.effEdge hsound hw hba hze e) hnext
    obtain ⟨own, hlane⟩ := ht.lane
    refine ⟨t, hexec, by rw [hlane]; rfl, by rw [ht.seen], fun n hn => ?_, ht.others, ht.dirty_bit (Nat.mod_lt _ (by decide)), ht.img,
      ht.regs, ht.frame⟩
    rw [ht.seen]
    exact getLsbD_putBit_if _ _ hn _
  intro re
  cases re
  · exact row (.fedge m) (fun a m => !a && m) rfl rfl
  · exact row (.redge m) (fun a m => a && !m) rfl rfl

theorem storesWriteTheReplica_holds : storesWriteTheReplica := by
  intro c l s hrun u ln hze
  refine ⟨fun b => ?_, fun a => ?_⟩
  · intro i w hsound hw hba
    have row (r : LInstr) (acts val : Bool → Bool → Bool) (hdirty : r.dirty = [(i, BitVec.ofNat 32 (2 ^ (b.toNat % 32)))])
        (heff : effOf c l.val r = effStore acts val c l.val b) (hnext : isNext s c l (rowOf c l r)) : ∃ t, exec (rowOf c l r) s = .next t ∧
        (∀ n, n < 32 → (Claims.seen t c l i).v.getLsbD n =
          if n = b.toNat % 32 ∧ acts ln.ba.v ln.ze.v = true then val ln.ba.v ln.ze.v else w.v.getLsbD n) ∧
        (Claims.seen t c l i).p = false ∧
        (∀ j, j ≠ i → t.ideal c (some l.val) j = u.ideal c (some l.val) j) ∧
        (FMap.get 0 (t.lane' c l.val).dirty i).getLsbD (b.toNat % 32) = true ∧
        (t.lane' c l.val).ba = ln.ba ∧ (t.ch c).img = (u.ch c).img ∧ t.regs = u.regs ∧ t = { u with chs := t.chs } := by
      have hstore : effStore acts val c l.val b u = u.storeBit c l.val b (acts ln.ba.v ln.ze.v) (val ln.ba.v ln.ze.v) false := by
        rw [effStore, hba, hze]
        rfl
      obtain ⟨t, hexec, ht⟩ := exec_stored hrun hdirty ((congrFun heff _).trans hstore ▸ Stored.storeBit hsound hw _ _) hnext
      obtain ⟨own, hlane⟩ := ht.lane
      refine ⟨t, hexec, fun n hn => ?_, by rw [ht.seen], ht.others, ht.dirty_bit (Nat.mod_lt _ (by decide)), by rw [hlane]; rfl, ht.img,
        ht.regs, ht.frame⟩
      rw [ht.seen]
      exact getLsbD_putBit_if _ _ hn _
    intro e he
    simp only [List.mem_cons, List.not_mem_nil, or_false] at he
    obtain rfl | rfl | rfl | rfl := he
    · exact row (.out b) (fun _ _ => true) (fun a z => a && z) rfl rfl
    · exact row (.outn b) (fun _ _ => true) (fun a z => !a && z) rfl rfl
    · exact row (.set b) (fun a z => a && z) (fun _ _ => true) rfl rfl
    · exact row (.rst b) (fun a z => a && z) (fun _ _ => false) rfl rfl
  · intro i w hsound hwa hnext
    obtain ⟨t, hexec, ht⟩ := exec_stored (r := .stw a) (k := i) hrun rfl (Stored.effStw hsound hwa hze) hnext
    obtain ⟨own, hlane⟩ := ht.lane
    refine ⟨t, hexec, ht.seen, ht.others, ?_, by rw [hlane]; rfl, ht.img, ht.regs, ht.frame⟩
    rw [ht.dirty]
    exact BitVec.or_allOnes

/-- Settles O3: an edge and a store are each one store into the lane's replica (`Stored`). -/
theorem storesAndEdgeInstructions : Obligations.StoresAndEdgeInstructions :=
  ⟨edgesUseAndUpdateMarker_holds, storesWriteTheReplica_holds⟩

end Sys2Proof.Claims
end

section
/-! The control instructions (R123, R124) and a fetch that fails (R131). -/

namespace Sys2Proof.Claims

open Sys2Proof Sys2Proof.Machine

theorem onlyLane_refl (s : State) (c : Ch) (l : Nat) : onlyLane s s c l fun ln => ln :=
  ⟨rfl, fun _ _ => rfl, fun _ _ => rfl, rfl, rfl⟩

/-- Where its word is fetched, a row runs its effect and goes on by one instruction. -/
theorem exec_runs {s : State} {c : Ch} {l : Fin 16} {i : LInstr} (hrun : runs s c l) (hdirty : i.dirty = [])
    (hnext : isNext s c l (rowOf c l i)) : exec (rowOf c l i) s = .next ((effOf c l.val i (fetched s c l)).modLane c l.val next) := by
  obtain ⟨hready, hfetch⟩ := hrun
  rw [exec_rowOf, State.laneStep_eq s c l i _ hready (hnext.trans (word_rowOf c l i)) hfetch, hdirty]
  rfl

/-! ### `ASSERT` -/

/-- `ASSERT` adds its number to those raised where it raises. -/
theorem effAssert_eq (c : Ch) (l : Nat) (a : BitVec 10) (s : State) :
    effAssert c l a s =
      if (s.lane' c l).ze.p || ((s.lane' c l).ze.v && (!(s.lane' c l).ba.v || (s.lane' c l).ba.p)) then
        s.modCh c fun h => { h with raised := if h.raised.contains a.toNat then h.raised else h.raised ++ [a.toNat] }
      else s := by
  unfold effAssert
  have h (x : Chan) : (if x.raised.contains a.toNat then x else { x with raised := x.raised ++ [a.toNat] }) =
      { x with raised := if x.raised.contains a.toNat then x.raised else x.raised ++ [a.toNat] } := by split <;> rfl
  simp only [h]

theorem mem_addOnce {l : List Nat} {a x : Nat} : x ∈ (if l.contains a then l else l ++ [a]) ↔ x ∈ l ∨ x = a := by
  by_cases h : a ∈ l
  · simp only [List.contains_iff_mem, h, if_true]
    exact ⟨.inl, fun hx => hx.elim id fun e => e ▸ h⟩
  · simp [h]

theorem nodup_addOnce {l : List Nat} {a : Nat} (hl : l.Nodup) : (if l.contains a then l else l ++ [a]).Nodup := by
  by_cases h : a ∈ l
  · simpa [h] using hl
  · simp only [List.contains_iff_mem, h, if_false]
    exact List.nodup_append.mpr ⟨hl, List.nodup_singleton a, fun x hx y hy e => h (List.mem_singleton.mp hy ▸ e ▸ hx)⟩

/-- What `ASSERT` leaves: its lane, the image, the registers and everything but the channels. -/
theorem exec_assert {c : Ch} {l : Fin 16} {s : State} (a : BitVec 10) (hrun : runs s c l) (hnext : isNext s c l (.assert c l a)) :
    let u := fetched s c l
    let ln := u.lane' c l.val
    let raises := ln.ze.p || (ln.ze.v && (!ln.ba.v || ln.ba.p))
    ∃ t, exec (.assert c l a) s = .next t ∧
      (t.ch c).raised = (if raises then (if (u.ch c).raised.contains a.toNat then (u.ch c).raised else (u.ch c).raised ++ [a.toNat])
        else (u.ch c).raised) ∧
      t.lane' c l.val = next ln ∧ (t.ch c).img = (u.ch c).img ∧ t.regs = u.regs ∧ t = { u with chs := t.chs } := by
  intro u ln raises
  refine ⟨_, exec_runs (i := .assert a) hrun rfl hnext, ?_⟩
  rw [show effOf c l.val (.assert a) (fetched s c l) = _ from effAssert_eq c l.val a u]
  cases hr : raises
  · rw [if_neg (by simpa [raises] using hr)]
    refine ⟨?_, State.lane_modLane_same .., State.modLane_img .., rfl, rfl⟩
    rw [State.modLane_ch]
    rfl
  · rw [if_pos hr]
    refine ⟨?_, ?_, ?_, rfl, rfl⟩
    · rw [State.modLane_ch, State.ch_modCh_same]
      rfl
    · rw [State.lane_modLane_same]
      refine congrArg next (State.lane_modCh_of_lanes u c _ ?_ l.val)
      exact fun _ => rfl
    · rw [State.modLane_img, State.ch_modCh_same]

/-- Settles O8: `PHASE` and `END` are lane updates, `ASSERT` adds its number once (`exec_assert`). -/
theorem controlInstructions : Obligations.ControlInstructions := by
  intro c l s hrun u ln
  refine ⟨laneTo_of_onlyLane (i := .nop) hrun rfl (onlyLane_refl _ c l.val), laneTo_rowOf (i := .phase) hrun rfl rfl,
    laneTo_rowOf (i := .endp) hrun rfl rfl, fun a => ?_⟩
  intro raises hnext
  obtain ⟨t, hexec, hraised, hkept⟩ := exec_assert a hrun hnext
  refine ⟨t, hexec, fun x => ?_, fun hnodup => ?_, hkept⟩
  · rw [hraised]
    split
    · next h => exact mem_addOnce.trans (or_congr_right (and_iff_right h).symm)
    · next h => exact (or_iff_left fun hx => h hx.1).symm
  · rw [hraised]
    split
    · exact nodup_addOnce hnodup
    · exact hnodup

/-! ### A failed fetch -/

/-- A lane whose registers and stacks are poisoned. -/
def poisoned (ln : LaneSt) : LaneSt :=
  { ln with
    ba := ⟨ln.ba.v, true⟩, wa := ⟨ln.wa.v, true⟩, ze := ⟨ln.ze.v, true⟩
    bstk := ln.bstk.map fun e => ⟨e.v, true⟩
    zstk := ln.zstk.map fun e => ⟨e.v, true⟩ }

theorem poisonedFetch_eq {i : LInstr} (hdirty : i.dirty = []) (hphase : i ≠ .phase) (hend : i ≠ .endp) (s : State) (c : Ch) (l : Nat) :
    s.poisonedFetch c l i = (s.laneTook c l true).modLane c l poisoned := by
  unfold State.poisonedFetch
  rw [hdirty]
  refine modLane_congr ?_
  rw [List.map_nil, List.append_nil]
  cases i with
  | phase => exact absurd rfl hphase
  | endp => exact absurd rfl hend
  | _ => rfl

/-- Where its fetch fails, a row poisons its lane and goes on by one instruction. -/
theorem exec_poisoned {s : State} {c : Ch} {l : Fin 16} {i : LInstr} (hready : s.laneReady c l.val = true)
    (hfetch : (s.fetch c l.val).1 = true) (hdirty : i.dirty = []) (hphase : i ≠ .phase) (hend : i ≠ .endp)
    (hnext : isNext s c l (rowOf c l i)) :
    exec (rowOf c l i) s =
      .next ((((fetched s c l).laneTook c l.val true).modLane c l.val poisoned).modLane c l.val next) := by
  have hi : s.laneNext c l.val = some i := hnext.trans (word_rowOf c l i)
  rw [exec_rowOf, ← poisonedFetch_eq hdirty hphase hend]
  simp only [State.laneStep, State.laneDo, hready, hi, hfetch, hdirty, decide_true, Bool.and_self, if_true]
  rfl

/-- Settles O9: none of the five instructions names a destination or closes a phase (`exec_poisoned`). -/
theorem poisonedFetchPoisonsLane : Obligations.PoisonedFetchPoisonsLane := by
  intro c l x s hready hfetch ln
  have row (i : LInstr) (hdirty : i.dirty = []) (hphase : i ≠ .phase) (hend : i ≠ .endp) (hnext : isNext s c l (rowOf c l i)) :
      ∃ t, exec (rowOf c l i) s = .next t ∧
        t.lane' c l.val = { next ln with
          ba := ⟨ln.ba.v, true⟩, wa := ⟨ln.wa.v, true⟩, ze := ⟨ln.ze.v, true⟩, psn := true,
          bstk := ln.bstk.map fun e => ⟨e.v, true⟩, zstk := ln.zstk.map fun e => ⟨e.v, true⟩ } ∧
        (∀ j, j ≠ l.val → t.lane' c j = (fetched s c l).lane' c j) ∧ (t.ch c).img = ((fetched s c l).ch c).img := by
    refine ⟨_, exec_poisoned hready hfetch hdirty hphase hend hnext, ?_, fun j hj => ?_, ?_⟩
    · rw [State.lane_modLane_same, State.lane_modLane_same, State.laneTook_lane, Bool.or_true]
      rfl
    · rw [State.lane_modLane_ne _ _ _ hj, State.lane_modLane_ne _ _ _ hj]
      exact State.lane_modLane_ne (fetched s c l) c (fun ln => { ln with psn := true }) hj
    · rw [State.modLane_img, State.modLane_img]
      exact State.modLane_img (fetched s c l) c l.val fun ln => { ln with psn := true }
  intro i hi
  simp only [List.mem_cons, List.not_mem_nil, or_false] at hi
  obtain rfl | rfl | rfl | rfl | rfl := hi
  · exact row (.add x) rfl nofun nofun
  · exact row (.ceq x) rfl nofun nofun
  · exact row .nop rfl nofun nofun
  · exact row .bpush rfl nofun nofun
  · exact row .zoff rfl nofun nofun

end Sys2Proof.Claims
end

section
/-! Timers and counters (R94, R118 to R122): a step of one is the store of its state, `TcStored`, and an update of its lane. -/

namespace Sys2Proof.Claims

open Sys2Proof Sys2Proof.Machine

/-! ### The store of a state word -/

/-- The states of a channel's counters or of its timers. -/
def tcCells (counter : Bool) (h : Chan) : FMap Word := if counter then h.counters else h.timers

/-- `t` is `s` with `v` as the state of timer or counter `n`, and with lane `l` as `f` says. -/
structure TcStored (s t : State) (c : Ch) (l : Nat) (counter : Bool) (n : Nat) (v : Word) (f : LaneSt → LaneSt) : Prop where
  value : FMap.get 0 (tcCells counter (t.ch c)) n = v
  others : ∀ m, m ≠ n → FMap.get 0 (tcCells counter (t.ch c)) m = FMap.get 0 (tcCells counter (s.ch c)) m
  lane : t.lane' c l = f (s.lane' c l)
  img : (t.ch c).img = (s.ch c).img
  regs : t.regs = s.regs
  frame : t = { s with chs := t.chs }

variable {s t q : State} {c : Ch} {l : Nat} {counter : Bool} {n : Nat} {v : Word} {f g : LaneSt → LaneSt}

theorem TcStored.refl (s : State) (c : Ch) (l : Nat) (counter : Bool) (n : Nat) :
    TcStored s s c l counter n (FMap.get 0 (tcCells counter (s.ch c)) n) fun ln => ln :=
  ⟨rfl, fun _ _ => rfl, rfl, rfl, rfl, rfl⟩

theorem TcStored.then_onlyLane (h : TcStored s q c l counter n v f) (hl : onlyLane q t c l g) :
    TcStored s t c l counter n v (g ∘ f) := by
  obtain ⟨hvalue, hothers, hlane, himg, hregs, hframe⟩ := h
  obtain ⟨hl, -, -, hch, ht⟩ := hl
  have hcells : tcCells counter (t.ch c) = tcCells counter (q.ch c) := by rw [hch]; rfl
  refine ⟨hcells ▸ hvalue, hcells ▸ hothers, by rw [hl, hlane]; rfl, by rw [hch]; exact himg, ?_, ?_⟩
  · rw [ht]; exact hregs
  · rw [ht, hframe]

theorem TcStored.storeTc (h : FMap.get 0 (s.ch c).errs (if counter then Miu.cwCounter n else Miu.cwTimer n) = 0)
    (hf : s.flipHits c (if counter then Miu.cwCounter n else Miu.cwTimer n) = false) (v : Psn Word) :
    TcStored s (s.storeTc c counter n v) c l counter n v.v fun ln => ln := by
  unfold State.storeTc
  dsimp only
  rw [State.writeMapHalf_clean s c _ n h hf]
  refine ⟨?_, fun m hm => ?_, ?_, ?_, rfl, rfl⟩
  · cases counter <;> simp [tcCells, State.setPsn_ch]
  · cases counter <;> simp [tcCells, State.setPsn_ch, FMap.get_set_ne _ _ _ hm]
  · rw [State.setPsn_lane]
    refine State.lane_modCh_of_lanes _ _ _ (fun _ => ?_) _
    cases counter <;> rfl
  · cases counter <;> simp [State.setPsn_ch]

/-! ### The lane's part of a step -/

/-- BA takes the result and WA the value that the variant loads. -/
def tcResult (b : Bool) (w : Option Word) (ln : LaneSt) : LaneSt :=
  { ln with ba := ⟨b, false⟩, wa := (w.map fun x => ⟨x, false⟩).getD ln.wa }

theorem onlyLane_tcResult (s : State) (c : Ch) (l : Nat) (b : Bool) (w : Option Word) :
    onlyLane s ((s.setBa c l b false).setWaOpt c l w false) c l (tcResult b w) := by
  have hb : onlyLane s (s.setBa c l b false) c l fun ln => { ln with ba := ⟨b, false⟩ } := onlyLane_modLane s c l _
  cases w with
  | none => exact hb
  | some x => exact hb.trans (onlyLane_modLane _ c l fun ln => { ln with wa := ⟨x, false⟩ })

/-! ### Timers -/

theorem toNat_timerWord {t : TimerSt} (h : t.e < 16777216) :
    (timerWord t).toNat = t.e + bitNat t.q * 16777216 + bitNat t.prev * 33554432 := by
  have hq : bitNat t.q ≤ 1 := by cases t.q <;> decide
  have hp : bitNat t.prev ≤ 1 := by cases t.prev <;> decide
  simp only [timerWord, BitVec.toNat_ofNat]
  omega

/-- The fields of a state word are those it was made of. -/
theorem timerOf_timerWord {t : TimerSt} (h : t.e < 16777216) : timerOf (timerWord t) = t := by
  have hw := toNat_timerWord h
  have hbit (b : Bool) : decide (bitNat b = 1) = b := by cases b <;> rfl
  have hq : bitNat t.q ≤ 1 := by cases t.q <;> decide
  have hp : bitNat t.prev ≤ 1 := by cases t.prev <;> decide
  have he : ((timerWord t).extractLsb' 0 24).toNat = t.e := by
    rw [BitVec.extractLsb'_toNat, hw, Nat.shiftRight_zero]
    omega
  have h24 : (timerWord t).getLsbD 24 = t.q := by
    rw [BitVec.getLsbD, Nat.testBit_eq_decide_div_mod_eq, hw]
    exact (decide_eq_decide.mpr (by omega)).trans (hbit t.q)
  have h25 : (timerWord t).getLsbD 25 = t.prev := by
    rw [BitVec.getLsbD, Nat.testBit_eq_decide_div_mod_eq, hw]
    exact (decide_eq_decide.mpr (by omega)).trans (hbit t.prev)
  rw [timerOf, he, h24, h25]

/-- What a timer's row does where nothing is poisoned: with ZE at 1 the state steps by `f`, without it the state stands. -/
def timerStep (f : Nat → Bool → TimerSt → TimerSt × Bool) (ze : Bool) (pt : Nat) (inp : Bool) (st : TimerSt) : TimerSt × Bool :=
  if ze then f pt inp st else (st, st.q)

theorem effTimer_stored {f : Nat → Bool → TimerSt → TimerSt × Bool} {l : Fin 16} {k : TVar} {n : BitVec 12} {b : Bank}
    (hb : (s.ch c).run = some b) (hclean : cleanTc s c l false n.toNat) :
    let w := FMap.get 0 (s.ch c).timers n.toNat
    let r := timerStep f (s.lane' c l.val).ze.v (b.tPreset n.toNat) (s.lane' c l.val).ba.v (timerOf w)
    TcStored s (effTimer f c l.val k n s) c l.val false n.toNat (if (s.lane' c l.val).ze.v then timerWord r.1 else w)
      (tcResult r.2 (timerWa k (b.tPreset n.toNat) r.1)) := by
  intro w r
  obtain ⟨herr, hflip, hpsn, hba, hze⟩ := hclean
  simp only [Bool.false_eq_true, if_false] at herr hflip hpsn
  have hread : s.readTc c false n.toNat = (⟨w, false⟩, s) := by
    rw [State.readTc_clean s c false n.toNat (by simpa using herr)]
    simp [w, hpsn]
  simp only [effTimer, hread, hb, hba, hze, State.laneTook, Bool.false_eq_true, if_false, Bool.or_false, Option.map_some,
    Option.getD_some]
  by_cases hz : (s.lane' c l.val).ze.v = true
  · simp only [hz, if_true, r, timerStep]
    exact (TcStored.storeTc (l := l.val) herr hflip ⟨_, false⟩).then_onlyLane (onlyLane_tcResult _ c l.val _ _)
  · simp only [hz, r, timerStep]
    exact (TcStored.refl s c l.val false n.toNat).then_onlyLane (onlyLane_tcResult _ c l.val _ _)

theorem timerOn_eq (pt : Nat) (inp : Bool) (st : TimerSt) :
    timerOn pt inp st = (⟨if inp then (if st.e < pt then st.e + 1 else st.e) else 0, inp && (st.q || decide (pt ≤ st.e)), inp⟩,
      inp && (st.q || decide (pt ≤ st.e))) := by
  unfold timerOn
  cases inp
  · simp
  · by_cases h : st.e < pt
    · simp [h]
    · simp [h, Nat.not_lt.mp h]

theorem timerOff_eq (pt : Nat) (inp : Bool) (st : TimerSt) :
    timerOff pt inp st = (⟨if inp then 0 else if st.q && decide (st.e < pt) then st.e + 1 else st.e, inp || (st.q && decide (st.e < pt)),
      inp⟩, inp || (st.q && decide (st.e < pt))) := by
  unfold timerOff
  cases inp
  · cases hq : st.q
    · simp [hq]
    · by_cases h : st.e < pt <;> simp [h]
  · simp

theorem timerPulse_eq (pt : Nat) (inp : Bool) (st : TimerSt) :
    let start := !st.q && inp && !st.prev && decide (0 < pt)
    let e1 := if start then 0 else st.e
    timerPulse pt inp st = (⟨if st.q || start then e1 + 1 else st.e, (st.q || start) && decide (e1 + 1 < pt), inp⟩, st.q || start) := by
  intro start e1
  unfold timerPulse
  by_cases h : start = true
  · simp [e1, h, show (!st.q && inp && !st.prev && decide (0 < pt)) = true from h]
  · simp only [Bool.not_eq_true] at h
    rw [show (!st.q && inp && !st.prev && decide (0 < pt)) = false from h]
    cases hq : st.q <;> simp [e1, h, hq]

theorem ofNat_sub_ofNat (a b : Nat) : BitVec.ofNat 32 a - BitVec.ofNat 32 b = BitVec.ofInt 32 ((a : Int) - b) := by
  rw [Int.sub_eq_add_neg, BitVec.ofInt_add, BitVec.ofInt_neg, BitVec.sub_eq_add_neg]
  simp

/-- A timer's row on the fields of the state. -/
theorem timer_row {f : Nat → Bool → TimerSt → TimerSt × Bool} {l : Fin 16} {k : TVar} {n : BitVec 12} {b : Bank} {s : State} {i : LInstr}
    {st' : TimerSt × Bool} (hrun : runs s c l) (hdirty : i.dirty = []) (hi : effOf c l.val i = effTimer f c l.val k n)
    (hb : ((fetched s c l).ch c).run = some b) (hclean : cleanTc (fetched s c l) c l false n.toNat)
    (hf : timerStep f ((fetched s c l).lane' c l.val).ze.v (b.tPreset n.toNat) ((fetched s c l).lane' c l.val).ba.v
      (timerOf (FMap.get 0 ((fetched s c l).ch c).timers n.toNat)) = st') (he : st'.1.e < 16777216)
    (hnext : isNext s c l (rowOf c l i)) :
    ∃ t v, exec (rowOf c l i) s = .next t ∧ timerOf v = st'.1 ∧
      TcStored (fetched s c l) t c l.val false n.toNat v (next ∘ tcResult st'.2 (timerWa k (b.tPreset n.toNat) st'.1)) := by
  have hs := (effTimer_stored (f := f) (k := k) hb hclean).then_onlyLane (onlyLane_modLane _ c l.val next)
  rw [← hi, hf] at hs
  refine ⟨_, _, exec_runs hrun hdirty hnext, ?_, hs⟩
  split
  · exact timerOf_timerWord he
  · next hz =>
    rw [← hf, timerStep, if_neg hz]

theorem timersStep_holds : timersStep := by
  intro c l k n s b hrun u ln w e q pt inp start e1 hb hclean hpt he1
  have hlt : e < 2 ^ 24 := (w.extractLsb' 0 24).isLt
  have row (i : LInstr) (f : Nat → Bool → TimerSt → TimerSt × Bool) (x : Nat) (q' r : Bool) (hdirty : i.dirty = [])
      (hi : effOf c l.val i = effTimer f c l.val k n) (hf : f pt inp (timerOf w) = (⟨x, q', inp⟩, r)) (hx : x < 2 ^ 24) :
      let e' := if ln.ze.v then x else e
      isNext s c l (rowOf c l i) → ∃ t, exec (rowOf c l i) s = .next t ∧
        (let w' := FMap.get 0 (t.ch c).timers n.toNat
         (w'.extractLsb' 0 24).toNat = e' ∧ w'.getLsbD 24 = (if ln.ze.v then q' else q) ∧
         w'.getLsbD 25 = (if ln.ze.v then inp else w.getLsbD 25)) ∧
        (t.lane' c l.val).ba = ⟨if ln.ze.v then r else q, false⟩ ∧
        (t.lane' c l.val).wa = (match k with
          | .plain => ln.wa
          | .e => ⟨BitVec.ofNat 32 e', false⟩
          | .r => ⟨BitVec.ofInt 32 ((pt : Int) - e'), false⟩) ∧
        (∀ m, m ≠ n.toNat → FMap.get 0 (t.ch c).timers m = FMap.get 0 (u.ch c).timers m) ∧
        (t.ch c).img = (u.ch c).img ∧ t.regs = u.regs ∧ t = { u with chs := t.chs } := by
    intro e' hnext
    have hstep : timerStep f ln.ze.v pt inp (timerOf w) =
        (⟨e', if ln.ze.v then q' else q, if ln.ze.v then inp else w.getLsbD 25⟩, if ln.ze.v then r else q) := by
      rw [timerStep, hf]
      simp only [e']
      cases ln.ze.v <;> rfl
    have he' : e' < 2 ^ 24 := by
      simp only [e']
      split <;> assumption
    obtain ⟨t, v, hexec, hv, hs⟩ := timer_row hrun hdirty hi hb hclean hstep he' hnext
    obtain ⟨he, hq, hp⟩ := TimerSt.mk.inj (hs.value ▸ hv)
    refine ⟨t, hexec, ⟨he, hq, hp⟩, by rw [hs.lane]; rfl, ?_, hs.others, hs.img, hs.regs, hs.frame⟩
    rw [hs.lane]
    cases k with
    | plain => rfl
    | e => rfl
    | r => exact congrArg (Psn.mk · false) (ofNat_sub_ofNat pt e')
  intro x hx
  simp only [List.mem_cons, List.not_mem_nil, or_false] at hx
  obtain rfl | rfl | rfl := hx
  · refine row (.ton k n) timerOn _ _ _ rfl rfl (timerOn_eq _ _ _) ?_
    change (if inp then (if e < pt then e + 1 else e) else 0) < 2 ^ 24
    split_ifs <;> omega
  · refine row (.tof k n) timerOff _ _ _ rfl rfl (timerOff_eq _ _ _) ?_
    change (if inp then 0 else if q && decide (e < pt) then e + 1 else e) < 2 ^ 24
    split_ifs with h1 h2
    · omega
    · simp only [Bool.and_eq_true, decide_eq_true_eq] at h2
      omega
    · omega
  · refine row (.tp k n) timerPulse _ _ _ rfl rfl (timerPulse_eq _ _ _) ?_
    change (if q || start then e1 + 1 else e) < 2 ^ 24
    split_ifs <;> omega

/-! ### Counters -/

theorem readTc_counter {l : Fin 16} {n : BitVec 12} (hclean : cleanTc s c l true n.toNat) :
    s.readTc c true n.toNat = (⟨FMap.get 0 (s.ch c).counters n.toNat, false⟩, s) := by
  obtain ⟨herr, hflip, hpsn, hba, hze⟩ := hclean
  simp only [if_true] at herr hpsn
  rw [State.readTc_clean s c true n.toNat (by simpa using herr)]
  simp [hpsn]

/-- BA, WA and the overflow status of a counting row. -/
def countResult (b : Bool) (w : Option Word) (o : Bool) (ln : LaneSt) : LaneSt := { tcResult b w ln with ovf := ln.ovf || o }

theorem onlyLane_countResult (s : State) (c : Ch) (l : Nat) (b : Bool) (w : Option Word) (o : Bool) :
    onlyLane s (((s.setBa c l b false).setWaOpt c l w false).setOvf c l o) c l (countResult b w o) := by
  have hs := onlyLane_tcResult s c l b w
  cases o
  · exact onlyLane_congr hs (by simp [countResult, tcResult])
  · exact onlyLane_congr (hs.trans (onlyLane_modLane _ c l fun ln => { ln with ovf := true })) (by simp [countResult])

/-- What a counting row does where nothing is poisoned: with ZE at 1 the count steps by `f`, without it the count stands. -/
theorem effCount_stored {f : Bool → Word → Word × Bool} {out : Word → Word → Bool} {l : Fin 16} {k : CVar} {n : BitVec 12} {b : Bank}
    {r : Word × Bool} (hb : (s.ch c).run = some b) (hclean : cleanTc s c l true n.toNat)
    (hr : (if (s.lane' c l.val).ze.v then f (s.lane' c l.val).ba.v (FMap.get 0 (s.ch c).counters n.toNat)
      else (FMap.get 0 (s.ch c).counters n.toNat, false)) = r) :
    TcStored s (effCount f out c l.val k n s) c l.val true n.toNat r.1
      (countResult (out r.1 (b.cPreset n.toNat)) (counterWa k (b.cPreset n.toNat) r.1) r.2) := by
  have hread := readTc_counter hclean
  obtain ⟨herr, hflip, hpsn, hba, hze⟩ := hclean
  simp only [effCount, hread, hb, hba, hze, State.laneTook, Bool.false_eq_true, if_false, Bool.or_false, Option.map_some,
    Option.getD_some]
  by_cases hz : (s.lane' c l.val).ze.v = true
  · simp only [hz, if_true] at hr ⊢
    rw [hr]
    exact (TcStored.storeTc (l := l.val) herr hflip ⟨r.1, false⟩).then_onlyLane (onlyLane_countResult _ c l.val _ _ _)
  · simp only [hz] at hr ⊢
    subst hr
    exact (TcStored.refl s c l.val true n.toNat).then_onlyLane (onlyLane_countResult _ c l.val _ _ false)

theorem effCres_stored {l : Fin 16} {preset : Bool} {n : BitVec 12} {b : Bank} (hb : (s.ch c).run = some b)
    (hclean : cleanTc s c l true n.toNat) :
    TcStored s (effCres c l.val preset n s) c l.val true n.toNat
      (if (s.lane' c l.val).ba.v && (s.lane' c l.val).ze.v then (if preset then b.cPreset n.toNat else 0)
        else FMap.get 0 (s.ch c).counters n.toNat) fun ln => ln := by
  have hread := readTc_counter hclean
  obtain ⟨herr, hflip, hpsn, hba, hze⟩ := hclean
  simp only [effCres, hread, hb, hba, hze, State.laneTook, Bool.false_eq_true, if_false, Bool.or_false, Option.map_some,
    Option.getD_some]
  by_cases hz : (s.lane' c l.val).ze.v = true
  · simp only [hz, if_true, Bool.and_true]
    exact TcStored.storeTc (l := l.val) herr hflip ⟨_, false⟩
  · simp only [hz, if_false, Bool.and_false, Bool.false_eq_true]
    exact TcStored.refl s c l.val true n.toNat

theorem countUp_acts (z b : Bool) (v : Word) :
    (if z then countUp b v else (v, false)) =
      (if (b && z) && decide (v ≠ 0xFFFFFFFF#32) then v + 1 else v, (b && z) && decide (v = 0xFFFFFFFF#32)) := by
  unfold countUp
  by_cases hv : v = 0xFFFFFFFF#32 <;> cases z <;> cases b <;> simp [hv]

theorem countDown_acts (z b : Bool) (v : Word) :
    (if z then countDown b v else (v, false)) =
      (if (b && z) && decide (v ≠ 0) then v - 1 else v, (b && z) && decide (v = 0)) := by
  unfold countDown
  by_cases hv : v = 0#32 <;> cases z <;> cases b <;> simp [hv]

theorem countersStep_holds : countersStep := by
  intro c l n s b hrun u ln v pv acts up down kept hb hclean
  have row (i : LInstr) (k : CVar) (f : Bool → Word → Word × Bool) (out : Word → Word → Bool) (x : Word) (o : Bool) (hdirty : i.dirty = [])
      (hi : effOf c l.val i = effCount f out c l.val k n) (hf : (if ln.ze.v then f ln.ba.v v else (v, false)) = (x, o))
      (hnext : isNext s c l (rowOf c l i)) : ∃ t, exec (rowOf c l i) s = .next t ∧ FMap.get 0 (t.ch c).counters n.toNat = x ∧
        (t.lane' c l.val).ba = ⟨out x pv, false⟩ ∧ (t.lane' c l.val).ovf = (ln.ovf || o) ∧
        (t.lane' c l.val).wa = (match (generalizing := false) k with
          | .plain => ln.wa
          | .v => ⟨x, false⟩
          | .r => ⟨pv - x, false⟩) ∧ kept t := by
    have hs := (effCount_stored (out := out) (k := k) hb hclean hf).then_onlyLane (onlyLane_modLane _ c l.val next)
    rw [← hi] at hs
    refine ⟨_, exec_runs hrun hdirty hnext, hs.value, by rw [hs.lane]; rfl, by rw [hs.lane]; rfl, ?_, hs.others, hs.img, hs.regs, hs.frame⟩
    rw [hs.lane]
    cases k <;> rfl
  refine ⟨fun k x hx => ?_, fun preset hnext => ?_⟩
  · simp only [List.mem_cons, List.not_mem_nil, or_false] at hx
    obtain rfl | rfl := hx
    · refine row (.ctu k n) k countUp (fun v pv => decide (pv.toNat ≤ v.toNat)) _ _ rfl rfl ?_
      exact countUp_acts _ _ _
    · refine row (.ctd k n) k countDown (fun v _ => v == 0) _ _ rfl rfl ?_
      exact countDown_acts _ _ _
  · have hs := (effCres_stored (preset := preset) hb hclean).then_onlyLane (onlyLane_modLane _ c l.val next)
    exact ⟨_, exec_runs (i := .cres preset n) hrun rfl hnext, hs.value, (congrArg LaneSt.ba hs.lane).trans rfl,
      (congrArg LaneSt.wa hs.lane).trans rfl, (congrArg LaneSt.ovf hs.lane).trans rfl, hs.others, hs.img, hs.regs, hs.frame⟩

/-- Settles O7: a timer's row steps its state (`timer_row`), a counter's its count (`effCount_stored`). -/
theorem timersAndCountersStep : Obligations.TimersAndCountersStep := ⟨timersStep_holds, countersStep_holds⟩

end Sys2Proof.Claims
end

section
/-! The phase barrier (R81 to R85): the merge of the lanes' dirty words changes the image and the signature of its channel only,
`Merged`, and each of its words once. -/

namespace Sys2Proof.Claims

open Sys2Proof Sys2Proof.Machine

/-! ### Folds and maps -/

theorem foldSt_inv {α : Type} {P : State → Prop} {f : α → State → State} {l : List α} (h : ∀ x ∈ l, ∀ s, P s → P (f x s)) {s : State}
    (hs : P s) : P (foldSt l f s) := by
  induction l generalizing s with
  | nil => exact hs
  | cons x l ih => exact ih (fun y hy => h y (List.mem_cons_of_mem x hy)) (h x List.mem_cons_self s hs)

/-- What one step of a fold establishes, and every step keeps, holds at its end. -/
theorem foldSt_established {α : Type} {P Q : State → Prop} {f : α → State → State} {l : List α} {x : α} (hx : x ∈ l)
    (hP : ∀ y ∈ l, ∀ s, P s → P (f y s)) (hxQ : ∀ s, P s → Q (f x s)) (hQ : ∀ y ∈ l, ∀ s, P s → Q s → Q (f y s)) {s : State}
    (hs : P s) : Q (foldSt l f s) := by
  induction l generalizing s with
  | nil => cases hx
  | cons y l ih =>
    have hP' : ∀ z ∈ l, ∀ s, P s → P (f z s) := fun z hz => hP z (List.mem_cons_of_mem y hz)
    have hQ' : ∀ z ∈ l, ∀ s, P s → Q s → Q (f z s) := fun z hz => hQ z (List.mem_cons_of_mem y hz)
    have hs' := hP y List.mem_cons_self s hs
    obtain rfl | hx := List.mem_cons.mp hx
    · exact (foldSt_inv (P := fun s => P s ∧ Q s) (fun z hz s h => ⟨hP' z hz s h.1, hQ' z hz s h.1 h.2⟩) ⟨hs', hxQ s hs⟩).2
    · exact ih hx hP' hQ' hs'

/-- An entry that a map lists is listed with its image in the mapped map. -/
theorem FMap.get_map_of_ne {α : Type} {d : α} (f : α → α) {m : FMap α} {k : Nat} (h : FMap.get d m k ≠ d) :
    FMap.get d (m.map fun e => (e.1, f e.2)) k = f (FMap.get d m k) := by
  induction m with
  | nil => exact absurd rfl h
  | cons e m ih =>
    obtain ⟨j, v⟩ := e
    simp only [List.map_cons, FMap.get] at h ⊢
    split
    · rfl
    · next hj => exact ih (by rwa [if_neg hj] at h)

theorem FMap.get_of_mem {m : FMap Word} (h : FMap.wf 0 m = true) {e : Nat × Word} (he : e ∈ m) : FMap.get 0 m e.1 = e.2 ∧ e.2 ≠ 0 := by
  induction m with
  | nil => cases he
  | cons a m ih =>
    obtain ⟨j, v⟩ := a
    obtain ⟨hv, hfrom, hm⟩ := (FMap.wf_cons 0 j v m).mp h
    obtain rfl | he := List.mem_cons.mp he
    · exact ⟨by simp [FMap.get], hv⟩
    · have hlt := hfrom e he
      simpa [FMap.get, show j ≠ e.1 by omega] using ih hm he

theorem FMap.mem_of_get {m : FMap Word} {k : Nat} (h : FMap.get 0 m k ≠ 0) : (k, FMap.get 0 m k) ∈ m := by
  induction m with
  | nil => exact absurd rfl h
  | cons a m ih =>
    obtain ⟨j, v⟩ := a
    simp only [FMap.get] at h ⊢
    split
    · next hj => exact hj ▸ List.mem_cons_self
    · next hj => exact List.mem_cons_of_mem _ (ih (by rwa [if_neg hj] at h))

theorem modCh_self {s : State} {c : Ch} {f : Chan → Chan} (h : f (s.ch c) = s.ch c) : s.modCh c f = s := by
  have : s.chs.set c (s.ch c) = s.chs := by cases c <;> rfl
  change { s with chs := s.chs.set c (f (s.ch c)) } = s
  rw [h, this]

theorem modCh_modCh (s : State) (c : Ch) (f g : Chan → Chan) : (s.modCh c f).modCh c g = s.modCh c fun h => g (f h) := by
  cases c <;> rfl

/-! ### The merge of one word -/

/-- Channel `c` of the state holds no memory error and no poison, and the flip mask is not armed. -/
structure Calm (s : State) (c : Ch) : Prop where
  errs : (s.ch c).errs = []
  pmap : (s.ch c).pmap = []
  arm : s.rdb (Reg.MIU_FLIP_CTL_ARM (Ch.num c)) = false

variable {s u : State} {c : Ch}

theorem Calm.readImg (h : Calm s c) (copy : Option Nat) (i : Nat) : s.readImg c copy i = (⟨s.ideal c copy i, false⟩, s) := by
  rw [State.readImg_clean s c copy i (by rw [h.errs]; rfl), h.pmap]
  rfl

theorem Calm.writeMapHalf (h : Calm s c) (cw i : Nat) : s.writeMapHalf c cw i = s :=
  State.writeMapHalf_clean s c cw i (by rw [h.errs]; rfl) (by simp [State.flipHits, h.arm])

theorem Calm.markImg (h : Calm s c) (copy : Option Nat) (i : Nat) : s.markImg c copy i false = s := by
  unfold State.markImg State.setPsn
  refine modCh_self ?_
  rw [h.pmap, show FMap.set false [] (Miu.pkey (Img.cw copy i) i) false = (s.ch c).pmap from h.pmap.symm]

/-- A store into every copy writes the master copy. -/
theorem Calm.storeAll (h : Calm s c) (i : Nat) (v : Word) (o : Bool) :
    s.storeAll c i ⟨v, false⟩ o = s.modCh c fun h => { h with img := FMap.set 0 h.img i v } := by
  have hpsn (u : State) (hu : (u.ch c).pmap = []) (copy : Option Nat) :
      (false || (o && FMap.get false (u.ch c).pmap (Miu.pkey (Img.cw copy i) i))) = false := by simp [hu]
  have hstep (l : Nat) : (s.writeMapHalf c (Miu.cwLane l i) i).markImg c (some l) i
      (false || (o && FMap.get false (s.ch c).pmap (Miu.pkey (Img.cw (some l) i) i))) = s := by
    rw [hpsn s h.pmap, h.writeMapHalf, h.markImg]
  have hfold : foldSt lanes16 (fun l s => (s.writeMapHalf c (Miu.cwLane l i) i).markImg c (some l) i
      (false || (o && FMap.get false (s.ch c).pmap (Miu.pkey (Img.cw (some l) i) i)))) s = s :=
    foldSt_inv (P := fun u => u = s) (fun l _ u hu => hu ▸ hstep l) rfl
  have hstored : Calm (s.modCh c fun h => { h with img := FMap.set 0 h.img i v }) c :=
    ⟨by rw [State.ch_modCh_same]; exact h.errs, by rw [State.ch_modCh_same]; exact h.pmap, h.arm⟩
  simp only [State.storeAll, hfold, hpsn s h.pmap, State.storeImg, h.writeMapHalf]
  exact hstored.markImg none i

/-- What the barrier's merge writes into a word. -/
def mergedWord (s : State) (c : Ch) (l i : Nat) (mask : Word) : Word :=
  if Img.isBit i then (s.ideal c none i &&& ~~~mask) ||| (s.ideal c (some l) i &&& mask) else s.ideal c (some l) i

theorem Calm.mergeWord (h : Calm s c) {l i : Nat} (hbar : (s.lane' c l).barPsn = []) (mask : Word) :
    ∃ item, s.mergeWord c [] l i mask =
      (s.modCh c fun h => { h with img := FMap.set 0 h.img i (mergedWord s c l i mask) }).feed c item := by
  have hv : (if Img.isBit i then ((⟨(s.ideal c none i &&& ~~~mask) ||| (s.ideal c (some l) i &&& mask), false⟩ : Psn Word), s)
      else (⟨s.ideal c (some l) i, false⟩, s)) = (⟨mergedWord s c l i mask, false⟩, s) := by
    unfold mergedWord
    split <;> rfl
  simp only [State.mergeWord, hbar, List.contains_nil, Bool.false_eq_true, if_false, h.readImg, Bool.or_self, hv]
  rw [show applyForces (forcesOn [] i) ⟨mergedWord s c l i mask, false⟩ = ⟨mergedWord s c l i mask, false⟩ from rfl, h.storeAll]
  exact ⟨_, rfl⟩

/-! ### The merge of every lane -/

/-- `u` is `s` but for the image and the signature of channel `c`. -/
structure Merged (s u : State) (c : Ch) : Prop where
  chan : u.ch c = { s.ch c with img := (u.ch c).img, acc := (u.ch c).acc }
  others : ∀ e, e ≠ c → u.ch e = s.ch e
  frame : u = { s with chs := u.chs }

theorem Merged.refl (s : State) (c : Ch) : Merged s s c := ⟨rfl, fun _ _ => rfl, rfl⟩

theorem Merged.lane (h : Merged s u c) (l : Nat) : u.lane' c l = s.lane' c l := by
  rw [State.lane', h.chan]
  rfl

theorem Merged.calm (h : Merged s u c) (hs : Calm s c) : Calm u c := by
  refine ⟨?_, ?_, ?_⟩
  · rw [h.chan]; exact hs.errs
  · rw [h.chan]; exact hs.pmap
  · rw [h.frame]; exact hs.arm

/-- A merge writes its word and no other. -/
theorem Merged.mergeWord (h : Merged s u c) (hs : Calm s c) {l i : Nat} (hbar : (s.lane' c l).barPsn = []) (mask : Word) :
    Merged s (u.mergeWord c [] l i mask) c ∧
      ∀ j, FMap.get 0 ((u.mergeWord c [] l i mask).ch c).img j = if j = i then mergedWord u c l i mask else FMap.get 0 (u.ch c).img j := by
  obtain ⟨item, hw⟩ := (h.calm hs).mergeWord (i := i) ((h.lane l).symm ▸ hbar) mask
  rw [hw]
  refine ⟨⟨?_, fun e he => ?_, ?_⟩, fun j => ?_⟩
  · simp only [State.feed, State.ch_modCh_same]
    rw [h.chan]
  · simp only [State.feed, State.ch_modCh_ne _ _ he]
    exact h.others e he
  · rw [h.frame]
    rfl
  · simp only [State.feed, State.ch_modCh_same, FMap.get_set]

/-- The merge of every lane's dirty words. -/
def mergeAll (s : State) (c : Ch) : State :=
  foldSt lanes16 (fun l s => foldSt (s.lane' c l).dirty (fun e s => s.mergeWord c [] l e.1 e.2) s) s

section
variable (hs : Calm s c) (hbar : ∀ l ∈ lanes16, (s.lane' c l).barPsn = [])
include hs hbar

/-- What every merge of a dirty word keeps holds after all of them. -/
theorem mergeAll_inv {P : State → Prop} (hP : ∀ l ∈ lanes16, ∀ e ∈ (s.lane' c l).dirty, ∀ u, Merged s u c → P u →
    P (u.mergeWord c [] l e.1 e.2)) (h : P s) : Merged s (mergeAll s c) c ∧ P (mergeAll s c) := by
  refine foldSt_inv (P := fun u => Merged s u c ∧ P u) (fun l hl u hu => ?_) ⟨Merged.refl s c, h⟩
  rw [hu.1.lane]
  exact foldSt_inv (P := fun u => Merged s u c ∧ P u)
    (fun e he v hv => ⟨(hv.1.mergeWord hs (hbar l hl) e.2).1, hP l hl e he v hv.1 hv.2⟩) hu

/-- A word that no lane names keeps its value. -/
theorem mergeAll_img_of_unnamed {i : Nat} (hi : ∀ l ∈ lanes16, ∀ e ∈ (s.lane' c l).dirty, e.1 ≠ i) :
    FMap.get 0 ((mergeAll s c).ch c).img i = FMap.get 0 (s.ch c).img i := by
  refine (mergeAll_inv hs hbar (P := fun u => FMap.get 0 (u.ch c).img i = FMap.get 0 (s.ch c).img i) ?_ rfl).2
  intro l hl e he u hu hP
  rw [(hu.mergeWord hs (hbar l hl) e.2).2, if_neg (hi l hl e he).symm, hP]

/-- A word of the word image that one lane alone names takes the value that the lane sees. -/
theorem mergeAll_img_of_named {i l : Nat} (hl : l ∈ lanes16) (hi : 0x2000 ≤ i) {m : Word} (hm : (i, m) ∈ (s.lane' c l).dirty)
    (hothers : ∀ j ∈ lanes16, j ≠ l → ∀ e ∈ (s.lane' c j).dirty, e.1 ≠ i) :
    FMap.get 0 ((mergeAll s c).ch c).img i = s.ideal c (some l) i := by
  have hideal {u : State} (hu : Merged s u c) : u.ideal c (some l) i =
      (FMap.get none (s.lane' c l).own i).getD (FMap.get 0 (u.ch c).img i) := by rw [ideal_some, hu.lane]
  have hmerged {u : State} (hu : Merged s u c) (hP : u.ideal c (some l) i = s.ideal c (some l) i) {j : Nat} (hj : j ∈ lanes16)
      {e : Nat × Word} (he : e ∈ (s.lane' c j).dirty) : ∀ v, v = u.mergeWord c [] j e.1 e.2 →
      FMap.get 0 (v.ch c).img i = if e.1 = i then s.ideal c (some l) i else FMap.get 0 (u.ch c).img i := by
    rintro v rfl
    rw [(hu.mergeWord hs (hbar j hj) e.2).2]
    by_cases hei : e.1 = i
    · have hjl : j = l := by
        by_contra hjl
        exact hothers j hj hjl e he hei
      have hbit : Img.isBit i = false := by simp [Img.isBit, hi]
      simp [hei, hjl, mergedWord, hbit, hP]
    · simp [hei, Ne.symm hei]
  have keep {u : State} (hu : Merged s u c ∧ u.ideal c (some l) i = s.ideal c (some l) i) {j : Nat} (hj : j ∈ lanes16)
      {e : Nat × Word} (he : e ∈ (s.lane' c j).dirty) : Merged s (u.mergeWord c [] j e.1 e.2) c ∧
      (u.mergeWord c [] j e.1 e.2).ideal c (some l) i = s.ideal c (some l) i := by
    have hv := (hu.1.mergeWord hs (hbar j hj) (i := e.1) e.2).1
    refine ⟨hv, ?_⟩
    rw [hideal hv, hmerged hu.1 hu.2 hj he _ rfl]
    split
    · rw [ideal_some]
      cases FMap.get none (s.lane' c l).own i <;> rfl
    · rw [← hideal hu.1, hu.2]
  refine foldSt_established (P := fun u => Merged s u c ∧ u.ideal c (some l) i = s.ideal c (some l) i)
    (Q := fun u => FMap.get 0 (u.ch c).img i = s.ideal c (some l) i) hl ?_ ?_ ?_ ⟨Merged.refl s c, rfl⟩
  · intro j hj u hu
    rw [hu.1.lane]
    exact foldSt_inv (P := fun u => Merged s u c ∧ u.ideal c (some l) i = s.ideal c (some l) i) (fun e he v hv => keep hv hj he) hu
  · intro u hu
    rw [hu.1.lane]
    refine foldSt_established (P := fun u => Merged s u c ∧ u.ideal c (some l) i = s.ideal c (some l) i)
      (Q := fun u => FMap.get 0 (u.ch c).img i = s.ideal c (some l) i) hm (fun e he v hv => keep hv hl he) ?_ ?_ hu
    · exact fun v hv => (hmerged hv.1 hv.2 hl hm _ rfl).trans (if_pos rfl)
    · intro e he v hv hQ
      rw [hmerged hv.1 hv.2 hl he _ rfl, hQ, ite_self]
  · intro j hj u hu hQ
    rw [hu.1.lane]
    refine (foldSt_inv (P := fun u => (Merged s u c ∧ u.ideal c (some l) i = s.ideal c (some l) i) ∧
      FMap.get 0 (u.ch c).img i = s.ideal c (some l) i) (fun e he v hv => ⟨keep hv.1 hj he, ?_⟩) ⟨hu, hQ⟩).2
    rw [hmerged hv.1.1 hv.1.2 hj he _ rfl, hv.2, ite_self]

end

/-! ### The barrier -/

/-- A lane as the barrier leaves it. -/
def crossed (last : Bool) (ln : LaneSt) : LaneSt :=
  { ln with own := [], dirty := [], barPsn := [], cnt := 0, wait := if last then .atEnd else .running }

/-- The state as the barrier leaves it, before the registers of the phase are written. -/
def crossedState (s : State) (c : Ch) (last : Bool) (clk : Nat) : State :=
  (mergeAll s c).modCh c fun h => { h with clk := clk, lanes := h.lanes.map fun e => (e.1, crossed last e.2) }

theorem barrier_eq (s : State) (c : Ch) : s.barrier c [] =
    let clk := (s.ch c).clk + (s.ch c).longest + barrierClk (s.ch c).dirtyCount
    let b := crossedState s c (s.ch c).ended clk
    if (s.ch c).ended then (b.wr (Reg.LEN_STATUS_RUN (Ch.num c)) 2).wr (Reg.LEN_END_CLK_END_CLK (Ch.num c)) clk
    else b.wr (Reg.LEN_STATUS_PHASE (Ch.num c)) (b.rd (Reg.LEN_STATUS_PHASE (Ch.num c)) + 1) := by
  have hb (clk : Nat) : (s.mergeLanes c []).modCh c (fun h => { h with
      clk := clk, lanes := h.lanes.map fun e => (e.1, { e.2 with wait := if (s.ch c).ended then .atEnd else .running }) }) =
      crossedState s c (s.ch c).ended clk := by
    simp only [State.mergeLanes, modCh_modCh, List.map_map]
    rfl
  simp only [State.barrier, hb]

theorem laneStatus_chs (s : State) (c : Ch) : (s.laneStatus c).chs = s.chs := by rfl

theorem laneStatus_md (s : State) (c : Ch) : (s.laneStatus c).md = s.md := rfl

theorem laneStatus_rd_run (s : State) (c : Ch) : (s.laneStatus c).rd (Reg.LEN_STATUS_RUN (Ch.num c)) = s.rd (Reg.LEN_STATUS_RUN (Ch.num c)) := by
  have hkey {f : Fld} (h : (Reg.LEN_STATUS_RUN (Ch.num c)).key ≠ f.key) (u : State) (v : Nat) :
      (u.wr f v).rd (Reg.LEN_STATUS_RUN (Ch.num c)) = u.rd (Reg.LEN_STATUS_RUN (Ch.num c)) := State.rd_wr_ne u f _ v h
  unfold State.laneStatus
  dsimp only
  rw [hkey, hkey, hkey, hkey] <;> simp only [Fld.key, Reg.LEN_STATUS_RUN, Reg.LEN_LANE_STAT_OVF, Reg.LEN_LANE_STAT_RNG,
    Reg.LEN_LANE_STICKY_OVF, Reg.LEN_LANE_STICKY_RNG] <;> omega

theorem exec_phaseBarrier {s : State} {c : Ch} (hrun : s.rd (Reg.LEN_STATUS_RUN (Ch.num c)) = 1) (hclosed : (s.ch c).closed = true)
    (hforces : s.md.cycForces = []) (hdebug : s.md.debug = false) (hs : Calm s c) (hbar : ∀ l ∈ lanes16, (s.lane' c l).barPsn = [])
    (hphase : s.rd (Reg.LEN_STATUS_PHASE (Ch.num c)) < 63) :
    ∃ t, exec (.phaseBarrier c) s = .next t ∧
      t.chs = (crossedState s c (s.ch c).ended ((s.ch c).clk + (s.ch c).longest + barrierClk (s.ch c).dirtyCount)).chs ∧
      t.rd (Reg.LEN_STATUS_RUN (Ch.num c)) = (if (s.ch c).ended then 2 else 1) ∧
      ((s.ch c).ended = false → t.rd (Reg.LEN_STATUS_PHASE (Ch.num c)) = s.rd (Reg.LEN_STATUS_PHASE (Ch.num c)) + 1) := by
  have hm := (mergeAll_inv hs hbar (P := fun _ => True) (fun _ _ _ _ _ _ _ => trivial) trivial).1
  have hframe (last : Bool) (clk : Nat) : crossedState s c last clk = { s with chs := (crossedState s c last clk).chs } := by
    unfold crossedState
    rw [hm.frame]
    rfl
  have hrd (last : Bool) (clk : Nat) (f : Fld) : (crossedState s c last clk).rd f = s.rd f := by rw [hframe]; rfl
  have hmd (last : Bool) (clk : Nat) : (crossedState s c last clk).md = s.md := by rw [hframe]
  have hdbg {u : State} (hu : u.md = s.md) : u.debugBarrier = u := by simp [State.debugBarrier, hu, hdebug]
  have hrunKey {f : Fld} (h : (Reg.LEN_STATUS_RUN (Ch.num c)).key ≠ f.key) (u : State) (v : Nat) :
      (u.wr f v).rd (Reg.LEN_STATUS_RUN (Ch.num c)) = u.rd (Reg.LEN_STATUS_RUN (Ch.num c)) := State.rd_wr_ne u f _ v h
  have hclk : (Reg.LEN_STATUS_RUN (Ch.num c)).key ≠ (Reg.LEN_END_CLK_END_CLK (Ch.num c)).key := by
    simp only [Fld.key, Reg.LEN_STATUS_RUN, Reg.LEN_END_CLK_END_CLK]
    omega
  have hph : (Reg.LEN_STATUS_RUN (Ch.num c)).key ≠ (Reg.LEN_STATUS_PHASE (Ch.num c)).key := by
    simp only [Fld.key, Reg.LEN_STATUS_RUN, Reg.LEN_STATUS_PHASE]
    omega
  have hexec : exec (.phaseBarrier c) s = execPhaseBarrier c s := rfl
  generalize hk : (s.ch c).clk + (s.ch c).longest + barrierClk (s.ch c).dirtyCount = clk
  rw [hexec, execPhaseBarrier, hforces, barrier_eq, hk]
  simp only [hrun, hclosed, decide_true, Bool.and_self, if_true]
  cases hlast : (s.ch c).ended
  · refine ⟨_, rfl, ?_⟩
    have hrun' : ((crossedState s c false clk).wr (Reg.LEN_STATUS_PHASE (Ch.num c))
        ((crossedState s c false clk).rd (Reg.LEN_STATUS_PHASE (Ch.num c)) + 1)).rd (Reg.LEN_STATUS_RUN (Ch.num c)) = 1 := by
      rw [hrunKey hph, hrd, hrun]
    simp only [Bool.false_eq_true, if_false, hrun', State.wr_md, hmd, hdebug, Bool.false_and, Nat.reduceEqDiff]
    rw [hdbg (by rw [State.wr_md, hmd]), hrd, State.rd_wr_same]
    refine ⟨rfl, ?_, fun _ => Nat.mod_eq_of_lt ?_⟩
    · rw [← hrd false clk (Reg.LEN_STATUS_PHASE (Ch.num c))]; exact hrun'
    · exact show _ < 64 by omega
  · let w := ((crossedState s c true clk).wr (Reg.LEN_STATUS_RUN (Ch.num c)) 2).wr (Reg.LEN_END_CLK_END_CLK (Ch.num c)) clk
    have hrun' : w.rd (Reg.LEN_STATUS_RUN (Ch.num c)) = 2 := by
      rw [hrunKey hclk, State.rd_wr_same]
      rfl
    have hbarrier : (w.laneStatus c).debugBarrier = w.laneStatus c :=
      hdbg (by rw [laneStatus_md, State.wr_md, State.wr_md, hmd])
    refine ⟨w.laneStatus c, ?_, laneStatus_chs w c, ?_, nofun⟩
    · simp only [if_true]
      rw [if_pos hrun', hbarrier]
    · rw [laneStatus_rd_run, hrun', if_pos rfl]

theorem crossedState_lane {last : Bool} {clk l : Nat} (hm : Merged s (mergeAll s c) c) (hl : s.lane' c l ≠ LaneSt.init) :
    (crossedState s c last clk).lane' c l = crossed last (s.lane' c l) := by
  have : (crossedState s c last clk).lane' c l =
      FMap.get LaneSt.init (((mergeAll s c).ch c).lanes.map fun e => (e.1, crossed last e.2)) l := by
    rw [State.lane', crossedState, State.ch_modCh_same]
    rfl
  rw [this, hm.chan]
  exact FMap.get_map_of_ne (crossed last) hl

/-- Settles O10: the merge (`mergeAll_img_of_named`, `mergeAll_img_of_unnamed`), then the lanes and the registers of the phase
(`exec_phaseBarrier`). -/
theorem barrierMergesDirtyWords : Obligations.BarrierMergesDirtyWords := by
  intro c s h n lanes last d hrun hwait herrs hpmap harm hforces hdebug hlanes hphase
  have hmem {l : Nat} (hl : l < 16) : l ∈ lanes16 := List.mem_range.mpr hl
  have hlt {l : Nat} (hl : l ∈ lanes16) : l < 16 := List.mem_range.mp hl
  have hs : Calm s c := ⟨herrs, hpmap, harm⟩
  have hbar : ∀ l ∈ lanes16, (s.lane' c l).barPsn = [] := fun l hl => (hlanes l (hlt hl)).2
  have hclosed : (s.ch c).closed = true := List.all_eq_true.mpr fun l hl => decide_eq_true (hwait l (hlt hl))
  have hm := (mergeAll_inv hs hbar (P := fun _ => True) (fun _ _ _ _ _ _ _ => trivial) trivial).1
  have hlisted {l : Nat} (hl : l < 16) : s.lane' c l ≠ LaneSt.init := fun he => hwait l hl (he ▸ rfl)
  have hunnamed {l i : Nat} (hl : l ∈ lanes16) (hi : FMap.get 0 (s.lane' c l).dirty i = 0) : ∀ e ∈ (s.lane' c l).dirty, e.1 ≠ i := by
    rintro e he rfl
    obtain ⟨hget, hne⟩ := FMap.get_of_mem (hlanes l (hlt hl)).1 he
    exact hne (hget ▸ hi)
  obtain ⟨t, hexec, hchs, hrun', hphase'⟩ := exec_phaseBarrier hrun hclosed hforces hdebug hs hbar hphase
  have hch (e : Ch) : t.ch e = (crossedState s c (s.ch c).ended ((s.ch c).clk + (s.ch c).longest + barrierClk (s.ch c).dirtyCount)).ch e := by
    rw [State.ch, hchs]; rfl
  have himg (i : Nat) : FMap.get 0 (t.ch c).img i = FMap.get 0 ((mergeAll s c).ch c).img i := by
    rw [hch, crossedState, State.ch_modCh_same]
  have hlane {l : Nat} (hl : l < 16) : t.lane' c l = crossed (s.ch c).ended (s.lane' c l) := by
    rw [State.lane', hch]
    exact crossedState_lane hm (hlisted hl)
  refine ⟨t, hexec, fun l hl i hi hd hothers => ?_, fun i hi => ?_, fun l hl => ?_, hrun', hphase', ?_, fun e he => ?_⟩
  · have hm : (i, FMap.get 0 (s.lane' c l).dirty i) ∈ (s.lane' c l).dirty := FMap.mem_of_get (by rw [hd]; decide)
    rw [himg]
    exact mergeAll_img_of_named hs hbar (hmem hl) hi hm fun j hj hjl => hunnamed hj (hothers j (hlt hj) hjl)
  · rw [himg]
    exact mergeAll_img_of_unnamed hs hbar fun l hl => hunnamed hl (hi l (hlt hl))
  · rw [hlane hl]
    exact ⟨rfl, rfl, rfl⟩
  · rw [hch, crossedState, State.ch_modCh_same]
    have hd : (s.ch c).dirtyCount = d := List.sum_eq_foldl.symm
    rw [hd]
    rfl
  · rw [hch, crossedState, State.ch_modCh_ne _ _ he, hm.others e he]

end Sys2Proof.Claims
end

section
/-! Register fields: what a chain of writes leaves (`keepsRegs`, `regsTo`), one-bit fields, and the bits of a field. -/

namespace Sys2Proof.Claims

open Sys2Proof Sys2Proof.Machine

/-! ### Fields that a chain of writes leaves -/

theorem keepsRegs_refl (s : State) (l : List Fld) : keepsRegs s s l := fun _ _ => rfl

/-- Only the register map counts. -/
theorem keepsRegs.of_regs {s t u : State} {l : List Fld} (h : keepsRegs s t l) (hu : u.regs = t.regs) : keepsRegs s u l :=
  fun g hg => (State.rd_congr hu g).trans (h g hg)

theorem keepsRegs.trans {s t u : State} {l : List Fld} (h : keepsRegs s t l) (h' : keepsRegs t u l) : keepsRegs s u l :=
  fun g hg => (h' g hg).trans (h g hg)

theorem keepsRegs.mono {s t : State} {l l' : List Fld} (h : keepsRegs s t l) (hl : ∀ f ∈ l, f ∈ l') : keepsRegs s t l' :=
  fun g hg => h g fun f hf => hg f (hl f hf)

theorem keepsRegs_wr (s : State) {f : Fld} {l : List Fld} (hf : f ∈ l) (v : Nat) : keepsRegs s (s.wr f v) l :=
  fun g hg => State.rd_wr_ne s f g v (hg f hf)

theorem keepsRegs.wr {s t : State} {l : List Fld} (h : keepsRegs s t l) {f : Fld} (hf : f ∈ l) (v : Nat) : keepsRegs s (t.wr f v) l :=
  h.trans (keepsRegs_wr t hf v)

theorem keepsRegs.wrb {s t : State} {l : List Fld} (h : keepsRegs s t l) {f : Fld} (hf : f ∈ l) (b : Bool) : keepsRegs s (t.wrb f b) l :=
  h.wr hf _

theorem keepsRegs.inc {s t : State} {l : List Fld} (h : keepsRegs s t l) {f : Fld} (hf : f ∈ l) : keepsRegs s (t.inc f) l := h.wr hf _

theorem keepsRegs_of_eq {s t : State} (h : t.regs = s.regs) (l : List Fld) : keepsRegs s t l := (keepsRegs_refl s l).of_regs h

/-- What a fold's steps keep. -/
theorem keepsRegs_foldSt {α : Type} {l : List Fld} {xs : List α} {f : α → State → State} (h : ∀ x ∈ xs, ∀ s, keepsRegs s (f x s) l)
    (s : State) : keepsRegs s (foldSt xs f s) l := by
  induction xs generalizing s with
  | nil => exact keepsRegs_refl s l
  | cons x xs ih =>
    exact (h x List.mem_cons_self s).trans (ih (fun y hy => h y (List.mem_cons_of_mem x hy)) (f x s))

/-! ### Values of written fields -/

theorem State.rd_wr_of_lt (s : State) {f : Fld} {v : Nat} (h : v < 2 ^ f.width) : (s.wr f v).rd f = v := by
  rw [State.rd_wr_same]
  exact Nat.mod_eq_of_lt h

theorem State.rdb_wrb_same (s : State) {f : Fld} (h : f.width ≠ 0) (b : Bool) : (s.wrb f b).rdb f = b := by
  have hlt : bitNat b < 2 ^ f.width := lt_of_lt_of_le (by cases b <;> decide) (Nat.pow_le_pow_right (by decide) (Nat.pos_of_ne_zero h))
  rw [State.rdb, State.rd_wrb_same, trunc, Nat.mod_eq_of_lt hlt]
  cases b <;> rfl

theorem State.rdb_wr_ne (s : State) {f g : Fld} (v : Nat) (h : g.key ≠ f.key) : (s.wr f v).rdb g = s.rdb g := by
  rw [State.rdb, State.rd_wr_ne s f g v h, State.rdb]

theorem State.rdb_wrb_ne (s : State) {f g : Fld} (b : Bool) (h : g.key ≠ f.key) : (s.wrb f b).rdb g = s.rdb g :=
  State.rdb_wr_ne s _ h

theorem State.rdb_congr {s t : State} (h : t.regs = s.regs) (f : Fld) : t.rdb f = s.rdb f := by
  rw [State.rdb, State.rd_congr h f, State.rdb]

/-! ### The bits of a field -/

theorem natBit_natSet (v i j : Nat) : natBit (natSet v i) j = (natBit v j || decide (i = j)) := by
  rw [natBit, natSet, Nat.testBit_or, Nat.testBit_two_pow, natBit]

/-- A number whose bit `i` is set, with that bit taken away. -/
theorem testBit_sub_two_pow {q r i : Nat} (hr : r < 2 ^ i) (hq : q % 2 = 1) (j : Nat) :
    (2 ^ i * q + r - 2 ^ i).testBit j = ((2 ^ i * q + r).testBit j && !decide (i = j)) := by
  obtain ⟨p, rfl⟩ : ∃ p, q = 2 * p + 1 := ⟨q / 2, by omega⟩
  rw [show 2 ^ i * (2 * p + 1) + r - 2 ^ i = 2 ^ i * (2 * p) + r by rw [mul_add]; omega, Nat.testBit_two_pow_mul_add _ hr,
    Nat.testBit_two_pow_mul_add _ hr]
  by_cases hji : j < i
  · simp [hji, show i ≠ j by omega]
  · rw [if_neg hji, if_neg hji]
    obtain ⟨k, rfl⟩ : ∃ k, j = i + k := ⟨j - i, by omega⟩
    rw [Nat.add_sub_cancel_left]
    cases k with
    | zero => simp
    | succ k => simp [Nat.testBit_succ, show (2 * p + 1) / 2 = p by omega]

theorem natBit_natClr (v i j : Nat) : natBit (natClr v i) j = (natBit v j && !decide (i = j)) := by
  unfold natClr natBit
  by_cases hi : v.testBit i = true
  · rw [if_pos hi]
    have hodd : (v / 2 ^ i) % 2 = 1 := by simpa [Nat.testBit_eq_decide_div_mod_eq] using hi
    have h := testBit_sub_two_pow (Nat.mod_lt v (Nat.two_pow_pos i)) hodd j
    rwa [Nat.div_add_mod] at h
  · rw [if_neg hi]
    by_cases h : i = j
    · subst h; simp [hi]
    · simp [h]

theorem natBit_trunc (w v j : Nat) : natBit (trunc w v) j = (decide (j < w) && natBit v j) := Nat.testBit_mod_two_pow v w j

theorem natBit_setBit (s : State) {f : Fld} {i j : Nat} (hj : j < f.width) :
    natBit ((s.setBit f i).rd f) j = (natBit (s.rd f) j || decide (i = j)) := by
  rw [State.setBit, State.rd_wr_same, natBit_trunc, natBit_natSet, decide_eq_true hj, Bool.true_and]

theorem natBit_clrBit (s : State) {f : Fld} {i j : Nat} (hj : j < f.width) :
    natBit ((s.clrBit f i).rd f) j = (natBit (s.rd f) j && !decide (i = j)) := by
  rw [State.clrBit, State.rd_wr_same, natBit_trunc, natBit_natClr, decide_eq_true hj, Bool.true_and]

end Sys2Proof.Claims
end

section
/-! The safety inputs (R233 to R243): an ordinary sample and a test sample change the sense stages of the powered channels only, each
stage from itself. -/

namespace Sys2Proof.Claims

open Sys2Proof Sys2Proof.Machine

/-- What holds before a counted fold and is carried from each index to the next holds after it. -/
theorem foldSt_range {P : Nat → State → Prop} {f : Nat → State → State} {s : State} {n : Nat} (h0 : P 0 s)
    (hstep : ∀ i u, i < n → P i u → P (i + 1) (f i u)) : P n (foldSt (List.range n) f s) := by
  induction n with
  | zero => exact h0
  | succ n ih =>
    rw [List.range_succ, foldSt, List.foldl_append]
    exact hstep n _ (Nat.lt_succ_self n) (ih fun i u hi => hstep i u (Nat.lt_succ_of_lt hi))

/-! ### The sense stages -/

theorem inp_setInp (s : State) (c d : Ch) {i j : Nat} (hi : i < 24) (hj : j < 24) (v : InStage) :
    (s.setInp c i v).sio.inp d j = if d = c ∧ j = i then v else s.sio.inp d j := by
  have hkey : Ch.num d * 24 + j = Ch.num c * 24 + i ↔ d = c ∧ j = i := by
    cases c <;> cases d <;> simp [Ch.num] <;> omega
  simp only [State.setInp, State.modSio, SioSt.inp, FMap.get_set, hkey]

theorem pr_setPr (s : State) (c d : Ch) {i j : Nat} (hi : i < 12) (hj : j < 12) (v : PairStage) :
    (s.setPr c i v).sio.pr d j = if d = c ∧ j = i then v else s.sio.pr d j := by
  have hkey : Ch.num d * 12 + j = Ch.num c * 12 + i ↔ d = c ∧ j = i := by
    cases c <;> cases d <;> simp [Ch.num] <;> omega
  simp only [State.setPr, State.modSio, SioSt.pr, FMap.get_set, hkey]

/-- `t` is `s` but for the sense stages of channel `c`. -/
structure StagesOf (s t : State) (c : Ch) : Prop where
  frame : t = { s with sio := { s.sio with ins := t.sio.ins, pairs := t.sio.pairs, acks := t.sio.acks } }
  inp : ∀ d, d ≠ c → ∀ i < 24, t.sio.inp d i = s.sio.inp d i
  pr : ∀ d, d ≠ c → ∀ p < 12, t.sio.pr d p = s.sio.pr d p

variable {s t u : State} {c : Ch}

theorem StagesOf.refl (s : State) (c : Ch) : StagesOf s s c := ⟨rfl, fun _ _ _ _ => rfl, fun _ _ _ _ => rfl⟩

theorem StagesOf.trans (h : StagesOf s t c) (h' : StagesOf t u c) : StagesOf s u c :=
  ⟨by rw [h'.frame, h.frame], fun d hd i hi => (h'.inp d hd i hi).trans (h.inp d hd i hi),
    fun d hd p hp => (h'.pr d hd p hp).trans (h.pr d hd p hp)⟩

theorem StagesOf.rd (h : StagesOf s t c) (f : Fld) : t.rd f = s.rd f := by rw [h.frame]; rfl

theorem StagesOf.inputUa (h : StagesOf s t c) (uA : FMap Nat) (d : Ch) (i : Nat) : t.inputUa uA d i = s.inputUa uA d i := by
  rw [h.frame]; rfl

theorem StagesOf.setInp (s : State) (c : Ch) {i : Nat} (hi : i < 24) (v : InStage) : StagesOf s (s.setInp c i v) c :=
  ⟨rfl, fun d hd j hj => by rw [inp_setInp s c d hi hj, if_neg fun h => hd h.1], fun _ _ _ _ => rfl⟩

theorem StagesOf.setPr (s : State) (c : Ch) {i : Nat} (hi : i < 12) (v : PairStage) : StagesOf s (s.setPr c i v) c :=
  ⟨rfl, fun _ _ _ _ => rfl, fun d hd j hj => by rw [pr_setPr s c d hi hj, if_neg fun h => hd h.1]⟩

theorem StagesOf.setAck (s : State) (c : Ch) (v : AckStage) : StagesOf s (s.setAck c v) c := ⟨rfl, fun _ _ _ _ => rfl, fun _ _ _ _ => rfl⟩

/-! ### The ordinary sample -/

/-- One input of a channel sampled. -/
def sampleInput (uA : FMap Nat) (c : Ch) (i : Nat) (s : State) : State :=
  s.setInp c i ((s.sio.inp c i).ordinary (classOf c i (s.inputUa uA c i)) (s.inputUa uA c i) (s.rd (Reg.SIO_IN_CFG_FILTER i)))

/-- One pair of a channel evaluated. -/
def samplePair (c : Ch) (p : Nat) (s : State) : State :=
  if s.rdb (Reg.SIO_PAIR_CFG_DECLARED p) then
    s.setPr c p ((s.sio.pr c p).step (s.rd (Reg.SIO_PAIR_CFG_D p)) (s.sio.inp c (2 * p)).forPair (s.sio.inp c (2 * p + 1)).forPair)
  else s

/-- An input after an ordinary sample. -/
def sampledInp (s : State) (uA : FMap Nat) (c : Ch) (i : Nat) : InStage :=
  (s.sio.inp c i).ordinary (classOf c i (s.inputUa uA c i)) (s.inputUa uA c i) (s.rd (Reg.SIO_IN_CFG_FILTER i))

/-- A pair after an ordinary sample, with the values of its two inputs. -/
def sampledPr (s : State) (c : Ch) (p : Nat) (a b : Bool) : PairStage :=
  if s.rdb (Reg.SIO_PAIR_CFG_DECLARED p) then (s.sio.pr c p).step (s.rd (Reg.SIO_PAIR_CFG_D p)) a b else s.sio.pr c p

theorem ordinaryOf_on (uA : FMap Nat) (hon : s.stageOn c = true) : s.ordinaryOf uA c =
    let u := foldSt (List.range 12) (samplePair c) (foldSt (List.range 24) (sampleInput uA c) s)
    u.setAck c ((u.sio.ack c).step (u.sio.pr c 11).value) := by
  unfold State.ordinaryOf
  rw [hon]
  rfl

theorem ordinaryOf_off (uA : FMap Nat) (hoff : s.stageOn c = false) : s.ordinaryOf uA c = s := by
  unfold State.ordinaryOf
  rw [hoff]
  rfl

/-- `t` is `u` with input `i` of channel `c` as `v`. -/
structure InputSet (u t : State) (c : Ch) (i : Nat) (v : InStage) : Prop where
  stages : StagesOf u t c
  own : t.sio.inp c i = v
  others : ∀ j < 24, j ≠ i → t.sio.inp c j = u.sio.inp c j
  pairs : t.sio.pairs = u.sio.pairs
  acks : t.sio.acks = u.sio.acks

theorem InputSet.refl (u : State) (c : Ch) (i : Nat) : InputSet u u c i (u.sio.inp c i) :=
  ⟨StagesOf.refl u c, rfl, fun _ _ _ => rfl, rfl, rfl⟩

theorem InputSet.setInp (u : State) (c : Ch) {i : Nat} (hi : i < 24) (v : InStage) : InputSet u (u.setInp c i v) c i v :=
  ⟨StagesOf.setInp u c hi v, by rw [inp_setInp u c c hi hi, if_pos ⟨rfl, rfl⟩],
    fun j hj hji => by rw [inp_setInp u c c hi hj, if_neg fun h => hji h.2], rfl, rfl⟩

/-- `t` is `s` with the first `i` inputs of channel `c` as `v`. -/
structure InputsSet (s t : State) (c : Ch) (i : Nat) (v : Nat → InStage) : Prop where
  stages : StagesOf s t c
  inp : ∀ j < 24, t.sio.inp c j = if j < i then v j else s.sio.inp c j
  pairs : t.sio.pairs = s.sio.pairs
  acks : t.sio.acks = s.sio.acks

/-- A fold that sets each input of a channel from that input alone. -/
theorem inputsSet_foldSt {f : Nat → State → State} {v : Nat → InStage}
    (hf : ∀ i < 24, ∀ u, StagesOf s u c → u.sio.inp c i = s.sio.inp c i → InputSet u (f i u) c i (v i)) :
    InputsSet s (foldSt (List.range 24) f s) c 24 v := by
  refine foldSt_range (P := fun i u => InputsSet s u c i v) ⟨StagesOf.refl s c, by simp, rfl, rfl⟩ fun i u hi h => ?_
  obtain ⟨hu, hinp, hpairs, hacks⟩ := h
  obtain ⟨hst, hown, hothers, hp, ha⟩ := hf i hi u hu ((hinp i hi).trans (if_neg (Nat.lt_irrefl i)))
  refine ⟨hu.trans hst, fun j hj => ?_, hp.trans hpairs, ha.trans hacks⟩
  by_cases hji : j = i
  · subst hji
    rw [hown, if_pos (Nat.lt_succ_self j)]
  · rw [hothers j hj hji, hinp j hj]
    simp only [show j < i + 1 ↔ j < i by omega]

theorem inputsSet_sampled (s : State) (uA : FMap Nat) (c : Ch) :
    InputsSet s (foldSt (List.range 24) (sampleInput uA c) s) c 24 (sampledInp s uA c) := by
  refine inputsSet_foldSt fun i hi u hu hinp => ?_
  have h := InputSet.setInp u c hi (sampledInp u uA c i)
  have hsampled : sampledInp u uA c i = sampledInp s uA c i := by rw [sampledInp, hu.inputUa, hu.rd, hinp, sampledInp]
  exact hsampled ▸ h

/-- After the pairs below `i`. -/
structure PairsTo (s u : State) (c : Ch) (i : Nat) : Prop where
  stages : StagesOf s u c
  ins : u.sio.ins = s.sio.ins
  pr : ∀ p < 12, u.sio.pr c p =
    if p < i then sampledPr s c p (s.sio.inp c (2 * p)).forPair (s.sio.inp c (2 * p + 1)).forPair else s.sio.pr c p

theorem StagesOf.rdb (h : StagesOf s t c) (f : Fld) : t.rdb f = s.rdb f := by rw [State.rdb, h.rd, State.rdb]

theorem PairsTo.step {i : Nat} (hi : i < 12) (h : PairsTo s u c i) : PairsTo s (samplePair c i u) c (i + 1) := by
  obtain ⟨hu, hins, hpr⟩ := h
  have hinp (j : Nat) : u.sio.inp c j = s.sio.inp c j := congrArg (fun m => FMap.get InStage.init m (Ch.num c * 24 + j)) hins
  have hnow : u.sio.pr c i = s.sio.pr c i := (hpr i hi).trans (if_neg (Nat.lt_irrefl i))
  have hother {p : Nat} (hp : p < 12) (hpi : p ≠ i) : u.sio.pr c p =
      if p < i + 1 then sampledPr s c p (s.sio.inp c (2 * p)).forPair (s.sio.inp c (2 * p + 1)).forPair else s.sio.pr c p := by
    rw [hpr p hp]
    simp only [show p < i + 1 ↔ p < i by omega]
  unfold samplePair
  rw [hu.rdb, hu.rd, hinp, hinp, hnow]
  cases hd : s.rdb (Reg.SIO_PAIR_CFG_DECLARED i)
  case true =>
    rw [if_pos rfl]
    refine ⟨hu.trans (StagesOf.setPr u c hi _), hins, fun p hp => ?_⟩
    rw [pr_setPr u c c hi hp]
    by_cases hpi : p = i
    · subst hpi
      rw [if_pos ⟨rfl, rfl⟩, if_pos (Nat.lt_succ_self p), sampledPr, if_pos hd]
    · rw [if_neg fun h => hpi h.2, hother hp hpi]
  case false =>
    rw [if_neg (by decide)]
    refine ⟨hu, hins, fun p hp => ?_⟩
    by_cases hpi : p = i
    · subst hpi
      rw [hnow, if_pos (Nat.lt_succ_self p), sampledPr, hd, if_neg (by decide)]
    · exact hother hp hpi

theorem pairsTo_sampled (s : State) (c : Ch) : PairsTo s (foldSt (List.range 12) (samplePair c) s) c 12 :=
  foldSt_range (P := fun i u => PairsTo s u c i) ⟨StagesOf.refl s c, rfl, by simp⟩ fun _ _ => PairsTo.step

/-- The sense stages of a powered channel after its ordinary sample. -/
theorem ordinaryOf_samples (uA : FMap Nat) (hon : s.stageOn c = true) :
    StagesOf s (s.ordinaryOf uA c) c ∧ (∀ i < 24, (s.ordinaryOf uA c).sio.inp c i = sampledInp s uA c i) ∧
      ∀ p < 12, (s.ordinaryOf uA c).sio.pr c p =
        sampledPr s c p (sampledInp s uA c (2 * p)).forPair (sampledInp s uA c (2 * p + 1)).forPair := by
  rw [ordinaryOf_on uA hon]
  obtain ⟨hu, hinp, hpairs, -⟩ := inputsSet_sampled s uA c
  generalize foldSt (List.range 24) (sampleInput uA c) s = u at hu hinp hpairs ⊢
  obtain ⟨hv, hins, hpr⟩ := pairsTo_sampled u c
  generalize foldSt (List.range 12) (samplePair c) u = v at hv hins hpr ⊢
  refine ⟨(hu.trans hv).trans (StagesOf.setAck v c _), fun i hi => ?_, fun p hp => ?_⟩
  · exact (congrArg (fun m => FMap.get InStage.init m (Ch.num c * 24 + i)) hins).trans ((hinp i hi).trans (if_pos hi))
  · refine ((hpr p hp).trans (if_pos hp)).trans ?_
    have hpr' : u.sio.pr c p = s.sio.pr c p := congrArg (fun m => FMap.get PairStage.init m (Ch.num c * 12 + p)) hpairs
    rw [hinp _ (by omega), hinp _ (by omega), if_pos (by omega), if_pos (by omega), sampledPr, sampledPr, hu.rdb, hu.rd, hpr']

/-! ### Over the three channels -/

/-- `t` is `s` but for sense stages. -/
def OnlyStages (s t : State) : Prop :=
  t = { s with sio := { s.sio with ins := t.sio.ins, pairs := t.sio.pairs, acks := t.sio.acks } }

theorem OnlyStages.rd (h : OnlyStages s t) (f : Fld) : t.rd f = s.rd f := by rw [h]; rfl

theorem OnlyStages.rdb (h : OnlyStages s t) (f : Fld) : t.rdb f = s.rdb f := by rw [State.rdb, h.rd, State.rdb]

theorem OnlyStages.inputUa (h : OnlyStages s t) (uA : FMap Nat) (d : Ch) (i : Nat) : t.inputUa uA d i = s.inputUa uA d i := by
  rw [h]; rfl

theorem OnlyStages.stageOn (h : OnlyStages s t) (d : Ch) : t.stageOn d = s.stageOn d := by rw [h]; rfl

theorem OnlyStages.trans (h : OnlyStages s t) (h' : StagesOf t u c) : OnlyStages s u := by
  unfold OnlyStages at h ⊢
  rw [h'.frame, h]

/-- The stages of channel `c` in `t` are those in `s`. -/
def SameStages (s t : State) (c : Ch) : Prop := (∀ i < 24, t.sio.inp c i = s.sio.inp c i) ∧ ∀ p < 12, t.sio.pr c p = s.sio.pr c p

theorem SameStages.refl (s : State) (c : Ch) : SameStages s s c := ⟨fun _ _ => rfl, fun _ _ => rfl⟩

theorem SameStages.trans (h : SameStages s t c) (h' : SameStages t u c) : SameStages s u c :=
  ⟨fun i hi => (h'.1 i hi).trans (h.1 i hi), fun p hp => (h'.2 p hp).trans (h.2 p hp)⟩

theorem StagesOf.same (h : StagesOf s t c) {d : Ch} (hd : d ≠ c) : SameStages s t d := ⟨h.inp d hd, h.pr d hd⟩

/-- A channel's turn comes in a state whose stages of that channel are still the old ones, and the later turns leave them. -/
theorem foldSt_channels {g : Ch → State → State} (hg : ∀ c s, StagesOf s (g c s) c) (s : State) :
    OnlyStages s (foldSt Ch.all g s) ∧
      ∀ c, ∃ u, OnlyStages s u ∧ SameStages s u c ∧ SameStages (g c u) (foldSt Ch.all g s) c := by
  have ha := hg .chA s
  have hb := hg .chB (g .chA s)
  have hc := hg .chC (g .chB (g .chA s))
  have h0 : OnlyStages s s := rfl
  have h1 := h0.trans ha
  have h2 := h1.trans hb
  refine ⟨h2.trans hc, fun c => ?_⟩
  cases c with
  | chA => exact ⟨s, h0, SameStages.refl s _, (hb.same (by decide)).trans (hc.same (by decide))⟩
  | chB => exact ⟨_, h1, ha.same (by decide), hc.same (by decide)⟩
  | chC => exact ⟨_, h2, (ha.same (by decide)).trans (hb.same (by decide)), SameStages.refl _ _⟩

theorem ordinaryOf_stages (uA : FMap Nat) (c : Ch) (s : State) : StagesOf s (s.ordinaryOf uA c) c := by
  cases hon : s.stageOn c with
  | true => exact (ordinaryOf_samples uA hon).1
  | false => rw [ordinaryOf_off uA hon]; exact StagesOf.refl s c

/-- What the filter makes of an input without a test-pulse fault and without a foreign pulse to judge (R235). -/
theorem InStage.ordinary_filter (x : InStage) (cls uA n : Nat) (hfault : x.tpFault = false) (hpend : x.forPend = false) :
    (x.ordinary cls uA n).fval = (if decide (cls = 3) ≠ x.fval ∧ n ≤ x.vCnt + 1 then decide (cls = 3) else x.fval) ∧
      (x.ordinary cls uA n).vCnt = (if decide (cls = 3) ≠ x.fval ∧ ¬ n ≤ x.vCnt + 1 then x.vCnt + 1 else 0) ∧
      (x.ordinary cls uA n).tpFault = false := by
  unfold InStage.ordinary
  simp only [hpend]
  by_cases hv : decide (cls = 3) = x.fval
  · simp [hv, hfault]
  · by_cases hn : n ≤ x.vCnt + 1 <;> simp [hv, hn, hfault]

theorem InStage.ordinary_cls (x : InStage) (cls uA n : Nat) : (x.ordinary cls uA n).cls = cls := by rfl

theorem ordinarySampleFilters_holds : ordinarySampleFilters := by
  intro uA s
  obtain ⟨hframe, hch⟩ := foldSt_channels (ordinaryOf_stages uA) s
  refine ⟨_, rfl, ?_, ?_, fun c => ?_⟩
  · rw [hframe]
  · exact congrArg (fun t => t.sio.outs) hframe
  obtain ⟨u, hu, hsame, hlast⟩ := hch c
  generalize foldSt Ch.all _ s = t at hlast ⊢
  constructor
  · intro hoff
    rw [ordinaryOf_off uA ((hu.stageOn c).trans hoff)] at hlast
    exact fun i hi => (hlast.1 i hi).trans (hsame.1 i hi)
  · intro hon
    obtain ⟨-, hinp, hpr⟩ := ordinaryOf_samples uA ((hu.stageOn c).trans hon)
    have hy (i : Nat) (hi : i < 24) : t.sio.inp c i = sampledInp s uA c i := by
      rw [hlast.1 i hi, hinp i hi, sampledInp, hu.inputUa, hu.rd, hsame.1 i hi, sampledInp]
    constructor
    · intro i hi
      rw [hy i hi]
      exact ⟨InStage.ordinary_cls _ _ _ _, InStage.ordinary_filter _ _ _ _⟩
    · intro p hp
      have hp' : t.sio.pr c p = sampledPr s c p (t.sio.inp c (2 * p)).forPair (t.sio.inp c (2 * p + 1)).forPair := by
        rw [hlast.2 p hp, hpr p hp, hlast.1 _ (by omega), hlast.1 _ (by omega), hinp _ (by omega), hinp _ (by omega), sampledPr,
          hu.rdb, hu.rd, hsame.2 p hp, sampledPr]
      dsimp only
      rw [hp', sampledPr]
      generalize (t.sio.inp c (2 * p)).forPair = a
      generalize (t.sio.inp c (2 * p + 1)).forPair = b
      refine ⟨fun hd => by simp [hd], fun hd hl => ?_⟩
      simp only [hd, if_true, PairStage.step, hl]
      cases a <;> cases b <;> simp

/-! ### The test-pulse supplies -/

/-- An input after a test sample of supply `k`. -/
def testedInp (s : State) (k : Nat) (uA : FMap Nat) (c : Ch) (i : Nat) : InStage :=
  let tp := s.rd (Reg.SIO_IN_CFG_TP i)
  let x := s.sio.inp c i
  if tp = 0 || s.suspended (groupOfTp (tp - 1)) then x
  else if tp = k + 1 then x.test true (400 ≤ s.inputUa uA c i)
  else if s.inputUa uA c i < 400 && x.ordHigh then { x with forPend := true }
  else x.test false false

theorem testInput_set (s : State) (k : Nat) (uA : FMap Nat) (c : Ch) {i : Nat} (hi : i < 24) :
    InputSet s (s.testInput k uA c i) c i (testedInp s k uA c i) := by
  unfold State.testInput testedInp
  dsimp only
  split_ifs
  · exact InputSet.refl s c i
  all_goals exact InputSet.setInp s c hi _

/-- A channel's inputs in a test sample. -/
def testChannel (k : Nat) (uA : FMap Nat) (c : Ch) (s : State) : State :=
  if s.stageOn c then foldSt in24 (fun i s => s.testInput k uA c i) s else s

theorem inputsSet_tested (s : State) (k : Nat) (uA : FMap Nat) (c : Ch) :
    InputsSet s (foldSt in24 (fun i s => s.testInput k uA c i) s) c 24 (testedInp s k uA c) := by
  refine inputsSet_foldSt fun i hi u hu hinp => ?_
  have h := testInput_set u k uA c hi
  have hsusp (g : Nat) : u.suspended g = s.suspended g := by rw [hu.frame]; rfl
  rwa [show testedInp u k uA c i = testedInp s k uA c i by
    simp only [testedInp, hu.inputUa, hu.rd, hinp, hsusp]] at h

theorem testChannel_stages (k : Nat) (uA : FMap Nat) (c : Ch) (s : State) : StagesOf s (testChannel k uA c s) c := by
  unfold testChannel
  split_ifs
  · exact (inputsSet_tested s k uA c).stages
  · exact StagesOf.refl s c

theorem testChannel_pairs (k : Nat) (uA : FMap Nat) (c : Ch) (s : State) :
    (testChannel k uA c s).sio.pairs = s.sio.pairs ∧ (testChannel k uA c s).sio.acks = s.sio.acks := by
  unfold testChannel
  split_ifs
  · exact ⟨(inputsSet_tested s k uA c).pairs, (inputsSet_tested s k uA c).acks⟩
  · exact ⟨rfl, rfl⟩

/-- A test sample taken in a pulse. -/
theorem testSample_inputs (k : Nat) (uA : FMap Nat) (s : State) :
    let t := foldSt Ch.all (testChannel k uA) s
    t = { s with sio := { s.sio with ins := t.sio.ins } } ∧
      ∀ c, s.stageOn c = true → ∀ i < 24, t.sio.inp c i = testedInp s k uA c i := by
  obtain ⟨hframe, hch⟩ := foldSt_channels (testChannel_stages k uA) s
  have hp : (foldSt Ch.all (testChannel k uA) s).sio.pairs = s.sio.pairs :=
    foldSt_keeps (fun s => s.sio.pairs) _ _ (fun c u => (testChannel_pairs k uA c u).1) s
  have ha : (foldSt Ch.all (testChannel k uA) s).sio.acks = s.sio.acks :=
    foldSt_keeps (fun s => s.sio.acks) _ _ (fun c u => (testChannel_pairs k uA c u).2) s
  dsimp only
  generalize foldSt Ch.all (testChannel k uA) s = t at *
  refine ⟨?_, fun c hon i hi => ?_⟩
  · unfold OnlyStages at hframe
    rwa [hp, ha] at hframe
  · obtain ⟨u, hu, hsame, hlast⟩ := hch c
    have hsusp (g : Nat) : u.suspended g = s.suspended g := by rw [hu]; rfl
    rw [hlast.1 i hi, testChannel, if_pos ((hu.stageOn c).trans hon), (inputsSet_tested u k uA c).inp i hi, if_pos hi]
    simp only [testedInp, hu.inputUa, hu.rd, hsame.1 i hi, hsusp]

theorem execTestSample_next (k : Fin 4) {n : Nat} (uA : FMap Nat) (s : State) (hn : n = 4 * k.val + 1 ∨ n = 4 * k.val + 17) :
    exec (.testSample k n uA) s =
      .next ((if s.inPulse k.val then foldSt Ch.all (testChannel k.val uA) s else s).modSio fun x =>
        { x with pulses := FMap.set false x.pulses k.val false }) := by
  have hmem : (tpIntervals k.val).contains n = true := by simpa [tpIntervals] using hn
  change execTestSample k n uA s = _
  rw [execTestSample, if_pos hmem]
  rfl

theorem testSample_claim (k : Fin 4) (s : State) (n : Nat) (uA : FMap Nat) (hn : n = 4 * k.val + 1 ∨ n = 4 * k.val + 17) :
    ∃ t, exec (.testSample k n uA) s = .next t ∧ FMap.get false t.sio.pulses k.val = false ∧
      t = { s with sio := { s.sio with ins := t.sio.ins, pulses := t.sio.pulses } } ∧
      ∀ (c : Ch), s.stageOn c = true → ∀ i < 24,
        t.sio.inp c i = if s.inPulse k.val then testedInp s k.val uA c i else s.sio.inp c i := by
  refine ⟨_, execTestSample_next k uA s hn, by simp only [State.modSio_sio, FMap.get_set_same], ?_, fun c hon i hi => ?_⟩
  all_goals cases hp : s.inPulse k.val
  · rfl
  · rw [if_pos rfl]
    obtain ⟨hframe, -⟩ := testSample_inputs k.val uA s
    dsimp only at hframe
    rw [hframe]
    rfl
  · rfl
  · rw [if_pos rfl]
    exact (testSample_inputs k.val uA s).2 c hon i hi

theorem testSample_own (k : Fin 4) (s : State) (uA : FMap Nat) (c : Ch) (i : Nat) (hown : s.rd (Reg.SIO_IN_CFG_TP i) = k.val + 1)
    (hs : s.suspended (k.val / 2) = false) :
    testedInp s k.val uA c i = (s.sio.inp c i).test true (400 ≤ s.inputUa uA c i) := by
  simp [testedInp, hown, groupOfTp, hs]

theorem testPulse_claim (k : Fin 4) (s : State) (hd : s.tpDriven = true) (hs : s.suspended (k.val / 2) = false)
    (hoff : FMap.get false s.sio.tpOff k.val = false) :
    ∃ t, exec (.testPulse k) s = .next t ∧ FMap.get false t.sio.pulses k.val = true ∧
      (∀ j, j ≠ k.val → FMap.get false t.sio.pulses j = FMap.get false s.sio.pulses j) ∧
      t = { s with sio := { s.sio with pulses := t.sio.pulses } } := by
  refine ⟨s.modSio fun x => { x with pulses := FMap.set false x.pulses k.val true }, ?_, ?_, fun j hj => ?_, rfl⟩
  · change execTestPulse k s = _
    rw [execTestPulse, if_pos (by simp [hd, groupOfTp, hs, hoff])]
  · exact FMap.get_set_same false s.sio.pulses k.val true
  · exact FMap.get_set_ne false s.sio.pulses true hj

theorem testPulseSupplies_holds : testPulseSupplies := by
  intro k s
  refine ⟨testPulse_claim k s, fun n uA hn => ?_, ?_, fun hovl => ?_, fun hoff hlt => ?_⟩
  · obtain ⟨t, hexec, hpulse, hframe, hinp⟩ := testSample_claim k s n uA hn
    refine ⟨t, hexec, hpulse, hframe, fun c hon i hi => ?_⟩
    dsimp only
    rw [hinp c hon i hi]
    refine ⟨fun h0 => by simp [testedInp, h0], fun hp hd => by simp [State.inPulse, hp, hd], fun hown hs hp => ?_⟩
    rw [if_pos (by simp [State.inPulse, hp]), testSample_own k s uA c i hown hs]
    simp [InStage.test]
  · refine ⟨(s.setBit Reg.SIO_TP_OVL k.val).modSio fun x => { x with tpOff := FMap.set false x.tpOff k.val true }, rfl, ?_,
      FMap.get_set_same false s.sio.tpOff k.val true, ?_, rfl⟩
    · rw [show ∀ u : State, ∀ g, (u.modSio g).rd Reg.SIO_TP_OVL = u.rd Reg.SIO_TP_OVL from fun _ _ => rfl,
        natBit_setBit s (j := k.val) (f := Reg.SIO_TP_OVL) k.isLt]
      simp
    · exact (keepsRegs_wr s (List.mem_singleton_self _) _).of_regs rfl
  · refine ⟨s.modSio fun x => { x with tpOff := FMap.set false x.tpOff k.val false }, ?_,
      FMap.get_set_same false s.sio.tpOff k.val false, rfl⟩
    change execTpRetry k s = _
    rw [execTpRetry, if_pos hovl]
  · have hbit (j : Nat) (hj : j < 4) := natBit_clrBit s (f := Reg.SIO_TP_OVL) (i := k.val) (j := j) hj
    refine ⟨s.clrBit Reg.SIO_TP_OVL k.val, ?_, by rw [hbit _ k.isLt]; simp, fun j hj hjk => ?_,
      keepsRegs_wr s (List.mem_singleton_self _) _, rfl⟩
    · change execTpRetrySuccess k s = _
      rw [execTpRetrySuccess, if_pos (by simp [hoff])]
    · rw [hbit j hj]
      simp [Ne.symm hjk]

/-- Settles O11: an ordinary and a test sample set each input of a powered channel from that input alone (`foldSt_channels`,
`inputsSet_foldSt`). -/
theorem inputSamplesAndTestSupplies : Obligations.InputSamplesAndTestSupplies :=
  ⟨ordinarySampleFilters_holds, testPulseSupplies_holds⟩

end Sys2Proof.Claims
end

section
/-! The event log (R463): what queueing a record changes. -/

namespace Sys2Proof.Claims

open Sys2Proof Sys2Proof.Machine

theorem enqueue_frame (s : State) (e : RecEv) : s.enqueue e = { s with regs := (s.enqueue e).regs, rcd := (s.enqueue e).rcd } := by
  unfold State.enqueue
  dsimp only
  split_ifs <;> rfl

theorem keepsRegs_enqueue (s : State) (e : RecEv) : keepsRegs s (s.enqueue e) logFlds := by
  have hfill : Reg.REC_QUEUE_FILL ∈ logFlds := by simp [logFlds]
  have hhigh : Reg.REC_QUEUE_HIGH ∈ logFlds := by simp [logFlds]
  have hovf : Reg.REC_ERR_Q_OVF ∈ logFlds := by simp [logFlds]
  unfold State.enqueue
  split_ifs
  · exact keepsRegs_refl s _
  · dsimp only
    have hq : keepsRegs s (({ s with rcd := { s.rcd with queue := s.rcd.queue ++ [e] } } : State).wr Reg.REC_QUEUE_FILL
        (s.rcd.queue ++ [e]).length) logFlds := ((keepsRegs_refl s _).of_regs rfl).wr hfill _
    split_ifs
    · exact hq.wr hhigh _
    · exact hq
  · exact (keepsRegs_refl s _).inc hovf

theorem diag_frame (s : State) (sev src inst off : Nat) (detail : List Nat) : s.diag sev src inst off detail =
    { s with regs := (s.diag sev src inst off detail).regs, rcd := (s.diag sev src inst off detail).rcd } := enqueue_frame s _

theorem keepsRegs_diag (s : State) (sev src inst off : Nat) (detail : List Nat) :
    keepsRegs s (s.diag sev src inst off detail) logFlds := keepsRegs_enqueue s _

/-! ### A list of writes -/

/-- The fields of a list written in turn. -/
def writes (l : List (Fld × Nat)) (s : State) : State := l.foldl (fun s e => s.wr e.1 e.2) s

theorem rd_writes_ne (l : List (Fld × Nat)) (s : State) {g : Fld} (hg : ∀ e ∈ l, g.key ≠ e.1.key) : (writes l s).rd g = s.rd g := by
  induction l generalizing s with
  | nil => rfl
  | cons e l ih =>
    exact (ih (s.wr e.1 e.2) fun e' he => hg e' (List.mem_cons_of_mem e he)).trans
      (State.rd_wr_ne s e.1 g e.2 (hg e List.mem_cons_self))

theorem writes_frame (l : List (Fld × Nat)) (s : State) : writes l s = { s with regs := (writes l s).regs } := by
  induction l generalizing s with
  | nil => rfl
  | cons e l ih => exact ih (s.wr e.1 e.2)

/-! ### Counters -/

theorem up_lt (s : State) (f : Fld) : up s f < 2 ^ f.width := by
  have h := Nat.two_pow_pos f.width
  unfold up
  omega

theorem satInc_eq (m v : Nat) : satInc m v = min m (v + 1) := by
  unfold satInc
  split_ifs <;> omega

theorem rd_inc_up (s : State) (f : Fld) : (s.inc f).rd f = up s f := by
  rw [State.inc, satInc_eq]
  exact State.rd_wr_of_lt s (up_lt s f)

theorem diag_sio (s : State) (sev src inst off : Nat) (l : List Nat) : (s.diag sev src inst off l).sio = s.sio := by rw [diag_frame]

theorem diag_dlk (s : State) (sev src inst off : Nat) (l : List Nat) : (s.diag sev src inst off l).dlk = s.dlk := by rw [diag_frame]

end Sys2Proof.Claims
end

section
/-! What an operation on the outputs may do (R246 to R260): driving an output, a latch, a classification. -/

namespace Sys2Proof.Claims

open Sys2Proof Sys2Proof.Machine

variable {s t u : State}

/-! ### The places of the output registers -/

theorem statKey_ne {p q b c : Nat} (hb : b < 32) (hc : c < 32) (h : p ≠ q ∨ b ≠ c) :
    (0x00900500 + p * 4) * 32 + b ≠ (0x00900500 + q * 4) * 32 + c := by omega

/-- The places of the registers below those of the outputs' state. -/
def belowOuts (g : Fld) : Prop := g.key < 0x00900500 * 32

theorem belowOuts.ne {g f : Fld} (hg : belowOuts g) (hf : 0x00900500 * 32 ≤ f.key) : g.key ≠ f.key := by
  unfold belowOuts at hg
  omega

/-! ### The outputs' records -/

theorem out_modOut (s : State) (o : Nat) (f : OutSt → OutSt) (p : Nat) :
    (s.modOut o f).out p = if p = o then f (s.out o) else s.out p := FMap.get_set _ _ _ _ _

theorem out_modOut_same (s : State) (o : Nat) (f : OutSt → OutSt) : (s.modOut o f).out o = f (s.out o) := by
  rw [out_modOut, if_pos rfl]

theorem out_modOut_ne (s : State) {o p : Nat} (f : OutSt → OutSt) (h : p ≠ o) : (s.modOut o f).out p = s.out p := by
  rw [out_modOut, if_neg h]

theorem outKept_refl (s : State) (q : Nat) : outKept s s q := by rfl

theorem outKept_of_eq {q : Nat} (h : t.out q = s.out q) : outKept s t q := by
  unfold outKept
  rw [h]

theorem outKept.trans {q : Nat} (h : outKept s t q) (h' : outKept t u q) : outKept s u q := by
  unfold outKept at h h' ⊢
  rw [h', h]

/-- A latch code that stays, or goes from code 1 to the final code 2 (R254). -/
def Classified (s t : State) (p : Nat) : Prop := t.latchCode p = s.latchCode p ∨ (s.latchCode p = 1 ∧ t.latchCode p = 2)

theorem Classified.refl (s : State) (p : Nat) : Classified s s p := .inl rfl

theorem Classified.trans {p : Nat} (h : Classified s t p) (h' : Classified t u p) : Classified s u p := by
  unfold Classified at *
  omega

theorem Classified.keeps {p : Nat} (h : Classified s t p) (h1 : s.latchCode p ≠ 1) : t.latchCode p = s.latchCode p :=
  h.resolve_right fun h' => h1 h'.1

theorem Classified.of_regs {p : Nat} (h : Classified s t p) (hu : u.regs = t.regs) : Classified s u p := by
  unfold Classified State.latchCode at *
  rwa [State.rd_congr hu]

/-- What an operation on the outputs keeps: all but the outputs' records, their registers and the log; that no test runs; the latch
of a classified output, and both switches of a latched one open. -/
structure OutOp (s t : State) : Prop where
  frame : t = { s with regs := t.regs, sio := { s.sio with outs := t.sio.outs }, rcd := t.rcd }
  below : ∀ g, belowOuts g → t.rd g = s.rd g
  check : ∀ p < 12, s.rdb (Reg.SIO_OUT_STAT_CHECK p) = false → t.rdb (Reg.SIO_OUT_STAT_CHECK p) = false
  pulse : ∀ p, (s.out p).pulse = none → (t.out p).pulse = none
  failHs : ∀ p, (s.out p).failHs = 0 → (t.out p).failHs = 0
  failLs : ∀ p, (s.out p).failLs = 0 → (t.out p).failLs = 0
  rb : ∀ p, (t.out p).rb = (s.out p).rb
  latched : ∀ p < 12, s.latchCode p ≠ 0 → s.latchCode p ≠ 1 → t.latchCode p = s.latchCode p
  off : ∀ p < 12, s.latchCode p ≠ 0 → isOff s p → t.latchCode p ≠ 0 ∧ isOff t p

theorem OutOp.refl (s : State) : OutOp s s :=
  ⟨rfl, fun _ _ => rfl, fun _ _ h => h, fun _ h => h, fun _ h => h, fun _ h => h, fun _ => rfl, fun _ _ _ _ => rfl,
    fun _ _ h h' => ⟨h, h'⟩⟩

theorem OutOp.trans (h : OutOp s t) (h' : OutOp t u) : OutOp s u where
  frame := by rw [h'.frame, h.frame]
  below g hg := (h'.below g hg).trans (h.below g hg)
  check p hp hc := h'.check p hp (h.check p hp hc)
  pulse p hp := h'.pulse p (h.pulse p hp)
  failHs p hp := h'.failHs p (h.failHs p hp)
  failLs p hp := h'.failLs p (h.failLs p hp)
  rb p := (h'.rb p).trans (h.rb p)
  latched p hp h0 h1 := by
    have he := h.latched p hp h0 h1
    rw [h'.latched p hp (he ▸ h0) (he ▸ h1), he]
  off p hp h0 hoff := by
    obtain ⟨h0', hoff'⟩ := h.off p hp h0 hoff
    exact h'.off p hp h0' hoff'

theorem OutOp.foldSt {α : Type} {l : List α} {f : α → State → State} (h : ∀ x s, OutOp s (f x s)) (s : State) :
    OutOp s (foldSt l f s) := by
  induction l generalizing s with
  | nil => exact OutOp.refl s
  | cons x l ih => exact (h x s).trans (ih (f x s))

/-- A step that leaves the outputs' records, their latches, switches and tests. -/
theorem OutOp.of_regs (hframe : t = { s with regs := t.regs, rcd := t.rcd }) (hbelow : ∀ g, belowOuts g → t.rd g = s.rd g)
    (hstat : ∀ p < 12, ∀ b ∈ [20, 25, 26, 27, 28], ∀ g : Fld, g.key = (0x00900500 + p * 4) * 32 + b → t.rd g = s.rd g) : OutOp s t := by
  have hsio : t.sio = s.sio := by rw [hframe]
  have hout (p : Nat) : t.out p = s.out p := by rw [State.out, hsio, State.out]
  have hlatch (p : Nat) (hp : p < 12) : t.latchCode p = s.latchCode p := hstat p hp 28 (by decide) (Reg.SIO_OUT_STAT_LATCH p) rfl
  refine ⟨?_, hbelow, fun p hp h => ?_, fun p h => by rwa [hout], fun p h => by rwa [hout], fun p h => by rwa [hout],
    fun p => by rw [hout], fun p hp _ _ => hlatch p hp, fun p hp h hoff => ⟨by rwa [hlatch p hp], ?_⟩⟩
  · rw [hframe]
  · rwa [State.rdb, hstat p hp 20 (by decide) (Reg.SIO_OUT_STAT_CHECK p) rfl]
  · obtain ⟨hhs, hls, hen⟩ := hoff
    refine ⟨?_, ?_, ?_⟩
    · rwa [State.rdb, hstat p hp 27 (by decide) (Reg.SIO_OUT_STAT_HS p) rfl]
    · rwa [State.rdb, hstat p hp 26 (by decide) (Reg.SIO_OUT_STAT_LS p) rfl]
    · rwa [State.rdb, hstat p hp 25 (by decide) (Reg.SIO_OUT_STAT_ENERGISED p) rfl]

theorem OutOp.wr (s : State) {f : Fld} (v : Nat) (hf : 0x00900500 * 32 ≤ f.key)
    (hstat : ∀ p < 12, ∀ b ∈ [20, 25, 26, 27, 28], (0x00900500 + p * 4) * 32 + b ≠ f.key) : OutOp s (s.wr f v) :=
  OutOp.of_regs rfl (fun g hg => State.rd_wr_ne s f g v (hg.ne hf)) fun p hp b hb g hg =>
    State.rd_wr_ne s f g v (hg ▸ hstat p hp b hb)

/-- A bit of an output's state other than its latch, switches and test. -/
theorem OutOp.wrStat (s : State) (o : Nat) {f : Fld} (v : Nat) {b : Nat} (hf : f.key = (0x00900500 + o * 4) * 32 + b)
    (hb : b < 32) (hne : b ∉ [20, 25, 26, 27, 28]) : OutOp s (s.wr f v) :=
  OutOp.wr s v (by omega) fun p _ c hc => hf ▸ statKey_ne (by simp at hc; omega) hb (.inr fun h => hne (h ▸ hc))

theorem OutOp.outEvent (s : State) (sev o : Nat) : OutOp s (s.outEvent sev o) := by
  have hk := keepsRegs_diag s sev Src.sio (0x100 + o) (0x00900500 + o * 4) []
  refine OutOp.of_regs (diag_frame s _ _ _ _ _) (fun g hg => hk g ?_) fun p hp b hb g hg => hk g ?_
  · unfold belowOuts at hg
    simp only [logFlds, List.mem_cons, List.not_mem_nil, or_false, forall_eq_or_imp, forall_eq, Fld.key, Reg.REC_QUEUE_FILL,
      Reg.REC_QUEUE_HIGH, Reg.REC_ERR_Q_OVF]
    simp only [Fld.key] at hg
    omega
  · have hb' : b < 32 := by simp at hb; omega
    simp only [logFlds, List.mem_cons, List.not_mem_nil, or_false, forall_eq_or_imp, forall_eq, hg]
    simp only [Fld.key, Reg.REC_QUEUE_FILL, Reg.REC_QUEUE_HIGH, Reg.REC_ERR_Q_OVF]
    omega

theorem OutOp.check_off (s : State) (o : Nat) : OutOp s (s.wrb (Reg.SIO_OUT_STAT_CHECK o) false) := by
  have hne {p : Nat} (b : Nat) (hb : b < 32) (h20 : b ≠ 20) {g : Fld} (hg : g.key = (0x00900500 + p * 4) * 32 + b) :
      (s.wrb (Reg.SIO_OUT_STAT_CHECK o) false).rd g = s.rd g :=
    State.rd_wr_ne s _ g _ (hg ▸ statKey_ne hb (c := 20) (by decide) (.inr h20))
  have hlatch (p : Nat) : (s.wrb (Reg.SIO_OUT_STAT_CHECK o) false).latchCode p = s.latchCode p :=
    hne (p := p) 28 (by decide) (by decide) (g := Reg.SIO_OUT_STAT_LATCH p) rfl
  refine ⟨rfl, fun g hg => State.rd_wr_ne s _ g _ (hg.ne (by simp only [Fld.key, Reg.SIO_OUT_STAT_CHECK]; omega)), fun p hp h => ?_,
    fun p h => h, fun p h => h, fun p h => h, fun p => rfl, fun p _ _ _ => hlatch p, fun p _ h hoff => ⟨by rwa [hlatch], ?_⟩⟩
  · by_cases hpo : p = o
    · subst hpo
      exact State.rdb_wrb_same s (f := Reg.SIO_OUT_STAT_CHECK p) (by decide : (1 : Nat) ≠ 0) false
    · rwa [State.rdb_wrb_ne s (f := Reg.SIO_OUT_STAT_CHECK o) (g := Reg.SIO_OUT_STAT_CHECK p) false (statKey_ne (b := 20) (c := 20) (by decide) (by decide) (.inl hpo))]
  · obtain ⟨hhs, hls, hen⟩ := hoff
    refine ⟨?_, ?_, ?_⟩
    · rwa [State.rdb, hne (p := p) 27 (by decide) (by decide) (g := Reg.SIO_OUT_STAT_HS p) rfl]
    · rwa [State.rdb, hne (p := p) 26 (by decide) (by decide) (g := Reg.SIO_OUT_STAT_LS p) rfl]
    · rwa [State.rdb, hne (p := p) 25 (by decide) (by decide) (g := Reg.SIO_OUT_STAT_ENERGISED p) rfl]

/-- A change of an output's record that starts no test. -/
theorem OutOp.modOut (s : State) (o : Nat) {f : OutSt → OutSt} (hpulse : (s.out o).pulse = none → (f (s.out o)).pulse = none)
    (hhs : (s.out o).failHs = 0 → (f (s.out o)).failHs = 0) (hls : (s.out o).failLs = 0 → (f (s.out o)).failLs = 0)
    (hrb : (f (s.out o)).rb = (s.out o).rb) : OutOp s (s.modOut o f) := by
  refine ⟨rfl, fun _ _ => rfl, fun _ _ h => h, fun p h => ?_, fun p h => ?_, fun p h => ?_, fun p => ?_, fun _ _ _ _ => rfl,
    fun _ _ h h' => ⟨h, h'⟩⟩
  all_goals
    rw [out_modOut]
    split_ifs with hpo
    · subst hpo
      simp_all
    · first | exact h | rfl

/-! ### Latch codes -/

theorem latchCode_wr_same (s : State) (o : Nat) {code : Nat} (h : code < 16) :
    (s.wr (Reg.SIO_OUT_STAT_LATCH o) code).latchCode o = code := State.rd_wr_of_lt s h

theorem latchCode_wr_ne (s : State) {o p : Nat} (h : p ≠ o) (code : Nat) :
    (s.wr (Reg.SIO_OUT_STAT_LATCH o) code).latchCode p = s.latchCode p :=
  State.rd_wr_ne s (Reg.SIO_OUT_STAT_LATCH o) (Reg.SIO_OUT_STAT_LATCH p) code
    (statKey_ne (b := 28) (c := 28) (by decide) (by decide) (.inl h))

theorem isOff_wr_latch (s : State) (o code : Nat) {p : Nat} (h : isOff s p) : isOff (s.wr (Reg.SIO_OUT_STAT_LATCH o) code) p := by
  obtain ⟨hhs, hls, hen⟩ := h
  have hne {b : Nat} (g : Fld) (hb : b < 32) (h28 : b ≠ 28) (hg : g.key = (0x00900500 + p * 4) * 32 + b) :
      (s.wr (Reg.SIO_OUT_STAT_LATCH o) code).rdb g = s.rdb g :=
    State.rdb_wr_ne s code (hg ▸ statKey_ne hb (c := 28) (by decide) (.inr h28))
  refine ⟨?_, ?_, ?_⟩
  · rwa [hne (b := 27) (Reg.SIO_OUT_STAT_HS p) (by decide) (by decide) rfl]
  · rwa [hne (b := 26) (Reg.SIO_OUT_STAT_LS p) (by decide) (by decide) rfl]
  · rwa [hne (b := 25) (Reg.SIO_OUT_STAT_ENERGISED p) (by decide) (by decide) rfl]

theorem OutOp.wr_latch (s : State) {o code : Nat} (h : s.latchCode o = 0 ∨ s.latchCode o = 1) (hc : code ≠ 0) (hlt : code < 16) :
    OutOp s (s.wr (Reg.SIO_OUT_STAT_LATCH o) code) := by
  refine ⟨rfl, fun g hg => State.rd_wr_ne s _ g _ (hg.ne (by simp only [Fld.key, Reg.SIO_OUT_STAT_LATCH]; omega)), fun p _ h => ?_,
    fun _ h => h, fun _ h => h, fun _ h => h, fun _ => rfl, fun p _ h0 h1 => ?_, fun p _ h0 hoff => ⟨?_, isOff_wr_latch s o code hoff⟩⟩
  · rwa [State.rdb_wr_ne s (f := Reg.SIO_OUT_STAT_LATCH o) (g := Reg.SIO_OUT_STAT_CHECK p) code
      (statKey_ne (b := 20) (c := 28) (by decide) (by decide) (.inr (by decide)))]
  · exact latchCode_wr_ne s (fun he => by subst he; omega) code
  · by_cases hpo : p = o
    · subst hpo
      rwa [latchCode_wr_same s p hlt]
    · rwa [latchCode_wr_ne s hpo]

/-! ### Classification (R254) -/

theorem classify_outOp (s : State) (o : Nat) (l : List Nat) {code : Nat} (hc : code ≠ 0) (hlt : code < 16) :
    OutOp s (s.classify o code l) := by
  unfold State.classify
  by_cases h1 : s.latchCode o = 1
  · rw [if_pos h1]
    exact (OutOp.wr_latch s (.inr h1) hc hlt).trans (OutOp.modOut _ _ id id id rfl)
  · rw [if_neg h1]
    exact OutOp.refl s

theorem classify_classified (s : State) (o p : Nat) (l : List Nat) : Classified s (s.classify o 2 l) p := by
  unfold State.classify
  by_cases h1 : s.latchCode o = 1
  · rw [if_pos h1]
    refine Classified.of_regs (t := s.wr (Reg.SIO_OUT_STAT_LATCH o) 2) ?_ rfl
    by_cases hpo : p = o
    · subst hpo
      exact .inr ⟨h1, latchCode_wr_same s p (by decide)⟩
    · exact .inl (latchCode_wr_ne s hpo 2)
  · rw [if_neg h1]
    exact Classified.refl s p

theorem classify_out_ne (s : State) {o p : Nat} (hp : p ≠ o) (code : Nat) (l : List Nat) : (s.classify o code l).out p = s.out p := by
  unfold State.classify
  split_ifs
  all_goals first | exact out_modOut_ne _ _ hp | rfl

theorem classify_outKept (s : State) (o q code : Nat) (l : List Nat) : outKept s (s.classify o code l) q := by
  by_cases hq : q = o
  · subst hq
    unfold State.classify outKept
    by_cases h1 : s.latchCode q = 1
    · rw [if_pos h1, out_modOut_same]
      rfl
    · rw [if_neg h1]
  · exact outKept_of_eq (classify_out_ne s hq code l)

theorem classify_latch_ne (s : State) {o p : Nat} (hp : p ≠ o) (code : Nat) (l : List Nat) :
    (s.classify o code l).latchCode p = s.latchCode p := by
  unfold State.classify
  by_cases h1 : s.latchCode o = 1
  · rw [if_pos h1]
    exact latchCode_wr_ne s hp code
  · rw [if_neg h1]

theorem classify_rd (s : State) (o code : Nat) (l : List Nat) {g : Fld} (hg : g.key ≠ (Reg.SIO_OUT_STAT_LATCH o).key) :
    (s.classify o code l).rd g = s.rd g := by
  unfold State.classify
  by_cases h1 : s.latchCode o = 1
  · rw [if_pos h1]
    exact State.rd_wr_ne s _ g code hg
  · rw [if_neg h1]

theorem classify_rcd (s : State) (o code : Nat) (l : List Nat) : (s.classify o code l).rcd = s.rcd := by
  unfold State.classify
  split_ifs <;> rfl

/-- One output's share of `dropAwaited`. -/
def dropAwaitedOf (x o : Nat) (s : State) : State :=
  match (s.out o).awaited with
  | some l =>
    if s.latchCode o = 1 && o ≠ x then
      let l := l.filter (· ≠ x)
      let s := s.modOut o fun y => { y with awaited := some l }
      if l.isEmpty then s.classify o 2 [] else s
    else s
  | none => s

theorem dropAwaited_eq (s : State) (x : Nat) : s.dropAwaited x = foldSt out12 (dropAwaitedOf x) s := by rfl

/-- The share is nothing, or a change of what the output awaits, with or without its classification. -/
theorem dropAwaitedOf_cases (x o : Nat) (s : State) : dropAwaitedOf x o s = s ∨
    (s.latchCode o = 1 ∧ o ≠ x ∧ ∃ l, let u := s.modOut o fun y => { y with awaited := some l }
      dropAwaitedOf x o s = u ∨ dropAwaitedOf x o s = u.classify o 2 []) := by
  unfold dropAwaitedOf
  cases (s.out o).awaited with
  | none => exact .inl rfl
  | some l =>
    dsimp only
    split_ifs with h1 h2
    · simp only [Bool.and_eq_true, decide_eq_true_eq] at h1
      exact .inr ⟨h1.1, h1.2, _, .inr rfl⟩
    · simp only [Bool.and_eq_true, decide_eq_true_eq] at h1
      exact .inr ⟨h1.1, h1.2, _, .inl rfl⟩
    · exact .inl rfl

theorem await_outOp (s : State) (o : Nat) (l : Option (List Nat)) : OutOp s (s.modOut o fun y => { y with awaited := l }) :=
  OutOp.modOut s o id id id rfl

theorem await_outKept (s : State) (o q : Nat) (l : Option (List Nat)) : outKept s (s.modOut o fun y => { y with awaited := l }) q := by
  unfold outKept
  rw [out_modOut]
  split_ifs with h
  · subst h
    rfl
  · rfl

theorem dropAwaited_outOp (s : State) (x : Nat) : OutOp s (s.dropAwaited x) := by
  refine OutOp.foldSt (fun o s => ?_) s
  obtain h | ⟨-, -, l, h | h⟩ := dropAwaitedOf_cases x o s
  · exact (congrArg (OutOp s) h).mpr (OutOp.refl s)
  · exact (congrArg (OutOp s) h).mpr (await_outOp s o _)
  · exact (congrArg (OutOp s) h).mpr ((await_outOp s o _).trans (classify_outOp _ _ _ (by decide) (by decide)))

/-- What each share keeps, in the sense of a transitive relation. -/
theorem dropAwaited_rel {R : State → State → Prop} (hrefl : ∀ s, R s s) (htrans : ∀ {s t u}, R s t → R t u → R s u) {x : Nat}
    (hawait : ∀ s o l, o ≠ x → s.latchCode o = 1 → R s (s.modOut o fun y => { y with awaited := some l }))
    (hclass : ∀ s o, o < 12 → o ≠ x → R s (s.classify o 2 [])) (s : State) : R s (s.dropAwaited x) := by
  rw [dropAwaited_eq]
  have hlt : ∀ o ∈ out12, o < 12 := fun o ho => List.mem_range.1 ho
  revert hlt
  induction out12 generalizing s with
  | nil => exact fun _ => hrefl s
  | cons o l ih =>
    intro hlt
    refine htrans ?_ (ih (dropAwaitedOf x o s) fun p hp => hlt p (List.mem_cons_of_mem o hp))
    obtain h | ⟨h1, hox, l, h | h⟩ := dropAwaitedOf_cases x o s <;> rw [h]
    · exact hrefl s
    · exact hawait s o l hox h1
    · exact htrans (hawait s o l hox h1) (hclass _ o (hlt o List.mem_cons_self) hox)

theorem dropAwaited_classified (s : State) (x p : Nat) : Classified s (s.dropAwaited x) p :=
  dropAwaited_rel (R := fun s t => Classified s t p) (fun s => Classified.refl s p) Classified.trans
    (fun s _ _ _ _ => (Classified.refl s p).of_regs rfl) (fun s o _ _ => classify_classified s o p []) s

theorem dropAwaited_outKept (s : State) (x q : Nat) : outKept s (s.dropAwaited x) q :=
  dropAwaited_rel (R := fun s t => outKept s t q) (fun s => outKept_refl s q) outKept.trans
    (fun s o _ _ _ => await_outKept s o q _) (fun s o _ _ => classify_outKept s o q 2 []) s

theorem dropAwaited_out_same (s : State) (x : Nat) : (s.dropAwaited x).out x = s.out x :=
  dropAwaited_rel (R := fun s t => t.out x = s.out x) (fun _ => rfl) (fun h h' => h'.trans h)
    (fun s _ _ hox _ => out_modOut_ne s _ (Ne.symm hox)) (fun s _ _ hox => classify_out_ne s (Ne.symm hox) 2 []) s

theorem dropAwaited_latch_same (s : State) (x : Nat) : (s.dropAwaited x).latchCode x = s.latchCode x :=
  dropAwaited_rel (R := fun s t => t.latchCode x = s.latchCode x) (fun _ => rfl) (fun h h' => h'.trans h)
    (fun _ _ _ _ _ => rfl) (fun s _ _ hox => classify_latch_ne s (Ne.symm hox) 2 []) s

theorem dropAwaited_rcd (s : State) (x : Nat) : (s.dropAwaited x).rcd = s.rcd :=
  dropAwaited_rel (R := fun s t => t.rcd = s.rcd) (fun _ => rfl) (fun h h' => h'.trans h) (fun _ _ _ _ _ => rfl)
    (fun s o _ _ => classify_rcd s o 2 []) s

/-- Nothing is under classification. -/
theorem dropAwaited_none (s : State) (x : Nat) (h : ∀ o < 12, s.latchCode o ≠ 1) : s.dropAwaited x = s := by
  rw [dropAwaited_eq]
  have hstep (o : Nat) (ho : o ∈ out12) : dropAwaitedOf x o s = s :=
    (dropAwaitedOf_cases x o s).resolve_right fun h' => h o (List.mem_range.1 ho) h'.1
  revert hstep
  induction out12 with
  | nil => intro; rfl
  | cons o l ih =>
    intro hstep
    change foldSt l (dropAwaitedOf x) (dropAwaitedOf x o s) = s
    rw [hstep o List.mem_cons_self]
    exact ih fun p hp => hstep p (List.mem_cons_of_mem o hp)

theorem dropAwaited_rd (s : State) (x : Nat) (g : Fld) (hg : ∀ o < 12, g.key ≠ (Reg.SIO_OUT_STAT_LATCH o).key) :
    (s.dropAwaited x).rd g = s.rd g :=
  dropAwaited_rel (R := fun s t => t.rd g = s.rd g) (fun _ => rfl) (fun h h' => h'.trans h) (fun _ _ _ _ _ => rfl)
    (fun s o ho _ => classify_rd s o 2 [] (hg o ho)) s

/-! ### Driving the switches -/

/-- The high side that an output is driven to. -/
def highClosed (s : State) (o : Nat) : Bool := s.mayClose o && (s.out o).onHs && (s.out o).pulse ≠ some false

/-- The three switch bits written. -/
def driveBits (s : State) (o : Nat) : State :=
  ((s.wrb (Reg.SIO_OUT_STAT_HS o) (highClosed s o)).wrb (Reg.SIO_OUT_STAT_LS o) (s.lowClosed o)).wrb (Reg.SIO_OUT_STAT_ENERGISED o)
    (highClosed s o && s.lowClosed o)

/-- The warnings of an output cleared. -/
def clearWarnings (s : State) (o : Nat) : State :=
  ((s.wrb (Reg.SIO_OUT_STAT_OPEN_LOAD o) false).wrb (Reg.SIO_OUT_STAT_IMBAL o) false).wr (Reg.SIO_OUT_STAT_CURRENT o) 0

theorem drive_eq (s : State) (o : Nat) : s.drive o =
    if highClosed s o && s.lowClosed o then driveBits s o
    else if (s.out o).pulse = none then
      (clearWarnings (driveBits s o) o).dropAwaited o
    else driveBits s o := by rfl

theorem statBit_ne (s : State) {o p b c : Nat} {f g : Fld} (v : Nat) (hf : f.key = (0x00900500 + o * 4) * 32 + c)
    (hg : g.key = (0x00900500 + p * 4) * 32 + b) (hb : b < 32) (hc : c < 32) (h : p ≠ o ∨ b ≠ c) : (s.wr f v).rd g = s.rd g :=
  State.rd_wr_ne s f g v (by rw [hf, hg]; exact statKey_ne hb hc h)

theorem driveBits_rd (s : State) (o : Nat) {p b : Nat} {g : Fld} (hg : g.key = (0x00900500 + p * 4) * 32 + b) (hb : b < 32)
    (h : p ≠ o ∨ b ∉ [25, 26, 27]) : (driveBits s o).rd g = s.rd g := by
  have hne (c : Nat) (hc : c ∈ [25, 26, 27]) : p ≠ o ∨ b ≠ c := h.imp_right fun hb he => hb (he ▸ hc)
  rw [driveBits, State.wrb, statBit_ne (f := Reg.SIO_OUT_STAT_ENERGISED o) (c := 25) _ _ rfl hg hb (by decide) (hne _ (by decide)), State.wrb,
    statBit_ne (f := Reg.SIO_OUT_STAT_LS o) (c := 26) _ _ rfl hg hb (by decide) (hne _ (by decide)), State.wrb,
    statBit_ne (f := Reg.SIO_OUT_STAT_HS o) (c := 27) _ _ rfl hg hb (by decide) (hne _ (by decide))]

theorem driveBits_below (s : State) (o : Nat) {g : Fld} (hg : belowOuts g) : (driveBits s o).rd g = s.rd g := by
  rw [driveBits, State.wrb, State.rd_wr_ne _ _ g _ (hg.ne (by simp only [Fld.key, Reg.SIO_OUT_STAT_ENERGISED]; omega)), State.wrb,
    State.rd_wr_ne _ _ g _ (hg.ne (by simp only [Fld.key, Reg.SIO_OUT_STAT_LS]; omega)), State.wrb,
    State.rd_wr_ne _ _ g _ (hg.ne (by simp only [Fld.key, Reg.SIO_OUT_STAT_HS]; omega))]

theorem driveBits_values (s : State) (o : Nat) : (driveBits s o).rdb (Reg.SIO_OUT_STAT_HS o) = highClosed s o ∧
    (driveBits s o).rdb (Reg.SIO_OUT_STAT_LS o) = s.lowClosed o ∧
    (driveBits s o).rdb (Reg.SIO_OUT_STAT_ENERGISED o) = (highClosed s o && s.lowClosed o) := by
  unfold driveBits
  refine ⟨?_, ?_, State.rdb_wrb_same _ (f := Reg.SIO_OUT_STAT_ENERGISED o) (by decide : (1 : Nat) ≠ 0) _⟩
  · rw [State.rdb_wrb_ne _ (f := Reg.SIO_OUT_STAT_ENERGISED o) (g := Reg.SIO_OUT_STAT_HS o) _
        (statKey_ne (b := 27) (c := 25) (by decide) (by decide) (.inr (by decide))),
      State.rdb_wrb_ne _ (f := Reg.SIO_OUT_STAT_LS o) (g := Reg.SIO_OUT_STAT_HS o) _
        (statKey_ne (b := 27) (c := 26) (by decide) (by decide) (.inr (by decide)))]
    exact State.rdb_wrb_same _ (f := Reg.SIO_OUT_STAT_HS o) (by decide : (1 : Nat) ≠ 0) _
  · rw [State.rdb_wrb_ne _ (f := Reg.SIO_OUT_STAT_ENERGISED o) (g := Reg.SIO_OUT_STAT_LS o) _
        (statKey_ne (b := 26) (c := 25) (by decide) (by decide) (.inr (by decide)))]
    exact State.rdb_wrb_same _ (f := Reg.SIO_OUT_STAT_LS o) (by decide : (1 : Nat) ≠ 0) _

theorem mayClose_latched (s : State) {o : Nat} (h : s.latchCode o ≠ 0) : s.mayClose o = false := by
  simp [State.mayClose, State.heldOff, h]

theorem highClosed_off (s : State) {o : Nat} (h : s.mayClose o = false) : highClosed s o = false := by simp [highClosed, h]

theorem lowClosed_off (s : State) {o : Nat} (h : s.mayClose o = false) : s.lowClosed o = false := by simp [State.lowClosed, h]

theorem driveBits_isOff (s : State) {o : Nat} (h : s.mayClose o = false) : isOff (driveBits s o) o := by
  obtain ⟨hhs, hls, hen⟩ := driveBits_values s o
  refine ⟨hhs.trans (highClosed_off s h), hls.trans (lowClosed_off s h), hen.trans ?_⟩
  rw [highClosed_off s h, Bool.false_and]

theorem isOff_of_rd {p : Nat} (h : isOff s p) (hr : ∀ b ∈ [25, 26, 27], ∀ g : Fld, g.key = (0x00900500 + p * 4) * 32 + b → t.rd g = s.rd g) :
    isOff t p := by
  obtain ⟨hhs, hls, hen⟩ := h
  refine ⟨?_, ?_, ?_⟩
  · rwa [State.rdb, hr 27 (by decide) (Reg.SIO_OUT_STAT_HS p) rfl]
  · rwa [State.rdb, hr 26 (by decide) (Reg.SIO_OUT_STAT_LS p) rfl]
  · rwa [State.rdb, hr 25 (by decide) (Reg.SIO_OUT_STAT_ENERGISED p) rfl]

theorem OutOp.driveBits (s : State) (o : Nat) : OutOp s (driveBits s o) := by
  have hlatch (p : Nat) : (Claims.driveBits s o).latchCode p = s.latchCode p :=
    driveBits_rd s o (g := Reg.SIO_OUT_STAT_LATCH p) (p := p) (b := 28) rfl (by decide) (.inr (by decide))
  refine ⟨rfl, fun g hg => driveBits_below s o hg, fun p _ h => ?_, fun _ h => h, fun _ h => h, fun _ h => h, fun _ => rfl,
    fun p _ _ _ => hlatch p, fun p _ h0 hoff => ⟨by rwa [hlatch], ?_⟩⟩
  · rwa [State.rdb, driveBits_rd s o (g := Reg.SIO_OUT_STAT_CHECK p) (p := p) (b := 20) rfl (by decide) (.inr (by decide))]
  · by_cases hpo : p = o
    · subst hpo
      exact driveBits_isOff s (mayClose_latched s h0)
    · exact isOff_of_rd hoff fun b hb g hg => driveBits_rd s o hg (by simp at hb; omega) (.inl hpo)

/-- Driving an output is writing its switch bits, and once it is off the clearing of its warnings and of what awaits it. -/
theorem drive_cases (s : State) (o : Nat) : s.drive o = driveBits s o ∨
    ((s.out o).pulse = none ∧ s.drive o = (clearWarnings (driveBits s o) o).dropAwaited o) := by
  rw [drive_eq]
  split_ifs with h1 h2
  · exact .inl rfl
  · exact .inr ⟨h2, rfl⟩
  · exact .inl rfl

theorem clearWarnings_out (s : State) (o p : Nat) : (clearWarnings s o).out p = s.out p := by rfl

theorem driveBits_out (s : State) (o p : Nat) : (driveBits s o).out p = s.out p := by rfl

theorem clearWarnings_rd (s : State) (o : Nat) {p b : Nat} {g : Fld} (hg : g.key = (0x00900500 + p * 4) * 32 + b) (hb : b < 32)
    (h : p ≠ o ∨ b ∉ [0, 21, 22]) : (clearWarnings s o).rd g = s.rd g := by
  have hne (c : Nat) (hc : c ∈ [0, 21, 22]) : p ≠ o ∨ b ≠ c := h.imp_right fun hb he => hb (he ▸ hc)
  rw [clearWarnings, statBit_ne (f := Reg.SIO_OUT_STAT_CURRENT o) (c := 0) _ _ rfl hg hb (by decide) (hne _ (by decide)), State.wrb,
    statBit_ne (f := Reg.SIO_OUT_STAT_IMBAL o) (c := 21) _ _ rfl hg hb (by decide) (hne _ (by decide)), State.wrb,
    statBit_ne (f := Reg.SIO_OUT_STAT_OPEN_LOAD o) (c := 22) _ _ rfl hg hb (by decide) (hne _ (by decide))]

theorem OutOp.clearWarnings (s : State) (o : Nat) : OutOp s (clearWarnings s o) :=
  ((OutOp.wrStat s o _ (f := Reg.SIO_OUT_STAT_OPEN_LOAD o) (b := 22) rfl (by decide) (by decide)).trans
    (OutOp.wrStat _ o _ (f := Reg.SIO_OUT_STAT_IMBAL o) (b := 21) rfl (by decide) (by decide))).trans
    (OutOp.wrStat _ o _ (f := Reg.SIO_OUT_STAT_CURRENT o) (b := 0) rfl (by decide) (by decide))

theorem drive_outOp (s : State) (o : Nat) : OutOp s (s.drive o) := by
  obtain h | ⟨-, h⟩ := drive_cases s o <;> rw [h]
  · exact OutOp.driveBits s o
  · exact ((OutOp.driveBits s o).trans (OutOp.clearWarnings _ o)).trans (dropAwaited_outOp _ o)

theorem drive_rd (s : State) (o : Nat) {p b : Nat} {g : Fld} (hg : g.key = (0x00900500 + p * 4) * 32 + b) (hb : b < 28)
    (h : p ≠ o ∨ b ∉ [0, 21, 22, 25, 26, 27]) : (s.drive o).rd g = s.rd g := by
  have hbits := driveBits_rd s o hg (by omega) (h.imp_right fun hb he => hb (List.mem_append_right [0, 21, 22] he))
  obtain h' | ⟨-, h'⟩ := drive_cases s o <;> rw [h']
  · exact hbits
  · rw [dropAwaited_rd _ _ g fun q _ => hg ▸ statKey_ne (c := 28) (by omega) (by decide) (.inr (by omega))]
    exact (clearWarnings_rd _ o hg (by omega) (h.imp_right fun hb he => hb (List.mem_append_left [25, 26, 27] he))).trans hbits

/-- The switch bits of an output that has been driven. -/
theorem drive_bit (s : State) (o : Nat) {b : Nat} {g : Fld} (hg : g.key = (0x00900500 + o * 4) * 32 + b) (hb : b ∈ [25, 26, 27]) :
    (s.drive o).rd g = (driveBits s o).rd g := by
  have hb' : b = 25 ∨ b = 26 ∨ b = 27 := by simpa using hb
  obtain h' | ⟨-, h'⟩ := drive_cases s o
  · rw [h']
  rw [h', dropAwaited_rd _ _ g fun q _ => hg ▸ statKey_ne (c := 28) (by omega) (by decide) (.inr (by omega))]
  exact clearWarnings_rd _ o hg (by omega) (.inr (by simp; omega))

theorem drive_hs (s : State) (o : Nat) : (s.drive o).rdb (Reg.SIO_OUT_STAT_HS o) = highClosed s o := by
  rw [State.rdb, drive_bit s o (g := Reg.SIO_OUT_STAT_HS o) (b := 27) rfl (by decide)]
  exact (driveBits_values s o).1

theorem drive_ls (s : State) (o : Nat) : (s.drive o).rdb (Reg.SIO_OUT_STAT_LS o) = s.lowClosed o := by
  rw [State.rdb, drive_bit s o (g := Reg.SIO_OUT_STAT_LS o) (b := 26) rfl (by decide)]
  exact (driveBits_values s o).2.1

theorem drive_energised (s : State) (o : Nat) :
    (s.drive o).rdb (Reg.SIO_OUT_STAT_ENERGISED o) = (highClosed s o && s.lowClosed o) := by
  rw [State.rdb, drive_bit s o (g := Reg.SIO_OUT_STAT_ENERGISED o) (b := 25) rfl (by decide)]
  exact (driveBits_values s o).2.2

theorem drive_isOff (s : State) {o : Nat} (h : s.mayClose o = false) : isOff (s.drive o) o :=
  isOff_of_rd (driveBits_isOff s h) fun _ hb _ hg => drive_bit s o hg hb

/-- The registers outside those of the outputs' state. -/
theorem drive_rd_outside (s : State) {o : Nat} (ho : o < 12) {g : Fld} (hg : ∀ p < 12, ∀ b < 32, g.key ≠ (0x00900500 + p * 4) * 32 + b) :
    (s.drive o).rd g = s.rd g := by
  have hne (f : Fld) {b : Nat} (hf : f.key = (0x00900500 + o * 4) * 32 + b) (hb : b < 32) : g.key ≠ f.key := hf ▸ hg o ho b hb
  have hbits : (driveBits s o).rd g = s.rd g := by
    rw [driveBits, State.rd_wrb_ne _ _ g _ (hne (Reg.SIO_OUT_STAT_ENERGISED o) (b := 25) rfl (by decide)),
      State.rd_wrb_ne _ _ g _ (hne (Reg.SIO_OUT_STAT_LS o) (b := 26) rfl (by decide)),
      State.rd_wrb_ne _ _ g _ (hne (Reg.SIO_OUT_STAT_HS o) (b := 27) rfl (by decide))]
  obtain h | ⟨-, h⟩ := drive_cases s o <;> rw [h]
  · exact hbits
  · rw [dropAwaited_rd _ _ g fun q hq => hg q hq 28 (by decide), clearWarnings,
      State.rd_wr_ne _ _ g _ (hne (Reg.SIO_OUT_STAT_CURRENT o) (b := 0) rfl (by decide)),
      State.rd_wrb_ne _ _ g _ (hne (Reg.SIO_OUT_STAT_IMBAL o) (b := 21) rfl (by decide)),
      State.rd_wrb_ne _ _ g _ (hne (Reg.SIO_OUT_STAT_OPEN_LOAD o) (b := 22) rfl (by decide)), hbits]

theorem drive_classified (s : State) (o p : Nat) : Classified s (s.drive o) p := by
  have hbits : Classified s (driveBits s o) p :=
    .inl (driveBits_rd s o (g := Reg.SIO_OUT_STAT_LATCH p) (p := p) (b := 28) rfl (by decide) (.inr (by decide)))
  obtain h | ⟨-, h⟩ := drive_cases s o <;> rw [h]
  · exact hbits
  · have hclear : Classified (driveBits s o) (clearWarnings (driveBits s o) o) p :=
      .inl (clearWarnings_rd _ o (g := Reg.SIO_OUT_STAT_LATCH p) (p := p) (b := 28) rfl (by decide) (.inr (by decide)))
    exact hbits.trans (hclear.trans (dropAwaited_classified _ o p))

theorem drive_latch_same (s : State) (o : Nat) : (s.drive o).latchCode o = s.latchCode o := by
  have hbits : (driveBits s o).latchCode o = s.latchCode o :=
    driveBits_rd s o (g := Reg.SIO_OUT_STAT_LATCH o) (p := o) (b := 28) rfl (by decide) (.inr (by decide))
  obtain h | ⟨-, h⟩ := drive_cases s o <;> rw [h]
  · exact hbits
  · rw [dropAwaited_latch_same]
    exact (clearWarnings_rd _ o (g := Reg.SIO_OUT_STAT_LATCH o) (p := o) (b := 28) rfl (by decide) (.inr (by decide))).trans hbits

theorem drive_out_same (s : State) (o : Nat) : (s.drive o).out o = s.out o := by
  obtain h | ⟨-, h⟩ := drive_cases s o <;> rw [h]
  · rfl
  · rw [dropAwaited_out_same, clearWarnings_out]
    rfl

theorem drive_outKept (s : State) (o q : Nat) : outKept s (s.drive o) q := by
  obtain h | ⟨-, h⟩ := drive_cases s o <;> rw [h]
  · exact outKept_refl s q
  · exact outKept.trans (outKept_of_eq ((clearWarnings_out _ o q).trans (driveBits_out s o q))) (dropAwaited_outKept _ o q)

theorem drive_rcd (s : State) (o : Nat) : (s.drive o).rcd = s.rcd := by
  obtain h | ⟨-, h⟩ := drive_cases s o <;> rw [h]
  · rfl
  · exact dropAwaited_rcd _ o

theorem OutOp.onlySioRec (h : OutOp s t) : onlySioRec s t := by
  unfold Claims.onlySioRec
  rw [h.frame]

theorem OutOp.onlySio (h : OutOp s t) (hr : t.rcd = s.rcd) : onlySio s t := by
  unfold Claims.onlySio
  rw [h.frame, hr]

end Sys2Proof.Claims
end

section
/-! The latches of the outputs (R253, R254), and the claims about tests, latches and warnings. -/

namespace Sys2Proof.Claims

open Sys2Proof Sys2Proof.Machine

variable {s t u : State}

/-! ### A latch -/

theorem partner_lt {o q : Nat} (ho : o < 12) (h : s.partner o = some q) : q < 12 ∧ q ≠ o := by
  unfold State.partner at h
  split_ifs at h with h1 h2
  all_goals
    simp only [Option.some.injEq, Bool.and_eq_true, decide_eq_true_eq] at h h1
    omega

/-- An off-pulse of an output ended by its partner's latch. -/
def endPulse (q : Nat) (s : State) : State :=
  if (s.out q).pulse = none then s
  else (s.modOut q fun x => { x with pulse := none }).wrb (Reg.SIO_OUT_STAT_CHECK q) false

theorem endPulse_outOp (q : Nat) (s : State) : OutOp s (endPulse q s) := by
  unfold endPulse
  split_ifs
  · exact OutOp.refl s
  · exact (OutOp.modOut (f := fun x => { x with pulse := none }) s q (fun _ => rfl) id id rfl).trans (OutOp.check_off _ q)

theorem endPulse_latch (q p : Nat) (s : State) : (endPulse q s).latchCode p = s.latchCode p := by
  unfold endPulse
  split_ifs
  · rfl
  · exact statBit_ne (f := Reg.SIO_OUT_STAT_CHECK q) (g := Reg.SIO_OUT_STAT_LATCH p) (c := 20) (b := 28) _ _ rfl rfl (by decide)
      (by decide) (.inr (by decide))

/-- The partner of an output that latched. -/
def openPartner (o : Nat) (s : State) : State :=
  match s.partner o with
  | some q => (endPulse q (s.wrb (Reg.SIO_OUT_STAT_HOLD q) false)).drive q
  | none => s

theorem openPartner_outOp (o : Nat) (s : State) : OutOp s (openPartner o s) := by
  unfold openPartner
  cases s.partner o with
  | none => exact OutOp.refl s
  | some q =>
    have hhold : OutOp s (s.wrb (Reg.SIO_OUT_STAT_HOLD q) false) :=
      OutOp.wrStat s q _ (f := Reg.SIO_OUT_STAT_HOLD q) (b := 24) rfl (by decide) (by decide)
    exact (hhold.trans (endPulse_outOp q _)).trans (drive_outOp _ q)

theorem openPartner_classified (o p : Nat) (s : State) : Classified s (openPartner o s) p := by
  unfold openPartner
  cases s.partner o with
  | none => exact Classified.refl s p
  | some q =>
    have hhold : (s.wrb (Reg.SIO_OUT_STAT_HOLD q) false).latchCode p = s.latchCode p :=
      statBit_ne (f := Reg.SIO_OUT_STAT_HOLD q) (g := Reg.SIO_OUT_STAT_LATCH p) (c := 24) (b := 28) s _ rfl rfl (by decide) (by decide)
        (.inr (by decide))
    exact Classified.trans (.inl ((endPulse_latch q p _).trans hhold)) (drive_classified _ q p)

/-- The marks of a latch: code, count, no hold, no test. -/
def latchMarks (s : State) (o code : Nat) : State :=
  ((((s.wr (Reg.SIO_OUT_STAT_LATCH o) code).inc (Reg.SIO_OUT_COUNT_LATCHES o)).wrb (Reg.SIO_OUT_STAT_HOLD o) false).modOut o fun x =>
    { x with causeClear := false, lowSince := none, pulse := none, due := none, failHs := 0, failLs := 0, offHs := 0, offLs := 0 }).wrb
      (Reg.SIO_OUT_STAT_CHECK o) false

theorem latchOut_eq (s : State) (o code : Nat) : s.latchOut o code =
    if s.latchCode o ≠ 0 then s.outEvent 5 o else openPartner o (((latchMarks s o code).drive o).outEvent 5 o) := by rfl

theorem OutOp.latchMarks (s : State) {o code : Nat} (h : s.latchCode o = 0) (hc : code ≠ 0) (hlt : code < 16) :
    OutOp s (latchMarks s o code) := by
  refine ((((OutOp.wr_latch s (.inl h) hc hlt).trans (OutOp.wr _ (f := Reg.SIO_OUT_COUNT_LATCHES o) _ ?_ ?_)).trans
    (OutOp.wrStat _ o _ (f := Reg.SIO_OUT_STAT_HOLD o) (b := 24) rfl (by decide) (by decide))).trans
    (OutOp.modOut _ o (fun _ => rfl) (fun _ => rfl) (fun _ => rfl) rfl)).trans (OutOp.check_off _ o)
  · simp only [Fld.key, Reg.SIO_OUT_COUNT_LATCHES]
    omega
  · intro p hp b hb
    simp at hb
    simp only [Fld.key, Reg.SIO_OUT_COUNT_LATCHES]
    omega

theorem latchMarks_latch (s : State) (o code p : Nat) :
    (latchMarks s o code).latchCode p = (s.wr (Reg.SIO_OUT_STAT_LATCH o) code).latchCode p := by
  have hcheck := fun s : State => statBit_ne (f := Reg.SIO_OUT_STAT_CHECK o) (g := Reg.SIO_OUT_STAT_LATCH p) (c := 20) (b := 28) s
    (bitNat false) rfl rfl (by decide) (by decide) (.inr (by decide))
  have hhold := fun s : State => statBit_ne (f := Reg.SIO_OUT_STAT_HOLD o) (g := Reg.SIO_OUT_STAT_LATCH p) (c := 24) (b := 28) s
    (bitNat false) rfl rfl (by decide) (by decide) (.inr (by decide))
  have hcount := fun s : State => State.rd_inc_ne s (Reg.SIO_OUT_COUNT_LATCHES o) (Reg.SIO_OUT_STAT_LATCH p)
    (by simp only [Fld.key, Reg.SIO_OUT_COUNT_LATCHES, Reg.SIO_OUT_STAT_LATCH]; omega)
  exact (hcheck _).trans ((hhold _).trans (hcount _))

theorem latchOut_outOp (s : State) (o : Nat) {code : Nat} (hc : code ≠ 0) (hlt : code < 16) : OutOp s (s.latchOut o code) := by
  rw [latchOut_eq]
  split_ifs with h
  · exact OutOp.outEvent s 5 o
  · have h0 : s.latchCode o = 0 := not_not.mp h
    exact (((OutOp.latchMarks s h0 hc hlt).trans (drive_outOp _ o)).trans (OutOp.outEvent _ 5 o)).trans (openPartner_outOp o _)

theorem outEvent_latch (s : State) (sev o : Nat) {p : Nat} (hp : p < 12) : (s.outEvent sev o).latchCode p = s.latchCode p := by
  refine keepsRegs_diag s sev Src.sio (0x100 + o) (0x00900500 + o * 4) [] (Reg.SIO_OUT_STAT_LATCH p) ?_
  simp only [logFlds, List.mem_cons, List.not_mem_nil, or_false, forall_eq_or_imp, forall_eq, Fld.key, Reg.REC_QUEUE_FILL,
    Reg.REC_QUEUE_HIGH, Reg.REC_ERR_Q_OVF, Reg.SIO_OUT_STAT_LATCH]
  omega

theorem latchOut_classified (s : State) {o p : Nat} (hp : p < 12) (hpo : p ≠ o) (code : Nat) : Classified s (s.latchOut o code) p := by
  rw [latchOut_eq]
  split_ifs with h
  · exact .inl (outEvent_latch s 5 o hp)
  · have hmarks : Classified s (latchMarks s o code) p := .inl ((latchMarks_latch s o code p).trans (latchCode_wr_ne s hpo code))
    have hevent : Classified ((latchMarks s o code).drive o) (((latchMarks s o code).drive o).outEvent 5 o) p :=
      .inl (outEvent_latch _ 5 o hp)
    exact ((hmarks.trans (drive_classified _ o p)).trans hevent).trans (openPartner_classified o p _)

/-- An output without a latch takes the code, or the final code 2 in the place of code 1 at once, and is off. -/
theorem latchOut_latches (s : State) {o code : Nat} (ho : o < 12) (h0 : s.latchCode o = 0) (hc : code ≠ 0) (hlt : code < 16) :
    ((s.latchOut o code).latchCode o = code ∨ (code = 1 ∧ (s.latchOut o code).latchCode o = 2)) ∧ isOff (s.latchOut o code) o := by
  rw [latchOut_eq, if_neg (not_not.mpr h0)]
  have hmarks : (latchMarks s o code).latchCode o = code := (latchMarks_latch s o code o).trans (latchCode_wr_same s o hlt)
  have hdrive : ((latchMarks s o code).drive o).latchCode o = code := (drive_latch_same _ o).trans hmarks
  have hoff : isOff ((latchMarks s o code).drive o) o := 
    drive_isOff _ (mayClose_latched (latchMarks s o code) (by rw [hmarks]; exact hc))
  obtain ⟨hev, hevoff⟩ := (OutOp.outEvent ((latchMarks s o code).drive o) 5 o).off o ho (by rw [hdrive]; exact hc) hoff
  have hevent := (outEvent_latch ((latchMarks s o code).drive o) 5 o ho).trans hdrive
  refine ⟨?_, ((openPartner_outOp o _).off o ho hev hevoff).2⟩
  have := openPartner_classified o o (((latchMarks s o code).drive o).outEvent 5 o)
  unfold Classified at this
  omega

theorem latchOut_code (s : State) {o code : Nat} (ho : o < 12) (h0 : s.latchCode o = 0) (hc : code ≠ 0) (h1 : code ≠ 1) (hlt : code < 16) :
    (s.latchOut o code).latchCode o = code ∧ isOff (s.latchOut o code) o := by
  obtain ⟨hl, hoff⟩ := latchOut_latches s ho h0 hc hlt
  exact ⟨hl.resolve_right fun h => h1 h.1, hoff⟩

/-- An output that is latched with a final code and off stays so. -/
theorem OutOp.latchedOff (h : OutOp s t) {p code : Nat} (hp : p < 12) (hl : s.latchCode p = code) (hoff : isOff s p) (h0 : code ≠ 0)
    (h1 : code ≠ 1) : t.latchCode p = code ∧ isOff t p :=
  ⟨(h.latched p hp (hl ▸ h0) (hl ▸ h1)).trans hl, (h.off p hp (hl ▸ h0) hoff).2⟩

/-! ### The readback latch and the classification by an off-pulse -/

theorem latchReadback_outOp (s : State) (o : Nat) : OutOp s (s.latchReadback o) := by
  have hl := latchOut_outOp s o (code := 1) (by decide) (by decide)
  unfold State.latchReadback
  dsimp only
  split_ifs
  · exact hl
  · exact (hl.trans (await_outOp _ o _)).trans (classify_outOp _ o [] (by decide) (by decide))
  · exact hl.trans (await_outOp _ o _)

theorem latchReadback_latches (s : State) {o : Nat} (ho : o < 12) (h0 : s.latchCode o = 0) :
    ((s.latchReadback o).latchCode o = 1 ∨ (s.latchReadback o).latchCode o = 2) ∧ isOff (s.latchReadback o) o := by
  obtain ⟨hl, hoff⟩ := latchOut_latches s ho h0 (code := 1) (by decide) (by decide)
  have hne : (s.latchOut o 1).latchCode o ≠ 0 := by omega
  unfold State.latchReadback
  rw [h0]
  dsimp only
  generalize (out12.filter fun q => q ≠ o && (s.latchOut o 1).partner o ≠ some q && (s.latchOut o 1).isOn q) = aw
  have haw := (await_outOp (s.latchOut o 1) o (some aw)).off o ho hne hoff
  have hlaw : ((s.latchOut o 1).modOut o fun x => { x with awaited := some aw }).latchCode o = (s.latchOut o 1).latchCode o := rfl
  rw [if_neg (by decide)]
  cases aw.isEmpty
  case true =>
    rw [if_pos rfl]
    have hc := classify_classified ((s.latchOut o 1).modOut o fun x => { x with awaited := some aw }) o o []
    refine ⟨?_, ((classify_outOp _ o [] (by decide) (by decide)).off o ho haw.1 haw.2).2⟩
    unfold Classified at hc
    omega
  case false =>
    rw [if_neg (by decide)]
    exact ⟨by omega, haw.2⟩

theorem judgeWired_outOp (s : State) (x : Nat) (plus : FMap Nat) : OutOp s (s.judgeWired x plus) := by
  unfold State.judgeWired
  generalize (out12.filter fun o => s.latchCode o = 1 && ((s.out o).awaited.getD []).contains x &&
    FMap.get 0 plus o * 5 < s.unMv (groupOfOut o)) = wired
  have hfold : OutOp s (foldSt wired (fun o s => s.classify o 3 [x]) s) :=
    OutOp.foldSt (fun o s => classify_outOp s o [x] (by decide) (by decide)) s
  refine hfold.trans (OutOp.trans ?_ (dropAwaited_outOp _ x))
  split_ifs
  · exact OutOp.refl _
  · exact (latchOut_outOp _ x (by decide) (by decide)).trans (await_outOp _ x _)
  · exact (OutOp.outEvent _ 5 x).trans (await_outOp _ x _)

theorem judgeWired_none (s : State) (x : Nat) (plus : FMap Nat) (h : ∀ o < 12, s.latchCode o ≠ 1) : s.judgeWired x plus = s := by
  have hwired : (out12.filter fun o => s.latchCode o = 1 && ((s.out o).awaited.getD []).contains x &&
      FMap.get 0 plus o * 5 < s.unMv (groupOfOut o)) = [] := by
    refine List.filter_eq_nil_iff.2 fun o ho => ?_
    simp [h o (List.mem_range.1 ho)]
  unfold State.judgeWired
  rw [hwired]
  exact dropAwaited_none s x h

end Sys2Proof.Claims
end

section
/-! The field supply groups (R257 to R259). -/

namespace Sys2Proof.Claims

open Sys2Proof Sys2Proof.Machine

variable {s t u : State}

theorem onlySio_trans (h : onlySio s t) (h' : onlySio t u) : onlySio s u := by
  unfold onlySio at *
  rw [h', h]

theorem onlySioRec_trans (h : onlySioRec s t) (h' : onlySioRec t u) : onlySioRec s u := by
  unfold onlySioRec at *
  rw [h', h]

theorem onlySio.toRec (h : onlySio s t) : onlySioRec s t := by
  unfold onlySio at h
  unfold onlySioRec
  rw [h]

theorem OutOp.susp (h : OutOp s t) (g : Nat) : t.suspended g = s.suspended g := by rw [h.frame]; rfl

theorem OutOp.trip (h : OutOp s t) : t.sio.trip = s.sio.trip := by rw [h.frame]

theorem mem_outsOf {g o : Nat} : o ∈ outsOf g ↔ o < 12 ∧ o / 6 = g := by
  rw [outsOf, List.mem_filter, decide_eq_true_iff]
  exact and_congr List.mem_range Iff.rfl

/-! ### The end of the tests of a group -/

/-- The end of an output's test. -/
def endTest (o : Nat) (s : State) : State :=
  if s.rdb (Reg.SIO_OUT_STAT_CHECK o) then
    ((s.wrb (Reg.SIO_OUT_STAT_CHECK o) false).modOut o fun x => { x with pulse := none }).drive o
  else s

theorem endTest_outOp (o : Nat) (s : State) : OutOp s (endTest o s) := by
  unfold endTest
  split_ifs
  · exact ((OutOp.check_off s o).trans (OutOp.modOut (f := fun x => { x with pulse := none }) _ o (fun _ => rfl) id id rfl)).trans
      (drive_outOp _ o)
  · exact OutOp.refl s

theorem endTest_classified (o p : Nat) (s : State) : Classified s (endTest o s) p := by
  unfold endTest
  split_ifs
  · have hcheck : Classified s ((s.wrb (Reg.SIO_OUT_STAT_CHECK o) false).modOut o fun x => { x with pulse := none }) p :=
      Classified.of_regs (t := s.wrb (Reg.SIO_OUT_STAT_CHECK o) false) (.inl (statBit_ne (f := Reg.SIO_OUT_STAT_CHECK o)
        (g := Reg.SIO_OUT_STAT_LATCH p) (c := 20) (b := 28) s _ rfl rfl (by decide) (by decide) (.inr (by decide)))) rfl
    exact hcheck.trans (drive_classified _ o p)
  · exact Classified.refl s p

theorem endTest_rcd (o : Nat) (s : State) : (endTest o s).rcd = s.rcd := by
  unfold endTest
  split_ifs
  · exact drive_rcd _ o
  · rfl

theorem endTest_check (o : Nat) (ho : o < 12) (s : State) : (endTest o s).rdb (Reg.SIO_OUT_STAT_CHECK o) = false := by
  unfold endTest
  split_ifs with h
  · exact (drive_outOp _ o).check o ho (State.rdb_wrb_same s (f := Reg.SIO_OUT_STAT_CHECK o) (by decide : (1 : Nat) ≠ 0) false)
  · exact Bool.eq_false_iff.2 h

theorem suspendTests_outOp (s : State) (g : Nat) : OutOp s (s.suspendTests g) := OutOp.foldSt endTest_outOp s

theorem suspendTests_rcd (s : State) (g : Nat) : (s.suspendTests g).rcd = s.rcd := foldSt_keeps _ _ endTest endTest_rcd s

theorem suspendTests_classified (s : State) (g p : Nat) : Classified s (s.suspendTests g) p :=
  foldSt_inv (f := endTest) (P := fun t => Classified s t p) (fun o _ _ h => h.trans (endTest_classified o p _)) (Classified.refl s p)

theorem suspendTests_check (s : State) {g o : Nat} (ho : o < 12) (hg : o / 6 = g) :
    (s.suspendTests g).rdb (Reg.SIO_OUT_STAT_CHECK o) = false :=
  foldSt_established (f := endTest) (P := fun _ => True) (Q := fun t => t.rdb (Reg.SIO_OUT_STAT_CHECK o) = false)
    (mem_outsOf.2 ⟨ho, hg⟩) (fun _ _ _ _ => trivial) (fun s _ => endTest_check o ho s)
    (fun p _ s _ h => (endTest_outOp p s).check o ho h) trivial

/-! ### A trip -/

/-- A group marked as tripped. -/
def markTrip (s : State) (g st : Nat) : State :=
  (s.wr (Reg.SIO_GROUP_STATE g) st).modSio fun x => { x with
    ovRide := FMap.set false x.ovRide g false, susp := FMap.set false x.susp g true, trip := FMap.set 0 x.trip g st,
    autoClr := FMap.set false x.autoClr g false }

theorem tripGroup_eq (s : State) (g st : Nat) : s.tripGroup g st = foldSt (outsOf g) (fun o s => s.latchOut o 7) (markTrip s g st) := by rfl

theorem tripLatches_outOp (s : State) (g : Nat) : OutOp s (foldSt (outsOf g) (fun o s => s.latchOut o 7) s) :=
  OutOp.foldSt (fun o s => latchOut_outOp s o (by decide) (by decide)) s

/-- Each output of the group that had no latch takes code 7 and is off. -/
theorem tripLatches_latch (s : State) {g o : Nat} (ho : o < 12) (hg : o / 6 = g) (h0 : s.latchCode o = 0) :
    let t := foldSt (outsOf g) (fun o s => s.latchOut o 7) s
    t.latchCode o = 7 ∧ isOff t o := by
  have hstable (p : Nat) (t : State) (h : t.latchCode o = 7 ∧ isOff t o) : (t.latchOut p 7).latchCode o = 7 ∧ isOff (t.latchOut p 7) o :=
    (latchOut_outOp t p (by decide) (by decide)).latchedOff ho h.1 h.2 (by decide) (by decide)
  have hown (t : State) (h : t.latchCode o = 0) := latchOut_code t ho h (code := 7) (by decide) (by decide) (by decide)
  refine foldSt_established (f := fun o s => s.latchOut o 7) (x := o) (P := fun t => t.latchCode o = 0 ∨ (t.latchCode o = 7 ∧ isOff t o))
    (Q := fun t => t.latchCode o = 7 ∧ isOff t o) (mem_outsOf.2 ⟨ho, hg⟩) ?_ ?_ (fun p _ t _ h => hstable p t h) (.inl h0)
  · rintro p - t (h | h)
    · by_cases hpo : o = p
      · subst hpo
        exact .inr (hown t h)
      · left
        rw [(latchOut_classified t ho hpo 7).keeps (by omega), h]
    · exact .inr (hstable p t h)
  · rintro t (h | h)
    · exact hown t h
    · exact hstable o t h

theorem markTrip_latch (s : State) (g st p : Nat) : (markTrip s g st).latchCode p = s.latchCode p :=
  State.rd_wr_ne s (Reg.SIO_GROUP_STATE g) (Reg.SIO_OUT_STAT_LATCH p) st
    (by simp only [Fld.key, Reg.SIO_GROUP_STATE, Reg.SIO_OUT_STAT_LATCH]; omega)

theorem belowOuts_state {g : Nat} (hg : g < 2) : belowOuts (Reg.SIO_GROUP_STATE g) := by
  simp only [belowOuts, Fld.key, Reg.SIO_GROUP_STATE]
  omega

theorem belowOuts_volt {g : Nat} (hg : g < 2) : belowOuts (Reg.SIO_GROUP_VOLT g) := by
  simp only [belowOuts, Fld.key, Reg.SIO_GROUP_VOLT]
  omega

theorem tripGroup_claim (s : State) {g : Nat} (hg : g < 2) {st : Nat} (hst : st < 8) :
    (s.tripGroup g st).rd (Reg.SIO_GROUP_STATE g) = st ∧ onlySioRec s (s.tripGroup g st) ∧ (s.tripGroup g st).suspended g = true ∧
      ∀ o < 12, o / 6 = g → s.latchCode o = 0 → (s.tripGroup g st).latchCode o = 7 ∧ isOff (s.tripGroup g st) o := by
  rw [tripGroup_eq]
  have hop := tripLatches_outOp (markTrip s g st) g
  refine ⟨(hop.below _ (belowOuts_state hg)).trans (State.rd_wr_of_lt s hst),
    onlySioRec_trans (onlySio.toRec (t := markTrip s g st) rfl) hop.onlySioRec, ?_, fun o ho hog h0 => ?_⟩
  · rw [hop.susp]
    exact FMap.get_set_same false s.sio.susp g true
  · exact tripLatches_latch _ ho hog ((markTrip_latch s g st o).trans h0)

/-! ### A group's voltage -/

theorem volt_ne_state (g : Nat) : (Reg.SIO_GROUP_VOLT g).key ≠ (Reg.SIO_GROUP_STATE g).key := by
  simp only [Fld.key, Reg.SIO_GROUP_VOLT, Reg.SIO_GROUP_STATE]
  omega

/-- A group's voltage and state written. -/
def setGroup (s : State) (g mV st : Nat) : State := (s.setVolt g mV).wr (Reg.SIO_GROUP_STATE g) st

theorem setGroup_regsTo (s : State) {g mV st : Nat} (hmV : mV < 6553600) (hst : st < 8) :
    regsTo s (setGroup s g mV st) [(Reg.SIO_GROUP_VOLT g, mV / 100), (Reg.SIO_GROUP_STATE g, st)] := by
  constructor
  · simp only [List.mem_cons, List.not_mem_nil, or_false, forall_eq_or_imp, forall_eq]
    refine ⟨?_, State.rd_wr_of_lt _ hst⟩
    rw [setGroup, State.rd_wr_ne _ _ _ _ (volt_ne_state g)]
    exact State.rd_wr_of_lt s (f := Reg.SIO_GROUP_VOLT g) (show mV / 100 < 2 ^ 16 by omega)
  · simp only [List.mem_cons, List.not_mem_nil, or_false, forall_eq_or_imp, forall_eq]
    rintro f ⟨hv, hs⟩
    rw [setGroup, State.rd_wr_ne _ _ _ _ hs]
    exact State.rd_wr_ne s _ _ _ hv

theorem setGroup_latch (s : State) (g mV st p : Nat) : (setGroup s g mV st).latchCode p = s.latchCode p :=
  (State.rd_wr_ne _ (Reg.SIO_GROUP_STATE g) (Reg.SIO_OUT_STAT_LATCH p) st
    (by simp only [Fld.key, Reg.SIO_GROUP_STATE, Reg.SIO_OUT_STAT_LATCH]; omega)).trans
    (State.rd_wr_ne s (Reg.SIO_GROUP_VOLT g) (Reg.SIO_OUT_STAT_LATCH p) _
      (by simp only [Fld.key, Reg.SIO_GROUP_VOLT, Reg.SIO_OUT_STAT_LATCH]; omega))

/-- A ride or its end. -/
def rideGroup (s : State) (g mV st : Nat) (ov : Bool) : State :=
  (setGroup s g mV st).modSio fun x => { x with ovRide := FMap.set false x.ovRide g ov }

theorem groupVoltage_eq (s : State) (g mV : Nat) : s.groupVoltage g mV =
    if FMap.get 0 s.sio.trip g ≠ 0 then
      setGroup s g mV (if s.unMv g * 7 ≤ mV * 10 && mV * 10 ≤ s.unMv g * 13 then 4 else FMap.get 0 s.sio.trip g)
    else if mV * 10 < s.unMv g * 6 then
      ((rideGroup s g mV 1 false).modSio fun x => { x with susp := FMap.set false x.susp g true }).suspendTests g
    else if s.unMv g * 14 < mV * 10 then rideGroup s g mV 1 true
    else rideGroup s g mV (if s.suspended g then 4 else 0) false := by rfl

theorem unMv_le (s : State) (g : Nat) : s.unMv g ≤ 110000 := by
  unfold State.unMv
  split <;> decide

/-- Settles O13: what a sag, a trip, an overvoltage, a return and a recovery do to their group and its outputs. -/
theorem fieldSupplyGroups : Obligations.FieldSupplyGroups := by
  rintro ⟨g, hg⟩ s
  have hun := unMv_le s g
  dsimp only
  refine ⟨fun mV hsag htrip => ?_, fun hst hov => ?_, fun mV hover hmV htrip => ?_, fun mV hover => ?_, fun mV hlo hhi => ?_, fun hst => ?_⟩
  · have he : exec (.groupSag ⟨g, hg⟩ mV) s = .next (s.groupVoltage g mV) := rfl
    rw [he, groupVoltage_eq, if_neg (not_not.mpr htrip), if_pos hsag]
    generalize hu : ((rideGroup s g mV 1 false).modSio fun x => { x with susp := FMap.set false x.susp g true }) = u
    have hsio : onlySio s u := by subst hu; rfl
    have hop := suspendTests_outOp u g
    obtain ⟨hto, -⟩ := setGroup_regsTo s (g := g) (mV := mV) (st := 1) (by omega) (by decide)
    simp only [List.mem_cons, List.not_mem_nil, or_false, forall_eq_or_imp, forall_eq] at hto
    refine ⟨_, rfl, (hop.below _ (belowOuts_state hg)).trans (hu ▸ hto.2), (hop.below _ (belowOuts_volt hg)).trans (hu ▸ hto.1), ?_, ?_,
      fun o ho hog => suspendTests_check u ho hog, fun o ho h1 => ?_, onlySio_trans hsio (hop.onlySio (suspendTests_rcd u g))⟩
    · rw [hop.susp, ← hu]
      exact FMap.get_set_same false s.sio.susp g true
    · rw [hop.trip, ← hu]
      exact htrip
    · have hl : u.latchCode o = s.latchCode o := by rw [← hu]; exact setGroup_latch s g mV 1 o
      rw [(suspendTests_classified u g o).keeps (by rwa [hl]), hl]
  · obtain ⟨hstate, honly, hsusp, hlatch⟩ := tripGroup_claim s hg (st := 2) (by decide)
    refine ⟨s.tripGroup g 2, ?_, hstate, honly, hsusp, hlatch⟩
    change execGroupTrip ⟨g, hg⟩ s = _
    rw [execGroupTrip, if_pos (by simp only [hst, hov]; rfl)]
  · have he : exec (.groupOvervoltage ⟨g, hg⟩ mV false) s = .next (s.groupVoltage g mV) := rfl
    rw [he, groupVoltage_eq, if_neg (not_not.mpr htrip), if_neg (show ¬ mV * 10 < s.unMv g * 6 by omega), if_pos hover]
    exact ⟨_, rfl, setGroup_regsTo s hmV (by decide), FMap.get_set_same false s.sio.ovRide g true, rfl, rfl⟩
  · have hop := suspendTests_outOp (s.setVolt g mV) g
    obtain ⟨hstate, honly, -, hlatch⟩ := tripGroup_claim ((s.setVolt g mV).suspendTests g) hg (st := 3) (by decide)
    refine ⟨((s.setVolt g mV).suspendTests g).tripGroup g 3, ?_, hstate,
      onlySioRec_trans (onlySioRec_trans (onlySio.toRec (t := s.setVolt g mV) rfl) hop.onlySioRec) honly, fun o ho hog h0 => (hlatch o ho hog ?_).1⟩
    · change execGroupOvervoltage ⟨g, hg⟩ mV true s = _
      rw [execGroupOvervoltage, if_pos (by rw [Bool.true_and]; exact decide_eq_true hover)]
    · have hl : (s.setVolt g mV).latchCode o = s.latchCode o := State.rd_wr_ne s (Reg.SIO_GROUP_VOLT g) (Reg.SIO_OUT_STAT_LATCH o) _
        (by simp only [Fld.key, Reg.SIO_GROUP_VOLT, Reg.SIO_OUT_STAT_LATCH]; omega)
      rw [(suspendTests_classified _ g o).keeps (by omega), hl, h0]
  · have he : exec (.groupVoltageReturn ⟨g, hg⟩ mV) s = .next (s.groupVoltage g mV) := rfl
    rw [he, groupVoltage_eq]
    by_cases htrip : FMap.get 0 s.sio.trip g = 0
    · rw [if_neg (not_not.mpr htrip), if_neg (show ¬ mV * 10 < s.unMv g * 6 by omega), if_neg (show ¬ s.unMv g * 14 < mV * 10 by omega)]
      refine ⟨_, rfl, rfl, fun _ => rfl, rfl, ?_⟩
      have hst := setGroup_regsTo s (g := g) (mV := mV) (st := if s.suspended g then 4 else 0) (by omega) (by split <;> decide)
      simp only [htrip, ne_eq, not_true_eq_false, false_or]
      exact hst
    · rw [if_pos htrip, if_pos (by simp [hlo, hhi])]
      refine ⟨_, rfl, rfl, fun _ => rfl, rfl, ?_⟩
      have hst := setGroup_regsTo s (g := g) (mV := mV) (st := 4) (by omega) (by decide)
      simpa only [htrip, ne_eq, not_false_eq_true, true_or, if_true] using hst
  · refine ⟨(s.wr (Reg.SIO_GROUP_STATE g) 0).modSio fun x => { x with
        susp := FMap.set false x.susp g false, trip := FMap.set 0 x.trip g 0, ovRide := FMap.set false x.ovRide g false,
        autoClr := FMap.set false x.autoClr g true }, ?_, ⟨?_, ?_⟩, FMap.get_set_same false s.sio.autoClr g true,
      FMap.get_set_same false s.sio.susp g false, FMap.get_set_same 0 s.sio.trip g 0, rfl⟩
    · change execGroupRecovered ⟨g, hg⟩ s = _
      rw [execGroupRecovered, if_pos hst]
    · simp only [List.mem_cons, List.not_mem_nil, or_false, forall_eq]
      exact State.rd_wr_of_lt s (f := Reg.SIO_GROUP_STATE g) (show 0 < 2 ^ 3 by decide)
    · simp only [List.mem_cons, List.not_mem_nil, or_false, forall_eq]
      exact fun f hf => State.rd_wr_ne s _ f 0 hf

end Sys2Proof.Claims
end

section
/-! The tests of the outputs' switches (R249 to R251, R287, R560), overcurrents, warnings and timed outputs (R253, R255, R261). -/

namespace Sys2Proof.Claims

open Sys2Proof Sys2Proof.Machine

variable {s t u : State}

/-! ### Off-pulses -/

/-- Driving an output in an off-pulse writes its switch bits only. -/
theorem drive_pulse (s : State) {o : Nat} {low : Bool} (h : (s.out o).pulse = some low) : s.drive o = driveBits s o :=
  (drive_cases s o).resolve_right fun h' => by simp [h] at h'

theorem highClosed_pulse {o : Nat} (h : (s.out o).pulse = some false) : highClosed s o = false := by simp [highClosed, h]

theorem lowClosed_pulse {o : Nat} (h : (s.out o).pulse = some true) : s.lowClosed o = false := by simp [State.lowClosed, h]

theorem keepsRegs_driveBits (s : State) (o : Nat) :
    keepsRegs s (driveBits s o) [Reg.SIO_OUT_STAT_HS o, Reg.SIO_OUT_STAT_LS o, Reg.SIO_OUT_STAT_ENERGISED o] :=
  (((keepsRegs_refl s _).wrb (by simp) _).wrb (by simp) _).wrb (by simp) _

/-- An off-pulse begun on an output. -/
def beginPulse (s : State) (o : Nat) (low : Bool) : State :=
  (s.modOut o fun x => { x with pulse := some low }).wrb (Reg.SIO_OUT_STAT_CHECK o) true

theorem offPulse_claim (s : State) (o : Fin 12) (low : Bool) (hen : s.energised o.val = true) (hnone : (s.out o.val).pulse = none)
    (hsusp : s.suspended (o.val / 6) = false) (hcyc : s.tm.cyc % s.pulseL o.val = 2 * o.val + (if low then 1 else 0)) :
    let n := o.val
    ∃ t, exec (.offPulse o low) s = .next t ∧ (t.out n).pulse = some low ∧
      t.rdb (if low then Reg.SIO_OUT_STAT_LS n else Reg.SIO_OUT_STAT_HS n) = false ∧
      t.rdb (Reg.SIO_OUT_STAT_ENERGISED n) = false ∧ t.rdb (Reg.SIO_OUT_STAT_CHECK n) = true ∧
      (∀ q, q ≠ n → t.out q = s.out q) ∧
      keepsRegs s t [Reg.SIO_OUT_STAT_HS n, Reg.SIO_OUT_STAT_LS n, Reg.SIO_OUT_STAT_ENERGISED n, Reg.SIO_OUT_STAT_CHECK n] ∧
      onlySio s t := by
  obtain ⟨n, hn⟩ := o
  dsimp only at hen hnone hsusp hcyc ⊢
  have hout : (beginPulse s n low).out n = { s.out n with pulse := some low } := out_modOut_same s n fun x => { x with pulse := some low }
  have hpulse : ((beginPulse s n low).out n).pulse = some low := by rw [hout]
  obtain ⟨hhs, hls, hen'⟩ := driveBits_values (beginPulse s n low) n
  refine ⟨driveBits (beginPulse s n low) n, ?_, (congrArg OutSt.pulse (driveBits_out (beginPulse s n low) n n)).trans hpulse, ?_, ?_, ?_,
    fun q hq => ?_, ?_, rfl⟩
  · rw [← drive_pulse _ hpulse]
    change execOffPulse ⟨n, hn⟩ low s = _
    have hcond : (s.energised n && (s.out n).pulse = none && !s.suspended (groupOfOut n) &&
        s.tm.cyc % s.pulseL n = 2 * n + bitNat low) = true := by
      simp only [hen, hnone, groupOfOut, hsusp, hcyc]
      cases low <;> simp [bitNat]
    rw [execOffPulse, if_pos hcond]
    rfl
  · cases low
    · exact hhs.trans (highClosed_pulse hpulse)
    · exact hls.trans (lowClosed_pulse hpulse)
  · rw [hen']
    cases low
    · rw [highClosed_pulse hpulse, Bool.false_and]
    · rw [lowClosed_pulse hpulse, Bool.and_false]
  · rw [State.rdb, driveBits_rd (beginPulse s n low) n (g := Reg.SIO_OUT_STAT_CHECK n) (p := n) (b := 20) rfl (by decide) (.inr (by decide))]
    exact State.rdb_wrb_same _ (f := Reg.SIO_OUT_STAT_CHECK n) (by decide : (1 : Nat) ≠ 0) true
  · rw [driveBits_out]
    exact out_modOut_ne s (fun x => { x with pulse := some low }) hq
  · have hbegin : keepsRegs s (beginPulse s n low) [Reg.SIO_OUT_STAT_CHECK n] :=
      ((keepsRegs_refl s _).of_regs (u := s.modOut n fun x => { x with pulse := some low }) rfl).wrb (by simp) true
    exact (hbegin.mono (by simp)).trans ((keepsRegs_driveBits _ n).mono (by simp))

/-- The count of an off-pulse's failures. -/
def countPulse (low pass : Bool) (x : OutSt) : OutSt :=
  if low then { x with failLs := if pass then 0 else x.failLs + 1 } else { x with failHs := if pass then 0 else x.failHs + 1 }

/-- The end of an off-pulse before its verdict. -/
def closePulse (s : State) (n groupMv : Nat) : State :=
  (((s.setVolt (groupOfOut n) groupMv).modOut n fun x => { x with pulse := none }).wrb (Reg.SIO_OUT_STAT_CHECK n) false).drive n

/-- The verdict of an off-pulse counted. -/
def judgePulse (s : State) (n : Nat) (low pass : Bool) : State :=
  let u := s.modOut n (countPulse low pass)
  if pass then u else u.inc (Reg.SIO_OUT_COUNT_FAILS n)

theorem execOffPulseEnd_eq (s : State) (o : Fin 12) (low : Bool) (v : PulseVolts) (plus : FMap Nat) (h : (s.out o.val).pulse = some low) :
    exec (.offPulseEnd o low v plus) s =
      let u := judgePulse (closePulse s o.val v.groupMv) o.val low (v.groupMv < v.mV * 2)
      let u := if low then u else u.judgeWired o.val plus
      .next (if low && 2 ≤ (u.out o.val).failLs then u.latchOut o.val 5
        else if !low && 2 ≤ (u.out o.val).failHs then u.latchOut o.val 4 else u) := by
  change execOffPulseEnd o low v plus s = _
  rw [execOffPulseEnd, if_neg (not_not.mpr h)]
  rfl

/-- What the verdict is formed on. -/
structure PulseJudged (s u : State) (n groupMv : Nat) (low pass : Bool) : Prop where
  out : u.out n = countPulse low pass { s.out n with pulse := none }
  check : u.rdb (Reg.SIO_OUT_STAT_CHECK n) = false
  volt : u.rd (Reg.SIO_GROUP_VOLT (n / 6)) = groupMv / 100
  latch : u.latchCode n = s.latchCode n
  classified : ∀ q < 12, Classified s u q
  only : onlySioRec s u

theorem groupVolt_ne_stat {g o : Nat} (hg : g < 2) (b : Nat) : (Reg.SIO_GROUP_VOLT g).key ≠ (0x00900500 + o * 4) * 32 + b := by
  simp only [Fld.key, Reg.SIO_GROUP_VOLT]
  omega

theorem judgePulse_rd (s : State) (n : Nat) (low pass : Bool) {g : Fld} (hg : g.key ≠ (Reg.SIO_OUT_COUNT_FAILS n).key) :
    (judgePulse s n low pass).rd g = s.rd g := by
  unfold judgePulse
  cases pass
  · exact State.rd_inc_ne _ _ g hg
  · rfl

theorem judgePulse_out (s : State) (n : Nat) (low pass : Bool) : (judgePulse s n low pass).out n = countPulse low pass (s.out n) := by
  unfold judgePulse
  cases pass <;> exact out_modOut_same s n _

theorem judgePulse_only (s : State) (n : Nat) (low pass : Bool) : onlySioRec s (judgePulse s n low pass) := by
  unfold judgePulse
  cases pass <;> rfl

theorem closePulse_judged (s : State) {n : Nat} (hn : n < 12) {groupMv : Nat} (hv : groupMv < 6553600) (low pass : Bool) :
    PulseJudged s (judgePulse (closePulse s n groupMv) n low pass) n groupMv low pass := by
  have hg : n / 6 < 2 := by omega
  let v := s.setVolt (n / 6) groupMv
  let w := (v.modOut n fun x => { x with pulse := none }).wrb (Reg.SIO_OUT_STAT_CHECK n) false
  have hvw : OutOp v w :=
    (OutOp.modOut (f := fun x => { x with pulse := none }) v n (fun _ => rfl) id id rfl).trans (OutOp.check_off _ n)
  have hclose : OutOp v (closePulse s n groupMv) := hvw.trans (drive_outOp w n)
  have hout : (closePulse s n groupMv).out n = { s.out n with pulse := none } :=
    (drive_out_same w n).trans (out_modOut_same v n fun x => { x with pulse := none })
  have hcheck : (closePulse s n groupMv).rdb (Reg.SIO_OUT_STAT_CHECK n) = false :=
    (drive_outOp w n).check n hn (State.rdb_wrb_same _ (f := Reg.SIO_OUT_STAT_CHECK n) (by decide : (1 : Nat) ≠ 0) false)
  have hvolt : (closePulse s n groupMv).rd (Reg.SIO_GROUP_VOLT (n / 6)) = groupMv / 100 :=
    (hclose.below _ (belowOuts_volt hg)).trans
      (State.rd_wr_of_lt s (f := Reg.SIO_GROUP_VOLT (n / 6)) (show groupMv / 100 < 2 ^ 16 by omega))
  have hw (q : Nat) : w.latchCode q = s.latchCode q :=
    (statBit_ne (f := Reg.SIO_OUT_STAT_CHECK n) (g := Reg.SIO_OUT_STAT_LATCH q) (c := 20) (b := 28) _ _ rfl rfl (by decide) (by decide)
      (.inr (by decide))).trans
      (State.rd_wr_ne s (Reg.SIO_GROUP_VOLT (n / 6)) (Reg.SIO_OUT_STAT_LATCH q) _
        (Ne.symm (groupVolt_ne_stat (o := q) hg 28)))
  have hfails (g : Fld) {p b : Nat} (hp : p < 12) (hg' : g.key = (0x00900500 + p * 4) * 32 + b) (hb : b < 32) :
      (judgePulse (closePulse s n groupMv) n low pass).rd g = (closePulse s n groupMv).rd g :=
    judgePulse_rd _ n low pass (by rw [hg']; simp only [Fld.key, Reg.SIO_OUT_COUNT_FAILS]; omega)
  refine ⟨?_, ?_, ?_, ?_, fun q hq => ?_, ?_⟩
  · rw [judgePulse_out, hout]
  · rwa [State.rdb, hfails (Reg.SIO_OUT_STAT_CHECK n) hn (b := 20) rfl (by decide)]
  · rwa [judgePulse_rd _ n low pass (by simp only [Fld.key, Reg.SIO_GROUP_VOLT, Reg.SIO_OUT_COUNT_FAILS]; omega)]
  · exact (hfails (Reg.SIO_OUT_STAT_LATCH n) hn (b := 28) rfl (by decide)).trans ((drive_latch_same w n).trans (hw n))
  · have hd := drive_classified w n q
    have hj : (judgePulse (closePulse s n groupMv) n low pass).latchCode q = (w.drive n).latchCode q :=
      hfails (Reg.SIO_OUT_STAT_LATCH q) hq (b := 28) rfl (by decide)
    unfold Classified at hd ⊢
    rwa [hj, ← hw q]
  · exact onlySioRec_trans (onlySioRec_trans (onlySio.toRec (t := v) rfl) hclose.onlySioRec) (judgePulse_only _ n low pass)

/-- The latch that two failures of a side set. -/
def latchPulse (u : State) (n : Nat) (low : Bool) : State :=
  if low && 2 ≤ (u.out n).failLs then u.latchOut n 5 else if !low && 2 ≤ (u.out n).failHs then u.latchOut n 4 else u

/-- The failures of the side of an off-pulse. -/
def pulseFails (x : OutSt) (low : Bool) : Nat := if low then x.failLs else x.failHs

theorem latchPulse_eq (u : State) (n : Nat) (low : Bool) :
    latchPulse u n low = if 2 ≤ pulseFails (u.out n) low then u.latchOut n (if low then 5 else 4) else u := by
  cases low <;> simp [latchPulse, pulseFails]

theorem latchPulse_outOp (u : State) (n : Nat) (low : Bool) : OutOp u (latchPulse u n low) := by
  rw [latchPulse_eq]
  split_ifs
  · exact latchOut_outOp u n (by decide) (by decide)
  · exact latchOut_outOp u n (by decide) (by decide)
  · exact OutOp.refl u

theorem pulseFails_count (x : OutSt) (low pass : Bool) :
    pulseFails (countPulse low pass x) low = if pass then 0 else pulseFails x low + 1 := by
  cases low <;> rfl

theorem offPulseEnd_claim (s : State) (o : Fin 12) (low : Bool) (mV groupMv : Nat) (plus : FMap Nat)
    (hpulse : (s.out o.val).pulse = some low) (hv : groupMv < 6553600) :
    let n := o.val
    ∃ t, exec (.offPulseEnd o low ⟨mV, groupMv⟩ plus) s = .next t ∧ (t.out n).pulse = none ∧
      t.rdb (Reg.SIO_OUT_STAT_CHECK n) = false ∧ t.rd (Reg.SIO_GROUP_VOLT (n / 6)) = groupMv / 100 ∧ onlySioRec s t ∧
      (groupMv < mV * 2 → (if low then (t.out n).failLs else (t.out n).failHs) = 0) ∧
      ((low = true ∨ ∀ q < 12, s.latchCode q ≠ 1) →
        (groupMv < mV * 2 → t.latchCode n = s.latchCode n) ∧
        (¬ groupMv < mV * 2 → s.latchCode n = 0 → (if low then (s.out n).failLs else (s.out n).failHs) = 1 →
          t.latchCode n = (if low then 5 else 4) ∧ isOff t n)) := by
  obtain ⟨n, hn⟩ := o
  dsimp only at hpulse ⊢
  have hj := closePulse_judged s hn hv low (groupMv < mV * 2)
  have he := execOffPulseEnd_eq s ⟨n, hn⟩ low ⟨mV, groupMv⟩ plus hpulse
  dsimp only at he
  rw [he]
  generalize judgePulse (closePulse s n groupMv) n low (groupMv < mV * 2) = u at hj ⊢
  have hwired : OutOp u (if low then u else u.judgeWired n plus) := by
    cases low
    · exact judgeWired_outOp u n plus
    · exact OutOp.refl u
  have hsame (h : low = true ∨ ∀ q < 12, s.latchCode q ≠ 1) : (if low then u else u.judgeWired n plus) = u := by
    obtain h | h := h
    · rw [if_pos h]
    · rw [judgeWired_none u n plus fun q hq => by rw [(hj.classified q hq).keeps (h q hq)]; exact h q hq, ite_self]
  have hfinal := hwired.trans (latchPulse_outOp _ n low)
  have hnone : (u.out n).pulse = none := by rw [hj.out]; cases low <;> rfl
  refine ⟨latchPulse (if low then u else u.judgeWired n plus) n low, rfl, hfinal.pulse n hnone, hfinal.check n hn hj.check,
    (hfinal.below _ (belowOuts_volt (by omega))).trans hj.volt, onlySioRec_trans hj.only hfinal.onlySioRec, fun hpass => ?_, fun h => ?_⟩
  · have h0 : pulseFails (u.out n) low = 0 := by rw [hj.out, pulseFails_count, decide_eq_true hpass, if_pos rfl]
    cases low
    · exact hfinal.failHs n h0
    · exact hfinal.failLs n h0
  · rw [hsame h, latchPulse_eq]
    refine ⟨fun hpass => ?_, fun hfail h0 h1 => ?_⟩
    · have hok : pulseFails (u.out n) low = 0 := by rw [hj.out, pulseFails_count, decide_eq_true hpass, if_pos rfl]
      rw [hok, if_neg (by decide)]
      exact hj.latch
    · have hpast : pulseFails { s.out n with pulse := none } low = 1 := by cases low <;> exact h1
      have htwo : pulseFails (u.out n) low = 2 := by
        rw [hj.out, pulseFails_count, decide_eq_false hfail, if_neg (by decide)]
        exact congrArg (· + 1) hpast
      rw [htwo, if_pos (by decide)]
      cases low
      · exact latchOut_code u hn (hj.latch.trans h0) (by decide) (by decide) (by decide)
      · exact latchOut_code u hn (hj.latch.trans h0) (by decide) (by decide) (by decide)

end Sys2Proof.Claims
end

section
/-! The off-state checks (R251, R287, R560), and the settlement of the outputs' tests and latches. -/

namespace Sys2Proof.Claims

open Sys2Proof Sys2Proof.Machine

variable {s t u : State}

/-! ### Off-state checks -/

theorem check_ne_ls (n : Nat) : (Reg.SIO_OUT_STAT_LS n).key ≠ (Reg.SIO_OUT_STAT_CHECK n).key :=
  statKey_ne (b := 26) (c := 20) (by decide) (by decide) (.inr (by decide))

/-- The registers of an off-state check that begins. -/
def beginCheck (s : State) (n : Nat) : State :=
  let u := s.wrb (Reg.SIO_OUT_STAT_CHECK n) true
  if n < 4 then u.wrb (Reg.SIO_OUT_STAT_LS n) false else u

theorem offStateCheck_claim (s : State) (o : Fin 12) (hhs : s.rdb (Reg.SIO_OUT_STAT_HS o.val) = false)
    (hsusp : s.suspended (o.val / 6) = false) (hnone : (s.out o.val).pulse = none) :
    let n := o.val
    ∃ t, exec (.offStateCheck o) s = .next t ∧ t.rdb (Reg.SIO_OUT_STAT_CHECK n) = true ∧
      (n < 4 → t.rdb (Reg.SIO_OUT_STAT_LS n) = false) ∧
      (4 ≤ n → t.rdb (Reg.SIO_OUT_STAT_LS n) = s.rdb (Reg.SIO_OUT_STAT_LS n)) ∧
      keepsRegs s t [Reg.SIO_OUT_STAT_CHECK n, Reg.SIO_OUT_STAT_LS n] ∧ t = { s with regs := t.regs } := by
  obtain ⟨n, hn⟩ := o
  dsimp only at hhs hsusp hnone ⊢
  have hcheck := State.rdb_wrb_same s (f := Reg.SIO_OUT_STAT_CHECK n) (by decide : (1 : Nat) ≠ 0) true
  have hkeep : keepsRegs s (s.wrb (Reg.SIO_OUT_STAT_CHECK n) true) [Reg.SIO_OUT_STAT_CHECK n, Reg.SIO_OUT_STAT_LS n] :=
    (keepsRegs_refl s _).wrb (by simp) true
  refine ⟨beginCheck s n, ?_, ?_⟩
  · change execOffStateCheck ⟨n, hn⟩ s = _
    rw [execOffStateCheck, if_pos (by simp [hhs, groupOfOut, hsusp, hnone])]
    rfl
  · unfold beginCheck
    by_cases h4 : n < 4
    · rw [if_pos h4]
      refine ⟨?_, fun _ => State.rdb_wrb_same _ (f := Reg.SIO_OUT_STAT_LS n) (by decide : (1 : Nat) ≠ 0) false, fun h => absurd h4 (by omega),
        hkeep.wrb (by simp) false, rfl⟩
      rw [State.rdb_wrb_ne _ _ (check_ne_ls n).symm]
      exact hcheck
    · rw [if_neg h4]
      exact ⟨hcheck, fun h => absurd h h4, fun _ => State.rdb_wrb_ne s _ (check_ne_ls n), hkeep, rfl⟩

/-- The record of an off-state check that ends with the voltage `mv` at SOn+, in the role's own drive or not. -/
def checkedOut (x : OutSt) (un opNs mv : Nat) (hsOk lsOk own : Bool) : OutSt :=
  let high : Bool := un ≤ mv * 2
  { x with
    rb := some high, offHs := if hsOk then 0 else x.offHs + 1, offLs := if lsOk then 0 else x.offLs + 1,
    high := if high && own then x.high + 1 else 0,
    lowSince := if mv * 10 < un then (match x.lowSince with
      | some t => some t
      | none => some opNs) else none }

/-- The switches of an off-state check that ends. -/
def closeCheck (s : State) (n : Nat) : State :=
  let u := s.wrb (Reg.SIO_OUT_STAT_CHECK n) false
  if n < 4 then u.wrb (Reg.SIO_OUT_STAT_LS n) (u.lowClosed n) else u

/-- An off-state check ended and recorded, before its latches. -/
def recordCheck (s : State) (n mv : Nat) (hsOk lsOk : Bool) : State :=
  (closeCheck s n).modOut n fun x => checkedOut x (s.unMv (groupOfOut n)) (closeCheck s n).tm.opNs mv hsOk lsOk s.tpDriven

/-- The failures counted. -/
def countCheck (s : State) (n : Nat) (ok : Bool) : State := if ok then s else s.inc (Reg.SIO_OUT_COUNT_FAILS n)

/-- The latches of the high side and of the voltage. -/
def latchHigh (u : State) (n : Nat) (own both : Bool) : State :=
  if own && 2 ≤ (u.out n).high then (u.latchReadback n).modOut n fun y => { y with high := 0, offHs := 0 }
  else if 2 ≤ (u.out n).offHs && (own || !both) then (u.latchOut n 4).modOut n fun y => { y with offHs := 0 }
  else u

theorem execOffStateCheckEnd_eq (s : State) (o : Fin 12) (hsOk lsOk : Bool) (mv : Nat)
    (hcheck : s.rdb (Reg.SIO_OUT_STAT_CHECK o.val) = true) (hnone : (s.out o.val).pulse = none) :
    exec (.offStateCheckEnd o hsOk lsOk mv) s =
      let n := o.val
      let high : Bool := s.unMv (groupOfOut n) ≤ mv * 2
      let u := countCheck (recordCheck s n mv hsOk lsOk) n (hsOk && lsOk && !(high && s.tpDriven))
      let v := latchHigh u n s.tpDriven (high && ((closeCheck s n).out n).rb = some true)
      .next (if 2 ≤ (u.out n).offLs then (v.latchOut n 5).modOut n fun y => { y with offLs := 0 } else v) := by
  change execOffStateCheckEnd o hsOk lsOk mv s = _
  rw [execOffStateCheckEnd, if_neg (by simp [hcheck, hnone])]
  rfl

theorem closeCheck_out (s : State) (n p : Nat) : (closeCheck s n).out p = s.out p := by
  unfold closeCheck
  split_ifs <;> rfl

theorem closeCheck_only (s : State) (n : Nat) : closeCheck s n = { s with regs := (closeCheck s n).regs } := by
  unfold closeCheck
  dsimp only
  split_ifs <;> rfl

theorem keepsRegs_closeCheck (s : State) (n : Nat) :
    keepsRegs s (closeCheck s n) [Reg.SIO_OUT_STAT_CHECK n, Reg.SIO_OUT_STAT_LS n] := by
  have hcheck : keepsRegs s (s.wrb (Reg.SIO_OUT_STAT_CHECK n) false) [Reg.SIO_OUT_STAT_CHECK n, Reg.SIO_OUT_STAT_LS n] :=
    (keepsRegs_refl s _).wrb (by simp) false
  unfold closeCheck
  split_ifs
  · exact hcheck.wrb (by simp) _
  · exact hcheck

theorem closeCheck_check (s : State) (n : Nat) : (closeCheck s n).rdb (Reg.SIO_OUT_STAT_CHECK n) = false := by
  have hcheck := State.rdb_wrb_same s (f := Reg.SIO_OUT_STAT_CHECK n) (by decide : (1 : Nat) ≠ 0) false
  unfold closeCheck
  split_ifs
  · exact (State.rdb_wrb_ne _ _ (check_ne_ls n).symm).trans hcheck
  · exact hcheck

/-- With the check over, the low side of an output without an off-pulse follows its drive. -/
theorem closeCheck_ls (s : State) {n : Nat} (hn : n < 12) (hnone : (s.out n).pulse = none) :
    (n < 4 → (closeCheck s n).rdb (Reg.SIO_OUT_STAT_LS n) = (s.mayClose n && s.lowDrive n)) ∧
      (4 ≤ n → (closeCheck s n).rdb (Reg.SIO_OUT_STAT_LS n) = s.rdb (Reg.SIO_OUT_STAT_LS n)) := by
  have hother {g : Fld} (h : g.key ≠ (Reg.SIO_OUT_STAT_CHECK n).key) : (s.wrb (Reg.SIO_OUT_STAT_CHECK n) false).rd g = s.rd g :=
    State.rd_wr_ne s _ g _ h
  have hotherb {g : Fld} (h : g.key ≠ (Reg.SIO_OUT_STAT_CHECK n).key) : (s.wrb (Reg.SIO_OUT_STAT_CHECK n) false).rdb g = s.rdb g :=
    State.rdb_wrb_ne s false h
  constructor
  · intro h4
    have hlatch (p : Nat) : (s.wrb (Reg.SIO_OUT_STAT_CHECK n) false).latchCode p = s.latchCode p :=
      hother (g := Reg.SIO_OUT_STAT_LATCH p) (statKey_ne (b := 28) (c := 20) (by decide) (by decide) (.inr (by decide)))
    have hpartner : (s.wrb (Reg.SIO_OUT_STAT_CHECK n) false).partner n = s.partner n := by
      rw [State.partner, State.partner, hotherb (by simp only [Fld.key, Reg.SIO_OUT_CFG_PARALLEL, Reg.SIO_OUT_STAT_CHECK]; omega)]
    have hmay : (s.wrb (Reg.SIO_OUT_STAT_CHECK n) false).mayClose n = s.mayClose n := by
      simp only [State.mayClose, State.heldOff, hlatch, hpartner, State.pdfGood,
        hother (g := Reg.MOD_DOMAIN_PGOOD) (by simp only [Fld.key, Reg.MOD_DOMAIN_PGOOD, Reg.SIO_OUT_STAT_CHECK]; omega),
        hotherb (g := Reg.SIO_OUT_CFG_ENABLED n) (by simp only [Fld.key, Reg.SIO_OUT_CFG_ENABLED, Reg.SIO_OUT_STAT_CHECK]; omega)]
      rfl
    have hlow : (s.wrb (Reg.SIO_OUT_STAT_CHECK n) false).lowDrive n = s.lowDrive n := by
      simp only [State.lowDrive, if_pos h4,
        hother (g := Reg.DLK_FB_PERMIT) (by simp only [Fld.key, Reg.DLK_FB_PERMIT, Reg.SIO_OUT_STAT_CHECK]; omega),
        hother (g := Reg.DLK_STATUS_OUT) (by simp only [Fld.key, Reg.DLK_STATUS_OUT, Reg.SIO_OUT_STAT_CHECK]; omega),
        hotherb (g := Reg.DLK_STATUS_FALLBACK) (by simp only [Fld.key, Reg.DLK_STATUS_FALLBACK, Reg.SIO_OUT_STAT_CHECK]; omega)]
    have hchk := State.rdb_wrb_same s (f := Reg.SIO_OUT_STAT_CHECK n) (by decide : (1 : Nat) ≠ 0) false
    have hpulse : ((s.wrb (Reg.SIO_OUT_STAT_CHECK n) false).out n).pulse = none := hnone
    unfold closeCheck
    rw [if_pos h4, State.rdb_wrb_same _ (f := Reg.SIO_OUT_STAT_LS n) (by decide : (1 : Nat) ≠ 0), State.lowClosed, hmay, hlow, hchk]
    simp [hpulse]
  · intro h4
    unfold closeCheck
    rw [if_neg (by omega)]
    exact hotherb (check_ne_ls n)

theorem countCheck_out (s : State) (n : Nat) (ok : Bool) (p : Nat) : (countCheck s n ok).out p = s.out p := by
  unfold countCheck
  split_ifs <;> rfl

theorem countCheck_stat (s : State) {n p b : Nat} (hp : p < 12) (hb : b < 32) (ok : Bool) {g : Fld} (hg : g.key = (0x00900500 + p * 4) * 32 + b) :
    (countCheck s n ok).rd g = s.rd g := by
  unfold countCheck
  split_ifs
  · rfl
  · exact State.rd_inc_ne s _ g (by rw [hg]; simp only [Fld.key, Reg.SIO_OUT_COUNT_FAILS]; omega)

theorem countCheck_only (s : State) (n : Nat) (ok : Bool) : onlySio s (countCheck s n ok) := by
  unfold countCheck
  split_ifs <;> rfl

theorem recordCheck_only (s : State) (n mv : Nat) (hsOk lsOk : Bool) : onlySio s (recordCheck s n mv hsOk lsOk) := by
  unfold recordCheck onlySio
  rw [closeCheck_only]
  rfl

theorem recordCheck_out (s : State) (n mv : Nat) (hsOk lsOk : Bool) : (recordCheck s n mv hsOk lsOk).out n =
    checkedOut (s.out n) (s.unMv (n / 6)) (closeCheck s n).tm.opNs mv hsOk lsOk s.tpDriven := by
  rw [recordCheck, out_modOut_same, closeCheck_out]
  rfl

theorem latchHigh_outOp (u : State) (n : Nat) (own both : Bool) : OutOp u (latchHigh u n own both) := by
  unfold latchHigh
  split_ifs
  · exact (latchReadback_outOp u n).trans (OutOp.modOut _ n id id id rfl)
  · exact (latchOut_outOp u n (by decide) (by decide)).trans (OutOp.modOut _ n id id id rfl)
  · exact OutOp.refl u

end Sys2Proof.Claims
end

section
/-! The end of an off-state check, overcurrents, warnings and timed outputs: O12. -/

namespace Sys2Proof.Claims

open Sys2Proof Sys2Proof.Machine

variable {s t u : State}

theorem latchHigh_none (u : State) (n : Nat) (own both : Bool) (hh : own = false ∨ (u.out n).high < 2) (ho : (u.out n).offHs < 2) :
    latchHigh u n own both = u := by
  have h1 : (own && decide (2 ≤ (u.out n).high)) = false := by
    obtain h | h := hh
    · rw [h, Bool.false_and]
    · rw [decide_eq_false (by omega), Bool.and_false]
  rw [latchHigh, h1, if_neg (by decide), decide_eq_false (show ¬ 2 ≤ (u.out n).offHs by omega), Bool.false_and, if_neg (by decide)]

theorem isOff_of_regs {p : Nat} (h : isOff s p) (hr : t.regs = s.regs) : isOff t p :=
  isOff_of_rd h fun _ _ g _ => State.rd_congr hr g

/-- The state in which the latches of an off-state check are judged. -/
structure CheckJudged (s u : State) (n mv : Nat) (hsOk lsOk : Bool) : Prop where
  out : ∃ now, u.out n = checkedOut (s.out n) (s.unMv (n / 6)) now mv hsOk lsOk s.tpDriven
  check : u.rdb (Reg.SIO_OUT_STAT_CHECK n) = false
  latch : u.latchCode n = s.latchCode n
  only : onlySio s u

theorem recordCheck_judged (s : State) {n : Nat} (hn : n < 12) (mv : Nat) (hsOk lsOk ok : Bool) :
    CheckJudged s (countCheck (recordCheck s n mv hsOk lsOk) n ok) n mv hsOk lsOk := by
  refine ⟨⟨_, (countCheck_out _ n ok n).trans (recordCheck_out s n mv hsOk lsOk)⟩, ?_, ?_,
    onlySio_trans (recordCheck_only s n mv hsOk lsOk) (countCheck_only _ n ok)⟩
  · rw [State.rdb, countCheck_stat _ hn (b := 20) (by decide) ok (g := Reg.SIO_OUT_STAT_CHECK n) rfl]
    exact closeCheck_check s n
  · refine (countCheck_stat _ hn (b := 28) (by decide) ok (g := Reg.SIO_OUT_STAT_LATCH n) rfl).trans ?_
    refine keepsRegs_closeCheck s n (Reg.SIO_OUT_STAT_LATCH n) ?_
    simp only [List.mem_cons, List.not_mem_nil, or_false, forall_eq_or_imp, forall_eq]
    exact ⟨statKey_ne (b := 28) (c := 20) (by decide) (by decide) (.inr (by decide)),
      statKey_ne (b := 28) (c := 26) (by decide) (by decide) (.inr (by decide))⟩

/-- The low side's latch after the high side's. -/
def latchLow (v : State) (n : Nat) (two : Bool) : State :=
  if two then (v.latchOut n 5).modOut n fun y => { y with offLs := 0 } else v

theorem latchLow_outOp (v : State) (n : Nat) (two : Bool) : OutOp v (latchLow v n two) := by
  unfold latchLow
  split_ifs
  · exact (latchOut_outOp v n (by decide) (by decide)).trans (OutOp.modOut _ n id id id rfl)
  · exact OutOp.refl v

theorem offStateCheckEnd_claim (s : State) (o : Fin 12) (hsOk lsOk : Bool) (mv : Nat)
    (hcheck : s.rdb (Reg.SIO_OUT_STAT_CHECK o.val) = true) (hnone : (s.out o.val).pulse = none) :
    let n := o.val
    ∃ t, exec (.offStateCheckEnd o hsOk lsOk mv) s = .next t ∧ t.rdb (Reg.SIO_OUT_STAT_CHECK n) = false ∧
      (t.out n).rb = some (decide (s.unMv (n / 6) ≤ mv * 2)) ∧ onlySioRec s t ∧
      (hsOk = true → lsOk = true → s.tpDriven = true → mv * 2 < s.unMv (n / 6) →
        (n < 4 → t.rdb (Reg.SIO_OUT_STAT_LS n) = (s.mayClose n && s.lowDrive n)) ∧
        (4 ≤ n → t.rdb (Reg.SIO_OUT_STAT_LS n) = s.rdb (Reg.SIO_OUT_STAT_LS n)) ∧
        keepsRegs s t [Reg.SIO_OUT_STAT_CHECK n, Reg.SIO_OUT_STAT_LS n] ∧
        (t.out n).offHs = 0 ∧ (t.out n).offLs = 0 ∧ (t.out n).high = 0 ∧ (∀ q, q ≠ n → t.out q = s.out q) ∧ onlySio s t) ∧
      (s.latchCode n = 0 → mv * 2 < s.unMv (n / 6) → hsOk = false → lsOk = true → (s.out n).offHs = 1 →
        t.latchCode n = 4 ∧ isOff t n) ∧
      (s.latchCode n = 0 → mv * 2 < s.unMv (n / 6) → hsOk = true → lsOk = false → (s.out n).offLs = 1 →
        t.latchCode n = 5 ∧ isOff t n) ∧
      (s.latchCode n = 0 → s.unMv (n / 6) ≤ mv * 2 → s.tpDriven = true → lsOk = true → (s.out n).high = 1 →
        (t.latchCode n = 1 ∨ t.latchCode n = 2) ∧ isOff t n) := by
  obtain ⟨n, hn⟩ := o
  dsimp only at hcheck hnone ⊢
  have he := execOffStateCheckEnd_eq s ⟨n, hn⟩ hsOk lsOk mv hcheck hnone
  dsimp only at he
  rw [he]
  generalize hokv : (hsOk && lsOk && !(decide (s.unMv (groupOfOut n) ≤ mv * 2) && s.tpDriven)) = ok
  generalize hboth : (decide (s.unMv (groupOfOut n) ≤ mv * 2) && decide (((closeCheck s n).out n).rb = some true)) = both
  have hlowBoth (h : mv * 2 < s.unMv (n / 6)) : both = false := by
    rw [← hboth, decide_eq_false (show ¬ s.unMv (groupOfOut n) ≤ mv * 2 from by unfold groupOfOut; omega), Bool.false_and]
  have hj := recordCheck_judged s hn mv hsOk lsOk ok
  have hdef : countCheck (recordCheck s n mv hsOk lsOk) n true = recordCheck s n mv hsOk lsOk := rfl
  have hu : ok = true → countCheck (recordCheck s n mv hsOk lsOk) n ok = recordCheck s n mv hsOk lsOk := fun h => h ▸ hdef
  generalize countCheck (recordCheck s n mv hsOk lsOk) n ok = u at hj hu ⊢
  obtain ⟨⟨now, hout⟩, hchk, hlatch, honly⟩ := hj
  have hhigh : (u.out n).high = if decide (s.unMv (n / 6) ≤ mv * 2) && s.tpDriven then (s.out n).high + 1 else 0 := by rw [hout]; rfl
  have hoffHs : (u.out n).offHs = if hsOk then 0 else (s.out n).offHs + 1 := by rw [hout]; rfl
  have hoffLs : (u.out n).offLs = if lsOk then 0 else (s.out n).offLs + 1 := by rw [hout]; rfl
  have hlow0 (h : mv * 2 < s.unMv (n / 6)) : (u.out n).high = 0 := by
    rw [hhigh, decide_eq_false (by omega), Bool.false_and, if_neg (by decide)]
  let v := latchHigh u n s.tpDriven both
  have hv : OutOp u v := latchHigh_outOp u n s.tpDriven both
  have hfinal : OutOp u (latchLow v n (2 ≤ (u.out n).offLs)) := hv.trans (latchLow_outOp v n _)
  have hkeepLow (h : lsOk = true) : latchLow v n (2 ≤ (u.out n).offLs) = v := by
    rw [latchLow, hoffLs, h, if_pos rfl, if_neg (by decide)]
  refine ⟨latchLow v n (2 ≤ (u.out n).offLs), ?_, hfinal.check n hn hchk, ?_, onlySioRec_trans honly.toRec hfinal.onlySioRec, ?_, ?_, ?_, ?_⟩
  · rw [latchLow]
    simp only [decide_eq_true_eq]
    rfl
  · rw [hfinal.rb, hout]
    rfl
  · intro hhs hls hown hmv
    have hok : ok = true := by
      rw [← hokv, hhs, hls, hown, decide_eq_false (show ¬ s.unMv (groupOfOut n) ≤ mv * 2 from by unfold groupOfOut; omega)]
      rfl
    have hsame : v = u := latchHigh_none u n _ _ (.inr (by rw [hlow0 hmv]; decide)) (by rw [hoffHs, hhs, if_pos rfl]; decide)
    rw [hkeepLow hls, hsame]
    have hrec := hu hok
    obtain ⟨hls4, hls8⟩ := closeCheck_ls s hn hnone
    refine ⟨fun h4 => ?_, fun h4 => ?_, ?_, by rw [hoffHs, hhs, if_pos rfl], by rw [hoffLs, hls, if_pos rfl], hlow0 hmv, fun q hq => ?_, honly⟩
    · rw [hrec]
      exact hls4 h4
    · rw [hrec]
      exact hls8 h4
    · rw [hrec]
      exact (keepsRegs_closeCheck s n).of_regs rfl
    · rw [hrec, recordCheck, out_modOut_ne _ _ hq, closeCheck_out]
  · intro h0 hmv hhs hls hcount
    rw [hkeepLow hls]
    have hlatchHigh : v = (u.latchOut n 4).modOut n fun y => { y with offHs := 0 } := by
      have htwo : 2 ≤ (u.out n).offHs := by rw [hoffHs, hhs, hcount]; decide
      change latchHigh u n s.tpDriven both = _
      rw [latchHigh, hlow0 hmv, hlowBoth hmv, decide_eq_true htwo]
      simp
    obtain ⟨hl, hoff⟩ := latchOut_code u hn (hlatch.trans h0) (code := 4) (by decide) (by decide) (by decide)
    rw [hlatchHigh]
    exact ⟨hl, isOff_of_regs hoff rfl⟩
  · intro h0 hmv hhs hls hcount
    have hsame : v = u := latchHigh_none u n _ _ (.inr (by rw [hlow0 hmv]; decide)) (by rw [hoffHs, hhs, if_pos rfl]; decide)
    have htwo : decide (2 ≤ (u.out n).offLs) = true := by rw [hoffLs, hls, hcount]; decide
    obtain ⟨hl, hoff⟩ := latchOut_code u hn (hlatch.trans h0) (code := 5) (by decide) (by decide) (by decide)
    rw [hsame, htwo]
    exact ⟨hl, isOff_of_regs hoff rfl⟩
  · intro h0 hmv hown hls hcount
    rw [hkeepLow hls]
    have htwo : (u.out n).high = 2 := by rw [hhigh, decide_eq_true hmv, hown, hcount]; rfl
    have hlatchHigh : v = (u.latchReadback n).modOut n fun y => { y with high := 0, offHs := 0 } := by
      change latchHigh u n s.tpDriven both = _
      rw [latchHigh, htwo, hown]
      rfl
    obtain ⟨hl, hoff⟩ := latchReadback_latches u hn (hlatch.trans h0)
    rw [hlatchHigh]
    exact ⟨hl, isOff_of_regs hoff rfl⟩

theorem outputSwitchTests_holds : outputSwitchTests := fun o s =>
  ⟨fun low hen hnone hsusp hcyc => offPulse_claim s o low hen hnone hsusp hcyc,
    fun low mV groupMv plus hpulse hv => offPulseEnd_claim s o low mV groupMv plus hpulse hv,
    fun hhs hsusp hnone => offStateCheck_claim s o hhs hsusp hnone,
    fun hsOk lsOk mv hcheck hnone => offStateCheckEnd_claim s o hsOk lsOk mv hcheck hnone⟩

/-! ### Overcurrents, warnings and timed outputs -/

theorem overcurrent_claim (s : State) (o : Fin 12) (inst : Bool) :
    let n := o.val
    ∃ t, exec (.overcurrent o inst) s = .next t ∧ onlySioRec s t ∧
      ∀ q, q = n ∨ s.partner n = some q → s.latchCode q = 0 → t.latchCode q = 6 ∧ isOff t q := by
  obtain ⟨n, hn⟩ := o
  dsimp only
  have hop (u : State) (q : Nat) : OutOp u (u.latchOut q 6) := latchOut_outOp u q (by decide) (by decide)
  have hown (u : State) {q : Nat} (hq : q < 12) (h0 : u.latchCode q = 0) := latchOut_code u hq h0 (code := 6) (by decide) (by decide) (by decide)
  cases hp : s.partner n with
  | none =>
    refine ⟨s.latchOut n 6, ?_, (hop s n).onlySioRec, ?_⟩
    · change execOvercurrent ⟨n, hn⟩ inst s = _
      simp only [execOvercurrent, hp]
    · rintro q (rfl | h) h0
      · exact hown s hn h0
      · cases h
  | some p =>
    obtain ⟨hp12, hpn⟩ := partner_lt hn hp
    refine ⟨(s.latchOut n 6).latchOut p 6, ?_, ((hop s n).trans (hop _ p)).onlySioRec, ?_⟩
    · change execOvercurrent ⟨n, hn⟩ inst s = _
      simp only [execOvercurrent, hp]
    · rintro q (rfl | h) h0
      · obtain ⟨hl, hoff⟩ := hown s hn h0
        exact (hop _ p).latchedOff hn hl hoff (by decide) (by decide)
      · cases h
        exact hown _ hp12 (((latchOut_classified s hp12 hpn 6).keeps (by omega)).trans h0)

theorem openLoad_claim (s : State) (o : Fin 12) (hen : s.energised o.val = true) :
    let n := o.val
    (∃ t, exec (.openLoadWarning o false) s = .next t ∧ regsTo s t [(Reg.SIO_OUT_STAT_OPEN_LOAD n, 1)] ∧ t = { s with regs := t.regs }) ∧
      (∀ q, s.partner n = some q → ∃ t, exec (.openLoadWarning o true) s = .next t ∧
        regsTo s t [(Reg.SIO_OUT_STAT_IMBAL n, 1), (Reg.SIO_OUT_STAT_IMBAL q, 1)] ∧ t = { s with regs := t.regs }) := by
  obtain ⟨n, hn⟩ := o
  dsimp only at hen ⊢
  constructor
  · refine ⟨s.wrb (Reg.SIO_OUT_STAT_OPEN_LOAD n) true, ?_, ⟨?_, ?_⟩, rfl⟩
    · change execOpenLoadWarning ⟨n, hn⟩ false s = _
      rw [execOpenLoadWarning, hen]
      rfl
    · simp only [List.mem_cons, List.not_mem_nil, or_false, forall_eq]
      exact State.rd_wr_of_lt s (f := Reg.SIO_OUT_STAT_OPEN_LOAD n) (show 1 < 2 ^ 1 by decide)
    · simp only [List.mem_cons, List.not_mem_nil, or_false, forall_eq]
      exact fun g hg => State.rd_wr_ne s _ g _ hg
  · intro q hq
    have hqn := (partner_lt hn hq).2
    refine ⟨(s.wrb (Reg.SIO_OUT_STAT_IMBAL n) true).wrb (Reg.SIO_OUT_STAT_IMBAL q) true, ?_, ⟨?_, ?_⟩, rfl⟩
    · change execOpenLoadWarning ⟨n, hn⟩ true s = _
      rw [execOpenLoadWarning, hen, hq]
      rfl
    · simp only [List.mem_cons, List.not_mem_nil, or_false, forall_eq_or_imp, forall_eq]
      refine ⟨?_, State.rd_wr_of_lt (s.wrb (Reg.SIO_OUT_STAT_IMBAL n) true) (f := Reg.SIO_OUT_STAT_IMBAL q) (v := 1) (show 1 < 2 ^ 1 by decide)⟩
      refine (State.rd_wr_ne (s.wrb (Reg.SIO_OUT_STAT_IMBAL n) true) (Reg.SIO_OUT_STAT_IMBAL q) (Reg.SIO_OUT_STAT_IMBAL n) (bitNat true)
        (statKey_ne (b := 21) (c := 21) (by decide) (by decide) (.inl (Ne.symm hqn)))).trans ?_
      exact State.rd_wr_of_lt s (f := Reg.SIO_OUT_STAT_IMBAL n) (show 1 < 2 ^ 1 by decide)
    · simp only [List.mem_cons, List.not_mem_nil, or_false, forall_eq_or_imp, forall_eq]
      rintro g ⟨h1, h2⟩
      exact (State.rd_wr_ne (s.wrb (Reg.SIO_OUT_STAT_IMBAL n) true) (Reg.SIO_OUT_STAT_IMBAL q) g (bitNat true) h2).trans
        (State.rd_wr_ne s (Reg.SIO_OUT_STAT_IMBAL n) g (bitNat true) h1)

/-! A command of an output. -/

/-- The test that a demand ends. -/
def abortTest (s : State) (o : Nat) (hs ls : Bool) : State :=
  let x := s.out o
  if (x.pulse ≠ none && !(hs && (o < 4 || ls))) || (s.rdb (Reg.SIO_OUT_STAT_CHECK o) && x.pulse = none && hs && s.mayClose o) then
    (s.inc (Reg.SIO_OUT_COUNT_ABORTS o)).wrb (Reg.SIO_OUT_STAT_CHECK o) false
  else s

/-- An output's record with the commands of its two switches. -/
def commandedOut (x : OutSt) (o : Nat) (hs ls : Bool) : OutSt :=
  { x with onHs := hs, onLs := ls, pulse := if x.pulse ≠ none && !(hs && (o < 4 || ls)) then none else x.pulse }

theorem command_eq (s : State) (o : Nat) (hs ls : Bool) : s.command o hs ls =
    ((abortTest s o hs ls).modOut o fun x => { x with
      onHs := hs, onLs := ls, pulse := if (s.out o).pulse ≠ none && !(hs && (o < 4 || ls)) then none else x.pulse }).drive o := by rfl

theorem abortTest_out (s : State) (o : Nat) (hs ls : Bool) (p : Nat) : (abortTest s o hs ls).out p = s.out p := by
  unfold abortTest
  dsimp only
  split <;> rfl

theorem abortTest_only (s : State) (o : Nat) (hs ls : Bool) : onlySio s (abortTest s o hs ls) := by
  unfold abortTest
  dsimp only
  split <;> rfl

theorem abortTest_rd (s : State) {o p b : Nat} (hp : p < 12) (hb : b < 32) (h20 : b ≠ 20) (hs ls : Bool) {g : Fld}
    (hg : g.key = (0x00900500 + p * 4) * 32 + b) : (abortTest s o hs ls).rd g = s.rd g := by
  unfold abortTest
  dsimp only
  split
  · rw [State.rd_wrb_ne _ _ g _ (hg ▸ statKey_ne (c := 20) hb (by decide) (.inr h20))]
    exact State.rd_inc_ne s _ g (by rw [hg]; simp only [Fld.key, Reg.SIO_OUT_COUNT_ABORTS]; omega)
  · rfl

/-- A command sets its output, and changes of the other outputs at most what they await. -/
theorem command_out (s : State) (o : Nat) (hs ls : Bool) :
    (s.command o hs ls).out o = commandedOut (s.out o) o hs ls ∧ ∀ q, q ≠ o → outKept s (s.command o hs ls) q := by
  rw [command_eq]
  constructor
  · rw [drive_out_same, out_modOut_same, abortTest_out]
    rfl
  · intro q hq
    refine outKept.trans (outKept_of_eq ?_) (drive_outKept _ o q)
    rw [out_modOut_ne _ _ hq, abortTest_out]

theorem command_only (s : State) (o : Nat) (hs ls : Bool) : onlySio s (s.command o hs ls) := by
  rw [command_eq]
  have hmod (u : State) (f : OutSt → OutSt) : onlySio u (u.modOut o f) := rfl
  exact onlySio_trans (onlySio_trans (abortTest_only s o hs ls) (hmod _ _)) ((drive_outOp _ o).onlySio (drive_rcd _ o))

theorem timedDue_claim (s : State) (o : Fin 12) {d : Due} (hd : (s.out o.val).due = some d) :
    let n := o.val
    ∃ t, exec (.timedOutputDue o) s = .next t ∧ (t.out n).due = none ∧
      t.rdb (Reg.SIO_OUT_STAT_PEND n) = false ∧ (t.out n).onHs = ((s.out n).dueHs && s.outPermit) ∧
      (t.out n).onLs = ((s.out n).dueLs && s.outPermit) ∧ (∀ q, q ≠ n → outKept s t q) ∧ onlySio s t := by
  obtain ⟨n, hn⟩ := o
  dsimp only at hd ⊢
  let u := (s.modOut n fun y => { y with due := none }).wrb (Reg.SIO_OUT_STAT_PEND n) false
  have hout : u.out n = { s.out n with due := none } := out_modOut_same s n fun y => { y with due := none }
  obtain ⟨hsame, hothers⟩ := command_out u n ((s.out n).dueHs && s.outPermit) ((s.out n).dueLs && s.outPermit)
  rw [hout] at hsame
  have hu : onlySio s u := rfl
  refine ⟨u.command n ((s.out n).dueHs && s.outPermit) ((s.out n).dueLs && s.outPermit), ?_, by rw [hsame]; rfl, ?_, by rw [hsame]; rfl,
    by rw [hsame]; rfl, fun q hq => ?_, onlySio_trans hu (command_only u n _ _)⟩
  · change execTimedOutputDue ⟨n, hn⟩ s = _
    simp only [execTimedOutputDue, hd]
    rfl
  · rw [command_eq, State.rdb, drive_rd _ n (g := Reg.SIO_OUT_STAT_PEND n) (p := n) (b := 23) rfl (by decide) (.inr (by decide))]
    have habort := abortTest_rd u (o := n) hn (b := 23) (by decide) (by decide) ((s.out n).dueHs && s.outPermit)
      ((s.out n).dueLs && s.outPermit) (g := Reg.SIO_OUT_STAT_PEND n) rfl
    refine (congrArg (fun v => decide (v ≠ 0)) habort).trans ?_
    exact State.rdb_wrb_same _ (f := Reg.SIO_OUT_STAT_PEND n) (by decide : (1 : Nat) ≠ 0) false
  · exact outKept.trans (outKept_of_eq (out_modOut_ne s (fun y => { y with due := none }) hq)) (hothers q hq)

theorem outputLatchesAndTimedOutputs_holds : outputLatchesAndTimedOutputs := by
  intro o s
  refine ⟨fun inst => overcurrent_claim s o inst, fun h6 => ?_, fun h6 => ?_, fun hen w => ?_, fun hen => openLoad_claim s o hen,
    fun d hd => timedDue_claim s o hd, fun hd => ?_⟩
  · refine ⟨s.modOut o.val fun x => { x with causeClear := true }, ?_, ?_, ?_, fun q hq => out_modOut_ne s _ hq, rfl⟩
    · change execOvercurrentClear o s = _
      rw [execOvercurrentClear, if_pos h6]
    · rw [out_modOut_same]
    · have hclear : ((s.modOut o.val fun x => { x with causeClear := true }).out o.val).causeClear = true := by rw [out_modOut_same]
      unfold State.causeIsClear
      rw [show (s.modOut o.val fun x => { x with causeClear := true }).latchCode o.val = 6 from h6]
      exact hclear
  · change execOvercurrentClear o s = _
    rw [execOvercurrentClear, if_neg h6]
  · change execOpenLoadWarning o w s = _
    rw [execOpenLoadWarning, hen]
    rfl
  · change execTimedOutputDue o s = _
    simp only [execTimedOutputDue, hd]

/-- Settles O12: what driving, latching and classifying an output may change (`OutOp`, `Classified`), applied to each test. -/
theorem outputTestsAndLatches : Obligations.OutputTestsAndLatches := ⟨outputSwitchTests_holds, outputLatchesAndTimedOutputs_holds⟩

end Sys2Proof.Claims
end

section
/-! The Door Loop Keeper: what an evaluation of its equations does (R280 to R282). -/

namespace Sys2Proof.Claims

open Sys2Proof Sys2Proof.Machine

variable {s t u : State}

/-! ### The frame -/

theorem onlyDlk_refl (s : State) : onlyDlk s s := ⟨rfl, outKept_refl s⟩

theorem onlyDlk.trans (h : onlyDlk s t) (h' : onlyDlk t u) : onlyDlk s u := by
  obtain ⟨hf, ho⟩ := h
  obtain ⟨hf', ho'⟩ := h'
  exact ⟨by rw [hf', hf], fun q => (ho q).trans (ho' q)⟩

theorem onlyDlk_of_parts (h : t = { s with regs := t.regs, dlk := t.dlk }) : onlyDlk s t :=
  ⟨by rw [h], fun q => outKept_of_eq (by rw [h]; rfl)⟩

theorem onlyDlk_wr (s : State) (f : Fld) (v : Nat) : onlyDlk s (s.wr f v) := onlyDlk_of_parts rfl

theorem onlyDlk_modDlk (s : State) (f : DlkSt → DlkSt) : onlyDlk s (s.modDlk f) := onlyDlk_of_parts rfl

/-! ### The low sides driven -/

/-- The four low sides driven. -/
def driveLow (s : State) : State := foldSt [0, 1, 2, 3] (fun o s => s.drive o) s

theorem driveLow_outOp (s : State) : OutOp s (driveLow s) := OutOp.foldSt (fun o s => drive_outOp s o) s

theorem driveLow_rcd (s : State) : (driveLow s).rcd = s.rcd := foldSt_keeps _ _ (fun o s => s.drive o) (fun o s => drive_rcd s o) s

theorem driveLow_outKept (s : State) (q : Nat) : outKept s (driveLow s) q :=
  foldSt_inv (f := fun o s => s.drive o) (P := fun t => outKept s t q) (fun o _ _ h => h.trans (drive_outKept _ o q)) (outKept_refl s q)

theorem driveLow_onlyDlk (s : State) : onlyDlk s (driveLow s) := by
  refine ⟨?_, driveLow_outKept s⟩
  rw [(driveLow_outOp s).frame, driveLow_rcd]

theorem driveLow_dlk (s : State) : (driveLow s).dlk = s.dlk := by rw [(driveLow_outOp s).frame]

/-- The registers from the Door Loop Keeper's on. -/
def fromDlk (g : Fld) : Prop := 0x00A00000 * 32 ≤ g.key

theorem driveLow_rd (s : State) {g : Fld} (hg : fromDlk g) : (driveLow s).rd g = s.rd g := by
  refine foldSt_inv (f := fun o s => s.drive o) (P := fun t => t.rd g = s.rd g) (fun o ho t h => ?_) rfl
  have ho' : o < 12 := by simp at ho; omega
  exact (drive_rd_outside t ho' fun p hp b hb => by unfold fromDlk at hg; omega).trans h

/-! ### The registers of the Door Loop Keeper -/

/-- The fields that copying inputs and pairs writes (R294). -/
def dlkCopyFlds : List Fld := [Reg.DLK_PAIR_INPUTS, Reg.DLK_PAIR_ACK_IN, Reg.DLK_PAIR_DISAGREE, Reg.DLK_PAIR_LATCHED, Reg.DLK_PAIR_ACK_LATCHED,
  Reg.DLK_STATUS_PAIRS, Reg.DLK_STATUS_HEALTHY]

theorem dlkRegs_writes (s : State) : ∃ l, s.dlkRegs = writes l s ∧ l.map Prod.fst = dlkCopyFlds :=
  ⟨[(Reg.DLK_PAIR_INPUTS, _), (Reg.DLK_PAIR_ACK_IN, _), (Reg.DLK_PAIR_DISAGREE, _), (Reg.DLK_PAIR_LATCHED, _), (Reg.DLK_PAIR_ACK_LATCHED, _),
    (Reg.DLK_STATUS_PAIRS, _), (Reg.DLK_STATUS_HEALTHY, _)], rfl, rfl⟩

theorem dlkRegs_rd (s : State) {g : Fld} (hg : ∀ f ∈ dlkCopyFlds, g.key ≠ f.key) : s.dlkRegs.rd g = s.rd g := by
  obtain ⟨l, hl, hf⟩ := dlkRegs_writes s
  rw [hl]
  exact rd_writes_ne l s fun e he => hg e.1 (hf ▸ List.mem_map_of_mem he)

theorem dlkRegs_onlyDlk (s : State) : onlyDlk s s.dlkRegs := by
  obtain ⟨l, hl, -⟩ := dlkRegs_writes s
  rw [hl]
  exact onlyDlk_of_parts (by rw [writes_frame l s])

theorem dlkRegs_dlk (s : State) : s.dlkRegs.dlk = s.dlk := by rfl

/-- The fields that an evaluation writes. -/
def dlkEvalFlds : List Fld := dlkCopyFlds ++ [Reg.DLK_EVENT_OFF_TIME_BLOCK, Reg.DLK_RELEASES_LEFT, Reg.DLK_RELEASES_RIGHT, Reg.DLK_STATUS_OUT]

/-- The Door Loop Keeper after an evaluation (R281, R282). -/
def evaluatedDlk (s : State) : DlkSt :=
  let tl := s.releaseTerm false
  let tr := s.releaseTerm true
  let tpe := s.dlkH && (s.dlk.pr 1).value && !tl && !tr
  { s.dlk with
    offL := s.dlk.offL || ((s.dlk.termL && !tl) && s.hasOffTime), offR := s.dlk.offR || ((s.dlk.termR && !tr) && s.hasOffTime),
    termL := tl, termR := tr, so3Open := s.dlk.so3Open && !tpe }

/-- The four commands of an evaluation. -/
def evaluatedOut (s : State) : Nat :=
  let tl := s.releaseTerm false
  let tr := s.releaseTerm true
  let out := s.rd Reg.DLK_STATUS_OUT
  bitNat (tl && (natBit out 0 || s.dlk.so3Open)) + 2 * bitNat (tr && (natBit out 1 || s.dlk.so3Open)) +
    4 * bitNat (s.dlkH && (s.dlk.pr 1).value && !tl && !tr) + 8 * bitNat (s.dlkH && !s.dlkLockout)

/-! ### The stages of an evaluation -/

/-- The terms and the off-times taken. -/
def evalTimes (s : State) : State :=
  let t := s.modDlk fun x => { x with
    offL := x.offL || ((s.dlk.termL && !s.releaseTerm false) && s.hasOffTime),
    offR := x.offR || ((s.dlk.termR && !s.releaseTerm true) && s.hasOffTime), termL := s.releaseTerm false, termR := s.releaseTerm true }
  if (t.dlk.offL && t.dlkL) || (t.dlk.offR && t.dlkR) then t.wrb Reg.DLK_EVENT_OFF_TIME_BLOCK true else t

/-- The releases counted. -/
def countReleases (s : State) (left right : Bool) : State :=
  let s := if left then s.incWrap Reg.DLK_RELEASES_LEFT else s
  if right then s.incWrap Reg.DLK_RELEASES_RIGHT else s

/-- The interlock with SO3 taken. -/
def interlock (s : State) (tpe : Bool) : State := s.modDlk fun x => { x with so3Open := x.so3Open && !tpe }

/-- The commands that `u` gives with the release terms `tl` and `tr`. -/
def outOf (u : State) (tl tr : Bool) : Nat :=
  bitNat (tl && (natBit (u.rd Reg.DLK_STATUS_OUT) 0 || u.dlk.so3Open)) + 2 * bitNat (tr && (natBit (u.rd Reg.DLK_STATUS_OUT) 1 || u.dlk.so3Open)) +
    4 * bitNat (u.dlkH && (u.dlk.pr 1).value && !tl && !tr) + 8 * bitNat (u.dlkH && !u.dlkLockout)

/-- A release of the side that the commands start. -/
def startsRelease (s : State) (right : Bool) : Bool :=
  let out := (evalTimes s).rd Reg.DLK_STATUS_OUT
  (s.releaseTerm right && (natBit out (bitNat right) || (evalTimes s).dlk.so3Open)) && !natBit out (bitNat right)

/-- The command of SO3. -/
def feedsSo3 (s : State) : Bool := (evalTimes s).dlkH && ((evalTimes s).dlk.pr 1).value && !s.releaseTerm false && !s.releaseTerm true

/-- What the commands are applied to. -/
def beforeOut (s : State) : State := interlock (countReleases (evalTimes s) (startsRelease s false) (startsRelease s true)) (feedsSo3 s)

theorem evalTimes_rd (s : State) {g : Fld} (hg : g.key ≠ Reg.DLK_EVENT_OFF_TIME_BLOCK.key) : (evalTimes s).rd g = s.rd g := by
  unfold evalTimes
  dsimp only
  split_ifs
  · exact State.rd_wr_ne _ _ g _ hg
  · rfl

theorem evalTimes_dlk (s : State) : (evalTimes s).dlk = { evaluatedDlk s with so3Open := s.dlk.so3Open } := by
  unfold evalTimes
  dsimp only
  split_ifs <;> rfl

theorem evalTimes_onlyDlk (s : State) : onlyDlk s (evalTimes s) := by
  unfold evalTimes
  dsimp only
  split_ifs
  · exact (onlyDlk_modDlk s _).trans (onlyDlk_wr _ _ _)
  · exact onlyDlk_modDlk s _

theorem countReleases_rd (s : State) (l r : Bool) {g : Fld} (hl : g.key ≠ Reg.DLK_RELEASES_LEFT.key) (hr : g.key ≠ Reg.DLK_RELEASES_RIGHT.key) :
    (countReleases s l r).rd g = s.rd g := by
  have hleft (u : State) : (u.incWrap Reg.DLK_RELEASES_LEFT).rd g = u.rd g := State.rd_wr_ne u _ g _ hl
  have hright (u : State) : (u.incWrap Reg.DLK_RELEASES_RIGHT).rd g = u.rd g := State.rd_wr_ne u _ g _ hr
  unfold countReleases
  dsimp only
  cases l <;> cases r <;> simp [hleft, hright]

theorem countReleases_dlk (s : State) (l r : Bool) : (countReleases s l r).dlk = s.dlk := by cases l <;> cases r <;> rfl

theorem countReleases_onlyDlk (s : State) (l r : Bool) : onlyDlk s (countReleases s l r) := by
  cases l <;> cases r <;> exact onlyDlk_of_parts rfl

theorem dlkH_congr (hd : t.dlk.passed = s.dlk.passed) (hr : t.rd Reg.DLK_STATUS_FAULT = s.rd Reg.DLK_STATUS_FAULT) : t.dlkH = s.dlkH := by
  rw [State.dlkH, State.dlkH, hd, State.rdb, hr, State.rdb]

theorem beforeOut_rd (s : State) {g : Fld} (hg : ∀ f ∈ dlkEvalFlds, g.key ≠ f.key) : (beforeOut s).rd g = s.rd g := by
  refine (countReleases_rd _ _ _ (hg _ (by simp [dlkEvalFlds])) (hg _ (by simp [dlkEvalFlds]))).trans ?_
  exact evalTimes_rd s (hg _ (by simp [dlkEvalFlds]))

theorem beforeOut_dlk (s : State) :
    (beforeOut s).dlk = { (evalTimes s).dlk with so3Open := (evalTimes s).dlk.so3Open && !feedsSo3 s } := by
  unfold beforeOut interlock
  exact congrArg (fun x : DlkSt => { x with so3Open := x.so3Open && !feedsSo3 s }) (countReleases_dlk (evalTimes s) _ _)

/-- The commands are formed on what the state held before. -/
theorem outOf_evalTimes (s : State) : outOf (evalTimes s) (s.releaseTerm false) (s.releaseTerm true) = evaluatedOut s := by
  have hH : (evalTimes s).dlkH = s.dlkH := dlkH_congr (by rw [evalTimes_dlk]; rfl) (evalTimes_rd s (by decide))
  have hlock : (evalTimes s).dlkLockout = s.dlkLockout := by rw [State.dlkLockout, State.rdb, evalTimes_rd s (by decide)]; rfl
  rw [outOf, hH, hlock, evalTimes_rd s (by decide), evalTimes_dlk]
  rfl

/-- The permission of the feed is read after the releases are counted. -/
theorem beforeOut_feed (s : State) :
    ((beforeOut s).dlkH && !(beforeOut s).dlkLockout) = ((evalTimes s).dlkH && !(evalTimes s).dlkLockout) := by
  have hrd {g : Fld} (hl : g.key ≠ Reg.DLK_RELEASES_LEFT.key) (hr : g.key ≠ Reg.DLK_RELEASES_RIGHT.key) :
      (beforeOut s).rd g = (evalTimes s).rd g := countReleases_rd (evalTimes s) _ _ hl hr
  have hpassed : (beforeOut s).dlk.passed = (evalTimes s).dlk.passed := by rw [beforeOut_dlk]
  have hlock : (beforeOut s).dlkLockout = (evalTimes s).dlkLockout := by
    rw [State.dlkLockout, State.rdb, hrd (by decide) (by decide)]
    rfl
  rw [dlkH_congr hpassed (hrd (by decide) (by decide)), hlock]

theorem dlkEval_eq (s : State) : s.dlkEval = (driveLow ((beforeOut s).wr Reg.DLK_STATUS_OUT
    (outOf (evalTimes s) (s.releaseTerm false) (s.releaseTerm true)))).dlkRegs := by
  rw [outOf, ← beforeOut_feed]
  rfl

theorem dlkEval_dlk (s : State) : s.dlkEval.dlk = evaluatedDlk s := by
  have hH : (evalTimes s).dlkH = s.dlkH := dlkH_congr (by rw [evalTimes_dlk]; rfl) (evalTimes_rd s (by decide))
  rw [dlkEval_eq, dlkRegs_dlk, driveLow_dlk]
  refine (beforeOut_dlk s).trans ?_
  rw [feedsSo3, hH, evalTimes_dlk]
  rfl

theorem dlkEval_rd (s : State) {g : Fld} (hd : fromDlk g) (hg : ∀ f ∈ dlkEvalFlds, g.key ≠ f.key) : s.dlkEval.rd g = s.rd g := by
  rw [dlkEval_eq, dlkRegs_rd _ fun f hf => hg f (List.mem_append_left _ hf), driveLow_rd _ hd,
    State.rd_wr_ne _ Reg.DLK_STATUS_OUT g _ (hg _ (by simp [dlkEvalFlds])), beforeOut_rd s hg]

theorem dlkEval_out (s : State) : s.dlkEval.rd Reg.DLK_STATUS_OUT = evaluatedOut s := by
  have hlt : evaluatedOut s < 2 ^ Reg.DLK_STATUS_OUT.width := by
    have hb (b : Bool) : bitNat b ≤ 1 := by cases b <;> decide
    have h1 := hb (s.releaseTerm false && (natBit (s.rd Reg.DLK_STATUS_OUT) 0 || s.dlk.so3Open))
    have h2 := hb (s.releaseTerm true && (natBit (s.rd Reg.DLK_STATUS_OUT) 1 || s.dlk.so3Open))
    have h3 := hb (s.dlkH && (s.dlk.pr 1).value && !s.releaseTerm false && !s.releaseTerm true)
    have h4 := hb (s.dlkH && !s.dlkLockout)
    change evaluatedOut s < 16
    unfold evaluatedOut
    dsimp only
    omega
  have hcopy : ∀ f ∈ dlkCopyFlds, Reg.DLK_STATUS_OUT.key ≠ f.key := by decide
  rw [dlkEval_eq, dlkRegs_rd _ hcopy, driveLow_rd _ (by unfold fromDlk; decide), outOf_evalTimes]
  exact State.rd_wr_of_lt _ hlt

theorem dlkEval_onlyDlk (s : State) : onlyDlk s s.dlkEval := by
  rw [dlkEval_eq]
  have hbefore : onlyDlk s (beforeOut s) :=
    ((evalTimes_onlyDlk s).trans (countReleases_onlyDlk _ _ _)).trans
      (onlyDlk_modDlk _ fun x => { x with so3Open := x.so3Open && !feedsSo3 s })
  exact ((hbefore.trans (onlyDlk_wr _ _ _)).trans (driveLow_onlyDlk _)).trans (dlkRegs_onlyDlk _)

/-- The bits of the four commands. -/
theorem bits_of_commands (a b c d : Bool) : let v := bitNat a + 2 * bitNat b + 4 * bitNat c + 8 * bitNat d
    natBit v 0 = a ∧ natBit v 1 = b ∧ natBit v 2 = c ∧ natBit v 3 = d := by
  cases a <;> cases b <;> cases c <;> cases d <;> decide

theorem dlkEval_bits (s : State) :
    let tl := s.releaseTerm false
    let tr := s.releaseTerm true
    let out := s.rd Reg.DLK_STATUS_OUT
    natBit (s.dlkEval.rd Reg.DLK_STATUS_OUT) 0 = (tl && (natBit out 0 || s.dlk.so3Open)) ∧
    natBit (s.dlkEval.rd Reg.DLK_STATUS_OUT) 1 = (tr && (natBit out 1 || s.dlk.so3Open)) ∧
    natBit (s.dlkEval.rd Reg.DLK_STATUS_OUT) 2 = (s.dlkH && (s.dlk.pr 1).value && !tl && !tr) ∧
    natBit (s.dlkEval.rd Reg.DLK_STATUS_OUT) 3 = (s.dlkH && !s.dlkLockout) := by
  rw [dlkEval_out]
  exact bits_of_commands _ _ _ _

/-- In lockout no release and no feed is commanded. -/
theorem dlkEval_bits_lockout (h : s.dlkLockout = true) : ∀ b ∈ [0, 1, 3], natBit (s.dlkEval.rd Reg.DLK_STATUS_OUT) b = false := by
  obtain ⟨h0, h1, -, h3⟩ := dlkEval_bits s
  have hterm (right : Bool) : s.releaseTerm right = false := by simp [State.releaseTerm, h]
  simp only [List.mem_cons, List.not_mem_nil, or_false, forall_eq_or_imp, forall_eq]
  rw [h0, h1, h3, hterm, hterm, h]
  simp

end Sys2Proof.Claims
end

section
/-! The Door Loop Keeper's inputs, equations and off-times: O14. -/

namespace Sys2Proof.Claims

open Sys2Proof Sys2Proof.Machine

variable {s t u : State}

/-! ### The threshold stages (R275) -/

/-- One current taken. -/
def stageOne (v : BitVec 12) (e : Nat × Nat) : BitVec 12 :=
  if 3200 < e.2 then v ||| BitVec.ofNat 12 (2 ^ e.1) else v &&& ~~~BitVec.ofNat 12 (2 ^ e.1)

theorem dlkStage_cons (old : BitVec 12) (e : Nat × Nat) (uA : FMap Nat) : dlkStage old (e :: uA) = dlkStage (stageOne old e) uA := by rfl

theorem stageOne_bit (v : BitVec 12) (e : Nat × Nat) {i : Nat} (hi : i < 12) :
    (stageOne v e).getLsbD i = if e.1 = i then decide (3200 < e.2) else v.getLsbD i := by
  have hbit : (BitVec.ofNat 12 (2 ^ e.1)).getLsbD i = decide (e.1 = i) := by
    rw [BitVec.getLsbD_ofNat, Nat.testBit_two_pow, decide_eq_true hi, Bool.true_and]
  unfold stageOne
  by_cases h : 3200 < e.2
  · rw [if_pos h, BitVec.getLsbD_or, hbit]
    by_cases he : e.1 = i <;> simp [he, h]
  · rw [if_neg h, BitVec.getLsbD_and, BitVec.getLsbD_not, hbit]
    by_cases he : e.1 = i <;> simp [he, h, hi]

theorem dlkStage_other (old : BitVec 12) (uA : FMap Nat) {i : Nat} (hi : i < 12) (h : ∀ e ∈ uA, e.1 ≠ i) :
    (dlkStage old uA).getLsbD i = old.getLsbD i := by
  induction uA generalizing old with
  | nil => rfl
  | cons e uA ih =>
    rw [dlkStage_cons, ih _ fun e' he => h e' (List.mem_cons_of_mem e he), stageOne_bit old e hi, if_neg (h e List.mem_cons_self)]

theorem dlkStage_given (old : BitVec 12) (uA : FMap Nat) {e : Nat × Nat} (he : e ∈ uA) (hi : e.1 < 12)
    (huniq : ∀ e' ∈ uA, e'.1 = e.1 → e' = e) : (dlkStage old uA).getLsbD e.1 = decide (3200 < e.2) := by
  induction uA generalizing old with
  | nil => cases he
  | cons e' uA ih =>
    rw [dlkStage_cons]
    have huniq' : ∀ x ∈ uA, x.1 = e.1 → x = e := fun x hx => huniq x (List.mem_cons_of_mem e' hx)
    by_cases hmem : e ∈ uA
    · exact ih (stageOne old e') hmem huniq'
    · have hee : e = e' := (List.mem_cons.1 he).resolve_right hmem
      subst hee
      rw [dlkStage_other _ uA hi fun x hx hxe => hmem (huniq' x hx hxe ▸ hx), stageOne_bit old e hi, if_pos rfl]

/-! ### The pairs (R276) -/

/-- A pair at an input change. -/
def stepPair (q : DlkPair) (a b : Bool) : DlkPair :=
  let zero := q.sawZero || (!a && !b)
  if q.latched then
    if zero && a && b then { value := true, disagree := false, latched := false, sawZero := false }
    else { value := false, disagree := a != b, latched := true, sawZero := zero }
  else { value := a && b, disagree := a != b, latched := false, sawZero := false }

/-- The pairs after an input change to `v`. -/
def stepPairs (v : BitVec 12) (s : State) : State :=
  foldSt (List.range 6) (fun p s => s.setDlkPr p (stepPair (s.dlk.pr p) (v.getLsbD (2 * p)) (v.getLsbD (2 * p + 1)))) s

theorem setDlkPr_pr (s : State) (p q : Nat) (v : DlkPair) : (s.setDlkPr p v).dlk.pr q = if q = p then v else s.dlk.pr q :=
  FMap.get_set _ _ _ _ _

theorem stepPairs_keeps (v : BitVec 12) (s : State) :
    stepPairs v s = { s with dlk := { s.dlk with pairs := (stepPairs v s).dlk.pairs } } :=
  foldSt_inv (P := fun t => t = { s with dlk := { s.dlk with pairs := t.dlk.pairs } })
    (f := fun p s => s.setDlkPr p (stepPair (s.dlk.pr p) (v.getLsbD (2 * p)) (v.getLsbD (2 * p + 1))))
    (fun p _ t h => by rw [h]; rfl) rfl

theorem stepPairs_dlk (v : BitVec 12) (s : State) : (stepPairs v s).dlk = { s.dlk with pairs := (stepPairs v s).dlk.pairs } :=
  foldSt_inv (P := fun t => t.dlk = { s.dlk with pairs := t.dlk.pairs })
    (f := fun p s => s.setDlkPr p (stepPair (s.dlk.pr p) (v.getLsbD (2 * p)) (v.getLsbD (2 * p + 1))))
    (fun p _ t h => by rw [State.setDlkPr, State.modDlk, h]) rfl

theorem stepPairs_pr (v : BitVec 12) (s : State) {p : Nat} (hp : p < 6) :
    (stepPairs v s).dlk.pr p = stepPair (s.dlk.pr p) (v.getLsbD (2 * p)) (v.getLsbD (2 * p + 1)) := by
  have h := foldSt_range (n := 6) (s := s)
    (P := fun i t => ∀ q, t.dlk.pr q = if q < i then stepPair (s.dlk.pr q) (v.getLsbD (2 * q)) (v.getLsbD (2 * q + 1)) else s.dlk.pr q)
    (f := fun p s => s.setDlkPr p (stepPair (s.dlk.pr p) (v.getLsbD (2 * p)) (v.getLsbD (2 * p + 1))))
    (fun q => rfl) fun i t _ ht q => by
      rw [setDlkPr_pr]
      by_cases hqi : q = i
      · subst hqi
        rw [if_pos rfl, ht q, if_neg (Nat.lt_irrefl q), if_pos (Nat.lt_succ_self q)]
      · rw [if_neg hqi, ht q]
        exact if_congr (show q < i ↔ q < i + 1 by omega) rfl rfl
  exact (h p).trans (if_pos hp)

theorem stepPair_unlatched {q : DlkPair} (h : q.latched = false) (a b : Bool) : (stepPair q a b).value = (a && b) := by
  simp [stepPair, h]

/-! ### An input change -/

/-- The state that an input change evaluates. -/
def takeInputs (s : State) (uA : FMap Nat) (since : Nat) : State :=
  let v := dlkStage s.dlk.inputs uA
  (stepPairs v (s.modDlk fun x => { x with inputs := v })).modDlk fun x => x.ackTick (s.dlk.pr 5).value since

theorem execDlkInputChange_eq (s : State) (uA : FMap Nat) {held : Nat} (since : Nat) (hg : s.pdfGood = true) (hheld : 1000000 ≤ held) :
    exec (.dlkInputChange ⟨uA, held, since⟩) s = .next (takeInputs s uA since).dlkEval := by
  change execDlkInputChange ⟨uA, held, since⟩ s = _
  rw [execDlkInputChange, if_neg (by simp [hg]; omega)]
  rfl

/-- The parts that the acknowledge detector does not touch. -/
theorem ackTick_keeps (x : DlkSt) (old : Bool) (since : Nat) :
    x.ackTick old since = { x with
      ackRun := (x.ackTick old since).ackRun, ackLow := (x.ackTick old since).ackLow, ackHigh := (x.ackTick old since).ackHigh } := by
  unfold DlkSt.ackTick
  cases old <;> cases (x.pr 5).value <;> rfl

theorem takeInputs_frame (s : State) (uA : FMap Nat) (since : Nat) :
    takeInputs s uA since = { s with dlk := (takeInputs s uA since).dlk } := by
  unfold takeInputs
  dsimp only
  rw [stepPairs_keeps]
  rfl

/-- The Door Loop Keeper that an input change evaluates: inputs, pairs, the detector's times, and all else as it was. -/
theorem takeInputs_dlk (s : State) (uA : FMap Nat) (since : Nat) :
    let y := (takeInputs s uA since).dlk
    y = { s.dlk with
      inputs := dlkStage s.dlk.inputs uA, pairs := y.pairs, ackRun := y.ackRun, ackLow := y.ackLow, ackHigh := y.ackHigh } := by
  unfold takeInputs
  dsimp only [State.modDlk]
  rw [ackTick_keeps, stepPairs_keeps]

/-- What the detector steps from. -/
def takenPairs (s : State) (uA : FMap Nat) : DlkSt :=
  (stepPairs (dlkStage s.dlk.inputs uA) (s.modDlk fun x => { x with inputs := dlkStage s.dlk.inputs uA })).dlk

theorem takeInputs_dlk_eq (s : State) (uA : FMap Nat) (since : Nat) :
    (takeInputs s uA since).dlk = (takenPairs s uA).ackTick (s.dlk.pr 5).value since := by rfl

theorem takenPairs_keeps (s : State) (uA : FMap Nat) :
    takenPairs s uA = { s.dlk with inputs := dlkStage s.dlk.inputs uA, pairs := (takenPairs s uA).pairs } :=
  stepPairs_dlk _ (s.modDlk fun x => { x with inputs := dlkStage s.dlk.inputs uA })

theorem takenPairs_pr (s : State) (uA : FMap Nat) {p : Nat} (hp : p < 6) (h : (s.dlk.pr p).latched = false) :
    ((takenPairs s uA).pr p).value =
      ((dlkStage s.dlk.inputs uA).getLsbD (2 * p) && (dlkStage s.dlk.inputs uA).getLsbD (2 * p + 1)) := by
  unfold takenPairs
  rw [stepPairs_pr _ _ hp]
  exact stepPair_unlatched h _ _

theorem ackTick_pr (x : DlkSt) (old : Bool) (since p : Nat) : (x.ackTick old since).pr p = x.pr p := by
  rw [ackTick_keeps]
  rfl

/-- The acknowledge detector (R284): a rise, a fall, and neither. -/
theorem ackTick_times (x : DlkSt) (old : Bool) (since : Nat) :
    (old = false → (x.pr 5).value = true → (x.ackTick old since).ackLow = x.ackRun + since ∧ (x.ackTick old since).ackHigh = none ∧
      (x.ackTick old since).ackRun = 0) ∧
    (old = true → (x.pr 5).value = false → (x.ackTick old since).ackHigh = some (x.ackRun + since) ∧
      (x.ackTick old since).ackLow = x.ackLow ∧ (x.ackTick old since).ackRun = 0) ∧
    (old = (x.pr 5).value → (x.ackTick old since).ackRun = x.ackRun + since ∧ (x.ackTick old since).ackLow = x.ackLow ∧
      (x.ackTick old since).ackHigh = x.ackHigh) := by
  unfold DlkSt.ackTick
  cases old <;> cases (x.pr 5).value <;> simp

/-- What an input change sets up, in the terms of the equations. -/
structure Taken (s u : State) (v : BitVec 12) : Prop where
  frame : u = { s with dlk := u.dlk }
  inputs : u.dlk.inputs = v
  pr : ∀ p < 6, (u.dlk.pr p).value = (v.getLsbD (2 * p) && v.getLsbD (2 * p + 1))
  passed : u.dlk.passed = s.dlk.passed
  so3Open : u.dlk.so3Open = s.dlk.so3Open
  offL : u.dlk.offL = s.dlk.offL
  offR : u.dlk.offR = s.dlk.offR

theorem takeInputs_taken (s : State) (uA : FMap Nat) (since : Nat) (hun : ∀ p < 6, (s.dlk.pr p).latched = false) :
    Taken s (takeInputs s uA since) (dlkStage s.dlk.inputs uA) := by
  have hdlk := takeInputs_dlk s uA since
  refine ⟨takeInputs_frame s uA since, by rw [hdlk], fun p hp => ?_, by rw [hdlk], by rw [hdlk], by rw [hdlk], by rw [hdlk]⟩
  rw [takeInputs_dlk_eq, ackTick_pr, takenPairs_pr s uA hp (hun p hp)]

theorem Taken.rd {v : BitVec 12} (h : Taken s u v) (f : Fld) : u.rd f = s.rd f := by rw [h.frame]; rfl

theorem Taken.rdb {v : BitVec 12} (h : Taken s u v) (f : Fld) : u.rdb f = s.rdb f := by rw [State.rdb, h.rd, State.rdb]

theorem Taken.swd {v : BitVec 12} (h : Taken s u v) (i : Nat) : u.swd i = s.swd i := by rw [State.swd, h.rd, State.swd]

theorem Taken.dlkH {v : BitVec 12} (h : Taken s u v) : u.dlkH = (s.dlk.passed && !s.rdb Reg.DLK_STATUS_FAULT) := by
  rw [State.dlkH, h.rdb, h.passed]

theorem Taken.releaseTerm {v : BitVec 12} (h : Taken s u v) (right : Bool) :
    let pair := fun p => v.getLsbD (2 * p) && v.getLsbD (2 * p + 1)
    let lc := pair (if s.swd 0 then 3 else 2)
    let rc := pair (if s.swd 0 then 2 else 3)
    u.releaseTerm right = ((s.dlk.passed && !s.rdb Reg.DLK_STATUS_FAULT) && pair 0 && (!s.swd 3 || pair 4) && !s.rdb Reg.DLK_STATUS_LOCKOUT &&
      (if right then rc else lc) && !(if right then lc else rc) && !(if right then s.dlk.offR else s.dlk.offL)) := by
  have hL : u.dlkL = (v.getLsbD (2 * if s.swd 0 then 3 else 2) && v.getLsbD (2 * (if s.swd 0 then 3 else 2) + 1)) := by
    rw [State.dlkL, h.swd]
    exact h.pr _ (by split <;> decide)
  have hR : u.dlkR = (v.getLsbD (2 * if s.swd 0 then 2 else 3) && v.getLsbD (2 * (if s.swd 0 then 2 else 3) + 1)) := by
    rw [State.dlkR, h.swd]
    exact h.pr _ (by split <;> decide)
  simp only [State.releaseTerm, h.dlkH, hL, hR, h.swd, State.dlkLockout, h.rdb, h.pr 0 (by decide), h.pr 4 (by decide), h.offL, h.offR]
  ac_rfl

theorem inputChange_claim (s : State) (hg : s.pdfGood = true) (uA : FMap Nat) (held since : Nat) (hheld : 1000000 ≤ held)
    (hun : ∀ p < 6, (s.dlk.pr p).latched = false) :
    let v := dlkStage s.dlk.inputs uA
    let pair := fun p => v.getLsbD (2 * p) && v.getLsbD (2 * p + 1)
    let lc := pair (if s.swd 0 then 3 else 2)
    let rc := pair (if s.swd 0 then 2 else 3)
    let h := s.dlk.passed && !s.rdb Reg.DLK_STATUS_FAULT
    let free := h && pair 0 && (!s.swd 3 || pair 4) && !s.rdb Reg.DLK_STATUS_LOCKOUT
    let tl := free && lc && !rc && !s.dlk.offL
    let tr := free && rc && !lc && !s.dlk.offR
    let out := s.rd Reg.DLK_STATUS_OUT
    ∃ t, exec (.dlkInputChange ⟨uA, held, since⟩) s = .next t ∧ t.dlk.inputs = v ∧
      ((s.dlk.pr 5).value = false → pair 5 = true →
        t.dlk.ackLow = s.dlk.ackRun + since ∧ t.dlk.ackHigh = none ∧ t.dlk.ackRun = 0) ∧
      ((s.dlk.pr 5).value = true → pair 5 = false →
        t.dlk.ackHigh = some (s.dlk.ackRun + since) ∧ t.dlk.ackLow = s.dlk.ackLow ∧ t.dlk.ackRun = 0) ∧
      ((s.dlk.pr 5).value = pair 5 →
        t.dlk.ackRun = s.dlk.ackRun + since ∧ t.dlk.ackLow = s.dlk.ackLow ∧ t.dlk.ackHigh = s.dlk.ackHigh) ∧
      (∀ i < 12, (∀ e ∈ uA, e.1 ≠ i) → v.getLsbD i = s.dlk.inputs.getLsbD i) ∧
      (∀ e ∈ uA, e.1 < 12 → (∀ e' ∈ uA, e'.1 = e.1 → e' = e) → v.getLsbD e.1 = decide (3200 < e.2)) ∧ (∀ p < 6, (t.dlk.pr p).value = pair p) ∧
      natBit (t.rd Reg.DLK_STATUS_OUT) 0 = (tl && (natBit out 0 || s.dlk.so3Open)) ∧
      natBit (t.rd Reg.DLK_STATUS_OUT) 1 = (tr && (natBit out 1 || s.dlk.so3Open)) ∧
      natBit (t.rd Reg.DLK_STATUS_OUT) 2 = (h && pair 1 && !tl && !tr) ∧
      natBit (t.rd Reg.DLK_STATUS_OUT) 3 = (h && !s.rdb Reg.DLK_STATUS_LOCKOUT) ∧ onlyDlk s t := by
  intro v pair lc rc h free tl tr out
  have ht := takeInputs_taken s uA since hun
  have hack := ackTick_times (takenPairs s uA) (s.dlk.pr 5).value since
  have hrun : (takenPairs s uA).ackRun = s.dlk.ackRun := by rw [takenPairs_keeps]
  have hlow : (takenPairs s uA).ackLow = s.dlk.ackLow := by rw [takenPairs_keeps]
  have hhigh : (takenPairs s uA).ackHigh = s.dlk.ackHigh := by rw [takenPairs_keeps]
  rw [takenPairs_pr s uA (by decide) (hun 5 (by decide)), hrun, hlow, hhigh, ← takeInputs_dlk_eq] at hack
  have he := execDlkInputChange_eq s uA since hg hheld
  generalize takeInputs s uA since = u at ht hack he
  obtain ⟨hrise, hfall, hstay⟩ := hack
  obtain ⟨h0, h1, h2, h3⟩ := dlkEval_bits u
  rw [ht.releaseTerm, ht.rd, ht.so3Open] at h0
  rw [ht.releaseTerm, ht.rd, ht.so3Open] at h1
  rw [ht.dlkH, ht.pr 1 (by decide), ht.releaseTerm, ht.releaseTerm] at h2
  rw [ht.dlkH, State.dlkLockout, ht.rdb] at h3
  have hdlk := dlkEval_dlk u
  refine ⟨u.dlkEval, he, ?_, ?_, ?_, ?_, fun i hi he => dlkStage_other _ uA hi he,
    fun e he hi huniq => dlkStage_given _ uA he hi huniq, fun p hp => ?_, h0, h1, h2, h3,
    onlyDlk.trans (onlyDlk_of_parts (by rw [ht.frame])) (dlkEval_onlyDlk u)⟩
  · rw [hdlk]
    exact ht.inputs
  · rw [hdlk]
    exact hrise
  · rw [hdlk]
    exact hfall
  · rw [hdlk]
    exact hstay
  · rw [hdlk]
    exact ht.pr p hp

/-- With no release commanded before, no off-time starts. -/
theorem evaluatedDlk_off (hl : u.dlk.termL = false) (hr : u.dlk.termR = false) :
    (evaluatedDlk u).offL = u.dlk.offL ∧ (evaluatedDlk u).offR = u.dlk.offR := by
  constructor
  · change (u.dlk.offL || ((u.dlk.termL && _) && _)) = _
    rw [hl, Bool.false_and, Bool.false_and, Bool.or_false]
  · change (u.dlk.offR || ((u.dlk.termR && _) && _)) = _
    rw [hr, Bool.false_and, Bool.false_and, Bool.or_false]

/-- Settles O14: an evaluation of the equations (`dlkEval_bits`, `dlkEval_dlk`) of the state that each command sets up. -/
theorem dlkEquations : Obligations.DlkEquations := by
  intro s hg
  refine ⟨fun uA held since hheld => ?_, fun uA held since hheld hun => inputChange_claim s hg uA held since hheld hun, fun hout => ?_,
    fun right hl hr => ?_⟩
  · change execDlkInputChange ⟨uA, held, since⟩ s = _
    rw [execDlkInputChange, if_pos (by simp [hheld])]
  · let u := s.modDlk fun x => { x with so3Open := true }
    obtain ⟨h0, h1, -, -⟩ := dlkEval_bits u
    have hopen : u.dlk.so3Open = true := rfl
    rw [hopen, Bool.or_true, Bool.and_true] at h0 h1
    refine ⟨u.dlkEval, ?_, h0, h1, by rw [dlkEval_dlk]; rfl, (onlyDlk_modDlk s _).trans (dlkEval_onlyDlk u)⟩
    change execDlkSo3ReadbackOpen s = _
    rw [execDlkSo3ReadbackOpen, if_pos (by simp [hg, hout])]
  · let u : State := { s with dlk := { s.dlk with offL := s.dlk.offL && right, offR := s.dlk.offR && !right } }
    have hu : (s.modDlk fun x => if right then { x with offR := false } else { x with offL := false }) = u := by
      cases right <;> simp [State.modDlk, u]
    obtain ⟨hoffL, hoffR⟩ := evaluatedDlk_off (u := u) hl hr
    refine ⟨u.dlkEval, ?_, ?_, ?_, ?_, (onlyDlk_of_parts rfl).trans (dlkEval_onlyDlk u)⟩
    · change execDlkOffTimeExpiry right s = _
      rw [execDlkOffTimeExpiry, if_neg (by simp [hg]), hu]
    · rw [dlkEval_dlk]
      exact hoffL
    · rw [dlkEval_dlk]
      exact hoffR
    · rw [dlkEval_dlk]
      cases right <;> rfl

end Sys2Proof.Claims
end

section
/-! The Door Loop Keeper's lockout, tests and faults: O15. -/

namespace Sys2Proof.Claims

open Sys2Proof Sys2Proof.Machine

variable {s t u : State}

/-! ### Lockout (R283, R284) -/

/-- The registers that a lockout writes. -/
def lockFlds : List Fld := [Reg.DLK_STATUS_LOCKOUT, Reg.DLK_STATUS_LOCK_CAUSE, Reg.DLK_EVENT_LOCKOUT_SET]

theorem dlkLock_onlyDlk (s : State) (cause : Nat) : onlyDlk s (s.dlkLock cause) := by
  unfold State.dlkLock
  split_ifs
  · exact onlyDlk_refl s
  · exact ((onlyDlk_wr s _ _).trans (onlyDlk_wr _ _ _)).trans (onlyDlk_wr _ _ _)

theorem dlkLock_dlk (s : State) (cause : Nat) : (s.dlkLock cause).dlk = s.dlk := by
  unfold State.dlkLock
  split_ifs <;> rfl

theorem dlkLock_lockout (s : State) (cause : Nat) : (s.dlkLock cause).dlkLockout = true := by
  unfold State.dlkLock
  by_cases h : s.dlkLockout = true
  · rw [if_pos h, h]
  · rw [if_neg h, State.dlkLockout, State.rdb_wrb_ne _ _ (by decide), State.rdb_wr_ne _ _ (by decide)]
    exact State.rdb_wrb_same s (f := Reg.DLK_STATUS_LOCKOUT) (by decide) true

/-- A lockout entered, with its cause. -/
theorem dlkLock_enters (s : State) {cause : Nat} (hc : cause < 4) (h : s.dlkLockout = false) :
    (s.dlkLock cause).rd Reg.DLK_STATUS_LOCKOUT = 1 ∧ (s.dlkLock cause).rd Reg.DLK_STATUS_LOCK_CAUSE = cause ∧
      (s.dlkLock cause).rd Reg.DLK_EVENT_LOCKOUT_SET = 1 := by
  unfold State.dlkLock
  rw [h, if_neg (by decide)]
  refine ⟨?_, ?_, State.rd_wr_of_lt _ (f := Reg.DLK_EVENT_LOCKOUT_SET) (by decide)⟩
  · rw [State.rd_wrb_ne _ _ _ _ (by decide), State.rd_wr_ne _ _ _ _ (by decide)]
    exact State.rd_wr_of_lt s (f := Reg.DLK_STATUS_LOCKOUT) (by decide)
  · rw [State.rd_wrb_ne _ _ _ _ (by decide)]
    exact State.rd_wr_of_lt _ (f := Reg.DLK_STATUS_LOCK_CAUSE) hc

theorem dlkEval_pr (s : State) (p : Nat) : s.dlkEval.dlk.pr p = s.dlk.pr p := by
  rw [dlkEval_dlk]
  rfl

/-- What an evaluation keeps of the lockout and the fault. -/
theorem dlkEval_rd_status (s : State) : ∀ g ∈ lockFlds ++ [Reg.DLK_EVENT_LOCKOUT_CLEARED, Reg.DLK_STATUS_FAULT, Reg.DLK_STATUS_FAULT_CODE,
    Reg.DLK_EVENT_FAULT_SET, Reg.DLK_TEST_STARTUP, Reg.DLK_TEST_FAILED_VECTOR, Reg.DLK_STATUS_TESTING], s.dlkEval.rd g = s.rd g := by
  have hplace : ∀ g ∈ lockFlds ++ [Reg.DLK_EVENT_LOCKOUT_CLEARED, Reg.DLK_STATUS_FAULT, Reg.DLK_STATUS_FAULT_CODE, Reg.DLK_EVENT_FAULT_SET,
      Reg.DLK_TEST_STARTUP, Reg.DLK_TEST_FAILED_VECTOR, Reg.DLK_STATUS_TESTING],
      0x00A00000 * 32 ≤ g.key ∧ ∀ f ∈ dlkEvalFlds, g.key ≠ f.key := by decide
  exact fun g hg => dlkEval_rd s (hplace g hg).1 (hplace g hg).2

theorem discrepancy_claim (s : State) (hg : s.pdfGood = true) (p : Fin 6) (hdis : (s.dlk.pr p.val).disagree = true)
    (hun : (s.dlk.pr p.val).latched = false) :
    ∃ t, exec (.dlkDiscrepancy p) s = .next t ∧ (t.dlk.pr p.val).latched = true ∧ (t.dlk.pr p.val).value = false ∧
      (∀ q, q ≠ p.val → t.dlk.pr q = s.dlk.pr q) ∧ onlyDlk s t ∧
      (p.val < 5 → s.rdb Reg.DLK_STATUS_LOCKOUT = false →
        t.rd Reg.DLK_STATUS_LOCKOUT = 1 ∧ t.rd Reg.DLK_STATUS_LOCK_CAUSE = 1 ∧ t.rd Reg.DLK_EVENT_LOCKOUT_SET = 1) ∧
      (p.val < 5 → ∀ b ∈ [0, 1, 3], natBit (t.rd Reg.DLK_STATUS_OUT) b = false) ∧
      (p.val = 5 → t.rd Reg.DLK_STATUS_LOCKOUT = s.rd Reg.DLK_STATUS_LOCKOUT) := by
  let u := s.setDlkPr p.val { value := false, disagree := true, latched := true, sawZero := false }
  have hu : onlyDlk s u := onlyDlk_modDlk s _
  have hpr (q : Nat) := setDlkPr_pr s p.val q { value := false, disagree := true, latched := true, sawZero := false }
  let w := if p.val < 5 then u.dlkLock 1 else u.modDlk fun x => { x with ackHigh := none }
  have hw : onlyDlk u w := by
    dsimp only [w]
    split_ifs
    · exact dlkLock_onlyDlk u 1
    · exact onlyDlk_modDlk u fun x => { x with ackHigh := none }
  have hwpr (q : Nat) : w.dlk.pr q = u.dlk.pr q := by
    dsimp only [w]
    split_ifs
    · rw [dlkLock_dlk]
    · rfl
  have he : exec (.dlkDiscrepancy p) s = .next w.dlkEval := by
    change execDlkDiscrepancy p s = _
    rw [execDlkDiscrepancy, if_neg (by simp [hg, hdis, hun])]
    dsimp only [w]
    split_ifs <;> rfl
  refine ⟨w.dlkEval, he, ?_, ?_, fun q hq => ?_, (hu.trans hw).trans (dlkEval_onlyDlk w), fun h5 hlock => ?_, fun h5 => ?_, fun h5 => ?_⟩
  · rw [dlkEval_pr, hwpr, hpr, if_pos rfl]
  · rw [dlkEval_pr, hwpr, hpr, if_pos rfl]
  · rw [dlkEval_pr, hwpr, hpr, if_neg hq]
  · obtain ⟨h1, h2, h3⟩ := dlkLock_enters u (cause := 1) (by decide) hlock
    have hst := dlkEval_rd_status w
    rw [hst _ (by simp [lockFlds]), hst _ (by simp [lockFlds]), hst _ (by simp [lockFlds]), show w = u.dlkLock 1 from if_pos h5]
    exact ⟨h1, h2, h3⟩
  · refine dlkEval_bits_lockout ?_
    rw [show w = u.dlkLock 1 from if_pos h5]
    exact dlkLock_lockout u 1
  · rw [dlkEval_rd_status w _ (by simp [lockFlds]), show w = u.modDlk fun x => { x with ackHigh := none } from if_neg (by omega)]
    rfl

theorem bothRelease_claim (s : State) (hg : s.pdfGood = true) (h2 : (s.dlk.pr 2).value = true) (h3 : (s.dlk.pr 3).value = true)
    (hlock : s.rdb Reg.DLK_STATUS_LOCKOUT = false) :
    ∃ t, exec .dlkBothRelease s = .next t ∧ t.rd Reg.DLK_STATUS_LOCKOUT = 1 ∧ t.rd Reg.DLK_STATUS_LOCK_CAUSE = 2 ∧
      t.rd Reg.DLK_EVENT_LOCKOUT_SET = 1 ∧ (∀ b ∈ [0, 1, 3], natBit (t.rd Reg.DLK_STATUS_OUT) b = false) ∧ onlyDlk s t := by
  obtain ⟨hl, hc, hs⟩ := dlkLock_enters s (cause := 2) (by decide) hlock
  have hst := dlkEval_rd_status (s.dlkLock 2)
  refine ⟨(s.dlkLock 2).dlkEval, ?_, ?_, ?_, ?_, dlkEval_bits_lockout (dlkLock_lockout s 2),
    (dlkLock_onlyDlk s 2).trans (dlkEval_onlyDlk _)⟩
  · change execDlkBothRelease s = _
    rw [execDlkBothRelease, if_pos (by simp [hg, h2, h3])]
  · rw [hst _ (by simp [lockFlds]), hl]
  · rw [hst _ (by simp [lockFlds]), hc]
  · rw [hst _ (by simp [lockFlds]), hs]

theorem ackFree_iff (x : DlkSt) :
    (((List.range 5).all fun p => !(x.pr p).latched) && !((x.pr 2).value && (x.pr 3).value)) = true ↔
      (∀ p < 5, (x.pr p).latched = false) ∧ ¬ ((x.pr 2).value = true ∧ (x.pr 3).value = true) := by
  simp only [Bool.and_eq_true, List.all_eq_true, List.mem_range, Bool.not_eq_true', Bool.and_eq_false_iff]
  refine and_congr Iff.rfl ?_
  cases (x.pr 2).value <;> cases (x.pr 3).value <;> simp

theorem ackEdge_claim (s : State) (hg : s.pdfGood = true) (highNs : Nat) (hhigh : s.dlk.ackHigh = some highNs)
    (hval : (s.dlk.pr 5).value = false) (hlat : (s.dlk.pr 5).latched = false) (hlow : 100000000 ≤ s.dlk.ackLow)
    (hmin : 100000000 ≤ highNs) (hmax : highNs ≤ 3000000000) :
    let free := (∀ p < 5, (s.dlk.pr p).latched = false) ∧ ¬ ((s.dlk.pr 2).value = true ∧ (s.dlk.pr 3).value = true)
    ∃ t, exec .dlkAckEdge s = .next t ∧ t.dlk.ackHigh = none ∧ onlyDlk s t ∧
      (s.rdb Reg.DLK_STATUS_LOCKOUT = true → free → t.rd Reg.DLK_STATUS_LOCKOUT = 0 ∧ t.rd Reg.DLK_EVENT_LOCKOUT_CLEARED = 1) ∧
      (¬ free → regsTo s t [(Reg.DLK_EVENT_ACK_IGNORED, 1)]) := by
  intro free
  let u := s.modDlk fun x => { x with ackHigh := none }
  have hu : onlyDlk s u := onlyDlk_modDlk s _
  have he : exec .dlkAckEdge s = .next (
      if !(((List.range 5).all fun p => !(s.dlk.pr p).latched) && !((s.dlk.pr 2).value && (s.dlk.pr 3).value)) then
        u.wrb Reg.DLK_EVENT_ACK_IGNORED true
      else if u.dlkLockout then
        ((u.wrb Reg.DLK_STATUS_LOCKOUT false).wrb Reg.DLK_EVENT_LOCKOUT_CLEARED true).dlkEval
      else u) := by
    change execDlkAckEdge s = _
    unfold execDlkAckEdge
    rw [hhigh]
    dsimp only
    rw [if_neg (by simp [hg, hval, hlat])]
    refine congrArg Host.Outcome.next ((if_neg ?_).trans rfl)
    simp only [Bool.or_eq_true, decide_eq_true_eq, not_or, Nat.not_lt]
    exact ⟨⟨hlow, hmin⟩, hmax⟩
  by_cases hfree : free
  · rw [he, if_neg (by rw [Bool.not_eq_true', Bool.not_eq_false]; exact (ackFree_iff s.dlk).2 hfree)]
    cases hl : s.rdb Reg.DLK_STATUS_LOCKOUT
    · rw [if_neg (by rw [show u.dlkLockout = s.rdb Reg.DLK_STATUS_LOCKOUT from rfl, hl]; decide)]
      exact ⟨u, rfl, rfl, hu, fun h => absurd h (by decide), fun h => absurd hfree h⟩
    · rw [if_pos (show u.dlkLockout = true from hl)]
      have hst := dlkEval_rd_status ((u.wrb Reg.DLK_STATUS_LOCKOUT false).wrb Reg.DLK_EVENT_LOCKOUT_CLEARED true)
      refine ⟨_, rfl, by rw [dlkEval_dlk]; rfl, ((hu.trans (onlyDlk_wr _ _ _)).trans (onlyDlk_wr _ _ _)).trans (dlkEval_onlyDlk _),
        fun _ _ => ?_, fun h => absurd hfree h⟩
      rw [hst _ (by simp [lockFlds]), hst _ (by simp [lockFlds])]
      refine ⟨?_, State.rd_wr_of_lt _ (f := Reg.DLK_EVENT_LOCKOUT_CLEARED) (by decide)⟩
      rw [State.rd_wrb_ne _ _ _ _ (by decide)]
      exact State.rd_wr_of_lt _ (f := Reg.DLK_STATUS_LOCKOUT) (by decide)
  · rw [he, if_pos (by rw [Bool.not_eq_true', ← Bool.not_eq_true]; exact fun h => hfree ((ackFree_iff s.dlk).1 h))]
    refine ⟨_, rfl, rfl, hu.trans (onlyDlk_wr _ _ _), fun _ h => absurd h hfree, fun _ => ⟨?_, ?_⟩⟩
    · simp only [List.mem_cons, List.not_mem_nil, or_false, forall_eq]
      exact State.rd_wr_of_lt u (f := Reg.DLK_EVENT_ACK_IGNORED) (v := 1) (by decide)
    · simp only [List.mem_cons, List.not_mem_nil, or_false, forall_eq]
      exact fun g hg => State.rd_wr_ne u _ g _ hg

theorem dlkLockout_holds : dlkLockout := fun s hg =>
  ⟨fun p hdis hun => discrepancy_claim s hg p hdis hun, fun h2 h3 hlock => bothRelease_claim s hg h2 h3 hlock,
    fun highNs hhigh hval hlat hlow hmin hmax => ackEdge_claim s hg highNs hhigh hval hlat hlow hmin hmax⟩

/-! ### Faults (R286) -/

/-- What a fault of Table 9-4 does. -/
def FaultSet (s t : State) (code : Nat) : Prop :=
  t.rd Reg.DLK_STATUS_FAULT = 1 ∧ t.rd Reg.DLK_STATUS_FAULT_CODE = code ∧
    t.rd Reg.DLK_EVENT_FAULT_SET = 1 ∧ t.rd Reg.DLK_STATUS_OUT = 0 ∧ t.dlk.fbWait = (if s.swd 6 && code ≠ 5 then some 2 else none) ∧
    t = { s with regs := t.regs, dlk := t.dlk, rcd := t.rcd, sio := { s.sio with outs := t.sio.outs } } ∧ ∀ q, outKept s t q

/-- The registers of a fault. -/
def faultRegs (s : State) (code : Nat) : State :=
  ((s.wrb Reg.DLK_STATUS_FAULT true).wr Reg.DLK_STATUS_FAULT_CODE code).wrb Reg.DLK_EVENT_FAULT_SET true

/-- The marks of a fault. -/
def faultMarks (s : State) (code : Nat) : State :=
  (faultRegs s code).modDlk fun x => { x with fbWait := if (faultRegs s code).swd 6 && code ≠ 5 then some 2 else none }

theorem dlkFaultSet_eq (s : State) (code : Nat) (h : s.rdb Reg.DLK_STATUS_FAULT = false) :
    s.dlkFaultSet code = ((faultMarks s code).dlkEval).diag 6 Src.dlk 0 0x00A00000 := by
  unfold State.dlkFaultSet
  rw [h, if_neg (by decide)]
  rfl

theorem dlkFaultSet_stands (s : State) (code : Nat) (h : s.rdb Reg.DLK_STATUS_FAULT = true) : s.dlkFaultSet code = s := by
  unfold State.dlkFaultSet
  rw [if_pos h]

theorem faultMarks_rd (s : State) {code : Nat} (hc : code < 16) :
    (faultMarks s code).rd Reg.DLK_STATUS_FAULT = 1 ∧ (faultMarks s code).rd Reg.DLK_STATUS_FAULT_CODE = code ∧
      (faultMarks s code).rd Reg.DLK_EVENT_FAULT_SET = 1 := by
  have hregs (g : Fld) : (faultMarks s code).rd g = (faultRegs s code).rd g := rfl
  rw [hregs, hregs, hregs, faultRegs]
  refine ⟨?_, ?_, State.rd_wr_of_lt _ (f := Reg.DLK_EVENT_FAULT_SET) (by decide)⟩
  · rw [State.rd_wrb_ne _ _ _ _ (by decide), State.rd_wr_ne _ _ _ _ (by decide)]
    exact State.rd_wr_of_lt s (f := Reg.DLK_STATUS_FAULT) (by decide)
  · rw [State.rd_wrb_ne _ _ _ _ (by decide)]
    exact State.rd_wr_of_lt _ (f := Reg.DLK_STATUS_FAULT_CODE) hc

/-- In a fault nothing is commanded. -/
theorem evaluatedOut_fault (h : u.rd Reg.DLK_STATUS_FAULT = 1) : evaluatedOut u = 0 := by
  have hH : u.dlkH = false := by simp [State.dlkH, State.rdb, h]
  have hterm (right : Bool) : u.releaseTerm right = false := by simp [State.releaseTerm, hH]
  simp [evaluatedOut, hterm, hH, bitNat]

theorem diag_rd_dlk (s : State) (sev src inst off : Nat) (l : List Nat) {g : Fld} (hg : ∀ f ∈ logFlds, g.key ≠ f.key) :
    (s.diag sev src inst off l).rd g = s.rd g := keepsRegs_diag s sev src inst off l g hg

theorem dlkFaultSet_sets (s : State) {code : Nat} (hc : code < 16) (h : s.rdb Reg.DLK_STATUS_FAULT = false) :
    FaultSet s (s.dlkFaultSet code) code := by
  obtain ⟨hf, hcode, hset⟩ := faultMarks_rd s hc
  have hst := dlkEval_rd_status (faultMarks s code)
  have hdiag (g : Fld) (hg : ∀ f ∈ logFlds, g.key ≠ f.key) :
      ((faultMarks s code).dlkEval.diag 6 Src.dlk 0 0x00A00000).rd g = (faultMarks s code).dlkEval.rd g := diag_rd_dlk _ _ _ _ _ _ hg
  have hregs : onlyDlk s (faultRegs s code) := ((onlyDlk_wr s _ _).trans (onlyDlk_wr _ _ _)).trans (onlyDlk_wr _ _ _)
  have hmarks : onlyDlk s (faultMarks s code) := hregs.trans (onlyDlk_modDlk _ _)
  obtain ⟨hframe, hkept⟩ := hmarks.trans (dlkEval_onlyDlk _)
  have hdf := diag_frame (faultMarks s code).dlkEval 6 Src.dlk 0 0x00A00000 []
  rw [dlkFaultSet_eq s code h]
  refine ⟨?_, ?_, ?_, ?_, ?_, ?_, fun q => ?_⟩
  · rw [hdiag _ (by decide), hst _ (by simp [lockFlds]), hf]
  · rw [hdiag _ (by decide), hst _ (by simp [lockFlds]), hcode]
  · rw [hdiag _ (by decide), hst _ (by simp [lockFlds]), hset]
  · rw [hdiag _ (by decide), dlkEval_out, evaluatedOut_fault hf]
  · have hswd : (faultRegs s code).swd 6 = s.swd 6 := by
      rw [State.swd, faultRegs, State.rd_wrb_ne _ _ _ _ (by decide), State.rd_wr_ne _ _ _ _ (by decide), State.rd_wrb_ne _ _ _ _ (by decide), State.swd]
    have hwait : (faultMarks s code).dlk.fbWait = if (faultRegs s code).swd 6 && code ≠ 5 then some 2 else none := rfl
    have heval : (evaluatedDlk (faultMarks s code)).fbWait = (faultMarks s code).dlk.fbWait := rfl
    rw [diag_dlk, dlkEval_dlk, heval, hwait, hswd]
  · rw [hdf, hframe]
  · exact (hkept q).trans (outKept_of_eq (by rw [State.out, diag_sio, State.out]))

/-! ### The tests (R281, R285) -/

theorem dlkFaultSet_rd (s : State) (code : Nat) : ∀ g ∈ [Reg.DLK_TEST_STARTUP, Reg.DLK_TEST_FAILED_VECTOR, Reg.DLK_STATUS_TESTING],
    (s.dlkFaultSet code).rd g = s.rd g := by
  intro g hg
  by_cases h : s.rdb Reg.DLK_STATUS_FAULT = true
  · rw [dlkFaultSet_stands s code h]
  · have hlog : ∀ g ∈ [Reg.DLK_TEST_STARTUP, Reg.DLK_TEST_FAILED_VECTOR, Reg.DLK_STATUS_TESTING], ∀ f ∈ logFlds, g.key ≠ f.key := by decide
    have hmarks : ∀ g ∈ [Reg.DLK_TEST_STARTUP, Reg.DLK_TEST_FAILED_VECTOR, Reg.DLK_STATUS_TESTING],
        g.key ≠ Reg.DLK_STATUS_FAULT.key ∧ g.key ≠ Reg.DLK_STATUS_FAULT_CODE.key ∧ g.key ≠ Reg.DLK_EVENT_FAULT_SET.key := by decide
    have hregs : (faultMarks s code).rd g = (faultRegs s code).rd g := rfl
    obtain ⟨h1, h2, h3⟩ := hmarks g hg
    rw [dlkFaultSet_eq s code (Bool.eq_false_iff.2 h), diag_rd_dlk _ _ _ _ _ _ (hlog g hg),
      dlkEval_rd_status _ g (List.mem_append_right _ (List.mem_append_right [Reg.DLK_EVENT_LOCKOUT_CLEARED, Reg.DLK_STATUS_FAULT,
        Reg.DLK_STATUS_FAULT_CODE, Reg.DLK_EVENT_FAULT_SET] hg)), hregs, faultRegs, State.rd_wrb_ne _ _ g _ h3, State.rd_wr_ne _ _ g _ h2,
      State.rd_wrb_ne _ _ g _ h1]

/-- The off-times that the end of the start-up test starts. -/
def startOffTimes (s : State) : State :=
  let u := s.wrb Reg.DLK_STATUS_TESTING false
  u.modDlk fun x => { x with offL := u.hasOffTime, offR := u.hasOffTime }

theorem execStartupTestDone_eq (s : State) (v : Option (BitVec 8)) (h : s.rd Reg.DLK_TEST_STARTUP = 1) :
    exec (.dlkStartupTestDone v) s = (match v with
      | none => .next (((startOffTimes s).wr Reg.DLK_TEST_STARTUP 2).modDlk fun x => { x with passed := true }).dlkEval
      | some v => .next ((((startOffTimes s).wr Reg.DLK_TEST_STARTUP 3).wr Reg.DLK_TEST_FAILED_VECTOR v.toNat).dlkFaultSet 1)) := by
  change execDlkStartupTestDone v s = _
  rw [execDlkStartupTestDone, if_neg (not_not.mpr h)]
  cases v <;> rfl

theorem hasOffTime_testing (s : State) : (s.wrb Reg.DLK_STATUS_TESTING false).hasOffTime = s.hasOffTime := by
  simp only [State.hasOffTime, State.swd, State.rd_wrb_ne s Reg.DLK_STATUS_TESTING Reg.DLK_CFG_SW_D false (by decide)]

theorem startOffTimes_onlyDlk (s : State) : onlyDlk s (startOffTimes s) := onlyDlk_of_parts (by unfold startOffTimes; rfl)

theorem startupPassed_claim (s : State) (h : s.rd Reg.DLK_TEST_STARTUP = 1) :
    ∃ t, exec (.dlkStartupTestDone none) s = .next t ∧ t.rd Reg.DLK_TEST_STARTUP = 2 ∧ t.rd Reg.DLK_STATUS_TESTING = 0 ∧
      t.dlk.passed = true ∧ t.dlk.offL = s.hasOffTime ∧ t.dlk.offR = s.hasOffTime ∧
      t.rd Reg.DLK_STATUS_FAULT = s.rd Reg.DLK_STATUS_FAULT ∧ onlyDlk s t := by
  let u := ((startOffTimes s).wr Reg.DLK_TEST_STARTUP 2).modDlk fun x => { x with passed := true }
  have hu : onlyDlk s u := ((startOffTimes_onlyDlk s).trans (onlyDlk_wr _ _ _)).trans (onlyDlk_modDlk _ fun x => { x with passed := true })
  have hst := dlkEval_rd_status u
  have hurd (g : Fld) : u.rd g = ((s.wrb Reg.DLK_STATUS_TESTING false).wr Reg.DLK_TEST_STARTUP 2).rd g := rfl
  have hoff : u.dlk.offL = s.hasOffTime ∧ u.dlk.offR = s.hasOffTime := ⟨hasOffTime_testing s, hasOffTime_testing s⟩
  have htime : u.hasOffTime = s.hasOffTime := by
    have hsw : u.rd Reg.DLK_CFG_SW_D = s.rd Reg.DLK_CFG_SW_D := by
      rw [hurd, State.rd_wr_ne _ _ _ _ (by decide), State.rd_wrb_ne _ _ _ _ (by decide)]
    simp only [State.hasOffTime, State.swd, hsw]
  refine ⟨u.dlkEval, execStartupTestDone_eq s none h, ?_, ?_, by rw [dlkEval_dlk]; rfl, ?_, ?_, ?_, hu.trans (dlkEval_onlyDlk u)⟩
  · rw [hst _ (by simp), hurd]
    exact State.rd_wr_of_lt _ (f := Reg.DLK_TEST_STARTUP) (by decide)
  · rw [hst _ (by simp), hurd, State.rd_wr_ne _ _ _ _ (by decide)]
    exact State.rd_wr_of_lt s (f := Reg.DLK_STATUS_TESTING) (by decide)
  · rw [dlkEval_dlk]
    change (u.dlk.offL || (_ && u.hasOffTime)) = _
    rw [hoff.1, htime]
    cases s.hasOffTime <;> simp
  · rw [dlkEval_dlk]
    change (u.dlk.offR || (_ && u.hasOffTime)) = _
    rw [hoff.2, htime]
    cases s.hasOffTime <;> simp
  · rw [hst _ (by simp), hurd, State.rd_wr_ne _ _ _ _ (by decide), State.rd_wrb_ne _ _ _ _ (by decide)]

/-- A fault judged from a state that differs in the registers and the Door Loop Keeper's part. -/
theorem FaultSet.of_onlyDlk {code : Nat} (h : FaultSet u t code) (hu : onlyDlk s u) (hsw : u.swd 6 = s.swd 6) : FaultSet s t code := by
  obtain ⟨h1, h2, h3, h4, h5, h6, h7⟩ := h
  obtain ⟨hf, hk⟩ := hu
  exact ⟨h1, h2, h3, h4, hsw ▸ h5, by rw [h6, hf], fun q => (hk q).trans (h7 q)⟩

theorem startupFailed_claim (s : State) (h : s.rd Reg.DLK_TEST_STARTUP = 1) (v : BitVec 8) :
    ∃ t, exec (.dlkStartupTestDone (some v)) s = .next t ∧ t.rd Reg.DLK_TEST_STARTUP = 3 ∧
      t.rd Reg.DLK_TEST_FAILED_VECTOR = v.toNat ∧ t.rd Reg.DLK_STATUS_TESTING = 0 ∧
      (s.rdb Reg.DLK_STATUS_FAULT = false → FaultSet s t 1) ∧
      (s.rdb Reg.DLK_STATUS_FAULT = true → t.rd Reg.DLK_STATUS_FAULT_CODE = s.rd Reg.DLK_STATUS_FAULT_CODE) := by
  let u := ((startOffTimes s).wr Reg.DLK_TEST_STARTUP 3).wr Reg.DLK_TEST_FAILED_VECTOR v.toNat
  have hu : onlyDlk s u := ((startOffTimes_onlyDlk s).trans (onlyDlk_wr _ _ _)).trans (onlyDlk_wr _ _ _)
  have hst := dlkFaultSet_rd u 1
  have hurd (g : Fld) : u.rd g =
      (((s.wrb Reg.DLK_STATUS_TESTING false).wr Reg.DLK_TEST_STARTUP 3).wr Reg.DLK_TEST_FAILED_VECTOR v.toNat).rd g := rfl
  have hother {g : Fld} (h1 : g.key ≠ Reg.DLK_TEST_FAILED_VECTOR.key) (h2 : g.key ≠ Reg.DLK_TEST_STARTUP.key)
      (h3 : g.key ≠ Reg.DLK_STATUS_TESTING.key) : u.rd g = s.rd g := by
    rw [hurd, State.rd_wr_ne _ _ g _ h1, State.rd_wr_ne _ _ g _ h2, State.rd_wrb_ne _ _ g _ h3]
  have hfault : u.rdb Reg.DLK_STATUS_FAULT = s.rdb Reg.DLK_STATUS_FAULT := by
    rw [State.rdb, hother (by decide) (by decide) (by decide), State.rdb]
  refine ⟨u.dlkFaultSet 1, execStartupTestDone_eq s (some v) h, ?_, ?_, ?_, fun hf => ?_, fun hf => ?_⟩
  · rw [hst _ (by simp), hurd, State.rd_wr_ne _ _ _ _ (by decide)]
    exact State.rd_wr_of_lt _ (f := Reg.DLK_TEST_STARTUP) (by decide)
  · rw [hst _ (by simp), hurd]
    exact State.rd_wr_of_lt _ (f := Reg.DLK_TEST_FAILED_VECTOR) v.isLt
  · rw [hst _ (by simp), hurd, State.rd_wr_ne _ _ _ _ (by decide), State.rd_wr_ne _ _ _ _ (by decide)]
    exact State.rd_wr_of_lt s (f := Reg.DLK_STATUS_TESTING) (by decide)
  · have hsw : u.swd 6 = s.swd 6 := by rw [State.swd, hother (by decide) (by decide) (by decide), State.swd]
    exact (dlkFaultSet_sets u (by decide) (hfault.trans hf)).of_onlyDlk hu hsw
  · rw [dlkFaultSet_stands u 1 (hfault.trans hf)]
    exact hother (by decide) (by decide) (by decide)

theorem checkerTest_claim (s : State) (hg : s.pdfGood = true) :
    (∃ t, exec (.dlkCheckerTest true) s = .next t ∧
      regsTo s t [(Reg.DLK_TEST_CHK_PASSES, Min.min 65535 (s.rd Reg.DLK_TEST_CHK_PASSES + 1))] ∧ t = { s with regs := t.regs }) ∧
    (s.rdb Reg.DLK_STATUS_FAULT = false → ∃ t, exec (.dlkCheckerTest false) s = .next t ∧ FaultSet s t 3) := by
  constructor
  · refine ⟨s.inc Reg.DLK_TEST_CHK_PASSES, ?_, ⟨?_, ?_⟩, rfl⟩
    · change execDlkCheckerTest true s = _
      rw [execDlkCheckerTest, hg]
      rfl
    · simp only [List.mem_cons, List.not_mem_nil, or_false, forall_eq]
      exact rd_inc_up s Reg.DLK_TEST_CHK_PASSES
    · simp only [List.mem_cons, List.not_mem_nil, or_false, forall_eq]
      exact fun g hg => State.rd_inc_ne s _ g hg
  · intro hf
    refine ⟨s.dlkFaultSet 3, ?_, dlkFaultSet_sets s (by decide) hf⟩
    change execDlkCheckerTest false s = _
    rw [execDlkCheckerTest, hg]
    rfl

theorem lowSideOpen_iff (s : State) : s.lowSideOpen = true ↔
    ∃ o < 4, natBit (s.rd Reg.DLK_STATUS_OUT) o = false ∧ (s.out o).pulse = none ∧ s.heldOff o = false := by
  unfold State.lowSideOpen
  rw [show ([0, 1, 2, 3] : List Nat) = List.range 4 from rfl, List.any_eq_true]
  simp only [List.mem_range, Bool.and_eq_true, Bool.not_eq_true', decide_eq_true_eq, and_assoc]

theorem faultCommand_claim (s : State) (hg : s.pdfGood = true) (code : BitVec 4) :
    let found := code = 2 ∨ code = 3 ∨ (code = 4 ∧ ∃ o < 4, natBit (s.rd Reg.DLK_STATUS_OUT) o = false ∧ (s.out o).pulse = none ∧
      s.heldOff o = false)
    (found → s.rdb Reg.DLK_STATUS_FAULT = false → ∃ t, exec (.dlkFault code) s = .next t ∧ FaultSet s t code.toNat) ∧
      (s.rdb Reg.DLK_STATUS_FAULT = true ∨ ¬ found → exec (.dlkFault code) s = .next s) := by
  intro found
  have hfound : (s.pdfGood && (code = 2 || code = 3 || (code = 4 && s.lowSideOpen))) = true ↔ found := by
    rw [hg, Bool.true_and]
    simp only [Bool.or_eq_true, Bool.and_eq_true, decide_eq_true_eq, lowSideOpen_iff, or_assoc, found]
  have he : exec (.dlkFault code) s =
      .next (if s.pdfGood && (code = 2 || code = 3 || (code = 4 && s.lowSideOpen)) then s.dlkFaultSet code.toNat else s) := rfl
  refine ⟨fun hf h0 => ⟨s.dlkFaultSet code.toNat, ?_, dlkFaultSet_sets s code.isLt h0⟩, fun h => ?_⟩
  · rw [he, if_pos (hfound.2 hf)]
  · rw [he]
    by_cases hf : found
    · rw [if_pos (hfound.2 hf), dlkFaultSet_stands s _ (h.resolve_right (not_not.mpr hf))]
    · rw [if_neg fun hc => hf (hfound.1 hc)]

theorem dlkTestsAndFaults_holds : dlkTestsAndFaults := by
  intro s
  refine ⟨fun hg hload hstart => ?_, fun h => ⟨startupPassed_claim s h, startupFailed_claim s h⟩, checkerTest_claim s,
    fun code hg => faultCommand_claim s hg code⟩
  refine ⟨(s.wr Reg.DLK_TEST_STARTUP 1).wrb Reg.DLK_STATUS_TESTING true, ?_, ⟨?_, ?_⟩, rfl⟩
  · change execDlkStartupTest s = _
    rw [execDlkStartupTest, if_pos (by simp [hg, hload, hstart])]
  · simp only [List.mem_cons, List.not_mem_nil, or_false, forall_eq_or_imp, forall_eq]
    refine ⟨?_, State.rd_wr_of_lt _ (f := Reg.DLK_STATUS_TESTING) (v := 1) (by decide)⟩
    rw [State.rd_wrb_ne _ Reg.DLK_STATUS_TESTING Reg.DLK_TEST_STARTUP _ (by decide)]
    exact State.rd_wr_of_lt s (f := Reg.DLK_TEST_STARTUP) (by decide)
  · simp only [List.mem_cons, List.not_mem_nil, or_false, forall_eq_or_imp, forall_eq]
    rintro g ⟨h1, h2⟩
    rw [State.rd_wrb_ne _ _ g _ h2, State.rd_wr_ne s _ g _ h1]

/-- Settles O15: a lockout and a fault are marks in the registers and an evaluation (`dlkEval_bits_lockout`, `dlkFaultSet_sets`). -/
theorem dlkLockoutTestsAndFaults : Obligations.DlkLockoutTestsAndFaults := ⟨dlkLockout_holds, dlkTestsAndFaults_holds⟩

end Sys2Proof.Claims
end

section
/-! Frames received, and traffic that is not PTN: O16. -/

namespace Sys2Proof.Claims

open Sys2Proof Sys2Proof.Machine

variable {s t u : State}

/-! ### Reception (R301, R320, R49) -/

/-- A consist port forwards nothing. -/
theorem forward_consist (s : State) {p : Nat} (hp : 4 ≤ p) (f : PtnFrame) (bytes : List Byte) (n : Nat) (good : Bool) :
    s.forward p f bytes n good = s := by
  have h : otherPort p = none := by
    unfold otherPort
    rw [if_neg (by omega)]
  unfold State.forward
  rw [h]

/-- The checks of a frame at a consist port. -/
theorem receive_consist {p : Nat} (hp : 4 ≤ p) {bytes b : List Byte} (startNs : Nat) (fcsOk : Bool) (hedge : s.edgeUp = true)
    (hport : s.portUp p = true) (hb : ptnBody (s.rd Reg.PTN_CFG_ETHERTYPE) bytes = some b) :
    s.receive p bytes startNs fcsOk =
      let f := parsePtn b
      if !fcsOk then (.rejected, (s.inc (Reg.PTN_PORT_RX_ERR p)).modPtn fun x => { x with cFail := x.cFail + 1 })
      else if !(f.version = 1 && 1 ≤ f.type && f.type ≤ 6) || f.len = 0xFFFF || !(f.len ≤ f.body.length) || b.length < 8 then
        (.rejected, s.rxBad p)
      else
        match s.windowOf p f startNs with
        | none => (.rejected, s.policeDrop p f true)
        | some e =>
          if 0 < FMap.get 0 s.ptn.iso (violKey p f.src f.slot) then (.rejected, s.policeDrop p f false)
          else if f.type ≠ 6 && f.len ≠ (if f.type = 1 || f.type = 2 then 32 else if f.type = 5 then 52 else (s.entry e).payLen) then
            (.rejected, s.rxBad p)
          else (.accepted e f, s) := by
  have hseen (e : Nat) : s.noteSeen e p (parsePtn b) = (false, s) := by
    unfold State.noteSeen
    rw [if_pos hp]
  unfold State.receive
  rw [hb]
  simp only [hedge, hport, forward_consist s hp, ite_self, Bool.not_true, Bool.or_self, Bool.false_eq_true, if_false]
  cases s.windowOf p (parsePtn b) startNs with
  | none => rfl
  | some e => simp only [hseen, Bool.false_eq_true, if_false]

theorem onlyPtn_inc_modPtn (s : State) (f : Fld) (g : PtnSt → PtnSt) : onlyPtn s ((s.inc f).modPtn g) := by rfl

/-- A counter's step with a change of the network's part. -/
theorem counted (s : State) (f : Fld) (g : PtnSt → PtnSt) :
    ((s.inc f).modPtn g).rd f = up s f ∧ keepsRegs s ((s.inc f).modPtn g) [f] :=
  ⟨rd_inc_up s f, ((keepsRegs_refl s [f]).inc (List.mem_singleton_self f)).of_regs rfl⟩

theorem wrongFcs_claim (s : State) (port : Fin 14) {bytes b : List Byte} (startNs endNs : Nat) (hp : 4 ≤ port.val) (hedge : s.edgeUp = true)
    (hport : s.portUp port.val = true) (hb : ptnBody (s.rd Reg.PTN_CFG_ETHERTYPE) bytes = some b) :
    let p := port.val
    ∃ t, exec (.ptnFrameReceive port bytes startNs endNs false) s = .next t ∧ t.rd (Reg.PTN_PORT_RX_ERR p) = up s (Reg.PTN_PORT_RX_ERR p) ∧
      keepsRegs s t [Reg.PTN_PORT_RX_ERR p] ∧ t.ptn = { s.ptn with cFail := s.ptn.cFail + 1 } ∧ onlyPtn s t := by
  obtain ⟨hup, hkeep⟩ := counted s (Reg.PTN_PORT_RX_ERR port.val) fun x => { x with cFail := x.cFail + 1 }
  refine ⟨(s.inc (Reg.PTN_PORT_RX_ERR port.val)).modPtn fun x => { x with cFail := x.cFail + 1 }, ?_, hup, hkeep, rfl,
    onlyPtn_inc_modPtn s _ _⟩
  change execPtnFrameReceive port bytes startNs endNs false s = _
  rw [execPtnFrameReceive, receive_consist hp startNs false hedge hport hb]
  rfl

/-- The header checks hold for a DATA frame that is whole. -/
theorem headerChecks {f : PtnFrame} {b : List Byte} (hv : f.version = 1) (ht : f.type = 3) (hl : f.len ≠ 0xFFFF) (hlen : f.len ≤ f.body.length)
    (h8 : 8 ≤ b.length) :
    (!(f.version = 1 && 1 ≤ f.type && f.type ≤ 6) || f.len = 0xFFFF || !(f.len ≤ f.body.length) || b.length < 8) = false := by
  simp [hv, ht, hl, hlen, h8]

theorem receive_data {p : Nat} (hp : 4 ≤ p) {bytes b : List Byte} (startNs : Nat) (hedge : s.edgeUp = true) (hport : s.portUp p = true)
    (hb : ptnBody (s.rd Reg.PTN_CFG_ETHERTYPE) bytes = some b) (hv : (parsePtn b).version = 1) (ht : (parsePtn b).type = 3)
    (hl : (parsePtn b).len ≠ 0xFFFF) (hlen : (parsePtn b).len ≤ (parsePtn b).body.length) (h8 : 8 ≤ b.length) :
    (s.windowOf p (parsePtn b) startNs = none → s.receive p bytes startNs true = (.rejected, s.policeDrop p (parsePtn b) true)) ∧
    (∀ e, s.windowOf p (parsePtn b) startNs = some e → FMap.get 0 s.ptn.iso (violKey p (parsePtn b).src (parsePtn b).slot) = 0 →
      (parsePtn b).len = (s.entry e).payLen → s.receive p bytes startNs true = (.accepted e (parsePtn b), s)) := by
  rw [receive_consist hp startNs true hedge hport hb]
  dsimp only
  rw [if_neg (by decide), headerChecks hv ht hl hlen h8, if_neg (by decide)]
  refine ⟨fun hw => by rw [hw], fun e hw hiso hpay => ?_⟩
  rw [hw]
  dsimp only
  rw [hiso, if_neg (by decide), if_neg (by simp [ht, hpay])]

theorem foreignWindow_claim (s : State) (port : Fin 14) {bytes : List Byte} {f : PtnFrame} (startNs endNs : Nat)
    (h : s.receive port.val bytes startNs true = (.rejected, s.policeDrop port.val f true)) :
    let p := port.val
    ∃ t, exec (.ptnFrameReceive port bytes startNs endNs true) s = .next t ∧
      t.rd (Reg.PTN_POLICE_DROPS p) = up s (Reg.PTN_POLICE_DROPS p) ∧ keepsRegs s t [Reg.PTN_POLICE_DROPS p] ∧
      t.ptn.cViol = s.ptn.cViol + 1 ∧ t.ptn.rx = s.ptn.rx ∧ t.ptn.rxLate = s.ptn.rxLate ∧ onlyPtn s t := by
  let k := violKey port.val f.src f.slot
  let g : PtnSt → PtnSt := fun x => { x with viol := FMap.set 0 x.viol k (FMap.get 0 x.viol k + 1), cViol := x.cViol + 1 }
  obtain ⟨hup, hkeep⟩ := counted s (Reg.PTN_POLICE_DROPS port.val) g
  refine ⟨(s.inc (Reg.PTN_POLICE_DROPS port.val)).modPtn g, ?_, hup, hkeep, rfl, rfl, rfl, onlyPtn_inc_modPtn s _ _⟩
  change execPtnFrameReceive port bytes startNs endNs true s = _
  rw [execPtnFrameReceive, h]
  rfl

theorem delivered_claim (s : State) (port : Fin 14) {bytes : List Byte} {f : PtnFrame} (startNs endNs e : Nat) (ht : f.type = 3)
    (hmap : (s.entry e).map ≠ 0) (h : s.receive port.val bytes startNs true = (.accepted e f, s)) :
    ∃ t, exec (.ptnFrameReceive port bytes startNs endNs true) s = .next t ∧ t.regs = s.regs ∧
      let r : Option RxFrame := some ⟨f.body.take f.len, FMap.get 0 s.ptn.sentSeq (s.entry e).peer⟩
      (if endNs < s.tbc then FMap.get none t.ptn.rx e = r ∧ t.ptn = { s.ptn with rx := t.ptn.rx }
        else FMap.get none t.ptn.rxLate e = r ∧ t.ptn = { s.ptn with rxLate := t.ptn.rxLate }) ∧ onlyPtn s t := by
  have he : exec (.ptnFrameReceive port bytes startNs endNs true) s = .next (s.deliver e f (s.tbc ≤ endNs)) := by
    change execPtnFrameReceive port bytes startNs endNs true s = _
    rw [execPtnFrameReceive, h]
    simp [ht, hmap]
  let r : Option RxFrame := some ⟨f.body.take f.len, FMap.get 0 s.ptn.sentSeq (s.entry e).peer⟩
  by_cases hlate : s.tbc ≤ endNs
  · rw [decide_eq_true hlate] at he
    refine ⟨s.modPtn fun x => { x with rxLate := FMap.set none x.rxLate e r }, he, rfl, ?_, rfl⟩
    rw [if_neg (Nat.not_lt.2 hlate)]
    exact ⟨FMap.get_set_same none s.ptn.rxLate e r, rfl⟩
  · rw [decide_eq_false hlate] at he
    refine ⟨s.modPtn fun x => { x with rx := FMap.set none x.rx e r }, he, rfl, ?_, rfl⟩
    rw [if_pos (Nat.lt_of_not_le hlate)]
    exact ⟨FMap.get_set_same none s.ptn.rx e r, rfl⟩

theorem frameReception_holds : frameReception := by
  intro port bytes b startNs endNs s p f hp hedge hport hb
  refine ⟨wrongFcs_claim s port startNs endNs hp hedge hport hb, fun hv ht hl hlen h8 => ?_⟩
  obtain ⟨hnone, hsome⟩ := receive_data hp startNs hedge hport hb hv ht hl hlen h8
  exact ⟨fun hw => foreignWindow_claim s port startNs endNs (hnone hw),
    fun e hw hiso hpay hmap => delivered_claim s port startNs endNs e ht hmap (hsome e hw hiso hpay)⟩

/-! ### Foreign traffic (R326, R327) -/

/-- The addresses after a source has been learned. -/
def learnedWith (l : List Learned) (vlan : Nat) (mac : BitVec 48) (port : Nat) (now : Nat) : List Learned :=
  (l.filter fun y => !(y.vlan = vlan && y.mac = mac)) ++ [⟨vlan, mac, port, now⟩]

theorem learn_eq (s : State) (vlan : Nat) (mac : BitVec 48) (port : Nat) (h : s.ptn.learned.length < 4096) :
    s.learn vlan mac port =
      (s.modPtn fun x => { x with learned := learnedWith s.ptn.learned vlan mac port s.tm.opNs }).wr Reg.PTN_FREE_LEARNED
        (learnedWith s.ptn.learned vlan mac port s.tm.opNs).length := by
  have hlt := lt_of_le_of_lt (List.length_filter_le (fun y : Learned => !(y.vlan = vlan && y.mac = mac)) s.ptn.learned) h
  unfold State.learn
  dsimp only
  rw [if_pos hlt]
  rfl

/-- Another address is found as before. -/
theorem find_learnedWith (l : List Learned) {vlan : Nat} {src dst : BitVec 48} (h : src ≠ dst) (port now : Nat) {y : Learned}
    (hy : l.find? (fun z => z.vlan = vlan && z.mac = dst) = some y) :
    (learnedWith l vlan src port now).find? (fun z => z.vlan = vlan && z.mac = dst) = some y := by
  have hkeep : (l.filter fun z => !(z.vlan = vlan && z.mac = src)).find? (fun z => z.vlan = vlan && z.mac = dst) = some y := by
    rw [List.find?_filter, ← hy]
    congr 1
    funext z
    by_cases hz : z.mac = dst
    · simp [hz, Ne.symm h]
    · simp [hz]
  rw [learnedWith, List.find?_append, hkeep]
  rfl

/-- The ports for which a frame from port `p` to an address is buffered. -/
def routeFree (s : State) (vlan : Nat) (dst : BitVec 48) (p : Nat) : List Nat :=
  let flood := (List.range 14).filter fun q => q ≠ p && s.freeFwd q
  if dst.getLsbD 40 then flood
  else match s.ptn.learned.find? fun y => y.vlan = vlan && y.mac = dst with
    | some y => if y.port = p then [] else [y.port]
    | none => flood

/-- A frame buffered for its egress ports, as far as there is room. -/
def bufferFree (s : State) (bytes : List Byte) (outs : List Nat) : Host.Outcome State Fault Refusal :=
  let f : FreeFrame := ⟨bytes, outs⟩
  let fit := outs.filter fun q => s.ptn.portUse q + f.len ≤ 65536
  if s.ptn.sharedUse + f.len ≤ 524288 && !fit.isEmpty then
    let s := if fit.length < outs.length then s.inc Reg.PTN_FREE_DROPPED else s
    .next (s.modPtn fun x => { x with freeQ := x.freeQ ++ [⟨bytes, fit⟩] })
  else if outs.isEmpty then .next s
  else .next (s.inc Reg.PTN_FREE_DROPPED)

theorem execForeignFrameReceive_eq (s : State) (port : Fin 14) (dst src : BitVec 48) (tag : Option (BitVec 16)) (etherType : BitVec 16)
    (data : List Byte) (hedge : s.edgeUp = true) (hport : s.portUp port.val = true) (hfwd : s.freeFwd port.val = true)
    (htype : etherType.toNat ≠ s.rd Reg.PTN_CFG_ETHERTYPE) (hgptp : isGptp tag etherType = false) :
    exec (.foreignFrameReceive port dst src tag etherType data) s =
      let u := s.learn (vlanOf tag) src port.val
      bufferFree u (foreignOctets dst src tag etherType data) (routeFree u (vlanOf tag) dst port.val) := by
  change execForeignFrameReceive port dst src tag etherType data s = _
  unfold execForeignFrameReceive
  rw [if_neg (by simp [hedge, hport, hfwd, htype, hgptp])]
  rfl

theorem routeFree_learned (s : State) {vlan p : Nat} {dst : BitVec 48} {y : Learned} (huni : dst.getLsbD 40 = false)
    (hy : s.ptn.learned.find? (fun z => z.vlan = vlan && z.mac = dst) = some y) (hyp : y.port ≠ p) :
    routeFree s vlan dst p = [y.port] := by
  unfold routeFree
  dsimp only
  rw [huni, if_neg (by decide), hy]
  exact if_neg hyp

theorem bufferFree_one (s : State) {bytes : List Byte} {q : Nat} (huse : s.ptn.portUse q + max 64 (bytes.length + 4) ≤ 65536)
    (hshared : s.ptn.sharedUse + max 64 (bytes.length + 4) ≤ 524288) :
    bufferFree s bytes [q] = .next (s.modPtn fun x => { x with freeQ := x.freeQ ++ [⟨bytes, [q]⟩] }) := by
  have hfit : ([q].filter fun r => s.ptn.portUse r + FreeFrame.len ⟨bytes, [q]⟩ ≤ 65536) = [q] := by
    rw [List.filter_cons_of_pos]
    · rfl
    · exact decide_eq_true huse
  have hroom : (decide (s.ptn.sharedUse + FreeFrame.len ⟨bytes, [q]⟩ ≤ 524288) && !List.isEmpty [q]) = true := by
    have h : s.ptn.sharedUse + FreeFrame.len ⟨bytes, [q]⟩ ≤ 524288 := hshared
    rw [decide_eq_true h]
    rfl
  unfold bufferFree
  dsimp only
  rw [hfit, if_pos hroom, if_neg (Nat.lt_irrefl _)]

theorem foreignFrame_claim (s : State) (port : Fin 14) (dst src : BitVec 48) (tag : Option (BitVec 16)) (etherType : BitVec 16) (data : List Byte)
    (y : Learned) (hedge : s.edgeUp = true) (hport : s.portUp port.val = true) (hfwd : s.freeFwd port.val = true)
    (htype : etherType.toNat ≠ s.rd Reg.PTN_CFG_ETHERTYPE) (hgptp : isGptp tag etherType = false) (huni : dst.getLsbD 40 = false)
    (hy : s.ptn.learned.find? (fun z => z.vlan = vlanOf tag && z.mac = dst) = some y) (hyp : y.port ≠ port.val) (hsd : src ≠ dst)
    (hlen : s.ptn.learned.length < 4096)
    (huse : s.ptn.portUse y.port + max 64 ((foreignOctets dst src tag etherType data).length + 4) ≤ 65536)
    (hshared : s.ptn.sharedUse + max 64 ((foreignOctets dst src tag etherType data).length + 4) ≤ 524288) :
    let p := port.val
    let bytes := foreignOctets dst src tag etherType data
    ∃ t, exec (.foreignFrameReceive port dst src tag etherType data) s = .next t ∧
      t.ptn.freeQ = s.ptn.freeQ ++ [⟨bytes, [y.port]⟩] ∧ ⟨vlanOf tag, src, p, s.tm.opNs⟩ ∈ t.ptn.learned ∧
      (∀ z ∈ s.ptn.learned, ¬ (z.vlan = vlanOf tag ∧ z.mac = src) → z ∈ t.ptn.learned) ∧
      keepsRegs s t [Reg.PTN_FREE_LEARNED] ∧ onlyPtn s t := by
  intro p bytes
  let l := learnedWith s.ptn.learned (vlanOf tag) src p s.tm.opNs
  let u := (s.modPtn fun x => { x with learned := l }).wr Reg.PTN_FREE_LEARNED l.length
  refine ⟨u.modPtn fun x => { x with freeQ := x.freeQ ++ [⟨bytes, [y.port]⟩] }, ?_, rfl, ?_, fun z hz hne => ?_, ?_, rfl⟩
  · rw [execForeignFrameReceive_eq s port dst src tag etherType data hedge hport hfwd htype hgptp]
    have hlearn : s.learn (vlanOf tag) src port.val = u := learn_eq s _ _ _ hlen
    dsimp only
    rw [hlearn, routeFree_learned u huni (find_learnedWith _ hsd _ _ hy) hyp, bufferFree_one u huse hshared]
  · exact List.mem_append_right _ (List.mem_singleton_self _)
  · refine List.mem_append_left _ (List.mem_filter.2 ⟨hz, ?_⟩)
    simp only [Bool.not_eq_true', Bool.and_eq_false_iff, decide_eq_false_iff_not]
    exact not_and_or.1 hne
  · exact ((keepsRegs_refl s _).of_regs (u := s.modPtn fun x => { x with learned := l }) rfl).wr (List.mem_singleton_self _) l.length |>.of_regs rfl

/-- A first frame for one port leaves; the frames behind it are not for that port. -/
theorem sendFree_first (s : State) {p w : Nat} {f : FreeFrame} {rest : List FreeFrame} (hq : s.ptn.freeQ = f :: rest) (hf : f.ports = [p])
    (hw : s.freeWindow p f.len = some w) :
    s.sendFree p = { s with ptn := { s.ptn with
      freeQ := rest,
      egress := FMap.set none s.ptn.egress p
        (some ⟨f.bytes, true, (s.entry w).start * 10 + s.taken w p, (((s.entry w).start * 10 + s.taken w p : Nat) : Int) - s.deltaTx p⟩),
      used := FMap.set 0 s.ptn.used (w * 16 + p) (s.taken w p + (f.len + 20) * s.octetNs p) } } := by
  have hfind : s.ptn.freeQ.find? (fun f => f.ports.contains p) = some f := by
    rw [hq, List.find?_cons_of_pos]
    simp [hf]
  have hdeq : dequeue p (f :: rest) = rest := by simp [dequeue, hf]
  unfold State.sendFree
  rw [hfind]
  dsimp only
  rw [hw]
  dsimp only [State.takeFree, State.emit, State.modPtn]
  rw [hq, hdeq]
  rfl

theorem sendFree_none (s : State) {p : Nat} (h : ∀ f ∈ s.ptn.freeQ, p ∉ f.ports) : s.sendFree p = s := by
  have hfind : s.ptn.freeQ.find? (fun f => f.ports.contains p) = none := by
    rw [List.find?_eq_none]
    intro f hf
    simpa using h f hf
  unfold State.sendFree
  rw [hfind]

theorem gptpLeave_none (s : State) {p : Nat} (h : ∀ m ∈ s.tmu.gptpWait, m.1 ≠ p) : s.gptpFlush p = s := by
  have hleave : s.gptpLeave p = s := by
    have hfind : s.tmu.gptpWait.find? (fun e => e.1 = p) = none := by
      rw [List.find?_eq_none]
      intro m hm
      simpa using h m hm
    unfold State.gptpLeave
    rw [hfind]
  unfold State.gptpFlush
  induction List.range s.tmu.gptpWait.length with
  | nil => rfl
  | cons n l ih =>
    change foldSt l (fun _ s => s.gptpLeave p) (s.gptpLeave p) = s
    rw [hleave]
    exact ih

theorem foldSt_fixed {α : Type} {f : α → State → State} {s : State} (l : List α) (h : ∀ x ∈ l, f x s = s) : foldSt l f s = s := by
  induction l with
  | nil => rfl
  | cons x l ih =>
    change foldSt l f (f x s) = s
    rw [h x List.mem_cons_self]
    exact ih fun y hy => h y (List.mem_cons_of_mem x hy)

theorem freeWindow_claim (s : State) (port : Fin 14) {w : Nat} {f : FreeFrame} {rest : List FreeFrame} (hq : s.ptn.freeQ = f :: rest)
    (hf : f.ports = [port.val]) (hrest : ∀ g ∈ rest, port.val ∉ g.ports) (hw : s.freeWindow port.val f.len = some w)
    (hwait : ∀ m ∈ s.tmu.gptpWait, m.1 ≠ port.val) (hedge : s.edgeUp = true) (hport : s.portUp port.val = true)
    (hfwd : s.freeFwd port.val = true) :
    let p := port.val
    let n := (s.entry w).start * 10 + s.taken w p
    exec (.freeWindowForward port) s = .next { s with ptn := { s.ptn with
      freeQ := rest, egress := FMap.set none s.ptn.egress p (some ⟨f.bytes, true, n, (n : Int) - s.deltaTx p⟩),
      used := FMap.set 0 s.ptn.used (w * 16 + p) (s.taken w p + (f.len + 20) * s.octetNs p) } } := by
  intro p n
  change execFreeWindowForward port s = _
  unfold execFreeWindowForward
  rw [if_neg (by simp [hedge, hport]), gptpLeave_none s hwait]
  dsimp only
  rw [if_pos hfwd, hq, List.length_cons, List.range_succ_eq_map]
  change Host.Outcome.next (foldSt _ (fun _ s => s.sendFree p) (s.sendFree p)) = _
  rw [sendFree_first s hq hf hw]
  exact congrArg Host.Outcome.next (foldSt_fixed _ fun _ _ => sendFree_none _ hrest)

theorem addressAgeing_claim (s : State) :
    ∃ t, exec .addressAgeing s = .next t ∧
      (∀ z, z ∈ t.ptn.learned ↔ z ∈ s.ptn.learned ∧ s.tm.opNs < z.seen + 300000000000) ∧
      (t.ptn.learned.length < 8192 → t.rd Reg.PTN_FREE_LEARNED = t.ptn.learned.length) ∧ keepsRegs s t [Reg.PTN_FREE_LEARNED] ∧ onlyPtn s t := by
  let l := s.ptn.learned.filter fun y => s.tm.opNs < y.seen + 300000000000
  let u := s.modPtn fun x => { x with learned := l }
  refine ⟨u.wr Reg.PTN_FREE_LEARNED l.length, rfl, fun z => ?_, fun h => State.rd_wr_of_lt u (f := Reg.PTN_FREE_LEARNED) h, ?_, rfl⟩
  · change z ∈ l ↔ _
    rw [List.mem_filter, decide_eq_true_eq]
  · exact ((keepsRegs_refl s _).of_regs (u := u) rfl).wr (List.mem_singleton_self _) _

theorem foreignTraffic_holds : foreignTraffic := fun port s =>
  ⟨fun dst src tag etherType data y hedge hport hfwd htype hgptp huni hy hyp hsd hlen huse hshared =>
      foreignFrame_claim s port dst src tag etherType data y hedge hport hfwd htype hgptp huni hy hyp hsd hlen huse hshared,
    fun _ _ _ hq hf hrest hw hwait hedge hport hfwd => freeWindow_claim s port hq hf hrest hw hwait hedge hport hfwd, addressAgeing_claim s⟩

/-- Settles O16: a consist port forwards nothing, so that the checks alone decide (`receive_consist`); a foreign frame is routed,
buffered and sent. -/
theorem framesAndForeignTraffic : Obligations.FramesAndForeignTraffic := ⟨frameReception_holds, foreignTraffic_holds⟩

end Sys2Proof.Claims
end

section
/-! Transmission on the train network: O17. -/

namespace Sys2Proof.Claims

open Sys2Proof Sys2Proof.Machine

variable {s t u : State}

/-! ### A frame started on several ports (R299, R317) -/

/-- Where a frame of an entry starts at a port: at the chainage given, or behind what its window already holds, if it fits there. -/
def startAt (s : State) (e n : Nat) (at' : Option Nat) (p : Nat) : Option Nat :=
  match at' with
  | some c => some c
  | none => if s.fitsNow e p n then some ((s.entry e).start * 10 + s.gNs + s.taken e p) else none

/-- What a port's egress shows after a frame was started there, or not. -/
def egressAfter (s : State) (bytes : List Byte) (p : Nat) (start : Option Nat) : Option Egress :=
  match start with
  | some c => some ⟨bytes, true, c, (c : Int) - s.deltaTx p⟩
  | none => FMap.get none s.ptn.egress p

/-- A frame started on some ports, and what that leaves alone. -/
structure SentOn (e n : Nat) (at' : Option Nat) (bytes : List Byte) (s t : State) (ports : List Nat) : Prop where
  frame : t = { s with regs := t.regs, ptn := { s.ptn with egress := t.ptn.egress, used := t.ptn.used } }
  regs : keepsRegs s t [Reg.PTN_VOTE_UNFIT]
  egress : ∀ q, FMap.get none t.ptn.egress q =
    if q ∈ ports then egressAfter s bytes q (startAt s e n at' q) else FMap.get none s.ptn.egress q
  taken : ∀ q, q < 16 → q ∉ ports → t.taken e q = s.taken e q

/-- One port of `State.sendOn`. -/
def sendStep (e n : Nat) (at' : Option Nat) (bytes : List Byte) (r : Bool × State) (p : Nat) : Bool × State :=
  match at' with
  | some c => (true, r.2.emit p bytes true c)
  | none => if r.2.fitsNow e p n then (true, r.2.start e p n bytes) else (r.1, r.2.inc Reg.PTN_VOTE_UNFIT)

/-- The header sequence after a frame of an entry. -/
def advanceHeader (e : Nat) (s : State) : State :=
  s.modPtn fun y => { y with hdrSeq := FMap.set 0 y.hdrSeq e ((FMap.get 0 y.hdrSeq e + 1) % 65536) }

theorem sendOn_eq (s : State) (e : Nat) (ports : List Nat) (at' : Option Nat) (bytes : List Byte) (n : Nat) :
    s.sendOn e ports at' bytes n =
      let r := ports.foldl (sendStep e n at' bytes) (false, s)
      (r.1, if r.1 then advanceHeader e r.2 else r.2) := by
  unfold State.sendOn
  cases at' <;> rfl

theorem emit_egress (s : State) (p : Nat) (bytes : List Byte) (c q : Nat) :
    FMap.get none (s.emit p bytes true c).ptn.egress q = if q = p then egressAfter s bytes q (some c) else FMap.get none s.ptn.egress q := by
  by_cases hq : q = p
  · subst hq
    rw [if_pos rfl]
    exact FMap.get_set_same none s.ptn.egress q (some ⟨bytes, true, c, (c : Int) - s.deltaTx q⟩)
  · rw [if_neg hq]
    exact FMap.get_set_ne none s.ptn.egress (some ⟨bytes, true, c, (c : Int) - s.deltaTx p⟩) hq

section SentOn

variable {e n p : Nat} {at' : Option Nat} {bytes : List Byte} {done : List Nat}

theorem SentOn.refl (s : State) : SentOn e n at' bytes s s [] :=
  ⟨rfl, keepsRegs_refl s _, fun _ => rfl, fun _ _ _ => rfl⟩

theorem SentOn.deltaTx (h : SentOn e n at' bytes s t done) (q : Nat) : t.deltaTx q = s.deltaTx q := by
  have hspeed := h.regs (Reg.PTN_PORT_SPEED q) (by simp only [List.forall_mem_singleton, Fld.key, Reg.PTN_PORT_SPEED, Reg.PTN_VOTE_UNFIT]; omega)
  have hadj := h.regs (Reg.TMU_PORT_ADJ_TX_ADJ q) (by
    simp only [List.forall_mem_singleton, Fld.key, Reg.TMU_PORT_ADJ_TX_ADJ, Reg.PTN_VOTE_UNFIT]; omega)
  rw [State.deltaTx, hspeed, hadj, State.deltaTx]

theorem SentOn.frameNs (h : SentOn e n at' bytes s t done) (q : Nat) : t.frameNs q n = s.frameNs q n := by
  have hspeed := h.regs (Reg.PTN_PORT_SPEED q) (by simp only [List.forall_mem_singleton, Fld.key, Reg.PTN_PORT_SPEED, Reg.PTN_VOTE_UNFIT]; omega)
  rw [State.frameNs, State.octetNs, hspeed, State.frameNs, State.octetNs]

theorem SentOn.gNs (h : SentOn e n at' bytes s t done) : t.gNs = s.gNs := by
  rw [State.gNs, h.regs Reg.PTN_GUARD_G (by decide), State.gNs]

theorem SentOn.entry (h : SentOn e n at' bytes s t done) (k : Nat) : t.entry k = s.entry k := by rw [h.frame]; rfl

theorem SentOn.fitsNow (h : SentOn e n at' bytes s t done) (hp : p < 16) (hnew : p ∉ done) : t.fitsNow e p n = s.fitsNow e p n := by
  rw [State.fitsNow, h.taken p hp hnew, h.frameNs, h.gNs, h.entry, State.fitsNow]

theorem SentOn.startAt (h : SentOn e n at' bytes s t done) (hp : p < 16) (hnew : p ∉ done) : startAt t e n at' p = startAt s e n at' p := by
  unfold Claims.startAt
  rw [h.fitsNow hp hnew, h.taken p hp hnew, h.gNs, h.entry]

/-- A port more: what `egress` and `used` hold of it, with the registers as they are but the count. -/
theorem SentOn.step {start : Option Nat} (h : SentOn e n at' bytes s t done)
    (hstart : Claims.startAt s e n at' p = start)
    (hframe : u = { t with regs := u.regs, ptn := { t.ptn with egress := u.ptn.egress, used := u.ptn.used } })
    (hregs : keepsRegs t u [Reg.PTN_VOTE_UNFIT])
    (hegress : ∀ q, FMap.get none u.ptn.egress q = if q = p then egressAfter t bytes q start else FMap.get none t.ptn.egress q)
    (htaken : ∀ q, q < 16 → q ≠ p → u.taken e q = t.taken e q) (hnew : p ∉ done) :
    SentOn e n at' bytes s u (done ++ [p]) where
  frame := by rw [hframe, h.frame]
  regs := h.regs.trans hregs
  egress q := by
    rw [hegress]
    by_cases hq : q = p
    · subst hq
      rw [if_pos rfl, if_pos (List.mem_append_right done (List.mem_singleton_self q)), hstart]
      cases start with
      | some c => simp only [egressAfter, h.deltaTx]
      | none => simp only [egressAfter, h.egress, if_neg hnew]
    · rw [if_neg hq, h.egress]
      simp only [List.mem_append, List.mem_singleton, hq, or_false]
  taken q hlt hq := by
    rw [List.mem_append, List.mem_singleton, not_or] at hq
    rw [htaken q hlt hq.2, h.taken q hlt hq.1]

/-- Started at a chainage, which leaves the windows alone. -/
theorem SentOn.emit {c : Nat} (h : SentOn e n (some c) bytes s t done) (hnew : p ∉ done) :
    SentOn e n (some c) bytes s (t.emit p bytes true c) (done ++ [p]) :=
  h.step (p := p) (start := some c) rfl rfl (keepsRegs_of_eq rfl _)
    (emit_egress t p bytes c) (fun _ _ _ => rfl) hnew

/-- Started in the window behind what it holds. -/
theorem SentOn.start (h : SentOn e n none bytes s t done) (hp : p < 16) (hnew : p ∉ done) (hfits : s.fitsNow e p n = true) :
    SentOn e n none bytes s (t.start e p n bytes) (done ++ [p]) := by
  have hc : Claims.startAt s e n none p = some ((t.entry e).start * 10 + t.gNs + t.taken e p) := by
    rw [← h.startAt hp hnew, Claims.startAt, h.fitsNow hp hnew, if_pos hfits]
  exact h.step hc rfl (keepsRegs_of_eq rfl _) (emit_egress t p bytes _)
    (fun q hlt hq => FMap.get_set_ne 0 t.ptn.used _ (by omega)) hnew

/-- Not started where it does not fit. -/
theorem SentOn.unfit (h : SentOn e n none bytes s t done) (hnew : p ∉ done) (hfits : s.fitsNow e p n = false) :
    SentOn e n none bytes s (t.inc Reg.PTN_VOTE_UNFIT) (done ++ [p]) :=
  h.step (p := p) (start := none) (by rw [Claims.startAt, hfits]; rfl) rfl
    ((keepsRegs_refl t _).inc (List.mem_singleton_self _))
    (fun q => by
      by_cases hq : q = p
      · rw [if_pos hq]
        rfl
      · rw [if_neg hq]
        rfl)
    (fun _ _ _ => rfl) hnew

theorem SentOn.sendStep (h : SentOn e n at' bytes s t done) (b : Bool) (hp : p < 16) (hnew : p ∉ done) :
    SentOn e n at' bytes s (sendStep e n at' bytes (b, t) p).2 (done ++ [p]) ∧
      (sendStep e n at' bytes (b, t) p).1 = (b || (Claims.startAt s e n at' p).isSome) := by
  cases at' with
  | some c => exact ⟨h.emit hnew, (Bool.or_true b).symm⟩
  | none =>
    cases hfits : s.fitsNow e p n with
    | true =>
      have hs : Claims.sendStep e n none bytes (b, t) p = (true, t.start e p n bytes) := if_pos ((h.fitsNow hp hnew).trans hfits)
      rw [hs, Claims.startAt, hfits, if_pos rfl]
      exact ⟨h.start hp hnew hfits, (Bool.or_true b).symm⟩
    | false =>
      have hs : Claims.sendStep e n none bytes (b, t) p = (b, t.inc Reg.PTN_VOTE_UNFIT) :=
        if_neg (by rw [h.fitsNow hp hnew, hfits]; exact Bool.false_ne_true)
      rw [hs, Claims.startAt, hfits, if_neg Bool.false_ne_true]
      exact ⟨h.unfit hnew hfits, (Bool.or_false b).symm⟩

theorem SentOn.foldl (ports : List Nat) (h : SentOn e n at' bytes s t done) {b : Bool}
    (hb : b = done.any fun q => (Claims.startAt s e n at' q).isSome) (hnodup : (done ++ ports).Nodup) (hlt : ∀ q ∈ ports, q < 16) :
    SentOn e n at' bytes s (ports.foldl (Claims.sendStep e n at' bytes) (b, t)).2 (done ++ ports) ∧
      (ports.foldl (Claims.sendStep e n at' bytes) (b, t)).1 = (done ++ ports).any fun q => (Claims.startAt s e n at' q).isSome := by
  induction ports generalizing t done b with
  | nil => simpa only [List.foldl_nil, List.append_nil] using ⟨h, hb⟩
  | cons p ports ih =>
    have hnew : p ∉ done := fun hp => (List.disjoint_of_nodup_append hnodup) hp List.mem_cons_self
    obtain ⟨hstep, hflag⟩ := h.sendStep b (hlt p List.mem_cons_self) hnew
    have hassoc : done ++ p :: ports = (done ++ [p]) ++ ports := by simp
    rw [List.foldl_cons, hassoc]
    refine ih hstep (hflag.trans ?_) (hassoc ▸ hnodup) fun q hq => hlt q (List.mem_cons_of_mem p hq)
    rw [hb]
    simp

end SentOn

/-! ### A frame of an entry -/

theorem txPorts_lt {x : SchedEntry} {p : Nat} (h : p ∈ s.txPorts x) : p < 14 := List.mem_range.1 (List.mem_filter.1 h).1

theorem txPorts_nodup (s : State) (x : SchedEntry) : (s.txPorts x).Nodup := List.nodup_range.filter _

/-- A frame of an entry as it goes on the wire. -/
def frameOf (s : State) (e : Nat) (payload : List Byte) : List Byte :=
  buildFrame (natBE 6 (s.ptn.net.ent e).dst.toNat) (s.rd Reg.PTN_CFG_ETHERTYPE) (s.srcNode (s.entry e).ftype) (s.rd Reg.TMU_STATUS_DOMAIN)
    (s.entry e).ftype s.mi (s.entry e).slot (FMap.get 0 s.ptn.hdrSeq e) payload

/-- Some port starts the frame. -/
def started (at' : Nat → Option Nat) : Bool := (List.range 14).any fun p => (at' p).isSome

/-- A frame of an entry sent where `at'` has it start. -/
structure FrameSent (s t : State) (e : Nat) (payload : List Byte) (at' : Nat → Option Nat) : Prop where
  frame : t = { s with regs := t.regs, ptn := { s.ptn with egress := t.ptn.egress, used := t.ptn.used, hdrSeq := t.ptn.hdrSeq } }
  regs : keepsRegs s t [Reg.PTN_VOTE_UNFIT]
  egress : ∀ q, FMap.get none t.ptn.egress q = egressAfter s (frameOf s e payload) q (at' q)
  header : FMap.get 0 t.ptn.hdrSeq e = if started at' then (FMap.get 0 s.ptn.hdrSeq e + 1) % 65536 else FMap.get 0 s.ptn.hdrSeq e

theorem sendFrame_sent (s : State) (e : Nat) (c : Option Nat) (payload : List Byte) {at' : Nat → Option Nat}
    (hat : ∀ q, at' q = if q ∈ s.txPorts (s.entry e) then startAt s e payload.length c q else none) :
    (s.sendFrame e c payload).1 = started at' ∧ FrameSent s (s.sendFrame e c payload).2 e payload at' := by
  let r := (s.txPorts (s.entry e)).foldl (sendStep e payload.length c (frameOf s e payload)) (false, s)
  have hr : s.sendFrame e c payload = (r.1, if r.1 then advanceHeader e r.2 else r.2) := by
    unfold State.sendFrame
    exact sendOn_eq s e _ c _ payload.length
  obtain ⟨hsent, hflag⟩ := (SentOn.refl (e := e) (n := payload.length) (at' := c) (bytes := frameOf s e payload) s).foldl
    (s.txPorts (s.entry e)) (b := false) rfl (txPorts_nodup s _) fun q hq => (txPorts_lt hq).trans (by decide)
  rw [List.nil_append] at hsent hflag
  have hany : r.1 = started at' := by
    refine hflag.trans (Bool.eq_iff_iff.2 ?_)
    simp only [started, List.any_eq_true, List.mem_range, hat]
    constructor
    · rintro ⟨q, hq, h⟩
      exact ⟨q, txPorts_lt hq, by rwa [if_pos hq]⟩
    · rintro ⟨q, -, h⟩
      by_cases hq : q ∈ s.txPorts (s.entry e)
      · exact ⟨q, hq, by rwa [if_pos hq] at h⟩
      · rw [if_neg hq] at h
        exact absurd h Bool.false_ne_true
  have hegress (q : Nat) : FMap.get none r.2.ptn.egress q = egressAfter s (frameOf s e payload) q (at' q) := by
    rw [hsent.egress, hat]
    by_cases hq : q ∈ s.txPorts (s.entry e)
    · rw [if_pos hq, if_pos hq]
    · rw [if_neg hq, if_neg hq]
      rfl
  have hseq : r.2.ptn.hdrSeq = s.ptn.hdrSeq := by rw [hsent.frame]
  rw [hr]
  refine ⟨hany, ?_⟩
  cases h : r.1 with
  | false =>
    exact ⟨by rw [if_neg Bool.false_ne_true]; exact hsent.frame.trans (by rw [hseq]), hsent.regs, hegress,
      by rw [← hany, h, if_neg Bool.false_ne_true, if_neg Bool.false_ne_true, hseq]⟩
  | true =>
    refine ⟨?_, hsent.regs, hegress, ?_⟩
    · dsimp only
      rw [if_pos rfl, advanceHeader, hsent.frame]
      rfl
    · rw [← hany, h, if_pos rfl, ← hseq]
      exact FMap.get_set_same 0 r.2.ptn.hdrSeq e _

/-- A staged frame sent: as `FrameSent`, and the safety sequence is noted where it was. -/
structure StagedSent (s t : State) (e : Nat) (t0 : TxStage) (payload : List Byte) (at' : Nat → Option Nat) : Prop where
  frame : t = { s with regs := t.regs, ptn := t.ptn }
  regs : keepsRegs s t [Reg.PTN_VOTE_UNFIT]
  egress : ∀ q, FMap.get none t.ptn.egress q = egressAfter s (frameOf s e payload) q (at' q)
  header : FMap.get 0 t.ptn.hdrSeq e = if started at' then (FMap.get 0 s.ptn.hdrSeq e + 1) % 65536 else FMap.get 0 s.ptn.hdrSeq e
  safety : (s.entry e).safety = true → started at' = true → FMap.get 0 t.ptn.sentSeq (s.entry e).peer = t0.safeSeq

theorem sendStaged_sent (s : State) (e : Nat) (t0 : TxStage) (c : Option Nat) (payload : List Byte) {at' : Nat → Option Nat}
    (hat : ∀ q, at' q = if q ∈ s.txPorts (s.entry e) then startAt s e payload.length c q else none) :
    StagedSent s (s.sendStaged e t0 c payload) e t0 payload at' := by
  obtain ⟨hflag, h⟩ := sendFrame_sent s e c payload hat
  let u := (s.sendFrame e c payload).2
  have heq : s.sendStaged e t0 c payload =
      if started at' && (s.entry e).safety then u.modPtn fun y => { y with sentSeq := FMap.set 0 y.sentSeq (s.entry e).peer t0.safeSeq }
      else u := by
    rw [← hflag]
    rfl
  have hframe : u = { s with regs := u.regs, ptn := u.ptn } := by
    obtain ⟨hu, -, -, -⟩ := h
    change u = _ at hu
    rw [hu]
  rw [heq]
  cases hsent : started at' && (s.entry e).safety with
  | false =>
    rw [if_neg Bool.false_ne_true]
    exact ⟨hframe, h.regs, h.egress, h.header, fun hs hst => by simp [hs, hst] at hsent⟩
  | true =>
    rw [if_pos rfl]
    exact ⟨by rw [hframe]; rfl, h.regs.of_regs rfl, h.egress, h.header, fun _ _ => FMap.get_set_same 0 u.ptn.sentSeq _ _⟩

/-- The ports on which a frame starts in its window. -/
theorem window_startAt (s : State) (e n q : Nat) :
    (if q ∈ s.txPorts (s.entry e) ∧ s.fitsNow e q n = true then some ((s.entry e).start * 10 + s.gNs + s.taken e q) else none) =
      if q ∈ s.txPorts (s.entry e) then startAt s e n none q else none := by
  rw [startAt]
  exact ite_and _ _ _ _

theorem started_of_any {at' : Nat → Option Nat} {ports : List Nat} {P : Nat → Bool} (hlt : ∀ q ∈ ports, q < 14)
    (h : ports.any P = true) (hat : ∀ q ∈ ports, P q = true → (at' q).isSome = true) : started at' = true := by
  obtain ⟨q, hq, hP⟩ := List.any_eq_true.1 h
  exact List.any_eq_true.2 ⟨q, List.mem_range.2 (hlt q hq), hat q hq hP⟩

/-! ### The rows of transmission (R314 to R317, R358) -/

/-- What the window of an entry sends, by the entry's kind. -/
def windowSends (e : Nat) (s : State) : State :=
  if (s.entry e).kind = 2 && (s.entry e).ftype ≠ 5 then
    match s.launchOf e, FMap.get none s.ptn.tx e with
    | some l, some t => s.launchWindow e l t
    | some _, none => s
    | none, some t => match t.payload with
      | some pl => s.sendStaged e t none pl
      | none => s.countEmpty
    | none, none => s.countEmpty
  else if (s.entry e).kind = 4 then foldSt (s.eventsOf e) (fun v s => s.sendEvent e v) s
  else s

/-- A window that exists and may be used sends what its kind says. -/
theorem execTransmitWindow_open (e : Nat) (s : State) (hmay : s.mayOriginate = true) (hcyc : (s.entry e).inCycle s.mi = true)
    (hgate : s.gateOpen (s.entry e).ftype = true) : exec (.transmitWindow e) s = .next (windowSends e s) := by
  change execTransmitWindow e s = _
  unfold execTransmitWindow windowSends
  rw [if_neg (by simp [hmay, hcyc, hgate])]
  split_ifs
  · cases s.launchOf e <;> cases htx : FMap.get none s.ptn.tx e
    case none.some t =>
      cases hpl : t.payload <;> simp only [hpl]
    all_goals rfl
  · rfl
  · rfl

theorem staged_claim (e : Nat) (s : State) {t0 : TxStage} {pl : List Byte} (hmay : s.mayOriginate = true)
    (hcyc : (s.entry e).inCycle s.mi = true) (hgate : s.gateOpen (s.entry e).ftype = true) (hkind : (s.entry e).kind = 2)
    (hftype : (s.entry e).ftype ≠ 5) (hlaunch : s.launchOf e = none) (htx : FMap.get none s.ptn.tx e = some t0) (hpl : t0.payload = some pl) :
    ∃ t, exec (.transmitWindow e) s = .next t ∧ StagedSent s t e t0 pl fun p =>
      if p ∈ s.txPorts (s.entry e) ∧ s.fitsNow e p pl.length = true then some ((s.entry e).start * 10 + s.gNs + s.taken e p) else none := by
  refine ⟨s.sendStaged e t0 none pl, ?_, sendStaged_sent s e t0 none pl (window_startAt s e pl.length)⟩
  rw [execTransmitWindow_open e s hmay hcyc hgate, windowSends, if_pos (by simp [hkind, hftype]), hlaunch, htx]
  dsimp only
  rw [hpl]

theorem empty_claim (e : Nat) (s : State) (hmay : s.mayOriginate = true) (hcyc : (s.entry e).inCycle s.mi = true)
    (hgate : s.gateOpen (s.entry e).ftype = true) (hkind : (s.entry e).kind = 2) (hftype : (s.entry e).ftype ≠ 5)
    (hlaunch : s.launchOf e = none) (hnone : (FMap.get none s.ptn.tx e).bind (·.payload) = none) :
    ∃ t, exec (.transmitWindow e) s = .next t ∧ t.rd Reg.PTN_VOTE_EMPTY = up s Reg.PTN_VOTE_EMPTY ∧
      keepsRegs s t [Reg.PTN_VOTE_EMPTY] ∧ t.ptn = { s.ptn with cEmpty := s.ptn.cEmpty + 1 } ∧ onlyPtn s t := by
  obtain ⟨hup, hkeep⟩ := counted s Reg.PTN_VOTE_EMPTY fun x => { x with cEmpty := x.cEmpty + 1 }
  refine ⟨s.countEmpty, ?_, hup, hkeep, rfl, onlyPtn_inc_modPtn s _ _⟩
  rw [execTransmitWindow_open e s hmay hcyc hgate, windowSends, if_pos (by simp [hkind, hftype]), hlaunch]
  cases htx : FMap.get none s.ptn.tx e with
  | none => rfl
  | some t0 =>
    rw [htx, Option.bind_some] at hnone
    dsimp only
    rw [hnone]

theorem event_claim (e : Nat) (s : State) {v : EvFrame} (hmay : s.mayOriginate = true) (hcyc : (s.entry e).inCycle s.mi = true)
    (hgate : s.gateOpen (s.entry e).ftype = true) (hkind : (s.entry e).kind = 4) (hev : s.eventsOf e = [v]) (hve : v.entry = e)
    (hfits : ((s.txPorts (s.entry e)).any fun p => s.fitsNow e p v.payload.length) = true) :
    let u := (s.sendFrame e none v.payload).2
    exec (.transmitWindow e) s = .next (u.modPtn fun y => { y with events := y.events.erase v }) := by
  intro u
  rw [execTransmitWindow_open e s hmay hcyc hgate, windowSends, if_neg (by simp [hkind]), if_pos hkind, hev]
  change Host.Outcome.next (s.sendEvent e v) = _
  unfold State.sendEvent
  subst hve
  rw [if_pos hfits]

/-- Counting changes nothing but the counter. -/
theorem foldSt_inc_frame {α : Type} (l : List α) (f : Fld) (s : State) :
    foldSt l (fun _ s => s.inc f) s = { s with regs := (foldSt l (fun _ s => s.inc f) s).regs } :=
  foldSt_inv (P := fun t => t = { s with regs := t.regs }) (fun _ _ t ht => by rw [ht]; rfl) rfl

theorem expiry_claim (s : State) :
    ∃ t, exec .eventFrameExpiry s = .next t ∧
      t.ptn = { s.ptn with events := s.ptn.events.filter fun v => s.tm.cyc ≤ v.cyc + s.mx } ∧
      keepsRegs s t [Reg.PTN_VOTE_UNFIT] ∧ onlyPtn s t := by
  let old := s.ptn.events.filter fun v => v.cyc + s.mx < s.tm.cyc
  let u := foldSt old (fun _ s => s.inc Reg.PTN_VOTE_UNFIT) s
  have hu : u = { s with regs := u.regs } := foldSt_inc_frame old Reg.PTN_VOTE_UNFIT s
  have hkeep : keepsRegs s u [Reg.PTN_VOTE_UNFIT] :=
    keepsRegs_foldSt (fun _ _ s => (keepsRegs_refl s _).inc (List.mem_singleton_self _)) s
  have hmx : u.mx = s.mx := by rw [State.mx, hkeep Reg.TMU_CYC_CFG_M_CODE (by decide), State.mx]
  have htm : u.tm = s.tm := by rw [hu]
  have hptn : u.ptn = s.ptn := by rw [hu]
  refine ⟨u.modPtn fun y => { y with events := y.events.filter fun v => !(v.cyc + u.mx < u.tm.cyc) }, rfl, ?_, hkeep.of_regs rfl, ?_⟩
  · have hfilter : (fun v : EvFrame => !(decide (v.cyc + s.mx < s.tm.cyc))) = fun v => decide (s.tm.cyc ≤ v.cyc + s.mx) := by
      funext v
      rw [← decide_not, decide_eq_decide, Nat.not_lt]
    change { u.ptn with events := u.ptn.events.filter fun v => !(v.cyc + u.mx < u.tm.cyc) } = _
    rw [hmx, htm, hptn, hfilter]
  · unfold onlyPtn
    rw [hu]
    rfl

theorem launch_claim (e : Nat) (s : State) (l : Fin 8) {due : Due} {t0 : TxStage} {pl : List Byte} (hmay : s.mayOriginate = true)
    (hgate : s.gateOpen (s.entry e).ftype = true) (he : s.rd (Reg.TMU_LAUNCH_ENTRY l.val) = e)
    (hdue : FMap.get none s.tmu.launchDue l.val = some due) (htx : FMap.get none s.ptn.tx e = some t0) (hpl : t0.payload = some pl) :
    let u := { s with tmu := { s.tmu with launchDue := FMap.set none s.tmu.launchDue l.val none } }
    let v := (u.sendStaged e t0 (some due.chain) pl).launchResult l.val 1
    exec (.timedLaunchDue l) s = .next { v with tmu := { v.tmu with lastTL := FMap.set 0 v.tmu.lastTL l.val due.target } } := by
  intro u v
  change execTimedLaunchDue l s = _
  unfold execTimedLaunchDue
  rw [he, hdue]
  dsimp only
  rw [htx]
  dsimp only
  rw [hpl]
  exact if_pos (Bool.and_eq_true_iff.2 ⟨hmay, hgate⟩)

/-- Settles O17: what `State.sendOn` starts at each port is `SentOn`, by induction on the ports; every row sends through it. -/
theorem transmission : Obligations.Transmission := by
  intro e s x bytes sent inWindow hmay hcyc hgate
  have hsent {t : State} {pl : List Byte} {at' : Nat → Option Nat}
      (hegress : ∀ q, FMap.get none t.ptn.egress q = egressAfter s (frameOf s e pl) q (at' q))
      (hheader : FMap.get 0 t.ptn.hdrSeq e = if started at' then (FMap.get 0 s.ptn.hdrSeq e + 1) % 65536 else FMap.get 0 s.ptn.hdrSeq e) :
      sent t pl at' := by
    refine ⟨fun p => ?_, hheader⟩
    rw [hegress]
    cases at' p <;> rfl
  refine ⟨fun hkind hftype hlaunch => ⟨fun t0 pl htx hpl => ?_,
    fun hnone => empty_claim e s hmay hcyc hgate hkind hftype hlaunch hnone⟩, fun v hkind hev hve hfits => ?_, expiry_claim s,
    fun l due t0 pl he hdue htx hpl => ?_⟩
  · obtain ⟨t, ht, h⟩ := staged_claim e s hmay hcyc hgate hkind hftype hlaunch htx hpl
    refine ⟨t, ht, hsent h.egress h.header, fun hsafe hfits => h.safety hsafe ?_, h.regs, h.frame⟩
    exact started_of_any (fun q hq => txPorts_lt hq) hfits fun q hq hfit => by rw [if_pos ⟨hq, hfit⟩]; rfl
  · obtain ⟨-, h⟩ := sendFrame_sent s e none v.payload (window_startAt s e v.payload.length)
    refine ⟨_, event_claim e s hmay hcyc hgate hkind hev hve hfits, hsent h.egress h.header, ?_, ?_⟩
    · rw [h.frame]
      rfl
    · unfold onlyPtn
      rw [h.frame]
      rfl
  · let u := { s with tmu := { s.tmu with launchDue := FMap.set none s.tmu.launchDue l.val none } }
    have h : StagedSent u (u.sendStaged e t0 (some due.chain) pl) e t0 pl fun p =>
        if p ∈ s.txPorts x then some due.chain else none := sendStaged_sent u e t0 (some due.chain) pl fun q => rfl
    let v := (u.sendStaged e t0 (some due.chain) pl).launchResult l.val 1
    have htmu : v.tmu = u.tmu := by
      change (u.sendStaged e t0 (some due.chain) pl).tmu = _
      rw [h.frame]
    refine ⟨_, launch_claim e s l hmay hgate he hdue htx hpl, hsent h.egress h.header, ?_, ?_,
      FMap.get_set_same 0 v.tmu.lastTL l.val due.target, ?_⟩
    · exact State.rd_wr_of_lt _ (f := Reg.TMU_LAUNCH_STAT_RESULT l.val) (v := 1) (show 1 < 2 ^ 3 by decide)
    · change FMap.get none v.tmu.launchDue l.val = none
      rw [htmu]
      exact FMap.get_set_same none s.tmu.launchDue l.val none
    · change { v with tmu := _ } = _
      have hv : v = { u with regs := v.regs, ptn := v.ptn } := by
        change (u.sendStaged e t0 (some due.chain) pl).launchResult l.val 1 = _
        rw [h.frame]
        rfl
      rw [hv]

end Sys2Proof.Claims
end

section
/-! gPTP messages of two ports whose keys meet: O19. -/

namespace Sys2Proof.Claims

open Sys2Proof Sys2Proof.Machine

/-- A message of the kind given that waits, with sequence number 7. -/
def waitingMsg (kind : Nat) : GptpMsg :=
  { kind := kind, domain := 0, seq := 7, logInterval := 0, clockClass := 0, priority1 := 0, timeSource := 0, ptpTimescale := false, time := 0 }

/-- RUN3 with consist ports 4 and 5 enabled for gPTP and a free window on port 4 alone, where a message of kind 27 waits at port 4. Its key
among the messages sent, 4 * 16 + 27, is that of port 5's Announce, 5 * 16 + 11. -/
def keysMeet : State :=
  writes [(Reg.PTN_STATUS_EDGE_LOADED, 1), (Reg.MOD_DOMAIN_PGOOD, 16), (Reg.PTN_PORT_LINK 4, 1), (Reg.PTN_PORT_LINK 5, 1),
      (Reg.TMU_AS_PORTS, 3)]
    { State.reset with
      md := { ModSt.init with mode := .run3 }
      ptn := { PtnSt.init with sched := [(0, 1#32), (3, 5000#32), (4, 0xA0000000#32), (5, 16#32)] }
      tmu := { TmuSt.init with gptpWait := [(4, waitingMsg 27)] } }

/-- Port 5 serves gPTP, none of its messages has been sent and none waits. -/
theorem keysMeet_port5 : keysMeet.gptpOn 5 = true ∧ (∀ w ∈ keysMeet.tmu.gptpWait, w.1 ≠ 5) ∧ FMap.get none keysMeet.tmu.gptp (5 * 16 + 11) = none := by
  decide +kernel

/-- The state after the Announces of every port. -/
def announced (s : State) : State := foldSt (List.range 14) (fun p s => s.gptpSend p [11] 0) s

/-- The waiting message left at port 4 and took the place of port 5's Announce, whose sequence number goes on from it. -/
theorem keysMeet_announced :
    (announced keysMeet).tmu.gptpWait.map (fun w => (w.1, w.2.kind, w.2.seq)) = [(5, 11, 8)] ∧
      (FMap.get none (announced keysMeet).tmu.gptp (5 * 16 + 11)).map (·.kind) = some 27 := by
  decide +kernel

/-- The Announce of port 5 has neither left nor does it wait with the sequence number that its own history gives, 0. -/
theorem keysMeet_not_sent {m : GptpMsg} (hseq : m.seq = 0) (hkind : m.kind = 11) :
    ¬((5, m) ∈ (announced keysMeet).tmu.gptpWait ∨
      ∃ n, keysMeet.tm.tcNs ≤ n ∧ FMap.get none (announced keysMeet).tmu.gptp (5 * 16 + 11) = some { m with time := n }) := by
  obtain ⟨hwait, hkey⟩ := keysMeet_announced
  rintro (h | ⟨n, -, h⟩)
  · have hmem := List.mem_map_of_mem (f := fun w : Nat × GptpMsg => (w.1, w.2.kind, w.2.seq)) h
    rw [hwait, List.mem_singleton, hseq] at hmem
    exact absurd (congrArg (fun w => w.2.2) hmem) (show (0 : Nat) ≠ 8 by decide)
  · rw [h] at hkey
    exact absurd ((Option.some.inj hkey).symm.trans hkind) (by decide)

/-- Refutes O19: nothing keeps the kind of a waiting message below 16, so that one of kind 27 at port 4 leaves under the key of port 5's
Announce, and that Announce goes on from its sequence number 7 and not from its own history (`keysMeet`). -/
theorem not_datumsColdStartAndTimeOutputs : ¬ Obligations.DatumsColdStartAndTimeOutputs := by
  intro h
  obtain ⟨hports, -⟩ := h.2 keysMeet
  obtain ⟨hon, hwait, hnone⟩ := keysMeet_port5
  obtain ⟨t, ht, -, hk⟩ := hports 5 hon hwait (.gptpAnnounce, [11], 0) (List.mem_cons_of_mem _ List.mem_cons_self)
  obtain rfl : announced keysMeet = t := Host.Outcome.next.inj ht
  obtain ⟨hleft, -⟩ := hk 11 (List.mem_singleton_self 11)
  refine keysMeet_not_sent ?_ rfl hleft
  change (FMap.get none keysMeet.tmu.gptp (5 * 16 + 11)).elim 0 (fun m => m.seq + 1) % 65536 = 0
  rw [hnone]
  rfl

end Sys2Proof.Claims
end

section
/-! A list of fields written (`regsTo_writes`), and the links, bypass and hold-up of the network: O18. -/

namespace Sys2Proof.Claims

open Sys2Proof Sys2Proof.Machine

variable {s t u : State}

/-! ### Fields written in turn -/

/-- Values that fit, at places of their own. -/
def separate (l : List (Fld × Nat)) : Prop := (∀ e ∈ l, e.2 < 2 ^ e.1.width) ∧ l.Pairwise fun a b => a.1.key ≠ b.1.key

theorem rd_writes_mem {l : List (Fld × Nat)} (h : separate l) (s : State) {e : Fld × Nat} (he : e ∈ l) : (writes l s).rd e.1 = e.2 := by
  induction l generalizing s with
  | nil => exact absurd he List.not_mem_nil
  | cons a l ih =>
    obtain ⟨hlt, hpair⟩ := h
    obtain ⟨hne, hpair⟩ := List.pairwise_cons.1 hpair
    rcases List.mem_cons.1 he with rfl | he
    · exact (rd_writes_ne l (s.wr e.1 e.2) hne).trans (State.rd_wr_of_lt s (hlt e List.mem_cons_self))
    · exact ih ⟨fun x hx => hlt x (List.mem_cons_of_mem a hx), hpair⟩ (s.wr a.1 a.2) he

theorem regsTo_writes {l : List (Fld × Nat)} (h : separate l) (s : State) : regsTo s (writes l s) l :=
  ⟨fun _ he => rd_writes_mem h s he, fun _ hg => rd_writes_ne l s hg⟩

theorem regsTo.of_regs {l : List (Fld × Nat)} (h : regsTo s t l) (hu : u.regs = t.regs) : regsTo s u l :=
  ⟨fun e he => (State.rd_congr hu e.1).trans (h.1 e he), fun g hg => (State.rd_congr hu g).trans (h.2 g hg)⟩

theorem keepsRegs_of_regsTo {l : List (Fld × Nat)} (h : regsTo s t l) : keepsRegs s t (l.map (·.1)) := fun g hg =>
  h.2 g fun e he => hg e.1 (List.mem_map_of_mem he)

/-- The place of a one-bit field that a Boolean is written to. -/
theorem wrb_eq (s : State) (f : Fld) (b : Bool) : s.wrb f b = s.wr f (bitNat b) := rfl

theorem bitNat_decide_ne (n : Nat) : bitNat (n ≠ 0) = if n = 0 then 0 else 1 := by
  by_cases h : n = 0 <;> simp [bitNat, h]

/-! ### Links (R295) -/

theorem linkChange_claim (s : State) (port : Fin 14) {speed : Nat} (hspeed : speed < 3) (hback : port.val < 4 → speed ≠ 1)
    (hstage : s.rd Reg.PTN_BYPASS_STAGE ≠ 5) :
    ∃ t, exec (.portLinkChange port speed) s = .next t ∧
      regsTo s t [(Reg.PTN_PORT_LINK port.val, if speed = 0 then 0 else 1), (Reg.PTN_PORT_SPEED port.val, speed)] ∧
      t = { s with regs := t.regs } := by
  let l := [(Reg.PTN_PORT_LINK port.val, if speed = 0 then 0 else 1), (Reg.PTN_PORT_SPEED port.val, speed)]
  have hl : separate l := by
    constructor
    · simp only [l, List.forall_mem_cons, Reg.PTN_PORT_LINK, Reg.PTN_PORT_SPEED]
      refine ⟨?_, by omega, by simp⟩
      split <;> decide
    · simp only [l, List.pairwise_cons, Fld.key, Reg.PTN_PORT_LINK, Reg.PTN_PORT_SPEED]
      simp
  have hends : (writes l s).endInsertion = writes l s := by
    have hst : (writes l s).rd Reg.PTN_BYPASS_STAGE = s.rd Reg.PTN_BYPASS_STAGE := rd_writes_ne l s (by
      simp only [l, List.forall_mem_cons, Fld.key, Reg.PTN_BYPASS_STAGE, Reg.PTN_PORT_LINK, Reg.PTN_PORT_SPEED]
      refine ⟨by omega, by omega, by simp⟩)
    unfold State.endInsertion
    exact if_neg (by simp [hst, hstage])
  refine ⟨writes l s, ?_, regsTo_writes hl s, writes_frame l s⟩
  change execPortLinkChange port speed s = _
  unfold execPortLinkChange
  rw [if_neg (by simp; omega), wrb_eq, bitNat_decide_ne]
  exact congrArg Host.Outcome.next hends

/-! ### The hold-up measurement (R331) -/

/-- What a finished measurement writes. -/
def measured (mJ : Nat) : List (Fld × Nat) := [(Reg.PTN_HOLDUP_DONE, 1), (Reg.PTN_HOLDUP_ENERGY, min 0xFFFF (mJ / 100))]

theorem measureDone_eq (s : State) {mJ : Nat} (hbusy : s.ptn.holdupBusy = true) (hlow : ¬ mJ < 40000) (hstage : ¬ mJ < 32000) :
    exec (.holdupMeasureDone mJ) s = .next (writes (measured mJ) (s.modPtn fun x => { x with holdupBusy := false })) := by
  change execHoldupMeasureDone mJ s = _
  unfold execHoldupMeasureDone
  rw [if_neg (by simp [hbusy])]
  dsimp only
  rw [if_neg hlow, if_neg hstage]
  rfl

theorem measured_eq {mJ : Nat} (h : mJ / 100 ≤ 0xFFFF) : measured mJ = [(Reg.PTN_HOLDUP_DONE, 1), (Reg.PTN_HOLDUP_ENERGY, mJ / 100)] := by
  rw [measured, Nat.min_eq_right h]

theorem measured_separate (mJ : Nat) : separate (measured mJ) := by
  have hne : Reg.PTN_HOLDUP_DONE.key ≠ Reg.PTN_HOLDUP_ENERGY.key := by decide
  exact ⟨by simp [measured, Reg.PTN_HOLDUP_DONE, Reg.PTN_HOLDUP_ENERGY], by simp [measured, hne]⟩

theorem measureDone_claim (s : State) {mJ : Nat} (hbusy : s.ptn.holdupBusy = true) (hlo : 40000 ≤ mJ) (hhi : mJ < 6553600) :
    ∃ t, exec (.holdupMeasureDone mJ) s = .next t ∧ regsTo s t [(Reg.PTN_HOLDUP_DONE, 1), (Reg.PTN_HOLDUP_ENERGY, mJ / 100)] ∧
      t.ptn = { s.ptn with holdupBusy := false } ∧ onlyPtn s t := by
  let u := s.modPtn fun x => { x with holdupBusy := false }
  have hfit : mJ / 100 ≤ 0xFFFF := by omega
  have hto := regsTo_writes (measured_separate mJ) u
  rw [measured_eq hfit] at hto
  have hexec := measureDone_eq s (mJ := mJ) hbusy (by omega) (by omega)
  rw [measured_eq hfit] at hexec
  refine ⟨_, hexec, hto, ?_, ?_⟩
  · rw [writes_frame]
    rfl
  · unfold onlyPtn
    rw [writes_frame]
    rfl

/-- The two faults of a store that is far too small. -/
theorem measureLow_claim (s : State) {mJ : Nat} (hbusy : s.ptn.holdupBusy = true) (hlow : mJ < 32000) :
    ∃ t, exec (.holdupMeasureDone mJ) s = .next t ∧ t.rdb Reg.PTN_HOLDUP_LOW = true ∧ t.rdb Reg.PTN_HOLDUP_NO_STAGE = true := by
  let u := writes [(Reg.PTN_HOLDUP_DONE, 1), (Reg.PTN_HOLDUP_ENERGY, min 0xFFFF (mJ / 100))] (s.modPtn fun x => { x with holdupBusy := false })
  let v := (u.wrb Reg.PTN_HOLDUP_LOW true).diag 4 Src.ptn 0 0x00700010
  have hv : v.rdb Reg.PTN_HOLDUP_LOW = true := by
    rw [State.rdb, keepsRegs_diag _ _ _ _ _ _ Reg.PTN_HOLDUP_LOW (by decide)]
    exact State.rdb_wrb_same u (f := Reg.PTN_HOLDUP_LOW) (by decide) true
  refine ⟨(v.wrb Reg.PTN_HOLDUP_NO_STAGE true).diag 5 Src.ptn 0 0x00700010, ?_, ?_, ?_⟩
  · change execHoldupMeasureDone mJ s = _
    unfold execHoldupMeasureDone
    rw [if_neg (by simp [hbusy])]
    dsimp only
    rw [if_pos (by omega), if_pos (by omega)]
    rfl
  · rw [State.rdb, keepsRegs_diag _ _ _ _ _ _ Reg.PTN_HOLDUP_LOW (by decide)]
    exact (State.rdb_wrb_ne v (g := Reg.PTN_HOLDUP_LOW) (f := Reg.PTN_HOLDUP_NO_STAGE) true (by decide)).trans hv
  · rw [State.rdb, keepsRegs_diag _ _ _ _ _ _ Reg.PTN_HOLDUP_NO_STAGE (by decide)]
    exact State.rdb_wrb_same v (f := Reg.PTN_HOLDUP_NO_STAGE) (by decide) true

/-! ### Relays (R330, R332) -/

/-- The registers of a relay and of the ports that it bridges. -/
def relayFlds (lineB : Bool) (v : Nat) : List (Fld × Nat) :=
  if lineB then [(Reg.PTN_BYPASS_RELAY_B, v), (Reg.PTN_PORT_BYPASSED 2, v), (Reg.PTN_PORT_BYPASSED 3, v)]
  else [(Reg.PTN_BYPASS_RELAY_A, v), (Reg.PTN_PORT_BYPASSED 0, v), (Reg.PTN_PORT_BYPASSED 1, v)]

theorem relay_eq (s : State) (lineB closed : Bool) : s.relay lineB closed = writes (relayFlds lineB (bitNat closed)) s := by
  cases lineB <;> rfl

theorem storeLoss_claim (s : State) :
    ∃ t, exec .holdupStoreLoss s = .next t ∧ regsTo s t (relayFlds false 1 ++ relayFlds true 1 ++ [(Reg.PTN_BYPASS_STAGE, 3)]) ∧
      t.ptn = { s.ptn with relayNs := 0 } ∧ onlyPtn s t := by
  let l := relayFlds false 1 ++ relayFlds true 1 ++ [(Reg.PTN_BYPASS_STAGE, 3)]
  have hl : separate l := ⟨by decide, by decide⟩
  let u := s.modPtn fun x => { x with relayNs := 0 }
  refine ⟨writes l u, rfl, regsTo_writes hl u, ?_, ?_⟩
  · rw [writes_frame]
    rfl
  · unfold onlyPtn
    rw [writes_frame]
    rfl

theorem insertA_claim (s : State) (hedge : s.edgeUp = true) (hdone : s.rdb Reg.PTN_HOLDUP_DONE = true)
    (hstage : s.rd Reg.PTN_BYPASS_STAGE = 3) : s.insertA = writes (relayFlds false 0 ++ [(Reg.PTN_BYPASS_STAGE, 4)]) s := by
  unfold State.insertA
  rw [if_pos (by simp [hedge, hdone, hstage])]
  rfl

theorem inserted (s : State) : regsTo s (writes (relayFlds false 0 ++ [(Reg.PTN_BYPASS_STAGE, 4)]) s)
    (relayFlds false 0 ++ [(Reg.PTN_BYPASS_STAGE, 4)]) := regsTo_writes ⟨by decide, by decide⟩ s

theorem lineAUp_claim (s : State) (hstage : s.rd Reg.PTN_BYPASS_STAGE = 4) (hup : s.lineUp false = true) :
    ∃ t, exec .lineALinksUp s = .next t ∧
      regsTo s t (relayFlds true 0 ++ [(Reg.PTN_BYPASS_STAGE, if s.lineUp true then 0 else 5)]) ∧ t = { s with regs := t.regs } := by
  let u := writes (relayFlds true 0 ++ [(Reg.PTN_BYPASS_STAGE, 5)]) s
  have hu : regsTo s u (relayFlds true 0 ++ [(Reg.PTN_BYPASS_STAGE, 5)]) := regsTo_writes ⟨by decide, by decide⟩ s
  have hframe : u = { s with regs := u.regs } := writes_frame _ s
  have hexec : exec .lineALinksUp s = .next u.endInsertion := by
    change execLineALinksUp s = _
    unfold execLineALinksUp
    rw [if_pos (by simp [hstage, hup])]
    rfl
  have hst : u.rd Reg.PTN_BYPASS_STAGE = 5 := hu.1 _ (List.mem_append_right _ (List.mem_singleton_self _))
  have hlink : u.lineUp true = s.lineUp true := by
    have hc (q : Nat) (hq : q = 2 ∨ q = 3) : u.rdb (Reg.PTN_PORT_CONNECTED q) = s.rdb (Reg.PTN_PORT_CONNECTED q) ∧
        u.rdb (Reg.PTN_PORT_LINK q) = s.rdb (Reg.PTN_PORT_LINK q) := by
      unfold State.rdb
      rcases hq with rfl | rfl <;> rw [hu.2 _ (by decide), hu.2 _ (by decide)] <;> exact ⟨rfl, rfl⟩
    obtain ⟨hc2, hl2⟩ := hc 2 (Or.inl rfl)
    obtain ⟨hc3, hl3⟩ := hc 3 (Or.inr rfl)
    simp only [State.lineUp, if_true, List.all_cons, List.all_nil, hc2, hl2, hc3, hl3]
  cases hb : s.lineUp true with
  | false =>
    have hend : u.endInsertion = u := if_neg (by simp [hlink, hb])
    exact ⟨u, hexec.trans (by rw [hend]), hu, hframe⟩
  | true =>
    have hend : u.endInsertion = u.wr Reg.PTN_BYPASS_STAGE 0 := if_pos (by simp [hst, hlink, hb])
    refine ⟨u.wr Reg.PTN_BYPASS_STAGE 0, hexec.trans (by rw [hend]), ⟨?_, fun g hg => ?_⟩, by rw [hframe]; rfl⟩
    · intro e he
      rcases List.mem_append.1 he with he | he
      · have hne : e.1.key ≠ Reg.PTN_BYPASS_STAGE.key := by
          revert e
          decide
        rw [State.rd_wr_ne u Reg.PTN_BYPASS_STAGE e.1 0 hne]
        exact hu.1 e (List.mem_append_left _ he)
      · rw [List.mem_singleton.1 he]
        exact State.rd_wr_of_lt u (f := Reg.PTN_BYPASS_STAGE) (v := 0) (by decide)
    · have hlast := hg (Reg.PTN_BYPASS_STAGE, if true then 0 else 5) (List.mem_append_right _ (List.mem_singleton_self _))
      rw [State.rd_wr_ne u Reg.PTN_BYPASS_STAGE g 0 hlast]
      refine hu.2 g fun e he => ?_
      rcases List.mem_append.1 he with he | he
      · exact hg e (List.mem_append_left _ he)
      · rw [List.mem_singleton.1 he]
        exact hlast

theorem insertionTimeout_claim (s : State) (hstage : s.rd Reg.PTN_BYPASS_STAGE = 4) :
    ∃ t, exec .insertionTimeout s = .next t ∧ (∀ r ∈ relayFlds false 1 ++ [(Reg.PTN_BYPASS_STAGE, 3)], t.rd r.1 = r.2) ∧
      t.rd Reg.PTN_BYPASS_RETRIES = up s Reg.PTN_BYPASS_RETRIES ∧
      keepsRegs s t ((relayFlds false 1).map (·.1) ++ [Reg.PTN_BYPASS_STAGE, Reg.PTN_BYPASS_RETRIES] ++ logFlds) ∧
      t = { s with regs := t.regs, rcd := t.rcd } := by
  let l := relayFlds false 1 ++ [(Reg.PTN_BYPASS_STAGE, 3)]
  let u := writes l s
  have hu : regsTo s u l := regsTo_writes ⟨by decide, by decide⟩ s
  let v := u.inc Reg.PTN_BYPASS_RETRIES
  let t := v.diag 5 Src.ptn 0 0x0070000C
  have ht : keepsRegs v t logFlds := keepsRegs_diag v 5 Src.ptn 0 0x0070000C []
  refine ⟨t, ?_, fun r hr => ?_, ?_, ?_, ?_⟩
  · change execInsertionTimeout s = _
    unfold execInsertionTimeout
    rw [if_pos hstage]
    rfl
  · have hne : (∀ f ∈ logFlds, r.1.key ≠ f.key) ∧ r.1.key ≠ Reg.PTN_BYPASS_RETRIES.key := by
      revert r
      decide
    rw [ht r.1 hne.1, State.rd_inc_ne u Reg.PTN_BYPASS_RETRIES r.1 hne.2]
    exact hu.1 r hr
  · rw [ht Reg.PTN_BYPASS_RETRIES (by decide), rd_inc_up u Reg.PTN_BYPASS_RETRIES, up, hu.2 Reg.PTN_BYPASS_RETRIES (by decide), up]
  · refine ((((keepsRegs_of_regsTo hu).mono ?_).inc ?_).trans (ht.mono ?_))
    · decide
    · decide
    · decide
  · change v.diag 5 Src.ptn 0 0x0070000C = _
    rw [diag_frame]
    rfl

/-- Settles O18: every row writes a list of fields at places of their own (`regsTo_writes`). -/
theorem linksBypassAndHoldup : Obligations.LinksBypassAndHoldup := by
  intro s stage relayA relayB
  refine ⟨fun port speed hspeed hback hstage => linkChange_claim s port hspeed hback hstage, fun hdone => ?_,
    fun mJ hbusy hlo hhi => measureDone_claim s hbusy hlo hhi, fun mJ hbusy hlow => measureLow_claim s hbusy hlow, storeLoss_claim s,
    fun hedge hdone hstage => ⟨⟨_, ?_, inserted s, rfl⟩, fun hretry => ⟨_, ?_, inserted s, rfl⟩⟩,
    fun hstage hup => lineAUp_claim s hstage hup, fun hstage => insertionTimeout_claim s hstage⟩
  · change execHoldupMeasure s = _
    unfold execHoldupMeasure
    rw [if_neg (by simp [hdone])]
    rfl
  · change execEdgeInsertion s = _
    rw [execEdgeInsertion, insertA_claim s hedge hdone hstage]
  · change execInsertionRetry s = _
    rw [execInsertionRetry, if_pos hretry, insertA_claim s hedge hdone hstage]

end Sys2Proof.Claims
end

section
/-! The command lane: what a result leaves alone, the checks of a submission, and the completion of a command. -/

namespace Sys2Proof.Claims

open Sys2Proof Sys2Proof.Machine

variable {s t u : State}

/-! ### Bookkeeping of the results (R409, R410) -/

/-- The registers of the FIFO and of the lane's fill, and the interrupt causes. -/
def fifoFlds : List Fld :=
  [Reg.CMD_RES_HEAD0_WORD0, Reg.CMD_RES_HEAD1_WORD1, Reg.CMD_LANE_WAITING, Reg.CMD_LANE_FIFO_LOST, Reg.HBR_INT_STATUS_INT]

/-- What an operation on the results keeps: it changes the lane, the service port's reply and the pending interrupts, and of the lane
neither the queue nor the latch. -/
structure ResultOp (s t : State) : Prop where
  frame : t = { s with regs := t.regs, lane := t.lane,
                       hbr := { s.hbr with msix := t.hbr.msix, pba := t.hbr.pba, reply := t.hbr.reply, svcWait := t.hbr.svcWait } }
  regs : keepsRegs s t fifoFlds
  queue : t.lane.queue = s.lane.queue
  latch : t.lane.latch = s.lane.latch
  latchPsn : t.lane.latchPsn = s.lane.latchPsn

theorem ResultOp.refl (s : State) : ResultOp s s := ⟨rfl, keepsRegs_refl s _, rfl, rfl, rfl⟩

theorem ResultOp.trans (h : ResultOp s t) (h' : ResultOp t u) : ResultOp s u where
  frame := by rw [h'.frame, h.frame]
  regs := h.regs.trans h'.regs
  queue := h'.queue.trans h.queue
  latch := h'.latch.trans h.latch
  latchPsn := h'.latchPsn.trans h.latchPsn

/-- A field of the results written. -/
theorem ResultOp.wr {f : Fld} (hf : f ∈ fifoFlds) (s : State) (v : Nat) : ResultOp s (s.wr f v) :=
  ⟨rfl, keepsRegs_wr s hf v, rfl, rfl, rfl⟩

theorem raiseInt_eq (s : State) (i : Nat) :
    s.raiseInt i = s.setBit Reg.HBR_INT_STATUS_INT i ∨ s.raiseInt i = (s.setBit Reg.HBR_INT_STATUS_INT i).modHbr fun x => x.raise i := by
  unfold State.raiseInt
  dsimp only
  split
  · exact Or.inr rfl
  · exact Or.inl rfl

theorem HbrSt.raise_frame (x : HbrSt) (i : Nat) : x.raise i = { x with msix := (x.raise i).msix, pba := (x.raise i).pba } := by
  unfold HbrSt.raise
  split <;> rfl

theorem modHbr_raise (s : State) (i : Nat) : (s.modHbr fun x => x.raise i) =
    { s with hbr := { s.hbr with msix := (s.hbr.raise i).msix, pba := (s.hbr.raise i).pba } } := by
  change { s with hbr := s.hbr.raise i } = _
  rw [HbrSt.raise_frame]

theorem ResultOp.raiseInt (s : State) (i : Nat) : ResultOp s (s.raiseInt i) := by
  have hset : ResultOp s (s.setBit Reg.HBR_INT_STATUS_INT i) := ResultOp.wr (by decide) s _
  rcases raiseInt_eq s i with h | h
  · rw [h]
    exact hset
  · rw [h]
    refine hset.trans ⟨?_, keepsRegs_of_eq rfl _, rfl, rfl, rfl⟩
    rw [modHbr_raise]

theorem raiseInt_frame (s : State) (i : Nat) : s.raiseInt i =
    { s with regs := (s.raiseInt i).regs, hbr := { s.hbr with msix := (s.raiseInt i).hbr.msix, pba := (s.raiseInt i).hbr.pba } } := by
  rcases raiseInt_eq s i with h | h
  · rw [h]
    rfl
  · rw [h]
    rw [modHbr_raise]
    rfl

theorem keepsRegs_raiseInt (s : State) (i : Nat) : keepsRegs s (s.raiseInt i) [Reg.HBR_INT_STATUS_INT] := by
  have hset : keepsRegs s (s.setBit Reg.HBR_INT_STATUS_INT i) [Reg.HBR_INT_STATUS_INT] := keepsRegs_wr s (List.mem_singleton_self _) _
  rcases raiseInt_eq s i with h | h
  · rw [h]
    exact hset
  · rw [h]
    exact hset.of_regs rfl

/-- The cause is pending. -/
theorem raiseInt_bit (s : State) {i : Nat} (hi : i < 6) : natBit ((s.raiseInt i).rd Reg.HBR_INT_STATUS_INT) i = true := by
  have hset : natBit ((s.setBit Reg.HBR_INT_STATUS_INT i).rd Reg.HBR_INT_STATUS_INT) i = true := by
    rw [natBit_setBit s (f := Reg.HBR_INT_STATUS_INT) hi]
    simp
  rcases raiseInt_eq s i with h | h <;> rw [h] <;> exact hset

theorem ResultOp.laneRegs (s : State) : ResultOp s s.laneRegs := by
  unfold State.laneRegs
  exact ((ResultOp.wr (by decide) s _).trans (ResultOp.wr (by decide) _ _)).trans (ResultOp.wr (by decide) _ _)

theorem ResultOp.modResults {f : LaneQ → LaneQ} (s : State) (hq : (f s.lane).queue = s.lane.queue) (hl : (f s.lane).latch = s.lane.latch)
    (hp : (f s.lane).latchPsn = s.lane.latchPsn) : ResultOp s (s.modLaneQ f) :=
  ⟨rfl, keepsRegs_of_eq rfl _, hq, hl, hp⟩

theorem ResultOp.pushFifo (s : State) (r : Word × Word) : ResultOp s (s.pushFifo r) := by
  unfold State.pushFifo
  dsimp only
  have hlost : ResultOp s (if 64 ≤ s.lane.fifo.length then s.inc Reg.CMD_LANE_FIFO_LOST else s) := by
    split
    · exact ResultOp.wr (by decide) s _
    · exact ResultOp.refl s
  exact (hlost.trans (ResultOp.modResults _ rfl rfl rfl)).trans (ResultOp.raiseInt _ 0)

/-- The service port has its answer. -/
theorem ResultOp.answer (s : State) (w : List (BitVec 16) → List (BitVec 16)) (l : List Byte) :
    ResultOp s (s.modHbr fun x => { x with svcWait := w x.svcWait, reply := l }) :=
  ⟨rfl, keepsRegs_of_eq rfl _, rfl, rfl, rfl⟩

theorem ResultOp.flushRes (n : Nat) (s : State) : ResultOp s (State.flushRes n s) := by
  induction n generalizing s with
  | zero => exact ResultOp.refl s
  | succ n ih =>
    unfold State.flushRes
    split
    · next q r rest _ =>
      have hpush : ResultOp s ((s.modLaneQ fun x => { x with res := rest }).pushFifo r) :=
        (ResultOp.modResults s rfl rfl rfl).trans (ResultOp.pushFifo _ r)
      dsimp only
      split
      · exact (hpush.trans (ResultOp.answer _ (fun w => w.filter (· ≠ q)) _)).trans (ih _)
      · exact hpush.trans (ih _)
    · exact ResultOp.refl s

/-! ### The result of a command (R403, R407, R409) -/

theorem resultWord_eq (seq : BitVec 16) (code st : Nat) (done : Bool) : resultWord seq.toNat code done st = result0 seq code st done := by
  cases done
  · simp only [resultWord, result0, bitNat]
    rfl
  · simp only [resultWord, result0, bitNat]
    rfl

theorem result0_lt (seq : BitVec 16) {code st : Nat} (hcode : code < 256) (hst : st < 128) (done : Bool) : result0 seq code st done < 2 ^ 32 := by
  have := seq.isLt
  unfold result0
  split <;> omega

/-- The slot of a result is none of the fields of its bookkeeping. -/
theorem slot_apart (n : Nat) : (∀ f ∈ fifoFlds, (Reg.CMD_RESULT0_WORD0 n).key ≠ f.key ∧ (Reg.CMD_RESULT1_WORD1 n).key ≠ f.key) ∧
    (Reg.CMD_RESULT0_WORD0 n).key ≠ (Reg.CMD_RESULT1_WORD1 n).key := by
  simp only [fifoFlds, List.forall_mem_cons, Fld.key, Reg.CMD_RESULT0_WORD0, Reg.CMD_RESULT1_WORD1, Reg.CMD_RES_HEAD0_WORD0,
    Reg.CMD_RES_HEAD1_WORD1, Reg.CMD_LANE_WAITING, Reg.CMD_LANE_FIFO_LOST, Reg.HBR_INT_STATUS_INT]
  refine ⟨⟨?_, ?_, ?_, ?_, ?_, by simp⟩, by omega⟩ <;> omega

/-- The two words of a result in its slot. -/
def slotWrite (s : State) (n w0 w1 : Nat) : State := (s.wr (Reg.CMD_RESULT0_WORD0 n) w0).wr (Reg.CMD_RESULT1_WORD1 n) w1

theorem slotWrite_words (s : State) (n : Nat) {w0 w1 : Nat} (h0 : w0 < 2 ^ 32) (h1 : w1 < 2 ^ 32) :
    (slotWrite s n w0 w1).rd (Reg.CMD_RESULT0_WORD0 n) = w0 ∧ (slotWrite s n w0 w1).rd (Reg.CMD_RESULT1_WORD1 n) = w1 :=
  ⟨(State.rd_wr_ne _ _ _ _ (slot_apart n).2).trans (State.rd_wr_of_lt s (f := Reg.CMD_RESULT0_WORD0 n) h0),
    State.rd_wr_of_lt _ (f := Reg.CMD_RESULT1_WORD1 n) h1⟩

theorem ResultOp.words (h : ResultOp s t) (n : Nat) :
    t.rd (Reg.CMD_RESULT0_WORD0 n) = s.rd (Reg.CMD_RESULT0_WORD0 n) ∧ t.rd (Reg.CMD_RESULT1_WORD1 n) = s.rd (Reg.CMD_RESULT1_WORD1 n) :=
  ⟨h.regs _ fun f hf => ((slot_apart n).1 f hf).1, h.regs _ fun f hf => ((slot_apart n).1 f hf).2⟩

/-- What a result's posting leaves behind, the slot apart. -/
theorem post_resultOp (s : State) (seq : BitVec 16) (code st w1 : Nat) :
    ResultOp (slotWrite s (seq.toNat % 64) (resultWord seq.toNat code true st) w1) (s.post seq code st w1) := by
  unfold State.post
  exact ((ResultOp.modResults _ rfl rfl rfl).trans (ResultOp.flushRes _ _)).trans (ResultOp.laneRegs _)

theorem cmdFlds_eq (seq : BitVec 16) : cmdFlds seq =
    [Reg.CMD_RESULT0_WORD0 (seq.toNat % 64), Reg.CMD_RESULT1_WORD1 (seq.toNat % 64)] ++ fifoFlds := rfl

theorem keepsRegs_slotWrite (s : State) (seq : BitVec 16) (w0 w1 : Nat) : keepsRegs s (slotWrite s (seq.toNat % 64) w0 w1) (cmdFlds seq) :=
  (keepsRegs_wr s (by rw [cmdFlds]; exact List.mem_cons_self) w0).wr (by rw [cmdFlds]; exact List.mem_cons_of_mem _ List.mem_cons_self) w1

/-- A completed command differs from the state it completes in by its result and, unless it is OK, its log record. -/
theorem complete_posted (u : State) (seq : BitVec 16) {code st w1 : Nat} (hcode : code < 256) (hst : st < 128) (hw : w1 < 2 ^ 32) :
    posted u (u.complete seq code st w1) seq code st w1 ∧ (u.complete seq code st w1).lane.queue = u.lane.queue ∧
      (u.complete seq code st w1).lane.latch = u.lane.latch ∧ (u.complete seq code st w1).lane.latchPsn = u.lane.latchPsn := by
  let v := if st = 0 then u else u.diag 3 Src.hbr 0 0x00200000 [seq.toNat, code, st]
  have hv : keepsRegs u v (cmdFlds seq ++ if st = 0 then [] else logFlds) ∧ (st = 0 → v.rcd = u.rcd) ∧
      v = { u with regs := v.regs, rcd := v.rcd } := by
    by_cases h : st = 0
    · have hu : v = u := if_pos h
      rw [hu]
      exact ⟨keepsRegs_refl u _, fun _ => rfl, rfl⟩
    · have hu : v = u.diag 3 Src.hbr 0 0x00200000 [seq.toNat, code, st] := if_neg h
      rw [hu, if_neg h]
      exact ⟨(keepsRegs_diag u _ _ _ _ _).mono fun f hf => List.mem_append_right _ hf, fun h' => absurd h' h, diag_frame u _ _ _ _ _⟩
  obtain ⟨hregs, hrcd, hframe⟩ := hv
  let t := v.post seq code st w1
  have hpost : ResultOp (slotWrite v (seq.toNat % 64) (result0 seq code st true) w1) t := resultWord_eq seq code st true ▸ post_resultOp v seq code st w1
  have hwords := slotWrite_words v (seq.toNat % 64) (result0_lt seq hcode hst true) hw
  have hslot : keepsRegs u t (cmdFlds seq ++ if st = 0 then [] else logFlds) :=
    (hregs.trans ((keepsRegs_slotWrite v seq _ w1).mono fun f hf => List.mem_append_left _ hf)).trans
      (hpost.regs.mono fun f hf => List.mem_append_left _ (by rw [cmdFlds_eq]; exact List.mem_append_right _ hf))
  have hlane : v.lane = u.lane := by rw [hframe]
  have ht : t.rcd = v.rcd := by
    rw [hpost.frame]
    rfl
  refine ⟨⟨(hpost.words _).1.trans hwords.1, (hpost.words _).2.trans hwords.2, hslot, fun h => ?_, ?_⟩, hpost.queue.trans (by rw [← hlane]; rfl),
    hpost.latch.trans (by rw [← hlane]; rfl), hpost.latchPsn.trans (by rw [← hlane]; rfl)⟩
  · exact ht.trans (hrcd h)
  · have hc : u.complete seq code st w1 = t := rfl
    rw [hc, ht]
    exact hpost.frame.trans (by rw [slotWrite, hframe]; rfl)

/-! ### A submission (R402 to R405) -/

/-- What an accepted record has taken: `NEXT`, and its slot, which shows it as not final. -/
structure AcceptedAs (s u : State) (seq : BitVec 16) (code : Nat) : Prop where
  next : u.rd Reg.CMD_NEXT_SEQ_NEXT = (seq.toNat + 1) % 65536
  slot : u.rd (Reg.CMD_RESULT0_WORD0 (seq.toNat % 64)) = result0 seq code 0 false
  queue : u.lane.queue = s.lane.queue
  latch : u.lane.latch = s.lane.latch
  md : u.md = s.md
  chs : u.chs = s.chs
  forces : u.forces = s.forces

theorem next_apart (n : Nat) : Reg.CMD_NEXT_SEQ_NEXT.key ≠ (Reg.CMD_RESULT0_WORD0 n).key ∧ Reg.CMD_NEXT_SEQ_NEXT.key ≠ (Reg.CMD_RESULT1_WORD1 n).key := by
  simp only [Fld.key, Reg.CMD_NEXT_SEQ_NEXT, Reg.CMD_RESULT0_WORD0, Reg.CMD_RESULT1_WORD1]
  omega

/-- The registers of an accepted record. -/
def acceptRegs (s : State) (code : Nat) : State :=
  let seq : BitVec 16 := BitVec.ofNat 16 (s.rd Reg.CMD_NEXT_SEQ_NEXT)
  slotWrite (s.incWrap Reg.CMD_NEXT_SEQ_NEXT) (seq.toNat % 64) (resultWord seq.toNat code false 0) 0

theorem accept_acceptedAs (s : State) {seq : BitVec 16} {code : Nat} (port : CmdPort) (hseq : seq.toNat = s.rd Reg.CMD_NEXT_SEQ_NEXT)
    (hcode : code < 256) : (s.accept code port).1 = seq ∧ AcceptedAs s (s.accept code port).2 seq code := by
  have hq : BitVec.ofNat 16 (s.rd Reg.CMD_NEXT_SEQ_NEXT) = seq := by rw [← hseq, BitVec.ofNat_toNat, BitVec.setWidth_eq]
  refine ⟨hq, ?_⟩
  have hregs : (s.accept code port).2.regs = (acceptRegs s code).regs := by cases port <;> rfl
  have ha : acceptRegs s code = slotWrite (s.incWrap Reg.CMD_NEXT_SEQ_NEXT) (seq.toNat % 64) (result0 seq code 0 false) 0 := by
    rw [acceptRegs, hq, resultWord_eq]
  refine ⟨?_, ?_, by cases port <;> rfl, by cases port <;> rfl, by cases port <;> rfl, by cases port <;> rfl, by cases port <;> rfl⟩
  · rw [State.rd_congr hregs, ha, slotWrite, State.rd_wr_ne _ _ _ _ (next_apart _).2, State.rd_wr_ne _ _ _ _ (next_apart _).1, State.incWrap, ← hseq]
    exact State.rd_wr_same s Reg.CMD_NEXT_SEQ_NEXT (seq.toNat + 1)
  · rw [State.rd_congr hregs, ha]
    exact (slotWrite_words _ _ (result0_lt seq hcode (by decide) false) (by decide)).1

/-- The record of a command as it arrives. -/
def arriving (seq : BitVec 16) (ch : Nat) (psn : Bool) (port : CmdPort) (w1 w2 w3 : Word) : CmdRec :=
  { form := .arrive seq ch psn, port := port, w1 := w1, w2 := w2, w3 := w3 }

section Submit

variable {seq : BitVec 16} {port : CmdPort} {w1 w2 w3 : Word} {ch : Nat} {code : Byte}

/-- The latch is empty after a submission. -/
def unlatched (s : State) : State := s.modLaneQ fun x => { x with latch := [], latchPsn := false }

/-- The cases of a submission. -/
theorem submit_eq (psn : Bool) : s.submit seq code port w1 w2 w3 ch psn =
    let a := (unlatched s).accept code.toNat port
    if psn then a.2.complete a.1 code.toNat 3 0
    else if seq.toNat ≠ s.rd Reg.CMD_NEXT_SEQ_NEXT then (((unlatched s).inc Reg.CMD_LANE_SEQ_ERR).diag 4 Src.hbr 0 0x00200014).raiseInt 5
    else if !codeDefined code.toNat then a.2.complete a.1 code.toNat 6 0
    else if 256 ≤ s.rd Reg.CMD_LANE_WAITING then a.2.complete a.1 code.toNat 4 0
    else (a.2.modLaneQ fun x => { x with queue := x.queue ++ [.record (a.2.laneWait ch) a.1 code port w1 w2 w3] }).laneRegs := by rfl

theorem submit_wrongSeq (hseq : seq.toNat ≠ s.rd Reg.CMD_NEXT_SEQ_NEXT) :
    let t := s.submit seq code port w1 w2 w3 ch false
    t.rd Reg.CMD_LANE_SEQ_ERR = up s Reg.CMD_LANE_SEQ_ERR ∧ t.lane = { s.lane with latch := [], latchPsn := false } ∧
      t.rd Reg.CMD_NEXT_SEQ_NEXT = s.rd Reg.CMD_NEXT_SEQ_NEXT := by
  intro t
  let u := (unlatched s).inc Reg.CMD_LANE_SEQ_ERR
  let v := u.diag 4 Src.hbr 0 0x00200014
  have ht : t = v.raiseInt 5 := by
    change s.submit seq code port w1 w2 w3 ch false = _
    rw [submit_eq]
    dsimp only
    rw [if_neg Bool.false_ne_true, if_pos hseq]
  have hkeep : keepsRegs u t (logFlds ++ [Reg.HBR_INT_STATUS_INT]) := by
    rw [ht]
    exact ((keepsRegs_diag u _ _ _ _ _).mono fun f hf => List.mem_append_left _ hf).trans
      ((keepsRegs_raiseInt v 5).mono fun f hf => List.mem_append_right _ hf)
  refine ⟨?_, ?_, ?_⟩
  · rw [hkeep Reg.CMD_LANE_SEQ_ERR (by decide)]
    exact rd_inc_up (unlatched s) Reg.CMD_LANE_SEQ_ERR
  · rw [ht, raiseInt_frame]
    change v.lane = _
    rw [show v = _ from diag_frame u _ _ _ _ _]
    rfl
  · rw [hkeep Reg.CMD_NEXT_SEQ_NEXT (by decide)]
    exact State.rd_inc_ne (unlatched s) Reg.CMD_LANE_SEQ_ERR Reg.CMD_NEXT_SEQ_NEXT (by decide)

theorem submit_queued (hseq : seq.toNat = s.rd Reg.CMD_NEXT_SEQ_NEXT) (hcode : codeDefined code.toNat = true)
    (hroom : s.rd Reg.CMD_LANE_WAITING < 256) :
    let t := s.submit seq code port w1 w2 w3 ch false
    t.rd Reg.CMD_NEXT_SEQ_NEXT = (seq.toNat + 1) % 65536 ∧ t.rd (Reg.CMD_RESULT0_WORD0 (seq.toNat % 64)) = result0 seq code.toNat 0 false ∧
      t.lane.queue = s.lane.queue ++ [.record (if ch + 10000 < s.tbc then 1 else 2) seq code port w1 w2 w3] ∧ t.lane.latch = [] ∧
      t.md = s.md ∧ t.chs = s.chs ∧ t.forces = s.forces := by
  intro t
  obtain ⟨hq, ha⟩ := accept_acceptedAs (unlatched s) port hseq code.isLt
  let u := ((unlatched s).accept code.toNat port).2
  let v := u.modLaneQ fun x => { x with queue := x.queue ++ [.record (u.laneWait ch) seq code port w1 w2 w3] }
  have ht : t = v.laneRegs := by
    change s.submit seq code port w1 w2 w3 ch false = _
    rw [submit_eq]
    dsimp only
    rw [hq, if_neg Bool.false_ne_true, if_neg (not_not.2 hseq), if_neg (by rw [hcode]; decide), if_neg (Nat.not_le.2 hroom)]
  have hop : ResultOp v t := ht ▸ ResultOp.laneRegs v
  have hframe : t = { v with regs := t.regs, lane := t.lane, hbr := t.hbr } := by
    rw [hop.frame]
  have htbc : u.laneWait ch = if ch + 10000 < s.tbc then 1 else 2 := by
    have hcode : u.rd Reg.TMU_CYC_CFG_TBC_CODE = s.rd Reg.TMU_CYC_CFG_TBC_CODE := by
      have hregs : u.regs = (acceptRegs (unlatched s) code.toNat).regs := by cases port <;> rfl
      rw [State.rd_congr hregs, acceptRegs, slotWrite]
      have hne {n : Nat} (hn : n < 64) : Reg.TMU_CYC_CFG_TBC_CODE.key ≠ (Reg.CMD_RESULT0_WORD0 n).key ∧
          Reg.TMU_CYC_CFG_TBC_CODE.key ≠ (Reg.CMD_RESULT1_WORD1 n).key := by
        simp only [Fld.key, Reg.TMU_CYC_CFG_TBC_CODE, Reg.CMD_RESULT0_WORD0, Reg.CMD_RESULT1_WORD1]
        omega
      have hlt : (BitVec.ofNat 16 ((unlatched s).rd Reg.CMD_NEXT_SEQ_NEXT)).toNat % 64 < 64 := Nat.mod_lt _ (by decide)
      rw [State.rd_wr_ne _ _ _ _ (hne hlt).2, State.rd_wr_ne _ _ _ _ (hne hlt).1]
      exact State.rd_wr_ne (unlatched s) Reg.CMD_NEXT_SEQ_NEXT Reg.TMU_CYC_CFG_TBC_CODE _ (by decide)
    have hmd : u.md = s.md := ha.md
    rw [State.laneWait, State.tbc, hcode, hmd, State.tbc]
  refine ⟨?_, ?_, ?_, ?_, ?_, ?_, ?_⟩
  · rw [hop.regs Reg.CMD_NEXT_SEQ_NEXT (by decide)]
    exact ha.next
  · rw [(hop.words _).1]
    exact ha.slot
  · rw [hop.queue, ← htbc]
    exact congrArg (· ++ [.record (u.laneWait ch) seq code port w1 w2 w3]) ha.queue
  · exact hop.latch.trans ha.latch
  · rw [hframe]
    exact ha.md
  · rw [hframe]
    exact ha.chs
  · rw [hframe]
    exact ha.forces

/-- A record that is accepted and completes at once. -/
theorem accepted_complete (hseq : seq.toNat = s.rd Reg.CMD_NEXT_SEQ_NEXT) {c st : Nat} (hc : c < 256) (hst : st < 128) :
    let t := ((unlatched s).accept c port).2.complete seq c st 0
    t.rd (Reg.CMD_RESULT0_WORD0 (seq.toNat % 64)) = result0 seq c st true ∧ t.lane.queue = s.lane.queue ∧ t.md = s.md ∧ t.chs = s.chs ∧
      t.rd Reg.CMD_NEXT_SEQ_NEXT = (seq.toNat + 1) % 65536 := by
  intro t
  obtain ⟨-, ha⟩ := accept_acceptedAs (unlatched s) port hseq hc
  let u := ((unlatched s).accept c port).2
  obtain ⟨⟨hword, -, hkeep, -, hframe⟩, hqueue, -, -⟩ := complete_posted u seq hc hst (w1 := 0) (by decide)
  refine ⟨hword, hqueue.trans ha.queue, ?_, ?_, ?_⟩
  · change (u.complete seq c st 0).md = s.md
    rw [hframe]
    exact ha.md
  · change (u.complete seq c st 0).chs = s.chs
    rw [hframe]
    exact ha.chs
  · refine (hkeep Reg.CMD_NEXT_SEQ_NEXT ?_).trans ha.next
    have hfifo : ∀ g ∈ fifoFlds, Reg.CMD_NEXT_SEQ_NEXT.key ≠ g.key := by decide
    intro f hf
    rw [cmdFlds_eq] at hf
    rcases List.mem_append.1 hf with hf | hf
    · rcases List.mem_append.1 hf with hf | hf
      · simp only [List.mem_cons, List.not_mem_nil, or_false] at hf
        rcases hf with rfl | rfl
        · exact (next_apart _).1
        · exact (next_apart _).2
      · exact hfifo f hf
    · have hlog : ∀ g ∈ logFlds, Reg.CMD_NEXT_SEQ_NEXT.key ≠ g.key := by decide
      by_cases h0 : st = 0
      · rw [if_pos h0] at hf
        exact absurd hf List.not_mem_nil
      · rw [if_neg h0] at hf
        exact hlog f hf

theorem submit_unknown (hseq : seq.toNat = s.rd Reg.CMD_NEXT_SEQ_NEXT) (hcode : codeDefined code.toNat = false) :
    s.submit seq code port w1 w2 w3 ch false = ((unlatched s).accept code.toNat port).2.complete seq code.toNat 6 0 := by
  obtain ⟨hq, -⟩ := accept_acceptedAs (unlatched s) port hseq code.isLt
  rw [submit_eq]
  dsimp only
  rw [hq, if_neg Bool.false_ne_true, if_neg (not_not.2 hseq), if_pos (by rw [hcode]; rfl)]

theorem submit_full (hseq : seq.toNat = s.rd Reg.CMD_NEXT_SEQ_NEXT) (hcode : codeDefined code.toNat = true)
    (hfull : 256 ≤ s.rd Reg.CMD_LANE_WAITING) :
    s.submit seq code port w1 w2 w3 ch false = ((unlatched s).accept code.toNat port).2.complete seq code.toNat 4 0 := by
  obtain ⟨hq, -⟩ := accept_acceptedAs (unlatched s) port hseq code.isLt
  rw [submit_eq]
  dsimp only
  rw [hq, if_neg Bool.false_ne_true, if_neg (not_not.2 hseq), if_neg (by rw [hcode]; decide), if_pos hfull]

theorem submit_poisoned (hseq : seq.toNat = s.rd Reg.CMD_NEXT_SEQ_NEXT) :
    s.submit seq code port w1 w2 w3 ch true = ((unlatched s).accept code.toNat port).2.complete seq code.toNat 3 0 := by
  obtain ⟨hq, -⟩ := accept_acceptedAs (unlatched s) port hseq code.isLt
  rw [submit_eq]
  dsimp only
  rw [hq, if_pos rfl]

end Submit

/-! ### A command's row (R405, R407) -/

theorem cmd_arrive {code : Byte} {eff : State → CmdRes State} {seq : BitVec 16} {ch : Nat} {psn : Bool} {port : CmdPort} {w1 w2 w3 : Word}
    (halive : s.hostAlive = true) (hport : s.portServed port = true) :
    s.cmd code (arriving seq ch psn port w1 w2 w3) eff = s.submit seq code port w1 w2 w3 ch psn := by
  unfold State.cmd
  rw [if_neg (by rw [halive]; decide)]
  exact if_pos hport

theorem cmd_apply {code : Byte} {eff : State → CmdRes State} {seq : BitVec 16} {port : CmdPort} {w1 w2 w3 : Word}
    (halive : s.hostAlive = true) (hsave : s.rpc.save = none) :
    s.cmd code (atTc seq port w1 w2 w3) eff = (taken s seq).runRecord seq code eff := by
  unfold State.cmd
  rw [if_neg (by rw [halive]; decide)]
  exact if_neg (by rw [hsave]; decide)

theorem cmd_saving {code : Byte} {eff : State → CmdRes State} {seq : BitVec 16} {port : CmdPort} {w1 w2 w3 : Word}
    (halive : s.hostAlive = true) (hsave : s.rpc.save ≠ none) : s.cmd code (atTc seq port w1 w2 w3) eff = s := by
  unfold State.cmd
  rw [if_neg (by rw [halive]; decide)]
  exact if_pos (Option.isSome_iff_ne_none.2 hsave)

theorem cmd_barred {code : Byte} {eff : State → CmdRes State} {seq : BitVec 16} {port : CmdPort} {w1 w2 w3 : Word} {st : Nat}
    (halive : s.hostAlive = true) (hsave : s.rpc.save = none) (hgate : s.gate code.toNat = some st) :
    s.cmd code (atTc seq port w1 w2 w3) eff = (taken s seq).complete seq code.toNat st (s.tm.cyc % 2 ^ 32) := by
  have hgate' : (taken s seq).gate code.toNat = some st := hgate
  rw [cmd_apply halive hsave, State.runRecord]
  rw [hgate']
  rfl

theorem cmd_effect {code : Byte} {eff : State → CmdRes State} {seq : BitVec 16} {port : CmdPort} {w1 w2 w3 : Word}
    (hready : ready s code.toNat) (heff : eff (taken s seq) = .ok u) :
    s.cmd code (atTc seq port w1 w2 w3) eff = u.complete seq code.toNat 0 (s.tm.cyc % 2 ^ 32) := by
  obtain ⟨halive, hsave, hgate⟩ := hready
  have hgate' : (taken s seq).gate code.toNat = none := hgate
  rw [cmd_apply halive hsave, State.runRecord]
  rw [hgate', heff]
  rfl

theorem cyc_word_lt (s : State) : s.tm.cyc % 2 ^ 32 < 2 ^ 32 := Nat.mod_lt _ (by decide)

/-- A row of the lane whose effect applies leaves what the effect leaves. -/
theorem takesEffect_of {mk : CmdRec → Instr} {code : Byte} {w1 w2 w3 : Word} {P : State → State → Prop} (eff : CmdRec → State → CmdRes State)
    (hexec : ∀ r, exec (mk r) s = .next (s.cmd code r (eff r)))
    (heff : ∀ seq port, ready s code.toNat → ∃ u, eff (atTc seq port w1 w2 w3) (taken s seq) = .ok u ∧ P (taken s seq) u) :
    takesEffect mk code.toNat s w1 w2 w3 P := by
  intro seq port hready
  obtain ⟨u, hu, hP⟩ := heff seq port hready
  refine ⟨u, u.complete seq code.toNat 0 (s.tm.cyc % 2 ^ 32), ?_, hP, (complete_posted u seq code.isLt (by decide) (cyc_word_lt s)).1⟩
  rw [hexec, cmd_effect hready hu]

end Sys2Proof.Claims
end

section
/-! The command lane: O20, O21 and O22. -/

namespace Sys2Proof.Claims

open Sys2Proof Sys2Proof.Machine

variable {s t u : State}

/-! ### The commands of the tables -/

theorem forall_commands (P : Nat × (CmdRec → Instr) → Prop) : (∀ cmd ∈ commands, P cmd) ↔
    (∀ cmd ∈ commands1, P cmd) ∧ (∀ cmd ∈ commands2, P cmd) ∧ (∀ cmd ∈ commands3, P cmd) ∧ (∀ cmd ∈ commands4, P cmd) ∧
    (∀ cmd ∈ commands5, P cmd) ∧ (∀ cmd ∈ commands6, P cmd) ∧ (∀ cmd ∈ commands7, P cmd) ∧ (∀ cmd ∈ commands8, P cmd) := by
  simp only [commands, List.flatten_cons, List.flatten_nil, List.append_nil, List.forall_mem_append]

theorem commands_code {cmd : Nat × (CmdRec → Instr)} (h : cmd ∈ commands) :
    codeDefined cmd.1 = true ∧ (BitVec.ofNat 8 cmd.1).toNat = cmd.1 ∧ (cmd.1 ≠ 1 → (roleOf cmd.1).isSome = true) := by
  have hall : ∀ c ∈ commands.map (·.1), codeDefined c = true ∧ (BitVec.ofNat 8 c).toNat = c ∧ (c ≠ 1 → (roleOf c).isSome = true) := by decide
  exact hall cmd.1 (List.mem_map_of_mem h)

/-- What the row of a command is: the two resets, or a submission with an effect of its own. -/
def isRow (cmd : Nat × (CmdRec → Instr)) : Prop := cmd = (2, Instr.modReset) ∨ cmd = (3, Instr.warmReset) ∨
  ((cmd.1 ≠ 2 ∧ cmd.1 ≠ 3) ∧ ∃ eff : CmdRec → State → CmdRes State, ∀ r s,
    exec (cmd.2 r) s = .next (s.cmd (BitVec.ofNat 8 cmd.1) r (eff r)))

theorem isRow_of {code : Nat} {mk : CmdRec → Instr} (hne : code ≠ 2 ∧ code ≠ 3) (eff : CmdRec → State → CmdRes State)
    (h : ∀ r s, exec (mk r) s = .next (s.cmd (BitVec.ofNat 8 code) r (eff r))) : isRow (code, mk) := Or.inr (Or.inr ⟨hne, eff, h⟩)

theorem commands_row : ∀ cmd ∈ commands, isRow cmd := by
  have h2 : isRow (2, Instr.modReset) := Or.inl rfl
  have h3 : isRow (3, Instr.warmReset) := Or.inr (Or.inl rfl)
  simp only [forall_commands, commands1, commands2, commands3, commands4, commands5, commands6, commands7, commands8,
    List.forall_mem_cons, List.not_mem_nil, false_imp_iff, implies_true, and_true, h2, h3, true_and]
  and_intros
  all_goals exact isRow_of ⟨by decide, by decide⟩ _ fun _ _ => rfl

theorem exec_arrive {cmd : Nat × (CmdRec → Instr)} (hcmd : cmd ∈ commands) {seq : BitVec 16} {ch : Nat} {psn : Bool} {port : CmdPort}
    {w1 w2 w3 : Word} (halive : s.hostAlive = true) (hport : s.portServed port = true) :
    exec (cmd.2 (arriving seq ch psn port w1 w2 w3)) s = .next (s.submit seq (BitVec.ofNat 8 cmd.1) port w1 w2 w3 ch psn) := by
  rcases commands_row cmd hcmd with rfl | rfl | ⟨-, eff, h⟩
  · change Host.Outcome.next (s.cmd 2 (arriving seq ch psn port w1 w2 w3) fun s => .ok s) = _
    rw [cmd_arrive halive hport]
    rfl
  · change Host.Outcome.next (s.cmd 3 (arriving seq ch psn port w1 w2 w3) applyWarmReset) = _
    rw [cmd_arrive halive hport]
    rfl
  · rw [h, cmd_arrive halive hport]

/-- Settles O20: each command's row is `State.submit` of its code, whose cases are those of R402 to R405. -/
theorem commandsAreSubmitted : Obligations.CommandsAreSubmitted := by
  intro cmd hcmd s seq port w1 w2 w3 ch halive hport r n
  obtain ⟨hdef, hcode, -⟩ := commands_code hcmd
  have hexec (psn : Bool) : exec (r psn) s = .next (s.submit seq (BitVec.ofNat 8 cmd.1) port w1 w2 w3 ch psn) :=
    exec_arrive hcmd halive hport
  rw [← hcode] at hdef
  refine ⟨fun hseq => ⟨_, hexec false, submit_wrongSeq hseq⟩, fun hseq hroom => ⟨_, hexec false, ?_⟩, fun hseq hfull => ⟨_, hexec false, ?_⟩,
    fun hseq => ⟨_, hexec true, ?_⟩⟩
  · obtain ⟨hnext, hslot, hrest⟩ := submit_queued (port := port) (w1 := w1) (w2 := w2) (w3 := w3) (ch := ch) hseq hdef hroom
    rw [hcode] at hslot
    exact ⟨hnext, hslot, hrest⟩
  · obtain ⟨hword, hqueue, hmd, hchs, -⟩ := accepted_complete (port := port) hseq (BitVec.ofNat 8 cmd.1).isLt (st := 4) (by decide)
    rw [submit_full hseq hdef hfull]
    rw [hcode] at *
    exact ⟨hword, hqueue, hmd, hchs⟩
  · obtain ⟨hword, hqueue, hmd, hchs, -⟩ := accepted_complete (port := port) hseq (BitVec.ofNat 8 cmd.1).isLt (st := 3) (by decide)
    rw [submit_poisoned hseq]
    rw [hcode] at *
    exact ⟨hword, hqueue, hmd, hchs⟩

/-! ### A command that is barred (R407, R408, R489, R500) -/

theorem exec_barred {cmd : Nat × (CmdRec → Instr)} (hcmd : cmd ∈ commands) {seq : BitVec 16} {port : CmdPort} {w1 w2 w3 : Word} {st : Nat}
    (halive : s.hostAlive = true) (hsave : s.rpc.save = none) (hgate : s.gate cmd.1 = some st) :
    exec (cmd.2 (atTc seq port w1 w2 w3)) s = .next ((taken s seq).complete seq cmd.1 st (s.tm.cyc % 2 ^ 32)) := by
  rcases commands_row cmd hcmd with rfl | rfl | ⟨-, eff, h⟩
  · change Host.Outcome.next (if !s.hostAlive then s else if s.rpc.save.isSome then _ else s.modResetApply seq) = _
    rw [if_neg (by rw [halive]; decide), if_neg (by rw [hsave]; decide), State.modResetApply, hgate]
    rfl
  · change Host.Outcome.next (if s.hostAlive && s.rpc.save.isSome then _ else s.cmd 3 (atTc seq port w1 w2 w3) applyWarmReset) = _
    rw [if_neg (by rw [halive, hsave]; decide), cmd_barred (code := 3) halive hsave hgate]
    rfl
  · have hcode := (commands_code hcmd).2.1
    rw [h, cmd_barred halive hsave (hcode.symm ▸ hgate), hcode]

theorem exec_saving {cmd : Nat × (CmdRec → Instr)} (hcmd : cmd ∈ commands) {seq : BitVec 16} {port : CmdPort} {w1 w2 w3 : Word}
    (halive : s.hostAlive = true) (hsave : s.rpc.save ≠ none) (hmod : cmd.1 ≠ 2) (hwarm : cmd.1 ≠ 3) :
    exec (cmd.2 (atTc seq port w1 w2 w3)) s = .next s := by
  rcases commands_row cmd hcmd with rfl | rfl | ⟨-, eff, h⟩
  · exact absurd rfl hmod
  · exact absurd rfl hwarm
  · rw [h, cmd_saving halive hsave]

theorem gate_boot (code : Nat) (hmode : s.md.mode = .boot) : s.gate code = some 1 := by
  unfold State.gate
  exact if_pos (by simp [hmode])

theorem gate_lt {code st : Nat} (h : s.gate code = some st) : st < 128 := by
  unfold State.gate at h
  split_ifs at h
  · cases h
    decide
  · cases h
    decide
  · split at h
    · cases h
    · split_ifs at h
      cases h
      decide

theorem gate_roleless {code : Nat} (hcode : (roleOf code).isSome = true) (hroles : s.roles = 0) :
    s.gate code = some 1 ∨ s.gate code = some 5 := by
  obtain ⟨r, hr⟩ := Option.isSome_iff_exists.1 hcode
  have hbit : natBit s.roles r = false := by
    rw [hroles]
    exact Nat.zero_testBit r
  unfold State.gate
  split_ifs
  · exact Or.inl rfl
  · exact Or.inl rfl
  · rw [hr]
    exact Or.inr (if_neg (by rw [hbit]; decide))

/-- Settles O21: a barred record completes in place of its effect (`cmd_barred`), and a save lets none apply (`cmd_saving`). -/
theorem barredCommandsHaveNoEffect : Obligations.BarredCommandsHaveNoEffect := by
  intro cmd hcmd s seq port w1 w2 w3 halive
  obtain ⟨hdef, hcode, hrole⟩ := commands_code hcmd
  have hlt : cmd.1 < 256 := hcode ▸ (BitVec.ofNat 8 cmd.1).isLt
  exact ⟨fun st hsave hgate => ⟨_, exec_barred hcmd halive hsave hgate,
      (complete_posted (taken s seq) seq hlt (gate_lt hgate) (cyc_word_lt s)).1⟩,
    fun hsave hmod hwarm => exec_saving hcmd halive hsave hmod hwarm, gate_boot cmd.1,
    fun hne hroles => gate_roleless (hrole hne) hroles⟩

/-! ### Records and results (R402, R408, R410) -/

theorem recLatch_claim (s : State) (i : Fin 3) (w : Word) (p : Bool) (hup : s.hostUp = true) :
    ∃ t, exec (.cmdRecLatch i w p) s = .next t ∧ t.lane.latch.getD i.val 0 = w ∧
      (∀ j, j < 3 → j ≠ i.val → t.lane.latch.getD j 0 = s.lane.latch.getD j 0) ∧ t.lane.latchPsn = (s.lane.latchPsn || p) ∧
      t = { s with lane := { s.lane with latch := t.lane.latch, latchPsn := t.lane.latchPsn } } := by
  let l := [0, 1, 2].map fun j => if j = i.val then w else s.lane.latch.getD j 0
  have hget (j : Nat) (hj : j < 3) : l.getD j 0 = if j = i.val then w else s.lane.latch.getD j 0 := by
    interval_cases j <;> rfl
  refine ⟨{ s with lane := { s.lane with latch := l, latchPsn := s.lane.latchPsn || p } }, ?_, ?_, fun j hj hne => ?_, rfl, rfl⟩
  · change execCmdRecLatch i w p s = _
    rw [execCmdRecLatch, if_pos hup]
    rfl
  · exact (hget i.val i.isLt).trans (if_pos rfl)
  · exact (hget j hj).trans (if_neg hne)

theorem unknownCommand_claim (s : State) (code : Byte) (port : CmdPort) (w1 w2 w3 : Word) (ch : Nat) (seq : BitVec 16)
    (hport : s.portServed port = true) (hcode : codeDefined code.toNat = false) (hseq : seq.toNat = s.rd Reg.CMD_NEXT_SEQ_NEXT) :
    ∃ t, exec (.unknownCommand code (arriving seq ch false port w1 w2 w3)) s = .next t ∧
      t.rd (Reg.CMD_RESULT0_WORD0 (seq.toNat % 64)) = result0 seq code.toNat 6 true ∧ t.lane.queue = s.lane.queue ∧
      t.rd Reg.CMD_NEXT_SEQ_NEXT = (seq.toNat + 1) % 65536 := by
  obtain ⟨hword, hqueue, -, -, hnext⟩ := accepted_complete (port := port) hseq code.isLt (st := 6) (by decide)
  refine ⟨_, ?_, hword, hqueue, hnext⟩
  change Host.Outcome.next (if s.portServed port && !codeDefined code.toNat then s.submit seq code port w1 w2 w3 ch false else s) = _
  rw [if_pos (by rw [hport, hcode]; rfl), submit_unknown hseq hcode]

/-- The oldest result has left the FIFO. -/
theorem popFifo_claim (s : State) :
    s.popFifo.lane = { s.lane with fifo := s.lane.fifo.drop 1 } ∧
    s.popFifo.rd Reg.CMD_RES_HEAD0_WORD0 = ((s.lane.fifo.drop 1).headD (0, 0)).1.toNat ∧
    s.popFifo.rd Reg.CMD_RES_HEAD1_WORD1 = ((s.lane.fifo.drop 1).headD (0, 0)).2.toNat ∧
    keepsRegs s s.popFifo [Reg.CMD_RES_HEAD0_WORD0, Reg.CMD_RES_HEAD1_WORD1, Reg.CMD_LANE_WAITING] ∧
    s.popFifo = { s with regs := s.popFifo.regs, lane := s.popFifo.lane } := by
  let u := s.modLaneQ fun q => { q with fifo := q.fifo.drop 1 }
  let h := u.lane.fifo.headD (0, 0)
  let n := (u.lane.queue.filter fun e => match e with
    | .record .. => true
    | .write .. => false).length
  let l := [(Reg.CMD_RES_HEAD0_WORD0, h.1.toNat), (Reg.CMD_RES_HEAD1_WORD1, h.2.toNat)]
  have hpop : s.popFifo = (writes l u).wr Reg.CMD_LANE_WAITING n := by rfl
  have hl : separate l := by
    refine ⟨?_, ?_⟩
    · simp only [l, List.forall_mem_cons]
      exact ⟨h.1.isLt, h.2.isLt, fun _ h => absurd h List.not_mem_nil⟩
    · have hne : Reg.CMD_RES_HEAD0_WORD0.key ≠ Reg.CMD_RES_HEAD1_WORD1.key := by decide
      simp [l, hne]
  have hw := regsTo_writes hl u
  rw [hpop]
  refine ⟨rfl, ?_, ?_, ?_, rfl⟩
  · rw [State.rd_wr_ne _ Reg.CMD_LANE_WAITING Reg.CMD_RES_HEAD0_WORD0 _ (by decide)]
    exact hw.1 _ List.mem_cons_self
  · rw [State.rd_wr_ne _ Reg.CMD_LANE_WAITING Reg.CMD_RES_HEAD1_WORD1 _ (by decide)]
    exact hw.1 _ (List.mem_cons_of_mem _ List.mem_cons_self)
  · have hkeep : keepsRegs u (writes l u) [Reg.CMD_RES_HEAD0_WORD0, Reg.CMD_RES_HEAD1_WORD1] := keepsRegs_of_regsTo hw
    exact (hkeep.mono (by decide)).wr (by decide) n

theorem commit_claim (s : State) (hup : s.hostUp = true) :
    (∀ w : Word, w.getLsbD 0 = true → exec (.cmdResCommit w) s = .next s.popFifo) ∧
    exec .cmdResLegacy s = .next (s.popFifo.diag 1 Src.hbr 0 0x00200024) ∧
    exec .hbrIntLegacy s = .next ((s.wr Reg.HBR_INT_STATUS_INT 0).diag 1 Src.hbr 0 0x00100018) := by
  refine ⟨fun w hw => ?_, ?_, ?_⟩
  · change execCmdResCommit w s = _
    rw [execCmdResCommit, if_pos (by rw [hup, hw]; rfl)]
  · change execCmdResLegacy s = _
    rw [execCmdResLegacy, if_pos hup]
    rfl
  · change execHbrIntLegacy s = _
    rw [execHbrIntLegacy, if_pos hup]
    rfl

/-- Settles O22: a record is latched or submitted, and a result leaves the FIFO (`popFifo_claim`). -/
theorem recordsAndResults : Obligations.RecordsAndResults := by
  intro s
  refine ⟨fun i w p hup => recLatch_claim s i w p hup,
    fun code port w1 w2 w3 ch seq hport hcode hseq => unknownCommand_claim s code port w1 w2 w3 ch seq hport hcode hseq,
    fun w1 w2 w3 => takesEffect_of (code := 1) (fun _ => applyNop) (fun _ => rfl) fun seq port _ => ⟨_, rfl, rfl⟩, fun hup => ?_⟩
  obtain ⟨hcommit, hlegacy, hint⟩ := commit_claim s hup
  obtain ⟨hlane, hhead0, hhead1, hkeep, hframe⟩ := popFifo_claim s
  refine ⟨fun w hw => ⟨_, hcommit w hw, hlane, hhead0, hhead1, hkeep, hframe⟩, ⟨_, hlegacy, ?_, ?_, ?_⟩, ⟨_, hint, ?_, ?_, ?_⟩⟩
  · rw [diag_frame]
    exact hlane
  · exact (hkeep.mono fun f hf => List.mem_append_left _ hf).trans ((keepsRegs_diag _ _ _ _ _ _).mono fun f hf => List.mem_append_right _ hf)
  · rw [diag_frame, hframe]
  · rw [keepsRegs_diag _ _ _ _ _ _ Reg.HBR_INT_STATUS_INT (by decide)]
    exact State.rd_wr_of_lt s (f := Reg.HBR_INT_STATUS_INT) (v := 0) (by decide)
  · exact (keepsRegs_wr s List.mem_cons_self 0).trans ((keepsRegs_diag _ _ _ _ _ _).mono fun f hf => List.mem_cons_of_mem _ hf)
  · rw [diag_frame]
    rfl

end Sys2Proof.Claims
end

section
/-! Register reads and writes from either port: O23. -/

namespace Sys2Proof.Claims

open Sys2Proof Sys2Proof.Machine

variable {s t u : State}

/-! ### Refused accesses (R395, R396, R398, R556) -/

/-- The registers of a refused access. -/
def errFlds : List Fld := [Reg.HBR_ACC_ERR_COUNT, Reg.HBR_ACC_ERR_KIND, Reg.HBR_ACC_ERR_POISON, Reg.HBR_ACC_ADDR_OFFSET]

theorem accErr_frame (s : State) (kind : Nat) (poison : Bool) (off : Nat) :
    s.accErr kind poison off = { s with regs := (s.accErr kind poison off).regs } := by rfl

theorem keepsRegs_accErr (s : State) (kind : Nat) (poison : Bool) (off : Nat) : keepsRegs s (s.accErr kind poison off) errFlds :=
  ((((keepsRegs_refl s errFlds).inc (by decide)).wr (by decide) kind).wrb (by decide) poison).wr (by decide) off

/-- The error registers name the access. -/
theorem accErr_names (s : State) {kind off : Nat} (hkind : kind < 4) (poison : Bool) (hoff : off < 2 ^ 32) :
    (s.accErr kind poison off).rd Reg.HBR_ACC_ERR_COUNT = up s Reg.HBR_ACC_ERR_COUNT ∧ (s.accErr kind poison off).rd Reg.HBR_ACC_ERR_KIND = kind ∧
      (s.accErr kind poison off).rd Reg.HBR_ACC_ERR_POISON = bitNat poison ∧ (s.accErr kind poison off).rd Reg.HBR_ACC_ADDR_OFFSET = off := by
  let a := s.inc Reg.HBR_ACC_ERR_COUNT
  let b := a.wr Reg.HBR_ACC_ERR_KIND kind
  let c := b.wr Reg.HBR_ACC_ERR_POISON (bitNat poison)
  have ht : s.accErr kind poison off = c.wr Reg.HBR_ACC_ADDR_OFFSET off := by rfl
  have hb : bitNat poison < 2 ^ Reg.HBR_ACC_ERR_POISON.width := by cases poison <;> decide
  rw [ht]
  refine ⟨?_, ?_, ?_, State.rd_wr_of_lt c (f := Reg.HBR_ACC_ADDR_OFFSET) hoff⟩
  · rw [State.rd_wr_ne c Reg.HBR_ACC_ADDR_OFFSET Reg.HBR_ACC_ERR_COUNT off (by decide),
      State.rd_wr_ne b Reg.HBR_ACC_ERR_POISON Reg.HBR_ACC_ERR_COUNT _ (by decide),
      State.rd_wr_ne a Reg.HBR_ACC_ERR_KIND Reg.HBR_ACC_ERR_COUNT kind (by decide)]
    exact rd_inc_up s Reg.HBR_ACC_ERR_COUNT
  · rw [State.rd_wr_ne c Reg.HBR_ACC_ADDR_OFFSET Reg.HBR_ACC_ERR_KIND off (by decide),
      State.rd_wr_ne b Reg.HBR_ACC_ERR_POISON Reg.HBR_ACC_ERR_KIND _ (by decide)]
    exact State.rd_wr_of_lt a (f := Reg.HBR_ACC_ERR_KIND) hkind
  · rw [State.rd_wr_ne c Reg.HBR_ACC_ADDR_OFFSET Reg.HBR_ACC_ERR_POISON off (by decide)]
    exact State.rd_wr_of_lt b (f := Reg.HBR_ACC_ERR_POISON) hb

/-- A refused access of BAR 0: counted, logged, and its cause pending. -/
structure Refused0 (s t : State) (kind off : Nat) (poison : Bool) : Prop where
  count : t.rd Reg.HBR_ACC_ERR_COUNT = up s Reg.HBR_ACC_ERR_COUNT
  kind : t.rd Reg.HBR_ACC_ERR_KIND = kind
  poison : t.rd Reg.HBR_ACC_ERR_POISON = bitNat poison
  offset : t.rd Reg.HBR_ACC_ADDR_OFFSET = off
  cause : natBit (t.rd Reg.HBR_INT_STATUS_INT) 4 = true
  regs : keepsRegs s t (errFlds ++ Reg.HBR_INT_STATUS_INT :: logFlds)
  frame : t = { s with regs := t.regs, rcd := t.rcd, hbr := { s.hbr with msix := t.hbr.msix, pba := t.hbr.pba } }

theorem accErr0_refused (s : State) {kind off : Nat} (hkind : kind < 4) (poison : Bool) (hoff : off < 2 ^ 32) :
    Refused0 s (s.accErr0 kind poison off) kind off poison := by
  let a := s.accErr kind poison off
  let b := a.diag 3 Src.hbr 0 0x100008 [off]
  let t := s.accErr0 kind poison off
  have ht : t = b.raiseInt 4 := rfl
  obtain ⟨hcount, hk, hp, ho⟩ := accErr_names s hkind poison hoff
  have hkeep : keepsRegs a t (Reg.HBR_INT_STATUS_INT :: logFlds) :=
    ((keepsRegs_diag a _ _ _ _ _).mono fun f hf => List.mem_cons_of_mem _ hf).trans
      ((keepsRegs_raiseInt b 4).mono fun f hf => List.mem_singleton.1 hf ▸ List.mem_cons_self)
  have hb : b = { a with regs := b.regs, rcd := b.rcd } := diag_frame a 3 Src.hbr 0 0x100008 [off]
  have hr : t = { b with regs := t.regs, hbr := { b.hbr with msix := t.hbr.msix, pba := t.hbr.pba } } := raiseInt_frame b 4
  have hrcd : t.rcd = b.rcd := by
    rw [hr]
  refine ⟨?_, ?_, ?_, ?_, raiseInt_bit b (by decide), ?_, ?_⟩
  · exact (hkeep Reg.HBR_ACC_ERR_COUNT (by decide)).trans hcount
  · exact (hkeep Reg.HBR_ACC_ERR_KIND (by decide)).trans hk
  · exact (hkeep Reg.HBR_ACC_ERR_POISON (by decide)).trans hp
  · exact (hkeep Reg.HBR_ACC_ADDR_OFFSET (by decide)).trans ho
  · exact ((keepsRegs_accErr s kind poison off).mono fun f hf => List.mem_append_left _ hf).trans
      (hkeep.mono fun f hf => List.mem_append_right _ hf)
  · change t = { s with regs := t.regs, rcd := t.rcd, hbr := { s.hbr with msix := t.hbr.msix, pba := t.hbr.pba } }
    rw [hrcd]
    exact hr.trans (by rw [hb]; rfl)

/-- A change of what the bridge shows outside its registers keeps the naming of the access. -/
theorem Refused0.logged {kind off : Nat} {poison : Bool} (h : Refused0 s t kind off poison) {f : HbrSt → HbrSt} (u : State)
    (hu : u = t.modHbr f) (hf : f t.hbr = { t.hbr with aer := (f t.hbr).aer, cpl := (f t.hbr).cpl }) :
    (u.rd Reg.HBR_ACC_ERR_COUNT = up s Reg.HBR_ACC_ERR_COUNT ∧ u.rd Reg.HBR_ACC_ERR_KIND = kind ∧ u.rd Reg.HBR_ACC_ERR_POISON = bitNat poison ∧
      u.rd Reg.HBR_ACC_ADDR_OFFSET = off) ∧
    natBit (u.rd Reg.HBR_INT_STATUS_INT) 4 = true ∧ keepsRegs s u (errFlds ++ Reg.HBR_INT_STATUS_INT :: logFlds) ∧
    u = { s with regs := u.regs, rcd := u.rcd,
                 hbr := { s.hbr with msix := u.hbr.msix, pba := u.hbr.pba, aer := u.hbr.aer, cpl := u.hbr.cpl } } := by
  subst hu
  refine ⟨⟨h.count, h.kind, h.poison, h.offset⟩, h.cause, h.regs.of_regs rfl, ?_⟩
  change { t with hbr := f t.hbr } = { s with regs := t.regs, rcd := t.rcd, hbr := { s.hbr with
    msix := (f t.hbr).msix, pba := (f t.hbr).pba, aer := (f t.hbr).aer, cpl := (f t.hbr).cpl } }
  generalize (f t.hbr).aer = a at *
  generalize (f t.hbr).cpl = c at *
  rw [hf, h.frame]

theorem Refused0.hbr {kind off : Nat} {poison : Bool} (h : Refused0 s t kind off poison) : t.hbr.aer = s.hbr.aer ∧ t.hbr.cpl = s.hbr.cpl := by
  rw [h.frame]
  exact ⟨rfl, rfl⟩

theorem refusedAccessesAreCounted_holds : refusedAccessesAreCounted := by
  intro off s hoff hup errs counted aer logged
  refine ⟨fun wr => ?_, fun hnone => ⟨?_, ?_⟩, fun hout => ?_, ?_⟩
  · have h := accErr0_refused s (kind := 1) (by decide) false hoff
    obtain ⟨haer, hcpl⟩ := h.hbr
    cases wr with
    | true =>
      obtain ⟨hc, hl⟩ := h.logged ((s.accErr0 1 false off).aer 0) rfl rfl
      refine ⟨_, ?_, hc, hl, ?_, hcpl⟩
      · change execBar0RefusedAccess off true s = _
        rw [execBar0RefusedAccess, if_pos hup]
        rfl
      · change FMap.set 0 (s.accErr0 1 false off).hbr.aer 0 (FMap.get 0 (s.accErr0 1 false off).hbr.aer 0 + 1) = _
        rw [haer]
    | false =>
      obtain ⟨hc, hl⟩ := h.logged ((s.accErr0 1 false off).completion ⟨off, 0, false, true⟩) rfl rfl
      refine ⟨_, ?_, hc, hl, haer, rfl⟩
      change execBar0RefusedAccess off false s = _
      rw [execBar0RefusedAccess, if_pos hup]
      rfl
  · have h := accErr0_refused s (kind := 3) (by decide) false hoff
    obtain ⟨hc, hl⟩ := h.logged (f := id) (s.accErr0 3 false off) rfl rfl
    refine ⟨_, ?_, hc, hl, h.hbr.2⟩
    change execUnassignedAccess off true s = _
    rw [execUnassignedAccess, if_pos (by rw [hup, hnone]; rfl)]
    rfl
  · change execUnassignedAccess off false s = _
    rw [execUnassignedAccess, if_pos (by rw [hup, hnone]; rfl)]
    rfl
  · have h := accErr0_refused s (kind := 0) (by decide) true hoff
    obtain ⟨haer, hcpl⟩ := h.hbr
    obtain ⟨hc, hl⟩ := h.logged ((s.accErr0 0 true off).aer 1) rfl rfl
    refine ⟨_, ?_, hc, hl, ?_, hcpl⟩
    · change execPoisonedWrite off s = _
      rw [execPoisonedWrite, if_pos (by simp [hup]; omega)]
    · change FMap.set 0 (s.accErr0 0 true off).hbr.aer 1 (FMap.get 0 (s.accErr0 0 true off).hbr.aer 1 + 1) = _
      rw [haer]
  · refine ⟨(s.accErr 2 false off).aer 0, ?_, accErr_names s (by decide) false hoff, (keepsRegs_accErr s 2 false off).of_regs rfl, rfl⟩
    change execBar2Write off s = _
    rw [execBar2Write, if_pos hup]

/-! ### Reads and writes of registers (R397, R406) -/

/-- The blocks whose writes enter the lane lie above the bridge's own. -/
theorem laneBlock_above {off : Nat} (h : laneBlock off = true) : 0x300000 ≤ off := by
  simp only [laneBlock, Bool.or_eq_true, Bool.and_eq_true, decide_eq_true_eq] at h
  omega

theorem bar0Write_lane (s : State) (port : CmdPort) {off : Nat} (w : Word) (ch : Nat) {fs : List Fld} (hfs : Reg.fieldsAt off = some fs)
    (hblock : laneBlock off = true) (halign : off % 4 = 0) (hwr : (fs.any fun f => Acc.writable f.acc) = true) :
    s.bar0Write port off w ch =
      { s with lane := { s.lane with queue := s.lane.queue ++ [.write (if ch + 10000 < s.tbc then 1 else 2) off w] } } := by
  have habove := laneBlock_above hblock
  unfold State.bar0Write
  rw [if_neg (by omega), if_neg (by simp; omega), if_neg (by simp; omega), hfs]
  dsimp only
  rw [if_pos hblock, if_pos hwr]
  rfl

theorem fieldsAt_intStatus : Reg.fieldsAt Reg.HBR_INT_STATUS_INT.off = some [Reg.HBR_INT_STATUS_INT] := by decide +kernel

theorem fieldsAt_nextSeq : Reg.fieldsAt Reg.CMD_NEXT_SEQ_NEXT.off = some [Reg.CMD_NEXT_SEQ_NEXT] := by decide +kernel

/-- A write of the interrupt causes clears those written with 1. -/
theorem bar0Write_intStatus (s : State) (w : Word) (ch : Nat) : s.bar0Write .host Reg.HBR_INT_STATUS_INT.off w ch =
    s.wr Reg.HBR_INT_STATUS_INT (s.rd Reg.HBR_INT_STATUS_INT &&& (63 - w.toNat % 64)) := by
  have hdirect : s.directWrite .host Reg.HBR_INT_STATUS_INT.off w ch = s.writeReg Reg.HBR_INT_STATUS_INT.off w := by
    unfold State.directWrite
    iterate 9 rw [if_neg (by decide)]
    rw [if_neg (by simp [Reg.HBR_INT_STATUS_INT])]
  unfold State.bar0Write
  rw [if_neg (by decide), if_neg (by decide), if_neg (by decide), fieldsAt_intStatus]
  dsimp only
  rw [if_neg (by decide), hdirect]
  unfold State.writeReg
  rw [fieldsAt_intStatus]
  dsimp only
  rw [if_pos (by decide), if_neg (by simp [flipReg, Reg.HBR_INT_STATUS_INT]), if_neg (by simp [adjReg, Reg.HBR_INT_STATUS_INT])]
  change s.wr Reg.HBR_INT_STATUS_INT (s.rd Reg.HBR_INT_STATUS_INT &&& (2 ^ 6 - 1 - w.toNat / 2 ^ 0 % 2 ^ 6)) = _
  rw [Nat.pow_zero, Nat.div_one]
  rfl

theorem readBar0_nextSeq (s : State) : s.readBar0 Reg.CMD_NEXT_SEQ_NEXT.off = (s.storedWord Reg.CMD_NEXT_SEQ_NEXT.off, s) := by
  have hlive : s.liveWord Reg.CMD_NEXT_SEQ_NEXT.off = s.storedWord Reg.CMD_NEXT_SEQ_NEXT.off := by
    have hnone : s.computed Reg.CMD_NEXT_SEQ_NEXT.off = none := by
      unfold State.computed
      simp [Reg.CMD_NEXT_SEQ_NEXT]
    rw [State.liveWord, hnone]
    rfl
  unfold State.readBar0
  rw [if_neg (by decide), if_neg (by decide), fieldsAt_nextSeq]
  dsimp only
  rw [if_neg (by decide), if_neg (by decide), if_neg (by decide), if_neg (by decide), hlive]

/-- A read of a map without the entries at other keys. -/
theorem FMap.get_filter {β : Type} (d : β) (m : FMap β) (p : Nat → Bool) {k : Nat} (hk : p k = true) :
    FMap.get d (m.filter fun e => p e.1) k = FMap.get d m k := by
  induction m with
  | nil => rfl
  | cons e m ih =>
    obtain ⟨j, v⟩ := e
    by_cases hj : p j = true
    · rw [List.filter_cons_of_pos (p := fun e : Nat × β => p e.1) hj]
      change (if j = k then v else _) = if j = k then v else _
      rw [ih]
    · have hne : j ≠ k := fun h => hj (h ▸ hk)
      rw [List.filter_cons_of_neg (p := fun e : Nat × β => p e.1) hj, ih]
      exact (if_neg hne).symm

/-- Entries put at other keys leave a read alone. -/
theorem FMap.get_foldl_put {α β : Type} (d : β) (l : List α) (key : α → Nat) (v : α → β) (m : FMap β) {k : Nat} (h : ∀ x ∈ l, key x ≠ k) :
    FMap.get d (l.foldl (fun m x => FMap.put m (key x) (v x)) m) k = FMap.get d m k := by
  induction l generalizing m with
  | nil => rfl
  | cons x l ih =>
    rw [List.foldl_cons, ih _ fun y hy => h y (List.mem_cons_of_mem x hy), FMap.get_put, if_neg (h x List.mem_cons_self).symm]

theorem refresh_claim (s : State) (halive : s.hostAlive = true) :
    ∃ t, exec .bridgeRefresh s = .next t ∧ t.copyWord 0x40 = s.modStatus ∧
      (∀ f : Fld, copied f.off = true → f.lsb < 32 → FMap.get f.rst t.hbr.copyRegs f.key = s.rd f) ∧
      t = { s with hbr := { s.hbr with copyRegs := t.hbr.copyRegs, copyWords := t.hbr.copyWords } } := by
  let w1 := copiedComputed.foldl (fun m off => FMap.put m off (s.liveWord off)) []
  let w2 := s.ptn.sched.foldl (fun m (e : Nat × Word) => FMap.put m (0x780000 + 4 * e.1) e.2.toNat) w1
  let w3 := s.ptn.nextSched.foldl (fun m (e : Nat × Word) => FMap.put m (0x7C0000 + 4 * e.1) e.2.toNat) w2
  let t := s.modHbr fun x => { x with copyRegs := s.regs.filter fun (e : Nat × Nat) => copied (e.1 / 32), copyWords := w3 }
  refine ⟨t, ?_, ?_, fun f hf hlsb => ?_, rfl⟩
  · change execBridgeRefresh s = _
    rw [execBridgeRefresh, if_pos halive]
  · have hlive : s.liveWord 0x40 = s.modStatus := by rfl
    have h1 : FMap.get (resetWord 0x40) w1 0x40 = s.modStatus := by
      rw [← hlive]
      simp [w1, copiedComputed, FMap.get_put]
    have h3 : FMap.get (resetWord 0x40) w3 0x40 = s.modStatus :=
      (FMap.get_foldl_put _ _ (fun e : Nat × Word => 0x7C0000 + 4 * e.1) _ w2 fun e _ => by omega).trans
        ((FMap.get_foldl_put _ _ (fun e : Nat × Word => 0x780000 + 4 * e.1) _ w1 fun e _ => by omega).trans h1)
    unfold State.copyWord
    rw [if_pos (by decide)]
    exact h3
  · refine FMap.get_filter f.rst s.regs (fun k => copied (k / 32)) ?_
    have hkey : f.key / 32 = f.off := by
      rw [Fld.key]
      omega
    rw [hkey, hf]

theorem registerAccesses_holds : registerAccesses := by
  intro off w ch s
  refine ⟨fun fs hfs hblock halign hwr => ⟨fun hup => ?_, fun hup => ?_⟩, fun hup => ?_, fun hup => ?_, refresh_claim s⟩
  · change execRegisterWrite off w ch s = _
    rw [execRegisterWrite, if_pos hup, bar0Write_lane s .host w ch hfs hblock halign hwr]
  · change execSvcRegWrite off w ch s = _
    rw [execSvcRegWrite, if_pos hup, bar0Write_lane s .service w ch hfs hblock halign hwr]
  · let v := s.rd Reg.HBR_INT_STATUS_INT &&& (63 - w.toNat % 64)
    refine ⟨s.wr Reg.HBR_INT_STATUS_INT v, ?_, ⟨?_, fun g hg => State.rd_wr_ne s Reg.HBR_INT_STATUS_INT g v (hg _ (List.mem_singleton_self _))⟩, rfl⟩
    · change execRegisterWrite Reg.HBR_INT_STATUS_INT.off w ch s = _
      rw [execRegisterWrite, if_pos hup, bar0Write_intStatus]
    · intro e he
      rw [List.mem_singleton.1 he]
      exact State.rd_wr_same s Reg.HBR_INT_STATUS_INT v
  · refine ⟨_, ?_, rfl⟩
    change execSvcRegRead Reg.CMD_NEXT_SEQ_NEXT.off s = _
    rw [execSvcRegRead, if_pos hup, if_neg (by decide), readBar0_nextSeq]
    rfl

/-- Settles O23: an access that is refused is `State.accErr`, and one that is served goes by its block. -/
theorem registerAndTableAccesses : Obligations.RegisterAndTableAccesses := ⟨refusedAccessesAreCounted_holds, registerAccesses_holds⟩

end Sys2Proof.Claims
end

section
/-! The counters' record where a codeword is listed twice: O24. -/

namespace Sys2Proof.Claims

open Sys2Proof Sys2Proof.Machine

/-- The counters' record of 5 ms and no power cycle, as the retained store holds it. -/
def fiveMs : List Byte := withCrc (natLE 8 5 ++ natLE 4 0)

/-- MAINT with the host in the maintainer's role and that record in the store. Its first codeword is listed twice among the differences, first
with none and then with a codeword of its own: a read meets the first, the write-back leaves the second. -/
def listedTwice : State :=
  writes [(Reg.MOD_DOMAIN_PGOOD, 255), (Reg.RPC_LOAD_LOAD_DONE, 255), (Reg.HBR_LINK_STATE, 3), (Reg.SEC_SES_STAT_HOST_STATE, 2),
      (Reg.SEC_SES_STAT_HOST_ROLES, 7)]
    { State.reset with
      md := { ModSt.init with mode := .maint }
      rpc := { RpcSt.init with
        por := false, store := Mem.write [] 0xF0C0 fiveMs, storeErrs := [(0xF0C0 / 8, 0), (0xF0C0 / 8, Hsiao.enc 1#64)] } }

/-- The host may order the reset, and the record reads as it was written. -/
theorem listedTwice_reads : listedTwice.hostAlive = true ∧ listedTwice.hostUp = true ∧ listedTwice.md.mode = .maint ∧
    natBit listedTwice.roles 1 = true ∧ listedTwice.nvRecord 0xF0C0 16 = some (natLE 8 5 ++ natLE 4 0) := by
  decide +kernel

theorem leAt_fiveMs : leAt (natLE 8 5 ++ natLE 4 0) 0 8 % 2 ^ 40 = 5 := by decide

/-- After the write-back the record fails its CRC, and the operating time counts from 0. -/
theorem listedTwice_cleared : exec (.kaClear 0x4B41434C#32) listedTwice = .next (listedTwice.kaClearWrite 0x4B41434C#32) ∧
    (listedTwice.kaClearWrite 0x4B41434C#32).optimeMs = 0 := by
  obtain ⟨-, hup, -⟩ := listedTwice_reads
  refine ⟨?_, by decide +kernel⟩
  change execKaClear 0x4B41434C#32 listedTwice = _
  rw [execKaClear, if_pos hup]

/-- Refutes O24: nothing keeps the list of wrong codewords free of a second entry of one codeword, which the write-back before the counters'
record is read puts in force (`listedTwice`). -/
theorem not_hostPortResetsViewsAndPush : ¬ Obligations.HostPortResetsViewsAndPush := by
  intro h
  obtain ⟨halive, hup, hmode, hrole, hrec⟩ := listedTwice_reads
  obtain ⟨hexec, hzero⟩ := listedTwice_cleared
  obtain ⟨-, -, -, -, -, hclear⟩ := h.1 listedTwice halive
  obtain ⟨t, ht, -, -, -, -, -, hsome⟩ := hclear hup hmode hrole
  obtain ⟨htime, -, -⟩ := hsome _ hrec
  obtain rfl : listedTwice.kaClearWrite 0x4B41434C#32 = t := Host.Outcome.next.inj (hexec.symm.trans ht)
  rw [hzero, leAt_fiveMs] at htime
  exact absurd htime (by decide)

end Sys2Proof.Claims
end

section
/-! What accesses to a channel's memories leave alone: everything but its error state and the registers of its MIU. -/

namespace Sys2Proof.Claims

open Sys2Proof Sys2Proof.Machine

variable {s t u : State} {c d : Ch}

/-- The place of a register field of a channel. -/
def chanKey (k : Nat) : Bool := 0x300000 * 32 ≤ k && k < 0x600000 * 32
/-- What an access to the memories of the channels keeps. -/
structure MiuOp (s t : State) : Prop where
  frame : t = { s with regs := t.regs, chs := t.chs }
  regs : ∀ g : Fld, chanKey g.key = false → t.rd g = s.rd g
  ch : ∀ d, t.ch d = { s.ch d with errs := (t.ch d).errs, tags := (t.ch d).tags, pmap := (t.ch d).pmap, wbq := (t.ch d).wbq }

theorem MiuOp.refl (s : State) : MiuOp s s := ⟨rfl, fun _ _ => rfl, fun _ => rfl⟩

theorem MiuOp.trans (h : MiuOp s t) (h' : MiuOp t u) : MiuOp s u where
  frame := by rw [h'.frame, h.frame]
  regs g hg := (h'.regs g hg).trans (h.regs g hg)
  ch d := by rw [h'.ch d, h.ch d]

theorem MiuOp.wr {f : Fld} (hf : chanKey f.key = true) (s : State) (v : Nat) : MiuOp s (s.wr f v) :=
  ⟨rfl, fun g hg => State.rd_wr_ne s f g v fun h => Bool.false_ne_true (hg.symm.trans (h ▸ hf)), fun _ => rfl⟩

theorem MiuOp.modCh {f : Chan → Chan} (s : State) (c : Ch)
    (hf : f (s.ch c) = { s.ch c with errs := (f (s.ch c)).errs, tags := (f (s.ch c)).tags, pmap := (f (s.ch c)).pmap, wbq := (f (s.ch c)).wbq }) :
    MiuOp s (s.modCh c f) where
  frame := rfl
  regs _ _ := rfl
  ch d := by
    by_cases h : d = c
    · subst h
      rw [State.ch_modCh_same]
      exact hf
    · rw [State.ch_modCh_ne s f h]

theorem MiuOp.setErr (s : State) (c : Ch) (cw : Nat) (e : BitVec 72) : MiuOp s (s.setErr c cw e) := MiuOp.modCh s c rfl

theorem MiuOp.setPsn (s : State) (c : Ch) (key : Nat) (p : Bool) : MiuOp s (s.setPsn c key p) := MiuOp.modCh s c rfl

theorem MiuOp.setTag (s : State) (c : Ch) (cw : Nat) (p : Bool) : MiuOp s (s.setTag c cw p) := MiuOp.modCh s c rfl

theorem MiuOp.miuErr (s : State) (c : Ch) (kind cw synd bit : Nat) : MiuOp s (s.miuErr c kind cw synd bit) := by
  unfold State.miuErr
  exact ((((MiuOp.wr (by cases c <;> decide) s _).trans
    (MiuOp.wr (by cases c <;> decide) _ _)).trans
    (MiuOp.wr (by cases c <;> decide) _ _)).trans
    (MiuOp.wr (by cases c <;> decide) _ _)).trans (MiuOp.wr (by cases c <;> decide) _ _)

theorem MiuOp.ite {p : Prop} [Decidable p] {t u : State} (ht : MiuOp s t) (hu : MiuOp s u) : MiuOp s (if p then t else u) := by
  split
  · exact ht
  · exact hu

theorem MiuOp.miuCorrected (s : State) (c : Ch) (cw : Nat) (e : BitVec 72) (bit : Nat) (queue : Bool) :
    MiuOp s (s.miuCorrected c cw e bit queue) := by
  unfold State.miuCorrected
  have herr : MiuOp s (((s.inc (Reg.MIU_CE_CE_ACCESS (Ch.num c))).wrb (Reg.MIU_EVENT_CE (Ch.num c)) true).miuErr c 1 cw (Hsiao.synd e) bit) :=
    ((MiuOp.wr (f := Reg.MIU_CE_CE_ACCESS (Ch.num c)) (by cases c <;> decide) s _).trans
    (MiuOp.wr (f := Reg.MIU_EVENT_CE (Ch.num c)) (by cases c <;> decide) _ (bitNat true))).trans
    (MiuOp.miuErr _ c 1 cw (Hsiao.synd e) bit)
  exact MiuOp.ite herr (MiuOp.ite (herr.trans (MiuOp.wr (by cases c <;> decide) _ _))
    (MiuOp.ite herr (herr.trans (MiuOp.modCh _ c rfl))))

theorem MiuOp.miuUncorrectable (s : State) (c : Ch) (cw : Nat) (e : BitVec 72) : MiuOp s (s.miuUncorrectable c cw e) := by
  unfold State.miuUncorrectable
  exact ((MiuOp.wr (f := Reg.MIU_UE_UE_COUNT (Ch.num c)) (by cases c <;> decide) s _).trans
    (MiuOp.wr (f := Reg.MIU_EVENT_UE (Ch.num c)) (by cases c <;> decide) _ (bitNat true))).trans
    (MiuOp.miuErr _ c 3 cw (Hsiao.synd e) 0xFF)

theorem MiuOp.readMapCw (s : State) (c : Ch) (cw : Nat) : MiuOp s (s.readMapCw c cw).2 := by
  unfold State.readMapCw
  dsimp only
  split
  · exact MiuOp.refl s
  · split
    · exact MiuOp.refl s
    · exact MiuOp.miuCorrected s c cw _ _ true
    · exact ((MiuOp.miuUncorrectable s c cw _).trans (MiuOp.setPsn _ c _ true)).trans (MiuOp.setPsn _ c _ true)

theorem MiuOp.readTagCw (s : State) (c : Ch) (cw : Nat) (d : BitVec 64) : MiuOp s (s.readTagCw c cw d).2 := by
  unfold State.readTagCw
  dsimp only
  split
  · exact MiuOp.miuErr s c _ _ _ _
  · split
    · exact MiuOp.refl s
    · split
      · exact MiuOp.miuErr s c _ _ _ _
      · split
        · exact MiuOp.refl s
        · exact MiuOp.miuCorrected s c cw _ _ true
        · exact ((MiuOp.miuUncorrectable s c cw _).trans (MiuOp.setTag _ c _ true)).trans (MiuOp.setErr _ c _ 0)

theorem MiuOp.readImg (s : State) (c : Ch) (copy : Option Nat) (i : Nat) : MiuOp s (s.readImg c copy i).2 :=
  MiuOp.readMapCw s c (Img.cw copy i)

theorem MiuOp.readTc (s : State) (c : Ch) (counter : Bool) (k : Nat) : MiuOp s (s.readTc c counter k).2 := by
  unfold State.readTc
  exact MiuOp.readMapCw s c _

theorem MiuOp.retWord (s : State) (c : Ch) (k : Nat) : MiuOp s (s.retWord c k).2 := by
  unfold State.retWord
  split
  · exact MiuOp.readImg s c none _
  · split
    · exact MiuOp.readImg s c none _
    · exact MiuOp.readTc s c true _

/-- A fold that reads as it goes. -/
theorem MiuOp.foldl {α β : Type} {f : β × State → α → β × State} (hf : ∀ p x, MiuOp p.2 (f p x).2) (l : List α) (p : β × State) :
    MiuOp p.2 (l.foldl f p).2 := by
  induction l generalizing p with
  | nil => exact MiuOp.refl p.2
  | cons x l ih => exact (hf p x).trans (ih (f p x))

theorem MiuOp.foldSt {α : Type} {f : α → State → State} (hf : ∀ x s, MiuOp s (f x s)) (l : List α) (s : State) : MiuOp s (foldSt l f s) := by
  induction l generalizing s with
  | nil => exact MiuOp.refl s
  | cons x l ih => exact (hf x s).trans (ih (f x s))

theorem MiuOp.retained (s : State) (c : Ch) : MiuOp s (s.retained c).2 := by
  unfold State.retained
  refine MiuOp.foldl (fun p k => ?_) _ (([] : FMap (Psn Word)), s)
  exact MiuOp.retWord p.2 c k

theorem MiuOp.flip (s : State) (c : Ch) (cw : Nat) : MiuOp s (s.flip c cw) := by
  unfold State.flip
  exact MiuOp.ite (((MiuOp.setErr s c cw _).trans
    (MiuOp.wr (f := Reg.MIU_FLIP_CTL_ARM (Ch.num c)) (by cases c <;> decide) _ (bitNat false))).trans
    (MiuOp.wr (f := Reg.MIU_FLIP_CTL_FIRED (Ch.num c)) (by cases c <;> decide) _ (bitNat true))) (MiuOp.refl s)

theorem MiuOp.flipAmong (s : State) (c : Ch) (firsts : List Nat) (written : Nat → Bool) : MiuOp s (s.flipAmong c firsts written) := by
  unfold State.flipAmong
  dsimp only
  split
  · exact MiuOp.ite (MiuOp.flip s c _) (MiuOp.refl s)
  · exact MiuOp.refl s

theorem MiuOp.storeWritten (s : State) (c : Ch) (lo n : Nat) : MiuOp s (s.storeWritten c lo n) := by
  unfold State.storeWritten
  exact (MiuOp.modCh s c rfl).trans (MiuOp.flipAmong _ c _ _)

theorem MiuOp.forceWritten (s : State) (n : Nat) : MiuOp s (s.forceWritten n) :=
  MiuOp.foldSt (fun c s => MiuOp.storeWritten s c _ 2) Ch.all s

/-- The force table is what was put; the rest is written memory. -/
theorem MiuOp.putForces (s : State) (ft : ForceTab) : MiuOp { s with forces := ft } (s.putForces ft) := by
  unfold State.putForces
  exact MiuOp.foldSt (fun n s => MiuOp.forceWritten s n) _ _

end Sys2Proof.Claims
end

section
/-! Mode changes: what the record of a transition shows, and what leaves it alone; the maintenance and debug commands: O25. -/

namespace Sys2Proof.Claims

open Sys2Proof Sys2Proof.Machine

variable {s t u : State} {c d : Ch}

/-! ### What leaves the record of the last transition alone -/

/-- The record of the last transition, the mode and the forces stand. -/
structure KeepsCause (s t : State) : Prop where
  cause : ∀ g ∈ causeFlds, t.rd g = s.rd g
  mode : t.md.mode = s.md.mode
  forces : t.forces = s.forces

theorem KeepsCause.refl (s : State) : KeepsCause s s := ⟨fun _ _ => rfl, rfl, rfl⟩

theorem KeepsCause.trans (h : KeepsCause s t) (h' : KeepsCause t u) : KeepsCause s u :=
  ⟨fun g hg => (h'.cause g hg).trans (h.cause g hg), h'.mode.trans h.mode, h'.forces.trans h.forces⟩

theorem KeepsCause.of_regs (hregs : t.regs = s.regs) (hmode : t.md.mode = s.md.mode) (hforces : t.forces = s.forces) : KeepsCause s t :=
  ⟨fun g _ => State.rd_congr hregs g, hmode, hforces⟩

theorem KeepsCause.ite {p : Prop} [Decidable p] (ht : KeepsCause s t) (hu : KeepsCause s u) : KeepsCause s (if p then t else u) := by
  split
  · exact ht
  · exact hu

theorem KeepsCause.foldSt {α : Type} {f : α → State → State} (hf : ∀ x s, KeepsCause s (f x s)) (l : List α) (s : State) :
    KeepsCause s (foldSt l f s) := by
  induction l generalizing s with
  | nil => exact KeepsCause.refl s
  | cons x l ih => exact (hf x s).trans (ih (f x s))

/-- A field outside the record. -/
def notCause (f : Fld) : Bool := f.key < 0x44 * 32 || (0x45 * 32 ≤ f.key && f.key < 0x100010 * 32) || 0x100011 * 32 ≤ f.key

theorem notCause_above {f : Fld} (h : 0x100011 * 32 ≤ f.key) : notCause f = true := by
  rw [notCause, decide_eq_true h, Bool.or_true]

theorem notCause_ne {f g : Fld} (hf : notCause f = true) (hg : g ∈ causeFlds) : g.key ≠ f.key := by
  have hplace : ∀ g ∈ causeFlds, (0x44 * 32 ≤ g.key ∧ g.key < 0x45 * 32) ∨ (0x100010 * 32 ≤ g.key ∧ g.key < 0x100011 * 32) := by decide
  have h := hplace g hg
  simp only [notCause, Bool.or_eq_true, Bool.and_eq_true, decide_eq_true_eq] at hf
  omega

theorem KeepsCause.wr {f : Fld} (hf : notCause f = true) (s : State) (v : Nat) : KeepsCause s (s.wr f v) :=
  ⟨fun g hg => State.rd_wr_ne s f g v (notCause_ne hf hg), rfl, rfl⟩

theorem KeepsCause.wrb {f : Fld} (hf : notCause f = true) (s : State) (b : Bool) : KeepsCause s (s.wrb f b) := KeepsCause.wr hf s _

theorem KeepsCause.inc {f : Fld} (hf : notCause f = true) (s : State) : KeepsCause s (s.inc f) := KeepsCause.wr hf s _

theorem KeepsCause.modCh (s : State) (c : Ch) (f : Chan → Chan) : KeepsCause s (s.modCh c f) := KeepsCause.of_regs rfl rfl rfl

theorem KeepsCause.of_keepsRegs {l : List Fld} (h : keepsRegs s t l) (hl : ∀ f ∈ l, notCause f = true) (hmode : t.md.mode = s.md.mode)
    (hforces : t.forces = s.forces) : KeepsCause s t :=
  ⟨fun g hg => h g fun f hf => notCause_ne (hl f hf) hg, hmode, hforces⟩

theorem KeepsCause.modMd (s : State) (f : ModSt → ModSt) (h : (f s.md).mode = s.md.mode) : KeepsCause s (s.modMd f) :=
  KeepsCause.of_regs rfl h rfl

theorem KeepsCause.diag (s : State) (sev src inst off : Nat) (detail : List Nat) : KeepsCause s (s.diag sev src inst off detail) :=
  KeepsCause.of_keepsRegs (keepsRegs_diag s sev src inst off detail) (by decide) (by rw [diag_frame]) (by rw [diag_frame])

theorem MiuOp.keepsCause (h : MiuOp s t) : KeepsCause s t where
  cause g hg := h.regs g (by
    have hout : ∀ g ∈ causeFlds, chanKey g.key = false := by decide
    exact hout g hg)
  mode := by rw [h.frame]
  forces := by rw [h.frame]

/-! ### Attempts, exclusions and retained data -/

theorem KeepsCause.retire (s : State) (c : Ch) : KeepsCause s (s.retire c) := by
  unfold State.retire
  exact (KeepsCause.modCh s c _).trans (KeepsCause.diag _ _ _ _ _ _)

theorem KeepsCause.failAttempt (s : State) (c : Ch) (code : Nat) : KeepsCause s (s.failAttempt c code) := by
  unfold State.failAttempt
  have hregs : KeepsCause s ((((s.inc Reg.VOT_RESYNC_FAIL_COUNT).wr Reg.VOT_RESYNC_FAIL_CHANNEL (Ch.num c)).wr Reg.VOT_RESYNC_FAIL_REASON code).wr
      Reg.VOT_RESYNC_STAGE 6) :=
    (((KeepsCause.inc (by decide) s).trans (KeepsCause.wr (by decide) _ _)).trans (KeepsCause.wr (by decide) _ _)).trans
      (KeepsCause.wr (by decide) _ _)
  have hlog (f : Chan → Chan) := (hregs.trans (KeepsCause.modCh _ c f)).trans (KeepsCause.diag _ 5 Src.vot 0 0x00600044 [])
  exact KeepsCause.ite ((hlog _).trans (KeepsCause.retire _ c)) (hlog _)

theorem KeepsCause.abandon (s : State) (c : Ch) : KeepsCause s (s.abandon c) := by
  unfold State.abandon
  exact (KeepsCause.ite (KeepsCause.failAttempt s c 8) (KeepsCause.ite (KeepsCause.wr (by decide) s 0) (KeepsCause.refl s))).trans
    (KeepsCause.modCh _ c _)

theorem KeepsCause.freezeRet (s : State) (c : Ch) : KeepsCause s (s.freezeRet c) := by
  unfold State.freezeRet
  exact KeepsCause.ite ((MiuOp.retained s c).keepsCause.trans (KeepsCause.modCh _ c _)) (KeepsCause.refl s)

theorem KeepsCause.endHolds (s : State) : KeepsCause s s.endHolds := by
  unfold State.endHolds
  have hfold : KeepsCause s (Machine.foldSt out12 (fun o s => s.wrb (Reg.SIO_OUT_STAT_HOLD o) false) s) := by
    refine KeepsCause.foldSt (fun o s => KeepsCause.wrb (notCause_above ?_) s false) out12 s
    simp only [Fld.key, Reg.SIO_OUT_STAT_HOLD]
    omega
  exact hfold.trans (KeepsCause.of_regs rfl rfl rfl)

theorem KeepsCause.enterSafe (s : State) : KeepsCause s s.enterSafe := by
  unfold State.enterSafe
  have hfold : KeepsCause s (Machine.foldSt Ch.all (fun c s => (s.freezeRet c).abandon c) s) :=
    KeepsCause.foldSt (fun c s => (KeepsCause.freezeRet s c).trans (KeepsCause.abandon _ c)) Ch.all s
  exact (hfold.trans (KeepsCause.modMd _ _ rfl)).trans (KeepsCause.endHolds _)

/-- A new traverse starts in every channel. -/
def freshTraverse (s : State) : State := foldSt Ch.all (fun c s => s.modCh c fun h => { h with accStart := true }) s

/-- Every engine stands. -/
def enginesStopped (s : State) : State := foldSt Ch.all (fun c s => s.wr (Reg.LEN_STATUS_RUN (Ch.num c)) 0) s

theorem endDebug_eq (s : State) : s.endDebug =
    let a := (if s.md.debug then freshTraverse s else s).modMd fun x =>
      { x with debug := false, halted := false, dbgHaltReq := none, dbgAbandon := x.halted }
    ((if a.md.dbgAbandon then enginesStopped a else a).modMd fun x => { x with dbgAbandon := false }).wr Reg.VOT_DBG_STATE 0 := by rfl

theorem KeepsCause.freshTraverse (s : State) : KeepsCause s (freshTraverse s) :=
  KeepsCause.foldSt (fun c s => KeepsCause.modCh s c _) Ch.all s

theorem KeepsCause.enginesStopped (s : State) : KeepsCause s (enginesStopped s) :=
  KeepsCause.foldSt (fun c s => KeepsCause.wr (by cases c <;> decide) s 0) Ch.all s

theorem KeepsCause.endDebug (s : State) : KeepsCause s s.endDebug := by
  rw [endDebug_eq]
  have h1 : KeepsCause s (if s.md.debug then Claims.freshTraverse s else s) := KeepsCause.ite (KeepsCause.freshTraverse s) (KeepsCause.refl s)
  have h2 := h1.trans (KeepsCause.modMd _ (fun x : ModSt =>
    { x with debug := false, halted := false, dbgHaltReq := none, dbgAbandon := x.halted }) rfl)
  exact ((KeepsCause.ite (h2.trans (KeepsCause.enginesStopped _)) h2).trans (KeepsCause.modMd _ _ rfl)).trans (KeepsCause.wr (by decide) _ 0)

theorem KeepsCause.cancelFlips (s : State) : KeepsCause s s.cancelFlips := by
  unfold State.cancelFlips
  refine foldSt_inv (P := KeepsCause s) (fun n hn t ht => ?_) (KeepsCause.refl s)
  have hn : notCause (Reg.MIU_FLIP_CTL_ARM n) = true ∧ notCause (Reg.MIU_FLIP_CTL_CANCELLED n) = true := by
    revert n
    decide
  exact ht.trans (KeepsCause.ite ((KeepsCause.wrb hn.1 t false).trans (KeepsCause.wrb hn.2 _ true)) (KeepsCause.refl t))

/-! ### The record of a transition (R26) -/

/-- A noted transition: the record names it, interrupt 1 is pending, nothing but the log changed. -/
theorem noteMode_noted (s : State) (src dst : Mode) {cause : Nat} (hcause : cause < 256) (chans : Nat) :
    let u := s.noteMode src dst cause chans
    (u.rd Reg.MOD_CAUSE_FROM = src.code ∧ u.rd Reg.MOD_CAUSE_TO = dst.code ∧ u.rd Reg.MOD_CAUSE_CAUSE = cause ∧
      u.rd Reg.MOD_CAUSE_SEQ = (s.rd Reg.MOD_CAUSE_SEQ + 1) % 256 ∧ natBit (u.rd Reg.HBR_INT_STATUS_INT) 1 = true) ∧
    keepsRegs s u (causeFlds ++ logFlds) ∧
    u = { s with regs := u.regs, rcd := u.rcd, hbr := { s.hbr with msix := u.hbr.msix, pba := u.hbr.pba } } := by
  intro u
  let l := [(Reg.MOD_CAUSE_TO, dst.code), (Reg.MOD_CAUSE_FROM, src.code), (Reg.MOD_CAUSE_CAUSE, cause)]
  let a := (s.incWrap Reg.MOD_CAUSE_SEQ).wr Reg.MOD_CAUSE_CHANNELS chans
  let b := writes l a
  let ev := b.event (if dst = .safe then 6 else if src = .run3 && dst = .run2 then 4 else 2) 0x01 Src.mod 0 [b.storedWord 0x44, b.modStatus]
  let e := b.enqueue ev
  have hu : u = e.raiseInt 1 := by rfl
  have hcode (m : Mode) : m.code < 2 ^ 4 := by cases m <;> decide
  have hl : separate l := by
    refine ⟨?_, ?_⟩
    · simp only [l, List.forall_mem_cons]
      exact ⟨hcode dst, hcode src, hcause, fun _ h => absurd h List.not_mem_nil⟩
    · have h1 : Reg.MOD_CAUSE_TO.key ≠ Reg.MOD_CAUSE_FROM.key := by decide
      have h2 : Reg.MOD_CAUSE_TO.key ≠ Reg.MOD_CAUSE_CAUSE.key := by decide
      have h3 : Reg.MOD_CAUSE_FROM.key ≠ Reg.MOD_CAUSE_CAUSE.key := by decide
      simp [l, h1, h2, h3]
  obtain ⟨hwr, hother⟩ := regsTo_writes hl a
  have hlog : keepsRegs b u (Reg.HBR_INT_STATUS_INT :: logFlds) := by
    rw [hu]
    exact ((keepsRegs_enqueue b ev).mono fun f hf => List.mem_cons_of_mem _ hf).trans
      ((keepsRegs_raiseInt e 1).mono fun f hf => List.mem_singleton.1 hf ▸ List.mem_cons_self)
  have hread {g : Fld} {v : Nat} (hg : (g, v) ∈ l) (hne : ∀ f ∈ Reg.HBR_INT_STATUS_INT :: logFlds, g.key ≠ f.key) : u.rd g = v :=
    (hlog g hne).trans (hwr (g, v) hg)
  refine ⟨⟨hread (by simp [l]) (by decide), hread (by simp [l]) (by decide), hread (by simp [l]) (by decide), ?_, ?_⟩, ?_, ?_⟩
  · rw [hlog Reg.MOD_CAUSE_SEQ (by decide), hother Reg.MOD_CAUSE_SEQ (by simp only [l, List.forall_mem_cons]; decide)]
    rw [State.rd_wr_ne (s.incWrap Reg.MOD_CAUSE_SEQ) Reg.MOD_CAUSE_CHANNELS Reg.MOD_CAUSE_SEQ chans (by decide)]
    exact State.rd_wr_same s Reg.MOD_CAUSE_SEQ _
  · rw [hu]
    exact raiseInt_bit e (by decide)
  · have hnames : ∀ f ∈ l.map Prod.fst, f ∈ causeFlds :=
      have hfst : ∀ f ∈ [Reg.MOD_CAUSE_TO, Reg.MOD_CAUSE_FROM, Reg.MOD_CAUSE_CAUSE], f ∈ causeFlds := by decide
      hfst
    have hab : keepsRegs s b causeFlds :=
      ((keepsRegs_wr s (by decide) _).wr (by decide) chans).trans ((keepsRegs_of_regsTo ⟨hwr, hother⟩).mono hnames)
    exact (hab.mono fun f hf => List.mem_append_left _ hf).trans (hlog.mono (by decide))
  · have he : e = { b with regs := e.regs, rcd := e.rcd } := enqueue_frame b ev
    have hr : u = { e with regs := u.regs, hbr := { e.hbr with msix := u.hbr.msix, pba := u.hbr.pba } } := hu ▸ raiseInt_frame e 1
    have hrcd : u.rcd = e.rcd := by rw [hr]
    rw [hrcd]
    exact hr.trans (by rw [he]; rfl)

/-- A transition noted in a state that has its new mode, and counts the last as before. -/
theorem noteMode_moved (s : State) {b : State} (hb : b.rd Reg.MOD_CAUSE_SEQ = s.rd Reg.MOD_CAUSE_SEQ) {src dst : Mode} (hmode : b.md.mode = dst) {cause : Nat}
    (hcause : cause < 256) (chans : Nat) : moved s (b.noteMode src dst cause chans) src dst cause := by
  obtain ⟨⟨hfrom, hto, hcode, hseq, hint⟩, -, hframe⟩ := noteMode_noted b src dst hcause chans
  have hmd : (b.noteMode src dst cause chans).md = b.md := by rw [hframe]
  refine ⟨?_, hfrom, hto, hcode, ?_, hint⟩
  · rw [hmd, hmode]
  · rw [hseq, hb]

theorem noteMode_forces (s : State) (src dst : Mode) {cause : Nat} (hcause : cause < 256) (chans : Nat) :
    (s.noteMode src dst cause chans).forces = s.forces := by
  obtain ⟨-, -, hframe⟩ := noteMode_noted s src dst hcause chans
  rw [hframe]

theorem KeepsCause.moved {src dst : Mode} {cause : Nat} (h : KeepsCause t u) (ht : moved s t src dst cause) : moved s u src dst cause := by
  obtain ⟨hmode, hfrom, hto, hcode, hseq, hint⟩ := ht
  refine ⟨h.mode.trans hmode, ?_, ?_, ?_, ?_, ?_⟩
  · rw [h.cause _ (by decide), hfrom]
  · rw [h.cause _ (by decide), hto]
  · rw [h.cause _ (by decide), hcode]
  · rw [h.cause _ (by decide), hseq]
  · rw [h.cause _ (by decide), hint]

/-! ### `MNT_ENTER` (R34) and `MNT_EXIT` (R37) -/

theorem needs_true {c : Bool} (hc : c = true) (st : Nat) (k : CmdRes State) : needs c st k = k := by rw [needs, if_pos hc]

/-- MAINT from a running mode or SAFE: nothing is left, so the record is all that changes. -/
theorem setMode_maint (h : s.md.mode = .run3 ∨ s.md.mode = .run2 ∨ s.md.mode = .safe) (cause chans : Nat) :
    s.setMode .maint cause chans = (s.modMd fun x => { x with mode := .maint }).noteMode s.md.mode .maint cause chans := by
  have hleave : s.leaveMode .maint = s := by
    obtain h | h | h := h <;> simp [State.leaveMode, h]
  unfold State.setMode
  rw [hleave]

theorem mntEnter_effect (hmode : s.md.mode = .run3 ∨ s.md.mode = .run2 ∨ s.md.mode = .safe) (hok : s.maintOk = true) (hv : 2 ≤ s.voters.length) :
    ∃ u, applyMntEnter s = .ok u ∧ moved s u s.md.mode .maint 0x13 ∧
      u.md = { s.md with mode := .maint, maintFrom := s.md.mode } ∧ keepsRegs s u (causeFlds ++ logFlds) ∧
      u.chs = s.chs ∧ u.forces = s.forces ∧ u.sio = s.sio := by
  let b := s.modMd fun x => { x with mode := .maint }
  let n := b.noteMode s.md.mode .maint 0x13 0
  have hmoved : moved s n s.md.mode .maint 0x13 := noteMode_moved s (b := b) rfl rfl (by decide) 0
  obtain ⟨-, hkeep, hframe⟩ := noteMode_noted b s.md.mode .maint (cause := 0x13) (by decide) 0
  have heff : applyMntEnter s = .ok (n.modMd fun x => { x with maintFrom := s.md.mode }) := by
    unfold applyMntEnter
    dsimp only
    rw [needs_true (by simpa [hok, hv, or_assoc] using hmode), setMode_maint hmode]
  refine ⟨_, heff, hmoved, ?_, hkeep, ?_, ?_, ?_⟩
  · change { n.md with maintFrom := s.md.mode } = _
    rw [show n.md = b.md by rw [show n = _ from hframe]]
    rfl
  · change n.chs = _
    rw [show n = _ from hframe]
    rfl
  · change n.forces = _
    rw [show n = _ from hframe]
    rfl
  · change n.sio = _
    rw [show n = _ from hframe]
    rfl

/-- The force of an entry that is on no safety location. -/
def harmless (e : Nat × Option Force) : Bool :=
  match e.2 with
  | some f => !f.safety
  | none => true

/-- The forces with those on safety locations dropped. -/
def harmlessForces (s : State) : ForceTab := s.forces.filter harmless

theorem dropSafetyForces_eq (s : State) : s.dropSafetyForces = s.putForces (harmlessForces s) := by rfl

theorem get_harmless_safety {m : ForceTab} {n : Nat} {f : Force} (h : FMap.get none (m.filter harmless) n = some f) : f.safety = false := by
  induction m with
  | nil => exact absurd h nofun
  | cons e m ih =>
    obtain ⟨j, v⟩ := e
    rw [List.filter_cons] at h
    by_cases he : harmless (j, v) = true
    · rw [if_pos he, FMap.get] at h
      by_cases hj : j = n
      · rw [if_pos hj] at h
        subst h
        simpa [harmless] using he
      · exact ih (by rwa [if_neg hj] at h)
    · exact ih (by rwa [if_neg he] at h)

theorem get_harmless_kept {m : ForceTab} {n : Nat} {f : Force} (h : FMap.get none m n = some f) (hf : f.safety = false) :
    FMap.get none (m.filter harmless) n = some f := by
  induction m with
  | nil => exact absurd h nofun
  | cons e m ih =>
    obtain ⟨j, v⟩ := e
    rw [List.filter_cons]
    rw [FMap.get] at h
    by_cases hj : j = n
    · rw [if_pos hj] at h
      subst h
      rw [if_pos (by simp [harmless, hf]), FMap.get, if_pos hj]
    · have hrec := ih (by rwa [if_neg hj] at h)
      split
      · rw [FMap.get, if_neg hj, hrec]
      · exact hrec

/-- Leaving MAINT for a mode that is none: the forces on safety locations go, the record of the last transition stands. -/
theorem leaveMode_maint (h : s.md.mode = .maint) {dst : Mode} (hdst : dst ≠ .maint) :
    KeepsCause { s with forces := harmlessForces s } (s.leaveMode dst) := by
  have hdrop : KeepsCause { s with forces := harmlessForces s } s.dropSafetyForces := (MiuOp.putForces s (harmlessForces s)).keepsCause
  unfold State.leaveMode
  dsimp only
  have hend : KeepsCause { s with forces := harmlessForces s } s.dropSafetyForces.endDebug := hdrop.trans (KeepsCause.endDebug s.dropSafetyForces)
  have hleft : (if (decide (s.md.mode = .maint) && decide (dst ≠ .maint)) = true then s.dropSafetyForces.endDebug else s) =
      s.dropSafetyForces.endDebug := if_pos (by simp [h, hdst])
  rw [hleft]
  split
  · exact hend.trans (KeepsCause.cancelFlips _)
  · exact hend

/-- A change of MAINT to a running mode or SAFE. -/
theorem setMode_from_maint (h : s.md.mode = .maint) {dst : Mode} (hdst : dst = .run3 ∨ dst = .run2 ∨ dst = .safe) {cause : Nat} (hcause : cause < 256)
    (chans : Nat) : moved s (s.setMode dst cause chans) .maint dst cause ∧ (s.setMode dst cause chans).forces = harmlessForces s := by
  let b := (s.leaveMode dst).modMd fun x => { x with mode := dst }
  let n := b.noteMode .maint dst cause chans
  have hleave : KeepsCause { s with forces := harmlessForces s } (s.leaveMode dst) :=
    leaveMode_maint h (by obtain rfl | rfl | rfl := hdst <;> decide)
  have hmoved : moved s n .maint dst cause := noteMode_moved s (b := b) (hleave.cause _ (by decide)) rfl hcause chans
  have hforces : n.forces = harmlessForces s := (noteMode_forces b .maint dst hcause chans).trans hleave.forces
  have hafter : KeepsCause n (s.setMode dst cause chans) := by
    unfold State.setMode
    rw [h]
    obtain rfl | rfl | rfl := hdst
    · exact KeepsCause.refl n
    · exact KeepsCause.refl n
    · exact KeepsCause.enterSafe n
  exact ⟨hafter.moved hmoved, hafter.forces.trans hforces⟩

theorem mntExit_effect (hmode : s.md.mode = .maint) (hdebug : s.md.debug = false) :
    ∃ u, applyMntExit s = .ok u ∧
      moved s u .maint (if (s.md.maintFrom = .run3 ∨ s.md.maintFrom = .run2) ∧ s.moduleLatch = false then
        (if s.voters.length = 3 then .run3 else .run2) else .safe) 0x14 ∧
      (∀ n f, FMap.get none u.forces n = some f → f.safety = false) ∧
      (∀ n f, FMap.get none s.forces n = some f → f.safety = false → FMap.get none u.forces n = some f) := by
  let dst : Mode := if (s.md.maintFrom = .run3 ∨ s.md.maintFrom = .run2) ∧ s.moduleLatch = false then
    (if s.voters.length = 3 then .run3 else .run2) else .safe
  have hdst : dst = .run3 ∨ dst = .run2 ∨ dst = .safe := by
    simp only [dst]
    split_ifs <;> simp
  have heff : applyMntExit s = .ok (s.setMode dst 0x14 0) := by
    unfold applyMntExit
    dsimp only
    rw [needs_true (by simp [hmode, hdebug])]
    simp [dst]
  obtain ⟨hmoved, hforces⟩ := setMode_from_maint hmode hdst (cause := 0x14) (by decide) 0
  refine ⟨_, heff, hmoved, fun n f hf => ?_, fun n f hf hsafe => ?_⟩
  · exact get_harmless_safety (m := s.forces) (hforces ▸ hf)
  · rw [hforces]
    exact get_harmless_kept hf hsafe

theorem maintenanceCommands_hold : maintenanceCommands := fun s _ _ _ =>
  ⟨fun hmode hok hv => takesEffect_of (code := 0x05) (fun _ => applyMntEnter) (fun _ => rfl)
      fun seq _ _ => mntEnter_effect (s := taken s seq) hmode hok hv,
    fun hmode hdebug => takesEffect_of (code := 0x06) (fun _ => applyMntExit) (fun _ => rfl)
      fun seq _ _ => mntExit_effect (s := taken s seq) hmode hdebug⟩

/-! ### The debug commands (Table 6-8) -/

theorem dbgEnter_effect (hmode : s.md.mode = .maint) (hdebug : s.md.debug = false) (hrole : s.md.role ≠ .standby) :
    ∃ u, applyDbgEnter s = .ok u ∧ moved s u .maint .maint 0x16 ∧ u.md = { s.md with debug := true } ∧
      u.rd Reg.VOT_DBG_STATE = 1 ∧ u.rd Reg.VOT_DBG_STEPS = 0 ∧ u.chs = s.chs ∧
      keepsRegs s u ([Reg.VOT_DBG_STATE, Reg.VOT_DBG_STEPS] ++ causeFlds ++ logFlds) := by
  let b := s.modMd fun x => { x with debug := true }
  let n := b.noteMode .maint .maint 0x16 0
  let u := (n.wr Reg.VOT_DBG_STATE 1).wr Reg.VOT_DBG_STEPS 0
  have hmoved : moved s n .maint .maint 0x16 := noteMode_moved s (b := b) rfl hmode (by decide) 0
  obtain ⟨-, hkeep, hframe⟩ := noteMode_noted b .maint .maint (cause := 0x16) (by decide) 0
  have hwr : KeepsCause n u := (KeepsCause.wr (f := Reg.VOT_DBG_STATE) (by decide) n 1).trans (KeepsCause.wr (by decide) _ 0)
  have heff : applyDbgEnter s = .ok u := by
    unfold applyDbgEnter
    rw [needs_true (by simp [hmode, hdebug, hrole])]
  refine ⟨u, heff, hwr.moved hmoved, ?_, ?_, State.rd_wr_same _ Reg.VOT_DBG_STEPS 0, ?_, ?_⟩
  · change n.md = _
    rw [show n = _ from hframe]
    rfl
  · rw [State.rd_wr_ne _ Reg.VOT_DBG_STEPS Reg.VOT_DBG_STATE 0 (by decide)]
    exact State.rd_wr_same n Reg.VOT_DBG_STATE 1
  · change n.chs = _
    rw [show n = _ from hframe]
    rfl
  · have hn : keepsRegs s n ([Reg.VOT_DBG_STATE, Reg.VOT_DBG_STEPS] ++ causeFlds ++ logFlds) :=
      hkeep.mono fun f hf => by simpa using Or.inr (Or.inr (by simpa using hf))
    exact (hn.wr (by simp) 1).wr (by simp) 0

/-- Every channel's traverse is fresh; nothing else of a channel changes. -/
theorem freshTraverse_ch (s : State) (c : Ch) : (freshTraverse s).ch c = { s.ch c with accStart := true } := by
  cases c <;> rfl

theorem enginesStopped_chs (s : State) : (enginesStopped s).chs = s.chs := by rfl

theorem endDebug_states (hdebug : s.md.debug = true) :
    s.endDebug.md.debug = false ∧ s.endDebug.md.halted = false ∧ s.endDebug.rd Reg.VOT_DBG_STATE = 0 ∧
      ∀ c, s.endDebug.ch c = { s.ch c with accStart := true } := by
  rw [endDebug_eq, if_pos hdebug]
  dsimp only
  let a := (freshTraverse s).modMd fun x => { x with debug := false, halted := false, dbgHaltReq := none, dbgAbandon := x.halted }
  let b := if a.md.dbgAbandon then enginesStopped a else a
  have hbmd : b.md = a.md := by
    simp only [b]
    split
    · rfl
    · rfl
  have hbch (c : Ch) : b.ch c = a.ch c := by
    simp only [b]
    split
    · cases c <;> rfl
    · rfl
  refine ⟨?_, ?_, State.rd_wr_same _ Reg.VOT_DBG_STATE 0, fun c => ?_⟩
  · change b.md.debug = false
    rw [hbmd]
    rfl
  · change b.md.halted = false
    rw [hbmd]
    rfl
  · change b.ch c = _
    rw [hbch]
    exact freshTraverse_ch s c

theorem dbgExit_effect (hmode : s.md.mode = .maint) (hdebug : s.md.debug = true) (h3 : s.rd Reg.VOT_DBG_STATE ≠ 3) (h4 : s.rd Reg.VOT_DBG_STATE ≠ 4) :
    ∃ u, applyDbgExit s = .ok u ∧ moved s u .maint .maint 0x17 ∧ u.md.debug = false ∧ u.md.halted = false ∧
      u.rd Reg.VOT_DBG_STATE = 0 ∧ (∀ c, u.ch c = { s.ch c with accStart := true }) ∧ u.forces = s.forces := by
  have hend : KeepsCause s s.endDebug := KeepsCause.endDebug s
  obtain ⟨hdbg, hhalt, hstate, hch⟩ := endDebug_states hdebug
  let n := s.endDebug.noteMode .maint .maint 0x17 0
  have hmoved : moved s n .maint .maint 0x17 := noteMode_moved s (hend.cause _ (by decide)) (hend.mode.trans hmode) (by decide) 0
  obtain ⟨-, hkeep, hframe⟩ := noteMode_noted s.endDebug .maint .maint (cause := 0x17) (by decide) 0
  have heff : applyDbgExit s = .ok n := by
    unfold applyDbgExit
    rw [needs_true (by simp [hdebug, h3, h4])]
  have hmd : n.md = s.endDebug.md := by rw [show n = _ from hframe]
  have hchs : n.chs = s.endDebug.chs := by rw [show n = _ from hframe]
  refine ⟨n, heff, hmoved, ?_, ?_, ?_, fun c => ?_, ?_⟩
  · rw [hmd, hdbg]
  · rw [hmd, hhalt]
  · exact (hkeep Reg.VOT_DBG_STATE (by decide)).trans hstate
  · rw [State.ch, hchs]
    exact hch c
  · exact (noteMode_forces s.endDebug .maint .maint (by decide) 0).trans hend.forces

theorem dbgHalt_effect {b : Bank} {w1 : Word} (hdebug : s.md.debug = true) (hstate : s.rd Reg.VOT_DBG_STATE = 1) (hbank : s.runBank = some b)
    (hphases : w1.toNat < b.phases) (hw : w1.toNat < 64) :
    ∃ u, applyDbgHalt w1 s = .ok u ∧ regsTo s u [(Reg.VOT_DBG_STATE, 2), (Reg.VOT_DBG_PHASE, w1.toNat)] ∧
      u = { s with regs := u.regs, md := { s.md with dbgHaltReq := some w1.toNat } } := by
  let r := s.modMd fun x => { x with dbgHaltReq := some w1.toNat }
  have hsep : separate [(Reg.VOT_DBG_STATE, 2), (Reg.VOT_DBG_PHASE, w1.toNat)] := by
    have hne : Reg.VOT_DBG_STATE.key ≠ Reg.VOT_DBG_PHASE.key := by decide
    refine ⟨?_, by simp [hne]⟩
    simp only [List.forall_mem_cons]
    exact ⟨by decide, hw, fun _ h => absurd h List.not_mem_nil⟩
  have hregs := regsTo_writes hsep r
  have heff : applyDbgHalt w1 s = .ok (writes [(Reg.VOT_DBG_STATE, 2), (Reg.VOT_DBG_PHASE, w1.toNat)] r) := by
    unfold applyDbgHalt
    rw [needs_true (by simp [hdebug, hstate]), needs_true (by simp [hbank, hphases])]
    rfl
  exact ⟨_, heff, hregs, rfl⟩

theorem dbgStep_effect (hdebug : s.md.debug = true) (hstate : s.rd Reg.VOT_DBG_STATE = 3) :
    ∃ u, applyDbgStep s = .ok u ∧ regsTo s u [(Reg.VOT_DBG_STATE, 4), (Reg.VOT_DBG_STEPS, up s Reg.VOT_DBG_STEPS)] ∧
      u = { s with regs := u.regs } := by
  have heff : applyDbgStep s = .ok ((s.wr Reg.VOT_DBG_STATE 4).inc Reg.VOT_DBG_STEPS) := by
    unfold applyDbgStep
    rw [needs_true (by simp [hdebug, hstate])]
  have hne : Reg.VOT_DBG_STATE.key ≠ Reg.VOT_DBG_STEPS.key := by decide
  have hsteps : (s.wr Reg.VOT_DBG_STATE 4).rd Reg.VOT_DBG_STEPS = s.rd Reg.VOT_DBG_STEPS :=
    State.rd_wr_ne s Reg.VOT_DBG_STATE Reg.VOT_DBG_STEPS 4 hne.symm
  refine ⟨_, heff, ⟨?_, fun g hg => ?_⟩, rfl⟩
  · simp only [List.forall_mem_cons]
    refine ⟨?_, ?_, fun _ h => absurd h List.not_mem_nil⟩
    · rw [State.rd_inc_ne _ Reg.VOT_DBG_STEPS Reg.VOT_DBG_STATE hne]
      exact State.rd_wr_same s Reg.VOT_DBG_STATE 4
    · rw [rd_inc_up, up, hsteps]
      rfl
  · simp only [List.forall_mem_cons] at hg
    obtain ⟨hg1, hg2, -⟩ := hg
    rw [State.rd_inc_ne _ Reg.VOT_DBG_STEPS g hg2, State.rd_wr_ne s Reg.VOT_DBG_STATE g 4 hg1]

theorem dbgResume_effect (hdebug : s.md.debug = true) (hstate : s.rd Reg.VOT_DBG_STATE = 3) :
    ∃ u, applyDbgResume s = .ok u ∧ regsTo s u [(Reg.VOT_DBG_STATE, 5)] ∧ u = { s with regs := u.regs } := by
  have heff : applyDbgResume s = .ok (writes [(Reg.VOT_DBG_STATE, 5)] s) := by
    unfold applyDbgResume
    rw [needs_true (by simp [hdebug, hstate])]
    rfl
  have hsep : separate [(Reg.VOT_DBG_STATE, 5)] := ⟨by decide, by simp⟩
  exact ⟨_, heff, regsTo_writes hsep s, rfl⟩

theorem debugCommands_hold : debugCommands := by
  refine fun s w1 w2 w3 => ⟨fun hmode hdebug hrole => ?_, fun hmode hdebug => ⟨fun h3 h4 => ?_, fun b hstate hbank hphases hw => ?_, fun hstate => ⟨?_, ?_⟩⟩⟩
  · exact takesEffect_of (code := 0x50) (fun _ => applyDbgEnter) (fun _ => rfl) fun seq _ _ => dbgEnter_effect (s := taken s seq) hmode hdebug hrole
  · exact takesEffect_of (code := 0x51) (fun _ => applyDbgExit) (fun _ => rfl) fun seq _ _ => dbgExit_effect (s := taken s seq) hmode hdebug h3 h4
  · exact takesEffect_of (code := 0x52) (fun r => applyDbgHalt r.w1) (fun _ => rfl)
      fun seq _ _ => dbgHalt_effect (s := taken s seq) hdebug hstate hbank hphases hw
  · exact takesEffect_of (code := 0x53) (fun _ => applyDbgStep) (fun _ => rfl) fun seq _ _ => dbgStep_effect (s := taken s seq) hdebug hstate
  · exact takesEffect_of (code := 0x54) (fun _ => applyDbgResume) (fun _ => rfl) fun seq _ _ => dbgResume_effect (s := taken s seq) hdebug hstate

/-- Settles O25: `mntEnter_effect` and `mntExit_effect`, each with its transition noted; the five debug effects. -/
theorem maintenanceAndDebugCommands : Obligations.MaintenanceAndDebugCommands := ⟨maintenanceCommands_hold, debugCommands_hold⟩

end Sys2Proof.Claims
end

section
/-! The beginning of a save, and the reset of the registers, blocks and channels by P and M: what both leave. -/

namespace Sys2Proof.Claims

open Sys2Proof Sys2Proof.Machine

variable {s t u : State} {c d : Ch}

/-! ### Register resets -/

theorem FMap.get_filter_out {β : Type} (d : β) (m : FMap β) (p : Nat × β → Bool) {k : Nat} (hk : ∀ v, p (k, v) = false) :
    FMap.get d (m.filter p) k = d := by
  induction m with
  | nil => rfl
  | cons e m ih =>
    obtain ⟨j, v⟩ := e
    rw [List.filter_cons]
    split
    · next hp =>
      rw [FMap.get, if_neg (by rintro rfl; rw [hk] at hp; cases hp)]
      exact ih
    · exact ih

/-- The register map finds the field at its own place. -/
def listed (f : Fld) : Bool :=
  decide (((Reg.fieldsAt (f.key / 32)).bind fun fs => fs.find? fun g => g.lsb = f.key % 32) = some f)

theorem rd_resetRegs_reset {f : Fld} (hf : listed f = true) {p : Fld → Bool} (hp : p f = true) (s : State) : (s.resetRegs p).rd f = f.rst := by
  refine FMap.get_filter_out f.rst s.regs _ fun v => ?_
  rw [of_decide_eq_true hf]
  simp [hp]

theorem rd_resetRegs_kept {f : Fld} (hf : listed f = true) {p : Fld → Bool} (hp : p f = false) (s : State) : (s.resetRegs p).rd f = s.rd f := by
  refine FMap.get_filter f.rst s.regs (fun k =>
    match (Reg.fieldsAt (k / 32)).bind fun fs => fs.find? fun g => g.lsb = k % 32 with
    | some f => !p f
    | none => true) ?_
  rw [of_decide_eq_true hf]
  simp [hp]

theorem resetRegs_frame (s : State) (p : Fld → Bool) : s.resetRegs p = { s with regs := (s.resetRegs p).regs } := by rfl

/-! ### Every output driven -/

theorem belowOuts_of {g : Fld} (h : g.key < 0x00900500 * 32) : belowOuts g := h

theorem driveAll_outOp (s : State) : OutOp s s.driveAll := OutOp.foldSt (fun o s => drive_outOp s o) s

theorem mem_out12 {o : Nat} (h : o ∈ out12) : o < 12 := List.mem_range.1 h

theorem driveAll_rd_outside (s : State) {g : Fld} (hg : ∀ p < 12, ∀ b < 32, g.key ≠ (0x00900500 + p * 4) * 32 + b) : s.driveAll.rd g = s.rd g :=
  foldSt_inv (P := fun t => t.rd g = s.rd g) (fun _ ho t ht => (drive_rd_outside t (mem_out12 ho) hg).trans ht) rfl

theorem drive_isOff_other (s : State) {o p : Nat} (h : p ≠ o) (hoff : isOff s p) : isOff (s.drive o) p :=
  isOff_of_rd hoff fun _ hb _ hg => drive_rd s o hg (by simp at hb; omega) (.inl h)

/-- Outputs none of which may close are all off. -/
theorem driveAll_isOff {P : State → Prop} (hkeep : ∀ o s, P s → P (s.drive o)) (hmay : ∀ o s, P s → s.mayClose o = false) (hs : P s) {o : Nat}
    (ho : o < 12) : isOff s.driveAll o := by
  refine foldSt_established (P := P) (Q := fun t => isOff t o) (x := o) (List.mem_range.2 ho) (fun p _ t ht => hkeep p t ht)
    (fun t ht => drive_isOff t (hmay o t ht)) (fun p _ t ht hoff => ?_) hs
  by_cases h : o = p
  · subst h
    exact drive_isOff t (hmay o t ht)
  · exact drive_isOff_other t h hoff

theorem drive_rpc (s : State) (o : Nat) : (s.drive o).rpc = s.rpc := by rw [(drive_outOp s o).frame]

theorem driveAll_isOff_of_save {b : Bool} (h : s.rpc.save = some b) {o : Nat} (ho : o < 12) : isOff s.driveAll o := by
  refine driveAll_isOff (P := fun t => t.rpc.save = some b) (fun p t ht => ?_) (fun p t ht => ?_) h ho
  · rw [drive_rpc, ht]
  · simp [State.mayClose, ht]

/-! ### The bypass -/

def bypassFlds : List Fld := [Reg.PTN_BYPASS_STAGE, Reg.PTN_BYPASS_RELAY_A, Reg.PTN_BYPASS_RELAY_B,
  Reg.PTN_PORT_BYPASSED 0, Reg.PTN_PORT_BYPASSED 1, Reg.PTN_PORT_BYPASSED 2, Reg.PTN_PORT_BYPASSED 3]

theorem relay_keeps (s : State) (lineB closed : Bool) : keepsRegs s (s.relay lineB closed) bypassFlds := by
  unfold State.relay
  cases lineB
  · exact (((keepsRegs_refl s bypassFlds).wrb (by decide) closed).wrb (by decide) closed).wrb (by decide) closed
  · exact (((keepsRegs_refl s bypassFlds).wrb (by decide) closed).wrb (by decide) closed).wrb (by decide) closed

theorem bypassAtOnce_keeps (s : State) : keepsRegs s s.bypassAtOnce bypassFlds := by
  unfold State.bypassAtOnce
  have h : keepsRegs s (s.modPtn fun x => { x with relayNs := 0 }) bypassFlds := keepsRegs_of_eq rfl _
  exact ((h.trans (relay_keeps _ false true)).trans (relay_keeps _ true true)).wr (by decide) 3

theorem relay_frame (s : State) (lineB closed : Bool) : s.relay lineB closed = { s with regs := (s.relay lineB closed).regs } := by
  unfold State.relay
  rfl

theorem bypassAtOnce_frame (s : State) : s.bypassAtOnce = { s with regs := s.bypassAtOnce.regs, ptn := { s.ptn with relayNs := 0 } } := by
  have h (a : State) : a.wr Reg.PTN_BYPASS_STAGE 3 = { a with regs := (a.wr Reg.PTN_BYPASS_STAGE 3).regs } := by rfl
  unfold State.bypassAtOnce
  rw [h, relay_frame, relay_frame (s.modPtn fun x => { x with relayNs := 0 })]
  rfl

theorem stagedBypass_keeps (s : State) : keepsRegs s s.stagedBypass bypassFlds := by
  unfold State.stagedBypass
  split_ifs
  · exact keepsRegs_refl s _
  · exact bypassAtOnce_keeps s
  · exact (keepsRegs_of_eq rfl bypassFlds).wr (by decide) 1

theorem stagedBypass_frame (s : State) : s.stagedBypass = { s with regs := s.stagedBypass.regs, ptn := s.stagedBypass.ptn } := by
  unfold State.stagedBypass
  split_ifs
  · rfl
  · exact bypassAtOnce_frame s
  · rfl

theorem stagedBypass_begun (h3 : s.rd Reg.PTN_BYPASS_STAGE ≠ 3) (h1 : s.rd Reg.PTN_BYPASS_STAGE ≠ 1) (hno : s.rdb Reg.PTN_HOLDUP_NO_STAGE = false) :
    s.stagedBypass.rd Reg.PTN_BYPASS_STAGE = 1 ∧ s.stagedBypass.ptn.relayNs = 10000000 ∧ keepsRegs s s.stagedBypass [Reg.PTN_BYPASS_STAGE] := by
  unfold State.stagedBypass
  rw [if_neg (by simp [h3, h1]), if_neg (by simp [hno])]
  exact ⟨State.rd_wr_same _ Reg.PTN_BYPASS_STAGE 1, rfl, (keepsRegs_of_eq rfl _).wr List.mem_cons_self 1⟩

/-! ### A store interrupted (R492) -/

/-- What the end of a store on the plug leaves of the module: the plug's copies and the free values drawn. -/
def onlyPlug (s t : State) : Prop := t = { s with free := t.free, sec := { s.sec with plug := t.sec.plug } }

theorem onlyPlug.trans (h : onlyPlug s t) (h' : onlyPlug t u) : onlyPlug s u := by
  unfold onlyPlug at *
  rw [h', h]

theorem onlyPlug_foldSt {α : Type} {l : List α} {f : α → State → State} (h : ∀ x s, onlyPlug s (f x s)) (s : State) : onlyPlug s (foldSt l f s) := by
  induction l generalizing s with
  | nil => rfl
  | cons x l ih => exact (h x s).trans (ih (f x s))

theorem storeInterrupted_onlyPlug (s : State) : onlyPlug (s.modSec fun x => { x with job := none }) s.storeInterrupted := by
  unfold State.storeInterrupted
  cases hj : s.sec.job with
  | none =>
    change s = _
    cases s with
    | mk _ _ _ _ _ _ _ _ _ _ _ _ _ _ _ sec =>
      cases sec
      subst hj
      rfl
  | some j =>
    dsimp only
    split
    · rfl
    · split_ifs
      · rfl
      · refine onlyPlug_foldSt (fun c t => ?_) _
        split
        · rfl
        · rfl

theorem storeInterrupted_frame (s : State) :
    s.storeInterrupted = { s with free := s.storeInterrupted.free, sec := { s.sec with job := none, plug := s.storeInterrupted.sec.plug } } :=
  storeInterrupted_onlyPlug s

theorem storeInterrupted_regs (s : State) : s.storeInterrupted.regs = s.regs := by rw [storeInterrupted_frame]

/-! ### The save begins (R141, R143) -/

theorem startSave_eq (s : State) (module : Bool) :
    s.startSave module = ((enginesStopped s).modRpc fun x => { x with save := some module }).driveAll.stagedBypass.storeInterrupted := by rfl

theorem enginesStopped_keeps (s : State) : keepsRegs s (enginesStopped s) (Ch.all.map fun c => Reg.LEN_STATUS_RUN (Ch.num c)) := by
  unfold Claims.enginesStopped
  exact keepsRegs_foldSt (fun c _ t => keepsRegs_wr t (by cases c <;> decide) 0) s

theorem enginesStopped_run (s : State) (c : Ch) : (enginesStopped s).rd (Reg.LEN_STATUS_RUN (Ch.num c)) = 0 := by
  refine foldSt_established (P := fun _ => True) (Q := fun t => t.rd (Reg.LEN_STATUS_RUN (Ch.num c)) = 0) (x := c)
    (by cases c <;> decide) (fun _ _ _ _ => trivial) (fun t _ => State.rd_wr_same t _ 0) (fun d _ t _ ht => ?_) trivial
  by_cases h : c = d
  · subst h
    exact State.rd_wr_same t _ 0
  · rw [State.rd_wr_ne t (Reg.LEN_STATUS_RUN (Ch.num d)) (Reg.LEN_STATUS_RUN (Ch.num c)) 0 (by revert h; cases c <;> cases d <;> decide)]
    exact ht

/-- A field outside those that the begin of a save writes. -/
def outsideSave (g : Fld) : Prop :=
  (∀ f ∈ Ch.all.map fun c => Reg.LEN_STATUS_RUN (Ch.num c), g.key ≠ f.key) ∧
    (∀ p < 12, ∀ b < 32, g.key ≠ (0x00900500 + p * 4) * 32 + b) ∧ ∀ f ∈ bypassFlds, g.key ≠ f.key

theorem startSave_rd (s : State) (module : Bool) {g : Fld} (hg : outsideSave g) : (s.startSave module).rd g = s.rd g := by
  obtain ⟨hrun, hout, hbypass⟩ := hg
  rw [startSave_eq, State.rd_congr (storeInterrupted_regs _), stagedBypass_keeps _ g hbypass, driveAll_rd_outside _ hout]
  exact enginesStopped_keeps s g hrun

theorem startSave_lane (s : State) (module : Bool) : (s.startSave module).lane = s.lane := by
  rw [startSave_eq, storeInterrupted_frame, stagedBypass_frame, (driveAll_outOp _).frame]
  rfl

theorem startSave_rpc (s : State) (module : Bool) : (s.startSave module).rpc = { s.rpc with save := some module } := by
  rw [startSave_eq, storeInterrupted_frame, stagedBypass_frame, (driveAll_outOp _).frame]
  rfl

theorem startSave_saving (s : State) (module : Bool) : saving s (s.startSave module) module := by
  let e := (enginesStopped s).modRpc fun x => { x with save := some module }
  let d := e.driveAll
  have hd : OutOp e d := driveAll_outOp e
  have hregs (g : Fld) : (s.startSave module).rd g = d.stagedBypass.rd g := by
    rw [startSave_eq]
    exact State.rd_congr (storeInterrupted_regs d.stagedBypass) g
  have hbelow {g : Fld} (hg : belowOuts g) : (∀ f ∈ Ch.all.map fun c => Reg.LEN_STATUS_RUN (Ch.num c), g.key ≠ f.key) → d.rd g = s.rd g :=
    fun hrun => (hd.below g hg).trans (enginesStopped_keeps s g hrun)
  refine ⟨by rw [startSave_rpc], fun c => ?_, fun o ho => ?_, ?_, fun h3 h1 hno => ?_⟩
  · rw [hregs, stagedBypass_keeps d _ (by cases c <;> decide), hd.below _ (belowOuts_of (by cases c <;> decide))]
    exact enginesStopped_run s c
  · have hoff : isOff d o := driveAll_isOff_of_save (s := e) rfl ho
    refine isOff_of_rd hoff fun b hb g hg => ?_
    rw [hregs]
    refine stagedBypass_keeps d g fun f hf => ?_
    have hf' : f.key < 0x00900500 * 32 := by
      revert f
      decide
    omega
  · rw [startSave_eq, storeInterrupted_frame]
  · have hstage : d.rd Reg.PTN_BYPASS_STAGE = s.rd Reg.PTN_BYPASS_STAGE := hbelow (belowOuts_of (by decide)) (by decide)
    have hholdup : d.rdb Reg.PTN_HOLDUP_NO_STAGE = s.rdb Reg.PTN_HOLDUP_NO_STAGE := by
      rw [State.rdb, hbelow (belowOuts_of (by decide)) (by decide), State.rdb]
    have hrelay : d.rd Reg.PTN_BYPASS_RELAY_A = s.rd Reg.PTN_BYPASS_RELAY_A := hbelow (belowOuts_of (by decide)) (by decide)
    obtain ⟨hone, hns, hkept⟩ :=
      stagedBypass_begun (s := d) (fun h => h3 (hstage.symm.trans h)) (fun h => h1 (hstage.symm.trans h)) (hholdup.trans hno)
    have hptn : (s.startSave module).ptn = d.stagedBypass.ptn := by
      rw [startSave_eq, storeInterrupted_frame]
    have hkept' : (s.startSave module).rd Reg.PTN_BYPASS_RELAY_A = s.rd Reg.PTN_BYPASS_RELAY_A :=
      ((hregs _).trans (hkept _ (by decide))).trans hrelay
    exact ⟨(hregs _).trans hone, (congrArg PtnSt.relayNs hptn).trans hns, by rw [State.rdb, hkept', State.rdb]⟩

/-! ### P and M (R512, R516) -/

/-- The fields that P and M reset while no edge runs on. -/
def inReach (s : State) (l : RLetter) (f : Fld) : Bool :=
  f.reaches l && !(decide (s.rd Reg.PTN_BYPASS_STAGE = 1) && Fld.inEdge f)

/-- The fields that every module reset sets anew after the registers' reset. -/
def heldFlds : List Fld := [Reg.MOD_DOMAIN_PGOOD, Reg.MOD_DOMAIN_CLAMP, Reg.RPC_RESET_IN_RESET]

theorem coreReset_regs (s : State) (l : RLetter) :
    (s.coreReset l).regs = ((((s.resetRegs (inReach s l)).wr Reg.MOD_DOMAIN_PGOOD (s.rd Reg.MOD_DOMAIN_PGOOD)).wr
      Reg.MOD_DOMAIN_CLAMP 0xFE).wr Reg.RPC_RESET_IN_RESET 0xFE).regs := by rfl

theorem coreReset_rd_reset {f : Fld} (hf : listed f = true) {l : RLetter} (hreach : f.reaches l = true) (hedge : Fld.inEdge f = false)
    (hheld : ∀ g ∈ heldFlds, g.key ≠ f.key) (s : State) : (s.coreReset l).rd f = f.rst := by
  rw [State.rd_congr (coreReset_regs s l), State.rd_wr_ne _ Reg.RPC_RESET_IN_RESET f _ (hheld _ (by decide)).symm,
    State.rd_wr_ne _ Reg.MOD_DOMAIN_CLAMP f _ (hheld _ (by decide)).symm, State.rd_wr_ne _ Reg.MOD_DOMAIN_PGOOD f _ (hheld _ (by decide)).symm]
  exact rd_resetRegs_reset hf (by simp [inReach, hreach, hedge]) s

theorem coreReset_rd_kept {f : Fld} (hf : listed f = true) {l : RLetter} (hreach : f.reaches l = false) (hheld : ∀ g ∈ heldFlds, g.key ≠ f.key)
    (s : State) : (s.coreReset l).rd f = s.rd f := by
  rw [State.rd_congr (coreReset_regs s l), State.rd_wr_ne _ Reg.RPC_RESET_IN_RESET f _ (hheld _ (by decide)).symm,
    State.rd_wr_ne _ Reg.MOD_DOMAIN_CLAMP f _ (hheld _ (by decide)).symm, State.rd_wr_ne _ Reg.MOD_DOMAIN_PGOOD f _ (hheld _ (by decide)).symm]
  exact rd_resetRegs_kept hf (by simp [inReach, hreach]) s

theorem coreReset_held (s : State) (l : RLetter) :
    (s.coreReset l).rd Reg.RPC_RESET_IN_RESET = 0xFE ∧ (s.coreReset l).rd Reg.MOD_DOMAIN_CLAMP = 0xFE ∧
      (s.coreReset l).rd Reg.MOD_DOMAIN_PGOOD = s.rd Reg.MOD_DOMAIN_PGOOD % 256 := by
  refine ⟨?_, ?_, ?_⟩
  · rw [State.rd_congr (coreReset_regs s l)]
    exact State.rd_wr_same _ Reg.RPC_RESET_IN_RESET 0xFE
  · rw [State.rd_congr (coreReset_regs s l), State.rd_wr_ne _ Reg.RPC_RESET_IN_RESET Reg.MOD_DOMAIN_CLAMP _ (by decide)]
    exact State.rd_wr_same _ Reg.MOD_DOMAIN_CLAMP 0xFE
  · rw [State.rd_congr (coreReset_regs s l), State.rd_wr_ne _ Reg.RPC_RESET_IN_RESET Reg.MOD_DOMAIN_PGOOD _ (by decide),
      State.rd_wr_ne _ Reg.MOD_DOMAIN_CLAMP Reg.MOD_DOMAIN_PGOOD _ (by decide)]
    exact State.rd_wr_same _ Reg.MOD_DOMAIN_PGOOD _

end Sys2Proof.Claims
end

section
/-! The entry to STARTUP, and what a restart of the program leaves: mode, role, which channels can take part, and the registers outside
the blocks that it works on. -/

namespace Sys2Proof.Claims

open Sys2Proof Sys2Proof.Machine

variable {s t u : State} {c d : Ch}

/-- The registers that restarts and abandoned attempts write: those of the program, the channels and the vote, the clocks of the
undercoat, and the recorder's. -/
def worked (k : Nat) : Bool :=
  (0x200000 * 32 ≤ k && k < 0x700000 * 32) || k == Reg.TMU_CYC_WCET_UC_UC_CLK.key || (0xD00000 * 32 ≤ k && k < 0xE00000 * 32)

/-- A step that leaves mode and role, which channels can take part in STARTUP, an empty force table, and the registers not worked on. -/
structure Steady (s t : State) : Prop where
  regs : ∀ g : Fld, worked g.key = false → t.rd g = s.rd g
  mode : t.md.mode = s.md.mode
  role : t.md.role = s.md.role
  eligible : ∀ c, t.eligible c = s.eligible c
  forces : s.forces = [] → t.forces = []

theorem Steady.refl (s : State) : Steady s s := ⟨fun _ _ => rfl, rfl, rfl, fun _ => rfl, id⟩

theorem Steady.trans (h : Steady s t) (h' : Steady t u) : Steady s u :=
  ⟨fun g hg => (h'.regs g hg).trans (h.regs g hg), h'.mode.trans h.mode, h'.role.trans h.role,
    fun c => (h'.eligible c).trans (h.eligible c), fun hs => h'.forces (h.forces hs)⟩

theorem Steady.ite {p : Prop} [Decidable p] (ht : Steady s t) (hu : Steady s u) : Steady s (if p then t else u) := by
  split
  · exact ht
  · exact hu

theorem Steady.foldSt {α : Type} {f : α → State → State} (hf : ∀ x s, Steady s (f x s)) (l : List α) (s : State) : Steady s (foldSt l f s) := by
  induction l generalizing s with
  | nil => exact Steady.refl s
  | cons x l ih => exact (hf x s).trans (ih (f x s))

theorem eligible_congr (hst : (t.ch c).st = (s.ch c).st) (hcfg : (t.ch c).cfgOk = (s.ch c).cfgOk) : t.eligible c = s.eligible c := by
  rw [State.eligible, State.booted, hst, hcfg, ← State.booted, ← State.eligible]

theorem worked_ne {f g : Fld} (hf : worked f.key = true) (hg : worked g.key = false) : g.key ≠ f.key := fun h =>
  Bool.false_ne_true (hg.symm.trans (h ▸ hf))

theorem Steady.wr {f : Fld} (hf : worked f.key = true) (s : State) (v : Nat) : Steady s (s.wr f v) :=
  ⟨fun g hg => State.rd_wr_ne s f g v (worked_ne hf hg), rfl, rfl, fun _ => rfl, id⟩

theorem Steady.wrb {f : Fld} (hf : worked f.key = true) (s : State) (b : Bool) : Steady s (s.wrb f b) := Steady.wr hf s _

theorem Steady.inc {f : Fld} (hf : worked f.key = true) (s : State) : Steady s (s.inc f) := Steady.wr hf s _

/-- A step whose registers are known by a frame, and that keeps every channel's standing. -/
theorem Steady.of_keepsRegs {l : List Fld} (h : keepsRegs s t l) (hl : ∀ f ∈ l, worked f.key = true) (hmd : t.md = s.md) (hchs : t.chs = s.chs)
    (hforces : t.forces = s.forces) : Steady s t :=
  ⟨fun g hg => h g fun f hf => worked_ne (hl f hf) hg, by rw [hmd], by rw [hmd],
    fun c => eligible_congr (by rw [State.ch, hchs, State.ch]) (by rw [State.ch, hchs, State.ch]), fun h => hforces.trans h⟩

theorem Steady.modCh (s : State) (c : Ch) {f : Chan → Chan} (hst : (f (s.ch c)).st = (s.ch c).st) (hcfg : (f (s.ch c)).cfgOk = (s.ch c).cfgOk) :
    Steady s (s.modCh c f) := by
  refine ⟨fun _ _ => rfl, rfl, rfl, fun d => ?_, id⟩
  by_cases h : d = c
  · subst h
    exact eligible_congr (by rw [State.ch_modCh_same, hst]) (by rw [State.ch_modCh_same, hcfg])
  · exact eligible_congr (by rw [State.ch_modCh_ne s f h]) (by rw [State.ch_modCh_ne s f h])

theorem Steady.modMd (s : State) (f : ModSt → ModSt) (hmode : (f s.md).mode = s.md.mode) (hrole : (f s.md).role = s.md.role) :
    Steady s (s.modMd f) := ⟨fun _ _ => rfl, hmode, hrole, fun _ => rfl, id⟩

theorem Steady.of_diag {sev src inst off : Nat} {l : List Nat} (s : State) : Steady s (s.diag sev src inst off l) :=
  Steady.of_keepsRegs (keepsRegs_diag s sev src inst off l) (by decide) (by rw [diag_frame]) (by rw [diag_frame]) (by rw [diag_frame])

theorem MiuOp.steady (h : MiuOp s t) : Steady s t := by
  refine ⟨fun g hg => h.regs g ?_, ?_, ?_, fun c => ?_, fun hf => ?_⟩
  · simp only [worked, Bool.or_eq_false_iff, Bool.and_eq_false_iff, decide_eq_false_iff_not] at hg
    simp only [chanKey, Bool.and_eq_false_iff, decide_eq_false_iff_not]
    omega
  · rw [h.frame]
  · rw [h.frame]
  · exact eligible_congr (by rw [h.ch c]) (by rw [h.ch c])
  · rw [h.frame]
    exact hf

/-! ### Attempts abandoned (R192) -/

theorem Steady.failAttempt_held (s : State) (c : Ch) : Steady s (s.failAttempt c 8) := by
  have heq : s.failAttempt c 8 = ((((((s.inc Reg.VOT_RESYNC_FAIL_COUNT).wr Reg.VOT_RESYNC_FAIL_CHANNEL (Ch.num c)).wr Reg.VOT_RESYNC_FAIL_REASON 8).wr
      Reg.VOT_RESYNC_STAGE 6).modCh c fun h => { h with probation := false, attempt := h.attempt.map fun _ => Attempt.fresh, failTimes := h.failTimes }).diag
      5 Src.vot 0 0x00600044) := by rfl
  rw [heq]
  exact (((((Steady.inc (by decide) s).trans (Steady.wr (by decide) _ _)).trans (Steady.wr (by decide) _ _)).trans (Steady.wr (by decide) _ _)).trans
    (Steady.modCh _ c rfl rfl)).trans (Steady.of_diag _)

/-- The channel without its attempt, and out of the resynchronisation. -/
def abandoned (h : Chan) : Chan :=
  { h with attempt := none, kept := [], probation := false, st := if h.st = .resync || h.st = .reloading then .excluded else h.st }

theorem Steady.modCh_abandoned (s : State) (c : Ch) : Steady s (s.modCh c abandoned) := by
  refine ⟨fun _ _ => rfl, rfl, rfl, fun d => ?_, id⟩
  by_cases h : d = c
  · subst h
    unfold State.eligible State.booted
    rw [State.ch_modCh_same]
    cases hst : (s.ch d).st <;> simp [abandoned, hst]
  · exact eligible_congr (by rw [State.ch_modCh_ne s _ h]) (by rw [State.ch_modCh_ne s _ h])

theorem Steady.abandon (s : State) (c : Ch) : Steady s (s.abandon c) := by
  unfold State.abandon
  exact (Steady.ite (Steady.failAttempt_held s c) (Steady.ite (Steady.wr (by decide) s 0) (Steady.refl s))).trans
    (Steady.modCh_abandoned _ c)

/-! ### Forces and debugging ended -/

theorem Steady.dropSafetyForces (s : State) : Steady s s.dropSafetyForces := by
  have hdrop : Steady { s with forces := harmlessForces s } s.dropSafetyForces := (MiuOp.putForces s (harmlessForces s)).steady
  exact ⟨hdrop.regs, hdrop.mode, hdrop.role, hdrop.eligible, fun h => hdrop.forces (by simp [harmlessForces, h])⟩

theorem Steady.enginesStopped (s : State) : Steady s (enginesStopped s) :=
  Steady.foldSt (fun c s => Steady.wr (by cases c <;> decide) s 0) Ch.all s

theorem Steady.endDebug (s : State) : Steady s s.endDebug := by
  rw [endDebug_eq]
  have hfresh : Steady s (Claims.freshTraverse s) := Steady.foldSt (fun c s => Steady.modCh s c rfl rfl) Ch.all s
  have h2 := (Steady.ite (p := s.md.debug = true) hfresh (Steady.refl s)).trans (Steady.modMd _ (fun x : ModSt =>
    { x with debug := false, halted := false, dbgHaltReq := none, dbgAbandon := x.halted }) rfl rfl)
  exact ((Steady.ite (h2.trans (Steady.enginesStopped _)) h2).trans (Steady.modMd _ _ rfl rfl)).trans (Steady.wr (by decide) _ 0)

theorem Steady.leaveMode_startup (s : State) : Steady s (s.leaveMode .startup) := by
  unfold State.leaveMode
  dsimp only
  rw [if_neg (by simp)]
  exact Steady.ite ((Steady.dropSafetyForces s).trans (Steady.endDebug _)) (Steady.refl s)

/-! ### The cause of a restart stands: neither its kind nor the hold of W changes -/

def keepsRestart (s t : State) : Prop := t.md.restart = s.md.restart ∧ t.md.wHold = s.md.wHold

theorem keepsRestart.trans (h : keepsRestart s t) (h' : keepsRestart t u) : keepsRestart s u := ⟨h'.1.trans h.1, h'.2.trans h.2⟩

theorem keepsRestart_of_md (h : t.md = s.md) : keepsRestart s t := by
  unfold keepsRestart
  rw [h]
  exact ⟨rfl, rfl⟩

theorem dropSafetyForces_md (s : State) : s.dropSafetyForces.md = s.md := by
  rw [dropSafetyForces_eq, (MiuOp.putForces s (harmlessForces s)).frame]

theorem freshTraverse_md (s : State) : (freshTraverse s).md = s.md := by rfl

theorem enginesStopped_md (s : State) : (enginesStopped s).md = s.md := by rfl

theorem endDebug_keepsRestart (s : State) : keepsRestart s s.endDebug := by
  rw [endDebug_eq]
  dsimp only
  unfold keepsRestart
  split_ifs <;> exact ⟨rfl, rfl⟩

theorem leaveMode_startup_keepsRestart (s : State) : keepsRestart s (s.leaveMode .startup) := by
  unfold State.leaveMode
  dsimp only
  rw [if_neg (by simp)]
  split
  · exact (keepsRestart_of_md (dropSafetyForces_md s)).trans (endDebug_keepsRestart _)
  · exact ⟨rfl, rfl⟩

/-! ### The entry to STARTUP -/

/-- Every attempt abandoned. -/
def allAbandoned (s : State) : State := foldSt Ch.all (fun c s => s.abandon c) s

/-- The channel at the start of STARTUP. -/
def startsUp (h : Chan) : Chan := { h with st := .vote, plumbLeft := 0, accStart := true, ownForces := none }

/-- The channels given start up. -/
def allStart (l : List Ch) (s : State) : State := foldSt l (fun c s => s.modCh c startsUp) s

theorem enterStartup_eq (s : State) (hold : Bool) : s.enterStartup hold =
    (allStart (Ch.all.filter (allAbandoned s).eligible) (allAbandoned s)).modMd fun x => { x with
      exclAt := (Ch.all.filter fun c => !(allAbandoned s).eligible c).foldl (fun m c =>
        FMap.put m (Ch.num c) (allStart (Ch.all.filter (allAbandoned s).eligible) (allAbandoned s)).tm.cyc) x.exclAt,
      plumb := if hold then 0 else 3, plumbBad := ([], []), plumbDone := false, travDone := false, noneStreak := 0, assertSafe := false,
      ranCycle := false, rejoinReq := [], ackAccepted := false, ackEdge := false } := by rfl

theorem allAbandoned_steady (s : State) : Steady s (allAbandoned s) := Steady.foldSt (fun c s => Steady.abandon s c) Ch.all s

theorem allAbandoned_keepsCause (s : State) : KeepsCause s (allAbandoned s) := KeepsCause.foldSt (fun c s => KeepsCause.abandon s c) Ch.all s

theorem failAttempt_held_md (s : State) (c : Ch) : (s.failAttempt c 8).md = s.md := by
  unfold State.failAttempt
  dsimp only
  rw [if_neg (by simp), diag_frame]
  rfl

theorem abandon_md (s : State) (c : Ch) : (s.abandon c).md = s.md := by
  unfold State.abandon
  dsimp only
  split_ifs
  · exact failAttempt_held_md s c
  · rfl
  · rfl

theorem allAbandoned_md (s : State) : (allAbandoned s).md = s.md := foldSt_keeps (fun t => t.md) Ch.all _ (fun c t => abandon_md t c) s

theorem allStart_keepsCause (l : List Ch) (s : State) : KeepsCause s (allStart l s) := KeepsCause.foldSt (fun c s => KeepsCause.modCh s c _) l s

theorem allStart_regs (l : List Ch) (s : State) : (allStart l s).regs = s.regs := foldSt_keeps (fun t => t.regs) l (fun c s => s.modCh c startsUp) (fun _ _ => rfl) s

theorem allStart_md (l : List Ch) (s : State) : (allStart l s).md = s.md := foldSt_keeps (fun t => t.md) l (fun c s => s.modCh c startsUp) (fun _ _ => rfl) s

theorem allStart_vote {l : List Ch} (h : c ∈ l) (s : State) : ((allStart l s).ch c).st = .vote := by
  refine foldSt_established (P := fun _ => True) (Q := fun t => (t.ch c).st = .vote) (x := c) h (fun _ _ _ _ => trivial)
    (fun t _ => by rw [State.ch_modCh_same]; rfl) (fun d _ t _ ht => ?_) trivial
  by_cases hd : c = d
  · subst hd
    rw [State.ch_modCh_same]
    rfl
  · rw [State.ch_modCh_ne t _ hd, ht]

theorem mem_chAll (c : Ch) : c ∈ Ch.all := by cases c <;> decide

theorem enterStartup_vote (s : State) (hold : Bool) (h : s.eligible c = true) : ((s.enterStartup hold).ch c).st = .vote := by
  rw [enterStartup_eq]
  exact allStart_vote (List.mem_filter.2 ⟨mem_chAll c, ((allAbandoned_steady s).eligible c).trans h⟩) _

theorem enterStartup_keepsCause (s : State) (hold : Bool) : KeepsCause s (s.enterStartup hold) := by
  rw [enterStartup_eq]
  exact ((allAbandoned_keepsCause s).trans (allStart_keepsCause _ _)).trans (KeepsCause.modMd _ _ rfl)

theorem enterStartup_rd (s : State) (hold : Bool) {g : Fld} (hg : worked g.key = false) : (s.enterStartup hold).rd g = s.rd g := by
  rw [enterStartup_eq]
  exact (State.rd_congr (allStart_regs _ (allAbandoned s)) g).trans ((allAbandoned_steady s).regs g hg)

theorem enterStartup_md (s : State) (hold : Bool) : keepsRestart s (s.enterStartup hold) ∧ (s.enterStartup hold).md.plumb = if hold then 0 else 3 := by
  rw [enterStartup_eq]
  have hmd : (allStart (Ch.all.filter (allAbandoned s).eligible) (allAbandoned s)).md = s.md := (allStart_md _ _).trans (allAbandoned_md s)
  refine ⟨⟨?_, ?_⟩, rfl⟩
  · exact (congrArg ModSt.restart hmd :)
  · exact (congrArg ModSt.wHold hmd :)

/-- A field outside the record of a transition, its log and its interrupt. -/
def outsideCause (g : Fld) : Prop := ∀ f ∈ causeFlds ++ logFlds, g.key ≠ f.key

/-- The entry to STARTUP from any mode: the transition is noted, every channel that can takes part, and the plumb check starts unless W is
held. -/
theorem setMode_startup (s : State) {cause : Nat} (hcause : cause < 256) (chans : Nat) :
    let u := s.setMode .startup cause chans
    moved s u s.md.mode .startup cause ∧ (s.forces = [] → u.forces = []) ∧ (∀ c, s.eligible c = true → (u.ch c).st = .vote) ∧
      keepsRestart s u ∧ (u.md.plumb = if cause = 0x18 then 0 else 3) ∧ ∀ g, worked g.key = false → outsideCause g → u.rd g = s.rd g := by
  intro u
  let b := (s.leaveMode .startup).modMd fun x => { x with mode := .startup }
  let n := b.noteMode s.md.mode .startup cause chans
  have hu : u = n.enterStartup (cause = 0x18) := by rfl
  have hleave : Steady s (s.leaveMode .startup) := Steady.leaveMode_startup s
  have hmoved : moved s n s.md.mode .startup cause := noteMode_moved s (b := b) (hleave.regs _ (by decide)) rfl hcause chans
  obtain ⟨-, hnote, hframe⟩ := noteMode_noted b s.md.mode .startup hcause chans
  have hmd : n.md = b.md := by rw [show n = _ from hframe]
  have hchs : n.chs = b.chs := by rw [show n = _ from hframe]
  have hforces : n.forces = b.forces := by rw [show n = _ from hframe]
  have hafter : KeepsCause n u := enterStartup_keepsCause n _
  have hrestart : keepsRestart s n := (leaveMode_startup_keepsRestart s).trans
    (keepsRestart.trans (t := b) ⟨rfl, rfl⟩ (keepsRestart_of_md hmd))
  obtain ⟨hkept, hplumb⟩ := enterStartup_md n (decide (cause = 0x18))
  refine ⟨hafter.moved hmoved, fun h => ?_, fun c hc => ?_, hrestart.trans hkept, ?_, fun g hg hout => ?_⟩
  · rw [hafter.forces, hforces]
    exact hleave.forces h
  · refine enterStartup_vote n _ ?_
    have hb : n.eligible c = b.eligible c := eligible_congr (by rw [State.ch, hchs, State.ch]) (by rw [State.ch, hchs, State.ch])
    exact hb.trans ((hleave.eligible c).trans hc)
  · rw [hu, hplumb]
    simp
  · exact ((enterStartup_rd n _ hg).trans (hnote g hout)).trans (hleave.regs g hg)

end Sys2Proof.Claims
end

section
/-! M asserted, the end of a save, a channel's reset and the warm reset: O26. -/

namespace Sys2Proof.Claims

open Sys2Proof Sys2Proof.Machine

variable {s t u : State} {c d : Ch}

/-! ### M asserts (R512, R513) -/

/-- What the sources of M do before the registers reset. -/
def beforeM (s : State) (src : ResetSrc) : State :=
  (if src = .pin || src = .watchdog then s.bypassAtOnce else s).storeInterrupted.modRpc fun x => { x with mod := true }

/-- What the sources of M record afterwards. -/
def afterM (s : State) (src : ResetSrc) (n : Nat) : State :=
  let s := s.wr Reg.RPC_LOAD_RETRIES n
  let s := if 0 < n then s.wrb Reg.RPC_CAUSE_LOAD_RETRY true else s
  if src = .holdStore then (s.wr Reg.MOD_CAUSE_FROM Mode.hold.code).wr Reg.MOD_CAUSE_CAUSE 0x1B else s

theorem assertM_eq (s : State) (src : ResetSrc) (hsave : s.rpc.save = none) (hpor : s.rpc.por = false) :
    s.assertM src = afterM ((beforeM (s.wrb (mCause src) true) src).coreReset .m) src (s.wrb (mCause src) true).loadsUnderWay := by
  unfold State.assertM
  dsimp only
  rw [if_neg (show ¬ (s.wrb (mCause src) true).rpc.save.isSome = true from by
    change ¬ s.rpc.save.isSome = true
    simp [hsave]), if_neg (show ¬ (s.wrb (mCause src) true).rpc.por = true from by
    change ¬ s.rpc.por = true
    simp [hpor])]
  rfl

theorem beforeM_keeps (s : State) (src : ResetSrc) : keepsRegs s (beforeM s src) bypassFlds := by
  unfold beforeM
  split
  · exact (bypassAtOnce_keeps s).of_regs (storeInterrupted_regs _)
  · exact keepsRegs_of_eq (storeInterrupted_regs s) _

theorem beforeM_frame (s : State) (src : ResetSrc) : beforeM s src = { s with
    regs := (beforeM s src).regs, ptn := (beforeM s src).ptn, free := (beforeM s src).free,
    sec := { s.sec with job := none, plug := (beforeM s src).sec.plug }, rpc := { s.rpc with mod := true } } := by
  unfold beforeM
  split
  · rw [storeInterrupted_frame, bypassAtOnce_frame]
    rfl
  · rw [storeInterrupted_frame]
    rfl

def afterMFlds : List Fld := [Reg.RPC_LOAD_RETRIES, Reg.RPC_CAUSE_LOAD_RETRY, Reg.MOD_CAUSE_FROM, Reg.MOD_CAUSE_CAUSE]

theorem afterM_keeps (s : State) (src : ResetSrc) (n : Nat) : keepsRegs s (afterM s src n) afterMFlds := by
  have h1 : keepsRegs s (s.wr Reg.RPC_LOAD_RETRIES n) afterMFlds := (keepsRegs_refl s _).wr (by decide) n
  have h2 := h1.wrb (f := Reg.RPC_CAUSE_LOAD_RETRY) (by decide) true
  unfold afterM
  dsimp only
  split_ifs
  · exact (h2.wr (f := Reg.MOD_CAUSE_FROM) (by decide) _).wr (f := Reg.MOD_CAUSE_CAUSE) (by decide) _
  · exact (h1.wr (f := Reg.MOD_CAUSE_FROM) (by decide) _).wr (f := Reg.MOD_CAUSE_CAUSE) (by decide) _
  · exact h2
  · exact h1

theorem afterM_frame (s : State) (src : ResetSrc) (n : Nat) : afterM s src n = { s with regs := (afterM s src n).regs } := by
  unfold afterM
  dsimp only
  split_ifs <;> rfl

/-- The causes of M stand in registers that neither a bypass nor M writes. -/
theorem mCause_stays (src : ResetSrc) : listed (mCause src) = true ∧ (mCause src).reaches .m = false ∧ (mCause src).width = 1 ∧
    (∀ f ∈ bypassFlds ++ afterMFlds, (mCause src).key ≠ f.key) ∧ ∀ g ∈ heldFlds, g.key ≠ (mCause src).key := by
  cases src <;> decide +kernel

/-- What the core's reset leaves, whatever the state before. -/
theorem coreReset_asserted (hmod : s.rpc.mod = true) : mAsserted s (s.coreReset .m) := by
  obtain ⟨hin, hclamp, hgood⟩ := coreReset_held s .m
  refine ⟨hmod, fun c => by cases c <;> rfl, rfl, rfl, rfl, hin, hclamp, hgood, ?_, ?_, rfl, rfl, rfl, rfl, ?_⟩
  · exact coreReset_rd_reset (f := Reg.CMD_NEXT_SEQ_NEXT) (by decide +kernel) (by decide) (by decide) (by decide) s
  · exact coreReset_rd_kept (f := Reg.RPC_PCYCLES_COUNT) (by decide +kernel) (by decide) (by decide) s
  · change (if _ then s.tm else { TimeSt.init with opNs := s.tm.opNs, opAdd := s.tm.opAdd }).opNs = _
    split <;> rfl

/-- The fields that `mAsserted` names. -/
def mFlds : List Fld := [Reg.RPC_RESET_IN_RESET, Reg.MOD_DOMAIN_CLAMP, Reg.MOD_DOMAIN_PGOOD, Reg.CMD_NEXT_SEQ_NEXT, Reg.RPC_PCYCLES_COUNT]

/-- A later step on registers that `mAsserted` does not name. -/
theorem mAsserted_later (h : mAsserted s t) (hframe : u = { t with regs := u.regs }) (hrd : ∀ g ∈ mFlds, u.rd g = t.rd g) : mAsserted s u := by
  obtain ⟨hmod, hch, hforces, hlane, htwn, hin, hclamp, hgood, hseq, hcyc, hmram, hstore, hotp, hfleet, hns⟩ := h
  simp only [mFlds, List.forall_mem_cons] at hrd
  obtain ⟨hin', hclamp', hgood', hseq', hcyc', -⟩ := hrd
  rw [hframe] at *
  exact ⟨hmod, hch, hforces, hlane, htwn, hin'.trans hin, hclamp'.trans hclamp, hgood'.trans hgood, hseq'.trans hseq, hcyc'.trans hcyc,
    hmram, hstore, hotp, hfleet, hns⟩

/-- An earlier step that keeps what M leaves. -/
theorem mAsserted_earlier (h : mAsserted t u) (hgood : t.rd Reg.MOD_DOMAIN_PGOOD = s.rd Reg.MOD_DOMAIN_PGOOD)
    (hcyc : t.rd Reg.RPC_PCYCLES_COUNT = s.rd Reg.RPC_PCYCLES_COUNT) (hrcd : t.rcd = s.rcd) (hstore : t.rpc.store = s.rpc.store)
    (hotp : t.sec.otp = s.sec.otp) (hfleet : t.sec.fleet = s.sec.fleet) (htm : t.tm = s.tm) : mAsserted s u := by
  unfold mAsserted at *
  rwa [hgood, hcyc, hrcd, hstore, hotp, hfleet, htm] at h

theorem assertM_asserted (s : State) (src : ResetSrc) (hsave : s.rpc.save = none) (hpor : s.rpc.por = false) :
    (s.assertM src).rdb (mCause src) = true ∧ (s.assertM src).rpc.save = none ∧ mAsserted s (s.assertM src) := by
  obtain ⟨hlisted, hreach, hwidth, hne, hheld⟩ := mCause_stays src
  rw [assertM_eq s src hsave hpor]
  generalize (s.wrb (mCause src) true).loadsUnderWay = n
  have hafter {r : State} {g : Fld} (hg : ∀ f ∈ afterMFlds, g.key ≠ f.key) : (afterM r src n).rd g = r.rd g := afterM_keeps r src n g hg
  have hbefore {a : State} {g : Fld} (hg : ∀ f ∈ bypassFlds, g.key ≠ f.key) : (beforeM a src).rd g = a.rd g := beforeM_keeps a src g hg
  refine ⟨?_, ?_, ?_⟩
  · rw [State.rdb, hafter fun f hf => hne f (List.mem_append_right _ hf), coreReset_rd_kept hlisted hreach hheld,
      hbefore fun f hf => hne f (List.mem_append_left _ hf)]
    exact State.rdb_wrb_same s (by rw [hwidth]; decide) true
  · rw [afterM_frame]
    rfl
  · have hmod : (beforeM (s.wrb (mCause src) true) src).rpc.mod = true := by rw [beforeM_frame]
    refine mAsserted_later (mAsserted_earlier (coreReset_asserted hmod) ?_ ?_ ?_ ?_ ?_ ?_ ?_) (afterM_frame _ src n) fun g hg => hafter ?_
    · exact (hbefore (by decide)).trans (State.rd_wrb_ne s (mCause src) Reg.MOD_DOMAIN_PGOOD true (by cases src <;> decide))
    · exact (hbefore (by decide)).trans (State.rd_wrb_ne s (mCause src) Reg.RPC_PCYCLES_COUNT true (by cases src <;> decide))
    · rw [beforeM_frame]
      rfl
    · rw [beforeM_frame]
      rfl
    · rw [beforeM_frame]
      rfl
    · rw [beforeM_frame]
      rfl
    · rw [beforeM_frame]
      rfl
    · revert g
      decide

theorem mrstN_claim (s : State) (ns : Nat) : (ns < 500 → exec (.mrstN ns) s = .next s) ∧
    (2000 ≤ ns → s.rpc.save = none → s.rpc.por = false →
      ∃ t, exec (.mrstN ns) s = .next t ∧ t.rdb Reg.RPC_CAUSE_MRST = true ∧ mAsserted s t) := by
  refine ⟨fun h => ?_, fun h hsave hpor => ?_⟩
  · change execMrstN ns s = _
    rw [execMrstN, if_pos h]
  · obtain ⟨hcause, -, hasserted⟩ := assertM_asserted s .pin hsave hpor
    refine ⟨s.assertM .pin, ?_, hcause, hasserted⟩
    change execMrstN ns s = _
    rw [execMrstN, if_neg (by omega), if_pos h]

/-! ### The save (R141 to R143) -/

theorem execModReset_apply (s : State) (seq : BitVec 16) (port : CmdPort) (w1 w2 w3 : Word) : execModReset (atTc seq port w1 w2 w3) s =
    .next (if !s.hostAlive then s
      else if s.rpc.save.isSome then (s.wrb Reg.RPC_CAUSE_MOD_CMD true).holdSource .command
      else s.modResetApply seq) := by rfl

theorem modReset_claim {s : State} {seq : BitVec 16} (port : CmdPort) (w1 w2 w3 : Word) (h : ready s 0x02) :
    ∃ t, exec (.modReset (atTc seq port w1 w2 w3)) s = .next t ∧ saving s t true ∧ t.lane.queue = [] ∧
      t.rdb Reg.RPC_CAUSE_MOD_CMD = true := by
  obtain ⟨halive, hsave, hgate⟩ := h
  let b := (s.wrb Reg.RPC_CAUSE_MOD_CMD true).modLaneQ fun q => { q with queue := [], res := [] }
  have hexec : exec (.modReset (atTc seq port w1 w2 w3)) s = .next (b.startSave true) := by
    have hx : exec (.modReset (atTc seq port w1 w2 w3)) s = execModReset (atTc seq port w1 w2 w3) s := by rfl
    rw [hx, execModReset_apply, halive, hsave, State.modResetApply, hgate]
    simp only [Bool.not_true, Bool.false_eq_true, if_false, Option.isSome_none, b]
  obtain ⟨hs, hrun, hoff, hjob, hstage⟩ := startSave_saving b true
  have hrd {g : Fld} (hg : g.key ≠ Reg.RPC_CAUSE_MOD_CMD.key) : b.rd g = s.rd g := State.rd_wrb_ne s Reg.RPC_CAUSE_MOD_CMD g true hg
  refine ⟨_, hexec, ⟨hs, hrun, hoff, hjob, fun h3 h1 hno => ?_⟩, ?_, ?_⟩
  · obtain ⟨hone, hns, hrelay⟩ := hstage (by rwa [hrd (by decide)]) (by rwa [hrd (by decide)]) (by rwa [State.rdb, hrd (by decide)])
    refine ⟨hone, hns, hrelay.trans ?_⟩
    rw [State.rdb, hrd (by decide), State.rdb]
  · rw [startSave_lane]
    rfl
  · rw [State.rdb, startSave_rd b true ⟨by decide, ?_, by decide⟩]
    · exact State.rdb_wrb_same s (f := Reg.RPC_CAUSE_MOD_CMD) (by decide) true
    · intro p hp b hb
      have hkey : Reg.RPC_CAUSE_MOD_CMD.key = 0x1000000 * 32 + Reg.RPC_CAUSE_MOD_CMD.lsb := by decide
      omega

/-- With nothing to save, the end of a save before a module reset asserts M. -/
theorem saveComplete_module_claim {s : State} (ns : Nat) (hsave : s.rpc.save = some true) (hpor : s.rpc.por = false) (hnv : s.nvAlive = false) :
    ∃ t, exec (.saveComplete ns) s = .next t ∧ t.rpc.save = none ∧ t.rdb Reg.RPC_CAUSE_MOD_CMD = true ∧ mAsserted s t := by
  let b := s.modRpc fun x => { x with save := none }
  have hwrite : s.writeSave ns = s := by rw [State.writeSave, hnv]; rfl
  obtain ⟨hcause, hnone, hasserted⟩ := assertM_asserted b .command rfl hpor
  refine ⟨b.assertM .command, ?_, hnone, hcause, hasserted⟩
  change execSaveComplete ns s = _
  unfold execSaveComplete
  rw [hsave]
  dsimp only
  rw [if_pos rfl, hwrite]

theorem natBit_and_off {v m d : Nat} (h : m.testBit d = false) : natBit (v &&& m) d = false := by
  rw [natBit, Nat.testBit_and, h, Bool.and_false]

/-- The end of a save at a loss of supply: OFF, with P asserted. -/
theorem saveComplete_supply_claim {s : State} (ns : Nat) (hsave : s.rpc.save = some false) :
    ∃ t, exec (.saveComplete ns) s = .next t ∧ t.rpc.save = none ∧ t.rpc.por = true ∧
      t.md.mode = .off ∧ (∀ c, t.ch c = Chan.init) ∧ t.lane = LaneQ.init ∧ (∀ d, 0 < d → d ≠ 4 → t.good d = false) := by
  let r := (((s.writeSave ns).modRpc fun x => { x with save := none }).modRpc fun x => { x with por := true, mod := false, held := none }).coreReset .p
  let v := if r.rd Reg.PTN_BYPASS_STAGE = 1 then r.rd Reg.MOD_DOMAIN_PGOOD &&& 0x11 else r.rd Reg.MOD_DOMAIN_PGOOD &&& 1
  let t := (r.wr Reg.MOD_DOMAIN_PGOOD v).modMd fun x => { x with mode := .off }
  have hexec : exec (.saveComplete ns) s = .next t := by
    change execSaveComplete ns s = _
    unfold execSaveComplete
    rw [hsave]
    rfl
  refine ⟨t, hexec, rfl, rfl, rfl, fun c => by cases c <;> rfl, rfl, fun d h0 h4 => ?_⟩
  have hrd : t.rd Reg.MOD_DOMAIN_PGOOD = trunc 8 v := State.rd_wr_same r Reg.MOD_DOMAIN_PGOOD v
  rw [State.good, hrd, natBit_trunc]
  by_cases hd : d < 8
  · have hv : natBit v d = false := by
      simp only [v]
      split
      · exact natBit_and_off (by interval_cases d <;> first | rfl | omega)
      · exact natBit_and_off (by interval_cases d <;> rfl)
    rw [hv, Bool.and_false]
  · rw [decide_eq_false hd, Bool.false_and]

/-! ### A channel's reset (R512) -/

def agreeFlds : List Fld := [Reg.TMU_CYC_WCET_UC_UC_CLK, Reg.CMD_PRG_STATE_UC_AGREE, Reg.CMD_PRG_STATE_UC_STATE, Reg.CMD_PRG_STATE_START_COPY]

theorem prgRegs_keeps (s : State) : keepsRegs s s.prgRegs agreeFlds := by
  unfold State.prgRegs
  dsimp only
  split
  · exact (((keepsRegs_refl s agreeFlds).wr (f := Reg.CMD_PRG_STATE_UC_AGREE) (by decide) _).wr (f := Reg.CMD_PRG_STATE_UC_STATE) (by decide) _).wr
      (f := Reg.CMD_PRG_STATE_START_COPY) (by decide) _
  · exact ((((keepsRegs_refl s agreeFlds).wr (f := Reg.TMU_CYC_WCET_UC_UC_CLK) (by decide) _).wr (f := Reg.CMD_PRG_STATE_UC_AGREE) (by decide) _).wr
      (f := Reg.CMD_PRG_STATE_UC_STATE) (by decide) _).wr (f := Reg.CMD_PRG_STATE_START_COPY) (by decide) _

theorem prgRegs_frame (s : State) : s.prgRegs = { s with regs := s.prgRegs.regs } := by
  unfold State.prgRegs
  dsimp only
  split <;> rfl

def attemptFlds : List Fld := [Reg.VOT_RESYNC_FAIL_COUNT, Reg.VOT_RESYNC_FAIL_CHANNEL, Reg.VOT_RESYNC_FAIL_REASON, Reg.VOT_RESYNC_STAGE] ++ logFlds

/-- What a failed or abandoned attempt leaves of the module: another channel and every block but the recorder. -/
structure AttemptOp (c : Ch) (s t : State) : Prop where
  frame : t = { s with regs := t.regs, chs := t.chs, rcd := t.rcd }
  others : ∀ d, d ≠ c → t.ch d = s.ch d
  regs : keepsRegs s t attemptFlds

theorem AttemptOp.trans (h : AttemptOp c s t) (h' : AttemptOp c t u) : AttemptOp c s u where
  frame := by rw [h'.frame, h.frame]
  others d hd := (h'.others d hd).trans (h.others d hd)
  regs := h.regs.trans h'.regs

theorem AttemptOp.wr {f : Fld} (hf : f ∈ attemptFlds) (s : State) (v : Nat) : AttemptOp c s (s.wr f v) :=
  ⟨rfl, fun _ _ => rfl, keepsRegs_wr s hf v⟩

theorem AttemptOp.refl (s : State) : AttemptOp c s s := ⟨rfl, fun _ _ => rfl, keepsRegs_refl s _⟩

theorem AttemptOp.modCh (s : State) (f : Chan → Chan) : AttemptOp c s (s.modCh c f) :=
  ⟨rfl, fun _ hd => State.ch_modCh_ne s f hd, keepsRegs_of_eq rfl _⟩

theorem AttemptOp.diag (s : State) (sev src inst off : Nat) (l : List Nat) : AttemptOp c s (s.diag sev src inst off l) := by
  refine ⟨?_, fun d _ => ?_, (keepsRegs_diag s sev src inst off l).mono (by decide)⟩
  · rw [diag_frame]
  · rw [State.ch, diag_frame, State.ch]

theorem AttemptOp.ite {p : Prop} [Decidable p] (ht : AttemptOp c s t) (hu : AttemptOp c s u) : AttemptOp c s (if p then t else u) := by
  split
  · exact ht
  · exact hu

theorem retire_attemptOp (s : State) (c : Ch) : AttemptOp c s (s.retire c) := by
  unfold State.retire
  exact (AttemptOp.modCh s _).trans (AttemptOp.diag _ _ _ _ _ _)

theorem failAttempt_attemptOp (s : State) (c : Ch) (code : Nat) : AttemptOp c s (s.failAttempt c code) := by
  have hregs : AttemptOp c s ((((s.inc Reg.VOT_RESYNC_FAIL_COUNT).wr Reg.VOT_RESYNC_FAIL_CHANNEL (Ch.num c)).wr Reg.VOT_RESYNC_FAIL_REASON code).wr
      Reg.VOT_RESYNC_STAGE 6) :=
    (((AttemptOp.wr (f := Reg.VOT_RESYNC_FAIL_COUNT) (by decide) s _).trans (AttemptOp.wr (f := Reg.VOT_RESYNC_FAIL_CHANNEL) (by decide) _ _)).trans
      (AttemptOp.wr (f := Reg.VOT_RESYNC_FAIL_REASON) (by decide) _ _)).trans (AttemptOp.wr (f := Reg.VOT_RESYNC_STAGE) (by decide) _ _)
  unfold State.failAttempt
  have hlog (f : Chan → Chan) := (hregs.trans (AttemptOp.modCh _ f)).trans (AttemptOp.diag _ 5 Src.vot 0 0x00600044 [])
  exact AttemptOp.ite ((hlog _).trans (retire_attemptOp _ c)) (hlog _)

theorem abandon_attemptOp (s : State) (c : Ch) : AttemptOp c s (s.abandon c) := by
  unfold State.abandon
  exact (AttemptOp.ite (failAttempt_attemptOp s c 8) (AttemptOp.ite (AttemptOp.wr (by decide) s 0) (AttemptOp.refl s))).trans
    (AttemptOp.modCh _ _)

/-- A channel in the vote is to be excluded at the next Tc (R177). -/
def exclusionAsked (s : State) (c : Ch) : State :=
  if (s.ch c).st = .vote then s.modMd fun x => { x with exclReq := x.exclReq ++ [(c, 0x0B)] } else s

/-- A channel's memories and registers take their reset state. -/
def chWiped (s : State) (c : Ch) : State := (s.modCh c fun _ => Chan.init).resetRegs fun f => f.reaches .c && f.ofChan (Ch.num c)

/-- A reset channel: its load abandoned, its exclusion asked for, its attempt abandoned, its memories and registers anew. -/
def chCleared (s : State) (c : Ch) : State := chWiped ((exclusionAsked (s.abandonLoad (Ch.num c + 1)) c).abandon c) c

/-- The register bits of a reset channel. -/
def chBits (s : State) (n : Nat) : State :=
  ((((s.clrBit Reg.RPC_LOAD_LOAD_DONE (n + 1)).clrBit Reg.RPC_LOAD_LOAD_ERR (n + 1)).setBit Reg.RPC_RESET_C n).setBit
    Reg.RPC_RESET_IN_RESET (n + 1)).setBit Reg.MOD_DOMAIN_CLAMP (n + 1)

/-- A reset channel is held: it counts no failed load, and no completed cycle any more. -/
def chHeld (s : State) (c : Ch) : State :=
  ((chBits s (Ch.num c)).modMd fun x => { x with done := x.done.map fun d => (d.1.filter (· ≠ c), d.2) }).modRpc fun x =>
    { x with loadFails := FMap.set 0 x.loadFails (Ch.num c + 1) 0 }

theorem chAssert_eq (s : State) (c : Ch) : s.chAssert c = (chHeld (chCleared s c) c).prgRegs := by rfl

theorem abandonLoad_keeps (s : State) (d : Nat) : keepsRegs s (s.abandonLoad d) [Reg.RPC_LOAD_RETRIES, Reg.RPC_CAUSE_LOAD_RETRY] := by
  unfold State.abandonLoad
  split
  · exact ((keepsRegs_refl s _).inc (by simp)).wrb (by simp) true
  · exact keepsRegs_refl s _

theorem abandonLoad_frame (s : State) (d : Nat) : s.abandonLoad d = { s with regs := (s.abandonLoad d).regs } := by
  unfold State.abandonLoad
  split <;> rfl

theorem exclusionAsked_frame (s : State) (c : Ch) : exclusionAsked s c = { s with md := { s.md with exclReq := (exclusionAsked s c).md.exclReq } } := by
  unfold exclusionAsked
  split <;> rfl

theorem exclusionAsked_mem (h : s.inVote c = true) : (c, 0x0B) ∈ (exclusionAsked s c).md.exclReq := by
  unfold exclusionAsked
  rw [if_pos (by simpa [State.inVote] using h)]
  exact List.mem_append_right _ List.mem_cons_self

theorem chWiped_ch (s : State) (c : Ch) : (chWiped s c).ch c = Chan.init ∧ ∀ d, d ≠ c → (chWiped s c).ch d = s.ch d :=
  ⟨State.ch_modCh_same s c fun _ => Chan.init, fun _ hd => State.ch_modCh_ne s (fun _ => Chan.init) hd⟩

theorem chWiped_md (s : State) (c : Ch) : (chWiped s c).md = s.md := by rfl

theorem chCleared_chs (s : State) (c : Ch) : (chCleared s c).ch c = Chan.init ∧ ∀ d, d ≠ c → (chCleared s c).ch d = s.ch d := by
  obtain ⟨hinit, hothers⟩ := chWiped_ch ((exclusionAsked (s.abandonLoad (Ch.num c + 1)) c).abandon c) c
  refine ⟨hinit, fun d hd => (hothers d hd).trans (((abandon_attemptOp _ c).others d hd).trans ?_)⟩
  rw [exclusionAsked_frame, abandonLoad_frame]
  rfl

theorem chCleared_md (s : State) (c : Ch) : (chCleared s c).md.mode = s.md.mode ∧ (s.inVote c = true → (c, 0x0B) ∈ (chCleared s c).md.exclReq) := by
  have hmd : (chCleared s c).md = (exclusionAsked (s.abandonLoad (Ch.num c + 1)) c).md := (chWiped_md _ c).trans (abandon_md _ c)
  rw [hmd]
  constructor
  · rw [exclusionAsked_frame, abandonLoad_frame]
  · intro hvote
    refine exclusionAsked_mem ?_
    rw [abandonLoad_frame]
    exact hvote

/-- A listed field out of a channel's reach that neither the abandoned load nor the attempt writes. -/
theorem chCleared_rd (s : State) (c : Ch) {g : Fld} (hlisted : listed g = true) (hreach : g.reaches .c = false)
    (hne : ∀ f ∈ [Reg.RPC_LOAD_RETRIES, Reg.RPC_CAUSE_LOAD_RETRY] ++ attemptFlds, g.key ≠ f.key) : (chCleared s c).rd g = s.rd g := by
  unfold chCleared chWiped
  rw [rd_resetRegs_kept hlisted (by simp [hreach])]
  refine ((abandon_attemptOp _ c).regs g fun f hf => hne f (List.mem_append_right _ hf)).trans ?_
  rw [exclusionAsked_frame]
  exact abandonLoad_keeps s (Ch.num c + 1) g fun f hf => hne f (List.mem_append_left _ hf)

def chHeldFlds : List Fld := [Reg.RPC_LOAD_LOAD_DONE, Reg.RPC_LOAD_LOAD_ERR, Reg.RPC_RESET_C, Reg.RPC_RESET_IN_RESET, Reg.MOD_DOMAIN_CLAMP]

theorem keepsRegs_setBit {l : List Fld} {f : Fld} (hf : f ∈ l) (s : State) (i : Nat) : keepsRegs s (s.setBit f i) l := keepsRegs_wr s hf _

theorem keepsRegs_clrBit {l : List Fld} {f : Fld} (hf : f ∈ l) (s : State) (i : Nat) : keepsRegs s (s.clrBit f i) l := keepsRegs_wr s hf _

theorem chBits_keeps (s : State) (n : Nat) : keepsRegs s (chBits s n) chHeldFlds := by
  unfold chBits
  have h1 : keepsRegs s _ chHeldFlds := keepsRegs_clrBit (f := Reg.RPC_LOAD_LOAD_DONE) (by decide) s (n + 1)
  have h2 := h1.trans (keepsRegs_clrBit (f := Reg.RPC_LOAD_LOAD_ERR) (by decide) _ (n + 1))
  have h3 := h2.trans (keepsRegs_setBit (f := Reg.RPC_RESET_C) (by decide) _ n)
  have h4 := h3.trans (keepsRegs_setBit (f := Reg.RPC_RESET_IN_RESET) (by decide) _ (n + 1))
  exact h4.trans (keepsRegs_setBit (f := Reg.MOD_DOMAIN_CLAMP) (by decide) _ (n + 1))

theorem chHeld_regs (s : State) (c : Ch) : (chHeld s c).regs = (chBits s (Ch.num c)).regs := by rfl

theorem chHeld_chs (s : State) (c : Ch) : (chHeld s c).chs = s.chs := by rfl

theorem chHeld_md (s : State) (c : Ch) : (chHeld s c).md.mode = s.md.mode ∧ (chHeld s c).md.exclReq = s.md.exclReq := ⟨by rfl, by rfl⟩

theorem chBits_set (s : State) {n : Nat} (hn : n < 3) : natBit ((chBits s n).rd Reg.RPC_RESET_C) n = true ∧
    natBit ((chBits s n).rd Reg.RPC_RESET_IN_RESET) (n + 1) = true := by
  unfold chBits
  generalize (s.clrBit Reg.RPC_LOAD_LOAD_DONE (n + 1)).clrBit Reg.RPC_LOAD_LOAD_ERR (n + 1) = a
  have hR : natBit (((a.setBit Reg.RPC_RESET_C n).setBit Reg.RPC_RESET_IN_RESET (n + 1)).rd Reg.RPC_RESET_IN_RESET) (n + 1) = true :=
    (natBit_setBit _ (f := Reg.RPC_RESET_IN_RESET) (show n + 1 < 8 by omega)).trans (by simp)
  have hC : natBit ((a.setBit Reg.RPC_RESET_C n).rd Reg.RPC_RESET_C) n = true :=
    (natBit_setBit a (f := Reg.RPC_RESET_C) (show n < 3 from hn)).trans (by simp)
  rw [State.rd_setBit_ne _ Reg.MOD_DOMAIN_CLAMP Reg.RPC_RESET_C _ (by decide), State.rd_setBit_ne _ Reg.RPC_RESET_IN_RESET Reg.RPC_RESET_C _ (by decide),
    State.rd_setBit_ne _ Reg.MOD_DOMAIN_CLAMP Reg.RPC_RESET_IN_RESET _ (by decide)]
  exact ⟨hC, hR⟩

theorem chReset_effect {w1 : Word} (hfrom : s.fromIntegrate = true) (hw : w1.toNat = Ch.num c) (hvote : s.voters.length = 3 ∨ s.inVote c = false) :
    ∃ u, applyChReset w1 s = .ok u ∧ u.ch c = Chan.init ∧ (∀ d, d ≠ c → u.ch d = s.ch d) ∧
        u.md.mode = s.md.mode ∧ u.rdb (Reg.RPC_CAUSE_CH_CMD (Ch.num c)) = true ∧ natBit (u.rd Reg.RPC_RESET_C) (Ch.num c) = true ∧
        natBit (u.rd Reg.RPC_RESET_IN_RESET) (Ch.num c + 1) = true ∧ (s.inVote c = true → (c, 0x0B) ∈ u.md.exclReq) := by
  let a := s.wrb (Reg.RPC_CAUSE_CH_CMD (Ch.num c)) true
  have hat : Ch.at w1.toNat = c := by rw [hw]; cases c <;> rfl
  have heff : applyChReset w1 s = .ok (a.chAssert c) := by
    unfold applyChReset
    rw [needs_true hfrom, needs_true (by rw [hw]; cases c <;> rfl)]
    dsimp only
    rw [hat, needs_true (by simpa using hvote), hw]
  obtain ⟨hinit, hothers⟩ := chCleared_chs a c
  obtain ⟨hmode, hexcl⟩ := chCleared_md a c
  obtain ⟨hbitC, hbitR⟩ := chBits_set (chCleared a c) (n := Ch.num c) (by cases c <;> decide)
  obtain ⟨hmode', hexcl'⟩ := chHeld_md (chCleared a c) c
  have hchs : (a.chAssert c).chs = (chCleared a c).chs := by
    rw [chAssert_eq, prgRegs_frame]
    exact chHeld_chs (chCleared a c) c
  have hmd : (a.chAssert c).md = (chHeld (chCleared a c) c).md := by rw [chAssert_eq, prgRegs_frame]
  have hrd {g : Fld} (hg : ∀ f ∈ agreeFlds, g.key ≠ f.key) : (a.chAssert c).rd g = (chBits (chCleared a c) (Ch.num c)).rd g := by
    rw [chAssert_eq, prgRegs_keeps _ g hg]
    exact State.rd_congr (chHeld_regs _ c) g
  refine ⟨_, heff, ?_, fun d hd => ?_, ?_, ?_, ?_, ?_, fun hin => ?_⟩
  · rw [State.ch, hchs]
    exact hinit
  · rw [State.ch, hchs]
    exact hothers d hd
  · rw [hmd, hmode']
    exact hmode
  · have hne : ∀ f ∈ agreeFlds ++ chHeldFlds ++ ([Reg.RPC_LOAD_RETRIES, Reg.RPC_CAUSE_LOAD_RETRY] ++ attemptFlds),
        (Reg.RPC_CAUSE_CH_CMD (Ch.num c)).key ≠ f.key := by cases c <;> decide
    rw [State.rdb, hrd fun f hf => hne f (by simp [hf]), chBits_keeps _ _ _ fun f hf => hne f (by simp [hf]),
      chCleared_rd a c (by cases c <;> decide +kernel) (by cases c <;> decide) fun f hf => hne f (List.mem_append_right _ hf)]
    exact State.rdb_wrb_same s (f := Reg.RPC_CAUSE_CH_CMD (Ch.num c)) (by cases c <;> decide) true
  · rw [hrd (by decide)]
    exact hbitC
  · rw [hrd (by decide)]
    exact hbitR
  · rw [hmd, hexcl']
    exact hexcl hin

end Sys2Proof.Claims
end

section
/-! The warm reset (R31, R139): O26. -/

namespace Sys2Proof.Claims

open Sys2Proof Sys2Proof.Machine

variable {s t u : State} {c d : Ch}

/-! ### The save buffers as the controllers read them -/

theorem readStore_miuOp (s : State) (c : Ch) (lo n : Nat) : MiuOp s (s.readStore c lo n).2 := by
  unfold State.readStore
  refine MiuOp.foldl (fun p cw => ?_) _ (([] : List (Nat × BitVec 64 × Bool)), s)
  exact MiuOp.readTagCw p.2 c cw _

theorem ccuStops_steady (s : State) (c : Ch) : Steady s (s.ccuStops c) := by
  unfold State.ccuStops
  dsimp only
  have h : Steady s (((s.modCh c fun h => { h with ccuStop := true }).wrb (Reg.MIU_EVENT_CCU_PSN (Ch.num c)) true).wr (Reg.LEN_STATUS_RUN (Ch.num c)) 0) :=
    ((Steady.modCh s c rfl rfl).trans (Steady.wrb (by cases c <;> decide) _ true)).trans (Steady.wr (by cases c <;> decide) _ 0)
  split
  · exact h.trans (Steady.modMd _ _ rfl rfl)
  · exact h

theorem ccuReads_steady (s : State) (c : Ch) (lo n : Nat) : Steady s (s.ccuReads c lo n) := by
  unfold State.ccuReads
  dsimp only
  split
  · exact (readStore_miuOp s c lo n).steady.trans (ccuStops_steady _ c)
  · exact (readStore_miuOp s c lo n).steady

theorem savedRet_miuOp (s : State) (c : Ch) : MiuOp s (s.savedRet c).2 := by
  unfold State.savedRet
  split
  · exact MiuOp.refl s
  · exact readStore_miuOp s c _ _

theorem savedRets_miuOp (s : State) (cs : List Ch) : MiuOp s (s.savedRets cs).2 := by
  unfold State.savedRets
  refine MiuOp.foldl (fun p c => ?_) cs (([] : List (FMap (Psn Word))), s)
  have h := savedRet_miuOp p.2 c
  split
  · next hr => rwa [hr] at h
  · next hr => rwa [hr] at h

theorem warmRet_steady (s : State) : Steady s s.warmRet.2 := by
  unfold State.warmRet
  dsimp only
  exact (Steady.foldSt (fun c s => ccuReads_steady s c _ _) _ s).trans (savedRets_miuOp _ _).steady

/-! ### The program restarts -/

theorem restartCh_steady (s : State) (c : Ch) (ret : FMap Word) : Steady s (s.restartCh c ret) := by
  unfold State.restartCh
  exact (Steady.modCh s c rfl rfl).trans (MiuOp.flipAmong _ c _ _).steady

theorem ucAfterWarm_steady (s : State) (c : Ch) : Steady s (s.ucAfterWarm c) := by
  unfold State.ucAfterWarm
  dsimp only
  split
  · exact Steady.wr (by cases c <;> decide) s 3
  · exact (((Steady.wr (by cases c <;> decide) s 0).trans (Steady.wr (by cases c <;> decide) _ 0)).trans
      (Steady.wr (by cases c <;> decide) _ 0)).trans (Steady.modCh _ c rfl rfl)
  · exact Steady.refl s

theorem setTarget_steady (s : State) (v : Option Nat) : Steady s (s.setTarget v) := by
  unfold State.setTarget
  exact ((Steady.wrb (by decide) s _).trans (Steady.wr (by decide) _ _)).trans (Steady.wr (by decide) _ _)

theorem commitResult_steady (s : State) (r : Nat) : Steady s (s.commitResult r) := by
  unfold State.commitResult
  exact (Steady.wr (by decide) s r).trans (Steady.wr (by decide) _ _)

theorem prgRegs_steady (s : State) : Steady s s.prgRegs :=
  Steady.of_keepsRegs (prgRegs_keeps s) (by decide) (by rw [prgRegs_frame]) (by rw [prgRegs_frame]) (by rw [prgRegs_frame])

theorem commitAtWarm_steady (s : State) : Steady s s.commitAtWarm := by
  unfold State.commitAtWarm
  have h := (Steady.foldSt (fun c s => ucAfterWarm_steady s c) Ch.all s).trans (setTarget_steady _ none)
  exact (Steady.ite (h.trans (commitResult_steady _ 2)) h).trans (prgRegs_steady _)

theorem clearForces_steady (s : State) : Steady s s.clearForces ∧ s.clearForces.forces = [] := by
  have h : Steady { s with forces := [] } s.clearForces := Steady.foldSt (fun c s => (MiuOp.storeWritten s c _ 512).steady) Ch.all _
  exact ⟨⟨h.regs, h.mode, h.role, h.eligible, fun _ => h.forces rfl⟩, h.forces rfl⟩

/-- The kind of a restart, once the force table is clear. -/
def restartNoted (s : State) (k : Restart) : State :=
  s.ptnRestart.modMd fun x => { x with
    restart := k, firstCold := k = .cold, firstWarm := k = .warm, firstCommit := false, firstResume := false, commitDue := false }

theorem restartModule_eq (s : State) (k : Restart) : s.restartModule k = restartNoted s.clearForces k := by rfl

theorem restartNoted_steady (s : State) (k : Restart) :
    Steady s (restartNoted s k) ∧ (restartNoted s k).forces = s.forces ∧ (restartNoted s k).md.restart = k :=
  ⟨⟨fun _ _ => rfl, rfl, rfl, fun _ => rfl, id⟩, rfl, rfl⟩

theorem restartModule_steady (s : State) (k : Restart) : Steady s (s.restartModule k) ∧ (s.restartModule k).forces = [] ∧ (s.restartModule k).md.restart = k := by
  obtain ⟨h, hforces⟩ := clearForces_steady s
  obtain ⟨h', hforces', hrestart⟩ := restartNoted_steady s.clearForces k
  rw [restartModule_eq]
  exact ⟨h.trans h', hforces'.trans hforces, hrestart⟩

theorem warmRestart_steady (s : State) (cs : List Ch) (ret : FMap Word) :
    Steady s (s.warmRestart cs ret) ∧ (s.warmRestart cs ret).forces = [] ∧ (s.warmRestart cs ret).md.restart = .warm := by
  unfold State.warmRestart
  obtain ⟨h, hforces, hrestart⟩ := restartModule_steady (foldSt cs (fun c s => s.restartCh c ret) s).commitAtWarm .warm
  exact ⟨((Steady.foldSt (fun c s => restartCh_steady s c ret) cs s).trans (commitAtWarm_steady _)).trans h, hforces, hrestart⟩

/-! ### The outputs are held (R31) -/

/-- An output that is not latched is held, its timed command dropped. -/
def outHeld (s : State) (o : Nat) : State := if s.latchCode o = 0 then (s.dropDue o).wrb (Reg.SIO_OUT_STAT_HOLD o) true else s

/-- Every output that is not latched is held. -/
def allHeld (s : State) : State := foldSt out12 (fun o s => outHeld s o) s

/-- The time of a hold, and whether the fallback holds with it. -/
def holdNoted (s : State) (now : Nat) (fallback : Bool) : State :=
  (s.modSio fun x => { x with holdLeft := some now }).modDlk fun x => { x with fbHold := fallback }

theorem holdNoted_regs (s : State) (now : Nat) (fallback : Bool) : (holdNoted s now fallback).regs = s.regs := by rfl

theorem holdNoted_frame (s : State) (now : Nat) (fallback : Bool) :
    holdNoted s now fallback = { s with sio := (holdNoted s now fallback).sio, dlk := (holdNoted s now fallback).dlk } := by rfl

/-- Every output held, where the role drives them. -/
def outsHeld (s : State) : State :=
  if s.md.role = .solo || s.md.role = .active then
    holdNoted (allHeld s) s.tm.opNs (s.rdb Reg.DLK_STATUS_FALLBACK)
  else s

theorem outHeld_rd (s : State) {o : Nat} {g : Fld} (hhold : g.key ≠ (Reg.SIO_OUT_STAT_HOLD o).key) (hpend : g.key ≠ (Reg.SIO_OUT_STAT_PEND o).key) :
    (outHeld s o).rd g = s.rd g := by
  unfold outHeld
  split
  · rw [State.rd_wrb_ne _ (Reg.SIO_OUT_STAT_HOLD o) g _ hhold, State.dropDue, State.rd_wrb_ne _ (Reg.SIO_OUT_STAT_PEND o) g _ hpend]
    rfl
  · rfl

theorem outHeld_frame (s : State) (o : Nat) : outHeld s o = { s with regs := (outHeld s o).regs, sio := (outHeld s o).sio } := by
  unfold outHeld
  split <;> rfl

theorem outHeld_latch (s : State) (o p : Nat) : (outHeld s o).latchCode p = s.latchCode p := by
  refine outHeld_rd s ?_ ?_
  · simp only [Fld.key, Reg.SIO_OUT_STAT_LATCH, Reg.SIO_OUT_STAT_HOLD]
    omega
  · simp only [Fld.key, Reg.SIO_OUT_STAT_LATCH, Reg.SIO_OUT_STAT_PEND]
    omega

theorem outHeld_holds (s : State) {o : Nat} (h : s.latchCode o = 0) : (outHeld s o).rdb (Reg.SIO_OUT_STAT_HOLD o) = true := by
  unfold outHeld
  rw [if_pos h]
  exact State.rdb_wrb_same _ (f := Reg.SIO_OUT_STAT_HOLD o) (show (1 : Nat) ≠ 0 by decide) true

theorem outHeld_keeps_hold (s : State) {o p : Nat} (h : p ≠ o) : (outHeld s o).rdb (Reg.SIO_OUT_STAT_HOLD p) = s.rdb (Reg.SIO_OUT_STAT_HOLD p) := by
  rw [State.rdb, outHeld_rd s ?_ ?_, State.rdb]
  · simp only [Fld.key, Reg.SIO_OUT_STAT_HOLD]
    omega
  · simp only [Fld.key, Reg.SIO_OUT_STAT_HOLD, Reg.SIO_OUT_STAT_PEND]
    omega

theorem allHeld_hold {o : Nat} (ho : o < 12) (h : s.latchCode o = 0) : (allHeld s).rdb (Reg.SIO_OUT_STAT_HOLD o) = true := by
  refine foldSt_established (P := fun t => t.latchCode o = 0) (Q := fun t => t.rdb (Reg.SIO_OUT_STAT_HOLD o) = true) (x := o) (List.mem_range.2 ho)
    (fun p _ t ht => (outHeld_latch t p o).trans ht) (fun t ht => outHeld_holds t ht) (fun p _ t ht hq => ?_) h
  by_cases hp : o = p
  · subst hp
    exact outHeld_holds t ht
  · exact (outHeld_keeps_hold t hp).trans hq

theorem allHeld_frame (s : State) : allHeld s = { s with regs := (allHeld s).regs, sio := (allHeld s).sio } := by
  refine foldSt_inv (P := fun t => t = { s with regs := t.regs, sio := t.sio }) (fun o _ t ht => ?_) (by rfl)
  rw [outHeld_frame t o, ht]

theorem allHeld_rd (s : State) {g : Fld} (hg : g.key < 0x00900500 * 32 ∨ 0x00900530 * 32 ≤ g.key) : (allHeld s).rd g = s.rd g := by
  refine foldSt_inv (P := fun t => t.rd g = s.rd g) (fun o ho t ht => (outHeld_rd t ?_ ?_).trans ht) rfl
  · have := mem_out12 ho
    simp only [Fld.key, Reg.SIO_OUT_STAT_HOLD] at hg ⊢
    omega
  · have := mem_out12 ho
    simp only [Fld.key, Reg.SIO_OUT_STAT_PEND] at hg ⊢
    omega

theorem outsHeld_regs (s : State) : (outsHeld s).regs = (if s.md.role = .solo || s.md.role = .active then allHeld s else s).regs := by
  unfold outsHeld
  split
  · exact holdNoted_regs _ _ _
  · rfl

theorem outsHeld_frame (s : State) : outsHeld s = { s with regs := (outsHeld s).regs, sio := (outsHeld s).sio, dlk := (outsHeld s).dlk } := by
  unfold outsHeld
  split
  · rw [holdNoted_frame, allHeld_frame]
  · rfl

theorem outsHeld_hold (hrole : s.md.role = .solo ∨ s.md.role = .active) {o : Nat} (ho : o < 12) (h : s.latchCode o = 0) :
    (outsHeld s).rdb (Reg.SIO_OUT_STAT_HOLD o) = true := by
  rw [State.rdb, State.rd_congr (outsHeld_regs s), if_pos (by simpa using hrole)]
  exact allHeld_hold ho h

theorem outsHeld_rd (s : State) {g : Fld} (hg : g.key < 0x00900500 * 32 ∨ 0x00900530 * 32 ≤ g.key) : (outsHeld s).rd g = s.rd g := by
  rw [State.rd_congr (outsHeld_regs s)]
  split
  · exact allHeld_rd s hg
  · rfl

/-! ### W asserts -/

/-- The cause of W and its hold are recorded. -/
def warmCaused (s : State) : State := (s.wrb Reg.RPC_CAUSE_WARM_CMD true).wrb Reg.RPC_RESET_W true

/-- The program restarts with the data given, and stands. -/
def warmRestarted (s : State) (n : Nat) (ret : FMap Word) : State :=
  let a := s.noteNomaj n
  enginesStopped (a.warmRestart (Ch.all.filter a.eligible) ret)

/-- W's registers reset and the outputs held. -/
def warmHeld (s : State) : State := outsHeld (s.resetRegs fun f => f.reaches .w)

/-- The cycles for which W is held are counted. -/
def warmCounted (s : State) : State := s.modMd fun x => { x with wHold := s.warmCycles + 1, halted := false, heldBatch := false }

theorem warmCounted_steady (s : State) : Steady s (warmCounted s) ∧ (warmCounted s).forces = s.forces ∧
    (warmCounted s).md.restart = s.md.restart ∧ (warmCounted s).md.wHold = s.warmCycles + 1 :=
  ⟨⟨fun _ _ => rfl, rfl, rfl, fun _ => rfl, id⟩, rfl, rfl, rfl⟩

theorem warmCounted_rd (s : State) (g : Fld) : (warmCounted s).rd g = s.rd g := State.rd_congr (by rfl) g

theorem warmCaused_rd (s : State) {g : Fld} (hcause : g.key ≠ Reg.RPC_CAUSE_WARM_CMD.key) (hreset : g.key ≠ Reg.RPC_RESET_W.key) :
    (warmCaused s).rd g = s.rd g :=
  (State.rd_wrb_ne _ Reg.RPC_RESET_W g true hreset).trans (State.rd_wrb_ne s Reg.RPC_CAUSE_WARM_CMD g true hcause)

theorem warmCaused_bits (s : State) : (warmCaused s).rdb Reg.RPC_CAUSE_WARM_CMD = true ∧ (warmCaused s).rdb Reg.RPC_RESET_W = true := by
  refine ⟨?_, State.rdb_wrb_same _ (f := Reg.RPC_RESET_W) (by decide) true⟩
  exact (State.rdb_wrb_ne _ (f := Reg.RPC_RESET_W) (g := Reg.RPC_CAUSE_WARM_CMD) true (by decide)).trans
    (State.rdb_wrb_same s (f := Reg.RPC_CAUSE_WARM_CMD) (by decide) true)

theorem warmAssert_eq (s : State) : s.warmAssert =
    (warmCounted (warmHeld (warmRestarted (warmCaused s.warmRet.2) s.warmRet.1.1 s.warmRet.1.2))).setMode .startup 0x18 0 := by
  unfold State.warmAssert
  generalize s.warmRet = r
  obtain ⟨⟨n, ret⟩, a⟩ := r
  dsimp only
  unfold warmHeld warmCounted outsHeld
  rfl

theorem warmRestarted_steady (s : State) (n : Nat) (ret : FMap Word) :
    Steady s (warmRestarted s n ret) ∧ (warmRestarted s n ret).forces = [] ∧ (warmRestarted s n ret).md.restart = .warm := by
  have hnote : Steady s (s.noteNomaj n) := by
    unfold State.noteNomaj
    exact (Steady.wr (by decide) s n).trans (Steady.of_diag _)
  obtain ⟨h, hforces, hrestart⟩ := warmRestart_steady (s.noteNomaj n) (Ch.all.filter (s.noteNomaj n).eligible) ret
  unfold warmRestarted
  have hstop := Steady.enginesStopped ((s.noteNomaj n).warmRestart (Ch.all.filter (s.noteNomaj n).eligible) ret)
  exact ⟨(hnote.trans h).trans hstop, hstop.forces hforces, by rw [enginesStopped_md, hrestart]⟩

theorem rdb_of_rd {f : Fld} (h : t.rd f = s.rd f) : t.rdb f = s.rdb f := by rw [State.rdb, h, State.rdb]

theorem outsideCause_of {g : Fld} (h : ∀ f ∈ causeFlds ++ logFlds, g.key ≠ f.key) : outsideCause g := h

theorem resetRegs_md (s : State) (p : Fld → Bool) : (s.resetRegs p).md = s.md := by rfl

theorem moved_from {src dst : Mode} {cause : Nat} (h : moved t u src dst cause) (hseq : t.rd Reg.MOD_CAUSE_SEQ = s.rd Reg.MOD_CAUSE_SEQ) :
    moved s u src dst cause := by
  unfold moved at *
  rwa [hseq] at h

/-- The registers at the end of W's assertion, before the mode changes: what W reset apart, those of the state before. -/
theorem warmHeld_rd (s : State) {n : Nat} {ret : FMap Word} {g : Fld} (hlisted : listed g = true) (hreach : g.reaches .w = false)
    (hworked : worked g.key = false) (hout : g.key < 0x00900500 * 32 ∨ 0x00900530 * 32 ≤ g.key) :
    (warmHeld (warmRestarted s n ret)).rd g = s.rd g := by
  unfold warmHeld
  rw [outsHeld_rd _ hout, rd_resetRegs_kept hlisted hreach]
  exact (warmRestarted_steady s n ret).1.regs g hworked

theorem warmHeld_frame (s : State) : warmHeld s = { s with regs := (warmHeld s).regs, sio := (warmHeld s).sio, dlk := (warmHeld s).dlk } := by
  unfold warmHeld
  rw [outsHeld_frame, resetRegs_frame]

theorem warmCycles_congr (hmode : t.md.mode = s.md.mode) (htbc : t.rd Reg.TMU_CYC_CFG_TBC_CODE = s.rd Reg.TMU_CYC_CFG_TBC_CODE) :
    t.warmCycles = s.warmCycles := by
  unfold State.warmCycles State.tbc
  rw [hmode, htbc]

/-- The latch of an output is a field that W does not reach. -/
theorem latch_stays {o : Nat} (ho : o < 12) : listed (Reg.SIO_OUT_STAT_LATCH o) = true ∧ (Reg.SIO_OUT_STAT_LATCH o).reaches .w = false ∧
    worked (Reg.SIO_OUT_STAT_LATCH o).key = false := by
  have h : ∀ o < 12, listed (Reg.SIO_OUT_STAT_LATCH o) = true ∧ (Reg.SIO_OUT_STAT_LATCH o).reaches .w = false ∧
    worked (Reg.SIO_OUT_STAT_LATCH o).key = false := by decide +kernel
  exact h o ho

theorem hold_outsideCause {o : Nat} (ho : o < 12) : worked (Reg.SIO_OUT_STAT_HOLD o).key = false ∧ outsideCause (Reg.SIO_OUT_STAT_HOLD o) := by
  have h : ∀ o < 12, worked (Reg.SIO_OUT_STAT_HOLD o).key = false ∧ ∀ f ∈ causeFlds ++ logFlds, (Reg.SIO_OUT_STAT_HOLD o).key ≠ f.key := by decide
  exact h o ho

theorem warmReset_effect (s : State) : let u := s.warmAssert
    moved s u s.md.mode .startup 0x18 ∧ u.forces = [] ∧
      u.rdb Reg.RPC_CAUSE_WARM_CMD = true ∧ u.rdb Reg.RPC_RESET_W = true ∧ u.md.wHold = s.warmCycles + 1 ∧ u.md.plumb = 0 ∧
      u.md.restart = .warm ∧ (∀ c, s.eligible c = true → (u.ch c).st = .vote) ∧
      (s.md.role = .solo ∨ s.md.role = .active → ∀ o < 12, s.latchCode o = 0 → u.rdb (Reg.SIO_OUT_STAT_HOLD o) = true) := by
  intro u
  let a := s.warmRet.2
  let k := warmCaused a
  let r := warmRestarted k s.warmRet.1.1 s.warmRet.1.2
  let w := warmHeld r
  let v := warmCounted w
  have hu : u = v.setMode .startup 0x18 0 := warmAssert_eq s
  have ha : Steady s a := warmRet_steady s
  obtain ⟨hr, hforces, hrestart⟩ := warmRestarted_steady k s.warmRet.1.1 s.warmRet.1.2
  obtain ⟨hmoved, hempty, hvote, ⟨hkeptRestart, hkeptHold⟩, hplumb, hregs⟩ := setMode_startup v (cause := 0x18) (by decide) 0
  have hframe : w = _ := warmHeld_frame r
  have hmd : w.md = r.md := by rw [hframe]
  obtain ⟨hcounted, hcountedForces, hcountedRestart, hcountedHold⟩ := warmCounted_steady w
  have hmode : w.md.mode = s.md.mode := (congrArg ModSt.mode hmd).trans (hr.mode.trans ha.mode)
  have hrd {g : Fld} (hlisted : listed g = true) (hreach : g.reaches .w = false) (hworked : worked g.key = false)
      (hout : g.key < 0x00900500 * 32 ∨ 0x00900530 * 32 ≤ g.key) : w.rd g = k.rd g := warmHeld_rd k hlisted hreach hworked hout
  have hv {g : Fld} (hlisted : listed g = true) (hreach : g.reaches .w = false) (hworked : worked g.key = false)
      (hout : g.key < 0x00900500 * 32 ∨ 0x00900530 * 32 ≤ g.key) : v.rd g = k.rd g :=
    (warmCounted_rd w g).trans (hrd hlisted hreach hworked hout)
  have hseq : v.rd Reg.MOD_CAUSE_SEQ = s.rd Reg.MOD_CAUSE_SEQ :=
    ((hv (by decide +kernel) (by decide) (by decide) (by decide)).trans (warmCaused_rd a (by decide) (by decide))).trans (ha.regs _ (by decide))
  have htbc : w.rd Reg.TMU_CYC_CFG_TBC_CODE = s.rd Reg.TMU_CYC_CFG_TBC_CODE :=
    ((hrd (by decide +kernel) (by decide) (by decide) (by decide)).trans (warmCaused_rd a (by decide) (by decide))).trans (ha.regs _ (by decide))
  obtain ⟨hcause, hreset⟩ := warmCaused_bits a
  rw [hu]
  refine ⟨?_, hempty ?_, ?_, ?_, ?_, hplumb, ?_, fun c hc => hvote c ?_, fun hrole o ho hlatch => ?_⟩
  · have hmode' : v.md.mode = s.md.mode := hcounted.mode.trans hmode
    rw [← hmode']
    exact moved_from hmoved hseq
  · have hkept : w.forces = r.forces := by rw [hframe]
    rw [hcountedForces, hkept, hforces]
  · have hkept := (hregs Reg.RPC_CAUSE_WARM_CMD (by decide) (outsideCause_of (by decide))).trans (hv (by decide +kernel) (by decide) (by decide) (by decide))
    exact (rdb_of_rd hkept).trans hcause
  · have hkept := (hregs Reg.RPC_RESET_W (by decide) (outsideCause_of (by decide))).trans (hv (by decide +kernel) (by decide) (by decide) (by decide))
    exact (rdb_of_rd hkept).trans hreset
  · rw [hkeptHold, hcountedHold, warmCycles_congr hmode htbc]
  · rw [hkeptRestart, hcountedRestart, hmd, hrestart]
  · have hchs : w.chs = r.chs := by rw [hframe]
    have hstand : w.eligible c = r.eligible c := eligible_congr (by rw [State.ch, hchs, State.ch]) (by rw [State.ch, hchs, State.ch])
    exact (hcounted.eligible c).trans (hstand.trans ((hr.eligible c).trans ((ha.eligible c).trans hc)))
  · obtain ⟨hworked, houtside⟩ := hold_outsideCause ho
    obtain ⟨hlisted, hreach, hworked'⟩ := latch_stays ho
    refine (rdb_of_rd ((hregs _ hworked houtside).trans (warmCounted_rd w _))).trans ?_
    have hrole' : (r.resetRegs fun f => f.reaches .w).md.role = s.md.role :=
      (congrArg ModSt.role (resetRegs_md r _)).trans (hr.role.trans ha.role)
    have hkey (f : Fld) (hf : 0x1000000 * 32 ≤ f.key) : (Reg.SIO_OUT_STAT_LATCH o).key ≠ f.key := by
      simp only [Fld.key, Reg.SIO_OUT_STAT_LATCH] at hf ⊢
      omega
    refine outsHeld_hold (s := r.resetRegs fun f => f.reaches .w) (by rwa [hrole']) ho ?_
    exact (rd_resetRegs_kept hlisted hreach r).trans ((hr.regs _ hworked').trans
      ((warmCaused_rd a (hkey _ (by decide)) (hkey _ (by decide))).trans ((ha.regs _ hworked').trans hlatch)))

/-- The command runs as any other where no save holds it (R515). -/
theorem execWarmReset_apply {seq : BitVec 16} {port : CmdPort} {w1 w2 w3 : Word} (hsave : s.rpc.save = none) :
    execWarmReset (atTc seq port w1 w2 w3) s = .next (s.cmd 0x03 (atTc seq port w1 w2 w3) applyWarmReset) := by
  have h : execWarmReset (atTc seq port w1 w2 w3) s = .next (if s.hostAlive && s.rpc.save.isSome then (s.wrb (mCause .warm) true).holdSource .warm
    else s.cmd 0x03 (atTc seq port w1 w2 w3) applyWarmReset) := by rfl
  rw [h, if_neg (by simp [hsave])]

theorem warmReset_claim (hfrom : s.fromStartup = true) (w1 w2 w3 : Word) :
    takesEffect .warmReset 0x03 s w1 w2 w3 fun s u => moved s u s.md.mode .startup 0x18 ∧ u.forces = [] ∧
      u.rdb Reg.RPC_CAUSE_WARM_CMD = true ∧ u.rdb Reg.RPC_RESET_W = true ∧ u.md.wHold = s.warmCycles + 1 ∧ u.md.plumb = 0 ∧
      u.md.restart = .warm ∧ (∀ c, s.eligible c = true → (u.ch c).st = .vote) ∧
      (s.md.role = .solo ∨ s.md.role = .active → ∀ o < 12, s.latchCode o = 0 → u.rdb (Reg.SIO_OUT_STAT_HOLD o) = true) := by
  intro seq port hready
  have heff : applyWarmReset (taken s seq) = .ok (taken s seq).warmAssert := needs_true hfrom _ _
  refine ⟨(taken s seq).warmAssert, (taken s seq).warmAssert.complete seq 0x03 0 (s.tm.cyc % 2 ^ 32), ?_, warmReset_effect (taken s seq),
    (complete_posted _ seq (by decide) (by decide) (cyc_word_lt s)).1⟩
  have hx : exec (.warmReset (atTc seq port w1 w2 w3)) s = execWarmReset (atTc seq port w1 w2 w3) s := by rfl
  rw [hx, execWarmReset_apply hready.2.1]
  exact congrArg _ (cmd_effect (code := 0x03) hready heff)

/-- Settles O26: M through `assertM_asserted`, the save through `startSave_saving`, a channel's reset and the warm reset by their effects. -/
theorem moduleAndChannelResets : Obligations.ModuleAndChannelResets := fun s _ port w1 w2 w3 =>
  ⟨modReset_claim port w1 w2 w3, fun ns hsave hpor _ hnv => saveComplete_module_claim ns hsave hpor hnv,
    fun ns hsave => saveComplete_supply_claim ns hsave, fun ns => mrstN_claim s ns,
    fun hfrom _ hw hvote => takesEffect_of (code := 0x04) (fun r => applyChReset r.w1) (fun _ => rfl)
      fun seq _ _ => chReset_effect (s := taken s seq) hfrom hw hvote,
    fun hfrom => warmReset_claim hfrom w1 w2 w3⟩

end Sys2Proof.Claims
end

section
/-! The release of P and M (R277, R510, R516, R519, R521): O27. -/

namespace Sys2Proof.Claims

open Sys2Proof Sys2Proof.Machine

variable {s t u : State} {c d : Ch}

/-! ### The DLK's evaluation outside its registers -/

theorem driveLow_below (s : State) {g : Fld} (hg : belowOuts g) : (driveLow s).rd g = s.rd g :=
  (driveLow_outOp s).below g hg

/-- A field outside the DLK's own and the outputs'. -/
def besideDlk (g : Fld) : Prop :=
  (belowOuts g ∨ fromDlk g) ∧ ∀ f ∈ dlkEvalFlds ++ [Reg.DLK_STATUS_FAULT, Reg.DLK_STATUS_FAULT_CODE, Reg.DLK_EVENT_FAULT_SET] ++ logFlds, g.key ≠ f.key

theorem dlkEval_rd_beside (s : State) {g : Fld} (h : besideDlk g) : s.dlkEval.rd g = s.rd g := by
  obtain ⟨hplace, hne⟩ := h
  have hg : ∀ f ∈ dlkEvalFlds, g.key ≠ f.key := fun f hf => hne f (by simp [hf])
  obtain hbelow | hfrom := hplace
  · rw [dlkEval_eq, dlkRegs_rd _ fun f hf => hg f (List.mem_append_left _ hf), driveLow_below _ hbelow,
      State.rd_wr_ne _ Reg.DLK_STATUS_OUT g _ (hg _ (by simp [dlkEvalFlds])), beforeOut_rd s hg]
  · exact dlkEval_rd s hfrom hg

theorem dlkFaultSet_rd_beside (s : State) (code : Nat) {g : Fld} (h : besideDlk g) : (s.dlkFaultSet code).rd g = s.rd g := by
  by_cases hf : s.rdb Reg.DLK_STATUS_FAULT = true
  · rw [dlkFaultSet_stands s code hf]
  · have hne := h.2
    have hregs : (faultMarks s code).rd g = (faultRegs s code).rd g := by rfl
    rw [dlkFaultSet_eq s code (Bool.eq_false_iff.2 hf), diag_rd_dlk _ _ _ _ _ _ fun f hf => hne f (by simp [hf]), dlkEval_rd_beside _ h, hregs, faultRegs,
      State.rd_wrb_ne _ _ g _ (hne Reg.DLK_EVENT_FAULT_SET (by simp)), State.rd_wr_ne _ _ g _ (hne Reg.DLK_STATUS_FAULT_CODE (by simp)),
      State.rd_wrb_ne _ _ g _ (hne Reg.DLK_STATUS_FAULT (by simp))]

theorem dlkFaultSet_frame (s : State) {code : Nat} (hcode : code < 16) :
    s.dlkFaultSet code = { s with regs := (s.dlkFaultSet code).regs, dlk := (s.dlkFaultSet code).dlk, rcd := (s.dlkFaultSet code).rcd,
                                  sio := { s.sio with outs := (s.dlkFaultSet code).sio.outs } } := by
  by_cases hf : s.rdb Reg.DLK_STATUS_FAULT = true
  · rw [dlkFaultSet_stands s code hf]
  · obtain ⟨-, -, -, -, -, hframe, -⟩ := dlkFaultSet_sets s hcode (Bool.eq_false_iff.2 hf)
    exact hframe

/-! ### The field domain starts -/

theorem dlkRelease_eq (s : State) (a b : BitVec 8) : s.dlkRelease a b =
    if a ≠ b || a.msb then ((s.modDlk fun _ => DlkSt.init).wr Reg.DLK_CFG_SW_D a.toNat).dlkFaultSet 5
    else (s.modDlk fun _ => DlkSt.init).wr Reg.DLK_CFG_SW_D a.toNat := by rfl

theorem dlkRelease_rd (s : State) (a b : BitVec 8) {g : Fld} (h : besideDlk g) (hne : g.key ≠ Reg.DLK_CFG_SW_D.key) : (s.dlkRelease a b).rd g = s.rd g := by
  have hwr : ((s.modDlk fun _ => DlkSt.init).wr Reg.DLK_CFG_SW_D a.toNat).rd g = s.rd g :=
    State.rd_wr_ne (s.modDlk fun _ => DlkSt.init) Reg.DLK_CFG_SW_D g _ hne
  rw [dlkRelease_eq]
  split
  · rw [dlkFaultSet_rd_beside _ 5 h, hwr]
  · exact hwr

theorem besideDlk_of {g : Fld} (hplace : g.key < 0x00900500 * 32 ∨ 0x00A00000 * 32 ≤ g.key)
    (hne : ∀ f ∈ dlkEvalFlds ++ [Reg.DLK_STATUS_FAULT, Reg.DLK_STATUS_FAULT_CODE, Reg.DLK_EVENT_FAULT_SET] ++ logFlds, g.key ≠ f.key) : besideDlk g :=
  ⟨hplace, hne⟩

theorem dlkRelease_swD (s : State) (a b : BitVec 8) : (s.dlkRelease a b).rd Reg.DLK_CFG_SW_D = a.toNat := by
  have hwr : ((s.modDlk fun _ => DlkSt.init).wr Reg.DLK_CFG_SW_D a.toNat).rd Reg.DLK_CFG_SW_D = a.toNat :=
    State.rd_wr_of_lt _ (f := Reg.DLK_CFG_SW_D) a.isLt
  rw [dlkRelease_eq]
  split
  · rw [dlkFaultSet_rd_beside _ 5 (besideDlk_of (by decide) (by decide)), hwr]
  · exact hwr

theorem dlkRelease_frame (s : State) (a b : BitVec 8) : s.dlkRelease a b = { s with
    regs := (s.dlkRelease a b).regs, dlk := (s.dlkRelease a b).dlk, rcd := (s.dlkRelease a b).rcd,
    sio := { s.sio with outs := (s.dlkRelease a b).sio.outs } } := by
  rw [dlkRelease_eq]
  split
  · rw [dlkFaultSet_frame _ (show 5 < 16 by decide)]
    rfl
  · rfl

/-- The switches latched by the rails of the DLK, from those read. -/
def railSwitches (s : State) : BitVec 8 := BitVec.ofNat 8 (swD (maj3 s.sio.swRead.a s.sio.swRead.b s.sio.swRead.c))

/-- The sense stages and outputs anew, the switches read. -/
def fieldAnew (s : State) : State :=
  (s.resetRegs fun f => f.reaches .m && (f.off / 0x100000 = 9 || f.off / 0x100000 = 10)).modSio fun x =>
    { SioSt.init with cells := x.cells, railErr := x.railErr, swRead := x.swRead, swAt := x.swRead,
                      swLast := maj3 s.sio.swRead.a s.sio.swRead.b s.sio.swRead.c }

theorem fieldRelease_eq (s : State) : s.fieldRelease =
    (fieldAnew s).dlkRelease (railSwitches s ^^^ s.sio.railErr.1) (railSwitches s ^^^ s.sio.railErr.2) := by rfl

theorem fieldRelease_frame (s : State) : s.fieldRelease = { s with
    regs := s.fieldRelease.regs, dlk := s.fieldRelease.dlk, rcd := s.fieldRelease.rcd, sio := s.fieldRelease.sio } := by
  rw [fieldRelease_eq, dlkRelease_frame]
  rfl

theorem fieldRelease_swAt (s : State) : s.fieldRelease.sio.swAt = s.sio.swRead := by
  rw [fieldRelease_eq, dlkRelease_frame]
  rfl

/-- A listed field of another block. -/
theorem fieldRelease_rd (s : State) {g : Fld} (hlisted : listed g = true) (hblock : (g.off / 0x100000 = 9 || g.off / 0x100000 = 10 : Bool) = false)
    (hbeside : besideDlk g) (hne : g.key ≠ Reg.DLK_CFG_SW_D.key) : s.fieldRelease.rd g = s.rd g := by
  rw [fieldRelease_eq, dlkRelease_rd _ _ _ hbeside hne]
  exact rd_resetRegs_kept hlisted (by rw [hblock, Bool.and_false]) s

/-! ### What the release writes -/

def strapFlds : List Fld := [Reg.RPC_STRAP_BOOT_SRC, Reg.RPC_STRAP_CLK_MODE, Reg.RPC_STRAP_TWIN_POS,
  Reg.RPC_STRAP_BOOT_SRC_LIVE, Reg.RPC_STRAP_CLK_MODE_LIVE, Reg.RPC_STRAP_TWIN_POS_LIVE]

def monitorFlds : List Fld := [Reg.RPC_SUPPLY_VMA, Reg.RPC_SUPPLY_VMB, Reg.RPC_VKA_VKA_MV, Reg.RPC_VKA_VKA_LOW]

def keyFlds : List Fld := [Reg.SEC_KEYS_ROLLBACK, Reg.SEC_KEYS_ROOT_SET, Reg.SEC_KEYS_ROOT_REVOKED, Reg.SEC_KEYS_FLEET]

/-- The straps sampled, in BOOT. -/
def strapped (s : State) : State := ((s.modRpc fun x => { x with por := false, mod := false }).modMd fun x => { x with mode := .boot }).sampleStraps

/-- The domains out of reset, with their outputs clamped. -/
def unreset (s : State) : State := ((strapped s).supplyRegs.wr Reg.RPC_RESET_IN_RESET 0).wr Reg.MOD_DOMAIN_CLAMP 0xFE

/-- The channels boot. -/
def chansBoot (s : State) : State :=
  foldSt Ch.all (fun c s => (s.modCh c fun h => { h with st := .booting }).wr (Reg.CCU_STATUS_STAGE (Ch.num c)) 1) s

/-- The strobe is the RPC's, and the host's link trains. -/
def linkTrains (s : State) : State := ({ s with tm := { s.tm with rpcStrobe := true } } : State).wr Reg.HBR_LINK_STATE 1

theorem release_eq (s : State) : s.release =
    let l := linkTrains (chansBoot (unreset s)).fieldRelease.keyRegs
    l.enqueue (l.event 2 0x01 Src.mod 0 [l.storedWord 0x44, l.modStatus]) := by rfl

theorem keyRegs_keeps (s : State) : keepsRegs s s.keyRegs keyFlds := by
  unfold State.keyRegs
  exact ((((keepsRegs_refl s keyFlds).wr (f := Reg.SEC_KEYS_ROLLBACK) (by decide) _).wr (f := Reg.SEC_KEYS_ROOT_SET) (by decide) _).wr
    (f := Reg.SEC_KEYS_ROOT_REVOKED) (by decide) _).wr (f := Reg.SEC_KEYS_FLEET) (by decide) _

theorem keyRegs_frame (s : State) : s.keyRegs = { s with regs := s.keyRegs.regs } := by rfl

theorem strapped_keeps (s : State) : keepsRegs s (strapped s) strapFlds := by
  unfold strapped State.sampleStraps
  have h : keepsRegs s ((s.modRpc fun x => { x with por := false, mod := false }).modMd fun x => { x with mode := .boot }) strapFlds := keepsRegs_of_eq rfl _
  exact (((((h.wr (f := Reg.RPC_STRAP_BOOT_SRC) (by decide) _).wr (f := Reg.RPC_STRAP_CLK_MODE) (by decide) _).wr (f := Reg.RPC_STRAP_TWIN_POS) (by decide) _).wr
    (f := Reg.RPC_STRAP_BOOT_SRC_LIVE) (by decide) _).wr (f := Reg.RPC_STRAP_CLK_MODE_LIVE) (by decide) _).wr (f := Reg.RPC_STRAP_TWIN_POS_LIVE) (by decide) _

theorem strapped_frame (s : State) : strapped s = { s with
    regs := (strapped s).regs, rpc := { s.rpc with por := false, mod := false }, md := { s.md with mode := .boot } } := by rfl

theorem strapped_straps (s : State) : (strapped s).rd Reg.RPC_STRAP_BOOT_SRC = s.rpc.straps.toNat % 4 ∧
    (strapped s).rd Reg.RPC_STRAP_CLK_MODE = s.rpc.straps.toNat / 4 % 4 ∧ (strapped s).rd Reg.RPC_STRAP_TWIN_POS = s.rpc.straps.toNat / 16 := by
  unfold strapped State.sampleStraps
  have hlt := s.rpc.straps.isLt
  generalize hb : (s.modRpc fun x => { x with por := false, mod := false }).modMd (fun x => { x with mode := .boot }) = b
  have hv : b.rpc.straps = s.rpc.straps := by rw [← hb]; rfl
  rw [← hv] at hlt ⊢
  generalize b.rpc.straps.toNat = v at hlt
  have hlive {g : Fld} (a : State) (hg : ∀ f ∈ [Reg.RPC_STRAP_BOOT_SRC_LIVE, Reg.RPC_STRAP_CLK_MODE_LIVE, Reg.RPC_STRAP_TWIN_POS_LIVE], g.key ≠ f.key) :
      (((a.wr Reg.RPC_STRAP_BOOT_SRC_LIVE v).wr Reg.RPC_STRAP_CLK_MODE_LIVE (v / 4)).wr Reg.RPC_STRAP_TWIN_POS_LIVE (v / 16)).rd g = a.rd g := by
    rw [State.rd_wr_ne _ Reg.RPC_STRAP_TWIN_POS_LIVE g _ (hg _ (by simp)), State.rd_wr_ne _ Reg.RPC_STRAP_CLK_MODE_LIVE g _ (hg _ (by simp)),
      State.rd_wr_ne _ Reg.RPC_STRAP_BOOT_SRC_LIVE g _ (hg _ (by simp))]
  refine ⟨?_, ?_, ?_⟩
  · rw [hlive _ (by decide), State.rd_wr_ne _ Reg.RPC_STRAP_TWIN_POS Reg.RPC_STRAP_BOOT_SRC _ (by decide),
      State.rd_wr_ne _ Reg.RPC_STRAP_CLK_MODE Reg.RPC_STRAP_BOOT_SRC _ (by decide)]
    exact State.rd_wr_same b Reg.RPC_STRAP_BOOT_SRC v
  · rw [hlive _ (by decide), State.rd_wr_ne _ Reg.RPC_STRAP_TWIN_POS Reg.RPC_STRAP_CLK_MODE _ (by decide)]
    exact State.rd_wr_same _ Reg.RPC_STRAP_CLK_MODE (v / 4)
  · rw [hlive _ (by decide)]
    exact State.rd_wr_of_lt _ (f := Reg.RPC_STRAP_TWIN_POS) (show v / 16 < 2 by omega)

theorem supplyRegs_keeps (s : State) : keepsRegs s s.supplyRegs monitorFlds := by
  have h (a : State) (v w k : Nat) (b : Bool) : keepsRegs a ((((a.wr Reg.RPC_SUPPLY_VMA v).wr Reg.RPC_SUPPLY_VMB w).wr Reg.RPC_VKA_VKA_MV k).wrb
      Reg.RPC_VKA_VKA_LOW b) monitorFlds :=
    ((((keepsRegs_refl a monitorFlds).wr (f := Reg.RPC_SUPPLY_VMA) (by decide) v).wr (f := Reg.RPC_SUPPLY_VMB) (by decide) w).wr
      (f := Reg.RPC_VKA_VKA_MV) (by decide) k).wrb (f := Reg.RPC_VKA_VKA_LOW) (by decide) b
  have hfree : keepsRegs s { s with free := s.free + 1 + 1 + 1 } monitorFlds := keepsRegs_of_eq rfl _
  exact hfree.trans (h _ _ _ _ _)

theorem supplyRegs_frame (s : State) : s.supplyRegs = { s with regs := s.supplyRegs.regs, free := s.free + 1 + 1 + 1 } := by rfl

theorem chansBoot_keeps (s : State) : keepsRegs s (chansBoot s) (Ch.all.map fun c => Reg.CCU_STATUS_STAGE (Ch.num c)) := by
  unfold chansBoot
  exact keepsRegs_foldSt (fun c _ t => (keepsRegs_of_eq (by rfl) _).trans (keepsRegs_wr (t.modCh c _) (by cases c <;> decide) 1)) s

theorem chansBoot_frame (s : State) : chansBoot s = { s with regs := (chansBoot s).regs, chs := (chansBoot s).chs } := by rfl

theorem chansBoot_ch (s : State) (c : Ch) : (chansBoot s).ch c = { s.ch c with st := .booting } := by cases c <;> rfl

theorem chansBoot_stage (s : State) (c : Ch) : (chansBoot s).rd (Reg.CCU_STATUS_STAGE (Ch.num c)) = 1 := by
  refine foldSt_established (P := fun _ => True) (Q := fun t => t.rd (Reg.CCU_STATUS_STAGE (Ch.num c)) = 1) (x := c) (mem_chAll c)
    (fun _ _ _ _ => trivial) (fun t _ => State.rd_wr_same _ _ 1) (fun d _ t _ ht => ?_) trivial
  by_cases h : c = d
  · subst h
    exact State.rd_wr_same _ (Reg.CCU_STATUS_STAGE (Ch.num c)) 1
  · rw [State.rd_wr_ne _ (Reg.CCU_STATUS_STAGE (Ch.num d)) (Reg.CCU_STATUS_STAGE (Ch.num c)) 1 (by revert h; cases c <;> cases d <;> decide)]
    exact ht

end Sys2Proof.Claims
end

section
/-! What the release of P or M leaves, and the claims about the supply's fall and return: O27. -/

namespace Sys2Proof.Claims

open Sys2Proof Sys2Proof.Machine

variable {s t u : State} {c d : Ch}

/-! ### The end of a release -/

/-- The state before the release's record. -/
def releasing (s : State) : State := linkTrains (chansBoot (unreset s)).fieldRelease.keyRegs

theorem release_enqueue (s : State) : ∃ e, s.release = (releasing s).enqueue e := ⟨_, release_eq s⟩

/-- A listed field that nothing from the start of the channels on writes. -/
def settled (g : Fld) : Prop :=
  listed g = true ∧ (g.off / 0x100000 = 9 || g.off / 0x100000 = 10 : Bool) = false ∧ (g.key < 0x00900500 * 32 ∨ 0x00A00000 * 32 ≤ g.key) ∧
    (∀ f ∈ dlkEvalFlds ++ [Reg.DLK_STATUS_FAULT, Reg.DLK_STATUS_FAULT_CODE, Reg.DLK_EVENT_FAULT_SET] ++ logFlds, g.key ≠ f.key) ∧
    ∀ f ∈ Reg.DLK_CFG_SW_D :: Reg.HBR_LINK_STATE :: (keyFlds ++ logFlds), g.key ≠ f.key

theorem linkTrains_rd (s : State) {g : Fld} (hg : g.key ≠ Reg.HBR_LINK_STATE.key) : (linkTrains s).rd g = s.rd g :=
  (State.rd_wr_ne { s with tm := { s.tm with rpcStrobe := true } } Reg.HBR_LINK_STATE g 1 hg).trans (State.rd_congr rfl g)

theorem release_rd (s : State) {g : Fld} (h : settled g) : s.release.rd g = (chansBoot (unreset s)).rd g := by
  obtain ⟨hlisted, hblock, hplace, hbeside, hne⟩ := h
  obtain ⟨e, he⟩ := release_enqueue s
  rw [he, keepsRegs_enqueue _ e g fun f hf => hne f (by simp [hf]), releasing, linkTrains_rd _ (hne _ (by simp)),
    keyRegs_keeps _ g fun f hf => hne f (by simp [hf]), fieldRelease_rd _ hlisted hblock (besideDlk_of hplace hbeside) (hne _ (by simp))]

/-- A listed field that the whole release leaves. -/
theorem release_kept (s : State) {g : Fld} (h : settled g) (hstage : ∀ f ∈ Ch.all.map fun c => Reg.CCU_STATUS_STAGE (Ch.num c), g.key ≠ f.key)
    (hne : ∀ f ∈ Reg.RPC_RESET_IN_RESET :: Reg.MOD_DOMAIN_CLAMP :: (strapFlds ++ monitorFlds), g.key ≠ f.key) : s.release.rd g = s.rd g := by
  rw [release_rd s h, chansBoot_keeps _ g hstage, unreset, State.rd_wr_ne _ Reg.MOD_DOMAIN_CLAMP g _ (hne _ (by simp)),
    State.rd_wr_ne _ Reg.RPC_RESET_IN_RESET g _ (hne _ (by simp)), supplyRegs_keeps _ g fun f hf => hne f (by simp [hf])]
  exact strapped_keeps s g fun f hf => hne f (by simp [hf])

theorem settled_pgood : settled Reg.MOD_DOMAIN_PGOOD := ⟨by decide +kernel, by decide, by decide, by decide, by decide⟩

theorem linkTrains_frame (s : State) : linkTrains s = { s with regs := (linkTrains s).regs, tm := { s.tm with rpcStrobe := true } } := by rfl

theorem unreset_frame (s : State) : unreset s = { s with
    regs := (unreset s).regs, free := (unreset s).free, rpc := { s.rpc with por := false, mod := false }, md := { s.md with mode := .boot } } := by
  have h (a : State) : (a.wr Reg.RPC_RESET_IN_RESET 0).wr Reg.MOD_DOMAIN_CLAMP 0xFE =
      { a with regs := ((a.wr Reg.RPC_RESET_IN_RESET 0).wr Reg.MOD_DOMAIN_CLAMP 0xFE).regs } := by rfl
  unfold unreset
  rw [h, supplyRegs_frame, strapped_frame]

theorem unreset_md (s : State) : (unreset s).md = { s.md with mode := .boot } := by rw [unreset_frame]

theorem unreset_rpc (s : State) : (unreset s).rpc = { s.rpc with por := false, mod := false } := by rw [unreset_frame]

theorem unreset_chs (s : State) : (unreset s).chs = s.chs := by rw [unreset_frame]

theorem unreset_sio (s : State) : (unreset s).sio = s.sio := by rw [unreset_frame]

theorem release_md (s : State) : s.release.md = { s.md with mode := .boot } := by
  obtain ⟨e, he⟩ := release_enqueue s
  rw [he, enqueue_frame, releasing, linkTrains_frame, keyRegs_frame, fieldRelease_frame, chansBoot_frame]
  exact unreset_md s

theorem release_rpc (s : State) : s.release.rpc = { s.rpc with por := false, mod := false } := by
  obtain ⟨e, he⟩ := release_enqueue s
  rw [he, enqueue_frame, releasing, linkTrains_frame, keyRegs_frame, fieldRelease_frame, chansBoot_frame]
  exact unreset_rpc s

theorem release_strobe (s : State) : s.release.tm.rpcStrobe = true := by
  obtain ⟨e, he⟩ := release_enqueue s
  rw [he, enqueue_frame, releasing, linkTrains_frame]

theorem release_chs (s : State) : s.release.chs = (chansBoot (unreset s)).chs := by
  obtain ⟨e, he⟩ := release_enqueue s
  rw [he, enqueue_frame, releasing, linkTrains_frame, keyRegs_frame, fieldRelease_frame]

theorem release_ch (s : State) (c : Ch) : s.release.ch c = { s.ch c with st := .booting } := by
  rw [State.ch, release_chs, ← State.ch, chansBoot_ch, State.ch, unreset_chs, State.ch]

theorem release_sio (s : State) : s.release.sio = (chansBoot (unreset s)).fieldRelease.sio := by
  obtain ⟨e, he⟩ := release_enqueue s
  rw [he, enqueue_frame, releasing, linkTrains_frame, keyRegs_frame]

theorem booted_sio (s : State) : (chansBoot (unreset s)).sio = s.sio := by
  rw [chansBoot_frame]
  exact unreset_sio s

theorem release_swAt (s : State) : s.release.sio.swAt = s.sio.swRead := by rw [release_sio, fieldRelease_swAt, booted_sio]

theorem release_swD (s : State) : s.release.rd Reg.DLK_CFG_SW_D = (railSwitches s ^^^ s.sio.railErr.1).toNat := by
  obtain ⟨e, he⟩ := release_enqueue s
  rw [he, keepsRegs_enqueue _ e _ (by decide), releasing, linkTrains_rd _ (by decide), keyRegs_keeps _ _ (by decide), fieldRelease_eq, dlkRelease_swD,
    railSwitches, booted_sio, ← railSwitches]

theorem release_link (s : State) : s.release.rd Reg.HBR_LINK_STATE = 1 := by
  obtain ⟨e, he⟩ := release_enqueue s
  rw [he, keepsRegs_enqueue _ e _ (by decide), releasing, linkTrains]
  exact State.rd_wr_same _ Reg.HBR_LINK_STATE 1

theorem settled_stage (c : Ch) : settled (Reg.CCU_STATUS_STAGE (Ch.num c)) := by
  refine ⟨?_, ?_, ?_, ?_, ?_⟩
  · cases c <;> decide +kernel
  · cases c <;> decide
  · cases c <;> decide
  · cases c <;> decide
  · cases c <;> decide

/-- A settled field that the channels' start leaves. -/
theorem release_unreset (s : State) {g : Fld} (h : settled g) (hstage : ∀ f ∈ Ch.all.map fun c => Reg.CCU_STATUS_STAGE (Ch.num c), g.key ≠ f.key) :
    s.release.rd g = (unreset s).rd g := (release_rd s h).trans (chansBoot_keeps _ g hstage)

/-- A settled field that the straps or what comes before them set. -/
theorem release_strapped (s : State) {g : Fld} (h : settled g) (hstage : ∀ f ∈ Ch.all.map fun c => Reg.CCU_STATUS_STAGE (Ch.num c), g.key ≠ f.key)
    (hne : ∀ f ∈ Reg.RPC_RESET_IN_RESET :: Reg.MOD_DOMAIN_CLAMP :: monitorFlds, g.key ≠ f.key) : s.release.rd g = (strapped s).rd g := by
  rw [release_unreset s h hstage, unreset, State.rd_wr_ne _ Reg.MOD_DOMAIN_CLAMP g _ (hne _ (by simp)),
    State.rd_wr_ne _ Reg.RPC_RESET_IN_RESET g _ (hne _ (by simp))]
  exact supplyRegs_keeps _ g fun f hf => hne f (by simp [hf])

/-- The release of P or M from a state in which every domain is powered. -/
theorem release_released (s : State) (hgood : ∀ d, 0 < d → d < 8 → s.good d = true) : released s s.release := by
  obtain ⟨hsrc, hclk, htwin⟩ := strapped_straps s
  refine ⟨?_, ?_, release_md s, ?_, ?_, fun d h0 h8 => ?_, fun c => ⟨release_ch s c, ?_⟩, ?_, ?_, ?_, release_link s, ?_, release_swAt s, release_swD s⟩
  · rw [release_rpc]
  · rw [release_rpc]
  · rw [release_unreset s ⟨by decide +kernel, by decide, by decide, by decide, by decide⟩ (by decide), unreset,
      State.rd_wr_ne _ Reg.MOD_DOMAIN_CLAMP Reg.RPC_RESET_IN_RESET _ (by decide)]
    exact State.rd_wr_same _ Reg.RPC_RESET_IN_RESET 0
  · rw [release_unreset s ⟨by decide +kernel, by decide, by decide, by decide, by decide⟩ (by decide), unreset]
    exact State.rd_wr_same _ Reg.MOD_DOMAIN_CLAMP 0xFE
  · rw [State.good, release_kept s settled_pgood (by decide) (by decide)]
    exact hgood d h0 h8
  · rw [release_rd s (settled_stage c), chansBoot_stage]
  · rw [release_strapped s ⟨by decide +kernel, by decide, by decide, by decide, by decide⟩ (by decide) (by decide), hsrc]
  · rw [release_strapped s ⟨by decide +kernel, by decide, by decide, by decide, by decide⟩ (by decide) (by decide), hclk]
  · rw [release_strapped s ⟨by decide +kernel, by decide, by decide, by decide, by decide⟩ (by decide) (by decide), htwin]
  · rw [State.timeValid, release_strobe, Bool.not_true, Bool.and_false]

end Sys2Proof.Claims
end

section
/-! The supply's fall and return, the releases, and the hold's end: O27. -/

namespace Sys2Proof.Claims

open Sys2Proof Sys2Proof.Machine

variable {s t u : State} {c d : Ch}

/-! ### The supply (R507, R508) -/

theorem supplyLow_claim (h : s.rpc.inRange = true) :
    exec .supplyLow s = .next { s with rpc := { s.rpc with inRange := false, ride := !s.rpc.por } } := by
  change execSupplyLow s = _
  rw [execSupplyLow, if_pos h]
  rfl

theorem supplyInRange_ride (h : s.rpc.ride = true) :
    ∃ t, exec .supplyInRange s = .next t ∧ t.rpc = { s.rpc with inRange := true, ride := false } ∧
      t.rd Reg.RPC_RIDE_RIDES = up s Reg.RPC_RIDE_RIDES ∧ t.rd Reg.RPC_RIDE_LAST < 1000 ∧ t.md = s.md ∧
      keepsRegs s t [Reg.RPC_RIDE_RIDES, Reg.RPC_RIDE_LAST] := by
  let v := Config.freeValue s.free
  let b := ({ s with free := s.free + 1 } : State).modRpc fun x => { x with inRange := true, ride := false }
  have hb : keepsRegs s b [Reg.RPC_RIDE_RIDES, Reg.RPC_RIDE_LAST] := keepsRegs_of_eq rfl _
  have hexec : exec .supplyInRange s = .next ((b.inc Reg.RPC_RIDE_RIDES).wr Reg.RPC_RIDE_LAST (v % 1000)) := by
    change execSupplyInRange s = _
    rw [execSupplyInRange, if_pos h]
    rfl
  refine ⟨_, hexec, rfl, ?_, ?_, rfl, (hb.inc (by simp)).wr (by simp) _⟩
  · rw [State.rd_wr_ne _ Reg.RPC_RIDE_LAST Reg.RPC_RIDE_RIDES _ (by decide)]
    exact rd_inc_up b Reg.RPC_RIDE_RIDES
  · rw [State.rd_wr_same]
    exact lt_of_le_of_lt (Nat.mod_le _ _) (Nat.mod_lt v (by decide))

theorem rideThroughEnd_ride (h : s.rpc.ride = true) :
    ∃ t, exec .rideThroughEnd s = .next t ∧ t.rd Reg.RPC_RIDE_LAST = 1000 ∧ t.rpc.ride = false ∧ saving s t false := by
  let b := (s.modRpc fun x => { x with ride := false }).wr Reg.RPC_RIDE_LAST 1000
  have hexec : exec .rideThroughEnd s = .next (b.startSave false) := by
    change execRideThroughEnd s = _
    rw [execRideThroughEnd, if_pos h]
  obtain ⟨hs, hrun, hoff, hjob, hstage⟩ := startSave_saving b false
  have hrd {g : Fld} (hg : g.key ≠ Reg.RPC_RIDE_LAST.key) : b.rd g = s.rd g :=
    State.rd_wr_ne (s.modRpc fun x => { x with ride := false }) Reg.RPC_RIDE_LAST g 1000 hg
  refine ⟨_, hexec, ?_, ?_, hs, hrun, hoff, hjob, fun h3 h1 hno => ?_⟩
  · rw [startSave_rd b false ⟨by decide, ?_, by decide⟩]
    · exact State.rd_wr_of_lt _ (f := Reg.RPC_RIDE_LAST) (by decide)
    · intro p hp b hb
      have hkey : 0x1000000 * 32 ≤ Reg.RPC_RIDE_LAST.key := by decide
      omega
  · rw [startSave_rpc]
    rfl
  · obtain ⟨hone, hns, hrelay⟩ := hstage (by rwa [hrd (by decide)]) (by rwa [hrd (by decide)]) (by rwa [State.rdb, hrd (by decide)])
    refine ⟨hone, hns, hrelay.trans ?_⟩
    rw [State.rdb, hrd (by decide), State.rdb]

theorem supplyInRange_other (h : s.rpc.ride = false) :
    exec .supplyInRange s = .next { s with rpc := { s.rpc with inRange := true, ride := false } } := by
  change execSupplyInRange s = _
  rw [execSupplyInRange, h]
  simp only [Bool.false_eq_true, if_false, State.modRpc]
  rw [← h]

theorem enqueue_queue (s : State) (e : RecEv) (hgood : s.pdhGood = true) (hlen : s.rcd.queue.length < 2048) :
    (s.enqueue e).rcd.queue = s.rcd.queue ++ [e] := by
  unfold State.enqueue
  rw [hgood, Bool.not_true, if_neg (by decide), if_pos hlen]
  dsimp only
  split <;> rfl

theorem feedOutOfRange_claim (hin : s.rpc.inRange = true) (hpor : s.rpc.por = false) (feed : Bool) :
    ∃ t, exec (.feedOutOfRange feed) s = .next t ∧
      keepsRegs s t ((if feed then Reg.RPC_SUPPLY_VMB else Reg.RPC_SUPPLY_VMA) :: logFlds) ∧
      t = { s with regs := t.regs, rcd := t.rcd, free := s.free + 1 } ∧
      (s.pdhGood = true → s.rcd.queue.length < 2048 → ∃ e, t.rcd.queue = s.rcd.queue ++ [e] ∧ e.sev = 4) := by
  let f := if feed then Reg.RPC_SUPPLY_VMB else Reg.RPC_SUPPLY_VMA
  let b := ({ s with free := s.free + 1 } : State).wr f (Config.freeValue s.free)
  have hexec : exec (.feedOutOfRange feed) s = .next (b.diag 4 Src.mod 0 0x01000014) := by
    change execFeedOutOfRange feed s = _
    rw [execFeedOutOfRange, if_pos (by rw [hin, hpor]; rfl)]
    cases feed <;> rfl
  have hb : keepsRegs s b [f] := (keepsRegs_of_eq rfl _).wr List.mem_cons_self _
  refine ⟨_, hexec, ?_, ?_, fun hgood hlen => ?_⟩
  · exact (hb.mono fun g hg => List.mem_singleton.1 hg ▸ List.mem_cons_self).trans
      ((keepsRegs_diag b 4 Src.mod 0 0x01000014 []).mono fun g hg => List.mem_cons_of_mem _ hg)
  · rw [diag_frame]
    rfl
  · have hgood' : b.pdhGood = true := by
      unfold State.pdhGood
      rw [hb Reg.MOD_DOMAIN_PGOOD (by cases feed <;> decide), hb Reg.RPC_LOAD_LOAD_ERR (by cases feed <;> decide)]
      exact hgood
    exact ⟨_, enqueue_queue b _ hgood' hlen, rfl⟩

/-! ### The releases of P and M -/

/-- A step before the release that keeps the channels, the modes, the straps and the field domain's readings. -/
theorem released_of (h : released t u) (hmd : t.md = s.md) (hchs : t.chs = s.chs) (hstraps : t.rpc.straps = s.rpc.straps) (hsio : t.sio = s.sio) :
    released s u := by
  unfold released State.ch at *
  rwa [hmd, hchs, hstraps, hsio] at h

theorem natBit_or_mask {v m d : Nat} (h : m.testBit d = true) : natBit (v ||| m) d = true := by
  rw [natBit, Nat.testBit_or, h, Bool.or_true]

theorem resetRelease_claim (hmod : s.rpc.mod = true) (hpor : s.rpc.por = false) (hsave : s.rpc.save = none)
    (hstage : s.rd Reg.PTN_BYPASS_STAGE ≠ 1) :
    ∃ t, exec .resetRelease s = .next t ∧ released s t ∧ t.rd Reg.RPC_PCYCLES_COUNT = s.rd Reg.RPC_PCYCLES_COUNT := by
  let p := s.wr Reg.MOD_DOMAIN_PGOOD (s.rd Reg.MOD_DOMAIN_PGOOD ||| 0xFE)
  have hexec : exec .resetRelease s = .next p.release := by
    change execResetRelease s = _
    rw [execResetRelease, if_pos (by simp [hmod, hpor, hsave, hstage])]
  have hgood (d : Nat) (h0 : 0 < d) (h8 : d < 8) : p.good d = true := by
    have hrd : p.rd Reg.MOD_DOMAIN_PGOOD = trunc 8 (s.rd Reg.MOD_DOMAIN_PGOOD ||| 0xFE) := State.rd_wr_same s Reg.MOD_DOMAIN_PGOOD _
    rw [State.good, hrd, natBit_trunc, natBit_or_mask (by interval_cases d <;> rfl), decide_eq_true h8, Bool.and_true]
  refine ⟨_, hexec, released_of (release_released p hgood) rfl rfl rfl rfl, ?_⟩
  rw [release_kept p ⟨by decide +kernel, by decide, by decide, by decide, by decide⟩ (by decide) (by decide)]
  exact State.rd_wr_ne s Reg.MOD_DOMAIN_PGOOD Reg.RPC_PCYCLES_COUNT _ (by decide)

/-! ### The K reset (R524, R525) -/

/-- What a restoration of the counters changes. -/
def onlyCounters (s t : State) : Prop :=
  t = { s with regs := t.regs, rcd := t.rcd, tm := { s.tm with opAdd := t.tm.opAdd },
               rpc := { s.rpc with restoreDue := t.rpc.restoreDue, storeErrs := t.rpc.storeErrs } }

theorem onlyCounters.trans (h : onlyCounters s t) (h' : onlyCounters t u) : onlyCounters s u := by
  unfold onlyCounters at *
  rw [h', h]

theorem optimeRegs_frame (s : State) : s.optimeRegs = { s with regs := s.optimeRegs.regs } := by rfl

theorem nvHeal_only (s : State) (a n : Nat) : onlyCounters s (s.nvHeal a n) := by
  unfold State.nvHeal
  split <;> rfl

theorem restoreCounters_only (s : State) : onlyCounters s s.restoreCounters := by
  unfold State.restoreCounters
  split
  · rfl
  · dsimp only
    have hheal : onlyCounters s ((s.modRpc fun x => { x with restoreDue := false }).nvHeal 0xF0C0 16) :=
      onlyCounters.trans (t := s.modRpc fun x => { x with restoreDue := false }) rfl (nvHeal_only _ _ _)
    split
    · exact hheal.trans rfl
    · refine hheal.trans ?_
      rw [diag_frame]
      rfl

theorem kReset_parts (s : State) : s.kReset.md = s.md ∧ s.kReset.chs = s.chs ∧ s.kReset.rpc.straps = s.rpc.straps ∧ s.kReset.sio = s.sio ∧
    s.kReset.rpc.bor = false := by
  let a := ({ (s.resetRegs fun f => f.reaches .k).modRpc (fun x => { x with bor := false }) with tm := { s.tm with opAdd := -s.tm.opNs } } : State)
  have h : onlyCounters (a.wr Reg.RPC_PCYCLES_COUNT 0).optimeRegs s.kReset := restoreCounters_only _
  unfold onlyCounters at h
  rw [h]
  exact ⟨rfl, rfl, rfl, rfl, rfl⟩

/-- The state of a power-on release before the channels boot. -/
def poweredOn (s : State) : State := ((s.wrb Reg.RPC_CAUSE_POR true).incWrap Reg.RPC_PCYCLES_COUNT).wr Reg.MOD_DOMAIN_PGOOD 0xFF

theorem poweredOn_frame (s : State) : poweredOn s = { s with regs := (poweredOn s).regs } := by rfl

theorem poweredOn_good (s : State) {d : Nat} (h : d < 8) : (poweredOn s).good d = true := by
  have hrd : (poweredOn s).rd Reg.MOD_DOMAIN_PGOOD = 0xFF := State.rd_wr_of_lt _ (f := Reg.MOD_DOMAIN_PGOOD) (by decide)
  rw [State.good, hrd]
  interval_cases d <;> rfl

theorem poweredOn_por (s : State) : (poweredOn s).rdb Reg.RPC_CAUSE_POR = true := by
  unfold poweredOn
  rw [State.rdb_wr_ne _ _ (by decide), State.incWrap, State.rdb_wr_ne _ _ (by decide)]
  exact State.rdb_wrb_same s (f := Reg.RPC_CAUSE_POR) (by decide) true

theorem poweredOn_pcycles (s : State) : (poweredOn s).rd Reg.RPC_PCYCLES_COUNT = (s.rd Reg.RPC_PCYCLES_COUNT + 1) % 2 ^ 24 := by
  unfold poweredOn
  rw [State.rd_wr_ne _ Reg.MOD_DOMAIN_PGOOD Reg.RPC_PCYCLES_COUNT _ (by decide), State.incWrap,
    State.rd_wrb_ne s Reg.RPC_CAUSE_POR Reg.RPC_PCYCLES_COUNT true (by decide)]
  exact State.rd_wr_same _ Reg.RPC_PCYCLES_COUNT _

theorem poweredOn_lost (s : State) : (poweredOn s).rdb Reg.RPC_CAUSE_KA_LOST = s.rdb Reg.RPC_CAUSE_KA_LOST := by
  unfold poweredOn
  rw [State.rdb_wr_ne _ _ (by decide), State.incWrap, State.rdb_wr_ne _ _ (by decide), State.rdb_wrb_ne _ _ (by decide)]

theorem powerOnRelease_claim (hpor : s.rpc.por = true) (hin : s.rpc.inRange = true) (hstage : s.rd Reg.PTN_BYPASS_STAGE ≠ 1) :
    ∃ t, exec .powerOnRelease s = .next t ∧ released s t ∧ t.rdb Reg.RPC_CAUSE_POR = true ∧
      (s.rpc.bor = false → t.rd Reg.RPC_PCYCLES_COUNT = (s.rd Reg.RPC_PCYCLES_COUNT + 1) % 2 ^ 24) ∧
      (s.rpc.bor = true → t.rdb Reg.RPC_CAUSE_KA_LOST = true ∧ t.rpc.bor = false) := by
  let a := if s.rpc.bor then s.kReset.wrb Reg.RPC_CAUSE_KA_LOST true else s
  have hexec : exec .powerOnRelease s = .next (poweredOn a).release := by
    change execPowerOnRelease s = _
    rw [execPowerOnRelease, if_pos (by simp [hpor, hin, hstage])]
    rfl
  obtain ⟨hmd, hchs, hstraps, hsio, hbor⟩ := kReset_parts s
  have ha : a.md = s.md ∧ a.chs = s.chs ∧ a.rpc.straps = s.rpc.straps ∧ a.sio = s.sio := by
    simp only [a]
    split
    · exact ⟨hmd, hchs, hstraps, hsio⟩
    · exact ⟨rfl, rfl, rfl, rfl⟩
  obtain ⟨hmd', hchs', hstraps', hsio'⟩ := ha
  have hrel := release_released (poweredOn a) fun d _ h8 => poweredOn_good a h8
  have hkept {g : Fld} := release_kept (poweredOn a) (g := g)
  refine ⟨_, hexec, released_of (s := s) (t := poweredOn a) hrel hmd' hchs' hstraps' hsio', ?_, fun hb => ?_, fun hb => ⟨?_, ?_⟩⟩
  · rw [rdb_of_rd (hkept ⟨by decide +kernel, by decide, by decide, by decide, by decide⟩ (by decide) (by decide))]
    exact poweredOn_por a
  · rw [hkept ⟨by decide +kernel, by decide, by decide, by decide, by decide⟩ (by decide) (by decide), poweredOn_pcycles]
    simp only [a, hb]
    rfl
  · rw [rdb_of_rd (hkept ⟨by decide +kernel, by decide, by decide, by decide, by decide⟩ (by decide) (by decide)), poweredOn_lost]
    simp only [a, hb, if_true]
    exact State.rdb_wrb_same s.kReset (f := Reg.RPC_CAUSE_KA_LOST) (by decide) true
  · rw [release_rpc, poweredOn_frame]
    simp only [a, hb, if_true]
    exact hbor

end Sys2Proof.Claims
end

section
/-! The release of W and C, the end of the output hold, and the counters' record: O27. -/

namespace Sys2Proof.Claims

open Sys2Proof Sys2Proof.Machine

variable {s t u : State} {c d : Ch}

/-! ### The release of W (R514, R516) -/

theorem setErr_other (s : State) (h : d ≠ c) (cw : Nat) (e : BitVec 72) : (s.setErr c cw e).ch d = s.ch d := State.ch_modCh_ne s _ h

theorem flip_other (s : State) (h : d ≠ c) (cw : Nat) : (s.flip c cw).ch d = s.ch d := by
  unfold State.flip
  split
  · exact setErr_other s h cw _
  · rfl

theorem flipAmong_other (s : State) (h : d ≠ c) (firsts : List Nat) (written : Nat → Bool) : (s.flipAmong c firsts written).ch d = s.ch d := by
  unfold State.flipAmong
  dsimp only
  split
  · split
    · exact flip_other s h _
    · rfl
  · rfl

theorem restartCh_other (s : State) (h : d ≠ c) (ret : FMap Word) : (s.restartCh c ret).ch d = s.ch d :=
  (flipAmong_other _ h _ _).trans (State.ch_modCh_ne s _ h)

theorem restartCh_md (s : State) (c : Ch) (ret : FMap Word) : (s.restartCh c ret).md = s.md := by
  unfold State.restartCh
  rw [(MiuOp.flipAmong _ c _ _).frame]
  rfl

/-- A channel joins the warm restart. -/
def joined (s : State) (c : Ch) (ret : FMap Word) : State := ((s.abandon c).restartCh c ret).modCh c startsUp

theorem joined_other (s : State) (h : d ≠ c) (ret : FMap Word) : (joined s c ret).ch d = s.ch d :=
  (State.ch_modCh_ne _ _ h).trans ((restartCh_other _ h ret).trans ((abandon_attemptOp s c).others d h))

theorem joined_vote (s : State) (c : Ch) (ret : FMap Word) : ((joined s c ret).ch c).st = .vote := by
  unfold joined
  rw [State.ch_modCh_same]
  rfl

theorem joined_md (s : State) (c : Ch) (ret : FMap Word) : (joined s c ret).md = s.md := (restartCh_md (s.abandon c) c ret).trans (abandon_md s c)

/-- The data that the channels of the vote restarted with. -/
def warmData (s : State) : FMap Word :=
  match s.voters with
  | [] => []
  | v :: _ => (s.ch v).retData

theorem warmJoin_eq (s : State) : s.warmJoin = if s.md.mode = .startup then
    foldSt (Ch.all.filter fun c => s.eligible c && !s.inVote c) (fun c t => joined t c (warmData s)) s else s := by rfl

theorem warmJoin_md (s : State) : s.warmJoin.md = s.md := by
  rw [warmJoin_eq]
  split
  · exact foldSt_keeps (fun t => t.md) _ (fun c t => joined t c (warmData s)) (fun c t => joined_md t c _) s
  · rfl

theorem warmJoin_kept (s : State) (h : s.inVote c = true ∨ s.eligible c = false) : s.warmJoin.ch c = s.ch c := by
  rw [warmJoin_eq]
  split
  · refine foldSt_inv (P := fun t => t.ch c = s.ch c) (fun d hd t ht => (joined_other t ?_ _).trans ht) rfl
    rintro rfl
    obtain ⟨-, hd⟩ := List.mem_filter.1 hd
    simp only [Bool.and_eq_true, Bool.not_eq_true'] at hd
    obtain h | h := h
    · exact Bool.false_ne_true (hd.2.symm.trans h)
    · exact Bool.false_ne_true (h.symm.trans hd.1)
  · rfl

theorem warmJoin_vote (s : State) (hmode : s.md.mode = .startup) (h : s.eligible c = true) : (s.warmJoin.ch c).st = .vote := by
  by_cases hin : s.inVote c = true
  · rw [warmJoin_kept s (.inl hin)]
    simpa [State.inVote] using hin
  · rw [warmJoin_eq, if_pos hmode]
    refine foldSt_established (P := fun _ => True) (Q := fun t => (t.ch c).st = .vote) (x := c)
      (List.mem_filter.2 ⟨mem_chAll c, by simp [h, hin]⟩) (fun _ _ _ _ => trivial) (fun t _ => joined_vote t c _) (fun d _ t _ ht => ?_) trivial
    by_cases hd : c = d
    · subst hd
      exact joined_vote t c _
    · rw [joined_other t hd, ht]

theorem warmJoin_none (s : State) (h : ∀ c, s.eligible c = true → s.inVote c = true) : s.warmJoin = s := by
  rw [warmJoin_eq]
  split
  · have hnone : (Ch.all.filter fun c => s.eligible c && !s.inVote c) = [] := by
      refine List.filter_eq_nil_iff.2 fun c _ => ?_
      by_cases he : s.eligible c = true
      · simp [h c he]
      · simp [he]
    rw [hnone]
    rfl
  · rfl

theorem warmResetRelease_claim (h : s.md.wHold = 1) :
    ∃ t, exec .warmResetRelease s = .next t ∧ t.md = { s.md with wHold := 0, plumb := 3 } ∧
      t.rdb Reg.RPC_RESET_W = false ∧ (s.md.mode = .startup → ∀ c, s.eligible c = true → (t.ch c).st = .vote) ∧
      (∀ c, s.inVote c = true ∨ s.eligible c = false → t.ch c = s.ch c) ∧
      ((∀ c, s.eligible c = true → s.inVote c = true) → regsTo s t [(Reg.RPC_RESET_W, 0)] ∧
        t = { s with regs := t.regs, md := t.md }) := by
  let f : ModSt → ModSt := fun x => { x with wHold := 0, plumb := 3 }
  have hexec : exec .warmResetRelease s = .next ((s.warmJoin.modMd f).wrb Reg.RPC_RESET_W false) := by
    change execWarmResetRelease s = _
    rw [execWarmResetRelease, if_pos h]
  have hch (u : State) (c : Ch) : ((u.modMd f).wrb Reg.RPC_RESET_W false).ch c = u.ch c := rfl
  have hmd (u : State) : ((u.modMd f).wrb Reg.RPC_RESET_W false).md = f u.md := rfl
  refine ⟨_, hexec, ?_, State.rdb_wrb_same _ (f := Reg.RPC_RESET_W) (by decide) false, fun hmode c hc => ?_, fun c hc => ?_, fun hall => ?_⟩
  · rw [hmd, warmJoin_md]
  · rw [hch]
    exact warmJoin_vote s hmode hc
  · rw [hch]
    exact warmJoin_kept s hc
  · rw [warmJoin_none s hall]
    exact ⟨regsTo_writes (l := [(Reg.RPC_RESET_W, 0)]) ⟨by decide, by simp⟩ (s.modMd f), rfl⟩

/-! ### The release of a channel (R241, R514) -/

theorem foldSt_stagesOf {α : Type} {l : List α} {f : α → State → State} (h : ∀ x ∈ l, ∀ s, StagesOf s (f x s) c) (s : State) : StagesOf s (foldSt l f s) c :=
  foldSt_inv (P := fun t => StagesOf s t c) (fun x hx t ht => ht.trans (h x hx t)) (StagesOf.refl s c)

theorem mem_pair12 {p : Nat} (h : p ∈ pair12) : p < 12 := List.mem_range.1 h

theorem mem_in24 {i : Nat} (h : i ∈ in24) : i < 24 := List.mem_range.1 h

/-- The inputs of a channel anew. -/
def inputsAnew (s : State) (c : Ch) : State := foldSt in24 (fun i s => s.setInp c i InStage.init) s

/-- The pairs of a channel anew. -/
def pairsAnew (s : State) (c : Ch) : State := foldSt pair12 (fun p s => s.setPr c p PairStage.init) s

theorem resetStages_eq (s : State) (c : Ch) : s.resetStages c = (pairsAnew (inputsAnew s c) c).setAck c AckStage.init := by rfl

theorem inputsAnew_inp (s : State) (c : Ch) {i : Nat} (hi : i < 24) : (inputsAnew s c).sio.inp c i = InStage.init := by
  refine foldSt_established (P := fun _ => True) (Q := fun t => t.sio.inp c i = InStage.init) (x := i) (List.mem_range.2 hi) (fun _ _ _ _ => trivial)
    (fun t _ => by rw [inp_setInp t c c hi hi, if_pos ⟨rfl, rfl⟩]) (fun j hj t _ ht => ?_) trivial
  rw [inp_setInp t c c (mem_in24 hj) hi]
  split
  · rfl
  · exact ht

theorem pairsAnew_pr (s : State) (c : Ch) {p : Nat} (hp : p < 12) : (pairsAnew s c).sio.pr c p = PairStage.init := by
  refine foldSt_established (P := fun _ => True) (Q := fun t => t.sio.pr c p = PairStage.init) (x := p) (List.mem_range.2 hp) (fun _ _ _ _ => trivial)
    (fun t _ => by rw [pr_setPr t c c hp hp, if_pos ⟨rfl, rfl⟩]) (fun j hj t _ ht => ?_) trivial
  rw [pr_setPr t c c (mem_pair12 hj) hp]
  split
  · rfl
  · exact ht

theorem pairsAnew_ins (s : State) (c : Ch) : (pairsAnew s c).sio.ins = s.sio.ins :=
  foldSt_keeps (fun t => t.sio.ins) pair12 (fun p s => s.setPr c p PairStage.init) (fun _ _ => rfl) s

theorem resetStages_stages (s : State) (c : Ch) : StagesOf s (s.resetStages c) c := by
  rw [resetStages_eq]
  have hinputs : StagesOf s (inputsAnew s c) c := foldSt_stagesOf (fun i hi t => StagesOf.setInp t c (mem_in24 hi) _) s
  have hpairs : StagesOf (inputsAnew s c) (pairsAnew (inputsAnew s c) c) c := foldSt_stagesOf (fun p hp t => StagesOf.setPr t c (mem_pair12 hp) _) _
  exact (hinputs.trans hpairs).trans (StagesOf.setAck _ c _)

theorem setAck_ins (s : State) (c : Ch) (v : AckStage) : (s.setAck c v).sio.ins = s.sio.ins := by rfl

theorem setAck_pairs (s : State) (c : Ch) (v : AckStage) : (s.setAck c v).sio.pairs = s.sio.pairs := by rfl

theorem setAck_ack (s : State) (c : Ch) (v : AckStage) : (s.setAck c v).sio.ack c = v := FMap.get_set_same _ _ _ _

theorem resetStages_anew (s : State) (c : Ch) : (∀ i < 24, (s.resetStages c).sio.inp c i = InStage.init) ∧
    (∀ p < 12, (s.resetStages c).sio.pr c p = PairStage.init) ∧ (s.resetStages c).sio.ack c = AckStage.init := by
  rw [resetStages_eq]
  refine ⟨fun i hi => ?_, fun p hp => ?_, ?_⟩
  · have hins (t : State) (h : t.sio.ins = (inputsAnew s c).sio.ins) : t.sio.inp c i = InStage.init := by
      rw [SioSt.inp, h, ← SioSt.inp, inputsAnew_inp s c hi]
    exact hins _ ((setAck_ins _ c _).trans (pairsAnew_ins _ c))
  · have hpairs (t : State) (h : t.sio.pairs = (pairsAnew (inputsAnew s c) c).sio.pairs) : t.sio.pr c p = PairStage.init := by
      rw [SioSt.pr, h, ← SioSt.pr, pairsAnew_pr _ c hp]
    exact hpairs _ (setAck_pairs _ c _)
  · exact setAck_ack _ c _

/-- A channel begins its boot. -/
def chanBoots (s : State) (c : Ch) : State := (s.modCh c fun h => { h with st := .booting }).wr (Reg.CCU_STATUS_STAGE (Ch.num c)) 1

theorem chanBoots_rd (s : State) (c : Ch) {g : Fld} (hg : g.key ≠ (Reg.CCU_STATUS_STAGE (Ch.num c)).key) : (chanBoots s c).rd g = s.rd g :=
  (State.rd_wr_ne _ (Reg.CCU_STATUS_STAGE (Ch.num c)) g 1 hg).trans (State.rd_congr rfl g)

theorem chanBoots_ch (s : State) (c : Ch) : (chanBoots s c).ch c = { s.ch c with st := .booting } :=
  State.ch_modCh_same s c fun h => { h with st := .booting }

theorem chanBoots_other (s : State) (h : d ≠ c) : (chanBoots s c).ch d = s.ch d := State.ch_modCh_ne s (fun h => { h with st := .booting }) h

theorem chanBoots_frame (s : State) (c : Ch) : chanBoots s c = { s with regs := (chanBoots s c).regs, chs := (chanBoots s c).chs } := by rfl

theorem channelResetRelease_claim (c : Ch) (hC : natBit (s.rd Reg.RPC_RESET_C) (Ch.num c) = true) (hgood : s.good (Ch.num c + 1) = true)
    (hpor : s.rpc.por = false) (hmod : s.rpc.mod = false) : ∃ t, exec (.channelResetRelease c) s = .next t ∧ t.ch c = { s.ch c with st := .booting } ∧
      (∀ d, d ≠ c → t.ch d = s.ch d) ∧ natBit (t.rd Reg.RPC_RESET_C) (Ch.num c) = false ∧
      natBit (t.rd Reg.RPC_RESET_IN_RESET) (Ch.num c + 1) = false ∧ t.rd (Reg.CCU_STATUS_STAGE (Ch.num c)) = 1 ∧
      keepsRegs s t [Reg.RPC_RESET_C, Reg.RPC_RESET_IN_RESET, Reg.CCU_STATUS_STAGE (Ch.num c)] ∧
      (∀ i < 24, t.sio.inp c i = InStage.init) ∧ (∀ p < 12, t.sio.pr c p = PairStage.init) ∧ t.sio.ack c = AckStage.init ∧
      (∀ d i, d ≠ c → i < 24 → t.sio.inp d i = s.sio.inp d i) ∧
      t = { s with regs := t.regs, chs := t.chs, sio := { s.sio with ins := t.sio.ins, pairs := t.sio.pairs, acks := t.sio.acks } } := by
  let b := (s.clrBit Reg.RPC_RESET_C (Ch.num c)).clrBit Reg.RPC_RESET_IN_RESET (Ch.num c + 1)
  have hexec : exec (.channelResetRelease c) s = .next (chanBoots (b.resetStages c) c) := by
    change execChannelResetRelease c s = _
    rw [execChannelResetRelease]
    dsimp only
    rw [if_pos (by simp [hC, hgood, hpor, hmod])]
    rfl
  have hstages : StagesOf b (b.resetStages c) c := resetStages_stages b c
  have hanew := resetStages_anew b c
  have hb : keepsRegs s b [Reg.RPC_RESET_C, Reg.RPC_RESET_IN_RESET, Reg.CCU_STATUS_STAGE (Ch.num c)] :=
    (keepsRegs_clrBit (f := Reg.RPC_RESET_C) (by simp) s _).trans (keepsRegs_clrBit (f := Reg.RPC_RESET_IN_RESET) (by simp) _ _)
  have hbitC : natBit (b.rd Reg.RPC_RESET_C) (Ch.num c) = false := by
    rw [State.rd_clrBit_ne _ Reg.RPC_RESET_IN_RESET Reg.RPC_RESET_C _ (by decide)]
    exact (natBit_clrBit s (f := Reg.RPC_RESET_C) (by cases c <;> decide)).trans (by simp)
  have hbitR : natBit (b.rd Reg.RPC_RESET_IN_RESET) (Ch.num c + 1) = false :=
    (natBit_clrBit _ (f := Reg.RPC_RESET_IN_RESET) (by cases c <;> decide)).trans (by simp)
  have hbframe : b = { s with regs := b.regs } := rfl
  refine ⟨_, hexec, ?_⟩
  clear hexec
  generalize b.resetStages c = r at hstages hanew
  obtain ⟨hinp, hpr, hack⟩ := hanew
  have hframe := hstages.frame
  have hchs : r.chs = s.chs := by
    rw [hframe, hbframe]
  have hrd {g : Fld} (hg : g.key ≠ (Reg.CCU_STATUS_STAGE (Ch.num c)).key) : (chanBoots r c).rd g = b.rd g :=
    (chanBoots_rd r c hg).trans (hstages.rd g)
  refine ⟨?_, fun d hd => ?_, ?_, ?_, State.rd_wr_same _ _ 1, fun g hg => ?_, hinp, hpr, hack, fun d i hd hi => hstages.inp d hd i hi, ?_⟩
  · rw [chanBoots_ch, State.ch, hchs, State.ch]
  · rw [chanBoots_other r hd, State.ch, hchs, State.ch]
  · rw [hrd (by cases c <;> decide)]
    exact hbitC
  · rw [hrd (by cases c <;> decide)]
    exact hbitR
  · rw [hrd (hg _ (by simp)), hb g hg]
  · rw [chanBoots_frame, hframe, hbframe]

end Sys2Proof.Claims
end

section
/-! The end of the output hold, and the counters' record: O27. -/

namespace Sys2Proof.Claims

open Sys2Proof Sys2Proof.Machine

variable {s t u : State} {c d : Ch}

/-! ### The end of the output hold (R31, R291) -/

theorem command_frame (s : State) (o : Nat) (hs ls : Bool) :
    s.command o hs ls = { s with regs := (s.command o hs ls).regs, sio := { s.sio with outs := (s.command o hs ls).sio.outs } } := by
  have habort : abortTest s o hs ls = { s with regs := (abortTest s o hs ls).regs } := by
    unfold abortTest
    dsimp only
    split <;> rfl
  have hmod (u : State) (f : OutSt → OutSt) : u.modOut o f = { u with sio := { u.sio with outs := (u.modOut o f).sio.outs } } := by rfl
  rw [command_eq]
  generalize hx : (abortTest s o hs ls).modOut o _ = x
  have hxf : x = { s with regs := x.regs, sio := { s.sio with outs := x.sio.outs } } := by
    rw [← hx, hmod, habort]
  have hdrive := (drive_outOp x o).frame
  rw [drive_rcd] at hdrive
  rw [hdrive, hxf]

/-- The field that holds an output. -/
theorem hold_place (o : Nat) : (Reg.SIO_OUT_STAT_HOLD o).key = (0x00900500 + o * 4) * 32 + 24 := by rfl

theorem command_hold (s : State) {o p : Nat} (hp : p < 12) (hs ls : Bool) :
    (s.command o hs ls).rd (Reg.SIO_OUT_STAT_HOLD p) = s.rd (Reg.SIO_OUT_STAT_HOLD p) := by
  rw [command_eq, drive_rd _ o (hold_place p) (by decide) (.inr (by decide))]
  exact abortTest_rd s hp (by decide) (by decide) hs ls (hold_place p)

theorem drive_hold (s : State) (o p : Nat) : (s.drive o).rd (Reg.SIO_OUT_STAT_HOLD p) = s.rd (Reg.SIO_OUT_STAT_HOLD p) :=
  drive_rd s o (hold_place p) (by decide) (.inr (by decide))

/-- An output with both commands off. -/
def commandedOff (s : State) (o : Nat) : Prop := (s.out o).onHs = false ∧ (s.out o).onLs = false

theorem commandedOff_outKept {q : Nat} (h : outKept s t q) (hs : commandedOff s q) : commandedOff t q := by
  unfold commandedOff at *
  rw [h]
  exact hs

theorem commandedOff_of_out {q : Nat} (h : t.out q = s.out q) (hs : commandedOff s q) : commandedOff t q := by
  unfold commandedOff at *
  rwa [h]

/-- The outputs given commanded off. -/
def allOff (l : List Nat) (s : State) : State := foldSt l (fun o s => s.command o false false) s

theorem allOff_commandedOff {l : List Nat} {o : Nat} (ho : o ∈ l) (s : State) : commandedOff (allOff l s) o := by
  have hself (t : State) : commandedOff (t.command o false false) o := by
    unfold commandedOff
    rw [(command_out t o false false).1]
    exact ⟨rfl, rfl⟩
  refine foldSt_established (P := fun _ => True) (Q := fun t => commandedOff t o) (x := o) ho (fun _ _ _ _ => trivial) (fun t _ => hself t)
    (fun p _ t _ ht => ?_) trivial
  by_cases h : o = p
  · subst h
    exact hself t
  · exact commandedOff_outKept ((command_out t p false false).2 o h) ht

theorem allOff_frame (l : List Nat) (s : State) : allOff l s = { s with regs := (allOff l s).regs, sio := { s.sio with outs := (allOff l s).sio.outs } } := by
  refine foldSt_inv (P := fun t => t = { s with regs := t.regs, sio := { s.sio with outs := t.sio.outs } }) (fun o _ t ht => ?_) (by rfl)
  rw [command_frame t o, ht]

theorem allOff_left (l : List Nat) (s : State) : (allOff l s).sio.holdLeft = s.sio.holdLeft := by rw [allOff_frame]

theorem driveAll_left (s : State) : s.driveAll.sio.holdLeft = s.sio.holdLeft := by rw [(driveAll_outOp s).frame]

theorem allOff_hold (l : List Nat) (s : State) {p : Nat} (hp : p < 12) :
    (allOff l s).rd (Reg.SIO_OUT_STAT_HOLD p) = s.rd (Reg.SIO_OUT_STAT_HOLD p) :=
  foldSt_keeps (fun t => t.rd (Reg.SIO_OUT_STAT_HOLD p)) l (fun o s => s.command o false false) (fun _ t => command_hold t hp false false) s

theorem driveAll_hold (s : State) (p : Nat) : s.driveAll.rd (Reg.SIO_OUT_STAT_HOLD p) = s.rd (Reg.SIO_OUT_STAT_HOLD p) :=
  foldSt_keeps (fun t => t.rd (Reg.SIO_OUT_STAT_HOLD p)) out12 (fun o s => s.drive o) (fun o t => drive_hold t o p) s

/-- An output commanded off is driven off. -/
theorem driveAll_off {o : Nat} (ho : o < 12) (h : commandedOff s o) :
    commandedOff s.driveAll o ∧ s.driveAll.rdb (Reg.SIO_OUT_STAT_HS o) = false ∧ s.driveAll.energised o = false := by
  have hkeep (p : Nat) (t : State) (ht : commandedOff t o) : commandedOff (t.drive p) o := by
    by_cases hp : o = p
    · subst hp
      exact commandedOff_of_out (drive_out_same t o) ht
    · exact commandedOff_outKept (drive_outKept t p o) ht
  have hself (t : State) (ht : commandedOff t o) : (t.drive o).rdb (Reg.SIO_OUT_STAT_HS o) = false ∧ (t.drive o).energised o = false := by
    have hhs : highClosed t o = false := by simp [highClosed, ht.1]
    exact ⟨by rw [drive_hs, hhs], by rw [State.energised, drive_energised, hhs, Bool.false_and]⟩
  refine ⟨foldSt_inv (P := fun t => commandedOff t o) (fun p _ t ht => hkeep p t ht) h, ?_⟩
  refine foldSt_established (P := fun t => commandedOff t o)
    (Q := fun t => t.rdb (Reg.SIO_OUT_STAT_HS o) = false ∧ t.energised o = false) (x := o) (List.mem_range.2 ho) (fun p _ t ht => hkeep p t ht) hself
    (fun p _ t ht hq => ?_) h
  by_cases hp : o = p
  · subst hp
    exact hself t ht
  · refine ⟨(rdb_of_rd (drive_rd t p (g := Reg.SIO_OUT_STAT_HS o) (p := o) (b := 27) rfl (by decide) (.inl hp))).trans hq.1, ?_⟩
    rw [State.energised, rdb_of_rd (drive_rd t p (g := Reg.SIO_OUT_STAT_ENERGISED o) (p := o) (b := 25) rfl (by decide) (.inl hp))]
    exact hq.2

/-- The bits of every hold cleared. -/
def holdsCleared (s : State) : State := foldSt out12 (fun o s => s.wrb (Reg.SIO_OUT_STAT_HOLD o) false) s

theorem holdsCleared_hold (s : State) {o : Nat} (ho : o < 12) : (holdsCleared s).rdb (Reg.SIO_OUT_STAT_HOLD o) = false := by
  have hself (t : State) : (t.wrb (Reg.SIO_OUT_STAT_HOLD o) false).rdb (Reg.SIO_OUT_STAT_HOLD o) = false :=
    State.rdb_wrb_same t (f := Reg.SIO_OUT_STAT_HOLD o) (show (1 : Nat) ≠ 0 by decide) false
  refine foldSt_established (P := fun _ => True) (Q := fun t => t.rdb (Reg.SIO_OUT_STAT_HOLD o) = false) (x := o) (List.mem_range.2 ho)
    (fun _ _ _ _ => trivial) (fun t _ => hself t) (fun p _ t _ ht => ?_) trivial
  by_cases h : o = p
  · subst h
    exact hself t
  · rw [State.rdb_wrb_ne t false (by rw [hold_place, hold_place]; omega)]
    exact ht

/-- No hold is timed any more. -/
def holdTimesCleared (s : State) : State := (s.modSio fun x => { x with holdLeft := none }).modDlk fun x => { x with fbHold := false }

theorem endHolds_eq (s : State) : s.endHolds = holdTimesCleared (holdsCleared s) := by rfl

theorem holdTimesCleared_rdb (s : State) (g : Fld) : (holdTimesCleared s).rdb g = s.rdb g := State.rdb_congr (by rfl) g

theorem holdTimesCleared_left (s : State) : (holdTimesCleared s).sio.holdLeft = none := by rfl

theorem endHolds_hold (s : State) {o : Nat} (ho : o < 12) : s.endHolds.rdb (Reg.SIO_OUT_STAT_HOLD o) = false := by
  rw [endHolds_eq, holdTimesCleared_rdb, holdsCleared_hold s ho]

theorem endHolds_left (s : State) : s.endHolds.sio.holdLeft = none := by
  rw [endHolds_eq, holdTimesCleared_left]

theorem execOutputHoldExpiry_eq {h : Nat} (hleft : s.sio.holdLeft = some h) (hdue : h + 50000000 ≤ s.tm.opNs + s.tbc) :
    exec .outputHoldExpiry s = .next (allOff (out12.filter fun o => s.rdb (Reg.SIO_OUT_STAT_HOLD o))
      (if s.dlk.fbHold then s.wr Reg.DLK_FB_PERMIT 0 else s).endHolds).driveAll := by
  change execOutputHoldExpiry s = _
  rw [execOutputHoldExpiry, hleft]
  dsimp only
  rw [if_neg (by omega)]
  rfl

theorem outputHoldExpiry_claim {h : Nat} (hleft : s.sio.holdLeft = some h) (hdue : h + 50000000 ≤ s.tm.opNs + s.tbc) :
    ∃ t, exec .outputHoldExpiry s = .next t ∧ t.sio.holdLeft = none ∧ ∀ o < 12, t.rdb (Reg.SIO_OUT_STAT_HOLD o) = false ∧
      (s.rdb (Reg.SIO_OUT_STAT_HOLD o) = true → t.rdb (Reg.SIO_OUT_STAT_HS o) = false ∧ t.energised o = false ∧
        (t.out o).onHs = false ∧ (t.out o).onLs = false) := by
  refine ⟨_, execOutputHoldExpiry_eq hleft hdue, ?_, fun o ho => ⟨?_, fun hheld => ?_⟩⟩
  · rw [driveAll_left, allOff_left, endHolds_left]
  · rw [rdb_of_rd (driveAll_hold _ o), rdb_of_rd (allOff_hold _ _ ho)]
    exact endHolds_hold _ ho
  · have hmem : o ∈ out12.filter fun o => s.rdb (Reg.SIO_OUT_STAT_HOLD o) := List.mem_filter.2 ⟨List.mem_range.2 ho, hheld⟩
    obtain ⟨⟨hon, hls⟩, hhs, hen⟩ := driveAll_off ho
      (allOff_commandedOff hmem (if s.dlk.fbHold then s.wr Reg.DLK_FB_PERMIT 0 else s).endHolds)
    exact ⟨hhs, hen, hon, hls⟩

/-! ### The counters' record (R525) -/

theorem Mem.get_set (m : FMap Byte) (a : Nat) (v : Byte) (k : Nat) : Mem.get (Mem.set m a v) k = if k = a then v else Mem.get m k := FMap.get_set _ _ _ _ _

/-- A written byte reads as written, and any other as before. -/
theorem Mem.get_write (m : FMap Byte) (a : Nat) (l : List Byte) (k : Nat) :
    Mem.get (Mem.write m a l) k = if a ≤ k ∧ k < a + l.length then l.getD (k - a) 0 else Mem.get m k := by
  induction l generalizing m a with
  | nil => rw [Mem.write, if_neg (by simp)]
  | cons b l ih =>
    rw [Mem.write, ih, Mem.get_set]
    by_cases hk : k = a
    · subst hk
      simp
    · by_cases hin : a + 1 ≤ k ∧ k < a + 1 + l.length
      · rw [if_pos hin, if_pos (by simp only [List.length_cons]; omega)]
        obtain ⟨j, hj⟩ : ∃ j, k - a = j + 1 := ⟨k - a - 1, by omega⟩
        rw [hj, show k - (a + 1) = j by omega]
        rfl
      · rw [if_neg hin, if_neg hk, if_neg (by simp only [List.length_cons]; omega)]

theorem length_natLE (n v : Nat) : (natLE n v).length = n := by
  induction n generalizing v with
  | zero => rfl
  | succ n ih => rw [natLE, List.length_cons, ih]

/-- What has been written reads back. -/
theorem Mem.read_write (m : FMap Byte) (a : Nat) (l r : List Byte) : Mem.read (Mem.write m a (l ++ r)) a l.length = l := by
  refine List.ext_getElem (by simp [Mem.read]) fun i h1 h2 => ?_
  simp only [Mem.read, List.getElem_map, List.getElem_range, Mem.get_write]
  rw [if_pos (by simp only [List.length_append]; omega), Nat.add_sub_cancel_left, List.getD_eq_getElem _ _ (by simp; omega), List.getElem_append_left h2]

theorem counterCheckpoint_claim (hpor : s.rpc.por = false) (hmod : s.rpc.mod = false) (hnv : s.nvAlive = true) :
    ∃ t, exec .counterCheckpoint s = .next t ∧
      Mem.read t.rpc.store 0xF0C0 12 = natLE 8 s.optimeMs ++ natLE 4 (s.rd Reg.RPC_PCYCLES_COUNT) ∧
      (∀ a, a < 0xF0C0 ∨ 0xF0D0 ≤ a → Mem.get t.rpc.store a = Mem.get s.rpc.store a) ∧
      t = { s with rpc := { s.rpc with store := t.rpc.store, storeErrs := t.rpc.storeErrs } } := by
  let l := natLE 8 s.optimeMs ++ natLE 4 (s.rd Reg.RPC_PCYCLES_COUNT)
  have hl : l.length = 12 := by simp [l, length_natLE]
  have hexec : exec .counterCheckpoint s = .next (s.modRpc fun x => { x with
      store := Mem.write x.store 0xF0C0 (withCrc l), storeErrs := Ecc.written x.storeErrs 0xF0C0 (withCrc l).length }) := by
    change execCounterCheckpoint s = _
    rw [execCounterCheckpoint, if_neg (by simp [hpor, hmod]), State.nvWrite, if_pos hnv]
    rfl
  refine ⟨_, hexec, ?_, fun a ha => ?_, rfl⟩
  · exact hl ▸ Mem.read_write s.rpc.store 0xF0C0 l (wordLE (crc32c l))
  · refine (Mem.get_write s.rpc.store 0xF0C0 (withCrc l) a).trans (if_neg ?_)
    have hlen : (withCrc l).length = 16 := by simp [withCrc, hl, wordLE]
    omega

/-- Settles O27: the supply through `startSave_saving`, the releases of P and M through `release_released`, W's through `warmJoin_eq`. -/
theorem supplyAndReleases : Obligations.SupplyAndReleases := fun _ =>
  ⟨supplyLow_claim, fun h => ⟨supplyInRange_ride h, rideThroughEnd_ride h⟩, supplyInRange_other, feedOutOfRange_claim, powerOnRelease_claim,
    resetRelease_claim, warmResetRelease_claim, channelResetRelease_claim, fun _ => outputHoldExpiry_claim, rfl, counterCheckpoint_claim⟩

end Sys2Proof.Claims
end

section
/-! Forces and the retained copy: O30. -/

namespace Sys2Proof.Claims

open Sys2Proof Sys2Proof.Machine

variable {s t u : State}

/-! ### A row that its effect refuses -/

theorem cmd_refused {code : Byte} {eff : State → CmdRes State} {seq : BitVec 16} {port : CmdPort} {w1 w2 w3 : Word} {st : Nat}
    (hready : ready s code.toNat) (heff : eff (taken s seq) = .error st) :
    s.cmd code (atTc seq port w1 w2 w3) eff = (taken s seq).complete seq code.toNat st (s.tm.cyc % 2 ^ 32) := by
  obtain ⟨halive, hsave, hgate⟩ := hready
  have hgate' : (taken s seq).gate code.toNat = none := hgate
  rw [cmd_apply halive hsave, State.runRecord]
  rw [hgate', heff]
  rfl

/-- A row of the lane whose effect is refused completes with that status. -/
theorem refused_of {mk : CmdRec → Instr} {code : Byte} {w1 w2 w3 : Word} {st : Nat} (eff : CmdRec → State → CmdRes State)
    (hexec : ∀ r, exec (mk r) s = .next (s.cmd code r (eff r))) (hst : st < 128) {seq : BitVec 16} {port : CmdPort}
    (hready : ready s code.toNat) (heff : eff (atTc seq port w1 w2 w3) (taken s seq) = .error st) :
    ∃ t, exec (mk (atTc seq port w1 w2 w3)) s = .next t ∧ posted (taken s seq) t seq code.toNat st (s.tm.cyc % 2 ^ 32) :=
  ⟨_, by rw [hexec, cmd_refused hready heff], (complete_posted (taken s seq) seq code.isLt hst (cyc_word_lt s)).1⟩

theorem needs_false {b : Bool} (h : b = false) (st : Nat) (r : CmdRes State) : needs b st r = .error st := by
  subst h
  rfl

/-! ### Memory written in the units -/

/-- Memory errors, tags and registers differ, nothing else: what a write of whole codewords does. -/
structure StoreOp (s t : State) : Prop where
  frame : t = { s with regs := t.regs, chs := t.chs }
  ch : ∀ d, t.ch d = { s.ch d with errs := (t.ch d).errs, tags := (t.ch d).tags }

theorem StoreOp.refl (s : State) : StoreOp s s := ⟨rfl, fun _ => rfl⟩

theorem StoreOp.trans (h : StoreOp s t) (h' : StoreOp t u) : StoreOp s u where
  frame := by rw [h'.frame, h.frame]
  ch d := by rw [h'.ch d, h.ch d]

theorem StoreOp.modCh {f : Chan → Chan} (s : State) (c : Ch)
    (hf : f (s.ch c) = { s.ch c with errs := (f (s.ch c)).errs, tags := (f (s.ch c)).tags }) : StoreOp s (s.modCh c f) where
  frame := rfl
  ch d := by
    by_cases h : d = c
    · subst h
      rw [State.ch_modCh_same, ← hf]
    · rw [State.ch_modCh_ne s f h]

theorem StoreOp.flip (s : State) (c : Ch) (cw : Nat) : StoreOp s (s.flip c cw) := by
  unfold State.flip
  split
  · have herr : StoreOp s (s.setErr c cw (FMap.get 0 (s.ch c).errs cw ^^^ s.flipMask c)) := StoreOp.modCh s c (by rfl)
    exact herr.trans ⟨rfl, fun _ => rfl⟩
  · exact StoreOp.refl s

theorem StoreOp.storeWritten (s : State) (c : Ch) (lo n : Nat) : StoreOp s (s.storeWritten c lo n) := by
  unfold State.storeWritten State.flipAmong
  have hcut : StoreOp s (s.modCh c fun h => { h with errs := FMap.cut h.errs lo (lo + n), tags := FMap.cut h.tags lo (lo + n) }) :=
    StoreOp.modCh s c (by rfl)
  refine hcut.trans ?_
  dsimp only
  split
  · split
    · exact StoreOp.flip _ c _
    · exact StoreOp.refl _
  · exact StoreOp.refl _

theorem StoreOp.foldSt {α : Type} {f : α → State → State} (hf : ∀ x s, StoreOp s (f x s)) (l : List α) (s : State) :
    StoreOp s (foldSt l f s) := by
  induction l generalizing s with
  | nil => exact StoreOp.refl s
  | cons x l ih => exact (hf x s).trans (ih (f x s))

theorem StoreOp.forceWritten (s : State) (n : Nat) : StoreOp s (s.forceWritten n) :=
  StoreOp.foldSt (fun c s => StoreOp.storeWritten s c _ 2) Ch.all s

theorem StoreOp.clearForces (s : State) : StoreOp { s with forces := [] } s.clearForces :=
  StoreOp.foldSt (fun c s => StoreOp.storeWritten s c _ 512) Ch.all _

theorem MiuOp.writeTagHalf (s : State) (c : Ch) (cw i : Nat) (d : BitVec 64) : MiuOp s (s.writeTagHalf c cw i d) := by
  unfold State.writeTagHalf
  dsimp only
  refine MiuOp.trans (t := if FMap.get false (s.ch c).tags cw then s else _) ?_ (MiuOp.ite (MiuOp.refl _) (MiuOp.flip _ c cw))
  refine MiuOp.ite (MiuOp.refl s) (MiuOp.ite (MiuOp.refl s) (MiuOp.ite ((MiuOp.setTag s c cw true).trans (MiuOp.setErr _ c cw 0)) ?_))
  split
  · exact MiuOp.setErr s c cw _
  · exact (MiuOp.miuCorrected s c cw _ _ false).trans (MiuOp.setErr _ c cw _)
  · exact ((MiuOp.miuUncorrectable s c cw _).trans (MiuOp.setTag _ c cw true)).trans (MiuOp.setErr _ c cw 0)

theorem MiuOp.forceValue (s : State) (n : Nat) : MiuOp s (s.forceValue n) :=
  MiuOp.foldSt (fun c s => MiuOp.writeTagHalf s c _ 0 _) Ch.all s

/-! ### The force table (R148 to R151) -/

/-- Entry `n` holds `v`, the others are as they were, and memory is written. -/
def forcedAt (s u : State) (n : Nat) (v : Option Force) : Prop :=
  FMap.get none u.forces n = v ∧ (∀ k, k ≠ n → FMap.get none u.forces k = FMap.get none s.forces k) ∧
    u = { s with regs := u.regs, chs := u.chs, forces := u.forces }

theorem forcedAt_of_forceWritten (s : State) (n : Nat) (v : Option Force) :
    forcedAt s (State.forceWritten { s with forces := FMap.set none s.forces n v } n) n v := by
  have hop := (StoreOp.forceWritten { s with forces := FMap.set none s.forces n v } n).frame
  generalize State.forceWritten { s with forces := FMap.set none s.forces n v } n = u at hop
  have hforces : u.forces = FMap.set none s.forces n v := by rw [hop]
  refine ⟨?_, fun k hk => ?_, by rw [hop]⟩
  · rw [hforces, FMap.get_set_same]
  · rw [hforces, FMap.get_set_ne _ _ _ hk]

theorem forcedAt_of_forceValue (s : State) (n : Nat) (v : Option Force) :
    forcedAt s { s.forceValue n with forces := FMap.set none (s.forceValue n).forces n v } n v := by
  have hop := (MiuOp.forceValue s n).frame
  generalize s.forceValue n = u at hop
  have hforces : u.forces = s.forces := by rw [hop]
  refine ⟨FMap.get_set_same _ _ _ _, fun k hk => ?_, ?_⟩
  · exact (FMap.get_set_ne _ _ _ hk).trans (congrArg (FMap.get none · k) hforces)
  · rw [hop]

section Entries

variable {b : Bank} {y : Sym} {w1 w2 w3 : Word} {n : Nat}

/-- What `FORCE_SET` checks before it looks for an entry. -/
structure Forceable (s : State) (b : Bank) (y : Sym) (w1 w2 : Word) : Prop where
  mode : s.fromStartup = true
  role : s.forceRole = true
  bank : s.runBank = some b
  symbol : b.symbol w1 = some y
  place : forceBarred y.word y.addr = false
  value : y.word = true ∨ w2.toNat ≤ 1
  safe : s.safetyLoc y.word y.addr = false ∨ s.md.mode = .maint

theorem Forceable.effect (h : Forceable s b y w1 w2) (r : CmdRes State) :
    (needs (s.fromStartup && s.forceRole) St.wrongState <| needs (!forceBarred y.word y.addr && (y.word || w2.toNat ≤ 1)) St.badArg <|
      needs (!s.safetyLoc y.word y.addr || s.md.mode = .maint) St.wrongState r) = r := by
  obtain ⟨hmode, hrole, -, -, hplace, hvalue, hsafe⟩ := h
  rw [needs_true (by rw [hmode, hrole]; rfl), needs_true (by rw [hplace]; rcases hvalue with h | h <;> simp [h]),
    needs_true (by rcases hsafe with h | h <;> simp [h])]

/-- The force that `FORCE_SET` writes. -/
def forceOf (s : State) (y : Sym) (w1 w2 : Word) : Force := ⟨w1, s.safetyLoc y.word y.addr, y.word, y.addr, w2⟩

theorem forceSet_again (h : Forceable s b y w1 w2) (hentry : forceEntry s.forces w1 = some n) :
    applyForceSet w1 w2 s =
      .ok { s.forceValue n with forces := FMap.set none (s.forceValue n).forces n (some (forceOf s y w1 w2)) } := by
  have heff := h.effect (.ok { s.forceValue n with forces := FMap.set none (s.forceValue n).forces n (some (forceOf s y w1 w2)) })
  unfold applyForceSet
  rw [h.bank]
  simp only [Option.bind_some, h.symbol, hentry]
  exact heff

theorem forceSet_new (h : Forceable s b y w1 w2) (hentry : forceEntry s.forces w1 = none) (hfree : freeEntry s.forces = some n) :
    applyForceSet w1 w2 s =
      .ok (State.forceWritten { s with forces := FMap.set none s.forces n (some (forceOf s y w1 w2)) } n) := by
  have heff := h.effect (.ok (State.forceWritten { s with forces := FMap.set none s.forces n (some (forceOf s y w1 w2)) } n))
  unfold applyForceSet
  rw [h.bank]
  simp only [Option.bind_some, h.symbol, hentry, hfree]
  exact heff

theorem forceSet_full (h : Forceable s b y w1 w2) (hentry : forceEntry s.forces w1 = none) (hfree : freeEntry s.forces = none) :
    applyForceSet w1 w2 s = .error St.denied := by
  have heff := h.effect (.error St.denied)
  unfold applyForceSet
  rw [h.bank]
  simp only [Option.bind_some, h.symbol, hentry, hfree]
  exact heff

theorem forceSet_effect (h : Forceable s b y w1 w2)
    (hn : forceEntry s.forces w1 = some n ∨ (forceEntry s.forces w1 = none ∧ freeEntry s.forces = some n)) :
    ∃ u, applyForceSet w1 w2 s = .ok u ∧ forcedAt s u n (some (forceOf s y w1 w2)) := by
  rcases hn with hentry | ⟨hentry, hfree⟩
  · exact ⟨_, forceSet_again h hentry, forcedAt_of_forceValue s n _⟩
  · exact ⟨_, forceSet_new h hentry hfree, forcedAt_of_forceWritten s n _⟩

theorem forceClear_effect (hmode : s.fromStartup = true) (hrole : s.forceRole = true) (hentry : forceEntry s.forces w1 = some n) :
    ∃ u, applyForceClear w1 s = .ok u ∧ forcedAt s u n none := by
  refine ⟨_, ?_, forcedAt_of_forceWritten s n none⟩
  unfold applyForceClear
  rw [needs_true (by rw [hmode, hrole]; rfl), hentry]

theorem forceClearAll_effect (hmode : s.fromStartup = true) (hrole : s.forceRole = true) :
    ∃ u, applyForceClearAll s = .ok u ∧ u = { s with regs := u.regs, chs := u.chs, forces := [] } ∧
      ∀ c, u.ch c = { s.ch c with errs := (u.ch c).errs, tags := (u.ch c).tags } := by
  refine ⟨s.clearForces, ?_, (StoreOp.clearForces s).frame, (StoreOp.clearForces s).ch⟩
  unfold applyForceClearAll
  exact needs_true (by rw [hmode, hrole]; rfl) _ _

/-- In STANDBY and ORPHAN no force is commanded (R150). -/
theorem forces_barred (hrole : s.forceRole = false) (w1 w2 : Word) :
    applyForceSet w1 w2 s = .error St.wrongState ∧ applyForceClear w1 s = .error St.wrongState ∧
      applyForceClearAll s = .error St.wrongState := by
  have hand : (s.fromStartup && s.forceRole) = false := by rw [hrole, Bool.and_false]
  exact ⟨needs_false hand _ _, needs_false hand _ _, needs_false hand _ _⟩

end Entries

/-! ### The retained copy is discarded (R144) -/

theorem nvWrite_alive (h : s.nvAlive = true) (a : Nat) (l : List Byte) : s.nvWrite a l =
    s.modRpc fun x => { x with store := Mem.write x.store a l, storeErrs := Ecc.written x.storeErrs a l.length } := if_pos h

theorem nvAlive_of_hostAlive (h : s.hostAlive = true) : s.nvAlive = true := by
  simp only [State.hostAlive, Bool.and_eq_true] at h
  simp only [State.nvAlive, Bool.and_eq_true]
  exact h.1.1.1

theorem Mem.read_write_same (m : FMap Byte) (a : Nat) (l : List Byte) : Mem.read (Mem.write m a l) a l.length = l := by
  have h := Mem.read_write m a l []
  rwa [List.append_nil] at h

/-- A block of bytes elsewhere reads as before. -/
theorem Mem.read_write_apart (m : FMap Byte) (a : Nat) (l : List Byte) {b n : Nat} (h : b + n ≤ a ∨ a + l.length ≤ b) :
    Mem.read (Mem.write m a l) b n = Mem.read m b n := by
  refine List.map_congr_left fun i hi => ?_
  have hi' : i < n := List.mem_range.mp hi
  rw [Mem.get_write, if_neg (by omega)]

theorem retDiscard_effect (hnv : s.nvAlive = true) (hmode : s.md.mode = .hold ∨ s.md.mode = .safe ∨ s.md.mode = .maint) :
    ∃ u, applyRetDiscard s = .ok u ∧ Mem.read u.rpc.store 25664 4 = [0, 0, 0, 0] ∧
      Mem.read u.rpc.store 40 4 = natLE 4 0x44534344 ∧
      (∀ a, (a < 40 ∨ 44 ≤ a) → (a < 25664 ∨ 25668 ≤ a) → Mem.get u.rpc.store a = Mem.get s.rpc.store a) ∧
      regsTo s u [(Reg.CMD_RET_STATUS_DISCARDED, 1)] ∧
      u = { s with regs := u.regs, rpc := { s.rpc with store := u.rpc.store, storeErrs := u.rpc.storeErrs } } := by
  let v := (s.nvWrite Ret.markAt (natLE 4 0)).nvWrite Ret.discardAt (natLE 4 Ret.discardMark)
  have hv : v.rpc.store = Mem.write (Mem.write s.rpc.store 25664 (natLE 4 0)) 40 (natLE 4 0x44534344) ∧ v.regs = s.regs ∧
      v = { s with rpc := { s.rpc with store := v.rpc.store, storeErrs := v.rpc.storeErrs } } := by
    have hnv' : (s.nvWrite Ret.markAt (natLE 4 0)).nvAlive = true := by
      rw [nvWrite_alive hnv]
      exact hnv
    have heq : v = _ := nvWrite_alive hnv' _ _
    rw [heq, nvWrite_alive hnv]
    exact ⟨rfl, rfl, rfl⟩
  obtain ⟨hstore, hregs, hframe⟩ := hv
  refine ⟨v.wrb Reg.CMD_RET_STATUS_DISCARDED true, ?_, ?_, ?_, fun a ha hb => ?_, ?_, ?_⟩
  · unfold applyRetDiscard
    exact needs_true (by rcases hmode with h | h | h <;> simp [h]) _ _
  · have h0 : natLE 4 0 = [0, 0, 0, 0] := by decide
    calc Mem.read v.rpc.store 25664 4 = Mem.read (Mem.write s.rpc.store 25664 (natLE 4 0)) 25664 4 := by
          rw [hstore, Mem.read_write_apart _ _ _ (.inr (by rw [length_natLE]; decide))]
      _ = natLE 4 0 := Mem.read_write_same _ _ (natLE 4 0)
      _ = [0, 0, 0, 0] := h0
  · exact (congrArg (Mem.read · 40 4) hstore).trans (Mem.read_write_same _ _ (natLE 4 0x44534344))
  · refine (congrArg (Mem.get · a) hstore).trans ?_
    rw [Mem.get_write, if_neg (by rw [length_natLE]; omega), Mem.get_write, if_neg (by rw [length_natLE]; omega)]
  · have hto : regsTo v (v.wrb Reg.CMD_RET_STATUS_DISCARDED true) [(Reg.CMD_RET_STATUS_DISCARDED, 1)] :=
      regsTo_writes (l := [(Reg.CMD_RET_STATUS_DISCARDED, 1)]) ⟨by decide, by decide⟩ v
    exact ⟨hto.1, fun g hg => (hto.2 g hg).trans (State.rd_congr hregs g)⟩
  · have hw (x : State) : x.wrb Reg.CMD_RET_STATUS_DISCARDED true =
        { x with regs := (x.wrb Reg.CMD_RET_STATUS_DISCARDED true).regs } := by rfl
    rw [hw, hframe]

/-- Settles O30: a force comes down to one entry of the table and the memory written for it, and the retained copy to its two marks. -/
theorem forcesAndRetainedCopy : Obligations.ForcesAndRetainedCopy := by
  unfold Obligations.ForcesAndRetainedCopy
  intro s w1 w2 w3
  refine ⟨fun hmode hrole => ⟨fun b y hbank hsym hplace hval hsafe => ?_, fun n hentry => ?_, ?_⟩, fun hrole x hx seq port hready => ?_,
    fun hmode => ?_⟩
  · have hforce (seq : BitVec 16) : Forceable (taken s seq) b y w1 w2 := ⟨hmode, hrole, hbank, hsym, hplace, hval, hsafe⟩
    refine ⟨fun n hn => ?_, fun hentry hfree seq port hready => ?_⟩
    · refine takesEffect_of (code := 0x45) (fun r => applyForceSet r.w1 r.w2) (fun _ => rfl) fun seq port _ => ?_
      exact forceSet_effect (hforce seq) hn
    · exact refused_of (code := 0x45) (st := 5) (fun r => applyForceSet r.w1 r.w2) (fun _ => rfl) (by decide) hready
        (forceSet_full (hforce seq) hentry hfree)
  · refine takesEffect_of (code := 0x46) (fun r => applyForceClear r.w1) (fun _ => rfl) fun seq port _ => ?_
    exact forceClear_effect (s := taken s seq) hmode hrole hentry
  · refine takesEffect_of (code := 0x47) (fun _ => applyForceClearAll) (fun _ => rfl) fun seq port _ => ?_
    exact forceClearAll_effect (s := taken s seq) hmode hrole
  · have hbar := forces_barred (s := taken s seq) hrole w1 w2
    obtain ⟨hset, hclear, hall⟩ := hbar
    simp only [List.mem_cons, List.not_mem_nil, or_false] at hx
    rcases hx with rfl | rfl | rfl
    · exact refused_of (code := 0x45) (st := 1) (fun r => applyForceSet r.w1 r.w2) (fun _ => rfl) (by decide) hready hset
    · exact refused_of (code := 0x46) (st := 1) (fun r => applyForceClear r.w1) (fun _ => rfl) (by decide) hready hclear
    · exact refused_of (code := 0x47) (st := 1) (fun _ => applyForceClearAll) (fun _ => rfl) (by decide) hready hall
  · refine takesEffect_of (code := 0x48) (fun _ => applyRetDiscard) (fun _ => rfl) fun seq port hready => ?_
    exact retDiscard_effect (s := taken s seq) (nvAlive_of_hostAlive (s := s) hready.1) hmode

end Sys2Proof.Claims
end

section
/-! What the copies on the plug give a channel depends on the security unit's state and the node's switches alone. -/

namespace Sys2Proof.Claims

open Sys2Proof Sys2Proof.Machine

variable {s t : State}

/-- The security unit's state and the node number of the switches are the same: what a copy's checks turn on. -/
structure SameCopies (s t : State) : Prop where
  sec : t.sec = s.sec
  node : t.rd Reg.SIO_SWITCH_SW_N = s.rd Reg.SIO_SWITCH_SW_N

namespace SameCopies

theorem otpVal (h : SameCopies s t) : t.otpVal = s.otpVal := by
  unfold State.otpVal
  rw [h.sec]

theorem rollback (h : SameCopies s t) : t.rollback = s.rollback := by
  unfold State.rollback
  rw [h.otpVal]

theorem rootLive (h : SameCopies s t) (k : Nat) : t.rootLive k = s.rootLive k := by
  unfold State.rootLive
  rw [h.otpVal]

theorem rootOk (h : SameCopies s t) (sig : List Byte) : t.rootOk sig = s.rootOk sig := by
  unfold State.rootOk
  simp only [h.rootLive, h.otpVal]

theorem fleetKey (h : SameCopies s t) (k : Nat) : t.fleetKey k = s.fleetKey k := by
  unfold State.fleetKey
  rw [h.sec]

theorem plug (h : SameCopies s t) (c : Ch) (k : Nat) : t.plug c k = s.plug c k := by
  unfold State.plug
  rw [h.sec]

theorem checkPlain (h : SameCopies s t) (l : List Byte) (n : Nat) : t.checkPlain l n = s.checkPlain l n := by
  unfold State.checkPlain
  simp only [h.rootOk, h.rollback, h.fleetKey, h.node]

theorem openSecs (h : SameCopies s t) (l : List Byte) (es : List SecEnt) : t.openSecs l es = s.openSecs l es := by
  induction es with
  | nil => rfl
  | cons e es ih =>
    unfold State.openSecs
    rw [ih, h.fleetKey]

theorem openContainer (h : SameCopies s t) (l : List Byte) (n : Nat) : t.openContainer l n = s.openContainer l n := by
  unfold State.openContainer
  rw [h.checkPlain, h.openSecs]

theorem copyRead (h : SameCopies s t) (c : Ch) (k : Nat) : t.copyRead c k = s.copyRead c k := by
  unfold State.copyRead
  rw [h.plug, h.plug]

theorem pagesBad (h : SameCopies s t) (c : Ch) (k : Nat) : t.pagesBad c k = s.pagesBad c k := by
  unfold State.pagesBad State.pagesRead
  simp only [h.copyRead, h.plug]

theorem readCopy (h : SameCopies s t) (c : Ch) (k : Nat) : t.readCopy c k = s.readCopy c k := by
  unfold State.readCopy
  rw [h.copyRead, h.plug, h.plug]

theorem openCopy (h : SameCopies s t) (c : Ch) (k : Nat) (fw : Option Nat) : t.openCopy c k fw = s.openCopy c k fw := by
  unfold State.openCopy
  rw [h.plug, h.readCopy, h.pagesBad, h.copyRead]
  simp only [h.openContainer]

theorem copyBank (h : SameCopies s t) (c : Ch) (k : Nat) : t.copyBank c k = s.copyBank c k := by
  unfold State.copyBank
  rw [h.openCopy]

theorem copyValid (h : SameCopies s t) (c : Ch) (k : Nat) : t.copyValid c k = s.copyValid c k := by
  unfold State.copyValid
  rw [h.openCopy]

theorem copyValidIn (h : SameCopies s t) (k : Nat) : t.copyValidIn k = s.copyValidIn k := by
  unfold State.copyValidIn
  simp only [h.copyValid]

theorem copyBytes (h : SameCopies s t) (k : Nat) : t.copyBytes k = s.copyBytes k := by
  unfold State.copyBytes
  rw [h.copyValidIn]
  simp only [h.readCopy]

theorem copyHolds (h : SameCopies s t) (hchs : t.chs = s.chs) (k : Nat) (f : Chan → Option Bank) : t.copyHolds k f = s.copyHolds k f := by
  unfold State.copyHolds State.ch
  rw [hchs]
  simp only [h.copyBank]

end SameCopies

theorem sameCopies_taken (s : State) (seq : BitVec 16) : SameCopies s (taken s seq) := ⟨rfl, rfl⟩

end Sys2Proof.Claims
end

section
/-! Undercoat banks: O29. -/

namespace Sys2Proof.Claims

open Sys2Proof Sys2Proof.Machine

variable {s t u : State} {c d : Ch}

/-! ### Steps that each touch one channel -/

/-- What a fold leaves in a channel, where each of its steps touches the view of its own channel only. -/
theorem foldSt_view {β : Type} (view : State → Ch → β) {f : Ch → State → State} {g : Ch → β → β}
    (hsame : ∀ c s, view (f c s) c = g c (view s c)) (hne : ∀ c d s, d ≠ c → view (f c s) d = view s d)
    {l : List Ch} (hl : l.Nodup) (s : State) (c : Ch) : view (foldSt l f s) c = if c ∈ l then g c (view s c) else view s c := by
  induction l generalizing s with
  | nil => rfl
  | cons x l ih =>
    obtain ⟨hx, hl⟩ := List.nodup_cons.1 hl
    refine (ih hl (f x s)).trans ?_
    by_cases h : c = x
    · subst h
      rw [if_neg hx, if_pos List.mem_cons_self, hsame]
    · rw [hne x c s h]
      simp [h]

theorem nodup_chans (p : Ch → Bool) : (Ch.all.filter p).Nodup := List.Nodup.filter p (by decide)

theorem mem_chans {p : Ch → Bool} : c ∈ Ch.all.filter p ↔ p c = true := by simp [List.mem_filter, mem_chAll]

/-! ### What the operations on an undercoat write -/

def ucFlds (n : Nat) : List Fld := [Reg.LEN_STATUS_UC_STATE n, Reg.LEN_BANK_UC_LO_ID_LO n, Reg.LEN_BANK_UC_HI_ID_HI n]

theorem setUc_frame (s : State) (c : Ch) (b : Option Bank) (st : Nat) :
    s.setUc c b st = { s with regs := (s.setUc c b st).regs, chs := (s.setUc c b st).chs } := rfl

theorem setUc_ch (s : State) (c : Ch) (b : Option Bank) (st : Nat) : (s.setUc c b st).ch c = { s.ch c with uc := b } :=
  State.ch_modCh_same s c fun h => { h with uc := b }

theorem setUc_ch_ne (s : State) (b : Option Bank) (st : Nat) (h : d ≠ c) : (s.setUc c b st).ch d = s.ch d :=
  State.ch_modCh_ne s (fun h => { h with uc := b }) h

theorem setUc_keeps (s : State) (c : Ch) (b : Option Bank) (st : Nat) : keepsRegs s (s.setUc c b st) (ucFlds (Ch.num c)) := by
  have hmod : keepsRegs s (s.modCh c fun h => { h with uc := b }) (ucFlds (Ch.num c)) := keepsRegs_of_eq rfl _
  exact ((hmod.wr (f := Reg.LEN_STATUS_UC_STATE (Ch.num c)) (by simp [ucFlds]) st).wr (f := Reg.LEN_BANK_UC_LO_ID_LO (Ch.num c))
    (by simp [ucFlds]) _).wr (f := Reg.LEN_BANK_UC_HI_ID_HI (Ch.num c)) (by simp [ucFlds]) _

theorem setUc_ucState (s : State) (c : Ch) (b : Option Bank) {st : Nat} (hst : st < 8) : (s.setUc c b st).ucState c = st := by
  unfold State.setUc State.ucState
  dsimp only
  rw [State.rd_wr_ne _ _ _ _ (by cases c <;> decide), State.rd_wr_ne _ _ _ _ (by cases c <;> decide), State.rd_wr_of_lt _ hst]

/-- The identity as the channel reports it (R132). -/
theorem setUc_id (s : State) (c : Ch) (b : Bank) (st : Nat) :
    (s.setUc c (some b) st).rd (Reg.LEN_BANK_UC_LO_ID_LO (Ch.num c)) = b.id.toNat % 2 ^ 32 ∧
      (s.setUc c (some b) st).rd (Reg.LEN_BANK_UC_HI_ID_HI (Ch.num c)) = b.id.toNat / 2 ^ 32 := by
  unfold State.setUc
  dsimp only
  have hid : b.id.toNat / 4294967296 < 2 ^ 32 := by have := b.id.isLt; omega
  refine ⟨?_, State.rd_wr_of_lt _ hid⟩
  rw [State.rd_wr_ne _ _ _ _ (by cases c <;> decide), State.rd_wr_same]
  rfl

theorem ucState_of_keeps {l : List Fld} (h : keepsRegs s t l) (c : Ch) (hl : ∀ f ∈ l, (Reg.LEN_STATUS_UC_STATE (Ch.num c)).key ≠ f.key) :
    t.ucState c = s.ucState c := h _ hl

theorem setUc_ucState_ne (s : State) (b : Option Bank) (st : Nat) (h : d ≠ c) : (s.setUc c b st).ucState d = s.ucState d :=
  ucState_of_keeps (setUc_keeps s c b st) d (by revert h; cases c <;> cases d <;> decide)

theorem prgRegs_ucState (s : State) (c : Ch) : s.prgRegs.ucState c = s.ucState c :=
  ucState_of_keeps (prgRegs_keeps s) c (by cases c <;> decide)

theorem prgRegs_chs (s : State) : s.prgRegs.chs = s.chs := by rw [prgRegs_frame s]

theorem prgRegs_ch (s : State) (c : Ch) : s.prgRegs.ch c = s.ch c := congrArg (Per3.get · c) (prgRegs_chs s)

/-- `prgRegs` keeps a field that is none of its own. -/
theorem prgRegs_rd (s : State) {g : Fld} (h : ∀ f ∈ agreeFlds, g.key ≠ f.key) : s.prgRegs.rd g = s.rd g := prgRegs_keeps s g h

/-! ### Load, disarming and release -/

/-- What `PRG_LOAD` does in a channel. -/
def ucLoad (copy : Nat) (c : Ch) (s : State) : State := (s.setUc c none 1).modCh c fun h => { h with ucCopy := copy }

theorem ucLoad_ch (copy : Nat) (s : State) (c : Ch) : (ucLoad copy c s).ch c = { s.ch c with uc := none, ucCopy := copy } := by
  have h := setUc_ch s c none 1
  rw [ucLoad, State.ch_modCh_same, h]

theorem ucLoad_rd (copy : Nat) (s : State) (c : Ch) (f : Fld) : (ucLoad copy c s).rd f = (s.setUc c none 1).rd f := by
  rw [ucLoad, State.rd_modCh]

theorem ucLoad_ucState (copy : Nat) (s : State) (c : Ch) : (ucLoad copy c s).ucState c = 1 :=
  (ucLoad_rd copy s c _).trans (setUc_ucState s c none (by decide))

theorem ucLoad_ucState_ne (copy : Nat) (s : State) (h : d ≠ c) : (ucLoad copy c s).ucState d = s.ucState d :=
  (ucLoad_rd copy s c _).trans (setUc_ucState_ne s none 1 h)

theorem ucLoad_ch_ne (copy : Nat) (s : State) (h : d ≠ c) : (ucLoad copy c s).ch d = s.ch d :=
  (State.ch_modCh_ne (s.setUc c none 1) (fun h => { h with ucCopy := copy }) h).trans (setUc_ch_ne s none 1 h)

theorem ucLoad_view (copy : Nat) {l : List Ch} (hl : l.Nodup) (s : State) (c : Ch) :
    ((foldSt l (ucLoad copy) s).ucState c, (foldSt l (ucLoad copy) s).ch c) =
      if c ∈ l then (1, { s.ch c with uc := none, ucCopy := copy }) else (s.ucState c, s.ch c) := by
  refine foldSt_view (fun s c => (s.ucState c, s.ch c)) (f := ucLoad copy) (g := fun _ p => (1, { p.2 with uc := none, ucCopy := copy }))
    (fun c s => Prod.ext (ucLoad_ucState copy s c) (ucLoad_ch copy s c)) (fun c d s h => Prod.ext (ucLoad_ucState_ne copy s h)
      (ucLoad_ch_ne copy s h)) hl s c

theorem ucLoad_frame (copy : Nat) (l : List Ch) (s : State) :
    foldSt l (ucLoad copy) s = { s with regs := (foldSt l (ucLoad copy) s).regs, chs := (foldSt l (ucLoad copy) s).chs } :=
  foldSt_inv (P := fun u => u = { s with regs := u.regs, chs := u.chs }) (fun c _ u hu => by
    have hstep : ucLoad copy c u = { u with regs := (ucLoad copy c u).regs, chs := (ucLoad copy c u).chs } := rfl
    rw [hstep, hu]) rfl

theorem prgLoad_effect {w1 : Word} (hmode : s.fromRun = true) (hmixed : s.rdb Reg.SEC_STATUS_FW_MIXED = false) (hw : w1.toNat ≤ 1)
    (hloading : s.ucLoading = false) (harmed : s.ucArmed = false) (hholds : s.copyHolds w1.toNat (·.run) = false) :
    ∃ u, applyPrgLoad w1 s = .ok u ∧
      (∀ c, s.booted c = true → u.ucState c = 1 ∧ u.ch c = { s.ch c with uc := none, ucCopy := w1.toNat }) ∧
      (∀ c, s.booted c = false → u.ch c = s.ch c) ∧ u.rd Reg.CMD_PRG_STATE_LOAD_COPY = w1.toNat ∧
      u.rdb Reg.CMD_PRG_STATE_SWITCH_BACK = false ∧ u = { s with regs := u.regs, chs := u.chs } := by
  let v := foldSt (Ch.all.filter s.booted) (ucLoad w1.toNat) s
  let x := (v.wr Reg.CMD_PRG_STATE_LOAD_COPY w1.toNat).wrb Reg.CMD_PRG_STATE_SWITCH_BACK false
  have hx : keepsRegs v x [Reg.CMD_PRG_STATE_LOAD_COPY, Reg.CMD_PRG_STATE_SWITCH_BACK] :=
    ((keepsRegs_refl v _).wr (f := Reg.CMD_PRG_STATE_LOAD_COPY) (by decide) _).wrb (f := Reg.CMD_PRG_STATE_SWITCH_BACK) (by decide) false
  have hst (c : Ch) : x.prgRegs.ucState c = v.ucState c :=
    (prgRegs_ucState x c).trans (ucState_of_keeps hx c (by cases c <;> decide))
  have hch (c : Ch) : x.prgRegs.ch c = v.ch c := prgRegs_ch x c
  have hview (c : Ch) := ucLoad_view w1.toNat (nodup_chans s.booted) s c
  refine ⟨x.prgRegs, ?_, fun c hc => ?_, fun c hc => ?_, ?_, ?_, ?_⟩
  · unfold applyPrgLoad
    rw [needs_true (by rw [hmode, hmixed]; rfl), needs_true (decide_eq_true hw), needs_true (by rw [hloading, harmed]; rfl),
      needs_true (by rw [hholds]; rfl)]
    rfl
  · have h := (hview c).trans (if_pos (mem_chans.2 hc))
    exact ⟨(hst c).trans (congrArg Prod.fst h), (hch c).trans (congrArg Prod.snd h)⟩
  · have h := (hview c).trans (if_neg fun h => by rw [mem_chans.1 h] at hc; exact absurd hc (by decide))
    exact (hch c).trans (congrArg Prod.snd h)
  · rw [prgRegs_rd x (by decide)]
    exact (State.rd_wrb_ne _ Reg.CMD_PRG_STATE_SWITCH_BACK Reg.CMD_PRG_STATE_LOAD_COPY false (by decide)).trans
      (State.rd_wr_of_lt v (f := Reg.CMD_PRG_STATE_LOAD_COPY) (show w1.toNat < 2 by omega))
  · exact (rdb_of_rd (prgRegs_rd x (by decide))).trans (State.rdb_wrb_same _ (by decide) false)
  · rw [prgRegs_frame x]
    have hv := ucLoad_frame w1.toNat (Ch.all.filter s.booted) s
    have hxv : x = { v with regs := x.regs } := rfl
    rw [hxv]
    change _ = { s with regs := _, chs := _ }
    rw [show v = _ from hv]

theorem disarm_view (s : State) (c : Ch) : s.disarm.ucState c = if s.ucState c = 4 then 3 else s.ucState c := by
  have h := foldSt_view State.ucState (f := fun c s => s.wr (Reg.LEN_STATUS_UC_STATE (Ch.num c)) 3) (g := fun _ _ => 3)
    (fun c s => State.rd_wr_of_lt s (f := Reg.LEN_STATUS_UC_STATE (Ch.num c)) (show 3 < 2 ^ 3 by decide))
    (fun c d s h => State.rd_wr_ne s _ _ 3 (by revert h; cases c <;> cases d <;> decide)) (nodup_chans fun c => s.ucState c = 4) s c
  refine h.trans (if_congr ?_ rfl rfl)
  rw [mem_chans, decide_eq_true_eq]

theorem disarm_frame (s : State) : s.disarm = { s with regs := s.disarm.regs } :=
  foldSt_inv (P := fun u => u = { s with regs := u.regs }) (fun c _ u hu => by
    have hstep : u.wr (Reg.LEN_STATUS_UC_STATE (Ch.num c)) 3 = { u with regs := (u.wr (Reg.LEN_STATUS_UC_STATE (Ch.num c)) 3).regs } := rfl
    rw [hstep, hu]) rfl

theorem disarm_keeps (s : State) : keepsRegs s s.disarm (Ch.all.map fun c => Reg.LEN_STATUS_UC_STATE (Ch.num c)) :=
  keepsRegs_foldSt (fun c _ s => keepsRegs_wr s (List.mem_map_of_mem (mem_chAll c)) 3) s

def targetFlds : List Fld := [Reg.CMD_PRG_STATE_COMMIT_PENDING, Reg.CMD_PRG_TARGET_LO_T_LO, Reg.CMD_PRG_TARGET_HI_T_HI]

theorem setTarget_keeps (s : State) (x : Option Nat) : keepsRegs s (s.setTarget x) targetFlds :=
  (((keepsRegs_refl s _).wrb (f := Reg.CMD_PRG_STATE_COMMIT_PENDING) (by decide) _).wr (f := Reg.CMD_PRG_TARGET_LO_T_LO) (by decide) _).wr
    (f := Reg.CMD_PRG_TARGET_HI_T_HI) (by decide) _

theorem setTarget_frame (s : State) (x : Option Nat) : s.setTarget x = { s with regs := (s.setTarget x).regs } := rfl

theorem setTarget_pending (s : State) (x : Option Nat) : (s.setTarget x).rdb Reg.CMD_PRG_STATE_COMMIT_PENDING = x.isSome := by
  have h : (s.setTarget x).rd Reg.CMD_PRG_STATE_COMMIT_PENDING = (s.wrb Reg.CMD_PRG_STATE_COMMIT_PENDING x.isSome).rd _ :=
    (State.rd_wr_ne _ Reg.CMD_PRG_TARGET_HI_T_HI _ _ (by decide)).trans (State.rd_wr_ne _ Reg.CMD_PRG_TARGET_LO_T_LO _ _ (by decide))
  exact (rdb_of_rd h).trans (State.rdb_wrb_same s (by decide) _)

theorem setTarget_rd (s : State) (x : Nat) : (s.setTarget (some x)).rd Reg.CMD_PRG_STATE_COMMIT_PENDING = 1 ∧
    (s.setTarget (some x)).rd Reg.CMD_PRG_TARGET_LO_T_LO = x % 2 ^ 32 ∧
    (s.setTarget (some x)).rd Reg.CMD_PRG_TARGET_HI_T_HI = x / 4294967296 % 2 ^ 32 := by
  refine ⟨?_, ?_, State.rd_wr_same _ Reg.CMD_PRG_TARGET_HI_T_HI _⟩
  · exact (State.rd_wr_ne _ Reg.CMD_PRG_TARGET_HI_T_HI _ _ (by decide)).trans ((State.rd_wr_ne _ Reg.CMD_PRG_TARGET_LO_T_LO _ _ (by decide)).trans
      (State.rd_wr_of_lt s (f := Reg.CMD_PRG_STATE_COMMIT_PENDING) (show 1 < 2 ^ 1 by decide)))
  · exact (State.rd_wr_ne _ Reg.CMD_PRG_TARGET_HI_T_HI _ _ (by decide)).trans (State.rd_wr_same _ Reg.CMD_PRG_TARGET_LO_T_LO _)

def resultFlds : List Fld := [Reg.CMD_PRG_COMMIT_RESULT, Reg.CMD_PRG_COMMIT_SEQ]

theorem commitResult_keeps (s : State) (r : Nat) : keepsRegs s (s.commitResult r) resultFlds :=
  ((keepsRegs_refl s _).wr (f := Reg.CMD_PRG_COMMIT_RESULT) (by decide) _).wr (f := Reg.CMD_PRG_COMMIT_SEQ) (by decide) _

theorem commitResult_rd (s : State) {r : Nat} (hr : r < 8) : (s.commitResult r).rd Reg.CMD_PRG_COMMIT_RESULT = r ∧
    (s.commitResult r).rd Reg.CMD_PRG_COMMIT_SEQ = (s.rd Reg.CMD_PRG_COMMIT_SEQ + 1) % 256 := by
  refine ⟨(State.rd_wr_ne _ Reg.CMD_PRG_COMMIT_SEQ Reg.CMD_PRG_COMMIT_RESULT _ (by decide)).trans (State.rd_wr_of_lt s hr), ?_⟩
  refine (State.rd_wr_same _ Reg.CMD_PRG_COMMIT_SEQ _).trans ?_
  rw [State.rd_wr_ne s Reg.CMD_PRG_COMMIT_RESULT Reg.CMD_PRG_COMMIT_SEQ r (by decide)]
  rfl

theorem prgDisarm_effect (harmed : s.ucArmed = true) : ∃ u, applyPrgDisarm s = .ok u ∧
    (∀ c, u.ucState c = if s.ucState c = 4 then 3 else s.ucState c) ∧ u.rdb Reg.CMD_PRG_STATE_COMMIT_PENDING = false ∧
    u.rd Reg.CMD_PRG_COMMIT_RESULT = 3 ∧ u.rd Reg.CMD_PRG_COMMIT_SEQ = (s.rd Reg.CMD_PRG_COMMIT_SEQ + 1) % 256 ∧
    u = { s with regs := u.regs } := by
  let v := s.disarm.setTarget none
  let w := v.commitResult 3
  obtain ⟨hres, hseq⟩ := commitResult_rd v (r := 3) (by decide)
  refine ⟨w.prgRegs, needs_true harmed _ _, fun c => ?_, ?_, ?_, ?_, ?_⟩
  · calc w.prgRegs.ucState c = w.ucState c := prgRegs_ucState w c
      _ = v.ucState c := ucState_of_keeps (commitResult_keeps v 3) c (by cases c <;> decide)
      _ = s.disarm.ucState c := ucState_of_keeps (setTarget_keeps _ none) c (by cases c <;> decide)
      _ = _ := disarm_view s c
  · have h : w.prgRegs.rd Reg.CMD_PRG_STATE_COMMIT_PENDING = v.rd Reg.CMD_PRG_STATE_COMMIT_PENDING :=
      (prgRegs_rd w (by decide)).trans (commitResult_keeps v 3 _ (by decide))
    exact (rdb_of_rd h).trans (setTarget_pending _ none)
  · exact (prgRegs_rd w (by decide)).trans hres
  · refine (prgRegs_rd w (by decide)).trans (hseq.trans ?_)
    rw [setTarget_keeps s.disarm none Reg.CMD_PRG_COMMIT_SEQ (by decide), disarm_keeps s Reg.CMD_PRG_COMMIT_SEQ (by decide)]
  · have hw : w = { s.disarm with regs := w.regs } := rfl
    rw [prgRegs_frame w, hw, disarm_frame s]

theorem release_view {l : List Ch} (hl : l.Nodup) (s : State) (c : Ch) :
    ((foldSt l (fun c s => s.setUc c none 0) s).ucState c, (foldSt l (fun c s => s.setUc c none 0) s).ch c) =
      if c ∈ l then (0, { s.ch c with uc := none }) else (s.ucState c, s.ch c) :=
  foldSt_view (fun s c => (s.ucState c, s.ch c)) (f := fun c s => s.setUc c none 0) (g := fun _ p => (0, { p.2 with uc := none }))
    (fun c s => Prod.ext (setUc_ucState s c none (by decide)) (setUc_ch s c none 0))
    (fun _ _ s h => Prod.ext (setUc_ucState_ne s none 0 h) (setUc_ch_ne s none 0 h)) hl s c

theorem release_frame (l : List Ch) (s : State) : foldSt l (fun c s => s.setUc c none 0) s =
    { s with regs := (foldSt l (fun c s => s.setUc c none 0) s).regs, chs := (foldSt l (fun c s => s.setUc c none 0) s).chs } :=
  foldSt_inv (P := fun u => u = { s with regs := u.regs, chs := u.chs }) (fun c _ u hu => by rw [setUc_frame u c none 0, hu]) rfl

/-- With no undercoat in any channel `UC_CLK` reads 0 (R67). -/
theorem prgRegs_noClk (h : ∀ c, (s.ch c).uc = none) : s.prgRegs.rd Reg.TMU_CYC_WCET_UC_UC_CLK = 0 := by
  have hany : (Ch.all.any fun c => (s.ch c).uc.isSome) = false := List.any_eq_false.2 fun c _ => by rw [h c]; decide
  unfold State.prgRegs
  dsimp only
  rw [hany]
  refine (State.rd_wr_ne _ Reg.CMD_PRG_STATE_START_COPY _ _ (by decide)).trans ?_
  refine (State.rd_wr_ne _ Reg.CMD_PRG_STATE_UC_STATE _ _ (by decide)).trans ?_
  refine (State.rd_wr_ne _ Reg.CMD_PRG_STATE_UC_AGREE _ _ (by decide)).trans ?_
  exact State.rd_wr_of_lt s (f := Reg.TMU_CYC_WCET_UC_UC_CLK) (by decide)

theorem prgRelease_effect (hloading : s.ucLoading = false) (harmed : s.ucArmed = false) : ∃ u, applyPrgRelease s = .ok u ∧
    (∀ c, u.ch c = { s.ch c with uc := none } ∧ u.ucState c = 0) ∧ u.rd Reg.TMU_CYC_WCET_UC_UC_CLK = 0 ∧
    u.rdb Reg.CMD_PRG_STATE_SWITCH_BACK = false ∧ u = { s with regs := u.regs, chs := u.chs } := by
  let v := foldSt Ch.all (fun c s => s.setUc c none 0) s
  let x := v.wrb Reg.CMD_PRG_STATE_SWITCH_BACK false
  have hview (c : Ch) : (v.ucState c, v.ch c) = (0, { s.ch c with uc := none }) :=
    (release_view (by decide) s c).trans (if_pos (mem_chAll c))
  have hch (c : Ch) : x.ch c = { s.ch c with uc := none } := congrArg Prod.snd (hview c)
  refine ⟨x.prgRegs, needs_true (by rw [hloading, harmed]; rfl) _ _, fun c => ⟨(prgRegs_ch x c).trans (hch c), ?_⟩, ?_, ?_, ?_⟩
  · refine (prgRegs_ucState x c).trans (Eq.trans ?_ (congrArg Prod.fst (hview c)))
    exact State.rd_wrb_ne v Reg.CMD_PRG_STATE_SWITCH_BACK _ false (by cases c <;> decide)
  · exact prgRegs_noClk fun c => by rw [hch c]
  · exact (rdb_of_rd (prgRegs_rd x (by decide))).trans (State.rdb_wrb_same v (by decide) false)
  · have hx : x = { v with regs := x.regs } := rfl
    rw [prgRegs_frame x, hx, show v = _ from release_frame Ch.all s]

/-! ### Arming (R152) and the commit target (R153) -/

theorem two_le_length {α : Type} {x y : α} : ∀ {l : List α}, x ∈ l → y ∈ l → x ≠ y → 2 ≤ l.length
  | [], hx, _, _ => absurd hx List.not_mem_nil
  | [z], hx, hy, h => absurd ((List.mem_singleton.1 hx).trans (List.mem_singleton.1 hy).symm) h
  | _ :: _ :: _, _, _, _ => by simp

theorem filter_add_filter_le {α : Type} [DecidableEq α] {v w : α} (h : v ≠ w) (l : List α) :
    (l.filter (· = v)).length + (l.filter (· = w)).length ≤ l.length := by
  induction l with
  | nil => simp
  | cons x l ih =>
    simp only [List.filter_cons, decide_eq_true_eq]
    split_ifs with h1 h2 h2
    · exact absurd (h1.symm.trans h2) h
    all_goals simp only [List.length_cons]; omega

/-- Of three contributions at most, a value that two carry is the majority. -/
theorem majority_of_two {α : Type} [DecidableEq α] {l : List (Option α)} {v : α} (h2 : 2 ≤ (l.filter (· = some v)).length)
    (h3 : l.length ≤ 3) : majority l = some v := by
  have hsome : (majority l).isSome = true := by
    have hv : some v ∈ l := by
      obtain ⟨x, hx⟩ := List.exists_mem_of_length_pos (by omega : 0 < (l.filter (· = some v)).length)
      have hx' := List.mem_filter.1 hx
      exact (of_decide_eq_true hx'.2) ▸ hx'.1
    unfold majority
    rw [List.findSome?_isSome_iff]
    exact ⟨some v, hv, by dsimp only; rw [if_pos h2]; rfl⟩
  obtain ⟨w, hw⟩ := Option.isSome_iff_exists.1 hsome
  obtain ⟨x, hx, hxw⟩ := List.exists_of_findSome?_eq_some hw
  cases x with
  | none => cases hxw
  | some y =>
    have hy : 2 ≤ (l.filter (· = some y)).length ∧ y = w := by
      by_cases h : 2 ≤ (l.filter (· = some y)).length
      · exact ⟨h, Option.some.inj ((if_pos h).symm.trans hxw)⟩
      · exact absurd ((if_neg h).symm.trans hxw) (by simp)
    by_cases hyv : y = v
    · rw [hw, ← hy.2, hyv]
    · have hsum := filter_add_filter_le (fun h => hyv (Option.some.inj h)) l (v := some y) (w := some v)
      omega

theorem voters_length (s : State) : s.voters.length ≤ 3 := (List.length_filter_le _ _).trans (by decide)

theorem armBreach_none {b : Bank} (h : b.wcet + b.migrCost (bankId s.runBank) ≤ s.rd Reg.TMU_CYC_WINDOW_WINDOW_CLK) :
    s.armBreach b = none := if_neg (by omega)

/-- What the arming finds of a channel's verified bank, if it holds one. -/
def armFound (s : State) (c : Ch) : Option (Option Breach) := if s.ucState c = 3 then (s.ch c).uc.map s.armBreach else none

theorem armFound_some {b : Bank} {x : Ch} (h3 : s.ucState x = 3) (huc : (s.ch x).uc = some b) (hb : s.armBreach b = none) :
    armFound s x = some none := by rw [armFound, if_pos h3, huc, Option.map_some, hb]

theorem breachRegs_keeps (s : State) (c : Ch) (x : Breach) : keepsRegs s (s.breachRegs c x) (loadFlds (Ch.num c)) := by
  unfold State.breachRegs
  exact ((((((keepsRegs_refl s _).wr (f := Reg.LEN_LOAD_STAT_REASON (Ch.num c)) (by simp [loadFlds]) _).wr
    (f := Reg.LEN_LOAD_STAT_LANE (Ch.num c)) (by simp [loadFlds]) _).wr (f := Reg.LEN_LOAD_STAT_PHASE (Ch.num c)) (by simp [loadFlds]) _).wr
    (f := Reg.LEN_LOAD_STAT_INDEX (Ch.num c)) (by simp [loadFlds]) _).wr (f := Reg.LEN_LOAD_ADDR_SPACE (Ch.num c)) (by simp [loadFlds]) _).wr
    (f := Reg.LEN_LOAD_ADDR_ADDR (Ch.num c)) (by simp [loadFlds]) _

theorem breachRegs_frame (s : State) (c : Ch) (x : Breach) : s.breachRegs c x = { s with regs := (s.breachRegs c x).regs } := rfl

/-- A breach leaves the state of the undercoat as it is. -/
theorem breachRegs_ucState (s : State) (c : Ch) (x : Breach) (d : Ch) : (s.breachRegs c x).ucState d = s.ucState d := by
  unfold State.breachRegs State.ucState
  dsimp only
  rw [State.rd_wr_ne _ _ _ _ (by cases c <;> cases d <;> decide), State.rd_wr_ne _ _ _ _ (by cases c <;> cases d <;> decide),
    State.rd_wr_ne _ _ _ _ (by cases c <;> cases d <;> decide), State.rd_wr_ne _ _ _ _ (by cases c <;> cases d <;> decide),
    State.rd_wr_ne _ _ _ _ (by cases c <;> cases d <;> decide), State.rd_wr_ne _ _ _ _ (by cases c <;> cases d <;> decide)]

theorem breachRegs_reason (s : State) (c : Ch) (x : Breach) :
    (s.breachRegs c x).rd (Reg.LEN_LOAD_STAT_REASON (Ch.num c)) = x.reason % 32 := by
  unfold State.breachRegs
  dsimp only
  rw [State.rd_wr_ne _ _ _ _ (by cases c <;> decide), State.rd_wr_ne _ _ _ _ (by cases c <;> decide),
    State.rd_wr_ne _ _ _ _ (by cases c <;> decide), State.rd_wr_ne _ _ _ _ (by cases c <;> decide),
    State.rd_wr_ne _ _ _ _ (by cases c <;> decide), State.rd_wr_same]
  rfl

theorem breachRegs_reason_ne (s : State) (x : Breach) (h : d ≠ c) :
    (s.breachRegs c x).rd (Reg.LEN_LOAD_STAT_REASON (Ch.num d)) = s.rd (Reg.LEN_LOAD_STAT_REASON (Ch.num d)) :=
  breachRegs_keeps s c x _ (by revert h; cases c <;> cases d <;> decide)

/-- The reports of the arming. -/
def armReports (s : State) : State :=
  foldSt (Ch.all.filter fun c => (armFound s c).isSome) (fun c u => u.breachRegs c ((armFound s c).join.getD Breach.none)) s

/-- The channels of a list arm their banks. -/
def armAll (l : List Ch) (s : State) : State := foldSt l (fun c s => s.wr (Reg.LEN_STATUS_UC_STATE (Ch.num c)) 4) s

theorem armReports_reason (s : State) (c : Ch) (h : armFound s c = some none) :
    (armReports s).rd (Reg.LEN_LOAD_STAT_REASON (Ch.num c)) = 0 := by
  have hv := foldSt_view (fun s c => s.rd (Reg.LEN_LOAD_STAT_REASON (Ch.num c)))
    (f := fun c u => u.breachRegs c ((armFound s c).join.getD Breach.none))
    (g := fun c _ => ((armFound s c).join.getD Breach.none).reason % 32) (fun c u => breachRegs_reason u c _)
    (fun c d u h => breachRegs_reason_ne u _ h) (nodup_chans fun c => (armFound s c).isSome) s c
  refine hv.trans ((if_pos (mem_chans.2 (by rw [h]; rfl))).trans ?_)
  rw [h]
  rfl

theorem armReports_keeps (s : State) : keepsRegs s (armReports s) ([0, 1, 2].flatMap loadFlds) := by
  refine keepsRegs_foldSt (fun c _ u => ?_) s
  have hsub : ∀ f ∈ loadFlds (Ch.num c), f ∈ [0, 1, 2].flatMap loadFlds := fun f hf =>
    List.mem_flatMap.2 ⟨Ch.num c, by cases c <;> decide, hf⟩
  exact (breachRegs_keeps u c _).mono hsub

theorem armReports_frame (s : State) : armReports s = { s with regs := (armReports s).regs } :=
  foldSt_inv (P := fun u => u = { s with regs := u.regs }) (fun c _ u hu => by rw [breachRegs_frame u c, hu]) rfl

theorem armReports_ch (s : State) (c : Ch) : (armReports s).ch c = s.ch c := by
  rw [armReports_frame s]
  rfl

theorem armReports_ucState (s : State) (c : Ch) : (armReports s).ucState c = s.ucState c :=
  foldSt_keeps (fun u => u.ucState c) _ _ (fun d u => breachRegs_ucState u d _ c) s

theorem armAll_ucState {l : List Ch} (hl : l.Nodup) (s : State) (c : Ch) : (armAll l s).ucState c = if c ∈ l then 4 else s.ucState c :=
  foldSt_view State.ucState (f := fun c s => s.wr (Reg.LEN_STATUS_UC_STATE (Ch.num c)) 4) (g := fun _ _ => 4)
    (fun c s => State.rd_wr_of_lt s (f := Reg.LEN_STATUS_UC_STATE (Ch.num c)) (show 4 < 2 ^ 3 by decide))
    (fun c d s h => State.rd_wr_ne s _ _ 4 (by revert h; cases c <;> cases d <;> decide)) hl s c

theorem armAll_keeps (l : List Ch) (s : State) : keepsRegs s (armAll l s) (Ch.all.map fun c => Reg.LEN_STATUS_UC_STATE (Ch.num c)) :=
  keepsRegs_foldSt (fun c _ s => keepsRegs_wr s (List.mem_map_of_mem (mem_chAll c)) 4) s

theorem armAll_frame (l : List Ch) (s : State) : armAll l s = { s with regs := (armAll l s).regs } :=
  foldSt_inv (P := fun u => u = { s with regs := u.regs }) (fun c _ u hu => by
    have hstep : u.wr (Reg.LEN_STATUS_UC_STATE (Ch.num c)) 4 = { u with regs := (u.wr (Reg.LEN_STATUS_UC_STATE (Ch.num c)) 4).regs } := rfl
    rw [hstep, hu]) rfl

/-- While a channel holds an undercoat `UC_CLK` keeps what it shows. -/
theorem prgRegs_keeps_held (h : (s.ch c).uc.isSome = true) : keepsRegs s s.prgRegs prgFlds := by
  have hany : (Ch.all.any fun c => (s.ch c).uc.isSome) = true := List.any_eq_true.2 ⟨c, mem_chAll c, h⟩
  unfold State.prgRegs
  dsimp only
  rw [if_pos hany]
  exact (((keepsRegs_refl s prgFlds).wr (f := Reg.CMD_PRG_STATE_UC_AGREE) (by decide) _).wr (f := Reg.CMD_PRG_STATE_UC_STATE) (by decide) _).wr
    (f := Reg.CMD_PRG_STATE_START_COPY) (by decide) _

theorem prgArm_effect {b : Bank} (hcd : c ≠ d) (hmode : s.fromRun = true) (hmixed : s.rdb Reg.SEC_STATUS_FW_MIXED = false)
    (hc : s.inVote c = true) (hd : s.inVote d = true) (hc3 : s.ucState c = 3) (hd3 : s.ucState d = 3)
    (hcb : (s.ch c).uc = some b) (hdb : (s.ch d).uc = some b)
    (hb : s.armBreach b = none) :
    ∃ u, applyPrgArm s = .ok u ∧
      (∀ x, s.ucState x = 3 → (s.ch x).uc = some b → u.ucState x = 4 ∧ u.rd (Reg.LEN_LOAD_STAT_REASON (Ch.num x)) = 0) ∧
      u = { s with regs := u.regs } ∧ keepsRegs s u (prgFlds ++ [0, 1, 2].flatMap loadFlds) := by
  have hfound {x : Ch} (h3 : s.ucState x = 3) (huc : (s.ch x).uc = some b) : armFound s x = some none := armFound_some h3 huc hb
  have hmaj : majority ((s.voters.filter fun c => armFound s c = some none).map fun c => some (bankId (s.ch c).uc)) = some b.id.toNat := by
    have hmem {x : Ch} (hx : s.inVote x = true) (h3 : s.ucState x = 3) (huc : (s.ch x).uc = some b) :
        x ∈ (s.voters.filter fun c => armFound s c = some none).filter fun c => some (bankId (s.ch c).uc) = some b.id.toNat :=
      List.mem_filter.2 ⟨List.mem_filter.2 ⟨List.mem_filter.2 ⟨mem_chAll x, hx⟩, decide_eq_true (hfound h3 huc)⟩,
        decide_eq_true (by rw [huc]; rfl)⟩
    refine majority_of_two ?_ ?_
    · rw [List.filter_map, List.length_map]
      exact two_le_length (hmem hc hc3 hcb) (hmem hd hd3 hdb) hcd
    · rw [List.length_map]
      exact (List.length_filter_le _ _).trans (voters_length s)
  let l := Ch.all.filter fun c => armFound s c = some none && bankId ((armReports s).ch c).uc = b.id.toNat
  have hl : l.Nodup := nodup_chans _
  let v := armAll l (armReports s)
  have hmeml {x : Ch} (h3 : s.ucState x = 3) (huc : (s.ch x).uc = some b) : x ∈ l :=
    mem_chans.2 (by rw [hfound h3 huc, armReports_ch, huc]; simp [bankId])
  have hframe : v = { s with regs := v.regs } := by
    have h1 := armAll_frame l (armReports s)
    have h2 := armReports_frame s
    have hv : v = { armReports s with regs := v.regs } := h1
    rw [hv, h2]
  refine ⟨v.prgRegs, ?_, fun x h3 huc => ⟨?_, ?_⟩, ?_, ?_⟩
  · unfold applyPrgArm
    rw [needs_true (by rw [hmode, hmixed]; rfl)]
    dsimp only
    change (match majority ((s.voters.filter fun c => armFound s c = some none).map fun c => some (bankId (s.ch c).uc)) with
      | none => _
      | some _ => _) = _
    rw [hmaj]
    rfl
  · exact (prgRegs_ucState v x).trans ((armAll_ucState hl _ x).trans (if_pos (hmeml h3 huc)))
  · refine (prgRegs_rd v (by cases x <;> decide)).trans ?_
    exact (armAll_keeps l (armReports s) _ (by cases x <;> decide)).trans (armReports_reason s x (hfound h3 huc))
  · rw [prgRegs_frame v, hframe]
  · have hheld : (v.ch c).uc.isSome = true := by rw [hframe]; exact Option.isSome_iff_exists.2 ⟨b, hcb⟩
    have h1 := (armReports_keeps s).mono (l' := prgFlds ++ [0, 1, 2].flatMap loadFlds) fun f hf => List.mem_append_right _ hf
    have h2 := (armAll_keeps l (armReports s)).mono (l' := prgFlds ++ [0, 1, 2].flatMap loadFlds) (by decide)
    have h3 := (prgRegs_keeps_held hheld).mono (l' := prgFlds ++ [0, 1, 2].flatMap loadFlds) fun f hf => List.mem_append_left _ hf
    exact (h1.trans h2).trans h3

theorem prgCommit_effect {w1 w2 : Word} (hmode : s.fromRun = true) (hmixed : s.rdb Reg.SEC_STATUS_FW_MIXED = false)
    (hmul : (w1.toNat + w2.toNat * 4294967296) % (s.tbc * s.mx) = 0) (hlo : s.tm.tcNs + 2 * s.tbc ≤ w1.toNat + w2.toNat * 4294967296)
    (hhi : w1.toNat + w2.toNat * 4294967296 ≤ s.tm.tcNs + 86400000000000) (hvalid : s.timeValid = true) (harmed : s.armed = true) :
    ∃ u, applyPrgCommit w1 w2 s = .ok u ∧ regsTo s u [(Reg.CMD_PRG_STATE_COMMIT_PENDING, 1), (Reg.CMD_PRG_TARGET_LO_T_LO, w1.toNat),
      (Reg.CMD_PRG_TARGET_HI_T_HI, w2.toNat)] ∧ u = { s with regs := u.regs } := by
  have h1 := w1.isLt
  have h2 := w2.isLt
  refine ⟨s.setTarget (some (arg64 w1 w2)), ?_, ⟨?_, fun g hg => ?_⟩, setTarget_frame s _⟩
  · unfold applyPrgCommit arg64
    dsimp only
    have hok : (decide ((w1.toNat + w2.toNat * 4294967296) % (s.tbc * s.mx) = 0) &&
        decide (s.tm.tcNs + 2 * s.tbc ≤ w1.toNat + w2.toNat * 4294967296) &&
        decide (w1.toNat + w2.toNat * 4294967296 ≤ s.tm.tcNs + 86400000000000)) = true := by
      rw [decide_eq_true hmul, decide_eq_true hlo, decide_eq_true hhi]
      rfl
    rw [needs_true (by rw [hmode, hmixed]; rfl), needs_true hok, needs_true (by rw [hvalid, harmed]; rfl)]
  · obtain ⟨hpend, htlo, hthi⟩ := setTarget_rd s (arg64 w1 w2)
    have hx : arg64 w1 w2 = w1.toNat + w2.toNat * 4294967296 := by rw [arg64]
    simp only [List.mem_cons, List.not_mem_nil, or_false, forall_eq_or_imp, forall_eq]
    exact ⟨hpend, htlo.trans (by omega), hthi.trans (by omega)⟩
  · exact setTarget_keeps s _ g fun f hf => by
      simp only [targetFlds, List.mem_cons, List.not_mem_nil, or_false] at hf
      rcases hf with rfl | rfl | rfl
      · exact hg (Reg.CMD_PRG_STATE_COMMIT_PENDING, 1) (by simp)
      · exact hg (Reg.CMD_PRG_TARGET_LO_T_LO, w1.toNat) (by simp)
      · exact hg (Reg.CMD_PRG_TARGET_HI_T_HI, w2.toNat) (by simp)

end Sys2Proof.Claims
end

section
/-! The check of an undercoat bank: O29. -/

namespace Sys2Proof.Claims

open Sys2Proof Sys2Proof.Machine

variable {s t u : State} {c d : Ch}

/-! ### The report of a channel's check of a copy (R230 to R232, R506) -/

def checkFlds (n : Nat) : List Fld :=
  [Reg.SEC_CH_REASON n, Reg.SEC_CH_SECTION n, Reg.SEC_CH_CHECK_COPY n, Reg.MIU_PLUG_ECC_CE_PAGES n, Reg.MIU_PLUG_ECC_MAX_BITS n,
    Reg.MIU_EVENT_PLUG_MARGIN n, Reg.MIU_PLUG_ECC_UE_PAGES n, Reg.MIU_PLUG_UE_LOC_COPY n, Reg.MIU_PLUG_UE_LOC_SECTION n,
    Reg.MIU_PLUG_UE_LOC_PAGE n, Reg.MIU_EVENT_PLUG_UE n] ++ logFlds

/-- Registers among `l` and the log may differ, nothing else. -/
structure Reports (s t : State) (l : List Fld) : Prop where
  frame : t = { s with regs := t.regs, rcd := t.rcd }
  regs : keepsRegs s t l

theorem Reports.refl (s : State) (l : List Fld) : Reports s s l := ⟨rfl, keepsRegs_refl s l⟩

theorem Reports.trans {l : List Fld} (h : Reports s t l) (h' : Reports t u l) : Reports s u l where
  frame := by rw [h'.frame, h.frame]
  regs := h.regs.trans h'.regs

theorem Reports.wr {l : List Fld} (h : Reports s t l) {f : Fld} (hf : f ∈ l) (v : Nat) : Reports s (t.wr f v) l :=
  h.trans ⟨rfl, keepsRegs_wr t hf v⟩

theorem Reports.diag {l : List Fld} (h : Reports s t l) (hl : ∀ f ∈ logFlds, f ∈ l) (sev src inst off : Nat) (detail : List Nat) :
    Reports s (t.diag sev src inst off detail) l :=
  h.trans ⟨diag_frame t sev src inst off detail, (keepsRegs_diag t sev src inst off detail).mono hl⟩

theorem Reports.foldSt {α : Type} {l : List Fld} {f : α → State → State} (hf : ∀ x s, Reports s (f x s) l) (xs : List α) (s : State) :
    Reports s (foldSt xs f s) l := by
  induction xs generalizing s with
  | nil => exact Reports.refl s l
  | cons x xs ih => exact (hf x s).trans (ih (f x s))

theorem Reports.mono {l l' : List Fld} (h : Reports s t l) (hl : ∀ f ∈ l, f ∈ l') : Reports s t l' := ⟨h.frame, h.regs.mono hl⟩

theorem Reports.chs {l : List Fld} (h : Reports s t l) : t.chs = s.chs := by rw [h.frame]

theorem Reports.ptn {l : List Fld} (h : Reports s t l) : t.ptn = s.ptn := by rw [h.frame]

theorem logFlds_sub (l : List Fld) : ∀ f ∈ logFlds, f ∈ l ++ logFlds := fun _ hf => List.mem_append_right l hf

theorem noteCheck_reports (s : State) (c : Ch) (copy : Nat) (o : Opened) : Reports s (s.noteCheck c copy o) (checkFlds (Ch.num c)) := by
  unfold State.noteCheck
  exact (((Reports.refl s _).wr (f := Reg.SEC_CH_REASON (Ch.num c)) (by simp [checkFlds]) _).wr (f := Reg.SEC_CH_SECTION (Ch.num c))
    (by simp [checkFlds]) _).wr (f := Reg.SEC_CH_CHECK_COPY (Ch.num c)) (by simp [checkFlds]) _

theorem noteFixed_reports (s : State) (c : Ch) (copy : Nat) : Reports s (s.noteFixed c copy) (checkFlds (Ch.num c)) := by
  unfold State.noteFixed
  refine (((Reports.refl s _).wr (f := Reg.MIU_PLUG_ECC_CE_PAGES (Ch.num c)) (by simp [checkFlds]) _).wr
    (f := Reg.MIU_PLUG_ECC_MAX_BITS (Ch.num c)) (by simp [checkFlds]) _).trans (Reports.foldSt (fun e s => ?_) _ _)
  exact ((Reports.refl s (checkFlds (Ch.num c))).wr (f := Reg.MIU_EVENT_PLUG_MARGIN (Ch.num c)) (by simp [checkFlds]) (bitNat true)).diag
    (logFlds_sub _) 4 Src.chan (Ch.num c) (0x00301034 + Ch.num c * 0x100000) _

theorem notePages_reports (s : State) (c : Ch) (copy : Nat) : Reports s (s.notePages c copy) (checkFlds (Ch.num c)) := by
  unfold State.notePages
  dsimp only
  split
  · exact noteFixed_reports s c copy
  · exact (((((noteFixed_reports s c copy).wr (f := Reg.MIU_PLUG_ECC_UE_PAGES (Ch.num c)) (by simp [checkFlds]) _).wr
      (f := Reg.MIU_PLUG_UE_LOC_COPY (Ch.num c)) (by simp [checkFlds]) _).wr (f := Reg.MIU_PLUG_UE_LOC_SECTION (Ch.num c))
      (by simp [checkFlds]) _).wr (f := Reg.MIU_PLUG_UE_LOC_PAGE (Ch.num c)) (by simp [checkFlds]) _).wr
      (f := Reg.MIU_EVENT_PLUG_UE (Ch.num c)) (by simp [checkFlds]) _

theorem logParams_reports (s : State) (l : List Nat) : Reports s (s.logParams l) logFlds := by
  unfold State.logParams
  induction l generalizing s with
  | nil => exact Reports.refl s _
  | cons x l ih => exact ((Reports.refl s _).diag (fun _ h => h) 3 0 0 x []).trans (ih _)

/-! ### A bank written -/

theorem storeWritten_ch_ne (s : State) (lo n : Nat) (h : d ≠ c) : (s.storeWritten c lo n).ch d = s.ch d := by
  unfold State.storeWritten State.flipAmong
  have hcut : (s.modCh c fun x => { x with errs := FMap.cut x.errs lo (lo + n), tags := FMap.cut x.tags lo (lo + n) }).ch d = s.ch d :=
    State.ch_modCh_ne s _ h
  have hflip (u : State) (cw : Nat) : (u.flip c cw).ch d = u.ch d := by
    unfold State.flip
    split
    · exact State.ch_modCh_ne u (fun x => { x with errs := FMap.set 0 x.errs cw (FMap.get 0 (u.ch c).errs cw ^^^ u.flipMask c) }) h
    · rfl
  dsimp only
  split
  · split
    · exact (hflip _ _).trans hcut
    · exact hcut
  · exact hcut

theorem bankWritten_ch_ne (s : State) (k : Nat) (h : d ≠ c) : (s.bankWritten c k).ch d = s.ch d :=
  (storeWritten_ch_ne _ _ _ h).trans (storeWritten_ch_ne s _ _ h)

theorem MiuOp.bankWritten (s : State) (c : Ch) (k : Nat) : MiuOp s (s.bankWritten c k) :=
  (MiuOp.storeWritten s c _ _).trans (MiuOp.storeWritten _ c _ _)

/-! ### The banks that a check compares with -/

theorem runBank_congr (hst : ∀ c, (t.ch c).st = (s.ch c).st) (hrun : ∀ c, (t.ch c).run = (s.ch c).run) : t.runBank = s.runBank := by
  have hvote : t.voters = s.voters := by
    unfold State.voters State.inVote
    simp only [hst]
  unfold State.runBank
  rw [hvote]
  simp only [hrun]

theorem bankBreach_congr (hbank : t.runBank = s.runBank) (hwin : t.rd Reg.TMU_CYC_WINDOW_WINDOW_CLK = s.rd Reg.TMU_CYC_WINDOW_WINDOW_CLK)
    (htbc : t.rd Reg.TMU_CYC_CFG_TBC_CODE = s.rd Reg.TMU_CYC_CFG_TBC_CODE) (hepoch : t.rd Reg.SEC_EPOCH_STATE = s.rd Reg.SEC_EPOCH_STATE)
    (hptn : t.ptn = s.ptn) (b : Bank) : t.bankBreach b = s.bankBreach b := by
  unfold State.bankBreach State.tbcs
  rw [hbank, hwin, htbc, hepoch, hptn]

/-! ### The undercoat takes the verdict of its check (R91) -/

/-- The verdict on an undercoat: its bank, its state and the first breach. -/
def ucVerdict (s : State) (c : Ch) (b : Option Bank) (st : Nat) (x : Breach) : State := (s.setUc c b st).breachRegs c x

/-- Channel `c` shows a verdict, and is otherwise as it was. -/
structure Judged (s t : State) (c : Ch) (b : Option Bank) (st reason : Nat) : Prop where
  ch : t.ch c = { s.ch c with uc := b }
  others : ∀ d, d ≠ c → t.ch d = s.ch d
  state : t.ucState c = st
  reason : t.rd (Reg.LEN_LOAD_STAT_REASON (Ch.num c)) = reason % 32
  ident : ∀ a, b = some a → t.rd (Reg.LEN_BANK_UC_LO_ID_LO (Ch.num c)) = a.id.toNat % 2 ^ 32 ∧
    t.rd (Reg.LEN_BANK_UC_HI_ID_HI (Ch.num c)) = a.id.toNat / 2 ^ 32

theorem breachRegs_ch (s : State) (c : Ch) (x : Breach) (d : Ch) : (s.breachRegs c x).ch d = s.ch d := rfl

theorem ucVerdict_judged (s : State) (c : Ch) (b : Option Bank) {st : Nat} (hst : st < 8) (x : Breach) :
    Judged s (ucVerdict s c b st x) c b st x.reason where
  ch := by rw [ucVerdict, breachRegs_ch, setUc_ch]
  others d h := by rw [ucVerdict, breachRegs_ch, setUc_ch_ne s b st h]
  state := (breachRegs_ucState _ c x c).trans (setUc_ucState s c b hst)
  reason := breachRegs_reason _ c x
  ident a ha := by
    subst ha
    obtain ⟨hlo, hhi⟩ := setUc_id s c a st
    exact ⟨(breachRegs_keeps _ c x _ (by cases c <;> decide)).trans hlo, (breachRegs_keeps _ c x _ (by cases c <;> decide)).trans hhi⟩

/-- What is reported afterwards, or follows the banks, leaves a verdict as it is. -/
theorem Judged.reports {b : Option Bank} {st r : Nat} (h : Judged s t c b st r) (h' : Reports t u (agreeFlds ++ logFlds)) :
    Judged s u c b st r where
  ch := (congrArg (Per3.get · c) h'.chs).trans h.ch
  others d hd := (congrArg (Per3.get · d) h'.chs).trans (h.others d hd)
  state := (h'.regs _ (by cases c <;> decide)).trans h.state
  reason := (h'.regs _ (by cases c <;> decide)).trans h.reason
  ident a ha := by
    obtain ⟨hlo, hhi⟩ := h.ident a ha
    exact ⟨(h'.regs _ (by cases c <;> decide)).trans hlo, (h'.regs _ (by cases c <;> decide)).trans hhi⟩

theorem Reports.prgRegs (h : Reports s t logFlds) : Reports s t.prgRegs (agreeFlds ++ logFlds) :=
  (h.mono (logFlds_sub agreeFlds)).trans ⟨by rw [prgRegs_frame t], (prgRegs_keeps t).mono fun _ hf => List.mem_append_left _ hf⟩

/-- A bank that the container's check passed is written, before its program is checked. -/
def ucStored (s : State) (c : Ch) (b : Bank) : State :=
  let v := (s.setUc c (some b) 1).bankWritten c (1 - s.physRun c)
  v.wr Reg.TMU_CYC_WCET_UC_UC_CLK (b.wcet + b.migrCost (bankId v.runBank))

theorem ucStored_frame (s : State) (c : Ch) (b : Bank) :
    ucStored s c b = { s with regs := (ucStored s c b).regs, chs := (ucStored s c b).chs } := by
  have hop := (MiuOp.bankWritten (s.setUc c (some b) 1) c (1 - s.physRun c)).frame
  unfold ucStored
  dsimp only
  generalize (s.setUc c (some b) 1).bankWritten c (1 - s.physRun c) = v at hop
  have hv : v = { s with regs := v.regs, chs := v.chs } := by rw [hop, setUc_frame]
  rw [hv]
  rfl

theorem ucStored_ch (s : State) (c : Ch) (b : Bank) (d : Ch) :
    ((ucStored s c b).ch d).st = (s.ch d).st ∧ ((ucStored s c b).ch d).run = (s.ch d).run ∧
      (d ≠ c → (ucStored s c b).ch d = s.ch d) := by
  have hop := (MiuOp.bankWritten (s.setUc c (some b) 1) c (1 - s.physRun c)).ch d
  have hne (h : d ≠ c) := bankWritten_ch_ne (s.setUc c (some b) 1) (1 - s.physRun c) h
  have hset : ((s.setUc c (some b) 1).ch d).st = (s.ch d).st ∧ ((s.setUc c (some b) 1).ch d).run = (s.ch d).run := by
    by_cases h : d = c
    · subst h
      rw [setUc_ch]
      exact ⟨rfl, rfl⟩
    · rw [setUc_ch_ne s _ _ h]
      exact ⟨rfl, rfl⟩
  have hset_ne (h : d ≠ c) := setUc_ch_ne s (some b) 1 h
  have hst : (ucStored s c b).ch d = ((s.setUc c (some b) 1).bankWritten c (1 - s.physRun c)).ch d := by
    unfold ucStored
    dsimp only
    exact congrArg (Per3.get · d) (State.wr_chs _ _ _)
  rw [hst]
  refine ⟨?_, ?_, fun h => (hne h).trans (hset_ne h)⟩
  · rw [hop]
    exact hset.1
  · rw [hop]
    exact hset.2

theorem ucStored_rd (s : State) (c : Ch) (b : Bank) {g : Fld} (hchan : chanKey g.key = false)
    (huc : ∀ f ∈ Reg.TMU_CYC_WCET_UC_UC_CLK :: ucFlds (Ch.num c), g.key ≠ f.key) : (ucStored s c b).rd g = s.rd g := by
  have hop := (MiuOp.bankWritten (s.setUc c (some b) 1) c (1 - s.physRun c)).regs g hchan
  have hset := setUc_keeps s c (some b) 1 g fun f hf => huc f (List.mem_cons_of_mem _ hf)
  unfold ucStored
  dsimp only
  exact (State.rd_wr_ne _ Reg.TMU_CYC_WCET_UC_UC_CLK g _ (huc _ List.mem_cons_self)).trans (hop.trans hset)

theorem ucStored_bankBreach (s : State) (c : Ch) (b a : Bank) : (ucStored s c b).bankBreach a = s.bankBreach a := by
  refine bankBreach_congr (runBank_congr (fun d => (ucStored_ch s c b d).1) fun d => (ucStored_ch s c b d).2.1) ?_ ?_ ?_ ?_ a
  · exact ucStored_rd s c b (by decide) (by cases c <;> decide)
  · exact ucStored_rd s c b (by decide) (by cases c <;> decide)
  · exact ucStored_rd s c b (by decide) (by cases c <;> decide)
  · rw [ucStored_frame]

/-- What the check of the program leaves of a stored bank. -/
def ucChecked (s : State) (c : Ch) (b : Bank) : State :=
  match (ucStored s c b).bankBreach b with
  | some x => (((ucVerdict (ucStored s c b) c (some b) 5 x).diag 3 Src.prog (Ch.num c) (0x300030 + Ch.num c * 0x100000)).logParams
      b.overParams).prgRegs
  | none => (ucVerdict (ucStored s c b) c (some b) 3 Breach.none).prgRegs

theorem ucChecked_sound (s : State) (c : Ch) (b : Bank) (h : s.bankBreach b = none) :
    Judged (ucStored s c b) (ucChecked s c b) c (some b) 3 0 := by
  have h' : (ucStored s c b).bankBreach b = none := (ucStored_bankBreach s c b b).trans h
  unfold ucChecked
  rw [h']
  exact (ucVerdict_judged _ c (some b) (by decide) Breach.none).reports (Reports.refl _ logFlds).prgRegs

theorem ucChecked_breach (s : State) (c : Ch) (b : Bank) {x : Breach} (h : s.bankBreach b = some x) :
    Judged (ucStored s c b) (ucChecked s c b) c (some b) 5 x.reason := by
  have h' : (ucStored s c b).bankBreach b = some x := (ucStored_bankBreach s c b b).trans h
  unfold ucChecked
  rw [h']
  refine (ucVerdict_judged _ c (some b) (by decide) x).reports (Reports.prgRegs ?_)
  exact ((Reports.refl _ _).diag (fun _ h => h) _ _ _ _ _).trans (logParams_reports _ _)

/-- What `BANK_CHECK_DONE` reports of the copy before it judges the bank. -/
def copyChecked (s : State) (c : Ch) : State :=
  let o := s.openCopy c (s.ch c).ucCopy (some (s.rd (Reg.SEC_CH_FW_VERSION (Ch.num c))))
  (s.noteCheck c (s.ch c).ucCopy o).notePages c (s.ch c).ucCopy

theorem copyChecked_reports (s : State) (c : Ch) : Reports s (copyChecked s c) (checkFlds (Ch.num c)) :=
  (noteCheck_reports s c _ _).trans (notePages_reports _ c _)

theorem copyChecked_bankBreach (s : State) (c : Ch) (b : Bank) : (copyChecked s c).bankBreach b = s.bankBreach b := by
  have h := copyChecked_reports s c
  have hch (d : Ch) : (copyChecked s c).ch d = s.ch d := congrArg (Per3.get · d) h.chs
  exact bankBreach_congr (runBank_congr (fun d => by rw [hch]) fun d => by rw [hch]) (h.regs _ (by cases c <;> decide))
    (h.regs _ (by cases c <;> decide)) (h.regs _ (by cases c <;> decide)) h.ptn b

variable {o : Opened}

theorem bankCheckDone_refused (hst : s.ucState c = 1 ∨ s.ucState c = 2)
    (ho : s.openCopy c (s.ch c).ucCopy (some (s.rd (Reg.SEC_CH_FW_VERSION (Ch.num c)))) = o) (hr : o.reason ≠ 0) :
    exec (.bankCheckDone c) s = .next (ucVerdict (copyChecked s c) c none 5 Breach.none).prgRegs := by
  subst ho
  have hx : exec (.bankCheckDone c) s = execBankCheckDone c s := by rfl
  rw [hx, execBankCheckDone, if_neg (by rcases hst with h | h <;> simp [h])]
  dsimp only
  rw [if_pos hr]
  unfold ucVerdict copyChecked
  rfl

theorem bankCheckDone_passed {b : Bank} (hst : s.ucState c = 1 ∨ s.ucState c = 2)
    (ho : s.openCopy c (s.ch c).ucCopy (some (s.rd (Reg.SEC_CH_FW_VERSION (Ch.num c)))) = o) (hr : o.reason = 0)
    (hb : bankOf (o.text 2) = some b) : exec (.bankCheckDone c) s = .next (ucChecked (copyChecked s c) c b) := by
  subst ho
  have hx : exec (.bankCheckDone c) s = execBankCheckDone c s := by rfl
  rw [hx, execBankCheckDone, if_neg (by rcases hst with h | h <;> simp [h])]
  dsimp only
  rw [if_neg (by rw [hr]; decide), hb]
  unfold ucChecked ucStored ucVerdict copyChecked
  rfl

/-- Settles O29: each row comes down to what it leaves in the channels and in the registers that report the undercoats. -/
theorem undercoatBanks : Obligations.UndercoatBanks := by
  unfold Obligations.UndercoatBanks
  intro s w1 w2 w3
  refine ⟨fun hmode hmixed => ⟨fun hw hloading harmed hholds => ?_, fun c d b hcd hc hd hc3 hd3 hcb hdb hfit => ?_,
    fun hmul hlo hhi hvalid harmed => ?_⟩, fun harmed => ?_, fun hloading harmed => ?_, fun c hst => ⟨fun hr => ?_, fun b hr hb => ?_⟩⟩
  · refine takesEffect_of (code := 0x40) (fun r => applyPrgLoad r.w1) (fun _ => rfl) fun seq port _ => ?_
    have hcopy : (taken s seq).copyHolds w1.toNat (·.run) = false := ((sameCopies_taken s seq).copyHolds rfl _ _).trans hholds
    exact prgLoad_effect (w1 := w1) hmode hmixed hw hloading harmed hcopy
  · refine takesEffect_of (code := 0x41) (fun _ => applyPrgArm) (fun _ => rfl) fun seq port _ => ?_
    have hb : (taken s seq).armBreach b = s.armBreach b := by rfl
    exact prgArm_effect hcd hmode hmixed hc hd hc3 hd3 hcb hdb (hb.trans (armBreach_none hfit))
  · exact takesEffect_of (code := 0x42) (fun r => applyPrgCommit r.w1 r.w2) (fun _ => rfl) fun seq port _ =>
      prgCommit_effect (s := taken s seq) hmode hmixed hmul hlo hhi hvalid harmed
  · exact takesEffect_of (code := 0x43) (fun _ => applyPrgDisarm) (fun _ => rfl) fun seq port _ =>
      prgDisarm_effect (s := taken s seq) harmed
  · exact takesEffect_of (code := 0x44) (fun _ => applyPrgRelease) (fun _ => rfl) fun seq port _ =>
      prgRelease_effect (s := taken s seq) hloading harmed
  · have hcopy (d : Ch) : (copyChecked s c).ch d = s.ch d := congrArg (Per3.get · d) (copyChecked_reports s c).chs
    have hj : Judged (copyChecked s c) (ucVerdict (copyChecked s c) c none 5 Breach.none).prgRegs c none 5 0 :=
      (ucVerdict_judged _ c none (by decide) Breach.none).reports (Reports.refl _ logFlds).prgRegs
    refine ⟨_, bankCheckDone_refused hst rfl hr, hj.state, ?_, ?_⟩
    · rw [hj.ch]
    · rw [hj.ch, hcopy]
  · have hcopy (d : Ch) : (copyChecked s c).ch d = s.ch d := congrArg (Per3.get · d) (copyChecked_reports s c).chs
    have hbreach := copyChecked_bankBreach s c b
    have hstored := ucStored_ch (copyChecked s c) c b
    have hjudged {st r : Nat} (hj : Judged (ucStored (copyChecked s c) c b) (ucChecked (copyChecked s c) c b) c (some b) st r) :
        ((ucChecked (copyChecked s c) c b).ch c).uc = some b ∧ ((ucChecked (copyChecked s c) c b).ch c).run = (s.ch c).run ∧
          ∀ d, d ≠ c → (ucChecked (copyChecked s c) c b).ch d = s.ch d := by
      refine ⟨by rw [hj.ch], ?_, fun d hd => ?_⟩
      · rw [hj.ch]
        exact (hstored c).2.1.trans (by rw [hcopy])
      · rw [hj.others d hd, (hstored d).2.2 hd, hcopy]
    refine ⟨_, bankCheckDone_passed hst rfl hr hb, ?_⟩
    cases hx : s.bankBreach b with
    | none =>
      have hj := ucChecked_sound (copyChecked s c) c b (hbreach.trans hx)
      obtain ⟨huc, hrun, hothers⟩ := hjudged hj
      obtain ⟨hlo, hhi⟩ := hj.ident b rfl
      exact ⟨huc, hrun, hlo, hhi, fun _ => ⟨hj.state, hj.reason⟩, fun x h => absurd h (by simp), hothers⟩
    | some x =>
      have hj := ucChecked_breach (copyChecked s c) c b (hbreach.trans hx)
      obtain ⟨huc, hrun, hothers⟩ := hjudged hj
      obtain ⟨hlo, hhi⟩ := hj.ident b rfl
      refine ⟨huc, hrun, hlo, hhi, fun h => absurd h (by simp), fun y h => ?_, hothers⟩
      cases h
      exact ⟨hj.state, hj.reason⟩

end Sys2Proof.Claims
end

section
/-! Sessions and the service port: O35. -/

namespace Sys2Proof.Claims

open Sys2Proof Sys2Proof.Machine

variable {s t u : State}

/-! ### What opens, fails and closes a session (R501 to R503) -/

/-- The security unit, registers and the log differ, nothing else. -/
theorem diag_sec (s : State) (sev src inst off : Nat) (l : List Nat) : (s.diag sev src inst off l).sec = s.sec := by
  rw [diag_frame]

theorem diag_md (s : State) (sev src inst off : Nat) (l : List Nat) : (s.diag sev src inst off l).md = s.md := by
  rw [diag_frame]

theorem diag_rd (s : State) (sev src inst off : Nat) (l : List Nat) {g : Fld} (h : ∀ f ∈ logFlds, g.key ≠ f.key) :
    (s.diag sev src inst off l).rd g = s.rd g := keepsRegs_diag s sev src inst off l g h

/-- The challenge is renewed. -/
def challenged (s : State) : State := s.modSec fun x => { x with challenge := x.challenge + 1 }

theorem challenged_rd (s : State) (g : Fld) : (challenged s).rd g = s.rd g := by rfl

/-- The registers of a port whose session has closed. -/
def portClosed (s : State) : CmdPort → State
  | .host => ((s.wr Reg.SEC_SES_STAT_HOST_STATE 0).wr Reg.SEC_SES_STAT_HOST_ROLES 0).wr Reg.SEC_SES_STAT_CRED 0
  | .service => (s.wrb Reg.SEC_SES_STAT_SVC_OPEN false).wr Reg.SEC_SES_STAT_SVC_ROLES 0

theorem portClosed_frame (s : State) (p : CmdPort) : portClosed s p = { s with regs := (portClosed s p).regs } := by cases p <;> rfl

theorem closeSes_eq (s : State) (p : CmdPort) : s.closeSes p =
    if s.sesIsOpen p then (challenged (portClosed s p)).diag 3 Src.sec 0 0x00F0010C else challenged (portClosed s p) := by
  cases p <;> rfl

theorem closeSes_sec (s : State) (p : CmdPort) : (s.closeSes p).sec = { s.sec with challenge := s.sec.challenge + 1 } := by
  have h : (challenged (portClosed s p)).sec = { s.sec with challenge := s.sec.challenge + 1 } := by
    rw [portClosed_frame]
    rfl
  rw [closeSes_eq]
  split
  · rw [diag_sec, h]
  · exact h

theorem closeSes_md (s : State) (p : CmdPort) : (s.closeSes p).md = s.md := by
  have h : (challenged (portClosed s p)).md = s.md := by
    rw [portClosed_frame]
    rfl
  rw [closeSes_eq]
  split
  · rw [diag_md, h]
  · exact h

theorem closeSes_rd (s : State) (p : CmdPort) {g : Fld} (h : ∀ f ∈ logFlds, g.key ≠ f.key) : (s.closeSes p).rd g = (portClosed s p).rd g := by
  rw [closeSes_eq]
  split
  · exact (diag_rd _ _ _ _ _ _ h).trans (challenged_rd _ g)
  · exact challenged_rd _ g

theorem portClosed_host (s : State) : (portClosed s .host).rd Reg.SEC_SES_STAT_HOST_STATE = 0 ∧
    (portClosed s .host).rd Reg.SEC_SES_STAT_HOST_ROLES = 0 ∧
    keepsRegs s (portClosed s .host) [Reg.SEC_SES_STAT_HOST_STATE, Reg.SEC_SES_STAT_HOST_ROLES, Reg.SEC_SES_STAT_CRED] := by
  have hto : regsTo s (portClosed s .host) [(Reg.SEC_SES_STAT_HOST_STATE, 0), (Reg.SEC_SES_STAT_HOST_ROLES, 0), (Reg.SEC_SES_STAT_CRED, 0)] :=
    regsTo_writes ⟨by decide, by decide⟩ s
  exact ⟨hto.1 (Reg.SEC_SES_STAT_HOST_STATE, 0) (by simp), hto.1 (Reg.SEC_SES_STAT_HOST_ROLES, 0) (by simp), keepsRegs_of_regsTo hto⟩

theorem portClosed_service (s : State) : (portClosed s .service).rdb Reg.SEC_SES_STAT_SVC_OPEN = false ∧
    (portClosed s .service).rd Reg.SEC_SES_STAT_SVC_ROLES = 0 := by
  refine ⟨?_, State.rd_wr_of_lt _ (f := Reg.SEC_SES_STAT_SVC_ROLES) (by decide)⟩
  exact (State.rdb_wr_ne _ 0 (by decide)).trans (State.rdb_wrb_same s (by decide) false)

theorem closeSes_closed (s : State) (p : CmdPort) : (s.closeSes p).sesIsOpen p = false := by
  cases p with
  | host =>
    have h := (closeSes_rd s .host (g := Reg.SEC_SES_STAT_HOST_STATE) (by decide)).trans (portClosed_host s).1
    simp [State.sesIsOpen, h]
  | service => exact (rdb_of_rd (closeSes_rd s .service (by decide))).trans (portClosed_service s).1

/-! ### Openings -/

/-- The registers of a port whose session opens. -/
def portOpened (s : State) (cred roles : Nat) : CmdPort → State
  | .host => ((s.wr Reg.SEC_SES_STAT_HOST_STATE 2).wr Reg.SEC_SES_STAT_HOST_ROLES roles).wr Reg.SEC_SES_STAT_CRED cred
  | .service => (s.wrb Reg.SEC_SES_STAT_SVC_OPEN true).wr Reg.SEC_SES_STAT_SVC_ROLES roles

theorem portOpened_frame (s : State) (cred roles : Nat) (p : CmdPort) :
    portOpened s cred roles p = { s with regs := (portOpened s cred roles p).regs } := by cases p <;> rfl

theorem sesOpened_eq (s : State) (p : CmdPort) (cred roles : Nat) : s.sesOpened p cred roles =
    ((portOpened s cred roles p).modSes p fun x => { x with last := (portOpened s cred roles p).tm.opNs, fails := [] }).diag 3 Src.sec 0
      0x00F0010C := by
  cases p <;> rfl

theorem modSes_rd (s : State) (p : CmdPort) (f : SesPort → SesPort) (g : Fld) : (s.modSes p f).rd g = s.rd g := by rfl

theorem modSes_sesOf (s : State) (p : CmdPort) (f : SesPort → SesPort) : (s.modSes p f).sesOf p = f (s.sesOf p) := by cases p <;> rfl

theorem sesOf_congr (h : t.sec = s.sec) (p : CmdPort) : t.sesOf p = s.sesOf p := by
  cases p
  · exact congrArg SecSt.host h
  · exact congrArg SecSt.svc h

theorem sesOpened_rd (s : State) (p : CmdPort) (cred roles : Nat) {g : Fld} (h : ∀ f ∈ logFlds, g.key ≠ f.key) :
    (s.sesOpened p cred roles).rd g = (portOpened s cred roles p).rd g := by
  rw [sesOpened_eq, diag_rd _ _ _ _ _ _ h, modSes_rd]

theorem sesOpened_last (s : State) (p : CmdPort) (cred roles : Nat) : ((s.sesOpened p cred roles).sesOf p).last = s.tm.opNs := by
  have htm : (portOpened s cred roles p).tm = s.tm := by rw [portOpened_frame]
  rw [sesOpened_eq, sesOf_congr (diag_sec _ _ _ _ _ _), modSes_sesOf, htm]

theorem sesOpened_challenge (s : State) (p : CmdPort) (cred roles : Nat) : (s.sesOpened p cred roles).sec.challenge = s.sec.challenge := by
  have h : (portOpened s cred roles p).sec = s.sec := by rw [portOpened_frame]
  have hmod (u : State) (f : SesPort → SesPort) : (u.modSes p f).sec.challenge = u.sec.challenge := by cases p <;> rfl
  rw [sesOpened_eq, diag_sec, hmod, h]

theorem portOpened_host (s : State) (cred roles : Nat) : (portOpened s cred roles .host).rd Reg.SEC_SES_STAT_HOST_STATE = 2 ∧
    (portOpened s cred roles .host).rd Reg.SEC_SES_STAT_HOST_ROLES = roles % 8 ∧
    (portOpened s cred roles .host).rd Reg.SEC_SES_STAT_CRED = cred % 64 := by
  refine ⟨?_, ?_, State.rd_wr_same _ Reg.SEC_SES_STAT_CRED cred⟩
  · exact (State.rd_wr_ne _ Reg.SEC_SES_STAT_CRED _ _ (by decide)).trans ((State.rd_wr_ne _ Reg.SEC_SES_STAT_HOST_ROLES _ _ (by decide)).trans
      (State.rd_wr_of_lt s (f := Reg.SEC_SES_STAT_HOST_STATE) (by decide)))
  · exact (State.rd_wr_ne _ Reg.SEC_SES_STAT_CRED _ _ (by decide)).trans (State.rd_wr_same _ Reg.SEC_SES_STAT_HOST_ROLES roles)

theorem portOpened_service (s : State) (cred roles : Nat) : (portOpened s cred roles .service).rdb Reg.SEC_SES_STAT_SVC_OPEN = true ∧
    (portOpened s cred roles .service).rd Reg.SEC_SES_STAT_SVC_ROLES = roles % 8 :=
  ⟨(State.rdb_wr_ne _ roles (by decide)).trans (State.rdb_wrb_same s (by decide) true), State.rd_wr_same _ Reg.SEC_SES_STAT_SVC_ROLES roles⟩

/-! ### Failed openings (R502) -/

/-- Openings that failed within 600 s, this one included. -/
def failsNow (s : State) (p : CmdPort) : List Nat := ((s.sesOf p).fails.filter fun t => s.tm.opNs < t + 600000000000) ++ [s.tm.opNs]

theorem failsNow_length (s : State) (p : CmdPort) :
    (failsNow s p).length = ((s.sesOf p).fails.filter fun t => decide (s.tm.opNs < t + 600000000000)).length + 1 := by
  rw [failsNow, List.length_append, List.length_singleton]

/-- The registers and the port after a failed opening. -/
def portFailed (s : State) (p : CmdPort) : State :=
  let u := (s.modSes p fun x => { x with fails := failsNow s p, locked := decide (5 ≤ (failsNow s p).length) }).inc Reg.SEC_SES_STAT_FAILS
  match p with
  | .host => u.wr Reg.SEC_SES_STAT_HOST_STATE (if decide (5 ≤ (failsNow s p).length) then 4 else 3)
  | .service => u

theorem sesFail_eq (s : State) (p : CmdPort) :
    s.sesFail p = (portFailed s p).diag (if decide (5 ≤ (failsNow s p).length) then 5 else 3) Src.sec 0 0x00F0010C := by
  cases p <;> rfl

theorem portFailed_sesOf (s : State) (p : CmdPort) : ((portFailed s p).sesOf p).locked = decide (5 ≤ (failsNow s p).length) := by
  cases p <;> rfl

theorem portFailed_challenge (s : State) (p : CmdPort) : (portFailed s p).sec.challenge = s.sec.challenge := by cases p <;> rfl

theorem sesFail_rd (s : State) (p : CmdPort) {g : Fld} (h : ∀ f ∈ logFlds, g.key ≠ f.key) : (s.sesFail p).rd g = (portFailed s p).rd g := by
  rw [sesFail_eq, diag_rd _ _ _ _ _ _ h]

theorem sesFail_sec (s : State) (p : CmdPort) : (s.sesFail p).sec = (portFailed s p).sec := by rw [sesFail_eq, diag_sec]

theorem portFailed_fails (s : State) (p : CmdPort) : (portFailed s p).rd Reg.SEC_SES_STAT_FAILS = up s Reg.SEC_SES_STAT_FAILS := by
  cases p with
  | host => exact (State.rd_wr_ne _ Reg.SEC_SES_STAT_HOST_STATE _ _ (by decide)).trans (rd_inc_up _ _)
  | service => exact rd_inc_up _ _

theorem portFailed_state (s : State) : (portFailed s .host).rd Reg.SEC_SES_STAT_HOST_STATE = if 5 ≤ (failsNow s .host).length then 4 else 3 := by
  refine (State.rd_wr_same _ Reg.SEC_SES_STAT_HOST_STATE _).trans ?_
  by_cases h : 5 ≤ (failsNow s .host).length
  · simp only [h, decide_true, if_true]
    rfl
  · simp only [h, decide_false, if_false, Bool.false_eq_true]
    rfl

theorem portFailed_open (s : State) : (portFailed s .service).rdb Reg.SEC_SES_STAT_SVC_OPEN = s.rdb Reg.SEC_SES_STAT_SVC_OPEN :=
  rdb_of_rd (State.rd_inc_ne _ Reg.SEC_SES_STAT_FAILS Reg.SEC_SES_STAT_SVC_OPEN (by decide))

/-! ### The claims about sessions -/

theorem policyFind_some {p : Policy} {d : List Byte} {port : CmdPort} {i : Nat} (h : p.find d port = some i) : i < p.creds.length := by
  simp only [Policy.find, Option.ite_none_right_eq_some, Option.some.injEq] at h
  obtain ⟨hlt, rfl⟩ := h
  exact hlt

/-- The judgement opens no role that its credential has not (R501). -/
theorem sesJudge_roles {i r : Nat} (h : s.sesJudge = some (i, r)) : r ≤ 7 ∧ ∃ c, s.sec.policy.creds[i]? = some c ∧ r &&& c.roles = r := by
  unfold State.sesJudge at h
  dsimp only at h
  split at h
  · cases h
  · next j hj =>
    split at h
    · next hok =>
      obtain ⟨rfl, rfl⟩ := Prod.mk.inj (Option.some.inj h)
      simp only [Bool.and_eq_true, decide_eq_true_eq] at hok
      obtain ⟨⟨⟨-, hle⟩, hand⟩, -⟩ := hok
      have hlt := policyFind_some hj
      rw [List.getElem?_eq_getElem hlt] at hand
      exact ⟨hle, _, List.getElem?_eq_getElem hlt, hand⟩
    · cases h

theorem sesVerified_judged {i r : Nat} (halive : s.hostAlive = true) (hstate : s.rd Reg.SEC_SES_STAT_HOST_STATE = 1)
    (h : s.sesJudge = some (i, r)) : exec .sesVerified s = .next (challenged (s.sesOpened .host i r)) := by
  have hx : exec .sesVerified s = execSesVerified s := by rfl
  rw [hx, execSesVerified, halive, hstate, h]
  rfl

theorem sesVerified_refused (halive : s.hostAlive = true) (hstate : s.rd Reg.SEC_SES_STAT_HOST_STATE = 1)
    (h : s.sesJudge = none) : exec .sesVerified s = .next (challenged (s.sesFail .host)) := by
  have hx : exec .sesVerified s = execSesVerified s := by rfl
  rw [hx, execSesVerified, halive, hstate, h]
  rfl

theorem svcTlsOpen_key {d : List Byte} {i : Nat} {c : Cred} (halive : s.hostAlive = true) (hopen : s.rdb Reg.SEC_SES_STAT_SVC_OPEN = false)
    (hlock : s.sec.svc.locked = false) (hfind : s.sec.policy.find d .service = some i) (hcred : s.sec.policy.creds[i]? = some c) :
    exec (.svcTlsOpen d true) s = .next (s.sesOpened .service i c.roles) := by
  have hx : exec (.svcTlsOpen d true) s = execSvcTlsOpen d true s := by rfl
  rw [hx, execSvcTlsOpen, halive, hopen, hlock]
  simp [hfind, hcred]

theorem svcTlsOpen_refused (d : List Byte) (halive : s.hostAlive = true) (hopen : s.rdb Reg.SEC_SES_STAT_SVC_OPEN = false)
    (hlock : s.sec.svc.locked = false) : exec (.svcTlsOpen d false) s = .next (s.sesFail .service) := by
  have hx : exec (.svcTlsOpen d false) s = execSvcTlsOpen d false s := by rfl
  rw [hx, execSvcTlsOpen, halive, hopen, hlock]
  rfl

theorem openingLockoutEnd_claim (p : CmdPort) (hlocked : (s.sesOf p).locked = true)
    (hdue : (s.sesOf p).fails.getLastD 0 + 600000000000 ≤ s.tm.opNs + s.tbc) :
    ∃ t, exec (.openingLockoutEnd p) s = .next t ∧ (t.sesOf p).locked = false ∧ (t.sesOf p).fails = [] ∧
      keepsRegs s t [Reg.SEC_SES_STAT_HOST_STATE] ∧ t = { s with regs := t.regs, sec := t.sec } := by
  have hx : exec (.openingLockoutEnd p) s = execOpeningLockoutEnd p s := by rfl
  rw [hx, execOpeningLockoutEnd, if_pos (by rw [hlocked, decide_eq_true hdue]; rfl)]
  let v := s.modSes p fun x => { x with locked := false, fails := [] }
  have hv : keepsRegs s v [Reg.SEC_SES_STAT_HOST_STATE] := keepsRegs_of_eq rfl _
  cases p with
  | service => exact ⟨v, rfl, rfl, rfl, hv, rfl⟩
  | host =>
    by_cases h : v.rd Reg.SEC_SES_STAT_HOST_STATE = 4
    · exact ⟨v.wr Reg.SEC_SES_STAT_HOST_STATE 0, congrArg _ (if_pos h), rfl, rfl, hv.wr (by simp) 0, rfl⟩
    · exact ⟨v, congrArg _ (if_neg h), rfl, rfl, hv, rfl⟩

theorem sesOpen_claim (hup : s.hostUp = true) {w : Word} (hw : w.getLsbD 0 = true) (hrec : s.recovery = false)
    (h1 : s.rd Reg.SEC_SES_STAT_HOST_STATE ≠ 1) (h2 : s.rd Reg.SEC_SES_STAT_HOST_STATE ≠ 2) :
    ∃ t, exec (.sesOpen w) s = .next t ∧ regsTo s t [(Reg.SEC_SES_STAT_HOST_STATE, if s.sec.host.locked then 4 else 1)] ∧
      t = { s with regs := t.regs } := by
  have hx : exec (.sesOpen w) s = execSesOpen w s := by rfl
  have hgate : ¬ (!w.getLsbD 0 || s.recovery || decide (s.rd Reg.SEC_SES_STAT_HOST_STATE = 1) ||
      decide (s.rd Reg.SEC_SES_STAT_HOST_STATE = 2)) = true := by simp [hw, hrec, h1, h2]
  rw [hx, execSesOpen, if_pos hup, State.sesOpenWrite, if_neg hgate]
  cases s.sec.host.locked with
  | true => exact ⟨_, rfl, regsTo_writes (l := [(Reg.SEC_SES_STAT_HOST_STATE, 4)]) ⟨by decide, by decide⟩ s, rfl⟩
  | false => exact ⟨_, rfl, regsTo_writes (l := [(Reg.SEC_SES_STAT_HOST_STATE, 1)]) ⟨by decide, by decide⟩ s, rfl⟩

theorem sesClose_claim (hup : s.hostUp = true) {w : Word} (hw : w.getLsbD 1 = true) :
    ∃ t, exec (.sesClose w) s = .next t ∧ t.rd Reg.SEC_SES_STAT_HOST_STATE = 0 ∧
      t.rd Reg.SEC_SES_STAT_HOST_ROLES = 0 ∧ t.sec = { s.sec with challenge := s.sec.challenge + 1 } ∧
      keepsRegs s t ([Reg.SEC_SES_STAT_HOST_STATE, Reg.SEC_SES_STAT_HOST_ROLES, Reg.SEC_SES_STAT_CRED] ++ logFlds) ∧ t.md = s.md := by
  have hx : exec (.sesClose w) s = execSesClose w s := by rfl
  obtain ⟨hstate, hroles, hkeep⟩ := portClosed_host s
  refine ⟨s.closeSes .host, ?_, ?_, ?_, closeSes_sec s _, fun g hg => ?_, closeSes_md s _⟩
  · rw [hx, execSesClose, if_pos hup, State.sesCloseWrite, if_pos hw]
  · exact (closeSes_rd s .host (by decide)).trans hstate
  · exact (closeSes_rd s .host (by decide)).trans hroles
  · exact (closeSes_rd s .host fun f hf => hg f (List.mem_append_right _ hf)).trans (hkeep g fun f hf => hg f (List.mem_append_left _ hf))

theorem sessions_hold : sessions := by
  unfold sessions
  intro s
  refine ⟨fun hup w => ⟨sesOpen_claim hup, sesClose_claim hup⟩, fun halive hstate => ?_, fun i r => sesJudge_roles,
    fun p => ⟨fun hopen hdue => ?_, openingLockoutEnd_claim p⟩, fun halive hopen hlock d => ⟨fun i c hfind hcred => ?_, ?_⟩, fun hopen => ?_⟩
  · have hlen := failsNow_length s .host
    cases hj : s.sesJudge with
    | some x =>
      obtain ⟨i, r⟩ := x
      obtain ⟨hst, hroles, hcred⟩ := portOpened_host s i r
      refine ⟨_, sesVerified_judged halive hstate hj, congrArg (· + 1) (sesOpened_challenge s .host i r), fun j q h => ?_, fun h => absurd h (by simp)⟩
      cases h
      exact ⟨(sesOpened_rd s .host i r (by decide)).trans hst, (sesOpened_rd s .host i r (by decide)).trans hroles,
        (sesOpened_rd s .host i r (by decide)).trans hcred, sesOpened_last s .host i r⟩
    | none =>
      have hlocked : (challenged (s.sesFail .host)).sec.host.locked = decide (5 ≤ (failsNow s .host).length) :=
        (congrArg (fun x : SecSt => x.host.locked) (sesFail_sec s .host)).trans (portFailed_sesOf s .host)
      have hst : (challenged (s.sesFail .host)).rd Reg.SEC_SES_STAT_HOST_STATE = if 5 ≤ (failsNow s .host).length then 4 else 3 :=
        (sesFail_rd s .host (by decide)).trans (portFailed_state s)
      refine ⟨_, sesVerified_refused halive hstate hj, ?_, fun j q h => absurd h (by simp), fun _ => ⟨?_, fun h => ?_, fun h => ?_⟩⟩
      · exact congrArg (· + 1) ((congrArg SecSt.challenge (sesFail_sec s .host)).trans (portFailed_challenge s .host))
      · exact (sesFail_rd s .host (by decide)).trans (portFailed_fails s .host)
      · have h' : ¬ 5 ≤ (failsNow s .host).length := fun h5 => by rw [hlen] at h5; exact absurd h (Nat.not_lt.2 h5)
        exact ⟨hst.trans (if_neg h'), hlocked.trans (decide_eq_false h')⟩
      · have h' : 5 ≤ (failsNow s .host).length := by rw [hlen]; exact h
        exact ⟨hst.trans (if_pos h'), hlocked.trans (decide_eq_true h')⟩
  · have hx : exec (.sessionIdleTimeout p) s = execSessionIdleTimeout p s := by rfl
    refine ⟨s.closeSes p, ?_, closeSes_closed s p, closeSes_md s p, closeSes_sec s p⟩
    rw [hx, execSessionIdleTimeout, if_pos (by rw [hopen, decide_eq_true hdue]; rfl)]
  · obtain ⟨ho, hroles⟩ := portOpened_service s i c.roles
    exact ⟨_, svcTlsOpen_key halive hopen hlock hfind hcred, (rdb_of_rd (sesOpened_rd s .service i c.roles (by decide))).trans ho,
      (sesOpened_rd s .service i c.roles (by decide)).trans hroles, sesOpened_last s .service i c.roles⟩
  · exact ⟨_, svcTlsOpen_refused d halive hopen hlock,
      (rdb_of_rd (sesFail_rd s .service (by decide))).trans ((portFailed_open s).trans hopen),
      (sesFail_rd s .service (by decide)).trans (portFailed_fails s .service)⟩
  · have hx : exec .svcTlsClose s = execSvcTlsClose s := by rfl
    refine ⟨s.closeSes .service, ?_, closeSes_closed s .service, ?_, closeSes_sec s .service⟩
    · rw [hx, execSvcTlsClose, if_pos hopen]
    · exact (closeSes_rd s .service (by decide)).trans (portClosed_service s).2

/-! ### The service port's messages (R486, R503 and Table 17-9) -/

/-- A row of the lane given at a port, whose effect applies. -/
theorem takesEffectAt_of {port : CmdPort} {mk : CmdRec → Instr} {code : Byte} {w1 w2 w3 : Word} {P : State → State → Prop}
    (eff : CmdRec → State → CmdRes State) (hexec : ∀ r, exec (mk r) s = .next (s.cmd code r (eff r)))
    (heff : ∀ seq, ready s code.toNat → ∃ u, eff (atTc seq port w1 w2 w3) (taken s seq) = .ok u ∧ P (taken s seq) u) :
    takesEffectAt port mk code.toNat s w1 w2 w3 P := by
  intro seq hready
  obtain ⟨u, hu, hP⟩ := heff seq hready
  refine ⟨u, u.complete seq code.toNat 0 (s.tm.cyc % 2 ^ 32), ?_, hP, (complete_posted u seq code.isLt (by decide) (cyc_word_lt s)).1⟩
  rw [hexec, cmd_effect hready hu]

theorem Mem.get_write_apart (m : FMap Byte) (a : Nat) (l : List Byte) {k : Nat} (h : k < a ∨ a + l.length ≤ k) :
    Mem.get (Mem.write m a l) k = Mem.get m k := by rw [Mem.get_write, if_neg (by omega)]

theorem svcStageWrite_claim (hup : s.svcUp = true) {off : Nat} {d : List Byte} (h1 : 1 ≤ d.length) (h2 : d.length ≤ 4096)
    (h3 : off + d.length ≤ stagingLen) : ∃ t, exec (.svcStageWrite off d) s = .next t ∧ Mem.read t.sec.staging off d.length = d ∧
      (∀ a, a < off ∨ off + d.length ≤ a → Mem.get t.sec.staging a = Mem.get s.sec.staging a) ∧
      t = { s with sec := { s.sec with staging := t.sec.staging } } := by
  have hx : exec (.svcStageWrite off d) s = execSvcStageWrite off d s := by rfl
  refine ⟨s.modSec fun x => { x with staging := Mem.write x.staging off d }, ?_, Mem.read_write_same _ off d,
    fun a ha => Mem.get_write_apart _ off d ha, rfl⟩
  rw [hx, execSvcStageWrite, if_neg (by rw [hup]; decide), if_pos (by rw [decide_eq_true h1, decide_eq_true h2, decide_eq_true h3]; rfl)]

/-- Sequence number and code of the word that submits a record. -/
theorem recordWord (seq : BitVec 16) (code : Byte) : ((seq ++ (0 : BitVec 8) ++ code : Word).extractLsb' 16 16) = seq ∧
    ((seq ++ (0 : BitVec 8) ++ code : Word).extractLsb' 0 8) = code := by
  constructor
  · refine BitVec.eq_of_getLsbD_eq fun i hi => ?_
    simp only [BitVec.getLsbD_extractLsb', BitVec.getLsbD_append, hi, decide_true, Bool.true_and]
    rw [if_neg (by omega), if_neg (by omega)]
    congr 1
    omega
  · refine BitVec.eq_of_getLsbD_eq fun i hi => ?_
    simp only [BitVec.getLsbD_extractLsb', BitVec.getLsbD_append, hi, decide_true, Bool.true_and, Nat.zero_add, if_true]

/-- A record of the service port waits for its answer. -/
theorem submit_svcWait {code : Byte} {seq : BitVec 16} {w1 w2 w3 : Word} {ch : Nat} (hseq : seq.toNat = s.rd Reg.CMD_NEXT_SEQ_NEXT)
    (hcode : codeDefined code.toNat = true) (hroom : s.rd Reg.CMD_LANE_WAITING < 256) :
    (s.submit seq code .service w1 w2 w3 ch false).hbr.svcWait = s.hbr.svcWait ++ [seq] := by
  obtain ⟨hq, -⟩ := accept_acceptedAs (unlatched s) .service hseq code.isLt
  have hwait : ((unlatched s).accept code.toNat .service).2.hbr.svcWait = s.hbr.svcWait ++ [seq] :=
    congrArg (fun q => s.hbr.svcWait ++ [q]) hq
  rw [submit_eq]
  dsimp only
  rw [hq, if_neg Bool.false_ne_true, if_neg (not_not.2 hseq), if_neg (by rw [hcode]; decide), if_neg (Nat.not_le.2 hroom)]
  exact hwait

theorem svcCommand_claim (hup : s.svcUp = true) {code : Byte} {seq : BitVec 16} (w1 w2 w3 : Word) (ch : Nat)
    (hcode : codeDefined code.toNat = true) (hseq : seq.toNat = s.rd Reg.CMD_NEXT_SEQ_NEXT) (hroom : s.rd Reg.CMD_LANE_WAITING < 256) :
    ∃ t, exec (.svcCommand (seq ++ (0 : BitVec 8) ++ code) w1 w2 w3 ch) s = .next t ∧
      t.lane.queue = s.lane.queue ++ [.record (if ch + 10000 < s.tbc then 1 else 2) seq code .service w1 w2 w3] ∧
      t.rd Reg.CMD_NEXT_SEQ_NEXT = (seq.toNat + 1) % 65536 ∧ t.hbr.svcWait = s.hbr.svcWait ++ [seq] ∧ t.md = s.md := by
  have hx : exec (.svcCommand (seq ++ (0 : BitVec 8) ++ code) w1 w2 w3 ch) s =
      execSvcCommand (seq ++ (0 : BitVec 8) ++ code) w1 w2 w3 ch s := by rfl
  obtain ⟨hnext, -, hqueue, -, hmd, -, -⟩ :=
    submit_queued (port := .service) (w1 := w1) (w2 := w2) (w3 := w3) (ch := ch) hseq hcode hroom
  refine ⟨s.submit seq code .service w1 w2 w3 ch false, ?_, hqueue, hnext, submit_svcWait hseq hcode hroom, hmd⟩
  obtain ⟨hs, hc⟩ := recordWord seq code
  rw [hx, execSvcCommand, if_pos hup, State.submitWords]
  rw [hs, hc]

theorem secCertGet_host {w1 w2 : Word} (hmode : s.fromHold = true) (hmaster : s.hbr.busMaster = true) :
    applySecCertGet .host w1 w2 s =
      .ok (s.modHbr fun x => { x with hostMem := Mem.write x.hostMem (arg64 w1 w2) (Config.cert.take 2048) }) := by
  unfold applySecCertGet
  rw [needs_true hmode, needs_true (by rfl)]
  exact needs_true hmaster _ _

theorem secCertGet_service {w1 w2 : Word} (hmode : s.fromHold = true) (hreach : arg64 w1 w2 + 2048 ≤ stagingLen) :
    applySecCertGet .service w1 w2 s =
      .ok (s.modSec fun x => { x with staging := Mem.write x.staging (arg64 w1 w2) (Config.cert.take 2048) }) := by
  have hok : reachOk .service (arg64 w1 w2) 2048 = true := by
    rw [reachOk, decide_eq_true_eq]
    exact hreach
  unfold applySecCertGet
  rw [needs_true hmode, needs_true hok]

theorem servicePortMessages_hold : servicePortMessages := by
  unfold servicePortMessages
  intro s
  refine ⟨fun hup => ⟨fun off d h1 h2 h3 => svcStageWrite_claim hup h1 h2 h3, fun off n h1 h2 h3 => ?_, fun off d h => ?_, fun off n h => ?_,
    fun code seq w1 w2 w3 ch hcode hseq hroom => svcCommand_claim hup w1 w2 w3 ch hcode hseq hroom⟩, fun hmode w1 w2 w3 =>
    ⟨fun hmaster => ?_, fun hreach => ?_⟩⟩
  · have hx : exec (.svcStageRead off n) s = execSvcStageRead off n s := by rfl
    rw [hx, execSvcStageRead, if_neg (by rw [hup]; decide), if_pos (by rw [decide_eq_true h1, decide_eq_true h2, decide_eq_true h3]; rfl)]
    rfl
  · have hx : exec (.svcStageWrite off d) s = execSvcStageWrite off d s := by rfl
    rw [hx, execSvcStageWrite, if_neg (by rw [hup]; decide), if_neg (by simpa [and_assoc] using h)]
  · have hx : exec (.svcStageRead off n) s = execSvcStageRead off n s := by rfl
    rw [hx, execSvcStageRead, if_neg (by rw [hup]; decide), if_neg (by simpa [and_assoc] using h)]
  · refine takesEffectAt_of (code := 0xA8) (fun r => applySecCertGet r.port r.w1 r.w2) (fun _ => rfl) fun seq _ => ⟨_,
      secCertGet_host (s := taken s seq) hmode hmaster, ?_⟩
    exact ⟨Mem.read_write_same _ _ _, fun x hx => Mem.get_write_apart _ _ _ hx, rfl⟩
  · refine takesEffectAt_of (code := 0xA8) (fun r => applySecCertGet r.port r.w1 r.w2) (fun _ => rfl) fun seq _ => ⟨_,
      secCertGet_service (s := taken s seq) hmode hreach, ?_⟩
    exact ⟨Mem.read_write_same _ _ _, fun x hx => Mem.get_write_apart _ _ _ hx, rfl⟩

/-- Settles O35: sessions by what their registers and their port's record show, and the service port's messages one by one. -/
theorem sessionsAndServicePort : Obligations.SessionsAndServicePort := ⟨sessions_hold, servicePortMessages_hold⟩

end Sys2Proof.Claims
end

section
/-! Schedules, firmware, keys and the rollback counter: O37. -/

namespace Sys2Proof.Claims

open Sys2Proof Sys2Proof.Machine

variable {s t u : State} {c d : Ch}

/-! ### Schedules (R496 to R498) -/

theorem SameCopies.openAny (h : SameCopies s t)
    (hfw : ∀ c, t.rd (Reg.SEC_CH_FW_VERSION (Ch.num c)) = s.rd (Reg.SEC_CH_FW_VERSION (Ch.num c))) (k : Nat) :
    t.openAny k = s.openAny k := by
  unfold State.openAny
  rw [h.copyValidIn]
  simp only [h.openCopy, hfw]

/-- A schedule that is refused. -/
def schRefused (s : State) (r : Nat) : State :=
  (((s.wr Reg.SEC_EPOCH_STATE 6).wr Reg.SEC_EPOCH_REASON r).wrb Reg.PTN_STATUS_NEXT_LOADED false).modPtn fun x =>
    { x with nextSched := [], nextNet := NetCfg.none }

/-- A schedule that is loaded for the next epoch. -/
def schLoaded (s : State) (m : FMap Word) (cfg : NetCfg) : State :=
  (((s.modPtn fun x => { x with nextSched := m, nextNet := cfg }).wrb Reg.PTN_STATUS_NEXT_LOADED true).wr Reg.SEC_EPOCH_STATE 1).wr
    Reg.SEC_EPOCH_REASON 0

theorem schRefused_rd (s : State) (r : Nat) : (schRefused s r).rd Reg.SEC_EPOCH_STATE = 6 ∧ (schRefused s r).rd Reg.SEC_EPOCH_REASON = r % 16 ∧
    (schRefused s r).rdb Reg.PTN_STATUS_NEXT_LOADED = false ∧ (schRefused s r).ptn.sched = s.ptn.sched := by
  refine ⟨?_, ?_, State.rdb_wrb_same _ (by decide) false, rfl⟩
  · exact (State.rd_wrb_ne _ Reg.PTN_STATUS_NEXT_LOADED Reg.SEC_EPOCH_STATE false (by decide)).trans
      ((State.rd_wr_ne _ Reg.SEC_EPOCH_REASON Reg.SEC_EPOCH_STATE _ (by decide)).trans (State.rd_wr_of_lt s (f := Reg.SEC_EPOCH_STATE) (by decide)))
  · exact (State.rd_wrb_ne _ Reg.PTN_STATUS_NEXT_LOADED Reg.SEC_EPOCH_REASON false (by decide)).trans (State.rd_wr_same _ Reg.SEC_EPOCH_REASON r)

theorem schLoad_refused {w1 : Word} (hmode : s.fromStartup = true) (hmixed : s.rdb Reg.SEC_STATUS_FW_MIXED = false)
    (hstate : s.rd Reg.SEC_EPOCH_STATE ≠ 2) (ho : (s.openAny (w1.toNat % 2)).reason ≠ 0) :
    applySchLoad w1 s = .ok (schRefused s (s.openAny (w1.toNat % 2)).reason) := by
  unfold applySchLoad
  rw [needs_true (by rw [hmode, hmixed]; rfl), needs_true (decide_eq_true hstate)]
  exact if_pos ho

theorem schLoad_loaded {w1 : Word} {e : Nat × List Byte} {m : FMap Word} {cfg : NetCfg} {ep : Nat} (hmode : s.fromStartup = true)
    (hmixed : s.rdb Reg.SEC_STATUS_FW_MIXED = false) (hstate : s.rd Reg.SEC_EPOCH_STATE ≠ 2) (ho : (s.openAny (w1.toNat % 2)).reason = 0)
    (he : (s.openAny (w1.toNat % 2)).sec 3 = some e)
    (hparse : Config.parseSched e.1 e.2 ((s.openAny (w1.toNat % 2)).text 4) = some (m, cfg, ep)) (hfits : s.schedFits m cfg = true) :
    applySchLoad w1 s = .ok (schLoaded s m cfg) := by
  unfold applySchLoad
  rw [needs_true (by rw [hmode, hmixed]; rfl), needs_true (decide_eq_true hstate)]
  dsimp only
  rw [if_neg (not_not.2 ho), he]
  simp only [Option.bind_some, hparse, hfits, if_true]
  rfl

theorem schLoaded_regs (s : State) (m : FMap Word) (cfg : NetCfg) :
    regsTo s (schLoaded s m cfg) [(Reg.PTN_STATUS_NEXT_LOADED, 1), (Reg.SEC_EPOCH_STATE, 1), (Reg.SEC_EPOCH_REASON, 0)] ∧
      schLoaded s m cfg = { s with regs := (schLoaded s m cfg).regs, ptn := { s.ptn with nextSched := m, nextNet := cfg } } := by
  let v := s.modPtn fun x => { x with nextSched := m, nextNet := cfg }
  have hto : regsTo v (schLoaded s m cfg) [(Reg.PTN_STATUS_NEXT_LOADED, 1), (Reg.SEC_EPOCH_STATE, 1), (Reg.SEC_EPOCH_REASON, 0)] :=
    regsTo_writes ⟨by decide, by decide⟩ v
  exact ⟨hto, rfl⟩

theorem schLoad_claim {w1 : Word} (w2 w3 : Word) (hmode : s.fromStartup = true) (hmixed : s.rdb Reg.SEC_STATUS_FW_MIXED = false)
    (hstate : s.rd Reg.SEC_EPOCH_STATE ≠ 2) :
    let o := s.openAny (w1.toNat % 2)
    (o.reason ≠ 0 → takesEffect .schLoad 0xA2 s w1 w2 w3 fun s u => u.rd Reg.SEC_EPOCH_STATE = 6 ∧
      u.rd Reg.SEC_EPOCH_REASON = o.reason % 16 ∧ u.rdb Reg.PTN_STATUS_NEXT_LOADED = false ∧ u.ptn.sched = s.ptn.sched) ∧
    (∀ e m cfg ep, o.reason = 0 → o.sec 3 = some e → Config.parseSched e.1 e.2 (o.text 4) = some (m, cfg, ep) → s.schedFits m cfg = true →
      takesEffect .schLoad 0xA2 s w1 w2 w3 fun s u =>
        regsTo s u [(Reg.PTN_STATUS_NEXT_LOADED, 1), (Reg.SEC_EPOCH_STATE, 1), (Reg.SEC_EPOCH_REASON, 0)] ∧
        u = { s with regs := u.regs, ptn := { s.ptn with nextSched := m, nextNet := cfg } }) := by
  intro o
  have hopen (seq : BitVec 16) : (taken s seq).openAny (w1.toNat % 2) = o := (sameCopies_taken s seq).openAny (fun _ => rfl) _
  refine ⟨fun ho => ?_, fun e m cfg ep ho he hparse hfits => ?_⟩
  · refine takesEffect_of (code := 0xA2) (fun r => applySchLoad r.w1) (fun _ => rfl) fun seq _ _ => ⟨_,
      schLoad_refused (s := taken s seq) (w1 := w1) hmode hmixed hstate (by rw [hopen]; exact ho), ?_⟩
    have h := schRefused_rd (taken s seq) o.reason
    rwa [hopen]
  · have hfits' (seq : BitVec 16) : (taken s seq).schedFits m cfg = true := hfits
    exact takesEffect_of (code := 0xA2) (fun r => applySchLoad r.w1) (fun _ => rfl) fun seq _ _ => ⟨_,
      schLoad_loaded (s := taken s seq) (w1 := w1) hmode hmixed hstate (by rw [hopen]; exact ho) (by rw [hopen]; exact he)
        (by rw [hopen]; exact hparse) (hfits' seq), schLoaded_regs (taken s seq) m cfg⟩

/-- An epoch commit set. -/
def schCommitted (s : State) (x e : Nat) : State :=
  ((((s.modSec fun y => { y with epochNext := e, epochTgt := x }).wr Reg.SEC_EPOCH_STATE 2).wr Reg.SEC_EPOCH_NEXT_EPOCH e).wr
    Reg.SEC_EPOCH_TGT_LO_T_LO x).wr Reg.SEC_EPOCH_TGT_HI_T_HI (x / 4294967296)

theorem schCommitted_regs (s : State) (x e : Nat) :
    (schCommitted s x e).rd Reg.SEC_EPOCH_STATE = 2 ∧ (schCommitted s x e).rd Reg.SEC_EPOCH_NEXT_EPOCH = e % 65536 ∧
      (schCommitted s x e).rd Reg.SEC_EPOCH_TGT_LO_T_LO = x % 2 ^ 32 ∧
      (schCommitted s x e).rd Reg.SEC_EPOCH_TGT_HI_T_HI = x / 4294967296 % 2 ^ 32 ∧
      keepsRegs s (schCommitted s x e) [Reg.SEC_EPOCH_STATE, Reg.SEC_EPOCH_NEXT_EPOCH, Reg.SEC_EPOCH_TGT_LO_T_LO, Reg.SEC_EPOCH_TGT_HI_T_HI] := by
  let v := s.modSec fun y => { y with epochNext := e, epochTgt := x }
  have hkeep : keepsRegs s v [Reg.SEC_EPOCH_STATE, Reg.SEC_EPOCH_NEXT_EPOCH, Reg.SEC_EPOCH_TGT_LO_T_LO, Reg.SEC_EPOCH_TGT_HI_T_HI] :=
    keepsRegs_of_eq rfl _
  refine ⟨?_, ?_, ?_, State.rd_wr_same _ Reg.SEC_EPOCH_TGT_HI_T_HI _, (((hkeep.wr (f := Reg.SEC_EPOCH_STATE) (by decide) 2).wr
    (f := Reg.SEC_EPOCH_NEXT_EPOCH) (by decide) e).wr (f := Reg.SEC_EPOCH_TGT_LO_T_LO) (by decide) x).wr (f := Reg.SEC_EPOCH_TGT_HI_T_HI)
    (by decide) _⟩
  · exact (State.rd_wr_ne _ Reg.SEC_EPOCH_TGT_HI_T_HI _ _ (by decide)).trans ((State.rd_wr_ne _ Reg.SEC_EPOCH_TGT_LO_T_LO _ _ (by decide)).trans
      ((State.rd_wr_ne _ Reg.SEC_EPOCH_NEXT_EPOCH _ _ (by decide)).trans (State.rd_wr_of_lt v (f := Reg.SEC_EPOCH_STATE) (by decide))))
  · exact (State.rd_wr_ne _ Reg.SEC_EPOCH_TGT_HI_T_HI _ _ (by decide)).trans ((State.rd_wr_ne _ Reg.SEC_EPOCH_TGT_LO_T_LO _ _ (by decide)).trans
      (State.rd_wr_same _ Reg.SEC_EPOCH_NEXT_EPOCH e))
  · exact (State.rd_wr_ne _ Reg.SEC_EPOCH_TGT_HI_T_HI _ _ (by decide)).trans (State.rd_wr_same _ Reg.SEC_EPOCH_TGT_LO_T_LO x)

theorem schCommit_effect {w1 w2 w3 : Word} (hmode : s.fromStartup = true) (hmixed : s.rdb Reg.SEC_STATUS_FW_MIXED = false)
    (hvalid : s.timeValid = true) (hstate : s.rd Reg.SEC_EPOCH_STATE = 1 ∨ s.rd Reg.SEC_EPOCH_STATE = 2) {x : Nat}
    (hx : w1.toNat + w2.toNat * 4294967296 = x) (hmul : x % (s.tbc * s.mx) = 0) (hper : x % s.ptn.nextNet.period = 0)
    (hlo : s.tm.tcNs + 2 * (s.tbc * s.mx) ≤ x) (hhi : x ≤ s.tm.tcNs + 86400000000000) (hepoch : s.tmu.epoch < w3.toNat) :
    ∃ u, applySchCommit w1 w2 w3 s = .ok u ∧ regsTo s u [(Reg.SEC_EPOCH_STATE, 2), (Reg.SEC_EPOCH_NEXT_EPOCH, w3.toNat % 65536),
      (Reg.SEC_EPOCH_TGT_LO_T_LO, w1.toNat), (Reg.SEC_EPOCH_TGT_HI_T_HI, w2.toNat)] ∧
      u = { s with regs := u.regs, sec := { s.sec with epochNext := w3.toNat, epochTgt := x } } := by
  have h1 := w1.isLt
  have h2 := w2.isLt
  have harg : arg64 w1 w2 = x := hx
  have hok : (decide (x % (s.tbc * s.mx) = 0) && decide (x % s.ptn.nextNet.period = 0) && decide (s.tm.tcNs + 2 * (s.tbc * s.mx) ≤ x) &&
      decide (x ≤ s.tm.tcNs + 86400000000000) && decide (s.tmu.epoch < w3.toNat)) = true := by
    rw [decide_eq_true hmul, decide_eq_true hper, decide_eq_true hlo, decide_eq_true hhi, decide_eq_true hepoch]
    rfl
  have hgate : (s.fromStartup && !s.rdb Reg.SEC_STATUS_FW_MIXED && s.timeValid &&
      (decide (s.rd Reg.SEC_EPOCH_STATE = 1) || decide (s.rd Reg.SEC_EPOCH_STATE = 2))) = true := by
    rw [hmode, hmixed, hvalid]
    rcases hstate with h | h <;> simp [h]
  obtain ⟨hst, hnext, htlo, hthi, hkeep⟩ := schCommitted_regs s x w3.toNat
  refine ⟨schCommitted s x w3.toNat, ?_, ⟨?_, fun g hg => hkeep g fun f hf => ?_⟩, rfl⟩
  · unfold applySchCommit
    dsimp only
    rw [harg, needs_true hgate, needs_true hok]
    rfl
  · simp only [List.mem_cons, List.not_mem_nil, or_false, forall_eq_or_imp, forall_eq]
    exact ⟨hst, hnext, htlo.trans (by omega), hthi.trans (by omega)⟩
  · simp only [List.mem_cons, List.not_mem_nil, or_false] at hf
    rcases hf with rfl | rfl | rfl | rfl
    · exact hg (Reg.SEC_EPOCH_STATE, 2) (by simp)
    · exact hg (Reg.SEC_EPOCH_NEXT_EPOCH, w3.toNat % 65536) (by simp)
    · exact hg (Reg.SEC_EPOCH_TGT_LO_T_LO, w1.toNat) (by simp)
    · exact hg (Reg.SEC_EPOCH_TGT_HI_T_HI, w2.toNat) (by simp)

theorem schCancel_effect (hmode : s.fromStartup = true) (hstate : s.rd Reg.SEC_EPOCH_STATE = 2) : ∃ u, applySchCancel s = .ok u ∧
    regsTo s u [(Reg.SEC_EPOCH_STATE, 1), (Reg.SEC_EPOCH_TGT_LO_T_LO, 0), (Reg.SEC_EPOCH_TGT_HI_T_HI, 0)] ∧ u = { s with regs := u.regs } := by
  refine ⟨s.epochEnd 1, needs_true (by rw [hmode, hstate]; rfl) _ _, ?_, rfl⟩
  exact regsTo_writes (l := [(Reg.SEC_EPOCH_STATE, 1), (Reg.SEC_EPOCH_TGT_LO_T_LO, 0), (Reg.SEC_EPOCH_TGT_HI_T_HI, 0)]) ⟨by decide, by decide⟩ s

/-! ### Firmware (R494) -/

theorem inVote_of_three (h : s.voters.length = 3) (c : Ch) : s.inVote c = true := by
  have hsub : s.voters.Sublist Ch.all := List.filter_sublist
  have heq : s.voters = Ch.all := hsub.eq_of_length (by rw [h]; rfl)
  have hmem : c ∈ s.voters := by
    rw [heq]
    exact mem_chAll c
  exact (List.mem_filter.1 hmem).2

/-- A channel in the vote whose reset cause is noted and that is reset. -/
theorem chAssert_claim (a : State) (c : Ch) (hvote : a.inVote c = true) : (a.chAssert c).ch c = Chan.init ∧
    (∀ d, d ≠ c → (a.chAssert c).ch d = a.ch d) ∧
    (a.chAssert c).rdb (Reg.RPC_CAUSE_CH_FW (Ch.num c)) = a.rdb (Reg.RPC_CAUSE_CH_FW (Ch.num c)) ∧
    natBit ((a.chAssert c).rd Reg.RPC_RESET_C) (Ch.num c) = true ∧ (c, 0x0B) ∈ (a.chAssert c).md.exclReq := by
  obtain ⟨hinit, hothers⟩ := chCleared_chs a c
  obtain ⟨-, hexcl⟩ := chCleared_md a c
  obtain ⟨hbitC, -⟩ := chBits_set (chCleared a c) (n := Ch.num c) (by cases c <;> decide)
  obtain ⟨-, hexcl'⟩ := chHeld_md (chCleared a c) c
  have hchs : (a.chAssert c).chs = (chCleared a c).chs := by
    rw [chAssert_eq, prgRegs_frame]
    exact chHeld_chs (chCleared a c) c
  have hmd : (a.chAssert c).md = (chHeld (chCleared a c) c).md := by rw [chAssert_eq, prgRegs_frame]
  have hrd {g : Fld} (hg : ∀ f ∈ agreeFlds, g.key ≠ f.key) : (a.chAssert c).rd g = (chBits (chCleared a c) (Ch.num c)).rd g := by
    rw [chAssert_eq, prgRegs_keeps _ g hg]
    exact State.rd_congr (chHeld_regs _ c) g
  refine ⟨?_, fun d hd => ?_, ?_, ?_, ?_⟩
  · rw [State.ch, hchs]
    exact hinit
  · rw [State.ch, hchs]
    exact hothers d hd
  · have hne : ∀ f ∈ agreeFlds ++ chHeldFlds ++ ([Reg.RPC_LOAD_RETRIES, Reg.RPC_CAUSE_LOAD_RETRY] ++ attemptFlds),
        (Reg.RPC_CAUSE_CH_FW (Ch.num c)).key ≠ f.key := by cases c <;> decide
    rw [State.rdb, hrd fun f hf => hne f (by simp [hf]), chBits_keeps _ _ _ fun f hf => hne f (by simp [hf]),
      chCleared_rd a c (by cases c <;> decide +kernel) (by cases c <;> decide) fun f hf => hne f (List.mem_append_right _ hf)]
    rfl
  · rw [hrd (by decide)]
    exact hbitC
  · rw [hmd, hexcl']
    exact hexcl hvote

/-- The argument of `FW_ACTIVATE`. -/
theorem fwWord {copy : Nat} (c : Ch) (hcopy : copy < 2) : (BitVec.ofNat 32 (Ch.num c + copy * 256)).toNat % 4 = Ch.num c ∧
    (BitVec.ofNat 32 (Ch.num c + copy * 256)).toNat / 256 % 2 = copy := by
  have hn : Ch.num c < 3 := by cases c <;> decide
  rw [BitVec.toNat_ofNat]
  omega

/-- The modes in which `FW_ACTIVATE` applies. -/
def fwMode (s : State) : Bool :=
  match s.md.mode with
  | .run3 | .run2 => true
  | .maint => !s.md.debug
  | _ => false

theorem fwMode_of (h : s.md.mode = .run3 ∨ s.md.mode = .run2 ∨ (s.md.mode = .maint ∧ s.md.debug = false)) : fwMode s = true := by
  unfold fwMode
  rcases h with h | h | ⟨h, hd⟩
  · rw [h]
  · rw [h]
  · rw [h, hd]
    rfl

theorem fwActivate_effect {copy : Nat} (hcopy : copy < 2) (hmode : fwMode s = true) (hvote : s.voters.length = 3)
    (hvalid : s.copyValid c copy = true) (hbank : s.copyBank c copy ≠ none) (hsame : bankId (s.copyBank c copy) = bankId s.runBank) :
    ∃ u, applyFwActivate (BitVec.ofNat 32 (Ch.num c + copy * 256)) s = .ok u ∧ u.ch c = { Chan.init with bootCopy := some copy } ∧
      (∀ d, d ≠ c → u.ch d = s.ch d) ∧ u.rdb (Reg.RPC_CAUSE_CH_FW (Ch.num c)) = true ∧
      natBit (u.rd Reg.RPC_RESET_C) (Ch.num c) = true ∧ (c, 0x0B) ∈ u.md.exclReq := by
  let a := s.wrb (Reg.RPC_CAUSE_CH_FW (Ch.num c)) true
  obtain ⟨hn, hk⟩ := fwWord c hcopy
  obtain ⟨hinit, hothers, hcause, hbit, hexcl⟩ := chAssert_claim a c (inVote_of_three (s := s) hvote c)
  have hat : Ch.at (Ch.num c) = c := by cases c <;> rfl
  refine ⟨(a.chAssert c).modCh c fun h => { h with bootCopy := some copy }, ?_, ?_, fun d hd => ?_, ?_, ?_, ?_⟩
  · unfold applyFwActivate
    dsimp only
    rw [hn, hk, hat]
    refine (needs_true hmode _ _).trans ?_
    rw [needs_true (by cases c <;> decide)]
    have hok : (decide (s.voters.length = 3) && s.copyValid c copy && (s.copyBank c copy).isSome &&
        decide (bankId (s.copyBank c copy) = bankId s.runBank)) = true := by
      rw [decide_eq_true hvote, hvalid, Option.isSome_iff_ne_none.2 hbank, decide_eq_true hsame]
      rfl
    exact needs_true hok _ _
  · rw [State.ch_modCh_same, hinit]
  · exact (State.ch_modCh_ne _ _ hd).trans (hothers d hd)
  · exact hcause.trans (State.rdb_wrb_same s (f := Reg.RPC_CAUSE_CH_FW (Ch.num c)) (by cases c <;> decide) true)
  · exact hbit
  · exact hexcl

theorem schedulesAndFirmware_hold : schedulesAndFirmware := by
  unfold schedulesAndFirmware
  intro s w1 w2 w3
  refine ⟨fun hmode => ⟨fun hmixed hstate => schLoad_claim w2 w3 hmode hmixed hstate, fun hmixed hvalid hstate hmul hper hlo hhi hepoch => ?_,
    fun hstate => ?_⟩, fun c copy hcopy hmode hvote hvalid hbank hsame => ?_⟩
  · exact takesEffect_of (code := 0xA3) (fun r => applySchCommit r.w1 r.w2 r.w3) (fun _ => rfl) fun seq _ _ =>
      schCommit_effect (s := taken s seq) hmode hmixed hvalid hstate rfl hmul hper hlo hhi hepoch
  · exact takesEffect_of (code := 0xA4) (fun _ => applySchCancel) (fun _ => rfl) fun seq _ _ =>
      schCancel_effect (s := taken s seq) hmode hstate
  · refine takesEffect_of (code := 0xA5) (fun r => applyFwActivate r.w1) (fun _ => rfl) fun seq _ _ => ?_
    have hsc := sameCopies_taken s seq
    have hrun : (taken s seq).runBank = s.runBank := runBank_congr (fun _ => rfl) fun _ => rfl
    exact fwActivate_effect (s := taken s seq) hcopy (fwMode_of hmode) hvote ((hsc.copyValid c copy).trans hvalid)
      (by rw [hsc.copyBank]; exact hbank) (by rw [hsc.copyBank, hrun]; exact hsame)

end Sys2Proof.Claims
end

section
/-! Keys, revocation and the rollback counter: O37. -/

namespace Sys2Proof.Claims

open Sys2Proof Sys2Proof.Machine

variable {s t u : State} {c d : Ch}

/-! ### One-time-programmable bits (R482, R483) -/

/-- Bits programmed in every copy are in force; the others are as they were. -/
theorem atLeast2_or {n : Nat} (a b c d o : BitVec n) : atLeast2 (a ||| o ||| o) (b ||| o) (c ||| o) (d ||| o) = atLeast2 a b c d ||| o := by
  refine BitVec.eq_of_getLsbD_eq fun i _ => ?_
  simp only [atLeast2, BitVec.getLsbD_or, BitVec.getLsbD_and]
  cases a.getLsbD i <;> cases b.getLsbD i <;> cases c.getLsbD i <;> cases d.getLsbD i <;> cases o.getLsbD i <;> rfl

/-- The bits of `o` programmed in every copy. -/
def programmed (s : State) (o : Otp) : State := ((s.modSec fun x => { x with otp := x.otp.union o }).otpComplete o).keyRegs

theorem programmed_sec (s : State) (o : Otp) : (programmed s o).sec = { s.sec with
    otp := (s.sec.otp.union o).union o,
    otpCh := ⟨s.sec.otpCh.a.union o, s.sec.otpCh.b.union o, s.sec.otpCh.c.union o⟩ } := by
  rw [programmed, keyRegs_frame]
  rfl

theorem programmed_otpVal (s : State) (o : Otp) : (programmed s o).otpVal.set = s.otpVal.set ||| o.set ∧
    (programmed s o).otpVal.revoked = s.otpVal.revoked ||| o.revoked ∧ (programmed s o).otpVal.roll = s.otpVal.roll ||| o.roll := by
  unfold State.otpVal
  rw [programmed_sec]
  exact ⟨atLeast2_or _ _ _ _ _, atLeast2_or _ _ _ _ _, atLeast2_or _ _ _ _ _⟩

theorem getLsbD_thermometer {v i : Nat} (hi : i < 64) : (BitVec.ofNat 64 (2 ^ v - 1)).getLsbD i = decide (i < v) := by
  rw [BitVec.getLsbD_ofNat, Nat.testBit_two_pow_sub_one, decide_eq_true hi, Bool.true_and]

theorem secRollback_effect (hmode : s.md.mode = .maint) : ∃ u, applySecRollback s = .ok u ∧
    (∀ i < 64, u.otpVal.roll.getLsbD i = true ↔ s.otpVal.roll.getLsbD i = true ∨ i < min 64 (leAt (s.copyBytes s.sec.start) 20 4)) ∧
      u.otpVal.set = s.otpVal.set ∧ u.otpVal.revoked = s.otpVal.revoked ∧ u.sec.fleet = s.sec.fleet ∧ u.sec.plug = s.sec.plug := by
  let v := min 64 (leAt (s.copyBytes s.sec.start) 20 4)
  let o : Otp := { Otp.blank with roll := BitVec.ofNat 64 (2 ^ v - 1) }
  obtain ⟨hset, hrev, hroll⟩ := programmed_otpVal s o
  refine ⟨programmed s o, needs_true (by rw [hmode]; rfl) _ _, fun i hi => ?_, ?_, ?_, ?_, ?_⟩
  · rw [hroll, BitVec.getLsbD_or, Bool.or_eq_true]
    have hbit : o.roll.getLsbD i = decide (i < v) := getLsbD_thermometer hi
    rw [hbit, decide_eq_true_eq]
  · rw [hset]
    exact BitVec.or_zero
  · rw [hrev]
    exact BitVec.or_zero
  · rw [programmed_sec]
  · rw [programmed_sec]

/-! ### Revocation (R484) -/

theorem getLsbD_oneHot {k j : Nat} : (BitVec.ofNat 3 (2 ^ k)).getLsbD j = decide (j < 3 ∧ k = j) := by
  rw [BitVec.getLsbD_ofNat, Nat.testBit_two_pow]
  by_cases h : j < 3 <;> simp [h]

/-- The record of a revocation that `SEC_REVOKE` accepts. -/
structure RevokeOk (s : State) (l : List Byte) (k : Nat) : Prop where
  mark : leAt l 0 4 = 0x5245564B
  slot : k ≤ 2
  zero : allZero (bytesAt l 5 3) = true
  other : leAt (bytesAt l 8 sigLen) 0 1 ≠ k
  signed : s.signedBy (bytesAt l 8 sigLen) (l.take 448) = true
  live : ∃ j < 3, j ≠ k ∧ s.rootLive j = true
  copy0 : s.copyRoot 0 ≠ some k
  copy1 : s.copyRoot 1 ≠ some k

theorem secRevoke_effect {port : CmdPort} {w1 w2 : Word} {l : List Byte} (hmode : s.md.mode = .maint)
    (hreach : reachOk port (arg64 w1 w2) (8 + sigLen) = true) (hfetch : s.fetchMem port (arg64 w1 w2) (8 + sigLen) = some l)
    (hok : RevokeOk s l (leAt l 4 1)) : ∃ u, applySecRevoke port w1 w2 s = .ok u ∧ u.rootLive (leAt l 4 1) = false ∧
      (∀ j, j ≠ leAt l 4 1 → u.rootLive j = s.rootLive j) ∧ u.otpVal.roll = s.otpVal.roll ∧ u.sec.fleet = s.sec.fleet := by
  let k := leAt l 4 1
  let o : Otp := { Otp.blank with revoked := BitVec.ofNat 3 (2 ^ k) }
  obtain ⟨hset, hrev, hroll⟩ := programmed_otpVal s o
  obtain ⟨hmark, hslot, hzero, hother, hsigned, hlive, hcopy0, hcopy1⟩ := hok
  have hset' : (programmed s o).otpVal.set = s.otpVal.set := hset.trans BitVec.or_zero
  have hbit (j : Nat) : (programmed s o).otpVal.revoked.getLsbD j = (s.otpVal.revoked.getLsbD j || decide (j < 3 ∧ k = j)) := by
    rw [hrev, BitVec.getLsbD_or]
    exact congrArg _ getLsbD_oneHot
  refine ⟨programmed s o, ?_, ?_, fun j hj => ?_, hroll.trans BitVec.or_zero, by rw [programmed_sec]⟩
  · have hany : ([0, 1, 2].any fun j => decide (j ≠ k) && s.rootLive j) = true := by
      obtain ⟨j, hj3, hjk, hjl⟩ := hlive
      refine List.any_eq_true.2 ⟨j, ?_, by rw [decide_eq_true hjk, hjl]; rfl⟩
      have : j = 0 ∨ j = 1 ∨ j = 2 := by omega
      rcases this with rfl | rfl | rfl <;> decide
    have hneeds : (decide (leAt l 0 4 = 0x5245564B) && decide (k ≤ 2) && allZero (bytesAt l 5 3) &&
        decide (leAt (bytesAt l 8 sigLen) 0 1 ≠ k) && s.signedBy (bytesAt l 8 sigLen) (l.take 448) &&
        ([0, 1, 2].any fun j => decide (j ≠ k) && s.rootLive j) && decide (s.copyRoot 0 ≠ some k) && decide (s.copyRoot 1 ≠ some k)) = true := by
      rw [decide_eq_true hmark, decide_eq_true hslot, hzero, decide_eq_true hother, hsigned, hany, decide_eq_true hcopy0, decide_eq_true hcopy1]
      rfl
    unfold applySecRevoke
    dsimp only
    rw [needs_true (by rw [hmode]; rfl), if_pos hreach, hfetch]
    exact needs_true hneeds _ _
  · unfold State.rootLive
    rw [hbit k, decide_eq_true (show k < 3 ∧ k = k from ⟨by omega, rfl⟩)]
    simp
  · unfold State.rootLive
    have hne : decide (j < 3 ∧ k = j) = false := decide_eq_false fun h => hj h.2.symm
    rw [hset', hbit j, hne, Bool.or_false]

/-! ### Import of a fleet key (R485) -/

theorem secKeyImport_effect {port : CmdPort} {w1 w2 : Word} {l key : List Byte} (hmode : s.md.mode = .maint ∨ s.md.mode = .hold)
    (hreach : reachOk port (arg64 w1 w2) (400 + sigLen) = true) (hfetch : s.fetchMem port (arg64 w1 w2) (400 + sigLen) = some l)
    (hmark : leAt l 0 4 = 0x4B455931) (hslot : leAt l 4 1 ≤ 1) (hz1 : allZero (bytesAt l 5 3) = true) (hz2 : allZero (bytesAt l 12 4) = true)
    (hsigned : s.signedBy (bytesAt l 400 sigLen) (l.take 840) = true) (hseal : Config.sealKey (bytesAt l 16 384) = some key)
    (hnamed : s.slotsNamed.contains (leAt l 4 1) = false) : ∃ u, applySecKeyImport port w1 w2 s = .ok u ∧
      u.fleetKey (leAt l 4 1) = some key ∧ (∀ j, j ≠ leAt l 4 1 → u.fleetKey j = s.fleetKey j) ∧ u.sec.otp = s.sec.otp ∧
      u.sec.plug = s.sec.plug := by
  let v := s.modSec fun x => { x with fleet := FMap.set none x.fleet (leAt l 4 1) (some key) }
  have hneeds : (decide (leAt l 0 4 = 0x4B455931) && decide (leAt l 4 1 ≤ 1) && allZero (bytesAt l 5 3) && allZero (bytesAt l 12 4) &&
      s.signedBy (bytesAt l 400 sigLen) (l.take 840)) = true := by
    rw [decide_eq_true hmark, decide_eq_true hslot, hz1, hz2, hsigned]
    rfl
  refine ⟨v.keyRegs, ?_, ?_, fun j hj => ?_, ?_, ?_⟩
  · unfold applySecKeyImport
    dsimp only
    rw [needs_true (by rcases hmode with h | h <;> rw [h] <;> rfl), if_pos hreach, hfetch]
    dsimp only
    rw [needs_true hneeds, hseal]
    exact needs_true (by rw [hnamed]; rfl) _ _
  · rw [keyRegs_frame]
    exact FMap.get_set_same none s.sec.fleet (leAt l 4 1) (some key)
  · rw [keyRegs_frame]
    exact FMap.get_set_ne none s.sec.fleet (some key) hj
  · rw [keyRegs_frame]
    rfl
  · rw [keyRegs_frame]
    rfl

/-! ### The claims -/

theorem SameCopies.signedBy (h : SameCopies s t) (sig msg : List Byte) : t.signedBy sig msg = s.signedBy sig msg := by
  unfold State.signedBy
  rw [h.rootOk]

theorem SameCopies.copyRoot (h : SameCopies s t) (k : Nat) : t.copyRoot k = s.copyRoot k := by
  unfold State.copyRoot
  rw [h.copyValidIn, h.copyBytes]

theorem SameCopies.slotsNamed (h : SameCopies s t) : t.slotsNamed = s.slotsNamed := by
  unfold State.slotsNamed
  simp only [h.copyValidIn, h.copyBytes]

theorem keysAndRollback_hold : keysAndRollback := by
  unfold keysAndRollback
  intro s w1 w2 w3
  refine ⟨fun hmode => ⟨?_, fun port l hreach hfetch hmark hslot hzero hother hsigned hlive hcopy0 hcopy1 => ?_⟩,
    fun hmode port l key hreach hfetch hmark hslot hz1 hz2 hsigned hseal hnamed => ?_⟩
  · exact takesEffect_of (code := 0xA6) (fun _ => applySecRollback) (fun _ => rfl) fun seq _ _ => secRollback_effect (s := taken s seq) hmode
  · refine takesEffectAt_of (code := 0xA7) (fun r => applySecRevoke r.port r.w1 r.w2) (fun _ => rfl) fun seq _ => ?_
    have h := sameCopies_taken s seq
    refine secRevoke_effect (s := taken s seq) hmode hreach hfetch ⟨hmark, hslot, hzero, hother, (h.signedBy _ _).trans hsigned, ?_, ?_, ?_⟩
    · obtain ⟨j, hj3, hjk, hjl⟩ := hlive
      exact ⟨j, hj3, hjk, (h.rootLive j).trans hjl⟩
    · rw [h.copyRoot]
      exact hcopy0
    · rw [h.copyRoot]
      exact hcopy1
  · refine takesEffectAt_of (code := 0xA9) (fun r => applySecKeyImport r.port r.w1 r.w2) (fun _ => rfl) fun seq _ => ?_
    have h := sameCopies_taken s seq
    exact secKeyImport_effect (s := taken s seq) hmode hreach hfetch hmark hslot hz1 hz2 ((h.signedBy _ _).trans hsigned) hseal
      (by rw [h.slotsNamed]; exact hnamed)

/-- Settles O37: what a schedule, its commit, a firmware and a key leave, and the bits programmed in every copy of the storage. -/
theorem schedulesFirmwareAndKeys : Obligations.SchedulesFirmwareAndKeys := ⟨schedulesAndFirmware_hold, keysAndRollback_hold⟩

end Sys2Proof.Claims
end

section
/-! The event recorder: O34. -/

namespace Sys2Proof.Claims

open Sys2Proof Sys2Proof.Machine

variable {s t u : State}

/-! ### Registers alone -/

/-- Registers among `l` may differ, nothing else. -/
structure RegOp (s t : State) (l : List Fld) : Prop where
  frame : t = { s with regs := t.regs }
  regs : keepsRegs s t l

theorem RegOp.refl (s : State) (l : List Fld) : RegOp s s l := ⟨rfl, keepsRegs_refl s l⟩

theorem RegOp.trans {l : List Fld} (h : RegOp s t l) (h' : RegOp t u l) : RegOp s u l where
  frame := by rw [h'.frame, h.frame]
  regs := h.regs.trans h'.regs

theorem RegOp.wr {l : List Fld} (h : RegOp s t l) {f : Fld} (hf : f ∈ l) (v : Nat) : RegOp s (t.wr f v) l :=
  h.trans ⟨rfl, keepsRegs_wr t hf v⟩

theorem RegOp.wrb {l : List Fld} (h : RegOp s t l) {f : Fld} (hf : f ∈ l) (b : Bool) : RegOp s (t.wrb f b) l := h.wr hf _

theorem RegOp.inc {l : List Fld} (h : RegOp s t l) {f : Fld} (hf : f ∈ l) : RegOp s (t.inc f) l := h.wr hf _

theorem RegOp.mono {l l' : List Fld} (h : RegOp s t l) (hl : ∀ f ∈ l, f ∈ l') : RegOp s t l' := ⟨h.frame, h.regs.mono hl⟩

theorem RegOp.ite {p : Prop} [Decidable p] {l : List Fld} (ht : RegOp s t l) (hu : RegOp s u l) : RegOp s (if p then t else u) l := by
  split
  · exact ht
  · exact hu

theorem RegOp.foldSt {α : Type} {l : List Fld} {xs : List α} {f : α → State → State} (h : ∀ x ∈ xs, ∀ s, RegOp s (f x s) l) (s : State) :
    RegOp s (foldSt xs f s) l := by
  induction xs generalizing s with
  | nil => exact RegOp.refl s l
  | cons x xs ih => exact (h x List.mem_cons_self s).trans (ih (fun y hy => h y (List.mem_cons_of_mem x hy)) (f x s))

/-! ### The recorder's own steps -/

/-- A record that is queued changes the recorder's queue alone. -/
theorem enqueue_rcd (s : State) (e : RecEv) : (s.enqueue e).rcd = { s.rcd with queue := (s.enqueue e).rcd.queue } := by
  unfold State.enqueue
  dsimp only
  split_ifs <;> rfl

/-- The fields that show the index (R470). -/
def indexFlds : List Fld :=
  [Reg.REC_STATUS_COUNT, Reg.REC_STATUS_FULL, Reg.REC_QUEUE_FILL, Reg.REC_NEXT_SEQ_LO_NEXT_LO, Reg.REC_NEXT_SEQ_HI_NEXT_HI,
    Reg.REC_FLOOR_LO_FLOOR_LO, Reg.REC_FLOOR_HI_FLOOR_HI, Reg.REC_HEAD_VALID, Reg.REC_HEAD_SLOT] ++
    (List.range 8).map Reg.REC_SEV_COUNT_COUNT

theorem recRegs_op (s : State) : RegOp s s.recRegs indexFlds := by
  have hsev {v : Nat} (hv : v ∈ List.range 8) : Reg.REC_SEV_COUNT_COUNT v ∈ indexFlds :=
    List.mem_append_right _ (List.mem_map_of_mem hv)
  unfold State.recRegs
  refine RegOp.trans ?_ (RegOp.foldSt (fun v hv s => (RegOp.refl s indexFlds).wr (hsev hv) _) _)
  exact (((((((((RegOp.refl s _).wr (f := Reg.REC_STATUS_COUNT) (by decide) _).wrb (f := Reg.REC_STATUS_FULL) (by decide) _).wr
    (f := Reg.REC_QUEUE_FILL) (by decide) _).wr (f := Reg.REC_NEXT_SEQ_LO_NEXT_LO) (by decide) _).wr (f := Reg.REC_NEXT_SEQ_HI_NEXT_HI)
    (by decide) _).wr (f := Reg.REC_FLOOR_LO_FLOOR_LO) (by decide) _).wr (f := Reg.REC_FLOOR_HI_FLOOR_HI) (by decide) _).wrb
    (f := Reg.REC_HEAD_VALID) (by decide) _).wr (f := Reg.REC_HEAD_SLOT) (by decide) _

theorem recRegs_keeps (s : State) : keepsRegs s s.recRegs indexFlds := (recRegs_op s).regs

theorem recRegs_frame (s : State) : s.recRegs = { s with regs := s.recRegs.regs } := (recRegs_op s).frame

theorem recRegs_rcd (s : State) : s.recRegs.rcd = s.rcd := by rw [recRegs_frame]

/-! ### The reports of the channels (R460) -/

theorem same_self (e : RecEv) : e.same e = true := by simp [RecEv.same]

theorem channelEventMatch_eq (hgood : s.pdhGood = true) :
    exec .channelEventMatch s = .next (foldSt s.rcd.reports (fun r s => s.matchReport r) s) := by
  have hx : exec .channelEventMatch s = execChannelEventMatch s := by rfl
  rw [hx, execChannelEventMatch, if_pos hgood]

/-- The reports of an event leave, and its record is queued. -/
def reported (s : State) (r : Report) (e : RecEv) : State :=
  State.enqueue (((s.modRec fun x => { x with matched := x.matched ++ [r.ev] }).modRec fun x =>
    { x with reports := x.reports.filter fun q => !q.ev.same r.ev })) e

theorem reported_rcd (r : Report) (e : RecEv) (hgood : s.pdhGood = true) (hlen : s.rcd.queue.length < 2048)
    (hgone : s.rcd.reports.filter (fun q => !q.ev.same r.ev) = []) :
    (reported s r e).rcd.reports = [] ∧ (reported s r e).rcd.matched = s.rcd.matched ++ [r.ev] ∧
      (reported s r e).rcd.queue = s.rcd.queue ++ [e] := by
  refine ⟨?_, ?_, enqueue_queue _ e hgood hlen⟩
  · rw [reported, enqueue_rcd]
    exact hgone
  · rw [reported, enqueue_rcd]
    rfl

theorem matchReport_gone (r : Report) (h : s.rcd.reports = []) : s.matchReport r = s := by
  unfold State.matchReport
  dsimp only
  rw [h]
  rfl

theorem matchReport_pair {r q : Report} (hreports : s.rcd.reports = [r, q]) (hmatched : s.rcd.matched = []) (hq : q.ev.same r.ev = true)
    (hchan : q.chan ≠ r.chan) : s.matchReport r = reported s r { r.ev with flushed := r.ev.flushed || q.ev.flushed } := by
  have hpeers : [r, q].filter (fun p => p.ev.same r.ev && decide (p.chan ≠ r.chan)) = [q] := by simp [hq, hchan]
  unfold State.matchReport
  dsimp only
  rw [hreports, hmatched, if_neg (by simp), if_neg (by simp), hpeers]
  rfl

theorem matchReport_alone {r : Report} (hreports : s.rcd.reports = [r]) (hmatched : s.rcd.matched = []) : s.matchReport r =
    if 2 ≤ r.age && !r.ev.flushed then reported s r { r.ev with single := true, inst := r.chan } else s := by
  have hpeers : [r].filter (fun p => p.ev.same r.ev && decide (p.chan ≠ r.chan)) = [] := by simp
  unfold State.matchReport
  dsimp only
  rw [hreports, hmatched, if_neg (by simp), if_neg (by simp), hpeers]
  rfl

theorem channelEventMatch_pair {r q : Report} (hgood : s.pdhGood = true) (hlen : s.rcd.queue.length < 2048) (hmatched : s.rcd.matched = [])
    (hreports : s.rcd.reports = [r, q]) (hq : q.ev.same r.ev = true) (hchan : q.chan ≠ r.chan) :
    ∃ t, exec .channelEventMatch s = .next t ∧ t.rcd.reports = [] ∧ t.rcd.matched = [r.ev] ∧
      t.rcd.queue = s.rcd.queue ++ [{ r.ev with flushed := r.ev.flushed || q.ev.flushed }] := by
  let v := reported s r { r.ev with flushed := r.ev.flushed || q.ev.flushed }
  obtain ⟨hrep, hmat, hqueue⟩ := reported_rcd (s := s) r { r.ev with flushed := r.ev.flushed || q.ev.flushed } hgood hlen
    (by rw [hreports]; simp [same_self, hq])
  refine ⟨v, ?_, hrep, by rw [hmat, hmatched, List.nil_append], hqueue⟩
  rw [channelEventMatch_eq hgood, hreports]
  change Host.Outcome.next ((s.matchReport r).matchReport q) = _
  rw [matchReport_pair hreports hmatched hq hchan, matchReport_gone q hrep]

theorem channelEventMatch_alone {r : Report} (hgood : s.pdhGood = true) (hlen : s.rcd.queue.length < 2048) (hmatched : s.rcd.matched = [])
    (hreports : s.rcd.reports = [r]) (hflushed : r.ev.flushed = false) :
    (2 ≤ r.age → ∃ t, exec .channelEventMatch s = .next t ∧ t.rcd.reports = [] ∧
      t.rcd.queue = s.rcd.queue ++ [{ r.ev with single := true, inst := r.chan }]) ∧
    (r.age < 2 → exec .channelEventMatch s = .next s) := by
  have hx : exec .channelEventMatch s = .next (s.matchReport r) := by
    rw [channelEventMatch_eq hgood, hreports]
    rfl
  rw [hx, matchReport_alone hreports hmatched]
  refine ⟨fun hage => ?_, fun hage => ?_⟩
  · rw [if_pos (by rw [decide_eq_true hage, hflushed]; rfl)]
    obtain ⟨hrep, -, hqueue⟩ := reported_rcd (s := s) r { r.ev with single := true, inst := r.chan } hgood hlen
      (by rw [hreports]; simp [same_self])
    exact ⟨_, rfl, hrep, hqueue⟩
  · rw [if_neg (by rw [decide_eq_false (Nat.not_le.2 hage), Bool.false_and]; decide)]

/-! ### A record takes its slot (R464 to R466) -/

theorem length_flatMap_wordLE (l : List Word) : (l.flatMap wordLE).length = 4 * l.length := by
  induction l with
  | nil => rfl
  | cons w l ih =>
    rw [List.flatMap_cons, List.length_append, ih, List.length_cons, show (wordLE w).length = 4 from rfl]
    omega

theorem recordBytes_length (s : State) (seq : Nat) {e : RecEv} (he : e.payload.length = 6) :
    (recordBytes (s.recordBody seq e)).length = 64 := by
  simp only [recordBytes, withCrc, State.recordBody, List.length_append, length_natLE, length_flatMap_wordLE, he,
    show ∀ w, (wordLE w).length = 4 from fun _ => rfl]

/-- The recorder after its queue has lost its head. -/
def popped (s : State) (rest : List RecEv) : State := s.modRec fun x => { x with queue := rest }

/-- A record in its slot, with the index that names it. -/
def slotted (s : State) (k : Nat) (e : RecEv) : State :=
  s.modRec fun x => { x with
    mram := Mem.write x.mram (k * 64) (recordBytes (s.recordBody s.rcd.next e)), mramErrs := Ecc.written x.mramErrs (k * 64) 64,
    index := FMap.set none x.index k (some (s.rcd.next, e.sev)), next := s.rcd.next + 1 }

variable {e : RecEv} {rest : List RecEv}

theorem recWrite_slot {k : Nat} (hqueue : s.rcd.queue = e :: rest) (hnv : s.nvAlive = true) (hindex : s.indexDone = true)
    (hsave : s.rpc.save = none) (hslot : s.rcd.slotFor e.sev = some k) : exec .recWrite s =
      .next (if (slotted (popped s rest) k e).recRegs.rd Reg.REC_CFG_IRQ_SEV ≤ e.sev then (slotted (popped s rest) k e).recRegs.raiseInt 3
        else (slotted (popped s rest) k e).recRegs) := by
  have hx : exec .recWrite s = execRecWrite s := by rfl
  have hslot' : (popped s rest).rcd.slotFor e.sev = some k := hslot
  rw [hx, execRecWrite, hqueue]
  dsimp only
  rw [if_neg (by rw [hnv, hindex, hsave]; decide)]
  change (match (popped s rest).rcd.slotFor e.sev with
    | none => _
    | some _ => _) = _
  rw [hslot']
  rfl

theorem recWrite_drop (hqueue : s.rcd.queue = e :: rest) (hnv : s.nvAlive = true) (hindex : s.indexDone = true)
    (hsave : s.rpc.save = none) (hslot : s.rcd.slotFor e.sev = none) :
    exec .recWrite s = .next ((popped s rest).inc (Reg.REC_DROP_DROPS e.sev)).recRegs := by
  have hx : exec .recWrite s = execRecWrite s := by rfl
  have hslot' : (popped s rest).rcd.slotFor e.sev = none := hslot
  rw [hx, execRecWrite, hqueue]
  dsimp only
  rw [if_neg (by rw [hnv, hindex, hsave]; decide)]
  change (match (popped s rest).rcd.slotFor e.sev with
    | none => _
    | some _ => _) = _
  rw [hslot']
  rfl

theorem recWrite_claim (hqueue : s.rcd.queue = e :: rest) (hsev : e.sev < 8) (hpay : e.payload.length = 6) (hnv : s.nvAlive = true)
    (hindex : s.indexDone = true) (hsave : s.rpc.save = none) :
    (∀ k, s.rcd.slotFor e.sev = some k → ∃ t, exec .recWrite s = .next t ∧ t.rcd.queue = rest ∧ t.rcd.next = s.rcd.next + 1 ∧
      Mem.read t.rcd.mram (k * 64) 64 = recordBytes (s.recordBody s.rcd.next e) ∧
      (∀ a, a < k * 64 ∨ k * 64 + 64 ≤ a → Mem.get t.rcd.mram a = Mem.get s.rcd.mram a) ∧
      FMap.get none t.rcd.index k = some (s.rcd.next, e.sev) ∧
      (s.rd Reg.REC_CFG_IRQ_SEV ≤ e.sev → natBit (t.rd Reg.HBR_INT_STATUS_INT) 3 = true)) ∧
    (s.rcd.slotFor e.sev = none → ∃ t, exec .recWrite s = .next t ∧ t.rcd = { s.rcd with queue := rest } ∧
      t.rd (Reg.REC_DROP_DROPS e.sev) = up s (Reg.REC_DROP_DROPS e.sev)) := by
  refine ⟨fun k hk => ?_, fun hk => ?_⟩
  · let v := slotted (popped s rest) k e
    have hlen : (recordBytes (s.recordBody s.rcd.next e)).length = 64 := recordBytes_length s _ hpay
    have hirq : v.recRegs.rd Reg.REC_CFG_IRQ_SEV = s.rd Reg.REC_CFG_IRQ_SEV := recRegs_keeps v _ (by decide)
    have hmram : v.rcd.mram = Mem.write s.rcd.mram (k * 64) (recordBytes (s.recordBody s.rcd.next e)) := rfl
    have hcore {t : State} (ht : t.rcd = v.rcd) : t.rcd.queue = rest ∧ t.rcd.next = s.rcd.next + 1 ∧
        Mem.read t.rcd.mram (k * 64) 64 = recordBytes (s.recordBody s.rcd.next e) ∧
        (∀ a, a < k * 64 ∨ k * 64 + 64 ≤ a → Mem.get t.rcd.mram a = Mem.get s.rcd.mram a) ∧
        FMap.get none t.rcd.index k = some (s.rcd.next, e.sev) := by
      rw [ht]
      refine ⟨rfl, rfl, ?_, fun a ha => ?_, FMap.get_set_same none s.rcd.index k (some (s.rcd.next, e.sev))⟩
      · have h := Mem.read_write_same s.rcd.mram (k * 64) (recordBytes (s.recordBody s.rcd.next e))
        rwa [hlen] at h
      · rw [hmram]
        exact Mem.get_write_apart _ _ _ (by rw [hlen]; exact ha)
    have hx := recWrite_slot hqueue hnv hindex hsave hk
    by_cases hle : v.recRegs.rd Reg.REC_CFG_IRQ_SEV ≤ e.sev
    · obtain ⟨h1, h2, h3, h4, h5⟩ := hcore (t := v.recRegs.raiseInt 3) (by rw [raiseInt_frame, recRegs_frame])
      exact ⟨_, hx.trans (congrArg _ (if_pos hle)), h1, h2, h3, h4, h5, fun _ => raiseInt_bit _ (by decide)⟩
    · obtain ⟨h1, h2, h3, h4, h5⟩ := hcore (t := v.recRegs) (by rw [recRegs_frame])
      exact ⟨_, hx.trans (congrArg _ (if_neg hle)), h1, h2, h3, h4, h5, fun h => absurd (hirq.trans_le h) hle⟩
  · let v := (popped s rest).inc (Reg.REC_DROP_DROPS e.sev)
    have hne : ∀ n < 8, ∀ f ∈ indexFlds, (Reg.REC_DROP_DROPS n).key ≠ f.key := by decide
    refine ⟨v.recRegs, recWrite_drop hqueue hnv hindex hsave hk, ?_, ?_⟩
    · rw [recRegs_frame]
      rfl
    · exact (recRegs_keeps v _ (hne e.sev hsev)).trans (rd_inc_up (popped s rest) _)

/-! ### The index is built (R467) -/

/-- What one slot gives the index. -/
def slotRead (k : Nat) (s : State) : State :=
  match s.rcd.find k with
  | .free => s
  | .ue => s.inc Reg.REC_ERR_UE
  | .crc => s.inc Reg.REC_ERR_CRC_BAD
  | .rcrd q v => s.modRec fun x => { x with index := FMap.set none x.index k (some (q, v)), next := max x.next (q + 1) }

/-- A recorder whose memory and floor are those of another, so that every slot reads alike. -/
structure SameSlots (x y : RecSt) : Prop where
  mram : y.mram = x.mram
  errs : y.mramErrs = x.mramErrs
  floor : y.floor = x.floor
  indexing : y.indexing = x.indexing

theorem SameSlots.find {x y : RecSt} (h : SameSlots x y) (k : Nat) : y.find k = x.find k := by
  unfold RecSt.find
  rw [h.mram, h.errs, h.floor]

theorem slotRead_same (x : RecSt) (k : Nat) (h : SameSlots x s.rcd) : SameSlots x (slotRead k s).rcd := by
  unfold slotRead
  split
  · exact h
  · exact h
  · exact h
  · exact ⟨h.mram, h.errs, h.floor, h.indexing⟩

/-- A record that was found is in the index, below the next number. -/
def indexed (s : State) (k q v : Nat) : Prop := FMap.get none s.rcd.index k = some (q, v) ∧ q < s.rcd.next

theorem slotRead_found {x : RecSt} {k q v : Nat} (h : SameSlots x s.rcd) (hfind : x.find k = .rcrd q v) : indexed (slotRead k s) k q v := by
  have heq : slotRead k s = s.modRec fun x => { x with index := FMap.set none x.index k (some (q, v)), next := max x.next (q + 1) } := by
    unfold slotRead
    rw [h.find, hfind]
  rw [heq]
  refine ⟨FMap.get_set_same none s.rcd.index k (some (q, v)), ?_⟩
  change q < max s.rcd.next (q + 1)
  omega

theorem slotRead_keeps {x : RecSt} {j k q v : Nat} (h : SameSlots x s.rcd) (hfind : x.find k = .rcrd q v) (hs : indexed s k q v) :
    indexed (slotRead j s) k q v := by
  by_cases hj : j = k
  · rw [hj]
    exact slotRead_found h hfind
  · obtain ⟨hget, hlt⟩ := hs
    unfold slotRead
    split
    · exact ⟨hget, hlt⟩
    · exact ⟨hget, hlt⟩
    · exact ⟨hget, hlt⟩
    · next p w _ =>
      refine ⟨(FMap.get_set_ne none s.rcd.index (some (p, w)) (Ne.symm hj)).trans hget, ?_⟩
      change q < max s.rcd.next (p + 1)
      omega

/-- The state in which the index build reads the slots: the index empty, and the floor in use. -/
def slotsRead (s : State) : State :=
  (s.nvHeal 0xF040 32).modRec fun x => { x with floor := s.floorNow.1, indexing := false, index := [], next := s.floorNow.1 }

theorem slotsRead_same (s : State) : SameSlots { s.rcd with floor := s.floorNow.1, indexing := false } (slotsRead s).rcd := by
  have h : (s.nvHeal 0xF040 32).rcd = s.rcd := by
    unfold State.nvHeal
    split <;> rfl
  have hread : (slotsRead s).rcd =
      { (s.nvHeal 0xF040 32).rcd with floor := s.floorNow.1, indexing := false, index := [], next := s.floorNow.1 } := rfl
  rw [hread, h]
  exact ⟨rfl, rfl, rfl, rfl⟩

theorem slotsRead_touched (s : State) : (slotsRead s).rcd.touched = s.rcd.touched := by
  have h := slotsRead_same s
  unfold RecSt.touched
  rw [h.mram, h.errs]

/-- The index is complete. -/
def indexComplete (s : State) : State :=
  ((s.modRec fun x => { x with mramErrs := x.mramErrs.foldl (fun m e => FMap.set 0 m e.1 (Ecc.left e.2)) x.mramErrs }).wrb
    Reg.REC_STATUS_INDEX_DONE true).recRegs

theorem recIndexDone_eq (hindexing : s.rcd.indexing = true) (hnv : s.nvAlive = true) : ∃ e,
    exec .recIndexDone s = .next ((indexComplete (foldSt s.rcd.touched slotRead (slotsRead s))).enqueue e) := by
  have hx : exec .recIndexDone s = execRecIndexDone s := by rfl
  rw [hx, execRecIndexDone, if_neg (by rw [hindexing, hnv]; decide)]
  dsimp only
  have hfold : foldSt (slotsRead s).rcd.touched slotRead (slotsRead s) = foldSt s.rcd.touched slotRead (slotsRead s) := by
    rw [slotsRead_touched]
  rw [← hfold]
  exact ⟨_, rfl⟩

theorem indexComplete_parts (s : State) : (indexComplete s).indexDone = true ∧ (indexComplete s).rcd.indexing = s.rcd.indexing ∧
    (indexComplete s).rcd.floor = s.rcd.floor ∧ (indexComplete s).rcd.mram = s.rcd.mram ∧ (indexComplete s).rcd.index = s.rcd.index ∧
    (indexComplete s).rcd.next = s.rcd.next := by
  let v := s.modRec fun x => { x with mramErrs := x.mramErrs.foldl (fun m e => FMap.set 0 m e.1 (Ecc.left e.2)) x.mramErrs }
  let w := v.wrb Reg.REC_STATUS_INDEX_DONE true
  have hw : (indexComplete s).rcd = v.rcd := recRegs_rcd w
  refine ⟨?_, by rw [hw]; rfl, by rw [hw]; rfl, by rw [hw]; rfl, by rw [hw]; rfl, by rw [hw]; rfl⟩
  exact (rdb_of_rd (recRegs_keeps w Reg.REC_STATUS_INDEX_DONE (by decide))).trans (State.rdb_wrb_same v (by decide) true)

theorem recIndexDone_claim (hnv : s.nvAlive = true) (hindexing : s.rcd.indexing = true) : ∃ t, exec .recIndexDone s = .next t ∧
    t.indexDone = true ∧ t.rcd.indexing = false ∧ t.rcd.floor = s.floorNow.1 ∧ t.rcd.mram = s.rcd.mram ∧
    ∀ k ∈ s.rcd.touched, ∀ q v, RecSt.find { s.rcd with floor := s.floorNow.1 } k = .rcrd q v →
      FMap.get none t.rcd.index k = some (q, v) ∧ q < t.rcd.next := by
  obtain ⟨e, hx⟩ := recIndexDone_eq hindexing hnv
  let x : RecSt := { s.rcd with floor := s.floorNow.1, indexing := false }
  let u := foldSt s.rcd.touched slotRead (slotsRead s)
  have hsame : SameSlots x u.rcd := foldSt_inv (P := fun t => SameSlots x t.rcd) (fun k _ t ht => slotRead_same x k ht) (slotsRead_same s)
  obtain ⟨hdone, hind, hfloor, hmram, hindex, hnext⟩ := indexComplete_parts u
  have hrcd := enqueue_rcd (indexComplete u) e
  refine ⟨_, hx, ?_, ?_, ?_, ?_, fun k hk q v hfind => ?_⟩
  · exact (rdb_of_rd (keepsRegs_enqueue (indexComplete u) e Reg.REC_STATUS_INDEX_DONE (by decide))).trans hdone
  · rw [hrcd]
    exact hind.trans hsame.indexing
  · rw [hrcd]
    exact hfloor.trans hsame.floor
  · rw [hrcd]
    exact hmram.trans hsame.mram
  · have hfind' : x.find k = .rcrd q v := hfind
    have hkept : indexed u k q v :=
      foldSt_established (P := fun t => SameSlots x t.rcd) (Q := fun t => indexed t k q v) hk (fun j _ t ht => slotRead_same x j ht)
        (fun t ht => slotRead_found ht hfind') (fun j _ t ht hq => slotRead_keeps ht hfind' hq) (slotsRead_same s)
    rw [hrcd]
    exact ⟨(congrArg (FMap.get none · k) hindex).trans hkept.1, hkept.2.trans_eq hnext.symm⟩

theorem recorderWritesAndIndex_hold : recorderWritesAndIndex := by
  unfold recorderWritesAndIndex
  intro s
  refine ⟨fun hgood hlen hmatched r q => ⟨fun hreports hq _ hchan => channelEventMatch_pair hgood hlen hmatched hreports hq hchan,
    fun hreports hflushed => channelEventMatch_alone hgood hlen hmatched hreports hflushed⟩,
    fun e rest hqueue hsev hpay hnv hindex hsave => recWrite_claim hqueue hsev hpay hnv hindex hsave,
    fun hnv => ⟨fun hindex => ?_, fun hindexing => recIndexDone_claim hnv hindexing⟩⟩
  have hx : exec .recIndexBuild s = execRecIndexBuild s := by rfl
  refine ⟨s.indexStart, ?_, rfl, State.rdb_wrb_same s (by decide) false⟩
  rw [hx, execRecIndexBuild, if_pos (by rw [hnv, hindex]; rfl)]

end Sys2Proof.Claims
end

section
/-! The recorder's commands, host marks and seeks: O34. -/

namespace Sys2Proof.Claims

open Sys2Proof Sys2Proof.Machine

variable {s t u : State}

/-! ### `REC_CLEAR` and `REC_COUNT_CLEAR` (R468 and Table 16-6) -/

theorem nvWrite_rcd (s : State) (a : Nat) (l : List Byte) : (s.nvWrite a l).rcd = s.rcd := by
  unfold State.nvWrite
  split <;> rfl

theorem writeFloor_rcd (s : State) (f : Nat) : (s.writeFloor f).rcd = { s.rcd with floor := f } := by
  unfold State.writeFloor
  dsimp only
  exact congrArg (fun x : RecSt => { x with floor := f }) (nvWrite_rcd s _ _)

theorem recClear_effect (hmode : s.md.mode = .maint) (hindex : s.indexDone = true) : ∃ u, applyRecClear s = .ok u ∧
    u.rcd.index = [] ∧ u.rcd.floor = s.rcd.next ∧ u.rcd.mram = s.rcd.mram ∧
    ∃ e, u.rcd.queue = e :: s.rcd.queue ∧ e.sev = 5 ∧ e.cls = 5 ∧ e.payload.head? = some 1 := by
  let v := (s.writeFloor s.rcd.next).modRec fun x => { x with index := [] }
  let e := v.event 5 0x05 Src.rec 0 [1]
  let w := v.modRec fun x => { x with queue := e :: x.queue }
  have hv : v.rcd = { s.rcd with floor := s.rcd.next, index := [] } :=
    congrArg (fun x : RecSt => { x with index := [] }) (writeFloor_rcd s s.rcd.next)
  have hw : w.recRegs.rcd = { s.rcd with floor := s.rcd.next, index := [], queue := e :: s.rcd.queue } :=
    (recRegs_rcd w).trans (congrArg (fun x : RecSt => { x with queue := e :: x.queue }) hv)
  refine ⟨w.recRegs, ?_, ?_⟩
  · unfold applyRecClear
    rw [needs_true (by rw [hmode]; rfl), needs_true hindex]
  · rw [hw]
    exact ⟨rfl, rfl, rfl, e, rfl, rfl, rfl, rfl⟩

theorem recCountClear_effect (s : State) : ∃ u, applyRecCountClear s = .ok u ∧
    regsTo s u ([(Reg.REC_ERR_Q_OVF, 0), (Reg.REC_ERR_CRC_BAD, 0), (Reg.REC_ERR_UE, 0)] ++
      (List.range 8).map fun v => (Reg.REC_DROP_DROPS v, 0)) ∧ u = { s with regs := u.regs } := by
  let drops := (List.range 8).map fun v => (Reg.REC_DROP_DROPS v, 0)
  let errs := [(Reg.REC_ERR_Q_OVF, 0), (Reg.REC_ERR_CRC_BAD, 0), (Reg.REC_ERR_UE, 0)]
  have hto : regsTo s (writes (drops ++ errs) s) (drops ++ errs) := regsTo_writes ⟨by decide, by decide⟩ s
  refine ⟨writes (drops ++ errs) s, rfl, ⟨fun e he => hto.1 e ?_, fun g hg => hto.2 g fun e he => hg e ?_⟩, writes_frame _ s⟩
  · exact List.mem_append.2 (List.mem_append.1 he).symm
  · exact List.mem_append.2 (List.mem_append.1 he).symm

/-! ### Register writes field by field -/

theorem writeReg_fields {off : Nat} {fs : List Fld} (w : Word) (hfs : Reg.fieldsAt off = some fs) (hany : (fs.any fun f => Acc.writable f.acc) = true)
    (hflip : flipReg off = false) (hadj : adjReg off = false) : s.writeReg off w = foldSt fs (fun f s => s.writeField f w) s := by
  unfold State.writeReg
  rw [hfs]
  dsimp only
  rw [if_pos hany, if_neg (by rw [hflip]; simp), if_neg (by rw [hadj]; simp)]

theorem writeField_rw {f : Fld} (w : Word) (hacc : f.acc = .rw) (hres : ∀ v, Machine.Fld.reserved f v = false) :
    s.writeField f w = s.wr f (w.toNat / 2 ^ f.lsb % 2 ^ f.width) := by
  unfold State.writeField
  rw [hacc]
  exact if_neg (by rw [hres]; decide)

theorem writeField_w1c {f : Fld} (w : Word) (hacc : f.acc = .w1c) :
    s.writeField f w = s.wr f (s.rd f &&& (2 ^ f.width - 1 - w.toNat / 2 ^ f.lsb % 2 ^ f.width)) := by
  unfold State.writeField
  rw [hacc]

theorem writeField_w1s {f : Fld} (w : Word) (hacc : f.acc = .w1s) : s.writeField f w = s := by
  unfold State.writeField
  rw [hacc]

theorem fieldsAt_markCtl : Reg.fieldsAt 0xD00098 =
    some [Reg.REC_MARK_CTL_WRITE, Reg.REC_MARK_CTL_DROPPED, Reg.REC_MARK_CTL_TAG, Reg.REC_MARK_CTL_SEV] := by decide +kernel

theorem fieldsAt_seekHi : Reg.fieldsAt 0xD00024 = some [Reg.REC_SEEK_HI_S_HI] := by decide +kernel

/-! ### A host mark (R462) -/

/-- A write of `REC_MARK_CTL`. -/
def markSet (s : State) (w : Word) : State :=
  ((s.wr Reg.REC_MARK_CTL_DROPPED (s.rd Reg.REC_MARK_CTL_DROPPED &&& (2 ^ 1 - 1 - w.toNat / 2 ^ 30 % 2 ^ 1))).wr Reg.REC_MARK_CTL_TAG
    (w.toNat / 2 ^ 8 % 2 ^ 8)).wr Reg.REC_MARK_CTL_SEV (w.toNat / 2 ^ 0 % 2 ^ 2)

theorem writeReg_markCtl (s : State) (w : Word) : s.writeReg 0xD00098 w = markSet s w := by
  rw [writeReg_fields w fieldsAt_markCtl (by decide) (by decide) (by decide)]
  change (((s.writeField Reg.REC_MARK_CTL_WRITE w).writeField Reg.REC_MARK_CTL_DROPPED w).writeField Reg.REC_MARK_CTL_TAG w).writeField
    Reg.REC_MARK_CTL_SEV w = _
  have htag (v : Nat) : Machine.Fld.reserved Reg.REC_MARK_CTL_TAG v = false := by simp [Machine.Fld.reserved, Reg.REC_MARK_CTL_TAG]
  have hsev (v : Nat) : Machine.Fld.reserved Reg.REC_MARK_CTL_SEV v = false := by simp [Machine.Fld.reserved, Reg.REC_MARK_CTL_SEV]
  rw [writeField_w1s (f := Reg.REC_MARK_CTL_WRITE) w rfl, writeField_w1c (f := Reg.REC_MARK_CTL_DROPPED) w rfl,
    writeField_rw (f := Reg.REC_MARK_CTL_TAG) w rfl htag, writeField_rw (f := Reg.REC_MARK_CTL_SEV) w rfl hsev]
  rfl

theorem markSet_op (s : State) (w : Word) :
    RegOp s (markSet s w) [Reg.REC_MARK_CTL_DROPPED, Reg.REC_MARK_CTL_TAG, Reg.REC_MARK_CTL_SEV] :=
  (((RegOp.refl s _).wr (f := Reg.REC_MARK_CTL_DROPPED) (by decide) _).wr (f := Reg.REC_MARK_CTL_TAG) (by decide) _).wr
    (f := Reg.REC_MARK_CTL_SEV) (by decide) _

theorem markSet_rd (s : State) (w : Word) : (markSet s w).rd Reg.REC_MARK_CTL_TAG = w.toNat / 256 % 256 ∧
    (markSet s w).rd Reg.REC_MARK_CTL_SEV = w.toNat % 4 := by
  refine ⟨?_, ?_⟩
  · refine (State.rd_wr_ne _ Reg.REC_MARK_CTL_SEV Reg.REC_MARK_CTL_TAG _ (by decide)).trans ((State.rd_wr_same _ _ _).trans ?_)
    change w.toNat / 2 ^ 8 % 2 ^ 8 % 2 ^ 8 = _
    omega
  · refine (State.rd_wr_same _ Reg.REC_MARK_CTL_SEV _).trans ?_
    change w.toNat / 2 ^ 0 % 2 ^ 2 % 2 ^ 2 = _
    omega

theorem markWord {tag sev : Nat} (htag : tag < 256) (hsev : sev < 4) : (BitVec.ofNat 32 (2 ^ 31 + tag * 256 + sev)).getLsbD 31 = true ∧
    (BitVec.ofNat 32 (2 ^ 31 + tag * 256 + sev)).toNat / 256 % 256 = tag ∧ (BitVec.ofNat 32 (2 ^ 31 + tag * 256 + sev)).toNat % 4 = sev := by
  have hv : (2 ^ 31 + tag * 256 + sev) % 2 ^ 32 = 2 ^ 31 + tag * 256 + sev := Nat.mod_eq_of_lt (by omega)
  refine ⟨?_, ?_, ?_⟩
  · rw [BitVec.getLsbD_ofNat, Nat.testBit_eq_decide_div_mod_eq]
    simp only [Bool.and_eq_true, decide_eq_true_eq]
    omega
  · rw [BitVec.toNat_ofNat, hv]
    omega
  · rw [BitVec.toNat_ofNat, hv]
    omega

theorem pay_words (l : List Nat) (h : l.length = 6) : pay l = l.map fun v => BitVec.ofNat 32 v := by
  rw [pay, ← h, List.take_left]

theorem pdhGood_of_hostUp (h : s.hostUp = true) : s.pdhGood = true := by
  simp only [State.hostUp, State.hostAlive, Bool.and_eq_true] at h
  exact h.1.1.1.1.1

theorem pdhGood_of_keeps {l : List Fld} (h : keepsRegs s t l) (h1 : ∀ f ∈ l, Reg.MOD_DOMAIN_PGOOD.key ≠ f.key)
    (h2 : ∀ f ∈ l, Reg.RPC_LOAD_LOAD_ERR.key ≠ f.key) : t.pdhGood = s.pdhGood := by
  unfold State.pdhGood
  rw [h _ h1, h _ h2]

theorem hostMark_claim (hup : s.hostUp = true) {tag sev : Nat} (htag : tag < 256) (hsev : sev < 4)
    (hidle : s.rdb Reg.REC_MARK_CTL_WRITE = false) (hmode : s.md.mode ≠ .boot) (hlen : s.rcd.queue.length < 2048) :
    ∃ t e, exec (.hostMark (BitVec.ofNat 32 (2 ^ 31 + tag * 256 + sev))) s = .next t ∧ t.rcd.queue = s.rcd.queue ++ [e] ∧
      e.sev = sev ∧ e.cls = 4 ∧ e.src = 13 ∧ e.inst = tag ∧
      e.payload = (List.range 6).map (fun i => BitVec.ofNat 32 (s.rd (Reg.REC_MARK_DATA_DATA i))) := by
  obtain ⟨hgo, htagw, hsevw⟩ := markWord htag hsev
  generalize BitVec.ofNat 32 (2 ^ 31 + tag * 256 + sev) = w at hgo htagw hsevw
  have hop := markSet_op s w
  obtain ⟨htagr, hsevr⟩ := markSet_rd s w
  let v := markSet s w
  let e := v.event (v.rd Reg.REC_MARK_CTL_SEV) 0x04 Src.host (v.rd Reg.REC_MARK_CTL_TAG)
    ((List.range 6).map fun i => v.rd (Reg.REC_MARK_DATA_DATA i))
  have hgood : v.pdhGood = true := (pdhGood_of_keeps hop.regs (by decide) (by decide)).trans (pdhGood_of_hostUp hup)
  have hrcd : (markSet s w).rcd = s.rcd := by rw [hop.frame]
  have hdata : ∀ i < 6, v.rd (Reg.REC_MARK_DATA_DATA i) = s.rd (Reg.REC_MARK_DATA_DATA i) := by
    have hne : ∀ i < 6, ∀ f ∈ [Reg.REC_MARK_CTL_DROPPED, Reg.REC_MARK_CTL_TAG, Reg.REC_MARK_CTL_SEV],
        (Reg.REC_MARK_DATA_DATA i).key ≠ f.key := by decide
    exact fun i hi => hop.regs _ (hne i hi)
  have hx : exec (.hostMark w) s = .next (v.enqueue e) := by
    have hx : exec (.hostMark w) s = execHostMark w s := by rfl
    rw [hx, execHostMark, if_pos hup, State.markWrite]
    dsimp only
    rw [if_neg (by rw [hgo]; simpa using hmode), writeReg_markCtl, hgo, if_neg (by decide), hidle, if_neg (by decide)]
  refine ⟨_, e, hx, ?_, hsevr.trans hsevw, rfl, rfl, htagr.trans htagw, ?_⟩
  · rw [enqueue_queue v e hgood (by rw [show v.rcd = s.rcd from hrcd]; exact hlen), show v.rcd = s.rcd from hrcd]
  · have hpay : e.payload = pay ((List.range 6).map fun i => v.rd (Reg.REC_MARK_DATA_DATA i)) := rfl
    rw [hpay, pay_words _ (by simp), List.map_map]
    exact List.map_congr_left fun i hi => congrArg (BitVec.ofNat 32) (hdata i (List.mem_range.1 hi))

/-! ### A seek (R469) -/

/-- What `seekIn` finds: a record at or above `v`, and none nearer. -/
def foundAt (v : Nat) (m : List (Nat × Option (Nat × Nat))) (q k : Nat) : Prop :=
  (∃ sv, (k, some (q, sv)) ∈ m) ∧ v ≤ q ∧ ∀ j p u, (j, some (p, u)) ∈ m → v ≤ p → q ≤ p

theorem seekIn_spec (v : Nat) (m : List (Nat × Option (Nat × Nat))) :
    (seekIn v m = none → ∀ k q sv, (k, some (q, sv)) ∈ m → q < v) ∧ ∀ q k, seekIn v m = some (q, k) → foundAt v m q k := by
  induction m with
  | nil => exact ⟨fun _ k q sv h => absurd h List.not_mem_nil, fun q k h => by cases h⟩
  | cons e m ih =>
    obtain ⟨j, x⟩ := e
    obtain ⟨hnone, hsome⟩ := ih
    cases x with
    | none =>
      refine ⟨fun h k q sv hmem => ?_, fun q k h => ?_⟩
      · rcases List.mem_cons.1 hmem with he | he
        · cases he
        · exact hnone h k q sv he
      · obtain ⟨⟨sv, hmem⟩, hle, hmin⟩ := hsome q k h
        refine ⟨⟨sv, List.mem_cons_of_mem _ hmem⟩, hle, fun i p w hi => ?_⟩
        rcases List.mem_cons.1 hi with he | he
        · cases he
        · exact hmin i p w he
    | some y =>
      obtain ⟨p, w⟩ := y
      cases hm : seekIn v m with
      | none =>
        have hrest := hnone hm
        have heq : seekIn v ((j, some (p, w)) :: m) = if v ≤ p then some (p, j) else none := by rw [seekIn, hm]
        rw [heq]
        refine ⟨fun h k q sv hmem => ?_, fun q k h => ?_⟩
        · rcases List.mem_cons.1 hmem with he | he
          · cases he
            by_contra hlt
            rw [if_pos (Nat.le_of_not_lt hlt)] at h
            cases h
          · exact hrest k q sv he
        · have hle : v ≤ p := by
            by_contra hgt
            rw [if_neg hgt] at h
            cases h
          rw [if_pos hle] at h
          cases h
          refine ⟨⟨w, List.mem_cons_self⟩, hle, fun i q u hi hq => ?_⟩
          rcases List.mem_cons.1 hi with he | he
          · cases he
            exact le_rfl
          · exact absurd (hrest i q u he) (Nat.not_lt.2 hq)
      | some z =>
        obtain ⟨q', k'⟩ := z
        obtain ⟨⟨sv, hmem⟩, hle, hmin⟩ := hsome q' k' hm
        have heq : seekIn v ((j, some (p, w)) :: m) = if v ≤ p && p < q' then some (p, j) else some (q', k') := by rw [seekIn, hm]
        rw [heq]
        refine ⟨fun h => ?_, fun q k h => ?_⟩
        · split at h <;> cases h
        · by_cases hnear : (decide (v ≤ p) && decide (p < q')) = true
          · rw [if_pos hnear] at h
            cases h
            simp only [Bool.and_eq_true, decide_eq_true_eq] at hnear
            refine ⟨⟨w, List.mem_cons_self⟩, hnear.1, fun i r u hi hr => ?_⟩
            rcases List.mem_cons.1 hi with he | he
            · cases he
              exact le_rfl
            · exact hnear.2.le.trans (hmin i r u he hr)
          · rw [if_neg hnear] at h
            cases h
            simp only [Bool.and_eq_true, decide_eq_true_eq, not_and, Nat.not_lt] at hnear
            refine ⟨⟨sv, List.mem_cons_of_mem _ hmem⟩, hle, fun i r u hi hr => ?_⟩
            rcases List.mem_cons.1 hi with he | he
            · cases he
              exact hnear hr
            · exact hmin i r u he hr

/-- The seek registers with what was found. -/
def seekSet (s : State) (w : Word) (r : Option (Nat × Nat)) : State :=
  ((s.wr Reg.REC_SEEK_HI_S_HI (w.toNat / 2 ^ 0 % 2 ^ 32)).wrb Reg.REC_SEEK_RES_FOUND r.isSome).wr Reg.REC_SEEK_RES_SLOT ((r.map (·.2)).getD 0)

theorem seekSet_rd (s : State) (w : Word) (r : Option (Nat × Nat)) : (seekSet s w r).rdb Reg.REC_SEEK_RES_FOUND = r.isSome ∧
    (seekSet s w r).rd Reg.REC_SEEK_RES_SLOT = (r.map (·.2)).getD 0 % 2 ^ 19 :=
  ⟨(State.rdb_wr_ne _ _ (by decide)).trans (State.rdb_wrb_same _ (by decide) _), State.rd_wr_same _ Reg.REC_SEEK_RES_SLOT _⟩

theorem recSeek_eq (hup : s.hostUp = true) (hindex : s.indexDone = true) (w : Word) :
    exec (.recSeek w) s = .next (seekSet s w (seekIn (s.rd Reg.REC_SEEK_LO_S_LO + w.toNat * 4294967296) s.rcd.index)) := by
  let v := s.wr Reg.REC_SEEK_HI_S_HI (w.toNat / 2 ^ 0 % 2 ^ 32)
  have hwrite : s.writeReg 0xD00024 w = v := by
    rw [writeReg_fields w fieldsAt_seekHi (by decide) (by decide) (by decide)]
    exact writeField_rw (f := Reg.REC_SEEK_HI_S_HI) w rfl fun x => by simp [Machine.Fld.reserved, Reg.REC_SEEK_HI_S_HI]
  have hhi : v.rd Reg.REC_SEEK_HI_S_HI = w.toNat := by
    refine (State.rd_wr_same s Reg.REC_SEEK_HI_S_HI _).trans ?_
    change w.toNat / 2 ^ 0 % 2 ^ 32 % 2 ^ 32 = _
    have := w.isLt
    omega
  have hlo : v.rd Reg.REC_SEEK_LO_S_LO = s.rd Reg.REC_SEEK_LO_S_LO := State.rd_wr_ne s Reg.REC_SEEK_HI_S_HI Reg.REC_SEEK_LO_S_LO _ (by decide)
  have hdone : v.indexDone = true := (State.rdb_wr_ne s _ (by decide)).trans hindex
  have hx : exec (.recSeek w) s = execRecSeek w s := by rfl
  rw [hx, execRecSeek, if_pos hup, State.seekWrite]
  rw [hwrite, hhi, hlo, hdone, if_pos rfl]
  rfl

theorem recSeek_claim (hup : s.hostUp = true) (hindex : s.indexDone = true) (w : Word) :
    let v := s.rd Reg.REC_SEEK_LO_S_LO + w.toNat * 4294967296
    ∃ t, exec (.recSeek w) s = .next t ∧ t = { s with regs := t.regs } ∧
      (∀ k q sv, (k, some (q, sv)) ∈ s.rcd.index → v ≤ q → t.rdb Reg.REC_SEEK_RES_FOUND = true) ∧
      (t.rdb Reg.REC_SEEK_RES_FOUND = true → ∃ k q sv, (k, some (q, sv)) ∈ s.rcd.index ∧ v ≤ q ∧
        t.rd Reg.REC_SEEK_RES_SLOT = k % 2 ^ 19 ∧ ∀ j p u, (j, some (p, u)) ∈ s.rcd.index → v ≤ p → q ≤ p) := by
  intro v
  obtain ⟨hnone, hsome⟩ := seekIn_spec v s.rcd.index
  refine ⟨_, recSeek_eq hup hindex w, rfl, fun k q sv hmem hle => ?_, fun hfound => ?_⟩
  · rw [(seekSet_rd s w _).1]
    by_contra h
    exact absurd (hnone (Option.not_isSome_iff_eq_none.1 h) k q sv hmem) (Nat.not_lt.2 hle)
  · rw [(seekSet_rd s w _).1] at hfound
    obtain ⟨⟨q, k⟩, hr⟩ := Option.isSome_iff_exists.1 hfound
    obtain ⟨⟨sv, hmem⟩, hle, hmin⟩ := hsome q k hr
    refine ⟨k, q, sv, hmem, hle, ?_, hmin⟩
    rw [(seekSet_rd s w _).2, hr]
    rfl

/-- Settles O34: the recorder's steps over its memory, index and queue, and its commands, marks and seeks. -/
theorem eventRecorder : Obligations.EventRecorder := by
  refine ⟨recorderWritesAndIndex_hold, ?_⟩
  unfold recorderCommands
  intro s w1 w2 w3
  refine ⟨fun hmode hindex => ?_, ?_, fun hup => ⟨fun tag sev htag hsev hidle hmode hlen => hostMark_claim hup htag hsev hidle hmode hlen,
    fun w hindex => recSeek_claim hup hindex w⟩⟩
  · exact takesEffect_of (code := 0x90) (fun _ => applyRecClear) (fun _ => rfl) fun seq _ _ => recClear_effect (s := taken s seq) hmode hindex
  · exact takesEffect_of (code := 0x91) (fun _ => applyRecCountClear) (fun _ => rfl) fun seq _ _ => recCountClear_effect (taken s seq)

end Sys2Proof.Claims
end

section
/-! Current loops: samples, supervision and HART transactions (O33). -/

namespace Sys2Proof.Claims

open Sys2Proof Sys2Proof.Machine

variable {s t u : State} {n : Nat}

/-! ### A loop's state -/

theorem loop_modLoop (s : State) (n : Nat) (f : AlpLoop → AlpLoop) (k : Nat) :
    (s.modLoop n f).loop k = if k = n then f (s.loop n) else s.loop k := FMap.get_set _ _ _ _ _

theorem loop_modLoop_same (s : State) (n : Nat) (f : AlpLoop → AlpLoop) : (s.modLoop n f).loop n = f (s.loop n) := by
  rw [loop_modLoop, if_pos rfl]

theorem loop_congr (h : t.alp = s.alp) (k : Nat) : t.loop k = s.loop k := by
  unfold State.loop
  rw [h]

theorem onlyLoop.refl (s : State) (n : Nat) : onlyLoop s s n := ⟨fun _ _ => rfl, rfl⟩

theorem onlyLoop.trans (h : onlyLoop s t n) (h' : onlyLoop t u n) : onlyLoop s u n :=
  ⟨fun k hk => (h'.1 k hk).trans (h.1 k hk), by rw [h'.2, h.2]⟩

theorem onlyLoop.modLoop (s : State) (n : Nat) (f : AlpLoop → AlpLoop) : onlyLoop s (s.modLoop n f) n :=
  ⟨fun k hk => (loop_modLoop s n f k).trans (if_neg hk), rfl⟩

theorem RegOp.alp {l : List Fld} (h : RegOp s t l) : t.alp = s.alp := by rw [h.frame]

theorem RegOp.onlyLoop {l : List Fld} (h : RegOp s t l) (n : Nat) : onlyLoop s t n :=
  ⟨fun k _ => loop_congr h.alp k, by rw [h.frame]⟩

theorem RegOp.loop {l : List Fld} (h : RegOp s t l) (k : Nat) : t.loop k = s.loop k := loop_congr h.alp k

/-! ### Samples (R441) -/

theorem loopSample_claim (f : Fin 4) (nA : Nat) (lim : Bool) (mv : Nat) (hgood : s.pdlGood = true) (hmode : s.loopMode f.val ≠ 0) :
    ∃ t, exec (.loopSample f nA lim mv) s = .next t ∧
      t.loop f.val = { s.loop f.val with samples := (nA :: (s.loop f.val).samples).take 400,
                                         limited := lim && decide (s.loopMode f.val = 1), headroom := mv } ∧
      onlyLoop s t f.val ∧ t.regs = s.regs := by
  have hx : exec (.loopSample f nA lim mv) s = execLoopSample f nA lim mv s := by rfl
  rw [hx, execLoopSample, if_pos (by rw [hgood, decide_eq_true hmode]; rfl)]
  exact ⟨_, rfl, loop_modLoop_same s f.val _, onlyLoop.modLoop s f.val _, rfl⟩

/-! ### Supervision (R446, R447) -/

/-- Class, current and fault of a loop. -/
def faultFlds (n : Nat) : List Fld := [Reg.ALP_STAT_CLASS n, Reg.ALP_STAT_CURRENT n, Reg.ALP_STAT_FAULT n]

/-- A class that means a fault (Table 15-2). -/
def badClass (cls : Nat) : Bool := decide (cls = 3 ∨ cls = 4 ∨ cls = 7)

theorem loopFault_op (s : State) (n : Nat) : RegOp s (s.loopFault n) (faultFlds n) := by
  unfold State.loopFault State.loopStatus
  dsimp only
  rw [if_neg (by simp)]
  exact (((RegOp.refl s _).wr (f := Reg.ALP_STAT_CLASS n) (by simp [faultFlds]) _).wr (f := Reg.ALP_STAT_CURRENT n)
    (by simp [faultFlds]) _).wrb (f := Reg.ALP_STAT_FAULT n) (by simp [faultFlds]) _

theorem loopFault_fault (s : State) (n : Nat) : (s.loopFault n).rdb (Reg.ALP_STAT_FAULT n) =
    (badClass (s.rd (Reg.ALP_STAT_CLASS n)) || s.rdb (Reg.ALP_STAT_OPEN n) ||
      (s.rdb (Reg.ALP_STAT_COMPLIANCE n) && s.rdb (Reg.ALP_CFG_COMP_FAULT n))) := by
  unfold State.loopFault State.loopStatus badClass
  dsimp only
  rw [if_neg (by simp)]
  refine (State.rdb_wrb_same _ (f := Reg.ALP_STAT_FAULT n) (by simp [Reg.ALP_STAT_FAULT]) _).trans ?_
  simp only [Bool.decide_or, Bool.or_assoc]

/-- The fields of a loop that its supervision reads and writes. -/
def supervised (n : Nat) : List Fld :=
  [Reg.ALP_STAT_OPEN n, Reg.ALP_STAT_COMPLIANCE n, Reg.ALP_STAT_FAULT n, Reg.ALP_STAT_CLASS n, Reg.ALP_STAT_CURRENT n,
    Reg.ALP_EVENT_COMP_SET n]

theorem faultFlds_sub (n : Nat) : ∀ f ∈ faultFlds n, f ∈ supervised n := by
  intro f hf
  simp only [faultFlds, List.mem_cons, List.not_mem_nil, or_false] at hf
  rcases hf with rfl | rfl | rfl <;> simp [supervised]

theorem tenMs_of {x : AlpLoop} {p : Nat → Bool} (hlen : 40 ≤ x.samples.length) (hall : ∀ y ∈ x.samples.take 40, p y = true) : x.tenMs p = true := by
  rw [AlpLoop.tenMs, decide_eq_true hlen, Bool.true_and, List.all_eq_true]
  exact hall

theorem loopOpen_claim (f : Fin 4) (hgood : s.pdlGood = true) (hout : s.loopOut f.val = true) (hdrive : 4000 ≤ (s.loop f.val).driveUa)
    (hlen : 40 ≤ (s.loop f.val).samples.length) (hall : ∀ x ∈ (s.loop f.val).samples.take 40, x < 500000)
    (hopen : s.rdb (Reg.ALP_STAT_OPEN f.val) = false) : ∃ t, exec (.loopOpen f) s = .next t ∧
      regsTo s t [(Reg.ALP_STAT_OPEN f.val, 1), (Reg.ALP_STAT_FAULT f.val, 1), (Reg.ALP_EVENT_OPEN_SET f.val, 1)] ∧
      t = { s with regs := t.regs } := by
  have hx : exec (.loopOpen f) s = execLoopOpen f s := by rfl
  have hten : ((s.loop f.val).tenMs fun x => x < 500000) = true := tenMs_of hlen fun y hy => decide_eq_true (hall y hy)
  have hsep : ∀ n < 4, ([(Reg.ALP_STAT_OPEN n, 1), (Reg.ALP_STAT_FAULT n, 1), (Reg.ALP_EVENT_OPEN_SET n, 1)].Pairwise fun a b =>
      a.1.key ≠ b.1.key) := by decide
  rw [hx, execLoopOpen, if_pos (by rw [hgood, hout, decide_eq_true hdrive, hten, hopen]; rfl)]
  exact ⟨_, rfl, regsTo_writes (l := [(Reg.ALP_STAT_OPEN f.val, 1), (Reg.ALP_STAT_FAULT f.val, 1), (Reg.ALP_EVENT_OPEN_SET f.val, 1)])
    ⟨by simp [Reg.ALP_STAT_OPEN, Reg.ALP_STAT_FAULT, Reg.ALP_EVENT_OPEN_SET], hsep f.val f.isLt⟩ s, rfl⟩

/-- One supervision bit changes, and `FAULT` follows. -/
theorem loopFault_after (hn : n < 4) {g : Fld} (hg : g ∈ supervised n) (hgs : g ∉ faultFlds n) (b : Bool) (hw : g.width ≠ 0) :
    let t := (s.wrb g b).loopFault n
    t.rdb g = b ∧ keepsRegs s t (supervised n) ∧ t = { s with regs := t.regs } := by
  intro t
  have hop := loopFault_op (s.wrb g b) n
  refine ⟨?_, (keepsRegs_wr s hg _).trans (hop.regs.mono (faultFlds_sub n)), ?_⟩
  · have hne : ∀ n < 4, ∀ g ∈ supervised n, g ∉ faultFlds n → ∀ f ∈ faultFlds n, g.key ≠ f.key := by decide
    exact (rdb_of_rd (hop.regs g (hne n hn g hg hgs))).trans (State.rdb_wrb_same s hw b)
  · have h := hop.frame
    have hw : s.wrb g b = { s with regs := (s.wrb g b).regs } := rfl
    rw [show t = _ from h, hw]

/-- What `FAULT` follows from, where one of the two supervision bits has been written. -/
theorem loopFault_inputs (hn : n < 4) (s : State) {g : Fld} (hg : g = Reg.ALP_STAT_OPEN n ∨ g = Reg.ALP_STAT_COMPLIANCE n) (b : Bool) :
    (s.wrb g b).rd (Reg.ALP_STAT_CLASS n) = s.rd (Reg.ALP_STAT_CLASS n) ∧
      (s.wrb g b).rdb (Reg.ALP_CFG_COMP_FAULT n) = s.rdb (Reg.ALP_CFG_COMP_FAULT n) ∧
      (g = Reg.ALP_STAT_OPEN n → (s.wrb g b).rdb (Reg.ALP_STAT_COMPLIANCE n) = s.rdb (Reg.ALP_STAT_COMPLIANCE n)) ∧
      (g = Reg.ALP_STAT_COMPLIANCE n → (s.wrb g b).rdb (Reg.ALP_STAT_OPEN n) = s.rdb (Reg.ALP_STAT_OPEN n)) := by
  have hne : ∀ n < 4, ∀ g ∈ [Reg.ALP_STAT_OPEN n, Reg.ALP_STAT_COMPLIANCE n],
      (Reg.ALP_STAT_CLASS n).key ≠ g.key ∧ (Reg.ALP_CFG_COMP_FAULT n).key ≠ g.key := by decide
  have hoc : ∀ n < 4, (Reg.ALP_STAT_COMPLIANCE n).key ≠ (Reg.ALP_STAT_OPEN n).key := by decide
  obtain ⟨hcls, hcfg⟩ := hne n hn g (by simpa using hg)
  refine ⟨State.rd_wrb_ne s g _ b hcls, State.rdb_wrb_ne s b hcfg, fun h => ?_, fun h => ?_⟩
  · rw [h]
    exact State.rdb_wrb_ne s b (hoc n hn)
  · rw [h]
    exact State.rdb_wrb_ne s b (hoc n hn).symm

theorem loopOpenClear_claim (f : Fin 4) (hopen : s.rdb (Reg.ALP_STAT_OPEN f.val) = true) (hlen : 40 ≤ (s.loop f.val).samples.length)
    (hall : ∀ x ∈ (s.loop f.val).samples.take 40, 500000 < x) : ∃ t, exec (.loopOpenClear f) s = .next t ∧
      t.rdb (Reg.ALP_STAT_OPEN f.val) = false ∧
      t.rdb (Reg.ALP_STAT_FAULT f.val) = (badClass (s.rd (Reg.ALP_STAT_CLASS f.val)) ||
        (s.rdb (Reg.ALP_STAT_COMPLIANCE f.val) && s.rdb (Reg.ALP_CFG_COMP_FAULT f.val))) ∧
      keepsRegs s t (supervised f.val) ∧ t = { s with regs := t.regs } := by
  have hx : exec (.loopOpenClear f) s = execLoopOpenClear f s := by rfl
  have hten : ((s.loop f.val).tenMs fun x => 500000 < x) = true := tenMs_of hlen fun y hy => decide_eq_true (hall y hy)
  have hnot : ∀ n < 4, Reg.ALP_STAT_OPEN n ∉ faultFlds n := by decide
  obtain ⟨hbit, hkeep, hframe⟩ := loopFault_after (s := s) f.isLt (g := Reg.ALP_STAT_OPEN f.val) (by simp [supervised]) (hnot f.val f.isLt) false
    (by simp [Reg.ALP_STAT_OPEN])
  obtain ⟨hcls, hcfg, hcomp, -⟩ := loopFault_inputs f.isLt s (.inl rfl) false
  rw [hx, execLoopOpenClear, if_pos (by rw [hopen, hten]; rfl)]
  refine ⟨_, rfl, hbit, ?_, hkeep, hframe⟩
  rw [loopFault_fault, hcls, hcfg, hcomp rfl, State.rdb_wrb_same s (by simp [Reg.ALP_STAT_OPEN]) false, Bool.or_false]

theorem loopCompliance_claim (f : Fin 4) (hgood : s.pdlGood = true) (hout : s.loopOut f.val = true) (hroom : (s.loop f.val).headroom < 1500)
    (hcomp : s.rdb (Reg.ALP_STAT_COMPLIANCE f.val) = false) : ∃ t, exec (.loopCompliance f) s = .next t ∧
      t.rdb (Reg.ALP_STAT_COMPLIANCE f.val) = true ∧ t.rdb (Reg.ALP_EVENT_COMP_SET f.val) = true ∧
      t.rdb (Reg.ALP_STAT_FAULT f.val) = (badClass (s.rd (Reg.ALP_STAT_CLASS f.val)) || s.rdb (Reg.ALP_STAT_OPEN f.val) ||
        s.rdb (Reg.ALP_CFG_COMP_FAULT f.val)) ∧
      keepsRegs s t (supervised f.val) ∧ t = { s with regs := t.regs } := by
  have hx : exec (.loopCompliance f) s = execLoopCompliance f s := by rfl
  have hn := f.isLt
  let v := s.wrb (Reg.ALP_STAT_COMPLIANCE f.val) true
  let w := v.wrb (Reg.ALP_EVENT_COMP_SET f.val) true
  have hop := loopFault_op w f.val
  have hset : ∀ n < 4, ∀ f ∈ faultFlds n, (Reg.ALP_EVENT_COMP_SET n).key ≠ f.key := by decide
  have hapart : ∀ n < 4, ∀ f ∈ faultFlds n, (Reg.ALP_STAT_COMPLIANCE n).key ≠ f.key := by decide
  have hevent : ∀ n < 4, ∀ g ∈ [Reg.ALP_STAT_COMPLIANCE n, Reg.ALP_STAT_CLASS n, Reg.ALP_STAT_OPEN n, Reg.ALP_CFG_COMP_FAULT n],
      g.key ≠ (Reg.ALP_EVENT_COMP_SET n).key := by decide
  have hev {g : Fld} (hg : g ∈ [Reg.ALP_STAT_COMPLIANCE f.val, Reg.ALP_STAT_CLASS f.val, Reg.ALP_STAT_OPEN f.val, Reg.ALP_CFG_COMP_FAULT f.val]) :
      w.rd g = v.rd g := State.rd_wrb_ne v (Reg.ALP_EVENT_COMP_SET f.val) g true (hevent f.val hn g hg)
  obtain ⟨hcls, hcfg, -, hopen⟩ := loopFault_inputs hn s (.inr rfl) true
  have hv : v.rdb (Reg.ALP_STAT_COMPLIANCE f.val) = true := State.rdb_wrb_same s (by simp [Reg.ALP_STAT_COMPLIANCE]) true
  rw [hx, execLoopCompliance, if_pos (by rw [hgood, hout, decide_eq_true hroom, hcomp]; rfl)]
  refine ⟨w.loopFault f.val, rfl, ?_, ?_, ?_, ?_, ?_⟩
  · exact (rdb_of_rd ((hop.regs _ (hapart f.val hn)).trans (hev (by simp)))).trans hv
  · exact (rdb_of_rd (hop.regs _ (hset f.val hn))).trans (State.rdb_wrb_same v (by simp [Reg.ALP_EVENT_COMP_SET]) true)
  · rw [loopFault_fault, hev (by simp), hcls, rdb_of_rd (hev (g := Reg.ALP_STAT_OPEN f.val) (by simp)), hopen rfl,
      rdb_of_rd (hev (g := Reg.ALP_STAT_COMPLIANCE f.val) (by simp)), hv, rdb_of_rd (hev (g := Reg.ALP_CFG_COMP_FAULT f.val) (by simp)), hcfg,
      Bool.true_and]
  · exact ((keepsRegs_wr s (f := Reg.ALP_STAT_COMPLIANCE f.val) (by simp [supervised]) _).trans
      (keepsRegs_wr v (f := Reg.ALP_EVENT_COMP_SET f.val) (by simp [supervised]) _)).trans (hop.regs.mono (faultFlds_sub f.val))
  · have hw : w = { s with regs := w.regs } := rfl
    rw [hop.frame, hw]

theorem loopComplianceClear_claim (f : Fin 4) (hcomp : s.rdb (Reg.ALP_STAT_COMPLIANCE f.val) = true) (hroom : 1500 ≤ (s.loop f.val).headroom) :
    ∃ t, exec (.loopComplianceClear f) s = .next t ∧ t.rdb (Reg.ALP_STAT_COMPLIANCE f.val) = false ∧
      t.rdb (Reg.ALP_STAT_FAULT f.val) = (badClass (s.rd (Reg.ALP_STAT_CLASS f.val)) || s.rdb (Reg.ALP_STAT_OPEN f.val)) ∧
      keepsRegs s t (supervised f.val) ∧ t = { s with regs := t.regs } := by
  have hx : exec (.loopComplianceClear f) s = execLoopComplianceClear f s := by rfl
  have hnot : ∀ n < 4, Reg.ALP_STAT_COMPLIANCE n ∉ faultFlds n := by decide
  obtain ⟨hbit, hkeep, hframe⟩ := loopFault_after (s := s) f.isLt (g := Reg.ALP_STAT_COMPLIANCE f.val) (by simp [supervised])
    (hnot f.val f.isLt) false (by simp [Reg.ALP_STAT_COMPLIANCE])
  obtain ⟨hcls, -, -, hopen⟩ := loopFault_inputs f.isLt s (.inr rfl) false
  rw [hx, execLoopComplianceClear, if_pos (by rw [hcomp, decide_eq_true hroom]; rfl)]
  refine ⟨_, rfl, hbit, ?_, hkeep, hframe⟩
  rw [loopFault_fault, hcls, hopen rfl, State.rdb_wrb_same s (by simp [Reg.ALP_STAT_COMPLIANCE]) false, Bool.false_and, Bool.or_false]

/-! ### HART transactions (R451) -/

theorem fieldsAt_hreqCtl : ∀ n < 4, Reg.fieldsAt (0xB00100 + n * 0x100) = some [Reg.ALP_HREQ_CTL_GO n, Reg.ALP_HREQ_CTL_DROPPED n,
    Reg.ALP_HREQ_CTL_LEN n, Reg.ALP_HREQ_CTL_CMD n, Reg.ALP_HREQ_CTL_ADDR n] := by decide +kernel

/-- A write of `ALP_HREQ_CTL`. -/
def hreqSet (s : State) (n : Nat) (w : Word) : State :=
  (((s.wr (Reg.ALP_HREQ_CTL_DROPPED n) (s.rd (Reg.ALP_HREQ_CTL_DROPPED n) &&& (2 ^ 1 - 1 - w.toNat / 2 ^ 30 % 2 ^ 1))).wr
    (Reg.ALP_HREQ_CTL_LEN n) (w.toNat / 2 ^ 16 % 2 ^ 8)).wr (Reg.ALP_HREQ_CTL_CMD n) (w.toNat / 2 ^ 8 % 2 ^ 8)).wr (Reg.ALP_HREQ_CTL_ADDR n)
    (w.toNat / 2 ^ 0 % 2 ^ 4)

def hreqFlds (n : Nat) : List Fld := [Reg.ALP_HREQ_CTL_DROPPED n, Reg.ALP_HREQ_CTL_LEN n, Reg.ALP_HREQ_CTL_CMD n, Reg.ALP_HREQ_CTL_ADDR n]

theorem hreqSet_op (s : State) (n : Nat) (w : Word) : RegOp s (hreqSet s n w) (hreqFlds n) :=
  ((((RegOp.refl s _).wr (f := Reg.ALP_HREQ_CTL_DROPPED n) (by simp [hreqFlds]) _).wr (f := Reg.ALP_HREQ_CTL_LEN n) (by simp [hreqFlds]) _).wr
    (f := Reg.ALP_HREQ_CTL_CMD n) (by simp [hreqFlds]) _).wr (f := Reg.ALP_HREQ_CTL_ADDR n) (by simp [hreqFlds]) _

theorem hreqSet_len (hn : n < 4) (s : State) (w : Word) : (hreqSet s n w).rd (Reg.ALP_HREQ_CTL_LEN n) = w.toNat / 65536 % 256 := by
  have hne : ∀ n < 4, (Reg.ALP_HREQ_CTL_LEN n).key ≠ (Reg.ALP_HREQ_CTL_ADDR n).key ∧
      (Reg.ALP_HREQ_CTL_LEN n).key ≠ (Reg.ALP_HREQ_CTL_CMD n).key := by decide
  obtain ⟨ha, hc⟩ := hne n hn
  refine (State.rd_wr_ne _ _ _ _ ha).trans ((State.rd_wr_ne _ _ _ _ hc).trans ((State.rd_wr_same _ _ _).trans ?_))
  change w.toNat / 2 ^ 16 % 2 ^ 8 % 2 ^ 8 = _
  omega

theorem notReserved_alp {f : Fld} (hb : f.off / 0x100000 = 11) (v : Nat) : Machine.Fld.reserved f v = false := by
  unfold Machine.Fld.reserved
  simp only [hb]
  simp

theorem writeReg_hreqCtl (hn : n < 4) (s : State) (w : Word) : s.writeReg (0xB00100 + n * 0x100) w = hreqSet s n w := by
  have hany : ∀ n < 4, ([Reg.ALP_HREQ_CTL_GO n, Reg.ALP_HREQ_CTL_DROPPED n, Reg.ALP_HREQ_CTL_LEN n, Reg.ALP_HREQ_CTL_CMD n,
      Reg.ALP_HREQ_CTL_ADDR n].any fun f => Acc.writable f.acc) = true ∧ flipReg (0xB00100 + n * 0x100) = false ∧
      adjReg (0xB00100 + n * 0x100) = false := by decide
  have hblock : ∀ n < 4, (0xB00100 + n * 0x100) / 0x100000 = 11 := by decide
  obtain ⟨h1, h2, h3⟩ := hany n hn
  rw [writeReg_fields w (fieldsAt_hreqCtl n hn) h1 h2 h3]
  change ((((s.writeField (Reg.ALP_HREQ_CTL_GO n) w).writeField (Reg.ALP_HREQ_CTL_DROPPED n) w).writeField (Reg.ALP_HREQ_CTL_LEN n)
    w).writeField (Reg.ALP_HREQ_CTL_CMD n) w).writeField (Reg.ALP_HREQ_CTL_ADDR n) w = _
  rw [writeField_w1s (f := Reg.ALP_HREQ_CTL_GO n) w rfl, writeField_w1c (f := Reg.ALP_HREQ_CTL_DROPPED n) w rfl,
    writeField_rw (f := Reg.ALP_HREQ_CTL_LEN n) w rfl (notReserved_alp (hblock n hn)),
    writeField_rw (f := Reg.ALP_HREQ_CTL_CMD n) w rfl (notReserved_alp (hblock n hn)),
    writeField_rw (f := Reg.ALP_HREQ_CTL_ADDR n) w rfl (notReserved_alp (hblock n hn))]
  rfl

/-- The registers at the end of a transaction. -/
def hartEnded (s : State) (n st : Nat) : State :=
  ((s.wr (Reg.ALP_HRSP_STAT_STATE n) st).wrb (Reg.ALP_HREQ_CTL_GO n) false).incWrap (Reg.ALP_HART_TRANS n)

/-- The end of a transaction, where it counts no error. -/
theorem hartEnd_quiet (s : State) (n : Nat) {st : Nat} (h : ¬ (st = 3 ∨ st = 4)) : s.hartEnd n st =
    (hartEnded s n st).modLoop n fun x => { x with hreq := none } := by
  unfold State.hartEnd
  dsimp only
  exact if_neg (by simpa using h)

theorem hartEnd_error (s : State) (n : Nat) : s.hartEnd n 3 =
    ((hartEnded s n 3).modLoop n fun x => { x with hreq := none }).inc (Reg.ALP_HART_ERR n) := by rfl

def hartFlds (n : Nat) : List Fld := [Reg.ALP_HRSP_STAT_STATE n, Reg.ALP_HREQ_CTL_GO n, Reg.ALP_HART_TRANS n]

theorem hartEnded_op (s : State) (n st : Nat) : RegOp s (hartEnded s n st) (hartFlds n) :=
  (((RegOp.refl s _).wr (f := Reg.ALP_HRSP_STAT_STATE n) (by simp [hartFlds]) _).wrb (f := Reg.ALP_HREQ_CTL_GO n) (by simp [hartFlds]) _).wr
    (f := Reg.ALP_HART_TRANS n) (by simp [hartFlds]) _

theorem hartEnded_rd (hn : n < 4) (s : State) {st : Nat} (hst : st < 8) : (hartEnded s n st).rd (Reg.ALP_HRSP_STAT_STATE n) = st ∧
    (hartEnded s n st).rdb (Reg.ALP_HREQ_CTL_GO n) = false ∧
    (hartEnded s n st).rd (Reg.ALP_HART_TRANS n) = (s.rd (Reg.ALP_HART_TRANS n) + 1) % 256 := by
  have hne : ∀ n < 4, (Reg.ALP_HRSP_STAT_STATE n).key ≠ (Reg.ALP_HART_TRANS n).key ∧
      (Reg.ALP_HRSP_STAT_STATE n).key ≠ (Reg.ALP_HREQ_CTL_GO n).key ∧ (Reg.ALP_HREQ_CTL_GO n).key ≠ (Reg.ALP_HART_TRANS n).key ∧
      (Reg.ALP_HART_TRANS n).key ≠ (Reg.ALP_HREQ_CTL_GO n).key ∧ (Reg.ALP_HART_TRANS n).key ≠ (Reg.ALP_HRSP_STAT_STATE n).key := by decide
  obtain ⟨h1, h2, h3, h4, h5⟩ := hne n hn
  refine ⟨?_, ?_, ?_⟩
  · exact (State.rd_wr_ne _ _ _ _ h1).trans ((State.rd_wrb_ne _ _ _ _ h2).trans (State.rd_wr_of_lt s (f := Reg.ALP_HRSP_STAT_STATE n) hst))
  · exact (State.rdb_wr_ne _ _ h3).trans (State.rdb_wrb_same _ (by simp [Reg.ALP_HREQ_CTL_GO]) false)
  · refine (State.rd_wr_same _ (Reg.ALP_HART_TRANS n) _).trans ?_
    rw [State.rd_wrb_ne _ _ _ _ h4, State.rd_wr_ne _ _ _ _ h5]
    rfl

/-- The end of a transaction in its loop. -/
theorem hartEnded_end (s : State) (n st : Nat) :
    ((hartEnded s n st).modLoop n fun x => { x with hreq := none }).loop n = { s.loop n with hreq := none } ∧
      onlyLoop s ((hartEnded s n st).modLoop n fun x => { x with hreq := none }) n := by
  have hop := hartEnded_op s n st
  refine ⟨?_, (hop.onlyLoop n).trans (onlyLoop.modLoop _ n _)⟩
  rw [loop_modLoop_same, hop.loop]

theorem length_words (l : List Nat) (g : Nat → Nat) : (l.flatMap fun i => natLE 4 (g i)).length = 4 * l.length := by
  induction l with
  | nil => rfl
  | cons x xs ih =>
    rw [List.flatMap_cons, List.length_append, ih, length_natLE, List.length_cons]
    omega

/-- The data of a request are the bytes that `LEN` names. -/
theorem hartReq_data (s : State) (n : Nat) (h : s.rd (Reg.ALP_HREQ_CTL_LEN n) ≤ 64) :
    (s.hartReq n).data.length = s.rd (Reg.ALP_HREQ_CTL_LEN n) := by
  unfold State.hartReq
  rw [List.length_take, length_words, List.length_range]
  omega

theorem hreqSet_go (hn : n < 4) (s : State) (w : Word) :
    (hreqSet s n w).rdb (Reg.ALP_HREQ_CTL_GO n) = s.rdb (Reg.ALP_HREQ_CTL_GO n) := by
  have hne : ∀ n < 4, ∀ f ∈ hreqFlds n, (Reg.ALP_HREQ_CTL_GO n).key ≠ f.key := by decide
  exact rdb_of_rd ((hreqSet_op s n w).regs _ (hne n hn))

/-- The state in which a request is under way. -/
def hartSent (s : State) (n : Nat) : State := (s.wrb (Reg.ALP_HREQ_CTL_GO n) true).wr (Reg.ALP_HRSP_STAT_STATE n) 1

theorem hartSent_op (s : State) (n : Nat) : RegOp s (hartSent s n) [Reg.ALP_HREQ_CTL_GO n, Reg.ALP_HRSP_STAT_STATE n] :=
  ((RegOp.refl s _).wrb (f := Reg.ALP_HREQ_CTL_GO n) (by simp) _).wr (f := Reg.ALP_HRSP_STAT_STATE n) (by simp) _

theorem hartSent_rd (hn : n < 4) (s : State) : (hartSent s n).rdb (Reg.ALP_HREQ_CTL_GO n) = true ∧
    (hartSent s n).rd (Reg.ALP_HRSP_STAT_STATE n) = 1 ∧
    (hartSent s n).rd (Reg.ALP_HREQ_CTL_ADDR n) = s.rd (Reg.ALP_HREQ_CTL_ADDR n) ∧
    (hartSent s n).rd (Reg.ALP_HREQ_CTL_CMD n) = s.rd (Reg.ALP_HREQ_CTL_CMD n) := by
  have hne : ∀ n < 4, (Reg.ALP_HREQ_CTL_GO n).key ≠ (Reg.ALP_HRSP_STAT_STATE n).key ∧
      ∀ g ∈ [Reg.ALP_HREQ_CTL_ADDR n, Reg.ALP_HREQ_CTL_CMD n],
        ∀ f ∈ [Reg.ALP_HREQ_CTL_GO n, Reg.ALP_HRSP_STAT_STATE n], g.key ≠ f.key := by decide
  obtain ⟨hgo, hkeep⟩ := hne n hn
  refine ⟨?_, State.rd_wr_of_lt _ (f := Reg.ALP_HRSP_STAT_STATE n) (show 1 < 2 ^ 3 by decide), ?_, ?_⟩
  · exact (State.rdb_wr_ne _ _ hgo).trans (State.rdb_wrb_same s (by simp [Reg.ALP_HREQ_CTL_GO]) true)
  · exact (hartSent_op s n).regs _ (hkeep _ (by simp))
  · exact (hartSent_op s n).regs _ (hkeep _ (by simp))

theorem hartGo_claim (f : Fin 4) (hup : s.hostUp = true) (w : Word) (hgo : w.getLsbD 31 = true) :
    ∃ t, exec (.hartGo f w) s = .next t ∧
      (s.rdb (Reg.ALP_HREQ_CTL_GO f.val) = true →
        t.rdb (Reg.ALP_HREQ_CTL_DROPPED f.val) = true ∧ t.rdb (Reg.ALP_HREQ_CTL_GO f.val) = true ∧ t.alp = s.alp) ∧
      (s.rdb (Reg.ALP_HREQ_CTL_GO f.val) = false → w.toNat / 65536 % 256 ≤ 64 →
        t.rdb (Reg.ALP_HREQ_CTL_GO f.val) = true ∧ t.rd (Reg.ALP_HRSP_STAT_STATE f.val) = 1 ∧
        ∃ q : HartReq, t.loop f.val = { s.loop f.val with hreq := some q } ∧ q.addr = t.rd (Reg.ALP_HREQ_CTL_ADDR f.val) ∧
          q.cmd = t.rd (Reg.ALP_HREQ_CTL_CMD f.val) ∧ q.data.length = w.toNat / 65536 % 256) ∧
      (s.rdb (Reg.ALP_HREQ_CTL_GO f.val) = false → 64 < w.toNat / 65536 % 256 →
        t.rdb (Reg.ALP_HREQ_CTL_GO f.val) = false ∧ t.rd (Reg.ALP_HRSP_STAT_STATE f.val) = 5 ∧
        t.loop f.val = { s.loop f.val with hreq := none }) ∧ ∀ k, k ≠ f.val → t.loop k = s.loop k := by
  have hx : exec (.hartGo f w) s = execHartGo f w s := by rfl
  have hn := f.isLt
  have hop := hreqSet_op s f.val w
  have hset := hreqSet_go hn s w
  have hlen := hreqSet_len hn s w
  rw [hx, execHartGo, if_pos hup, State.hreqWrite, writeReg_hreqCtl hn, hgo]
  dsimp only
  rw [if_neg (by simp)]
  generalize hreqSet s f.val w = v at hop hset hlen ⊢
  cases hbusy : s.rdb (Reg.ALP_HREQ_CTL_GO f.val) with
  | true =>
    have hne : ∀ n < 4, (Reg.ALP_HREQ_CTL_GO n).key ≠ (Reg.ALP_HREQ_CTL_DROPPED n).key := by decide
    rw [if_pos rfl]
    refine ⟨_, rfl, fun _ => ⟨State.rdb_wrb_same v (by simp [Reg.ALP_HREQ_CTL_DROPPED]) true, ?_, hop.alp⟩, nofun, nofun,
      fun k _ => hop.loop k⟩
    exact (State.rdb_wrb_ne v _ (hne _ hn)).trans (hset.trans hbusy)
  | false =>
    rw [if_neg (by simp), hlen]
    rcases Nat.lt_or_ge 64 (w.toNat / 65536 % 256) with hlong | hfits
    · rw [if_pos hlong, hartEnd_quiet v f.val (by decide)]
      obtain ⟨hst, hoff, -⟩ := hartEnded_rd hn v (show 5 < 8 by decide)
      obtain ⟨hloop, honly⟩ := hartEnded_end v f.val 5
      refine ⟨_, rfl, nofun, fun _ h => absurd h (by omega), fun _ _ => ⟨hoff, hst, ?_⟩, fun k hk => (honly.1 k hk).trans (hop.loop k)⟩
      exact hloop.trans (by rw [hop.loop])
    · rw [if_neg (by omega)]
      obtain ⟨hon, hst, haddr, hcmd⟩ := hartSent_rd hn v
      have hsent := hartSent_op v f.val
      refine ⟨(hartSent v f.val).modLoop f.val fun x => { x with hreq := some (v.hartReq f.val) }, rfl, nofun,
        fun _ _ => ⟨hon, hst, v.hartReq f.val, ?_, haddr.symm, hcmd.symm, ?_⟩, fun _ h => absurd h (by omega), fun k hk => ?_⟩
      · rw [loop_modLoop_same, hsent.loop, hop.loop]
      · rw [hartReq_data v f.val (by omega), hlen]
      · rw [loop_modLoop, if_neg hk, hsent.loop, hop.loop]

/-! ### Responses (R451) -/

/-- What the end of a transaction says, of the state that ends it. -/
def transEnded (s t : State) (n st : Nat) : Prop :=
  t.rd (Reg.ALP_HRSP_STAT_STATE n) = st ∧ t.rdb (Reg.ALP_HREQ_CTL_GO n) = false ∧
    t.rd (Reg.ALP_HART_TRANS n) = (s.rd (Reg.ALP_HART_TRANS n) + 1) % 256 ∧ t.loop n = { s.loop n with hreq := none } ∧ onlyLoop s t n

/-- A transaction ends after register writes that leave its count alone. -/
theorem transEnded_of (hn : n < 4) {v : State} {l : List Fld} (h : RegOp s v l) (hl : ∀ f ∈ l, (Reg.ALP_HART_TRANS n).key ≠ f.key)
    {st : Nat} (hst : st < 8) : transEnded s ((hartEnded v n st).modLoop n fun x => { x with hreq := none }) n st := by
  obtain ⟨hstate, hgo, htrans⟩ := hartEnded_rd hn v hst
  obtain ⟨hloop, honly⟩ := hartEnded_end v n st
  refine ⟨hstate, hgo, htrans.trans (by rw [h.regs _ hl]), hloop.trans (by rw [h.loop]), (h.onlyLoop n).trans honly⟩

/-- A transaction that ends without a response also counts an error. -/
theorem transEnded.counted (hn : n < 4) (h : transEnded s t n 3) : transEnded s (t.inc (Reg.ALP_HART_ERR n)) n 3 ∧
    (t.inc (Reg.ALP_HART_ERR n)).rd (Reg.ALP_HART_LIVE n) = t.rd (Reg.ALP_HART_LIVE n) := by
  have hkeep : ∀ n < 4, ∀ f ∈ Reg.ALP_HART_LIVE n :: hartFlds n, f.key ≠ (Reg.ALP_HART_ERR n).key := by decide
  have hinc {g : Fld} (hg : g ∈ Reg.ALP_HART_LIVE n :: hartFlds n) : (t.inc (Reg.ALP_HART_ERR n)).rd g = t.rd g :=
    State.rd_inc_ne t _ g (hkeep n hn g hg)
  obtain ⟨hstate, hgo, hcount, hloop, honly⟩ := h
  refine ⟨⟨(hinc (by simp [hartFlds])).trans hstate, ?_, (hinc (by simp [hartFlds])).trans hcount, hloop,
    honly.trans ⟨fun _ _ => rfl, rfl⟩⟩, hinc (by simp)⟩
  rw [rdb_of_rd (hinc (g := Reg.ALP_HREQ_CTL_GO n) (by simp [hartFlds])), hgo]

/-- The end of a transaction keeps the error count and the devices that answer. -/
theorem hartEnded_keeps (hn : n < 4) (s : State) (st : Nat) (x : AlpLoop → AlpLoop) :
    ((hartEnded s n st).modLoop n x).rd (Reg.ALP_HART_ERR n) = s.rd (Reg.ALP_HART_ERR n) ∧
      ((hartEnded s n st).modLoop n x).rd (Reg.ALP_HART_LIVE n) = s.rd (Reg.ALP_HART_LIVE n) := by
  have hne : ∀ n < 4, (∀ f ∈ hartFlds n, (Reg.ALP_HART_ERR n).key ≠ f.key) ∧ (∀ f ∈ hartFlds n, (Reg.ALP_HART_LIVE n).key ≠ f.key) := by
    decide
  have h := (hartEnded_op s n st).regs
  exact ⟨h _ (hne n hn).1, h _ (hne n hn).2⟩

theorem hartComplete_silent (f : Fin 4) {q : HartReq} (hq : (s.loop f.val).hreq = some q) :
    exec (.hartComplete f none) s = .next ((s.clrBit (Reg.ALP_HART_LIVE f.val) q.addr).hartEnd f.val 3) := by
  have hx : exec (.hartComplete f none) s = execHartComplete f none s := by rfl
  rw [hx, execHartComplete, hq]
  dsimp only
  rw [show (if s.pdlGood && s.rdb (Reg.ALP_CFG_HART f.val) then (none : Option (List Byte)) else none) = none by split <;> rfl]

theorem clrLive_op (s : State) (n a : Nat) : RegOp s (s.clrBit (Reg.ALP_HART_LIVE n) a) [Reg.ALP_HART_LIVE n] :=
  (RegOp.refl s _).wr (f := Reg.ALP_HART_LIVE n) List.mem_cons_self _

theorem hartComplete_none_claim (f : Fin 4) {q : HartReq} (hq : (s.loop f.val).hreq = some q) (ha : q.addr < 16) :
    ∃ t, exec (.hartComplete f none) s = .next t ∧ transEnded s t f.val 3 ∧ t.rd (Reg.ALP_HART_ERR f.val) = up s (Reg.ALP_HART_ERR f.val) ∧
      natBit (t.rd (Reg.ALP_HART_LIVE f.val)) q.addr = false := by
  have hn := f.isLt
  have hne : ∀ n < 4, (∀ f ∈ [Reg.ALP_HART_LIVE n], (Reg.ALP_HART_TRANS n).key ≠ f.key) ∧
      (∀ f ∈ [Reg.ALP_HART_LIVE n], (Reg.ALP_HART_ERR n).key ≠ f.key) := by decide
  obtain ⟨htrans, herr⟩ := hne _ hn
  have hv := clrLive_op s f.val q.addr
  have hbit := natBit_clrBit s (f := Reg.ALP_HART_LIVE f.val) (i := q.addr) (show q.addr < 16 from ha)
  refine ⟨_, hartComplete_silent f hq, ?_⟩
  generalize s.clrBit (Reg.ALP_HART_LIVE f.val) q.addr = v at hv hbit ⊢
  rw [hartEnd_error]
  obtain ⟨hended, hlive⟩ := (transEnded_of hn hv htrans (show 3 < 8 by decide)).counted hn
  obtain ⟨hcount, hkept⟩ := hartEnded_keeps hn v 3 fun x => { x with hreq := none }
  refine ⟨hended, ?_, ?_⟩
  · refine (rd_inc_up _ _).trans ?_
    unfold up
    rw [hcount, hv.regs _ herr]
  · rw [hlive, hkept, hbit]
    simp

/-- The two response code bytes fit their field. -/
theorem beNat_take_lt (r : List Byte) : beNat (r.take 2) < 2 ^ 16 := by
  match r with
  | [] => decide
  | [a] =>
    have := a.isLt
    simp only [beNat, List.take, List.foldl]
    omega
  | a :: b :: _ =>
    have := a.isLt
    have := b.isLt
    simp only [beNat, List.take, List.foldl]
    omega

/-- The registers that hold a response. -/
def responseSet (s : State) (n : Nat) (r : List Byte) : State :=
  foldSt (List.range 16) (fun i s => s.wr (Reg.ALP_HRSP_DATA_DATA n i) (leAt (r.drop 2) (4 * i) 4))
    ((s.wr (Reg.ALP_HRSP_STAT_RESP n) (beNat (r.take 2))).wr (Reg.ALP_HRSP_STAT_LEN n) (r.drop 2).length)

def dataFlds (n : Nat) : List Fld := (List.range 16).map (Reg.ALP_HRSP_DATA_DATA n)

def responseFlds (n : Nat) : List Fld := Reg.ALP_HRSP_STAT_RESP n :: Reg.ALP_HRSP_STAT_LEN n :: dataFlds n

theorem responseData_op (s : State) (n : Nat) (g : Nat → Nat) :
    RegOp s (foldSt (List.range 16) (fun i s => s.wr (Reg.ALP_HRSP_DATA_DATA n i) (g i)) s) (dataFlds n) :=
  RegOp.foldSt (fun _ hi s => (RegOp.refl s _).wr (List.mem_map_of_mem hi) _) s

theorem responseSet_op (s : State) (n : Nat) (r : List Byte) : RegOp s (responseSet s n r) (responseFlds n) :=
  (((RegOp.refl s _).wr (f := Reg.ALP_HRSP_STAT_RESP n) (by simp [responseFlds]) _).wr (f := Reg.ALP_HRSP_STAT_LEN n)
    (by simp [responseFlds]) _).trans ((responseData_op _ n _).mono fun _ hf => by simp [responseFlds, hf])

theorem responseSet_rd (hn : n < 4) (s : State) {r : List Byte} (hlen : r.length ≤ 66) :
    (responseSet s n r).rd (Reg.ALP_HRSP_STAT_RESP n) = beNat (r.take 2) ∧
      (responseSet s n r).rd (Reg.ALP_HRSP_STAT_LEN n) = r.length - 2 := by
  have hne : ∀ n < 4, (Reg.ALP_HRSP_STAT_RESP n).key ≠ (Reg.ALP_HRSP_STAT_LEN n).key ∧
      (∀ f ∈ dataFlds n, (Reg.ALP_HRSP_STAT_RESP n).key ≠ f.key) ∧ (∀ f ∈ dataFlds n, (Reg.ALP_HRSP_STAT_LEN n).key ≠ f.key) := by decide
  obtain ⟨h1, h2, h3⟩ := hne n hn
  refine ⟨?_, ?_⟩
  · exact ((responseData_op _ n _).regs _ h2).trans ((State.rd_wr_ne _ _ _ _ h1).trans
      (State.rd_wr_of_lt s (f := Reg.ALP_HRSP_STAT_RESP n) (beNat_take_lt r)))
  · refine ((responseData_op _ n _).regs _ h3).trans ((State.rd_wr_of_lt _ (f := Reg.ALP_HRSP_STAT_LEN n) ?_).trans List.length_drop)
    rw [List.length_drop]
    change _ < 2 ^ 8
    omega

theorem leNat_lt (l : List Byte) : leNat l < 256 ^ l.length := by
  induction l with
  | nil => decide
  | cons b l ih =>
    have hb := b.isLt
    rw [List.length_cons, Nat.pow_succ]
    change b.toNat + 256 * leNat l < _
    omega

theorem leAt_lt_word (l : List Byte) (o : Nat) : leAt l o 4 < 2 ^ 32 := by
  have h := leNat_lt (bytesAt l o 4)
  have hlen : (bytesAt l o 4).length ≤ 4 := List.length_take_le _ _
  exact Nat.lt_of_lt_of_le h (Nat.pow_le_pow_right (by decide) hlen)

theorem responseSet_data (hn : n < 4) (s : State) (r : List Byte) : ∀ i < 16,
    (responseSet s n r).rd (Reg.ALP_HRSP_DATA_DATA n i) = leAt (r.drop 2) (4 * i) 4 := by
  have hne : ∀ n < 4, ∀ i < 16, ∀ j < 16, i ≠ j → (Reg.ALP_HRSP_DATA_DATA n i).key ≠ (Reg.ALP_HRSP_DATA_DATA n j).key := by decide
  refine foldSt_range (P := fun k u => ∀ i < k, u.rd (Reg.ALP_HRSP_DATA_DATA n i) = leAt (r.drop 2) (4 * i) 4)
    (fun i hi => absurd hi (Nat.not_lt_zero i)) fun k u hk hP i hi => ?_
  rcases Nat.lt_succ_iff_lt_or_eq.mp hi with hlt | rfl
  · exact (State.rd_wr_ne _ _ _ _ (hne n hn i (by omega) k hk (by omega))).trans (hP i hlt)
  · exact State.rd_wr_of_lt u (f := Reg.ALP_HRSP_DATA_DATA n i) (leAt_lt_word _ _)

theorem hartComplete_some_claim (f : Fin 4) {q : HartReq} (hq : (s.loop f.val).hreq = some q) (ha : q.addr < 16) (r : List Byte)
    (hgood : s.pdlGood = true) (hhart : s.rdb (Reg.ALP_CFG_HART f.val) = true) (hlen : r.length ≤ 66) :
    ∃ t, exec (.hartComplete f (some r)) s = .next t ∧ transEnded s t f.val 2 ∧ t.rd (Reg.ALP_HRSP_STAT_RESP f.val) = beNat (r.take 2) ∧
      t.rd (Reg.ALP_HRSP_STAT_LEN f.val) = r.length - 2 ∧ natBit (t.rd (Reg.ALP_HART_LIVE f.val)) q.addr = true ∧
      ∀ i < 16, t.rd (Reg.ALP_HRSP_DATA_DATA f.val i) = leAt (r.drop 2) (4 * i) 4 := by
  have hx : exec (.hartComplete f (some r)) s = execHartComplete f (some r) s := by rfl
  have hn := f.isLt
  let v := s.setBit (Reg.ALP_HART_LIVE f.val) q.addr
  let w := responseSet v f.val r
  have hop : RegOp s w (Reg.ALP_HART_LIVE f.val :: responseFlds f.val) :=
    ((RegOp.refl s _).wr (f := Reg.ALP_HART_LIVE f.val) List.mem_cons_self _).trans
      ((responseSet_op v f.val r).mono fun _ h => List.mem_cons_of_mem _ h)
  have htrans : ∀ n < 4, ∀ f ∈ Reg.ALP_HART_LIVE n :: responseFlds n, (Reg.ALP_HART_TRANS n).key ≠ f.key := by decide
  have hkeep : ∀ n < 4, ∀ g ∈ Reg.ALP_HART_LIVE n :: responseFlds n, ∀ f ∈ hartFlds n, g.key ≠ f.key := by decide
  have hlive : ∀ n < 4, ∀ f ∈ responseFlds n, (Reg.ALP_HART_LIVE n).key ≠ f.key := by decide
  have hend {g : Fld} (hg : g ∈ Reg.ALP_HART_LIVE f.val :: responseFlds f.val) : (hartEnded w f.val 2).rd g = w.rd g :=
    (hartEnded_op w f.val 2).regs g (hkeep _ hn g hg)
  obtain ⟨hresp, hlength⟩ := responseSet_rd hn v hlen
  have hlong : ¬ 64 < (r.drop 2).length := by
    rw [List.length_drop]
    omega
  refine ⟨_, ?_, transEnded_of hn hop (htrans _ hn) (show 2 < 8 by decide), ?_, ?_, ?_, fun i hi => ?_⟩
  · rw [hx, execHartComplete, hq]
    dsimp only
    rw [if_pos (by rw [hgood, hhart]; rfl)]
    dsimp only
    rw [if_neg hlong]
    exact congrArg _ (hartEnd_quiet w f.val (by decide))
  · exact (hend (by simp [responseFlds])).trans hresp
  · exact (hend (by simp [responseFlds])).trans hlength
  · change natBit ((hartEnded w f.val 2).rd _) _ = true
    rw [hend List.mem_cons_self, (responseSet_op v f.val r).regs _ (hlive _ hn), natBit_setBit s (show q.addr < 16 from ha)]
    simp
  · exact (hend (List.mem_cons_of_mem _ (List.mem_cons_of_mem _ (List.mem_cons_of_mem _ (List.mem_map_of_mem (List.mem_range.mpr hi)))))).trans
      (responseSet_data hn v r i hi)

theorem loopSamplingSupervisionHart_holds : loopSamplingSupervisionHart := by
  intro f s
  refine ⟨fun nA lim mv hgood hmode => loopSample_claim f nA lim mv hgood hmode, fun hgood hout hdrive hten hopen => ?_, fun hopen hten => ?_,
    loopCompliance_claim f, loopComplianceClear_claim f, hartGo_claim f, fun q hq ha => ⟨?_, fun r hgood hhart _ hlen => ?_⟩⟩
  · exact loopOpen_claim f hgood hout hdrive hten.1 hten.2 hopen
  · exact loopOpenClear_claim f hopen hten.1 hten.2
  · exact hartComplete_none_claim f hq ha
  · exact hartComplete_some_claim f hq ha r hgood hhart hlen

end Sys2Proof.Claims
end

section
/-! The on-line recalibration of the current loops (O33). -/

namespace Sys2Proof.Claims

open Sys2Proof Sys2Proof.Machine

variable {s t u : State} {n : Nat}

/-! ### Steps of one loop -/

/-- A step of loop `n` that writes only registers of `l`. -/
structure LoopOp (s t : State) (n : Nat) (l : List Fld) : Prop where
  only : onlyLoop s t n
  regs : keepsRegs s t l

theorem LoopOp.trans {l : List Fld} (h : LoopOp s t n l) (h' : LoopOp t u n l) : LoopOp s u n l := ⟨h.only.trans h'.only, h.regs.trans h'.regs⟩

theorem RegOp.loopOp {l : List Fld} (h : RegOp s t l) (n : Nat) : LoopOp s t n l := ⟨h.onlyLoop n, h.regs⟩

theorem LoopOp.modLoop (s : State) (n : Nat) (f : AlpLoop → AlpLoop) (l : List Fld) : LoopOp s (s.modLoop n f) n l :=
  ⟨onlyLoop.modLoop s n f, keepsRegs_of_eq rfl l⟩

/-- The registers that show a calibration. -/
def calFlds (n : Nat) : List Fld :=
  [Reg.ALP_CAL_ACTIVE n, Reg.ALP_STAT_CAL n, Reg.ALP_CAL_LOW n, Reg.ALP_CAL_HIGH n, Reg.ALP_CAL_MEASURING n]

theorem calRegs_op (s : State) (n : Nat) : RegOp s (s.calRegs n) (calFlds n) :=
  (((((RegOp.refl s _).wrb (f := Reg.ALP_CAL_ACTIVE n) (by simp [calFlds]) _).wrb (f := Reg.ALP_STAT_CAL n) (by simp [calFlds]) _).wrb
    (f := Reg.ALP_CAL_LOW n) (by simp [calFlds]) _).wrb (f := Reg.ALP_CAL_HIGH n) (by simp [calFlds]) _).wrb
    (f := Reg.ALP_CAL_MEASURING n) (by simp [calFlds]) _

theorem calRegs_rd (hn : n < 4) (s : State) : (s.calRegs n).rdb (Reg.ALP_CAL_ACTIVE n) = (s.loop n).cal.isSome ∧
    (s.calRegs n).rdb (Reg.ALP_STAT_CAL n) = (s.loop n).cal.isSome ∧
    (s.calRegs n).rdb (Reg.ALP_CAL_MEASURING n) = (((s.loop n).cal.map fun c => c.measuring.isSome).getD false) := by
  have hne : ∀ n < 4, (calFlds n).Pairwise fun f g => f.key ≠ g.key := by decide
  have h := hne n hn
  simp only [calFlds, List.pairwise_cons, List.mem_cons, List.not_mem_nil, or_false, forall_eq_or_imp, forall_eq] at h
  obtain ⟨⟨h01, h02, h03, h04⟩, ⟨h12, h13, h14⟩, -⟩ := h
  refine ⟨?_, ?_, State.rdb_wrb_same _ (by simp [Reg.ALP_CAL_MEASURING]) _⟩
  · exact (State.rdb_wrb_ne _ _ h04).trans ((State.rdb_wrb_ne _ _ h03).trans ((State.rdb_wrb_ne _ _ h02).trans
      ((State.rdb_wrb_ne _ _ h01).trans (State.rdb_wrb_same s (by simp [Reg.ALP_CAL_ACTIVE]) _))))
  · exact (State.rdb_wrb_ne _ _ h14).trans ((State.rdb_wrb_ne _ _ h13).trans ((State.rdb_wrb_ne _ _ h12).trans
      (State.rdb_wrb_same _ (by simp [Reg.ALP_STAT_CAL]) _)))

/-! ### What an output drives -/

theorem redrive_op (s : State) (n : Nat) : LoopOp s (s.redrive n) n [Reg.ALP_STAT_FAILSAFE n] := by
  unfold State.redrive
  split_ifs
  · exact (RegOp.refl s _).loopOp n
  · exact (((RegOp.refl s _).wrb List.mem_cons_self _).loopOp n).trans (LoopOp.modLoop _ n _ _)

/-- Redriving a loop changes its drive alone. -/
theorem redrive_loop (s : State) (n : Nat) : (s.redrive n).loop n = { s.loop n with driveUa := ((s.redrive n).loop n).driveUa } := by
  unfold State.redrive
  dsimp only
  split
  · rfl
  · rw [loop_modLoop_same]
    rfl

theorem redrive_input (h : s.loopOut n = false) : s.redrive n = s := by
  unfold State.redrive
  rw [h]
  rfl

theorem redrive_point (hout : s.loopOut n = true) (hgood : s.pdlGood = true) {c : AlpCal} (hc : (s.loop n).cal = some c) :
    ((s.redrive n).loop n).driveUa = if c.p0.isSome then 20000 else 4000 := by
  unfold State.redrive
  dsimp only
  rw [if_neg (by simp [hout, hgood]), loop_modLoop_same, hc]

/-! ### A calibration changes -/

/-- All registers that a change of a calibration writes. -/
def recalFlds (n : Nat) : List Fld := Reg.ALP_STAT_FAILSAFE n :: calFlds n

theorem calShown_op (s : State) (n : Nat) (c : Option AlpCal) :
    LoopOp s ((s.modLoop n fun x => { x with cal := c }).calRegs n) n (calFlds n) :=
  (LoopOp.modLoop s n _ _).trans ((calRegs_op _ n).loopOp n)

theorem calShown_loop (s : State) (n : Nat) (c : Option AlpCal) :
    ((s.modLoop n fun x => { x with cal := c }).calRegs n).loop n = { s.loop n with cal := c } := by
  rw [(calRegs_op _ n).loop, loop_modLoop_same]

theorem setCal_op (s : State) (n : Nat) (c : Option AlpCal) : LoopOp s (s.setCal n c) n (recalFlds n) := by
  have h := calShown_op s n c
  have h' := redrive_op ((s.modLoop n fun x => { x with cal := c }).calRegs n) n
  exact ⟨h.only.trans h'.only, (h.regs.mono fun _ hf => List.mem_cons_of_mem _ hf).trans (h'.regs.mono fun _ hf => by
    rw [List.mem_singleton.mp hf]
    exact List.mem_cons_self)⟩

theorem setCal_loop (s : State) (n : Nat) (c : Option AlpCal) :
    (s.setCal n c).loop n = { s.loop n with cal := c, driveUa := ((s.setCal n c).loop n).driveUa } := by
  have h := redrive_loop ((s.modLoop n fun x => { x with cal := c }).calRegs n) n
  rw [calShown_loop] at h
  exact h

theorem setCal_cal (s : State) (n : Nat) (c : Option AlpCal) : ((s.setCal n c).loop n).cal = c := by
  rw [setCal_loop]

/-- A calibration's registers do not configure the loop or the domain. -/
theorem calFlds_apart : ∀ n < 4, ∀ f ∈ recalFlds n, (Reg.ALP_CFG_MODE n).key ≠ f.key ∧ Reg.MOD_DOMAIN_PGOOD.key ≠ f.key ∧
    Reg.RPC_LOAD_LOAD_DONE.key ≠ f.key := by decide

theorem LoopOp.power (hn : n < 4) {l : List Fld} (hl : ∀ f ∈ l, f ∈ recalFlds n) (h : LoopOp s t n l) :
    t.loopOut n = s.loopOut n ∧ t.pdlGood = s.pdlGood := by
  have hne := calFlds_apart n hn
  have h1 := h.regs (Reg.ALP_CFG_MODE n) fun f hf => (hne f (hl f hf)).1
  have h2 := h.regs Reg.MOD_DOMAIN_PGOOD fun f hf => (hne f (hl f hf)).2.1
  have h3 := h.regs Reg.RPC_LOAD_LOAD_DONE fun f hf => (hne f (hl f hf)).2.2
  unfold State.loopOut State.loopMode State.pdlGood
  rw [h1, h2, h3]
  exact ⟨rfl, rfl⟩

theorem calShown_power (hn : n < 4) (s : State) (c : Option AlpCal) :
    ((s.modLoop n fun x => { x with cal := c }).calRegs n).loopOut n = s.loopOut n ∧
      ((s.modLoop n fun x => { x with cal := c }).calRegs n).pdlGood = s.pdlGood :=
  (calShown_op s n c).power hn fun _ hf => List.mem_cons_of_mem _ hf

theorem setCal_input (hn : n < 4) (h : s.loopOut n = false) (c : Option AlpCal) :
    ((s.setCal n c).loop n).driveUa = (s.loop n).driveUa := by
  unfold State.setCal
  rw [redrive_input ((calShown_power hn s c).1.trans h), calShown_loop]

theorem setCal_point (hn : n < 4) (hout : s.loopOut n = true) (hgood : s.pdlGood = true) (c : AlpCal) :
    ((s.setCal n (some c)).loop n).driveUa = if c.p0.isSome then 20000 else 4000 := by
  obtain ⟨ho, hg⟩ := calShown_power hn s (some c)
  exact redrive_point (ho.trans hout) (hg.trans hgood) (by rw [calShown_loop])

theorem setCal_rd (hn : n < 4) (s : State) (c : Option AlpCal) : (s.setCal n c).rdb (Reg.ALP_CAL_ACTIVE n) = c.isSome ∧
    (s.setCal n c).rdb (Reg.ALP_STAT_CAL n) = c.isSome ∧
    (s.setCal n c).rdb (Reg.ALP_CAL_MEASURING n) = ((c.map fun c => c.measuring.isSome).getD false) := by
  have hne : ∀ n < 4, ∀ g ∈ calFlds n, ∀ f ∈ [Reg.ALP_STAT_FAILSAFE n], g.key ≠ f.key := by decide
  have h := calRegs_rd hn (s.modLoop n fun x => { x with cal := c })
  rw [loop_modLoop_same] at h
  obtain ⟨hact, hcal, hmeas⟩ := h
  have hkeep {g : Fld} (hg : g ∈ calFlds n) := (redrive_op ((s.modLoop n fun x => { x with cal := c }).calRegs n) n).regs g (hne n hn g hg)
  exact ⟨(rdb_of_rd (hkeep (by simp [calFlds]))).trans hact, (rdb_of_rd (hkeep (by simp [calFlds]))).trans hcal,
    (rdb_of_rd (hkeep (by simp [calFlds]))).trans hmeas⟩

/-! ### Abort and timeout (R454) -/

/-- A calibration aborted, of the state that aborts it. -/
def calAborted (s t : State) (n : Nat) : Prop :=
  t.loop n = { s.loop n with cal := none, driveUa := (t.loop n).driveUa } ∧
    (s.loopOut n = false → (t.loop n).driveUa = (s.loop n).driveUa) ∧ t.rdb (Reg.ALP_EVENT_CAL_ABORT n) = true ∧
    t.rdb (Reg.ALP_CAL_ACTIVE n) = false

theorem calAbort_active (h : (s.loop n).cal.isSome = true) :
    s.calAbort n = (s.setCal n none).wrb (Reg.ALP_EVENT_CAL_ABORT n) true := if_pos h

theorem calAbort_aborted (hn : n < 4) (h : (s.loop n).cal.isSome = true) : calAborted s (s.calAbort n) n := by
  have hne : ∀ n < 4, (Reg.ALP_CAL_ACTIVE n).key ≠ (Reg.ALP_EVENT_CAL_ABORT n).key := by decide
  rw [calAbort_active h]
  exact ⟨setCal_loop s n none, fun hin => setCal_input hn hin none, State.rdb_wrb_same _ (by simp [Reg.ALP_EVENT_CAL_ABORT]) _,
    (State.rdb_wrb_ne _ _ (hne n hn)).trans (setCal_rd hn s none).1⟩

theorem calAbort_only (s : State) (n : Nat) : onlyLoop s (s.calAbort n) n := by
  unfold State.calAbort
  split_ifs
  · exact (setCal_op s n none).only.trans ⟨fun _ _ => rfl, rfl⟩
  · exact onlyLoop.refl s n

theorem calTimeout_claim (f : Fin 4) {c : AlpCal} (hc : (s.loop f.val).cal = some c) (hlate : c.began + 600000000000 ≤ s.tm.opNs) :
    ∃ t, exec (.calTimeout f) s = .next t ∧ calAborted s t f.val ∧ onlyLoop s t f.val := by
  have hx : exec (.calTimeout f) s = execCalTimeout f s := by rfl
  rw [hx, execCalTimeout, hc]
  dsimp only
  rw [if_pos hlate]
  exact ⟨_, rfl, calAbort_aborted f.isLt (by rw [hc]; rfl), calAbort_only s f.val⟩

/-! ### The commands (R452, R453) -/

theorem calLoop_of (f : Fin 4) : calLoop (BitVec.ofNat 32 f.val) = f.val := by
  have := f.isLt
  simp only [calLoop, BitVec.toNat_ofNat]
  omega

theorem applyCalAbort_effect (f : Fin 4) (hmode : s.fromIntegrate = true) (hcal : (s.loop f.val).cal.isSome = true) :
    ∃ u, applyCalAbort (BitVec.ofNat 32 f.val) s = .ok u ∧ calAborted s u f.val := by
  unfold applyCalAbort
  dsimp only
  rw [calLoop_of, needs_true (by rw [hmode, hcal]; rfl)]
  exact ⟨_, rfl, calAbort_aborted f.isLt hcal⟩

/-- The class shown while a loop is calibrated, with `FAULT` following it. -/
theorem loopStatus_cal (s : State) (n cur : Nat) : RegOp s (s.loopStatus n 6 cur) (faultFlds n) := by
  unfold State.loopStatus
  dsimp only
  rw [if_neg (by simp)]
  exact (((RegOp.refl s _).wr (f := Reg.ALP_STAT_CLASS n) (by simp [faultFlds]) _).wr (f := Reg.ALP_STAT_CURRENT n)
    (by simp [faultFlds]) _).wrb (f := Reg.ALP_STAT_FAULT n) (by simp [faultFlds]) _

theorem loopStatus_cal_class (hn : n < 4) (s : State) (cur : Nat) : (s.loopStatus n 6 cur).rd (Reg.ALP_STAT_CLASS n) = 6 := by
  have hne : ∀ n < 4, (Reg.ALP_STAT_CLASS n).key ≠ (Reg.ALP_STAT_FAULT n).key ∧
      (Reg.ALP_STAT_CLASS n).key ≠ (Reg.ALP_STAT_CURRENT n).key := by decide
  obtain ⟨h1, h2⟩ := hne n hn
  unfold State.loopStatus
  dsimp only
  rw [if_neg (by simp), State.rd_wrb_ne _ _ _ _ h1, State.rd_wr_ne _ _ _ _ h2]
  exact State.rd_wr_of_lt s (f := Reg.ALP_STAT_CLASS n) (show 6 < 2 ^ 3 by decide)

/-- A calibration as it begins. -/
def calBegun (s : State) : AlpCal := { began := s.tm.opNs, p0 := none, p1 := none, measuring := none }

theorem applyCalBegin_effect (f : Fin 4) (hmode : s.fromIntegrate = true) (hnone : ∀ k < 4, (s.loop k).cal = none)
    (hused : s.loopMode f.val ≠ 0) (hdrop : s.loopDrop f.val = false) (hgood : s.pdlGood = true) :
    ∃ u, applyCalBegin (BitVec.ofNat 32 f.val) s = .ok u ∧ (u.loop f.val).cal = some (calBegun s) ∧
      (s.loopOut f.val = true → (u.loop f.val).driveUa = 4000) ∧ u.rd (Reg.ALP_STAT_CLASS f.val) = 6 ∧
      u.rdb (Reg.ALP_CAL_ACTIVE f.val) = true ∧ u.rdb (Reg.ALP_STAT_CAL f.val) = true ∧ onlyLoop s u f.val := by
  have hn := f.isLt
  have hbusy : (loops4.all fun k => (s.loop k).cal.isNone) = true := by
    refine List.all_eq_true.mpr fun k hk => ?_
    rw [hnone k (by simp [loops4] at hk; omega)]
    rfl
  have hne : ∀ n < 4, ∀ g ∈ [Reg.ALP_CAL_ACTIVE n, Reg.ALP_STAT_CAL n], ∀ f ∈ faultFlds n, g.key ≠ f.key := by decide
  have hop := setCal_op s f.val (some (calBegun s))
  have hpoint := fun ho => setCal_point hn (s := s) ho hgood (calBegun s)
  have hcal := setCal_cal s f.val (some (calBegun s))
  obtain ⟨hact, hstat, -⟩ := setCal_rd hn s (some (calBegun s))
  unfold applyCalBegin
  dsimp only
  rw [calLoop_of, needs_true hmode, needs_true hbusy, needs_true (by rw [decide_eq_true hused, hdrop, hgood]; rfl)]
  refine ⟨(s.setCal f.val (some (calBegun s))).loopStatus f.val 6 ((s.setCal f.val (some (calBegun s))).rd (Reg.ALP_STAT_CURRENT f.val)),
    rfl, ?_⟩
  generalize s.setCal f.val (some (calBegun s)) = v at hop hpoint hcal hact hstat ⊢
  have hst := loopStatus_cal v f.val (v.rd (Reg.ALP_STAT_CURRENT f.val))
  refine ⟨by rw [hst.loop, hcal], fun ho => ?_, loopStatus_cal_class hn v _, ?_, ?_, hop.only.trans (hst.onlyLoop _)⟩
  · rw [hst.loop, hpoint ho]
    rfl
  · exact (rdb_of_rd (hst.regs _ (hne _ hn _ (by simp)))).trans hact
  · exact (rdb_of_rd (hst.regs _ (hne _ hn _ (by simp)))).trans hstat

theorem calLoop_point (f : Fin 4) (hi : Bool) : calLoop (BitVec.ofNat 32 (f.val + bitNat hi * 256)) = f.val ∧
    (BitVec.ofNat 32 (f.val + bitNat hi * 256)).getLsbD 8 = hi := by
  revert f hi
  decide

/-- A calibration with a point given. -/
def calPoint (c : AlpCal) (out hi : Bool) (ref : Nat) : AlpCal :=
  if out then (if hi then { c with p1 := some (ref, 0) } else { c with p0 := some (ref, 0) })
  else { c with measuring := some (bitNat hi, ref) }

theorem applyCalPoint_effect (f : Fin 4) (w2 : Word) (hmode : s.fromIntegrate = true) {c : AlpCal} (hc : (s.loop f.val).cal = some c)
    (hidle : c.measuring = none) (hi : Bool)
    (hrange : if hi then 19000 ≤ w2.toNat ∧ w2.toNat ≤ 21000 else 3000 ≤ w2.toNat ∧ w2.toNat ≤ 5000) :
    ∃ u, applyCalPoint (BitVec.ofNat 32 (f.val + bitNat hi * 256)) w2 s = .ok u ∧
      (u.loop f.val).cal = some (calPoint c (s.loopOut f.val) hi w2.toNat) ∧
      (s.loopOut f.val = true → s.pdlGood = true → hi = false ∨ c.p0.isSome = true → (u.loop f.val).driveUa = 20000) ∧
      onlyLoop s u f.val := by
  have hn := f.isLt
  obtain ⟨hloop, hbit⟩ := calLoop_point f hi
  have hset : applyCalPoint (BitVec.ofNat 32 (f.val + bitNat hi * 256)) w2 s =
      .ok (s.setCal f.val (some (calPoint c (s.loopOut f.val) hi w2.toNat))) := by
    unfold applyCalPoint calPoint
    dsimp only
    rw [hloop, hbit, needs_true hmode, hc]
    dsimp only
    rw [needs_true (by rw [hidle]; rfl), needs_true]
    · cases s.loopOut f.val <;> rfl
    · cases hi <;> simpa using hrange
  refine ⟨_, hset, setCal_cal s f.val _, fun ho hg hfirst => ?_, (setCal_op s f.val _).only⟩
  rw [setCal_point hn ho hg, ho, if_pos]
  unfold calPoint
  obtain rfl | h := hfirst
  · rfl
  · cases hi
    · rfl
    · exact h

theorem calPointTaken_claim (f : Fin 4) {c : AlpCal} {p ref : Nat} (avg : Nat) (hc : (s.loop f.val).cal = some c)
    (hm : c.measuring = some (p, ref)) : ∃ t, exec (.calPointTaken f avg) s = .next t ∧
      (t.loop f.val).cal = some (if p = 0 then { c with measuring := none, p0 := some (ref, avg) }
        else { c with measuring := none, p1 := some (ref, avg) }) ∧ t.rdb (Reg.ALP_CAL_MEASURING f.val) = false ∧ onlyLoop s t f.val := by
  have hx : exec (.calPointTaken f avg) s = execCalPointTaken f avg s := by rfl
  rw [hx, execCalPointTaken, hc]
  dsimp only
  rw [hm]
  refine ⟨_, rfl, setCal_cal s f.val _, (setCal_rd f.isLt s _).2.2.trans ?_, (setCal_op s f.val _).only⟩
  split <;> rfl

/-! ### Trims -/

def trimFlds (n : Nat) : List Fld := [Reg.ALP_TRIM_GAIN_PPM n, Reg.ALP_TRIM_OFFSET n, Reg.ALP_CAL_SOURCE n]

theorem setTrims_op (s : State) (n : Nat) (g o : Int) (b : Bool) : LoopOp s (s.setTrims n g o b) n (trimFlds n) :=
  (LoopOp.modLoop s n _ _).trans (((((RegOp.refl _ _).wr (f := Reg.ALP_TRIM_GAIN_PPM n) (by simp [trimFlds]) _).wr
    (f := Reg.ALP_TRIM_OFFSET n) (by simp [trimFlds]) _).wrb (f := Reg.ALP_CAL_SOURCE n) (by simp [trimFlds]) _).loopOp n)

theorem setTrims_loop (s : State) (n : Nat) (g o : Int) (b : Bool) :
    (s.setTrims n g o b).loop n = { s.loop n with gain := g, offset := o } :=
  loop_modLoop_same s n fun x => { x with gain := g, offset := o }

theorem setTrims_source (s : State) (n : Nat) (g o : Int) (b : Bool) : (s.setTrims n g o b).rdb (Reg.ALP_CAL_SOURCE n) = b :=
  State.rdb_wrb_same _ (by simp [Reg.ALP_CAL_SOURCE]) b

/-- The trims taken into use by a commit. -/
def trimmed (s : State) (n : Nat) (g o : Int) : State :=
  ((s.modLoop n fun x => { x with commits := (s.loop n).commits + 1 }).setTrims n g o true).setCal n none

def commitFlds (n : Nat) : List Fld := trimFlds n ++ recalFlds n

theorem trimmed_trims (s : State) (n : Nat) (g o : Int) :
    LoopOp s ((s.modLoop n fun x => { x with commits := (s.loop n).commits + 1 }).setTrims n g o true) n (trimFlds n) :=
  (LoopOp.modLoop s n _ _).trans (setTrims_op _ n g o true)

theorem trimmed_op (s : State) (n : Nat) (g o : Int) : LoopOp s (trimmed s n g o) n (commitFlds n) := by
  have h := trimmed_trims s n g o
  have h' := setCal_op ((s.modLoop n fun x => { x with commits := (s.loop n).commits + 1 }).setTrims n g o true) n none
  exact ⟨h.only.trans h'.only, (h.regs.mono fun _ hf => List.mem_append_left _ hf).trans
    (h'.regs.mono fun _ hf => List.mem_append_right _ hf)⟩

theorem trimmed_loop (s : State) (n : Nat) (g o : Int) : (trimmed s n g o).loop n = { s.loop n with
    cal := none, gain := g, offset := o, commits := (s.loop n).commits + 1, driveUa := ((trimmed s n g o).loop n).driveUa } := by
  have h := setCal_loop ((s.modLoop n fun x => { x with commits := (s.loop n).commits + 1 }).setTrims n g o true) n none
  rw [setTrims_loop, loop_modLoop_same] at h
  exact h

theorem trimmed_input (hn : n < 4) (h : s.loopOut n = false) (g o : Int) :
    ((trimmed s n g o).loop n).driveUa = (s.loop n).driveUa := by
  have hne : ∀ n < 4, ∀ f ∈ trimFlds n, (Reg.ALP_CFG_MODE n).key ≠ f.key := by decide
  have hmode := (trimmed_trims s n g o).regs _ (hne n hn)
  refine (setCal_input hn ?_ none).trans (by rw [setTrims_loop, loop_modLoop_same])
  unfold State.loopOut State.loopMode
  rw [hmode]
  exact h

theorem trimmed_source (hn : n < 4) (s : State) (g o : Int) : (trimmed s n g o).rdb (Reg.ALP_CAL_SOURCE n) = true := by
  have hne : ∀ n < 4, ∀ f ∈ recalFlds n, (Reg.ALP_CAL_SOURCE n).key ≠ f.key := by decide
  exact (rdb_of_rd ((setCal_op _ n none).regs _ (hne n hn))).trans (setTrims_source _ n g o true)

/-- Loops do not decide whether the retained store can be written. -/
theorem LoopOp.nvAlive (hn : n < 4) {l : List Fld} (hl : ∀ f ∈ l, f ∈ commitFlds n) (h : LoopOp s t n l) : t.nvAlive = s.nvAlive := by
  have hne : ∀ n < 4, ∀ g ∈ [Reg.MOD_DOMAIN_PGOOD, Reg.RPC_LOAD_LOAD_DONE, Reg.RPC_LOAD_LOAD_ERR], ∀ f ∈ commitFlds n,
      g.key ≠ f.key := by decide
  have hkeep {g : Fld} (hg : g ∈ [Reg.MOD_DOMAIN_PGOOD, Reg.RPC_LOAD_LOAD_DONE, Reg.RPC_LOAD_LOAD_ERR]) : t.rd g = s.rd g :=
    h.regs g fun f hf => hne n hn g hg f (hl f hf)
  unfold State.nvAlive State.pdhGood
  rw [hkeep (by simp), hkeep (by simp), hkeep (by simp)]

/-- A loop's record after it has been written. -/
theorem nvWrite_calRecord (hnv : s.nvAlive = true) (l r : List Byte) :
    Mem.read (s.nvWrite (calAddr n) (l ++ r)).rpc.store (0xF000 + 16 * n) l.length = l := by
  rw [nvWrite_alive hnv]
  exact Mem.read_write _ _ _ _

theorem nvWrite_regs_alp (hnv : s.nvAlive = true) (a : Nat) (l : List Byte) :
    (s.nvWrite a l).regs = s.regs ∧ (s.nvWrite a l).alp = s.alp := by
  rw [nvWrite_alive hnv]
  exact ⟨rfl, rfl⟩

/-! ### Commit and factory trims (R453) -/

/-- The record of committed trims, without its CRC-32C. -/
def trimRecord (s : State) (n : Nat) (g o : Int) : List Byte :=
  natLE 4 (g % 4294967296).toNat ++ natLE 4 (o % 4294967296).toNat ++ natLE 4 ((s.loop n).commits + 1)

theorem trimRecord_length (s : State) (n : Nat) (g o : Int) : (trimRecord s n g o).length = 12 := by
  simp only [trimRecord, List.length_append, length_natLE]

theorem applyCalCommit_eq (f : Fin 4) (hmode : s.fromIntegrate = true) {c : AlpCal} (hc : (s.loop f.val).cal = some c)
    (hidle : c.measuring = none) (h0 : c.p0.isSome = true) (h1 : c.p1.isSome = true) {g o : Int} (htrims : s.calTrims f.val c = some (g, o))
    (hg : -20000 ≤ g ∧ g ≤ 20000) (ho : -2000 ≤ o ∧ o ≤ 2000) :
    applyCalCommit (BitVec.ofNat 32 f.val) s = .ok (((trimmed s f.val g o).nvWrite (calAddr f.val) (withCrc (trimRecord s f.val g o))).wrb
      (Reg.ALP_EVENT_CAL_DONE f.val) true) := by
  unfold applyCalCommit
  dsimp only
  rw [calLoop_of, needs_true hmode, hc]
  dsimp only
  rw [needs_true (by rw [h0, h1]; rfl), needs_true (by rw [hidle]; rfl), htrims]
  dsimp only
  rw [needs_true (by simp [hg, ho])]
  rfl

theorem applyCalCommit_effect (f : Fin 4) (hmode : s.fromIntegrate = true) (hnv : s.nvAlive = true) {c : AlpCal}
    (hc : (s.loop f.val).cal = some c) (hidle : c.measuring = none) (h0 : c.p0.isSome = true) (h1 : c.p1.isSome = true) {g o : Int}
    (htrims : s.calTrims f.val c = some (g, o)) (hg : -20000 ≤ g ∧ g ≤ 20000) (ho : -2000 ≤ o ∧ o ≤ 2000) :
    ∃ u, applyCalCommit (BitVec.ofNat 32 f.val) s = .ok u ∧
      u.loop f.val = { s.loop f.val with cal := none, gain := g, offset := o, commits := (s.loop f.val).commits + 1,
                                         driveUa := (u.loop f.val).driveUa } ∧
      (s.loopOut f.val = false → (u.loop f.val).driveUa = (s.loop f.val).driveUa) ∧
      u.rdb (Reg.ALP_EVENT_CAL_DONE f.val) = true ∧ u.rdb (Reg.ALP_CAL_SOURCE f.val) = true ∧
      Mem.read u.rpc.store (0xF000 + 16 * f.val) 12 = trimRecord s f.val g o := by
  have hn := f.isLt
  have hne : ∀ n < 4, (Reg.ALP_CAL_SOURCE n).key ≠ (Reg.ALP_EVENT_CAL_DONE n).key := by decide
  have hloop := trimmed_loop s f.val g o
  have hinput := fun h => trimmed_input (s := s) hn h g o
  have hsource := trimmed_source hn s g o
  have halive := ((trimmed_op s f.val g o).nvAlive hn fun _ h => h).trans hnv
  refine ⟨_, applyCalCommit_eq f hmode hc hidle h0 h1 htrims hg ho, ?_⟩
  generalize trimmed s f.val g o = v at hloop hinput hsource halive ⊢
  obtain ⟨hregs, halp⟩ := nvWrite_regs_alp halive (calAddr f.val) (withCrc (trimRecord s f.val g o))
  have hstore := nvWrite_calRecord (n := f.val) halive (trimRecord s f.val g o) (wordLE (crc32c (trimRecord s f.val g o)))
  rw [trimRecord_length] at hstore
  change Mem.read (v.nvWrite (calAddr f.val) (withCrc (trimRecord s f.val g o))).rpc.store _ _ = _ at hstore
  generalize v.nvWrite (calAddr f.val) (withCrc (trimRecord s f.val g o)) = w at hregs halp hstore ⊢
  have hsame : (w.wrb (Reg.ALP_EVENT_CAL_DONE f.val) true).loop f.val = v.loop f.val := loop_congr halp f.val
  refine ⟨?_, fun h => ?_, State.rdb_wrb_same w (by simp [Reg.ALP_EVENT_CAL_DONE]) true, ?_, hstore⟩
  · rw [hsame]
    exact hloop
  · rw [hsame]
    exact hinput h
  · exact (State.rdb_wrb_ne w true (hne _ hn)).trans ((State.rdb_congr hregs _).trans hsource)

theorem applyCalFactory_effect (f : Fin 4) (hmode : s.fromIntegrate = true) (hnv : s.nvAlive = true) (hnone : (s.loop f.val).cal = none) :
    ∃ u, applyCalFactory (BitVec.ofNat 32 f.val) s = .ok u ∧
      u.loop f.val = { s.loop f.val with gain := 0, offset := 0, commits := 0 } ∧ u.rdb (Reg.ALP_CAL_SOURCE f.val) = false ∧
      Mem.read u.rpc.store (0xF000 + 16 * f.val) 16 = List.replicate 16 0 := by
  unfold applyCalFactory
  dsimp only
  rw [calLoop_of, needs_true hmode, needs_true (by rw [hnone]; rfl)]
  have hnv' : (s.modLoop f.val fun x => { x with commits := 0 }).nvAlive = true := hnv
  have hloop : (s.modLoop f.val fun x => { x with commits := 0 }).loop f.val = { s.loop f.val with commits := 0 } := loop_modLoop_same s f.val _
  refine ⟨_, rfl, ?_⟩
  generalize (s.modLoop f.val fun x => { x with commits := 0 }) = v at hnv' hloop ⊢
  have halp := (nvWrite_regs_alp hnv' (calAddr f.val) (List.replicate 16 0)).2
  have hstore := nvWrite_calRecord (n := f.val) hnv' (List.replicate 16 0) []
  rw [List.append_nil, List.length_replicate] at hstore
  generalize v.nvWrite (calAddr f.val) (List.replicate 16 0) = w at halp hstore ⊢
  refine ⟨?_, setTrims_source w f.val 0 0 false, hstore⟩
  rw [setTrims_loop, loop_congr halp, hloop]

theorem loopCalibration_holds : loopCalibration := by
  intro f s w2 w3
  refine ⟨fun hmode => ⟨fun hnone hused hdrop hgood => ?_, fun c hc hidle => ⟨fun hi hrange => ?_, fun p q g o hp hq htrims hg0 hg1 ho0 ho1 => ?_,
    ?_⟩, fun hnone => ?_⟩, fun c p ref avg hc hm => calPointTaken_claim f avg hc hm, fun c hc hlate => calTimeout_claim f hc hlate⟩
  · exact takesEffect_of (code := 0x80) (fun r => applyCalBegin r.w1) (fun _ => rfl) fun seq _ _ =>
      applyCalBegin_effect (s := taken s seq) f hmode hnone hused hdrop hgood
  · exact takesEffect_of (code := 0x81) (fun r => applyCalPoint r.w1 r.w2) (fun _ => rfl) fun seq _ _ =>
      applyCalPoint_effect (s := taken s seq) f w2 hmode hc hidle hi hrange
  · exact takesEffect_of (code := 0x82) (fun r => applyCalCommit r.w1) (fun _ => rfl) fun seq _ hready =>
      applyCalCommit_effect (s := taken s seq) f hmode (nvAlive_of_hostAlive (s := s) hready.1) hc hidle (by rw [hp]; rfl) (by rw [hq]; rfl)
        htrims ⟨hg0, hg1⟩ ⟨ho0, ho1⟩
  · exact takesEffect_of (code := 0x83) (fun r => applyCalAbort r.w1) (fun _ => rfl) fun seq _ _ =>
      applyCalAbort_effect (s := taken s seq) f hmode (by rw [show ((taken s seq).loop f.val).cal = some c from hc]; rfl)
  · exact takesEffect_of (code := 0x84) (fun r => applyCalFactory r.w1) (fun _ => rfl) fun seq _ hready =>
      applyCalFactory_effect (s := taken s seq) f hmode (nvAlive_of_hostAlive (s := s) hready.1) hnone

/-- Settles O33: the samples, the supervision bits and the HART transactions write only their own loop and its registers, and every
recalibration step is a change of the loop's calibration, of which its registers and an output's drive follow. -/
theorem currentLoops : Obligations.CurrentLoops := ⟨loopSamplingSupervisionHart_holds, loopCalibration_holds⟩

end Sys2Proof.Claims
end

section
/-! The sealed switches, the proof age and the scrubber's slots (O44). -/

namespace Sys2Proof.Claims

open Sys2Proof Sys2Proof.Machine

variable {s t u : State} {n : Nat} {c : Ch}

/-! ### Sealed switches (R271) -/

/-- The readings of the sealed switches as they are kept. -/
def switchesRead (s : State) (r : Per3 (BitVec 22)) : State :=
  s.modSio fun x => { x with swRead := r, swLast := maj3 r.a r.b r.c }

theorem switchReread_claim (s : State) (r : Per3 (BitVec 22)) : ∃ t, exec (.switchReread r) s = .next t ∧
    t = { s with regs := t.regs, rcd := t.rcd, sio := { s.sio with swRead := r, swLast := maj3 r.a r.b r.c } } ∧
    (maj3 r.a r.b r.c = s.sio.swLast → t.regs = s.regs ∧ t.rcd = s.rcd) ∧
    (maj3 r.a r.b r.c ≠ s.sio.swLast → t.rdb Reg.SIO_SWITCH_CHANGED = true ∧ keepsRegs s t (Reg.SIO_SWITCH_CHANGED :: logFlds) ∧
      (s.pdhGood = true → s.rcd.queue.length < 2048 → ∃ e, t.rcd.queue = s.rcd.queue ++ [e] ∧ e.sev = 5)) := by
  have hx : exec (.switchReread r) s = execSwitchReread r s := by rfl
  rw [hx, execSwitchReread]
  dsimp only
  by_cases hsame : maj3 r.a r.b r.c = s.sio.swLast
  · rw [if_neg (not_not_intro hsame)]
    exact ⟨_, rfl, rfl, fun _ => ⟨rfl, rfl⟩, fun h => absurd hsame h⟩
  · rw [if_pos hsame]
    let v := (switchesRead s r).wrb Reg.SIO_SWITCH_CHANGED true
    have hv : RegOp (switchesRead s r) v [Reg.SIO_SWITCH_CHANGED] := (RegOp.refl _ _).wrb (by decide) true
    refine ⟨v.diag 5 Src.sio 0xFFF 0x00900710, rfl, ?_, fun h => absurd h hsame, fun _ => ⟨?_, ?_, fun hgood hlen => ?_⟩⟩
    · exact diag_frame v 5 Src.sio 0xFFF 0x00900710 []
    · exact (rdb_of_rd (keepsRegs_diag v _ _ _ _ [] _ (by decide))).trans
        (State.rdb_wrb_same (switchesRead s r) (f := Reg.SIO_SWITCH_CHANGED) (by decide) true)
    · have hreg : keepsRegs s v [Reg.SIO_SWITCH_CHANGED] := hv.regs
      exact (hreg.mono (by decide)).trans ((keepsRegs_diag v _ _ _ _ []).mono (by decide))
    · have hgood' : v.pdhGood = true := (pdhGood_of_keeps hv.regs (by decide) (by decide)).trans hgood
      exact ⟨_, enqueue_queue v _ hgood' hlen, rfl⟩

/-! ### The proof age (R205) -/

/-- One more hour of operating time for one channel. -/
def proofStep (c : Ch) (limit : Nat) (s : State) : State :=
  let n := Ch.num c
  let s := s.inc (Reg.VOT_PROOF_AGE_HOURS n)
  let h := s.rd (Reg.VOT_PROOF_AGE_HOURS n)
  let k := FMap.get 0 s.md.proofOver n
  let s := s.modMd fun x => { x with proofOver := FMap.set 0 x.proofOver n (if h ≤ limit then 0 else k + 1) }
  if h ≤ limit then s
  else
    let s := s.setBit Reg.VOT_PROOF_WARN_WARN n
    if k % 24 = 0 then s.diag 3 Src.vot n 0x0060006C else s

/-- A channel's proof age counted, with the hours above the limit. -/
def proofCounted (c : Ch) (limit : Nat) (s : State) : State :=
  (s.inc (Reg.VOT_PROOF_AGE_HOURS (Ch.num c))).modMd fun x => { x with
    proofOver := FMap.set 0 x.proofOver (Ch.num c)
      (if up s (Reg.VOT_PROOF_AGE_HOURS (Ch.num c)) ≤ limit then 0 else FMap.get 0 s.md.proofOver (Ch.num c) + 1) }

theorem proofStep_eq (c : Ch) (limit : Nat) (s : State) : proofStep c limit s =
    if up s (Reg.VOT_PROOF_AGE_HOURS (Ch.num c)) ≤ limit then proofCounted c limit s
    else if FMap.get 0 s.md.proofOver (Ch.num c) % 24 = 0 then
      ((proofCounted c limit s).setBit Reg.VOT_PROOF_WARN_WARN (Ch.num c)).diag 3 Src.vot (Ch.num c) 0x0060006C
    else (proofCounted c limit s).setBit Reg.VOT_PROOF_WARN_WARN (Ch.num c) := by
  unfold proofStep proofCounted
  dsimp only
  rw [rd_inc_up]
  rfl

def proofFlds : List Fld :=
  [Reg.VOT_PROOF_AGE_HOURS 0, Reg.VOT_PROOF_AGE_HOURS 1, Reg.VOT_PROOF_AGE_HOURS 2, Reg.VOT_PROOF_WARN_WARN] ++ logFlds

/-- What the hour writes. -/
structure ProofOp (s t : State) : Prop where
  frame : t = { s with regs := t.regs, rcd := t.rcd, md := { s.md with proofOver := t.md.proofOver } }
  regs : keepsRegs s t proofFlds

theorem ProofOp.refl (s : State) : ProofOp s s := ⟨rfl, keepsRegs_refl s _⟩

theorem ProofOp.trans (h : ProofOp s t) (h' : ProofOp t u) : ProofOp s u := ⟨by rw [h'.frame, h.frame], h.regs.trans h'.regs⟩

theorem proofCounted_op (c : Ch) (limit : Nat) (s : State) : ProofOp s (proofCounted c limit s) :=
  ⟨rfl, keepsRegs_wr s (f := Reg.VOT_PROOF_AGE_HOURS (Ch.num c)) (by cases c <;> decide) _⟩

theorem ProofOp.warn (h : ProofOp s t) (i : Nat) : ProofOp s (t.setBit Reg.VOT_PROOF_WARN_WARN i) :=
  h.trans ⟨rfl, keepsRegs_wr t (by decide) _⟩

theorem ProofOp.diag (h : ProofOp s t) (sev src inst off : Nat) (l : List Nat) : ProofOp s (t.diag sev src inst off l) := by
  refine h.trans ⟨?_, (keepsRegs_diag t sev src inst off l).mono fun _ hf => List.mem_append_right _ hf⟩
  rw [diag_frame]

theorem proofStep_op (c : Ch) (limit : Nat) (s : State) : ProofOp s (proofStep c limit s) := by
  have h := proofCounted_op c limit s
  rw [proofStep_eq]
  split_ifs
  · exact h
  · exact (h.warn _).diag _ _ _ _ _
  · exact h.warn _

/-- What the hour reads and writes of a channel: its proof age, its hours above the limit and its warning. -/
def proofView (s : State) (c : Ch) : Nat × Nat × Bool :=
  (s.rd (Reg.VOT_PROOF_AGE_HOURS (Ch.num c)), FMap.get 0 s.md.proofOver (Ch.num c), natBit (s.rd Reg.VOT_PROOF_WARN_WARN) (Ch.num c))

/-- One hour more in the view of a channel. -/
def proofHour (limit : Nat) (v : Nat × Nat × Bool) : Nat × Nat × Bool :=
  (min (2 ^ 24 - 1) (v.1 + 1), if limit < min (2 ^ 24 - 1) (v.1 + 1) then v.2.1 + 1 else 0,
    v.2.2 || decide (limit < min (2 ^ 24 - 1) (v.1 + 1)))

theorem proofHour_view (limit : Nat) (s : State) (c : Ch) : proofHour limit (proofView s c) =
    (up s (Reg.VOT_PROOF_AGE_HOURS (Ch.num c)),
      if limit < up s (Reg.VOT_PROOF_AGE_HOURS (Ch.num c)) then FMap.get 0 s.md.proofOver (Ch.num c) + 1 else 0,
      natBit (s.rd Reg.VOT_PROOF_WARN_WARN) (Ch.num c) || decide (limit < up s (Reg.VOT_PROOF_AGE_HOURS (Ch.num c)))) := rfl

theorem proofCounted_view (c : Ch) (limit : Nat) (s : State) : proofView (proofCounted c limit s) c =
    (up s (Reg.VOT_PROOF_AGE_HOURS (Ch.num c)),
      if limit < up s (Reg.VOT_PROOF_AGE_HOURS (Ch.num c)) then FMap.get 0 s.md.proofOver (Ch.num c) + 1 else 0,
      natBit (s.rd Reg.VOT_PROOF_WARN_WARN) (Ch.num c)) := by
  have hne : Reg.VOT_PROOF_WARN_WARN.key ≠ (Reg.VOT_PROOF_AGE_HOURS (Ch.num c)).key := by cases c <;> decide
  refine Prod.ext (rd_inc_up s (Reg.VOT_PROOF_AGE_HOURS (Ch.num c))) (Prod.ext ?_ (congrArg (natBit · _) (State.rd_inc_ne s _ _ hne)))
  refine (FMap.get_set_same _ _ _ _).trans ?_
  dsimp only
  split_ifs
  · omega
  · rfl
  · rfl
  · omega

theorem proofCounted_view_ne {c d : Ch} (h : d ≠ c) (limit : Nat) (s : State) : proofView (proofCounted c limit s) d = proofView s d := by
  have hage : (Reg.VOT_PROOF_AGE_HOURS (Ch.num d)).key ≠ (Reg.VOT_PROOF_AGE_HOURS (Ch.num c)).key := by
    revert h
    cases c <;> cases d <;> decide
  have hnum : Ch.num d ≠ Ch.num c := by
    revert h
    cases c <;> cases d <;> decide
  have hne : Reg.VOT_PROOF_WARN_WARN.key ≠ (Reg.VOT_PROOF_AGE_HOURS (Ch.num c)).key := by cases c <;> decide
  refine Prod.ext (State.rd_inc_ne s _ _ hage) (Prod.ext (FMap.get_set_ne _ _ _ hnum) ?_)
  exact congrArg (natBit · _) (State.rd_inc_ne s _ _ hne)

/-- The warning of a channel is set and no other. -/
theorem proofView_warn (s : State) (c d : Ch) : proofView (s.setBit Reg.VOT_PROOF_WARN_WARN (Ch.num c)) d =
    ((proofView s d).1, (proofView s d).2.1, (proofView s d).2.2 || decide (Ch.num c = Ch.num d)) := by
  have hne : (Reg.VOT_PROOF_AGE_HOURS (Ch.num d)).key ≠ Reg.VOT_PROOF_WARN_WARN.key := by cases d <;> decide
  exact Prod.ext (State.rd_wr_ne s _ _ _ hne) (Prod.ext rfl (natBit_setBit s (f := Reg.VOT_PROOF_WARN_WARN) (show Ch.num d < 3 by cases d <;> decide)))

theorem proofView_diag (s : State) (sev src inst off : Nat) (l : List Nat) (d : Ch) :
    proofView (s.diag sev src inst off l) d = proofView s d := by
  have hage : ∀ f ∈ logFlds, (Reg.VOT_PROOF_AGE_HOURS (Ch.num d)).key ≠ f.key := by cases d <;> decide
  have hk := keepsRegs_diag s sev src inst off l
  refine Prod.ext (hk _ hage) (Prod.ext ?_ (congrArg (natBit · _) (hk Reg.VOT_PROOF_WARN_WARN (by decide))))
  change FMap.get 0 (s.diag sev src inst off l).md.proofOver _ = _
  rw [diag_frame]
  rfl

theorem proofStep_view (c : Ch) (limit : Nat) (s : State) : proofView (proofStep c limit s) c = proofHour limit (proofView s c) := by
  have hv := proofCounted_view c limit s
  have hset := proofView_warn (proofCounted c limit s) c c
  rw [hv, decide_eq_true rfl, Bool.or_true] at hset
  dsimp only at hset
  rw [proofStep_eq, proofHour_view]
  rcases Nat.lt_or_ge limit (up s (Reg.VOT_PROOF_AGE_HOURS (Ch.num c))) with hlate | hin
  · rw [if_pos hlate] at hset
    rw [if_neg (by omega), if_pos hlate, decide_eq_true hlate, Bool.or_true]
    split
    · rw [proofView_diag, hset]
    · exact hset
  · rw [if_pos hin, hv, decide_eq_false (by omega), Bool.or_false]

theorem proofStep_view_ne {c d : Ch} (h : d ≠ c) (limit : Nat) (s : State) : proofView (proofStep c limit s) d = proofView s d := by
  have hnum : Ch.num c ≠ Ch.num d := by
    revert h
    cases c <;> cases d <;> decide
  have hset : proofView ((proofCounted c limit s).setBit Reg.VOT_PROOF_WARN_WARN (Ch.num c)) d = proofView s d := by
    rw [proofView_warn, proofCounted_view_ne h, decide_eq_false hnum, Bool.or_false]
  rw [proofStep_eq]
  split_ifs
  · exact proofCounted_view_ne h limit s
  · rw [proofView_diag, hset]
  · exact hset

theorem exists_num {n : Nat} (hn : n < 3) : ∃ c : Ch, Ch.num c = n := by
  match n, hn with
  | 0, _ => exact ⟨.chA, rfl⟩
  | 1, _ => exact ⟨.chB, rfl⟩
  | 2, _ => exact ⟨.chC, rfl⟩

theorem proofView_eq {a k : Nat} {w : Bool} (h : proofView s c = (a, k, w)) : s.rd (Reg.VOT_PROOF_AGE_HOURS (Ch.num c)) = a ∧
    FMap.get 0 s.md.proofOver (Ch.num c) = k ∧ natBit (s.rd Reg.VOT_PROOF_WARN_WARN) (Ch.num c) = w := by
  obtain ⟨h1, h2⟩ := Prod.mk.inj h
  exact ⟨h1, Prod.mk.inj h2⟩

theorem proofHour_claim (hup : s.down = false) : ∃ t, exec .proofHour s = .next t ∧
    t = { s with regs := t.regs, rcd := t.rcd, md := { s.md with proofOver := t.md.proofOver } } ∧ keepsRegs s t proofFlds ∧
    ∀ n < 3, t.rd (Reg.VOT_PROOF_AGE_HOURS n) = up s (Reg.VOT_PROOF_AGE_HOURS n) ∧
      FMap.get 0 t.md.proofOver n = (if s.rd Reg.VOT_CFG_PROOF_DAYS * 24 < up s (Reg.VOT_PROOF_AGE_HOURS n) then
        FMap.get 0 s.md.proofOver n + 1 else 0) ∧
      natBit (t.rd Reg.VOT_PROOF_WARN_WARN) n = (natBit (s.rd Reg.VOT_PROOF_WARN_WARN) n ||
        decide (s.rd Reg.VOT_CFG_PROOF_DAYS * 24 < t.rd (Reg.VOT_PROOF_AGE_HOURS n))) := by
  have hx : exec .proofHour s = execProofHour s := by rfl
  let t := foldSt Ch.all (fun c s' => proofStep c (s.rd Reg.VOT_CFG_PROOF_DAYS * 24) s') s
  have hop : ProofOp s t := foldSt_inv (P := ProofOp s) (fun c _ u hu => hu.trans (proofStep_op c _ u)) (ProofOp.refl s)
  have hview : ∀ c : Ch, proofView t c = proofHour (s.rd Reg.VOT_CFG_PROOF_DAYS * 24) (proofView s c) := fun c =>
    (foldSt_view proofView (g := fun _ => proofHour (s.rd Reg.VOT_CFG_PROOF_DAYS * 24)) (fun c s' => proofStep_view c _ s')
      (fun c d s' h => proofStep_view_ne h _ s') (by decide) s c).trans (if_pos (mem_chAll c))
  refine ⟨t, ?_, hop.frame, hop.regs, fun n hn => ?_⟩
  · rw [hx, execProofHour, if_neg (by rw [hup]; decide)]
    rfl
  · obtain ⟨c, rfl⟩ := exists_num hn
    have h := hview c
    rw [proofHour_view] at h
    obtain ⟨hage, hpast, hwarn⟩ := proofView_eq h
    rw [hage]
    exact ⟨rfl, hpast, hwarn⟩

end Sys2Proof.Claims
end

section
/-! The scrubber's slots (O44). -/

namespace Sys2Proof.Claims

open Sys2Proof Sys2Proof.Machine

variable {s t u : State} {n : Nat} {c : Ch}

theorem inc_eq_up (s : State) (f : Fld) : s.inc f = s.wr f (up s f) := by rw [State.inc, satInc_eq]; rfl

/-! ### The slot (R217) -/

/-- Where a slot ends. -/
def slotEnd (s : State) (c : Ch) : Nat := Min.min (s.rd (Reg.MIU_SCRUB_POS_NEXT (Ch.num c)) + s.scrubPace (Ch.num c)) 0x170000

/-- The state in which a slot's codewords are checked. -/
def slotBegun (s : State) (c : Ch) : State := s.wr (Reg.MIU_SCRUB_PACE (Ch.num c)) (s.scrubPace (Ch.num c))

/-- The end of a slot in the registers, and of a pass where it ends with it. -/
def slotDone (c : Ch) (hi : Nat) (s : State) : State :=
  if Miu.total ≤ hi then (s.wr (Reg.MIU_SCRUB_POS_NEXT (Ch.num c)) 0).endPass c else s.wr (Reg.MIU_SCRUB_POS_NEXT (Ch.num c)) hi

theorem scrubSlot_exec (hboot : s.booted c = true) (hrun : s.scrubPaused c = false) (hup : s.down = false) (hwbq : (s.ch c).wbq = []) {l : List Nat}
    (hbad : (s.ch c).badCws (s.rd (Reg.MIU_SCRUB_POS_NEXT (Ch.num c))) (slotEnd s c - s.rd (Reg.MIU_SCRUB_POS_NEXT (Ch.num c))) = l) :
    exec (.scrubSlot c) s = .next (slotDone c (slotEnd s c) (foldSt l (fun cw s => s.scrubCw c cw) (slotBegun s c))) := by
  have hx : exec (.scrubSlot c) s = execScrubSlot c s := by rfl
  have hsame : ((foldSt [] (fun cw s => s.writeBack c cw) s).modCh c fun h => { h with wbq := [] }) = s := modCh_self (by
    change { s.ch c with wbq := [] } = s.ch c
    rw [← hwbq])
  rw [hx, execScrubSlot, if_neg (by rw [hboot, hrun, hup]; decide), hwbq]
  dsimp only
  rw [hsame, show min (s.rd (Reg.MIU_SCRUB_POS_NEXT (Ch.num c)) + s.scrubPace (Ch.num c)) Miu.total = slotEnd s c from rfl, hbad]
  rfl

theorem scrubPace_lt (s : State) (n : Nat) : s.scrubPace n < 2 ^ 17 := by
  unfold State.scrubPace
  dsimp only
  split <;> omega

theorem scrubClean_claim (hi : slotEnd s c < 0x170000) :
    let t := slotDone c (slotEnd s c) (slotBegun s c)
    regsTo s t [(Reg.MIU_SCRUB_PACE (Ch.num c), s.scrubPace (Ch.num c)), (Reg.MIU_SCRUB_POS_NEXT (Ch.num c), slotEnd s c)] ∧
      t = { s with regs := t.regs } := by
  have hkeys : (Reg.MIU_SCRUB_PACE (Ch.num c)).key ≠ (Reg.MIU_SCRUB_POS_NEXT (Ch.num c)).key := by cases c <;> decide
  have hsep : separate [(Reg.MIU_SCRUB_PACE (Ch.num c), s.scrubPace (Ch.num c)), (Reg.MIU_SCRUB_POS_NEXT (Ch.num c), slotEnd s c)] := by
    have hpos : slotEnd s c < 2 ^ 21 := by omega
    refine ⟨?_, by simpa using hkeys⟩
    simpa using ⟨scrubPace_lt s _, hpos⟩
  have hdone : slotDone c (slotEnd s c) (slotBegun s c) = (slotBegun s c).wr (Reg.MIU_SCRUB_POS_NEXT (Ch.num c)) (slotEnd s c) :=
    if_neg (by unfold Miu.total; omega)
  intro t
  rw [show t = _ from hdone]
  exact ⟨regsTo_writes hsep s, rfl⟩

theorem endPass_frame (s : State) (c : Ch) : (s.endPass c).regs = (s.inc (Reg.MIU_SCRUB_PASSES (Ch.num c))).regs ∧
    ((s.endPass c).ch c).ceRows = [] ∧ s.endPass c = { s with regs := (s.endPass c).regs, chs := (s.endPass c).chs } := by
  refine ⟨rfl, ?_, rfl⟩
  unfold State.endPass
  rw [State.ch_modCh_same]

theorem scrubPass_claim (hi : slotEnd s c = 0x170000) :
    let t := slotDone c (slotEnd s c) (slotBegun s c)
    regsTo s t [(Reg.MIU_SCRUB_PACE (Ch.num c), s.scrubPace (Ch.num c)), (Reg.MIU_SCRUB_POS_NEXT (Ch.num c), 0),
        (Reg.MIU_SCRUB_PASSES (Ch.num c), up s (Reg.MIU_SCRUB_PASSES (Ch.num c)))] ∧
      (t.ch c).ceRows = [] ∧ t = { s with regs := t.regs, chs := t.chs } := by
  let v := (slotBegun s c).wr (Reg.MIU_SCRUB_POS_NEXT (Ch.num c)) 0
  have hkeys : ([Reg.MIU_SCRUB_PACE (Ch.num c), Reg.MIU_SCRUB_POS_NEXT (Ch.num c), Reg.MIU_SCRUB_PASSES (Ch.num c)].Pairwise fun f g =>
      f.key ≠ g.key) := by cases c <;> decide
  have hsep : separate [(Reg.MIU_SCRUB_PACE (Ch.num c), s.scrubPace (Ch.num c)), (Reg.MIU_SCRUB_POS_NEXT (Ch.num c), 0),
      (Reg.MIU_SCRUB_PASSES (Ch.num c), up s (Reg.MIU_SCRUB_PASSES (Ch.num c)))] := by
    refine ⟨?_, by simpa using hkeys⟩
    have h := up_lt s (Reg.MIU_SCRUB_PASSES (Ch.num c))
    simpa using ⟨scrubPace_lt s _, h⟩
  have hpasses : up v (Reg.MIU_SCRUB_PASSES (Ch.num c)) = up s (Reg.MIU_SCRUB_PASSES (Ch.num c)) := by
    have h1 : (Reg.MIU_SCRUB_PASSES (Ch.num c)).key ≠ (Reg.MIU_SCRUB_POS_NEXT (Ch.num c)).key := by cases c <;> decide
    have h2 : (Reg.MIU_SCRUB_PASSES (Ch.num c)).key ≠ (Reg.MIU_SCRUB_PACE (Ch.num c)).key := by cases c <;> decide
    unfold up
    rw [State.rd_wr_ne _ _ _ _ h1]
    exact congrArg (fun k => min _ (k + 1)) (State.rd_wr_ne s _ _ _ h2)
  have hdone : slotDone c (slotEnd s c) (slotBegun s c) = v.endPass c := if_pos (by unfold Miu.total; omega)
  obtain ⟨hregs, hrows, hframe⟩ := endPass_frame v c
  intro t
  rw [show t = _ from hdone]
  refine ⟨(regsTo_writes hsep s).of_regs ?_, hrows, hframe⟩
  rw [hregs, inc_eq_up, hpasses]
  rfl

/-! ### One wrong bit (R212, R219) -/

/-- The fields that a correction by the scrubber writes after its count. -/
def fixFlds (n : Nat) : List Fld :=
  [Reg.MIU_ERR_ADDR_KIND n, Reg.MIU_ERR_ADDR_REGION n, Reg.MIU_ERR_ADDR_CWADDR n, Reg.MIU_ERR_SYND_SYND n, Reg.MIU_ERR_SYND_BIT n,
    Reg.MIU_SPARE_WEAK n, Reg.MIU_EVENT_WEAK_ROW n, Reg.MIU_SCRUB_POS_NEXT n, Reg.MIU_SCRUB_PASSES n] ++ logFlds

/-- Only those registers, and of channel `c` only what the scrubber notes of its rows. -/
structure Noted (s t : State) (c : Ch) : Prop where
  others : ∀ d, d ≠ c → t.ch d = s.ch d
  errs : (t.ch c).errs = (s.ch c).errs
  img : (t.ch c).img = (s.ch c).img
  regs : keepsRegs s t (fixFlds (Ch.num c))

theorem Noted.refl (s : State) (c : Ch) : Noted s s c := ⟨fun _ _ => rfl, rfl, rfl, keepsRegs_refl s _⟩

theorem Noted.trans (h : Noted s t c) (h' : Noted t u c) : Noted s u c :=
  ⟨fun d hd => (h'.others d hd).trans (h.others d hd), h'.errs.trans h.errs, h'.img.trans h.img, h.regs.trans h'.regs⟩

theorem Noted.wr (h : Noted s t c) {f : Fld} (hf : f ∈ fixFlds (Ch.num c)) (v : Nat) : Noted s (t.wr f v) c :=
  h.trans ⟨fun _ _ => rfl, rfl, rfl, keepsRegs_wr t hf v⟩

theorem Noted.modCh (h : Noted s t c) {f : Chan → Chan} (he : (f (t.ch c)).errs = (t.ch c).errs) (hi : (f (t.ch c)).img = (t.ch c).img) :
    Noted s (t.modCh c f) c :=
  h.trans ⟨fun d hd => State.ch_modCh_ne t f hd, by rw [State.ch_modCh_same, he], by rw [State.ch_modCh_same, hi], keepsRegs_of_eq rfl _⟩

theorem Noted.diag (h : Noted s t c) (sev src inst off : Nat) (l : List Nat) : Noted s (t.diag sev src inst off l) c := by
  have hchs : (t.diag sev src inst off l).chs = t.chs := by rw [diag_frame]
  have hch : ∀ d, (t.diag sev src inst off l).ch d = t.ch d := fun d => congrArg (Per3.get · d) hchs
  exact h.trans ⟨fun d _ => hch d, by rw [hch], by rw [hch], (keepsRegs_diag t sev src inst off l).mono fun _ hf => List.mem_append_right _ hf⟩

theorem miuErr_noted (s : State) (c : Ch) (kind cw synd bit : Nat) : Noted s (s.miuErr c kind cw synd bit) c :=
  (((((Noted.refl s c).wr (f := Reg.MIU_ERR_ADDR_KIND _) (by simp [fixFlds]) _).wr (f := Reg.MIU_ERR_ADDR_REGION _) (by simp [fixFlds]) _).wr
    (f := Reg.MIU_ERR_ADDR_CWADDR _) (by simp [fixFlds]) _).wr (f := Reg.MIU_ERR_SYND_SYND _) (by simp [fixFlds]) _).wr
    (f := Reg.MIU_ERR_SYND_BIT _) (by simp [fixFlds]) _

/-- What precedes the write-back of a correction. -/
def fixNoted (c : Ch) (cw bit : Nat) (s : State) : State :=
  let n := Ch.num c
  let e := FMap.get 0 (s.ch c).errs cw
  let s := s.miuErr c 2 cw (Hsiao.synd e) bit
  let s := s.modCh c fun h => { h with ceRows := if h.ceRows.contains cw then h.ceRows else h.ceRows ++ [cw] }
  if FMap.get 0 (s.ch c).weakRuns cw = 2 then
    ((s.inc (Reg.MIU_SPARE_WEAK n)).wrb (Reg.MIU_EVENT_WEAK_ROW n) true).diag 4 Src.chan n (0x301020 + n * 0x100000) [Miu.region cw, cw]
  else s

theorem fixNoted_noted (c : Ch) (cw bit : Nat) (s : State) : Noted s (fixNoted c cw bit s) c := by
  unfold fixNoted
  dsimp only
  have h := (miuErr_noted s c 2 cw (Hsiao.synd (FMap.get 0 (s.ch c).errs cw)) bit).modCh (f := fun h =>
    { h with ceRows := if h.ceRows.contains cw then h.ceRows else h.ceRows ++ [cw] }) rfl rfl
  split
  · exact ((h.wr (f := Reg.MIU_SPARE_WEAK _) (by simp [fixFlds]) _).wr (f := Reg.MIU_EVENT_WEAK_ROW _) (by simp [fixFlds]) _).diag _ _ _ _ _
  · exact h

/-- The count of a correction. -/
def fixCounted (c : Ch) (s : State) : State := (s.inc (Reg.MIU_CE_CE_SCRUB (Ch.num c))).wrb (Reg.MIU_EVENT_CE (Ch.num c)) true

theorem scrubCorrected_eq (s : State) (c : Ch) (cw bit : Nat) :
    s.scrubCorrected c cw bit = (fixNoted c cw bit (fixCounted c s)).writeBack c cw := rfl

theorem fixCounted_rd (s : State) (c : Ch) :
    (fixCounted c s).rd (Reg.MIU_CE_CE_SCRUB (Ch.num c)) = up s (Reg.MIU_CE_CE_SCRUB (Ch.num c)) ∧
      (fixCounted c s).rdb (Reg.MIU_EVENT_CE (Ch.num c)) = true := by
  have hne : (Reg.MIU_CE_CE_SCRUB (Ch.num c)).key ≠ (Reg.MIU_EVENT_CE (Ch.num c)).key := by cases c <;> decide
  exact ⟨(State.rd_wrb_ne _ _ _ _ hne).trans (rd_inc_up s _), State.rdb_wrb_same _ (by simp [Reg.MIU_EVENT_CE]) true⟩

theorem fixFlds_apart (c : Ch) : ∀ f ∈ fixFlds (Ch.num c), (Reg.MIU_CE_CE_SCRUB (Ch.num c)).key ≠ f.key ∧
    (Reg.MIU_EVENT_CE (Ch.num c)).key ≠ f.key := by cases c <;> decide

theorem slotDone_noted (c : Ch) (hi : Nat) (s : State) : Noted s (slotDone c hi s) c := by
  unfold slotDone State.endPass
  split
  · exact (((Noted.refl s c).wr (f := Reg.MIU_SCRUB_POS_NEXT _) (by simp [fixFlds]) _).wr (f := Reg.MIU_SCRUB_PASSES _) (by simp [fixFlds]) _).modCh
      rfl rfl
  · exact (Noted.refl s c).wr (f := Reg.MIU_SCRUB_POS_NEXT _) (by simp [fixFlds]) _

theorem writeBack_corrected {cw b : Nat} (hout : Hsiao.outcome (FMap.get 0 (s.ch c).errs cw) = .corrected b)
    (hres : Miu.residual (FMap.get 0 (s.ch c).errs cw) (.corrected b) = 0) : s.writeBack c cw = s.setErr c cw 0 := by
  unfold State.writeBack
  dsimp only
  rw [hout]
  dsimp only
  rw [hres, if_pos rfl]

theorem setErr_ch (s : State) (c : Ch) (cw : Nat) (e : BitVec 72) : ((s.setErr c cw e).ch c).errs = FMap.set 0 (s.ch c).errs cw e ∧
    ((s.setErr c cw e).ch c).img = (s.ch c).img := by
  unfold State.setErr
  rw [State.ch_modCh_same]
  exact ⟨rfl, rfl⟩

theorem scrubFixed_claim {cw b : Nat} (hi : Nat) (hmap : Miu.isMap (Miu.region cw) = true)
    (hout : Hsiao.outcome (FMap.get 0 (s.ch c).errs cw) = .corrected b)
    (hres : Miu.residual (FMap.get 0 (s.ch c).errs cw) (.corrected b) = 0) :
    let t := slotDone c hi ((slotBegun s c).scrubCw c cw)
    FMap.get 0 (t.ch c).errs cw = 0 ∧ (∀ k, k ≠ cw → FMap.get 0 (t.ch c).errs k = FMap.get 0 (s.ch c).errs k) ∧
      t.rd (Reg.MIU_CE_CE_SCRUB (Ch.num c)) = up s (Reg.MIU_CE_CE_SCRUB (Ch.num c)) ∧ t.rdb (Reg.MIU_EVENT_CE (Ch.num c)) = true ∧
      (t.ch c).img = (s.ch c).img ∧ ∀ d, d ≠ c → t.ch d = s.ch d := by
  have hfix : (slotBegun s c).scrubCw c cw = (fixNoted c cw b (fixCounted c (slotBegun s c))).writeBack c cw := by
    rw [← scrubCorrected_eq]
    unfold State.scrubCw
    dsimp only
    rw [if_pos hmap, show Hsiao.outcome (FMap.get 0 ((slotBegun s c).ch c).errs cw) = _ from hout]
  have hnoted : Noted (fixCounted c (slotBegun s c)) (fixNoted c cw b (fixCounted c (slotBegun s c))) c := fixNoted_noted c cw b _
  obtain ⟨hcount, hevent⟩ := fixCounted_rd (slotBegun s c) c
  have hne : (Reg.MIU_CE_CE_SCRUB (Ch.num c)).key ≠ (Reg.MIU_SCRUB_PACE (Ch.num c)).key := by cases c <;> decide
  have hup : up (slotBegun s c) (Reg.MIU_CE_CE_SCRUB (Ch.num c)) = up s (Reg.MIU_CE_CE_SCRUB (Ch.num c)) :=
    congrArg (fun k => min _ (k + 1)) (State.rd_wr_ne s _ _ _ hne)
  have hch : ∀ d, (fixCounted c (slotBegun s c)).ch d = s.ch d := fun _ => rfl
  intro t
  have ht : t = slotDone c hi ((slotBegun s c).scrubCw c cw) := rfl
  rw [hfix] at ht
  generalize fixNoted c cw b (fixCounted c (slotBegun s c)) = v at hnoted ht
  generalize fixCounted c (slotBegun s c) = w at hnoted hcount hevent hch
  have herrs : (v.ch c).errs = (s.ch c).errs := by rw [hnoted.errs, hch]
  rw [writeBack_corrected (by rw [herrs, hout]) (by rw [herrs, hres])] at ht
  have hdone := slotDone_noted c hi (v.setErr c cw 0)
  rw [← ht] at hdone
  obtain ⟨hseterrs, hsetimg⟩ := setErr_ch v c cw 0
  have hkeep {g : Fld} (hg : ∀ f ∈ fixFlds (Ch.num c), g.key ≠ f.key) : t.rd g = w.rd g :=
    (hdone.regs g hg).trans (hnoted.regs g hg)
  refine ⟨?_, fun k hk => ?_, ?_, ?_, ?_, fun d hd => ?_⟩
  · rw [hdone.errs, hseterrs]
    exact FMap.get_set_same _ _ _ _
  · rw [hdone.errs, hseterrs, ← herrs]
    exact FMap.get_set_ne _ _ _ hk
  · rw [hkeep fun f hf => (fixFlds_apart c f hf).1, hcount, hup]
  · rw [rdb_of_rd (hkeep fun f hf => (fixFlds_apart c f hf).2), hevent]
  · rw [hdone.img, hsetimg, hnoted.img, hch]
  · rw [hdone.others d hd, show (v.setErr c cw 0).ch d = v.ch d from State.ch_modCh_ne v _ hd, hnoted.others d hd, hch]

theorem scrubSlots_holds : scrubSlots := by
  intro c s hboot hrun hup hwbq
  refine ⟨fun hbad => ⟨fun hi => ?_, fun hi => ?_⟩, fun cw b hbad hmap hout hres => ?_⟩
  · obtain ⟨hregs, hframe⟩ := scrubClean_claim (s := s) (c := c) hi
    exact ⟨_, scrubSlot_exec hboot hrun hup hwbq hbad, hregs, hframe⟩
  · obtain ⟨hregs, hrows, hframe⟩ := scrubPass_claim (s := s) (c := c) hi
    exact ⟨_, scrubSlot_exec hboot hrun hup hwbq hbad, hregs, hrows, hframe⟩
  · exact ⟨_, scrubSlot_exec hboot hrun hup hwbq hbad, scrubFixed_claim (slotEnd s c) hmap hout hres⟩

/-- Settles O44: a reading of the switches and the hour write what they report alone, and a slot is the check of its bad codewords
between the registers' marks. -/
theorem switchesProofAgeAndScrubbing : Obligations.SwitchesProofAgeAndScrubbing :=
  ⟨fun s => ⟨fun r => switchReread_claim s r, fun hup => proofHour_claim hup⟩, scrubSlots_holds⟩

end Sys2Proof.Claims
end

section
/-! Signature records and verdicts (O41). -/

namespace Sys2Proof.Claims

open Sys2Proof Sys2Proof.Machine

variable {s t u : State} {n : Nat} {c : Ch}

/-! ### A record received (R173) -/

theorem num_ne {c d : Ch} (h : c ≠ d) : Ch.num c ≠ Ch.num d := by
  revert h
  cases c <;> cases d <;> decide

theorem signatureRecord_claim {rx tx : Ch} {x : SigRec} (hload : s.md.loadDone = true) (hopen : s.md.decided = false) (hdue : s.md.sigDue = false)
    (hne : rx ≠ tx) (hrx : s.exchanging rx = true) (hcrc : x.crcOk = true) (hfrom : x.sender = tx) (hcyc : x.k16.toNat = s.progCyc % 65536) :
    ∃ t, exec (.signatureRecord rx tx x) s = .next t ∧ FMap.get none (t.ch rx).sigRecs (Ch.num tx) = some x ∧
      (∀ k, k ≠ Ch.num tx → FMap.get none (t.ch rx).sigRecs k = FMap.get none (s.ch rx).sigRecs k) ∧
      onlyCh s t rx fun h => { h with sigRecs := (t.ch rx).sigRecs } := by
  have hx : exec (.signatureRecord rx tx x) s = execSignatureRecord rx tx x s := by rfl
  rw [hx, execSignatureRecord, if_pos (by simp [hload, hdue, hopen, hne, hrx, hcrc, hfrom, hcyc])]
  refine ⟨_, rfl, ?_, fun k hk => ?_, ?_, fun d hd => State.ch_modCh_ne s _ hd, rfl⟩
  · rw [State.ch_modCh_same]
    change FMap.get none (FMap.set none (s.ch rx).sigRecs (Ch.num tx) (some x)) _ = _
    rw [FMap.get_set_same]
  · rw [State.ch_modCh_same]
    change FMap.get none (FMap.set none (s.ch rx).sigRecs (Ch.num tx) (some x)) k = _
    rw [FMap.get_set_ne none _ _ hk]
  · rw [State.ch_modCh_same]

theorem signatureRecord_bad (rx tx : Ch) {x : SigRec} (hcrc : x.crcOk = false) : exec (.signatureRecord rx tx x) s = .next s := by
  have hx : exec (.signatureRecord rx tx x) s = execSignatureRecord rx tx x s := by rfl
  rw [hx, execSignatureRecord, hcrc]
  simp

/-! ### The verdict by the signatures (Table 6-5) -/

section
variable {sig : Ch → Option Word64} {cs : List Ch}

theorem verdictBy_none (hc : c ∈ cs) (h : ∃ x ∈ cs, sig x = none) : verdictBy sig c cs = 5 := by
  obtain ⟨x, hx, hnone⟩ := h
  unfold verdictBy
  rw [if_neg (by simpa using hc), if_pos (List.any_eq_true.mpr ⟨x, hx, by rw [hnone]; rfl⟩)]

theorem verdictBy_agree (hc : c ∈ cs) {v : Word64} (h : ∀ x ∈ cs, sig x = some v) : verdictBy sig c cs = 0 := by
  unfold verdictBy
  rw [if_neg (by simpa using hc), if_neg, if_pos]
  · exact List.all_eq_true.mpr fun x hx => by rw [h x hx, h c hc]; simp
  · rw [Bool.not_eq_true, List.any_eq_false]
    exact fun x hx => by rw [h x hx]; simp

/-- The odd channel of three, and 4 where there is none. -/
def oddOne (sig : Ch → Option Word64) (cs : List Ch) : Nat :=
  match cs with
  | [a, b, d] =>
    if sig b = sig d then 1 + Ch.num a else if sig a = sig d then 1 + Ch.num b else if sig a = sig b then 1 + Ch.num d else 4
  | _ => 4

/-- Where every signature is there and two differ, the verdict is that of the odd one or 4. -/
theorem verdictBy_differ (hc : c ∈ cs) (hall : ∀ x ∈ cs, (sig x).isSome = true) {x y : Ch} (hx : x ∈ cs) (hy : y ∈ cs) (hne : sig x ≠ sig y) :
    verdictBy sig c cs = oddOne sig cs := by
  unfold verdictBy
  rw [if_neg (by simpa using hc), if_neg, if_neg]
  · rfl
  · intro h
    have h := List.all_eq_true.mp h
    have hxc := of_decide_eq_true (h x hx)
    have hyc := of_decide_eq_true (h y hy)
    exact hne (hxc.trans hyc.symm)
  · rw [Bool.not_eq_true, List.any_eq_false]
    intro x hx
    have := hall x hx
    rw [Option.isNone_iff_eq_none]
    intro hnone
    rw [hnone] at this
    exact absurd this (by decide)

/-- Three distinct channels are all there are. -/
theorem three_channels {x y z : Ch} (hxy : x ≠ y) (hyz : y ≠ z) (hxz : x ≠ z) (d : Ch) : d = x ∨ d = y ∨ d = z := by
  revert hxy hyz hxz
  cases x <;> cases y <;> cases z <;> cases d <;> decide

theorem isSome_of_three {x y z : Ch} (hxy : x ≠ y) (hyz : y ≠ z) (hxz : x ≠ z) {u v w : Word64} (hx : sig x = some u) (hy : sig y = some v)
    (hz : sig z = some w) (d : Ch) : (sig d).isSome = true := by
  rcases three_channels hxy hyz hxz d with rfl | rfl | rfl <;> simp_all

theorem verdictBy_odd {x y z : Ch} (hxy : x ≠ y) (hyz : y ≠ z) (hxz : x ≠ z) {v w : Word64} (hvw : v ≠ w) (hx : sig x = some v)
    (hy : sig y = some v) (hz : sig z = some w) : verdictBy sig c Ch.all = 1 + Ch.num z := by
  have hall := isSome_of_three hxy hyz hxz hx hy hz
  have hne : sig x ≠ sig z := by rw [hx, hz]; simpa using hvw
  rw [verdictBy_differ (mem_chAll c) (fun d _ => hall d) (mem_chAll x) (mem_chAll z) hne]
  change (if sig .chB = sig .chC then 1 + Ch.num .chA else if sig .chA = sig .chC then 1 + Ch.num .chB
    else if sig .chA = sig .chB then 1 + Ch.num .chC else 4) = _
  have hwv := hvw.symm
  revert hxy hyz hxz
  cases x <;> cases y <;> cases z <;> simp [hx, hy, hz, hvw, hwv, Ch.num]

theorem verdictBy_apart {x y z : Ch} (hxy : x ≠ y) (hyz : y ≠ z) (hxz : x ≠ z) {u v w : Word64} (huv : u ≠ v) (hvw : v ≠ w) (huw : u ≠ w)
    (hx : sig x = some u) (hy : sig y = some v) (hz : sig z = some w) : verdictBy sig c Ch.all = 4 := by
  have hall := isSome_of_three hxy hyz hxz hx hy hz
  have hne : sig x ≠ sig z := by rw [hx, hz]; simpa using huw
  rw [verdictBy_differ (mem_chAll c) (fun d _ => hall d) (mem_chAll x) (mem_chAll z) hne]
  change (if sig .chB = sig .chC then 1 + Ch.num .chA else if sig .chA = sig .chC then 1 + Ch.num .chB
    else if sig .chA = sig .chB then 1 + Ch.num .chC else 4) = _
  have hvu := huv.symm
  have hwv := hvw.symm
  have hwu := huw.symm
  revert hxy hyz hxz
  cases x <;> cases y <;> cases z <;> simp [hx, hy, hz, huv, hvw, huw, hvu, hwv, hwu]

theorem verdictBy_two {x y : Ch} (hc : c ∈ [x, y]) {v w : Word64} (hvw : v ≠ w) (hx : sig x = some v) (hy : sig y = some w) :
    verdictBy sig c [x, y] = 4 := by
  have hne : sig x ≠ sig y := by rw [hx, hy]; simpa using hvw
  refine verdictBy_differ hc (fun d hd => ?_) (by simp) (by simp) hne
  simp only [List.mem_cons, List.not_mem_nil, or_false] at hd
  rcases hd with rfl | rfl
  · rw [hx]
    rfl
  · rw [hy]
    rfl

end

/-- A list of channels in order that holds three is all of them. -/
theorem filter_all_of_three {p : Ch → Bool} {x y z : Ch} (hxy : x ≠ y) (hyz : y ≠ z) (hxz : x ≠ z) (hx : p x = true) (hy : p y = true)
    (hz : p z = true) : Ch.all.filter p = Ch.all := by
  refine List.filter_eq_self.mpr fun d _ => ?_
  rcases three_channels hxy hyz hxz d with rfl | rfl | rfl
  · exact hx
  · exact hy
  · exact hz

theorem inCmp_eq (s : State) : s.inCmp = Ch.all.filter fun c => !(s.ch c).ovr && (s.inVote c || s.md.exclReq.contains (c, 0x0B)) := by
  unfold State.inCmp State.compared
  rw [List.filter_filter]

theorem inCmp_all {x y z : Ch} (hxy : x ≠ y) (hyz : y ≠ z) (hxz : x ≠ z) (hx : x ∈ s.inCmp) (hy : y ∈ s.inCmp) (hz : z ∈ s.inCmp) :
    s.inCmp = Ch.all := by
  rw [inCmp_eq] at hx hy hz ⊢
  exact filter_all_of_three hxy hyz hxz (mem_chans.1 hx) (mem_chans.1 hy) (mem_chans.1 hz)

/-! ### The due time of the records (R174, R184) -/

/-- The kept cycles take the accumulator of a channel in the vote. -/
def keptAcc (c : Ch) (s : State) : State :=
  match (s.voters.filterMap fun v => FMap.get none (s.ch c).sigRecs (Ch.num v)).head? with
  | some r => s.modCh c fun h => { h with kept := h.kept.map fun x => if x.k = s.progCyc then { x with acc := some r.acc } else x }
  | none => s

/-- Nothing but kept cycles differs. -/
structure KeptOnly (s t : State) : Prop where
  frame : t = { s with chs := t.chs }
  ch : ∀ d, t.ch d = { s.ch d with kept := (t.ch d).kept }

theorem KeptOnly.refl (s : State) : KeptOnly s s := ⟨rfl, fun _ => rfl⟩

theorem KeptOnly.trans (h : KeptOnly s t) (h' : KeptOnly t u) : KeptOnly s u := ⟨by rw [h'.frame, h.frame], fun d => by rw [h'.ch d, h.ch d]⟩

theorem keptAcc_only (c : Ch) (s : State) : KeptOnly s (keptAcc c s) := by
  unfold keptAcc
  split
  · refine ⟨rfl, fun d => ?_⟩
    by_cases hd : d = c
    · subst hd
      rw [State.ch_modCh_same]
    · rw [State.ch_modCh_ne s _ hd]
  · exact KeptOnly.refl s

theorem KeptOnly.md (h : KeptOnly s t) : t.md = s.md := by rw [h.frame]
theorem KeptOnly.regs (h : KeptOnly s t) : t.regs = s.regs := by rw [h.frame]
theorem KeptOnly.sio (h : KeptOnly s t) : t.sio = s.sio := by rw [h.frame]

/-- What the comparators read of a channel: its state, its overrun, its controller and its records. -/
theorem KeptOnly.reads (h : KeptOnly s t) (d : Ch) : (t.ch d).st = (s.ch d).st ∧ (t.ch d).ovr = (s.ch d).ovr ∧
    (t.ch d).ccuStop = (s.ch d).ccuStop ∧ (t.ch d).sigRecs = (s.ch d).sigRecs := by
  rw [h.ch d]
  exact ⟨rfl, rfl, rfl, rfl⟩

/-- What the comparators read is the same. -/
structure SameSigs (s t : State) : Prop where
  st : ∀ d, (t.ch d).st = (s.ch d).st
  ovr : ∀ d, (t.ch d).ovr = (s.ch d).ovr
  ccuStop : ∀ d, (t.ch d).ccuStop = (s.ch d).ccuStop
  sigRecs : ∀ d, (t.ch d).sigRecs = (s.ch d).sigRecs
  exclReq : t.md.exclReq = s.md.exclReq
  cells : t.sio.cells = s.sio.cells

theorem SameSigs.trans (h : SameSigs s t) (h' : SameSigs t u) : SameSigs s u :=
  ⟨fun d => (h'.st d).trans (h.st d), fun d => (h'.ovr d).trans (h.ovr d), fun d => (h'.ccuStop d).trans (h.ccuStop d),
    fun d => (h'.sigRecs d).trans (h.sigRecs d), h'.exclReq.trans h.exclReq, h'.cells.trans h.cells⟩

theorem SameSigs.inCmp (h : SameSigs s t) : t.inCmp = s.inCmp := by
  rw [inCmp_eq, inCmp_eq]
  refine List.filter_congr fun d _ => ?_
  unfold State.inVote
  rw [h.ovr, h.st, h.exclReq]

theorem SameSigs.booted (h : SameSigs s t) (c : Ch) : t.booted c = s.booted c := by
  unfold State.booted
  rw [h.st]

theorem SameSigs.exchanging (h : SameSigs s t) (c : Ch) : t.exchanging c = s.exchanging c := by
  unfold State.exchanging
  rw [h.booted, h.ccuStop]

theorem SameSigs.ownSig (h : SameSigs s t) (c : Ch) : t.ownSig c = s.ownSig c := by
  unfold State.ownSig
  rw [h.sigRecs]

theorem SameSigs.sigAt (h : SameSigs s t) (rx tx : Ch) : t.sigAt rx tx = s.sigAt rx tx := by
  unfold State.sigAt
  rw [h.sigRecs]

theorem SameSigs.compares (h : SameSigs s t) : t.compares = s.compares := by
  unfold State.compares
  rw [h.inCmp]
  congr 1
  funext c
  rw [h.ownSig]

theorem SameSigs.verdictOf (h : SameSigs s t) (c : Ch) (cs : List Ch) : t.verdictOf c cs = s.verdictOf c cs := by
  unfold State.verdictOf
  rw [h.cells]
  congr 1
  funext x
  exact h.sigAt c x

theorem KeptOnly.sameSigs (h : KeptOnly s t) : SameSigs s t :=
  ⟨fun d => (h.reads d).1, fun d => (h.reads d).2.1, fun d => (h.reads d).2.2.1, fun d => (h.reads d).2.2.2, by rw [h.md], by rw [h.sio]⟩

/-- A channel forms its verdict. -/
def judge (cs : List Ch) (c : Ch) (s : State) : State := s.modCh c fun h => { h with verdict := some (s.verdictOf c cs) }

theorem judge_sigs (cs : List Ch) (c : Ch) (s : State) : SameSigs s (judge cs c s) := by
  have hch : ∀ d, (judge cs c s).ch d = { s.ch d with verdict := ((judge cs c s).ch d).verdict } := by
    intro d
    unfold judge
    by_cases hd : d = c
    · subst hd
      rw [State.ch_modCh_same]
    · rw [State.ch_modCh_ne s _ hd]
  exact ⟨fun d => by rw [hch d], fun d => by rw [hch d], fun d => by rw [hch d], fun d => by rw [hch d], rfl, rfl⟩

theorem judge_frame (cs : List Ch) (c : Ch) (s : State) : judge cs c s = { s with chs := (judge cs c s).chs } := rfl

/-- The verdicts after each channel that compares has formed its own. -/
theorem judged_verdict (cs ends : List Ch) (hends : ends.Nodup) (s : State) (hc : c ∈ ends) :
    ((foldSt ends (judge cs) s).ch c).verdict = some (s.verdictOf c cs) := by
  induction ends generalizing s with
  | nil => exact absurd hc List.not_mem_nil
  | cons d l ih =>
    obtain ⟨hd, hl⟩ := List.nodup_cons.1 hends
    change ((foldSt l (judge cs) (judge cs d s)).ch c).verdict = _
    rcases List.mem_cons.1 hc with rfl | hcl
    · refine (foldSt_inv (P := fun u => (u.ch c).verdict = some (s.verdictOf c cs)) (fun x hx u hu => ?_) ?_)
      · have hne : c ≠ x := fun h => hd (h ▸ hx)
        rw [judge, State.ch_modCh_ne u _ hne]
        exact hu
      · rw [judge, State.ch_modCh_same]
    · rw [ih hl _ hcl, (judge_sigs cs d s).verdictOf]

theorem judged_frame (cs ends : List Ch) (s : State) : foldSt ends (judge cs) s = { s with chs := (foldSt ends (judge cs) s).chs } :=
  foldSt_inv (P := fun u => u = { s with chs := u.chs }) (fun c _ u hu => by
    rw [judge_frame]
    exact congrArg (fun v : State => { v with chs := (judge cs c u).chs }) hu) rfl

/-- The channels that compare. -/
def compareEnds (s : State) : List Ch := s.inCmp.filter fun c => s.exchanging c && (s.ownSig c).isSome

/-- The state in which the channels compare. -/
def sigTaken (s : State) : State :=
  let s := s.modMd fun x => { x with sigDue := true }
  foldSt (Ch.all.filter s.keeps) keptAcc s

theorem sigTaken_kept (s : State) : KeptOnly (s.modMd fun x => { x with sigDue := true }) (sigTaken s) :=
  foldSt_inv (P := KeptOnly (s.modMd fun x => { x with sigDue := true })) (fun c _ u hu => hu.trans (keptAcc_only c u)) (KeptOnly.refl _)

theorem sigTaken_sigs (s : State) : SameSigs s (sigTaken s) :=
  have h := (sigTaken_kept s).sameSigs
  ⟨h.st, h.ovr, h.ccuStop, h.sigRecs, h.exclReq, h.cells⟩

/-- The channels whose record a channel that compares misses. -/
def absentAt (s : State) (ends : List Ch) : List Ch :=
  s.inCmp.filter fun x => ends.any fun c => c ≠ x && (FMap.get none (s.ch c).sigRecs (Ch.num x)).isNone

theorem signatureRecordDue_eq (s : State) : execSignatureRecordDue s =
    .next (if !s.md.loadDone || s.md.halted || s.md.decided then s
      else if !(sigTaken s).compares then sigTaken s
      else
        let ends := s.inCmp.filter fun c => (sigTaken s).exchanging c && ((sigTaken s).ownSig c).isSome
        (foldSt ends (judge s.inCmp) (sigTaken s)).wr Reg.VOT_SIG_STATUS_ABSENT
          (Ch.mask (s.inCmp.filter fun x => ends.any fun c => c ≠ x && (FMap.get none ((sigTaken s).ch c).sigRecs (Ch.num x)).isNone))) := by
  rfl

theorem signatureRecordDue_exec (hload : s.md.loadDone = true) (hrun : s.md.halted = false) (hopen : s.md.decided = false)
    (hcmp : s.compares = true) : exec .signatureRecordDue s = .next
      ((foldSt (compareEnds s) (judge s.inCmp) (sigTaken s)).wr Reg.VOT_SIG_STATUS_ABSENT (Ch.mask (absentAt s (compareEnds s)))) := by
  have hx : exec .signatureRecordDue s = execSignatureRecordDue s := by rfl
  have hsame := sigTaken_sigs s
  have hends : (s.inCmp.filter fun c => (sigTaken s).exchanging c && ((sigTaken s).ownSig c).isSome) = compareEnds s :=
    List.filter_congr fun c _ => by rw [hsame.exchanging, hsame.ownSig]
  rw [hx, signatureRecordDue_eq, if_neg (by rw [hload, hrun, hopen]; decide), if_neg (by rw [hsame.compares, hcmp]; decide), hends]
  unfold absentAt
  simp only [hsame.sigRecs]

theorem compareEnds_nodup (s : State) : (compareEnds s).Nodup := by
  unfold compareEnds
  rw [inCmp_eq]
  exact (nodup_chans _).filter _

theorem signatureRecordDue_claim (hload : s.md.loadDone = true) (hrun : s.md.halted = false) (hopen : s.md.decided = false)
    (hcmp : s.compares = true) : ∃ t, exec .signatureRecordDue s = .next t ∧ t.md = { s.md with sigDue := true } ∧
      keepsRegs s t [Reg.VOT_SIG_STATUS_ABSENT] ∧
      ∀ c ∈ s.inCmp, s.exchanging c = true → (s.ownSig c).isSome = true → (t.ch c).verdict = some (s.verdictOf c s.inCmp) := by
  have hexec := signatureRecordDue_exec hload hrun hopen hcmp
  have hframe := judged_frame s.inCmp (compareEnds s) (sigTaken s)
  have hkept := sigTaken_kept s
  refine ⟨_, hexec, ?_, ?_, fun c hc hex hsig => ?_⟩
  · change (foldSt (compareEnds s) (judge s.inCmp) (sigTaken s)).md = _
    rw [hframe]
    exact hkept.md
  · refine keepsRegs.trans (keepsRegs_of_eq ?_ _) (keepsRegs_wr _ List.mem_cons_self _)
    rw [hframe]
    exact hkept.regs
  · have hmem : c ∈ compareEnds s := List.mem_filter.2 ⟨hc, by rw [hex, hsig]; rfl⟩
    have h := judged_verdict s.inCmp (compareEnds s) (compareEnds_nodup s) (sigTaken s) hmem
    rw [(sigTaken_sigs s).verdictOf] at h
    exact h

theorem verdictOf_stuck {v : Nat} (h : (s.sio.cells.get c).verd = some v) (cs : List Ch) : s.verdictOf c cs = v := by
  unfold State.verdictOf Cells.verdict
  rw [h]
  rfl

theorem verdictOf_sound (h : (s.sio.cells.get c).verd = none) (cs : List Ch) : s.verdictOf c cs = verdictBy (fun x => s.sigAt c x) c cs := by
  unfold State.verdictOf Cells.verdict
  rw [h]
  rfl

/-- Settles O41: a record is kept where it meets the conditions of R173; the kept cycles that the due time writes are no part of what the
comparators read, so each channel's verdict is that of Table 6-5 on the state before. -/
theorem signaturesAndVerdicts : Obligations.SignaturesAndVerdicts := by
  intro s hload hopen
  refine ⟨fun rx tx x hdue hne hrx hcrc hfrom hcyc => signatureRecord_claim hload hopen hdue hne hrx hcrc hfrom hcyc,
    fun rx tx x hcrc => signatureRecord_bad rx tx hcrc, fun hrun hcmp => ?_⟩
  obtain ⟨t, hexec, hmd, hregs, hverdict⟩ := signatureRecordDue_claim hload hrun hopen hcmp
  refine ⟨t, hexec, hmd, hregs, fun c hc hex hsig => ?_⟩
  rw [hverdict c hc hex hsig]
  refine ⟨fun v hstuck => by rw [verdictOf_stuck hstuck], fun hsound => ?_⟩
  rw [verdictOf_sound hsound]
  refine ⟨fun h => by rw [verdictBy_none hc h], fun v h => by rw [verdictBy_agree hc h], ?_, ?_, ?_⟩
  · intro x y z v w hxy hyz hxz hx hy hz hvw hsx hsy hsz
    rw [inCmp_all hxy hyz hxz hx hy hz, verdictBy_odd hxy hyz hxz hvw hsx hsy hsz]
  · intro x y z u v w hxy hyz hxz hx hy hz huv hvw huw hsx hsy hsz
    rw [inCmp_all hxy hyz hxz hx hy hz, verdictBy_apart hxy hyz hxz huv hvw huw hsx hsy hsz]
  · intro x y v w htwo hvw hsx hsy
    rw [htwo] at hc ⊢
    rw [verdictBy_two hc hvw hsx hsy]

end Sys2Proof.Claims
end

section
/-! The decision of a comparison and the assertions (O42). -/

namespace Sys2Proof.Claims

open Sys2Proof Sys2Proof.Machine

variable {s t u v : State} {n : Nat} {c : Ch}

/-! ### What the cells make of a decision -/

theorem cellsIn_length (s : State) : (s.cellsIn.map fun c => some ((s.sio.cells.get c).decision d)).length ≤ 3 := by
  rw [List.length_map]
  exact (List.length_filter_le _ _).trans (by decide)

theorem sound_decision {x : Cells} (h : x.dec = none) (d : Decision) : x.decision d = d := by
  unfold Cells.decision
  rw [h]
  rfl

/-- Two sound cells of the majority decide. -/
theorem cellDecision_sound (h : ∃ a ∈ s.cellsIn, ∃ b ∈ s.cellsIn, a ≠ b ∧ (s.sio.cells.get a).dec = none ∧ (s.sio.cells.get b).dec = none)
    (d : Decision) : s.cellDecision d = d := by
  obtain ⟨a, ha, b, hb, hne, hda, hdb⟩ := h
  have hcount : 2 ≤ ((s.cellsIn.map fun c => some ((s.sio.cells.get c).decision d)).filter (· = some d)).length := by
    rw [List.filter_map, List.length_map]
    refine two_le_length (List.mem_filter.2 ⟨ha, ?_⟩) (List.mem_filter.2 ⟨hb, ?_⟩) hne
    · simp [sound_decision hda]
    · simp [sound_decision hdb]
  unfold State.cellDecision
  rw [majority_of_two hcount (cellsIn_length s)]
  rfl

/-! ### The decision of three (R175) -/

/-- Two channels whose verdict is `k` decide, where it is not NONE. -/
theorem decideThree_two {verd : Ch → Nat} {x y : Ch} (hne : x ≠ y) {k : Nat} (hk : k ≠ 5) (hx : verd x = k) (hy : verd y = k) :
    decideThree (Ch.all.map fun c => (c, verd c)) = decideBy k (Ch.all.map fun c => (c, verd c)) := by
  have hcount : 2 ≤ (((((Ch.all.map fun c => (c, verd c)).map (·.2)).filter (· ≠ 5)).map some).filter (· = some k)).length := by
    rw [List.map_map, List.filter_map, List.length_map, List.filter_map, List.filter_map, List.length_map, List.filter_filter]
    refine two_le_length (x := x) (y := y) (List.mem_filter.2 ⟨mem_chAll x, ?_⟩) (List.mem_filter.2 ⟨mem_chAll y, ?_⟩) hne
    · simp [hx, hk]
    · simp [hy, hk]
  have hlen : ((((Ch.all.map fun c => (c, verd c)).map (·.2)).filter (· ≠ 5)).map some).length ≤ 3 := by
    rw [List.length_map]
    exact (List.length_filter_le _ _).trans (by simp [Ch.all])
  unfold decideThree
  dsimp only
  rw [majority_of_two hcount hlen]

/-- The channels that an agreement of two excludes. -/
theorem odd_of_agreement {verd : Ch → Nat} {x y z : Ch} (hxy : x ≠ y) (hyz : y ≠ z) (hxz : x ≠ z) (hx : verd x = 0) (hy : verd y = 0) :
    ((Ch.all.map fun c => (c, verd c)).filter fun e => e.2 ≠ 0 && e.2 ≠ 5).map (·.1) =
      if verd z = 0 ∨ verd z = 5 then [] else [z] := by
  have hall : ((Ch.all.map fun c => (c, verd c)).filter fun e => e.2 ≠ 0 && e.2 ≠ 5).map (·.1) =
      Ch.all.filter fun c => verd c ≠ 0 && verd c ≠ 5 := by
    rw [List.filter_map, List.map_map]
    exact List.map_id _
  rw [hall]
  by_cases hz : verd z = 0 ∨ verd z = 5
  · rw [if_pos hz]
    refine List.filter_eq_nil_iff.mpr fun d _ => ?_
    rcases three_channels hxy hyz hxz d with rfl | rfl | rfl
    · simp [hx]
    · simp [hy]
    · rcases hz with hz | hz <;> simp [hz]
  · rw [if_neg hz]
    obtain ⟨h0, h5⟩ := not_or.1 hz
    revert hxy hyz hxz
    cases x <;> cases y <;> cases z <;> simp [Ch.all, List.filter, hx, hy, h0, h5]

theorem at_num (c : Ch) : Ch.at (Ch.num c) = c := by cases c <;> rfl

/-- The decision over three channels none of which is absent at both others. -/
theorem decideOn_three (verd : Ch → Nat) (streak : Nat) : decideOn (Ch.all.map fun c => (c, verd c)) [] streak =
    decideThree (Ch.all.map fun c => (c, verd c)) := rfl

/-! ### The comparison in the registers (R206) -/

/-- The code of a decision and the channels it excludes. -/
def decisionShown : Decision → Nat × List Ch
  | .nothing => (0, [])
  | .excl l => (1, l)
  | .safe => (2, [])

/-- The fields that a comparison writes after its number. -/
def comparedFlds : List Fld :=
  [Reg.VOT_SIG_STATUS_VERD_A, Reg.VOT_SIG_STATUS_VERD_B, Reg.VOT_SIG_STATUS_VERD_C, Reg.VOT_SIG_CYCLE_CYCLE,
    Reg.VOT_SIG_LO_SIG_LO 0, Reg.VOT_SIG_LO_SIG_LO 1, Reg.VOT_SIG_LO_SIG_LO 2, Reg.VOT_SIG_HI_SIG_HI 0, Reg.VOT_SIG_HI_SIG_HI 1,
    Reg.VOT_SIG_HI_SIG_HI 2, Reg.VOT_ODD_COUNT_ODD_A, Reg.VOT_ODD_COUNT_ODD_B, Reg.VOT_ODD_COUNT_ODD_C, Reg.VOT_ODD_COUNT_SAFE_COUNT]

/-- The number, the channels compared, the exclusions and the decision in their registers. -/
def decisionRegs (cs : List Ch) (d : Decision) (s : State) : State :=
  (((s.incWrap Reg.VOT_SIG_STATUS_SEQ).wr Reg.VOT_SIG_STATUS_IN_CMP (Ch.mask cs)).wr Reg.VOT_SIG_STATUS_EXCL
    (Ch.mask (decisionShown d).2)).wr Reg.VOT_SIG_STATUS_DECISION (decisionShown d).1

/-- The signature of a channel in its registers. -/
def signatureRegs (c : Ch) (s : State) : State :=
  match s.ownSig c with
  | some r => (s.wr (Reg.VOT_SIG_LO_SIG_LO (Ch.num c)) r.acc.toNat).wr (Reg.VOT_SIG_HI_SIG_HI (Ch.num c)) (r.acc.toNat / 2 ^ 32)
  | none => s

theorem signatureRegs_op (c : Ch) (s : State) : RegOp s (signatureRegs c s) comparedFlds := by
  unfold signatureRegs
  split
  · exact ((RegOp.refl s _).wr (f := Reg.VOT_SIG_LO_SIG_LO (Ch.num c)) (by cases c <;> decide) _).wr
      (f := Reg.VOT_SIG_HI_SIG_HI (Ch.num c)) (by cases c <;> decide) _
  · exact RegOp.refl s _

/-- The verdicts, the cycle, the signatures and the exclusions counted in their registers. -/
def comparedRegs (verd : Ch → Nat) (cyc : State → Nat) (cs ex : List Ch) (s : State) : State :=
  let s := ((s.wr Reg.VOT_SIG_STATUS_VERD_A (verd .chA)).wr Reg.VOT_SIG_STATUS_VERD_B (verd .chB)).wr Reg.VOT_SIG_STATUS_VERD_C (verd .chC)
  let s := s.wr Reg.VOT_SIG_CYCLE_CYCLE (cyc s)
  foldSt ex (fun c s => s.inc (oddCount c)) (foldSt cs signatureRegs s)

theorem comparedRegs_op (verd : Ch → Nat) (cyc : State → Nat) (cs ex : List Ch) (s : State) :
    RegOp s (comparedRegs verd cyc cs ex s) comparedFlds := by
  have hodd : ∀ c : Ch, oddCount c ∈ comparedFlds := by
    intro c
    cases c <;> decide
  unfold comparedRegs
  refine RegOp.trans (RegOp.trans ?_ (RegOp.foldSt (fun c _ s => signatureRegs_op c s) _))
    (RegOp.foldSt (fun c _ s => (RegOp.refl s _).inc (hodd c)) _)
  exact ((((RegOp.refl s comparedFlds).wr (f := Reg.VOT_SIG_STATUS_VERD_A) (by decide) _).wr (f := Reg.VOT_SIG_STATUS_VERD_B) (by decide) _).wr
    (f := Reg.VOT_SIG_STATUS_VERD_C) (by decide) _).wr (f := Reg.VOT_SIG_CYCLE_CYCLE) (by decide) _

theorem sigRegs_eq (s : State) (cs : List Ch) (d : Decision) : s.sigRegs cs d =
    (let t := comparedRegs (fun c => if cs.contains c then s.verdictIn c else 6) State.progCyc cs (decisionShown d).2 (decisionRegs cs d s)
    if d = .safe then t.inc Reg.VOT_ODD_COUNT_SAFE_COUNT else t) := by
  cases d <;> rfl

theorem sigRegs_op (s : State) (cs : List Ch) (d : Decision) : RegOp (decisionRegs cs d s) (s.sigRegs cs d) comparedFlds := by
  have h := comparedRegs_op (fun c => if cs.contains c then s.verdictIn c else 6) State.progCyc cs (decisionShown d).2 (decisionRegs cs d s)
  rw [sigRegs_eq]
  exact (h.inc (f := Reg.VOT_ODD_COUNT_SAFE_COUNT) (by decide)).ite h

theorem mask_lt (l : List Ch) : Ch.mask l < 8 := by
  unfold Ch.mask bitNat
  split_ifs <;> omega

theorem decisionShown_lt (d : Decision) : (decisionShown d).1 < 8 := by
  cases d
  · exact (by decide : 0 < 8)
  · exact (by decide : 1 < 8)
  · exact (by decide : 2 < 8)

/-- What the registers show of a decision. -/
structure Shows (s t : State) (d : Decision) : Prop where
  decision : t.rd Reg.VOT_SIG_STATUS_DECISION = (decisionShown d).1
  excl : t.rd Reg.VOT_SIG_STATUS_EXCL = Ch.mask (decisionShown d).2
  seq : t.rd Reg.VOT_SIG_STATUS_SEQ = (s.rd Reg.VOT_SIG_STATUS_SEQ + 1) % 256

theorem decisionRegs_shows (cs : List Ch) (d : Decision) (s : State) : Shows s (decisionRegs cs d s) d := by
  refine ⟨State.rd_wr_of_lt _ (f := Reg.VOT_SIG_STATUS_DECISION) (decisionShown_lt d), ?_, ?_⟩
  · exact (State.rd_wr_ne _ Reg.VOT_SIG_STATUS_DECISION Reg.VOT_SIG_STATUS_EXCL _ (by decide)).trans
      (State.rd_wr_of_lt _ (f := Reg.VOT_SIG_STATUS_EXCL) (mask_lt _))
  · exact (State.rd_wr_ne _ Reg.VOT_SIG_STATUS_DECISION Reg.VOT_SIG_STATUS_SEQ _ (by decide)).trans
      ((State.rd_wr_ne _ Reg.VOT_SIG_STATUS_EXCL Reg.VOT_SIG_STATUS_SEQ _ (by decide)).trans
        ((State.rd_wr_ne _ Reg.VOT_SIG_STATUS_IN_CMP Reg.VOT_SIG_STATUS_SEQ _ (by decide)).trans
          (State.rd_wr_same s Reg.VOT_SIG_STATUS_SEQ _)))

def statusFlds : List Fld := [Reg.VOT_SIG_STATUS_DECISION, Reg.VOT_SIG_STATUS_EXCL, Reg.VOT_SIG_STATUS_SEQ]

theorem Shows.keep {d : Decision} {l : List Fld} (h : Shows s t d) (hk : keepsRegs t u l) (hl : ∀ g ∈ statusFlds, ∀ f ∈ l, g.key ≠ f.key) :
    Shows s u d :=
  ⟨(hk _ (hl _ (by simp [statusFlds]))).trans h.decision, (hk _ (hl _ (by simp [statusFlds]))).trans h.excl,
    (hk _ (hl _ (by simp [statusFlds]))).trans h.seq⟩

theorem Shows.of_regs {d : Decision} (h : Shows s t d) (hu : u.regs = t.regs) : Shows s u d :=
  ⟨(State.rd_congr hu _).trans h.decision, (State.rd_congr hu _).trans h.excl, (State.rd_congr hu _).trans h.seq⟩

theorem sigRegs_shows (s : State) (cs : List Ch) (d : Decision) : Shows s (s.sigRegs cs d) d :=
  (decisionRegs_shows cs d s).keep (sigRegs_op s cs d).regs (by decide)

theorem sigRegs_frame (s : State) (cs : List Ch) (d : Decision) : s.sigRegs cs d = { s with regs := (s.sigRegs cs d).regs } :=
  (sigRegs_op s cs d).frame

/-! ### The comparison (R175, R176) -/

/-- The streak of comparisons with a verdict NONE. -/
def streakOf (s : State) : Nat :=
  if s.inCmp.length = 2 && (s.inCmp.map s.verdictIn).contains 5 then min 3 (s.md.noneStreak + 1) else 0

/-- What the sound logic decides. -/
def decided (s : State) : Decision := decideOn (s.inCmp.map fun c => (c, s.verdictIn c)) (s.absentAll s.inCmp) (streakOf s)

/-- The requests of a decision. -/
def requested (d : Decision) (cs : List Ch) (s : State) : State :=
  match d with
  | .nothing => s
  | .excl l => s.modMd fun x => { x with exclReq := x.exclReq ++ l.map fun c => (c, 0x08) }
  | .safe => s.modMd fun x => { x with safeReq := x.safeReq ++ [(0x0D, Ch.mask cs)], safeStage := true }

/-- A traverse ends in agreement. -/
def agreedEnd (d : Decision) (s : State) : Bool := d = .nothing && (s.inCmp.map s.verdictIn).all (· = 0) && 2 ≤ s.inCmp.length

/-- The end of the probation of the channels that are not to be excluded. -/
def probationEnd (c : Ch) (s : State) : State :=
  if s.md.exclReq.any fun e => e.1 = c then s else s.modCh c fun h => { h with probation := false }

/-- The streak noted. -/
def streakNoted (s : State) : State := s.modMd fun x => { x with noneStreak := streakOf s }

theorem comparison_eq (s : State) : s.comparison =
    (let d := (streakNoted s).decide s.inCmp
    let w := requested d s.inCmp ((streakNoted s).sigRegs s.inCmp d)
    let w := if agreedEnd d s then w.modMd fun x => { x with travDone := true } else w
    foldSt s.inCmp probationEnd w) := by rfl

theorem decide_sound (h : ∃ a ∈ s.cellsIn, ∃ b ∈ s.cellsIn, a ≠ b ∧ (s.sio.cells.get a).dec = none ∧ (s.sio.cells.get b).dec = none) :
    (streakNoted s).decide s.inCmp = decided s := cellDecision_sound (s := streakNoted s) h _

/-- Nothing but the end of a probation differs in the channels. -/
structure Probation (s t : State) : Prop where
  frame : t = { s with chs := t.chs }
  ch : ∀ d, t.ch d = { s.ch d with probation := (t.ch d).probation }

theorem probationEnd_op (c : Ch) (s : State) : Probation s (probationEnd c s) := by
  unfold probationEnd
  split
  · exact ⟨rfl, fun _ => rfl⟩
  · refine ⟨rfl, fun d => ?_⟩
    by_cases hd : d = c
    · subst hd
      rw [State.ch_modCh_same]
    · rw [State.ch_modCh_ne s _ hd]

theorem Probation.trans (h : Probation s t) (h' : Probation t u) : Probation s u :=
  ⟨by rw [h'.frame, h.frame], fun d => by rw [h'.ch d, h.ch d]⟩

theorem probationEnds_op (l : List Ch) (s : State) : Probation s (foldSt l probationEnd s) :=
  foldSt_inv (P := Probation s) (fun c _ u hu => hu.trans (probationEnd_op c u)) ⟨rfl, fun _ => rfl⟩

theorem requested_excl (d : Decision) (cs : List Ch) (s : State) :
    (requested d cs s).md.exclReq = s.md.exclReq ++ (decisionShown d).2.map fun c => (c, 0x08) := by
  cases d
  · exact (List.append_nil _).symm
  · rfl
  · exact (List.append_nil _).symm

/-- The state of a comparison before its channels' probation ends. -/
def comparisonMade (s : State) (d : Decision) : State :=
  let w := requested d s.inCmp ((streakNoted s).sigRegs s.inCmp d)
  if agreedEnd d s then w.modMd fun x => { x with travDone := true } else w

theorem requested_frame (d : Decision) (cs : List Ch) {s t : State} (h : t = { s with regs := t.regs }) :
    requested d cs t = { requested d cs s with regs := t.regs } := by
  rw [h]
  cases d <;> rfl

theorem comparisonMade_frame (s : State) (d : Decision) : comparisonMade s d =
    { requested d s.inCmp (streakNoted s) with
      regs := ((streakNoted s).sigRegs s.inCmp d).regs
      md := { (requested d s.inCmp (streakNoted s)).md with travDone := agreedEnd d s || s.md.travDone } } := by
  have htrav : (requested d s.inCmp (streakNoted s)).md.travDone = s.md.travDone := by cases d <;> rfl
  unfold comparisonMade
  dsimp only
  rw [requested_frame d s.inCmp (sigRegs_frame (streakNoted s) s.inCmp d)]
  cases agreedEnd d s with
  | true => rfl
  | false => rw [if_neg (by decide), Bool.false_or, ← htrav]

theorem comparison_made (s : State) : s.comparison = foldSt s.inCmp probationEnd (comparisonMade s ((streakNoted s).decide s.inCmp)) :=
  comparison_eq s

/-- What a comparison leaves. -/
theorem comparison_md (s : State) : s.comparison.md = (comparisonMade s ((streakNoted s).decide s.inCmp)).md := by
  rw [comparison_made, (probationEnds_op _ _).frame]

theorem comparison_regs (s : State) : s.comparison.regs = (comparisonMade s ((streakNoted s).decide s.inCmp)).regs := by
  rw [comparison_made, (probationEnds_op _ _).frame]

theorem comparisonMade_chs (s : State) (d : Decision) : (comparisonMade s d).chs = s.chs := by
  rw [comparisonMade_frame]
  cases d <;> rfl

theorem comparison_ch (s : State) (c : Ch) : s.comparison.ch c = { s.ch c with probation := (s.comparison.ch c).probation } := by
  have h := (probationEnds_op s.inCmp (comparisonMade s ((streakNoted s).decide s.inCmp))).ch c
  rw [← comparison_made] at h
  rw [h, show (comparisonMade s ((streakNoted s).decide s.inCmp)).ch c = s.ch c from congrArg (Per3.get · c) (comparisonMade_chs s _)]

/-- The decision of a comparison in the module: its requests, its stage and its streak. -/
structure Decided (s t : State) (d : Decision) : Prop where
  shows : Shows s t d
  excl : ∀ x ∈ (decisionShown d).2, (x, 0x08) ∈ t.md.exclReq
  safe : d = .safe → t.md.safeStage = true ∧ (0x0D, Ch.mask s.inCmp) ∈ t.md.safeReq
  streak : t.md.noneStreak = streakOf s
  trav : agreedEnd d s = true → t.md.travDone = true

theorem comparison_decided {d : Decision} (h : (streakNoted s).decide s.inCmp = d) : Decided s s.comparison d := by
  have hmd := comparison_md s
  have hregs := comparison_regs s
  rw [h, comparisonMade_frame] at hmd hregs
  have hshow : Shows s ((streakNoted s).sigRegs s.inCmp d) d := by
    obtain ⟨h1, h2, h3⟩ := sigRegs_shows (streakNoted s) s.inCmp d
    exact ⟨h1, h2, h3⟩
  refine ⟨hshow.of_regs hregs, fun x hx => ?_, fun hd => ?_, ?_, fun htrav => ?_⟩
  · rw [hmd]
    change _ ∈ (requested d s.inCmp (streakNoted s)).md.exclReq
    rw [requested_excl]
    exact List.mem_append_right _ (List.mem_map_of_mem hx)
  · subst hd
    rw [hmd]
    exact ⟨rfl, List.mem_append_right _ List.mem_cons_self⟩
  · rw [hmd]
    cases d <;> rfl
  · rw [hmd]
    exact congrArg (· || s.md.travDone) htrav

/-! ### The assertions (R125 to R127) -/

/-- What the steps after the comparison keep of it. -/
structure AfterDecision (s t : State) : Prop where
  exclReq : t.md.exclReq = s.md.exclReq
  safeStage : t.md.safeStage = s.md.safeStage
  safeReq : ∀ e ∈ s.md.safeReq, e ∈ t.md.safeReq
  noneStreak : t.md.noneStreak = s.md.noneStreak
  travDone : t.md.travDone = s.md.travDone
  decided : t.md.decided = s.md.decided
  regs : keepsRegs s t logFlds

theorem AfterDecision.trans (h : AfterDecision s t) (h' : AfterDecision t u) : AfterDecision s u :=
  ⟨h'.exclReq.trans h.exclReq, h'.safeStage.trans h.safeStage, fun e he => h'.safeReq e (h.safeReq e he), h'.noneStreak.trans h.noneStreak,
    h'.travDone.trans h.travDone, h'.decided.trans h.decided, h.regs.trans h'.regs⟩

theorem AfterDecision.of_md (h : t.md = s.md) (hr : keepsRegs s t logFlds) : AfterDecision s t := by
  refine ⟨?_, ?_, fun e he => ?_, ?_, ?_, ?_, hr⟩ <;> rw [h]
  exact he

theorem Decided.after {d : Decision} (h : Decided s t d) (h' : AfterDecision t u) : Decided s u d := by
  refine ⟨h.shows.keep h'.regs (by decide), fun x hx => ?_, fun hd => ⟨?_, ?_⟩, h'.noneStreak.trans h.streak,
    fun htrav => h'.travDone.trans (h.trav htrav)⟩
  · rw [h'.exclReq]
    exact h.excl x hx
  · exact h'.safeStage.trans (h.safe hd).1
  · exact h'.safeReq _ (h.safe hd).2

theorem report_reports (s : State) (c : Ch) (e : RecEv) (l : List Fld) : Reports s (s.report c e) l := by
  unfold State.report
  dsimp only
  split_ifs <;> exact ⟨rfl, keepsRegs_refl s l⟩

theorem eventOf_reports (s : State) (cs : List Ch) (sev cls : Nat) (payload : List Nat) (l : List Fld) :
    Reports s (s.eventOf cs sev cls payload) l := by
  unfold State.eventOf
  exact Reports.foldSt (fun c s => report_reports s c _ l) cs s

/-- The channels whose raised sets count. -/
def asserters (s : State) : List Ch := s.compared.filter fun c => (s.ownSig c).isSome && s.inVote c

/-- How many of them raise an assertion. -/
def raisedBy (s : State) (a : Nat) : Nat := (((asserters s).map fun c => (s.ch c).raised).filter fun l => l.contains a).length

def effectOf (s : State) (a : Nat) : Option AssertEff := s.runBank.bind fun b => b.assertEff a

/-- The raised assertions. -/
def allRaised (s : State) : List Nat := ((asserters s).map fun c => (s.ch c).raised).flatten.eraseDups

/-- An assertion that enough channels raise. -/
def takesHold (s : State) (a : Nat) : Bool := 2 ≤ raisedBy s a || (s.compared.length = 2 && 1 ≤ raisedBy s a && effectOf s a = some .safe)

/-- The assertions that lead to SAFE. -/
def safeRaised (s : State) : List Nat := (allRaised s).filter fun a => takesHold s a && effectOf s a = some .safe

/-- The events of the assertions. -/
def assertEvents (s : State) : State :=
  let t := foldSt ((allRaised s).filter (takesHold s)) (fun a u => match effectOf s a with
    | some (.event sev) => u.eventOf (asserters s) sev 0x02 [a]
    | _ => u) s
  if (allRaised s).any fun a => raisedBy s a ≠ (asserters s).length then t.diag 4 Src.vot 0 0x00600004 (allRaised s) else t

theorem assertions_eq (s : State) : s.assertions = (assertEvents s).modMd fun x => { x with
    assertSafe := !(safeRaised s).isEmpty, assertStage := !(safeRaised s).isEmpty,
    safeReq := if (safeRaised s).isEmpty then x.safeReq else x.safeReq ++ [(0x0F, Ch.mask (asserters s))] } := by rfl

theorem assertEvents_reports (s : State) : Reports s (assertEvents s) logFlds := by
  have hfold : Reports s (foldSt ((allRaised s).filter (takesHold s)) (fun a u => match effectOf s a with
      | some (.event sev) => u.eventOf (asserters s) sev 0x02 [a]
      | _ => u) s) logFlds := by
    refine Reports.foldSt (fun a u => ?_) _ s
    split
    · exact eventOf_reports u _ _ _ _ _
    · exact Reports.refl u _
  unfold assertEvents
  dsimp only
  split
  · exact hfold.diag (fun _ h => h) _ _ _ _ _
  · exact hfold

theorem assertEvents_md (s : State) : (assertEvents s).md = s.md := by rw [(assertEvents_reports s).frame]

theorem assertions_after (s : State) : AfterDecision s s.assertions := by
  have hmd := assertEvents_md s
  rw [assertions_eq]
  refine ⟨(congrArg ModSt.exclReq hmd :), (congrArg ModSt.safeStage hmd :), fun e he => ?_, (congrArg ModSt.noneStreak hmd :),
    (congrArg ModSt.travDone hmd :), (congrArg ModSt.decided hmd :), (assertEvents_reports s).regs⟩
  change e ∈ if (safeRaised s).isEmpty then (assertEvents s).md.safeReq else (assertEvents s).md.safeReq ++ [(0x0F, Ch.mask (asserters s))]
  rw [hmd]
  split
  · exact he
  · exact List.mem_append_left _ he

/-- An assertion with effect SAFE that two channels raise. -/
theorem mem_safeRaised {a : Nat} {x y : Ch} (hne : x ≠ y) (heff : effectOf s a = some .safe)
    (hraise : ∀ c, c = x ∨ c = y → c ∈ asserters s ∧ a ∈ (s.ch c).raised) : a ∈ safeRaised s := by
  obtain ⟨hx, hax⟩ := hraise x (.inl rfl)
  obtain ⟨hy, hay⟩ := hraise y (.inr rfl)
  have hcount : 2 ≤ raisedBy s a := by
    unfold raisedBy
    rw [List.filter_map, List.length_map]
    exact two_le_length (List.mem_filter.2 ⟨hx, by simpa using hax⟩) (List.mem_filter.2 ⟨hy, by simpa using hay⟩) hne
  refine List.mem_filter.2 ⟨?_, ?_⟩
  · unfold allRaised
    rw [List.mem_eraseDups]
    exact List.mem_flatten.2 ⟨_, List.mem_map_of_mem hx, hax⟩
  · rw [takesHold, decide_eq_true hcount, Bool.true_or, heff]
    rfl

theorem assertions_safe {a : Nat} (h : a ∈ safeRaised s) : s.assertions.md.assertSafe = true ∧ s.assertions.md.assertStage = true ∧
    ∃ m, (0x0F, m) ∈ s.assertions.md.safeReq := by
  have hne : (safeRaised s).isEmpty = false := by
    cases hl : safeRaised s with
    | nil =>
      rw [hl] at h
      exact absurd h List.not_mem_nil
    | cons x l => rfl
  rw [assertions_eq, hne]
  exact ⟨rfl, rfl, _, List.mem_append_right _ List.mem_cons_self⟩

/-! ### The steps after the assertions -/

theorem agreeLanes_frame (s : State) : s.agreeLanes = { s with chs := s.agreeLanes.chs } :=
  foldSt_inv (P := fun u => u = { s with chs := u.chs }) (fun c _ u hu => by
    rw [hu]
    rfl) rfl

theorem sendTwinSig_frame (s : State) : s.sendTwinSig = { s with twn := s.sendTwinSig.twn } := by
  unfold State.sendTwinSig
  dsimp only
  split
  · split <;> rfl
  · rfl

theorem closing_md (s : State) : s.agreeLanes.sendTwinSig.md = s.md ∧ s.agreeLanes.sendTwinSig.regs = s.regs := by
  rw [sendTwinSig_frame, agreeLanes_frame]
  exact ⟨rfl, rfl⟩

theorem closing_after (s : State) : AfterDecision s s.agreeLanes.sendTwinSig :=
  .of_md (closing_md s).1 (keepsRegs_of_eq (closing_md s).2 _)

/-! ### The step -/

/-- The state in which a cycle counts as decided. -/
def decidedNow (s : State) : State := s.modMd fun x => { x with decided := true }

/-- The state after the comparison, where one ends. -/
def comparedNow (s : State) : State := if s.compares then (decidedNow s).comparison else decidedNow s

theorem decision_exec (hload : s.md.loadDone = true) (hrun : s.md.halted = false) (hopen : s.md.decided = false) :
    exec .decision s = .next (comparedNow s).assertions.agreeLanes.sendTwinSig := by
  have hx : exec .decision s = execDecision s := by rfl
  rw [hx, execDecision, if_neg (by rw [hload, hrun, hopen]; decide)]
  rfl

theorem decision_after (s : State) : AfterDecision (comparedNow s) (comparedNow s).assertions.agreeLanes.sendTwinSig :=
  (assertions_after _).trans (closing_after _)

/-- A comparison leaves every other field of the module. -/
theorem comparison_md_decided (s : State) : s.comparison.md.decided = s.md.decided := by
  rw [comparison_md, comparisonMade_frame]
  cases (streakNoted s).decide s.inCmp <;> rfl

theorem comparison_exclReq (s : State) : ∃ l : List Ch, s.comparison.md.exclReq = s.md.exclReq ++ l.map fun c => (c, 0x08) := by
  refine ⟨(decisionShown ((streakNoted s).decide s.inCmp)).2, ?_⟩
  rw [comparison_md, comparisonMade_frame]
  exact requested_excl _ _ _

theorem comparedNow_decided (s : State) : (comparedNow s).md.decided = true := by
  unfold comparedNow
  split
  · exact comparison_md_decided (decidedNow s)
  · rfl

theorem comparedNow_ch (s : State) (c : Ch) : (comparedNow s).ch c = { s.ch c with probation := ((comparedNow s).ch c).probation } := by
  unfold comparedNow
  split
  · exact comparison_ch (decidedNow s) c
  · rfl

theorem comparedNow_excl (s : State) : ∃ l : List Ch, (comparedNow s).md.exclReq = s.md.exclReq ++ l.map fun c => (c, 0x08) := by
  unfold comparedNow
  split
  · exact comparison_exclReq (decidedNow s)
  · exact ⟨[], (List.append_nil _).symm⟩

/-- Exclusions by a decision are no resets (R177). -/
theorem comparedNow_reset (s : State) (c : Ch) : (comparedNow s).md.exclReq.contains (c, 0x0B) = s.md.exclReq.contains (c, 0x0B) := by
  obtain ⟨l, hl⟩ := comparedNow_excl s
  rw [hl]
  simp

theorem comparedNow_compared (s : State) : (comparedNow s).compared = s.compared := by
  unfold State.compared
  refine List.filter_congr fun c _ => ?_
  unfold State.inVote
  rw [comparedNow_reset, comparedNow_ch]

theorem comparedNow_effect (s : State) (a : Nat) : effectOf (comparedNow s) a = effectOf s a := by
  unfold effectOf
  rw [runBank_congr (s := s) (fun c => by rw [comparedNow_ch]) (fun c => by rw [comparedNow_ch])]

theorem comparedNow_asserters (s : State) : asserters (comparedNow s) = asserters s := by
  unfold asserters
  rw [comparedNow_compared]
  refine List.filter_congr fun c _ => ?_
  unfold State.ownSig State.inVote
  rw [comparedNow_ch]

/-- What the statement says of a decision, from the decision made. -/
theorem Decided.says {d : Decision} (h : Decided s t d) : t.rd Reg.VOT_SIG_STATUS_DECISION = (decisionShown d).1 ∧
    t.rd Reg.VOT_SIG_STATUS_EXCL = Ch.mask (decisionShown d).2 ∧ (∀ x ∈ (decisionShown d).2, (x, 0x08) ∈ t.md.exclReq) ∧
    t.rd Reg.VOT_SIG_STATUS_SEQ = (s.rd Reg.VOT_SIG_STATUS_SEQ + 1) % 256 ∧
    ((decisionShown d).1 = 2 → t.md.safeStage = true ∧ (0x0D, Ch.mask s.inCmp) ∈ t.md.safeReq) := by
  refine ⟨h.shows.decision, h.shows.excl, h.excl, h.shows.seq, fun h2 => h.safe ?_⟩
  cases d
  · exact absurd h2 (by decide)
  · exact absurd h2 (by decide : (1 : Nat) ≠ 2)
  · rfl

theorem decision_decided (hcmp : s.compares = true)
    (hsound : ∃ a ∈ s.cellsIn, ∃ b ∈ s.cellsIn, a ≠ b ∧ (s.sio.cells.get a).dec = none ∧ (s.sio.cells.get b).dec = none) :
    Decided s (comparedNow s).assertions.agreeLanes.sendTwinSig (decided s) := by
  have h := comparison_decided (s := decidedNow s) (decide_sound (s := decidedNow s) hsound)
  have hnow : comparedNow s = (decidedNow s).comparison := if_pos hcmp
  rw [← hnow] at h
  have h' := h.after (decision_after s)
  exact ⟨⟨h'.shows.decision, h'.shows.excl, h'.shows.seq⟩, h'.excl, h'.safe, h'.streak, h'.trav⟩

/-- The decision of three channels none of which is absent at both others. -/
theorem decided_three (hall : s.inCmp = Ch.all) (habs : s.absentAll Ch.all = []) :
    decided s = decideThree (Ch.all.map fun c => (c, s.verdictIn c)) := by
  unfold decided
  rw [hall, habs]
  rfl

theorem decided_two {x y : Ch} (htwo : s.inCmp = [x, y]) : decided s = decideTwo [(x, s.verdictIn x), (y, s.verdictIn y)] (streakOf s) := by
  unfold decided
  rw [htwo]
  rfl

theorem decideTwo_differ {x y : Ch} {v w : Nat} (h : v = 4 ∨ w = 4) (k : Nat) : decideTwo [(x, v), (y, w)] k = .safe := by
  unfold decideTwo
  rw [if_pos]
  rcases h with rfl | rfl <;> simp

/-- Settles O42: two sound cells of the majority decide as R175 and R176 say on the verdicts; the assertions and what follows them keep
that decision, and the comparison keeps what the assertions read. -/
theorem decisionsAndAssertions : Obligations.DecisionsAndAssertions := by
  intro s hload hrun hopen
  refine ⟨_, decision_exec hload hrun hopen, (decision_after s).decided.trans (comparedNow_decided s), fun hcmp => ?_,
    fun hcmp hsound hall habs x y z hxy hyz hxz => ?_, fun hcmp hsound x y htwo => ?_, fun a b x y hxy hbank heff hraise => ?_⟩
  · rw [(decision_after s).regs _ (by decide)]
    unfold comparedNow
    rw [hcmp]
    rfl
  · have h := decision_decided hcmp hsound
    rw [decided_three hall habs] at h
    refine ⟨fun hx hy hz => ?_, fun hx hy h0 h5 => ?_, fun o hx hy => ?_, fun hx hy => ?_⟩
    · rw [decideThree_two hxy (by decide) hx hy, decideBy, if_pos rfl, odd_of_agreement hxy hyz hxz hx hy, if_pos hz] at h
      exact h.says
    · rw [decideThree_two hxy (by decide) hx hy, decideBy, if_pos rfl, odd_of_agreement hxy hyz hxz hx hy, if_neg (not_or.2 ⟨h0, h5⟩)] at h
      exact h.says
    · have hk : 1 + Ch.num o ≠ 5 ∧ 1 + Ch.num o ≠ 0 ∧ 1 + Ch.num o ≠ 4 := by cases o <;> decide
      rw [decideThree_two hxy hk.1 hx hy, decideBy, if_neg hk.2.1, if_neg hk.2.2, Nat.add_sub_cancel_left, at_num] at h
      exact h.says
    · rw [decideThree_two hxy (by decide) hx hy, decideBy, if_neg (by decide), if_pos rfl] at h
      exact h.says
  · have h := decision_decided hcmp hsound
    rw [decided_two htwo] at h
    refine ⟨fun hdiff => ?_, fun hx hy => ?_⟩
    · rw [decideTwo_differ hdiff] at h
      exact h.says
    · have hstreak : streakOf s = 0 := by
        unfold streakOf
        rw [htwo]
        simp [hx, hy]
      rw [hstreak, hx, hy] at h
      have htrav : agreedEnd (decideTwo [(x, 0), (y, 0)] 0) s = true := by
        unfold agreedEnd
        rw [htwo]
        simp [hx, hy, decideTwo]
      exact ⟨h.says, h.streak.trans hstreak, h.trav htrav⟩
  · have hmem : a ∈ safeRaised (comparedNow s) := by
      refine mem_safeRaised hxy ?_ fun c hc => ?_
      · rw [comparedNow_effect, effectOf, hbank]
        exact heff
      · obtain ⟨hcomp, hvote, hsig, hraised⟩ := hraise c hc
        rw [comparedNow_asserters, comparedNow_ch]
        exact ⟨List.mem_filter.2 ⟨hcomp, by rw [hsig, hvote]; rfl⟩, hraised⟩
    obtain ⟨hsafe, hstage, m, hm⟩ := assertions_safe hmem
    have hmd := (closing_md (comparedNow s).assertions).1
    rw [hmd]
    exact ⟨hsafe, hstage, m, hm⟩

end Sys2Proof.Claims
end

section
/-! The execution limit (O40). -/

namespace Sys2Proof.Claims

open Sys2Proof Sys2Proof.Machine

variable {s t u v : State} {n : Nat} {c : Ch}

/-! ### Reads of a channel's images -/

/-- The registers of a channel's memory unit that a read writes. -/
def readFlds (n : Nat) : List Fld :=
  [Reg.MIU_CE_CE_ACCESS n, Reg.MIU_EVENT_CE n, Reg.MIU_UE_QUEUE_OVF n, Reg.MIU_UE_UE_COUNT n, Reg.MIU_EVENT_UE n, Reg.MIU_ERR_ADDR_KIND n,
    Reg.MIU_ERR_ADDR_REGION n, Reg.MIU_ERR_ADDR_CWADDR n, Reg.MIU_ERR_SYND_SYND n, Reg.MIU_ERR_SYND_BIT n]

/-- What a read of channel `c`'s images writes: poison, the write-back queue, and the registers of its memory unit. -/
structure ReadOf (c : Ch) (s t : State) : Prop where
  frame : t = { s with regs := t.regs, chs := t.chs }
  others : ∀ d, d ≠ c → t.ch d = s.ch d
  ch : t.ch c = { s.ch c with pmap := (t.ch c).pmap, wbq := (t.ch c).wbq }
  regs : keepsRegs s t (readFlds (Ch.num c))

theorem ReadOf.refl (c : Ch) (s : State) : ReadOf c s s := ⟨rfl, fun _ _ => rfl, rfl, keepsRegs_refl s _⟩

theorem ReadOf.trans (h : ReadOf c s t) (h' : ReadOf c t u) : ReadOf c s u :=
  ⟨by rw [h'.frame, h.frame], fun d hd => (h'.others d hd).trans (h.others d hd), by rw [h'.ch, h.ch], h.regs.trans h'.regs⟩

theorem ReadOf.wr (h : ReadOf c s t) {f : Fld} (hf : f ∈ readFlds (Ch.num c)) (v : Nat) : ReadOf c s (t.wr f v) :=
  h.trans ⟨rfl, fun _ _ => rfl, rfl, keepsRegs_wr t hf v⟩

theorem ReadOf.modCh (h : ReadOf c s t) {f : Chan → Chan} (hf : f (t.ch c) = { t.ch c with pmap := (f (t.ch c)).pmap, wbq := (f (t.ch c)).wbq }) :
    ReadOf c s (t.modCh c f) := by
  refine h.trans ⟨rfl, fun d hd => State.ch_modCh_ne t f hd, ?_, keepsRegs_of_eq rfl _⟩
  rw [State.ch_modCh_same]
  exact hf

theorem ReadOf.ite {p : Prop} [Decidable p] (ht : ReadOf c s t) (hu : ReadOf c s u) : ReadOf c s (if p then t else u) := by
  split
  · exact ht
  · exact hu

theorem ReadOf.miuErr (h : ReadOf c s t) (kind cw synd bit : Nat) : ReadOf c s (t.miuErr c kind cw synd bit) :=
  ((((h.wr (f := Reg.MIU_ERR_ADDR_KIND _) (by simp [readFlds]) _).wr (f := Reg.MIU_ERR_ADDR_REGION _) (by simp [readFlds]) _).wr
    (f := Reg.MIU_ERR_ADDR_CWADDR _) (by simp [readFlds]) _).wr (f := Reg.MIU_ERR_SYND_SYND _) (by simp [readFlds]) _).wr
    (f := Reg.MIU_ERR_SYND_BIT _) (by simp [readFlds]) _

theorem ReadOf.setPsn (h : ReadOf c s t) (k : Nat) (p : Bool) : ReadOf c s (t.setPsn c k p) := h.modCh rfl

theorem miuCorrected_read (c : Ch) (s : State) (cw : Nat) (e : BitVec 72) (bit : Nat) (queue : Bool) :
    ReadOf c s (s.miuCorrected c cw e bit queue) := by
  unfold State.miuCorrected
  dsimp only
  have h : ReadOf c s (((s.inc (Reg.MIU_CE_CE_ACCESS (Ch.num c))).wrb (Reg.MIU_EVENT_CE (Ch.num c)) true).miuErr c 1 cw (Hsiao.synd e) bit) :=
    (((ReadOf.refl c s).wr (f := Reg.MIU_CE_CE_ACCESS (Ch.num c)) (by simp [readFlds]) _).wr (f := Reg.MIU_EVENT_CE (Ch.num c))
      (by simp [readFlds]) _).miuErr _ _ _ _
  exact h.ite ((h.wr (f := Reg.MIU_UE_QUEUE_OVF _) (by simp [readFlds]) _).ite (h.ite (h.modCh rfl)))

theorem miuUncorrectable_read (c : Ch) (s : State) (cw : Nat) (e : BitVec 72) : ReadOf c s (s.miuUncorrectable c cw e) :=
  (((ReadOf.refl c s).wr (f := Reg.MIU_UE_UE_COUNT _) (by simp [readFlds]) _).wr (f := Reg.MIU_EVENT_UE _) (by simp [readFlds]) _).miuErr
    _ _ _ _

theorem readMapCw_read (c : Ch) (s : State) (cw : Nat) : ReadOf c s (s.readMapCw c cw).2 := by
  unfold State.readMapCw
  dsimp only
  split
  · exact ReadOf.refl c s
  · split
    · exact ReadOf.refl c s
    · exact miuCorrected_read c s cw _ _ true
    · exact ((miuUncorrectable_read c s cw _).setPsn _ true).setPsn _ true

theorem readImg_read (c : Ch) (s : State) (copy : Option Nat) (i : Nat) : ReadOf c s (s.readImg c copy i).2 :=
  readMapCw_read c s (Img.cw copy i)

/-! ### The items of a signature (R167 to R171) -/

/-- What the end of a cycle's items writes: what its reads write, and the accumulator with its place in the traverse. -/
structure SigOp (c : Ch) (s t : State) : Prop where
  frame : t = { s with regs := t.regs, chs := t.chs }
  others : ∀ d, d ≠ c → t.ch d = s.ch d
  ch : t.ch c = { s.ch c with pmap := (t.ch c).pmap, wbq := (t.ch c).wbq, acc := (t.ch c).acc, accStart := (t.ch c).accStart,
                              travPos := (t.ch c).travPos }
  regs : keepsRegs s t (readFlds (Ch.num c))

theorem SigOp.refl (c : Ch) (s : State) : SigOp c s s := ⟨rfl, fun _ _ => rfl, rfl, keepsRegs_refl s _⟩

theorem SigOp.trans (h : SigOp c s t) (h' : SigOp c t u) : SigOp c s u :=
  ⟨by rw [h'.frame, h.frame], fun d hd => (h'.others d hd).trans (h.others d hd), by rw [h'.ch, h.ch], h.regs.trans h'.regs⟩

theorem ReadOf.sigOp (h : ReadOf c s t) : SigOp c s t := ⟨h.frame, h.others, by rw [h.ch], h.regs⟩

theorem SigOp.modCh (s : State) {f : Chan → Chan} (hf : f (s.ch c) = { s.ch c with
    acc := (f (s.ch c)).acc, accStart := (f (s.ch c)).accStart, travPos := (f (s.ch c)).travPos }) : SigOp c s (s.modCh c f) := by
  refine ⟨rfl, fun d hd => State.ch_modCh_ne s f hd, ?_, keepsRegs_of_eq rfl _⟩
  rw [State.ch_modCh_same, hf]

theorem feed_op (c : Ch) (s : State) (item : Word64) : SigOp c s (s.feed c item) := SigOp.modCh s rfl

theorem feedOutput_op (c : Ch) (s : State) : SigOp c s (s.feedOutput c) :=
  foldSt_inv (P := SigOp c s) (fun _ _ u hu => hu.trans ((readImg_read c u none _).sigOp.trans (feed_op c _ _))) (SigOp.refl c s)

theorem finishSig_op (c : Ch) (s : State) (k : Nat) : SigOp c s (s.finishSig c k) := by
  unfold State.finishSig
  dsimp only
  refine ((feedOutput_op c s).trans (feed_op c _ _)).trans (SigOp.modCh _ ?_)
  split <;> rfl

/-! ### Poison at the limit (R99) -/

/-- A channel's lanes have consumed poison. -/
def took (s : State) (c : Ch) : Bool := lanes16.any fun l => ((s.ch c).lane l).psn

theorem laneMask_zero {p : Nat → Bool} (l : List Nat) (a : Nat) :
    l.foldl (fun v i => v + bitNat (p i) * 2 ^ i) a = 0 ↔ a = 0 ∧ l.any p = false := by
  induction l generalizing a with
  | nil => simp
  | cons i l ih =>
    rw [List.foldl_cons, ih, List.any_cons]
    have hpos := Nat.two_pow_pos i
    cases p i with
    | true =>
      have : bitNat true * 2 ^ i = 2 ^ i := Nat.one_mul _
      simp [this]
    | false =>
      have : bitNat false * 2 ^ i = 0 := Nat.zero_mul _
      simp [this]

/-- The poison that a channel reports. -/
def psnReported (c : Ch) (m : Nat) (s : State) : State :=
  ((((s.inc (Reg.LEN_PSN_COUNT (Ch.num c))).wr (Reg.LEN_PSN_LANES (Ch.num c)) m).modCh c fun h => { h with repPsn := true }).modMd fun x =>
    { x with exclReq := x.exclReq ++ [(c, 0x0A)] })

theorem psnReported_ch (c : Ch) (m : Nat) (s : State) : (psnReported c m s).ch c = { s.ch c with repPsn := true } ∧
    ∀ d, d ≠ c → (psnReported c m s).ch d = s.ch d :=
  let v := (s.inc (Reg.LEN_PSN_COUNT (Ch.num c))).wr (Reg.LEN_PSN_LANES (Ch.num c)) m
  ⟨State.ch_modCh_same v c fun h => { h with repPsn := true }, fun _ hd => State.ch_modCh_ne v (fun h => { h with repPsn := true }) hd⟩

theorem reportPoison_none (h : took s c = false) : s.reportPoison c = s := by
  unfold State.reportPoison
  dsimp only
  exact if_pos ((laneMask_zero (p := fun l => ((s.ch c).lane l).psn) _ 0).2 ⟨rfl, h⟩)

theorem reportPoison_some (h : took s c = true) : ∃ m, s.reportPoison c = psnReported c m s := by
  refine ⟨_, if_neg fun hz => ?_⟩
  have := ((laneMask_zero (p := fun l => ((s.ch c).lane l).psn) _ 0).1 hz).2
  exact Bool.false_ne_true (this.symm.trans h)

/-! ### What a channel's limit leaves elsewhere -/

/-- The registers that the limit writes. -/
def limitFlds (n : Nat) : List Fld :=
  [Reg.LEN_PSN_COUNT n, Reg.LEN_PSN_LANES n, Reg.LEN_STATUS_RUN n, Reg.TMU_CYC_OVR_COUNT_A, Reg.TMU_CYC_OVR_COUNT_B, Reg.TMU_CYC_OVR_COUNT_C,
    Reg.TMU_CYC_OVR_FLAG] ++ readFlds n

/-- The limit of channel `c`: the other channels and what the number of the program cycle rests on are as they were, requests and overrun
flags only come. -/
structure LimitOp (c : Ch) (s t : State) : Prop where
  others : ∀ d, d ≠ c → t.ch d = s.ch d
  regs : keepsRegs s t (limitFlds (Ch.num c))
  tm : t.tm = s.tm
  dbgMode : t.md.debug = s.md.debug
  requests : ∀ e ∈ s.md.exclReq, e ∈ t.md.exclReq
  flags : ∀ i < 3, natBit (s.rd Reg.TMU_CYC_OVR_FLAG) i = true → natBit (t.rd Reg.TMU_CYC_OVR_FLAG) i = true

theorem LimitOp.refl (c : Ch) (s : State) : LimitOp c s s := ⟨fun _ _ => rfl, keepsRegs_refl s _, rfl, rfl, fun _ h => h, fun _ _ h => h⟩

theorem LimitOp.trans (h : LimitOp c s t) (h' : LimitOp c t u) : LimitOp c s u :=
  ⟨fun d hd => (h'.others d hd).trans (h.others d hd), h.regs.trans h'.regs, h'.tm.trans h.tm, h'.dbgMode.trans h.dbgMode,
    fun e he => h'.requests e (h.requests e he), fun i hi hb => h'.flags i hi (h.flags i hi hb)⟩

theorem readFlds_sub (n : Nat) : ∀ f ∈ readFlds n, f ∈ limitFlds n := fun _ hf => List.mem_append_right _ hf

theorem SigOp.limitOp (h : SigOp c s t) : LimitOp c s t := by
  have hflag : ∀ f ∈ readFlds (Ch.num c), Reg.TMU_CYC_OVR_FLAG.key ≠ f.key := by cases c <;> decide
  refine ⟨h.others, h.regs.mono (readFlds_sub _), by rw [h.frame], by rw [h.frame], fun e he => by rw [h.frame]; exact he, fun i _ hb => ?_⟩
  rw [h.regs _ hflag]
  exact hb

theorem psnReported_op (c : Ch) (m : Nat) (s : State) : LimitOp c s (psnReported c m s) := by
  have hflag : Reg.TMU_CYC_OVR_FLAG.key ≠ (Reg.LEN_PSN_LANES (Ch.num c)).key ∧
      Reg.TMU_CYC_OVR_FLAG.key ≠ (Reg.LEN_PSN_COUNT (Ch.num c)).key := by cases c <;> decide
  refine ⟨(psnReported_ch c m s).2, ?_, rfl, rfl, fun e he => List.mem_append_left _ he, fun i _ hb => ?_⟩
  · exact (keepsRegs_wr s (f := Reg.LEN_PSN_COUNT _) (by simp [limitFlds]) _).trans
      (keepsRegs_wr _ (f := Reg.LEN_PSN_LANES _) (by simp [limitFlds]) _)
  · have hrd : (psnReported c m s).rd Reg.TMU_CYC_OVR_FLAG = s.rd Reg.TMU_CYC_OVR_FLAG :=
      (State.rd_wr_ne _ _ _ _ hflag.1).trans (State.rd_wr_ne s _ _ _ hflag.2)
    rw [hrd]
    exact hb

theorem reportPoison_op (c : Ch) (s : State) : LimitOp c s (s.reportPoison c) := by
  cases h : took s c with
  | false =>
    rw [reportPoison_none h]
    exact LimitOp.refl c s
  | true =>
    obtain ⟨m, hm⟩ := reportPoison_some h
    rw [hm]
    exact psnReported_op c m s

/-- What the report of poison leaves of the channel. -/
theorem reportPoison_ch (c : Ch) (s : State) : (s.reportPoison c).ch c = { s.ch c with repPsn := (s.ch c).repPsn || took s c } := by
  cases h : took s c with
  | false =>
    rw [reportPoison_none h, Bool.or_false]
  | true =>
    obtain ⟨m, hm⟩ := reportPoison_some h
    rw [hm, Bool.or_true]
    exact (psnReported_ch c m s).1

theorem reportPoison_request (h : took s c = true) : (c, 0x0A) ∈ (s.reportPoison c).md.exclReq := by
  obtain ⟨m, hm⟩ := reportPoison_some h
  rw [hm]
  exact List.mem_append_right _ List.mem_cons_self

theorem sendSig_op (c : Ch) (s : State) : LimitOp c s (s.sendSig c) :=
  ⟨fun _ hd => State.ch_modCh_ne s _ hd, keepsRegs_of_eq rfl _, rfl, rfl, fun _ h => h, fun _ _ h => h⟩

/-- The record that a channel sends. -/
def sigRecord (s : State) (c : Ch) : SigRec :=
  { k16 := BitVec.ofNat 16 s.progCyc, sender := c, travEnd := (s.ch c).accStart, acc := (s.ch c).acc,
    raised := (s.ch c).raised.map fun a => BitVec.ofNat 10 a, ovr := (s.ch c).ovr, psn := (s.ch c).repPsn, crcOk := true }

theorem sendSig_ch (c : Ch) (s : State) :
    (s.sendSig c).ch c = { s.ch c with sigRecs := FMap.set none (s.ch c).sigRecs (Ch.num c) (some (sigRecord s c)) } := State.ch_modCh_same s c _

theorem sendSig_ownSig (c : Ch) (s : State) : (s.sendSig c).ownSig c = some (sigRecord s c) := by
  unfold State.ownSig
  rw [sendSig_ch]
  change FMap.get none (FMap.set none (s.ch c).sigRecs (Ch.num c) (some (sigRecord s c))) (Ch.num c) = _
  rw [FMap.get_set_same]

/-! ### An overrun (R62) -/

def overrunCount (c : Ch) : Fld :=
  if Ch.num c = 0 then Reg.TMU_CYC_OVR_COUNT_A else if Ch.num c = 1 then Reg.TMU_CYC_OVR_COUNT_B else Reg.TMU_CYC_OVR_COUNT_C

/-- The registers of an overrun. -/
def overrunRegs (c : Ch) (s : State) : State :=
  ((s.wr (Reg.LEN_STATUS_RUN (Ch.num c)) 4).inc (overrunCount c)).setBit Reg.TMU_CYC_OVR_FLAG (Ch.num c)

/-- The channel stops and asks for its exclusion. -/
def overrunStopped (c : Ch) (s : State) : State :=
  ((overrunRegs c s).modCh c fun h => { h with ovr := true }).modMd fun x => { x with exclReq := x.exclReq ++ [(c, 0x09)] }

theorem overrun_eq (c : Ch) (s : State) : s.overrun c =
    (let late := (overrunStopped c s).md.exclReq.filter fun e => e.2 = 0x09
    if 2 ≤ late.length then (overrunStopped c s).modMd fun x => { x with
      safeReq := (x.safeReq.filter fun e => e.1 ≠ 0x0E) ++ [(0x0E, Ch.mask (late.map (·.1)))] }
    else overrunStopped c s) := rfl

/-- Two overruns ask for SAFE besides. -/
theorem overrun_stopped (c : Ch) (s : State) : (s.overrun c).regs = (overrunRegs c s).regs ∧ (s.overrun c).chs = (overrunStopped c s).chs ∧
    (s.overrun c).tm = s.tm ∧ (s.overrun c).md.debug = s.md.debug ∧ (s.overrun c).md.exclReq = s.md.exclReq ++ [(c, 0x09)] := by
  rw [overrun_eq]
  dsimp only
  split <;> exact ⟨rfl, rfl, rfl, rfl, rfl⟩

theorem overrun_ch (c : Ch) (s : State) : (s.overrun c).ch c = { s.ch c with ovr := true } ∧ ∀ d, d ≠ c → (s.overrun c).ch d = s.ch d := by
  have h := (overrun_stopped c s).2.1
  have hch : ∀ d, (s.overrun c).ch d = (overrunStopped c s).ch d := fun d => congrArg (Per3.get · d) h
  exact ⟨(hch c).trans (State.ch_modCh_same (overrunRegs c s) c fun h => { h with ovr := true }),
    fun d hd => (hch d).trans (State.ch_modCh_ne (overrunRegs c s) (fun h => { h with ovr := true }) hd)⟩

theorem overrunCount_mem (c : Ch) : overrunCount c ∈ limitFlds (Ch.num c) := by cases c <;> decide

theorem overrunRegs_rd (c : Ch) (s : State) : (overrunRegs c s).rd (Reg.LEN_STATUS_RUN (Ch.num c)) = 4 ∧
    ∀ i < 3, natBit ((overrunRegs c s).rd Reg.TMU_CYC_OVR_FLAG) i = (natBit (s.rd Reg.TMU_CYC_OVR_FLAG) i || decide (Ch.num c = i)) := by
  have hrun : (Reg.LEN_STATUS_RUN (Ch.num c)).key ≠ Reg.TMU_CYC_OVR_FLAG.key ∧
      (Reg.LEN_STATUS_RUN (Ch.num c)).key ≠ (overrunCount c).key := by cases c <;> decide
  have hflag : Reg.TMU_CYC_OVR_FLAG.key ≠ (overrunCount c).key ∧ Reg.TMU_CYC_OVR_FLAG.key ≠ (Reg.LEN_STATUS_RUN (Ch.num c)).key := by
    cases c <;> decide
  refine ⟨?_, fun i hi => ?_⟩
  · exact (State.rd_wr_ne _ _ _ _ hrun.1).trans ((State.rd_inc_ne _ _ _ hrun.2).trans
      (State.rd_wr_of_lt s (f := Reg.LEN_STATUS_RUN (Ch.num c)) (show 4 < 2 ^ 3 by decide)))
  · refine (natBit_setBit _ (f := Reg.TMU_CYC_OVR_FLAG) (show i < 3 from hi)).trans ?_
    rw [State.rd_inc_ne _ _ _ hflag.1, State.rd_wr_ne _ _ _ _ hflag.2]

theorem overrun_op (c : Ch) (s : State) : LimitOp c s (s.overrun c) := by
  obtain ⟨hregs, -, htm, hdebug, hreq⟩ := overrun_stopped c s
  refine ⟨(overrun_ch c s).2, keepsRegs.of_regs ?_ hregs, htm, hdebug, fun e he => ?_, fun i hi hb => ?_⟩
  · exact ((keepsRegs_wr s (f := Reg.LEN_STATUS_RUN _) (by simp [limitFlds]) _).trans
      (keepsRegs_wr _ (f := overrunCount c) (overrunCount_mem c) _)).trans (keepsRegs_wr _ (f := Reg.TMU_CYC_OVR_FLAG) (by simp [limitFlds]) _)
  · rw [hreq]
    exact List.mem_append_left _ he
  · rw [State.rd_congr hregs, (overrunRegs_rd c s).2 i hi, hb, Bool.true_or]

/-! ### The limit in one channel -/

/-- The number of the program cycle rests on the debug registers and the cycle. -/
theorem progCyc_congr (htm : t.tm = s.tm) (hdebug : t.md.debug = s.md.debug) (hstate : t.rd Reg.VOT_DBG_STATE = s.rd Reg.VOT_DBG_STATE)
    (hcyc : t.rd Reg.VOT_DBG_CYCLE_CYCLE = s.rd Reg.VOT_DBG_CYCLE_CYCLE) : t.progCyc = s.progCyc := by
  unfold State.progCyc
  rw [htm, hdebug, hstate, hcyc]

theorem limitFlds_apart (c : Ch) : ∀ f ∈ limitFlds (Ch.num c), Reg.VOT_DBG_STATE.key ≠ f.key ∧ Reg.VOT_DBG_CYCLE_CYCLE.key ≠ f.key := by
  cases c <;> decide

theorem limitFlds_run {c d : Ch} (h : d ≠ c) : ∀ f ∈ limitFlds (Ch.num c), (Reg.LEN_STATUS_RUN (Ch.num d)).key ≠ f.key := by
  revert h
  cases c <;> cases d <;> decide

theorem LimitOp.progCyc (h : LimitOp c s t) : t.progCyc = s.progCyc :=
  progCyc_congr h.tm h.dbgMode (h.regs _ fun f hf => (limitFlds_apart c f hf).1) (h.regs _ fun f hf => (limitFlds_apart c f hf).2)

theorem limitChan_op (c : Ch) (s : State) : LimitOp c s (s.limitChan c) := by
  unfold State.limitChan
  dsimp only
  split_ifs
  · exact ((reportPoison_op c s).trans (finishSig_op c _ _).limitOp).trans (sendSig_op c _)
  · exact ((reportPoison_op c s).trans (overrun_op c _)).trans (sendSig_op c _)
  · exact LimitOp.refl c s

/-- What the record of a completed cycle says, and the request that poison brings. -/
def signed (s t : State) (c : Ch) : Prop :=
  (∃ r, t.ownSig c = some r ∧ r.k16 = BitVec.ofNat 16 s.progCyc ∧ r.sender = c ∧ r.acc = (t.ch c).acc ∧ r.ovr = (s.ch c).ovr ∧
    r.psn = ((s.ch c).repPsn || took s c) ∧ r.crcOk = true ∧ r.raised = (s.ch c).raised.map fun a => BitVec.ofNat 10 a) ∧
  (took s c = true → (c, 0x0A) ∈ t.md.exclReq)

theorem limitChan_signed (hrun : s.rd (Reg.LEN_STATUS_RUN (Ch.num c)) = 2) : signed s (s.limitChan c) c := by
  have hlim : s.limitChan c = ((s.reportPoison c).finishSig c s.progCyc).sendSig c := by
    unfold State.limitChan
    dsimp only
    rw [if_pos hrun]
  have hpsn := reportPoison_ch c s
  have hop := reportPoison_op c s
  have hfin := finishSig_op c (s.reportPoison c) s.progCyc
  have hreq : took s c = true → (c, 0x0A) ∈ (s.reportPoison c).md.exclReq := reportPoison_request
  rw [hlim]
  generalize (s.reportPoison c).finishSig c s.progCyc = w at hfin
  have hcyc : w.progCyc = s.progCyc := hfin.limitOp.progCyc.trans hop.progCyc
  refine ⟨⟨sigRecord w c, sendSig_ownSig c w, ?_, rfl, ?_, ?_, ?_, rfl, ?_⟩, fun h => ?_⟩
  · exact congrArg (BitVec.ofNat 16) hcyc
  · rw [sendSig_ch]
    rfl
  · change (w.ch c).ovr = _
    rw [hfin.ch, hpsn]
  · change (w.ch c).repPsn = _
    rw [hfin.ch, hpsn]
  · change (w.ch c).raised.map _ = _
    rw [hfin.ch, hpsn]
  · exact hfin.limitOp.requests _ (hreq h)

/-- What an overrun leaves of its channel. -/
def overran (s t : State) (c : Ch) : Prop :=
  (t.ch c).ovr = true ∧ t.rd (Reg.LEN_STATUS_RUN (Ch.num c)) = 4 ∧ natBit (t.rd Reg.TMU_CYC_OVR_FLAG) (Ch.num c) = true ∧
    (c, 0x09) ∈ t.md.exclReq ∧ ∃ r, t.ownSig c = some r ∧ r.sender = c ∧ r.ovr = true ∧ r.psn = ((s.ch c).repPsn || took s c) ∧
      (took s c = true → (c, 0x0A) ∈ t.md.exclReq)

theorem overrun_overran (c : Ch) (s : State) : overran s (((s.reportPoison c).overrun c).sendSig c) c := by
  have hpsn := reportPoison_ch c s
  have hreq : took s c = true → (c, 0x0A) ∈ (s.reportPoison c).md.exclReq := reportPoison_request
  generalize s.reportPoison c = v at hpsn hreq
  obtain ⟨hregs, -, -, -, hexcl⟩ := overrun_stopped c v
  obtain ⟨hrun, hflag⟩ := overrunRegs_rd c v
  have hch := (overrun_ch c v).1
  have hop := overrun_op c v
  rw [← State.rd_congr hregs] at hrun
  have hbit : natBit ((v.overrun c).rd Reg.TMU_CYC_OVR_FLAG) (Ch.num c) = true := by
    rw [State.rd_congr hregs, hflag _ (by cases c <;> decide), decide_eq_true rfl, Bool.or_true]
  generalize v.overrun c = w at hexcl hrun hch hop hbit
  refine ⟨?_, hrun, hbit, ?_, sigRecord w c, sendSig_ownSig c w, rfl, ?_, ?_, fun h => ?_⟩
  · rw [sendSig_ch, hch]
  · change _ ∈ w.md.exclReq
    rw [hexcl]
    exact List.mem_append_right _ List.mem_cons_self
  · change (w.ch c).ovr = true
    rw [hch]
  · change (w.ch c).repPsn = _
    rw [hch, hpsn]
  · exact hop.requests _ (hreq h)

theorem limitChan_overran (hrun : s.rd (Reg.LEN_STATUS_RUN (Ch.num c)) = 1)
    (hdbg : ¬ (s.md.debug = true ∧ (s.rd Reg.VOT_DBG_STATE = 4 ∨ s.rd Reg.VOT_DBG_STATE = 5))) : overran s (s.limitChan c) c := by
  have hlim : s.limitChan c = ((s.reportPoison c).overrun c).sendSig c := by
    unfold State.limitChan
    dsimp only
    rw [if_neg (by rw [hrun]; decide), if_pos]
    rw [hrun]
    by_cases hd : s.md.debug = true
    · simpa [hd] using hdbg
    · simp [hd]
  rw [hlim]
  exact overrun_overran c s

/-! ### The limit in every channel -/

/-- What a fold over channels leaves at one of them. -/
theorem foldSt_at {P Q : State → Prop} {f : Ch → State → State} (hP : ∀ d, d ≠ c → ∀ u, P u → P (f d u)) (hcQ : ∀ u, P u → Q (f c u))
    (hQ : ∀ d, d ≠ c → ∀ u, Q u → Q (f d u)) {l : List Ch} (hl : l.Nodup) (hc : c ∈ l) {s : State} (hs : P s) : Q (foldSt l f s) := by
  induction l generalizing s with
  | nil => exact absurd hc List.not_mem_nil
  | cons d l ih =>
    obtain ⟨hd, hl⟩ := List.nodup_cons.1 hl
    rcases List.mem_cons.1 hc with rfl | hcl
    · exact foldSt_inv (P := Q) (fun x hx u hu => hQ x (fun h => hd (h ▸ hx)) u hu) (hcQ s hs)
    · exact ih hl hcl (hP d (fun h => hd (h ▸ hcl)) s hs)

/-- What channel `c`'s limit reads is as it was. -/
structure BeforeLimit (c : Ch) (s t : State) : Prop where
  ch : t.ch c = s.ch c
  run : t.rd (Reg.LEN_STATUS_RUN (Ch.num c)) = s.rd (Reg.LEN_STATUS_RUN (Ch.num c))
  state : t.rd Reg.VOT_DBG_STATE = s.rd Reg.VOT_DBG_STATE
  cyc : t.progCyc = s.progCyc
  dbgMode : t.md.debug = s.md.debug

theorem BeforeLimit.step {d : Ch} (hd : d ≠ c) (h : BeforeLimit c s t) (h' : LimitOp d t u) : BeforeLimit c s u :=
  ⟨(h'.others c hd.symm).trans h.ch, (h'.regs _ (limitFlds_run hd.symm)).trans h.run,
    (h'.regs _ fun f hf => (limitFlds_apart d f hf).1).trans h.state, h'.progCyc.trans h.cyc, h'.dbgMode.trans h.dbgMode⟩

theorem ownSig_congr (h : t.ch c = s.ch c) : t.ownSig c = s.ownSig c := by
  unfold State.ownSig
  rw [h]

theorem took_congr (h : t.ch c = s.ch c) : took t c = took s c := by
  unfold took
  rw [h]

theorem signed_step {d : Ch} (hd : d ≠ c) (h : signed s t c) (h' : LimitOp d t u) : signed s u c := by
  have hch := h'.others c hd.symm
  obtain ⟨⟨r, hr, hcyc, hfrom, hacc, hrest⟩, hreq⟩ := h
  exact ⟨⟨r, (ownSig_congr hch).trans hr, hcyc, hfrom, hacc.trans (by rw [hch]), hrest⟩, fun ht => h'.requests _ (hreq ht)⟩

theorem overran_step {d : Ch} (hd : d ≠ c) (h : overran s t c) (h' : LimitOp d t u) : overran s u c := by
  have hch := h'.others c hd.symm
  obtain ⟨hovr, hrun, hflag, hexcl, r, hr, hfrom, hrovr, hpsn, hreq⟩ := h
  refine ⟨by rw [hch]; exact hovr, (h'.regs _ (limitFlds_run hd.symm)).trans hrun, h'.flags _ (by cases c <;> decide) hflag,
    h'.requests _ hexcl, r, (ownSig_congr hch).trans hr, hfrom, hrovr, hpsn, fun ht => h'.requests _ (hreq ht)⟩

theorem signed_of (h : BeforeLimit c s t) (h' : signed t u c) : signed s u c := by
  unfold signed at h' ⊢
  rw [took_congr h.ch, h.ch, h.cyc] at h'
  exact h'

theorem overran_of (h : BeforeLimit c s t) (h' : overran t u c) : overran s u c := by
  unfold overran at h' ⊢
  rw [took_congr h.ch, h.ch] at h'
  exact h'

/-- The channels that the limit finds. -/
def limited (s : State) : List Ch := s.voters.filter fun c => (s.ownSig c).isNone && !(s.ch c).ccuStop

theorem limited_nodup (s : State) : (limited s).Nodup := (nodup_chans _).filter _

theorem executionLimit_exec (h : s.md.loadDone = true) :
    exec .executionLimit s = .next (foldSt (limited s) (fun c s => s.limitChan c) s) := by
  have hx : exec .executionLimit s = execExecutionLimit s := by rfl
  rw [hx, execExecutionLimit, if_pos h]
  rfl

theorem executionLimit_at {Q : State → Prop} (hc : c ∈ limited s) (hcQ : ∀ u, BeforeLimit c s u → Q (u.limitChan c))
    (hQ : ∀ d, d ≠ c → ∀ u, Q u → Q (u.limitChan d)) : Q (foldSt (limited s) (fun c s => s.limitChan c) s) :=
  foldSt_at (P := BeforeLimit c s) (fun d hd u hu => hu.step hd (limitChan_op d u)) hcQ hQ (limited_nodup s) hc ⟨rfl, rfl, rfl, rfl, rfl⟩

/-! ### A debug step that takes too long (R199) -/

/-- The halt points of a debug barrier leave the channels, the requests and the other registers. -/
structure HaltOp (s t : State) : Prop where
  chs : t.chs = s.chs
  exclReq : t.md.exclReq = s.md.exclReq
  regs : keepsRegs s t [Reg.VOT_DBG_STATE, Reg.VOT_DBG_PHASE, Reg.VOT_DBG_CYCLE_CYCLE]

theorem haltAll_op (s : State) (phase : Nat) (newCycle : Bool) : HaltOp s (s.haltAll phase newCycle) := by
  have h : keepsRegs s (((s.modMd fun x => { x with halted := true, dbgHaltReq := none }).wr Reg.VOT_DBG_STATE 3).wr Reg.VOT_DBG_PHASE phase)
      [Reg.VOT_DBG_STATE, Reg.VOT_DBG_PHASE, Reg.VOT_DBG_CYCLE_CYCLE] :=
    (keepsRegs_wr s (f := Reg.VOT_DBG_STATE) (by decide) _).trans (keepsRegs_wr _ (f := Reg.VOT_DBG_PHASE) (by decide) _)
  unfold State.haltAll
  dsimp only
  split
  · exact ⟨rfl, rfl, h.trans (keepsRegs_wr _ (f := Reg.VOT_DBG_CYCLE_CYCLE) (by decide) _)⟩
  · exact ⟨rfl, rfl, h⟩

theorem debugBarrier_op (s : State) : HaltOp s s.debugBarrier := by
  have hrefl : HaltOp s s := ⟨rfl, rfl, keepsRegs_refl s _⟩
  unfold State.debugBarrier
  dsimp only
  split
  · exact hrefl
  · split
    · exact haltAll_op s _ _
    · split
      · split
        · exact ⟨rfl, rfl, keepsRegs_of_eq rfl _⟩
        · split
          · exact ⟨rfl, rfl, keepsRegs_of_eq rfl _⟩
          · exact hrefl
      · exact hrefl

theorem overran_halt (h : overran s t c) (h' : HaltOp t u) : overran s u c := by
  have hch : u.ch c = t.ch c := congrArg (Per3.get · c) h'.chs
  have hne : ∀ f ∈ [Reg.VOT_DBG_STATE, Reg.VOT_DBG_PHASE, Reg.VOT_DBG_CYCLE_CYCLE], (Reg.LEN_STATUS_RUN (Ch.num c)).key ≠ f.key := by
    cases c <;> decide
  obtain ⟨hovr, hrun, hflag, hexcl, r, hr, hfrom, hrovr, hpsn, hreq⟩ := h
  refine ⟨by rw [hch]; exact hovr, (h'.regs _ hne).trans hrun, ?_, by rw [h'.exclReq]; exact hexcl, r, (ownSig_congr hch).trans hr, hfrom, hrovr,
    hpsn, fun ht => by rw [h'.exclReq]; exact hreq ht⟩
  rw [h'.regs _ (by decide)]
  exact hflag

theorem debugStepOverrun_claim (hdebug : s.md.debug = true)
    (hstate : s.rd Reg.VOT_DBG_STATE = 2 ∨ s.rd Reg.VOT_DBG_STATE = 4 ∨ s.rd Reg.VOT_DBG_STATE = 5) (hvote : s.inVote c = true)
    (hrun : s.rd (Reg.LEN_STATUS_RUN (Ch.num c)) = 1) : ∃ t, exec (.debugStepOverrun c) s = .next t ∧ overran s t c := by
  have hx : exec (.debugStepOverrun c) s = execDebugStepOverrun c s := by rfl
  rw [hx, execDebugStepOverrun, if_pos (by simp [hdebug, hvote, hrun, hstate, or_assoc])]
  exact ⟨_, rfl, overran_halt (overrun_overran c s) (debugBarrier_op _)⟩

/-- Settles O40: the limit in one channel reads that channel, the debug registers and the number of the program cycle, which the limits of
the others leave as they were. -/
theorem executionLimitAndOverrun : Obligations.ExecutionLimitAndOverrun := by
  intro s c
  refine ⟨fun hload => ?_, fun hload hvote hsig hrun => ⟨_, executionLimit_exec hload, fun hdone => ?_, fun hlate hdbg => ?_⟩,
    fun hdebug hstate hvote hrun => debugStepOverrun_claim hdebug hstate hvote hrun⟩
  · have hx : exec .executionLimit s = execExecutionLimit s := by rfl
    rw [hx, execExecutionLimit, hload]
    rfl
  · have hmem : c ∈ limited s := List.mem_filter.2 ⟨hvote, by rw [hsig, hrun]; rfl⟩
    exact executionLimit_at (Q := fun t => signed s t c) hmem (fun u hu => signed_of hu (limitChan_signed (hu.run.trans hdone)))
      fun d hd u hu => signed_step hd hu (limitChan_op d u)
  · have hmem : c ∈ limited s := List.mem_filter.2 ⟨hvote, by rw [hsig, hrun]; rfl⟩
    refine executionLimit_at (Q := fun t => overran s t c) hmem (fun u hu => overran_of hu (limitChan_overran (hu.run.trans hlate) ?_))
      fun d hd u hu => overran_step hd hu (limitChan_op d u)
    rw [hu.dbgMode, hu.state]
    exact hdbg

end Sys2Proof.Claims
end

section
/-! The output vote (O43). -/

namespace Sys2Proof.Claims

open Sys2Proof Sys2Proof.Machine

variable {s t u v : State} {n : Nat} {c : Ch}

/-! ### The contributions of one image word (R178) -/

/-- A channel's word as it stands in its master copy. -/
def wordOf (s : State) (i : Nat) (c : Ch) : Psn Word := ⟨FMap.get 0 (s.ch c).img i, FMap.get false (s.ch c).pmap (Miu.pkey (Miu.cwMaster i) i)⟩

theorem contrib_sound {i : Nat} (cs : List Ch) (h : ∀ c ∈ cs, FMap.get 0 (s.ch c).errs (Miu.cwMaster i) = 0) :
    s.contrib i cs = (cs.map fun c => (c, wordOf s i c), s) := by
  have hfold (l : List Ch) (hl : ∀ c ∈ l, FMap.get 0 (s.ch c).errs (Miu.cwMaster i) = 0) (a : List (Ch × Psn Word)) :
      l.foldl (fun (p : List (Ch × Psn Word) × State) c =>
        let (v, s) := p.2.readImg c none i
        (p.1 ++ [(c, v)], s)) (a, s) = (a ++ l.map fun c => (c, wordOf s i c), s) := by
    induction l generalizing a with
    | nil => simp
    | cons c l ih =>
      rw [List.foldl_cons]
      dsimp only
      rw [State.readImg_clean s c none i (hl c List.mem_cons_self)]
      dsimp only
      rw [ih fun d hd => hl d (List.mem_cons_of_mem c hd)]
      simp [wordOf, State.ideal, Img.cw]
  exact (hfold cs h []).trans (by rw [List.nil_append])

/-- A bit is voted on where two contributions that are not poisoned hold it at 1. -/
theorem votedOn_contrib (cs : List Ch) (w : Ch → Psn Word) (b : Nat) : votedOn (contribBits (cs.map fun c => (c, w c)) b) =
    decide (2 ≤ (cs.filter fun c => (w c).p = false && (w c).v.getLsbD b).length) := by
  unfold votedOn contribBits
  simp only [List.filter_map, List.length_map, List.filter_filter]
  rw [List.filter_congr fun c _ => ?_]
  change ((w c).v.getLsbD b && !(w c).p) = _
  cases (w c).p <;> cases (w c).v.getLsbD b <;> rfl

/-! ### The cells (R174, R203) -/

theorem vote_sound {x : Cells} {b : Nat} (hhi : x.hi.getLsbD b = false) (hlo : x.lo.getLsbD b = false) (on : Bool) : x.vote b on = on := by
  unfold Cells.vote
  rw [hhi, hlo]
  cases on <;> rfl

/-- A list with at most one more element than two that fail a test passes it at most once. -/
theorem filter_lt_two {α : Type} {p : α → Bool} {l : List α} {a b : α} (ha : a ∈ l) (hb : b ∈ l) (hne : a ≠ b) (hpa : p a = false) (hpb : p b = false)
    (hlen : l.length ≤ 3) : (l.filter p).length < 2 := by
  have hrest : 2 ≤ (l.filter fun x => !p x).length :=
    two_le_length (List.mem_filter.2 ⟨ha, by rw [hpa]; rfl⟩) (List.mem_filter.2 ⟨hb, by rw [hpb]; rfl⟩) hne
  have hsum := List.length_eq_length_filter_add (l := l) p
  omega

theorem cellVote_sound {b : Nat} {x y : Ch} (hx : x ∈ s.cellsIn) (hy : y ∈ s.cellsIn) (hne : x ≠ y)
    (hsx : (s.sio.cells.get x).hi.getLsbD b = false ∧ (s.sio.cells.get x).lo.getLsbD b = false)
    (hsy : (s.sio.cells.get y).hi.getLsbD b = false ∧ (s.sio.cells.get y).lo.getLsbD b = false) (on : Bool) : s.cellVote b on = on := by
  have hvx := vote_sound hsx.1 hsx.2 on
  have hvy := vote_sound hsy.1 hsy.2 on
  unfold State.cellVote
  cases on with
  | true => exact decide_eq_true (two_le_length (List.mem_filter.2 ⟨hx, hvx⟩) (List.mem_filter.2 ⟨hy, hvy⟩) hne)
  | false =>
    refine decide_eq_false (Nat.not_le.2 (filter_lt_two hx hy hne hvx hvy ?_))
    exact (List.length_filter_le _ _).trans (by decide)

/-! ### The staging of an output (R247) -/

/-- What the vote of an output reads of the state. -/
structure VoteOp (s t : State) : Prop where
  regs : ∀ g : Fld, chanKey g.key = false → t.rd g = s.rd g
  md : t.md = s.md
  cells : t.sio.cells = s.sio.cells
  st : ∀ d, (t.ch d).st = (s.ch d).st
  plumb : ∀ d, (t.ch d).plumbLeft = (s.ch d).plumbLeft

theorem VoteOp.refl (s : State) : VoteOp s s := ⟨fun _ _ => rfl, rfl, rfl, fun _ => rfl, fun _ => rfl⟩

theorem VoteOp.trans (h : VoteOp s t) (h' : VoteOp t u) : VoteOp s u :=
  ⟨fun g hg => (h'.regs g hg).trans (h.regs g hg), h'.md.trans h.md, h'.cells.trans h.cells, fun d => (h'.st d).trans (h.st d),
    fun d => (h'.plumb d).trans (h.plumb d)⟩

theorem MiuOp.voteOp (h : MiuOp s t) : VoteOp s t :=
  ⟨h.regs, by rw [h.frame], by rw [h.frame], fun d => by rw [h.ch d], fun d => by rw [h.ch d]⟩

theorem VoteOp.cellsIn (h : VoteOp s t) : t.cellsIn = s.cellsIn := by
  unfold State.cellsIn State.booted
  simp only [h.md, h.st, h.plumb]

theorem VoteOp.followed (h : VoteOp s t) {o : Nat} (ho : o < 12) : t.followed o = s.followed o := by
  have hkey : ∀ o < 12, chanKey (Reg.SIO_OUT_CFG_PARALLEL o).key = false := by decide
  unfold State.followed State.partner
  rw [rdb_of_rd (h.regs _ (hkey o ho))]

theorem voteTarget_op (s : State) (cs : List Ch) (w : Nat) : MiuOp s (s.voteTarget cs w).2 := by
  unfold State.voteTarget
  exact MiuOp.foldl (β := List (Option Nat)) (fun p c => (MiuOp.readImg p.2 c none _).trans (MiuOp.readImg _ c none _)) cs ([], s)

/-- An output's target as its channels vote it, and the state after the reads. -/
def outTarget (cs : List Ch) (o : Nat) (s : State) : Option Nat × State :=
  if s.rdb (Reg.SIO_OUT_CFG_TIMED o) then s.voteTarget cs (s.rd (Reg.SIO_OUT_CFG_TIMED_WORD o)) else (some 0, s)

theorem outTarget_op (cs : List Ch) (o : Nat) (s : State) : MiuOp s (outTarget cs o s).2 := by
  unfold outTarget
  split
  · exact voteTarget_op s cs _
  · exact MiuOp.refl s

/-- What is staged for an output. -/
def outStaged (on : Bool) (target : Option Nat) (x : OutSt) : OutSt :=
  { x with stHs := on, stLs := on, target := target.getD 0, targetOk := target.isSome }

theorem stageOutput_eq (s : State) (cs : List Ch) (l : List (Ch × Psn Word)) (safe : Bool) (o : Nat) : s.stageOutput cs l safe o =
    (outTarget cs o s).2.modOut o (outStaged (s.cellVote o (votedOn (contribBits l (s.followed o))) && !safe) (outTarget cs o s).1) := rfl

theorem stageOutput_op (s : State) (cs : List Ch) (l : List (Ch × Psn Word)) (safe : Bool) (o : Nat) :
    VoteOp s (s.stageOutput cs l safe o) ∧ ∀ p, p ≠ o → (s.stageOutput cs l safe o).out p = s.out p := by
  have h := outTarget_op cs o s
  rw [stageOutput_eq]
  refine ⟨h.voteOp.trans ⟨fun _ _ => rfl, rfl, rfl, fun _ => rfl, fun _ => rfl⟩, fun p hp => ?_⟩
  rw [out_modOut_ne _ _ hp, State.out, h.frame, State.out]

/-- The outputs staged in turn. -/
def outsStaged (s : State) (cs : List Ch) (l : List (Ch × Psn Word)) (safe : Bool) : State :=
  foldSt out12 (fun o s => s.stageOutput cs l safe o) s

/-- What is staged for an output does not depend on the others. -/
theorem outsStaged_out (s : State) (cs : List Ch) (l : List (Ch × Psn Word)) (safe : Bool) {o : Nat} (ho : o < 12) :
    ∃ v, VoteOp s v ∧ (outsStaged s cs l safe).out o = (v.stageOutput cs l safe o).out o := by
  let P := fun (k : Nat) (u : State) => VoteOp s u ∧ (o < k → ∃ v, VoteOp s v ∧ u.out o = (v.stageOutput cs l safe o).out o)
  have h : P 12 (outsStaged s cs l safe) := by
    refine foldSt_range (P := P) ⟨VoteOp.refl s, fun h => absurd h (Nat.not_lt_zero o)⟩ fun k u _ hP => ?_
    obtain ⟨hu, hout⟩ := hP
    obtain ⟨hop, hothers⟩ := stageOutput_op u cs l safe k
    refine ⟨hu.trans hop, fun hk => ?_⟩
    by_cases hok : o = k
    · subst hok
      exact ⟨u, hu, rfl⟩
    · obtain ⟨v, hv, hvo⟩ := hout (by omega)
      exact ⟨v, hv, (hothers o hok).trans hvo⟩
  exact h.2 ho

theorem stageOutput_out (s : State) (cs : List Ch) (l : List (Ch × Psn Word)) (safe : Bool) (o : Nat) :
    ((s.stageOutput cs l safe o).out o).stHs = (s.cellVote o (votedOn (contribBits l (s.followed o))) && !safe) ∧
      ((s.stageOutput cs l safe o).out o).stLs = (s.cellVote o (votedOn (contribBits l (s.followed o))) && !safe) ∧
      (s.rdb (Reg.SIO_OUT_CFG_TIMED o) = false → ((s.stageOutput cs l safe o).out o).target = 0 ∧
        ((s.stageOutput cs l safe o).out o).targetOk = true) := by
  rw [stageOutput_eq, out_modOut_same]
  refine ⟨rfl, rfl, fun h => ?_⟩
  have ht : outTarget cs o s = (some 0, s) := by
    unfold outTarget
    rw [h]
    rfl
  rw [ht]
  exact ⟨rfl, rfl⟩

/-! ### The rest of the vote -/

/-- The outputs and the cells are no part of what a step writes. -/
def sameSio (s t : State) : Prop := t.sio = s.sio

theorem sameSio.trans (h : sameSio s t) (h' : sameSio t u) : sameSio s u := Eq.trans h' h

theorem MiuOp.sameSio (h : MiuOp s t) : sameSio s t := by
  unfold Claims.sameSio
  rw [h.frame]

theorem sameSio_foldSt {α : Type} {f : α → State → State} (h : ∀ x s, sameSio s (f x s)) (l : List α) (s : State) : sameSio s (foldSt l f s) :=
  foldSt_inv (P := sameSio s) (fun x _ u hu => hu.trans (h x u)) rfl

theorem sameSio_foldl {α β : Type} {f : β × State → α → β × State} (h : ∀ p x, sameSio p.2 (f p x).2) (l : List α) (p : β × State) :
    sameSio p.2 (l.foldl f p).2 := by
  induction l generalizing p with
  | nil => rfl
  | cons x l ih => exact (h p x).trans (ih (f p x))

theorem gather_op (s : State) (c : Ch) (locs : List Nat) : MiuOp s (s.gather c locs).2 :=
  MiuOp.foldl (β := List (Psn Word)) (fun p _ => MiuOp.readImg p.2 c none _) locs ([], s)

theorem contrib_op (s : State) (i : Nat) (cs : List Ch) : MiuOp s (s.contrib i cs).2 :=
  MiuOp.foldl (β := List (Ch × Psn Word)) (fun p c => MiuOp.readImg p.2 c none _) cs ([], s)

theorem wordVote_op (s : State) (cs : List Ch) (w : Nat) : MiuOp s (s.wordVote cs w).2 := contrib_op s (Img.ofWord w) cs

theorem stageFallback_sio (s : State) (l : List (Ch × Psn Word)) (safe : Bool) : sameSio s (s.stageFallback l safe) := by
  unfold State.stageFallback
  split
  · rfl
  · dsimp only
    split_ifs <;> rfl

theorem stageEntry_sio (s : State) (valid : List Ch) (e : Nat) : sameSio s (s.stageEntry valid e).2 := by
  unfold State.stageEntry
  extract_lets x n status connId frozen seq u tail
  have hu : sameSio s u := by
    unfold u
    split <;> rfl
  split
  rename_i v hv
  have hv : sameSio s v := by
    have hfold : ∀ (p : List (Ch × List (Option Byte)) × State) (c : Ch), sameSio p.2 (if x.safety && status = 1 then
          (p.1 ++ [(c, tail (List.replicate n (some 0)))], p.2)
        else if x.safety && status = 2 then (p.1 ++ [(c, tail (frozen.map some))], p.2)
        else
          let (l, s) := p.2.gather c x.locs
          (p.1 ++ [(c, tail (contribution l))], s)).2 := by
      intro p c
      split
      · rfl
      · split
        · rfl
        · exact (gather_op p.2 c x.locs).sameSio
    have h := sameSio_foldl hfold valid ([], u)
    rw [hv] at h
    exact hu.trans h
  extract_lets payload diff w
  clear_value payload diff
  have hw : sameSio s w := by
    unfold w
    split
    · split
      · exact hv
      · exact hv
    · exact hv
  clear_value w
  split
  rename_i t ht
  have ht : sameSio s t := by
    revert ht
    split
    · rename_i k _
      intro ht
      have h := (voteTarget_op w valid (w.rd (Reg.TMU_LAUNCH_TARGET_WORD k))).sameSio
      rw [ht] at h
      exact hw.trans h
    · intro ht
      rw [← (Prod.mk.inj ht).2]
      exact hw
  split
  · split
    · exact ht
    · exact ht
  · exact ht

theorem stageFrames_sio (s : State) (valid : List Ch) : sameSio s (s.stageFrames valid).2 := by
  refine sameSio_foldl (β := List Ch) (fun p e => ?_) s.entries ([], s)
  dsimp only
  split
  · exact stageEntry_sio p.2 valid e
  · split
    · split
      · exact stageEntry_sio { p.2 with free := p.2.free + 1 } valid e
      · rfl
    · rfl

theorem loopStage_sio (s : State) (n : Nat) (v : Option Word) : sameSio s (s.loopStage n v) := by
  unfold State.loopStage
  cases v with
  | none => rfl
  | some w =>
    dsimp only
    split <;> rfl

theorem stageWords_sio (s : State) (cs : List Ch) : sameSio s (s.stageWords cs) := by
  unfold State.stageWords
  refine sameSio.trans (t := s.modGwy fun x => { x with noMaj := [] }) rfl (sameSio.trans (sameSio_foldSt (fun i u => ?_) _ _)
    (sameSio_foldSt (fun n u => ?_) _ _))
  · have h := (wordVote_op u cs (0x180 + i)).sameSio
    split <;> rename_i hv <;> rw [hv] at h <;> exact h
  · have h := (wordVote_op u cs (0x1F8 + 2 * n)).sameSio
    refine h.trans (sameSio.trans (t := if (u.wordVote cs (0x1F8 + 2 * n)).1.isNone then
      (u.wordVote cs (0x1F8 + 2 * n)).2.modMd fun x => { x with noMaj := x.noMaj + 1 } else (u.wordVote cs (0x1F8 + 2 * n)).2) ?_
      (loopStage_sio _ n _))
    split <;> rfl

/-- The event words of a channel as read. -/
def eventsRead (s : State) (c : Ch) : FMap Word × State :=
  (List.range' 0x60 32).foldl (fun (p : FMap Word × State) i =>
    let (v, s) := p.2.readImg c none i
    (FMap.set 0 p.1 i v.v, s)) ([], s)

/-- An event bit that rose is reported. -/
def eventRose (c : Ch) (old : FMap Word) (e : Nat × Word) (s : State) : State :=
  let rose := e.2 &&& ~~~FMap.get 0 old e.1
  foldSt (List.range 32) (fun b s =>
    let n := (e.1 - 0x60) * 32 + b
    let sev := FMap.get 0 s.sio.evSev n
    if rose.getLsbD b && sev ≠ 0 then s.report c (s.progEvent (sev - 1) 0x03 [n]) else s) s

theorem eventBits_eq (s : State) (c : Ch) : s.eventBits c =
    (foldSt (eventsRead s c).1 (eventRose c ((eventsRead s c).2.ch c).prevEvents) (eventsRead s c).2).modCh c fun h =>
      { h with prevEvents := (eventsRead s c).1 } := rfl

theorem eventBits_sio (s : State) (c : Ch) : sameSio s (s.eventBits c) := by
  have hread : sameSio s (eventsRead s c).2 :=
    (MiuOp.foldl (β := FMap Word) (fun p _ => MiuOp.readImg p.2 c none _) (List.range' 0x60 32) ([], s)).sameSio
  have hrep : ∀ (u : State) (e : RecEv), sameSio u (u.report c e) := fun u e => by
    unfold sameSio
    rw [(report_reports u c e []).frame]
  have hrose : ∀ (e : Nat × Word) (u : State), sameSio u (eventRose c ((eventsRead s c).2.ch c).prevEvents e u) := fun e u => by
    refine sameSio_foldSt (fun b u => ?_) (List.range 32) u
    dsimp only
    split
    · exact hrep u _
    · rfl
  rw [eventBits_eq]
  exact hread.trans (sameSio_foldSt hrose (eventsRead s c).1 (eventsRead s c).2)

theorem stageAck_sio (s : State) (cs : List Ch) : sameSio s (s.stageAck cs) := by
  unfold State.stageAck
  split
  · split <;> rfl
  · split <;> rfl
  · split <;> rfl
  · rfl

/-! ### The vote -/

/-- What leads to SAFE at the next Tc, or holds the program (R179). -/
def votesSafe (s : State) : Bool := s.md.safeStage || s.md.assertStage || s.md.halted

/-- A difference counted. -/
def diffCounted (c : Ch) (s : State) : State := (s.inc (diffCount c)).setBit Reg.VOT_OUT_DIFF_FLAG (Ch.num c)

theorem diffCounted_sio (c : Ch) (s : State) : sameSio s (diffCounted c s) := rfl

/-- What follows the frames in a vote. -/
def voteClosed (cs diff done : List Ch) (s : State) : State :=
  foldSt done (fun c s => s.eventBits c) (((foldSt diff diffCounted s).stageWords cs).stageAck cs)

theorem voteClosed_sio (cs diff done : List Ch) (s : State) : sameSio s (voteClosed cs diff done s) :=
  (sameSio_foldSt diffCounted_sio diff s).trans ((stageWords_sio _ cs).trans ((stageAck_sio _ cs).trans
    (sameSio_foldSt (f := fun c s => State.eventBits s c) (fun c u => eventBits_sio u c) done _)))

/-- The vote over contributions that read clean: the outputs are staged, and what follows writes none. -/
theorem vote_shape {l : List (Ch × Psn Word)} (h : s.contrib 0x20 s.contributors = (l, s)) :
    sameSio (outsStaged s s.contributors l (votesSafe s)) s.vote ∧ s.vote.md.voted = true := by
  unfold State.vote
  extract_lets cs safe
  split
  rename_i l' v hv
  obtain ⟨rfl, rfl⟩ := Prod.mk.inj (h.symm.trans hv)
  extract_lets v1 v2 d0
  have hfall : sameSio (outsStaged s s.contributors l (votesSafe s)) v2 := stageFallback_sio v1 l safe
  clear_value v2
  split
  rename_i d u hframes
  have hu : sameSio v2 u := by
    revert hframes
    split
    · intro he
      exact congrArg State.sio (Prod.mk.inj he).2.symm
    · intro he
      have hs := stageFrames_sio v2 cs
      rw [he] at hs
      exact hs
  extract_lets w1 w2 done ran w3
  have hw : sameSio u w3 := voteClosed_sio cs _ done u
  exact ⟨hfall.trans (hu.trans hw), rfl⟩

/-- The channels that hold an output's command bit at 1. -/
def yesOf (s : State) (o : Nat) : List Ch :=
  s.contributors.filter fun c => FMap.get false (s.ch c).pmap (Miu.pkey (Miu.cwMaster 0x20) 0x20) = false &&
    (FMap.get 0 (s.ch c).img 0x20).getLsbD (s.followed o)

theorem outputVote_exec (htaken : s.md.taken = true) (hopen : s.md.voted = false) (hmode : s.fromStartup = true) (hw : s.md.wHold = 0)
    (hup : s.down = false) : exec .outputVote s = .next s.vote := by
  have hx : exec .outputVote s = execOutputVote s := by rfl
  rw [hx, execOutputVote, if_pos (by rw [htaken, hopen, hmode, hw, hup]; rfl)]

theorem vote_out (hclean : ∀ c ∈ s.contributors, FMap.get 0 (s.ch c).errs (Miu.cwMaster 0x20) = 0) {o : Nat} (ho : o < 12) {x y : Ch}
    (hx : x ∈ s.cellsIn) (hy : y ∈ s.cellsIn) (hne : x ≠ y)
    (hsx : (s.sio.cells.get x).hi.getLsbD o = false ∧ (s.sio.cells.get x).lo.getLsbD o = false)
    (hsy : (s.sio.cells.get y).hi.getLsbD o = false ∧ (s.sio.cells.get y).lo.getLsbD o = false) :
    (s.vote.out o).stHs = (decide (2 ≤ (yesOf s o).length) && !votesSafe s) ∧
      (s.vote.out o).stLs = (decide (2 ≤ (yesOf s o).length) && !votesSafe s) ∧
      (s.rdb (Reg.SIO_OUT_CFG_TIMED o) = false → (s.vote.out o).target = 0 ∧ (s.vote.out o).targetOk = true) := by
  have hkey : ∀ o < 12, chanKey (Reg.SIO_OUT_CFG_TIMED o).key = false := by decide
  have hcontrib := contrib_sound s.contributors hclean
  obtain ⟨v, hv, hout⟩ := outsStaged_out s s.contributors (s.contributors.map fun c => (c, wordOf s 0x20 c)) (votesSafe s) ho
  have hsame : s.vote.out o = (v.stageOutput s.contributors (s.contributors.map fun c => (c, wordOf s 0x20 c)) (votesSafe s) o).out o := by
    rw [← hout]
    unfold State.out
    rw [(vote_shape hcontrib).1]
  have hcell : v.cellVote o = fun on => on := by
    funext on
    refine cellVote_sound (hv.cellsIn.symm ▸ hx) (hv.cellsIn.symm ▸ hy) hne ?_ ?_ on
    · rw [hv.cells]
      exact hsx
    · rw [hv.cells]
      exact hsy
  obtain ⟨hhs, hls, htarget⟩ := stageOutput_out v s.contributors (s.contributors.map fun c => (c, wordOf s 0x20 c)) (votesSafe s) o
  rw [hcell, hv.followed ho, votedOn_contrib] at hhs hls
  rw [hsame]
  refine ⟨hhs, hls, fun h => htarget ?_⟩
  rw [rdb_of_rd (hv.regs _ (hkey o ho)), h]

/-- Settles O43: a sound majority of cells gives what two contributions carry, the reads of the other outputs change nothing of what an
output's vote reads, and nothing after the outputs writes them. -/
theorem outputsAreVoted : Obligations.OutputsAreVoted := by
  intro s htaken hopen hmode hw hup hclean
  refine ⟨_, outputVote_exec htaken hopen hmode hw hup, (vote_shape (contrib_sound s.contributors hclean)).2, fun o ho hsound => ?_⟩
  obtain ⟨x, hx, y, hy, hne, hsx, hsy⟩ := hsound
  exact vote_out hclean ho hx hy hne hsx hsy

end Sys2Proof.Claims
end

section
/-! The slots of an arbiter: O50. -/

namespace Sys2Proof.Claims

open Sys2Proof Sys2Proof.Machine

variable {s t u : State}

/-! ### Steps of the twin unit -/

/-- A step of the twin unit: it changes nothing but its own state and the fields listed. -/
structure TwnOp (s t : State) (l : List Fld) : Prop where
  frame : t = { s with regs := t.regs, twn := t.twn }
  regs : keepsRegs s t l

theorem TwnOp.refl (s : State) (l : List Fld) : TwnOp s s l := ⟨rfl, keepsRegs_refl s l⟩

theorem TwnOp.trans {l : List Fld} (h : TwnOp s t l) (h' : TwnOp t u l) : TwnOp s u l where
  frame := by rw [h'.frame, h.frame]
  regs := h.regs.trans h'.regs

theorem TwnOp.wr {l : List Fld} (h : TwnOp s t l) {f : Fld} (hf : f ∈ l) (v : Nat) : TwnOp s (t.wr f v) l :=
  h.trans ⟨rfl, keepsRegs_wr t hf v⟩

theorem TwnOp.wrb {l : List Fld} (h : TwnOp s t l) {f : Fld} (hf : f ∈ l) (b : Bool) : TwnOp s (t.wrb f b) l := h.wr hf _

theorem TwnOp.inc {l : List Fld} (h : TwnOp s t l) {f : Fld} (hf : f ∈ l) : TwnOp s (t.inc f) l := h.wr hf _

theorem TwnOp.modTwn {l : List Fld} (h : TwnOp s t l) (f : TwnSt → TwnSt) : TwnOp s (t.modTwn f) l :=
  h.trans ⟨rfl, keepsRegs_of_eq rfl _⟩

theorem TwnOp.modSlot {l : List Fld} (h : TwnOp s t l) (p : Nat) (f : ArbSlot → ArbSlot) : TwnOp s (t.modSlot p f) l := h.modTwn _

theorem TwnOp.mono {l l' : List Fld} (h : TwnOp s t l) (hl : ∀ f ∈ l, f ∈ l') : TwnOp s t l' := ⟨h.frame, h.regs.mono hl⟩

theorem onlyTwn_trans (h : onlyTwn s t) (h' : onlyTwn t u) : onlyTwn s u := by
  unfold onlyTwn at h h' ⊢
  rw [h', h]

theorem TwnOp.tm {l : List Fld} (h : TwnOp s t l) : t.tm = s.tm := by rw [h.frame]

/-! ### Slots -/

theorem slot_modSlot_same (s : State) (p : Nat) (f : ArbSlot → ArbSlot) : (s.modSlot p f).slot p = f (s.slot p) :=
  FMap.get_set_same ArbSlot.init s.twn.arb p _

theorem slot_modSlot_ne (s : State) (f : ArbSlot → ArbSlot) {p q : Nat} (h : q ≠ p) : (s.modSlot p f).slot q = s.slot q :=
  FMap.get_set_ne ArbSlot.init s.twn.arb _ h

theorem slot_congr (h : t.twn.arb = s.twn.arb) (q : Nat) : t.slot q = s.slot q := by rw [State.slot, h, State.slot]

theorem slots_lt {p : Nat} (h : p ∈ s.slots) : p < 8 := List.mem_range.1 (List.mem_filter.1 h).1

theorem slotOf_mem {pair p : Nat} (h : s.slotOf pair = some p) : p ∈ s.slots := List.mem_of_find?_eq_some h

/-- The fields that say whom the slots serve, and whether the arbiter serves. -/
def servingFlds : List Fld :=
  [Reg.PTN_STATUS_EDGE_LOADED, Reg.MOD_DOMAIN_PGOOD, Reg.PTN_BYPASS_STAGE] ++
    (List.range 8).flatMap fun p => [Reg.TWN_ARB_STATE_SERVING p, Reg.TWN_ARB_STATE_PAIR_ID p]

theorem serving_mem {p : Nat} (hp : p < 8) :
    Reg.TWN_ARB_STATE_SERVING p ∈ servingFlds ∧ Reg.TWN_ARB_STATE_PAIR_ID p ∈ servingFlds := by
  constructor <;> refine List.mem_append_right _ (List.mem_flatMap.2 ⟨p, List.mem_range.2 hp, ?_⟩) <;> simp

theorem slotOf_congr (h : ∀ f ∈ servingFlds, t.rd f = s.rd f) (pair : Nat) : t.slotOf pair = s.slotOf pair := by
  have hslots : t.slots = s.slots :=
    List.filter_congr fun p hp => rdb_of_rd (h _ (serving_mem (List.mem_range.1 hp)).1)
  unfold State.slotOf
  rw [hslots]
  exact List.find?_congr fun p hp => by rw [h _ (serving_mem (slots_lt hp)).2]

theorem TwnOp.arbUp {l : List Fld} (h : TwnOp s t l) (hl : ∀ g ∈ servingFlds, ∀ f ∈ l, g.key ≠ f.key) : t.arbUp = s.arbUp := by
  have hrd (g : Fld) (hg : g ∈ servingFlds) : t.rd g = s.rd g := h.regs g (hl g hg)
  have hedge : t.edgeUp = s.edgeUp := by
    rw [State.edgeUp, State.edgeUp, rdb_of_rd (hrd Reg.PTN_STATUS_EDGE_LOADED (by decide)), hrd Reg.MOD_DOMAIN_PGOOD (by decide),
      hrd Reg.PTN_BYPASS_STAGE (by decide)]
  unfold State.arbUp
  rw [hedge, h.frame]
  rfl

/-! ### RENEW (R381, R383) -/

/-- The fields that a partner's RENEW writes. -/
def renewFlds : List Fld :=
  [Reg.TWN_EPOCH_EPOCH, Reg.TWN_HANDOVER_RESULT, Reg.TWN_HANDOVER_SEQ, Reg.TWN_HO_TARGET_LO_T_LO, Reg.TWN_HO_TARGET_HI_T_HI]

theorem hearRenew_op (s : State) (m : LeaseMsg) : TwnOp s (s.hearRenew m) renewFlds ∧ (s.hearRenew m).twn.arb = s.twn.arb := by
  have h0 : TwnOp s ((s.modTwn fun x => { x with heard := some s.tm.cyc, heardCnt := 0, known := m.epoch }).wr Reg.TWN_EPOCH_EPOCH m.epoch)
      renewFlds := ((TwnOp.refl s _).modTwn _).wr (by decide) _
  have hho (u : State) : TwnOp u ((((u.modTwn fun x => { x with ho := some m.last }).wr Reg.TWN_HANDOVER_RESULT 1).wr
      Reg.TWN_HO_TARGET_LO_T_LO (m.last * u.tbc)).wr Reg.TWN_HO_TARGET_HI_T_HI (m.last * u.tbc / 2 ^ 32)) renewFlds :=
    ((((TwnOp.refl u _).modTwn _).wr (by decide) _).wr (by decide) _).wr (by decide) _
  have hres (u : State) : TwnOp u (u.hoResult 5) renewFlds :=
    (((TwnOp.refl u _).wr (by decide) _).wr (by decide) _).modTwn _
  unfold State.hearRenew
  extract_lets
  split_ifs
  · exact ⟨h0, rfl⟩
  · exact ⟨h0.trans (hho _), rfl⟩
  · exact ⟨h0.trans (hres _), rfl⟩
  · exact ⟨h0, rfl⟩
  · exact ⟨TwnOp.refl s _, rfl⟩

/-- The lease that a slot takes from a RENEW (R381). -/
def renewed (m : LeaseMsg) (cyc : Nat) (x : ArbSlot) : ArbSlot :=
  { x with
    heard := some cyc, high := Max.max x.high m.epoch, holder := m.src, epoch := m.epoch, r := cyc, kSnap := m.kSnap, flags := m.flags,
    named := m.node, h := m.last, renewed := true }

/-- What a slot's registers show of a RENEW. -/
def leaseVals (s : State) (p : Nat) (m : LeaseMsg) : List (Fld × Nat) :=
  [(Reg.TWN_ARB_STATE_STATE p, 1), (Reg.TWN_ARB_STATE_HOLDER p, m.src), (Reg.TWN_ARB_EPOCH_EPOCH p, m.epoch),
    (Reg.TWN_ARB_RENEW_CYCLE p, s.tm.cyc)]

/-- A slot takes the lease of a RENEW, and its registers show it. -/
def slotRenewed (s : State) (p : Nat) (m : LeaseMsg) : State :=
  writes (leaseVals s p m)
    ((s.modSlot p fun x => { x with heard := some s.tm.cyc, high := max x.high m.epoch }).modSlot p fun x => { x with
      holder := m.src, epoch := m.epoch, r := s.tm.cyc, kSnap := m.kSnap, flags := m.flags, named := m.node, h := m.last, renewed := true })

theorem renewReceive_accepted {m : LeaseMsg} {p : Nat} (hok : s.leaseOk m 1 = true)
    (hslot : ((s.leaseHeard m).hearRenew m).slotOf m.pair = some p) (hup : ((s.leaseHeard m).hearRenew m).arbUp = true)
    (hacc : (((s.leaseHeard m).hearRenew m).slot p).accepts
      (((s.leaseHeard m).hearRenew m).rd (Reg.TWN_ARB_STATE_STATE p) = 0) m = true) :
    exec (.renewReceive m) s = .next (slotRenewed ((s.leaseHeard m).hearRenew m) p m) := by
  have hx : exec (.renewReceive m) s = execRenewReceive m s := by rfl
  have hacc' : ((((s.leaseHeard m).hearRenew m).modSlot p fun x => { x with
        heard := some ((s.leaseHeard m).hearRenew m).tm.cyc, high := max x.high m.epoch }).slot p).accepts
      (((s.leaseHeard m).hearRenew m).rd (Reg.TWN_ARB_STATE_STATE p) = 0) m = true := by
    rw [slot_modSlot_same]
    exact hacc
  rw [hx, execRenewReceive, hok, if_neg (by decide)]
  dsimp only
  rw [hslot]
  dsimp only
  rw [hup, if_neg (by decide)]
  exact congrArg Host.Outcome.next (if_pos hacc')

/-- What each of several fields holds after all are written, cut to its width. -/
theorem rd_writes_cut {l : List (Fld × Nat)} (h : (l.map Prod.fst).Pairwise fun a b => a.key ≠ b.key) (s : State) {e : Fld × Nat}
    (he : e ∈ l) : (writes l s).rd e.1 = e.2 % 2 ^ e.1.width := by
  induction l generalizing s with
  | nil => exact absurd he List.not_mem_nil
  | cons a l ih =>
    obtain ⟨hne, hpair⟩ := List.pairwise_cons.1 h
    rcases List.mem_cons.1 he with rfl | he
    · exact (rd_writes_ne l (s.wr e.1 e.2) fun b hb => hne b.1 (List.mem_map_of_mem hb)).trans (State.rd_wr_same s e.1 e.2)
    · exact ih hpair (s.wr a.1 a.2) he

/-- The fields of a slot's lease. -/
def leaseFlds (p : Nat) : List Fld :=
  [Reg.TWN_ARB_STATE_STATE p, Reg.TWN_ARB_STATE_HOLDER p, Reg.TWN_ARB_EPOCH_EPOCH p, Reg.TWN_ARB_RENEW_CYCLE p]

theorem leaseFlds_apart : ∀ p < 8, (leaseFlds p).Pairwise fun a b => a.key ≠ b.key := by decide

theorem slotRenewed_only (s : State) (p : Nat) (m : LeaseMsg) : onlyTwn s (slotRenewed s p m) := by
  unfold slotRenewed onlyTwn
  rw [writes_frame]
  rfl

theorem slotRenewed_twn (s : State) (p : Nat) (m : LeaseMsg) :
    (slotRenewed s p m).slot p = renewed m s.tm.cyc (s.slot p) ∧ ∀ q, q ≠ p → (slotRenewed s p m).slot q = s.slot q := by
  have h (q : Nat) : (slotRenewed s p m).slot q = ((s.modSlot p fun x => { x with heard := some s.tm.cyc, high := max x.high m.epoch }).modSlot p
      fun x => { x with holder := m.src, epoch := m.epoch, r := s.tm.cyc, kSnap := m.kSnap, flags := m.flags, named := m.node, h := m.last,
                        renewed := true }).slot q := by rfl
  constructor
  · rw [h, slot_modSlot_same, slot_modSlot_same]
    rfl
  · intro q hq
    rw [h, slot_modSlot_ne _ _ hq, slot_modSlot_ne _ _ hq]

theorem slotRenewed_rd (s : State) {p : Nat} (hp : p < 8) (m : LeaseMsg) :
    (slotRenewed s p m).rd (Reg.TWN_ARB_STATE_STATE p) = 1 ∧ (slotRenewed s p m).rd (Reg.TWN_ARB_STATE_HOLDER p) = m.src % 64 ∧
      (slotRenewed s p m).rd (Reg.TWN_ARB_EPOCH_EPOCH p) = m.epoch % 2 ^ 32 ∧
      (slotRenewed s p m).rd (Reg.TWN_ARB_RENEW_CYCLE p) = s.tm.cyc % 2 ^ 32 := by
  have hrd {e : Fld × Nat} (he : e ∈ leaseVals s p m) : (slotRenewed s p m).rd e.1 = e.2 % 2 ^ e.1.width :=
    rd_writes_cut (l := leaseVals s p m) (leaseFlds_apart p hp) _ he
  exact ⟨hrd (.head _), hrd (.tail _ (.head _)), hrd (.tail _ (.tail _ (.head _))), hrd (.tail _ (.tail _ (.tail _ (.head _))))⟩

theorem renewReceive_next {m : LeaseMsg} {p : Nat} (hup : s.arbUp = true) (hslot : s.slotOf m.pair = some p) (hok : s.leaseOk m 1 = true)
    (hacc : (s.slot p).accepts (s.rd (Reg.TWN_ARB_STATE_STATE p) = 0) m = true) : ∃ t, exec (.renewReceive m) s = .next t ∧
      t.rd (Reg.TWN_ARB_STATE_STATE p) = 1 ∧ t.rd (Reg.TWN_ARB_STATE_HOLDER p) = m.src % 64 ∧
      t.rd (Reg.TWN_ARB_EPOCH_EPOCH p) = m.epoch % 2 ^ 32 ∧ t.rd (Reg.TWN_ARB_RENEW_CYCLE p) = s.tm.cyc % 2 ^ 32 ∧
      t.slot p = renewed m s.tm.cyc (s.slot p) ∧ (∀ q, q ≠ p → t.slot q = s.slot q) ∧ onlyTwn s t := by
  have hp : p < 8 := slots_lt (slotOf_mem hslot)
  obtain ⟨hop, harb⟩ := hearRenew_op (s.leaseHeard m) m
  generalize hu : (s.leaseHeard m).hearRenew m = u at hop harb
  have hrd (g : Fld) (hg : ∀ f ∈ renewFlds, g.key ≠ f.key) : u.rd g = s.rd g := hop.regs g hg
  have hserv : ∀ g ∈ servingFlds, ∀ f ∈ renewFlds, g.key ≠ f.key := by decide
  have hslots (q : Nat) : u.slot q = s.slot q := slot_congr (s := s) harb q
  have hstate : u.rd (Reg.TWN_ARB_STATE_STATE p) = s.rd (Reg.TWN_ARB_STATE_STATE p) :=
    hrd _ ((show ∀ p < 8, ∀ f ∈ renewFlds, (Reg.TWN_ARB_STATE_STATE p).key ≠ f.key by decide) p hp)
  have htm : u.tm = s.tm := hop.tm
  obtain ⟨hst, hholder, hepoch, hcyc⟩ := slotRenewed_rd u hp m
  obtain ⟨hself, hother⟩ := slotRenewed_twn u p m
  refine ⟨slotRenewed u p m, ?_, hst, hholder, hepoch, ?_, ?_, fun q hq => (hother q hq).trans (hslots q), ?_⟩
  · rw [← hu]
    refine renewReceive_accepted hok ?_ ?_ ?_ <;> rw [hu]
    · exact (slotOf_congr (fun g hg => hrd g (hserv g hg)) m.pair).trans hslot
    · exact (hop.arbUp hserv).trans hup
    · rw [hslots, hstate]
      exact hacc
  · rw [hcyc, htm]
  · rw [hself, htm, hslots]
  · exact onlyTwn_trans (onlyTwn_trans (s := s) (t := s.leaseHeard m) rfl (hu ▸ hop.frame)) (slotRenewed_only u p m)

/-! ### REQUEST (R384 to R386) -/

/-- A slot that has heard a request. -/
def hasRequest (m : LeaseMsg) (x : ArbSlot) : ArbSlot := { x with high := max x.high m.epoch, reqs := x.reqs ++ [m] }

theorem requestReceive_eq {m : LeaseMsg} {p : Nat} (hup : s.arbUp = true) (hslot : s.slotOf m.pair = some p) (hok : s.leaseOk m 2 = true) :
    exec (.requestReceive m) s =
      let u := ((s.leaseHeard m).wr (Reg.TWN_ARB_STATE_LAST_REQ p) m.src).modSlot p (hasRequest m)
      .next ((if u.grantable p m && !(u.slot p).grant.isSome then u else u.inc (Reg.TWN_ARB_COUNT_REFUSED p)).judge p) := by
  have hx : exec (.requestReceive m) s = execRequestReceive m s := by rfl
  have hup' : (s.leaseHeard m).arbUp = true := hup
  have hslot' : (s.leaseHeard m).slotOf m.pair = some p := hslot
  rw [hx, execRequestReceive, hok, if_neg (by decide)]
  dsimp only
  rw [hup', if_neg (by decide), hslot']
  rfl

/-- What decides a request is not touched by its own reception. -/
theorem grantable_congr {p : Nat} (m : LeaseMsg) {reqs : List LeaseMsg} {high : Nat} (hslot : t.slot p = { s.slot p with high, reqs })
    (htm : t.tm = s.tm) (hlz : t.twn.slotLz = s.twn.slotLz) (hst : t.rd (Reg.TWN_ARB_STATE_STATE p) = s.rd (Reg.TWN_ARB_STATE_STATE p)) :
    t.grantable p m = s.grantable p m := by
  unfold State.grantable State.lzOf
  rw [hslot, htm, hlz, hst]

/-- The only request of a cycle is granted where it may be. -/
theorem judge_one {p : Nat} {m : LeaseMsg} (h : (s.slot p).reqs = [m]) :
    s.judge p = if s.grantable p m then
      s.modSlot p fun x => { x with grant := some (m.src, Max.max (s.slot p).high (s.slot p).epoch + 1, 0, m.handover,
        if m.handover then m.last else (s.slot p).r + s.lzOf p - 2) } else s := by
  unfold State.judge
  dsimp only
  rw [h, List.filter_singleton]
  cases s.grantable p m <;> rfl

theorem judge_none {p : Nat} (h : (s.slot p).reqs = []) : s.judge p = s := by
  unfold State.judge
  dsimp only
  rw [h]
  rfl

/-- What a request leaves in the slot and its registers before the slot judges. -/
def afterRequest (s : State) (p : Nat) (m : LeaseMsg) : State :=
  ((s.leaseHeard m).wr (Reg.TWN_ARB_STATE_LAST_REQ p) m.src).modSlot p (hasRequest m)

theorem afterRequest_op (s : State) (p : Nat) (m : LeaseMsg) : TwnOp s (afterRequest s p m) [Reg.TWN_ARB_STATE_LAST_REQ p] :=
  (((TwnOp.refl s _).modTwn _).wr List.mem_cons_self _).modSlot p _

theorem afterRequest_slot (s : State) (p : Nat) (m : LeaseMsg) : (afterRequest s p m).slot p = hasRequest m (s.slot p) :=
  slot_modSlot_same _ p _

theorem afterRequest_slot_ne (s : State) {p q : Nat} (h : q ≠ p) (m : LeaseMsg) : (afterRequest s p m).slot q = s.slot q :=
  slot_modSlot_ne _ _ h

theorem request_keys : ∀ p < 8, (Reg.TWN_ARB_STATE_STATE p).key ≠ (Reg.TWN_ARB_STATE_LAST_REQ p).key ∧
    (Reg.TWN_ARB_COUNT_REFUSED p).key ≠ (Reg.TWN_ARB_STATE_LAST_REQ p).key := by decide

theorem afterRequest_grantable {p : Nat} (hp : p < 8) (m : LeaseMsg) : (afterRequest s p m).grantable p m = s.grantable p m :=
  grantable_congr m (afterRequest_slot s p m) (afterRequest_op s p m).tm rfl
    ((afterRequest_op s p m).regs _ fun _ hf => List.mem_singleton.1 hf ▸ (request_keys p hp).1)

theorem afterRequest_regsTo (s : State) (p : Nat) (m : LeaseMsg) :
    regsTo s (afterRequest s p m) [(Reg.TWN_ARB_STATE_LAST_REQ p, m.src % 64)] := by
  have hrd : (afterRequest s p m).rd (Reg.TWN_ARB_STATE_LAST_REQ p) = m.src % 64 :=
    State.rd_wr_same (s.leaseHeard m) (Reg.TWN_ARB_STATE_LAST_REQ p) m.src
  refine ⟨fun e he => ?_, fun g hg => ?_⟩
  · rw [List.mem_singleton.1 he]
    exact hrd
  · exact (afterRequest_op s p m).regs g fun f hf => by
      rw [List.mem_singleton.1 hf]
      exact hg (Reg.TWN_ARB_STATE_LAST_REQ p, m.src % 64) (.head _)

theorem requestReceive_granted {m : LeaseMsg} {p : Nat} (hup : s.arbUp = true) (hslot : s.slotOf m.pair = some p) (hok : s.leaseOk m 2 = true)
    (hreqs : (s.slot p).reqs = []) (hgrant : (s.slot p).grant = none) (hg : s.grantable p m = true) :
    ∃ t, exec (.requestReceive m) s = .next t ∧
      (t.slot p).grant = some (m.src, Max.max (Max.max (s.slot p).high m.epoch) (s.slot p).epoch + 1, 0, m.handover,
        if m.handover then m.last else (s.slot p).r + s.lzOf p - 2) ∧
      regsTo s t [(Reg.TWN_ARB_STATE_LAST_REQ p, m.src % 64)] ∧ (∀ q, q ≠ p → t.slot q = s.slot q) ∧ onlyTwn s t := by
  have hp : p < 8 := slots_lt (slotOf_mem hslot)
  have hx := requestReceive_eq hup hslot hok
  have hcan : (afterRequest s p m).grantable p m = true := (afterRequest_grantable hp m).trans hg
  have hfree : ((afterRequest s p m).slot p).grant.isSome = false := by
    rw [afterRequest_slot]
    exact congrArg Option.isSome hgrant
  have hone : ((afterRequest s p m).slot p).reqs = [m] := by
    rw [afterRequest_slot]
    exact congrArg (· ++ [m]) hreqs
  have hlz : (afterRequest s p m).lzOf p = s.lzOf p := rfl
  change _ = Host.Outcome.next ((if (afterRequest s p m).grantable p m && !((afterRequest s p m).slot p).grant.isSome then afterRequest s p m
    else (afterRequest s p m).inc (Reg.TWN_ARB_COUNT_REFUSED p)).judge p) at hx
  rw [hcan, hfree, if_pos (by decide), judge_one hone, if_pos hcan] at hx
  refine ⟨_, hx, ?_, (afterRequest_regsTo s p m).of_regs rfl, fun q hq => ?_, ?_⟩
  · rw [slot_modSlot_same, afterRequest_slot, hlz]
    rfl
  · rw [slot_modSlot_ne _ _ hq]
    exact afterRequest_slot_ne s hq m
  · exact ((afterRequest_op s p m).modSlot p _).frame

theorem requestReceive_refused {m : LeaseMsg} {p : Nat} (hup : s.arbUp = true) (hslot : s.slotOf m.pair = some p) (hok : s.leaseOk m 2 = true)
    (hreqs : (s.slot p).reqs = []) (hgrant : (s.slot p).grant = none) (hg : s.grantable p m = false) :
    ∃ t, exec (.requestReceive m) s = .next t ∧ (t.slot p).grant = none ∧
      regsTo s t [(Reg.TWN_ARB_STATE_LAST_REQ p, m.src % 64), (Reg.TWN_ARB_COUNT_REFUSED p, up s (Reg.TWN_ARB_COUNT_REFUSED p))] ∧
      (∀ q, q ≠ p → t.slot q = s.slot q) ∧ onlyTwn s t := by
  have hp : p < 8 := slots_lt (slotOf_mem hslot)
  have hx := requestReceive_eq hup hslot hok
  have hne := (request_keys p hp).2
  have hcan : (afterRequest s p m).grantable p m = false := (afterRequest_grantable hp m).trans hg
  have hslot' (q : Nat) : ((afterRequest s p m).inc (Reg.TWN_ARB_COUNT_REFUSED p)).slot q = (afterRequest s p m).slot q := rfl
  have hone : (((afterRequest s p m).inc (Reg.TWN_ARB_COUNT_REFUSED p)).slot p).reqs = [m] := by
    rw [hslot', afterRequest_slot]
    exact congrArg (· ++ [m]) hreqs
  have hcan' : ((afterRequest s p m).inc (Reg.TWN_ARB_COUNT_REFUSED p)).grantable p m = false := by
    refine (grantable_congr (s := afterRequest s p m) m (hslot' p) rfl rfl ?_).trans hcan
    exact State.rd_wr_ne _ _ (Reg.TWN_ARB_STATE_STATE p) _
      ((show ∀ p < 8, (Reg.TWN_ARB_STATE_STATE p).key ≠ (Reg.TWN_ARB_COUNT_REFUSED p).key by decide) p hp)
  change _ = Host.Outcome.next ((if (afterRequest s p m).grantable p m && !((afterRequest s p m).slot p).grant.isSome then afterRequest s p m
    else (afterRequest s p m).inc (Reg.TWN_ARB_COUNT_REFUSED p)).judge p) at hx
  rw [hcan, Bool.false_and, if_neg (by decide), judge_one hone, hcan', if_neg (by decide)] at hx
  have hreq := afterRequest_regsTo s p m
  have hup' : up (afterRequest s p m) (Reg.TWN_ARB_COUNT_REFUSED p) = up s (Reg.TWN_ARB_COUNT_REFUSED p) := by
    unfold up
    rw [hreq.2 (Reg.TWN_ARB_COUNT_REFUSED p) fun e he => List.mem_singleton.1 he ▸ hne]
  refine ⟨_, hx, ?_, ⟨fun e he => ?_, fun g hg => ?_⟩, fun q hq => (hslot' q).trans (afterRequest_slot_ne s hq m), ?_⟩
  · rw [hslot', afterRequest_slot]
    exact hgrant
  · rcases List.mem_cons.1 he with rfl | he
    · exact (State.rd_wr_ne _ _ (Reg.TWN_ARB_STATE_LAST_REQ p) _ hne.symm).trans (hreq.1 _ List.mem_cons_self)
    · rw [List.mem_singleton.1 he]
      exact (rd_inc_up _ _).trans hup'
  · exact (State.rd_wr_ne _ _ g _ (hg _ (.tail _ (.head _)))).trans (hreq.2 g fun e he => List.mem_singleton.1 he ▸ hg _ (.head _))
  · exact onlyTwn_trans (afterRequest_op s p m).frame rfl

/-! ### RELEASE and a vacant lease (R386, R391) -/

theorem releaseReceive_granted {m : LeaseMsg} {p : Nat} {old : Nat × Nat} (hup : s.arbUp = true) (hslot : s.slotOf m.pair = some p)
    (hok : s.leaseOk m 4 = true) (hepoch : m.epoch = (s.slot p).epoch) (hsrc : m.src = (s.slot p).holder) (hflags : (s.slot p).flags = 0)
    (hnamed : (s.slot p).named = 0) (hold : ((s.slot p).granted.filter fun e => e.1 ≠ (s.slot p).epoch).getLast? = some old) :
    ∃ t, exec (.releaseReceive m) s = .next t ∧
      (t.slot p).grant = some (old.2, Max.max (s.slot p).high (s.slot p).epoch + 1, 0, true, s.tm.cyc) ∧
      (∀ q, q ≠ p → t.slot q = s.slot q) ∧ t = { s with twn := t.twn } := by
  have hx : exec (.releaseReceive m) s = execReleaseReceive m s := by rfl
  have hup' : (s.leaseHeard m).arbUp = true := hup
  have hslot' : (s.leaseHeard m).slotOf m.pair = some p := hslot
  have hs : (s.leaseHeard m).slot p = s.slot p := rfl
  rw [hx, execReleaseReceive, hok, if_neg (by decide)]
  dsimp only
  rw [hup', if_neg (by decide), hslot']
  dsimp only
  rw [hs, hold, if_pos (by simp [hepoch, hsrc, hflags, hnamed])]
  refine ⟨_, rfl, ?_, fun q hq => slot_modSlot_ne _ _ hq, rfl⟩
  rw [slot_modSlot_same]
  rfl

theorem arbiterVacancy_next {m : LeaseMsg} {p : Nat} {slot : Fin 8} (hval : slot.val = p) (hup : s.arbUp = true)
    (hslot : s.slotOf m.pair = some p) (hst : s.rd (Reg.TWN_ARB_STATE_STATE p) ≠ 3) :
    (s.vacant p = true → (s.slot p).reqs = [] → ∃ t, exec (.arbiterVacancy slot) s = .next t ∧
      regsTo s t [(Reg.TWN_ARB_STATE_STATE p, 3)] ∧ t = { s with regs := t.regs }) ∧
    (s.vacant p = false → exec (.arbiterVacancy slot) s = .next s) := by
  subst hval
  have hx : exec (.arbiterVacancy slot) s = execArbiterVacancy slot s := by rfl
  have hmem : s.slots.contains slot.val = true := List.contains_iff_mem.2 (slotOf_mem hslot)
  rw [hx, execArbiterVacancy]
  rw [hup, hmem, decide_eq_true hst]
  refine ⟨fun hv hreqs => ?_, fun hv => ?_⟩
  · rw [hv, if_pos (by decide), judge_none (s := s.wr (Reg.TWN_ARB_STATE_STATE slot.val) 3) hreqs]
    exact ⟨_, rfl, regsTo_writes (l := [(Reg.TWN_ARB_STATE_STATE slot.val, 3)])
      ⟨fun e he => List.mem_singleton.1 he ▸ show 3 < 2 ^ 2 by decide, List.pairwise_singleton _ _⟩ s, rfl⟩
  · rw [hv, if_neg (by decide)]

/-! ### The window of a slot (R381, R385) -/

/-- The connection of an entry takes the next sequence number of its trailers. -/
def nextSeq (s : State) (e : Nat) : State :=
  s.modPtn fun x => { x with
    txSeq := FMap.set 0 x.txSeq (256 + (s.entry e).slot) ((FMap.get 0 s.ptn.txSeq (256 + (s.entry e).slot) + 1) % 2 ^ 32) }

/-- The payload of a LEASE frame with its trailer. -/
def leasePayload (s : State) (e : Nat) (m : LeaseMsg) : List Byte :=
  withTrailer (s.ptn.net.ent e).connId ((FMap.get 0 s.ptn.txSeq (256 + (s.entry e).slot) + 1) % 2 ^ 32) (s.tm.tcNs / 1000 % 2 ^ 32) 0 m.bytes

theorem sendLease_eq (s : State) (e : Nat) (m : LeaseMsg) :
    s.sendLease e m = ((nextSeq s e).sendFrame e none (leasePayload s e m)).2 := rfl

/-- Where each port starts the LEASE frame of a window, if it has room. -/
def leaseStart (s : State) (e : Nat) (m : LeaseMsg) (q : Nat) : Option Nat :=
  if q ∈ s.txPorts (s.entry e) then startAt s e (leasePayload s e m).length none q else none

theorem sendLease_sent (s : State) (e : Nat) (m : LeaseMsg) :
    FrameSent (nextSeq s e) (s.sendLease e m) e (leasePayload s e m) (leaseStart s e m) := by
  rw [sendLease_eq]
  exact (sendFrame_sent (nextSeq s e) e none (leasePayload s e m) (at' := leaseStart s e m) fun _ => rfl).2

/-- A step that sends: the network's state and its count of frames that did not fit. -/
structure SendOp (s t : State) : Prop where
  frame : t = { s with regs := t.regs, ptn := t.ptn }
  regs : keepsRegs s t [Reg.PTN_VOTE_UNFIT]

theorem sendLease_op (s : State) (e : Nat) (m : LeaseMsg) : SendOp s (s.sendLease e m) := by
  obtain ⟨hframe, hregs, -, -⟩ := sendLease_sent s e m
  exact ⟨by rw [hframe]; rfl, hregs⟩

theorem SendOp.refl (s : State) : SendOp s s := ⟨rfl, keepsRegs_refl s _⟩

theorem SendOp.trans (h : SendOp s t) (h' : SendOp t u) : SendOp s u := ⟨by rw [h'.frame, h.frame], h.regs.trans h'.regs⟩

theorem sendLeases_op (l : List LeaseMsg) (e : Nat) (s : State) : SendOp s (foldSt l (fun m s => s.sendLease e m) s) :=
  foldSt_inv (P := SendOp s) (fun m _ _ h => h.trans (sendLease_op _ e m)) (SendOp.refl s)

/-- A slot's lease after its grant has been sent. -/
def leased (cyc node ep : Nat) (x : ArbSlot) : ArbSlot :=
  { x with
    granted := x.granted ++ [(x.epoch, x.holder), (ep, node)], holder := node, epoch := ep, high := max x.high ep, r := cyc, kSnap := 0,
    flags := 0, named := 0, h := 0, renewed := false, reqs := [], grant := none }

/-- What a slot's registers show of its grant. -/
def grantVals (s : State) (p node ep : Nat) : List (Fld × Nat) :=
  [(Reg.TWN_ARB_COUNT_GRANTS p, up s (Reg.TWN_ARB_COUNT_GRANTS p)), (Reg.TWN_ARB_STATE_STATE p, 1), (Reg.TWN_ARB_STATE_HOLDER p, node),
    (Reg.TWN_ARB_EPOCH_EPOCH p, ep)]

theorem granted_some {p node ep ack last : Nat} {ho : Bool} (h : (s.slot p).grant = some (node, ep, ack, ho, last)) :
    s.granted p = writes (grantVals s p node ep) (s.modSlot p (leased s.tm.cyc node ep)) := by
  unfold State.granted
  dsimp only
  rw [h]
  dsimp only
  rw [State.inc, satInc_eq]
  rfl

theorem grant_keys : ∀ p < 8, ([Reg.TWN_ARB_COUNT_GRANTS p, Reg.TWN_ARB_STATE_STATE p, Reg.TWN_ARB_STATE_HOLDER p,
    Reg.TWN_ARB_EPOCH_EPOCH p].Pairwise fun a b => a.key ≠ b.key) ∧
    (Reg.TWN_ARB_COUNT_GRANTS p).key ≠ Reg.PTN_VOTE_UNFIT.key := by decide

theorem leaseWindow_slot {e p : Nat} {rest : List Nat} (hup : s.arbUp = true) (htwin : s.twin = false) (horig : s.mayOriginate = true)
    (hes : s.leaseEntries = e :: rest) (hslots : s.slots = [p]) :
    exec .leaseWindow s = .next ((foldSt (s.slotMsgs p) (fun m s => s.sendLease e m) s).granted p) := by
  have hx : exec .leaseWindow s = execLeaseWindow s := by rfl
  have hdown : s.down = false := by
    have h := hup
    unfold State.arbUp at h
    simpa using (Bool.and_eq_true_iff.1 h).2
  rw [hx, execLeaseWindow, horig, hdown, htwin, hes]
  dsimp only
  rw [if_neg (by decide), hup, if_neg (by decide), hslots]
  rfl

theorem leaseWindow_granted {e p node ep ack last : Nat} {ho : Bool} {rest : List Nat} (hup : s.arbUp = true) (htwin : s.twin = false)
    (horig : s.mayOriginate = true) (hes : s.leaseEntries = e :: rest) (hslots : s.slots = [p])
    (hgrant : (s.slot p).grant = some (node, ep, ack, ho, last)) :
    ∃ t, exec .leaseWindow s = .next t ∧ (t.slot p).holder = node ∧ (t.slot p).epoch = ep ∧ (t.slot p).grant = none ∧
      t.rd (Reg.TWN_ARB_STATE_HOLDER p) = node % 64 ∧ t.rd (Reg.TWN_ARB_STATE_STATE p) = 1 ∧
      t.rd (Reg.TWN_ARB_COUNT_GRANTS p) = up s (Reg.TWN_ARB_COUNT_GRANTS p) ∧ t = { s with regs := t.regs, ptn := t.ptn, twn := t.twn } := by
  have hp : p < 8 := slots_lt (s := s) (hslots ▸ List.mem_cons_self)
  obtain ⟨hpair, hunfit⟩ := grant_keys p hp
  have hsend := sendLeases_op (s.slotMsgs p) e s
  rw [leaseWindow_slot hup htwin horig hes hslots]
  generalize foldSt (s.slotMsgs p) (fun m s => s.sendLease e m) s = v at hsend
  have hslot : v.slot p = s.slot p := by rw [hsend.frame]; rfl
  have hcnt : up v (Reg.TWN_ARB_COUNT_GRANTS p) = up s (Reg.TWN_ARB_COUNT_GRANTS p) := by
    unfold up
    rw [hsend.regs (Reg.TWN_ARB_COUNT_GRANTS p) fun _ hf => List.mem_singleton.1 hf ▸ hunfit]
  rw [granted_some (hslot.symm ▸ hgrant)]
  have hrd {x : Fld × Nat} (hmem : x ∈ grantVals v p node ep) :
      (writes (grantVals v p node ep) (v.modSlot p (leased v.tm.cyc node ep))).rd x.1 = x.2 % 2 ^ x.1.width :=
    rd_writes_cut (l := grantVals v p node ep) hpair _ hmem
  have hnew : (writes (grantVals v p node ep) (v.modSlot p (leased v.tm.cyc node ep))).slot p = leased v.tm.cyc node ep (v.slot p) :=
    slot_modSlot_same v p _
  refine ⟨_, rfl, by rw [hnew]; rfl, by rw [hnew]; rfl, by rw [hnew]; rfl, hrd (.tail _ (.tail _ (.head _))), hrd (.tail _ (.head _)), ?_, ?_⟩
  · refine (hrd (.head _)).trans ((Nat.mod_eq_of_lt (up_lt v (Reg.TWN_ARB_COUNT_GRANTS p))).trans hcnt)
  · rw [writes_frame, hsend.frame]
    rfl

/-- Settles O50, operation by operation: a RENEW that a slot accepts, a REQUEST granted and refused, a RELEASE, a vacant lease and the
slot's own window. -/
theorem arbiterSlots : Obligations.ArbiterSlots := by
  intro s m p hup hslot
  refine ⟨fun hok hacc => renewReceive_next hup hslot hok hacc, fun hok hreqs hgrant => ⟨?_, ?_⟩, ?_, ?_, ?_⟩
  · exact requestReceive_granted hup hslot hok hreqs hgrant
  · exact requestReceive_refused hup hslot hok hreqs hgrant
  · exact fun hok hepoch hsrc hflags hnamed old hold => releaseReceive_granted hup hslot hok hepoch hsrc hflags hnamed hold
  · exact fun slot hval hst => arbiterVacancy_next hval hup hslot hst
  · exact fun e rest node ep ack ho last htwin horig hes hslots hgrant => leaseWindow_granted hup htwin horig hes hslots hgrant

end Sys2Proof.Claims
end

section
/-! The lease of a pair and its planned handover: O49. -/

namespace Sys2Proof.Claims

open Sys2Proof Sys2Proof.Machine

variable {s t u : State}

/-! ### The registers of the twin unit -/

theorem twnRegs_frame (s : State) : s.twnRegs = { s with regs := s.twnRegs.regs } := by
  unfold State.twnRegs
  rfl

theorem twnRegs_keeps (s : State) : keepsRegs s s.twnRegs twnFlds := by
  unfold State.twnRegs
  exact (((((keepsRegs_refl s twnFlds).wrb (f := Reg.TWN_STATUS_CURRENT) (by decide) _).wrb (f := Reg.TWN_STATUS_ADOPTING) (by decide) _).wrb
    (f := Reg.TWN_STATUS_PARTNER_CURRENT) (by decide) _).wr (f := Reg.TWN_STATUS_LEASE_LEFT) (by decide) _).wr
    (f := Reg.TWN_SNAP_HELD_CYCLE) (by decide) _

theorem twnRegs_twn (s : State) : s.twnRegs.twn = s.twn := by rw [twnRegs_frame]

theorem twnRegs_md (s : State) : s.twnRegs.md = s.md := by rw [twnRegs_frame]

theorem onlyTwn.md (h : onlyTwn s t) : t.md = s.md := by rw [h]

theorem onlyTwn_twnRegs (h : onlyTwn s t) : onlyTwn s t.twnRegs := onlyTwn_trans h (by rw [onlyTwn, twnRegs_frame])

/-! ### RENEW (R381) -/

/-- The frame of an entry ends with its payload. -/
theorem frameOf_payload (s : State) (e : Nat) (payload : List Byte) : ∃ b, frameOf s e payload = b ++ payload := ⟨_, rfl⟩

/-- What the ACTIVE sends in its window. -/
def renewSent (s : State) (e : Nat) : State := (s.sendLease e s.renewMsg).wr Reg.TWN_STATUS_ACKS 0

/-- What the module's own message leaves, by its kind. -/
def afterOwn (s : State) (e : Nat) (m : LeaseMsg) : State :=
  if m.kind = 4 then (if m.kind = 1 then (s.sendLease e m).wr Reg.TWN_STATUS_ACKS 0 else s.sendLease e m).modTwn fun x => { x with hoGot := none }
  else if m.kind = 1 then (s.sendLease e m).wr Reg.TWN_STATUS_ACKS 0
  else s.sendLease e m

/-- The windows of the arbiter's slots. -/
def slotWindows (s : State) (es : List Nat) : State :=
  if !s.arbUp then s
  else foldSt (s.slots.zip es) (fun e s => (foldSt (s.slotMsgs e.1) (fun m s => s.sendLease e.2 m) s).granted e.1) s

theorem renewMsg_kind (s : State) : s.renewMsg.kind = 1 := rfl

theorem slots_congr (h : ∀ f ∈ servingFlds, t.rd f = s.rd f) : t.slots = s.slots :=
  List.filter_congr fun _ hp => rdb_of_rd (h _ (serving_mem (List.mem_range.1 hp)).1)

theorem renewSent_slots (s : State) (e : Nat) : (renewSent s e).slots = s.slots := by
  have hkeys : ∀ f ∈ servingFlds, f.key ≠ Reg.TWN_STATUS_ACKS.key ∧ f.key ≠ Reg.PTN_VOTE_UNFIT.key := by decide
  refine slots_congr fun f hf => (State.rd_wr_ne _ Reg.TWN_STATUS_ACKS f 0 (hkeys f hf).1).trans ?_
  exact (sendLease_op s e s.renewMsg).regs f fun g hg => List.mem_singleton.1 hg ▸ (hkeys f hf).2

theorem leaseWindow_renew {e : Nat} {rest : List Nat} (hdown : s.down = false) (htwin : s.twin = true) (hrole : s.md.role = .active)
    (hmode : s.leaseMode = true) (horig : s.mayOriginate = true) (hes : s.leaseEntries = e :: rest) (hslots : s.slots = []) :
    exec .leaseWindow s = .next (renewSent s e) := by
  have hx : exec .leaseWindow s = execLeaseWindow s := by rfl
  have hown : s.ownMsg = some s.renewMsg := by
    unfold State.ownMsg
    rw [htwin, hrole, hmode]
    rfl
  have hsent : (renewSent s e).slots = [] := (renewSent_slots s e).trans hslots
  have hafter : afterOwn s e s.renewMsg = renewSent s e := (if_neg (by simp [renewMsg_kind])).trans (if_pos (renewMsg_kind s))
  have hwindow : execLeaseWindow s = .next (slotWindows (afterOwn s e s.renewMsg) rest) := by
    rw [execLeaseWindow, horig, hdown, htwin, hes]
    dsimp only
    rw [if_neg (by decide), hown]
    rfl
  rw [hx, hwindow, hafter, slotWindows, hsent]
  split <;> rfl

theorem leaseWindow_next {e : Nat} {rest : List Nat} (hdown : s.down = false) (htwin : s.twin = true) (hrole : s.md.role = .active)
    (hmode : s.leaseMode = true) (horig : s.mayOriginate = true) (hes : s.leaseEntries = e :: rest) (hslots : s.slots = []) :
    ∃ t, exec .leaseWindow s = .next t ∧ t.rd Reg.TWN_STATUS_ACKS = 0 ∧
      FMap.get 0 t.ptn.txSeq (256 + (s.entry e).slot) = (FMap.get 0 s.ptn.txSeq (256 + (s.entry e).slot) + 1) % 2 ^ 32 ∧
      (∀ p ∈ s.txPorts (s.entry e), s.fitsNow e p (leasePayload s e s.renewMsg).length = true →
        ∃ b, FMap.get none t.ptn.egress p = some ⟨b ++ leasePayload s e s.renewMsg, true,
          (s.entry e).start * 10 + s.gNs + s.taken e p,
          (((s.entry e).start * 10 + s.gNs + s.taken e p : Nat) : Int) - s.deltaTx p⟩) ∧
      t = { s with regs := t.regs, ptn := t.ptn } := by
  obtain ⟨hframe, -, hegress, -⟩ := sendLease_sent s e s.renewMsg
  refine ⟨_, leaseWindow_renew hdown htwin hrole hmode horig hes hslots, State.rd_wr_same _ Reg.TWN_STATUS_ACKS 0, ?_, fun p hp hfits => ?_, ?_⟩
  · change FMap.get 0 (s.sendLease e s.renewMsg).ptn.txSeq _ = _
    rw [hframe]
    exact FMap.get_set_same 0 s.ptn.txSeq _ _
  · obtain ⟨b, hb⟩ := frameOf_payload (nextSeq s e) e (leasePayload s e s.renewMsg)
    have hstart : leaseStart s e s.renewMsg p = some ((s.entry e).start * 10 + s.gNs + s.taken e p) :=
      (if_pos hp).trans (if_pos hfits)
    refine ⟨b, (hegress p).trans ?_⟩
    rw [hstart, hb]
    rfl
  · change (s.sendLease e s.renewMsg).wr Reg.TWN_STATUS_ACKS 0 = _
    exact congrArg (·.wr Reg.TWN_STATUS_ACKS 0) (sendLease_op s e s.renewMsg).frame

/-! ### GRANT (R382, R387) -/

/-- A GRANT of this cycle for the own pair, before its quorum is judged. -/
def grantNoted (s : State) (m : LeaseMsg) : State :=
  ((s.leaseHeard m).slotHears m).modTwn fun x => { x with grants := x.grants ++ [m], known := max x.known m.epoch }

/-- What a quorum for a node does. -/
def quorumSeen (s : State) (m : LeaseMsg) : State :=
  if m.kSnap = 0 && s.quorum ≤ s.grantsBy (fun g => g.node = m.node && g.epoch = m.epoch && g.kSnap = 0 && g.handover = m.handover) then
    (if m.node = s.node then s.leaseWon m else if m.node = s.partnerNode then s.leaseLost m else s)
  else s

theorem slotHears_frame (s : State) (m : LeaseMsg) :
    s.slotHears m = { s with twn := { s.twn with arb := (s.slotHears m).twn.arb } } := by
  unfold State.slotHears
  split <;> try split
  all_goals rfl

theorem grantNoted_frame (s : State) (m : LeaseMsg) : grantNoted s m = { s with twn := { s.twn with
    leaseRef := (grantNoted s m).twn.leaseRef, arb := (grantNoted s m).twn.arb, grants := s.twn.grants ++ [m],
    known := max s.twn.known m.epoch } } := by
  unfold grantNoted
  rw [slotHears_frame]
  rfl

theorem grantReceive_eq {m : LeaseMsg} (hok : s.leaseOk m 3 = true) (htwin : s.twin = true) (hpair : m.pair = s.rd Reg.TWN_CFG_PAIR_ID)
    (harb : s.arbiters.contains m.src = true) :
    exec (.grantReceive m) s = .next (quorumSeen ((grantNoted s m).ackReceived m) m).twnRegs := by
  have hx : exec (.grantReceive m) s = execGrantReceive m s := by rfl
  have hv := slotHears_frame (s.leaseHeard m) m
  have hcond : (!((s.leaseHeard m).slotHears m).twin || decide (m.pair ≠ ((s.leaseHeard m).slotHears m).rd Reg.TWN_CFG_PAIR_ID) ||
      !((s.leaseHeard m).slotHears m).arbiters.contains m.src) = false := by
    have h1 : ((s.leaseHeard m).slotHears m).twin = true := by rw [hv]; exact htwin
    have h2 : ((s.leaseHeard m).slotHears m).rd Reg.TWN_CFG_PAIR_ID = s.rd Reg.TWN_CFG_PAIR_ID := by rw [hv]; rfl
    have h3 : ((s.leaseHeard m).slotHears m).arbiters.contains m.src = true := by rw [hv]; exact harb
    rw [h1, h2, h3, hpair]
    simp
  rw [hx, execGrantReceive, hok, if_neg (by decide)]
  dsimp only
  rw [hcond, if_neg (by decide)]
  rfl

theorem quorumSeen_ack {m : LeaseMsg} (h : m.kSnap ≠ 0) : quorumSeen s m = s := by
  unfold quorumSeen
  rw [decide_eq_false h]
  rfl

/-- An acknowledgement of the RENEW of this cycle. -/
def acknowledges (s : State) (g : LeaseMsg) : Bool :=
  g.node = s.node && g.kSnap = s.tm.cyc && g.epoch = s.rd Reg.TWN_EPOCH_EPOCH

theorem ackReceived_quorum {m : LeaseMsg} (hrole : s.md.role = .active) (hack : acknowledges s m = true)
    (hq : s.quorum ≤ s.grantsBy (acknowledges s)) :
    ∃ i, s.ackReceived m = (s.setBit Reg.TWN_STATUS_ACKS i).modTwn fun x => { x with ackAt := s.tm.cyc } := by
  refine ⟨_, (if_pos (Bool.and_eq_true_iff.2 ⟨decide_eq_true hrole, hack⟩)).trans (if_pos ?_)⟩
  have hquorum (v : Nat) : (s.wr Reg.TWN_STATUS_ACKS v).quorum = s.quorum :=
    State.rd_wr_ne s Reg.TWN_STATUS_ACKS Reg.TWN_CFG_QUORUM v (by decide)
  exact (hquorum _).le.trans hq

theorem grantReceive_ack {m : LeaseMsg} (hok : s.leaseOk m 3 = true) (htwin : s.twin = true) (hpair : m.pair = s.rd Reg.TWN_CFG_PAIR_ID)
    (harb : s.arbiters.contains m.src = true) (hrole : s.md.role = .active) (hnode : m.node = s.node) (hk : m.kSnap = s.tm.cyc)
    (hpos : 0 < s.tm.cyc) (hepoch : m.epoch = s.rd Reg.TWN_EPOCH_EPOCH)
    (hq : s.quorum ≤ ((((s.twn.grants ++ [m]).filter fun g => g.node = m.node && g.kSnap = m.kSnap && g.epoch = m.epoch).map
      fun g => g.src).eraseDups.length)) :
    ∃ t, exec (.grantReceive m) s = .next t ∧ t.twn.ackAt = s.tm.cyc ∧ t.twn.grants = s.twn.grants ++ [m] ∧ t.md = s.md ∧ onlyTwn s t := by
  have hn := grantNoted_frame s m
  have honly : onlyTwn s (grantNoted s m) := by rw [onlyTwn, hn]
  refine ⟨_, grantReceive_eq hok htwin hpair harb, ?_⟩
  rw [quorumSeen_ack (by omega), twnRegs_twn, twnRegs_md]
  have hacks : acknowledges (grantNoted s m) = acknowledges s := by rw [hn]; rfl
  have hself : acknowledges s m = true := by
    unfold acknowledges
    simp [hnode, hk, hepoch]
  have hquorum : (grantNoted s m).quorum ≤ (grantNoted s m).grantsBy (acknowledges (grantNoted s m)) := by
    rw [hacks, hn]
    rw [hnode, hk, hepoch] at hq
    exact hq
  have hack := ackReceived_quorum (s := grantNoted s m) (by rw [hn]; exact hrole) (hacks ▸ hself) hquorum
  have htm : (grantNoted s m).tm = s.tm := by rw [hn]
  obtain ⟨i, hi⟩ := hack
  rw [hi]
  refine ⟨by change (grantNoted s m).tm.cyc = _; rw [htm], ?_, ?_, onlyTwn_twnRegs (onlyTwn_trans honly rfl)⟩
  · change (grantNoted s m).twn.grants = _
    rw [hn]
  · exact honly.md

theorem grantReceive_won {m : LeaseMsg} (hok : s.leaseOk m 3 = true) (htwin : s.twin = true) (hpair : m.pair = s.rd Reg.TWN_CFG_PAIR_ID)
    (harb : s.arbiters.contains m.src = true) (hrole : s.md.role = .standby) (hnode : m.node = s.node) (hk : m.kSnap = 0)
    (hho : m.handover = false)
    (hq : s.quorum ≤ ((((s.twn.grants ++ [m]).filter fun g => g.node = m.node && g.epoch = m.epoch && g.kSnap = 0 && g.handover = false).map
      fun g => g.src).eraseDups.length)) :
    ∃ t, exec (.grantReceive m) s = .next t ∧ t.twn.become = some m.epoch ∧ t.twn.known = Max.max s.twn.known m.epoch ∧
      keepsRegs s t twnFlds ∧ onlyTwn s t := by
  have hn := grantNoted_frame s m
  have hack : (grantNoted s m).ackReceived m = grantNoted s m := by
    rw [hn]
    exact if_neg (by simp [hrole])
  have hwon : quorumSeen (grantNoted s m) m = (grantNoted s m).modTwn fun x => { x with become := some m.epoch } := by
    rw [hn]
    refine (if_pos ?_).trans ((if_pos hnode).trans ?_)
    · rw [hho]
      exact Bool.and_eq_true_iff.2 ⟨decide_eq_true hk, decide_eq_true hq⟩
    · unfold State.leaseWon
      rw [hrole, hho]
      rfl
  refine ⟨_, grantReceive_eq hok htwin hpair harb, ?_⟩
  rw [hack, hwon, twnRegs_twn]
  refine ⟨rfl, ?_, ?_, ?_⟩
  · change (grantNoted s m).twn.known = _
    rw [hn]
  · refine keepsRegs.trans ?_ (twnRegs_keeps _)
    refine keepsRegs_of_eq ?_ _
    change (grantNoted s m).regs = s.regs
    rw [hn]
  · exact onlyTwn_twnRegs (onlyTwn_trans (t := grantNoted s m) (by rw [onlyTwn, hn]) rfl)

/-! ### The planned handover (R389, R391) -/

theorem regsTo_perm {l l' : List (Fld × Nat)} (h : regsTo s t l) (hp : l.Perm l') : regsTo s t l' :=
  ⟨fun e he => h.1 e (hp.mem_iff.2 he), fun g hg => h.2 g fun e he => hg e (hp.mem_iff.1 he)⟩

theorem twnHandover_effect {w1 w2 : Word} (hrole : s.md.role = .active) (htwin : s.twin = true) (hmode : s.leaseMode = true)
    (hdbg : s.md.debug = false) (hcur : s.partnerCurrent = true) (hq : s.quorum ≤ s.ackCount) (hahead : s.tcAhead (arg64 w1 w2) = true)
    (hfar : s.tm.tcNs + 4 * s.tbc ≤ arg64 w1 w2) (hho : s.twn.ho = none) :
    ∃ u, applyTwnHandover w1 w2 s = .ok u ∧
      regsTo s u [(Reg.TWN_HANDOVER_RESULT, 1), (Reg.TWN_HO_TARGET_LO_T_LO, w1.toNat), (Reg.TWN_HO_TARGET_HI_T_HI, w2.toNat)] ∧
      u = { s with regs := u.regs, twn := { s.twn with ho := some (arg64 w1 w2 / s.tbc), hoGot := none } } := by
  let l : List (Fld × Nat) :=
    [(Reg.TWN_HO_TARGET_LO_T_LO, w1.toNat), (Reg.TWN_HO_TARGET_HI_T_HI, w2.toNat), (Reg.TWN_HANDOVER_RESULT, 1)]
  have hkeys : l.Pairwise fun a b => a.1.key ≠ b.1.key := by
    simp only [l, List.pairwise_cons, List.forall_mem_cons]
    exact ⟨⟨by decide, by decide, by simp⟩, ⟨by decide, by simp⟩, by simp, .nil⟩
  have hsep : separate l := ⟨by simp only [l, List.forall_mem_cons]; exact ⟨w1.isLt, w2.isLt, show 1 < 2 ^ 3 by decide, by simp⟩,
    hkeys⟩
  have hcond : (s.twin && decide (s.md.role = .active) && s.leaseMode && !s.md.debug && s.partnerCurrent && decide (s.quorum ≤ s.ackCount)) =
      true := by simp [htwin, hrole, hmode, hdbg, hcur, hq]
  have htime : (s.tcAhead (arg64 w1 w2) && decide (s.tm.tcNs + 4 * s.tbc ≤ arg64 w1 w2)) = true := by simp [hahead, hfar]
  have hfree : s.twn.ho.isNone = true := by rw [hho]; rfl
  have htbc : (writes (l.take 2) s).tbc = s.tbc := by
    have hcode : (writes (l.take 2) s).rd Reg.TMU_CYC_CFG_TBC_CODE = s.rd Reg.TMU_CYC_CFG_TBC_CODE :=
      rd_writes_ne (l.take 2) s (g := Reg.TMU_CYC_CFG_TBC_CODE) (by
        simp only [l, List.take_succ_cons, List.take_zero, List.forall_mem_cons]
        exact ⟨by decide, by decide, by simp⟩)
    unfold State.tbc
    rw [hcode]
    rfl
  refine ⟨(writes l s).modTwn fun x => { x with ho := some (arg64 w1 w2 / (writes (l.take 2) s).tbc), hoGot := none }, ?_, ?_, ?_⟩
  · unfold applyTwnHandover
    dsimp only
    rw [hcond, htime, hfree, needs_true rfl, needs_true rfl, needs_true rfl]
    rfl
  · exact (regsTo_perm (regsTo_writes hsep s) (List.perm_append_singleton _ [_, _])).of_regs rfl
  · rw [htbc]
    rfl

theorem twnHoCancel_effect {h : Nat} (hrole : s.md.role = .active) (hho : s.twn.ho = some h) (hbefore : s.tm.cyc + 1 < h) :
    ∃ u, applyTwnHoCancel s = .ok u ∧
      regsTo s u [(Reg.TWN_HANDOVER_RESULT, 5), (Reg.TWN_HANDOVER_SEQ, (s.rd Reg.TWN_HANDOVER_SEQ + 1) % 256)] ∧
      u = { s with regs := u.regs, twn := { s.twn with ho := none } } := by
  have hne : Reg.TWN_HANDOVER_SEQ.key ≠ Reg.TWN_HANDOVER_RESULT.key := by decide
  have hseq : (s.wr Reg.TWN_HANDOVER_RESULT 5).rd Reg.TWN_HANDOVER_SEQ = s.rd Reg.TWN_HANDOVER_SEQ :=
    State.rd_wr_ne s Reg.TWN_HANDOVER_RESULT Reg.TWN_HANDOVER_SEQ 5 hne
  refine ⟨s.hoResult 5, ?_, ⟨fun e he => ?_, fun g hg => ?_⟩, rfl⟩
  · unfold applyTwnHoCancel
    rw [hho, decide_eq_true hrole]
    exact if_pos (decide_eq_true hbefore)
  · rcases List.mem_cons.1 he with rfl | he
    · exact (State.rd_wr_ne _ Reg.TWN_HANDOVER_SEQ Reg.TWN_HANDOVER_RESULT _ hne.symm).trans
        (State.rd_wr_same s Reg.TWN_HANDOVER_RESULT 5)
    · rw [List.mem_singleton.1 he]
      refine (State.rd_wr_same (s.wr Reg.TWN_HANDOVER_RESULT 5) Reg.TWN_HANDOVER_SEQ _).trans ?_
      rw [hseq]
      rfl
  · exact (State.rd_wr_ne _ Reg.TWN_HANDOVER_SEQ g _ (hg _ (.tail _ (.head _)))).trans
      (State.rd_wr_ne s Reg.TWN_HANDOVER_RESULT g 5 (hg _ (.head _)))

/-! ### The lease's expiry (R382) -/

/-- A step of a role's change: the outputs, their supplies, the recorder and registers. -/
structure RoleOp (s t : State) : Prop where
  frame : t = { s with regs := t.regs, rcd := t.rcd, sio := t.sio, dlk := t.dlk }
  count : t.rd Reg.TWN_TAKEOVER_ORPHANED = s.rd Reg.TWN_TAKEOVER_ORPHANED

theorem RoleOp.trans (h : RoleOp s t) (h' : RoleOp t u) : RoleOp s u := ⟨by rw [h'.frame, h.frame], h'.count.trans h.count⟩

theorem RoleOp.wr (s : State) {f : Fld} (v : Nat) (h : Reg.TWN_TAKEOVER_ORPHANED.key ≠ f.key) : RoleOp s (s.wr f v) :=
  ⟨rfl, State.rd_wr_ne s f Reg.TWN_TAKEOVER_ORPHANED v h⟩

theorem RoleOp.foldSt {α : Type} {l : List α} {f : α → State → State} (h : ∀ x ∈ l, ∀ s, RoleOp s (f x s)) (s : State) :
    RoleOp s (foldSt l f s) :=
  foldSt_inv (P := RoleOp s) (fun x hx t ht => ht.trans (h x hx t)) ⟨rfl, rfl⟩

theorem enqueue_role (s : State) (e : RecEv) : RoleOp s (s.enqueue e) :=
  ⟨by rw [enqueue_frame], keepsRegs_enqueue s e _ (by decide)⟩

theorem holdTimesCleared_role (s : State) : RoleOp s (holdTimesCleared s) := ⟨rfl, State.rd_congr rfl _⟩

theorem endHolds_role (s : State) : RoleOp s s.endHolds := by
  have hclear : RoleOp s (holdsCleared s) := RoleOp.foldSt (fun o ho t => RoleOp.wr t _
    ((show ∀ o < 12, Reg.TWN_TAKEOVER_ORPHANED.key ≠ (Reg.SIO_OUT_STAT_HOLD o).key by decide) o (mem_out12 ho))) s
  rw [endHolds_eq]
  exact hclear.trans (holdTimesCleared_role _)

theorem driveAll_role (s : State) : RoleOp s s.driveAll := by
  refine ⟨by rw [(driveAll_outOp s).frame], driveAll_rd_outside s fun p _ b _ => ?_⟩
  have hkey : Reg.TWN_TAKEOVER_ORPHANED.key = 0x00E00030 * 32 + 24 := rfl
  rw [hkey]
  omega

theorem scrubRegs_role (s : State) (event : Bool) : RoleOp s (s.scrubRegs event) := by
  have hpace : ∀ c : Ch, Reg.TWN_TAKEOVER_ORPHANED.key ≠ (Reg.MIU_SCRUB_PACE (Ch.num c)).key := by intro c; cases c <;> decide
  have hfold (s : State) : RoleOp s (foldSt (Ch.all.filter s.booted) (fun c s => s.wr (Reg.MIU_SCRUB_PACE (Ch.num c)) (s.scrubPace (Ch.num c))) s) :=
    RoleOp.foldSt (fun c _ t => RoleOp.wr t _ (hpace c)) s
  unfold State.scrubRegs
  dsimp only
  split
  · exact (hfold s).trans ⟨by rw [diag_frame], keepsRegs_diag _ _ _ _ _ _ _ (by decide)⟩
  · exact hfold s

theorem twnRegs_role (s : State) : RoleOp s s.twnRegs := ⟨by rw [twnRegs_frame], twnRegs_keeps s _ (by decide)⟩

/-- A change to ORPHAN, after the role itself. -/
theorem setRole_orphan (h : s.md.role ≠ .orphan) : RoleOp (s.modMd fun x => { x with role := .orphan }) (s.setRole .orphan) := by
  have hstep (v : State) : RoleOp v ((v.enqueue (v.event 2 0x01 Src.mod 0 [v.storedWord 0x44, v.modStatus])).endHolds.driveTp.driveAll) :=
    (((enqueue_role v _).trans (endHolds_role _)).trans (RoleOp.wr _ _ (by decide))).trans (driveAll_role _)
  unfold State.setRole
  rw [if_neg (Ne.symm h)]
  exact hstep _

/-- What the loss of a lease leaves in the twin unit and its count, before the role changes. -/
def leaseDropped (s : State) : State :=
  (s.inc Reg.TWN_TAKEOVER_ORPHANED).modTwn fun x => { x with lose := false, hoGot := none, heard := none, heardCnt := 0 }

theorem orphaned_role (h : s.md.role = .active) : RoleOp ((leaseDropped s).modMd fun x => { x with role := .orphan }) s.orphaned :=
  ((setRole_orphan (s := leaseDropped s) (by change s.md.role ≠ _; rw [h]; decide)).trans (scrubRegs_role _ true)).trans (twnRegs_role _)

theorem leaseExpiry_next (hdown : s.down = false) (htwin : s.twin = true) (hrole : s.md.role = .active) (hend : s.leaseEnd ≤ s.tm.cyc) :
    ∃ t, exec .leaseExpiry s = .next t ∧ t.md = { s.md with role := .orphan } ∧
      t.rd Reg.TWN_TAKEOVER_ORPHANED = up s Reg.TWN_TAKEOVER_ORPHANED ∧ t.outPermit = false ∧ t.chs = s.chs := by
  have hx : exec .leaseExpiry s = execLeaseExpiry s := by rfl
  obtain ⟨hframe, hcount⟩ := orphaned_role hrole
  have hmd : s.orphaned.md = { s.md with role := .orphan } := by rw [hframe]; rfl
  refine ⟨s.orphaned, ?_, hmd, hcount.trans (rd_inc_up s Reg.TWN_TAKEOVER_ORPHANED), ?_, by rw [hframe]; rfl⟩
  · rw [hx, execLeaseExpiry, htwin, hdown, decide_eq_true hrole, decide_eq_true hend, if_pos (by decide)]
  · unfold State.outPermit
    rw [hmd]
    exact Bool.and_false _

theorem leaseExpiry_early (h : s.tm.cyc < s.leaseEnd) : exec .leaseExpiry s = .next s := by
  have hx : exec .leaseExpiry s = execLeaseExpiry s := by rfl
  rw [hx, execLeaseExpiry, decide_eq_false (Nat.not_le.2 h), if_neg (by simp)]

theorem leaseOfThePair_holds : leaseOfThePair := by
  intro s hdown htwin
  refine ⟨?_, fun m hok hpair harb => ⟨?_, ?_⟩, ?_, fun _ => leaseExpiry_early⟩
  · exact fun e rest hrole hmode horig hes hslots => leaseWindow_next hdown htwin hrole hmode horig hes hslots
  · exact fun hrole hnode hk hpos hepoch hq => grantReceive_ack hok htwin hpair harb hrole hnode hk hpos hepoch hq
  · exact fun hrole hnode hk hho hq => grantReceive_won hok htwin hpair harb hrole hnode hk hho hq
  · exact fun hrole hend => leaseExpiry_next hdown htwin hrole hend

theorem plannedHandover_holds : plannedHandover := by
  intro s w1 w2 w3 hrole
  refine ⟨fun htwin hmode hdbg hcur hq hahead hfar hho => ?_, fun h hho hbefore => ?_⟩
  · refine takesEffect_of (code := 0x60) (fun r => applyTwnHandover r.w1 r.w2) (fun _ => rfl) fun seq port _ => ?_
    exact twnHandover_effect (s := taken s seq) hrole htwin hmode hdbg hcur hq hahead hfar hho
  · refine takesEffect_of (code := 0x61) (fun _ => applyTwnHoCancel) (fun _ => rfl) fun seq port _ => ?_
    exact twnHoCancel_effect (s := taken s seq) hrole hho hbefore

/-- Settles O49: the messages of the lease and its expiry, and the two commands of a planned handover. -/
theorem leaseAndPlannedHandover : Obligations.LeaseAndPlannedHandover := ⟨leaseOfThePair_holds, plannedHandover_holds⟩

end Sys2Proof.Claims
end

section
/-! The twin link, the standby's record and its image load, the capture and the comparison: O47. -/

namespace Sys2Proof.Claims

open Sys2Proof Sys2Proof.Machine

variable {s t u : State} {c : Ch}

/-! ### What the image load of the deadline leaves of the twin unit -/

/-- The fields that the deadline's record decides. -/
def recFlds : List Fld := [Reg.TWN_STATUS_FREE_RUN, Reg.TWN_LINK_REC_LATE, Reg.TWN_STATUS_LINK_UP]

/-- What the load and the start of a cycle keep of the deadline's record. -/
structure RecKept (s t : State) : Prop where
  rd : ∀ g ∈ recFlds, t.rd g = s.rd g
  late : t.twn.late = s.twn.late
  ran : t.twn.ran = s.twn.ran

theorem RecKept.refl (s : State) : RecKept s s := ⟨fun _ _ => rfl, rfl, rfl⟩

theorem RecKept.trans (h : RecKept s t) (h' : RecKept t u) : RecKept s u :=
  ⟨fun g hg => (h'.rd g hg).trans (h.rd g hg), h'.late.trans h.late, h'.ran.trans h.ran⟩

theorem RecKept.ite {p : Prop} [Decidable p] (ht : RecKept s t) (hu : RecKept s u) : RecKept s (if p then t else u) := by
  split
  · exact ht
  · exact hu

theorem RecKept.foldSt {α : Type} {l : List α} {f : α → State → State} (h : ∀ x ∈ l, ∀ s, RecKept s (f x s)) (s : State) :
    RecKept s (foldSt l f s) :=
  foldSt_inv (P := RecKept s) (fun x hx t ht => ht.trans (h x hx t)) (RecKept.refl s)

theorem RecKept.of_eq (hregs : t.regs = s.regs) (htwn : t.twn.late = s.twn.late) (hran : t.twn.ran = s.twn.ran) : RecKept s t :=
  ⟨fun g _ => State.rd_congr hregs g, htwn, hran⟩

/-- The fields of the deadline's record lie above the blocks of the channels, the network and the vote. -/
theorem recFlds_above : ∀ g ∈ recFlds, 0xE00000 * 32 ≤ g.key := by decide

theorem RecKept.wr_below {f : Fld} (hf : f.key < 0xE00000 * 32) (s : State) (v : Nat) : RecKept s (s.wr f v) :=
  ⟨fun g hg => State.rd_wr_ne s f g v (by have := recFlds_above g hg; omega), rfl, rfl⟩

theorem RecKept.of_keepsRegs {l : List Fld} (h : keepsRegs s t l) (hl : ∀ g ∈ recFlds, ∀ f ∈ l, g.key ≠ f.key) (htwn : t.twn = s.twn) :
    RecKept s t := ⟨fun g hg => h g (hl g hg), by rw [htwn], by rw [htwn]⟩

theorem MiuOp.recKept (h : MiuOp s t) : RecKept s t :=
  ⟨fun g hg => h.regs g ((show ∀ g ∈ recFlds, chanKey g.key = false by decide) g hg), by rw [h.frame], by rw [h.frame]⟩

theorem RecKept.modCh (s : State) (c : Ch) (f : Chan → Chan) : RecKept s (s.modCh c f) := .of_eq rfl rfl rfl

theorem RecKept.modMd (s : State) (f : ModSt → ModSt) : RecKept s (s.modMd f) := .of_eq rfl rfl rfl

theorem RecKept.modPtn (s : State) (f : PtnSt → PtnSt) : RecKept s (s.modPtn f) := .of_eq rfl rfl rfl

theorem ccuStops_recKept (s : State) (c : Ch) : RecKept s (s.ccuStops c) := by
  have hrun : (Reg.LEN_STATUS_RUN (Ch.num c)).key < 0xE00000 * 32 := by cases c <;> decide
  have hpsn : (Reg.MIU_EVENT_CCU_PSN (Ch.num c)).key < 0xE00000 * 32 := by cases c <;> decide
  have h : RecKept s (((s.modCh c fun h => { h with ccuStop := true }).wrb (Reg.MIU_EVENT_CCU_PSN (Ch.num c)) true).wr
      (Reg.LEN_STATUS_RUN (Ch.num c)) 0) :=
    ((RecKept.modCh s c _).trans (RecKept.wr_below hpsn _ _)).trans (RecKept.wr_below hrun _ 0)
  unfold State.ccuStops
  exact RecKept.ite (h.trans (RecKept.modMd _ _)) h

theorem ccuReads_recKept (s : State) (c : Ch) (lo n : Nat) : RecKept s (s.ccuReads c lo n) := by
  unfold State.ccuReads
  have h := (readStore_miuOp s c lo n).recKept
  exact RecKept.ite (h.trans (ccuStops_recKept _ c)) h

theorem writeMapHalf_miuOp (s : State) (c : Ch) (cw i : Nat) : MiuOp s (s.writeMapHalf c cw i) := by
  unfold State.writeMapHalf
  dsimp only
  split
  · exact MiuOp.flip s c cw
  · split
    · exact (MiuOp.setErr s c cw _).trans (MiuOp.flip _ c cw)
    · exact ((MiuOp.miuCorrected s c cw _ _ false).trans (MiuOp.setErr _ c cw _)).trans (MiuOp.flip _ c cw)
    · exact (((MiuOp.miuUncorrectable s c cw _).trans (MiuOp.setPsn _ c _ true)).trans (MiuOp.setErr _ c cw _)).trans (MiuOp.flip _ c cw)

theorem storeAll_recKept (s : State) (c : Ch) (i : Nat) (v : Psn Word) (orPsn : Bool) : RecKept s (s.storeAll c i v orPsn) := by
  have hlanes (t : State) (p : State → Nat → Bool) : RecKept t (Machine.foldSt lanes16 (fun l s =>
      (s.writeMapHalf c (Miu.cwLane l i) i).markImg c (some l) i (p s l)) t) :=
    RecKept.foldSt (fun l _ t => ((writeMapHalf_miuOp t c _ i).trans (MiuOp.setPsn _ c _ _)).recKept) t
  have himg (t : State) (w : Psn Word) : RecKept t (t.storeImg c none i w) :=
    ((writeMapHalf_miuOp t c _ i).recKept.trans (RecKept.modCh _ c _)).trans (MiuOp.setPsn _ c _ _).recKept
  unfold State.storeAll
  exact (hlanes s _).trans (himg _ _)

theorem imageLoad_recKept (s : State) (c : Ch) (w : FMap Word) (ft : ForceTab) : RecKept s (s.imageLoad c w ft) := by
  have hforces (t : State) : RecKept t (t.writeForces c ft) := by
    unfold State.writeForces
    exact RecKept.foldSt (fun i _ t => (MiuOp.readImg t c none i).recKept.trans (storeAll_recKept _ c i _ _)) t
  unfold State.imageLoad
  exact ((RecKept.modCh s c _).trans (MiuOp.flipAmong _ c _ _).recKept).trans (hforces _)

theorem sendRecord_recKept (s : State) (w : FMap Word) : RecKept s (s.sendRecord w) := by
  unfold State.sendRecord
  dsimp only
  split <;> exact .of_eq rfl rfl rfl

/-- The channels that keep a cycle for their chase take its copy. -/
def keepCopies (cs : List Ch) (w : Ch → FMap Word) (ft : ForceTab) (first commit : Bool) (s : State) : State :=
  foldSt cs (fun c s => s.modCh c fun h => { h with
    kept := keepEight h.kept { k := s.tm.cyc, image := w c, forces := ft, first := first, commit := commit, acc := none } }) s

/-- The write of those copies. -/
def writeCopies (cs : List Ch) (s : State) : State := foldSt cs (fun c s => s.storeWritten c (Miu.keptLo s.tm.cyc) Miu.keptN) s

/-- The image loads of a cycle. -/
def loadImages (cs : List Ch) (w : Ch → FMap Word) (ft : ForceTab) (s : State) : State :=
  foldSt cs (fun c s => (s.ccuReads c (Miu.cwForce 0) 512).imageLoad c (w c) ft) s

/-- The load is done. -/
def markLoaded (ft : ForceTab) (s : State) : State :=
  s.modMd fun x => { x with
    loadDone := true, cycForces := ft, firstCold := false, firstWarm := false, firstCommit := false, firstResume := false, decided := false }

/-- The copies of the channels that keep them. -/
def keepCycle (w : Ch → FMap Word) (ft : ForceTab) (first commit : Bool) (s : State) : State :=
  writeCopies (Ch.all.filter (keepCopies (Ch.all.filter s.keeps) w ft first commit s).keeps)
    (keepCopies (Ch.all.filter s.keeps) w ft first commit s)

theorem loadCycle_eq (s : State) (w : Ch → FMap Word) (commit : Bool) :
    s.loadCycle w commit = markLoaded s.forces (keepCycle w s.forces (s.voters.any fun c => (s.ch c).accStart) commit
      (loadImages (s.sendRecord (w (s.voters.headD .chA))).voters w s.forces (s.sendRecord (w (s.voters.headD .chA))))) := rfl

theorem keepCycle_recKept (w : Ch → FMap Word) (ft : ForceTab) (first commit : Bool) (s : State) :
    RecKept s (keepCycle w ft first commit s) := by
  have hkeep (cs : List Ch) (t : State) : RecKept t (keepCopies cs w ft first commit t) :=
    RecKept.foldSt (fun c _ t => RecKept.modCh t c _) t
  have hwrite (cs : List Ch) (t : State) : RecKept t (writeCopies cs t) :=
    RecKept.foldSt (fun c _ t => (MiuOp.storeWritten t c _ _).recKept) t
  exact (hkeep _ s).trans (hwrite _ _)

theorem loadCycle_recKept (s : State) (w : Ch → FMap Word) (commit : Bool) : RecKept s (s.loadCycle w commit) := by
  have himages (cs : List Ch) (t : State) : RecKept t (loadImages cs w s.forces t) :=
    RecKept.foldSt (fun c _ t => (ccuReads_recKept t c _ _).trans (imageLoad_recKept _ c _ _)) t
  rw [loadCycle_eq]
  exact (((sendRecord_recKept s _).trans (himages _ _)).trans (keepCycle_recKept w _ _ _ _)).trans (RecKept.modMd _ _)

/-! ### The start of the cycle -/

theorem startProgram_recKept (s : State) (c : Ch) : RecKept s (s.startProgram c) := by
  have hrun : (Reg.LEN_STATUS_RUN (Ch.num c)).key < 0xE00000 * 32 := by cases c <;> decide
  have hphase : (Reg.LEN_STATUS_PHASE (Ch.num c)).key < 0xE00000 * 32 := by cases c <;> decide
  exact ((RecKept.modCh s c _).trans (RecKept.wr_below hrun _ 1)).trans (RecKept.wr_below hphase _ 0)

theorem haltAll_recKept (s : State) (phase : Nat) (newCycle : Bool) : RecKept s (s.haltAll phase newCycle) := by
  have h : RecKept s (((s.modMd fun x => { x with halted := true, dbgHaltReq := none }).wr Reg.VOT_DBG_STATE 3).wr Reg.VOT_DBG_PHASE phase) :=
    ((RecKept.modMd s _).trans (RecKept.wr_below (by decide) _ _)).trans (RecKept.wr_below (by decide) _ _)
  unfold State.haltAll
  exact RecKept.ite (h.trans (RecKept.wr_below (by decide) _ _)) h

/-- Every channel that its controller does not stop starts its program. -/
def startPrograms (s : State) : State :=
  foldSt (s.voters.filter fun c => !(s.ch c).ccuStop) (fun c s => (s.modCh c Chan.openTraverse).startProgram c) s

/-- A halt ordered for phase 0. -/
def haltedAtStart (s : State) : State := (foldSt s.voters (fun c s => s.wr (Reg.LEN_STATUS_RUN (Ch.num c)) 3) s).haltAll 0 true

/-- A debug step that the start completes. -/
def stepStarted (s : State) : State := if s.rd Reg.VOT_DBG_STATE = 5 then s.wr Reg.VOT_DBG_STATE 1 else s

theorem startAll_eq (s : State) : s.startAll =
    if (stepStarted (startPrograms s)).md.debug && (stepStarted (startPrograms s)).md.dbgHaltReq = some 0 then
      haltedAtStart (stepStarted (startPrograms s)) else stepStarted (startPrograms s) := rfl

theorem startAll_recKept (s : State) : RecKept s s.startAll := by
  have hstart : RecKept s (startPrograms s) :=
    RecKept.foldSt (fun c _ t => (RecKept.modCh t c _).trans (startProgram_recKept _ c)) s
  have hstep (t : State) : RecKept t (stepStarted t) := RecKept.ite (RecKept.wr_below (by decide) t 1) (RecKept.refl t)
  have hhalt (t : State) : RecKept t (haltedAtStart t) :=
    (RecKept.foldSt (fun c _ t => RecKept.wr_below (by cases c <;> decide) t 3) t).trans (haltAll_recKept _ 0 true)
  rw [startAll_eq]
  exact (hstart.trans (hstep _)).trans (RecKept.ite (hhalt _) (RecKept.refl _))

/-! ### Network inputs and the communication state -/

theorem peerFld_below {f g : Nat → Fld} {a b k : Nat} (hf : ∀ k, (f k).key = (0x00701000 + k * 4) * 32 + a)
    (hg : ∀ k, (g k).key = (0x00701200 + k * 4) * 32 + b) (ha : a < 32) (hb : b < 32) (hk : k < 1024) :
    (peerFld f g k).key < 0xE00000 * 32 := by
  unfold peerFld
  split
  · rw [hf]
    omega
  · rw [hg]
    omega

theorem entry_peer_lt (s : State) (e : Nat) : (s.entry e).peer < 1024 := by
  have hmap : (s.entry e).map < 2 ^ 2 := Nat.mod_lt _ (by decide)
  have hindex : (s.entry e).index < 2 ^ 8 := Nat.mod_lt _ (by decide)
  unfold SchedEntry.peer
  omega

/-- A step of the network's inputs. -/
structure NetOp (s t : State) : Prop where
  frame : t = { s with regs := t.regs, ptn := t.ptn, gwy := t.gwy, twn := { s.twn with commNext := t.twn.commNext } }
  rd : ∀ g ∈ recFlds, t.rd g = s.rd g

theorem NetOp.refl (s : State) : NetOp s s := ⟨rfl, fun _ _ => rfl⟩

theorem NetOp.trans (h : NetOp s t) (h' : NetOp t u) : NetOp s u :=
  ⟨by rw [h'.frame, h.frame], fun g hg => (h'.rd g hg).trans (h.rd g hg)⟩

theorem NetOp.ite {p : Prop} [Decidable p] (ht : NetOp s t) (hu : NetOp s u) : NetOp s (if p then t else u) := by
  split
  · exact ht
  · exact hu

theorem NetOp.foldSt {α : Type} {l : List α} {f : α → State → State} (h : ∀ x ∈ l, ∀ s, NetOp s (f x s)) (s : State) :
    NetOp s (foldSt l f s) :=
  foldSt_inv (P := NetOp s) (fun x hx t ht => ht.trans (h x hx t)) (NetOp.refl s)

theorem NetOp.wr {f : Fld} (hf : f.key < 0xE00000 * 32) (s : State) (v : Nat) : NetOp s (s.wr f v) :=
  ⟨rfl, (RecKept.wr_below hf s v).rd⟩

theorem NetOp.modPtn (s : State) (f : PtnSt → PtnSt) : NetOp s (s.modPtn f) := ⟨rfl, fun _ _ => rfl⟩

theorem NetOp.modGwy (s : State) (f : GwySt → GwySt) : NetOp s (s.modGwy f) := ⟨rfl, fun _ _ => rfl⟩

theorem NetOp.commTaken (s : State) : NetOp s (s.modTwn fun x => { x with commNext := [] }) := ⟨rfl, fun _ _ => rfl⟩

theorem NetOp.recKept (h : NetOp s t) : RecKept s t := ⟨h.rd, by rw [h.frame], by rw [h.frame]⟩

section Peer

variable {k : Nat} (hk : k < 1024)
include hk

theorem ret_below : (Peer.ret k).key < 0xE00000 * 32 :=
  peerFld_below (a := 27) (b := 27) (fun _ => rfl) (fun _ => rfl) (by decide) (by decide) hk

theorem subst_below : (Peer.subst k).key < 0xE00000 * 32 :=
  peerFld_below (a := 29) (b := 29) (fun _ => rfl) (fun _ => rfl) (by decide) (by decide) hk

theorem miss_below : (Peer.miss k).key < 0xE00000 * 32 :=
  peerFld_below (a := 0) (b := 0) (fun _ => rfl) (fun _ => rfl) (by decide) (by decide) hk

theorem reject_below : (Peer.reject k).key < 0xE00000 * 32 :=
  peerFld_below (a := 24) (b := 24) (fun _ => rfl) (fun _ => rfl) (by decide) (by decide) hk

theorem stale_below : (Reg.PTN_STN_STALE k).key < 0xE00000 * 32 := by
  change (0x00701000 + k * 4) * 32 + 30 < _
  omega

theorem fresh_below : (Reg.PTN_CONN_FRESH (k - 128)).key < 0xE00000 * 32 := by
  change (0x00701200 + (k - 128) * 4) * 32 + 30 < _
  omega

theorem peerBit_netOp (s : State) (b : Bool) : NetOp s (s.peerBit k b) := by
  unfold State.peerBit
  exact NetOp.ite (NetOp.wr (stale_below hk) s _) (NetOp.wr (fresh_below hk) s _)

theorem peerMiss_netOp (s : State) (locs : List Nat) : NetOp s (s.peerMiss k locs) := by
  have hcount (v : Nat) : NetOp s ((s.wr (Peer.ret k) 1).wr (Peer.miss k) v) :=
    (NetOp.wr (ret_below hk) s 1).trans (NetOp.wr (miss_below hk) _ v)
  unfold State.peerMiss
  exact (NetOp.ite (((hcount _).trans (NetOp.wr (subst_below hk) _ _)).trans (NetOp.modPtn _ _)) (hcount _)).trans (peerBit_netOp hk _ _)

theorem peerValid_netOp (s : State) (locs : List Nat) (r : RxFrame) : NetOp s (s.peerValid k locs r) := by
  have happly (t : State) (f : PtnSt → PtnSt) (b : Bool) :
      NetOp t (((((t.wr (Peer.ret k) 0).wrb (Peer.subst k) false).wr (Peer.miss k) 0).modPtn f).peerBit k b) :=
    ((((NetOp.wr (ret_below hk) t 0).trans (NetOp.wr (subst_below hk) _ _)).trans (NetOp.wr (miss_below hk) _ 0)).trans
      (NetOp.modPtn _ f)).trans (peerBit_netOp hk _ b)
  have hbegin (t : State) (f : PtnSt → PtnSt) :
      NetOp t ((((t.wr (Peer.ret k) 2).wr (Peer.miss k) 0).modPtn f).peerBit k false) :=
    (((NetOp.wr (ret_below hk) t 2).trans (NetOp.wr (miss_below hk) _ 0)).trans (NetOp.modPtn _ f)).trans (peerBit_netOp hk _ false)
  have hseq (f : PtnSt → PtnSt) : NetOp s (s.modPtn f) := NetOp.modPtn s f
  unfold State.peerValid
  extract_lets n f echo s1 apply
  split
  · exact (hseq _).trans (happly _ _ _)
  · exact (hseq _).trans (hbegin _ _)
  · exact (hseq _).trans (NetOp.ite (happly _ _ _) (peerBit_netOp hk _ false))

theorem setPeerComm_netOp (s : State) (l : List Byte) : NetOp s (s.setPeerComm k l) := by
  have hflags (a b d : Nat) : NetOp s (((s.wr (Peer.miss k) a).wr (Peer.subst k) b).wr (Peer.ret k) d) :=
    ((NetOp.wr (miss_below hk) s a).trans (NetOp.wr (subst_below hk) _ b)).trans (NetOp.wr (ret_below hk) _ d)
  unfold State.setPeerComm
  extract_lets fl tx s1 s2
  exact (NetOp.ite ((hflags _ _ _).trans (NetOp.wr (stale_below hk) _ _)) ((hflags _ _ _).trans (NetOp.wr (fresh_below hk) _ _))).trans
    (NetOp.modPtn _ _)

end Peer

theorem loadEntry_netOp (s : State) (e mi : Nat) : NetOp s (s.loadEntry e mi) := by
  have hk := entry_peer_lt s e
  unfold State.loadEntry
  extract_lets x r k
  clear_value r
  split
  · exact NetOp.refl s
  · split
    · cases r
      case none => exact NetOp.refl s
      case some => exact NetOp.modPtn s _
    · cases r
      case none => exact NetOp.ite (peerMiss_netOp hk s _) (NetOp.refl s)
      case some => exact NetOp.ite (peerValid_netOp hk s _ _) ((NetOp.wr (reject_below hk) s _).trans (peerMiss_netOp hk _ _))

theorem ptnLoad_netOp (s : State) : NetOp s s.ptnLoad := NetOp.foldSt (fun e _ t => loadEntry_netOp t e _) s

theorem takeComm_netOp (s : State) : NetOp s s.takeComm := by
  have hpeers (l : List Byte) : NetOp s (foldSt (List.range 256) (fun k s => s.setPeerComm k ((l.drop (12 * k)).take 12)) s) :=
    NetOp.foldSt (fun k hk t => setPeerComm_netOp (Nat.lt_trans (List.mem_range.1 hk) (by decide)) t _) s
  unfold State.takeComm State.setComm
  exact NetOp.ite (NetOp.refl s) (((hpeers _).trans (NetOp.modGwy _ _)).trans (NetOp.commTaken _))

/-! ### The images that the load leaves -/

/-- A step that leaves every channel's image. -/
def ImgKept (s t : State) : Prop := ∀ d, (t.ch d).img = (s.ch d).img

theorem ImgKept.trans (h : ImgKept s t) (h' : ImgKept t u) : ImgKept s u := fun d => (h' d).trans (h d)

theorem ImgKept.foldSt {α : Type} {l : List α} {f : α → State → State} (h : ∀ x s, ImgKept s (f x s)) (s : State) : ImgKept s (foldSt l f s) :=
  foldSt_inv (P := ImgKept s) (fun x _ t ht => ht.trans (h x t)) fun _ => rfl

theorem ImgKept.of_chs (h : t.chs = s.chs) : ImgKept s t := fun d => by rw [State.ch, h, State.ch]

theorem ImgKept.modCh (s : State) (c : Ch) {f : Chan → Chan} (hf : ∀ h, (f h).img = h.img) : ImgKept s (s.modCh c f) := fun d => by
  by_cases h : d = c
  · subst h
    rw [State.ch_modCh_same, hf]
  · rw [State.ch_modCh_ne s f h]

theorem MiuOp.imgKept (h : MiuOp s t) : ImgKept s t := fun d => by rw [h.ch d]

theorem ccuReads_imgKept (s : State) (c : Ch) (lo n : Nat) : ImgKept s (s.ccuReads c lo n) := by
  have hstop (t : State) : ImgKept t (t.ccuStops c) := by
    unfold State.ccuStops
    dsimp only
    have h := ImgKept.modCh t c (f := fun h => { h with ccuStop := true }) fun _ => rfl
    split
    · exact h.trans (ImgKept.of_chs rfl)
    · exact h.trans (ImgKept.of_chs rfl)
  have hread := (readStore_miuOp s c lo n).imgKept
  unfold State.ccuReads
  dsimp only
  split
  · exact hread.trans (hstop _)
  · exact hread

theorem keepCycle_imgKept (w : Ch → FMap Word) (ft : ForceTab) (first commit : Bool) (s : State) :
    ImgKept s (keepCycle w ft first commit s) := by
  have hkeep (cs : List Ch) (t : State) : ImgKept t (keepCopies cs w ft first commit t) := by
    refine ImgKept.foldSt (fun c t => ?_) t
    refine ImgKept.modCh t c ?_
    exact fun _ => rfl
  have hwrite (cs : List Ch) (t : State) : ImgKept t (writeCopies cs t) :=
    ImgKept.foldSt (fun c t => (MiuOp.storeWritten t c _ _).imgKept) t
  exact (hkeep _ s).trans (hwrite _ _)

theorem startAll_imgKept (s : State) : ImgKept s s.startAll := by
  have hopen (h : Chan) : h.openTraverse.img = h.img := by
    unfold Chan.openTraverse
    split <;> rfl
  have hprog (t : State) (c : Ch) : ImgKept t (t.startProgram c) :=
    (ImgKept.modCh t c (f := fun h => { h with lanes := [], clk := 0, raised := [] }) fun _ => rfl).trans (ImgKept.of_chs rfl)
  have hstart : ImgKept s (startPrograms s) := ImgKept.foldSt (fun c t => (ImgKept.modCh t c hopen).trans (hprog _ c)) s
  have hstep (t : State) : ImgKept t (stepStarted t) := by
    unfold stepStarted
    split <;> exact fun _ => rfl
  have hhalt (t : State) : ImgKept t (haltedAtStart t) :=
    (ImgKept.foldSt (f := fun c s => s.wr (Reg.LEN_STATUS_RUN (Ch.num c)) 3) (l := t.voters) (fun c t => ImgKept.of_chs rfl) t).trans
      (ImgKept.of_chs rfl)
  rw [startAll_eq]
  split
  · exact (hstart.trans (hstep _)).trans (hhalt _)
  · exact hstart.trans (hstep _)

/-- What a union reads where the second map holds an entry. -/
theorem FMap.get_union {w m : FMap Word} (h : FMap.wf 0 w = true) (i : Nat) :
    FMap.get 0 (FMap.union m w) i = if FMap.get 0 w i = 0 then FMap.get 0 m i else FMap.get 0 w i := by
  by_cases hi : FMap.get 0 w i = 0
  · rw [if_pos hi]
    refine FMap.get_foldl_put 0 w (fun e => e.1) (fun e => e.2) m fun e he hkey => ?_
    obtain ⟨hget, hne⟩ := FMap.get_of_mem h he
    exact hne (hget.symm.trans (hkey ▸ hi))
  · rw [if_neg hi]
    induction w generalizing m with
    | nil => exact absurd rfl hi
    | cons e w ih =>
      obtain ⟨j, v⟩ := e
      obtain ⟨-, hfrom, hw⟩ := (FMap.wf_cons (0 : Word) j v w).1 h
      have hcons (m : FMap Word) : FMap.union m ((j, v) :: w) = FMap.union (FMap.put m j v) w := rfl
      rw [hcons]
      by_cases hj : j = i
      · subst hj
        have hget : FMap.get 0 ((j, v) :: w) j = v := if_pos rfl
        have hapart : ∀ e ∈ w, e.1 ≠ j := fun e he heq => by have := hfrom e he; omega
        rw [hget]
        exact (FMap.get_foldl_put 0 w (fun e => e.1) (fun e => e.2) _ hapart).trans ((FMap.get_put 0 m j j v).trans (if_pos rfl))
      · have hget : FMap.get 0 ((j, v) :: w) i = FMap.get 0 w i := if_neg hj
        rw [hget] at hi ⊢
        exact ih hw hi

theorem forceLoad_nil (w : FMap Word) : forceLoad [] w = w := rfl

theorem imageLoad_loaded (s : State) (c : Ch) {w : FMap Word} (hw : FMap.wf 0 w = true) {i : Nat} (hi : Img.loaded i = true) :
    FMap.get 0 ((s.imageLoad c w []).ch c).img i = FMap.get 0 w i := by
  have hkeep := (MiuOp.flipAmong (s.modCh c fun h => { h with
    img := FMap.union (h.img.filter fun (e : Nat × Word) => !Img.loaded e.1) w,
    errs := h.errs.filter fun (e : Nat × BitVec 72) => !Miu.loadedCw e.1,
    pmap := h.pmap.filter fun (e : Nat × Bool) => !Miu.loadedCw (e.1 / 2) }) c [Miu.cwLane 0 0, Miu.cwMaster 0] Miu.loadedCw).imgKept
  have hout : FMap.get 0 ((s.ch c).img.filter fun (e : Nat × Word) => !Img.loaded e.1) i = 0 :=
    FMap.get_filter_out 0 _ _ fun v => by rw [hi]; rfl
  refine (congrArg (FMap.get 0 · i) (hkeep c)).trans ?_
  rw [State.ch_modCh_same]
  dsimp only
  rw [FMap.get_union hw, hout]
  split
  · exact Eq.symm ‹_›
  · rfl

theorem imageLoad_ne (s : State) {c d : Ch} (h : d ≠ c) (w : FMap Word) : ((s.imageLoad c w []).ch d).img = (s.ch d).img := by
  refine ((MiuOp.flipAmong (s.modCh c fun h => { h with
    img := FMap.union (h.img.filter fun (e : Nat × Word) => !Img.loaded e.1) w,
    errs := h.errs.filter fun (e : Nat × BitVec 72) => !Miu.loadedCw e.1,
    pmap := h.pmap.filter fun (e : Nat × Bool) => !Miu.loadedCw (e.1 / 2) }) c [Miu.cwLane 0 0, Miu.cwMaster 0] Miu.loadedCw).imgKept d).trans ?_
  rw [State.ch_modCh_ne _ _ h]

/-- Every channel of a list holds a load's words. -/
theorem loadImages_loaded {cs : List Ch} (hcs : cs.Nodup) (hc : c ∈ cs) {w : Ch → FMap Word} (hw : FMap.wf 0 (w c) = true) {i : Nat}
    (hi : Img.loaded i = true) (s : State) : FMap.get 0 ((loadImages cs w [] s).ch c).img i = FMap.get 0 (w c) i := by
  refine foldSt_at (c := c) (P := fun _ => True) (Q := fun u => FMap.get 0 (u.ch c).img i = FMap.get 0 (w c) i) (fun _ _ _ _ => trivial)
    (fun u _ => imageLoad_loaded _ c hw hi) (fun d hd u hu => ?_) hcs hc trivial
  rw [imageLoad_ne _ hd.symm, ccuReads_imgKept u d _ _ c]
  exact hu

end Sys2Proof.Claims
end

section
/-! The records and the comparison of a standby: O47. -/

namespace Sys2Proof.Claims

open Sys2Proof Sys2Proof.Machine

variable {s t u : State} {c : Ch}

/-! ### The link (R370, R377) -/

theorem regsTo_inc (s : State) (f : Fld) : regsTo s (s.inc f) [(f, up s f)] :=
  ⟨fun _ he => List.mem_singleton.1 he ▸ rd_inc_up s f, fun g hg => State.rd_wr_ne s f g _ (hg (f, up s f) List.mem_cons_self)⟩

theorem twinLinkChange_up (hdown : s.down = false) :
    ∃ t, exec (.twinLinkChange true) s = .next t ∧ regsTo s t [(Reg.TWN_STATUS_LINK_UP, 1)] ∧ t = { s with regs := t.regs } := by
  have hx : exec (.twinLinkChange true) s = execTwinLinkChange true s := by rfl
  rw [hx, execTwinLinkChange, hdown, if_neg (by decide)]
  exact ⟨_, rfl, regsTo_writes (l := [(Reg.TWN_STATUS_LINK_UP, 1)])
    ⟨fun e he => List.mem_singleton.1 he ▸ show 1 < 2 ^ 1 by decide, List.pairwise_singleton _ _⟩ s, rfl⟩

/-- A snapshot that stopped part-way is counted. -/
def partDropped (s : State) : State := if s.twn.rx.isEmpty then s else s.inc Reg.TWN_SNAP_COUNT_DISCARDED

theorem partDropped_op (s : State) : RegOp s (partDropped s) [Reg.TWN_SNAP_COUNT_DISCARDED] :=
  RegOp.ite (RegOp.refl s _) ((RegOp.refl s _).inc List.mem_cons_self)

theorem partDropped_count (s : State) : (partDropped s).rd Reg.TWN_SNAP_COUNT_DISCARDED =
    if s.twn.rx = [] then s.rd Reg.TWN_SNAP_COUNT_DISCARDED else up s Reg.TWN_SNAP_COUNT_DISCARDED := by
  unfold partDropped
  by_cases h : s.twn.rx = []
  · rw [if_pos h, h]
    rfl
  · rw [if_neg h, if_neg (by simpa using h)]
    exact rd_inc_up s _

theorem twinLinkChange_down (hdown : s.down = false) :
    ∃ t, exec (.twinLinkChange false) s = .next t ∧ t.rdb Reg.TWN_STATUS_LINK_UP = false ∧
      t.rd Reg.TWN_SNAP_COUNT_DISCARDED = (if s.twn.rx = [] then s.rd Reg.TWN_SNAP_COUNT_DISCARDED else up s Reg.TWN_SNAP_COUNT_DISCARDED) ∧
      t.twn = { s.twn with rx := [], rxK := 0 } ∧ keepsRegs s t [Reg.TWN_STATUS_LINK_UP, Reg.TWN_SNAP_COUNT_DISCARDED] ∧ onlyTwn s t := by
  have hx : exec (.twinLinkChange false) s = execTwinLinkChange false s := by rfl
  rw [hx, execTwinLinkChange, hdown, if_neg (by decide)]
  have hlost : RegOp s (s.wrb Reg.TWN_STATUS_LINK_UP false) [Reg.TWN_STATUS_LINK_UP, Reg.TWN_SNAP_COUNT_DISCARDED] :=
    (RegOp.refl s _).wrb List.mem_cons_self false
  have hdrop := partDropped_op (s.wrb Reg.TWN_STATUS_LINK_UP false)
  have hcount := partDropped_count (s.wrb Reg.TWN_STATUS_LINK_UP false)
  have hsame : (s.wrb Reg.TWN_STATUS_LINK_UP false).rd Reg.TWN_SNAP_COUNT_DISCARDED = s.rd Reg.TWN_SNAP_COUNT_DISCARDED :=
    State.rd_wr_ne s Reg.TWN_STATUS_LINK_UP Reg.TWN_SNAP_COUNT_DISCARDED _ (by decide)
  have hop := hlost.trans (hdrop.mono fun f hf => List.mem_cons_of_mem _ hf)
  refine ⟨(partDropped (s.wrb Reg.TWN_STATUS_LINK_UP false)).modTwn fun x => { x with rx := [], rxK := 0 }, rfl, ?_, ?_, ?_, ?_, ?_⟩
  · refine (rdb_of_rd (hdrop.regs Reg.TWN_STATUS_LINK_UP (by decide))).trans ?_
    exact State.rdb_wrb_same s (f := Reg.TWN_STATUS_LINK_UP) (show (1 : Nat) ≠ 0 by decide) false
  · refine hcount.trans ?_
    unfold up
    rw [hsame]
    rfl
  · change { (partDropped (s.wrb Reg.TWN_STATUS_LINK_UP false)).twn with rx := [], rxK := 0 } = _
    rw [hop.frame]
  · exact hop.regs
  · exact onlyTwn_trans (t := partDropped (s.wrb Reg.TWN_STATUS_LINK_UP false)) (by rw [onlyTwn, hop.frame]) rfl

/-! ### The standby's input record (R372) -/

theorem standby_of (hdown : s.down = false) (htwin : s.twin = true) (hrole : s.md.role = .standby) : s.standby = true := by
  unfold State.standby
  rw [htwin, hdown, decide_eq_true hrole]
  rfl

theorem twinInputRecord_kept (hstandby : s.standby = true) (hlate : s.twn.late = false) {b : List Byte} {ft : Option (List Byte)}
    {w : FMap Word} (hparse : TwinRec.parse b = some (s.tm.cyc, ft, w)) :
    exec (.twinInputRecord b) s = .next { s with twn := { s.twn with recIn := some b } } := by
  have hx : exec (.twinInputRecord b) s = execTwinInputRecord b s := by rfl
  rw [hx, execTwinInputRecord, hstandby, hlate, if_neg (by decide), hparse]
  exact congrArg Host.Outcome.next (if_pos rfl)

theorem twinInputRecord_bad (hstandby : s.standby = true) (hlate : s.twn.late = false) {b : List Byte}
    (hbad : ∀ ft w, TwinRec.parse b ≠ some (s.tm.cyc, ft, w)) : ∃ t, exec (.twinInputRecord b) s = .next t ∧
      regsTo s t [(Reg.TWN_LINK_BLOCK_ERR, up s Reg.TWN_LINK_BLOCK_ERR)] ∧ t = { s with regs := t.regs } := by
  have hx : exec (.twinInputRecord b) s = execTwinInputRecord b s := by rfl
  rw [hx, execTwinInputRecord, hstandby, hlate, if_neg (by decide)]
  refine ⟨s.blockErr, ?_, regsTo_inc s Reg.TWN_LINK_BLOCK_ERR, rfl⟩
  cases hparse : TwinRec.parse b with
  | none => rfl
  | some r =>
    obtain ⟨k, ft, w⟩ := r
    refine congrArg Host.Outcome.next (if_neg fun (hk : k = s.tm.cyc) => hbad ft w ?_)
    rw [hparse, hk]

/-- The words of a record are a canonical map. -/
theorem parse_wf {b : List Byte} {k : Nat} {ft : Option (List Byte)} {w : FMap Word} (h : TwinRec.parse b = some (k, ft, w)) :
    FMap.wf 0 w = true := by
  have hfold (l : List (Nat × Nat)) (p : FMap Word × List Byte) (hp : FMap.wf 0 p.1 = true) :
      FMap.wf 0 (l.foldl (fun (p : FMap Word × List Byte) e =>
        (FMap.set 0 p.1 e.1 (BitVec.ofNat 32 (leAt p.2 0 4)), p.2.drop 4)) p).1 = true := by
    induction l generalizing p with
    | nil => exact hp
    | cons e l ih => exact ih _ (FMap.wf_set 0 p.1 e.1 _ hp)
  revert h
  unfold TwinRec.parse
  extract_lets x n v
  split <;> intro h
  · cases h
  · have hv : v = w := (Prod.mk.inj (Prod.mk.inj (Option.some.inj h)).2).2
    rw [← hv]
    exact hfold TwinRec.words.zipIdx ([], b.drop n) rfl

/-! ### The deadline (R372) -/

/-- What a record taken leaves alone, but for its own marks. -/
structure TakeOp (s t : State) : Prop where
  frame : t = { s with regs := t.regs, rcd := t.rcd, chs := t.chs,
                       twn := { s.twn with inDiff := t.twn.inDiff, ran := t.twn.ran, kept := t.twn.kept } }
  st : ∀ d, (t.ch d).st = (s.ch d).st
  run : ∀ d, (t.ch d).run = (s.ch d).run

theorem TakeOp.refl (s : State) : TakeOp s s := ⟨rfl, fun _ => rfl, fun _ => rfl⟩

theorem TakeOp.trans (h : TakeOp s t) (h' : TakeOp t u) : TakeOp s u :=
  ⟨by rw [h'.frame, h.frame], fun d => (h'.st d).trans (h.st d), fun d => (h'.run d).trans (h.run d)⟩

theorem TakeOp.foldSt {α : Type} {l : List α} {f : α → State → State} (h : ∀ x s, TakeOp s (f x s)) (s : State) : TakeOp s (foldSt l f s) :=
  foldSt_inv (P := TakeOp s) (fun x _ t ht => ht.trans (h x t)) (TakeOp.refl s)

theorem TakeOp.wr (s : State) (f : Fld) (v : Nat) : TakeOp s (s.wr f v) := ⟨rfl, fun _ => rfl, fun _ => rfl⟩

theorem TakeOp.diag (s : State) (sev src inst off : Nat) (l : List Nat) : TakeOp s (s.diag sev src inst off l) := by
  rw [diag_frame]
  exact ⟨rfl, fun _ => rfl, fun _ => rfl⟩

theorem TakeOp.inDiff (s : State) (m : FMap Nat) : TakeOp s (s.modTwn fun x => { x with inDiff := m }) := ⟨rfl, fun _ => rfl, fun _ => rfl⟩

theorem MiuOp.takeOp (h : MiuOp s t) : TakeOp s t :=
  ⟨by rw [h.frame], fun d => by rw [h.ch d], fun d => by rw [h.ch d]⟩

theorem countInDiff_takeOp (s : State) (w : FMap Word) : TakeOp s (s.countInDiff w) := by
  unfold State.countInDiff
  extract_lets own si pair
  refine TakeOp.foldSt (fun i t => ?_) s
  extract_lets decl differs limit n was t1
  have h : TakeOp t t1 := TakeOp.inDiff t _
  split
  · exact (h.trans (TakeOp.wr _ _ _)).trans (TakeOp.diag _ _ _ _ _ _)
  · exact h

/-- The copy of a cycle that the standby and its channels keep (R374). -/
def keepRecord (k : Kept) (s : State) : State :=
  let s := s.modTwn fun x => { x with ran := true, kept := keepEight x.kept k }
  foldSt s.voters (fun c s => (s.modCh c fun h => { h with kept := keepEight h.kept k }).storeWritten c (Miu.keptLo k.k) Miu.keptN) s

theorem keepRecord_takeOp (k : Kept) (s : State) : TakeOp s (keepRecord k s) := by
  have hch (t : State) (c : Ch) : TakeOp t (t.modCh c fun h => { h with kept := keepEight h.kept k }) := by
    refine ⟨rfl, fun d => ?_, fun d => ?_⟩ <;>
    · by_cases h : d = c
      · subst h
        rw [State.ch_modCh_same]
      · rw [State.ch_modCh_ne _ _ h]
  have hran : TakeOp s (s.modTwn fun x => { x with ran := true, kept := keepEight x.kept k }) := ⟨rfl, fun _ => rfl, fun _ => rfl⟩
  exact hran.trans (TakeOp.foldSt (fun c t => (hch t c).trans (MiuOp.storeWritten _ c _ _).takeOp) _)

theorem keepRecord_ran (k : Kept) (s : State) : (keepRecord k s).twn.ran = true :=
  foldSt_inv (P := fun t => t.twn.ran = true) (fun c _ t ht => by rw [(MiuOp.storeWritten _ c _ _).frame]; exact ht) rfl

/-- What the standby keeps of a cycle. -/
def recordKept (s : State) (w : FMap Word) : Kept :=
  { k := s.tm.cyc, image := w, forces := s.forces, first := s.voters.any fun c => (s.ch c).accStart, commit := s.md.commitDue, acc := none }

theorem takeRecord_some {b : List Byte} {k : Nat} {w : FMap Word} (hrec : s.twn.recIn = some b)
    (hparse : TwinRec.parse b = some (k, none, w)) :
    s.takeRecord = (keepRecord (recordKept (s.countInDiff w) w) (s.countInDiff w)).wrb Reg.TWN_STATUS_FREE_RUN false := by
  unfold State.takeRecord
  rw [hrec, Option.bind_some, hparse]
  rfl

theorem takeRecord_none (hrec : s.twn.recIn = none) : s.takeRecord =
    if (s.wrb Reg.TWN_STATUS_FREE_RUN true).rdb Reg.TWN_STATUS_LINK_UP then (s.wrb Reg.TWN_STATUS_FREE_RUN true).inc Reg.TWN_LINK_REC_LATE
    else s.wrb Reg.TWN_STATUS_FREE_RUN true := by
  unfold State.takeRecord
  rw [hrec]
  rfl

/-- The record of the deadline is decided. -/
def recordDone (s : State) : State := s.takeRecord.modTwn fun x => { x with late := true }

/-- The image load and the start that follow the record. -/
def afterRecord (s : State) : State :=
  if s.md.halted then s
  else if s.ptnLoad.takeComm.chasing || !s.ptnLoad.takeComm.executes || s.ptnLoad.takeComm.md.commitDue then s.ptnLoad.takeComm
  else (s.ptnLoad.takeComm.loadCycle (fun c => s.ptnLoad.takeComm.sourceWords c s.ptnLoad.takeComm.md.firstCommit) false).startAll

theorem twinRecordDeadline_eq (hstandby : s.standby = true) (hlate : s.twn.late = false) (htaken : s.md.taken = true) :
    exec .twinRecordDeadline s = .next (afterRecord (recordDone s)) := by
  have hx : exec .twinRecordDeadline s = execTwinRecordDeadline s := by rfl
  rw [hx, execTwinRecordDeadline, hstandby, hlate, htaken, if_neg (by decide)]
  rfl

theorem afterRecord_recKept (s : State) : RecKept s (afterRecord s) := by
  have hnet : RecKept s s.ptnLoad.takeComm := ((ptnLoad_netOp s).trans (takeComm_netOp _)).recKept
  unfold afterRecord
  exact RecKept.ite (RecKept.refl s) (RecKept.ite hnet ((hnet.trans (loadCycle_recKept _ _ false)).trans (startAll_recKept _)))

theorem deadline_freeRun (hstandby : s.standby = true) (hlate : s.twn.late = false) (htaken : s.md.taken = true) (hrec : s.twn.recIn = none) :
    ∃ t, exec .twinRecordDeadline s = .next t ∧ t.twn.late = true ∧ t.rdb Reg.TWN_STATUS_FREE_RUN = true ∧
      t.rd Reg.TWN_LINK_REC_LATE = (if s.rdb Reg.TWN_STATUS_LINK_UP = true then up s Reg.TWN_LINK_REC_LATE
        else s.rd Reg.TWN_LINK_REC_LATE) := by
  obtain ⟨hrd, hl, -⟩ := afterRecord_recKept (recordDone s)
  have hfree : (s.wrb Reg.TWN_STATUS_FREE_RUN true).rdb Reg.TWN_STATUS_FREE_RUN = true :=
    State.rdb_wrb_same s (f := Reg.TWN_STATUS_FREE_RUN) (show (1 : Nat) ≠ 0 by decide) true
  have hlink : (s.wrb Reg.TWN_STATUS_FREE_RUN true).rdb Reg.TWN_STATUS_LINK_UP = s.rdb Reg.TWN_STATUS_LINK_UP :=
    rdb_of_rd (State.rd_wr_ne s Reg.TWN_STATUS_FREE_RUN Reg.TWN_STATUS_LINK_UP _ (by decide))
  have hcount : (s.wrb Reg.TWN_STATUS_FREE_RUN true).rd Reg.TWN_LINK_REC_LATE = s.rd Reg.TWN_LINK_REC_LATE :=
    State.rd_wr_ne s Reg.TWN_STATUS_FREE_RUN Reg.TWN_LINK_REC_LATE _ (by decide)
  have hfld (f : Fld) : (recordDone s).rd f = s.takeRecord.rd f := State.rd_congr rfl f
  refine ⟨_, twinRecordDeadline_eq hstandby hlate htaken, hl, ?_, ?_⟩
  · rw [rdb_of_rd (hrd Reg.TWN_STATUS_FREE_RUN (by decide)), rdb_of_rd (hfld _), takeRecord_none hrec]
    split
    · exact (rdb_of_rd (State.rd_wr_ne _ Reg.TWN_LINK_REC_LATE Reg.TWN_STATUS_FREE_RUN _ (by decide))).trans hfree
    · exact hfree
  · rw [hrd Reg.TWN_LINK_REC_LATE (by decide), hfld, takeRecord_none hrec, hlink]
    split
    · refine (rd_inc_up _ Reg.TWN_LINK_REC_LATE).trans ?_
      unfold up
      rw [hcount]
    · exact hcount

/-- What a step of the network's inputs leaves of all that the load asks for. -/
theorem NetOp.loads (h : NetOp s t) : t.md = s.md ∧ t.chs = s.chs ∧ t.forces = s.forces ∧ t.twn.recIn = s.twn.recIn ∧
    t.twn.ran = s.twn.ran ∧ t.twn.adopt = s.twn.adopt ∧ t.rpc = s.rpc := by
  rw [h.frame]
  exact ⟨rfl, rfl, rfl, rfl, rfl, rfl, rfl⟩

theorem voters_congr (h : ∀ d, (t.ch d).st = (s.ch d).st) : t.voters = s.voters := by
  unfold State.voters State.inVote
  simp only [h]

theorem executes_congr (hmd : t.md = s.md) (hst : ∀ d, (t.ch d).st = (s.ch d).st) (hrun : ∀ d, (t.ch d).run = (s.ch d).run)
    (hrpc : t.rpc = s.rpc) : t.executes = s.executes := by
  unfold State.executes State.down
  rw [runBank_congr hst hrun, voters_congr hst, hmd, hrpc]

theorem chasing_congr (h : t.twn.adopt = s.twn.adopt) : t.chasing = s.chasing := by
  unfold State.chasing
  rw [h]

theorem startAll_loadDone (s : State) : s.startAll.md.loadDone = s.md.loadDone := by
  have hprog (t : State) (c : Ch) : ((t.modCh c Chan.openTraverse).startProgram c).md = t.md := rfl
  have hstart : (startPrograms s).md = s.md :=
    foldSt_inv (P := fun t => t.md = s.md) (f := fun c s => (s.modCh c Chan.openTraverse).startProgram c)
      (fun c _ t ht => (hprog t c).trans ht) rfl
  have hstep (t : State) : (stepStarted t).md = t.md := by
    unfold stepStarted
    split <;> rfl
  have hrun (t : State) (c : Ch) : (t.wr (Reg.LEN_STATUS_RUN (Ch.num c)) 3).md = t.md := rfl
  have hall (u : State) : (u.haltAll 0 true).md.loadDone = u.md.loadDone := rfl
  have hhalt (t : State) : (haltedAtStart t).md.loadDone = t.md.loadDone :=
    (hall _).trans (congrArg ModSt.loadDone (foldSt_inv (P := fun u => u.md = t.md) (l := t.voters)
      (f := fun c s => s.wr (Reg.LEN_STATUS_RUN (Ch.num c)) 3) (fun c _ u hu => (hrun u c).trans hu) rfl))
  rw [startAll_eq]
  split
  · rw [hhalt, hstep, hstart]
  · rw [hstep, hstart]

theorem sendRecord_st (s : State) (w : FMap Word) (d : Ch) : ((s.sendRecord w).ch d).st = (s.ch d).st := by
  unfold State.sendRecord
  dsimp only
  split <;> rfl

theorem markLoaded_imgKept (ft : ForceTab) (s : State) : ImgKept s (markLoaded ft s) := ImgKept.of_chs rfl

theorem loadCycle_imgKept (s : State) (src : Ch → FMap Word) (commit : Bool) :
    ImgKept (loadImages s.voters src s.forces (s.sendRecord (src (s.voters.headD .chA)))) (s.loadCycle src commit) := by
  have h := loadCycle_eq s src commit
  rw [voters_congr (sendRecord_st s _)] at h
  rw [h]
  exact (keepCycle_imgKept _ _ _ _ _).trans (markLoaded_imgKept _ _)

theorem loadCycle_loadDone (s : State) (src : Ch → FMap Word) (commit : Bool) : (s.loadCycle src commit).md.loadDone = true := by
  rw [loadCycle_eq]
  rfl

/-- A load from one and the same record into every channel. -/
theorem loadCycle_record (s : State) {w : FMap Word} (hw : FMap.wf 0 w = true) (hforces : s.forces = []) {src : Ch → FMap Word}
    (hsrc : ∀ c, src c = w) :
    (s.loadCycle src false).startAll.md.loadDone = true ∧
      ∀ c ∈ s.voters, ∀ i, Img.loaded i = true → FMap.get 0 ((s.loadCycle src false).startAll.ch c).img i = FMap.get 0 w i := by
  refine ⟨(startAll_loadDone _).trans (loadCycle_loadDone s src false), fun c hc i hi => ?_⟩
  have himg := (loadCycle_imgKept s src false).trans (startAll_imgKept _)
  rw [himg c, hforces, ← hsrc c]
  exact loadImages_loaded (nodup_chans s.inVote) hc ((congrArg (FMap.wf 0) (hsrc c)).trans hw) hi _

theorem sourceWords_record {b : List Byte} {k : Nat} {w : FMap Word} (hrole : s.md.role = .standby) (hran : s.twn.ran = true)
    (hrec : s.twn.recIn = some b) (hparse : TwinRec.parse b = some (k, none, w)) (c : Ch) (commit : Bool) : s.sourceWords c commit = w := by
  unfold State.sourceWords
  rw [hrole, hran, hrec, Option.bind_some, hparse]
  exact if_pos (by decide)

/-- The image load that follows a record. -/
theorem afterRecord_record {b : List Byte} {k : Nat} {w : FMap Word} (hrole : s.md.role = .standby) (hran : s.twn.ran = true)
    (hrec : s.twn.recIn = some b) (hparse : TwinRec.parse b = some (k, none, w)) (hhalted : s.md.halted = false)
    (hchasing : s.chasing = false) (hexec : s.executes = true) (hcommit : s.md.commitDue = false) (hforces : s.forces = []) :
    (afterRecord s).md.loadDone = true ∧
      ∀ c ∈ s.voters, ∀ i, Img.loaded i = true → FMap.get 0 ((afterRecord s).ch c).img i = FMap.get 0 w i := by
  obtain ⟨nmd, nchs, nforces, nrec, nran, nadopt, nrpc⟩ := ((ptnLoad_netOp s).trans (takeComm_netOp _)).loads
  unfold afterRecord
  rw [if_neg (by rw [hhalted]; decide)]
  generalize s.ptnLoad.takeComm = x at nmd nchs nforces nrec nran nadopt nrpc
  have hch (d : Ch) : x.ch d = s.ch d := by rw [State.ch, nchs, State.ch]
  have hst (d : Ch) : (x.ch d).st = (s.ch d).st := by rw [hch]
  have hexec' : x.executes = true := (executes_congr nmd hst (fun d => by rw [hch]) nrpc).trans hexec
  have hchasing' : x.chasing = false := (chasing_congr nadopt).trans hchasing
  rw [hchasing', hexec', nmd, hcommit, if_neg (by decide), ← voters_congr hst]
  exact loadCycle_record x (parse_wf hparse) (nforces.trans hforces)
    fun c => sourceWords_record (nmd ▸ hrole) (nran.trans hran) (nrec.trans hrec) hparse c _

/-- A record that was taken, marked as the one of the deadline. -/
def marked (v : State) : State := (v.wrb Reg.TWN_STATUS_FREE_RUN false).modTwn fun x => { x with late := true }

theorem recordDone_some {b : List Byte} {k : Nat} {w : FMap Word} (hrec : s.twn.recIn = some b)
    (hparse : TwinRec.parse b = some (k, none, w)) : ∃ v, recordDone s = marked v ∧ TakeOp s v ∧ v.twn.ran = true :=
  ⟨keepRecord (recordKept (s.countInDiff w) w) (s.countInDiff w),
    congrArg (fun t : State => t.modTwn fun x => { x with late := true }) (takeRecord_some hrec hparse),
    (countInDiff_takeOp s w).trans (keepRecord_takeOp _ _), keepRecord_ran _ _⟩

theorem marked_freeRun (v : State) : (marked v).rdb Reg.TWN_STATUS_FREE_RUN = false :=
  State.rdb_wrb_same v (f := Reg.TWN_STATUS_FREE_RUN) (show (1 : Nat) ≠ 0 by decide) false

theorem marked_of (v : State) : (marked v).md = v.md ∧ (marked v).twn.recIn = v.twn.recIn ∧ (marked v).twn.adopt = v.twn.adopt ∧
    (marked v).rpc = v.rpc ∧ (marked v).forces = v.forces ∧ (marked v).chs = v.chs ∧ (marked v).twn.ran = v.twn.ran :=
  ⟨rfl, rfl, rfl, rfl, rfl, rfl, rfl⟩

theorem TakeOp.loads (h : TakeOp s t) : t.md = s.md ∧ t.twn.recIn = s.twn.recIn ∧ t.twn.adopt = s.twn.adopt ∧ t.rpc = s.rpc ∧
    t.forces = s.forces := by
  rw [h.frame]
  exact ⟨rfl, rfl, rfl, rfl, rfl⟩

theorem deadline_record (hstandby : s.standby = true) (hrole : s.md.role = .standby) (hlate : s.twn.late = false) (htaken : s.md.taken = true)
    {b : List Byte} {k : Nat} {w : FMap Word} (hrec : s.twn.recIn = some b) (hparse : TwinRec.parse b = some (k, none, w)) :
    ∃ t, exec .twinRecordDeadline s = .next t ∧ t.twn.late = true ∧ t.twn.ran = true ∧ t.rdb Reg.TWN_STATUS_FREE_RUN = false ∧
      (s.md.halted = false → s.chasing = false → s.executes = true → s.md.commitDue = false → s.forces = [] →
        t.md.loadDone = true ∧ ∀ c ∈ s.voters, ∀ i, Img.loaded i = true → FMap.get 0 (t.ch c).img i = FMap.get 0 w i) := by
  obtain ⟨v, hdone, htake, hran⟩ := recordDone_some hrec hparse
  obtain ⟨hmd, hrecIn, hadopt, hrpc, hft⟩ := htake.loads
  obtain ⟨mmd, mrec, madopt, mrpc, mft, mchs, mran⟩ := marked_of v
  have hx := twinRecordDeadline_eq hstandby hlate htaken
  rw [hdone] at hx
  have hl : (marked v).twn.late = true := rfl
  have hfree := marked_freeRun v
  generalize marked v = x at *
  obtain ⟨hrd, hl', hr⟩ := afterRecord_recKept x
  refine ⟨_, hx, hl'.trans hl, hr.trans (mran.trans hran), (rdb_of_rd (hrd Reg.TWN_STATUS_FREE_RUN (by decide))).trans hfree, ?_⟩
  intro hhalted hchasing hexec hcommit hforces
  have hch (d : Ch) : x.ch d = v.ch d := by rw [State.ch, mchs, State.ch]
  have hst (d : Ch) : (x.ch d).st = (s.ch d).st := by rw [hch, htake.st]
  have hrun (d : Ch) : (x.ch d).run = (s.ch d).run := by rw [hch, htake.run]
  rw [← voters_congr hst]
  have hmd' : x.md = s.md := mmd.trans hmd
  exact afterRecord_record (hmd'.symm ▸ hrole) (mran.trans hran) ((mrec.trans hrecIn).trans hrec) hparse (hmd'.symm ▸ hhalted)
    ((chasing_congr (madopt.trans hadopt)).trans hchasing) ((executes_congr hmd' hst hrun (mrpc.trans hrpc)).trans hexec)
    (hmd'.symm ▸ hcommit) ((mft.trans hft).trans hforces)

theorem twinLinkAndRecords_holds : twinLinkAndRecords := by
  intro s hdown
  refine ⟨twinLinkChange_up hdown, twinLinkChange_down hdown, fun htwin hrole hlate => ?_⟩
  have hstandby := standby_of hdown htwin hrole
  refine ⟨fun b ft w hparse => twinInputRecord_kept hstandby hlate hparse, fun b hbad => twinInputRecord_bad hstandby hlate hbad,
    fun htaken => ⟨fun hrec => deadline_freeRun hstandby hlate htaken hrec, fun b k w hrec hparse => ?_⟩⟩
  exact deadline_record hstandby hrole hlate htaken hrec hparse

/-! ### What a channel reads of itself depends on its own cells -/

/-- The cells of a channel's map regions, with their errors and poison, are the same. -/
structure SameCells (c : Ch) (s t : State) : Prop where
  img : (t.ch c).img = (s.ch c).img
  timers : (t.ch c).timers = (s.ch c).timers
  counters : (t.ch c).counters = (s.ch c).counters
  errs : (t.ch c).errs = (s.ch c).errs
  pmap : (t.ch c).pmap = (s.ch c).pmap

theorem SameCells.of_ch (h : t.ch c = s.ch c) : SameCells c s t := ⟨by rw [h], by rw [h], by rw [h], by rw [h], by rw [h]⟩

theorem SameCells.trans (h : SameCells c s t) (h' : SameCells c t u) : SameCells c s u :=
  ⟨h'.img.trans h.img, h'.timers.trans h.timers, h'.counters.trans h.counters, h'.errs.trans h.errs, h'.pmap.trans h.pmap⟩

/-- The poison flags after a codeword has been read. -/
def readPsn (h : Chan) (cw : Nat) : FMap Bool :=
  if FMap.get 0 h.errs cw ≠ 0 && Hsiao.outcome (FMap.get 0 h.errs cw) = .uncorrectable then
    FMap.set false (FMap.set false h.pmap (cw * 2) true) (cw * 2 + 1) true
  else h.pmap

/-- A correction counted and reported. -/
def correctionNoted (s : State) (c : Ch) (cw : Nat) (e : BitVec 72) (bit : Nat) : State :=
  ((s.inc (Reg.MIU_CE_CE_ACCESS (Ch.num c))).wrb (Reg.MIU_EVENT_CE (Ch.num c)) true).miuErr c 1 cw (Hsiao.synd e) bit

theorem correctionNoted_ch (s : State) (c : Ch) (cw : Nat) (e : BitVec 72) (bit : Nat) (d : Ch) : (correctionNoted s c cw e bit).ch d = s.ch d := by
  have h : (correctionNoted s c cw e bit).chs = s.chs := rfl
  rw [State.ch, h, State.ch]

theorem miuCorrected_eq (s : State) (c : Ch) (cw : Nat) (e : BitVec 72) (bit : Nat) (queue : Bool) : s.miuCorrected c cw e bit queue =
    let t := correctionNoted s c cw e bit
    if !queue then t
    else if 16 ≤ (t.ch c).wbq.length then t.inc (Reg.MIU_UE_QUEUE_OVF (Ch.num c))
    else if (t.ch c).wbq.contains cw then t
    else t.modCh c fun h => { h with wbq := h.wbq ++ [cw] } := rfl

theorem miuCorrected_pmap (s : State) (c : Ch) (cw : Nat) (e : BitVec 72) (bit : Nat) (queue : Bool) :
    ((s.miuCorrected c cw e bit queue).ch c).pmap = (s.ch c).pmap := by
  have hinc (t : State) : ((t.inc (Reg.MIU_UE_QUEUE_OVF (Ch.num c))).ch c).pmap = (t.ch c).pmap := rfl
  have ht := congrArg Chan.pmap (correctionNoted_ch s c cw e bit c)
  have heq := miuCorrected_eq s c cw e bit queue
  generalize correctionNoted s c cw e bit = t at ht heq
  rw [heq, ← ht]
  dsimp only
  split
  · rfl
  · split
    · exact hinc t
    · split
      · rfl
      · rw [State.ch_modCh_same]

theorem readMapCw_pmap (s : State) (c : Ch) (cw : Nat) : ((s.readMapCw c cw).2.ch c).pmap = readPsn (s.ch c) cw := by
  unfold State.readMapCw readPsn
  dsimp only
  split
  · next h => rw [h]; rfl
  · next h =>
    rw [decide_eq_true h, Bool.true_and]
    split
    · next ho => rw [if_neg (by rw [ho]; decide)]
    · next ho => rw [if_neg (by rw [ho]; simp)]; exact miuCorrected_pmap s c cw _ _ true
    · next ho =>
      rw [if_pos (by rw [ho]; decide)]
      unfold State.setPsn
      rw [State.ch_modCh_same, State.ch_modCh_same]
      rfl

/-- What a channel's read of a codeword delivers, and the cells that it leaves, depend on its cells alone. -/
theorem SameCells.readMapCw (h : SameCells c s t) (cw : Nat) :
    (t.readMapCw c cw).1 = (s.readMapCw c cw).1 ∧ SameCells c (s.readMapCw c cw).2 (t.readMapCw c cw).2 := by
  have hval (u : State) : (u.readMapCw c cw).1 = if FMap.get 0 (u.ch c).errs cw = 0 then 0
      else Miu.residual (FMap.get 0 (u.ch c).errs cw) (Hsiao.outcome (FMap.get 0 (u.ch c).errs cw)) := by
    unfold State.readMapCw
    dsimp only
    split
    · rfl
    · split <;> rfl
  have hpsn : readPsn (t.ch c) cw = readPsn (s.ch c) cw := by
    unfold readPsn
    rw [h.errs, h.pmap]
  have hcell (u : State) : (((u.readMapCw c cw).2.ch c).img = (u.ch c).img ∧ ((u.readMapCw c cw).2.ch c).timers = (u.ch c).timers) ∧
      ((u.readMapCw c cw).2.ch c).counters = (u.ch c).counters ∧ ((u.readMapCw c cw).2.ch c).errs = (u.ch c).errs := by
    rw [(readMapCw_read c u cw).ch]
    exact ⟨⟨rfl, rfl⟩, rfl, rfl⟩
  obtain ⟨⟨simg, stim⟩, scnt, serr⟩ := hcell s
  obtain ⟨⟨timg, ttim⟩, tcnt, terr⟩ := hcell t
  exact ⟨by rw [hval, hval, h.errs], (timg.trans h.img).trans simg.symm, (ttim.trans h.timers).trans stim.symm,
    (tcnt.trans h.counters).trans scnt.symm, (terr.trans h.errs).trans serr.symm,
    by rw [readMapCw_pmap, readMapCw_pmap, hpsn]⟩

theorem SameCells.readImg (h : SameCells c s t) (i : Nat) :
    (t.readImg c none i).1 = (s.readImg c none i).1 ∧ SameCells c (s.readImg c none i).2 (t.readImg c none i).2 := by
  obtain ⟨hv, hc⟩ := h.readMapCw (Img.cw none i)
  refine ⟨?_, hc⟩
  unfold State.readImg State.ideal
  dsimp only
  rw [hv, hc.img, hc.pmap]

theorem SameCells.readTc (h : SameCells c s t) (counter : Bool) (k : Nat) :
    (t.readTc c counter k).1 = (s.readTc c counter k).1 ∧ SameCells c (s.readTc c counter k).2 (t.readTc c counter k).2 := by
  obtain ⟨hv, hc⟩ := h.readMapCw (if counter then Miu.cwCounter k else Miu.cwTimer k)
  refine ⟨?_, hc⟩
  unfold State.readTc
  dsimp only
  rw [hv, hc.timers, hc.counters, hc.pmap]

theorem SameCells.retWord (h : SameCells c s t) (k : Nat) :
    (t.retWord c k).1 = (s.retWord c k).1 ∧ SameCells c (s.retWord c k).2 (t.retWord c k).2 := by
  unfold State.retWord
  split
  · exact h.readImg _
  · split
    · exact h.readImg _
    · exact h.readTc true _

/-- The retained data of a channel depends on its own cells alone. -/
theorem SameCells.retained (h : SameCells c s t) : (t.retained c).1 = (s.retained c).1 := by
  have hkeys : (t.ch c).retKeys = (s.ch c).retKeys := by
    unfold Chan.retKeys
    rw [h.img, h.counters, h.errs, h.pmap]
  have hfold (l : List Nat) (m : FMap (Psn Word)) (u v : State) (huv : SameCells c u v) :
      (l.foldl (fun (p : FMap (Psn Word) × State) k => (FMap.set ⟨0, false⟩ p.1 k (p.2.retWord c k).1, (p.2.retWord c k).2)) (m, v)).1 =
        (l.foldl (fun (p : FMap (Psn Word) × State) k => (FMap.set ⟨0, false⟩ p.1 k (p.2.retWord c k).1, (p.2.retWord c k).2)) (m, u)).1 := by
    induction l generalizing m u v with
    | nil => rfl
    | cons k l ih =>
      obtain ⟨hval, hnext⟩ := huv.retWord k
      rw [List.foldl_cons, List.foldl_cons, hval]
      exact ih _ _ _ hnext
  have heq (u : State) : (u.retained c).1 = ((u.ch c).retKeys.foldl (fun (p : FMap (Psn Word) × State) k =>
      (FMap.set ⟨0, false⟩ p.1 k (p.2.retWord c k).1, (p.2.retWord c k).2)) ([], u)).1 := rfl
  rw [heq, heq, hkeys]
  exact hfold _ _ s t h

theorem ReadOf.foldl {β : Type} {f : β × State → Nat → β × State} (hf : ∀ p x, ReadOf c p.2 (f p x).2) (l : List Nat) (p : β × State) :
    ReadOf c p.2 (l.foldl f p).2 := by
  induction l generalizing p with
  | nil => exact ReadOf.refl c p.2
  | cons x l ih => exact (hf p x).trans (ih (f p x))

theorem retained_read (c : Ch) (s : State) : ReadOf c s (s.retained c).2 := by
  have hword (t : State) (k : Nat) : ReadOf c t (t.retWord c k).2 := by
    unfold State.retWord
    split
    · exact readImg_read c t none _
    · split
      · exact readImg_read c t none _
      · exact readMapCw_read c t _
  unfold State.retained
  refine ReadOf.foldl (fun p k => ?_) _ (([] : FMap (Psn Word)), s)
  exact hword p.2 k

/-! ### The capture (R140) -/

theorem storeWritten_other {d : Ch} (h : d ≠ c) (s : State) (lo n : Nat) : (s.storeWritten c lo n).ch d = s.ch d := by
  have hcut (f : Chan → Chan) : (s.modCh c f).ch d = s.ch d := State.ch_modCh_ne s f h
  unfold State.storeWritten State.flipAmong
  dsimp only
  split
  · split
    · rw [flip_other _ h, hcut]
    · exact hcut _
  · exact hcut _

/-- A capture of another channel leaves a channel alone. -/
theorem capture_other {d : Ch} (h : d ≠ c) (s : State) : (s.capture c).ch d = s.ch d := by
  have hread := (retained_read c s).others d h
  unfold State.capture
  dsimp only
  rw [storeWritten_other h, State.ch_modCh_ne _ _ h, hread]

theorem capture_saveBuf (s : State) (c : Ch) : ((s.capture c).ch c).saveBuf = some (s.retained c).1 := by
  unfold State.capture
  dsimp only
  rw [(MiuOp.storeWritten _ c _ _).ch c, State.ch_modCh_same]

/-- A step of a capture: everything beside the channels and their registers stays. -/
structure CaptureOp (s t : State) : Prop where
  frame : t = { s with regs := t.regs, chs := t.chs }
  regs : ∀ g : Fld, chanKey g.key = false → t.rd g = s.rd g

theorem capture_op (s : State) (c : Ch) : CaptureOp s (s.capture c) := by
  have hread := MiuOp.retained s c
  have hwrite (t : State) (m : FMap (Psn Word)) :
      CaptureOp t ((t.modCh c fun h => { h with saveBuf := some m }).storeWritten c Miu.saveLo Miu.saveN) := by
    have h := MiuOp.storeWritten (t.modCh c fun h => { h with saveBuf := some m }) c Miu.saveLo Miu.saveN
    exact ⟨by rw [h.frame]; rfl, h.regs⟩
  obtain ⟨hframe, hregs⟩ := hwrite (s.retained c).2 (s.retained c).1
  have heq : s.capture c = ((s.retained c).2.modCh c fun h => { h with saveBuf := some (s.retained c).1 }).storeWritten c Miu.saveLo Miu.saveN := rfl
  rw [heq]
  exact ⟨by rw [hframe, hread.frame], fun g hg => (hregs g hg).trans (hread.regs g hg)⟩

/-- Every channel of the list has its save buffer. -/
def captured (cs : List Ch) (s : State) : State := foldSt cs (fun c s => s.capture c) s

theorem captured_op (cs : List Ch) (s : State) : CaptureOp s (captured cs s) :=
  foldSt_inv (P := CaptureOp s) (fun c _ t ht => ⟨by rw [(capture_op t c).frame, ht.frame],
    fun g hg => ((capture_op t c).regs g hg).trans (ht.regs g hg)⟩) ⟨rfl, fun _ _ => rfl⟩

theorem captured_saveBuf {cs : List Ch} (hcs : cs.Nodup) (hc : c ∈ cs) (s : State) :
    ((captured cs s).ch c).saveBuf = some (s.retained c).1 :=
  foldSt_at (c := c) (P := fun u => u.ch c = s.ch c) (Q := fun u => (u.ch c).saveBuf = some (s.retained c).1)
    (fun _ hd u hu => (capture_other hd.symm u).trans hu)
    (fun u hu => (capture_saveBuf u c).trans (congrArg some (SameCells.of_ch hu).retained))
    (fun _ hd u hu => (congrArg Chan.saveBuf (capture_other hd.symm u)).trans hu) hcs hc rfl

/-! ### The twin's part of the capture (R371) -/

theorem readWords_miuOp {f : State → Nat → Psn Word × State} (hf : ∀ t i, MiuOp t (f t i).2) (s : State) (n : Nat) :
    MiuOp s (s.readWords f n).2 := by
  unfold State.readWords
  refine MiuOp.foldl (fun p i => ?_) _ (([] : List Word), s)
  exact hf p.2 i

theorem readImgs_miuOp (s : State) (c : Ch) (n : Nat) : MiuOp s (s.readWords (fun s i => s.readImg c none i) n).2 :=
  readWords_miuOp (fun t i => MiuOp.readImg t c none i) s n

theorem readTcs_miuOp (s : State) (c : Ch) (counter : Bool) (n : Nat) : MiuOp s (s.readWords (fun s k => s.readTc c counter k) n).2 :=
  readWords_miuOp (fun t k => MiuOp.readTc t c counter k) s n

theorem snapshot_miuOp (s : State) (c : Ch) (sender : Nat) : MiuOp s (s.snapshot c sender).2 := by
  have himg := readImgs_miuOp s c Img.size
  have htim (u : State) := readTcs_miuOp u c false 4096
  have hcnt (u : State) := readTcs_miuOp u c true 4096
  unfold State.snapshot
  split
  rename_i u hu
  rw [hu] at himg
  split
  rename_i v hv
  have htim := htim u
  rw [hv] at htim
  split
  rename_i w hw
  have hcnt := hcnt v
  rw [hw] at hcnt
  exact (himg.trans htim).trans hcnt

theorem MiuOp.of_pair {α : Type} {x : α × State} {a : α} (hx : x = (a, t)) (h : MiuOp s x.2) : MiuOp s t := by
  rw [hx] at h
  exact h

theorem twinSnapshot_miuOp (s : State) : MiuOp s s.twinSnapshot.2 := by
  unfold State.twinSnapshot
  extract_lets cs sender
  split
  refine MiuOp.of_pair ‹_› (MiuOp.foldl (fun p c => ?_) cs ([], s))
  split
  exact MiuOp.of_pair ‹_› (snapshot_miuOp p.2 c _)

/-- What the twin's part of a capture keeps. -/
def BufKept (s t : State) : Prop := t.md = s.md ∧ ∀ d, (t.ch d).saveBuf = (s.ch d).saveBuf

theorem BufKept.of_eq (hmd : t.md = s.md) (hchs : t.chs = s.chs) : BufKept s t := ⟨hmd, fun d => by rw [State.ch, hchs, State.ch]⟩

theorem BufKept.trans (h : BufKept s t) (h' : BufKept t u) : BufKept s u := ⟨h'.1.trans h.1, fun d => (h'.2 d).trans (h.2 d)⟩

theorem MiuOp.bufKept (h : MiuOp s t) : BufKept s t := ⟨by rw [h.frame], fun d => by rw [h.ch d]⟩

theorem twnRegs_bufKept (s : State) : BufKept s s.twnRegs := .of_eq (by rw [twnRegs_frame]) (by rw [twnRegs_frame])

theorem BufKept.modTwn (s : State) (f : TwnSt → TwnSt) : BufKept s (s.modTwn f) := .of_eq rfl rfl

theorem BufKept.inc (s : State) (f : Fld) : BufKept s (s.inc f) := .of_eq rfl rfl

theorem twinCapture_kept (s : State) : BufKept s s.twinCapture := by
  have hsnap := (twinSnapshot_miuOp s).bufKept
  unfold State.twinCapture
  split
  · split
    · exact BufKept.inc s _
    · split
      · rename_i v hv
        rw [hv] at hsnap
        exact ((hsnap.trans (BufKept.inc _ _)).trans (BufKept.modTwn _ _)).trans (twnRegs_bufKept _)
      · rename_i v hv
        rw [hv] at hsnap
        exact hsnap.trans (BufKept.inc _ _)
  · split
    · split
      rename_i v hv
      rw [hv] at hsnap
      exact hsnap.trans (BufKept.modTwn _ _)
    · exact BufKept.of_eq rfl rfl

/-- The module notes which cycle the save buffers hold. -/
def doneNoted (cs : List Ch) (s t : State) : State :=
  t.modMd fun x => { x with done := some (cs, s.progCyc, if s.timeValid then s.tm.tcNs else 0) }

theorem doneNoted_md (cs : List Ch) (h : t.md = s.md) :
    (doneNoted cs s t).md = { s.md with done := some (cs, s.progCyc, if s.timeValid then s.tm.tcNs else 0) } :=
  congrArg (fun x : ModSt => { x with done := some (cs, s.progCyc, if s.timeValid then s.tm.tcNs else 0) }) h

theorem snapshotCapture_eq (hdown : s.down = false) (hcs : s.voters.filter s.completed ≠ []) :
    exec .snapshotCapture s =
      .next (doneNoted (s.voters.filter s.completed) s (captured (s.voters.filter s.completed) s)).twinCapture := by
  have hx : exec .snapshotCapture s = execSnapshotCapture s := by rfl
  rw [hx, execSnapshotCapture, hdown, decide_eq_false hcs, if_neg (by decide)]
  rfl

theorem twinSends_congr (hmd : t.md.mode = s.md.mode ∧ t.md.role = s.md.role ∧ t.md.debug = s.md.debug ∧ t.md.overlap = s.md.overlap)
    (htwn : t.twn = s.twn) (htm : t.tm = s.tm) (hq : t.rd Reg.TWN_CFG_QUORUM = s.rd Reg.TWN_CFG_QUORUM)
    (hl : t.rd Reg.TWN_STATUS_LINK_UP = s.rd Reg.TWN_STATUS_LINK_UP) : t.twinSends = s.twinSends := by
  obtain ⟨hmode, hrole, hdbg, hover⟩ := hmd
  unfold State.twinSends State.twin State.leaseMode State.overlapping
  rw [hmode, hrole, hdbg, hover, htwn, htm, hq, rdb_of_rd hl]

theorem snapshotCapture_next (hdown : s.down = false) (hcs : s.voters.filter s.completed ≠ []) : ∃ t, exec .snapshotCapture s = .next t ∧
    t.md = { s.md with done := some (s.voters.filter s.completed, s.progCyc, if s.timeValid then s.tm.tcNs else 0) } ∧
    (∀ c ∈ s.voters.filter s.completed, (t.ch c).saveBuf = some (s.retained c).1) ∧
    (s.twinSends = true → s.md.safeStage = true → t.rd Reg.TWN_SNAP_COUNT_ABORTED = up s Reg.TWN_SNAP_COUNT_ABORTED) := by
  let cs := s.voters.filter s.completed
  obtain ⟨hframe, hregs⟩ := captured_op cs s
  have hbuf (c : Ch) (hc : c ∈ cs) := captured_saveBuf ((nodup_chans s.inVote).filter s.completed) hc s
  refine ⟨_, snapshotCapture_eq hdown hcs, ?_, fun c hc => ?_, fun hsends hsafe => ?_⟩
  · exact (twinCapture_kept _).1.trans (doneNoted_md cs (by rw [hframe]))
  · exact ((twinCapture_kept _).2 c).trans (hbuf c hc)
  · change (doneNoted cs s (captured cs s)).twinCapture.rd _ = _
    have hmd : (captured cs s).md = s.md := by rw [hframe]
    have htwn : (captured cs s).twn = s.twn := by rw [hframe]
    have htm : (captured cs s).tm = s.tm := by rw [hframe]
    have hq := hregs Reg.TWN_CFG_QUORUM (by decide)
    have hlink := hregs Reg.TWN_STATUS_LINK_UP (by decide)
    have hcnt := hregs Reg.TWN_SNAP_COUNT_ABORTED (by decide)
    generalize captured cs s = v at hmd htwn htm hq hlink hcnt
    have hs : (doneNoted cs s v).twinSends = true := by
      refine (twinSends_congr (s := s) ⟨?_, ?_, ?_, ?_⟩ htwn htm hq hlink).trans hsends
      · exact congrArg ModSt.mode hmd
      · exact congrArg ModSt.role hmd
      · exact congrArg ModSt.debug hmd
      · exact congrArg ModSt.overlap hmd
    have hst : (doneNoted cs s v).md.safeStage = true := (congrArg ModSt.safeStage hmd).trans hsafe
    unfold State.twinCapture
    rw [if_pos hs, if_pos hst, rd_inc_up]
    unfold up
    exact congrArg (fun x => min _ (x + 1)) hcnt

theorem snapshotCapture_none (hcs : s.voters.filter s.completed = []) : exec .snapshotCapture s = .next s := by
  have hx : exec .snapshotCapture s = execSnapshotCapture s := by rfl
  rw [hx, execSnapshotCapture, hcs]
  rfl

/-! ### The comparison (R373) -/

/-- A signature record of the active, kept. -/
def sigKept (s : State) (r : SigRec) : State :=
  s.modTwn fun x => { x with
    sigIn := some r, expect := if r.ovr || !x.ran then x.expect else x.expect ++ [s.tm.cyc],
    kept := x.kept.map fun k => if k.k = s.tm.cyc then { k with acc := some r.acc } else k }

theorem twinSignatureRecord_good {r : SigRec} (hstandby : s.standby = true) (hcrc : r.crcOk = true) (hk : r.k16.toNat = s.tm.cyc % 65536) :
    exec (.twinSignatureRecord r) s = .next (if s.md.decided then (sigKept s r).twinCompare else sigKept s r) := by
  have hx : exec (.twinSignatureRecord r) s = execTwinSignatureRecord r s := by rfl
  rw [hx, execTwinSignatureRecord, hstandby, hcrc, decide_eq_false (not_not.2 hk), if_neg (by decide), if_neg (by decide)]
  rfl

theorem twinSignatureRecord_bad {r : SigRec} (hstandby : s.standby = true) (hbad : r.crcOk = false ∨ r.k16.toNat ≠ s.tm.cyc % 65536) :
    ∃ t, exec (.twinSignatureRecord r) s = .next t ∧
      regsTo s t [(Reg.TWN_LINK_BLOCK_ERR, up s Reg.TWN_LINK_BLOCK_ERR)] ∧ t = { s with regs := t.regs } := by
  have hx : exec (.twinSignatureRecord r) s = execTwinSignatureRecord r s := by rfl
  rw [hx, execTwinSignatureRecord, hstandby, if_neg (by decide), if_pos (by rcases hbad with h | h <;> simp [h])]
  exact ⟨_, rfl, regsTo_inc s Reg.TWN_LINK_BLOCK_ERR, rfl⟩

theorem twinCompare_decided {r : SigRec} {v : Word64} (hsig : s.twn.sigIn = some r) (hv : s.decidedSig = some v) (hran : s.twn.ran = true)
    (hchasing : s.chasing = false) (htrav : r.travEnd = true) :
    s.twinCompare = if v ≠ r.acc then (s.modTwn fun x => { x with sigIn := none }).mismatch Reg.TWN_CMP_SIG_DIFF
      else s.modTwn fun x => { x with sigIn := none } := by
  have hv' : (s.modTwn fun x => { x with sigIn := none }).decidedSig = some v := hv
  have hch : (s.modTwn fun x => { x with sigIn := none }).chasing = false := hchasing
  have hran' : (s.modTwn fun x => { x with sigIn := none }).twn.ran = true := hran
  unfold State.twinCompare
  rw [hsig]
  dsimp only
  rw [hv']
  dsimp only
  rw [hch, hran', htrav]
  refine if_congr ?_ rfl rfl
  simp

theorem mismatch_done (s : State) {f : Fld} (hlog : ∀ g ∈ logFlds, f.key ≠ g.key) (htwn : ∀ g ∈ twnFlds, f.key ≠ g.key) :
    (s.mismatch f).rd f = up s f ∧ (s.mismatch f).twn = { s.twn with adopt := some 0 } := by
  unfold State.mismatch
  constructor
  · rw [twnRegs_keeps _ f htwn]
    exact (keepsRegs_diag _ _ _ _ _ _ f hlog).trans (rd_inc_up s f)
  · rw [twnRegs_twn]
    change { ((s.inc f).diag 4 Src.twn 0 0x00E00018).twn with adopt := some 0 } = _
    rw [diag_frame]
    rfl

theorem twinSignatureRecord_compared {r : SigRec} {v : Word64} (hstandby : s.standby = true) (hcrc : r.crcOk = true)
    (hk : r.k16.toNat = s.tm.cyc % 65536) (hdec : s.md.decided = true) (hv : s.decidedSig = some v) (hran : s.twn.ran = true)
    (hchasing : s.chasing = false) (htrav : r.travEnd = true) :
    ∃ t, exec (.twinSignatureRecord r) s = .next t ∧ t.twn.sigIn = none ∧
      (v = r.acc → t.regs = s.regs ∧ t.twn.adopt = s.twn.adopt) ∧
      (v ≠ r.acc → t.rd Reg.TWN_CMP_SIG_DIFF = up s Reg.TWN_CMP_SIG_DIFF ∧ t.twn.adopt = some 0) := by
  have hgood := twinSignatureRecord_good hstandby hcrc hk
  rw [hdec, if_pos rfl, twinCompare_decided (s := sigKept s r) rfl hv hran hchasing htrav] at hgood
  obtain ⟨hcount, htwn⟩ := mismatch_done ((sigKept s r).modTwn fun x => { x with sigIn := none }) (f := Reg.TWN_CMP_SIG_DIFF)
    (by decide) (by decide)
  by_cases h : v = r.acc
  · rw [if_neg (not_not.2 h)] at hgood
    exact ⟨_, hgood, rfl, fun _ => ⟨rfl, rfl⟩, fun hne => absurd h hne⟩
  · rw [if_pos h] at hgood
    exact ⟨_, hgood, congrArg TwnSt.sigIn htwn, fun heq => absurd heq h, fun _ => ⟨hcount, congrArg TwnSt.adopt htwn⟩⟩

theorem captureAndComparison_holds : captureAndComparison := by
  intro s hdown
  refine ⟨snapshotCapture_next hdown, snapshotCapture_none, fun htwin hrole r => ?_⟩
  have hstandby := standby_of hdown htwin hrole
  refine ⟨twinSignatureRecord_bad hstandby, fun hcrc hk => ⟨fun hdec => ?_, fun v hdec hv hran hchasing htrav => ?_⟩⟩
  · have hgood := twinSignatureRecord_good hstandby hcrc hk
    rw [hdec, if_neg (by decide)] at hgood
    refine ⟨_, hgood, rfl, ?_, rfl⟩
    change (if (r.ovr || !s.twn.ran) = true then s.twn.expect else s.twn.expect ++ [s.tm.cyc]) = _
    exact if_congr (by simp) rfl rfl
  · exact twinSignatureRecord_compared hstandby hcrc hk hdec hv hran hchasing htrav

/-- Settles O47: the link, the record and its deadline; the capture and the comparison. -/
theorem twinRecordsAndComparison : Obligations.TwinRecordsAndComparison := ⟨twinLinkAndRecords_holds, captureAndComparison_holds⟩

end Sys2Proof.Claims
end

section
/-! What the logic engine of a channel changes: its own memories, lanes, accumulator and registers. -/

namespace Sys2Proof.Claims

open Sys2Proof Sys2Proof.Machine

variable {s t u : State} {c : Ch}

/-! ### Steps of a channel's program -/

/-- The fields that say which bank of a channel runs, and what its other one is worth. -/
def bankFlds : List Fld := [0, 1, 2].flatMap fun n => [Reg.LEN_STATUS_UC_STATE n, Reg.LEN_STATUS_BANK_RUN n]

/-- The place of a channel's register that its program may change. -/
def runKey (k : Nat) : Bool := chanKey k && !(bankFlds.any fun f => f.key == k)

theorem runKey_of_chanKey {k : Nat} (h : chanKey k = false) : runKey k = false := by rw [runKey, h, Bool.false_and]

theorem runKey_bank {f : Fld} (h : f ∈ bankFlds) : runKey f.key = false := by
  have hany : (bankFlds.any fun g => g.key == f.key) = true := List.any_eq_true.2 ⟨f, h, beq_self_eq_true _⟩
  rw [runKey, hany, Bool.not_true, Bool.and_false]

/-- A step of the program of a channel. -/
structure RunOf (c : Ch) (s t : State) : Prop where
  frame : t = { s with regs := t.regs, chs := t.chs }
  others : ∀ d, d ≠ c → t.ch d = s.ch d
  ch : t.ch c = { s.ch c with
    img := (t.ch c).img, timers := (t.ch c).timers, counters := (t.ch c).counters, errs := (t.ch c).errs, pmap := (t.ch c).pmap,
    tags := (t.ch c).tags, wbq := (t.ch c).wbq, lanes := (t.ch c).lanes, acc := (t.ch c).acc, accStart := (t.ch c).accStart,
    travPos := (t.ch c).travPos, clk := (t.ch c).clk, raised := (t.ch c).raised }
  regs : ∀ g : Fld, runKey g.key = false → t.rd g = s.rd g

theorem RunOf.refl (c : Ch) (s : State) : RunOf c s s := ⟨rfl, fun _ _ => rfl, rfl, fun _ _ => rfl⟩

theorem RunOf.trans (h : RunOf c s t) (h' : RunOf c t u) : RunOf c s u :=
  ⟨by rw [h'.frame, h.frame], fun d hd => (h'.others d hd).trans (h.others d hd), by rw [h'.ch, h.ch],
    fun g hg => (h'.regs g hg).trans (h.regs g hg)⟩

theorem RunOf.ite {p : Prop} [Decidable p] (ht : RunOf c s t) (hu : RunOf c s u) : RunOf c s (if p then t else u) := by
  split
  · exact ht
  · exact hu

theorem RunOf.foldSt {α : Type} {l : List α} {f : α → State → State} (h : ∀ x s, RunOf c s (f x s)) (s : State) : RunOf c s (foldSt l f s) :=
  foldSt_inv (P := RunOf c s) (fun x _ t ht => ht.trans (h x t)) (RunOf.refl c s)

theorem RunOf.wr {f : Fld} (hf : runKey f.key = true) (s : State) (v : Nat) : RunOf c s (s.wr f v) :=
  ⟨rfl, fun _ _ => rfl, rfl, fun g hg => State.rd_wr_ne s f g v fun heq => Bool.false_ne_true (hg.symm.trans (heq ▸ hf))⟩

theorem RunOf.modCh (s : State) {f : Chan → Chan} (hf : f (s.ch c) = { s.ch c with
    img := (f (s.ch c)).img, timers := (f (s.ch c)).timers, counters := (f (s.ch c)).counters, errs := (f (s.ch c)).errs,
    pmap := (f (s.ch c)).pmap, tags := (f (s.ch c)).tags, wbq := (f (s.ch c)).wbq, lanes := (f (s.ch c)).lanes, acc := (f (s.ch c)).acc,
    accStart := (f (s.ch c)).accStart, travPos := (f (s.ch c)).travPos, clk := (f (s.ch c)).clk, raised := (f (s.ch c)).raised }) :
    RunOf c s (s.modCh c f) := by
  refine ⟨rfl, fun d hd => State.ch_modCh_ne s f hd, ?_, fun _ _ => rfl⟩
  rw [State.ch_modCh_same]
  exact hf

theorem ReadOf.runOf (h : ReadOf c s t) : RunOf c s t := by
  have hkeys : ∀ c : Ch, ∀ f ∈ readFlds (Ch.num c), runKey f.key = true := by intro c; cases c <;> decide
  refine ⟨h.frame, h.others, by rw [h.ch], fun g hg => h.regs g fun f hf heq => ?_⟩
  exact Bool.false_ne_true (hg.symm.trans (heq ▸ hkeys c f hf))

theorem SigOp.runOf (h : SigOp c s t) : RunOf c s t := by
  have hkeys : ∀ c : Ch, ∀ f ∈ readFlds (Ch.num c), runKey f.key = true := by intro c; cases c <;> decide
  refine ⟨h.frame, h.others, by rw [h.ch], fun g hg => h.regs g fun f hf heq => ?_⟩
  exact Bool.false_ne_true (hg.symm.trans (heq ▸ hkeys c f hf))

/-! ### Memories -/

theorem setErr_runOf (s : State) (c : Ch) (cw : Nat) (e : BitVec 72) : RunOf c s (s.setErr c cw e) := RunOf.modCh s rfl

theorem setPsn_runOf (s : State) (c : Ch) (k : Nat) (p : Bool) : RunOf c s (s.setPsn c k p) := RunOf.modCh s rfl

theorem setTag_runOf (s : State) (c : Ch) (cw : Nat) (p : Bool) : RunOf c s (s.setTag c cw p) := RunOf.modCh s rfl

theorem flip_runOf (s : State) (c : Ch) (cw : Nat) : RunOf c s (s.flip c cw) := by
  have harm : runKey (Reg.MIU_FLIP_CTL_ARM (Ch.num c)).key = true := by cases c <;> decide
  have hfired : runKey (Reg.MIU_FLIP_CTL_FIRED (Ch.num c)).key = true := by cases c <;> decide
  unfold State.flip
  exact RunOf.ite (((setErr_runOf s c cw _).trans (RunOf.wr harm _ _)).trans (RunOf.wr hfired _ _)) (RunOf.refl c s)

theorem flipAmong_runOf (s : State) (c : Ch) (firsts : List Nat) (written : Nat → Bool) : RunOf c s (s.flipAmong c firsts written) := by
  unfold State.flipAmong
  dsimp only
  split
  · exact RunOf.ite (flip_runOf s c _) (RunOf.refl c s)
  · exact RunOf.refl c s

theorem storeWritten_runOf (s : State) (c : Ch) (lo n : Nat) : RunOf c s (s.storeWritten c lo n) :=
  (RunOf.modCh s rfl).trans (flipAmong_runOf _ c _ _)

theorem writeMapHalf_runOf (s : State) (c : Ch) (cw i : Nat) : RunOf c s (s.writeMapHalf c cw i) := by
  unfold State.writeMapHalf
  dsimp only
  split
  · exact flip_runOf s c cw
  · split
    · exact (setErr_runOf s c cw _).trans (flip_runOf _ c cw)
    · exact ((miuCorrected_read c s cw _ _ false).runOf.trans (setErr_runOf _ c cw _)).trans (flip_runOf _ c cw)
    · exact (((miuUncorrectable_read c s cw _).runOf.trans (setPsn_runOf _ c _ true)).trans (setErr_runOf _ c cw _)).trans
        (flip_runOf _ c cw)

theorem readTagCw_runOf (s : State) (c : Ch) (cw : Nat) (d : BitVec 64) : RunOf c s (s.readTagCw c cw d).2 := by
  have herr (synd bit : Nat) : RunOf c s (s.miuErr c 4 cw synd bit) := ((ReadOf.refl c s).miuErr 4 cw synd bit).runOf
  unfold State.readTagCw
  dsimp only
  split
  · exact herr _ _
  · split
    · exact RunOf.refl c s
    · split
      · exact herr _ _
      · split
        · exact RunOf.refl c s
        · exact (miuCorrected_read c s cw _ _ true).runOf
        · exact ((miuUncorrectable_read c s cw _).runOf.trans (setTag_runOf _ c _ true)).trans (setErr_runOf _ c _ 0)

theorem readImg_runOf (s : State) (c : Ch) (copy : Option Nat) (i : Nat) : RunOf c s (s.readImg c copy i).2 :=
  (readImg_read c s copy i).runOf

theorem readTc_runOf (s : State) (c : Ch) (counter : Bool) (k : Nat) : RunOf c s (s.readTc c counter k).2 := (readMapCw_read c s _).runOf

theorem modLane_runOf (s : State) (c : Ch) (l : Nat) (f : LaneSt → LaneSt) : RunOf c s (s.modLane c l f) := RunOf.modCh s rfl

theorem storeImg_runOf (s : State) (c : Ch) (copy : Option Nat) (i : Nat) (v : Psn Word) : RunOf c s (s.storeImg c copy i v) := by
  have hhalf := writeMapHalf_runOf s c (Img.cw copy i) i
  unfold State.storeImg
  cases copy with
  | none => exact (hhalf.trans (RunOf.modCh _ rfl)).trans (setPsn_runOf _ c _ _)
  | some l => exact (hhalf.trans (modLane_runOf _ c l _)).trans (setPsn_runOf _ c _ _)

theorem storeAll_runOf (s : State) (c : Ch) (i : Nat) (v : Psn Word) (orPsn : Bool) : RunOf c s (s.storeAll c i v orPsn) := by
  have hlanes (p : State → Nat → Bool) : RunOf c s (Machine.foldSt lanes16 (fun l s =>
      (s.writeMapHalf c (Miu.cwLane l i) i).markImg c (some l) i (p s l)) s) :=
    RunOf.foldSt (fun l t => (writeMapHalf_runOf t c _ i).trans (setPsn_runOf _ c _ _)) s
  unfold State.storeAll
  exact (hlanes _).trans (storeImg_runOf _ c none i _)

theorem storeTc_runOf (s : State) (c : Ch) (counter : Bool) (k : Nat) (v : Psn Word) : RunOf c s (s.storeTc c counter k v) := by
  unfold State.storeTc
  cases counter
  · exact ((writeMapHalf_runOf s c _ k).trans (RunOf.modCh _ rfl)).trans (setPsn_runOf _ c _ _)
  · exact ((writeMapHalf_runOf s c _ k).trans (RunOf.modCh _ rfl)).trans (setPsn_runOf _ c _ _)

/-! ### Operands -/

theorem laneTook_runOf (s : State) (c : Ch) (l : Nat) (p : Bool) : RunOf c s (s.laneTook c l p) := by
  have hkey : runKey (Reg.MIU_EVENT_LEN_PSN (Ch.num c)).key = true := by cases c <;> decide
  exact RunOf.ite ((modLane_runOf s c l _).trans (RunOf.wr hkey _ _)) (RunOf.refl c s)

theorem laneBit_runOf (s : State) (c : Ch) (l : Nat) (b : BitAddr) : RunOf c s (s.laneBit c l b).2 :=
  (readImg_runOf s c _ _).trans (laneTook_runOf _ c l _)

theorem laneWord_runOf (s : State) (c : Ch) (l w : Nat) : RunOf c s (s.laneWord c l w).2 :=
  (readImg_runOf s c _ _).trans (laneTook_runOf _ c l _)

theorem bitOp_runOf (s : State) (c : Ch) (l : Nat) (x : BitOp) : RunOf c s (s.bitOp c l x).2 := by
  cases x with
  | bit a => exact laneBit_runOf s c l a
  | k x => exact RunOf.refl c s

theorem arOp_runOf (s : State) (c : Ch) (l : Nat) (x : ArOp) : RunOf c s (s.arOp c l x).2 := by
  cases x with
  | w uns a => exact laneWord_runOf s c l _
  | imm uns x => exact RunOf.refl c s

theorem logOp_runOf (s : State) (c : Ch) (l : Nat) (x : LogOp) : RunOf c s (s.logOp c l x).2 := by
  cases x with
  | w a => exact laneWord_runOf s c l _
  | i x => exact RunOf.refl c s
  | iu x => exact RunOf.refl c s

theorem shOp_runOf (s : State) (c : Ch) (l : Nat) (x : ShOp) : RunOf c s (s.shOp c l x).2 := by
  cases x with
  | w a => exact laneWord_runOf s c l _
  | c n => exact RunOf.refl _ s

theorem limOp_runOf (s : State) (c : Ch) (l : Nat) (x : LimOp) : RunOf c s (s.limOp c l x).2 := by
  cases x with
  | wp uns a => exact (laneWord_runOf s c l _).trans (laneWord_runOf _ c l _)
  | p uns lo hi => exact RunOf.refl c s

theorem tableEntry_runOf (s : State) (c : Ch) (b : Bank) (k i : Nat) : RunOf c s (s.tableEntry c b k i).2 := readTagCw_runOf s c _ _

theorem storeBit_runOf (s : State) (c : Ch) (l : Nat) (b : BitAddr) (acts v p : Bool) : RunOf c s (s.storeBit c l b acts v p) := by
  unfold State.storeBit
  exact RunOf.ite ((readImg_runOf s c _ _).trans (storeImg_runOf _ c _ _ _)) (RunOf.ite (setPsn_runOf s c _ _) (RunOf.refl c s))

theorem setOvf_runOf (s : State) (c : Ch) (l : Nat) (b : Bool) : RunOf c s (s.setOvf c l b) :=
  RunOf.ite (modLane_runOf s c l _) (RunOf.refl c s)

theorem setBa_runOf (s : State) (c : Ch) (l : Nat) (v p : Bool) : RunOf c s (s.setBa c l v p) := modLane_runOf s c l fun ln => { ln with ba := ⟨v, p⟩ }

theorem setWa_runOf (s : State) (c : Ch) (l : Nat) (v : Word) (p : Bool) : RunOf c s (s.setWa c l v p) :=
  modLane_runOf s c l fun ln => { ln with wa := ⟨v, p⟩ }

theorem setWaOpt_runOf (s : State) (c : Ch) (l : Nat) (v : Option Word) (p : Bool) : RunOf c s (s.setWaOpt c l v p) := by
  cases v with
  | none => exact RunOf.refl c s
  | some w => exact setWa_runOf s c l w p

/-! ### Effects of instructions -/

theorem effBit_runOf (usesBa : Bool) (f : Bool → Bool → Bool) (c : Ch) (l : Nat) (x : BitOp) (s : State) : RunOf c s (effBit usesBa f c l x s) :=
  (bitOp_runOf s c l x).trans (setBa_runOf _ c l _ _)

theorem effEdge_runOf (f : Bool → Bool → Bool) (c : Ch) (l : Nat) (m : BitAddr) (s : State) : RunOf c s (effEdge f c l m s) :=
  ((laneBit_runOf s c l m).trans (setBa_runOf _ c l _ _)).trans (storeBit_runOf _ c l m _ _ _)

theorem effStw_runOf (c : Ch) (l : Nat) (w : WordAddr) (s : State) : RunOf c s (effStw c l w s) :=
  RunOf.ite (storeImg_runOf s c _ _ _) (RunOf.ite (setPsn_runOf s c _ _) (RunOf.refl c s))

theorem effLdx_runOf (c : Ch) (l : Nat) (k : BitVec 8) (s : State) : RunOf c s (effLdx c l k s) := by
  unfold effLdx
  dsimp only
  split
  · exact RunOf.refl c s
  · split
    · exact RunOf.refl c s
    · exact RunOf.ite (((tableEntry_runOf s c _ _ _).trans (laneTook_runOf _ c l _)).trans (setWa_runOf _ c l _ _))
        ((modLane_runOf s c l _).trans (setWa_runOf _ c l _ _))

theorem effAr_runOf (f : Bool → Word → Word → Word × Bool) (c : Ch) (l : Nat) (x : ArOp) (s : State) : RunOf c s (effAr f c l x s) :=
  ((arOp_runOf s c l x).trans (setWa_runOf _ c l _ _)).trans (setOvf_runOf _ c l _)

theorem effLog_runOf (f : Word → Word → Word) (c : Ch) (l : Nat) (x : LogOp) (s : State) : RunOf c s (effLog f c l x s) :=
  (logOp_runOf s c l x).trans (setWa_runOf _ c l _ _)

theorem effShift_runOf (f : Word → Nat → Word × Bool) (c : Ch) (l : Nat) (x : ShOp) (s : State) : RunOf c s (effShift f c l x s) :=
  ((shOp_runOf s c l x).trans (setWa_runOf _ c l _ _)).trans (setOvf_runOf _ c l _)

theorem effLimit_runOf (c : Ch) (l : Nat) (x : LimOp) (s : State) : RunOf c s (effLimit c l x s) :=
  (limOp_runOf s c l x).trans (setWa_runOf _ c l _ _)

theorem effCmp_runOf (f : Int → Int → Bool) (c : Ch) (l : Nat) (x : ArOp) (s : State) : RunOf c s (effCmp f c l x s) :=
  (arOp_runOf s c l x).trans (setBa_runOf _ c l _ _)

theorem markTc_runOf (s : State) (c : Ch) (counter : Bool) (k : Nat) : RunOf c s (s.markTc c counter k) := setPsn_runOf s c _ _

theorem effTimer_runOf (f : Nat → Bool → TimerSt → TimerSt × Bool) (c : Ch) (l : Nat) (k : TVar) (n : BitVec 12) (s : State) :
    RunOf c s (effTimer f c l k n s) := by
  have hread := (readTc_runOf s c false n.toNat).trans (laneTook_runOf _ c l (s.readTc c false n.toNat).1.p)
  unfold effTimer
  refine RunOf.ite ?_ ?_
  · exact ((hread.trans (storeTc_runOf _ c _ _ _)).trans (setBa_runOf _ c l _ _)).trans (setWaOpt_runOf _ c l _ _)
  · exact ((hread.trans (RunOf.ite (markTc_runOf _ c _ _) (RunOf.refl c _))).trans (setBa_runOf _ c l _ _)).trans (setWaOpt_runOf _ c l _ _)

theorem effCount_runOf (f : Bool → Word → Word × Bool) (out : Word → Word → Bool) (c : Ch) (l : Nat) (k : CVar) (n : BitVec 12) (s : State) :
    RunOf c s (effCount f out c l k n s) := by
  have hread := (readTc_runOf s c true n.toNat).trans (laneTook_runOf _ c l (s.readTc c true n.toNat).1.p)
  unfold effCount
  refine RunOf.ite ?_ ?_
  · exact (((hread.trans (storeTc_runOf _ c _ _ _)).trans (setBa_runOf _ c l _ _)).trans (setWaOpt_runOf _ c l _ _)).trans
      (setOvf_runOf _ c l _)
  · exact ((hread.trans (RunOf.ite (markTc_runOf _ c _ _) (RunOf.refl c _))).trans (setBa_runOf _ c l _ _)).trans (setWaOpt_runOf _ c l _ _)

theorem effCres_runOf (c : Ch) (l : Nat) (preset : Bool) (n : BitVec 12) (s : State) : RunOf c s (effCres c l preset n s) := by
  have hread := (readTc_runOf s c true n.toNat).trans (laneTook_runOf _ c l (s.readTc c true n.toNat).1.p)
  unfold effCres
  exact RunOf.ite (hread.trans (storeTc_runOf _ c _ _ _)) (RunOf.ite (hread.trans (markTc_runOf _ c _ _)) hread)

theorem effAssert_runOf (c : Ch) (l : Nat) (a : BitVec 10) (s : State) : RunOf c s (effAssert c l a s) := by
  unfold effAssert
  refine RunOf.ite (RunOf.modCh s ?_) (RunOf.refl c s)
  split <;> rfl

theorem effOf_runOf (c : Ch) (l : Nat) (i : LInstr) (s : State) : RunOf c s (effOf c l i s) := by
  cases i with
  | nop => exact RunOf.refl c s
  | phase | endp | bpush | zoff | zon neg | bor | band =>
    simp only [effOf, effPhase, effEnd, effBpush, effZoff, effZon, effBor, effBand, effPop]
    exact modLane_runOf s c l _
  | ldwi uns x => exact setWa_runOf s c l _ _
  | ldwh h => exact setWa_runOf s c l _ _
  | assert a => exact effAssert_runOf c l a s
  | ld x | ldn x | and x | andn x | or x | orn x | xor x =>
    simp only [effOf, effLd, effLdn, effAnd, effAndn, effOr, effOrn, effXor]
    exact effBit_runOf _ _ c l x s
  | redge m | fedge m =>
    simp only [effOf, effRedge, effFedge]
    exact effEdge_runOf _ c l m s
  | out b | outn b | set b | rst b =>
    simp only [effOf, effOut, effOutn, effSet, effRst, effStore]
    exact storeBit_runOf s c l b _ _ _
  | stw w => exact effStw_runOf c l w s
  | ldw w => exact (laneWord_runOf s c l _).trans (setWa_runOf _ c l _ _)
  | ldx k => exact effLdx_runOf c l k s
  | add x | sub x | mul x | min x | max x =>
    simp only [effOf, effAdd, effSub, effMul, effMin, effMax]
    exact effAr_runOf _ c l x s
  | andw x | orw x | xorw x =>
    simp only [effOf, effAndw, effOrw, effXorw]
    exact effLog_runOf _ c l x s
  | shl x | shr x | asr x =>
    simp only [effOf, effShl, effShr, effAsr]
    exact effShift_runOf _ c l x s
  | limit x => exact effLimit_runOf c l x s
  | ceq x | cne x | clt x | cle x | cgt x | cge x =>
    simp only [effOf, effCeq, effCne, effClt, effCle, effCgt, effCge]
    exact effCmp_runOf _ c l x s
  | ton k n | tof k n | tp k n =>
    simp only [effOf, effTon, effTof, effTp]
    exact effTimer_runOf _ c l k n s
  | ctu k n | ctd k n =>
    simp only [effOf, effCtu, effCtd]
    exact effCount_runOf _ _ c l k n s
  | cres preset n => exact effCres_runOf c l preset n s

/-! ### Fetch, barrier and whole programs -/

theorem fetch_runOf (s : State) (c : Ch) (l : Nat) : RunOf c s (s.fetch c l).2 := by
  unfold State.fetch
  split
  · exact RunOf.refl c s
  · exact readTagCw_runOf s c _ _

theorem laneDo_runOf (s : State) (c : Ch) (l : Nat) (i : LInstr) : RunOf c s (s.laneDo c l i (effOf c l i)) := by
  have hbad (t : State) : RunOf c t (t.poisonedFetch c l i) := (laneTook_runOf t c l true).trans (modLane_runOf _ c l _)
  unfold State.laneDo
  exact ((fetch_runOf s c l).trans (RunOf.ite (hbad _) (effOf_runOf c l i _))).trans (modLane_runOf _ c l _)

theorem runWords_runOf (c : Ch) (l : Nat) (ws : List Word) (s : State) : RunOf c s (State.runWords c l ws s) := by
  induction ws generalizing s with
  | nil => exact RunOf.refl c s
  | cons w ws ih =>
    have hdo := laneDo_runOf s c l ((s.laneNext c l).getD .nop)
    unfold State.runWords
    dsimp only
    split
    · exact hdo
    · exact hdo
    · exact hdo.trans (ih _)

theorem feed_runOf (s : State) (c : Ch) (item : Word64) : RunOf c s (s.feed c item) := RunOf.modCh s rfl

theorem mergeWord_runOf (s : State) (c : Ch) (ft : ForceTab) (l i : Nat) (mask : Word) : RunOf c s (s.mergeWord c ft l i mask) := by
  have hread := (RunOf.ite (p := (s.lane' c l).barPsn.contains i = true) (setPsn_runOf s c (Miu.pkey (Img.cw (some l) i) i) true)
    (RunOf.refl c s)).trans (readImg_runOf _ c (some l) i)
  unfold State.mergeWord
  dsimp only
  split
  · exact ((hread.trans (readImg_runOf _ c none i)).trans (storeAll_runOf _ c i _ _)).trans (feed_runOf _ c _)
  · exact (hread.trans (storeAll_runOf _ c i _ _)).trans (feed_runOf _ c _)

/-- The overlays of the lanes are cleared. -/
theorem clearLanes_runOf (s : State) (c : Ch) (f : LaneSt → LaneSt) :
    RunOf c s (s.modCh c fun h => { h with lanes := h.lanes.map fun e => (e.1, f e.2) }) := RunOf.modCh s rfl

theorem phaseEnds_runOf (s : State) (c : Ch) (clk : Nat) (f : LaneSt → LaneSt) :
    RunOf c s (s.modCh c fun h => { h with clk := clk, lanes := h.lanes.map fun e => (e.1, f e.2) }) := RunOf.modCh s rfl

theorem mergeLane_runOf (s : State) (c : Ch) (ft : ForceTab) (l : Nat) :
    RunOf c s (Machine.foldSt (s.lane' c l).dirty (fun e s => s.mergeWord c ft l e.1 e.2) s) :=
  RunOf.foldSt (l := (s.lane' c l).dirty) (f := fun e u => u.mergeWord c ft l e.1 e.2) (fun e u => mergeWord_runOf u c ft l e.1 e.2) s

theorem mergeLanes_runOf (s : State) (c : Ch) (ft : ForceTab) : RunOf c s (s.mergeLanes c ft) := by
  unfold State.mergeLanes
  exact (RunOf.foldSt (fun l u => mergeLane_runOf u c ft l) s).trans (clearLanes_runOf _ c fun x => { x with own := [], dirty := [], barPsn := [], cnt := 0 })

theorem barrier_runOf (s : State) (c : Ch) (ft : ForceTab) : RunOf c s (s.barrier c ft) := by
  have hrun : runKey (Reg.LEN_STATUS_RUN (Ch.num c)).key = true := by cases c <;> decide
  have hclk : runKey (Reg.LEN_END_CLK_END_CLK (Ch.num c)).key = true := by cases c <;> decide
  have hphase : runKey (Reg.LEN_STATUS_PHASE (Ch.num c)).key = true := by cases c <;> decide
  have hends := (mergeLanes_runOf s c ft).trans (phaseEnds_runOf _ c ((s.ch c).clk + (s.ch c).longest + barrierClk (s.ch c).dirtyCount)
    fun x => { x with wait := if (s.ch c).ended then .atEnd else .running })
  unfold State.barrier
  exact RunOf.ite ((hends.trans (RunOf.wr hrun _ _)).trans (RunOf.wr hclk _ _)) (hends.trans (RunOf.wr hphase _ _))

theorem runPhases_runOf (s : State) (c : Ch) (b : Bank) (ft : ForceTab) (n : Nat) : RunOf c s (s.runPhases c b ft n) := by
  have hphase (t : State) : RunOf c t (t.runPhase c b ft) :=
    (RunOf.foldSt (fun l u => runWords_runOf c l _ u) t).trans (barrier_runOf _ c ft)
  exact RunOf.foldSt (fun _ t => hphase t) s

theorem startProgram_runOf (s : State) (c : Ch) : RunOf c s (s.startProgram c) := by
  have hrun : runKey (Reg.LEN_STATUS_RUN (Ch.num c)).key = true := by cases c <;> decide
  have hphase : runKey (Reg.LEN_STATUS_PHASE (Ch.num c)).key = true := by cases c <;> decide
  exact ((RunOf.modCh s rfl).trans (RunOf.wr hrun _ 1)).trans (RunOf.wr hphase _ 0)

end Sys2Proof.Claims
end

section
/-! What a chase cycle changes: its channel, that channel's registers, the agreement registers and a request to exclude it. -/

namespace Sys2Proof.Claims

open Sys2Proof Sys2Proof.Machine

variable {s t u : State} {c : Ch}

/-- A step of a chase in a channel. -/
structure ChaseOf (c : Ch) (s t : State) : Prop where
  frame : t = { s with regs := t.regs, chs := t.chs, md := t.md }
  md : t.md = { s.md with exclReq := t.md.exclReq }
  others : ∀ d, d ≠ c → t.ch d = s.ch d
  st : (t.ch c).st = (s.ch c).st
  attempt : (t.ch c).attempt = (s.ch c).attempt
  kept : (t.ch c).kept = (s.ch c).kept
  regs : ∀ g : Fld, chanKey g.key = false → (∀ f ∈ agreeFlds, g.key ≠ f.key) → t.rd g = s.rd g

theorem ChaseOf.refl (c : Ch) (s : State) : ChaseOf c s s := ⟨rfl, rfl, fun _ _ => rfl, rfl, rfl, rfl, fun _ _ _ => rfl⟩

theorem ChaseOf.trans (h : ChaseOf c s t) (h' : ChaseOf c t u) : ChaseOf c s u :=
  ⟨by rw [h'.frame, h.frame], by rw [h'.md, h.md], fun d hd => (h'.others d hd).trans (h.others d hd), h'.st.trans h.st, h'.attempt.trans h.attempt,
    h'.kept.trans h.kept, fun g hg hl => (h'.regs g hg hl).trans (h.regs g hg hl)⟩

theorem ChaseOf.ite {p : Prop} [Decidable p] (ht : ChaseOf c s t) (hu : ChaseOf c s u) : ChaseOf c s (if p then t else u) := by
  split
  · exact ht
  · exact hu

theorem RunOf.chaseOf (h : RunOf c s t) : ChaseOf c s t :=
  have hmd : t.md = s.md := by rw [h.frame]
  ⟨h.frame.trans (by rw [hmd]), by rw [hmd], h.others, by rw [h.ch], by rw [h.ch], by rw [h.ch], fun g hg _ => h.regs g (runKey_of_chanKey hg)⟩

theorem ChaseOf.modCh (s : State) {f : Chan → Chan} (hst : (f (s.ch c)).st = (s.ch c).st) (hatt : (f (s.ch c)).attempt = (s.ch c).attempt)
    (hkept : (f (s.ch c)).kept = (s.ch c).kept) : ChaseOf c s (s.modCh c f) := by
  refine ⟨rfl, rfl, fun d hd => State.ch_modCh_ne s f hd, ?_, ?_, ?_, fun _ _ _ => rfl⟩
  · rw [State.ch_modCh_same]; exact hst
  · rw [State.ch_modCh_same]; exact hatt
  · rw [State.ch_modCh_same]; exact hkept

theorem ChaseOf.wr {f : Fld} (hf : chanKey f.key = true) (s : State) (v : Nat) : ChaseOf c s (s.wr f v) :=
  ⟨rfl, rfl, fun _ _ => rfl, rfl, rfl, rfl, fun g hg _ => (MiuOp.wr hf s v).regs g hg⟩

theorem ChaseOf.voters (h : ChaseOf c s t) : t.voters = s.voters := by
  have hst (d : Ch) : (t.ch d).st = (s.ch d).st := by
    by_cases hd : d = c
    · rw [hd]; exact h.st
    · rw [h.others d hd]
  have hin : t.inVote = s.inVote := funext fun d => by unfold State.inVote; rw [hst d]
  unfold State.voters
  rw [hin]

theorem ChaseOf.latestStart (h : ChaseOf c s t) (clk : Nat) : t.latestStart clk = s.latestStart clk := by
  have hcode := h.regs Reg.TMU_CYC_CFG_TBC_CODE (by decide) (by decide)
  have hmode : t.md.mode = s.md.mode := by rw [h.md]
  unfold State.latestStart State.tbc
  rw [hcode, hmode]

/-! ### The steps -/

theorem RunOf.foldl {α β : Type} {f : β × State → α → β × State} (hf : ∀ p x, RunOf c p.2 (f p x).2) (l : List α) (p : β × State) :
    RunOf c p.2 (l.foldl f p).2 := by
  induction l generalizing p with
  | nil => exact RunOf.refl c p.2
  | cons x l ih => exact (hf p x).trans (ih (f p x))

theorem readStore_runOf (s : State) (c : Ch) (lo n : Nat) : RunOf c s (s.readStore c lo n).2 := by
  unfold State.readStore
  refine RunOf.foldl (fun p cw => ?_) _ (([] : List (Nat × BitVec 64 × Bool)), s)
  exact readTagCw_runOf p.2 c cw _

theorem ccuStops_chaseOf (s : State) (c : Ch) : ChaseOf c s (s.ccuStops c) := by
  have hpsn : chanKey (Reg.MIU_EVENT_CCU_PSN (Ch.num c)).key = true := by cases c <;> decide
  have hrun : chanKey (Reg.LEN_STATUS_RUN (Ch.num c)).key = true := by cases c <;> decide
  have h : ChaseOf c s (((s.modCh c fun h => { h with ccuStop := true }).wrb (Reg.MIU_EVENT_CCU_PSN (Ch.num c)) true).wr
      (Reg.LEN_STATUS_RUN (Ch.num c)) 0) :=
    ((ChaseOf.modCh s rfl rfl rfl).trans (ChaseOf.wr hpsn _ _)).trans (ChaseOf.wr hrun _ 0)
  have hreq (t : State) : ChaseOf c t (t.modMd fun x => { x with exclReq := x.exclReq ++ [(c, 0x0A)] }) :=
    ⟨rfl, rfl, fun _ _ => rfl, rfl, rfl, rfl, fun _ _ _ => rfl⟩
  unfold State.ccuStops
  exact ChaseOf.ite (h.trans (hreq _)) h

theorem readKept_chaseOf (s : State) (c : Ch) (x : Kept) : ChaseOf c s (s.readKept c x).2 := by
  have h := (readStore_runOf s c (Miu.keptLo x.k) Miu.keptN).chaseOf
  unfold State.readKept
  exact ChaseOf.ite (h.trans (ccuStops_chaseOf _ c)) h

theorem flipAmong_chaseOf (s : State) (c : Ch) (firsts : List Nat) (written : Nat → Bool) : ChaseOf c s (s.flipAmong c firsts written) :=
  (flipAmong_runOf s c firsts written).chaseOf

theorem writeForces_runOf (s : State) (c : Ch) (ft : ForceTab) : RunOf c s (s.writeForces c ft) := by
  unfold State.writeForces
  refine RunOf.foldSt (l := (forcedWords ft).filter fun i => !Img.loaded i) (f := fun i s =>
    (s.readImg c none i).2.storeAll c i (applyForces (forcesOn ft i) (s.readImg c none i).1) (Img.isBit i)) (fun i t => ?_) s
  exact (readImg_runOf t c none i).trans (storeAll_runOf _ c i _ _)

theorem imageLoad_runOf (s : State) (c : Ch) (w : FMap Word) (ft : ForceTab) : RunOf c s (s.imageLoad c w ft) := by
  unfold State.imageLoad
  exact ((RunOf.modCh s rfl).trans (flipAmong_runOf _ c _ _)).trans (writeForces_runOf _ c ft)

theorem setUc_chaseOf (s : State) (c : Ch) (b : Option Bank) (st : Nat) : ChaseOf c s (s.setUc c b st) := by
  have hst : chanKey (Reg.LEN_STATUS_UC_STATE (Ch.num c)).key = true := by cases c <;> decide
  have hlo : chanKey (Reg.LEN_BANK_UC_LO_ID_LO (Ch.num c)).key = true := by cases c <;> decide
  have hhi : chanKey (Reg.LEN_BANK_UC_HI_ID_HI (Ch.num c)).key = true := by cases c <;> decide
  exact (((ChaseOf.modCh s rfl rfl rfl).trans (ChaseOf.wr hst _ st)).trans (ChaseOf.wr hlo _ _)).trans (ChaseOf.wr hhi _ _)

theorem runRegs_runOf (s : State) (c : Ch) : RunOf c s (s.runRegs c) := by
  have hlo : runKey (Reg.LEN_BANK_RUN_LO_ID_LO (Ch.num c)).key = true := by cases c <;> decide
  have hhi : runKey (Reg.LEN_BANK_RUN_HI_ID_HI (Ch.num c)).key = true := by cases c <;> decide
  have htab : runKey (Reg.LEN_PROG_TABLES (Ch.num c)).key = true := by cases c <;> decide
  have hlanes : runKey (Reg.LEN_PROG_LANES_USED (Ch.num c)).key = true := by cases c <;> decide
  have hphases : runKey (Reg.LEN_PROG_PHASE_COUNT (Ch.num c)).key = true := by cases c <;> decide
  have hbar : runKey (Reg.LEN_BARRIER_BAR_CLK (Ch.num c)).key = true := by cases c <;> decide
  have hid (a b : Nat) : RunOf c s ((s.wr (Reg.LEN_BANK_RUN_LO_ID_LO (Ch.num c)) a).wr (Reg.LEN_BANK_RUN_HI_ID_HI (Ch.num c)) b) :=
    (RunOf.wr hlo s a).trans (RunOf.wr hhi _ b)
  have hprog (t : State) (a b d e : Nat) : RunOf c t ((((t.wr (Reg.LEN_PROG_TABLES (Ch.num c)) a).wr
      (Reg.LEN_PROG_LANES_USED (Ch.num c)) b).wr (Reg.LEN_PROG_PHASE_COUNT (Ch.num c)) d).wr (Reg.LEN_BARRIER_BAR_CLK (Ch.num c)) e) :=
    (((RunOf.wr htab t a).trans (RunOf.wr hlanes _ b)).trans (RunOf.wr hphases _ d)).trans (RunOf.wr hbar _ e)
  unfold State.runRegs
  dsimp only
  split
  · exact (hid _ _).trans (hprog _ _ _ _ _)
  · exact (hid _ _).trans (hprog _ _ _ _ _)

theorem swapBank_chaseOf (s : State) (c : Ch) : ChaseOf c s (s.swapBank c) := by
  have hbank : chanKey (Reg.LEN_STATUS_BANK_RUN (Ch.num c)).key = true := by cases c <;> decide
  unfold State.swapBank
  exact (((ChaseOf.modCh s rfl rfl rfl).trans (setUc_chaseOf _ c _ _)).trans (ChaseOf.wr hbank _ _)).trans (runRegs_runOf _ c).chaseOf

theorem prgRegs_chaseOf (s : State) (c : Ch) : ChaseOf c s s.prgRegs := by
  have hch (d : Ch) : s.prgRegs.ch d = s.ch d := by rw [prgRegs_frame]; rfl
  have hmd : s.prgRegs.md = s.md := by rw [prgRegs_frame]
  have hchs : s.prgRegs.chs = s.chs := by rw [prgRegs_frame]
  refine ⟨(prgRegs_frame s).trans (by rw [hmd, hchs]), by rw [hmd], fun d _ => hch d, ?_, ?_, ?_, fun g _ hl => prgRegs_keeps s g hl⟩
  · rw [hch]
  · rw [hch]
  · rw [hch]

theorem migBit_runOf (s : State) (c : Ch) (b : Nat) (v : Psn Bool) : RunOf c s (s.migBit c b v) := by
  unfold State.migBit
  exact ((readImg_runOf s c none _).trans (storeAll_runOf _ c _ _ true)).trans (feed_runOf _ c _)

theorem migWord_runOf (s : State) (c : Ch) (w : Nat) (v : Psn Word) : RunOf c s (s.migWord c w v) := by
  unfold State.migWord
  exact (storeAll_runOf s c _ v false).trans (feed_runOf _ c _)

theorem migTc_runOf (s : State) (c : Ch) (counter : Bool) (k : Nat) (v : Psn Word) : RunOf c s (s.migTc c counter k v) := by
  unfold State.migTc
  exact (storeTc_runOf s c counter k v).trans (feed_runOf _ c _)

theorem migOp_runOf (s : State) (c : Ch) (o : MigOp) : RunOf c s (s.migOp c o) := by
  unfold State.migOp
  dsimp only
  split
  · exact (readImg_runOf s c none _).trans (migBit_runOf _ c _ _)
  · exact (readImg_runOf s c none _).trans (migWord_runOf _ c _ _)
  · exact migBit_runOf s c _ _
  · exact migWord_runOf s c _ _
  · exact (readTc_runOf s c false _).trans (migTc_runOf _ c false _ _)
  · exact (readTc_runOf s c true _).trans (migTc_runOf _ c true _ _)
  · exact migTc_runOf s c true _ _
  · exact migTc_runOf s c false _ _
  · exact RunOf.refl c s

theorem migrate_runOf (s : State) (c : Ch) (old : Nat) : RunOf c s (s.migrate c old) := by
  unfold State.migrate
  split
  · exact RunOf.ite (RunOf.foldSt (fun o t => migOp_runOf t c o) s) (RunOf.refl c s)
  · exact RunOf.refl c s

theorem forceAll_runOf (s : State) (c : Ch) (ft : ForceTab) : RunOf c s (s.forceAll c ft) := by
  unfold State.forceAll
  refine RunOf.foldSt (l := forcedWords ft) (f := fun i s =>
    (s.readImg c none i).2.storeAll c i (applyForces (forcesOn ft i) (s.readImg c none i).1) (Img.isBit i)) (fun i t => ?_) s
  exact (readImg_runOf t c none i).trans (storeAll_runOf _ c i _ _)

theorem laneStatus_runOf (s : State) (c : Ch) : RunOf c s (s.laneStatus c) := by
  have hovf : runKey (Reg.LEN_LANE_STAT_OVF (Ch.num c)).key = true := by cases c <;> decide
  have hrng : runKey (Reg.LEN_LANE_STAT_RNG (Ch.num c)).key = true := by cases c <;> decide
  have hsovf : runKey (Reg.LEN_LANE_STICKY_OVF (Ch.num c)).key = true := by cases c <;> decide
  have hsrng : runKey (Reg.LEN_LANE_STICKY_RNG (Ch.num c)).key = true := by cases c <;> decide
  unfold State.laneStatus
  exact (((RunOf.wr hovf s _).trans (RunOf.wr hrng _ _)).trans (RunOf.wr hsovf _ _)).trans (RunOf.wr hsrng _ _)

/-! ### The whole cycle -/

/-- The traverse opens where the kept cycle is the first of one. -/
def chaseOpened (c : Ch) (x : Kept) (s : State) : State :=
  if x.first || (s.ch c).accStart then s.modCh c fun h => { (h.openTraverse) with acc := crc64Init, travPos := 0, accStart := false } else s

/-- The kept image is read and loaded. -/
def chaseLoaded (c : Ch) (x : Kept) (s : State) : State :=
  (s.readKept c x).2.imageLoad c (s.readKept c x).1 (if x.commit then [] else x.forces)

/-- The commit at the Tc of the kept cycle. -/
def chaseSwapped (c : Ch) (x : Kept) (s : State) : State :=
  if x.commit && (s.ch c).uc.isSome && (s.ucState c = 3 || s.ucState c = 4) then
    ((s.swapBank c).prgRegs.migrate c (bankId (s.ch c).run)).forceAll c x.forces else s

/-- The program of the kept cycle, and its items. -/
def chaseRan (c : Ch) (x : Kept) (s : State) : State :=
  ((match ((s.startProgram c).ch c).run with
    | some b => (s.startProgram c).runPhases c b x.forces b.phases
    | none => s.startProgram c).laneStatus c).finishSig c x.k

/-- The event words of the image, each read through its code. -/
def eventWords (c : Ch) (s : State) : FMap Word × State :=
  (List.range' 0x60 32).foldl (fun (p : FMap Word × State) i => (FMap.set 0 p.1 i (p.2.readImg c none i).1.v, (p.2.readImg c none i).2)) ([], s)

/-- The end of the kept cycle. -/
def chaseClosed (c : Ch) (x : Kept) (s : State) : State :=
  ((eventWords c s).2.modCh c fun h => { h with prevEvents := (eventWords c s).1, lanes := [], ownForces := some x.forces }).wr
    (Reg.LEN_STATUS_RUN (Ch.num c)) 2

theorem chase_eq (s : State) (c : Ch) (x : Kept) :
    (s.chase c x).2 = chaseClosed c x (chaseRan c x (chaseSwapped c x (chaseLoaded c x (chaseOpened c x s)))) := rfl

theorem chaseOpened_chaseOf (s : State) (c : Ch) (x : Kept) : ChaseOf c s (chaseOpened c x s) := by
  unfold chaseOpened
  refine ChaseOf.ite (ChaseOf.modCh s ?_ ?_ ?_) (ChaseOf.refl c s)
  all_goals (unfold Chan.openTraverse; split <;> rfl)

theorem chaseLoaded_chaseOf (s : State) (c : Ch) (x : Kept) : ChaseOf c s (chaseLoaded c x s) :=
  (readKept_chaseOf s c x).trans (imageLoad_runOf _ c _ _).chaseOf

theorem chaseSwapped_chaseOf (s : State) (c : Ch) (x : Kept) : ChaseOf c s (chaseSwapped c x s) := by
  unfold chaseSwapped
  exact ChaseOf.ite (((swapBank_chaseOf s c).trans (prgRegs_chaseOf _ c)).trans
    ((migrate_runOf _ c _).trans (forceAll_runOf _ c _)).chaseOf) (ChaseOf.refl c s)

theorem chaseRan_runOf (s : State) (c : Ch) (x : Kept) : RunOf c s (chaseRan c x s) := by
  have hend (t : State) : RunOf c t ((t.laneStatus c).finishSig c x.k) := (laneStatus_runOf t c).trans (finishSig_op c _ x.k).runOf
  unfold chaseRan
  split
  · exact ((startProgram_runOf s c).trans (runPhases_runOf _ c _ _ _)).trans (hend _)
  · exact (startProgram_runOf s c).trans (hend _)

theorem eventWords_runOf (s : State) (c : Ch) : RunOf c s (eventWords c s).2 := by
  unfold eventWords
  refine RunOf.foldl (fun p i => ?_) _ (([] : FMap Word), s)
  exact readImg_runOf p.2 c none i

theorem chaseClosed_chaseOf (s : State) (c : Ch) (x : Kept) : ChaseOf c s (chaseClosed c x s) := by
  have hrun : chanKey (Reg.LEN_STATUS_RUN (Ch.num c)).key = true := by cases c <;> decide
  have hmod (t : State) (m : FMap Word) : ChaseOf c t (t.modCh c fun h => { h with prevEvents := m, lanes := [], ownForces := some x.forces }) :=
    ChaseOf.modCh t rfl rfl rfl
  exact ((eventWords_runOf s c).chaseOf.trans (hmod _ _)).trans (ChaseOf.wr hrun _ 2)

theorem chase_chaseOf (s : State) (c : Ch) (x : Kept) : ChaseOf c s (s.chase c x).2 := by
  rw [chase_eq]
  exact ((((chaseOpened_chaseOf s c x).trans (chaseLoaded_chaseOf _ c x)).trans (chaseSwapped_chaseOf _ c x)).trans
    (chaseRan_runOf _ c x).chaseOf).trans (chaseClosed_chaseOf _ c x)

end Sys2Proof.Claims
end

section
/-! O48: twin snapshots. -/

namespace Sys2Proof.Claims

open Sys2Proof Sys2Proof.Machine

variable {s t u : State} {c : Ch}

/-! ### The blocks of a snapshot (R370, R377) -/

theorem block_starts {b : List Byte} (hst : s.standby = true) (hup : s.rdb Reg.TWN_STATUS_LINK_UP = true) (hb : b.length = 256) :
    exec (.twinSnapshotBlock 0 true b) s = .next ((partDropped s).modTwn fun x => { x with rx := [(0, b)], rxK := 0 }) := by
  have hx : exec (.twinSnapshotBlock 0 true b) s = execTwinSnapshotBlock 0 true b s := by rfl
  have hgood : (true && decide (b.length = 256) && decide (0 < Snap.blocks)) = true := by rw [hb]; decide
  rw [hx, execTwinSnapshotBlock, hst, hup]
  dsimp only
  rw [if_neg (by decide), hgood, if_pos (by decide)]
  rfl

theorem block_follows {b : List Byte} {idx : Nat} (hst : s.standby = true) (hup : s.rdb Reg.TWN_STATUS_LINK_UP = true) (hk : s.twn.rxK ≠ 1)
    (hidx : 0 < idx) (hb : b.length = 256) (hlt : idx < 562) (hnext : idx = s.twn.rx.length) :
    exec (.twinSnapshotBlock idx true b) s = .next { s with twn := { s.twn with rx := s.twn.rx ++ [(idx, b)] } } := by
  have hx : exec (.twinSnapshotBlock idx true b) s = execTwinSnapshotBlock idx true b s := by rfl
  have hlt' : idx < Snap.blocks := hlt
  have hgood : (true && decide (b.length = 256) && decide (idx < Snap.blocks)) = true := by simp [hb, hlt']
  rw [hx, execTwinSnapshotBlock, hst, hup]
  dsimp only
  rw [if_neg (by decide), hgood, if_neg (by simp only [Bool.and_true, decide_eq_true_eq]; omega), if_neg hk, if_pos (by simp only [Bool.true_and, decide_eq_true_eq]; exact hnext)]
  rfl

theorem block_drops (b : List Byte) {idx : Nat} (hst : s.standby = true) (hup : s.rdb Reg.TWN_STATUS_LINK_UP = true) (hk : s.twn.rxK ≠ 1) :
    exec (.twinSnapshotBlock idx false b) s = .next s.dropUnit := by
  have hx : exec (.twinSnapshotBlock idx false b) s = execTwinSnapshotBlock idx false b s := by rfl
  rw [hx, execTwinSnapshotBlock, hst, hup]
  dsimp only
  rw [if_neg (by decide), if_neg (by simp), if_neg hk, if_neg (by simp)]

theorem dropUnit_regs (s : State) : regsTo s s.dropUnit [(Reg.TWN_LINK_BLOCK_ERR, up s Reg.TWN_LINK_BLOCK_ERR),
    (Reg.TWN_SNAP_COUNT_DISCARDED, up s Reg.TWN_SNAP_COUNT_DISCARDED)] := by
  have hne : Reg.TWN_SNAP_COUNT_DISCARDED.key ≠ Reg.TWN_LINK_BLOCK_ERR.key := by decide
  have hcount : up (s.inc Reg.TWN_LINK_BLOCK_ERR) Reg.TWN_SNAP_COUNT_DISCARDED = up s Reg.TWN_SNAP_COUNT_DISCARDED := by
    unfold up
    rw [State.rd_inc_ne s _ _ hne]
  have hwr : s.dropUnit.regs = (writes [(Reg.TWN_LINK_BLOCK_ERR, up s Reg.TWN_LINK_BLOCK_ERR),
      (Reg.TWN_SNAP_COUNT_DISCARDED, up s Reg.TWN_SNAP_COUNT_DISCARDED)] s).regs := by
    change ((s.inc Reg.TWN_LINK_BLOCK_ERR).inc Reg.TWN_SNAP_COUNT_DISCARDED).regs = _
    rw [inc_eq_up (s.inc Reg.TWN_LINK_BLOCK_ERR), hcount, inc_eq_up s]
    rfl
  have hsep : separate [(Reg.TWN_LINK_BLOCK_ERR, up s Reg.TWN_LINK_BLOCK_ERR),
      (Reg.TWN_SNAP_COUNT_DISCARDED, up s Reg.TWN_SNAP_COUNT_DISCARDED)] :=
    ⟨by simp only [List.forall_mem_cons]; exact ⟨up_lt s _, up_lt s _, by simp⟩, by simpa using hne.symm⟩
  exact (regsTo_writes hsep s).of_regs hwr

/-! ### Acceptance (R373, R375, R377) -/

/-- The twin unit, but for an adoption and its kept records, and the counters of snapshots stay as they are. -/
structure HeldKept (s t : State) : Prop where
  twn : t.twn = { s.twn with adopt := t.twn.adopt, kept := t.twn.kept }
  complete : t.rd Reg.TWN_SNAP_COUNT_COMPLETE = s.rd Reg.TWN_SNAP_COUNT_COMPLETE
  differs : t.rd Reg.TWN_CMP_STATE_DIFF = s.rd Reg.TWN_CMP_STATE_DIFF

theorem HeldKept.refl (s : State) : HeldKept s s := ⟨rfl, rfl, rfl⟩

theorem HeldKept.trans (h : HeldKept s t) (h' : HeldKept t u) : HeldKept s u :=
  ⟨by rw [h'.twn, h.twn], h'.complete.trans h.complete, h'.differs.trans h.differs⟩

theorem HeldKept.ite {p : Prop} [Decidable p] (ht : HeldKept s t) (hu : HeldKept s u) : HeldKept s (if p then t else u) := by
  split
  · exact ht
  · exact hu

theorem HeldKept.of_keeps {l : List Fld} (htwn : t.twn = s.twn) (hregs : keepsRegs s t l)
    (hl : ∀ f ∈ l, Reg.TWN_SNAP_COUNT_COMPLETE.key ≠ f.key ∧ Reg.TWN_CMP_STATE_DIFF.key ≠ f.key) : HeldKept s t :=
  ⟨by rw [htwn], hregs _ fun f hf => (hl f hf).1, hregs _ fun f hf => (hl f hf).2⟩

theorem twnRegs_heldKept (s : State) : HeldKept s s.twnRegs := .of_keeps (twnRegs_twn s) (twnRegs_keeps s) (by decide)

theorem ChaseOf.heldKept (h : ChaseOf c s t) : HeldKept s t :=
  ⟨by rw [h.frame], h.regs _ (by decide) (by decide), h.regs _ (by decide) (by decide)⟩

theorem followBank_heldKept (s : State) (id : Nat) : HeldKept s (s.followBank id) := by
  unfold State.followBank
  exact HeldKept.ite (.of_keeps rfl (setTarget_keeps s _) (by decide)) (HeldKept.refl s)

theorem takeForces_heldKept (s : State) (k : Nat) (l : List Byte) : HeldKept s (s.takeForces k l) := by
  have h (ft : ForceTab) : HeldKept s (s.putForces ft) :=
    have hop := MiuOp.putForces s ft
    ⟨by rw [hop.frame], hop.regs _ (by decide), hop.regs _ (by decide)⟩
  unfold State.takeForces
  exact HeldKept.ite (h _) (HeldKept.refl s)

theorem restoreWord_chaseOf (s : State) (c : Ch) (off : Nat) (v : Word) : ChaseOf c s (s.restoreWord c off v) := by
  have hpsn (t : State) (k : Nat) (p : Bool) : ChaseOf c t (t.setPsn c k p) := (setPsn_runOf t c k p).chaseOf
  have hfold {α : Type} {l : List α} {f : α → State → State} (h : ∀ x t, RunOf c t (f x t)) (t : State) : ChaseOf c t (Machine.foldSt l f t) :=
    (RunOf.foldSt h t).chaseOf
  unfold State.restoreWord
  refine ChaseOf.ite (ChaseOf.refl c s) (ChaseOf.ite (storeAll_runOf s c _ _ _).chaseOf (ChaseOf.ite ?_
    (ChaseOf.ite (storeTc_runOf s c _ _ _).chaseOf (ChaseOf.refl c s))))
  refine hfold (fun b t => ?_) s
  refine RunOf.ite ((RunOf.foldSt (fun l u => setPsn_runOf u c _ _) t).trans (setPsn_runOf _ c _ _)) (setPsn_runOf t c _ _)

theorem restoreForce_chaseOf (s : State) (c : Ch) (n : Nat) (f : Option Force) : ChaseOf c s (s.restoreForce c n f) :=
  (ChaseOf.modCh s rfl rfl rfl).trans (storeWritten_runOf _ c _ _).chaseOf

theorem ChaseOf.foldSt {α : Type} {l : List α} {f : α → State → State} (h : ∀ x s, ChaseOf c s (f x s)) (s : State) :
    ChaseOf c s (Machine.foldSt l f s) := foldSt_inv (P := ChaseOf c s) (fun x _ t ht => ht.trans (h x t)) (ChaseOf.refl c s)

theorem restoreBytes_chaseOf (s : State) (c : Ch) (off : Nat) (l : List Byte) : ChaseOf c s (s.restoreBytes c off l) := by
  unfold State.restoreBytes
  exact (ChaseOf.foldSt (fun j t => restoreWord_chaseOf t c _ _) s).trans
    (ChaseOf.foldSt (fun j t => ChaseOf.ite (restoreForce_chaseOf t c _ _) (ChaseOf.refl c t)) _)

/-- The held snapshot goes into a channel. -/
def adoptChan (l : List Byte) (c : Ch) (s : State) : State :=
  ((s.restoreBytes c 0 (l.take 143616)).modCh c fun h => { h with
    acc := Snap.acc l,
    travPos := if decide ((s.restoreBytes c 0 (l.take 143616)).traverse ≤ Snap.pos l + 1) = true then 0 else Snap.pos l + 1,
    accStart := decide ((s.restoreBytes c 0 (l.take 143616)).traverse ≤ Snap.pos l + 1), lanes := [], sigRecs := [],
    ownForces := none }).wr (Reg.LEN_STATUS_RUN (Ch.num c)) 0

theorem adoptChan_chaseOf (l : List Byte) (c : Ch) (s : State) : ChaseOf c s (adoptChan l c s) := by
  have hrun : chanKey (Reg.LEN_STATUS_RUN (Ch.num c)).key = true := by cases c <;> decide
  have hmod (t : State) (a : Word64) (n : Nat) (b : Bool) : ChaseOf c t (t.modCh c fun h => { h with
      acc := a, travPos := n, accStart := b, lanes := [], sigRecs := [], ownForces := none }) := ChaseOf.modCh t rfl rfl rfl
  exact ((restoreBytes_chaseOf s c 0 _).trans (hmod _ _ _ _)).trans (ChaseOf.wr hrun _ 0)

theorem adoptInto_eq (s : State) (l : List Byte) : s.adoptInto l =
    if s.voters.any (fun c => bankId (s.ch c).run ≠ Snap.runId l) then none else some (foldSt s.voters (adoptChan l) s) := rfl

theorem foldSt_heldKept {l : List Ch} {f : Ch → State → State} (h : ∀ c s, ChaseOf c s (f c s)) (s : State) : HeldKept s (foldSt l f s) :=
  foldSt_inv (P := HeldKept s) (fun c _ t ht => ht.trans (h c t).heldKept) (HeldKept.refl s)

theorem adoptFails_heldKept (s : State) : HeldKept s s.adoptFails :=
  have h : HeldKept s ((s.inc Reg.TWN_CMP_ADOPT_FAIL).modTwn fun x => { x with adopt := some 0 }) :=
    ⟨rfl, State.rd_inc_ne s _ _ (by decide), State.rd_inc_ne s _ _ (by decide)⟩
  h.trans (twnRegs_heldKept _)

/-- What an adoption begun from the held snapshot sets. -/
theorem adoptHeld_heldKept (s : State) (k : Nat) (l : List Byte) (h : s.twn.adopt.isSome = true) :
    HeldKept s (s.adoptHeld k l) ∧ (s.adoptHeld k l).twn.adopt.isSome = true := by
  unfold State.adoptHeld
  rw [adoptInto_eq]
  by_cases hany : s.voters.any (fun c => bankId (s.ch c).run ≠ Snap.runId l) = true
  · rw [if_pos hany]
    dsimp only
    split
    · exact ⟨HeldKept.refl s, h⟩
    · refine ⟨adoptFails_heldKept s, ?_⟩
      unfold State.adoptFails
      rw [twnRegs_twn]
      rfl
  · rw [if_neg hany]
    dsimp only
    have hinto := foldSt_heldKept (l := s.voters) (f := adoptChan l) (adoptChan_chaseOf l) s
    have hmod (t : State) : HeldKept t ((t.modMd fun x => { x with loadDone := false }).modTwn fun x =>
        { x with adopt := some (k + 2), kept := x.kept.filter fun y => k < y.k }) := ⟨rfl, rfl, rfl⟩
    refine ⟨(hinto.trans (hmod _)).trans (twnRegs_heldKept _), ?_⟩
    rw [twnRegs_twn]
    rfl

/-- The snapshot is held, with its switches, its bank and its force table. -/
def snapHeld (l : List Byte) (s : State) : State :=
  (((((s.modTwn fun x => { x with
    rx := [], rxK := 0, held := some (Snap.cycle l, l), missed := 0, expect := x.expect.filter fun y => Snap.cycle l < y,
    commNext := (l.drop 139520).take 4096 }).modSio fun x => { x with twinOut := BitVec.ofNat 12 (leAt l 384 4) }).inc
      Reg.TWN_SNAP_COUNT_COMPLETE).followBank (Snap.runId l)).takeForces (Snap.cycle l) l)

/-- The standby's own state of the snapshot's cycle, where it differs from the snapshot. -/
def snapDiffers (l : List Byte) (s : State) : Bool :=
  match (s.twn.own.find? fun e => e.1 = Snap.cycle l).map (·.2) with
  | some v => v ≠ stateCrc l
  | none => false

/-- The comparison of the held snapshot with the standby's own state (R373). -/
def snapCompared (l : List Byte) (s : State) : State :=
  if snapDiffers l s && !s.chasing then s.mismatch Reg.TWN_CMP_STATE_DIFF
  else if ((s.twn.own.find? fun e => e.1 = Snap.cycle l).map (·.2)).isSome && !snapDiffers l s then s.modTwn fun x => { x with good := true }
  else s

/-- The mark that the acknowledgement carries, and an adoption that waits for this snapshot. -/
def snapAnswered (l : List Byte) (differs : Bool) (s : State) : State :=
  (if s.twn.adopt = some 0 then (s.modTwn fun x => { x with txK := some (Snap.cycle l, differs) }).adoptHeld (Snap.cycle l) l
    else s.modTwn fun x => { x with txK := some (Snap.cycle l, differs) }).twnRegs

/-- What follows once the snapshot is held. -/
def snapTaken (l : List Byte) (s : State) : State := snapAnswered l (snapDiffers l s) (snapCompared l s)

theorem holdSnapshot_eq (s : State) (l : List Byte) : s.holdSnapshot l = snapTaken l (snapHeld l s) := by
  unfold State.holdSnapshot
  dsimp only
  change _ = snapTaken l ((((((s.modTwn _).modSio _).inc _).followBank _).takeForces _ l))
  rfl

/-- The record of a held snapshot in the twin unit. -/
def twnHeld (l : List Byte) (x : TwnSt) : TwnSt :=
  { x with
    rx := [], rxK := 0, held := some (Snap.cycle l, l), missed := 0, expect := x.expect.filter fun y => Snap.cycle l < y,
    commNext := (l.drop 139520).take 4096 }

/-- The armed bank of the snapshot and its force table. -/
def snapFollowed (l : List Byte) (s : State) : State := (s.followBank (Snap.runId l)).takeForces (Snap.cycle l) l

theorem snapFollowed_kept (l : List Byte) (s : State) : HeldKept s (snapFollowed l s) ∧ (snapFollowed l s).twn = s.twn := by
  refine ⟨(followBank_heldKept s _).trans (takeForces_heldKept _ _ l), ?_⟩
  have hfollow : (s.followBank (Snap.runId l)).twn = s.twn := by
    unfold State.followBank
    split <;> rfl
  have hforces (u : State) : (u.takeForces (Snap.cycle l) l).twn = u.twn := by
    unfold State.takeForces
    split
    · rw [(MiuOp.putForces u _).frame]
    · rfl
  exact (hforces _).trans hfollow

/-- The snapshot's switches. -/
def sioHeld (l : List Byte) (x : SioSt) : SioSt := { x with twinOut := BitVec.ofNat 12 (leAt l 384 4) }

theorem snapHeld_eq (s : State) (l : List Byte) :
    snapHeld l s = snapFollowed l (((s.modTwn (twnHeld l)).modSio (sioHeld l)).inc Reg.TWN_SNAP_COUNT_COMPLETE) := rfl

theorem snapHeld_twn (s : State) (l : List Byte) : (snapHeld l s).twn = twnHeld l s.twn := by
  rw [snapHeld_eq, (snapFollowed_kept l _).2]
  rfl

theorem snapHeld_counts (s : State) (l : List Byte) :
    (snapHeld l s).rd Reg.TWN_SNAP_COUNT_COMPLETE = up s Reg.TWN_SNAP_COUNT_COMPLETE ∧
      (snapHeld l s).rd Reg.TWN_CMP_STATE_DIFF = s.rd Reg.TWN_CMP_STATE_DIFF := by
  have hk := (snapFollowed_kept l (((s.modTwn (twnHeld l)).modSio (sioHeld l)).inc Reg.TWN_SNAP_COUNT_COMPLETE)).1
  rw [snapHeld_eq]
  exact ⟨hk.complete.trans (rd_inc_up _ _), hk.differs.trans (State.rd_inc_ne _ _ _ (by decide))⟩

theorem snapAnswered_kept (s : State) (l : List Byte) (b : Bool) :
    (snapAnswered l b s).twn = { s.twn with txK := some (Snap.cycle l, b), adopt := (snapAnswered l b s).twn.adopt, kept := (snapAnswered l b s).twn.kept } ∧
      (snapAnswered l b s).rd Reg.TWN_SNAP_COUNT_COMPLETE = s.rd Reg.TWN_SNAP_COUNT_COMPLETE ∧
      (snapAnswered l b s).rd Reg.TWN_CMP_STATE_DIFF = s.rd Reg.TWN_CMP_STATE_DIFF ∧
      (s.twn.adopt.isSome = true → (snapAnswered l b s).twn.adopt.isSome = true) := by
  unfold snapAnswered
  split
  next h =>
    have hsome : (s.modTwn fun x => { x with txK := some (Snap.cycle l, b) }).twn.adopt.isSome = true :=
      (congrArg Option.isSome (show (s.modTwn fun x => { x with txK := some (Snap.cycle l, b) }).twn.adopt = some 0 from h))
    obtain ⟨hk, hadopt⟩ := adoptHeld_heldKept (s.modTwn fun x => { x with txK := some (Snap.cycle l, b) }) (Snap.cycle l) l hsome
    have hall := hk.trans (twnRegs_heldKept _)
    exact ⟨hall.twn, hall.complete, hall.differs, fun _ => by rw [twnRegs_twn]; exact hadopt⟩
  next h =>
    have hall := twnRegs_heldKept (s.modTwn fun x => { x with txK := some (Snap.cycle l, b) })
    exact ⟨hall.twn, hall.complete, hall.differs, fun hs => by rw [twnRegs_twn]; exact hs⟩

theorem snapCompared_kept (s : State) (l : List Byte) :
    (snapCompared l s).twn = { s.twn with adopt := (snapCompared l s).twn.adopt, good := (snapCompared l s).twn.good } ∧
      (snapCompared l s).rd Reg.TWN_SNAP_COUNT_COMPLETE = s.rd Reg.TWN_SNAP_COUNT_COMPLETE := by
  have hmis : (s.mismatch Reg.TWN_CMP_STATE_DIFF).rd Reg.TWN_SNAP_COUNT_COMPLETE = s.rd Reg.TWN_SNAP_COUNT_COMPLETE := by
    unfold State.mismatch
    rw [twnRegs_keeps _ _ (by decide)]
    exact (keepsRegs_diag _ _ _ _ _ _ _ (by decide)).trans (State.rd_inc_ne s _ _ (by decide))
  unfold snapCompared
  split
  · exact ⟨by rw [(mismatch_done s (by decide) (by decide)).2], hmis⟩
  · split
    · exact ⟨rfl, rfl⟩
    · exact ⟨rfl, rfl⟩

theorem snapCompared_equal {l : List Byte} (hv : s.twn.own.find? (fun e => e.1 = Snap.cycle l) = some (Snap.cycle l, stateCrc l)) :
    snapCompared l s = s.modTwn fun x => { x with good := true } := by
  have hd : snapDiffers l s = false := by
    unfold snapDiffers
    rw [hv]
    simp
  unfold snapCompared
  rw [hd, hv]
  rfl

theorem snapCompared_differs {l : List Byte} {v : Nat} (hv : s.twn.own.find? (fun e => e.1 = Snap.cycle l) = some (Snap.cycle l, v))
    (hne : v ≠ stateCrc l) (hc : s.chasing = false) : snapCompared l s = s.mismatch Reg.TWN_CMP_STATE_DIFF := by
  have hd : snapDiffers l s = true := by
    unfold snapDiffers
    rw [hv]
    simpa using hne
  unfold snapCompared
  rw [hd, hc]
  rfl

theorem snapTaken_held (s : State) (l : List Byte) :
    (snapTaken l s).twn.held = s.twn.held ∧ (snapTaken l s).twn.rx = s.twn.rx ∧ (snapTaken l s).twn.missed = s.twn.missed ∧
      (snapTaken l s).rd Reg.TWN_SNAP_COUNT_COMPLETE = s.rd Reg.TWN_SNAP_COUNT_COMPLETE := by
  obtain ⟨htwn, hcount, -⟩ := snapAnswered_kept (snapCompared l s) l (snapDiffers l s)
  obtain ⟨htwn', hcount'⟩ := snapCompared_kept s l
  unfold snapTaken
  refine ⟨?_, ?_, ?_, hcount.trans hcount'⟩ <;> rw [htwn, htwn']

theorem snapTaken_equal {l : List Byte} (hv : s.twn.own.find? (fun e => e.1 = Snap.cycle l) = some (Snap.cycle l, stateCrc l)) :
    (snapTaken l s).twn.good = true ∧ (snapTaken l s).rd Reg.TWN_CMP_STATE_DIFF = s.rd Reg.TWN_CMP_STATE_DIFF := by
  obtain ⟨htwn, -, hdiff, -⟩ := snapAnswered_kept (snapCompared l s) l (snapDiffers l s)
  unfold snapTaken
  rw [htwn, hdiff, snapCompared_equal hv]
  exact ⟨rfl, rfl⟩

theorem snapTaken_differs {l : List Byte} {v : Nat} (hv : s.twn.own.find? (fun e => e.1 = Snap.cycle l) = some (Snap.cycle l, v))
    (hne : v ≠ stateCrc l) (hc : s.chasing = false) :
    (snapTaken l s).rd Reg.TWN_CMP_STATE_DIFF = up s Reg.TWN_CMP_STATE_DIFF ∧ (snapTaken l s).twn.adopt.isSome = true := by
  obtain ⟨-, -, hdiff, hadopt⟩ := snapAnswered_kept (snapCompared l s) l (snapDiffers l s)
  obtain ⟨hcount, htwn⟩ := mismatch_done s (f := Reg.TWN_CMP_STATE_DIFF) (by decide) (by decide)
  have hcmp := snapCompared_differs hv hne hc
  unfold snapTaken
  refine ⟨?_, hadopt ?_⟩
  · rw [hdiff, hcmp, hcount]
  · rw [hcmp, htwn]
    rfl

/-- The bytes of the snapshot that has been received. -/
def receivedSnap (s : State) : List Byte := (s.twn.rx.flatMap fun e => e.2).take 143624

/-- A later snapshot is held. -/
def laterHeld (s : State) (l : List Byte) : Prop := ∃ k l', s.twn.held = some (k, l') ∧ Snap.cycle l < k

theorem accept_discards (hst : s.standby = true) (hlen : s.twn.rx.length = 562) (hbad : Snap.ok (receivedSnap s) = false ∨ laterHeld s (receivedSnap s)) :
    exec .twinSnapshotAccept s = .next ((s.inc Reg.TWN_SNAP_COUNT_DISCARDED).modTwn fun x => { x with rx := [], rxK := 0 }) := by
  have hx : exec .twinSnapshotAccept s = execTwinSnapshotAccept s := by rfl
  have hlen' : ¬ s.twn.rx.length ≠ Snap.blocks := not_not.2 hlen
  rw [hx, execTwinSnapshotAccept, hst, if_neg (by simpa using hlen'), if_pos]
  rcases hbad with hbad | ⟨k, l', hheld, hlt⟩
  · have hbad' : Snap.ok (List.take Snap.len (List.flatMap (fun e => e.2) s.twn.rx)) = false := hbad
    rw [hbad']
    rfl
  · have hlt' : Snap.cycle (List.take Snap.len (List.flatMap (fun e => e.2) s.twn.rx)) < k := hlt
    rw [hheld]
    dsimp only
    rw [decide_eq_true hlt', Bool.or_true]

theorem accept_holds (hst : s.standby = true) (hlen : s.twn.rx.length = 562) (hok : Snap.ok (receivedSnap s) = true)
    (hnot : ¬ laterHeld s (receivedSnap s)) : exec .twinSnapshotAccept s = .next (s.holdSnapshot (receivedSnap s)) := by
  have hx : exec .twinSnapshotAccept s = execTwinSnapshotAccept s := by rfl
  have hlen' : ¬ s.twn.rx.length ≠ Snap.blocks := not_not.2 hlen
  have hok' : Snap.ok (List.take Snap.len (List.flatMap (fun e => e.2) s.twn.rx)) = true := hok
  rw [hx, execTwinSnapshotAccept, hst, if_neg (by simpa using hlen'), hok', if_neg]
  · rfl
  · rcases hheld : s.twn.held with - | ⟨k, l'⟩
    · exact Bool.false_ne_true
    · intro h
      exact hnot ⟨k, l', hheld, of_decide_eq_true h⟩

theorem twinSnapshotAccept_held (hst : s.standby = true) (hlen : s.twn.rx.length = 562) (hok : Snap.ok (receivedSnap s) = true)
    (hnot : ¬ laterHeld s (receivedSnap s)) :
    ∃ t, exec .twinSnapshotAccept s = .next t ∧ t.twn.held = some (Snap.cycle (receivedSnap s), receivedSnap s) ∧ t.twn.rx = [] ∧
      t.twn.missed = 0 ∧ t.rd Reg.TWN_SNAP_COUNT_COMPLETE = up s Reg.TWN_SNAP_COUNT_COMPLETE ∧
      (s.chasing = false → ∀ v, s.twn.own.find? (fun e => e.1 = Snap.cycle (receivedSnap s)) = some (Snap.cycle (receivedSnap s), v) →
        (v = stateCrc (receivedSnap s) → t.twn.good = true ∧ t.rd Reg.TWN_CMP_STATE_DIFF = s.rd Reg.TWN_CMP_STATE_DIFF) ∧
        (v ≠ stateCrc (receivedSnap s) → t.rd Reg.TWN_CMP_STATE_DIFF = up s Reg.TWN_CMP_STATE_DIFF ∧ t.twn.adopt.isSome = true)) := by
  refine ⟨_, accept_holds hst hlen hok hnot, ?_⟩
  rw [holdSnapshot_eq]
  generalize receivedSnap s = l
  obtain ⟨hheld, hrx, hmissed, hcount⟩ := snapTaken_held (snapHeld l s) l
  obtain ⟨hcount', hdiff⟩ := snapHeld_counts s l
  have htwn := snapHeld_twn s l
  have hchasing : (snapHeld l s).chasing = s.chasing := chasing_congr (by rw [htwn]; rfl)
  refine ⟨by rw [hheld, htwn]; rfl, by rw [hrx, htwn]; rfl, by rw [hmissed, htwn]; rfl, hcount.trans hcount', fun hc v hv => ⟨?_, fun hne => ?_⟩⟩
  · rintro rfl
    obtain ⟨hgood, hsame⟩ := snapTaken_equal (s := snapHeld l s) (l := l) (by rw [htwn]; exact hv)
    exact ⟨hgood, hsame.trans hdiff⟩
  · obtain ⟨hup, hadopt⟩ := snapTaken_differs (s := snapHeld l s) (l := l) (by rw [htwn]; exact hv) hne (hchasing.trans hc)
    refine ⟨hup.trans ?_, hadopt⟩
    unfold up
    rw [hdiff]

/-! ### Acknowledgement (R378) -/

/-- The acknowledgement of a snapshot in the twin unit. -/
def twnAcked (k : Nat) (mm : Bool) (x : TwnSt) : TwnSt :=
  { x with sent := x.sent.map fun e => if e.1 = k then (k, some mm) else e, kSnap := max x.kSnap k }

theorem rdb_partnerCurrent (s : State) : s.twnRegs.rdb Reg.TWN_STATUS_PARTNER_CURRENT = (decide (s.md.role = .active) && s.partnerCurrent) := by
  have hlast (w : State) (v : Bool) (a b : Nat) : (((w.wrb Reg.TWN_STATUS_PARTNER_CURRENT v).wr Reg.TWN_STATUS_LEASE_LEFT a).wr
      Reg.TWN_SNAP_HELD_CYCLE b).rdb Reg.TWN_STATUS_PARTNER_CURRENT = v := by
    have h := (State.rd_wr_ne ((w.wrb Reg.TWN_STATUS_PARTNER_CURRENT v).wr Reg.TWN_STATUS_LEASE_LEFT a) Reg.TWN_SNAP_HELD_CYCLE
      Reg.TWN_STATUS_PARTNER_CURRENT b (by decide)).trans
        (State.rd_wr_ne (w.wrb Reg.TWN_STATUS_PARTNER_CURRENT v) Reg.TWN_STATUS_LEASE_LEFT Reg.TWN_STATUS_PARTNER_CURRENT a (by decide))
    exact (rdb_of_rd h).trans (State.rdb_wrb_same w (by decide) v)
  unfold State.twnRegs
  exact hlast _ _ _ _

theorem snapshotAcknowledgement_noted (hdown : s.down = false) (htwin : s.twin = true) (hrole : s.md.role = .active) {k : Nat} (hk : k ≤ s.tm.cyc)
    (mm : Bool) : ∃ t, exec (.snapshotAcknowledgement k mm) s = .next t ∧ t.twn = twnAcked k mm s.twn ∧
      t.rdb Reg.TWN_STATUS_PARTNER_CURRENT = t.partnerCurrent ∧ keepsRegs s t twnFlds ∧ onlyTwn s t := by
  have hx : exec (.snapshotAcknowledgement k mm) s = execSnapshotAcknowledgement k mm s := by rfl
  have hgo : (s.twin && decide (s.md.role = .active) && !s.down && decide (k ≤ s.tm.cyc)) = true := by
    rw [htwin, hrole, hdown, decide_eq_true hk]
    rfl
  refine ⟨(s.modTwn (twnAcked k mm)).twnRegs, ?_, twnRegs_twn _, ?_, twnRegs_keeps _, onlyTwn_twnRegs rfl⟩
  · rw [hx, execSnapshotAcknowledgement, hgo, if_pos rfl]
    rfl
  · have hpc : (s.modTwn (twnAcked k mm)).twnRegs.partnerCurrent = (s.modTwn (twnAcked k mm)).partnerCurrent := by
      unfold State.partnerCurrent
      rw [twnRegs_twn]
    have hact : (s.modTwn (twnAcked k mm)).md.role = .active := hrole
    rw [hpc, rdb_partnerCurrent, hact]
    rfl

/-! ### The chase of an adoption (R374) -/

/-- The steps of a chase in several channels. -/
structure ChasesOf (s t : State) : Prop where
  frame : t = { s with regs := t.regs, chs := t.chs, md := t.md }
  voters : t.voters = s.voters
  latest : ∀ clk, t.latestStart clk = s.latestStart clk
  regs : ∀ g : Fld, chanKey g.key = false → (∀ f ∈ agreeFlds, g.key ≠ f.key) → t.rd g = s.rd g

theorem ChaseOf.chasesOf (h : ChaseOf c s t) : ChasesOf s t := ⟨h.frame, h.voters, h.latestStart, h.regs⟩

theorem ChasesOf.refl (s : State) : ChasesOf s s := ⟨rfl, rfl, fun _ => rfl, fun _ _ _ => rfl⟩

theorem ChasesOf.trans (h : ChasesOf s t) (h' : ChasesOf t u) : ChasesOf s u :=
  ⟨by rw [h'.frame, h.frame], h'.voters.trans h.voters, fun k => (h'.latest k).trans (h.latest k),
    fun g hg hl => (h'.regs g hg hl).trans (h.regs g hg hl)⟩

/-- A kept cycle re-executed in a channel of the standby. -/
def chaseChan (x : Kept) (p : Nat × State) (c : Ch) : Nat × State :=
  (Max.max p.1 (p.2.chase c x).1, (p.2.chase c x).2.modCh c fun h => { h with ownForces := none })

theorem chaseChan_chasesOf (x : Kept) (cs : List Ch) (p : Nat × State) : ChasesOf p.2 (cs.foldl (chaseChan x) p).2 := by
  induction cs generalizing p with
  | nil => exact ChasesOf.refl p.2
  | cons c cs ih =>
    have hmod (t : State) : ChaseOf c t (t.modCh c fun h => { h with ownForces := none }) := ChaseOf.modCh t rfl rfl rfl
    exact ((chase_chaseOf p.2 c x).trans (hmod _)).chasesOf.trans (ih (chaseChan x p c))

/-- The end of a chase cycle of an adoption. -/
def adoptEnd (x : Kept) (k startNs : Nat) (r : Nat × State) : State :=
  if r.2.voters.any fun c => some (r.2.ch c).acc ≠ x.acc then r.2.adoptFails
  else if x.k = r.2.tm.cyc && startNs ≤ r.2.latestStart r.1 + 10000 then r.2.adopted
  else r.2.modTwn fun y => { y with adopt := some (k + 2) }

theorem adoptCycle_kept {x : Kept} {k : Nat} (hx : s.twn.kept.find? (fun x => x.k = k) = some x) (startNs : Nat) :
    s.adoptCycle k startNs = adoptEnd x k startNs (s.voters.foldl (chaseChan x) (0, s)) := by
  unfold State.adoptCycle
  rw [hx]
  rfl

theorem chaseCycle_standby (hst : s.standby = true) {rx : Ch} (hrx : s.inVote rx = true) {k : Nat} (hadopt : s.twn.adopt = some (k + 1))
    (startNs : Nat) : exec (.chaseCycle rx startNs) s = .next (s.adoptCycle k startNs) := by
  have hx : exec (.chaseCycle rx startNs) s = execChaseCycle rx startNs s := by rfl
  rw [hx, execChaseCycle, hst, hrx, hadopt]
  rfl

theorem adoptFails_done (s : State) : s.adoptFails.rd Reg.TWN_CMP_ADOPT_FAIL = up s Reg.TWN_CMP_ADOPT_FAIL ∧
    s.adoptFails.twn = { s.twn with adopt := some 0 } ∧ onlyTwn s s.adoptFails := by
  unfold State.adoptFails
  refine ⟨?_, twnRegs_twn _, onlyTwn_twnRegs rfl⟩
  rw [twnRegs_keeps _ _ (by decide)]
  exact rd_inc_up s _

theorem adopted_done (s : State) : s.adopted.rd Reg.TWN_CMP_ADOPTED = up s Reg.TWN_CMP_ADOPTED ∧
    s.adopted.twn = { s.twn with adopt := none, good := true, missed := 0 } ∧ s.adopted.chs = s.chs := by
  unfold State.adopted
  refine ⟨?_, twnRegs_twn _, by rw [twnRegs_frame]; rfl⟩
  rw [twnRegs_keeps _ _ (by decide)]
  exact rd_inc_up s _

theorem adoptEnd_done {x : Kept} {k startNs : Nat} {r : Nat × State} (hr : ChasesOf s r.2) (hk : x.k = k) (hacc : ∀ c ∈ s.voters, some (r.2.ch c).acc = x.acc) :
    (adoptEnd x k startNs r).chs = r.2.chs ∧
      (k = s.tm.cyc → startNs ≤ s.latestStart r.1 + 10000 → (adoptEnd x k startNs r).rd Reg.TWN_CMP_ADOPTED = up s Reg.TWN_CMP_ADOPTED ∧
        (adoptEnd x k startNs r).twn.adopt = none ∧ (adoptEnd x k startNs r).twn.good = true) ∧
      (k ≠ s.tm.cyc → (adoptEnd x k startNs r).twn.adopt = some (k + 2)) := by
  have hnone : (r.2.voters.any fun c => some (r.2.ch c).acc ≠ x.acc) = false := by
    rw [hr.voters]
    exact List.any_eq_false.2 fun c hc => by simpa using hacc c hc
  have hcyc : r.2.tm.cyc = s.tm.cyc := by rw [hr.frame]
  have hcount : up r.2 Reg.TWN_CMP_ADOPTED = up s Reg.TWN_CMP_ADOPTED := by
    unfold up
    rw [hr.regs _ (by decide) (by decide)]
  obtain ⟨hup, htwn, hchs⟩ := adopted_done r.2
  unfold adoptEnd
  rw [hnone, if_neg (by decide), hcyc, hk, hr.latest]
  refine ⟨?_, fun heq hle => ?_, fun hne => ?_⟩
  · split
    · exact hchs
    · rfl
  · rw [if_pos (by rw [decide_eq_true heq, decide_eq_true hle]; rfl), hup, hcount, htwn]
    exact ⟨rfl, rfl, rfl⟩
  · rw [if_neg (by rw [decide_eq_false hne]; exact Bool.false_ne_true)]
    rfl

theorem chaseCycle_missing (hst : s.standby = true) {rx : Ch} (hrx : s.inVote rx = true) {k : Nat} (hadopt : s.twn.adopt = some (k + 1))
    (startNs : Nat) (hnone : s.twn.kept.find? (fun x => x.k = k) = none) (hlt : k < s.tm.cyc) :
    exec (.chaseCycle rx startNs) s = .next s.adoptFails := by
  rw [chaseCycle_standby hst hrx hadopt, State.adoptCycle, hnone]
  dsimp only
  rw [if_pos (by rw [decide_eq_true hlt]; rfl)]

/-- Settles O48, the blocks and the acceptance of a snapshot, its acknowledgement, and the chase of an adoption cycle by cycle. -/
theorem twinSnapshots : Obligations.TwinSnapshots := by
  unfold Obligations.TwinSnapshots
  intro s hdown htwin
  refine ⟨fun hrole hup b => ?_, fun hrole hlen => ?_, fun k mm hrole hk => snapshotAcknowledgement_noted hdown htwin hrole hk mm,
    fun hrole rx k startNs hrx hadopt => ?_⟩
  · have hst := standby_of hdown htwin hrole
    refine ⟨fun hb => ⟨_, block_starts hst hup hb, ?_, partDropped_count s, ?_⟩, fun hk idx hidx => ⟨fun hb hlt hnext =>
      block_follows hst hup hk hidx hb hlt hnext, _, block_drops b hst hup hk, rfl, dropUnit_regs s, rfl⟩⟩
    · change { (partDropped s).twn with rx := [(0, b)], rxK := 0 } = _
      rw [(partDropped_op s).frame]
    · have hframe := (partDropped_op s).frame
      unfold onlyTwn State.modTwn
      rw [hframe]
  · have hst := standby_of hdown htwin hrole
    refine ⟨fun hbad => ⟨_, accept_discards hst hlen hbad, rfl, regsTo_inc s _, rfl⟩, fun hok hnot => ?_⟩
    exact twinSnapshotAccept_held hst hlen hok hnot
  · have hst := standby_of hdown htwin hrole
    refine ⟨fun hnone hlt => ⟨_, chaseCycle_missing hst hrx hadopt startNs hnone hlt, adoptFails_done s⟩, fun x hx => ?_⟩
    have hk : x.k = k := by simpa using List.find?_some hx
    exact ⟨_, (chaseCycle_standby hst hrx hadopt startNs).trans (congrArg _ (adoptCycle_kept hx startNs)),
      adoptEnd_done (chaseChan_chasesOf x s.voters (0, s)) hk⟩

end Sys2Proof.Claims
end

section
/-! The transfer of a snapshot to an excluded channel. -/

namespace Sys2Proof.Claims

open Sys2Proof Sys2Proof.Machine

variable {s t u : State} {c rx : Ch}

/-! ### A failed attempt (R190) -/

/-- The registers of a failed attempt. -/
def failNoted (s : State) (c : Ch) (code : Nat) : State :=
  (((s.inc Reg.VOT_RESYNC_FAIL_COUNT).wr Reg.VOT_RESYNC_FAIL_CHANNEL (Ch.num c)).wr Reg.VOT_RESYNC_FAIL_REASON code).wr Reg.VOT_RESYNC_STAGE 6

theorem failNoted_rd (s : State) (c : Ch) {code : Nat} (hcode : code < 2 ^ Reg.VOT_RESYNC_FAIL_REASON.width) :
    (failNoted s c code).rd Reg.VOT_RESYNC_FAIL_REASON = code ∧ (failNoted s c code).rd Reg.VOT_RESYNC_FAIL_CHANNEL = Ch.num c ∧
      (failNoted s c code).rd Reg.VOT_RESYNC_FAIL_COUNT = up s Reg.VOT_RESYNC_FAIL_COUNT ∧ (failNoted s c code).rd Reg.VOT_RESYNC_STAGE = 6 := by
  have hnum : Ch.num c < 2 ^ Reg.VOT_RESYNC_FAIL_CHANNEL.width := by cases c <;> decide
  unfold failNoted
  refine ⟨?_, ?_, ?_, ?_⟩
  · rw [State.rd_wr_ne _ _ _ _ (by decide)]
    exact State.rd_wr_of_lt _ hcode
  · rw [State.rd_wr_ne _ _ _ _ (by decide), State.rd_wr_ne _ _ _ _ (by decide)]
    exact State.rd_wr_of_lt _ hnum
  · rw [State.rd_wr_ne _ _ _ _ (by decide), State.rd_wr_ne _ _ _ _ (by decide), State.rd_wr_ne _ _ _ _ (by decide)]
    exact rd_inc_up s _
  · exact State.rd_wr_of_lt _ (by decide)

theorem failAttempt_logged (s : State) (c : Ch) (code : Nat) : keepsRegs (failNoted s c code) (s.failAttempt c code) logFlds := by
  have hlog (t : State) (f : Chan → Chan) (sev src inst off : Nat) (l : List Nat) : keepsRegs t ((t.modCh c f).diag sev src inst off l) logFlds :=
    (keepsRegs_of_eq (s := t) (t := t.modCh c f) rfl logFlds).trans (keepsRegs_diag _ sev src inst off l)
  have hite {p : Prop} [Decidable p] {v t u : State} (ht : keepsRegs v t logFlds) (hu : keepsRegs v u logFlds) :
      keepsRegs v (if p then t else u) logFlds := by
    split
    · exact ht
    · exact hu
  have hfail (f : Chan → Chan) := hlog (failNoted s c code) f 5 Src.vot 0 0x00600044 []
  have hretire (t : State) : keepsRegs t (t.retire c) logFlds := hlog t _ _ _ _ _ _
  unfold State.failAttempt
  exact hite ((hfail _).trans (hretire _)) (hfail _)

theorem failAttempt_failed (s : State) (c : Ch) {code : Nat} (hcode : code < 2 ^ Reg.VOT_RESYNC_FAIL_REASON.width) :
    failedWith s (s.failAttempt c code) c code := by
  have hlog := failAttempt_logged s c code
  obtain ⟨hreason, hchan, hcount, hstage⟩ := failNoted_rd s c hcode
  exact ⟨(hlog _ (by decide)).trans hreason, (hlog _ (by decide)).trans hchan, (hlog _ (by decide)).trans hcount, (hlog _ (by decide)).trans hstage,
    (failAttempt_attemptOp s c code).others⟩

/-- An attempt that fails after steps that leave its registers and the other channels alone. -/
theorem failedWith.after {code : Nat} (h : failedWith t u c code) (hcount : t.rd Reg.VOT_RESYNC_FAIL_COUNT = s.rd Reg.VOT_RESYNC_FAIL_COUNT)
    (hothers : ∀ d, d ≠ c → t.ch d = s.ch d) : failedWith s u c code := by
  obtain ⟨hreason, hchan, hup, hstage, hch⟩ := h
  refine ⟨hreason, hchan, hup.trans ?_, hstage, fun d hd => (hch d hd).trans (hothers d hd)⟩
  unfold up
  rw [hcount]

/-! ### Sending (R182) -/

theorem snapshot_read (s : State) (c : Ch) (sender : Nat) : ReadOf c s (s.snapshot c sender).2 := by
  have hwords {f : State → Nat → Psn Word × State} (hf : ∀ t i, ReadOf c t (f t i).2) (t : State) (n : Nat) : ReadOf c t (t.readWords f n).2 := by
    unfold State.readWords
    refine ReadOf.foldl (fun p i => ?_) _ (([] : List Word), t)
    exact hf p.2 i
  have himg := hwords (fun t i => readImg_read c t none i) s Img.size
  have htc (t : State) (counter : Bool) (k : Nat) : ReadOf c t (t.readTc c counter k).2 := readMapCw_read c t _
  have htim (u : State) := hwords (fun t k => htc t false k) u 4096
  have hcnt (u : State) := hwords (fun t k => htc t true k) u 4096
  unfold State.snapshot
  split
  rename_i u hu
  rw [hu] at himg
  split
  rename_i v hv
  have htim := htim u
  rw [hv] at htim
  split
  rename_i w hw
  have hcnt := hcnt v
  rw [hw] at hcnt
  exact (himg.trans htim).trans hcnt

/-- A sender's snapshot goes out. -/
def sendSnap (c : Ch) (s : State) : State :=
  (s.snapshot c (Ch.num c)).2.modCh c fun h => { h with sendPsn := s.sendBad c, sent := (s.snapshot c (Ch.num c)).1 }

/-- What the senders' snapshots change: the senders and the registers of their memories. -/
structure SendsOf (c : Ch) (s t : State) : Prop where
  frame : t = { s with regs := t.regs, chs := t.chs }
  others : ∀ d, d ≠ c → t.ch d = s.ch d
  regs : ∀ g : Fld, chanKey g.key = false → t.rd g = s.rd g

theorem SendsOf.sent (h : RunOf c s t) (f : Chan → Chan) : SendsOf c s (t.modCh c f) :=
  ⟨by rw [State.modCh, h.frame], fun d hd => (State.ch_modCh_ne t f hd).trans (h.others d hd), fun g hg => h.regs g (runKey_of_chanKey hg)⟩

theorem sendSnap_op (c : Ch) (s : State) : SendsOf c s (sendSnap c s) := .sent (snapshot_read s c (Ch.num c)).runOf _

/-- Every channel in the vote sends. -/
def sendSnaps (s : State) : State := foldSt s.voters sendSnap s

theorem sendSnaps_regs (s : State) {g : Fld} (hg : chanKey g.key = false) : (sendSnaps s).rd g = s.rd g :=
  foldSt_inv (P := fun t => t.rd g = s.rd g) (fun c _ t ht => ((sendSnap_op c t).regs g hg).trans ht) rfl

theorem sendSnaps_frame (s : State) : sendSnaps s = { s with regs := (sendSnaps s).regs, chs := (sendSnaps s).chs } :=
  foldSt_inv (P := fun t => t = { s with regs := t.regs, chs := t.chs }) (fun c _ t ht => by rw [(sendSnap_op c t).frame, ht]) rfl

theorem sendSnaps_other (h : s.inVote c = false) : (sendSnaps s).ch c = s.ch c :=
  foldSt_inv (P := fun t => t.ch c = s.ch c) (fun d hd t ht => by
    have hne : c ≠ d := by
      rintro rfl
      have := (List.mem_filter.1 hd).2
      rw [h] at this
      exact Bool.false_ne_true this
    exact ((sendSnap_op d t).others c hne).trans ht) rfl

theorem sendBad_congr (h : t.ch c = s.ch c) : t.sendBad c = s.sendBad c := by
  unfold State.sendBad
  rw [h]

theorem voters_nodup (s : State) : s.voters.Nodup := nodup_chans _

theorem sendSnaps_marks (hc : c ∈ s.voters) : ((sendSnaps s).ch c).sendPsn = s.sendBad c := by
  refine foldSt_at (c := c) (P := fun t => t.ch c = s.ch c) (Q := fun t => (t.ch c).sendPsn = s.sendBad c)
    (fun d hd t ht => ((sendSnap_op d t).others c hd.symm).trans ht) (fun t ht => ?_)
    (fun d hd t ht => (congrArg Chan.sendPsn ((sendSnap_op d t).others c hd.symm)).trans ht) (voters_nodup s) hc rfl
  unfold sendSnap
  rw [State.ch_modCh_same]
  exact sendBad_congr ht

/-- The attempt of a receiver that starts to wait in a cycle. -/
def waitsFrom (first : Bool) (opNs cyc : Nat) (a : Attempt) : Attempt :=
  { a with startOp := if first then opNs + 1 else a.startOp, startCyc := if first then cyc else a.startCyc, copies := [], nextK := cyc + 1 }

/-- The first transfer of an attempt is counted. -/
def attemptCounted (first : Bool) (s : State) : State := if first then s.inc Reg.VOT_RESYNC_ATTEMPTS else s

/-- The receiver waits, and the registers show it. -/
def receiverWaits (rx : Ch) (first : Bool) (s : State) : State :=
  (((attemptCounted first (s.modCh rx fun h => { h with st := .resync, attempt := h.attempt.map (waitsFrom first s.tm.opNs s.tm.cyc) })).wr
    Reg.VOT_RESYNC_STAGE 2).wr Reg.VOT_RESYNC_CHANNEL (Ch.num rx)).wr Reg.VOT_RESYNC_CHASED 0

/-- The condition of a transfer. -/
def transferGoes (s : State) (rx : Ch) : Bool :=
  (s.ch rx).served && s.resyncMode && s.voters.length = 2 && s.voters.any s.completed && !s.down

theorem snapshotSend_goes {a : Attempt} (hgo : transferGoes s rx = true) (ha : ((sendSnaps s).ch rx).attempt = some a) :
    exec (.snapshotSend rx) s = .next (if (s.ch rx).waiting then receiverWaits rx (decide (a.startOp = 0)) (sendSnaps s) else sendSnaps s) := by
  have hx : exec (.snapshotSend rx) s = execSnapshotSend rx s := by rfl
  have hgo' : ((s.ch rx).served && s.resyncMode && s.voters.length = 2 && s.voters.any s.completed && !s.down) = true := hgo
  have hsend : (foldSt s.voters (fun c s =>
      (s.snapshot c (Ch.num c)).2.modCh c fun h => { h with sendPsn := s.sendBad c, sent := (s.snapshot c (Ch.num c)).1 }) s) = sendSnaps s := rfl
  rw [hx, execSnapshotSend]
  dsimp only
  rw [hgo', if_neg (by decide), hsend, ha]
  by_cases hw : (s.ch rx).waiting = true
  · rw [hw, if_neg (by decide), if_pos rfl]
    rfl
  · rw [eq_false_of_ne_true hw, if_pos (by decide), if_neg (by decide)]

theorem transfer_served (h : (s.ch rx).waiting = true) : (s.ch rx).served = true := by
  unfold Chan.waiting at h
  unfold Chan.served
  rcases hatt : (s.ch rx).attempt with - | a
  · rw [hatt] at h
    simp at h
  · simp only [hatt, Bool.and_eq_true, Bool.or_eq_true, Option.isSome_some, and_true] at h ⊢
    exact ⟨Or.inl h.1.1, h.1.2⟩

theorem served_notVoting (h : (s.ch rx).served = true) : s.inVote rx = false := by
  unfold Chan.served at h
  unfold State.inVote
  simp only [Bool.and_eq_true, Bool.or_eq_true, decide_eq_true_eq] at h
  refine decide_eq_false fun hv => ?_
  rw [hv] at h
  simp at h

theorem attemptCounted_rd (first : Bool) (s : State) : (attemptCounted first s).rd Reg.VOT_RESYNC_ATTEMPTS =
    if first then up s Reg.VOT_RESYNC_ATTEMPTS else s.rd Reg.VOT_RESYNC_ATTEMPTS := by
  cases first
  · rfl
  · exact rd_inc_up s _

theorem attemptCounted_chs (first : Bool) (s : State) : (attemptCounted first s).chs = s.chs := by
  cases first <;> rfl

theorem receiverWaits_rd (rx : Ch) (first : Bool) (s : State) :
    (receiverWaits rx first s).rd Reg.VOT_RESYNC_STAGE = 2 ∧ (receiverWaits rx first s).rd Reg.VOT_RESYNC_CHANNEL = Ch.num rx ∧
      (receiverWaits rx first s).rd Reg.VOT_RESYNC_CHASED = 0 ∧
      (receiverWaits rx first s).rd Reg.VOT_RESYNC_ATTEMPTS =
        if first then up s Reg.VOT_RESYNC_ATTEMPTS else s.rd Reg.VOT_RESYNC_ATTEMPTS := by
  have hnum : Ch.num rx < 2 ^ Reg.VOT_RESYNC_CHANNEL.width := by cases rx <;> decide
  unfold receiverWaits
  refine ⟨?_, ?_, State.rd_wr_of_lt _ (by decide), ?_⟩
  · rw [State.rd_wr_ne _ _ _ _ (by decide), State.rd_wr_ne _ _ _ _ (by decide)]
    exact State.rd_wr_of_lt _ (by decide)
  · rw [State.rd_wr_ne _ _ _ _ (by decide)]
    exact State.rd_wr_of_lt _ hnum
  · rw [State.rd_wr_ne _ _ _ _ (by decide), State.rd_wr_ne _ _ _ _ (by decide), State.rd_wr_ne _ _ _ _ (by decide)]
    exact attemptCounted_rd first _

theorem receiverWaits_ch (rx : Ch) (first : Bool) (s : State) : (receiverWaits rx first s).ch rx =
    { s.ch rx with st := .resync, attempt := (s.ch rx).attempt.map (waitsFrom first s.tm.opNs s.tm.cyc) } := by
  unfold receiverWaits
  rw [State.ch_wr, State.ch_wr, State.ch_wr, State.ch, attemptCounted_chs]
  exact State.ch_modCh_same s rx _

theorem receiverWaits_ch_ne (first : Bool) (s : State) (h : c ≠ rx) : (receiverWaits rx first s).ch c = s.ch c := by
  unfold receiverWaits
  rw [State.ch_wr, State.ch_wr, State.ch_wr, State.ch, attemptCounted_chs]
  exact State.ch_modCh_ne s _ h

theorem transferGoes_of (hserved : (s.ch rx).served = true) (hdown : s.down = false) (hmode : s.resyncMode = true) (hlen : s.voters.length = 2)
    (hany : s.voters.any s.completed = true) : transferGoes s rx = true := by
  unfold transferGoes
  rw [hserved, hmode, hlen, hany, hdown]
  rfl

theorem snapshotSend_waits {a : Attempt} (hdown : s.down = false) (ha : (s.ch rx).attempt = some a) (hwait : (s.ch rx).waiting = true)
    (hmode : s.resyncMode = true) (hlen : s.voters.length = 2) (hany : s.voters.any s.completed = true) :
    ∃ t, exec (.snapshotSend rx) s = .next t ∧ t.rd Reg.VOT_RESYNC_STAGE = 2 ∧ t.rd Reg.VOT_RESYNC_CHANNEL = Ch.num rx ∧
      t.rd Reg.VOT_RESYNC_CHASED = 0 ∧
      t.rd Reg.VOT_RESYNC_ATTEMPTS = (if a.startOp = 0 then up s Reg.VOT_RESYNC_ATTEMPTS else s.rd Reg.VOT_RESYNC_ATTEMPTS) ∧
      t.ch rx = { s.ch rx with st := .resync, attempt := some (waitsFrom (decide (a.startOp = 0)) s.tm.opNs s.tm.cyc a) } ∧
      ∀ c ∈ s.voters, (t.ch c).sendPsn = s.sendBad c := by
  have hserved := transfer_served hwait
  have hnot := served_notVoting hserved
  have hrx := sendSnaps_other hnot
  have htm : (sendSnaps s).tm = s.tm := by rw [sendSnaps_frame]
  have hatt := sendSnaps_regs s (g := Reg.VOT_RESYNC_ATTEMPTS) (by decide)
  refine ⟨_, (snapshotSend_goes (transferGoes_of hserved hdown hmode hlen hany) (hrx ▸ ha)).trans (by rw [hwait, if_pos rfl]), ?_⟩
  obtain ⟨hstage, hchan, hchased, hcount⟩ := receiverWaits_rd rx (decide (a.startOp = 0)) (sendSnaps s)
  refine ⟨hstage, hchan, hchased, ?_, ?_, fun c hc => ?_⟩
  · rw [hcount, up, hatt]
    simp only [decide_eq_true_eq]
    rfl
  · rw [receiverWaits_ch, hrx, htm, ha]
    rfl
  · have hne : c ≠ rx := by
      rintro rfl
      exact Bool.false_ne_true (hnot.symm.trans (List.mem_filter.1 hc).2)
    rw [receiverWaits_ch_ne _ _ hne]
    exact sendSnaps_marks hc

theorem snapshotSend_serves {a : Attempt} (hdown : s.down = false) (ha : (s.ch rx).attempt = some a) (hserved : (s.ch rx).served = true)
    (hwait : (s.ch rx).waiting = false) (hmode : s.resyncMode = true) (hlen : s.voters.length = 2) (hany : s.voters.any s.completed = true) :
    ∃ t, exec (.snapshotSend rx) s = .next t ∧ t.ch rx = s.ch rx ∧ t.rd Reg.VOT_RESYNC_STAGE = s.rd Reg.VOT_RESYNC_STAGE ∧
      ∀ c ∈ s.voters, (t.ch c).sendPsn = s.sendBad c := by
  have hrx := sendSnaps_other (served_notVoting hserved)
  exact ⟨_, (snapshotSend_goes (transferGoes_of hserved hdown hmode hlen hany) (hrx ▸ ha)).trans (by rw [hwait]; rfl), hrx,
    sendSnaps_regs s (by decide), fun c hc => sendSnaps_marks hc⟩

end Sys2Proof.Claims
end

section
/-! The blocks of a snapshot, its acceptance, and the timeout: the transfer of a snapshot of O46. -/

namespace Sys2Proof.Claims

open Sys2Proof Sys2Proof.Machine

variable {s t u : State} {c rx tx : Ch}

/-! ### Blocks (R182, R183) -/

/-- A block goes into the copy of its sender; a block of the first stream is written at once. -/
def blockTaken (rx tx : Ch) (a : Attempt) (idx : Nat) (bad : Bool) (b : List Byte) (s : State) : State :=
  (if firstStream a.copies tx then s.restoreBytes rx (idx * 256) b else s).modCh rx fun h =>
    { h with attempt := some { a with copies := addBlock a.copies tx idx b bad } }

theorem snapshotBlock_takes {a : Attempt} {idx : Nat} {bad : Bool} {b : List Byte} (hdown : s.down = false) (ha : (s.ch rx).attempt = some a)
    (hst : (s.ch rx).st = .resync) (hwait : (s.ch rx).waiting = true) (hne : rx ≠ tx) (hvote : s.inVote tx = true) (hidx : idx < 562)
    (hb : b.length = 256) : exec (.snapshotBlock rx tx idx true bad b) s =
      .next (blockTaken rx tx a idx (decide (idx = Snap.blocks - 1) && (bad || (s.ch tx).sendPsn)) b s) := by
  have hx : exec (.snapshotBlock rx tx idx true bad b) s = execSnapshotBlock rx tx idx true bad b s := by rfl
  have hidx' : idx < Snap.blocks := hidx
  rw [hx, execSnapshotBlock]
  dsimp only
  rw [ha, hst, hwait, hvote, hb, hdown]
  dsimp only
  rw [if_neg (by simp [hne, hidx'])]
  rfl

theorem snapshotBlock_ignored {a : Attempt} {idx : Nat} {bad : Bool} {b : List Byte} (ha : (s.ch rx).attempt = some a) :
    exec (.snapshotBlock rx tx idx false bad b) s = .next s := by
  have hx : exec (.snapshotBlock rx tx idx false bad b) s = execSnapshotBlock rx tx idx false bad b s := by rfl
  rw [hx, execSnapshotBlock]
  dsimp only
  rw [ha]
  rfl

theorem blockTaken_chaseOf_others (rx tx : Ch) (a : Attempt) (idx : Nat) (bad : Bool) (b : List Byte) (s : State) {d : Ch} (hd : d ≠ rx) :
    (blockTaken rx tx a idx bad b s).ch d = s.ch d := by
  have h : ChaseOf rx s (if firstStream a.copies tx then s.restoreBytes rx (idx * 256) b else s) :=
    ChaseOf.ite (restoreBytes_chaseOf s rx _ b) (ChaseOf.refl rx s)
  exact (State.ch_modCh_ne _ _ hd).trans (h.others d hd)

theorem blockTaken_attempt (rx tx : Ch) (a : Attempt) (idx : Nat) (bad : Bool) (b : List Byte) (s : State) :
    ((blockTaken rx tx a idx bad b s).ch rx).attempt = some { a with copies := addBlock a.copies tx idx b bad } := by
  unfold blockTaken
  rw [State.ch_modCh_same]

theorem addBlock_kept (l : List SnapCopy) (tx : Ch) (idx : Nat) (b : List Byte) (bad : Bool) :
    (∃ x ∈ addBlock l tx idx b bad, x.sender = tx ∧ FMap.get [] x.blocks idx = b ∧ (bad = true → x.bad = true)) ∧
      ∀ x ∈ addBlock l tx idx b bad, x.sender ≠ tx → x ∈ l := by
  unfold addBlock
  split
  next h =>
    obtain ⟨y, hy, hsender⟩ := List.any_eq_true.1 h
    have hsender : y.sender = tx := of_decide_eq_true hsender
    refine ⟨⟨_, List.mem_map_of_mem hy, ?_⟩, fun x hx hne => ?_⟩
    · rw [if_pos hsender]
      refine ⟨hsender, ?_, fun hbad => ?_⟩
      · rw [FMap.get_put, if_pos rfl]
      · rw [hbad]
        exact Bool.or_true _
    · obtain ⟨z, hz, rfl⟩ := List.mem_map.1 hx
      by_cases hz' : z.sender = tx
      · rw [if_pos hz'] at hne
        exact absurd hz' hne
      · rw [if_neg hz']
        exact hz
  next h =>
    refine ⟨⟨_, List.mem_append_right l List.mem_cons_self, rfl, ?_, fun hbad => hbad⟩, fun x hx hne => ?_⟩
    · simp [FMap.get]
    · rcases List.mem_append.1 hx with hx | hx
      · exact hx
      · exact absurd (List.mem_singleton.1 hx ▸ rfl) hne

/-! ### Acceptance (R183, R185) -/

/-- The registers of a receiver that judges its copies. -/
def copiesJudged (rx : Ch) (a : Attempt) (s : State) : State :=
  (s.wr Reg.VOT_RESYNC_COPIES (copyMask rx a.copies)).wr Reg.VOT_XFER_TIME_XFER (if a.nextK = s.tm.cyc + 1 then 15336 else 15344)

theorem copiesJudged_keeps (rx : Ch) (a : Attempt) (s : State) :
    keepsRegs s (copiesJudged rx a s) [Reg.VOT_RESYNC_COPIES, Reg.VOT_XFER_TIME_XFER] :=
  ((keepsRegs_refl s _).wr (f := Reg.VOT_RESYNC_COPIES) (.head _) _).wr (f := Reg.VOT_XFER_TIME_XFER) (.tail _ (.head _)) _

/-- The judgement of a receiver's copies. -/
def copiesAnswer (rx : Ch) (a : Attempt) (s : State) : State :=
  match a.copies.filterMap SnapCopy.passes with
  | [x] => s.takeSnapshot rx x
  | [x, y] => if Snap.same x y then s.takeSnapshot rx x else s.failAttempt rx 2
  | _ => s.failAttempt rx (if a.copies.length = 2 && a.copies.all fun x => x.bad then 7 else 1)

theorem snapshotAccept_judges {a : Attempt} (hdown : s.down = false) (ha : (s.ch rx).attempt = some a) (hst : (s.ch rx).st = .resync)
    (hwait : (s.ch rx).waiting = true) (hstart : 0 < a.startOp) :
    exec (.snapshotAccept rx) s = .next (copiesAnswer rx a (copiesJudged rx a s)) := by
  have hx : exec (.snapshotAccept rx) s = execSnapshotAccept rx s := by rfl
  rw [hx, execSnapshotAccept]
  dsimp only
  rw [ha, hst, hwait, hdown]
  dsimp only
  rw [if_neg (by simp [hstart])]
  rfl

theorem snapshotAccept_fails {a : Attempt} {code : Nat} (hcode : code < 2 ^ Reg.VOT_RESYNC_FAIL_REASON.width)
    (h : exec (.snapshotAccept rx) s = .next (copiesAnswer rx a (copiesJudged rx a s)))
    (hans : copiesAnswer rx a (copiesJudged rx a s) = (copiesJudged rx a s).failAttempt rx code) :
    ∃ t, exec (.snapshotAccept rx) s = .next t ∧ failedWith s t rx code :=
  ⟨_, h.trans (congrArg _ hans), (failAttempt_failed _ rx hcode).after (copiesJudged_keeps rx a s _ (by decide)) fun _ _ => rfl⟩

/-- The receiver's memories are the snapshot's. -/
def snapRestored (rx : Ch) (l : List Byte) (s : State) : State :=
  ((s.restoreBytes rx 0 (l.take 143616)).modCh rx fun h => { h with
      acc := Snap.acc l, travPos := Snap.pos l + 1, accStart := false, lanes := [],
      attempt := h.attempt.map fun a => { a with
        accepted := true, copies := [], nextK := Snap.cycle l + 1, chased := 0, acc := Snap.acc l, travPos := Snap.pos l,
        inTime := false } }).wr Reg.VOT_RESYNC_STAGE 3

theorem takeSnapshot_held {l : List Byte} (hrun : bankId (s.ch rx).run = Snap.runId l) (hpsn : s.runPoisoned rx = false) :
    s.takeSnapshot rx l = snapRestored rx l s := by
  have hbank : s.takeBank rx (Snap.runId l) = some (true, s) := by
    unfold State.takeBank
    rw [hpsn, if_pos (by simp [hrun])]
  unfold State.takeSnapshot
  rw [hbank]
  rfl

theorem snapRestored_ch {a : Attempt} {l : List Byte} (ha : (s.ch rx).attempt = some a) (hst : (s.ch rx).st = .resync) :
    ((snapRestored rx l s).ch rx).attempt = some { a with
        accepted := true, copies := [], nextK := Snap.cycle l + 1, chased := 0, acc := Snap.acc l, travPos := Snap.pos l, inTime := false } ∧
      ((snapRestored rx l s).ch rx).acc = Snap.acc l ∧ ((snapRestored rx l s).ch rx).st = .resync := by
  have h := restoreBytes_chaseOf s rx 0 (l.take 143616)
  unfold snapRestored
  rw [State.ch_wr, State.ch_modCh_same]
  exact ⟨by rw [h.attempt, ha]; rfl, rfl, h.st.trans hst⟩

theorem copiesJudged_ch (rx : Ch) (a : Attempt) (s : State) (d : Ch) : (copiesJudged rx a s).ch d = s.ch d := rfl

theorem runPoisoned_congr (hch : t.ch c = s.ch c) (hforces : t.forces = s.forces) (hrun : t.physRun c = s.physRun c) :
    t.runPoisoned c = s.runPoisoned c := by
  have hbank : t.physBank c = s.physBank c := funext fun b => by
    unfold State.physBank
    rw [hrun, hch]
  have hideal : t.idealCw c = s.idealCw c := funext fun cw => by
    unfold State.idealCw
    rw [hbank, hch, hforces]
  have hpsn : t.cwPoisoned c = s.cwPoisoned c := funext fun cw => by
    unfold State.cwPoisoned
    rw [hideal, hch]
  unfold State.runPoisoned State.bankPoisoned
  rw [hrun, hpsn, hch]

theorem runPoisoned_judged (rx : Ch) (a : Attempt) (s : State) : (copiesJudged rx a s).runPoisoned rx = s.runPoisoned rx :=
  runPoisoned_congr (copiesJudged_ch rx a s rx) rfl (copiesJudged_keeps rx a s _ (by cases rx <;> decide))

theorem snapshotAccept_held {a : Attempt} {x : SnapCopy} {l : List Byte} (hdown : s.down = false) (ha : (s.ch rx).attempt = some a)
    (hst : (s.ch rx).st = .resync) (hwait : (s.ch rx).waiting = true) (hstart : 0 < a.startOp) (hx : a.copies = [x])
    (hl : x.passes = some l) (hrun : bankId (s.ch rx).run = Snap.runId l) (hpsn : s.runPoisoned rx = false) :
    ∃ t a', exec (.snapshotAccept rx) s = .next t ∧ t.rd Reg.VOT_RESYNC_STAGE = 3 ∧ (t.ch rx).attempt = some a' ∧ a'.accepted = true ∧
      a'.nextK = Snap.cycle l + 1 ∧ a'.chased = 0 ∧ (t.ch rx).acc = Snap.acc l ∧ (t.ch rx).st = .resync := by
  have hans : copiesAnswer rx a (copiesJudged rx a s) = snapRestored rx l (copiesJudged rx a s) := by
    unfold copiesAnswer
    rw [hx, List.filterMap_cons_some hl, List.filterMap_nil]
    exact takeSnapshot_held hrun ((runPoisoned_judged rx a s).trans hpsn)
  obtain ⟨hatt, hacc, hst'⟩ := snapRestored_ch (s := copiesJudged rx a s) (l := l) ha hst
  exact ⟨_, _, (snapshotAccept_judges hdown ha hst hwait hstart).trans (congrArg _ hans), State.rd_wr_of_lt _ (by decide), hatt, rfl, rfl, rfl,
    hacc, hst'⟩

theorem resyncTimeout_fails {a : Attempt} (hdown : s.down = false) (ha : (s.ch rx).attempt = some a) (hst : (s.ch rx).st = .resync)
    (hstart : 0 < a.startOp) (hlate : a.startCyc + 16 ≤ s.tm.cyc) (hhalt : s.md.halted = false) (hreq : s.md.rejoinReq.contains rx = false) :
    exec (.resyncTimeout rx) s = .next (s.failAttempt rx 4) := by
  have hx : exec (.resyncTimeout rx) s = execResyncTimeout rx s := by rfl
  rw [hx, execResyncTimeout]
  rw [ha, hst, hhalt, hreq, hdown]
  dsimp only
  rw [if_pos (by simp [hstart, hlate])]

/-! ### The transfer -/

theorem snapshotTransfer_holds : snapshotTransfer := by
  intro s rx a hdown ha
  refine ⟨fun hwait hmode hlen hany => ?_, fun hserved hwait hmode hlen hany => snapshotSend_serves hdown ha hserved hwait hmode hlen hany,
    fun hst hwait => ⟨fun tx idx bad b hne hvote hidx hb => ⟨snapshotBlock_ignored ha, ?_⟩, fun hstart => ⟨fun x l hx hl hrun hpsn =>
      snapshotAccept_held hdown ha hst hwait hstart hx hl hrun hpsn, fun hnone => ?_, fun x y k l hxy hk hl hsame => ?_, fun hlate hhalt hreq =>
      ⟨_, resyncTimeout_fails hdown ha hst hstart hlate hhalt hreq, failAttempt_failed s rx (by decide)⟩⟩⟩⟩
  · obtain ⟨t, hexec, hstage, hchan, hchased, hcount, hch, hmarks⟩ := snapshotSend_waits hdown ha hwait hmode hlen hany
    refine ⟨t, hexec, hstage, hchan, hchased, hcount, hch.trans ?_, hmarks⟩
    unfold waitsFrom
    simp only [decide_eq_true_eq]
  · obtain ⟨⟨x, hx, hsender, hblock, hbad⟩, hothers⟩ :=
      addBlock_kept a.copies tx idx b (decide (idx = Snap.blocks - 1) && (bad || (s.ch tx).sendPsn))
    refine ⟨_, _, snapshotBlock_takes hdown ha hst hwait hne hvote hidx hb, blockTaken_attempt _ _ _ _ _ _ _, rfl,
      ⟨x, hx, hsender, hblock, fun hlast hmark => hbad ?_⟩, hothers, fun d hd => blockTaken_chaseOf_others _ _ _ _ _ _ _ hd⟩
    have hlast' : idx = Snap.blocks - 1 := hlast
    rw [hmark, decide_eq_true hlast']
    rfl
  · refine snapshotAccept_fails (by decide) (snapshotAccept_judges hdown ha hst hwait hstart) ?_
    unfold copiesAnswer
    rw [hnone]
    rfl
  · refine snapshotAccept_fails (by decide) (snapshotAccept_judges hdown ha hst hwait hstart) ?_
    unfold copiesAnswer
    rw [hxy, List.filterMap_cons_some hk, List.filterMap_cons_some hl, List.filterMap_nil]
    dsimp only
    rw [if_neg (by rw [hsame]; decide)]

end Sys2Proof.Claims
end

section
/-! O46: the chase of an excluded channel and the reload of its bank. -/

namespace Sys2Proof.Claims

open Sys2Proof Sys2Proof.Machine

variable {s t u : State} {c rx : Ch}

/-! ### A chase cycle (R186, R187) -/

/-- A chase cycle that ended within its cycle asks for the rejoin. -/
def rejoinAsked (rx : Ch) (inTime : Bool) (s : State) : State := if inTime then s.modMd fun y => { y with rejoinReq := y.rejoinReq ++ [rx] } else s

/-- A chase cycle with the accumulator of its kept cycle. -/
def chasePassed (rx : Ch) (k n : Nat) (inTime : Bool) (s : State) : State :=
  rejoinAsked rx inTime ((s.modCh rx fun h => { h with
    kept := h.kept.filter fun y => k < y.k,
    attempt := h.attempt.map fun a => { a with nextK := k + 1, chased := a.chased + 1, inTime := inTime } }).wr Reg.VOT_RESYNC_CHASED (n + 1))

/-- The judgement of a chase cycle. -/
def chaseJudged (rx : Ch) (x : Kept) (n startNs clk : Nat) (s : State) : State :=
  if (s.ch rx).ccuStop then s
  else if some (s.ch rx).acc ≠ x.acc then s.failAttempt rx 3
  else chasePassed rx x.k n (decide (x.k = s.tm.cyc) && decide (startNs ≤ s.latestStart clk)) s

theorem chaseCycle_excluded {a : Attempt} {x : Kept} {startNs : Nat} (hdown : s.down = false) (hstandby : s.standby = false)
    (hst : (s.ch rx).st = .resync) (ha : (s.ch rx).attempt = some a) (hacc : a.accepted = true) (hstop : (s.ch rx).ccuStop = false)
    (hx : (s.ch rx).kept.find? (fun y => y.k = a.nextK) = some x) :
    exec (.chaseCycle rx startNs) s = .next (chaseJudged rx x a.chased startNs (s.chase rx x).1 (s.chase rx x).2) := by
  have hexec : exec (.chaseCycle rx startNs) s = execChaseCycle rx startNs s := by rfl
  rw [hexec, execChaseCycle, hstandby, Bool.false_and, if_neg Bool.false_ne_true, State.chaseDone]
  dsimp only
  rw [ha]
  dsimp only
  rw [hx]
  dsimp only
  rw [hst, hacc, hstop, hdown, if_neg (by decide)]
  rfl

theorem rejoinAsked_ch (rx : Ch) (inTime : Bool) (s : State) (d : Ch) : (rejoinAsked rx inTime s).ch d = s.ch d := by cases inTime <;> rfl

theorem rejoinAsked_regs (rx : Ch) (inTime : Bool) (s : State) : (rejoinAsked rx inTime s).regs = s.regs := by cases inTime <;> rfl

theorem chasePassed_ch {a : Attempt} (ha : (s.ch rx).attempt = some a) (k n : Nat) (inTime : Bool) :
    (chasePassed rx k n inTime s).ch rx = { s.ch rx with
      kept := (s.ch rx).kept.filter fun y => k < y.k,
      attempt := some { a with nextK := k + 1, chased := a.chased + 1, inTime := inTime } } := by
  unfold chasePassed
  rw [rejoinAsked_ch, State.ch_wr, State.ch_modCh_same, ha]
  rfl

theorem chasePassed_other (k n : Nat) (inTime : Bool) {d : Ch} (h : d ≠ rx) : (chasePassed rx k n inTime s).ch d = s.ch d := by
  unfold chasePassed
  rw [rejoinAsked_ch, State.ch_wr, State.ch_modCh_ne _ _ h]

theorem chasePassed_chased (k n : Nat) (inTime : Bool) : (chasePassed rx k n inTime s).rd Reg.VOT_RESYNC_CHASED = (n + 1) % 256 := by
  unfold chasePassed
  rw [State.rd_congr (rejoinAsked_regs _ _ _)]
  exact State.rd_wr_same _ _ _

theorem chasePassed_rejoins (k n : Nat) : rx ∈ (chasePassed rx k n true s).md.rejoinReq :=
  List.mem_append_right s.md.rejoinReq List.mem_cons_self

theorem chasePassed_waits (k n : Nat) : (chasePassed rx k n false s).md = s.md := rfl

theorem chaseJudged_stopped {x : Kept} {n startNs clk : Nat} (hstop : (s.ch rx).ccuStop = true) : chaseJudged rx x n startNs clk s = s := by
  unfold chaseJudged
  rw [if_pos hstop]

theorem chaseJudged_failed {x : Kept} {n startNs clk : Nat} (hstop : (s.ch rx).ccuStop = false) (hacc : some (s.ch rx).acc ≠ x.acc) :
    chaseJudged rx x n startNs clk s = s.failAttempt rx 3 := by
  unfold chaseJudged
  rw [hstop, if_neg Bool.false_ne_true, if_pos hacc]

theorem chaseJudged_passed {x : Kept} {n startNs clk : Nat} (hstop : (s.ch rx).ccuStop = false) (hacc : some (s.ch rx).acc = x.acc) :
    chaseJudged rx x n startNs clk s =
      chasePassed rx x.k n (decide (x.k = s.tm.cyc) && decide (startNs ≤ s.latestStart clk)) s := by
  unfold chaseJudged
  rw [hstop, if_neg Bool.false_ne_true, if_neg (not_not.2 hacc)]

/-! ### The reload of a bank (R91, R185) -/

/-- A reloaded bank that passes its check. -/
def bankReloaded (rx : Ch) (k : Nat) (b : Option Bank) (s : State) : State :=
  ((((s.breachRegs rx Breach.none).plugRegs rx k).modCh rx fun h => { h with
    run := b, st := .resync,
    attempt := h.attempt.map fun a => { a with reloading := false, accepted := false, copies := [], nextK := 0 } }))

/-- The reloaded bank is written, and its registers show it. -/
def bankShown (rx : Ch) (s : State) : State := ((s.bankWritten rx (s.physRun rx)).runRegs rx).wr Reg.VOT_RESYNC_STAGE 1

/-- The check of a reloaded bank. -/
def reloadJudged (rx : Ch) (k : Nat) (b : Option Bank) (s : State) : State :=
  match b.bind s.bankBreach with
  | some x => (s.breachRegs rx x).failAttempt rx 9
  | none => bankShown rx (bankReloaded rx k b s)

theorem bankReloadDone_copy {k : Nat} (hdown : s.down = false) (hst : (s.ch rx).st = .reloading) (hk : s.ownCopy rx (bankId s.runBank) = some k) :
    exec (.bankReloadDone rx) s = .next (reloadJudged rx k (s.copyBank rx k) (s.notePages rx k)) := by
  have hx : exec (.bankReloadDone rx) s = execBankReloadDone rx s := by rfl
  rw [hx, execBankReloadDone]
  dsimp only
  rw [hst, hdown, if_neg (by decide), hk]
  rfl

theorem bankReloadDone_none (hdown : s.down = false) (hst : (s.ch rx).st = .reloading) (hk : s.ownCopy rx (bankId s.runBank) = none) :
    exec (.bankReloadDone rx) s = .next (s.failAttempt rx 9) := by
  have hx : exec (.bankReloadDone rx) s = execBankReloadDone rx s := by rfl
  rw [hx, execBankReloadDone]
  dsimp only
  rw [hst, hdown, if_neg (by decide), hk]

theorem failAttempt_retired (s : State) (c : Ch) : ((s.failAttempt c 9).ch c).st = .retired := by
  have hdiag (u : State) (sev src inst off : Nat) (l : List Nat) : (u.diag sev src inst off l).ch c = u.ch c := by
    rw [State.ch, diag_frame]
    rfl
  have hretire (t : State) : ((t.retire c).ch c).st = .retired := by
    unfold State.retire
    dsimp only
    rw [hdiag, State.ch_modCh_same]
  unfold State.failAttempt
  exact hretire _

theorem notePages_breach (s : State) (c : Ch) (k : Nat) : (s.notePages c k).bankBreach = s.bankBreach := by
  have h := notePages_reports s c k
  have hch (d : Ch) : (s.notePages c k).ch d = s.ch d := by rw [State.ch, h.chs, State.ch]
  exact funext fun b => bankBreach_congr (runBank_congr (fun d => by rw [hch d]) fun d => by rw [hch d]) (h.regs _ (by cases c <;> decide))
    (h.regs _ (by cases c <;> decide)) (h.regs _ (by cases c <;> decide)) h.ptn b

theorem reload_breached {k : Nat} {b : Option Bank} (hbad : b.bind s.bankBreach ≠ none) :
    failedWith s (reloadJudged rx k b (s.notePages rx k)) rx 9 ∧ ((reloadJudged rx k b (s.notePages rx k)).ch rx).st = .retired := by
  obtain ⟨x, hx⟩ := Option.ne_none_iff_exists'.1 hbad
  have hpages := notePages_reports s rx k
  have hcount : ((s.notePages rx k).breachRegs rx x).rd Reg.VOT_RESYNC_FAIL_COUNT = s.rd Reg.VOT_RESYNC_FAIL_COUNT :=
    (breachRegs_keeps _ rx x _ (by cases rx <;> decide)).trans (hpages.regs _ (by cases rx <;> decide))
  unfold reloadJudged
  rw [notePages_breach, hx]
  exact ⟨(failAttempt_failed _ rx (by decide)).after hcount fun d _ => by rw [breachRegs_ch, State.ch, hpages.chs, State.ch], failAttempt_retired _ rx⟩

theorem bankShown_ch (rx : Ch) (s : State) : ((bankShown rx s).ch rx).run = (s.ch rx).run ∧ ((bankShown rx s).ch rx).st = (s.ch rx).st ∧
    ∀ d, d ≠ rx → (bankShown rx s).ch d = s.ch d := by
  have hmiu := (MiuOp.bankWritten s rx (s.physRun rx)).ch rx
  have hregs := runRegs_runOf (s.bankWritten rx (s.physRun rx)) rx
  unfold bankShown
  refine ⟨?_, ?_, fun d hd => ?_⟩
  · rw [State.ch_wr, hregs.ch, hmiu]
  · rw [State.ch_wr, hregs.ch, hmiu]
  · rw [State.ch_wr, hregs.others d hd]
    exact bankWritten_ch_ne s _ hd

theorem runRegs_id (s : State) (c : Ch) : (s.runRegs c).rd (Reg.LEN_BANK_RUN_LO_ID_LO (Ch.num c)) = bankId (s.ch c).run % 2 ^ 32 := by
  have hlo (a b : Nat) : ((s.wr (Reg.LEN_BANK_RUN_LO_ID_LO (Ch.num c)) a).wr (Reg.LEN_BANK_RUN_HI_ID_HI (Ch.num c)) b).rd
      (Reg.LEN_BANK_RUN_LO_ID_LO (Ch.num c)) = a % 2 ^ 32 :=
    (State.rd_wr_ne _ _ _ b (by cases c <;> decide)).trans (State.rd_wr_same s _ a)
  have hprog (t : State) (a b d e : Nat) : ((((t.wr (Reg.LEN_PROG_TABLES (Ch.num c)) a).wr (Reg.LEN_PROG_LANES_USED (Ch.num c)) b).wr
      (Reg.LEN_PROG_PHASE_COUNT (Ch.num c)) d).wr (Reg.LEN_BARRIER_BAR_CLK (Ch.num c)) e).rd (Reg.LEN_BANK_RUN_LO_ID_LO (Ch.num c)) =
      t.rd (Reg.LEN_BANK_RUN_LO_ID_LO (Ch.num c)) := by
    rw [State.rd_wr_ne _ _ _ _ (by cases c <;> decide), State.rd_wr_ne _ _ _ _ (by cases c <;> decide),
      State.rd_wr_ne _ _ _ _ (by cases c <;> decide), State.rd_wr_ne _ _ _ _ (by cases c <;> decide)]
  unfold State.runRegs
  dsimp only
  split
  · exact (hprog _ _ _ _ _).trans (hlo _ _)
  · exact (hprog _ _ _ _ _).trans (hlo _ _)

theorem bankShown_rd (rx : Ch) (s : State) : (bankShown rx s).rd Reg.VOT_RESYNC_STAGE = 1 ∧
    (bankShown rx s).rd (Reg.LEN_BANK_RUN_LO_ID_LO (Ch.num rx)) = bankId (s.ch rx).run % 2 ^ 32 := by
  have hrun : ((s.bankWritten rx (s.physRun rx)).ch rx).run = (s.ch rx).run := by rw [(MiuOp.bankWritten s rx (s.physRun rx)).ch rx]
  unfold bankShown
  refine ⟨State.rd_wr_of_lt _ (by decide), ?_⟩
  rw [State.rd_wr_ne _ _ _ _ (by cases rx <;> decide), runRegs_id, hrun]

theorem plugRegs_ch (s : State) (c : Ch) (k : Nat) (d : Ch) : (s.plugRegs c k).ch d = s.ch d := rfl

theorem bankReloaded_ch (rx : Ch) (k : Nat) (b : Option Bank) (s : State) : ((bankReloaded rx k b s).ch rx).run = b ∧
    ((bankReloaded rx k b s).ch rx).st = .resync ∧ ∀ d, d ≠ rx → (bankReloaded rx k b s).ch d = s.ch d := by
  unfold bankReloaded
  refine ⟨?_, ?_, fun d hd => ?_⟩
  · rw [State.ch_modCh_same]
  · rw [State.ch_modCh_same]
  · rw [State.ch_modCh_ne _ _ hd, plugRegs_ch, breachRegs_ch]

theorem reload_passed {k : Nat} {b : Option Bank} (hgood : b.bind s.bankBreach = none) :
    ((reloadJudged rx k b (s.notePages rx k)).ch rx).run = b ∧ ((reloadJudged rx k b (s.notePages rx k)).ch rx).st = .resync ∧
      (reloadJudged rx k b (s.notePages rx k)).rd Reg.VOT_RESYNC_STAGE = 1 ∧
      (reloadJudged rx k b (s.notePages rx k)).rd (Reg.LEN_BANK_RUN_LO_ID_LO (Ch.num rx)) = bankId b % 2 ^ 32 ∧
      ∀ d, d ≠ rx → (reloadJudged rx k b (s.notePages rx k)).ch d = s.ch d := by
  have hpages := notePages_reports s rx k
  have hjudged : reloadJudged rx k b (s.notePages rx k) = bankShown rx (bankReloaded rx k b (s.notePages rx k)) := by
    unfold reloadJudged
    rw [notePages_breach, hgood]
  rw [hjudged]
  obtain ⟨hrun, hst, hothers⟩ := bankReloaded_ch rx k b (s.notePages rx k)
  obtain ⟨hrun', hst', hothers'⟩ := bankShown_ch rx (bankReloaded rx k b (s.notePages rx k))
  obtain ⟨hstage, hid⟩ := bankShown_rd rx (bankReloaded rx k b (s.notePages rx k))
  refine ⟨hrun'.trans hrun, hst'.trans hst, hstage, hid.trans (by rw [hrun]), fun d hd => (hothers' d hd).trans ((hothers d hd).trans ?_)⟩
  rw [State.ch, hpages.chs, State.ch]

/-! ### The chase and the reload -/

theorem chaseAndReload_holds : chaseAndReload := by
  intro s rx hdown
  refine ⟨fun a x startNs hstandby hst ha hacc hstop hx => ?_, fun hst => ⟨fun k hk hbad =>
    ⟨_, bankReloadDone_copy hdown hst hk, reload_breached hbad⟩, fun k hk hgood => ⟨_, bankReloadDone_copy hdown hst hk, reload_passed hgood⟩,
    fun hk => ⟨_, bankReloadDone_none hdown hst hk, failAttempt_failed s rx (by decide), failAttempt_retired s rx⟩⟩⟩
  have hop := chase_chaseOf s rx x
  have hexec := chaseCycle_excluded (startNs := startNs) hdown hstandby hst ha hacc hstop hx
  have hcyc : (s.chase rx x).2.tm.cyc = s.tm.cyc := by rw [hop.frame]
  have hatt : ((s.chase rx x).2.ch rx).attempt = some a := hop.attempt.trans ha
  refine ⟨_, hexec, chaseJudged_stopped, fun hrun heq => ?_, fun hrun hne => ?_⟩
  · rw [chaseJudged_passed hrun heq, hcyc, hop.latestStart]
    have hch := chasePassed_ch hatt x.k a.chased (decide (x.k = s.tm.cyc) && decide (startNs ≤ s.latestStart (s.chase rx x).1))
    refine ⟨?_, chasePassed_chased _ _ _, ?_, fun y hy => ?_, fun hin => ?_, fun hin => ?_, fun d hd =>
      (chasePassed_other _ _ _ hd).trans (hop.others d hd)⟩
    · rw [hch]
    · rw [hch]
    · rw [hch] at hy
      exact of_decide_eq_true (List.mem_filter.1 hy).2
    · rw [hin]
      exact chasePassed_rejoins _ _
    · rw [hin]
      exact chasePassed_waits _ _
  · rw [chaseJudged_failed hrun hne]
    exact (failAttempt_failed _ rx (by decide)).after (hop.regs _ (by decide) (by decide)) hop.others

/-- Settles O46, the transfer of the snapshot and the chase, each exec cut into what its step does. -/
theorem resynchronisationOfAChannel : Obligations.ResynchronisationOfAChannel := ⟨snapshotTransfer_holds, chaseAndReload_holds⟩

end Sys2Proof.Claims
end

section
/-! O45: the commit at its target, and the switch of epochs. -/

namespace Sys2Proof.Claims

open Sys2Proof Sys2Proof.Machine

variable {s t u : State} {c d : Ch}

/-! ### What the steps around a commit leave of the banks -/

/-- The fields that a commit's statement speaks of. -/
def atCommitFlds : List Fld :=
  bankFlds ++ [Reg.CMD_PRG_COMMIT_RESULT, Reg.CMD_PRG_STATE_COMMIT_PENDING, Reg.CMD_PRG_STATE_SWITCH_BACK]

/-- A step that leaves every bank, its state, and the commit's result as they are. -/
structure BankKept (s t : State) : Prop where
  st : ∀ d, (t.ch d).st = (s.ch d).st
  run : ∀ d, (t.ch d).run = (s.ch d).run
  uc : ∀ d, (t.ch d).uc = (s.ch d).uc
  regs : ∀ f ∈ atCommitFlds, t.rd f = s.rd f
  due : t.md.commitDue = s.md.commitDue
  queue : t.lane.queue = s.lane.queue
  loaded : s.md.loadDone = true → t.md.loadDone = true

theorem BankKept.refl (s : State) : BankKept s s := ⟨fun _ => rfl, fun _ => rfl, fun _ => rfl, fun _ _ => rfl, rfl, rfl, id⟩

theorem BankKept.trans (h : BankKept s t) (h' : BankKept t u) : BankKept s u :=
  ⟨fun d => (h'.st d).trans (h.st d), fun d => (h'.run d).trans (h.run d), fun d => (h'.uc d).trans (h.uc d),
    fun f hf => (h'.regs f hf).trans (h.regs f hf), h'.due.trans h.due, h'.queue.trans h.queue, fun hl => h'.loaded (h.loaded hl)⟩

theorem BankKept.ite {p : Prop} [Decidable p] (ht : BankKept s t) (hu : BankKept s u) : BankKept s (if p then t else u) := by
  split
  · exact ht
  · exact hu

theorem BankKept.foldSt {α : Type} {l : List α} {f : α → State → State} (h : ∀ x s, BankKept s (f x s)) (s : State) : BankKept s (foldSt l f s) :=
  foldSt_inv (P := BankKept s) (fun x _ t ht => ht.trans (h x t)) (BankKept.refl s)

theorem BankKept.of_eq (hchs : t.chs = s.chs) (hregs : ∀ f ∈ atCommitFlds, t.rd f = s.rd f) (hdue : t.md.commitDue = s.md.commitDue)
    (hqueue : t.lane.queue = s.lane.queue) (hload : s.md.loadDone = true → t.md.loadDone = true) : BankKept s t := by
  have hch (d : Ch) : t.ch d = s.ch d := by rw [State.ch, hchs, State.ch]
  exact ⟨fun d => by rw [hch], fun d => by rw [hch], fun d => by rw [hch], hregs, hdue, hqueue, hload⟩

theorem BankKept.wr {f : Fld} (hf : ∀ g ∈ atCommitFlds, g.key ≠ f.key) (s : State) (v : Nat) : BankKept s (s.wr f v) :=
  .of_eq rfl (fun g hg => State.rd_wr_ne s f g v (hf g hg)) rfl rfl id

theorem BankKept.diag (s : State) (sev src inst off : Nat) (l : List Nat) : BankKept s (s.diag sev src inst off l) := by
  have hlog := keepsRegs_diag s sev src inst off l
  refine .of_eq ?_ (fun g hg => hlog g ((show ∀ g ∈ atCommitFlds, ∀ f ∈ logFlds, g.key ≠ f.key by decide) g hg)) ?_ ?_ ?_
  · rw [diag_frame]
  · rw [diag_frame]
  · rw [diag_frame]
  · rw [diag_frame]
    exact id

theorem RunOf.bankKept (h : RunOf c s t) : BankKept s t := by
  have hbank : ∀ f ∈ atCommitFlds, runKey f.key = false := by decide
  have hcut (d : Ch) : (t.ch d).st = (s.ch d).st ∧ (t.ch d).run = (s.ch d).run ∧ (t.ch d).uc = (s.ch d).uc := by
    by_cases hd : d = c
    · rw [hd, h.ch]
      exact ⟨rfl, rfl, rfl⟩
    · rw [h.others d hd]
      exact ⟨rfl, rfl, rfl⟩
  have hmd : t.md = s.md := by rw [h.frame]
  have hlane : t.lane = s.lane := by rw [h.frame]
  exact ⟨fun d => (hcut d).1, fun d => (hcut d).2.1, fun d => (hcut d).2.2, fun f hf => h.regs f (hbank f hf), by rw [hmd], by rw [hlane],
    fun hl => by rw [hmd]; exact hl⟩

theorem BankKept.modCh (s : State) (c : Ch) {f : Chan → Chan} (hst : ∀ h, (f h).st = h.st) (hrun : ∀ h, (f h).run = h.run)
    (huc : ∀ h, (f h).uc = h.uc) : BankKept s (s.modCh c f) := by
  have hch (d : Ch) : ((s.modCh c f).ch d).st = (s.ch d).st ∧ ((s.modCh c f).ch d).run = (s.ch d).run ∧ ((s.modCh c f).ch d).uc = (s.ch d).uc := by
    by_cases hd : d = c
    · rw [hd, State.ch_modCh_same]
      exact ⟨hst _, hrun _, huc _⟩
    · rw [State.ch_modCh_ne _ _ hd]
      exact ⟨rfl, rfl, rfl⟩
  exact ⟨fun d => (hch d).1, fun d => (hch d).2.1, fun d => (hch d).2.2, fun _ _ => rfl, rfl, rfl, id⟩

theorem ccuReads_bankKept (s : State) (c : Ch) (lo n : Nat) : BankKept s (s.ccuReads c lo n) := by
  have hread := (readStore_runOf s c lo n).bankKept
  have hstops (t : State) : BankKept t (t.ccuStops c) := by
    have h : BankKept t (((t.modCh c fun h => { h with ccuStop := true }).wrb (Reg.MIU_EVENT_CCU_PSN (Ch.num c)) true).wr
        (Reg.LEN_STATUS_RUN (Ch.num c)) 0) :=
      ((BankKept.modCh t c (f := fun h => { h with ccuStop := true }) (fun _ => rfl) (fun _ => rfl) fun _ => rfl).trans
        (BankKept.wr (f := Reg.MIU_EVENT_CCU_PSN (Ch.num c)) (by cases c <;> decide) _ _)).trans
        (BankKept.wr (f := Reg.LEN_STATUS_RUN (Ch.num c)) (by cases c <;> decide) _ 0)
    have hreq (u : State) : BankKept u (u.modMd fun x => { x with exclReq := x.exclReq ++ [(c, 0x0A)] }) := .of_eq rfl (fun _ _ => rfl) rfl rfl id
    unfold State.ccuStops
    exact BankKept.ite (h.trans (hreq _)) h
  unfold State.ccuReads
  exact BankKept.ite (hread.trans (hstops _)) hread

theorem sendRecord_bankKept (s : State) (w : FMap Word) : BankKept s (s.sendRecord w) := by
  unfold State.sendRecord
  dsimp only
  split <;> exact .of_eq rfl (fun _ _ => rfl) rfl rfl id

theorem loadCycle_bankKept (s : State) (w : Ch → FMap Word) (commit : Bool) : BankKept s (s.loadCycle w commit) := by
  have himages (cs : List Ch) (t : State) : BankKept t (loadImages cs w s.forces t) :=
    BankKept.foldSt (fun c t => (ccuReads_bankKept t c _ _).trans (imageLoad_runOf _ c _ _).bankKept) t
  have hkeep (cs : List Ch) (ft : ForceTab) (first commit : Bool) (t : State) : BankKept t (keepCopies cs w ft first commit t) :=
    BankKept.foldSt (f := fun c s => s.modCh c fun h => { h with
      kept := keepEight h.kept { k := s.tm.cyc, image := w c, forces := ft, first := first, commit := commit, acc := none } })
      (fun c t => BankKept.modCh t c (fun _ => rfl) (fun _ => rfl) fun _ => rfl) t
  have hwrite (cs : List Ch) (t : State) : BankKept t (writeCopies cs t) := BankKept.foldSt (fun c t => (storeWritten_runOf t c _ _).bankKept) t
  have hmark (ft : ForceTab) (t : State) : BankKept t (markLoaded ft t) := .of_eq rfl (fun _ _ => rfl) rfl rfl fun _ => rfl
  rw [loadCycle_eq]
  exact (((sendRecord_bankKept s _).trans (himages _ _)).trans ((hkeep _ _ _ _ _).trans (hwrite _ _))).trans (hmark _ _)

theorem loadCycle_marked (s : State) (w : Ch → FMap Word) (commit : Bool) : (s.loadCycle w commit).md.loadDone = true := rfl

theorem openTraverse_kept (h : Chan) : h.openTraverse.st = h.st ∧ h.openTraverse.run = h.run ∧ h.openTraverse.uc = h.uc := by
  unfold Chan.openTraverse
  split <;> exact ⟨rfl, rfl, rfl⟩

theorem opened_bankKept (s : State) (c : Ch) : BankKept s (s.modCh c Chan.openTraverse) :=
  BankKept.modCh s c (fun h => (openTraverse_kept h).1) (fun h => (openTraverse_kept h).2.1) fun h => (openTraverse_kept h).2.2

theorem startAll_bankKept (s : State) : BankKept s s.startAll := by
  have hstart : BankKept s (startPrograms s) := BankKept.foldSt (fun c t => (opened_bankKept t c).trans (startProgram_runOf _ c).bankKept) s
  have hstep (t : State) : BankKept t (stepStarted t) := BankKept.ite (BankKept.wr (f := Reg.VOT_DBG_STATE) (by decide) t 1) (BankKept.refl t)
  have hhalt (t : State) : BankKept t (t.haltAll 0 true) :=
    have hop := haltAll_op t 0 true
    .of_eq rfl (fun g hg => hop.regs g ((show ∀ g ∈ atCommitFlds, ∀ f ∈ [Reg.VOT_DBG_STATE, Reg.VOT_DBG_PHASE, Reg.VOT_DBG_CYCLE_CYCLE],
      g.key ≠ f.key by decide) g hg)) rfl rfl id
  have hhalted (t : State) : BankKept t (haltedAtStart t) :=
    (BankKept.foldSt (f := fun c s => s.wr (Reg.LEN_STATUS_RUN (Ch.num c)) 3) (fun c t => BankKept.wr (by cases c <;> decide) t 3) t).trans (hhalt _)
  rw [startAll_eq]
  exact (hstart.trans (hstep _)).trans (BankKept.ite (hhalted _) (BankKept.refl _))

theorem heldEntries_bankKept (h : s.lane.queue = []) : BankKept s s.heldEntries := by
  have hregs (t : State) : BankKept t t.laneRegs :=
    ((BankKept.wr (f := Reg.CMD_RES_HEAD0_WORD0) (by decide) t _).trans (BankKept.wr (f := Reg.CMD_RES_HEAD1_WORD1) (by decide) _ _)).trans
      (BankKept.wr (f := Reg.CMD_LANE_WAITING) (by decide) _ _)
  have hdue : s.due = [] := by
    unfold State.due
    rw [h]
    rfl
  have hheld (t : State) : BankKept t (t.modMd fun x => { x with heldBatch := false }) := .of_eq rfl (fun _ _ => rfl) rfl rfl id
  unfold State.heldEntries
  rw [hdue]
  exact BankKept.ite ((hregs s).trans (hheld _)) (BankKept.refl s)

end Sys2Proof.Claims
end

section
/-! O45: the commit at its target. -/

namespace Sys2Proof.Claims

open Sys2Proof Sys2Proof.Machine

variable {s t u : State} {c d : Ch}

/-! ### The banks change places (R154, R159) -/

theorem swapBank_ch (s : State) (c : Ch) :
    ((s.swapBank c).ch c).run = (s.ch c).uc ∧ ((s.swapBank c).ch c).uc = (s.ch c).run ∧ ((s.swapBank c).ch c).st = (s.ch c).st := by
  have h := runRegs_runOf (((s.modCh c fun h => { h with run := h.uc }).setUc c (s.ch c).run (if s.bankPoisoned c (s.physRun c) then 5 else 3)).wr
    (Reg.LEN_STATUS_BANK_RUN (Ch.num c)) (1 - s.physRun c)) c
  have hch := h.ch
  rw [State.ch_wr, setUc_ch, State.ch_modCh_same] at hch
  unfold State.swapBank
  dsimp only
  rw [hch]
  exact ⟨rfl, rfl, rfl⟩

theorem runRegs_bank (s : State) (c : Ch) {f : Fld} (hf : f ∈ bankFlds) : (s.runRegs c).rd f = s.rd f :=
  (runRegs_runOf s c).regs f (runKey_bank hf)

theorem ucState_mem (d : Ch) : Reg.LEN_STATUS_UC_STATE (Ch.num d) ∈ bankFlds := by cases d <;> decide

theorem physRun_mem (d : Ch) : Reg.LEN_STATUS_BANK_RUN (Ch.num d) ∈ bankFlds := by cases d <;> decide

theorem swapBank_ucState (s : State) (c : Ch) :
    (s.swapBank c).ucState c = (if s.bankPoisoned c (s.physRun c) then 5 else 3) ∧ (s.swapBank c).physRun c = 1 - s.physRun c := by
  have hlt : 1 - s.physRun c < 2 ^ (Reg.LEN_STATUS_BANK_RUN (Ch.num c)).width := by
    have hw : (Reg.LEN_STATUS_BANK_RUN (Ch.num c)).width = 1 := by cases c <;> decide
    rw [hw]
    omega
  have hst : (if s.bankPoisoned c (s.physRun c) then 5 else 3) < 8 := by split <;> decide
  unfold State.swapBank
  dsimp only
  constructor
  · exact (runRegs_bank _ c (ucState_mem c)).trans ((State.rd_wr_ne _ _ _ _ (by cases c <;> decide)).trans (setUc_ucState _ c _ hst))
  · exact (runRegs_bank _ c (physRun_mem c)).trans (State.rd_wr_of_lt _ hlt)

/-- What a change of another channel's banks leaves of a channel. -/
structure SameBank (d : Ch) (s t : State) : Prop where
  ch : t.ch d = s.ch d
  forces : t.forces = s.forces
  ucState : t.ucState d = s.ucState d
  physRun : t.physRun d = s.physRun d

theorem SameBank.refl (d : Ch) (s : State) : SameBank d s s := ⟨rfl, rfl, rfl, rfl⟩

theorem SameBank.trans (h : SameBank d s t) (h' : SameBank d t u) : SameBank d s u :=
  ⟨h'.ch.trans h.ch, h'.forces.trans h.forces, h'.ucState.trans h.ucState, h'.physRun.trans h.physRun⟩

theorem SameBank.poisoned (h : SameBank d s t) : t.bankPoisoned d (t.physRun d) = s.bankPoisoned d (s.physRun d) :=
  runPoisoned_congr h.ch h.forces h.physRun

theorem swapBank_sameBank (s : State) (h : d ≠ c) : SameBank d s (s.swapBank c) := by
  have hop := swapBank_chaseOf s c
  refine ⟨hop.others d h, by rw [hop.frame], ?_, ?_⟩
  · unfold State.swapBank
    refine (runRegs_bank _ c (ucState_mem d)).trans ((State.rd_wr_ne _ _ _ _ ?_).trans (setUc_ucState_ne _ _ _ h))
    revert h
    cases c <;> cases d <;> decide
  · unfold State.swapBank
    refine (runRegs_bank _ c (physRun_mem d)).trans ((State.rd_wr_ne _ _ _ _ ?_).trans (setUc_keeps _ c _ _ _ ?_))
    · revert h
      cases c <;> cases d <;> decide
    · cases c <;> cases d <;> decide

/-- The channels that hold the bank change to it. -/
def banksSwapped (id : Nat) (s : State) : State := foldSt (s.voters.filter fun c => (s.ucWith id).contains c) (fun c s => s.swapBank c) s

/-- The banks of a channel that changes to the committed one. -/
def BankSwapped (d : Ch) (s t : State) : Prop :=
  (t.ch d).run = (s.ch d).uc ∧ (t.ch d).uc = (s.ch d).run ∧ (t.ch d).st = (s.ch d).st ∧
    t.ucState d = (if s.bankPoisoned d (s.physRun d) then 5 else 3) ∧ t.physRun d = 1 - s.physRun d

theorem banksSwapped_in {id : Nat} (hv : d ∈ s.voters) (hid : d ∈ s.ucWith id) : BankSwapped d s (banksSwapped id s) := by
  have hmem : d ∈ s.voters.filter fun c => (s.ucWith id).contains c := List.mem_filter.2 ⟨hv, List.contains_iff_mem.2 hid⟩
  refine foldSt_at (c := d) (P := SameBank d s) (Q := BankSwapped d s) (fun x hx u hu => hu.trans (swapBank_sameBank u hx.symm)) (fun u hu => ?_)
    (fun x hx u hu => ?_) ((nodup_chans _).filter _) hmem (SameBank.refl d s)
  · obtain ⟨hrun, huc, hst⟩ := swapBank_ch u d
    obtain ⟨hstate, hphys⟩ := swapBank_ucState u d
    refine ⟨hrun.trans (congrArg Chan.uc hu.ch), huc.trans (congrArg Chan.run hu.ch), hst.trans (congrArg Chan.st hu.ch), hstate.trans ?_,
      hphys.trans ?_⟩
    · rw [hu.poisoned]
    · rw [hu.physRun]
  · obtain ⟨hrun, huc, hst, hstate, hphys⟩ := hu
    have h := swapBank_sameBank u hx.symm
    exact ⟨(congrArg Chan.run h.ch).trans hrun, (congrArg Chan.uc h.ch).trans huc, (congrArg Chan.st h.ch).trans hst, h.ucState.trans hstate,
      h.physRun.trans hphys⟩

theorem banksSwapped_out {id : Nat} (h : ¬ (d ∈ s.voters ∧ d ∈ s.ucWith id)) : SameBank d s (banksSwapped id s) :=
  foldSt_inv (P := SameBank d s) (fun x hx u hu => by
    obtain ⟨hv, hid⟩ := List.mem_filter.1 hx
    have hne : d ≠ x := by
      rintro rfl
      exact h ⟨hv, List.contains_iff_mem.1 hid⟩
    exact hu.trans (swapBank_sameBank u hne)) (SameBank.refl d s)

/-! ### The commit (R154 to R160) -/

/-- The words of image load are taken under the new banks, and the copies change names. -/
def commitLoaded (w : State → Ch → FMap Word) (s : State) : State :=
  (s.loadCycle (w s) true).modSec fun x => { x with start := s.rd Reg.CMD_PRG_STATE_LOAD_COPY, runCopy := s.rd Reg.CMD_PRG_STATE_LOAD_COPY }

/-- The result of the commit. -/
def commitNoted (copy : Nat) (s : State) : State :=
  (((((s.wr Reg.CMD_PRG_STATE_LOAD_COPY copy).setTarget none).commitResult 1).wrb Reg.CMD_PRG_STATE_SWITCH_BACK true).prgRegs)

/-- The cost of the way back. -/
def wayBackCost (id : Nat) (s : State) : State :=
  s.wr Reg.TMU_CYC_WCET_UC_UC_CLK ((((s.voters.filterMap fun c => (s.ch c).uc).head?).map fun b => b.wcet + b.migrCost id).getD 0)

/-- The kept cycles take the old forces. -/
def keptForced (before : ForceTab) (s : State) : State :=
  foldSt (Ch.all.filter s.keeps) (fun c s => s.modCh c fun h => { h with
    kept := h.kept.map fun x => if x.k = s.tm.cyc then { x with image := forceLoad before x.image } else x }) s

theorem wayBackCost_bankKept (id : Nat) (s : State) : BankKept s (wayBackCost id s) :=
  BankKept.wr (f := Reg.TMU_CYC_WCET_UC_UC_CLK) (by decide) s _

theorem keptForced_bankKept (before : ForceTab) (s : State) : BankKept s (keptForced before s) :=
  BankKept.foldSt (f := fun c s => s.modCh c fun h => { h with
    kept := h.kept.map fun x => if x.k = s.tm.cyc then { x with image := forceLoad before x.image } else x })
    (fun c t => BankKept.modCh t c (fun _ => rfl) (fun _ => rfl) fun _ => rfl) s

theorem storeWritten_bankKept (s : State) (c : Ch) (lo n : Nat) : BankKept s (s.storeWritten c lo n) := (storeWritten_runOf s c lo n).bankKept

theorem remapForces_bankKept (s : State) (b : Bank) : BankKept s (s.remapForces b) := by
  have hput (ft : ForceTab) : BankKept s { s with forces := ft } := .of_eq rfl (fun _ _ => rfl) rfl rfl id
  have hwritten (t : State) (n : Nat) : BankKept t (t.forceWritten n) := BankKept.foldSt (fun c u => storeWritten_bankKept u c _ _) t
  have hkept (t : State) (v : Nat) : BankKept t (t.wr Reg.CMD_PRG_COMMIT_KEPT v) := BankKept.wr (by decide) t v
  have hgone (t : State) (v : Nat) : BankKept t (t.wr Reg.CMD_PRG_COMMIT_REMOVED v) := BankKept.wr (by decide) t v
  have hwrittens (l : ForceTab) (t : State) : BankKept t (foldSt l (fun e s => s.forceWritten e.1) t) :=
    BankKept.foldSt (l := l) (f := fun e s => s.forceWritten e.1) (fun e t => hwritten t e.1) t
  have hlogs (l : ForceTab) (t : State) : BankKept t (foldSt l (fun e s => s.diag 4 Src.prog e.1 (0x00201000 + e.1 * 16) [e.1]) t) :=
    BankKept.foldSt (l := l) (f := fun e s => s.diag 4 Src.prog e.1 (0x00201000 + e.1 * 16) [e.1]) (fun e t => BankKept.diag t _ _ _ _ _) t
  unfold State.remapForces
  exact ((((hput _).trans (hkept _ _)).trans (hgone _ _)).trans (hwrittens _ _)).trans (hlogs _ _)

theorem migrRegs_bankKept (s : State) (b : Bank) (old : Nat) : BankKept s (s.migrRegs b old) := by
  have hskip (t : State) (v : Bool) : BankKept t (t.wrb Reg.CMD_PRG_MIGR_SKIPPED v) := BankKept.wr (by decide) t _
  have hops (t : State) (v : Nat) : BankKept t (t.wr Reg.CMD_PRG_MIGR_OPS v) := BankKept.wr (by decide) t v
  have hcost (t : State) (v : Nat) : BankKept t (t.wr Reg.CMD_PRG_MIGR_COST_CLK v) := BankKept.wr (by decide) t v
  have h := ((hskip s (!b.migr.isEmpty && b.migrFrom.toNat ≠ old)).trans (hops _ (if !b.migr.isEmpty && b.migrFrom.toNat ≠ old then 0 else b.migr.length)))
  have hc := h.trans (BankKept.ite (p := b.migrCost old = 0) (BankKept.refl _) (hcost _ (b.migrCost old)))
  unfold State.migrRegs
  exact BankKept.ite (hc.trans (BankKept.diag _ _ _ _ _ _)) hc

/-- Every channel in the vote migrates from the old bank. -/
def allMigrate (old : Nat) (s : State) : State := foldSt s.voters (fun c s => (s.modCh c Chan.openTraverse).migrate c old) s

theorem allMigrate_bankKept (old : Nat) (s : State) : BankKept s (allMigrate old s) :=
  BankKept.foldSt (f := fun c s => (s.modCh c Chan.openTraverse).migrate c old)
    (fun c t => (opened_bankKept t c).trans (migrate_runOf _ c old).bankKept) s

theorem commitBanks_bankKept (s : State) (id : Nat) (w : State → Ch → FMap Word) :
    BankKept (commitNoted s.sec.runCopy (commitLoaded w (banksSwapped id s).wcetRegs)) (s.commitBanks id w) := by
  have hend (before : ForceTab) (t : State) : BankKept t (keptForced before (wayBackCost id t)) :=
    (wayBackCost_bankKept id t).trans (keptForced_bankKept before _)
  have hmigr (b : Bank) (old : Nat) (t : State) : BankKept t (allMigrate old ((t.remapForces b).migrRegs b old)) :=
    ((remapForces_bankKept t b).trans (migrRegs_bankKept _ b old)).trans (allMigrate_bankKept old _)
  unfold State.commitBanks
  refine BankKept.trans ?_ (hend _ _)
  split
  · exact hmigr _ _ _
  · exact BankKept.refl _

end Sys2Proof.Claims
end

section
/-! O45: the commit at its target, assembled. -/

namespace Sys2Proof.Claims

open Sys2Proof Sys2Proof.Machine

variable {s t u : State} {c d : Ch}

theorem commitLoaded_bankKept (w : State → Ch → FMap Word) (s : State) : BankKept s (commitLoaded w s) := by
  have hsec (t : State) (a b : Nat) : BankKept t (t.modSec fun x => { x with start := a, runCopy := b }) := .of_eq rfl (fun _ _ => rfl) rfl rfl id
  exact (loadCycle_bankKept s (w s) true).trans (hsec _ _ _)

theorem commitLoaded_marked (w : State → Ch → FMap Word) (s : State) : (commitLoaded w s).md.loadDone = true := loadCycle_marked s (w s) true

/-- What the note of a result leaves: every bank, the module's modes and the lane. -/
structure NotedOf (s t : State) : Prop where
  frame : t = { s with regs := t.regs }
  regs : ∀ f ∈ bankFlds, t.rd f = s.rd f

theorem NotedOf.of_keeps {l : List Fld} (hframe : t = { s with regs := t.regs }) (h : keepsRegs s t l)
    (hl : ∀ g ∈ bankFlds, ∀ f ∈ l, g.key ≠ f.key) : NotedOf s t := ⟨hframe, fun g hg => h g (hl g hg)⟩

theorem NotedOf.trans (h : NotedOf s t) (h' : NotedOf t u) : NotedOf s u :=
  ⟨by rw [h'.frame, h.frame], fun f hf => (h'.regs f hf).trans (h.regs f hf)⟩

theorem NotedOf.md (h : NotedOf s t) : t.md = s.md := by rw [h.frame]

theorem NotedOf.lane (h : NotedOf s t) : t.lane = s.lane := by rw [h.frame]

theorem NotedOf.ch (h : NotedOf s t) (d : Ch) : t.ch d = s.ch d := by rw [State.ch, h.frame, State.ch]

theorem targetDropped_noted (s : State) (r : Nat) : NotedOf s ((s.setTarget none).commitResult r) :=
  (NotedOf.of_keeps rfl (setTarget_keeps s none) (by decide)).trans (NotedOf.of_keeps rfl (commitResult_keeps _ r) (by decide))

theorem targetDropped_rd (s : State) {r : Nat} (hr : r < 8) : ((s.setTarget none).commitResult r).rd Reg.CMD_PRG_COMMIT_RESULT = r ∧
    ((s.setTarget none).commitResult r).rdb Reg.CMD_PRG_STATE_COMMIT_PENDING = false :=
  ⟨(commitResult_rd _ hr).1, (rdb_of_rd (commitResult_keeps _ r _ (by decide))).trans (setTarget_pending s none)⟩

theorem commitNoted_noted (copy : Nat) (s : State) : NotedOf s (commitNoted copy s) := by
  have hcopy : NotedOf s (s.wr Reg.CMD_PRG_STATE_LOAD_COPY copy) :=
    .of_keeps rfl (keepsRegs_wr s (l := [Reg.CMD_PRG_STATE_LOAD_COPY]) (.head _) copy) (by decide)
  have hback (t : State) : NotedOf t (t.wrb Reg.CMD_PRG_STATE_SWITCH_BACK true) :=
    .of_keeps rfl (keepsRegs_wr t (l := [Reg.CMD_PRG_STATE_SWITCH_BACK]) (.head _) _) (by decide)
  have hprg (t : State) : NotedOf t t.prgRegs := .of_keeps (prgRegs_frame t) (prgRegs_keeps t) (by decide)
  exact ((hcopy.trans (targetDropped_noted _ 1)).trans (hback _)).trans (hprg _)

theorem commitNoted_rd (copy : Nat) (s : State) : (commitNoted copy s).rd Reg.CMD_PRG_COMMIT_RESULT = 1 ∧
    (commitNoted copy s).rdb Reg.CMD_PRG_STATE_COMMIT_PENDING = false ∧ (commitNoted copy s).rdb Reg.CMD_PRG_STATE_SWITCH_BACK = true := by
  obtain ⟨hres, hpend⟩ := targetDropped_rd (s.wr Reg.CMD_PRG_STATE_LOAD_COPY copy) (r := 1) (by decide)
  unfold commitNoted
  generalize ((s.wr Reg.CMD_PRG_STATE_LOAD_COPY copy).setTarget none).commitResult 1 = t at hres hpend
  have hkeep (f : Fld) (hf : ∀ g ∈ agreeFlds, f.key ≠ g.key) (hb : f.key ≠ Reg.CMD_PRG_STATE_SWITCH_BACK.key) :
      (t.wrb Reg.CMD_PRG_STATE_SWITCH_BACK true).prgRegs.rd f = t.rd f :=
    (prgRegs_rd _ hf).trans (State.rd_wr_ne t Reg.CMD_PRG_STATE_SWITCH_BACK f _ hb)
  exact ⟨(hkeep _ (by decide) (by decide)).trans hres, (rdb_of_rd (hkeep _ (by decide) (by decide))).trans hpend,
    (rdb_of_rd (prgRegs_rd _ (by decide))).trans (State.rdb_wrb_same t (by decide) true)⟩

theorem commitForces_bankKept (s : State) : BankKept s s.commitForces := by
  have hforce (ft : ForceTab) (cs : List Ch) (t : State) : BankKept t (foldSt cs (fun c s => s.forceAll c ft) t) :=
    BankKept.foldSt (fun c u => (forceAll_runOf u c ft).bankKept) t
  have hkeep (ft : ForceTab) (cs : List Ch) (t : State) : BankKept t (foldSt cs (fun c s => s.modCh c fun h => { h with
      kept := h.kept.map fun x => if x.k = s.tm.cyc then { x with forces := ft } else x }) t) :=
    BankKept.foldSt (f := fun c s => s.modCh c fun h => { h with kept := h.kept.map fun x => if x.k = s.tm.cyc then { x with forces := ft } else x })
      (fun c u => BankKept.modCh u c (fun _ => rfl) (fun _ => rfl) fun _ => rfl) t
  have hmd (ft : ForceTab) (t : State) : BankKept t (t.modMd fun x => { x with cycForces := ft }) := .of_eq rfl (fun _ _ => rfl) rfl rfl id
  unfold State.commitForces
  exact ((hforce _ _ _).trans (hkeep _ _ _)).trans (hmd _ _)

/-- The commit is due no longer, and the banks are as they were. -/
structure CommitCleared (s t : State) : Prop where
  st : ∀ d, (t.ch d).st = (s.ch d).st
  run : ∀ d, (t.ch d).run = (s.ch d).run
  uc : ∀ d, (t.ch d).uc = (s.ch d).uc
  regs : ∀ f ∈ atCommitFlds, t.rd f = s.rd f
  due : t.md.commitDue = false
  loaded : s.md.loadDone = true → t.md.loadDone = true

theorem BankKept.cleared (h : BankKept (s.modMd fun x => { x with commitDue := false }) t) : CommitCleared s t :=
  ⟨h.st, h.run, h.uc, h.regs, h.due, h.loaded⟩

/-- What follows the exchange of the banks, to the start of the cycle. -/
def commitStarts (s : State) : State := (s.modMd fun x => { x with commitDue := false }).heldEntries.commitForces.startAll

theorem commitStarts_cleared (h : s.lane.queue = []) : CommitCleared s (commitStarts s) := by
  have hheld := heldEntries_bankKept (s := s.modMd fun x => { x with commitDue := false }) h
  exact ((hheld.trans (commitForces_bankKept _)).trans (startAll_bankKept _)).cleared

theorem banksSwapped_lane (id : Nat) (s : State) : (banksSwapped id s).lane = s.lane :=
  foldSt_inv (P := fun t => t.lane = s.lane) (fun c _ t ht => by rw [(swapBank_chaseOf t c).frame]; exact ht) rfl

theorem wcetRegs_bankKept (s : State) : BankKept s s.wcetRegs := BankKept.wr (f := Reg.TMU_CYC_WCET_RUN_CLK) (by decide) s _

/-- The state whose banks, results and marks the committed cycle keeps. -/
def commitBase (id : Nat) (w : State → Ch → FMap Word) (s : State) : State :=
  commitNoted s.sec.runCopy (commitLoaded w (banksSwapped id s).wcetRegs)

theorem commitBanks_base (id : Nat) (w : State → Ch → FMap Word) (s : State) : BankKept (commitBase id w s) (s.commitBanks id w) :=
  commitBanks_bankKept s id w

theorem commitBase_rd (id : Nat) (w : State → Ch → FMap Word) (s : State) : (commitBase id w s).rd Reg.CMD_PRG_COMMIT_RESULT = 1 ∧
    (commitBase id w s).rdb Reg.CMD_PRG_STATE_COMMIT_PENDING = false ∧ (commitBase id w s).rdb Reg.CMD_PRG_STATE_SWITCH_BACK = true :=
  commitNoted_rd s.sec.runCopy (commitLoaded w (banksSwapped id s).wcetRegs)

theorem commitBase_banks (id : Nat) (w : State → Ch → FMap Word) (s : State) (d : Ch) :
    ((commitBase id w s).ch d).run = ((banksSwapped id s).ch d).run ∧ ((commitBase id w s).ch d).uc = ((banksSwapped id s).ch d).uc ∧
      ((commitBase id w s).ch d).st = ((banksSwapped id s).ch d).st ∧ (commitBase id w s).ucState d = (banksSwapped id s).ucState d ∧
      (commitBase id w s).physRun d = (banksSwapped id s).physRun d := by
  have hload := (wcetRegs_bankKept (banksSwapped id s)).trans (commitLoaded_bankKept w _)
  have hnote := commitNoted_noted s.sec.runCopy (commitLoaded w (banksSwapped id s).wcetRegs)
  have hch : (commitBase id w s).ch d = (commitLoaded w (banksSwapped id s).wcetRegs).ch d := hnote.ch d
  have hreg {f : Fld} (hf : f ∈ bankFlds) : (commitBase id w s).rd f = (banksSwapped id s).rd f :=
    (hnote.regs f hf).trans (hload.regs f (List.mem_append_left _ hf))
  rw [hch]
  exact ⟨hload.run d, hload.uc d, hload.st d, hreg (ucState_mem d), hreg (physRun_mem d)⟩

theorem commitBase_md (id : Nat) (w : State → Ch → FMap Word) (s : State) :
    (commitBase id w s).md.loadDone = true ∧ (commitBase id w s).lane.queue = s.lane.queue := by
  have hnote := commitNoted_noted s.sec.runCopy (commitLoaded w (banksSwapped id s).wcetRegs)
  have hqueue := ((wcetRegs_bankKept (banksSwapped id s)).trans (commitLoaded_bankKept w _)).queue
  have hmd : (commitBase id w s).md = (commitLoaded w (banksSwapped id s).wcetRegs).md := hnote.md
  have hlane : (commitBase id w s).lane = (commitLoaded w (banksSwapped id s).wcetRegs).lane := hnote.lane
  rw [hmd, hlane]
  exact ⟨commitLoaded_marked w _, hqueue.trans (congrArg LaneQ.queue (banksSwapped_lane id s))⟩

/-- The whole of a commit that proceeds. -/
def commitDone (id : Nat) (s : State) : State := commitStarts (s.commitBanks id fun s c => s.sourceWords c true)

/-- A commit that does not proceed, and the cycle's load where it is to run. -/
def commitMissed (s : State) : State :=
  let t := (s.commitFails.modMd fun x => { x with commitDue := false }).heldEntries
  if t.loadsNow then (t.loadCycle (fun c => t.sourceWords c t.md.firstCommit) false).startAll else t

theorem commitAtTarget_goes {id : Nat} (hdue : s.md.commitDue = true) (htaken : s.md.taken = true) (hdown : s.down = false)
    (hrole : s.md.role ≠ .standby) (hid : s.armedId = some id) (hgoes : s.commitGoes = true) (hload : s.loadsNow = true) :
    exec .commitAtTarget s = .next (commitDone id s) := by
  have hx : exec .commitAtTarget s = execCommitAtTarget s := by rfl
  have hpass : (!s.md.commitDue || !s.md.taken || s.down || (decide (s.md.role = .standby) && s.twin && !s.twn.late)) = false := by
    rw [hdue, htaken, hdown, decide_eq_false hrole]
    rfl
  rw [hx, execCommitAtTarget, hpass, if_neg Bool.false_ne_true, hid]
  dsimp only
  rw [hgoes, hload, if_pos (by decide)]
  rfl

theorem commitAtTarget_misses (hdue : s.md.commitDue = true) (htaken : s.md.taken = true) (hdown : s.down = false)
    (hrole : s.md.role ≠ .standby) (hgoes : s.commitGoes = false) : exec .commitAtTarget s = .next (commitMissed s) := by
  have hx : exec .commitAtTarget s = execCommitAtTarget s := by rfl
  have hpass : (!s.md.commitDue || !s.md.taken || s.down || (decide (s.md.role = .standby) && s.twin && !s.twn.late)) = false := by
    rw [hdue, htaken, hdown, decide_eq_false hrole]
    rfl
  rw [hx, execCommitAtTarget, hpass, if_neg Bool.false_ne_true]
  rcases s.armedId with - | id
  · rfl
  · dsimp only
    rw [hgoes, Bool.false_and, if_neg Bool.false_ne_true]
    rfl

theorem commitDone_kept (id : Nat) (hqueue : s.lane.queue = []) :
    CommitCleared (s.commitBanks id fun s c => s.sourceWords c true) (commitDone id s) :=
  commitStarts_cleared ((commitBanks_base id (fun s c => s.sourceWords c true) s).queue.trans
    ((commitBase_md id (fun s c => s.sourceWords c true) s).2.trans hqueue))

/-- A channel's bank registers after a commit. -/
theorem commitDone_banks (id : Nat) (hqueue : s.lane.queue = []) (d : Ch) :
    ((commitDone id s).ch d).run = ((banksSwapped id s).ch d).run ∧ ((commitDone id s).ch d).uc = ((banksSwapped id s).ch d).uc ∧
      ((commitDone id s).ch d).st = ((banksSwapped id s).ch d).st ∧ (commitDone id s).ucState d = (banksSwapped id s).ucState d ∧
      (commitDone id s).physRun d = (banksSwapped id s).physRun d := by
  have hbanks := commitBanks_base id (fun s c => s.sourceWords c true) s
  have hstarts := commitDone_kept id hqueue
  obtain ⟨hrun, huc, hst, hstate, hphys⟩ := commitBase_banks id (fun s c => s.sourceWords c true) s d
  have hreg {f : Fld} (hf : f ∈ bankFlds) : (commitDone id s).rd f = (commitBase id (fun s c => s.sourceWords c true) s).rd f :=
    (hstarts.regs f (List.mem_append_left _ hf)).trans (hbanks.regs f (List.mem_append_left _ hf))
  exact ⟨((hstarts.run d).trans (hbanks.run d)).trans hrun, ((hstarts.uc d).trans (hbanks.uc d)).trans huc,
    ((hstarts.st d).trans (hbanks.st d)).trans hst, (hreg (ucState_mem d)).trans hstate, (hreg (physRun_mem d)).trans hphys⟩

/-- The result of a commit and the marks of its cycle. -/
theorem commitDone_result (id : Nat) (hqueue : s.lane.queue = []) :
    (commitDone id s).rd Reg.CMD_PRG_COMMIT_RESULT = 1 ∧ (commitDone id s).rdb Reg.CMD_PRG_STATE_COMMIT_PENDING = false ∧
      (commitDone id s).rdb Reg.CMD_PRG_STATE_SWITCH_BACK = true ∧ (commitDone id s).md.commitDue = false ∧
      (commitDone id s).md.loadDone = true := by
  have hbanks := commitBanks_base id (fun s c => s.sourceWords c true) s
  have hstarts := commitDone_kept id hqueue
  obtain ⟨hres, hpend, hback⟩ := commitBase_rd id (fun s c => s.sourceWords c true) s
  have hreg {f : Fld} (hf : f ∈ atCommitFlds) : (commitDone id s).rd f = (commitBase id (fun s c => s.sourceWords c true) s).rd f :=
    (hstarts.regs f hf).trans (hbanks.regs f hf)
  exact ⟨(hreg (by decide)).trans hres, (rdb_of_rd (hreg (by decide))).trans hpend, (rdb_of_rd (hreg (by decide))).trans hback, hstarts.due,
    hstarts.loaded (hbanks.loaded (commitBase_md id _ s).1)⟩

theorem commitFails_noted (s : State) : BankKept ((s.setTarget none).commitResult (if s.commitMode && !s.commitTbc then 4 else 2)) s.commitFails :=
  BankKept.diag _ _ _ _ _ _

theorem commitMissed_kept (hqueue : s.lane.queue = []) : CommitCleared s.commitFails (commitMissed s) := by
  have hfail := commitFails_noted s
  have hq : s.commitFails.lane.queue = [] := hfail.queue.trans ((congrArg LaneQ.queue (targetDropped_noted s _).lane).trans hqueue)
  have hheld := heldEntries_bankKept (s := s.commitFails.modMd fun x => { x with commitDue := false }) hq
  unfold commitMissed
  exact (BankKept.ite ((hheld.trans (loadCycle_bankKept _ _ _)).trans (startAll_bankKept _)) hheld).cleared

theorem commitMissed_banks (hqueue : s.lane.queue = []) (d : Ch) : ((commitMissed s).ch d).run = (s.ch d).run ∧
    ((commitMissed s).ch d).uc = (s.ch d).uc ∧ (commitMissed s).ucState d = s.ucState d := by
  have hkept := commitMissed_kept hqueue
  have hfail := commitFails_noted s
  have hnote := targetDropped_noted s (if s.commitMode && !s.commitTbc then 4 else 2)
  have hmem : Reg.LEN_STATUS_UC_STATE (Ch.num d) ∈ atCommitFlds := List.mem_append_left _ (ucState_mem d)
  exact ⟨((hkept.run d).trans (hfail.run d)).trans (congrArg Chan.run (hnote.ch d)),
    ((hkept.uc d).trans (hfail.uc d)).trans (congrArg Chan.uc (hnote.ch d)),
    ((hkept.regs _ hmem).trans (hfail.regs _ hmem)).trans (hnote.regs _ (ucState_mem d))⟩

theorem commitMissed_result (hqueue : s.lane.queue = []) :
    (commitMissed s).rd Reg.CMD_PRG_COMMIT_RESULT = (if s.commitMode = true ∧ s.commitTbc = false then 4 else 2) ∧
      (commitMissed s).rdb Reg.CMD_PRG_STATE_COMMIT_PENDING = false ∧ (commitMissed s).md.commitDue = false := by
  have hkept := commitMissed_kept hqueue
  have hfail := commitFails_noted s
  have hlt : (if s.commitMode && !s.commitTbc then 4 else 2) < 8 := by split <;> decide
  obtain ⟨hres, hpend⟩ := targetDropped_rd s hlt
  have hreg {f : Fld} (hf : f ∈ atCommitFlds) :
      (commitMissed s).rd f = ((s.setTarget none).commitResult (if s.commitMode && !s.commitTbc then 4 else 2)).rd f :=
    (hkept.regs f hf).trans (hfail.regs f hf)
  refine ⟨((hreg (by decide)).trans hres).trans ?_, (rdb_of_rd (hreg (by decide))).trans hpend, hkept.due⟩
  rcases s.commitMode <;> rcases s.commitTbc <;> rfl

theorem commitAtItsTarget_holds : commitAtItsTarget := by
  intro s hdue htaken hdown hrole hqueue
  refine ⟨fun id hid hmode htbc hload => ?_, fun hnot => ?_⟩
  · have hgoes : s.commitGoes = true := by
      unfold State.commitGoes
      rw [hmode, htbc, hid]
      rfl
    obtain ⟨hres, hpend, hback, hdue', hloaded⟩ := commitDone_result (s := s) id hqueue
    refine ⟨_, commitAtTarget_goes hdue htaken hdown hrole hid hgoes hload, hres, hpend, hback, hdue', hloaded, fun c hc => ?_, fun c hc => ?_⟩
    · have hvote : (s.ch c).st = .vote := of_decide_eq_true (List.mem_filter.1 hc).2
      obtain ⟨hrun, huc, hst, hstate, hphys⟩ := commitDone_banks (s := s) id hqueue c
      rw [hrun, huc, hst, hstate, hphys]
      refine ⟨?_, fun hin => ?_, fun hout => ?_⟩
      · by_cases hin : c ∈ s.ucWith id
        · exact (banksSwapped_in hc hin).2.2.1.trans hvote
        · exact (congrArg Chan.st (banksSwapped_out fun h => hin h.2).ch).trans hvote
      · obtain ⟨hrun', huc', -, hstate', hphys'⟩ := banksSwapped_in hc hin
        exact ⟨hrun', huc', hstate', hphys'⟩
      · have hsame := banksSwapped_out (s := s) (id := id) (d := c) fun h => hout h.2
        exact ⟨congrArg Chan.run hsame.ch, congrArg Chan.uc hsame.ch⟩
    · have hsame := banksSwapped_out (s := s) (id := id) (d := c) fun h => hc h.1
      exact (commitDone_banks id hqueue c).1.trans (congrArg Chan.run hsame.ch)
  · have hgoes : s.commitGoes = false := by
      unfold State.commitGoes
      rcases hnot with h | h | h <;> rw [h] <;> simp
    obtain ⟨hres, hpend, hdue'⟩ := commitMissed_result (s := s) hqueue
    exact ⟨_, commitAtTarget_misses hdue htaken hdown hrole hgoes, hres, hpend, hdue', commitMissed_banks hqueue⟩

end Sys2Proof.Claims
end

section
/-! O45: the switch of epochs. -/

namespace Sys2Proof.Claims

open Sys2Proof Sys2Proof.Machine

variable {s t u : State} {c d : Ch}

/-! ### A schedule comes into force (R61, R497) -/

/-- What follows the schedule's own change leaves it, and every block but the network and the registers. -/
structure SchedOp (s t : State) : Prop where
  frame : t = { s with regs := t.regs, ptn := t.ptn }
  sched : t.ptn.sched = s.ptn.sched
  net : t.ptn.net = s.ptn.net

theorem SchedOp.refl (s : State) : SchedOp s s := ⟨rfl, rfl, rfl⟩

theorem SchedOp.trans (h : SchedOp s t) (h' : SchedOp t u) : SchedOp s u :=
  ⟨by rw [h'.frame, h.frame], h'.sched.trans h.sched, h'.net.trans h.net⟩

theorem SchedOp.ite {p : Prop} [Decidable p] (ht : SchedOp s t) (hu : SchedOp s u) : SchedOp s (if p then t else u) := by
  split
  · exact ht
  · exact hu

theorem SchedOp.wr (s : State) (f : Fld) (v : Nat) : SchedOp s (s.wr f v) := ⟨rfl, rfl, rfl⟩

theorem SchedOp.wrb (s : State) (f : Fld) (b : Bool) : SchedOp s (s.wrb f b) := ⟨rfl, rfl, rfl⟩

theorem SchedOp.foldSt {α : Type} {l : List α} {f : α → State → State} (h : ∀ x s, SchedOp s (f x s)) (s : State) : SchedOp s (foldSt l f s) :=
  foldSt_inv (P := SchedOp s) (fun x _ t ht => ht.trans (h x t)) (SchedOp.refl s)

theorem peerBit_schedOp (s : State) (k : Nat) (b : Bool) : SchedOp s (s.peerBit k b) := by
  unfold State.peerBit
  exact SchedOp.ite (SchedOp.wrb s _ _) (SchedOp.wrb s _ _)

/-- The schedule and its configuration take their places. -/
def schedTaken (s : State) (m : FMap Word) (cfg : NetCfg) (epoch : Nat) (switch : Bool) : State :=
  ({ s with tmu := { s.tmu with epoch := epoch } } : State).modPtn fun x => { (if switch then x.carried m else
    { x with staged := [], tx := [], frozen := [], rx := [], rxLate := [], events := [], hdrSeq := [] }) with sched := m, net := cfg }

/-- The codes of a configuration. -/
def codesTaken (cfg : NetCfg) (epoch : Nat) (s : State) : State :=
  (((s.wr Reg.TMU_CYC_CFG_TBC_CODE cfg.tbcCode).wr Reg.TMU_CYC_CFG_M_CODE cfg.mCode).wr Reg.TMU_CYC_CFG_EPOCH epoch).wr
    Reg.TMU_CYC_WINDOW_WINDOW_CLK (windowClk (tbcOf cfg.tbcCode))

theorem applySched_op (s : State) (m : FMap Word) (cfg : NetCfg) (epoch : Nat) (switch : Bool) :
    ∃ u, SchedOp (schedTaken s m cfg epoch switch) u ∧ s.applySched m cfg epoch switch = codesTaken cfg epoch u := by
  have hports (t : State) : SchedOp t (foldSt (List.range 14) (fun p s =>
      ((s.wrb (Reg.PTN_PORT_FREE_FWD p) (p < 4 || cfg.freeFwd.testBit p)).wrb (Reg.PTN_PORT_CONNECTED p) (cfg.connected.testBit p)).wr
        (Reg.TMU_PORT_DELAY_LINK_NS p) (FMap.get 0 cfg.linkNs p)) t) :=
    SchedOp.foldSt (fun p u => ((SchedOp.wrb u _ _).trans (SchedOp.wrb _ _ _)).trans (SchedOp.wr _ _ _)) t
  have hfirst (t : State) (k : Nat) : SchedOp t (t.modPtn fun x => { x with
      rxSeq := FMap.set none x.rxSeq k none, retSeq := FMap.set 0 x.retSeq k (FMap.get 0 x.sentSeq k) }) := ⟨rfl, rfl, rfl⟩
  have hwr (t : State) (f g : Fld) (a b : Nat) : SchedOp t ((t.wr f a).wr g b) := (SchedOp.wr t _ _).trans (SchedOp.wr _ _ _)
  have hwr' (t : State) (f g k l : Fld) (a : Bool) (b d e : Nat) : SchedOp t ((((t.wrb f a).wr g b).wr k d).wr l e) :=
    (((SchedOp.wrb t _ _).trans (SchedOp.wr _ _ _)).trans (SchedOp.wr _ _ _)).trans (SchedOp.wr _ _ _)
  have hlaunch (t : State) (f g k : Fld) (a : Bool) (b d : Nat) : SchedOp t (((t.wrb f a).wr g b).wr k d) :=
    ((SchedOp.wrb t _ _).trans (SchedOp.wr _ _ _)).trans (SchedOp.wr _ _ _)
  unfold State.applySched
  refine ⟨_, ?_, rfl⟩
  refine (((SchedOp.trans ?_ (SchedOp.wr _ _ _)).trans (SchedOp.wr _ _ _)).trans (SchedOp.wr _ _ _))
  refine SchedOp.trans ?_ (SchedOp.foldSt (fun l u => ?_) _)
  swap
  · split
    · exact hlaunch u _ _ _ _ _ _
    · exact hlaunch u _ _ _ _ _ _
  split
  all_goals
    refine SchedOp.trans ?_ (hwr' _ _ _ _ _ _ _ _ _)
    refine SchedOp.trans ?_ (SchedOp.wr _ _ _)
    refine SchedOp.trans ?_ (SchedOp.foldSt (fun k u => ?_) _)
    · refine SchedOp.trans ?_ (hports _)
      exact (((hwr _ _ _ _ _).trans (SchedOp.wr _ _ _)).trans (SchedOp.wr _ _ _)).trans (SchedOp.wr _ _ _)
    · have hpeer := SchedOp.ite (p := switch = true) ((hfirst u k).trans ((SchedOp.wr _ (Peer.ret k) 2).trans (peerBit_schedOp _ k false)))
        (hfirst u k)
      exact ((SchedOp.ite hpeer (SchedOp.refl u)).trans (SchedOp.wrb _ _ _)).trans (SchedOp.ite (hwr _ _ _ _ _) (SchedOp.refl _))

/-! ### The cycle number and the scrubber under the new codes -/

def paceFlds : List Fld := [Reg.MIU_SCRUB_PACE 0, Reg.MIU_SCRUB_PACE 1, Reg.MIU_SCRUB_PACE 2] ++ logFlds

theorem scrubRegs_reports (s : State) (event : Bool) : Reports s (s.scrubRegs event) paceFlds := by
  have hmem (c : Ch) : Reg.MIU_SCRUB_PACE (Ch.num c) ∈ paceFlds := by cases c <;> decide
  have hpace (t : State) : Reports t (foldSt (Ch.all.filter t.booted) (fun c s => s.wr (Reg.MIU_SCRUB_PACE (Ch.num c)) (s.scrubPace (Ch.num c))) t) paceFlds :=
    foldSt_inv (P := fun u => Reports t u paceFlds) (fun c _ u hu => hu.wr (hmem c) _) (Reports.refl t _)
  unfold State.scrubRegs
  dsimp only
  split
  · exact (hpace s).diag (logFlds_sub _) _ _ _ _ _
  · exact hpace s

/-- The end of an epoch's switch. -/
def epochDone (s : State) : State :=
  (((s.epochEnd 3).wrb Reg.PTN_STATUS_NEXT_LOADED false).modPtn fun x => { x with nextSched := [], nextNet := NetCfg.none }).renumber.scrubRegs true

def epochFlds : List Fld :=
  [Reg.SEC_EPOCH_STATE, Reg.SEC_EPOCH_TGT_LO_T_LO, Reg.SEC_EPOCH_TGT_HI_T_HI, Reg.PTN_STATUS_NEXT_LOADED, Reg.TMU_CYC_INDEX_CYCLE,
    Reg.TMU_CYC_INDEX_MX_INDEX] ++ paceFlds

theorem renumber_regs (s : State) : keepsRegs s s.renumber [Reg.TMU_CYC_INDEX_CYCLE, Reg.TMU_CYC_INDEX_MX_INDEX] := by
  have h (t : State) (a b : Nat) : keepsRegs t ((t.wr Reg.TMU_CYC_INDEX_CYCLE a).wr Reg.TMU_CYC_INDEX_MX_INDEX b)
      [Reg.TMU_CYC_INDEX_CYCLE, Reg.TMU_CYC_INDEX_MX_INDEX] := ((keepsRegs_refl t _).wr (.head _) a).wr (.tail _ (.head _)) b
  exact h { s with tm := { s.tm with cyc := s.tm.tcNs / s.tbc } } _ _

theorem epochEnd_regs (s : State) (n : Nat) : keepsRegs s (s.epochEnd n) [Reg.SEC_EPOCH_STATE, Reg.SEC_EPOCH_TGT_LO_T_LO, Reg.SEC_EPOCH_TGT_HI_T_HI] :=
  (((keepsRegs_refl s _).wr (f := Reg.SEC_EPOCH_STATE) (by decide) n).wr (f := Reg.SEC_EPOCH_TGT_LO_T_LO) (by decide) 0).wr
    (f := Reg.SEC_EPOCH_TGT_HI_T_HI) (by decide) 0

theorem epochEnd_state (s : State) {n : Nat} (h : n < 2 ^ Reg.SEC_EPOCH_STATE.width) : (s.epochEnd n).rd Reg.SEC_EPOCH_STATE = n :=
  (State.rd_wr_ne _ Reg.SEC_EPOCH_TGT_HI_T_HI _ 0 (by decide)).trans ((State.rd_wr_ne _ Reg.SEC_EPOCH_TGT_LO_T_LO _ 0 (by decide)).trans
    (State.rd_wr_of_lt s h))

/-- The present schedule gives way: the marks of the switch. -/
def epochMarked (s : State) : State :=
  ((s.epochEnd 3).wrb Reg.PTN_STATUS_NEXT_LOADED false).modPtn fun x => { x with nextSched := [], nextNet := NetCfg.none }

theorem epochMarked_rd (s : State) : (epochMarked s).rd Reg.SEC_EPOCH_STATE = 3 ∧ (epochMarked s).rdb Reg.PTN_STATUS_NEXT_LOADED = false :=
  ⟨(State.rd_wr_ne (s.epochEnd 3) Reg.PTN_STATUS_NEXT_LOADED Reg.SEC_EPOCH_STATE (bitNat false) (by decide)).trans (epochEnd_state s (by decide)),
    State.rdb_wrb_same (s.epochEnd 3) (by decide) false⟩

theorem epochMarked_keeps (s : State) : keepsRegs s (epochMarked s) epochFlds := by
  have hend : keepsRegs s (s.epochEnd 3) epochFlds := (epochEnd_regs s 3).mono (by decide)
  exact (hend.wrb (f := Reg.PTN_STATUS_NEXT_LOADED) (by decide) false).of_regs rfl

theorem epochDone_eq (s : State) : epochDone s = (epochMarked s).renumber.scrubRegs true := rfl

theorem renumber_frame (s : State) : s.renumber = { s with regs := s.renumber.regs, tm := { s.tm with cyc := s.tm.tcNs / s.tbc } } := rfl

theorem renumbered_rest (m : State) : (m.renumber.scrubRegs true).md = m.md ∧ (m.renumber.scrubRegs true).chs = m.chs ∧
    (m.renumber.scrubRegs true).tmu = m.tmu ∧ (m.renumber.scrubRegs true).ptn = m.ptn ∧
    (m.renumber.scrubRegs true).tm = { m.tm with cyc := m.tm.tcNs / m.tbc } := by
  have h := (scrubRegs_reports m.renumber true).frame
  have hn := renumber_frame m
  refine ⟨?_, ?_, ?_, ?_, ?_⟩ <;> rw [h, hn]

theorem epochDone_rest (s : State) : (epochDone s).md = s.md ∧ (epochDone s).chs = s.chs ∧ (epochDone s).tmu = s.tmu ∧
    (epochDone s).ptn = { s.ptn with nextSched := [], nextNet := NetCfg.none } ∧
    (epochDone s).tm = { s.tm with cyc := s.tm.tcNs / (epochMarked s).tbc } := renumbered_rest (epochMarked s)

theorem epochDone_after (s : State) : keepsRegs (epochMarked s) (epochDone s) ([Reg.TMU_CYC_INDEX_CYCLE, Reg.TMU_CYC_INDEX_MX_INDEX] ++ paceFlds) :=
  ((renumber_regs (epochMarked s)).mono (by decide)).trans ((scrubRegs_reports (epochMarked s).renumber true).regs.mono (by decide))

theorem epochDone_keeps (s : State) : keepsRegs s (epochDone s) epochFlds := (epochMarked_keeps s).trans ((epochDone_after s).mono (by decide))

theorem epochDone_rd (s : State) : (epochDone s).rd Reg.SEC_EPOCH_STATE = 3 ∧ (epochDone s).rdb Reg.PTN_STATUS_NEXT_LOADED = false :=
  ⟨(epochDone_after s _ (by decide)).trans (epochMarked_rd s).1, (rdb_of_rd (epochDone_after s _ (by decide))).trans (epochMarked_rd s).2⟩

theorem tbc_same (hmd : t.md = s.md) (hcode : t.rd Reg.TMU_CYC_CFG_TBC_CODE = s.rd Reg.TMU_CYC_CFG_TBC_CODE) : t.tbc = s.tbc := by
  unfold State.tbc
  rw [hmd, hcode]

theorem renumbered_code (m : State) : (m.renumber.scrubRegs true).rd Reg.TMU_CYC_CFG_TBC_CODE = m.rd Reg.TMU_CYC_CFG_TBC_CODE :=
  ((scrubRegs_reports m.renumber true).regs Reg.TMU_CYC_CFG_TBC_CODE (by decide)).trans (renumber_regs m Reg.TMU_CYC_CFG_TBC_CODE (by decide))

theorem renumbered_tbc (m : State) : (m.renumber.scrubRegs true).tbc = m.tbc := tbc_same (renumbered_rest m).1 (renumbered_code m)

theorem epochDone_tbc (s : State) : (epochDone s).tbc = (epochMarked s).tbc := renumbered_tbc (epochMarked s)

theorem codesTaken_rd (cfg : NetCfg) (epoch : Nat) (s : State) :
    (codesTaken cfg epoch s).rd Reg.TMU_CYC_CFG_TBC_CODE = cfg.tbcCode % 16 ∧ (codesTaken cfg epoch s).rd Reg.TMU_CYC_CFG_M_CODE = cfg.mCode % 8 := by
  unfold codesTaken
  constructor
  · rw [State.rd_wr_ne _ _ _ _ (by decide), State.rd_wr_ne _ _ _ _ (by decide), State.rd_wr_ne _ _ _ _ (by decide)]
    exact State.rd_wr_same s _ _
  · rw [State.rd_wr_ne _ _ _ _ (by decide), State.rd_wr_ne _ _ _ _ (by decide)]
    exact State.rd_wr_same _ _ _

theorem epochSwitch_goes {b : Bank} (hst : s.rd Reg.SEC_EPOCH_STATE = 2) (htgt : s.tm.tcNs = s.sec.epochTgt) (hvalid : s.timeValid = true)
    (htaken : s.md.taken = false) (hdown : s.down = false) (hdue : s.md.commitDue = false) (hb : s.runBank = some b)
    (hfits : b.tbc = s.ptn.nextNet.tbcCode) :
    exec .epochSwitch s = .next (epochDone (s.applySched s.ptn.nextSched s.ptn.nextNet s.sec.epochNext true)) := by
  have hx : exec .epochSwitch s = execEpochSwitch s := by rfl
  have hpass : (decide (s.rd Reg.SEC_EPOCH_STATE ≠ 2) || decide (s.tm.tcNs ≠ s.sec.epochTgt) || !s.timeValid || s.md.taken || s.down) = false := by
    rw [hst, htgt, hvalid, htaken, hdown]
    simp
  rw [hx, execEpochSwitch]
  dsimp only
  rw [hpass, if_neg Bool.false_ne_true, hdue, hb]
  dsimp only
  rw [if_neg (by simp [hfits])]
  rfl

theorem epochSwitch_turned {b : Bank} (hst : s.rd Reg.SEC_EPOCH_STATE = 2) (htgt : s.tm.tcNs = s.sec.epochTgt) (hvalid : s.timeValid = true)
    (htaken : s.md.taken = false) (hdown : s.down = false) (hdue : s.md.commitDue = false) (hb : s.runBank = some b)
    (hfits : b.tbc ≠ s.ptn.nextNet.tbcCode) : exec .epochSwitch s = .next ((s.epochEnd 5).diag 4 Src.sec 0 0x00F00040) := by
  have hx : exec .epochSwitch s = execEpochSwitch s := by rfl
  have hpass : (decide (s.rd Reg.SEC_EPOCH_STATE ≠ 2) || decide (s.tm.tcNs ≠ s.sec.epochTgt) || !s.timeValid || s.md.taken || s.down) = false := by
    rw [hst, htgt, hvalid, htaken, hdown]
    simp
  rw [hx, execEpochSwitch]
  dsimp only
  rw [hpass, if_neg Bool.false_ne_true, hdue, hb]
  dsimp only
  rw [if_pos (by simp [hfits])]

theorem epochSwitchAtItsTarget_holds : epochSwitchAtItsTarget := by
  intro s hst htgt hvalid htaken hdown hdue b hb
  refine ⟨fun hfits => ⟨_, epochSwitch_goes hst htgt hvalid htaken hdown hdue hb hfits, ?_⟩, fun hfits =>
    ⟨_, epochSwitch_turned hst htgt hvalid htaken hdown hdue hb hfits, ?_, ?_, ?_⟩⟩
  · obtain ⟨u, hop, hu⟩ := applySched_op s s.ptn.nextSched s.ptn.nextNet s.sec.epochNext true
    obtain ⟨htbc, hm⟩ := codesTaken_rd s.ptn.nextNet s.sec.epochNext u
    rw [hu]
    generalize hv : codesTaken s.ptn.nextNet s.sec.epochNext u = v at htbc hm
    have hframe : v = { schedTaken s s.ptn.nextSched s.ptn.nextNet s.sec.epochNext true with regs := v.regs, ptn := u.ptn } := by
      have hcodes : v = { u with regs := v.regs } := by rw [← hv]; rfl
      rw [hcodes, hop.frame]
    have hptn : v.ptn = u.ptn := by rw [hframe]
    have htmu : v.tmu.epoch = s.sec.epochNext := by rw [hframe]; rfl
    have htm : v.tm = s.tm := by rw [hframe]; rfl
    have hmd : v.md = s.md := by rw [hframe]; rfl
    have hchs : v.chs = s.chs := by rw [hframe]; rfl
    obtain ⟨hstate, hnext⟩ := epochDone_rd v
    obtain ⟨hmd', hchs', htmu', hptn', htm'⟩ := epochDone_rest v
    refine ⟨?_, ?_, ?_, hstate, hnext, ?_, (epochDone_keeps v _ (by decide)).trans htbc, (epochDone_keeps v _ (by decide)).trans hm, ?_, ?_,
      hmd'.trans hmd, hchs'.trans hchs⟩
    · rw [hptn', hptn, hop.sched]
      rfl
    · rw [hptn', hptn, hop.net]
      rfl
    · rw [hptn']
    · rw [htmu', htmu]
    · rw [htm', htm]
    · rw [epochDone_tbc, htm', htm]
  · exact (keepsRegs_diag _ _ _ _ _ _ _ (by decide)).trans (epochEnd_state s (by decide))
  · exact ((epochEnd_regs s 5).mono (by decide)).trans ((keepsRegs_diag _ _ _ _ _ _).mono (by decide))
  · rw [diag_frame]
    rfl

/-- Settles O45, the commit from what its steps leave of the banks, the switch of epochs from its marks. -/
theorem commitsAndEpochSwitches : Obligations.CommitsAndEpochSwitches := ⟨commitAtItsTarget_holds, epochSwitchAtItsTarget_holds⟩

end Sys2Proof.Claims
end
